-- ==== Sys2Proof/Word.lean ====
section
/-! DEFINITION. The word types of the module's address space and their plainest arithmetic (R6, R7, R90). -/

namespace Sys2Proof

/-- A byte of the address space (R7). -/
abbrev Byte := BitVec 8

/-- A 32-bit word of the address space (R90: every access moves one 32-bit word). -/
abbrev Word := BitVec 32

/-- The bits `lo` to `lo + w - 1` of a number, numbered from 0 at the least significant bit (R6). -/
def bitsOf (x lo w : Nat) : Nat := x / 2 ^ lo % 2 ^ w

/-- Bit `i` of a number (R6). -/
def bitOf (x i : Nat) : Bool := bitsOf x i 1 == 1

/-- 1 for true, 0 for false. -/
def b2n (b : Bool) : Nat := if b then 1 else 0

end Sys2Proof
end

