-- ==== Sys2Proof/Syntax.lean ====
section
/-! DEFINITION. The commands the block takes: one constructor of `Instr` for each row of
spec/opcode_table.json, in the table's order, with the operand types they carry.

The table gives a row no bits, so a command is a term and not a word. A time within a frame is an
operand `cyc`, the timebase cycle 0 to 1249 of the frame (FRAME.POS, Table 2.4); an instant finer than
that is a rational number of lane LSB (2^-9 ns) counted from a tick. -/

namespace Sys2Proof

/-- The two host ports (Register pages and host ports, *Parts*). -/
inductive Port where
  | spi | i2c
  deriving DecidableEq, Repr

/-- The pages of Table 3.2, without their instance number; `chan` is an entry of the Channel Table, which is
memory and no page (R129) and never the operand of a command. -/
inductive Page where
  | sys | part | frame | lane | rows | harv | sel | dpll | apll | out | time | eth | ptpts
  | shelf | root | cellar | bbox | pwr | osc | dbg | chan
  deriving DecidableEq, Repr

/-- A host access: the port, the partition tag 0 to 7 as received, and the cycle at which it is taken
(R30, R59, R97). -/
structure Access where
  port : Port
  tag  : Nat
  cyc  : Nat
  deriving DecidableEq, Repr

/-- The levels of the strap pads when they are sampled (Table 19.5). -/
structure Straps where
  addr0 : Bool
  addr1 : Bool
  crc   : Bool
  debug : Bool
  deriving DecidableEq, Repr

/-- What the board and the supervisor present when a power-on reset begins (R539, R540): the strap
pads, the jitter reference, the two measured voltages in mV. -/
structure StartIn where
  straps : Straps
  jitterRef : Bool
  vinMv : Nat
  holdupMv : Nat
  deriving DecidableEq, Repr

/-- An edge at an input of the crossbar: its time in LSB from the opening tick of the acquisition
interval, and whether it rises. -/
structure Edge where
  t : Rat
  rise : Bool
  deriving DecidableEq, Repr

/-- What a calibration pair of a lane gave: the result in LSB, or none; and whether a converter code lay
out of its range (R165, R166). -/
structure CalResult where
  lane : Nat
  result : Option Int
  codeBad : Bool
  deriving DecidableEq, Repr

/-- What reaches the module from outside during the acquisition interval that a tick closes, and what
its own analog parts measured in it. -/
structure FrameIn where
  /-- edges at the input of each lane function in order of time (CH0-CH9, FB0-FB3, EXTTB_IN, SELF); those up to 8190 LSB
  past the closing tick only end intervals (R176) and are listed again in the next interval -/
  edges : List (List Edge)
  /-- edges of the OCXO against the timebase in use, which function EXTTB measures while EXTTB_IN is in use (R151) -/
  ocxo : List Edge := []
  /-- bit n set: pad REFn was overdriven in the interval (R180) -/
  overdrive : Nat
  /-- calibration pairs timed in the interval (R165, R168) -/
  cal : List CalResult
  /-- lanes that gave a converter code out of range on a conversion other than calibration (R166) -/
  codeBad : Nat
  /-- the self-check result of the frame minus the stored value of the lane that serves SELF (R167) -/
  selfDev : Int
  /-- fractional frequency error of the jitter reference against the timebase in the interval (R324) -/
  jitter : Rat := 0
  /-- VCO cycles in the interval of each APLL, which count for one that coasts: its held tuning gives them (R331, R354) -/
  vco : List Nat
  /-- supply measurements of the frame in mV, mA, mW (R534) -/
  vinMv : Nat
  holdupMv : Nat
  iinMa : Nat
  pinMw : Nat
  /-- heater currents in mA and the ovens' in-regulation report (R527, R529) -/
  heaterOuter : Nat
  heaterInner : Nat
  regulating : Bool
  deriving DecidableEq, Repr

/-- The frame in which nothing arrives (R49: the acquisition interval of frame 0 is empty). -/
def FrameIn.quiet (vin holdup : Nat) : FrameIn :=
  { edges := [], overdrive := 0, cal := [], codeBad := 0, selfDev := 0, vco := [], vinMv := vin, holdupMv := holdup,
    iinMa := 0, pinMw := 0, heaterOuter := 0, heaterInner := 0, regulating := false }

/-- An SPI write transaction (Tables 3.7, 3.8): the header's fields, the data words, the CRC shifted in
with STRAP_CRC high, and the bit after which SPI_CS_N rose if it rose early. -/
structure SpiWrite where
  tag  : Nat
  len  : Nat
  addr : Nat
  data : List Nat
  crc  : Nat
  cut  : Option Nat
  cyc  : Nat
  deriving DecidableEq, Repr

/-- An SPI read transaction (Tables 3.7, 3.8). -/
structure SpiRead where
  tag  : Nat
  len  : Nat
  addr : Nat
  crc  : Nat
  cut  : Option Nat
  cyc  : Nat
  deriving DecidableEq, Repr

/-- A two-wire write transaction (R121): the 7-bit address called, the header, the data bytes as words,
the CRC bytes, and the number of bytes after the address byte if a STOP came early. -/
structure I2cWrite where
  dev  : Nat
  tag  : Nat
  len  : Nat
  addr : Nat
  data : List Nat
  crc  : Nat
  stop : Option Nat
  cyc  : Nat
  deriving DecidableEq, Repr

/-- A two-wire read transaction (R122), with the bytes clocked past its end. -/
structure I2cRead where
  dev  : Nat
  tag  : Nat
  len  : Nat
  addr : Nat
  crc  : Nat
  stop : Option Nat
  extra : Nat
  cyc  : Nat
  deriving DecidableEq, Repr

/-- An Ethernet frame at the receive pads: its bytes from the destination address to before the FCS,
whether the FCS is valid, and the raw strobe time (frame number and offset in LSB, R403). -/
structure EthFrame where
  bytes : List Nat
  fcsOk : Bool
  rawF  : Nat
  rawO  : Nat
  deriving DecidableEq, Repr

/-- The header fields of a received PTP message that Leaf acts on, whether it is of a kind that Table 12.4 does not support (a
security, alternate-timescale or path-trace TLV, or unicast mixed with multicast), and its strobe time (R394, R398, R403). -/
structure PtpMsg where
  port : Nat
  version : Nat
  minorVersion : Nat
  domainNumber : Nat
  clockId : Nat
  portNum : Nat
  seqId : Nat
  twoStep : Bool
  odd : Bool
  correction : Int
  rawF : Nat
  rawO : Nat
  deriving DecidableEq, Repr

/-- What the best master choice decides for a port at an Announce (R394): its sender is the parent, or the port is a master
after `wait` Announce intervals, or passive, or nothing changes. -/
inductive BestMaster where
  | parent
  | master (wait : Nat)
  | passive
  | same
  deriving DecidableEq, Repr

/-- The body of a received Announce (R400, R401). -/
structure AnnounceBody where
  gmClass : Nat
  steps : Nat
  utcValid : Bool
  utcOfs : Int
  leap61 : Bool
  leap59 : Bool
  best : BestMaster
  deriving DecidableEq, Repr

/-- The enhanced SSM TLV (R254, R393): enhanced code, clockIdentity, flags and the two cascade counts. -/
structure EsmcTlv where
  ecode : Nat
  clockId : Nat
  flags : Nat
  cascade : Nat × Nat
  deriving DecidableEq, Repr

/-- An ESMC PDU as Leaf reads it (R254, R392): OUI, ITU subtype, version, event flag, SSM code, and the
enhanced SSM TLV when it is present. -/
structure EsmcPdu where
  oui : Nat
  subtype : Nat
  version : Nat
  event : Bool
  ssm : Nat
  tlv : Option EsmcTlv
  deriving DecidableEq, Repr

/-- A CAN FD frame at the shelf bus: identifier, the marks of its format and its payload (R418, R422). -/
structure CanFrame where
  ident : Nat
  extended : Bool
  fd : Bool
  remote : Bool
  payload : List Nat
  deriving DecidableEq, Repr

/-- What a margin read of the scrubber found (R503). -/
inductive ScrubRead where
  | tightOk | tightFail | normalFail
  deriving DecidableEq, Repr

/-- The two supply voltages that a supply check reads, in mV (R487). -/
structure Supply where
  vinMv : Nat
  holdupMv : Nat
  deriving DecidableEq, Repr

/-- A read of a domain's NOW_NS: the domain and the timebase cycle of the read (R358). -/
structure DomRead where
  dom : Nat
  cyc : Nat
  deriving DecidableEq, Repr

/-- A frame of TX_FRAME as it leaves: its bytes and its strobe, a raw frame number and offset (R402, R403). -/
structure SentFrame where
  bytes : List Nat
  rawF  : Nat
  rawO  : Nat
  deriving DecidableEq, Repr

/-- A delay request as it leaves: the port and its strobe (R402, R415). -/
structure SentReq where
  port : Nat
  rawF : Nat
  rawO : Nat
  deriving DecidableEq, Repr

/-- The commands of the block, one for each row of the table. -/
inductive Instr where
  | powerOnReset (i : StartIn)
  | resetNFall
  | resetNRelease (straps : Straps)
  | timebaseQualified
  | tbFallback
  | tbSwitch
  | tbLost
  | procReset
  | softReset (key : Nat)
  | frameTick (i : FrameIn)
  | qualifierWindowClose
  | laneCalibration (r : CalResult)
  | spareCalDone (lane : Nat)
  | padOverdrive (pad : Nat)
  | suspectEnd (pad : Nat)
  | actTimeout (chan : Nat)
  | qlTimeout (chan : Nat)
  | holdOffExpiry (dom chan : Nat)
  | wtrExpiry (dom chan : Nat)
  | lockAchieved (dom : Nat)
  | slewDone (dom : Nat)
  | bridgeEnd (dom : Nat)
  | historySegment (dom : Nat)
  | duskExpiry (dom : Nat)
  | steppedEnd (dom : Nat)
  | nop (p : Nat)
  | openZero (p row : Nat)
  | openBias (p row : Nat) (bias : Int)
  | openResidual (p row src : Nat)
  | openCarry (p row : Nat)
  | acc (p row src : Nat) (ramp : Bool) (first col cntM1 : Nat)
  | diff (p row src : Nat) (ramp : Bool) (first col cntM1 : Nat)
  | xdif (p row srcA srcB : Nat) (ramp : Bool) (col cntM1 : Nat)
  | sync (p skip : Nat) (neg : Bool) (trig : Nat)
  | close (p row : Nat)
  | endProg (p : Nat)
  | spiWrite (t : SpiWrite)
  | spiRead (t : SpiRead)
  | i2cWrite (t : I2cWrite)
  | i2cRead (t : I2cRead)
  | i2cHoldTimeout
  | hostRegisterWrite (a : Access) (addr value : Nat)
  | portStatusRead (port : Port)
  | frnLoRead (port : Port) (page : Page)
  | frnHiRead (port : Port) (page : Page)
  | nowNsRead (port : Port) (r : DomRead)
  | nowSecRead (port : Port) (dom reg : Nat)
  | accDebugRead (port : Port) (tag addr : Nat)
  | snapReq (a : Access) (page : Page) (n : Nat)
  | snapAll (a : Access)
  | evtClear (a : Access) (page : Page) (n bits : Nat)
  | counterClear (a : Access) (addr value : Nat)
  | partReset (a : Access) (p : Nat)
  | channelTableWrite (a : Access) (addr value : Nat)
  | descriptorWrite (row value : Nat)
  | progBaseWrite (p value : Nat)
  | progWinWrite (p i value : Nat)
  | swap (p : Nat)
  | rdIdxWrite (p value : Nat)
  | loopBwWrite (dom : Nat) (bw damp : Option Nat)
  | setAbs (dom : Nat)
  | setRel (dom : Nat)
  | trigArm (dom k : Nat)
  | trigDisarm (dom k : Nat)
  | capArm (dom c : Nat)
  | capCancel (dom c : Nat)
  | apply (n : Nat)
  | epoch (n : Nat)
  | outEnable (n : Nat)
  | outDisable (n : Nat)
  | pulseModeChange (n : Nat) (pulse : Bool)
  | dividerChange (n : Nat) (div coarse : Option Nat)
  | fineWrite (n fine : Nat)
  | pulsePeriodWrite (n : Nat) (code perNs widthNs : Option Nat)
  | palignWrite (n chan : Nat) (en : Bool)
  | palignOfsHiWrite (n hi : Nat)
  | baudWrite (dom baud : Nat)
  | storeCmd (p first countM1 : Nat)
  | verify
  | commit
  | abort
  | imageLoad
  | imageActivate
  | imageCancel
  | leafRestartCmd
  | debugRequest
  | debugRevoke
  | portEnable (n : Nat)
  | portDisable (n : Nat)
  | restartAn (n : Nat)
  | rdSeqWrite (value : Nat)
  | policyCommit
  | verifyDone
  | imageDone
  | leafStart
  | leafWdtExpiry
  | leafMpuFault
  | leafException
  | debugExpiry
  | qlDeliver (chan source node ssm : Nat) (ecode : Option Nat) (cyc : Nat)
  | pktEstimate (inst chan fe : Nat) (m r : Rat) (cyc : Nat)
  | timeChange (inst dom : Nat) (delta : Rat) (cyc : Nat)
  | utcUpdate (inst part : Nat) (ofs : Int) (leap61 leap59 : Bool) (cyc : Nat)
  | txFrame (inst port : Nat) (f : SentFrame)
  | shelfTx (type : Nat) (payload : List Nat)
  | regRead (addr count : Nat)
  | pageReport (addr value cyc : Nat)
  | journal (code part data : Nat)
  | cellarStore (first count : Nat)
  | storeRequest (first count : Nat)
  | ringPut (key : Nat) (data : List Nat)
  | wdtKick
  | restartSelf (reason : Nat)
  | secondsRollover (dom : Nat)
  | trigFire (dom k : Nat) (edges : List Rat)
  | capDone (dom c : Nat)
  | todMessage (dom : Nat)
  | nmeaSentence (dom : Nat) (text : List Nat) (afterUs : Nat)
  | apllLockLost (n : Nat)
  | relock (n : Nat)
  | retuneLock (n : Nat)
  | refLost
  | refReturn
  | dllLol (n : Nat)
  | dllRelock (n : Nat)
  | ethFrameReceive (port : Nat) (f : EthFrame)
  | pcsLock (port : Nat) (speedOk : Bool)
  | pcsLockLoss (port : Nat)
  | calDone (port : Nat) (rxMean txMean : Int)
  | esmcPduReceive (port : Nat) (pdu : EsmcPdu) (cyc : Nat)
  | esmcInfoPdu (port : Nat)
  | esmcEventPdu (port : Nat)
  | syncReceive (inst : Nat) (m : PtpMsg) (origin rate : Rat) (cyc : Nat)
  | followUpReceive (inst : Nat) (m : PtpMsg) (origin rate : Rat) (cyc : Nat)
  | followUpTimeout (inst : Nat)
  | announceReceive (inst : Nat) (m : PtpMsg) (b : AnnounceBody) (cyc : Nat)
  | delayReqReceive (inst : Nat) (m : PtpMsg)
  | pdelayReqReceive (inst : Nat) (m : PtpMsg) (depF depO : Nat)
  | unicastRequest (inst port slave : Nat) (logInterval : Int) (duration : Nat)
  | syncTransmit (inst port : Nat) (bytes : List Nat) (rawF rawO : Nat)
  | announceTransmit (inst port : Nat)
  | ptpReopen (inst : Nat)
  | shelfStatusTx
  | shelfElectTx
  | shelfQlFwdTx
  | shelfTodTx
  | alert (kind part dom data : Nat)
  | shelfElectRx (f : CanFrame)
  | shelfQlFwdRx (f : CanFrame) (cyc : Nat)
  | shelfTodRx (f : CanFrame)
  | regReq (f : CanFrame)
  | regResp
  | peerLost (node : Nat)
  | silent
  | busOff (tec : Nat)
  | busOffRecovery
  | powerFail (vinMv holdupMv : Nat)
  | vinGlitch
  | pfRecovered (vinMv msLow : Nat)
  | shutdown
  | holdupOk (holdupMv : Nat)
  | capEstimate (us : Nat)
  | vaux3Oc
  | vaux3Retry (loadMa : Nat)
  | vinRange (vinMv : Nat)
  | warmupDone
  | ovenFault
  | warmupRestart
  | heaterSat
  | heaterIdle
  | holdupFirst18v (v : Supply)
  | blockStoreDone (v : Supply)
  | storeDeferRetry (v : Supply)
  | storeFailed (v : Supply)
  | scrub (r : ScrubRead)
  | ringStore (v : Supply)
  | bboxEntryWrite
  | queueLost
  | suppressionWindowEnd
  | alignLost (n : Nat)
  | announceReceiptTimeout (inst : Nat)
  | delayReqTransmit (inst : Nat) (q : SentReq)
  | delayRespReceive (inst : Nat) (m : PtpMsg) (t1 t4 : Rat)
  | errPassive (tec rec : Nat)
  | unknownFrame (f : CanFrame)
  | vioFall
  | vioReturn
  deriving DecidableEq, Repr

end Sys2Proof
end

