-- ==== Sys2Proof/Decode.lean ====
section
/-! DEFINITION. The command that a word of the opcode table spells. The table gives no row any bits, so no word
spells one. -/

namespace Sys2Proof

/-- The command spelled by a word of `nbits` bits: the table of this block gives its rows no bits. -/
def decodeTableWord (_nbits _w : Nat) : Option Instr := none

end Sys2Proof
end

