-- ==== Sys2Proof/Machine/Crc.lean ====
section
/-! DEFINITION. The cyclic redundancy checks of the module (R117, R137, R478). -/

namespace Sys2Proof.Machine

/-- The bits of a byte, most significant first. -/
def byteBits (b : Nat) : List Bool := [bitOf b 7, bitOf b 6, bitOf b 5, bitOf b 4, bitOf b 3, bitOf b 2, bitOf b 1, bitOf b 0]

/-- One bit into CRC-16: polynomial 0x1021, not reflected (R117). -/
def crc16Bit (c : Nat) (b : Bool) : Nat :=
  let x := c * 2 % 0x10000
  if bitOf c 15 != b then x ^^^ 0x1021 else x

/-- CRC-16 over bits in the order shifted: initial value 0xFFFF, no final XOR (R117). -/
def crc16Bits (l : List Bool) : Nat := l.foldl crc16Bit 0xFFFF

/-- CRC-16 over bytes, each most significant bit first (R137, Table 11.5). -/
def crc16 (l : List Nat) : Nat := l.foldl (fun c b => (byteBits b).foldl crc16Bit c) 0xFFFF

/-- One step of the reflected CRC-32 (R478). -/
def crc32Step (c : Nat) : Nat := if c % 2 = 1 then (c / 2) ^^^ 0xEDB88320 else c / 2

/-- One byte into CRC-32. -/
def crc32Byte (c b : Nat) : Nat :=
  crc32Step (crc32Step (crc32Step (crc32Step (crc32Step (crc32Step (crc32Step (crc32Step (c ^^^ (b % 256)))))))))

/-- CRC-32 of IEEE 802.3 over bytes (R478). -/
def crc32 (l : List Nat) : Nat := (l.foldl crc32Byte 0xFFFFFFFF) ^^^ 0xFFFFFFFF

end Sys2Proof.Machine
end

