-- ==== Sys2Proof/Config.lean ====
section
/-! DEFINITION. What an implementation fixes and the spec leaves open: the free values and the constants
of one module as made. Nothing in Lean can evaluate a constant without a body. -/

namespace Sys2Proof.Config

/-- A value the spec leaves open, drawn by the counter `State.freeIx` (notes/assumptions 1). -/
opaque freeValue : Nat → BitVec 64

/-- Module serial, as the factory sets it (SYS.SERIAL, Table 17.7). -/
opaque serial : BitVec 64

/-- Grade: false S, true H (R1, R4). -/
opaque gradeH : Bool

/-- Carrier revision (SYS.ID.HWREV, Table 17.7). -/
opaque hwRev : BitVec 8

/-- Version of Root in mask ROM (ROOT.ROOT_VER, Table 14.9a). -/
opaque rootVer : BitVec 32

/-- Fjosia's image key in mask ROM, 32 bytes little-endian (R462). -/
opaque imageKey : BitVec 256

/-- MAC address of Ethernet port `n` as the factory sets it. -/
opaque factoryMac : Nat → BitVec 48

/-- Base delay of a port in a mode, in LSB, receive (false) or transmit (true), as the calibration blocks of the Root region
hold it (R405, Table 15.1): the spec gives those blocks no layout (notes/assumptions 52). -/
opaque baseDelay (cal : List (Nat × BitVec 8)) (port mode : Nat) (tx : Bool) : BitVec 16

/-- The nominal base delay in mask ROM, for a LOST calibration block (Table 15.1). -/
opaque nominalDelay (port mode : Nat) (tx : Bool) : BitVec 16

/-- The clockIdentity that the module sends (R393): the spec does not say how it is formed (notes/assumptions 71). -/
opaque clockIdentity : BitVec 64

end Sys2Proof.Config
end

