-- ==== Sys2Proof/Machine/Fields.lean ====
section
/-! DEFINITION. Every register field of every page, as the field tables of the spec give it (Table 3.2,
Table 3.11 and the page tables of chapters 2, 4 to 19), and the addresses they have.

A field is named PAGE.REGISTER, or PAGE.REGISTER_FIELD where the register has several. -/

namespace Sys2Proof.Machine

/-- The access codes of Table 0.4. `cnt` is an RW counter under R102: the host may write 0 only. -/
inductive Acc where
  | ro | rw | w1c | wo | rs | lk | cnt
  deriving DecidableEq, Repr

/-- A register field: its page, the offset of its first word, two strides with their counts for indexed
registers, its lowest bit and width, its access code and the Reset column's number. -/
structure Fld where
  page  : Page
  off   : Nat
  s1    : Nat
  n1    : Nat
  s2    : Nat
  n2    : Nat
  lo    : Nat
  width : Nat
  acc   : Acc
  reset : Nat
  deriving DecidableEq, Repr

/-- Base address of instance `n` of a page (Table 3.2); of entry `n` for the Channel Table (Table 3.1). -/
def pageBase : Page → Nat → Nat
  | .sys, _ => 0x000000
  | .part, n => 0x000400 + n * 0x400
  | .frame, _ => 0x002000
  | .lane, n => 0x003000 + n * 0x400
  | .rows, _ => 0x008000
  | .harv, _ => 0x009000
  | .sel, _ => 0x00A000
  | .dpll, n => 0x00B000 + n * 0x400
  | .apll, n => 0x00C000 + n * 0x400
  | .out, n => 0x00D000 + n * 0x400
  | .time, n => 0x010000 + n * 0x400
  | .eth, n => 0x011000 + n * 0x400
  | .ptpts, n => 0x011800 + n * 0x400
  | .shelf, _ => 0x012000
  | .root, _ => 0x013000
  | .cellar, _ => 0x014000
  | .bbox, _ => 0x015000
  | .pwr, _ => 0x016000
  | .osc, _ => 0x016400
  | .dbg, _ => 0x017000
  | .chan, n => 0x400000 + n * 0x80

/-- How many instances a page has (Table 3.2); the Channel Table has sixteen entries. -/
def pageCount : Page → Nat
  | .part => 4
  | .lane => 18
  | .dpll => 4
  | .apll => 4
  | .out => 10
  | .time => 4
  | .eth => 2
  | .ptpts => 2
  | .chan => 16
  | _ => 1

/-- Block type code of a page (Table 3.2); 0x00 for the Channel Table, as journal entries name it. -/
def pageType : Page → Nat
  | .sys => 0x01
  | .part => 0x02
  | .frame => 0x03
  | .lane => 0x10
  | .rows => 0x11
  | .harv => 0x12
  | .sel => 0x20
  | .dpll => 0x21
  | .apll => 0x22
  | .out => 0x23
  | .time => 0x24
  | .eth => 0x30
  | .ptpts => 0x31
  | .shelf => 0x32
  | .root => 0x40
  | .cellar => 0x41
  | .bbox => 0x42
  | .pwr => 0x50
  | .osc => 0x51
  | .dbg => 0x7F
  | .chan => 0x00

/-- The register pages in address order (Table 3.2). -/
def allPages : List Page :=
  [.sys, .part, .frame, .lane, .rows, .harv, .sel, .dpll, .apll, .out, .time, .eth, .ptpts, .shelf, .root,
   .cellar, .bbox, .pwr, .osc, .dbg]

/-- Every page with its instance number. -/
def allPageInsts : List (Page × Nat) :=
  allPages.flatMap fun p => (List.range (pageCount p)).map fun n => (p, n)

/-- Address of the word that holds field `f` of instance `n` at indices `k`, `j`. -/
def fldAddr (f : Fld) (n k j : Nat) : Nat := pageBase f.page n + f.off + k * f.s1 + j * f.s2

/-- The cell of the register file that holds a field: its page, and the bit address of its lowest bit. -/
def fldKey (f : Fld) (n k j : Nat) : Nat := pageType f.page * 2 ^ 24 + (fldAddr f n k j * 8 + f.lo) % 2 ^ 24

/-- The page code of a cell (Table 3.2). -/
def keyPage (k : Nat) : Nat := k / 2 ^ 24

/-! ### Common page header: R127, Table 3.11 -/

def HDR.SAT (p : Page) : Fld := ⟨p, 0x0C, 0, 1, 0, 1, 0, 1, .ro, 0⟩
def HDR.EVT (p : Page) : Fld := ⟨p, 0x10, 0, 1, 0, 1, 0, 32, .w1c, 0⟩
def HDR.EVT_EN (p : Page) : Fld := ⟨p, 0x14, 0, 1, 0, 1, 0, 32, .rw, 0⟩
def HDR.EVT_CNT (p : Page) : Fld := ⟨p, 0x18, 0, 1, 0, 1, 0, 32, .cnt, 0⟩
def HDR.SNAP_REQ (p : Page) : Fld := ⟨p, 0x1C, 0, 1, 0, 1, 0, 1, .wo, 0⟩
def HDR.SNAP_PENDING (p : Page) : Fld := ⟨p, 0x1C, 0, 1, 0, 1, 8, 1, .ro, 0⟩
def HDR.FRAME_STAMP (p : Page) : Fld := ⟨p, 0x20, 0, 1, 0, 1, 0, 32, .ro, 0xFFFFFFFF⟩
def HDR.TYPE (p : Page) : Fld := ⟨p, 0x00, 0, 1, 0, 1, 0, 8, .ro, 0⟩
def HDR.INSTANCE (p : Page) : Fld := ⟨p, 0x00, 0, 1, 0, 1, 8, 8, .ro, 0⟩
def HDR.VERSION (p : Page) : Fld := ⟨p, 0x00, 0, 1, 0, 1, 16, 8, .ro, 1⟩
def HDR.OWNER (p : Page) : Fld := ⟨p, 0x04, 0, 1, 0, 1, 0, 2, .ro, 0⟩
def HDR.LOCKED (p : Page) : Fld := ⟨p, 0x04, 0, 1, 0, 1, 8, 1, .ro, 0⟩

/-- The header fields of a page, in the order of Table 3.11. -/
def HDR.fields (p : Page) : List Fld :=
  [HDR.TYPE p, HDR.INSTANCE p, HDR.VERSION p, HDR.OWNER p, HDR.LOCKED p, HDR.SAT p, HDR.EVT p, HDR.EVT_EN p,
   HDR.EVT_CNT p, HDR.SNAP_REQ p, HDR.SNAP_PENDING p, HDR.FRAME_STAMP p]

/-! ### Policy half of a Channel Table entry: R132, Table 4.2 -/

def CHAN.POL_ID_CHAN : Fld := ⟨.chan, 0x0, 0, 1, 0, 1, 0, 4, .ro, 0⟩
def CHAN.POL_ID_KIND : Fld := ⟨.chan, 0x0, 0, 1, 0, 1, 4, 4, .ro, 0⟩
def CHAN.POL_ID_ENABLED : Fld := ⟨.chan, 0x0, 0, 1, 0, 1, 8, 1, .lk, 0⟩
def CHAN.POL_ID_OWNER : Fld := ⟨.chan, 0x0, 0, 1, 0, 1, 10, 2, .lk, 0⟩
def CHAN.NOM_FREQ_LO : Fld := ⟨.chan, 0x4, 0, 1, 0, 1, 0, 32, .lk, 0⟩
def CHAN.NOM_FREQ_HI : Fld := ⟨.chan, 0x8, 0, 1, 0, 1, 0, 16, .lk, 0⟩
def CHAN.PAD_DIFF : Fld := ⟨.chan, 0x8, 0, 1, 0, 1, 16, 1, .lk, 1⟩
def CHAN.PAD_TERM : Fld := ⟨.chan, 0x8, 0, 1, 0, 1, 17, 2, .lk, 0⟩
def CHAN.PAD_EDGE : Fld := ⟨.chan, 0x8, 0, 1, 0, 1, 19, 1, .lk, 0⟩
def CHAN.QL_SRC : Fld := ⟨.chan, 0xC, 0, 1, 0, 1, 0, 3, .lk, 0⟩
def CHAN.QL_ASSUMED : Fld := ⟨.chan, 0xC, 0, 1, 0, 1, 4, 4, .lk, 0⟩
def CHAN.QL_NODE : Fld := ⟨.chan, 0xC, 0, 1, 0, 1, 8, 5, .lk, 0⟩
def CHAN.FREQ_RANGE : Fld := ⟨.chan, 0x10, 0, 1, 0, 1, 0, 16, .lk, 4600⟩
def CHAN.PHASE_STEP : Fld := ⟨.chan, 0x10, 0, 1, 0, 1, 16, 16, .lk, 2048⟩
def CHAN.WANDER : Fld := ⟨.chan, 0x14, 0, 1, 0, 1, 0, 16, .lk, 512⟩
def CHAN.WTR : Fld := ⟨.chan, 0x14, 0, 1, 0, 1, 16, 16, .lk, 300⟩
def CHAN.HOLD_OFF : Fld := ⟨.chan, 0x18, 0, 1, 0, 1, 0, 16, .lk, 2000⟩
def CHAN.ACT_TIMEOUT : Fld := ⟨.chan, 0x18, 0, 1, 0, 1, 16, 16, .lk, 16000⟩
def CHAN.CAND : Fld := ⟨.chan, 0x1C, 0, 1, 0, 1, 0, 4, .lk, 1⟩
def CHAN.GRANT : Fld := ⟨.chan, 0x1C, 0, 1, 0, 1, 8, 4, .lk, 0⟩
def CHAN.LANE : Fld := ⟨.chan, 0x30, 0, 1, 0, 1, 0, 5, .ro, 0⟩
def CHAN.SPARED : Fld := ⟨.chan, 0x30, 0, 1, 0, 1, 7, 1, .ro, 0⟩
def CHAN.POL_GEN : Fld := ⟨.chan, 0x34, 0, 1, 0, 1, 0, 32, .ro, 0⟩
def CHAN.EFF_GEN : Fld := ⟨.chan, 0x38, 0, 1, 0, 1, 0, 32, .ro, 0⟩
def CHAN.VERDICT : Fld := ⟨.chan, 0x3C, 0, 1, 0, 1, 0, 4, .ro, 0⟩
def CHAN.VFRN : Fld := ⟨.chan, 0x3C, 0, 1, 0, 1, 8, 24, .ro, 0⟩

/-- The fields of a Policy half, in the order of Table 4.2. -/
def CHAN.fields : List Fld :=
  [CHAN.POL_ID_CHAN, CHAN.POL_ID_KIND, CHAN.POL_ID_ENABLED, CHAN.POL_ID_OWNER, CHAN.NOM_FREQ_LO, CHAN.NOM_FREQ_HI, CHAN.PAD_DIFF, CHAN.PAD_TERM, CHAN.PAD_EDGE, CHAN.QL_SRC, CHAN.QL_ASSUMED, CHAN.QL_NODE, CHAN.FREQ_RANGE] ++
  [CHAN.PHASE_STEP, CHAN.WANDER, CHAN.WTR, CHAN.HOLD_OFF, CHAN.ACT_TIMEOUT, CHAN.CAND, CHAN.GRANT, CHAN.LANE, CHAN.SPARED, CHAN.POL_GEN, CHAN.EFF_GEN, CHAN.VERDICT, CHAN.VFRN]

/-! ### SYS page: R557 -/

def SYS.CTRL_SOFT_RESET : Fld := ⟨.sys, 0x8, 0x0, 1, 0x0, 1, 0, 1, .wo, 0⟩
def SYS.CTRL_KEY : Fld := ⟨.sys, 0x8, 0x0, 1, 0x0, 1, 16, 16, .wo, 0⟩
def SYS.STATUS_LANE_SPARED : Fld := ⟨.sys, 0xC, 0x0, 1, 0x0, 1, 1, 1, .ro, 0⟩
def SYS.STATUS_CAL_DEFAULT : Fld := ⟨.sys, 0xC, 0x0, 1, 0x0, 1, 2, 1, .ro, 0⟩
def SYS.STATUS_ROM_PROFILE : Fld := ⟨.sys, 0xC, 0x0, 1, 0x0, 1, 3, 1, .ro, 0⟩
def SYS.STATUS_ROOT_FLOOR : Fld := ⟨.sys, 0xC, 0x0, 1, 0x0, 1, 4, 1, .ro, 0⟩
def SYS.STATUS_TB_FALLBACK : Fld := ⟨.sys, 0xC, 0x0, 1, 0x0, 1, 5, 1, .ro, 0⟩
def SYS.STATUS_NO_TIMEBASE : Fld := ⟨.sys, 0xC, 0x0, 1, 0x0, 1, 6, 1, .ro, 1⟩
def SYS.STATUS_OVEN_FAULT : Fld := ⟨.sys, 0xC, 0x0, 1, 0x0, 1, 7, 1, .ro, 0⟩
def SYS.STATUS_LANE_LOST : Fld := ⟨.sys, 0xC, 0x0, 1, 0x0, 1, 8, 1, .ro, 0⟩
def SYS.STATUS_FUNC_LOST : Fld := ⟨.sys, 0xC, 0x0, 1, 0x0, 1, 9, 1, .ro, 0⟩
def SYS.FRN_LO : Fld := ⟨.sys, 0x40, 0x0, 1, 0x0, 1, 0, 32, .ro, 0⟩
def SYS.FRN_HI : Fld := ⟨.sys, 0x44, 0x0, 1, 0x0, 1, 0, 32, .ro, 0⟩
def SYS.ID_GRADE : Fld := ⟨.sys, 0x48, 0x0, 1, 0x0, 1, 0, 8, .ro, 0⟩
def SYS.ID_HWREV : Fld := ⟨.sys, 0x48, 0x0, 1, 0x0, 1, 8, 8, .ro, 0⟩
def SYS.ID_PRODUCT : Fld := ⟨.sys, 0x48, 0x0, 1, 0x0, 1, 16, 16, .ro, 17936⟩
def SYS.SERIAL_LO : Fld := ⟨.sys, 0x4C, 0x0, 1, 0x0, 1, 0, 32, .ro, 0⟩
def SYS.SERIAL_HI : Fld := ⟨.sys, 0x50, 0x0, 1, 0x0, 1, 0, 32, .ro, 0⟩
def SYS.RESET : Fld := ⟨.sys, 0x54, 0x0, 1, 0x0, 1, 0, 3, .ro, 0⟩
def SYS.RESET_FRN : Fld := ⟨.sys, 0x58, 0x0, 1, 0x0, 1, 0, 32, .ro, 0⟩
def SYS.FAULT_LANES : Fld := ⟨.sys, 0x5C, 0x0, 1, 0x0, 1, 0, 18, .ro, 0⟩
def SYS.SOFT_RESET_CNT : Fld := ⟨.sys, 0x60, 0x0, 1, 0x0, 1, 0, 32, .cnt, 0⟩
def SYS.PROC_RESET_CNT : Fld := ⟨.sys, 0x64, 0x0, 1, 0x0, 1, 0, 32, .cnt, 0⟩

/-- The fields of the SYS page, in the order of its table. -/
def SYS.fields : List Fld :=
  [SYS.CTRL_SOFT_RESET, SYS.CTRL_KEY, SYS.STATUS_LANE_SPARED, SYS.STATUS_CAL_DEFAULT, SYS.STATUS_ROM_PROFILE, SYS.STATUS_ROOT_FLOOR, SYS.STATUS_TB_FALLBACK, SYS.STATUS_NO_TIMEBASE, SYS.STATUS_OVEN_FAULT, SYS.STATUS_LANE_LOST, SYS.STATUS_FUNC_LOST, SYS.FRN_LO, SYS.FRN_HI, SYS.ID_GRADE, SYS.ID_HWREV, SYS.ID_PRODUCT, SYS.SERIAL_LO, SYS.SERIAL_HI, SYS.RESET, SYS.RESET_FRN] ++
  [SYS.FAULT_LANES, SYS.SOFT_RESET_CNT, SYS.PROC_RESET_CNT]

/-! ### PART page: R559 -/

def PART.CTRL : Fld := ⟨.part, 0x8, 0x0, 1, 0x0, 1, 0, 1, .wo, 0⟩
def PART.STATUS_OPEN : Fld := ⟨.part, 0xC, 0x0, 1, 0x0, 1, 1, 1, .ro, 0⟩
def PART.STATUS_LANE_GRANT : Fld := ⟨.part, 0xC, 0x0, 1, 0x0, 1, 2, 1, .ro, 0⟩
def PART.PEND_A_LANE : Fld := ⟨.part, 0x40, 0x0, 1, 0x0, 1, 0, 18, .ro, 0⟩
def PART.PEND_A_OUT : Fld := ⟨.part, 0x40, 0x0, 1, 0x0, 1, 18, 10, .ro, 0⟩
def PART.PEND_A_OWN : Fld := ⟨.part, 0x40, 0x0, 1, 0x0, 1, 28, 4, .ro, 0⟩
def PART.PEND_B_SHARED : Fld := ⟨.part, 0x44, 0x0, 1, 0x0, 1, 0, 16, .ro, 0⟩
def PART.PEND_B_CLOSED : Fld := ⟨.part, 0x44, 0x0, 1, 0x0, 1, 16, 12, .ro, 0⟩
def PART.CHAN_EVT : Fld := ⟨.part, 0x48, 0x0, 1, 0x0, 1, 0, 12, .w1c, 0⟩
def PART.PORTS_OUTS : Fld := ⟨.part, 0x4C, 0x0, 1, 0x0, 1, 0, 10, .lk, 0⟩
def PART.PORTS_IRQ : Fld := ⟨.part, 0x4C, 0x0, 1, 0x0, 1, 16, 1, .lk, 0⟩
def PART.PORTS_SPI : Fld := ⟨.part, 0x4C, 0x0, 1, 0x0, 1, 17, 1, .lk, 0⟩
def PART.PORTS_I2C : Fld := ⟨.part, 0x4C, 0x0, 1, 0x0, 1, 18, 1, .lk, 0⟩
def PART.CHANS_OWN : Fld := ⟨.part, 0x50, 0x0, 1, 0x0, 1, 0, 12, .lk, 0⟩
def PART.CHANS_GRANT : Fld := ⟨.part, 0x50, 0x0, 1, 0x0, 1, 16, 12, .lk, 0⟩
def PART.LAST_RESET : Fld := ⟨.part, 0x54, 0x0, 1, 0x0, 1, 0, 2, .ro, 0⟩
def PART.RESET_FRN : Fld := ⟨.part, 0x58, 0x0, 1, 0x0, 1, 0, 32, .ro, 0⟩
def PART.RESET_CNT : Fld := ⟨.part, 0x5C, 0x0, 1, 0x0, 1, 0, 32, .cnt, 0⟩

/-- The fields of the PART page, in the order of its table. -/
def PART.fields : List Fld :=
  [PART.CTRL, PART.STATUS_OPEN, PART.STATUS_LANE_GRANT, PART.PEND_A_LANE, PART.PEND_A_OUT, PART.PEND_A_OWN, PART.PEND_B_SHARED, PART.PEND_B_CLOSED, PART.CHAN_EVT, PART.PORTS_OUTS, PART.PORTS_IRQ, PART.PORTS_SPI, PART.PORTS_I2C, PART.CHANS_OWN, PART.CHANS_GRANT, PART.LAST_RESET, PART.RESET_FRN, PART.RESET_CNT]

/-! ### FRAME page: R84 -/

def FRAME.FRN_LO : Fld := ⟨.frame, 0x40, 0x0, 1, 0x0, 1, 0, 32, .ro, 0⟩
def FRAME.FRN_HI : Fld := ⟨.frame, 0x44, 0x0, 1, 0x0, 1, 0, 32, .ro, 0⟩
def FRAME.POS_TB_CYCLE : Fld := ⟨.frame, 0x48, 0x0, 1, 0x0, 1, 0, 11, .ro, 0⟩
def FRAME.POS_STAGE : Fld := ⟨.frame, 0x48, 0x0, 1, 0x0, 1, 16, 3, .ro, 0⟩
def FRAME.SNAP_ALL : Fld := ⟨.frame, 0x4C, 0x0, 1, 0x0, 1, 0, 1, .wo, 0⟩
def FRAME.SLOT_ROOT : Fld := ⟨.frame, 0x50, 0x0, 1, 0x0, 1, 0, 10, .ro, 0⟩
def FRAME.SLOT_EXEC : Fld := ⟨.frame, 0x54, 0x4, 4, 0x0, 1, 0, 12, .ro, 0⟩
def FRAME.SLOT_QUOTA : Fld := ⟨.frame, 0x54, 0x4, 4, 0x0, 1, 16, 12, .lk, 896⟩
def FRAME.SLOT_OVER : Fld := ⟨.frame, 0x54, 0x4, 4, 0x0, 1, 31, 1, .ro, 0⟩
def FRAME.OVERRUN_CNT : Fld := ⟨.frame, 0x64, 0x4, 4, 0x0, 1, 0, 32, .cnt, 0⟩
def FRAME.DEFER_CNT : Fld := ⟨.frame, 0x74, 0x0, 1, 0x0, 1, 0, 32, .cnt, 0⟩
def FRAME.TB_SRC : Fld := ⟨.frame, 0x78, 0x0, 1, 0x0, 1, 0, 1, .ro, 0⟩

/-- The fields of the FRAME page, in the order of its table. -/
def FRAME.fields : List Fld :=
  [FRAME.FRN_LO, FRAME.FRN_HI, FRAME.POS_TB_CYCLE, FRAME.POS_STAGE, FRAME.SNAP_ALL, FRAME.SLOT_ROOT, FRAME.SLOT_EXEC, FRAME.SLOT_QUOTA, FRAME.SLOT_OVER, FRAME.OVERRUN_CNT, FRAME.DEFER_CNT, FRAME.TB_SRC]

/-! ### LANE page: R183 -/

def LANE.CTRL : Fld := ⟨.lane, 0x8, 0x0, 1, 0x0, 1, 0, 1, .rw, 0⟩
def LANE.STATUS_FAULT : Fld := ⟨.lane, 0xC, 0x0, 1, 0x0, 1, 1, 1, .ro, 0⟩
def LANE.STATUS_SPARE_CAL : Fld := ⟨.lane, 0xC, 0x0, 1, 0x0, 1, 2, 1, .ro, 0⟩
def LANE.STATUS_OVERDRIVE : Fld := ⟨.lane, 0xC, 0x0, 1, 0x0, 1, 3, 1, .ro, 0⟩
def LANE.STATUS_SUSPECT : Fld := ⟨.lane, 0xC, 0x0, 1, 0x0, 1, 4, 1, .ro, 0⟩
def LANE.STATUS_NO_BASE : Fld := ⟨.lane, 0xC, 0x0, 1, 0x0, 1, 5, 1, .ro, 1⟩
def LANE.STATUS_FUNC_LOST : Fld := ⟨.lane, 0xC, 0x0, 1, 0x0, 1, 6, 1, .ro, 0⟩
def LANE.MAP_FUNC : Fld := ⟨.lane, 0x40, 0x0, 1, 0x0, 1, 0, 5, .ro, 0⟩
def LANE.MAP_HOME : Fld := ⟨.lane, 0x40, 0x0, 1, 0x0, 1, 8, 5, .ro, 0⟩
def LANE.MAP_MOVED : Fld := ⟨.lane, 0x40, 0x0, 1, 0x0, 1, 16, 1, .ro, 0⟩
def LANE.HEALTH_CODE : Fld := ⟨.lane, 0x44, 0x0, 1, 0x0, 1, 0, 3, .ro, 0⟩
def LANE.HEALTH_CAL_LEFT : Fld := ⟨.lane, 0x44, 0x0, 1, 0x0, 1, 8, 4, .ro, 0⟩
def LANE.HEALTH_FAULT_FRN : Fld := ⟨.lane, 0x44, 0x0, 1, 0x0, 1, 16, 16, .ro, 0⟩
def LANE.CAL_DEV : Fld := ⟨.lane, 0x48, 0x0, 1, 0x0, 1, 0, 16, .rs, 0⟩
def LANE.EDGE_CNT : Fld := ⟨.lane, 0x4C, 0x0, 1, 0x0, 1, 0, 32, .rs, 0⟩
def LANE.SAMPLE0 : Fld := ⟨.lane, 0x50, 0x0, 1, 0x0, 1, 0, 14, .rs, 8192⟩
def LANE.T0 : Fld := ⟨.lane, 0x54, 0x0, 1, 0x0, 1, 0, 26, .rs, 0⟩
def LANE.CNT_VALID : Fld := ⟨.lane, 0x58, 0x0, 1, 0x0, 1, 0, 7, .rs, 0⟩
def LANE.CNT_NOEDGE : Fld := ⟨.lane, 0x58, 0x0, 1, 0x0, 1, 8, 7, .rs, 0⟩
def LANE.CNT_OVR : Fld := ⟨.lane, 0x58, 0x0, 1, 0x0, 1, 16, 7, .rs, 0⟩
def LANE.IVL_FLAGS : Fld := ⟨.lane, 0x5C, 0x0, 1, 0x0, 1, 0, 4, .rs, 0⟩
def LANE.OVERRANGE_CNT : Fld := ⟨.lane, 0x60, 0x0, 1, 0x0, 1, 0, 32, .cnt, 0⟩
def LANE.OVERDRIVE_CNT : Fld := ⟨.lane, 0x64, 0x0, 1, 0x0, 1, 0, 32, .cnt, 0⟩
def LANE.IVL_CNT : Fld := ⟨.lane, 0x68, 0x4, 4, 0x0, 1, 0, 32, .cnt, 0⟩

/-- The fields of the LANE page, in the order of its table. -/
def LANE.fields : List Fld :=
  [LANE.CTRL, LANE.STATUS_FAULT, LANE.STATUS_SPARE_CAL, LANE.STATUS_OVERDRIVE, LANE.STATUS_SUSPECT, LANE.STATUS_NO_BASE, LANE.STATUS_FUNC_LOST, LANE.MAP_FUNC, LANE.MAP_HOME, LANE.MAP_MOVED, LANE.HEALTH_CODE, LANE.HEALTH_CAL_LEFT, LANE.HEALTH_FAULT_FRN, LANE.CAL_DEV, LANE.EDGE_CNT, LANE.SAMPLE0, LANE.T0, LANE.CNT_VALID, LANE.CNT_NOEDGE, LANE.CNT_OVR] ++
  [LANE.IVL_FLAGS, LANE.OVERRANGE_CNT, LANE.OVERDRIVE_CNT, LANE.IVL_CNT]

/-! ### ROWS page: R228 -/

def ROWS.CAP_DESC : Fld := ⟨.rows, 0x40, 0x0, 1, 0x0, 1, 0, 9, .ro, 256⟩
def ROWS.CAP_WORDS : Fld := ⟨.rows, 0x40, 0x0, 1, 0x0, 1, 16, 11, .ro, 1024⟩
def ROWS.ROOT_ALLOC_DESC : Fld := ⟨.rows, 0x44, 0x0, 1, 0x0, 1, 0, 9, .ro, 32⟩
def ROWS.ROOT_ALLOC_WORDS : Fld := ⟨.rows, 0x44, 0x0, 1, 0x0, 1, 16, 11, .ro, 256⟩
def ROWS.OPEN_CNT_P0 : Fld := ⟨.rows, 0x48, 0x0, 1, 0x0, 1, 0, 8, .ro, 0⟩
def ROWS.OPEN_CNT_P1 : Fld := ⟨.rows, 0x48, 0x0, 1, 0x0, 1, 8, 8, .ro, 0⟩
def ROWS.OPEN_CNT_P2 : Fld := ⟨.rows, 0x48, 0x0, 1, 0x0, 1, 16, 8, .ro, 0⟩
def ROWS.OPEN_CNT_P3 : Fld := ⟨.rows, 0x48, 0x0, 1, 0x0, 1, 24, 8, .ro, 0⟩
def ROWS.ALLOC_DESC_FIRST : Fld := ⟨.rows, 0x80, 0x20, 4, 0x0, 1, 0, 8, .lk, 0⟩
def ROWS.ALLOC_DESC_COUNT : Fld := ⟨.rows, 0x80, 0x20, 4, 0x0, 1, 8, 8, .lk, 56⟩
def ROWS.ALLOC_WORD_FIRST : Fld := ⟨.rows, 0x84, 0x20, 4, 0x0, 1, 0, 10, .lk, 0⟩
def ROWS.ALLOC_WORD_COUNT : Fld := ⟨.rows, 0x84, 0x20, 4, 0x0, 1, 16, 11, .lk, 192⟩
def ROWS.PROG_CTRL_SWAP : Fld := ⟨.rows, 0x88, 0x20, 4, 0x0, 1, 0, 1, .wo, 0⟩
def ROWS.PROG_CTRL_ACTIVE : Fld := ⟨.rows, 0x88, 0x20, 4, 0x0, 1, 8, 1, .ro, 0⟩
def ROWS.PROG_BASE : Fld := ⟨.rows, 0x8C, 0x20, 4, 0x0, 1, 0, 12, .rw, 0⟩
def ROWS.FAULT_LAST_INDEX : Fld := ⟨.rows, 0x90, 0x20, 4, 0x0, 1, 0, 12, .ro, 0⟩
def ROWS.FAULT_LAST_CODE : Fld := ⟨.rows, 0x90, 0x20, 4, 0x0, 1, 12, 4, .ro, 0⟩
def ROWS.FAULT_LAST_FRN : Fld := ⟨.rows, 0x90, 0x20, 4, 0x0, 1, 16, 16, .ro, 0⟩
def ROWS.FAULT_CNT : Fld := ⟨.rows, 0x94, 0x20, 4, 0x0, 1, 0, 32, .cnt, 0⟩
def ROWS.REPLAY_CNT : Fld := ⟨.rows, 0x98, 0x20, 4, 0x0, 1, 0, 32, .cnt, 0⟩
def ROWS.INF_CNT : Fld := ⟨.rows, 0x9C, 0x20, 4, 0x0, 1, 0, 32, .cnt, 0⟩
def ROWS.PROG_WIN : Fld := ⟨.rows, 0x100, 0x40, 4, 0x4, 16, 0, 32, .rw, 4026531840⟩
def ROWS.DESC_BASE : Fld := ⟨.rows, 0x400, 0x8, 256, 0x0, 1, 0, 10, .rw, 0⟩
def ROWS.DESC_FMT : Fld := ⟨.rows, 0x400, 0x8, 256, 0x0, 1, 10, 2, .rw, 0⟩
def ROWS.DESC_OVF : Fld := ⟨.rows, 0x400, 0x8, 256, 0x0, 1, 12, 1, .rw, 0⟩
def ROWS.DESC_ORNG : Fld := ⟨.rows, 0x400, 0x8, 256, 0x0, 1, 13, 1, .rw, 0⟩
def ROWS.DESC_OPEN : Fld := ⟨.rows, 0x400, 0x8, 256, 0x0, 1, 16, 1, .ro, 0⟩
def ROWS.DESC_INF : Fld := ⟨.rows, 0x400, 0x8, 256, 0x0, 1, 17, 1, .ro, 0⟩
def ROWS.DESC_CFG_PEND : Fld := ⟨.rows, 0x400, 0x8, 256, 0x0, 1, 18, 1, .ro, 0⟩
def ROWS.DESC_EXP : Fld := ⟨.rows, 0x400, 0x8, 256, 0x0, 1, 20, 4, .ro, 0⟩
def ROWS.DESC_REPLAYS : Fld := ⟨.rows, 0x400, 0x8, 256, 0x0, 1, 24, 2, .ro, 0⟩
def ROWS.DESC_ST_COUNT : Fld := ⟨.rows, 0x404, 0x8, 256, 0x0, 1, 0, 24, .ro, 0⟩
def ROWS.DESC_ST_SHORT : Fld := ⟨.rows, 0x404, 0x8, 256, 0x0, 1, 24, 1, .ro, 0⟩
def ROWS.DESC_ST_EXCLUDED : Fld := ⟨.rows, 0x404, 0x8, 256, 0x0, 1, 25, 1, .ro, 0⟩
def ROWS.DESC_ST_SPARED : Fld := ⟨.rows, 0x404, 0x8, 256, 0x0, 1, 26, 1, .ro, 0⟩
def ROWS.DESC_ST_AUTOCLOSE : Fld := ⟨.rows, 0x404, 0x8, 256, 0x0, 1, 27, 1, .ro, 0⟩

/-- The fields of the ROWS page, in the order of its table. -/
def ROWS.fields : List Fld :=
  [ROWS.CAP_DESC, ROWS.CAP_WORDS, ROWS.ROOT_ALLOC_DESC, ROWS.ROOT_ALLOC_WORDS, ROWS.OPEN_CNT_P0, ROWS.OPEN_CNT_P1, ROWS.OPEN_CNT_P2, ROWS.OPEN_CNT_P3, ROWS.ALLOC_DESC_FIRST, ROWS.ALLOC_DESC_COUNT, ROWS.ALLOC_WORD_FIRST, ROWS.ALLOC_WORD_COUNT, ROWS.PROG_CTRL_SWAP, ROWS.PROG_CTRL_ACTIVE, ROWS.PROG_BASE, ROWS.FAULT_LAST_INDEX, ROWS.FAULT_LAST_CODE, ROWS.FAULT_LAST_FRN, ROWS.FAULT_CNT, ROWS.REPLAY_CNT] ++
  [ROWS.INF_CNT, ROWS.PROG_WIN, ROWS.DESC_BASE, ROWS.DESC_FMT, ROWS.DESC_OVF, ROWS.DESC_ORNG, ROWS.DESC_OPEN, ROWS.DESC_INF, ROWS.DESC_CFG_PEND, ROWS.DESC_EXP, ROWS.DESC_REPLAYS, ROWS.DESC_ST_COUNT, ROWS.DESC_ST_SHORT, ROWS.DESC_ST_EXCLUDED, ROWS.DESC_ST_SPARED, ROWS.DESC_ST_AUTOCLOSE]

/-! ### HARV page: R247 -/

def HARV.CAP_RECORDS : Fld := ⟨.harv, 0x40, 0x0, 1, 0x0, 1, 0, 9, .ro, 256⟩
def HARV.CAP_BYTES : Fld := ⟨.harv, 0x40, 0x0, 1, 0x0, 1, 16, 7, .ro, 64⟩
def HARV.WR_IDX : Fld := ⟨.harv, 0x80, 0x20, 4, 0x0, 1, 0, 9, .ro, 0⟩
def HARV.RD_IDX : Fld := ⟨.harv, 0x84, 0x20, 4, 0x0, 1, 0, 9, .rw, 0⟩
def HARV.FILL_FILL : Fld := ⟨.harv, 0x88, 0x20, 4, 0x0, 1, 0, 9, .ro, 0⟩
def HARV.FILL_NEXT_SEQ : Fld := ⟨.harv, 0x88, 0x20, 4, 0x0, 1, 16, 16, .ro, 0⟩
def HARV.WM : Fld := ⟨.harv, 0x8C, 0x20, 4, 0x0, 1, 0, 9, .rw, 1⟩
def HARV.DROP_CNT : Fld := ⟨.harv, 0x90, 0x20, 4, 0x0, 1, 0, 32, .cnt, 0⟩
def HARV.STAGE_DROP_CNT : Fld := ⟨.harv, 0x94, 0x20, 4, 0x0, 1, 0, 32, .cnt, 0⟩
def HARV.REC_CNT : Fld := ⟨.harv, 0x98, 0x20, 4, 0x0, 1, 0, 32, .cnt, 0⟩
def HARV.LAST_DROP_SEQ : Fld := ⟨.harv, 0x9C, 0x20, 4, 0x0, 1, 0, 16, .ro, 0⟩
def HARV.LAST_DROP_CAUSE : Fld := ⟨.harv, 0x9C, 0x20, 4, 0x0, 1, 16, 1, .ro, 0⟩
def HARV.LAST_DROP_RING_SAT : Fld := ⟨.harv, 0x9C, 0x20, 4, 0x0, 1, 31, 1, .ro, 0⟩

/-- The fields of the HARV page, in the order of its table. -/
def HARV.fields : List Fld :=
  [HARV.CAP_RECORDS, HARV.CAP_BYTES, HARV.WR_IDX, HARV.RD_IDX, HARV.FILL_FILL, HARV.FILL_NEXT_SEQ, HARV.WM, HARV.DROP_CNT, HARV.STAGE_DROP_CNT, HARV.REC_CNT, HARV.LAST_DROP_SEQ, HARV.LAST_DROP_CAUSE, HARV.LAST_DROP_RING_SAT]

/-! ### SEL page: R282 -/

def SEL.CHAN_QL_RANK : Fld := ⟨.sel, 0x40, 0x4, 12, 0x0, 1, 0, 4, .ro, 0⟩
def SEL.CHAN_QL_SRC : Fld := ⟨.sel, 0x40, 0x4, 12, 0x0, 1, 4, 3, .ro, 0⟩
def SEL.CHAN_QL_TIMED_OUT : Fld := ⟨.sel, 0x40, 0x4, 12, 0x0, 1, 7, 1, .ro, 1⟩
def SEL.CHAN_QL_SSM : Fld := ⟨.sel, 0x40, 0x4, 12, 0x0, 1, 8, 4, .ro, 0⟩
def SEL.CHAN_QL_ECODE : Fld := ⟨.sel, 0x40, 0x4, 12, 0x0, 1, 16, 8, .ro, 255⟩
def SEL.CHAN_QL_AGE : Fld := ⟨.sel, 0x40, 0x4, 12, 0x0, 1, 24, 8, .ro, 255⟩
def SEL.CHAN_TEST_FAIL : Fld := ⟨.sel, 0x70, 0x4, 12, 0x0, 1, 0, 9, .rs, 0⟩
def SEL.CHAN_TEST_WINDOWS : Fld := ⟨.sel, 0x70, 0x4, 12, 0x0, 1, 12, 4, .rs, 0⟩
def SEL.CHAN_FREQ : Fld := ⟨.sel, 0xA0, 0x4, 12, 0x0, 1, 0, 32, .rs, 2147483648⟩
def SEL.CHAN_DEV_STEP : Fld := ⟨.sel, 0xD0, 0x4, 12, 0x0, 1, 0, 16, .rs, 0⟩
def SEL.CHAN_DEV_WANDER : Fld := ⟨.sel, 0xD0, 0x4, 12, 0x0, 1, 16, 16, .rs, 0⟩
def SEL.ESMC_BAD_CNT0 : Fld := ⟨.sel, 0x100, 0x0, 1, 0x0, 1, 0, 32, .cnt, 0⟩
def SEL.ESMC_BAD_CNT1 : Fld := ⟨.sel, 0x104, 0x0, 1, 0x0, 1, 0, 32, .cnt, 0⟩
def SEL.QL_CHG_CNT : Fld := ⟨.sel, 0x108, 0x0, 1, 0x0, 1, 0, 32, .cnt, 0⟩
def SEL.DPOL_REVERTIVE : Fld := ⟨.sel, 0x200, 0x80, 4, 0x0, 1, 0, 1, .lk, 0⟩
def SEL.DPOL_SWITCH : Fld := ⟨.sel, 0x200, 0x80, 4, 0x0, 1, 1, 2, .ro, 0⟩
def SEL.DPOL_HOLD_RANK : Fld := ⟨.sel, 0x200, 0x80, 4, 0x0, 1, 8, 4, .lk, 4⟩
def SEL.DPOL_FREE_RANK : Fld := ⟨.sel, 0x200, 0x80, 4, 0x0, 1, 12, 4, .lk, 4⟩
def SEL.DPOL_LOST_RANK : Fld := ⟨.sel, 0x200, 0x80, 4, 0x0, 1, 16, 4, .lk, 0⟩
def SEL.CAND : Fld := ⟨.sel, 0x204, 0x80, 4, 0x0, 1, 0, 12, .ro, 0⟩
def SEL.ACTIVE_CHAN : Fld := ⟨.sel, 0x208, 0x80, 4, 0x0, 1, 0, 4, .ro, 15⟩
def SEL.ACTIVE_RANK : Fld := ⟨.sel, 0x208, 0x80, 4, 0x0, 1, 4, 4, .ro, 0⟩
def SEL.ACTIVE_SLEWING : Fld := ⟨.sel, 0x208, 0x80, 4, 0x0, 1, 8, 1, .ro, 0⟩
def SEL.ACTIVE_FROM : Fld := ⟨.sel, 0x208, 0x80, 4, 0x0, 1, 12, 4, .ro, 15⟩
def SEL.ACTIVE_CLOCK_RANK : Fld := ⟨.sel, 0x208, 0x80, 4, 0x0, 1, 16, 4, .ro, 4⟩
def SEL.ACTIVE_FRN : Fld := ⟨.sel, 0x20C, 0x80, 4, 0x0, 1, 0, 32, .ro, 0⟩
def SEL.VERDICT_LO : Fld := ⟨.sel, 0x210, 0x80, 4, 0x0, 1, 0, 32, .ro, 4294967295⟩
def SEL.VERDICT_HI : Fld := ⟨.sel, 0x214, 0x80, 4, 0x0, 1, 0, 16, .ro, 65535⟩
def SEL.RANK_LO : Fld := ⟨.sel, 0x218, 0x80, 4, 0x0, 1, 0, 32, .ro, 0⟩
def SEL.RANK_HI : Fld := ⟨.sel, 0x21C, 0x80, 4, 0x0, 1, 0, 16, .ro, 0⟩
def SEL.SLEW_LEFT : Fld := ⟨.sel, 0x220, 0x80, 4, 0x0, 1, 0, 32, .ro, 0⟩
def SEL.SWITCH_CNT : Fld := ⟨.sel, 0x224, 0x80, 4, 0x0, 1, 0, 32, .cnt, 0⟩
def SEL.DISQ_CNT : Fld := ⟨.sel, 0x228, 0x80, 4, 0x0, 1, 0, 32, .cnt, 0⟩
def SEL.TIMER_LEFT : Fld := ⟨.sel, 0x230, 0x80, 4, 0x4, 12, 0, 30, .ro, 0⟩
def SEL.TIMER_KIND : Fld := ⟨.sel, 0x230, 0x80, 4, 0x4, 12, 30, 2, .ro, 0⟩

/-- The fields of the SEL page, in the order of its table. -/
def SEL.fields : List Fld :=
  [SEL.CHAN_QL_RANK, SEL.CHAN_QL_SRC, SEL.CHAN_QL_TIMED_OUT, SEL.CHAN_QL_SSM, SEL.CHAN_QL_ECODE, SEL.CHAN_QL_AGE, SEL.CHAN_TEST_FAIL, SEL.CHAN_TEST_WINDOWS, SEL.CHAN_FREQ, SEL.CHAN_DEV_STEP, SEL.CHAN_DEV_WANDER, SEL.ESMC_BAD_CNT0, SEL.ESMC_BAD_CNT1, SEL.QL_CHG_CNT, SEL.DPOL_REVERTIVE, SEL.DPOL_SWITCH, SEL.DPOL_HOLD_RANK, SEL.DPOL_FREE_RANK, SEL.DPOL_LOST_RANK, SEL.CAND] ++
  [SEL.ACTIVE_CHAN, SEL.ACTIVE_RANK, SEL.ACTIVE_SLEWING, SEL.ACTIVE_FROM, SEL.ACTIVE_CLOCK_RANK, SEL.ACTIVE_FRN, SEL.VERDICT_LO, SEL.VERDICT_HI, SEL.RANK_LO, SEL.RANK_HI, SEL.SLEW_LEFT, SEL.SWITCH_CNT, SEL.DISQ_CNT, SEL.TIMER_LEFT, SEL.TIMER_KIND]

/-! ### DPLL page: R320 -/

def DPLL.STATUS_STATE : Fld := ⟨.dpll, 0xC, 0x0, 1, 0x0, 1, 1, 3, .ro, 0⟩
def DPLL.STATUS_WARMUP : Fld := ⟨.dpll, 0xC, 0x0, 1, 0x0, 1, 4, 1, .ro, 0⟩
def DPLL.STATUS_BRIDGING : Fld := ⟨.dpll, 0xC, 0x0, 1, 0x0, 1, 5, 1, .ro, 0⟩
def DPLL.STATUS_HIST_SHORT : Fld := ⟨.dpll, 0xC, 0x0, 1, 0x0, 1, 6, 1, .ro, 0⟩
def DPLL.STATUS_FB_LOST : Fld := ⟨.dpll, 0xC, 0x0, 1, 0x0, 1, 7, 1, .ro, 0⟩
def DPLL.STATUS_BW_CLAMP : Fld := ⟨.dpll, 0xC, 0x0, 1, 0x0, 1, 8, 1, .ro, 0⟩
def DPLL.STATUS_PULL_CLAMP : Fld := ⟨.dpll, 0xC, 0x0, 1, 0x0, 1, 9, 1, .ro, 0⟩
def DPLL.STATUS_CFG_PEND : Fld := ⟨.dpll, 0xC, 0x0, 1, 0x0, 1, 10, 1, .ro, 0⟩
def DPLL.MODE : Fld := ⟨.dpll, 0x40, 0x0, 1, 0x0, 1, 0, 2, .lk, 0⟩
def DPLL.BW : Fld := ⟨.dpll, 0x44, 0x0, 1, 0x0, 1, 0, 18, .rw, 10000⟩
def DPLL.DAMP : Fld := ⟨.dpll, 0x48, 0x0, 1, 0x0, 1, 0, 11, .rw, 1024⟩
def DPLL.SLOPE : Fld := ⟨.dpll, 0x4C, 0x0, 1, 0x0, 1, 0, 16, .lk, 100⟩
def DPLL.PULL : Fld := ⟨.dpll, 0x50, 0x0, 1, 0x0, 1, 0, 20, .lk, 100000⟩
def DPLL.LOCK_LOCK_WIN : Fld := ⟨.dpll, 0x54, 0x0, 1, 0x0, 1, 0, 16, .lk, 1024⟩
def DPLL.LOCK_LOCK_S : Fld := ⟨.dpll, 0x54, 0x0, 1, 0x0, 1, 16, 8, .lk, 5⟩
def DPLL.OFFSET : Fld := ⟨.dpll, 0x58, 0x0, 1, 0x0, 1, 0, 32, .lk, 0⟩
def DPLL.HOLD_CFG_SEG_S : Fld := ⟨.dpll, 0x5C, 0x0, 1, 0x0, 1, 0, 10, .lk, 64⟩
def DPLL.HOLD_CFG_HIST_LEN : Fld := ⟨.dpll, 0x5C, 0x0, 1, 0x0, 1, 16, 8, .lk, 64⟩
def DPLL.HOLD_CFG_EXCL_S : Fld := ⟨.dpll, 0x5C, 0x0, 1, 0x0, 1, 24, 6, .lk, 2⟩
def DPLL.F0_FLOOR : Fld := ⟨.dpll, 0x60, 0x0, 1, 0x0, 1, 0, 32, .lk, 2000⟩
def DPLL.F0_SHORT : Fld := ⟨.dpll, 0x64, 0x0, 1, 0x0, 1, 0, 32, .lk, 10000000⟩
def DPLL.BUDGET : Fld := ⟨.dpll, 0x68, 0x0, 1, 0x0, 1, 0, 32, .lk, 1500⟩
def DPLL.AGEING : Fld := ⟨.dpll, 0x6C, 0x0, 1, 0x0, 1, 0, 32, .ro, 0⟩
def DPLL.PHASE_ERR : Fld := ⟨.dpll, 0x70, 0x0, 1, 0x0, 1, 0, 32, .ro, 0⟩
def DPLL.STEER_LO : Fld := ⟨.dpll, 0x74, 0x0, 1, 0x0, 1, 0, 32, .ro, 0⟩
def DPLL.STEER_HI : Fld := ⟨.dpll, 0x78, 0x0, 1, 0x0, 1, 0, 16, .ro, 0⟩
def DPLL.KP : Fld := ⟨.dpll, 0x7C, 0x0, 1, 0x0, 1, 0, 32, .ro, 0⟩
def DPLL.KI_LO : Fld := ⟨.dpll, 0x80, 0x0, 1, 0x0, 1, 0, 32, .ro, 0⟩
def DPLL.KI_HI : Fld := ⟨.dpll, 0x84, 0x0, 1, 0x0, 1, 0, 32, .ro, 0⟩
def DPLL.BW_EFF : Fld := ⟨.dpll, 0x88, 0x0, 1, 0x0, 1, 0, 18, .ro, 10000⟩
def DPLL.HOLD_FREQ_LO : Fld := ⟨.dpll, 0x8C, 0x0, 1, 0x0, 1, 0, 32, .ro, 0⟩
def DPLL.HOLD_FREQ_HI : Fld := ⟨.dpll, 0x90, 0x0, 1, 0x0, 1, 0, 16, .ro, 0⟩
def DPLL.HOLD_F0 : Fld := ⟨.dpll, 0x94, 0x0, 1, 0x0, 1, 0, 32, .ro, 0⟩
def DPLL.HOLD_A0 : Fld := ⟨.dpll, 0x98, 0x0, 1, 0x0, 1, 0, 32, .ro, 0⟩
def DPLL.ENTRY_FRN : Fld := ⟨.dpll, 0x9C, 0x0, 1, 0x0, 1, 0, 32, .ro, 0⟩
def DPLL.DUSK_LEFT : Fld := ⟨.dpll, 0xA0, 0x0, 1, 0x0, 1, 0, 32, .ro, 4294967295⟩
def DPLL.DUSK_BOUND : Fld := ⟨.dpll, 0xA4, 0x0, 1, 0x0, 1, 0, 32, .ro, 0⟩
def DPLL.HIST_SEGS : Fld := ⟨.dpll, 0xA8, 0x0, 1, 0x0, 1, 0, 8, .ro, 0⟩
def DPLL.HIST_ELIGIBLE : Fld := ⟨.dpll, 0xA8, 0x0, 1, 0x0, 1, 8, 8, .ro, 0⟩
def DPLL.STATE_FRN : Fld := ⟨.dpll, 0xAC, 0x0, 1, 0x0, 1, 0, 32, .ro, 0⟩
def DPLL.HOLD_CNT : Fld := ⟨.dpll, 0xB0, 0x0, 1, 0x0, 1, 0, 32, .cnt, 0⟩
def DPLL.UNLOCK_CNT : Fld := ⟨.dpll, 0xB4, 0x0, 1, 0x0, 1, 0, 32, .cnt, 0⟩
def DPLL.BRIDGE_CNT : Fld := ⟨.dpll, 0xB8, 0x0, 1, 0x0, 1, 0, 32, .cnt, 0⟩

/-- The fields of the DPLL page, in the order of its table. -/
def DPLL.fields : List Fld :=
  [DPLL.STATUS_STATE, DPLL.STATUS_WARMUP, DPLL.STATUS_BRIDGING, DPLL.STATUS_HIST_SHORT, DPLL.STATUS_FB_LOST, DPLL.STATUS_BW_CLAMP, DPLL.STATUS_PULL_CLAMP, DPLL.STATUS_CFG_PEND, DPLL.MODE, DPLL.BW, DPLL.DAMP, DPLL.SLOPE, DPLL.PULL, DPLL.LOCK_LOCK_WIN, DPLL.LOCK_LOCK_S, DPLL.OFFSET, DPLL.HOLD_CFG_SEG_S, DPLL.HOLD_CFG_HIST_LEN, DPLL.HOLD_CFG_EXCL_S, DPLL.F0_FLOOR] ++
  [DPLL.F0_SHORT, DPLL.BUDGET, DPLL.AGEING, DPLL.PHASE_ERR, DPLL.STEER_LO, DPLL.STEER_HI, DPLL.KP, DPLL.KI_LO, DPLL.KI_HI, DPLL.BW_EFF, DPLL.HOLD_FREQ_LO, DPLL.HOLD_FREQ_HI, DPLL.HOLD_F0, DPLL.HOLD_A0, DPLL.ENTRY_FRN, DPLL.DUSK_LEFT, DPLL.DUSK_BOUND, DPLL.HIST_SEGS, DPLL.HIST_ELIGIBLE, DPLL.STATE_FRN] ++
  [DPLL.HOLD_CNT, DPLL.UNLOCK_CNT, DPLL.BRIDGE_CNT]

/-! ### APLL page: R351 -/

def APLL.CTRL : Fld := ⟨.apll, 0x8, 0x0, 1, 0x0, 1, 0, 1, .wo, 0⟩
def APLL.STATUS_LOCK : Fld := ⟨.apll, 0xC, 0x0, 1, 0x0, 1, 1, 1, .ro, 0⟩
def APLL.STATUS_COAST : Fld := ⟨.apll, 0xC, 0x0, 1, 0x0, 1, 2, 1, .ro, 0⟩
def APLL.STATUS_REF_LOST : Fld := ⟨.apll, 0xC, 0x0, 1, 0x0, 1, 3, 1, .ro, 0⟩
def APLL.STATUS_RETUNE : Fld := ⟨.apll, 0xC, 0x0, 1, 0x0, 1, 4, 1, .ro, 0⟩
def APLL.STATUS_EPOCH_PEND : Fld := ⟨.apll, 0xC, 0x0, 1, 0x0, 1, 5, 1, .ro, 0⟩
def APLL.CFG_REFSEL : Fld := ⟨.apll, 0x40, 0x0, 1, 0x0, 1, 0, 2, .rw, 0⟩
def APLL.CFG_APPLY : Fld := ⟨.apll, 0x40, 0x0, 1, 0x0, 1, 2, 1, .wo, 0⟩
def APLL.RATIO_LO : Fld := ⟨.apll, 0x44, 0x0, 1, 0x0, 1, 0, 32, .rw, 3181457256⟩
def APLL.RATIO_HI : Fld := ⟨.apll, 0x48, 0x0, 1, 0x0, 1, 0, 16, .rw, 30340⟩
def APLL.VCO_KHZ : Fld := ⟨.apll, 0x4C, 0x0, 1, 0x0, 1, 0, 23, .ro, 6400000⟩
def APLL.BOUNDARY : Fld := ⟨.apll, 0x50, 0x0, 1, 0x0, 1, 0, 16, .ro, 26000⟩
def APLL.EPOCH_FRN : Fld := ⟨.apll, 0x54, 0x0, 1, 0x0, 1, 0, 32, .ro, 0⟩
def APLL.LOL_CNT : Fld := ⟨.apll, 0x58, 0x0, 1, 0x0, 1, 0, 32, .cnt, 0⟩

/-- The fields of the APLL page, in the order of its table. -/
def APLL.fields : List Fld :=
  [APLL.CTRL, APLL.STATUS_LOCK, APLL.STATUS_COAST, APLL.STATUS_REF_LOST, APLL.STATUS_RETUNE, APLL.STATUS_EPOCH_PEND, APLL.CFG_REFSEL, APLL.CFG_APPLY, APLL.RATIO_LO, APLL.RATIO_HI, APLL.VCO_KHZ, APLL.BOUNDARY, APLL.EPOCH_FRN, APLL.LOL_CNT]

/-! ### OUT page: R351 -/

def OUT.CTRL : Fld := ⟨.out, 0x8, 0x0, 1, 0x0, 1, 0, 1, .rw, 0⟩
def OUT.STATUS_RUN : Fld := ⟨.out, 0xC, 0x0, 1, 0x0, 1, 1, 3, .ro, 0⟩
def OUT.STATUS_DLL_LOCK : Fld := ⟨.out, 0xC, 0x0, 1, 0x0, 1, 4, 1, .ro, 0⟩
def OUT.STATUS_DLL_COAST : Fld := ⟨.out, 0xC, 0x0, 1, 0x0, 1, 5, 1, .ro, 0⟩
def OUT.STATUS_FMT_PEND : Fld := ⟨.out, 0xC, 0x0, 1, 0x0, 1, 6, 1, .ro, 0⟩
def OUT.SRC : Fld := ⟨.out, 0x40, 0x0, 1, 0x0, 1, 0, 2, .lk, 0⟩
def OUT.FORMAT_FMT : Fld := ⟨.out, 0x44, 0x0, 1, 0x0, 1, 0, 3, .lk, 0⟩
def OUT.FORMAT_P_SEL : Fld := ⟨.out, 0x44, 0x0, 1, 0x0, 1, 4, 2, .lk, 0⟩
def OUT.FORMAT_N_SEL : Fld := ⟨.out, 0x44, 0x0, 1, 0x0, 1, 6, 2, .lk, 0⟩
def OUT.FORMAT_BANK_V : Fld := ⟨.out, 0x44, 0x0, 1, 0x0, 1, 12, 2, .lk, 2⟩
def OUT.MODE_PULSE : Fld := ⟨.out, 0x48, 0x0, 1, 0x0, 1, 0, 1, .rw, 0⟩
def OUT.MODE_SQUELCH_LOST : Fld := ⟨.out, 0x48, 0x0, 1, 0x0, 1, 1, 1, .rw, 0⟩
def OUT.DIV : Fld := ⟨.out, 0x4C, 0x0, 1, 0x0, 1, 0, 32, .rw, 640⟩
def OUT.DELAY : Fld := ⟨.out, 0x50, 0x0, 1, 0x0, 1, 0, 8, .rw, 0⟩
def OUT.COARSE : Fld := ⟨.out, 0x54, 0x0, 1, 0x0, 1, 0, 32, .rw, 0⟩
def OUT.PULSE_PER : Fld := ⟨.out, 0x58, 0x0, 1, 0x0, 1, 0, 3, .rw, 0⟩
def OUT.PER_NS : Fld := ⟨.out, 0x5C, 0x0, 1, 0x0, 1, 0, 30, .rw, 1000000⟩
def OUT.WIDTH_NS : Fld := ⟨.out, 0x60, 0x0, 1, 0x0, 1, 0, 30, .rw, 100000⟩
def OUT.PALIGN_CHAN : Fld := ⟨.out, 0x64, 0x0, 1, 0x0, 1, 0, 4, .rw, 0⟩
def OUT.PALIGN_EN : Fld := ⟨.out, 0x64, 0x0, 1, 0x0, 1, 8, 1, .rw, 0⟩
def OUT.PALIGN_OFS_LO : Fld := ⟨.out, 0x68, 0x0, 1, 0x0, 1, 0, 32, .rw, 0⟩
def OUT.PALIGN_OFS_HI : Fld := ⟨.out, 0x6C, 0x0, 1, 0x0, 1, 0, 16, .rw, 0⟩
def OUT.ENABLE_FRN : Fld := ⟨.out, 0x70, 0x0, 1, 0x0, 1, 0, 32, .ro, 0⟩
def OUT.SQUELCH_CNT : Fld := ⟨.out, 0x74, 0x0, 1, 0x0, 1, 0, 32, .cnt, 0⟩

/-- The fields of the OUT page, in the order of its table. -/
def OUT.fields : List Fld :=
  [OUT.CTRL, OUT.STATUS_RUN, OUT.STATUS_DLL_LOCK, OUT.STATUS_DLL_COAST, OUT.STATUS_FMT_PEND, OUT.SRC, OUT.FORMAT_FMT, OUT.FORMAT_P_SEL, OUT.FORMAT_N_SEL, OUT.FORMAT_BANK_V, OUT.MODE_PULSE, OUT.MODE_SQUELCH_LOST, OUT.DIV, OUT.DELAY, OUT.COARSE, OUT.PULSE_PER, OUT.PER_NS, OUT.WIDTH_NS, OUT.PALIGN_CHAN, OUT.PALIGN_EN] ++
  [OUT.PALIGN_OFS_LO, OUT.PALIGN_OFS_HI, OUT.ENABLE_FRN, OUT.SQUELCH_CNT]

/-! ### TIME page: R384 -/

def TIME.CTRL_SET_ABS : Fld := ⟨.time, 0x8, 0x0, 1, 0x0, 1, 0, 1, .wo, 0⟩
def TIME.CTRL_SET_REL : Fld := ⟨.time, 0x8, 0x0, 1, 0x0, 1, 1, 1, .wo, 0⟩
def TIME.STATUS_TIME_SET : Fld := ⟨.time, 0xC, 0x0, 1, 0x0, 1, 1, 1, .ro, 0⟩
def TIME.STATUS_STEPPED : Fld := ⟨.time, 0xC, 0x0, 1, 0x0, 1, 2, 1, .ro, 0⟩
def TIME.STATUS_T_SLEWING : Fld := ⟨.time, 0xC, 0x0, 1, 0x0, 1, 3, 1, .ro, 0⟩
def TIME.STATUS_TOD_MISMATCH : Fld := ⟨.time, 0xC, 0x0, 1, 0x0, 1, 4, 1, .ro, 0⟩
def TIME.NOW_NS : Fld := ⟨.time, 0x40, 0x0, 1, 0x0, 1, 0, 30, .ro, 0⟩
def TIME.NOW_SEC_LO : Fld := ⟨.time, 0x44, 0x0, 1, 0x0, 1, 0, 32, .ro, 0⟩
def TIME.NOW_SEC_HI : Fld := ⟨.time, 0x48, 0x0, 1, 0x0, 1, 0, 16, .ro, 0⟩
def TIME.NOW_FRAC : Fld := ⟨.time, 0x4C, 0x0, 1, 0x0, 1, 0, 16, .ro, 0⟩
def TIME.TICK_SEC_LO : Fld := ⟨.time, 0x50, 0x0, 1, 0x0, 1, 0, 32, .rs, 0⟩
def TIME.TICK_SEC_HI : Fld := ⟨.time, 0x54, 0x0, 1, 0x0, 1, 0, 16, .rs, 0⟩
def TIME.TICK_NS : Fld := ⟨.time, 0x58, 0x0, 1, 0x0, 1, 0, 30, .rs, 0⟩
def TIME.TICK_FRAC : Fld := ⟨.time, 0x5C, 0x0, 1, 0x0, 1, 0, 16, .rs, 0⟩
def TIME.SET_SEC_LO : Fld := ⟨.time, 0x60, 0x0, 1, 0x0, 1, 0, 32, .rw, 0⟩
def TIME.SET_SEC_HI : Fld := ⟨.time, 0x64, 0x0, 1, 0x0, 1, 0, 16, .rw, 0⟩
def TIME.SET_NS : Fld := ⟨.time, 0x68, 0x0, 1, 0x0, 1, 0, 30, .rw, 0⟩
def TIME.SET_FRAC : Fld := ⟨.time, 0x6C, 0x0, 1, 0x0, 1, 0, 16, .rw, 0⟩
def TIME.STEP_CFG_THRESH : Fld := ⟨.time, 0x70, 0x0, 1, 0x0, 1, 0, 30, .lk, 1000⟩
def TIME.STEP_CFG_NO_BACKSTEP : Fld := ⟨.time, 0x70, 0x0, 1, 0x0, 1, 31, 1, .lk, 0⟩
def TIME.STEP_LIM_MAX_HR : Fld := ⟨.time, 0x74, 0x0, 1, 0x0, 1, 0, 8, .lk, 4⟩
def TIME.STEP_LIM_DONE_HR : Fld := ⟨.time, 0x74, 0x0, 1, 0x0, 1, 8, 8, .ro, 0⟩
def TIME.STEP_LIM_LAST_SRC : Fld := ⟨.time, 0x74, 0x0, 1, 0x0, 1, 16, 3, .ro, 0⟩
def TIME.STEP_LIM_LAST_REFUSE : Fld := ⟨.time, 0x74, 0x0, 1, 0x0, 1, 20, 3, .ro, 0⟩
def TIME.LAST_STEP_LO : Fld := ⟨.time, 0x78, 0x0, 1, 0x0, 1, 0, 32, .ro, 0⟩
def TIME.LAST_STEP_HI : Fld := ⟨.time, 0x7C, 0x0, 1, 0x0, 1, 0, 32, .ro, 0⟩
def TIME.LAST_STEP_FRN : Fld := ⟨.time, 0x80, 0x0, 1, 0x0, 1, 0, 32, .ro, 0⟩
def TIME.T_SLEW_LEFT : Fld := ⟨.time, 0x84, 0x0, 1, 0x0, 1, 0, 32, .ro, 0⟩
def TIME.UTC_OFS : Fld := ⟨.time, 0x88, 0x0, 1, 0x0, 1, 0, 16, .ro, 0⟩
def TIME.UTC_VALID : Fld := ⟨.time, 0x88, 0x0, 1, 0x0, 1, 16, 1, .ro, 0⟩
def TIME.UTC_LEAP61 : Fld := ⟨.time, 0x88, 0x0, 1, 0x0, 1, 17, 1, .ro, 0⟩
def TIME.UTC_LEAP59 : Fld := ⟨.time, 0x88, 0x0, 1, 0x0, 1, 18, 1, .ro, 0⟩
def TIME.TOD_CFG_CONN : Fld := ⟨.time, 0x8C, 0x0, 1, 0x0, 1, 0, 1, .lk, 0⟩
def TIME.TOD_CFG_BAUD : Fld := ⟨.time, 0x8C, 0x0, 1, 0x0, 1, 1, 3, .rw, 0⟩
def TIME.TOD_CFG_TX_EN : Fld := ⟨.time, 0x8C, 0x0, 1, 0x0, 1, 4, 1, .rw, 0⟩
def TIME.TOD_CFG_RX_EN : Fld := ⟨.time, 0x8C, 0x0, 1, 0x0, 1, 5, 1, .rw, 0⟩
def TIME.TOD_CFG_TX_DELAY : Fld := ⟨.time, 0x8C, 0x0, 1, 0x0, 1, 16, 9, .rw, 100⟩
def TIME.TOD_STAT_TX_SEQ : Fld := ⟨.time, 0x90, 0x0, 1, 0x0, 1, 0, 16, .ro, 0⟩
def TIME.TOD_STAT_MISMATCH : Fld := ⟨.time, 0x90, 0x0, 1, 0x0, 1, 16, 8, .ro, 0⟩
def TIME.TOD_STAT_MATCH_RUN : Fld := ⟨.time, 0x90, 0x0, 1, 0x0, 1, 24, 2, .ro, 0⟩
def TIME.STEP_CNT : Fld := ⟨.time, 0x94, 0x0, 1, 0x0, 1, 0, 32, .cnt, 0⟩
def TIME.NMEA_OK_CNT : Fld := ⟨.time, 0x98, 0x0, 1, 0x0, 1, 0, 32, .cnt, 0⟩
def TIME.NMEA_BAD_CNT : Fld := ⟨.time, 0x9C, 0x0, 1, 0x0, 1, 0, 32, .cnt, 0⟩
def TIME.NMEA_PHASE_CNT : Fld := ⟨.time, 0xA0, 0x0, 1, 0x0, 1, 0, 32, .cnt, 0⟩
def TIME.TRIG_SEC_LO : Fld := ⟨.time, 0x100, 0x40, 8, 0x0, 1, 0, 32, .rw, 0⟩
def TIME.TRIG_SEC_HI : Fld := ⟨.time, 0x104, 0x40, 8, 0x0, 1, 0, 16, .rw, 0⟩
def TIME.TRIG_NS : Fld := ⟨.time, 0x108, 0x40, 8, 0x0, 1, 0, 30, .rw, 0⟩
def TIME.TRIG_PER : Fld := ⟨.time, 0x10C, 0x40, 8, 0x0, 1, 0, 30, .rw, 0⟩
def TIME.TRIG_CTRL_ARM : Fld := ⟨.time, 0x110, 0x40, 8, 0x0, 1, 0, 1, .wo, 0⟩
def TIME.TRIG_CTRL_DISARM : Fld := ⟨.time, 0x110, 0x40, 8, 0x0, 1, 1, 1, .wo, 0⟩
def TIME.TRIG_CTRL_LATE_OK : Fld := ⟨.time, 0x110, 0x40, 8, 0x0, 1, 2, 1, .rw, 0⟩
def TIME.TRIG_CTRL_ACTION : Fld := ⟨.time, 0x110, 0x40, 8, 0x0, 1, 4, 2, .rw, 0⟩
def TIME.TRIG_CTRL_TARGET : Fld := ⟨.time, 0x110, 0x40, 8, 0x0, 1, 8, 4, .rw, 0⟩
def TIME.TRIG_STAT_STATE : Fld := ⟨.time, 0x114, 0x40, 8, 0x0, 1, 0, 3, .ro, 0⟩
def TIME.TRIG_STAT_CAUSE : Fld := ⟨.time, 0x114, 0x40, 8, 0x0, 1, 4, 3, .ro, 0⟩
def TIME.TRIG_STAT_LATE : Fld := ⟨.time, 0x114, 0x40, 8, 0x0, 1, 8, 1, .ro, 0⟩
def TIME.TRIG_STAT_JUMPED : Fld := ⟨.time, 0x114, 0x40, 8, 0x0, 1, 9, 1, .ro, 0⟩
def TIME.TRIG_FIRED_SEC_LO : Fld := ⟨.time, 0x118, 0x40, 8, 0x0, 1, 0, 32, .ro, 0⟩
def TIME.TRIG_FIRED_SEC_HI : Fld := ⟨.time, 0x11C, 0x40, 8, 0x0, 1, 0, 16, .ro, 0⟩
def TIME.TRIG_FIRED_NS : Fld := ⟨.time, 0x120, 0x40, 8, 0x0, 1, 0, 30, .ro, 0⟩
def TIME.TRIG_FIRED_FRAC : Fld := ⟨.time, 0x124, 0x40, 8, 0x0, 1, 0, 16, .ro, 0⟩
def TIME.TRIG_FIRED_FRN : Fld := ⟨.time, 0x128, 0x40, 8, 0x0, 1, 0, 32, .ro, 0⟩
def TIME.TRIG_IVL_RESULT_CODE : Fld := ⟨.time, 0x12C, 0x40, 8, 0x0, 1, 0, 14, .ro, 8192⟩
def TIME.TRIG_IVL_RESULT_FLAGS : Fld := ⟨.time, 0x12C, 0x40, 8, 0x0, 1, 16, 3, .ro, 0⟩
def TIME.TRIG_SKIPPED : Fld := ⟨.time, 0x130, 0x40, 8, 0x0, 1, 0, 32, .cnt, 0⟩
def TIME.CAP_CTRL_ARM : Fld := ⟨.time, 0x300, 0x20, 8, 0x0, 1, 0, 1, .wo, 0⟩
def TIME.CAP_CTRL_CANCEL : Fld := ⟨.time, 0x300, 0x20, 8, 0x0, 1, 1, 1, .wo, 0⟩
def TIME.CAP_CTRL_SRC : Fld := ⟨.time, 0x300, 0x20, 8, 0x0, 1, 8, 4, .rw, 0⟩
def TIME.CAP_STAT_STATE : Fld := ⟨.time, 0x304, 0x20, 8, 0x0, 1, 0, 2, .ro, 0⟩
def TIME.CAP_STAT_STEPPED : Fld := ⟨.time, 0x304, 0x20, 8, 0x0, 1, 4, 1, .ro, 0⟩
def TIME.CAP_STAT_CAUSE : Fld := ⟨.time, 0x304, 0x20, 8, 0x0, 1, 8, 3, .ro, 0⟩
def TIME.CAP_STAT_SKIP : Fld := ⟨.time, 0x304, 0x20, 8, 0x0, 1, 16, 16, .ro, 0⟩
def TIME.CAP_SEC_LO : Fld := ⟨.time, 0x308, 0x20, 8, 0x0, 1, 0, 32, .ro, 0⟩
def TIME.CAP_SEC_HI : Fld := ⟨.time, 0x30C, 0x20, 8, 0x0, 1, 0, 16, .ro, 0⟩
def TIME.CAP_NS : Fld := ⟨.time, 0x310, 0x20, 8, 0x0, 1, 0, 30, .ro, 0⟩
def TIME.CAP_FRAC : Fld := ⟨.time, 0x314, 0x20, 8, 0x0, 1, 0, 16, .ro, 0⟩
def TIME.CAP_FRN : Fld := ⟨.time, 0x318, 0x20, 8, 0x0, 1, 0, 32, .ro, 0⟩

/-- The fields of the TIME page, in the order of its table. -/
def TIME.fields : List Fld :=
  [TIME.CTRL_SET_ABS, TIME.CTRL_SET_REL, TIME.STATUS_TIME_SET, TIME.STATUS_STEPPED, TIME.STATUS_T_SLEWING, TIME.STATUS_TOD_MISMATCH, TIME.NOW_NS, TIME.NOW_SEC_LO, TIME.NOW_SEC_HI, TIME.NOW_FRAC, TIME.TICK_SEC_LO, TIME.TICK_SEC_HI, TIME.TICK_NS, TIME.TICK_FRAC, TIME.SET_SEC_LO, TIME.SET_SEC_HI, TIME.SET_NS, TIME.SET_FRAC, TIME.STEP_CFG_THRESH, TIME.STEP_CFG_NO_BACKSTEP] ++
  [TIME.STEP_LIM_MAX_HR, TIME.STEP_LIM_DONE_HR, TIME.STEP_LIM_LAST_SRC, TIME.STEP_LIM_LAST_REFUSE, TIME.LAST_STEP_LO, TIME.LAST_STEP_HI, TIME.LAST_STEP_FRN, TIME.T_SLEW_LEFT, TIME.UTC_OFS, TIME.UTC_VALID, TIME.UTC_LEAP61, TIME.UTC_LEAP59, TIME.TOD_CFG_CONN, TIME.TOD_CFG_BAUD, TIME.TOD_CFG_TX_EN, TIME.TOD_CFG_RX_EN, TIME.TOD_CFG_TX_DELAY, TIME.TOD_STAT_TX_SEQ, TIME.TOD_STAT_MISMATCH, TIME.TOD_STAT_MATCH_RUN] ++
  [TIME.STEP_CNT, TIME.NMEA_OK_CNT, TIME.NMEA_BAD_CNT, TIME.NMEA_PHASE_CNT, TIME.TRIG_SEC_LO, TIME.TRIG_SEC_HI, TIME.TRIG_NS, TIME.TRIG_PER, TIME.TRIG_CTRL_ARM, TIME.TRIG_CTRL_DISARM, TIME.TRIG_CTRL_LATE_OK, TIME.TRIG_CTRL_ACTION, TIME.TRIG_CTRL_TARGET, TIME.TRIG_STAT_STATE, TIME.TRIG_STAT_CAUSE, TIME.TRIG_STAT_LATE, TIME.TRIG_STAT_JUMPED, TIME.TRIG_FIRED_SEC_LO, TIME.TRIG_FIRED_SEC_HI, TIME.TRIG_FIRED_NS] ++
  [TIME.TRIG_FIRED_FRAC, TIME.TRIG_FIRED_FRN, TIME.TRIG_IVL_RESULT_CODE, TIME.TRIG_IVL_RESULT_FLAGS, TIME.TRIG_SKIPPED, TIME.CAP_CTRL_ARM, TIME.CAP_CTRL_CANCEL, TIME.CAP_CTRL_SRC, TIME.CAP_STAT_STATE, TIME.CAP_STAT_STEPPED, TIME.CAP_STAT_CAUSE, TIME.CAP_STAT_SKIP, TIME.CAP_SEC_LO, TIME.CAP_SEC_HI, TIME.CAP_NS, TIME.CAP_FRAC, TIME.CAP_FRN]

/-! ### ETH page: R416 -/

def ETH.CTRL_ENABLE : Fld := ⟨.eth, 0x8, 0x0, 1, 0x0, 1, 0, 1, .rw, 1⟩
def ETH.CTRL_RESTART_AN : Fld := ⟨.eth, 0x8, 0x0, 1, 0x0, 1, 1, 1, .wo, 0⟩
def ETH.STATUS_LINK : Fld := ⟨.eth, 0xC, 0x0, 1, 0x0, 1, 1, 1, .ro, 0⟩
def ETH.STATUS_PCS_LOCK : Fld := ⟨.eth, 0xC, 0x0, 1, 0x0, 1, 2, 1, .ro, 0⟩
def ETH.STATUS_TS_VALID : Fld := ⟨.eth, 0xC, 0x0, 1, 0x0, 1, 3, 1, .ro, 0⟩
def ETH.STATUS_CAL_DEFAULT : Fld := ⟨.eth, 0xC, 0x0, 1, 0x0, 1, 4, 1, .ro, 0⟩
def ETH.STATUS_SPEED_BAD : Fld := ⟨.eth, 0xC, 0x0, 1, 0x0, 1, 5, 1, .ro, 0⟩
def ETH.STATUS_TXCLK_FB : Fld := ⟨.eth, 0xC, 0x0, 1, 0x0, 1, 6, 1, .ro, 0⟩
def ETH.MODE_MODE : Fld := ⟨.eth, 0x40, 0x0, 1, 0x0, 1, 0, 2, .lk, 0⟩
def ETH.MODE_AN : Fld := ⟨.eth, 0x40, 0x0, 1, 0x0, 1, 4, 1, .lk, 1⟩
def ETH.MAC_LO : Fld := ⟨.eth, 0x44, 0x0, 1, 0x0, 1, 0, 32, .lk, 0⟩
def ETH.MAC_HI : Fld := ⟨.eth, 0x48, 0x0, 1, 0x0, 1, 0, 16, .lk, 0⟩
def ETH.TXCLK_SRC : Fld := ⟨.eth, 0x4C, 0x0, 1, 0x0, 1, 0, 3, .lk, 0⟩
def ETH.TXCLK_DIV : Fld := ⟨.eth, 0x4C, 0x0, 1, 0x0, 1, 8, 8, .lk, 40⟩
def ETH.BOARD_RX : Fld := ⟨.eth, 0x50, 0x0, 1, 0x0, 1, 0, 16, .lk, 0⟩
def ETH.BOARD_TX : Fld := ⟨.eth, 0x50, 0x0, 1, 0x0, 1, 16, 16, .lk, 0⟩
def ETH.CAL_RX : Fld := ⟨.eth, 0x54, 0x0, 1, 0x0, 1, 0, 32, .ro, 0⟩
def ETH.CAL_TX : Fld := ⟨.eth, 0x58, 0x0, 1, 0x0, 1, 0, 32, .ro, 0⟩
def ETH.ESMC_CFG_TX_EN : Fld := ⟨.eth, 0x5C, 0x0, 1, 0x0, 1, 0, 1, .lk, 0⟩
def ETH.ESMC_CFG_ETLV : Fld := ⟨.eth, 0x5C, 0x0, 1, 0x0, 1, 1, 1, .lk, 0⟩
def ETH.ESMC_CFG_DOM : Fld := ⟨.eth, 0x5C, 0x0, 1, 0x0, 1, 4, 2, .lk, 0⟩
def ETH.ESMC_TX_SSM : Fld := ⟨.eth, 0x60, 0x0, 1, 0x0, 1, 0, 4, .ro, 15⟩
def ETH.ESMC_TX_ECODE : Fld := ⟨.eth, 0x60, 0x0, 1, 0x0, 1, 8, 8, .ro, 255⟩
def ETH.RX_CNT : Fld := ⟨.eth, 0x64, 0x0, 1, 0x0, 1, 0, 32, .cnt, 0⟩
def ETH.TX_CNT : Fld := ⟨.eth, 0x68, 0x0, 1, 0x0, 1, 0, 32, .cnt, 0⟩
def ETH.LINK_CNT : Fld := ⟨.eth, 0x6C, 0x0, 1, 0x0, 1, 0, 32, .cnt, 0⟩
def ETH.DROP_CNT : Fld := ⟨.eth, 0x80, 0x4, 9, 0x0, 1, 0, 32, .cnt, 0⟩

/-- The fields of the ETH page, in the order of its table. -/
def ETH.fields : List Fld :=
  [ETH.CTRL_ENABLE, ETH.CTRL_RESTART_AN, ETH.STATUS_LINK, ETH.STATUS_PCS_LOCK, ETH.STATUS_TS_VALID, ETH.STATUS_CAL_DEFAULT, ETH.STATUS_SPEED_BAD, ETH.STATUS_TXCLK_FB, ETH.MODE_MODE, ETH.MODE_AN, ETH.MAC_LO, ETH.MAC_HI, ETH.TXCLK_SRC, ETH.TXCLK_DIV, ETH.BOARD_RX, ETH.BOARD_TX, ETH.CAL_RX, ETH.CAL_TX, ETH.ESMC_CFG_TX_EN, ETH.ESMC_CFG_ETLV] ++
  [ETH.ESMC_CFG_DOM, ETH.ESMC_TX_SSM, ETH.ESMC_TX_ECODE, ETH.RX_CNT, ETH.TX_CNT, ETH.LINK_CNT, ETH.DROP_CNT]

/-! ### PTPTS page: R417 -/

def PTPTS.RX_TS_CNT : Fld := ⟨.ptpts, 0x40, 0x0, 1, 0x0, 1, 0, 32, .cnt, 0⟩
def PTPTS.TX_TS_CNT : Fld := ⟨.ptpts, 0x44, 0x0, 1, 0x0, 1, 0, 32, .cnt, 0⟩
def PTPTS.INVALID_CNT : Fld := ⟨.ptpts, 0x48, 0x0, 1, 0x0, 1, 0, 32, .cnt, 0⟩
def PTPTS.FIFO_OVF_CNT : Fld := ⟨.ptpts, 0x4C, 0x0, 1, 0x0, 1, 0, 32, .cnt, 0⟩
def PTPTS.CFG_EN : Fld := ⟨.ptpts, 0x80, 0x40, 4, 0x0, 1, 0, 1, .lk, 0⟩
def PTPTS.CFG_ROLE : Fld := ⟨.ptpts, 0x80, 0x40, 4, 0x0, 1, 1, 2, .lk, 0⟩
def PTPTS.CFG_PROFILE : Fld := ⟨.ptpts, 0x80, 0x40, 4, 0x0, 1, 3, 2, .lk, 0⟩
def PTPTS.CFG_TRANSPORT : Fld := ⟨.ptpts, 0x80, 0x40, 4, 0x0, 1, 5, 2, .lk, 0⟩
def PTPTS.CFG_FEED : Fld := ⟨.ptpts, 0x80, 0x40, 4, 0x0, 1, 8, 2, .lk, 0⟩
def PTPTS.CFG_DOMAIN : Fld := ⟨.ptpts, 0x80, 0x40, 4, 0x0, 1, 16, 8, .lk, 0⟩
def PTPTS.STATE_PORT : Fld := ⟨.ptpts, 0x84, 0x40, 4, 0x0, 1, 0, 4, .ro, 0⟩
def PTPTS.STATE_CLOSED : Fld := ⟨.ptpts, 0x84, 0x40, 4, 0x0, 1, 8, 1, .ro, 0⟩
def PTPTS.STATE_CAUSE : Fld := ⟨.ptpts, 0x84, 0x40, 4, 0x0, 1, 12, 2, .ro, 0⟩
def PTPTS.RATES_LOG_SYNC : Fld := ⟨.ptpts, 0x88, 0x40, 4, 0x0, 1, 0, 8, .lk, 0⟩
def PTPTS.RATES_LOG_DELAY : Fld := ⟨.ptpts, 0x88, 0x40, 4, 0x0, 1, 8, 8, .lk, 0⟩
def PTPTS.RATES_LOG_ANN : Fld := ⟨.ptpts, 0x88, 0x40, 4, 0x0, 1, 16, 8, .lk, 1⟩
def PTPTS.RATES_ANN_TMO : Fld := ⟨.ptpts, 0x88, 0x40, 4, 0x0, 1, 24, 4, .lk, 3⟩
def PTPTS.PARENT_LO : Fld := ⟨.ptpts, 0x8C, 0x40, 4, 0x0, 1, 0, 32, .ro, 0⟩
def PTPTS.PARENT_HI : Fld := ⟨.ptpts, 0x90, 0x40, 4, 0x0, 1, 0, 32, .ro, 0⟩
def PTPTS.GM_CLASS : Fld := ⟨.ptpts, 0x94, 0x40, 4, 0x0, 1, 0, 8, .ro, 255⟩
def PTPTS.GM_STEPS : Fld := ⟨.ptpts, 0x94, 0x40, 4, 0x0, 1, 8, 16, .ro, 0⟩
def PTPTS.MPD : Fld := ⟨.ptpts, 0x98, 0x40, 4, 0x0, 1, 0, 32, .ro, 0⟩
def PTPTS.OFFSET : Fld := ⟨.ptpts, 0x9C, 0x40, 4, 0x0, 1, 0, 32, .ro, 0⟩
def PTPTS.RX_SYNC_CNT : Fld := ⟨.ptpts, 0xA0, 0x40, 4, 0x0, 1, 0, 32, .cnt, 0⟩
def PTPTS.TX_SYNC_CNT : Fld := ⟨.ptpts, 0xA4, 0x40, 4, 0x0, 1, 0, 32, .cnt, 0⟩
def PTPTS.UNKNOWN_CNT : Fld := ⟨.ptpts, 0xA8, 0x40, 4, 0x0, 1, 0, 32, .cnt, 0⟩
def PTPTS.BAD_CNT : Fld := ⟨.ptpts, 0xAC, 0x40, 4, 0x0, 1, 0, 32, .cnt, 0⟩
def PTPTS.GRANTS_SLAVES : Fld := ⟨.ptpts, 0xB0, 0x40, 4, 0x0, 1, 0, 6, .ro, 0⟩
def PTPTS.GRANTS_RATE : Fld := ⟨.ptpts, 0xB0, 0x40, 4, 0x0, 1, 16, 8, .ro, 0⟩
def PTPTS.CLOSE_CNT : Fld := ⟨.ptpts, 0xB4, 0x40, 4, 0x0, 1, 0, 32, .cnt, 0⟩
def PTPTS.EST_CNT : Fld := ⟨.ptpts, 0xB8, 0x40, 4, 0x0, 1, 0, 32, .cnt, 0⟩
def PTPTS.ASYM : Fld := ⟨.ptpts, 0xBC, 0x40, 4, 0x0, 1, 0, 32, .lk, 0⟩
def PTPTS.AMT_LO : Fld := ⟨.ptpts, 0x200, 0x40, 4, 0x8, 8, 0, 32, .lk, 0⟩
def PTPTS.AMT_HI : Fld := ⟨.ptpts, 0x204, 0x40, 4, 0x8, 8, 0, 32, .lk, 0⟩

/-- The fields of the PTPTS page, in the order of its table. -/
def PTPTS.fields : List Fld :=
  [PTPTS.RX_TS_CNT, PTPTS.TX_TS_CNT, PTPTS.INVALID_CNT, PTPTS.FIFO_OVF_CNT, PTPTS.CFG_EN, PTPTS.CFG_ROLE, PTPTS.CFG_PROFILE, PTPTS.CFG_TRANSPORT, PTPTS.CFG_FEED, PTPTS.CFG_DOMAIN, PTPTS.STATE_PORT, PTPTS.STATE_CLOSED, PTPTS.STATE_CAUSE, PTPTS.RATES_LOG_SYNC, PTPTS.RATES_LOG_DELAY, PTPTS.RATES_LOG_ANN, PTPTS.RATES_ANN_TMO, PTPTS.PARENT_LO, PTPTS.PARENT_HI, PTPTS.GM_CLASS] ++
  [PTPTS.GM_STEPS, PTPTS.MPD, PTPTS.OFFSET, PTPTS.RX_SYNC_CNT, PTPTS.TX_SYNC_CNT, PTPTS.UNKNOWN_CNT, PTPTS.BAD_CNT, PTPTS.GRANTS_SLAVES, PTPTS.GRANTS_RATE, PTPTS.CLOSE_CNT, PTPTS.EST_CNT, PTPTS.ASYM, PTPTS.AMT_LO, PTPTS.AMT_HI]

/-! ### SHELF page: R445 -/

def SHELF.STATUS_FC : Fld := ⟨.shelf, 0xC, 0x0, 1, 0x0, 1, 1, 2, .ro, 0⟩
def SHELF.STATUS_NODE_CLASH : Fld := ⟨.shelf, 0xC, 0x0, 1, 0x0, 1, 3, 1, .ro, 0⟩
def SHELF.STATUS_ROLE : Fld := ⟨.shelf, 0xC, 0x0, 1, 0x0, 1, 4, 3, .ro, 1⟩
def SHELF.STATUS_SILENT : Fld := ⟨.shelf, 0xC, 0x0, 1, 0x0, 1, 7, 1, .ro, 0⟩
def SHELF.STATUS_DERIVED : Fld := ⟨.shelf, 0xC, 0x0, 1, 0x0, 1, 8, 1, .ro, 0⟩
def SHELF.CFG_NODE_BASE : Fld := ⟨.shelf, 0x40, 0x0, 1, 0x0, 1, 0, 5, .lk, 0⟩
def SHELF.CFG_NOM_RATE : Fld := ⟨.shelf, 0x40, 0x0, 1, 0x0, 1, 8, 1, .lk, 0⟩
def SHELF.CFG_DATA_RATE : Fld := ⟨.shelf, 0x40, 0x0, 1, 0x0, 1, 9, 2, .lk, 0⟩
def SHELF.CFG_EN : Fld := ⟨.shelf, 0x40, 0x0, 1, 0x0, 1, 12, 1, .lk, 1⟩
def SHELF.CFG_ELECT_EN : Fld := ⟨.shelf, 0x40, 0x0, 1, 0x0, 1, 13, 1, .lk, 0⟩
def SHELF.CFG_REMOTE_EN : Fld := ⟨.shelf, 0x40, 0x0, 1, 0x0, 1, 14, 1, .lk, 0⟩
def SHELF.CFG_GROUP : Fld := ⟨.shelf, 0x40, 0x0, 1, 0x0, 1, 16, 4, .lk, 0⟩
def SHELF.NODE : Fld := ⟨.shelf, 0x44, 0x0, 1, 0x0, 1, 0, 5, .ro, 0⟩
def SHELF.ROSTER : Fld := ⟨.shelf, 0x48, 0x0, 1, 0x0, 1, 0, 32, .lk, 4294967295⟩
def SHELF.STBY_SQUELCH : Fld := ⟨.shelf, 0x4C, 0x0, 1, 0x0, 1, 0, 10, .lk, 0⟩
def SHELF.TX_CFG_QLF_EN : Fld := ⟨.shelf, 0x50, 0x0, 1, 0x0, 1, 0, 1, .lk, 0⟩
def SHELF.TX_CFG_QLF_DOM : Fld := ⟨.shelf, 0x50, 0x0, 1, 0x0, 1, 1, 2, .lk, 0⟩
def SHELF.TX_CFG_TOD_EN : Fld := ⟨.shelf, 0x50, 0x0, 1, 0x0, 1, 4, 1, .lk, 0⟩
def SHELF.TX_CFG_TOD_DOM : Fld := ⟨.shelf, 0x50, 0x0, 1, 0x0, 1, 5, 2, .lk, 0⟩
def SHELF.TX_CFG_ALERT_MASK : Fld := ⟨.shelf, 0x50, 0x0, 1, 0x0, 1, 8, 8, .lk, 0⟩
def SHELF.PEERS : Fld := ⟨.shelf, 0x54, 0x0, 1, 0x0, 1, 0, 32, .ro, 0⟩
def SHELF.ACTIVE_NODE_ID : Fld := ⟨.shelf, 0x58, 0x0, 1, 0x0, 1, 0, 5, .ro, 0⟩
def SHELF.ACTIVE_NODE_NONE : Fld := ⟨.shelf, 0x58, 0x0, 1, 0x0, 1, 7, 1, .ro, 1⟩
def SHELF.ROLE_FRN : Fld := ⟨.shelf, 0x5C, 0x0, 1, 0x0, 1, 0, 32, .ro, 0⟩
def SHELF.TEC_REC_TEC : Fld := ⟨.shelf, 0x60, 0x0, 1, 0x0, 1, 0, 8, .ro, 0⟩
def SHELF.TEC_REC_REC : Fld := ⟨.shelf, 0x60, 0x0, 1, 0x0, 1, 8, 8, .ro, 0⟩
def SHELF.PEER_TOD_DIFF : Fld := ⟨.shelf, 0x64, 0x0, 1, 0x0, 1, 0, 8, .ro, 0⟩
def SHELF.PEER_TOD_VALID : Fld := ⟨.shelf, 0x64, 0x0, 1, 0x0, 1, 31, 1, .ro, 0⟩
def SHELF.RX_CNT : Fld := ⟨.shelf, 0x80, 0x0, 1, 0x0, 1, 0, 32, .cnt, 0⟩
def SHELF.TX_CNT : Fld := ⟨.shelf, 0x84, 0x0, 1, 0x0, 1, 0, 32, .cnt, 0⟩
def SHELF.UNKNOWN_CNT : Fld := ⟨.shelf, 0x88, 0x0, 1, 0x0, 1, 0, 32, .cnt, 0⟩
def SHELF.STRANGER_CNT : Fld := ⟨.shelf, 0x8C, 0x0, 1, 0x0, 1, 0, 32, .cnt, 0⟩
def SHELF.ERR_CNT : Fld := ⟨.shelf, 0x90, 0x0, 1, 0x0, 1, 0, 32, .cnt, 0⟩
def SHELF.BUSOFF_CNT : Fld := ⟨.shelf, 0x94, 0x0, 1, 0x0, 1, 0, 32, .cnt, 0⟩
def SHELF.CANCEL_LATE_CNT : Fld := ⟨.shelf, 0x98, 0x0, 1, 0x0, 1, 0, 32, .cnt, 0⟩
def SHELF.REMOTE_CNT : Fld := ⟨.shelf, 0x9C, 0x0, 1, 0x0, 1, 0, 32, .cnt, 0⟩
def SHELF.REMOTE_DENIED_CNT : Fld := ⟨.shelf, 0xA0, 0x0, 1, 0x0, 1, 0, 32, .cnt, 0⟩

/-- The fields of the SHELF page, in the order of its table. -/
def SHELF.fields : List Fld :=
  [SHELF.STATUS_FC, SHELF.STATUS_NODE_CLASH, SHELF.STATUS_ROLE, SHELF.STATUS_SILENT, SHELF.STATUS_DERIVED, SHELF.CFG_NODE_BASE, SHELF.CFG_NOM_RATE, SHELF.CFG_DATA_RATE, SHELF.CFG_EN, SHELF.CFG_ELECT_EN, SHELF.CFG_REMOTE_EN, SHELF.CFG_GROUP, SHELF.NODE, SHELF.ROSTER, SHELF.STBY_SQUELCH, SHELF.TX_CFG_QLF_EN, SHELF.TX_CFG_QLF_DOM, SHELF.TX_CFG_TOD_EN, SHELF.TX_CFG_TOD_DOM, SHELF.TX_CFG_ALERT_MASK] ++
  [SHELF.PEERS, SHELF.ACTIVE_NODE_ID, SHELF.ACTIVE_NODE_NONE, SHELF.ROLE_FRN, SHELF.TEC_REC_TEC, SHELF.TEC_REC_REC, SHELF.PEER_TOD_DIFF, SHELF.PEER_TOD_VALID, SHELF.RX_CNT, SHELF.TX_CNT, SHELF.UNKNOWN_CNT, SHELF.STRANGER_CNT, SHELF.ERR_CNT, SHELF.BUSOFF_CNT, SHELF.CANCEL_LATE_CNT, SHELF.REMOTE_CNT, SHELF.REMOTE_DENIED_CNT]

/-! ### ROOT page: R473 -/

def ROOT.CTRL_VERIFY : Fld := ⟨.root, 0x8, 0x0, 1, 0x0, 1, 0, 1, .wo, 0⟩
def ROOT.CTRL_COMMIT : Fld := ⟨.root, 0x8, 0x0, 1, 0x0, 1, 1, 1, .wo, 0⟩
def ROOT.CTRL_ABORT : Fld := ⟨.root, 0x8, 0x0, 1, 0x0, 1, 2, 1, .wo, 0⟩
def ROOT.CTRL_IMAGE_LOAD : Fld := ⟨.root, 0x8, 0x0, 1, 0x0, 1, 4, 1, .wo, 0⟩
def ROOT.CTRL_IMAGE_ACTIVATE : Fld := ⟨.root, 0x8, 0x0, 1, 0x0, 1, 5, 1, .wo, 0⟩
def ROOT.CTRL_IMAGE_CANCEL : Fld := ⟨.root, 0x8, 0x0, 1, 0x0, 1, 6, 1, .wo, 0⟩
def ROOT.CTRL_LEAF_RESTART : Fld := ⟨.root, 0x8, 0x0, 1, 0x0, 1, 8, 1, .wo, 0⟩
def ROOT.STATUS_PSTATE : Fld := ⟨.root, 0xC, 0x0, 1, 0x0, 1, 1, 3, .ro, 0⟩
def ROOT.STATUS_LEAF : Fld := ⟨.root, 0xC, 0x0, 1, 0x0, 1, 4, 3, .ro, 0⟩
def ROOT.STATUS_ROM_PROFILE : Fld := ⟨.root, 0xC, 0x0, 1, 0x0, 1, 8, 1, .ro, 0⟩
def ROOT.STATUS_KEY_ENROLLED : Fld := ⟨.root, 0xC, 0x0, 1, 0x0, 1, 9, 1, .ro, 0⟩
def ROOT.STATUS_COMMIT_PEND : Fld := ⟨.root, 0xC, 0x0, 1, 0x0, 1, 10, 1, .ro, 0⟩
def ROOT.POL_GEN : Fld := ⟨.root, 0x40, 0x0, 1, 0x0, 1, 0, 32, .ro, 0⟩
def ROOT.STAGE_GEN : Fld := ⟨.root, 0x44, 0x0, 1, 0x0, 1, 0, 32, .ro, 0⟩
def ROOT.COMMIT_FRN : Fld := ⟨.root, 0x48, 0x0, 1, 0x0, 1, 0, 32, .ro, 0⟩
def ROOT.REFUSE_CODE : Fld := ⟨.root, 0x4C, 0x0, 1, 0x0, 1, 0, 8, .ro, 0⟩
def ROOT.REFUSE_OFFSET : Fld := ⟨.root, 0x4C, 0x0, 1, 0x0, 1, 16, 16, .ro, 65535⟩
def ROOT.KEY_FPR : Fld := ⟨.root, 0x50, 0x4, 4, 0x0, 1, 0, 32, .ro, 0⟩
def ROOT.LEAF_VER : Fld := ⟨.root, 0x60, 0x0, 1, 0x0, 1, 0, 32, .ro, 0⟩
def ROOT.LEAF_EPOCH : Fld := ⟨.root, 0x64, 0x0, 1, 0x0, 1, 0, 32, .ro, 0⟩
def ROOT.LEAF_RESTART_CNT : Fld := ⟨.root, 0x68, 0x0, 1, 0x0, 1, 0, 32, .cnt, 0⟩
def ROOT.LEAF_LAST_CAUSE : Fld := ⟨.root, 0x6C, 0x0, 1, 0x0, 1, 0, 4, .ro, 0⟩
def ROOT.LEAF_LAST_IN_WINDOW : Fld := ⟨.root, 0x6C, 0x0, 1, 0x0, 1, 8, 2, .ro, 0⟩
def ROOT.LEAF_LAST_FRN : Fld := ⟨.root, 0x6C, 0x0, 1, 0x0, 1, 16, 16, .ro, 0⟩
def ROOT.GATE_REFUSE_CNT : Fld := ⟨.root, 0x70, 0x0, 1, 0x0, 1, 0, 32, .cnt, 0⟩
def ROOT.GATE_LAST_CALL : Fld := ⟨.root, 0x74, 0x0, 1, 0x0, 1, 0, 8, .ro, 0⟩
def ROOT.GATE_LAST_RESULT : Fld := ⟨.root, 0x74, 0x0, 1, 0x0, 1, 8, 4, .ro, 0⟩
def ROOT.GATE_LAST_FRN : Fld := ⟨.root, 0x74, 0x0, 1, 0x0, 1, 16, 16, .ro, 0⟩
def ROOT.LEAF_LIMITS : Fld := ⟨.root, 0x78, 0x0, 1, 0x0, 1, 0, 16, .lk, 1⟩
def ROOT.ROOT_VER : Fld := ⟨.root, 0x7C, 0x0, 1, 0x0, 1, 0, 32, .ro, 0⟩

/-- The fields of the ROOT page, in the order of its table. -/
def ROOT.fields : List Fld :=
  [ROOT.CTRL_VERIFY, ROOT.CTRL_COMMIT, ROOT.CTRL_ABORT, ROOT.CTRL_IMAGE_LOAD, ROOT.CTRL_IMAGE_ACTIVATE, ROOT.CTRL_IMAGE_CANCEL, ROOT.CTRL_LEAF_RESTART, ROOT.STATUS_PSTATE, ROOT.STATUS_LEAF, ROOT.STATUS_ROM_PROFILE, ROOT.STATUS_KEY_ENROLLED, ROOT.STATUS_COMMIT_PEND, ROOT.POL_GEN, ROOT.STAGE_GEN, ROOT.COMMIT_FRN, ROOT.REFUSE_CODE, ROOT.REFUSE_OFFSET, ROOT.KEY_FPR, ROOT.LEAF_VER, ROOT.LEAF_EPOCH] ++
  [ROOT.LEAF_RESTART_CNT, ROOT.LEAF_LAST_CAUSE, ROOT.LEAF_LAST_IN_WINDOW, ROOT.LEAF_LAST_FRN, ROOT.GATE_REFUSE_CNT, ROOT.GATE_LAST_CALL, ROOT.GATE_LAST_RESULT, ROOT.GATE_LAST_FRN, ROOT.LEAF_LIMITS, ROOT.ROOT_VER]

/-! ### CELLAR page: R507 -/

def CELLAR.STATUS_BUSY : Fld := ⟨.cellar, 0xC, 0x0, 1, 0x0, 1, 1, 1, .ro, 0⟩
def CELLAR.STATUS_DEFERRED : Fld := ⟨.cellar, 0xC, 0x0, 1, 0x0, 1, 2, 1, .ro, 0⟩
def CELLAR.STATUS_PF_SEQ : Fld := ⟨.cellar, 0xC, 0x0, 1, 0x0, 1, 3, 1, .ro, 0⟩
def CELLAR.STATUS_UNFINISHED : Fld := ⟨.cellar, 0xC, 0x0, 1, 0x0, 1, 4, 1, .ro, 0⟩
def CELLAR.STATUS_LIFETIME_SAT : Fld := ⟨.cellar, 0xC, 0x0, 1, 0x0, 1, 5, 1, .ro, 0⟩
def CELLAR.STATUS_LIFETIME_RESET : Fld := ⟨.cellar, 0xC, 0x0, 1, 0x0, 1, 6, 1, .ro, 0⟩
def CELLAR.QUEUE_BLOCK : Fld := ⟨.cellar, 0x40, 0x0, 1, 0x0, 1, 0, 8, .ro, 0⟩
def CELLAR.QUEUE_COPY : Fld := ⟨.cellar, 0x40, 0x0, 1, 0x0, 1, 8, 1, .ro, 0⟩
def CELLAR.QUEUE_DEPTH : Fld := ⟨.cellar, 0x40, 0x0, 1, 0x0, 1, 16, 8, .ro, 0⟩
def CELLAR.LAST_BLOCK : Fld := ⟨.cellar, 0x44, 0x0, 1, 0x0, 1, 0, 8, .ro, 0⟩
def CELLAR.LAST_COPY : Fld := ⟨.cellar, 0x44, 0x0, 1, 0x0, 1, 8, 1, .ro, 0⟩
def CELLAR.LAST_RESULT : Fld := ⟨.cellar, 0x44, 0x0, 1, 0x0, 1, 9, 2, .ro, 0⟩
def CELLAR.LAST_FRN : Fld := ⟨.cellar, 0x44, 0x0, 1, 0x0, 1, 16, 16, .ro, 0⟩
def CELLAR.INSPECT_SEL : Fld := ⟨.cellar, 0x48, 0x0, 1, 0x0, 1, 0, 8, .rw, 0⟩
def CELLAR.INSPECT_STATE_STATE_A : Fld := ⟨.cellar, 0x4C, 0x0, 1, 0x0, 1, 0, 2, .ro, 0⟩
def CELLAR.INSPECT_STATE_STATE_B : Fld := ⟨.cellar, 0x4C, 0x0, 1, 0x0, 1, 2, 2, .ro, 0⟩
def CELLAR.INSPECT_STATE_WINNER : Fld := ⟨.cellar, 0x4C, 0x0, 1, 0x0, 1, 4, 1, .ro, 0⟩
def CELLAR.INSPECT_STATE_LOST : Fld := ⟨.cellar, 0x4C, 0x0, 1, 0x0, 1, 5, 1, .ro, 0⟩
def CELLAR.INSPECT_STATE_DIRTY : Fld := ⟨.cellar, 0x4C, 0x0, 1, 0x0, 1, 6, 1, .ro, 0⟩
def CELLAR.INSPECT_STATE_CLASS : Fld := ⟨.cellar, 0x4C, 0x0, 1, 0x0, 1, 8, 2, .ro, 0⟩
def CELLAR.INSPECT_GEN_A : Fld := ⟨.cellar, 0x50, 0x0, 1, 0x0, 1, 0, 32, .ro, 0⟩
def CELLAR.INSPECT_GEN_B : Fld := ⟨.cellar, 0x54, 0x0, 1, 0x0, 1, 0, 32, .ro, 0⟩
def CELLAR.INSPECT_WEAR_A : Fld := ⟨.cellar, 0x58, 0x0, 1, 0x0, 1, 0, 32, .ro, 0⟩
def CELLAR.INSPECT_WEAR_B : Fld := ⟨.cellar, 0x5C, 0x0, 1, 0x0, 1, 0, 32, .ro, 0⟩
def CELLAR.SCRUB_NEXT : Fld := ⟨.cellar, 0x60, 0x0, 1, 0x0, 1, 0, 9, .ro, 0⟩
def CELLAR.SCRUB_FRN : Fld := ⟨.cellar, 0x60, 0x0, 1, 0x0, 1, 16, 16, .ro, 0⟩
def CELLAR.STORE_CNT : Fld := ⟨.cellar, 0x64, 0x0, 1, 0x0, 1, 0, 32, .cnt, 0⟩
def CELLAR.TORN_CNT : Fld := ⟨.cellar, 0x68, 0x0, 1, 0x0, 1, 0, 32, .cnt, 0⟩
def CELLAR.LOST_CNT : Fld := ⟨.cellar, 0x6C, 0x0, 1, 0x0, 1, 0, 32, .cnt, 0⟩
def CELLAR.DEFER_CNT : Fld := ⟨.cellar, 0x70, 0x0, 1, 0x0, 1, 0, 32, .cnt, 0⟩
def CELLAR.FAILED_CNT : Fld := ⟨.cellar, 0x74, 0x0, 1, 0x0, 1, 0, 32, .cnt, 0⟩
def CELLAR.REFRESH_CNT : Fld := ⟨.cellar, 0x78, 0x0, 1, 0x0, 1, 0, 32, .cnt, 0⟩
def CELLAR.PAGEMODE : Fld := ⟨.cellar, 0x80, 0x20, 4, 0x0, 1, 0, 1, .rw, 0⟩
def CELLAR.STORE_CMD_FIRST : Fld := ⟨.cellar, 0x84, 0x20, 4, 0x0, 1, 0, 8, .rw, 0⟩
def CELLAR.STORE_CMD_COUNT_M1 : Fld := ⟨.cellar, 0x84, 0x20, 4, 0x0, 1, 8, 8, .rw, 0⟩
def CELLAR.STORE_CMD_GO : Fld := ⟨.cellar, 0x84, 0x20, 4, 0x0, 1, 31, 1, .wo, 0⟩
def CELLAR.STORE_STAT_STATE : Fld := ⟨.cellar, 0x88, 0x20, 4, 0x0, 1, 0, 3, .ro, 0⟩
def CELLAR.STORE_STAT_CAUSE : Fld := ⟨.cellar, 0x88, 0x20, 4, 0x0, 1, 3, 3, .ro, 0⟩
def CELLAR.STORE_STAT_DONE : Fld := ⟨.cellar, 0x88, 0x20, 4, 0x0, 1, 8, 8, .ro, 0⟩
def CELLAR.STORE_STAT_FRN : Fld := ⟨.cellar, 0x88, 0x20, 4, 0x0, 1, 16, 16, .ro, 0⟩
def CELLAR.PSTORE_CNT : Fld := ⟨.cellar, 0x8C, 0x20, 4, 0x0, 1, 0, 32, .cnt, 0⟩
def CELLAR.LT_POWER_UPS : Fld := ⟨.cellar, 0x100, 0x0, 1, 0x0, 1, 0, 32, .ro, 0⟩
def CELLAR.LT_POWER_FAILS : Fld := ⟨.cellar, 0x104, 0x0, 1, 0x0, 1, 0, 32, .ro, 0⟩
def CELLAR.LT_PF_RECOVERED : Fld := ⟨.cellar, 0x108, 0x0, 1, 0x0, 1, 0, 32, .ro, 0⟩
def CELLAR.LT_STORES : Fld := ⟨.cellar, 0x10C, 0x0, 1, 0x0, 1, 0, 32, .ro, 0⟩
def CELLAR.LT_TORN : Fld := ⟨.cellar, 0x110, 0x0, 1, 0x0, 1, 0, 32, .ro, 0⟩
def CELLAR.LT_LOST : Fld := ⟨.cellar, 0x114, 0x0, 1, 0x0, 1, 0, 32, .ro, 0⟩
def CELLAR.LT_REFRESH : Fld := ⟨.cellar, 0x118, 0x0, 1, 0x0, 1, 0, 32, .ro, 0⟩
def CELLAR.LT_STORE_FAILED : Fld := ⟨.cellar, 0x11C, 0x0, 1, 0x0, 1, 0, 32, .ro, 0⟩

/-- The fields of the CELLAR page, in the order of its table. -/
def CELLAR.fields : List Fld :=
  [CELLAR.STATUS_BUSY, CELLAR.STATUS_DEFERRED, CELLAR.STATUS_PF_SEQ, CELLAR.STATUS_UNFINISHED, CELLAR.STATUS_LIFETIME_SAT, CELLAR.STATUS_LIFETIME_RESET, CELLAR.QUEUE_BLOCK, CELLAR.QUEUE_COPY, CELLAR.QUEUE_DEPTH, CELLAR.LAST_BLOCK, CELLAR.LAST_COPY, CELLAR.LAST_RESULT, CELLAR.LAST_FRN, CELLAR.INSPECT_SEL, CELLAR.INSPECT_STATE_STATE_A, CELLAR.INSPECT_STATE_STATE_B, CELLAR.INSPECT_STATE_WINNER, CELLAR.INSPECT_STATE_LOST, CELLAR.INSPECT_STATE_DIRTY, CELLAR.INSPECT_STATE_CLASS] ++
  [CELLAR.INSPECT_GEN_A, CELLAR.INSPECT_GEN_B, CELLAR.INSPECT_WEAR_A, CELLAR.INSPECT_WEAR_B, CELLAR.SCRUB_NEXT, CELLAR.SCRUB_FRN, CELLAR.STORE_CNT, CELLAR.TORN_CNT, CELLAR.LOST_CNT, CELLAR.DEFER_CNT, CELLAR.FAILED_CNT, CELLAR.REFRESH_CNT, CELLAR.PAGEMODE, CELLAR.STORE_CMD_FIRST, CELLAR.STORE_CMD_COUNT_M1, CELLAR.STORE_CMD_GO, CELLAR.STORE_STAT_STATE, CELLAR.STORE_STAT_CAUSE, CELLAR.STORE_STAT_DONE, CELLAR.STORE_STAT_FRN] ++
  [CELLAR.PSTORE_CNT, CELLAR.LT_POWER_UPS, CELLAR.LT_POWER_FAILS, CELLAR.LT_PF_RECOVERED, CELLAR.LT_STORES, CELLAR.LT_TORN, CELLAR.LT_LOST, CELLAR.LT_REFRESH, CELLAR.LT_STORE_FAILED]

/-! ### BBOX page: R574 -/

def BBOX.WR_SEQ : Fld := ⟨.bbox, 0x40, 0x0, 1, 0x0, 1, 0, 32, .ro, 0⟩
def BBOX.WR_IDX : Fld := ⟨.bbox, 0x44, 0x0, 1, 0x0, 1, 0, 12, .ro, 0⟩
def BBOX.RD_SEQ : Fld := ⟨.bbox, 0x48, 0x0, 1, 0x0, 1, 0, 32, .rw, 0⟩
def BBOX.UNREAD : Fld := ⟨.bbox, 0x4C, 0x0, 1, 0x0, 1, 0, 13, .ro, 0⟩
def BBOX.WM : Fld := ⟨.bbox, 0x50, 0x0, 1, 0x0, 1, 0, 13, .rw, 3072⟩
def BBOX.STALE : Fld := ⟨.bbox, 0x54, 0x0, 1, 0x0, 1, 0, 16, .ro, 0⟩
def BBOX.WATCH : Fld := ⟨.bbox, 0x58, 0x0, 1, 0x0, 1, 0, 12, .rw, 0⟩
def BBOX.ENTRY_CNT : Fld := ⟨.bbox, 0x5C, 0x0, 1, 0x0, 1, 0, 32, .cnt, 0⟩
def BBOX.SUPPRESS_CNT : Fld := ⟨.bbox, 0x60, 0x0, 1, 0x0, 1, 0, 32, .cnt, 0⟩
def BBOX.QLOST_CNT : Fld := ⟨.bbox, 0x64, 0x0, 1, 0x0, 1, 0, 32, .cnt, 0⟩
def BBOX.QUEUE : Fld := ⟨.bbox, 0x68, 0x0, 1, 0x0, 1, 0, 7, .ro, 0⟩

/-- The fields of the BBOX page, in the order of its table. -/
def BBOX.fields : List Fld :=
  [BBOX.WR_SEQ, BBOX.WR_IDX, BBOX.RD_SEQ, BBOX.UNREAD, BBOX.WM, BBOX.STALE, BBOX.WATCH, BBOX.ENTRY_CNT, BBOX.SUPPRESS_CNT, BBOX.QLOST_CNT, BBOX.QUEUE]

/-! ### PWR page: R534 -/

def PWR.STATUS_PF : Fld := ⟨.pwr, 0xC, 0x0, 1, 0x0, 1, 1, 1, .ro, 0⟩
def PWR.STATUS_CAUSE : Fld := ⟨.pwr, 0xC, 0x0, 1, 0x0, 1, 2, 2, .ro, 0⟩
def PWR.STATUS_HOLDUP_OK : Fld := ⟨.pwr, 0xC, 0x0, 1, 0x0, 1, 4, 1, .ro, 0⟩
def PWR.STATUS_CHARGING : Fld := ⟨.pwr, 0xC, 0x0, 1, 0x0, 1, 5, 1, .ro, 0⟩
def PWR.STATUS_VIN_RANGE : Fld := ⟨.pwr, 0xC, 0x0, 1, 0x0, 1, 6, 1, .ro, 0⟩
def PWR.STATUS_VAUX3_OFF : Fld := ⟨.pwr, 0xC, 0x0, 1, 0x0, 1, 7, 1, .ro, 0⟩
def PWR.VIN : Fld := ⟨.pwr, 0x40, 0x0, 1, 0x0, 1, 0, 16, .ro, 0⟩
def PWR.VIN_AVG : Fld := ⟨.pwr, 0x44, 0x0, 1, 0x0, 1, 0, 16, .ro, 0⟩
def PWR.V_PF : Fld := ⟨.pwr, 0x48, 0x0, 1, 0x0, 1, 0, 16, .ro, 0⟩
def PWR.HOLDUP : Fld := ⟨.pwr, 0x4C, 0x0, 1, 0x0, 1, 0, 16, .ro, 0⟩
def PWR.IIN : Fld := ⟨.pwr, 0x50, 0x0, 1, 0x0, 1, 0, 16, .ro, 0⟩
def PWR.PIN : Fld := ⟨.pwr, 0x54, 0x0, 1, 0x0, 1, 0, 16, .ro, 0⟩
def PWR.CAP_EST : Fld := ⟨.pwr, 0x58, 0x0, 1, 0x0, 1, 0, 16, .ro, 0⟩
def PWR.RESERVE : Fld := ⟨.pwr, 0x5C, 0x0, 1, 0x0, 1, 0, 16, .ro, 0⟩
def PWR.LAST_PF_FRN : Fld := ⟨.pwr, 0x60, 0x0, 1, 0x0, 1, 0, 32, .ro, 0⟩
def PWR.LAST_PF_VIN : Fld := ⟨.pwr, 0x64, 0x0, 1, 0x0, 1, 0, 8, .ro, 0⟩
def PWR.LAST_PF_HOLDUP : Fld := ⟨.pwr, 0x64, 0x0, 1, 0x0, 1, 8, 8, .ro, 0⟩
def PWR.LAST_PF_HOLDUP_MIN : Fld := ⟨.pwr, 0x64, 0x0, 1, 0x0, 1, 16, 8, .ro, 0⟩
def PWR.LAST_PF_CAUSE : Fld := ⟨.pwr, 0x64, 0x0, 1, 0x0, 1, 24, 2, .ro, 0⟩
def PWR.LAST_PF_RECOVERED : Fld := ⟨.pwr, 0x64, 0x0, 1, 0x0, 1, 26, 1, .ro, 0⟩
def PWR.LAST_PF_MS : Fld := ⟨.pwr, 0x68, 0x0, 1, 0x0, 1, 0, 16, .ro, 0⟩
def PWR.PF_CNT : Fld := ⟨.pwr, 0x6C, 0x0, 1, 0x0, 1, 0, 32, .cnt, 0⟩
def PWR.RECOVER_CNT : Fld := ⟨.pwr, 0x70, 0x0, 1, 0x0, 1, 0, 32, .cnt, 0⟩
def PWR.GLITCH_CNT : Fld := ⟨.pwr, 0x74, 0x0, 1, 0x0, 1, 0, 32, .cnt, 0⟩

/-- The fields of the PWR page, in the order of its table. -/
def PWR.fields : List Fld :=
  [PWR.STATUS_PF, PWR.STATUS_CAUSE, PWR.STATUS_HOLDUP_OK, PWR.STATUS_CHARGING, PWR.STATUS_VIN_RANGE, PWR.STATUS_VAUX3_OFF, PWR.VIN, PWR.VIN_AVG, PWR.V_PF, PWR.HOLDUP, PWR.IIN, PWR.PIN, PWR.CAP_EST, PWR.RESERVE, PWR.LAST_PF_FRN, PWR.LAST_PF_VIN, PWR.LAST_PF_HOLDUP, PWR.LAST_PF_HOLDUP_MIN, PWR.LAST_PF_CAUSE, PWR.LAST_PF_RECOVERED] ++
  [PWR.LAST_PF_MS, PWR.PF_CNT, PWR.RECOVER_CNT, PWR.GLITCH_CNT]

/-! ### OSC page: R534 -/

def OSC.STATUS_WARMUP : Fld := ⟨.osc, 0xC, 0x0, 1, 0x0, 1, 1, 1, .ro, 1⟩
def OSC.STATUS_REGULATING : Fld := ⟨.osc, 0xC, 0x0, 1, 0x0, 1, 2, 1, .ro, 0⟩
def OSC.STATUS_OVEN_FAULT : Fld := ⟨.osc, 0xC, 0x0, 1, 0x0, 1, 3, 1, .ro, 0⟩
def OSC.STATUS_HEATER_SAT : Fld := ⟨.osc, 0xC, 0x0, 1, 0x0, 1, 4, 1, .ro, 0⟩
def OSC.STATUS_HEATER_IDLE : Fld := ⟨.osc, 0xC, 0x0, 1, 0x0, 1, 5, 1, .ro, 0⟩
def OSC.STATUS_EXT_ACTIVE : Fld := ⟨.osc, 0xC, 0x0, 1, 0x0, 1, 6, 1, .ro, 0⟩
def OSC.STATUS_OVEN_OFF : Fld := ⟨.osc, 0xC, 0x0, 1, 0x0, 1, 7, 1, .ro, 0⟩
def OSC.HEATER_OUTER : Fld := ⟨.osc, 0x40, 0x0, 1, 0x0, 1, 0, 16, .ro, 0⟩
def OSC.HEATER_INNER : Fld := ⟨.osc, 0x40, 0x0, 1, 0x0, 1, 16, 16, .ro, 0⟩
def OSC.WARM_S : Fld := ⟨.osc, 0x44, 0x0, 1, 0x0, 1, 0, 16, .ro, 0⟩
def OSC.WARM_LAST : Fld := ⟨.osc, 0x48, 0x0, 1, 0x0, 1, 0, 16, .ro, 0⟩
def OSC.TB_CFG : Fld := ⟨.osc, 0x4C, 0x0, 1, 0x0, 1, 0, 1, .lk, 0⟩
def OSC.EXT_AGEING : Fld := ⟨.osc, 0x50, 0x0, 1, 0x0, 1, 0, 32, .lk, 4294967295⟩
def OSC.OVEN_START_CNT : Fld := ⟨.osc, 0x54, 0x0, 1, 0x0, 1, 0, 32, .cnt, 0⟩

/-- The fields of the OSC page, in the order of its table. -/
def OSC.fields : List Fld :=
  [OSC.STATUS_WARMUP, OSC.STATUS_REGULATING, OSC.STATUS_OVEN_FAULT, OSC.STATUS_HEATER_SAT, OSC.STATUS_HEATER_IDLE, OSC.STATUS_EXT_ACTIVE, OSC.STATUS_OVEN_OFF, OSC.HEATER_OUTER, OSC.HEATER_INNER, OSC.WARM_S, OSC.WARM_LAST, OSC.TB_CFG, OSC.EXT_AGEING, OSC.OVEN_START_CNT]

/-! ### DEBUG page: R473 -/

def DBG.CTRL_REQUEST : Fld := ⟨.dbg, 0x8, 0x0, 1, 0x0, 1, 0, 1, .wo, 0⟩
def DBG.CTRL_REVOKE : Fld := ⟨.dbg, 0x8, 0x0, 1, 0x0, 1, 1, 1, .wo, 0⟩
def DBG.STATUS_GRANTED : Fld := ⟨.dbg, 0xC, 0x0, 1, 0x0, 1, 1, 1, .ro, 0⟩
def DBG.STATUS_STRAP : Fld := ⟨.dbg, 0xC, 0x0, 1, 0x0, 1, 2, 1, .ro, 0⟩
def DBG.STATUS_REFUSED : Fld := ⟨.dbg, 0xC, 0x0, 1, 0x0, 1, 3, 1, .ro, 0⟩
def DBG.SCOPE_ACC_WINDOW : Fld := ⟨.dbg, 0x40, 0x0, 1, 0x0, 1, 0, 1, .lk, 0⟩
def DBG.SCOPE_LEAF_PORT : Fld := ⟨.dbg, 0x40, 0x0, 1, 0x0, 1, 1, 1, .lk, 0⟩
def DBG.SCOPE_LEAF_HALT : Fld := ⟨.dbg, 0x40, 0x0, 1, 0x0, 1, 2, 1, .lk, 0⟩
def DBG.DURATION : Fld := ⟨.dbg, 0x44, 0x0, 1, 0x0, 1, 0, 32, .lk, 3600⟩
def DBG.GRANT_LEFT : Fld := ⟨.dbg, 0x48, 0x0, 1, 0x0, 1, 0, 32, .ro, 0⟩
def DBG.GRANT_FRN : Fld := ⟨.dbg, 0x4C, 0x0, 1, 0x0, 1, 0, 32, .ro, 0⟩
def DBG.GRANT_CNT : Fld := ⟨.dbg, 0x50, 0x0, 1, 0x0, 1, 0, 32, .cnt, 0⟩

/-- The fields of the DEBUG page, in the order of its table. -/
def DBG.fields : List Fld :=
  [DBG.CTRL_REQUEST, DBG.CTRL_REVOKE, DBG.STATUS_GRANTED, DBG.STATUS_STRAP, DBG.STATUS_REFUSED, DBG.SCOPE_ACC_WINDOW, DBG.SCOPE_LEAF_PORT, DBG.SCOPE_LEAF_HALT, DBG.DURATION, DBG.GRANT_LEFT, DBG.GRANT_FRN, DBG.GRANT_CNT]

/-- The page's own fields: every field of its table. -/
def pageFields : Page → List Fld
  | .sys => SYS.fields
  | .part => PART.fields
  | .frame => FRAME.fields
  | .lane => LANE.fields
  | .rows => ROWS.fields
  | .harv => HARV.fields
  | .sel => SEL.fields
  | .dpll => DPLL.fields
  | .apll => APLL.fields
  | .out => OUT.fields
  | .time => TIME.fields
  | .eth => ETH.fields
  | .ptpts => PTPTS.fields
  | .shelf => SHELF.fields
  | .root => ROOT.fields
  | .cellar => CELLAR.fields
  | .bbox => BBOX.fields
  | .pwr => PWR.fields
  | .osc => OSC.fields
  | .dbg => DBG.fields
  | .chan => CHAN.fields

/-- Every field of a page, its header included; a Channel Table entry has no header. -/
def pageAll : Page → List Fld
  | .chan => CHAN.fields
  | p => HDR.fields p ++ pageFields p

end Sys2Proof.Machine
end

