-- ==== Sys2Proof/Machine/State.lean ====
section
/-! DEFINITION. The state of the module as plain data, and the state at power-off that POWER_ON_RESET
starts from. Registers are cells keyed by bit address (Machine/Fields.lean); state that is no register
field has a structure of its own here, each field named after the rule that gives it. -/

namespace Sys2Proof.Machine

/-- Why a step stops. No command of this block ends in a fault: the spec gives every access and every event
an effect on the state. -/
inductive Fault where
  /-- Raised by no meaning; it stands for the class alone. Safe: it stops nothing. -/
  | none
  deriving DecidableEq, Repr

/-- Why a command has no meaning. -/
inductive Refusal where
  /-- An arm of `exec` that has no meaning yet. Safe: the machine stops. -/
  | notModelled (mnemonic : String)
  /-- The operands name no unit or no value that exists (`Instr.wellFormed` is false): no such command can be
  sent to the block. Raised by every meaning. Safe: the machine stops. -/
  | illFormed
  deriving DecidableEq, Repr

/-- What the module is doing as a whole (R538 to R545, R555). -/
inductive Phase where
  /-- no supply, or shut down (R520) -/
  | off
  /-- RESET_N low (R545) -/
  | held
  /-- ports open, no qualified timebase yet (R540) -/
  | waiting
  /-- frames run -/
  | running
  /-- the timebase in use is lost and no other qualified (R555) -/
  | lost
  deriving DecidableEq, Repr

/-- A host word that has been taken and has not acted (R59 to R62): its address, value and tag, the port
it came through, the FRN of the boundary at which it acts, and the number of its transaction (R100). -/
structure QWrite where
  addr  : Nat
  value : Nat
  tag   : Nat
  port  : Port
  due   : Nat
  txn   : Nat
  deriving DecidableEq, Repr

/-- A word that a read fetched: its value, its result code, and whether it was denied (R114). -/
structure Fetched where
  value  : Nat
  code   : Nat
  denied : Bool
  deriving DecidableEq, Repr

/-- The shadows of a reader (R57, R58, R358): the FRN high words of FRAME and of SYS, and SEC and FRAC of each domain's
latest NOW_NS read. -/
structure Shadow where
  frnHi    : Nat := 0
  sysFrnHi : Nat := 0
  nowSec   : List Nat := List.replicate 4 0
  nowFrac  : List Nat := List.replicate 4 0
  deriving DecidableEq, Repr

/-- State of a host port (R57, R89, R113, R358): result of the previous transaction, its flags, the transaction count,
its shadows, what the port shifted out last, its acknowledges of that transaction's bytes on the two wires, address byte first
(R121), and the write bursts it has taken. -/
structure PortSt where
  result   : Nat := 0xF
  denied   : Bool := false
  crcErr   : Bool := false
  late     : Bool := false
  txn      : Nat := 0
  shadow   : Shadow := {}
  out      : List Nat := []
  acks     : List Bool := []
  bursts   : Nat := 0
  deriving DecidableEq, Repr

/-- A two-wire transaction whose clock the module holds (R124, R125); of a read, the words already fetched. -/
inductive I2cHold where
  | write (t : I2cWrite)
  | read (t : I2cRead) (done : List Fetched)
  deriving DecidableEq, Repr

/-- The policy in effect: its generation, which partitions are open, the values it gives to LK fields,
Policy halves and RW start values by cell (a cell it does not list has the Reset column's value, R452), and
its LEAF_DATA sub-records (Table 14.4). -/
structure Policy where
  gen   : Nat
  opens : List Bool
  vals  : List (Nat × Nat)
  leaf  : List (Nat × List Nat)
  deriving DecidableEq, Repr

/-- A journal entry before it is written (R563, R568): FRN, code, partition or none, unit, instance, data. -/
structure JEntry where
  frn  : Nat
  code : Nat
  part : Option Nat
  unit : Nat
  inst : Nat
  data : Nat
  deriving DecidableEq, Repr

/-- The journal logic (R565, R566): the queue of 64; QUEUE_LOST and SUPPRESSED entries held beside it;
entries lost in the frame in progress; entries of the window per code; those suppressed per code; the
sequence before which OVERWRITE is not raised again (R575). -/
structure Journal where
  queue  : List JEntry := []
  held   : List JEntry := []
  lost   : List (Nat × Nat) := []
  counts : List (Nat × Nat) := []
  supp   : List (Nat × Nat) := []
  owNext : Option Nat := none
  deriving DecidableEq, Repr

/-- A timing chain of a lane (R155): the time of its previous timed edge counted from the opening tick of
the acquisition interval in progress (none: no baseline), edges counted since, and the residue carried. -/
structure Chain where
  prev  : Option Rat := none
  k     : Nat := 0
  carry : Rat := 0
  deriving DecidableEq, Repr

/-- A lane (Measurement lanes, *Parts*): the function it serves, its host-sample chain and its
frame-increment chain (R163), the time of its last timed edge (R154), its stored calibration value and
whether one is stored (R166, R553), its correction, frames the SELF result was out (R167), whether a
first calibration is due (R171), and whether its home function was lost (R173). -/
structure LaneU where
  func    : Option Nat
  host    : Chain := {}
  inc     : Chain := {}
  last    : Option Rat := none
  stored  : Int := 0
  known   : Bool := true
  corr    : Int := 0
  selfOut : Nat := 0
  first   : Bool := true
  deriving DecidableEq, Repr

/-- A sample position as stage 1 delivers it (Tables 5.2 and 6.2). -/
inductive Smp where
  /-- 0x2000, no edge in the position -/
  | noEdge
  /-- a valid code -/
  | val (x : Int)
  /-- 0x1FFF (true) or 0x2001 (false) -/
  | ovr (pos : Bool)
  /-- 0x2000, withheld: a lane-fault frame (true), an overdriven pad or a source with no lane -/
  | withheld (spared : Bool)
  /-- 0x2000, SUSPECT -/
  | suspect
  deriving DecidableEq, Repr

/-- A lane function in the frame sample buffer (R192): its positions, whether the frame is a calibration frame
of a new lane (R169), its frame increment as Root's rows receive it (none: withheld or flagged, R163), the
DIFF predecessor before the frame (R193), the last registered edge of its pad (R179) and the edges in the last
8190 LSB of the interval (R176); frames of SUSPECT left, this one included (R181), whether it is overdriven, the frame in which it was last
moved to another lane (R168), the time of its sample-0 edge in the interval, the edges counted in it,
the sum of its increments since the baseline (R286), the DIFF predecessor that the frame leaves to the next, and the plan and
the pulse-width mode that govern the interval begun at the latest tick (R144); and the times of its timed edges (R154). -/
structure FuncU where
  smps    : List Smp := []
  calFrm  : Bool := false
  inc     : Option Smp := none
  pred    : Option Int := none
  lastReg : Option Rat := none
  tail    : List Rat := []
  suspect : Nat := 0
  driven  : Bool := false
  moved   : Option Nat := none
  t0      : Option Rat := none
  edges   : Nat := 0
  phi     : Int := 0
  next    : Option Int := none
  plan    : Nat := 0
  width   : Bool := false
  timed   : List Rat := []
  deriving DecidableEq, Repr

/-- A row descriptor's life (R190 to R219): open, infinite, ever opened, continued by CARRY, given a RAMP
contribution, opened since the descriptors' status was last updated (R228), the latched configuration, exponent, COUNT, flags,
opening FRN, and the words retained after its close (R203). -/
structure RowU where
  isOpen  : Bool := false
  inf     : Bool := false
  ever    : Bool := false
  carried : Bool := false
  ramp    : Bool := false
  opened  : Bool := false
  base    : Nat := 0
  fmt     : Nat := 0
  ovf     : Bool := false
  orng    : Bool := false
  exp     : Nat := 0
  count   : Nat := 0
  short   : Bool := false
  excl    : Bool := false
  spared  : Bool := false
  auto    : Bool := false
  openFrn : Nat := 0
  words   : List Int := []
  deriving DecidableEq, Repr

/-- An instruction of the row engine as decoded from its word (Table 6.3). -/
inductive Ins where
  | nop
  | opn (row pre operand : Nat)
  | acc (row src : Nat) (ramp : Bool) (first col cntM1 : Nat)
  | dif (row src : Nat) (ramp : Bool) (first col cntM1 : Nat)
  | xdf (row srcA srcB : Nat) (ramp : Bool) (col cntM1 : Nat)
  | syn (skip : Nat) (neg : Bool) (trig : Nat)
  | cls (row : Nat)
  | fin
  /-- a reserved opcode, or a reserved field that is not 0 (Table 6.5, OPCODE), with the row and the sources it names -/
  | bad (row : Option Nat) (srcs : List Nat)
  deriving DecidableEq, Repr

/-- What a row needs for a replay in the frame (R211, R212, R214): the checkpoint, the accumulations since,
and the replays made; and whether the row was closed automatically in the frame (R205). -/
structure RowRun where
  ckpt    : RowU
  accs    : List Ins
  replays : Nat
  auto    : Bool
  deriving DecidableEq, Repr

/-- A partition's slot window in the frame (R75 to R80): slots used, the index of the next instruction, the
instructions SYNC still skips (and whether up to END), whether the program has ended or overrun, and its
rows' replay data by row. -/
structure PRun where
  used    : Nat := 0
  pc      : Nat := 0
  skip    : Nat := 0
  skipAll : Bool := false
  ended   : Bool := false
  overrun : Bool := false
  rows    : List (Nat × RowRun) := []
  deriving DecidableEq, Repr

/-- A record in the harvest staging area (R204, R232). -/
structure Rec where
  row     : Nat
  fmt     : Nat
  exp     : Nat
  count   : Nat
  flags   : Nat
  openFrn : Nat
  frn     : Nat
  words   : List Int
  deriving DecidableEq, Repr

/-- A partition's part of the row engine (R206, R220, R236): its two program banks (words other than END by
index), the bank that is active, its slot window, its staging area and closes dropped from it. -/
structure PartU where
  bankA   : List (Nat × Nat) := []
  bankB   : List (Nat × Nat) := []
  run     : PRun := {}
  staged  : List Rec := []
  dropped : Nat := 0
  deriving DecidableEq, Repr

/-- A qualifier window that has closed (R257, R258): its opening FRN, its sum, its valid samples 0, and
whether it is complete, empty or incomplete. -/
inductive WinKind where
  | complete | empty | incomplete
  deriving DecidableEq, Repr

structure Win where
  opened : Nat
  sum    : Int
  n      : Nat
  kind   : WinKind
  deriving DecidableEq, Repr

/-- A channel at the qualifier and the QL intake (R248 to R261): frames since its last counted edge or
estimate; whether it has failed activity at once (PCS loss, Leaf restart, closing), whether its loss of activity stands
reported, whether ACT_TIMEOUT has taken its baseline; the window in progress
(sum, valid, withheld and over-range samples 0, whether the row is infinite); the closed windows from the
earliest of the latest 8 complete ones on; the FRN of the previous valid sample 0; the results of tests 5,
6 and 7; frames left of the QL timeout (none: not running) and frames since the last message. -/
structure ChanU where
  idle     : Nat := 0
  dead     : Bool := false
  quiet    : Bool := false
  bare     : Bool := false
  sum      : Int := 0
  valid    : Nat := 0
  held     : Nat := 0
  overs    : Nat := 0
  inf      : Bool := false
  wins     : List Win := []
  lastOk   : Option Nat := none
  freqBad  : Bool := false
  stepBad  : Bool := false
  wandBad  : Bool := false
  odStart  : Bool := false
  rank     : Nat := 0
  timedOut : Bool := true
  qlLeft   : Option Nat := none
  qlAge    : Option Nat := none
  plan     : List Nat := []
  accepted : Option (List Nat) := none
  deriving DecidableEq, Repr

/-- A packet channel (R259, R289, R411, R412): the F_e of its latest applied estimate, whether the channel has a
baseline, that estimate's M in LSB, the frames between the latest two, whether an estimate was applied at the
boundary of the frame in progress, and the sample 0 it gave. -/
structure PktU where
  fe    : Option Nat := none
  base  : Bool := false
  m     : Rat := 0
  gap   : Nat := 0
  got   : Bool := false
  fresh : List Int := []
  deriving DecidableEq, Repr

/-- The verdict state of a pair of a domain and a candidate (R248, R263 to R267): its reason code
(Table 8.9), the timer left and its kind (0 none, 1 WTR, 2 HOLD_OFF), the ever-qualified and WTR-due flags,
and the last frame in which a hold-off-class test failed. -/
structure PairU where
  reason   : Nat := 0xF
  timer    : Nat := 0
  kind     : Nat := 0
  ever     : Bool := false
  wtrDue   : Bool := false
  lastFail : Option Nat := none
  deriving DecidableEq, Repr

/-- A stored history segment (R307): its closing FRN and its frequency. -/
structure Seg where
  frn : Nat
  y   : Rat
  deriving DecidableEq, Repr

/-- A domain's DPLL (R284 to R319): mode, pull and offset in effect (R297); the phase sums of the reference
and the feedback since the loop last set B; B; the last phase error and whether one exists; the remaining
slew R, whether R waits for the target's first update, and whether the slew is the acquisition's; yI and y;
the FRN of the last update; the synthetic reference's phase; the first frame of the lock span; what the
bridge in progress waits for; the history; the entry values of Dusk; the step that R299 asks for (ns);
the FRN of the domain's start; whether a step of TIMEd acted at this frame's boundary; e - R at the last update; the R that a
stopped slew left (R279, R311); whether the latest entry to HOLDOVER was with FB_LOST (R315); the length of the segment in
progress in frames; whether R holds a change request carried as a slew (R361). -/
structure DomU where
  mode     : Nat := 0
  pull     : Nat := 100000
  offset   : Int := 0
  phiRef   : Rat := 0
  phiFb    : Rat := 0
  b        : Rat := 0
  setB     : Bool := true
  e        : Rat := 0
  slew     : Rat := 0
  slewWait : Bool := false
  acqSlew  : Bool := false
  acqFirst : Bool := false
  yI       : Rat := 0
  y        : Rat := 0
  lastUpd  : Nat := 0
  gap      : Nat := 1
  phiSyn   : Rat := 0
  lockFrom : Option Nat := none
  brLane   : Bool := false
  brEnd    : Nat := 0
  brApll   : Bool := false
  segSum   : Int := 0
  segOk    : Bool := false
  segs     : List Seg := []
  a0       : Rat := 0
  f0       : Rat := 0
  sdev     : Rat := 0
  nElig    : Nat := 0
  yHold    : Rat := 0
  entry    : Nat := 0
  ageing   : Nat := 0
  acqStep  : Option Rat := none
  start    : Nat := 0
  stepped  : Bool := false
  err      : Rat := 0
  halted   : Rat := 0
  fbEntry  : Bool := false
  segLen   : Nat := 0
  reqSlew  : Bool := false
  deriving DecidableEq, Repr

/-- An APLL (R323 to R333): whether it is powered, REFSEL and RATIO in effect, the epoch counter E at the latest
tick (VCO cycles since the latest zeroing), whether it has locked since its domain started, whether a zeroing is
due at a rollover while locked, whether one has been made since the start, whether the latest SPUR_NEAR still
holds (R334), the steering value loaded in stage 5 in units of 2^-48, and the part of a VCO cycle run at the latest tick. -/
structure ApllU where
  powered : Bool := false
  refsel  : Nat := 0
  ratio   : Nat := 130312489217896
  e       : Nat := 0
  locked  : Bool := false
  zeroReq : Bool := false
  zeroed  : Bool := false
  isNear  : Bool := false
  steer   : Int := 0
  frac    : Rat := 0
  deriving DecidableEq, Repr

/-- An output (R335 to R349): the divider, offset and mode that its waveform follows now; the fine delay reached;
PALIGN_OFS in effect in 2^-16 ns; format and bank supply in force (R345); whether it emits; the VCO periods
from the latest tick to the end of the high phase or pulse after which it holds (none: no stop waits); how it
starts next (0 a start of R338, 1 a restart that reports nothing, 2 a mode change, R601); the VCO periods from
the latest tick before which it may not start; whether the start must fall after the latest tick itself; the VCO
periods left of the pulse in progress and of its spacing; tau in 2^-64 ns and the tau that a newer edge gives
(R348), frames since the latest valid edge, whether ALIGN_LOST stands; the pulses risen in the latest interval,
as LSB from its opening tick; the end of the last high phase or pulse made for another partition, in LSB from the latest
tick (R42). -/
structure OutU where
  div    : Nat := 640
  coarse : Nat := 0
  pulse  : Bool := false
  fine   : Nat := 0
  ofs    : Int := 0
  fmt    : Nat := 0
  psel   : Nat := 0
  nsel   : Nat := 0
  bankV  : Nat := 2
  active : Bool := false
  fall   : Option Rat := none
  quiet  : Nat := 0
  gap    : Rat := 0
  fresh  : Bool := false
  want   : Nat := 0
  busy   : Rat := 0
  space  : Rat := 0
  tau    : Option Rat := none
  tauNew : Option Rat := none
  tauAge : Nat := 0
  lost   : Bool := false
  pulses : List Rat := []
  left   : Option Rat := none
  deriving DecidableEq, Repr

/-- A trigger's latched arming (R368): T and PERIOD in ns, action, target, the number of instances passed, and
the boundary at which a LATE_OK firing is due (R369); and a firing whose INTERVAL action waits for its frame: the instant in LSB
from the interval's opening tick, and the frame (R371). -/
structure TrigU where
  armed  : Bool := false
  t      : Nat := 0
  per    : Nat := 0
  action : Nat := 0
  target : Nat := 0
  next   : Nat := 0
  late   : Option Nat := none
  ivl    : Option (Rat × Nat) := none
  deriving DecidableEq, Repr

/-- A capture's arming (R374, R375): its boundary, its source, and the value taken that waits to be written (time
in 2^-64 ns, FRN, stepped). -/
structure CapU where
  armed : Bool := false
  frm   : Nat := 0
  src   : Nat := 0
  taken : Option (Nat × Nat × Bool) := none
  deriving DecidableEq, Repr

/-- A change request that waits for a boundary (R359, Table 11.1): the source code, the change in ns, the FRN
of the boundary; whether the change is to that value of TIMEd, and whether it is refused with BAD. -/
structure ChangeReq where
  src   : Nat
  delta : Rat
  due   : Nat
  abs   : Bool := false
  bad   : Bool := false
  deriving DecidableEq, Repr

/-- A domain's time counter (R352 to R383), in units of 2^-64 ns: its value at the latest tick, how far it ran over
the interval before it, and the same without slew (R354); the second begun in that interval; FREQ-mode slew left
in LSB; the boundaries of counted steps and of the latest step; the time marks due (R570); triggers, those fired
in the frame's acquisition interval and in the next one, an EPOCH action due; captures; requests that wait;
the ToD seconds to label, each with the frames left to its start bit, the latest message and the frames left of its
transmission; BAUD in effect; the NMEA second not yet labelled, and the latest MISMATCH used (R382); the latest
ticks, newest first, each with TIMEd after its boundary and the span of the interval before it (R403); the VCO cycles of the
latest interval, and what a step has moved TIMEd by at the latest tick. -/
structure TimeU where
  t        : Nat := 0
  span     : Nat := 0
  base     : Nat := 0
  rolled   : Option Nat := none
  slew     : Rat := 0
  steps    : List Nat := []
  stepped  : Option Nat := none
  mark     : Bool := false
  trigs    : List TrigU := []
  fires    : List Bool := []
  firesNext : List Bool := []
  epochAct : Bool := false
  caps     : List CapU := []
  reqs     : List ChangeReq := []
  todDue   : List (Nat × Nat × Bool) := []
  tod      : List Nat := []
  todLeft  : Nat := 0
  baud     : Nat := 0
  nmeaSec  : Option Nat := none
  nmeaLast : Int := 0
  ticks    : List (Nat × Nat) := []
  cyc      : Nat := 0
  jump     : Int := 0
  deriving DecidableEq, Repr

/-- A gate call that waits for a boundary (R449): the boundary, and the call with its operands (Table 14.1). -/
inductive GateCall where
  | ql (chan source node ssm : Nat) (ecode : Option Nat) (first : Bool)
  | pkt (inst chan fe : Nat) (m r : Rat)
  | time (inst dom : Nat) (delta : Rat)
  | utc (inst part : Nat) (ofs : Int) (leap61 leap59 : Bool)
  | page (addr value : Nat)
  deriving DecidableEq, Repr

/-- The gate (R448, R449): calls that wait, oldest first; the second in which GATE_REFUSED was last raised, by call
code; the result code and the words that the latest call returned to Leaf; the second and the count of JOURNAL
calls in it; the shadows of its reads. -/
structure GateU where
  queue  : List (Nat × GateCall) := []
  raised : List (Nat × Nat) := []
  res    : Nat := 0
  data   : List Nat := []
  jrn    : Nat × Nat := (0, 0)
  shadow : Shadow := {}
  deriving DecidableEq, Repr

/-- A timestamp as it reaches Leaf (R403): raw, in LSB from tick 0; converted to the time of its instance, in units of 2^-64 ns;
and VALID. -/
structure Stamp where
  raw   : Int
  time  : Option Nat
  valid : Bool
  deriving DecidableEq, Repr

/-- An ESMC PDU as sent (R393): event or information, the SSM code, the enhanced SSM TLV. -/
structure EsmcSent where
  event : Bool
  ssm   : Nat
  tlv   : Option EsmcTlv
  deriving DecidableEq, Repr

/-- An Ethernet port beside its page (R254, R391, R393, R403, R405, R448): the flood bucket in quarter frames and whether
its drops are an onset already raised; the FRN of the PCS lock that calibration runs from; auto-negotiation in
progress; the arrival timestamps in the FIFO, oldest first; the latest departure's timestamp; the second and the frames
TX_FRAME sent in it; the frame sent last; the enhanced SSM TLV received last; the ESMC PDU sent last. -/
structure EthU where
  bucket : Nat := 256
  flood  : Bool := false
  calFrom : Nat := 0
  an     : Bool := false
  fifo   : List Stamp := []
  left   : Option Stamp := none
  txSec  : Nat × Nat := (0, 0)
  tx     : List Nat := []
  tlv    : Option EsmcTlv := none
  esmc   : Option EsmcSent := none
  deriving DecidableEq, Repr

/-- What a PTP instance sent last (R400, R401, R409): the Announce fields, the Delay_Resp timestamp and correction; a
Pdelay_Resp's twoStepFlag, requestReceiptTimestamp and correction with its Follow_Up's responseOriginTimestamp and correction;
the granted duration. Corrections are in 2^-16 ns. -/
inductive PtpSent where
  | announce (gmClass : Nat) (utcValid : Bool) (utcOfs : Int) (leap61 leap59 : Bool)
  | delayResp (sec ns : Nat) (correction : Int)
  | pdelay (twoStep : Bool) (receipt : Nat) (respCorr : Int) (origin : Nat) (followCorr : Int)
  | grant (slave duration : Nat)
  deriving DecidableEq, Repr

/-- A two-step Sync that waits for its Follow_Up (R409): port, sequenceId, clockIdentity, raw arrival timestamp, correction,
and the FRN of its arrival. -/
structure TwoStep where
  port : Nat
  seq  : Nat
  id   : Nat
  raw  : Int
  corr : Int
  frn  : Nat
  deriving DecidableEq, Repr

/-- The PTP instance of a partition beside its instance blocks (R394 to R401, R411, R451): consecutive refused
estimates; the FRNs of its closes in the last 10 min, newest first, and whether it stays closed; the FRNs of the messages
counted in BAD_CNT and UNKNOWN_CNT in the last second; whether the parent's latest Announce had currentUtcOffsetValid; the
two-step Sync that waits; the latest Sync's raw arrival and master rate; the latest request's raw departure; the unicast
grants by slave, each with its logInterval and the FRN it lapses at; the second and the Sync messages TX_FRAME accepted in it;
the FRNs of the Sync messages sent in the last second; the ports in PRE_MASTER with the FRN at which they become MASTER; the
message sent last. -/
structure PtpU where
  refused : Nat := 0
  closes  : List Nat := []
  held    : Bool := false
  bad     : List Nat := []
  utcOk   : Bool := false
  pend    : Option TwoStep := none
  arrival : Int := 0
  rate    : Rat := 0
  dep     : Option Int := none
  grants  : List (Nat × Int × Nat) := []
  syncSec : Nat × Nat := (0, 0)
  syncs   : List Nat := []
  pre     : List (Nat × Nat) := []
  sent    : Option PtpSent := none
  deriving DecidableEq, Repr

/-- An election peer that is present (R431): its node, the FRN of its latest ELECT, its claim, rank and score. -/
structure Peer where
  node  : Nat
  frn   : Nat
  claim : Nat
  rank  : Nat
  score : Nat
  deriving DecidableEq, Repr

/-- A remote read that waits (R429): requester, tag, count, address. -/
structure RegReq where
  node  : Nat
  tag   : Nat
  count : Nat
  addr  : Nat
  deriving DecidableEq, Repr

/-- The shelf bus (R418 to R446): SEQ of the next message by type; the transmit buffers by type (R435) and the
frame whose start-of-frame is on the bus; the peers present, the group each node's latest ELECT named, and the domain byte of
each node's latest QL_FWD (R427, which names no field for it); the FRN
at which an own ELECT last completed; the role that acts at the next boundary; the QL codes and the ELECT content
sent last; the second and the frames left of a TOD that waits; whether a peer was present when Leaf stopped
(R438); whether nothing is sent after a power fail (R443); remote reads that wait and the shelf port's shadows. -/
structure ShelfU where
  seqs   : List Nat := List.replicate 8 0
  bufs   : List (Nat × List Nat) := []
  onBus  : Option (Nat × List Nat) := none
  peers  : List Peer := []
  groups : List (Nat × Nat) := []
  qlDoms : List (Nat × Nat) := []
  own    : Nat := 0
  next   : Option Nat := none
  qlSent : Option (Nat × Nat) := none
  elSent : Option (List Nat) := none
  tod    : Option (Nat × Nat) := none
  atStop : Bool := false
  mute   : Bool := false
  reqs   : List RegReq := []
  shadow : Shadow := {}
  deriving DecidableEq, Repr

/-- A non-volatile copy of a Cellar block (R477): whether every byte reads erased, the header fields, whether its cells
no longer read as programmed, and the data bytes that are not 0, by offset. -/
structure NvCopy where
  erased : Bool := false
  gen    : Nat := 1
  block  : Nat := 0
  copy   : Nat := 0
  wear   : Nat := 1
  crc    : Nat := 0
  commit : Nat := 0xA5A50F0F
  weak   : Bool := false
  data   : List Host.Cell := []
  deriving DecidableEq, Repr

/-- A block store that waits (R483): block, priority 1 to 6, the requests it serves (0 to 3 the partitions' commands,
4 Leaf's CELLAR_STORE, 5 a commit, 6 an image load, 7 the power-fail sequence, 8 Root otherwise, 9 STORE_REQUEST), and the
copy it reprograms with its own or the winner's content when it is no store of SRAM (R501, R503). -/
structure StoreJob where
  block  : Nat
  prio   : Nat
  owners : List Nat
  fix    : Option Nat := none
  deriving DecidableEq, Repr

/-- The store that runs (R480): its job, target copy, the header's GEN and WEAR, and the content taken. -/
structure StoreRun where
  job  : StoreJob
  copy : Nat
  gen  : Nat
  wear : Nat
  data : List Host.Cell
  deriving DecidableEq, Repr

/-- The Cellar beside its SRAM, which is memory (R475 to R505): the copies that differ from those delivered, by 2 x
block + copy; dirty blocks in rising order; waiting stores, first served first; the store that runs; the FRN of the
first failed supply check of a deferral; blocks left and done of each partition's command; requests that park
Leaf; ring keys, the last ring SEQ, whether the ring is dirty, the FRN of the latest ring store; SESSION; whether
the engine takes no request (R491); whether the hold-up node has reached 18 V since power-up (R489), and Root's
stores that wait for it. -/
structure CellarU where
  nv     : List (Nat × NvCopy) := []
  dirty  : List Nat := []
  queue  : List StoreJob := []
  run    : Option StoreRun := none
  defer  : Option Nat := none
  cmds   : List (Nat × Nat) := List.replicate 4 (0, 0)
  parked : List Nat := []
  ring   : List (Nat × List Nat) := []
  ringSeq   : Option Nat := none
  ringDirty : Bool := false
  ringFrn   : Option Nat := none
  session : Nat := 0
  shut   : Bool := false
  held18 : Bool := false
  wait   : List StoreJob := []
  deriving DecidableEq, Repr

/-- Root and Leaf (R447 to R472): whether the verification in progress goes on to a commit; whether staging changed after
VERIFIED; the commit's step (0 none, 1 staging stores, 2 the copy's stores, 3 it waits for its frame) and its frame; the
image load (0 none, 1 the write grant runs, 2 verifying, 3 storing); FRNs of the counted restarts; the FRN of the latest
WDT_KICK, moved on by the frames that Leaf was PARKED (R466), and the FRN at which it was parked; the FRN by which Root runs again after a processor reset (R547; none: it runs); the FRN at which the debug
grant ends; the Leaf keys that Leaf's working RAM took at its start (R497). -/
structure RootU where
  thenCommit : Bool := false
  touched  : Bool := false
  stage    : Nat := 0
  commitAt : Option Nat := none
  img      : Nat := 0
  window   : List Nat := []
  kick     : Nat := 0
  parkedAt : Option Nat := none
  down     : Option Nat := none
  grantEnd : Option Nat := none
  leafKeys : List (Nat × List Nat) := []
  deriving DecidableEq, Repr

/-- The supply (R514, R520, R522, R527): the VIN readings of the mean, oldest first, in runs; frames since warm-up last
began; whether the module shut down since it last ran; a reset through RESET_N that waits for PF_DONE, and the straps at
its release if that came first; the frames that REGULATING has read 1 and 0, that the outer and the inner heater have been
at saturation outside warm-up and below 5 mA (R529), and that VIN has been outside the operating conditions (R533), without a
break. -/
structure PowerU where
  avg   : List (Nat × Nat) := []
  warm  : Nat := 0
  shut  : Bool := false
  reset : Bool := false
  freed : Option Straps := none
  reg   : Nat := 0
  unreg : Nat := 0
  sat   : Nat × Nat := (0, 0)
  idle  : Nat × Nat := (0, 0)
  range : Nat := 0
  deriving DecidableEq, Repr

/-- The state of the module. -/
structure State where
  /-- commands that wait, first in first out -/
  pending : List Instr := []
  /-- counter that selects free values (the model's own field; notes/assumptions 1) -/
  freeIx  : Nat := 0
  phase   : Phase := .off
  straps  : Straps := ⟨false, false, false, false⟩
  /-- frame number (R53) -/
  frn     : Nat := 0
  /-- timebase cycle within the frame at the latest command (FRAME.POS, R84) -/
  cyc     : Nat := 0
  /-- register cells whose value differs from the Reset column, sorted by cell -/
  regs    : List (Nat × Nat) := []
  /-- snapshots of RS cells (R71): cells whose value differs from the Reset column, sorted by cell -/
  snaps   : List (Nat × Nat) := []
  /-- pages with a snapshot requested, by base address, each with the FRN of the boundary that latches it; the same of
  requests for every page (R69, R73, R598) -/
  snapReq : List (Nat × Nat) := []
  snapAll : List Nat := []
  /-- host words taken and not yet acted, oldest first (R59 to R62) -/
  writeQ  : List QWrite := []
  spi     : PortSt := {}
  i2c     : PortSt := {}
  /-- the two-wire transaction that waits for the Cellar -/
  i2cHold : Option I2cHold := none
  pol     : Policy := ⟨0, [true, false, false, false], [], []⟩
  /-- memory bytes that differ from what an unlisted address reads as, sorted by address -/
  mem     : List Host.Cell := []
  jrn     : Journal := {}
  lanes   : List LaneU := (List.range 18).map fun n => { func := if n < 16 then some n else none }
  funcs   : List FuncU := List.replicate 16 {}
  rows    : List RowU := List.replicate 256 {}
  /-- accumulator words that are not 0, sorted by index -/
  accs    : List (Nat × Int) := []
  parts   : List PartU := List.replicate 4 {}
  chans   : List ChanU := List.replicate 12 {}
  pkts    : List PktU := List.replicate 2 {}
  pairs   : List (List PairU) := List.replicate 4 (List.replicate 12 {})
  doms    : List DomU := List.replicate 4 {}
  aplls   : List ApllU := List.replicate 4 {}
  outs    : List OutU := List.replicate 10 {}
  times   : List TimeU := List.replicate 4 { trigs := List.replicate 8 {}, caps := List.replicate 8 {} }
  gate    : GateU := {}
  eths    : List EthU := List.replicate 2 {}
  ptps    : List PtpU := List.replicate 4 {}
  shelf   : ShelfU := {}
  cellar  : CellarU := {}
  root    : RootU := {}
  power   : PowerU := {}
  /-- VIO is present (R590) -/
  vio     : Bool := true
  /-- frames of withholding left after a timebase switch (R554) -/
  tbHold  : Nat := 0
  /-- the jitter reference is present (R331) -/
  jrOn    : Bool := true
  deriving DecidableEq, Repr

/-- The module right after reset: without supply, every field at its value above, from which POWER_ON_RESET begins
(R539, R540; notes/assumptions 2). -/
def State.reset : State := {}

end Sys2Proof.Machine
end

