-- ==== Sys2Proof/Machine/Ops.lean ====
section
/-! DEFINITION. The operations every meaning is written with: cells, register fields, policy values, memory
bytes and words, events, counters, journal entries, owners and rights, and the boundary at which a write acts. -/

namespace Sys2Proof.Machine

/-! ### Sorted lists of cells -/

/-- The value a sorted list holds at a key. -/
def kvGet {α : Type} : List (Nat × α) → Nat → Option α
  | [], _ => none
  | (a, v) :: r, k => if a = k then some v else kvGet r k

/-- Put a value at a key, keeping the list sorted. -/
def kvSet {α : Type} : List (Nat × α) → Nat → α → List (Nat × α)
  | [], k, v => [(k, v)]
  | (a, w) :: r, k, v =>
    if k < a then (k, v) :: (a, w) :: r else if k = a then (k, v) :: r else (a, w) :: kvSet r k v

/-- Take a key out. -/
def kvDel {α : Type} : List (Nat × α) → Nat → List (Nat × α)
  | [], _ => []
  | (a, w) :: r, k => if a = k then kvDel r k else (a, w) :: kvDel r k

/-! ### Numbers -/

/-- A `w`-bit two's-complement number read as an integer. -/
def toSigned (w v : Nat) : Int := if v < 2 ^ (w - 1) then (v : Int) else (v : Int) - (2 : Int) ^ w

/-- An integer as a `w`-bit two's-complement number. -/
def ofSigned (w : Nat) (x : Int) : Nat := (x % ((2 : Int) ^ w)).toNat

/-- Saturate at a maximum. -/
def satTo (m v : Nat) : Nat := if v < m then v else m

/-- Saturate a signed value into `w` bits and code it. -/
def satSigned (w : Nat) (x : Int) : Nat :=
  let m : Int := (2 : Int) ^ (w - 1) - 1
  ofSigned w (if x > m then m else if x < -m - 1 then -m - 1 else x)

/-- Nearest integer, halves away from zero (R156). -/
def roundAway (x : Rat) : Int := if 0 ≤ x then (x + 1 / 2).floor else -((-x + 1 / 2).floor)

/-- Truncate toward zero (R177, R363). -/
def truncR (x : Rat) : Int := if 0 ≤ x then x.floor else -((-x).floor)

def absR (x : Rat) : Rat := if 0 ≤ x then x else -x

/-- The length of a frame in LSB: 125 us at 2^-9 ns (R45). -/
def frameLsb : Rat := 64000000

/-! ### Register fields -/

/-- The Reset column of a field, where it depends on the page or the index (Tables 4.1, 4.2, 6.8, 11.7, 17.8). -/
def fldReset (f : Fld) (n k : Nat) : Nat :=
  if f.reset ≠ 0 ∨ f.acc ≠ .lk then f.reset
  else if f = ROWS.ALLOC_DESC_FIRST then 32 + 56 * k
  else if f = ROWS.ALLOC_WORD_FIRST then 256 + 192 * k
  else if f = PART.PORTS_OUTS then (if n = 0 then 0x3FF else 0)
  else if f = PART.PORTS_SPI then (if n = 0 then 1 else 0)
  else if f = PART.PORTS_I2C then (if n = 0 then 1 else 0)
  else if f = TIME.TOD_CFG_CONN then (if n = 0 then 1 else 0)
  else if f = ETH.MAC_LO then (Config.factoryMac n).toNat % 2 ^ 32
  else if f = ETH.MAC_HI then (Config.factoryMac n).toNat / 2 ^ 32
  else 0

/-- The value the policy in effect gives a field (R452): its own, or the Reset column's (BUDGET's depends on MODE,
Table 9.6). -/
def polVal (q : Policy) (f : Fld) (n k j : Nat) : Nat :=
  match kvGet q.vals (fldKey f n k j) with
  | some v => v
  | none =>
    if f = DPLL.BUDGET ∧ (kvGet q.vals (fldKey DPLL.MODE n 0 0)).getD 0 = 0 then 10000 else fldReset f n k

/-- Read a register field. An LK field reads the policy (Table 0.4). -/
def getF (s : State) (f : Fld) (n k j : Nat) : Nat :=
  match f.acc with
  | .lk => polVal s.pol f n k j
  | _ => (kvGet s.regs (fldKey f n k j)).getD (fldReset f n k)

/-- Write a register field, as the module itself does; bits above the field are dropped. -/
def setF (s : State) (f : Fld) (n k j v : Nat) : State :=
  let w := v % 2 ^ f.width
  { s with regs := if w = fldReset f n k then kvDel s.regs (fldKey f n k j) else kvSet s.regs (fldKey f n k j) w }

/-- Read a field without indices. -/
def get1 (s : State) (f : Fld) (n : Nat) : Nat := getF s f n 0 0

/-- Write a field without indices. -/
def set1 (s : State) (f : Fld) (n v : Nat) : State := setF s f n 0 0 v

/-- A one-bit field as a truth value. -/
def bit1 (s : State) (f : Fld) (n : Nat) : Bool := get1 s f n == 1

/-- The indices of a field: every `k` and `j`. -/
def fldIdx (f : Fld) : List (Nat × Nat) :=
  (List.range f.n1).flatMap fun k => (List.range f.n2).map fun j => (k, j)

/-- Return one field to its reset value: the policy's start value, or the Reset column (R11, R322). -/
def resetF (s : State) (f : Fld) (n : Nat) : State :=
  (fldIdx f).foldl (fun t kj => setF t f n kj.1 kj.2 (polVal t.pol f n kj.1 kj.2)) s

/-- Return fields of a page to their reset values. -/
def resetFields (s : State) (fs : List Fld) (n : Nat) : State := fs.foldl (fun t f => resetF t f n) s

/-! ### Events and counters -/

/-- The bit of a page's COUNTER_SAT event. -/
def satBit : Page → Option Nat
  | .sys => some 4
  | .part => some 17
  | .frame => some 2
  | .lane => some 6
  | .rows => some 1
  | .harv => some 0
  | .sel => some 0
  | .dpll => some 6
  | .apll => some 7
  | .out => some 6
  | .time => some 8
  | .eth => some 4
  | .ptpts => some 4
  | .shelf => some 8
  | .root => some 8
  | .cellar => some 8
  | .bbox => some 5
  | .pwr => some 6
  | .osc => some 4
  | .dbg => some 3
  | .chan => none

/-- The largest value of a statistics counter (R102, R561). -/
def cntMax : Nat := 0xFFFFFFFF

/-- Set an event bit, leaving the count alone. -/
def setEvtBit (s : State) (p : Page) (n bit : Nat) : State :=
  set1 s (HDR.EVT p) n (get1 s (HDR.EVT p) n ||| 2 ^ bit)

/-- Raise a page's COUNTER_SAT: its own occurrence is counted too, and a count already full stays (R86, R102). -/
def raiseSat (s : State) (p : Page) (n : Nat) : State :=
  match satBit p with
  | none => s
  | some b =>
    let t := setEvtBit s p n b
    set1 t (HDR.EVT_CNT p) n (satTo cntMax (get1 t (HDR.EVT_CNT p) n + 1))

/-- Raise an event of a page: its bit is set whatever EVT_EN holds (R101), and EVT_CNT adds 1; when EVT_CNT
reaches its limit it stays and COUNTER_SAT is raised once (R102). -/
def evt (s : State) (p : Page) (n bit : Nat) : State :=
  let t := setEvtBit s p n bit
  let c := get1 t (HDR.EVT_CNT p) n
  let u := set1 t (HDR.EVT_CNT p) n (satTo cntMax (c + 1))
  if c + 1 = cntMax then raiseSat u p n else u

/-- Raise an event when a condition holds. -/
def evtIf (c : Bool) (s : State) (p : Page) (n bit : Nat) : State := if c then evt s p n bit else s

/-- Add to a saturating counter; at its limit it stays and COUNTER_SAT is raised once (R86, R102). -/
def addCnt (s : State) (f : Fld) (n k m : Nat) : State :=
  let c := getF s f n k 0
  let t := setF s f n k 0 (satTo cntMax (c + m))
  if c < cntMax ∧ cntMax ≤ c + m then raiseSat t f.page n else t

/-- Whether any counter of a page is saturated: what STATUS.SAT reads (Table 3.11). -/
def pageSat (s : State) (p : Page) (n : Nat) : Bool :=
  (pageAll p).any fun f => f.acc == .cnt && (fldIdx f).any fun kj => getF s f n kj.1 kj.2 == cntMax

/-! ### Partitions, owners and rights -/

def isOpen (s : State) (p : Nat) : Bool := s.pol.opens.getD p false

/-- The owner of a channel (Table 1.1). -/
def chanOwner (s : State) (c : Nat) : Nat := polVal s.pol CHAN.POL_ID_OWNER c 0 0

/-- Whether a partition owns a channel or holds it in its measurement grant (R33). -/
def mayMeasure (s : State) (p c : Nat) : Bool :=
  chanOwner s c == p || bitOf (polVal s.pol CHAN.GRANT c 0 0) p

/-- The owner of an output: the partition whose assignment sets its bit, partition 0 by default (R600). -/
def outOwner (s : State) (n : Nat) : Nat :=
  ((List.range 4).find? fun p => p ≠ 0 && bitOf (polVal s.pol PART.PORTS_OUTS p 0 0) n).getD 0

/-- The owning partition of a page (R24, R44, Table 1.4). -/
def ownerOf (s : State) (p : Page) (n : Nat) : Nat :=
  let own := fun q => if isOpen s q then q else 0
  match p with
  | .part | .dpll | .apll | .time => own n
  | .lane => if n < 10 then chanOwner s n else if n < 14 then own (n - 10) else 0
  | .out => outOwner s n
  | .chan => if n < 12 then chanOwner s n else 0
  | _ => 0

/-- Raise an event of the PART page of a partition (R560). -/
def partEvt (s : State) (p bit : Nat) : State := evt s .part p bit

/-! ### The journal (R562 to R566) -/

/-- Codes that suppression never drops (R566). -/
def neverSuppressed : List Nat := [0x001, 0x0B0, 0x0B1, 0x0A3, 0x090, 0x092, 0x006, 0x007]

/-- Put an entry in the journal queue, or count it lost when the queue is full (R565). -/
def enqueue (s : State) (e : JEntry) : State :=
  if s.jrn.queue.length < 64 then { s with jrn := { s.jrn with queue := s.jrn.queue ++ [e] } }
  else
    let s1 := addCnt s BBOX.QLOST_CNT 0 0 1
    { s1 with jrn := { s1.jrn with lost := kvSet s1.jrn.lost e.frn ((kvGet s1.jrn.lost e.frn).getD 0 + 1) } }

/-- Journal an event: it carries the FRN in progress (R563); beyond 256 entries of its code in the window it
is counted and not written (R566). -/
def journal (s : State) (code : Nat) (part : Option Nat) (unit inst data : Nat) : State :=
  let e : JEntry := ⟨s.frn % 2 ^ 48, code, part, unit, inst, data % 2 ^ 32⟩
  if neverSuppressed.contains code then enqueue s e
  else
    let c := (kvGet s.jrn.counts code).getD 0
    if c < 256 then
      enqueue { s with jrn := { s.jrn with counts := kvSet s.jrn.counts code (c + 1) } } e
    else
      let s1 := addCnt s BBOX.SUPPRESS_CNT 0 0 1
      { s1 with jrn := { s1.jrn with supp := kvSet s1.jrn.supp code ((kvGet s1.jrn.supp code).getD 0 + 1) } }

/-- Journal an event of a page's unit. -/
def journalPg (s : State) (code : Nat) (part : Option Nat) (p : Page) (inst data : Nat) : State :=
  journal s code part (pageType p) inst data

/-! ### Memory (Table 3.1) -/

/-- CRC of the reset image of a Host half (R148): CRC-16 over sixty bytes of 0. -/
def hostHalfCrc : Nat := 0xA445

/-- What an address of the RAM regions reads as when nothing else was written: the reset image of the Host
halves (R148), and 0 elsewhere (R242; notes/assumptions 3). -/
def unlisted (a : Nat) : Byte :=
  if 0x400000 ≤ a ∧ a < 0x400600 then
    (if a % 0x80 = 0x7C then 0x45 else if a % 0x80 = 0x7D then 0xA4 else 0)
  else 0

/-- The storage of an address: the black-box region is Cellar blocks 224 to 239 (Tables 3.1, 15.1). -/
def canonAddr (a : Nat) : Nat := if 0x600000 ≤ a ∧ a < 0x610000 then a - 0x600000 + 0x8E0000 else a

/-- Read one byte. -/
def memByte (s : State) (a : Nat) : Byte := (kvGet s.mem (canonAddr a)).getD (unlisted (canonAddr a))

/-- A memory with one byte written: the value an unlisted address reads as removes the entry. -/
def memPut (m : List Host.Cell) (a : Nat) (b : Byte) : List Host.Cell :=
  if b = unlisted a then kvDel m a else kvSet m a b

/-- Write one byte. -/
def setByte (s : State) (a : Nat) (b : Byte) : State := { s with mem := memPut s.mem (canonAddr a) b }

/-- Read `n` bytes little-endian (R7). -/
def memLE (s : State) (a : Nat) : Nat → Nat
  | 0 => 0
  | n + 1 => (memByte s a).toNat + 256 * memLE s (a + 1) n

/-- Write the low `n` bytes of a value little-endian (R7). -/
def setLE (s : State) (a v : Nat) : Nat → State
  | 0 => s
  | n + 1 => setLE (setByte s a (BitVec.ofNat 8 v)) (a + 1) (v / 256) n

/-- A list of bytes from an address on. -/
def memBytes (s : State) (a n : Nat) : List Nat := (List.range n).map fun i => (memByte s (a + i)).toNat

/-- Write a list of bytes from an address on. -/
def setBytes (s : State) (a : Nat) : List Nat → State
  | [] => s
  | b :: r => setBytes (setByte s a (BitVec.ofNat 8 b)) (a + 1) r

/-- Return a range of addresses to what unlisted addresses read as. -/
def clearRange (s : State) (a n : Nat) : State :=
  { s with mem := s.mem.filter fun c => !(decide (a ≤ c.1) && decide (c.1 < a + n)) }

/-- The canonical form of memory: addresses strictly rising, no entry equal to what an unlisted address reads as. -/
def Memory.wf : List Host.Cell → Bool
  | [] => true
  | (a, b) :: r => (b != unlisted a) && (r.all fun c => decide (a < c.1)) && Memory.wf r

/-! ### Time within a frame -/

/-- The timebase cycle of the write cutoff: 123.0 us (R60). -/
def cutoffCyc : Nat := 1230

/-- Whether a write taken at a cycle falls at or after the cutoff. Where no frame runs there is no cutoff. -/
def isLate (s : State) (cyc : Nat) : Bool := s.phase == .running && decide (cutoffCyc ≤ cyc)

/-- The FRN of the boundary at which a write taken now acts (R60); before frame 0 it is boundary 0 (R540). -/
def dueOf (s : State) (cyc : Nat) : Nat :=
  match s.phase with
  | .running | .lost => if cyc < cutoffCyc then s.frn + 1 else s.frn + 2
  | _ => 0

/-! ### Units of the state -/

def laneOf (s : State) (n : Nat) : LaneU := s.lanes.getD n { func := none }
def modLane (s : State) (n : Nat) (f : LaneU → LaneU) : State := { s with lanes := s.lanes.modify n f }
def funcOf (s : State) (n : Nat) : FuncU := s.funcs.getD n {}
def modFunc (s : State) (n : Nat) (f : FuncU → FuncU) : State := { s with funcs := s.funcs.modify n f }
def rowOf (s : State) (n : Nat) : RowU := s.rows.getD n {}
def modRow (s : State) (n : Nat) (f : RowU → RowU) : State := { s with rows := s.rows.modify n f }
def partOf (s : State) (n : Nat) : PartU := s.parts.getD n {}
def modPart (s : State) (n : Nat) (f : PartU → PartU) : State := { s with parts := s.parts.modify n f }
def chanOf (s : State) (n : Nat) : ChanU := s.chans.getD n {}
def modChan (s : State) (n : Nat) (f : ChanU → ChanU) : State := { s with chans := s.chans.modify n f }
def pktOf (s : State) (n : Nat) : PktU := s.pkts.getD n {}
def modPkt (s : State) (n : Nat) (f : PktU → PktU) : State := { s with pkts := s.pkts.modify n f }
def pairOf (s : State) (d c : Nat) : PairU := (s.pairs.getD d []).getD c {}
def modPair (s : State) (d c : Nat) (f : PairU → PairU) : State :=
  { s with pairs := s.pairs.modify d fun l => l.modify c f }
def domOf (s : State) (n : Nat) : DomU := s.doms.getD n {}
def modDom (s : State) (n : Nat) (f : DomU → DomU) : State := { s with doms := s.doms.modify n f }
def apllOf (s : State) (n : Nat) : ApllU := s.aplls.getD n {}
def modApll (s : State) (n : Nat) (f : ApllU → ApllU) : State := { s with aplls := s.aplls.modify n f }
def outOf (s : State) (n : Nat) : OutU := s.outs.getD n {}
def modOut (s : State) (n : Nat) (f : OutU → OutU) : State := { s with outs := s.outs.modify n f }
def timeOf (s : State) (n : Nat) : TimeU := s.times.getD n {}
def modTime (s : State) (n : Nat) (f : TimeU → TimeU) : State := { s with times := s.times.modify n f }
/-- A retune of an APLL has not locked yet (R325, R328, Table 10.1). -/
def retuning (s : State) (d : Nat) : Bool := bit1 s APLL.STATUS_RETUNE d && !bit1 s APLL.STATUS_LOCK d

def ethOf (s : State) (n : Nat) : EthU := s.eths.getD n {}
def modEth (s : State) (n : Nat) (f : EthU → EthU) : State := { s with eths := s.eths.modify n f }
def ptpOf (s : State) (n : Nat) : PtpU := s.ptps.getD n {}
def modPtp (s : State) (n : Nat) (f : PtpU → PtpU) : State := { s with ptps := s.ptps.modify n f }
def portOf (s : State) : Port → PortSt
  | .spi => s.spi
  | .i2c => s.i2c
def modPort (s : State) (p : Port) (f : PortSt → PortSt) : State :=
  match p with
  | .spi => { s with spi := f s.spi }
  | .i2c => { s with i2c := f s.i2c }

/-- Draw a value the spec leaves open and move the counter on (notes/assumptions 1). -/
def drawFree (s : State) : Nat × State := ((Config.freeValue s.freeIx).toNat, { s with freeIx := s.freeIx + 1 })

/-! ### The Channel Table's cached copies (R136, R141, R142) -/

/-- Word `i` of the cached Host half of a channel; the reset image is all 0 but for its CRC. -/
def planWord (s : State) (c i : Nat) : Nat :=
  match (chanOf s c).plan with
  | [] => if i = 15 then hostHalfCrc else 0
  | l => l.getD i 0

/-- Samples per frame of a function under the plan of its interval (R144, R160): 1 for functions that are no channel. -/
def spfOf (u : FuncU) (f : Nat) : Nat := if f < 10 then bitsOf u.plan 0 6 + 1 else 1

/-- A channel condition of Table 4.4: reported to the owner where the mask in the cached copy is set (R142). -/
def chanEvt (s : State) (c bit : Nat) : State :=
  if bitOf (planWord s c 6) bit then
    let p := chanOwner s c
    partEvt (set1 s PART.CHAN_EVT p (get1 s PART.CHAN_EVT p ||| 2 ^ c)) p 8
  else s

end Sys2Proof.Machine
end

