-- ==== Sys2Proof/Machine/Lanes.lean ====
section
/-! DEFINITION. Measurement lanes (R150 to R186): edges, prediction and samples, calibration and self-check,
sparing, interval mode, overdrive and exclusion. Functions are numbered 0 to 15 as their home lanes are
(Table 5.1): CH0 to CH9, FB0 to FB3, EXTTB, SELF. -/

namespace Sys2Proof.Machine

/-- Function code of Table 5.1. -/
def funcCode (f : Nat) : Nat := if f < 10 then f else if f < 14 then 0x10 + (f - 10) else 0x18 + (f - 14)

/-- The function a code names (Table 5.1). -/
def funcOfCode (c : Nat) : Option Nat :=
  if c < 10 then some c
  else if 0x10 ≤ c ∧ c < 0x14 then some (c - 0x10 + 10)
  else if c = 0x18 then some 14
  else if c = 0x19 then some 15
  else none

/-- The lane that serves a function, if any. -/
def laneFor (s : State) (f : Nat) : Option Nat :=
  (List.range 18).find? fun n => (laneOf s n).func == some f

def laneFaulted (s : State) (n : Nat) : Bool := bit1 s LANE.STATUS_FAULT n

/-- The owner of a function (Tables 1.4, 18.3): the channel's owner; of the other functions, the owner of the home lane's
page. -/
def funcPart (s : State) (f : Nat) : Option Nat := some (if f < 10 then chanOwner s f else ownerOf s .lane f)

/-- Nominal frequency of a channel in Hz (R132). -/
def nomFreq (s : State) (c : Nat) : Rat :=
  ((polVal s.pol CHAN.NOM_FREQ_LO c 0 0 + 2 ^ 32 * polVal s.pol CHAN.NOM_FREQ_HI c 0 0 : Nat) : Rat) / 65536

/-- PFD frequency in Hz chosen by REFSEL (R323). -/
def pfdHz (refsel : Nat) : Rat := if refsel = 1 then 108000000 else if refsel = 2 then 27000000 else 54000000

/-- Nominal VCO frequency in Hz (R324). -/
def vcoHz (refsel ratio : Nat) : Rat := pfdHz refsel * (ratio : Rat) / (2 ^ 40 : Nat)

/-- Nominal frequency of a function in Hz (Table 5.1, R326); 0 where it has none (R602). -/
def funcHz (s : State) (f : Nat) : Rat :=
  if f < 10 then nomFreq s f
  else if f < 14 then vcoHz (apllOf s (f - 10)).refsel (apllOf s (f - 10)).ratio / 640
  else 10000000

/-- Nominal period of a function in LSB, or none (R155, R602). -/
def funcPeriod (s : State) (f : Nat) : Option Rat :=
  let h := funcHz s f
  if h = 0 then none else some (512000000000 / h)

/-- Code of a sample (Table 5.2). -/
def smpCode : Smp → Nat
  | .val x => ofSigned 14 x
  | .ovr true => 0x1FFF
  | .ovr false => 0x2001
  | _ => 0x2000

/-- A deviation coded: in range, or over-range (Table 5.2). -/
def smpOf (x : Int) : Smp := if x > 8190 then .ovr true else if x < -8190 then .ovr false else .val x

/-- Time one edge against a chain (R155 to R158): the first edge without a baseline sets it and gives no
result; an over-range edge becomes the new baseline and starts the carries from 0. -/
def chainTime (c : Chain) (per : Option Rat) (t : Rat) : Chain × Smp :=
  match per with
  | none => ({}, .noEdge)
  | some p =>
    match c.prev with
    | none => ({ prev := some t, k := 0, carry := 0 }, .noEdge)
    | some t0 =>
      let x := t - t0 - (c.k : Rat) * p + c.carry
      let r := roundAway x
      match smpOf r with
      | .val v => ({ prev := some t, k := 0, carry := x - (r : Rat) }, .val v)
      | o => ({ prev := some t, k := 0, carry := 0 }, o)

/-- Edges a pad registers: none within 600 ps of the previous registered one (R179). -/
def regEdges : List Edge → Option Rat → List Edge × Option Rat
  | [], l => ([], l)
  | e :: r, l =>
    let ok := match l with
      | none => true
      | some t => decide (t + 1536 / 5 ≤ e.t)
    if ok then
      let q := regEdges r (some e.t)
      (e :: q.1, q.2)
    else regEdges r l

/-- The running state of a lane's timing over one acquisition interval. -/
structure Timing where
  host : Chain
  inc  : Chain
  last : Option Rat
  got  : List (Nat × Smp × Rat) := []
  t0   : Option Rat := none
  smp0 : Smp := .noEdge

/-- The position that a measured edge takes (R138, R161, R162), or none when it is not timed. -/
def takePos (spf : Nat) (first : Bool) (g : Timing) (t : Rat) : Option Nat :=
  if first then (if g.got.length < spf then some g.got.length else none)
  else if g.t0 = none then some 0
  else
    let i := (t * (spf : Rat) / frameLsb).floor.toNat
    if 1 ≤ i ∧ i < spf ∧ !(g.got.any fun x => x.1 == i) then some i else none

/-- One counted edge: counted by both chains, timed when it is a measured edge (R154) of a free position and
falls outside a calibration pair (R165). -/
def timeEdge (spf : Nat) (first : Bool) (per : Option Rat) (cal : Bool) (g : Timing) (t : Rat) : Timing :=
  let g := { g with host := { g.host with k := g.host.k + 1 }, inc := { g.inc with k := g.inc.k + 1 } }
  let far := match g.last with
    | none => true
    | some l => decide (l + 51200 ≤ t)
  let blind := cal && decide (57344000 ≤ t) && decide (t < 57446400)
  if !far || blind then g
  else match takePos spf first g t with
    | none => g
    | some i =>
      let h := chainTime g.host per t
      let g1 := { g with host := h.1, last := some t, got := g.got ++ [(i, h.2, t)] }
      if i = 0 then
        let q := chainTime g.inc per t
        { g1 with inc := q.1, t0 := some t, smp0 := q.2 }
      else g1

/-- Move a chain's times to the next interval's opening tick. -/
def shiftChain (c : Chain) : Chain := { c with prev := c.prev.map fun t => t - frameLsb }

/-- Interval result of a start edge against the stop edges (R176 to R178): the result and its flag, 0 SUBRES,
1 ORDER, 3 NO_PAIR. When two stop edges are equally near, the later is used. -/
def pairStop (stops : List Rat) (t : Rat) : Smp × Option Nat :=
  let near := stops.filter fun u => decide (absR (u - t) ≤ 8190)
  let best := near.foldl (fun (b : Option Rat) u => match b with
    | none => some u
    | some v => if absR (u - t) ≤ absR (v - t) then some u else some v) none
  match best with
  | none => (.noEdge, some 3)
  | some u =>
    let d := u - t
    if absR d < 1 then (.val 0, some 0) else (smpOf (truncR d), if d < 0 then some 1 else none)

/-- Pulse-width result of a start edge (R176, Table 5.3): the next opposite edge; one less than 600 ps after the
start edge is not registered and the stop is lost (2 NO_STOP). A width above +8190 LSB is over-range, as a sample is (R178;
DESIGN CHOICE, notes/assumptions 32). -/
def pairWidth (raw : List Edge) (rise : Bool) (t : Rat) : Smp × Option Nat :=
  match raw.find? fun e => e.rise != rise && decide (t < e.t) with
  | none => (.noEdge, some 3)
  | some e =>
    let d := e.t - t
    if d < 1536 / 5 then (.noEdge, some 2) else (smpOf (truncR d), none)

/-- The polarity a function measures (R132; rising for all but pad channels). -/
def measRise (s : State) (f : Nat) : Bool := !(decide (f < 8) && polVal s.pol CHAN.PAD_EDGE f 0 0 == 1)

/-- Whether a lane times a calibration pair in frame F: its frame modulo 1024, a calibration frame after a
move, or its first frame after a reset (R165, R168, R171). Frame 0 has no interval (R49). -/
def calibrates (s : State) (n : Nat) : Bool :=
  !laneFaulted s n &&
    (s.frn % 1024 == 32 * n && s.frn != 0 || 0 < get1 s LANE.HEALTH_CAL_LEFT n || ((laneOf s n).first && s.frn == 1))

/-- Raise the DEGRADED event of SYS (R558). -/
def degraded (s : State) : State := evt s .sys 0 2

/-- The functions a fault moves, in the order of R172. -/
def moveOrder : List Nat := [10, 11, 12, 13, 15, 0, 1, 2, 3, 4, 5, 6, 7, 8, 9, 14]

/-- A function's baseline is lost: its DIFF predecessor and its phase sum begin anew (R157, R193, R286). -/
def baseLost (s : State) (f : Nat) : State := modFunc s f fun u => { u with pred := none, next := none, phi := 0 }

/-- The flags of a lane that no function or another one uses now: no baseline, and no pad's flags (R157, R182). -/
def bareLane (s : State) (n : Nat) : State :=
  set1 (set1 (set1 s LANE.STATUS_NO_BASE n 1) LANE.STATUS_OVERDRIVE n 0) LANE.STATUS_SUSPECT n 0

/-- A lane put to a function without a baseline, with the flags of its pad (R182) and eight calibration frames to come
(R157, R168). -/
def startLane (s : State) (n f : Nat) : State :=
  let u := funcOf s f
  let s1 := modLane s n fun l => { l with func := some f, host := {}, inc := {}, last := none }
  let s2 := set1 (set1 s1 LANE.HEALTH_CAL_LEFT n 8) LANE.STATUS_SPARE_CAL n 0
  let s3 := set1 (set1 (bareLane s2 n) LANE.STATUS_OVERDRIVE n (b2n u.driven)) LANE.STATUS_SUSPECT n (b2n (decide (0 < u.suspect)))
  modFunc (baseLost s3 f) f fun u => { u with moved := some s.frn }

/-- Journal a move (Table 18.3, LANE_MOVE), with the HEALTH.CODE of the old lane: 0 where a channel's lane is taken. -/
def journalMove (s : State) (f old new : Nat) : State :=
  journalPg s 0x020 (funcPart s f) .lane old
    (funcCode f + 256 * old + 65536 * new + 2 ^ 21 * get1 s LANE.HEALTH_CODE old)

/-- Put an entry among entries in ascending instance, after those of its own. -/
def byInst (e : JEntry) : List JEntry → List JEntry
  | [] => [e]
  | x :: r => if e.inst < x.inst then e :: x :: r else x :: byInst e r

/-- The entries that lanes queued since a state stand in ascending lane (R564). -/
def laneSorted (s t : State) : State :=
  let n := s.jrn.queue.length
  { t with jrn := { t.jrn with queue := t.jrn.queue.take n ++ (t.jrn.queue.drop n).foldl (fun l e => byInst e l) [] } }

/-- A function loses its lane: no lane serves it (R173). -/
def loseLane (s : State) (f old : Nat) : State :=
  let s1 := baseLost (modLane s old fun l => if l.func = some f then { l with func := none } else l) f
  let s2 := journalMove (bareLane s1 old) f old 0x1F
  if f < 10 then degraded (chanEvt s2 f 5)
  else if f = 14 then degraded (set1 s2 LANE.STATUS_FUNC_LOST 14 1)
  else if f = 15 then degraded (set1 s2 LANE.STATUS_FUNC_LOST 15 1)
  else s2

/-- Move the function of a faulted lane to a new lane, or handle it by kind when no spare is free (R168,
R172, R173). -/
def moveFunc (s : State) (f old : Nat) : State :=
  let free := fun n => (laneOf s n).func == none && !laneFaulted s n
  let give := fun (t : State) (n : Nat) =>
    let t1 := bareLane (modLane t old fun l => { l with func := none }) old
    let t2 := journalMove (startLane t1 n f) f old n
    if f < 10 then chanEvt t2 f 5 else t2
  if free 16 then give s 16
  else if free 17 then give s 17
  else if f = 14 ∨ f = 15 then loseLane s f old
  else
    let holders := (List.range 10).filter fun c =>
      match laneFor s c with
      | some n => !laneFaulted s n
      | none => false
    match holders.getLast? with
    | none => loseLane s f old
    | some c =>
      if f < 10 ∧ c < f then loseLane s f old
      else match laneFor s c with
        | none => s
        | some n => give (loseLane s c n) n

/-- A lane fault found in the frame in progress (R168, R171, R174). -/
def laneFault (s : State) (n code : Nat) : State :=
  if laneFaulted s n then s
  else
    let s1 := set1 (set1 (set1 s LANE.STATUS_FAULT n 1) LANE.HEALTH_CODE n code) LANE.HEALTH_FAULT_FRN n s.frn
    let s2 := set1 (set1 s1 LANE.HEALTH_CAL_LEFT n 0) LANE.STATUS_SPARE_CAL n 0
    let s3 := set1 s2 SYS.FAULT_LANES 0 (get1 s2 SYS.FAULT_LANES 0 ||| 2 ^ n)
    evt (evt s3 .lane n 0) .sys 0 0

/-- The summary of a lane that gives `k` positions and no valid sample in the frame (R164). -/
def noSamples (s : State) (n k : Nat) : State :=
  let s1 := set1 (set1 (set1 s LANE.SAMPLE0 n 0x2000) LANE.T0 n 0) LANE.IVL_FLAGS n 0
  set1 (set1 (set1 s1 LANE.CNT_VALID n 0) LANE.CNT_NOEDGE n k) LANE.CNT_OVR n 0

/-- The summary of a lane that serves no function. -/
def idleLane (s : State) (n : Nat) : State :=
  if (laneOf s n).func.isNone then noSamples (set1 s LANE.EDGE_CNT n 0) n 0 else s

/-- The samples of the frame from a lane found faulty are discarded (R168). -/
def withhold (s : State) (f n : Nat) : State :=
  let k := (funcOf s f).smps.length
  noSamples (modFunc s f fun u => { u with smps := List.replicate k (.withheld true), inc := none }) n k

/-- A function served by a lane found faulty moves, its frame's samples withheld (R168, R169). -/
def moveIfBad (bad : List (Nat × Nat)) (s : State) (f : Nat) : State :=
  match laneFor s f with
  | none => s
  | some n => if bad.any fun b => b.1 == n then moveFunc (withhold s f n) f n else s

/-- Deal with the lanes faulted in the frame: withhold their samples and move their functions (R168, R172). -/
def moveFaulted (s : State) (bad : List (Nat × Nat)) : State :=
  let s1 := bad.foldl (fun t b => laneFault t b.1 b.2) s
  laneSorted s (moveOrder.foldl (moveIfBad bad) s1)

/-- One calibration pair of a lane (R165, R166, R553): the deviation is reported, a result within 16 LSB updates
the correction, and the code of a fault is returned otherwise. -/
def calibrate (s : State) (n : Nat) (result : Option Int) (codeBad : Bool) : State × Option Nat :=
  let l := laneOf s n
  match result with
  | none => (s, some (if codeBad then 3 else 2))
  | some r =>
    let stored := if l.known then l.stored else r
    let dev := r - stored
    let s1 := modLane (set1 s LANE.CAL_DEV n (satSigned 16 dev)) n fun x =>
      { x with stored := stored, known := true, first := false }
    if codeBad then (s1, some 3)
    else if dev > 16 ∨ dev < -16 then (s1, some 1)
    else (modLane s1 n fun x => { x with corr := dev }, none)

/-- The lane that serves SELF counts the frames in which its result was out (R167). -/
def selfCheck (s : State) (i : FrameIn) (n : Nat) : State :=
  if (laneOf s n).func = some 15 then
    let out := if i.selfDev > 16 ∨ i.selfDev < -16 then (laneOf s n).selfOut + 1 else 0
    modLane (set1 s LANE.CAL_DEV n (satSigned 16 i.selfDev)) n fun l => { l with selfOut := out }
  else s

/-- A lane's calibration of the frame: the pair timed, or the stored value where none was. -/
def calFrame (s : State) (i : FrameIn) (n : Nat) : State × Option Nat :=
  if calibrates s n then
    match i.cal.find? fun c => c.lane == n with
    | some c => calibrate s n c.result c.codeBad
    | none => calibrate s n (some (laneOf s n).stored) false
  else (s, none)

/-- The lane fault found in a lane in the frame: of its calibration, its converter, or SELF (R165 to R167). Of several
causes in one frame the calibration's gives the code, then the converter's (DESIGN CHOICE, notes/assumptions 31). -/
def faultFound (s : State) (i : FrameIn) (n : Nat) (cal : Option Nat) : Option Nat :=
  match cal with
  | some k => some k
  | none =>
    if bitOf i.codeBad n then some 3
    else if (laneOf s n).func = some 15 ∧ 3 ≤ (laneOf s n).selfOut then some 4
    else none

/-- The check of one lane: the state and the faults found so far. -/
def checkLane (i : FrameIn) (a : State × List (Nat × Nat)) (n : Nat) : State × List (Nat × Nat) :=
  if laneFaulted a.1 n || ((laneOf a.1 n).func == none && n < 16) then a
  else
    let r := calFrame a.1 i n
    let t := selfCheck r.1 i n
    (t, match faultFound t i n r.2 with
      | some k => a.2 ++ [(n, k)]
      | none => a.2)

/-- The faults that calibration, self-check and the converter find in the frame (R165 to R167). A lane whose
calibration pair the frame's inputs do not list timed it at its stored value. -/
def findFaults (s : State) (i : FrameIn) : State × List (Nat × Nat) := (List.range 18).foldl (checkLane i) (s, [])

/-- The neighbours of a pad in its bank (R180, R181). -/
def padNeighbours (f : Nat) : List Nat :=
  (if f % 4 = 0 then [] else [f - 1]) ++ (if f % 4 = 3 then [] else [f + 1])

/-- The lane of an overdriven pad loses both its chains and reports OVERDRIVE (R180). -/
def laneDriven (s : State) (f : Nat) : State :=
  match laneFor s f with
  | none => s
  | some n =>
    let t := modLane s n fun l => { l with host := {}, inc := {} }
    evt (set1 (set1 t LANE.STATUS_OVERDRIVE n 1) LANE.STATUS_NO_BASE n 1) .lane n 1

/-- The lane of a pad that becomes SUSPECT reports it, at the onset as an event (R181). -/
def laneSuspect (s : State) (g : Nat) (was : Bool) : State :=
  match laneFor s g with
  | none => s
  | some n => evtIf (!was) (set1 s LANE.STATUS_SUSPECT n 1) .lane n 2

/-- A neighbour of a pad that is overdriven becomes SUSPECT for three frames (R181). -/
def suspectOnset (s : State) (g : Nat) : State :=
  let was := decide (0 < (funcOf s g).suspect)
  let s1 := laneSuspect (modFunc s g fun u => { u with suspect := 3 }) g was
  if was then s1 else chanEvt s1 g 4

/-- Overdrive begins on a pad (R180, R181): the lane is flagged and loses its baseline, the neighbours become
SUSPECT, and the onset is journalled (Table 18.3, LANE_OVERDRIVE). -/
def overdriveOnset (s : State) (f : Nat) : State :=
  let nb := padNeighbours f
  let s1 := modFunc (baseLost s f) f fun u => { u with driven := true }
  let s2 := modChan s1 f fun c => { c with odStart := true }
  let s4 := nb.foldl suspectOnset (laneDriven s2 f)
  let dat := f + 256 * nb.getD 0 0xF + 4096 * nb.getD 1 0xF
  chanEvt (journalPg s4 0x021 (funcPart s f) .lane ((laneFor s f).getD f) dat) f 4

/-- The lane of a pad shows whether it is overdriven in the frame, and counts it (R180). -/
def overdriveLane (s : State) (f : Nat) (on : Bool) : State :=
  match laneFor s f with
  | none => s
  | some n =>
    let t := set1 s LANE.STATUS_OVERDRIVE n (b2n on)
    if on then addCnt (modLane t n fun l => { l with host := {}, inc := {} }) LANE.OVERDRIVE_CNT n 0 1 else t

/-- A pad in a frame (R180, R181). -/
def overdrivePad (s : State) (f : Nat) (on : Bool) : State :=
  overdriveLane (if on && !(funcOf s f).driven then overdriveOnset s f
    else if on then (padNeighbours f).foldl (fun v g => modFunc v g fun u => { u with suspect := 3 }) s
    else modFunc s f fun u => { u with driven := false }) f on

/-- The overdrive detectors over the interval (R180 to R182): onsets, ends, and neighbours kept SUSPECT. -/
def overdriveFrame (s : State) (pads : Nat) : State := (List.range 8).foldl (fun t f => overdrivePad t f (bitOf pads f)) s

/-- The lane of a pad shows whether it is SUSPECT (R181). -/
def suspectFlag (s : State) (f : Nat) : State :=
  match laneFor s f with
  | none => s
  | some n => set1 s LANE.STATUS_SUSPECT n (b2n (decide (0 < (funcOf s f).suspect)))

/-- SUSPECT flags of the lanes that measure pads (R181, R182). -/
def suspectFlags (s : State) : State := (List.range 8).foldl suspectFlag s

/-- A SUSPECT flag's frame ends; at 0 the flag clears (R181). -/
def suspectTick (s : State) (f : Nat) : State :=
  let u := (funcOf s f).suspect
  let s1 := modFunc s f fun x => { x with suspect := u - 1 }
  if u = 1 then match laneFor s1 f with
    | none => s1
    | some n => set1 s1 LANE.STATUS_SUSPECT n 0
  else s1

/-- What an interval-mode result does to a lane's flags: a bit per flag and a count per flag (R178). -/
def ivlCount (flags : List Nat) (k : Nat) : Nat := (flags.filter fun x => x == k).length

/-- The DIFF predecessor that a frame's samples leave behind (R193). -/
def predAfter (smps : List Smp) (p : Option Int) : Option Int :=
  smps.foldl (fun q x => match x with
    | .val v => some v
    | .ovr _ => none
    | _ => q) p

/-- The feedback tap of an APLL gives no edges: its domain does not run, or a retune has not locked
(R153, Table 10.1). -/
def tapStands (s : State) (f : Nat) : Bool :=
  decide (10 ≤ f) && decide (f < 14) && (!isOpen s (f - 10) || retuning s (f - 10))

/-- Whether a function measures a pad, with its dead time (R179); EXTTB while the OCXO is in use (R151). -/
def padFunc (s : State) (f : Nat) : Bool := decide (f < 8) || (f == 14 && !bit1 s FRAME.TB_SRC 0)

/-- The edges at the input of a function (R151) in the interval and up to the pairing window past it (R49, R176). -/
def inputEdges (s : State) (i : FrameIn) (f : Nat) : List Edge :=
  let l := if tapStands s f then [] else if f = 14 ∧ bit1 s FRAME.TB_SRC 0 then i.ocxo else i.edges.getD f []
  l.filter fun e => decide (0 ≤ e.t) && decide (e.t ≤ frameLsb + 8190)

/-- The edges that a function's input registers (R179). -/
def registered (s : State) (i : FrameIn) (f : Nat) : List Edge :=
  if padFunc s f then (regEdges (inputEdges s i f) (funcOf s f).lastReg).1 else inputEdges s i f

/-- What stage 1 samples from: the edges at each function's input and those registered, the functions as the interval found
them, the lanes that time a calibration pair, and those found faulty. -/
structure Interval where
  raw  : List (List Edge)
  reg  : List (List Edge)
  old  : List FuncU
  cals : List Nat
  bad  : List (Nat × Nat)

/-- The interval that the frame samples. -/
def intervalOf (s : State) (i : FrameIn) (bad : List (Nat × Nat)) : Interval :=
  { raw := (List.range 16).map (inputEdges s i), reg := (List.range 16).map (registered s i), old := s.funcs,
    cals := (List.range 18).filter (calibrates s), bad := bad }

/-- The times of a function's registered edges of the polarity it measures. -/
def measured (s : State) (v : Interval) (f : Nat) : List Rat :=
  ((v.reg.getD f []).filter fun e => e.rise == measRise s f).map fun e => e.t

/-- The edges that may stop an interval on a channel: the last of the interval before, and this one's (R176). -/
def stopEdges (s : State) (v : Interval) (f : Nat) : List Rat := (v.old.getD f {}).tail ++ measured s v f

/-- One timed edge as the position's sample: the phase sample, or the interval result and its flag (R155, R176 to R178). -/
def ivlResult (s : State) (v : Interval) (u : FuncU) (f : Nat) (per : Option Rat) (x : Nat × Smp × Rat) : Nat × Smp × Option Nat :=
  let stop := bitsOf u.plan 9 4
  if !(f < 10 && bitOf u.plan 8) then (x.1, x.2.1, none)
  else if per.isSome && x.2.1 == .noEdge then (x.1, Smp.noEdge, none)
  else
    let r := if u.width then pairWidth (v.raw.getD f []) (measRise s f) x.2.2
      else if (laneFor s stop).isNone then (.noEdge, some 3) else pairStop (stopEdges s v stop) x.2.2
    (x.1, r.1, r.2)

/-- A function that no lane serves delivers no samples (R173). -/
def noLane (s : State) (f : Nat) : State :=
  modFunc s f fun u =>
    { u with smps := List.replicate (spfOf u f) (.withheld false), calFrm := false, inc := none, pred := none, next := none, t0 := none,
             edges := 0, timed := [], lastReg := u.lastReg.map fun t => t - frameLsb, tail := [] }

/-- The counts and events of a lane's frame (R164, R178, R185): its delivered positions and the flags of its interval results. -/
def laneSummary (s : State) (n : Nat) (out : List Smp) (flags : List Nat) : State :=
  let overs := (out.filter fun x => match x with | .ovr _ => true | _ => false).length
  let valid := (out.filter fun x => match x with | .val _ => true | _ => false).length
  let bits := (List.range 4).foldl (fun b k => b + (if 0 < ivlCount flags k then 2 ^ k else 0)) 0
  let s1 := set1 s LANE.SAMPLE0 n (smpCode (out.getD 0 .noEdge))
  let s2 := set1 (set1 (set1 s1 LANE.CNT_VALID n valid) LANE.CNT_NOEDGE n (out.length - valid - overs)) LANE.CNT_OVR n overs
  let s3 := set1 s2 LANE.IVL_FLAGS n bits
  let s4 := if 0 < overs then evt (addCnt s3 LANE.OVERRANGE_CNT n 0 overs) .lane n 3 else s3
  let s5 := (List.range 4).foldl (fun t k =>
    let m := ivlCount flags k
    if 0 < m then addCnt t LANE.IVL_CNT n k m else t) s4
  evtIf (decide (0 < bits)) s5 .lane n 5

/-- Stage 1 for one function: its samples, tags and frame increment in the frame sample buffer, and its lane's
summary (R160 to R164, R168, R180, R181, R192). A frame that is flagged or withheld still moves the phase sum of R286
(DESIGN CHOICE, notes/assumptions 68); T0 is floored (DESIGN CHOICE, notes/assumptions 7). -/
def sampleFunc (v : Interval) (s : State) (f : Nat) : State :=
  match laneFor s f with
  | none => noLane s f
  | some n =>
    let u := funcOf s f
    let l := laneOf s n
    let spf := spfOf u f
    let edges := (measured s v f).filter fun t => decide (t < frameLsb)
    let first := f < 10 && bitOf u.plan 6
    let per := funcPeriod s f
    let g := edges.foldl (timeEdge spf first per (v.cals.contains n)) { host := l.host, inc := l.inc, last := l.last }
    let res := g.got.map (ivlResult s v u f per)
    let lost := v.bad.any fun b => b.1 == n
    let flagged := u.driven || decide (0 < u.suspect) || decide (0 < s.tbHold) || lost
    let flags := if flagged then [] else res.filterMap fun x => x.2.2
    let smps := (List.range spf).map fun i => ((res.find? fun x => x.1 == i).map fun x => x.2.1).getD .noEdge
    let cal := 0 < get1 s LANE.HEALTH_CAL_LEFT n
    let out := if lost then List.replicate spf (Smp.withheld true)
      else if u.driven then List.replicate spf (Smp.withheld false)
      else if 0 < u.suspect then List.replicate spf Smp.suspect
      else if 0 < s.tbHold then List.replicate spf (Smp.withheld false)
      else smps
    let base := g.host.prev.isSome && !u.driven
    let pred := if base then u.next else none
    let s1 := modLane s n fun l =>
      { l with host := if u.driven then {} else shiftChain g.host, inc := if u.driven then {} else shiftChain g.inc,
               last := g.last.map fun t => t - frameLsb }
    let s2 := modFunc s1 f fun u =>
      { u with smps := out, calFrm := cal, inc := if flagged || cal then none else some g.smp0, pred := pred, next := predAfter out pred,
               lastReg := ((((v.reg.getD f []).filter fun e => decide (e.t < frameLsb)).getLast?.map fun e => e.t).or u.lastReg).map
                 fun t => t - frameLsb,
               t0 := g.t0, edges := edges.length, timed := g.got.map fun x => x.2.2,
               phi := (match g.smp0 with | .val x => u.phi + x | _ => u.phi),
               tail := (edges.filter fun t => decide (frameLsb - 8190 ≤ t)).map fun t => t - frameLsb }
    let s3 := set1 (set1 (set1 s2 LANE.STATUS_NO_BASE n (b2n (!base))) LANE.STATUS_SPARE_CAL n (b2n cal))
      LANE.EDGE_CNT n edges.length
    laneSummary (set1 s3 LANE.T0 n ((g.t0.map fun t => t.floor.toNat).getD 0)) n out flags

/-- The plan in effect and the mode of the lane now serving a function govern the interval that the latest tick began
(R141, R144). -/
def latchPlan (s : State) (f : Nat) : State :=
  let w := decide (f < 8) && ((laneFor s f).map fun n => bit1 s LANE.CTRL n).getD false
  modFunc s f fun u => { u with plan := if f < 10 then planWord s f 4 else 0, width := w }

/-- Stage 1 of a frame (Table 2.1): overdrive, the faults found in the frame, every function's samples, and the moves. -/
def stage1 (s : State) (i : FrameIn) : State :=
  let s1 := suspectFlags (overdriveFrame s i.overdrive)
  let r := findFaults s1 i
  let s2 := (List.range 16).foldl (sampleFunc (intervalOf s1 i r.2)) ((List.range 18).foldl idleLane r.1)
  (List.range 16).foldl latchPlan (laneSorted s (moveFaulted s2 r.2))

/-- The last calibration frame of a new lane ends (R168, R185). -/
def spareCalEnd (s : State) (n : Nat) : State :=
  evt (set1 (set1 s LANE.HEALTH_CAL_LEFT n 0) LANE.STATUS_SPARE_CAL n 0) .lane n 4

/-- The end of a frame at the lanes: calibration frames and SUSPECT spans count down. -/
def lanesEnd (s : State) : State :=
  let s1 := (List.range 18).foldl (fun t n =>
    if get1 t LANE.STATUS_SPARE_CAL n = 1 then
      let k := get1 t LANE.HEALTH_CAL_LEFT n
      if k ≤ 1 then spareCalEnd t n else set1 t LANE.HEALTH_CAL_LEFT n (k - 1)
    else t) s
  let s2 := (List.range 8).foldl suspectTick s1
  { s2 with tbHold := s2.tbHold - 1 }

/-- Every function on its home lane, every fault cleared (R150, R171). -/
def lanesReset (s : State) (known : Bool) : State :=
  { s with
    lanes := (List.range 18).map fun n =>
      { func := if n < 16 then some n else none, stored := (laneOf s n).stored, known := known }
    funcs := List.replicate 16 {} }

/-! ### Meanings -/

/-- SPARE_CAL_DONE (R168, R185): the last of a new lane's eight calibration frames ends. -/
def execSpareCalDone (lane : Nat) (s : State) : Host.Outcome State Fault Refusal :=
  if lane < 18 then
    if bit1 s LANE.STATUS_SPARE_CAL lane && decide (get1 s LANE.HEALTH_CAL_LEFT lane ≤ 1) then
      .next (spareCalEnd s lane)
    else .next s
  else .refused .illFormed

/-- PAD_OVERDRIVE (R180, R181): a pad's overdrive detector trips; while it stays tripped nothing begins anew. -/
def execPadOverdrive (pad : Nat) (s : State) : Host.Outcome State Fault Refusal :=
  if pad < 8 then
    if (funcOf s pad).driven then .next s else .next (overdriveOnset s pad)
  else .refused .illFormed

/-- SUSPECT_END (R181): the second frame after the last frame with overdrive ends, and the neighbour's flag
clears. -/
def execSuspectEnd (pad : Nat) (s : State) : Host.Outcome State Fault Refusal :=
  if pad < 8 then
    if (funcOf s pad).suspect = 1 then .next (suspectTick s pad) else .next s
  else .refused .illFormed

end Sys2Proof.Machine
end

