-- ==== Sys2Proof/Machine/Rows.lean ====
section
/-! DEFINITION. The row engine (R187 to R229): instruction words, slots, faults, preloads, accumulation with
partials and promotion, overflow, replay, SYNC, close, and the program banks. -/

namespace Sys2Proof.Machine

/-- The instruction a word encodes (R195, Table 6.3). -/
def decodeIns (w : Nat) : Ins :=
  let row := bitsOf w 20 8
  match bitsOf w 28 4 with
  | 0x0 => if bitsOf w 0 28 = 0 then .nop else .bad none []
  | 0x1 =>
    let pre := bitsOf w 18 2
    let op := bitsOf w 0 16
    let ok := bitsOf w 16 2 = 0 ∧ (if pre = 1 then True else if pre = 2 then op < 256 else op = 0)
    if ok then .opn row pre op else .bad (some row) []
  | 0x2 => .acc row (bitsOf w 15 5) (bitOf w 14) (bitsOf w 8 6) (bitsOf w 6 2) (bitsOf w 0 6)
  | 0x3 => .dif row (bitsOf w 15 5) (bitOf w 14) (bitsOf w 8 6) (bitsOf w 6 2) (bitsOf w 0 6)
  | 0x4 =>
    if bitOf w 8 then .bad (some row) [bitsOf w 15 5, bitsOf w 10 5]
    else .xdf row (bitsOf w 15 5) (bitsOf w 10 5) (bitOf w 9) (bitsOf w 6 2) (bitsOf w 0 6)
  | 0x5 => if bitsOf w 4 16 = 0 then .syn row (bitOf w 3) (bitsOf w 0 3) else .bad none []
  | 0x6 => if bitsOf w 0 20 = 0 then .cls row else .bad (some row) []
  | 0xF => if bitsOf w 0 28 = 0 then .fin else .bad none []
  | _ => .bad none []

/-- Words of a format (Table 6.1). -/
def fmtWords (fmt : Nat) : Nat := fmt + 1

/-- Words an accumulation writes: G4 counts as 1 (Table 6.4). -/
def accWords (fmt : Nat) : Nat := if fmt = 3 then 1 else fmtWords fmt

/-- The words of an infinite row (R216). -/
def infWord : Int := -(2 : Int) ^ 47

/-- The largest COUNT of a row (R205). -/
def countMax : Nat := 2 ^ 24 - 1

/-- The row a RESIDUAL operand names. -/
def descFirst (s : State) (p : Nat) : Nat := getF s ROWS.ALLOC_DESC_FIRST 0 p 0
def descCount (s : State) (p : Nat) : Nat := getF s ROWS.ALLOC_DESC_COUNT 0 p 0

/-- Whether a row lies in the partition's descriptor range (R188). -/
def ownsRow (s : State) (p r : Nat) : Bool := decide (descFirst s p ≤ r) && decide (r < descFirst s p + descCount s p)

/-- Whether a partition may name a source (R198). -/
def ownsSrc (s : State) (p src : Nat) : Bool :=
  match funcOfCode src with
  | none => false
  | some f => if f < 10 then mayMeasure s p f else f == 10 + p

/-- Whether RAMP and COL agree with the format (R196). -/
def fmtOk (fmt : Nat) (ramp : Bool) (col : Nat) : Bool :=
  if fmt = 3 then !ramp else col == 0 && (fmt == 0 || ramp)

/-- The replay data of a row in the frame's run. -/
def runRow (s : State) (p r : Nat) : Option RowRun := kvGet (partOf s p).run.rows r

/-- Whether a row was closed automatically in this frame (R205). -/
def autoClosed (s : State) (p r : Nat) : Bool := ((runRow s p r).map fun x => x.auto).getD false

/-- Whether the words from a base overlap those of an open row (Table 6.5). -/
def wordsOverlap (s : State) (base w : Nat) : Bool :=
  s.rows.any fun r => r.isOpen && decide (base < r.base + fmtWords r.fmt) && decide (r.base < base + w)

/-- The fault that an accumulation of a row meets (Table 6.5, in code order). -/
def accFault (s : State) (p row : Nat) (srcs : List Nat) (ramp : Bool) (col : Nat) : Option Nat :=
  if !ownsRow s p row then some 2
  else if !(rowOf s row).isOpen then some 4
  else if !fmtOk (rowOf s row).fmt ramp col then some 7
  else if srcs.any fun x => !ownsSrc s p x then some 9
  else none

/-- The fault an instruction meets, or none (R200, Table 6.5, in code order). -/
def insFault (s : State) (p : Nat) : Ins → Option Nat
  | .nop | .fin | .syn _ _ _ => none
  | .bad _ _ => some 1
  | .opn row pre operand =>
    let base := getF s ROWS.DESC_BASE 0 row 0
    let fmt := getF s ROWS.DESC_FMT 0 row 0
    let wf := getF s ROWS.ALLOC_WORD_FIRST 0 p 0
    let wc := getF s ROWS.ALLOC_WORD_COUNT 0 p 0
    if !ownsRow s p row || (pre == 2 && !ownsRow s p operand) then some 2
    else if (rowOf s row).isOpen then some 3
    else if base < wf ∨ wf + wc < base + fmtWords fmt then some 5
    else if wordsOverlap s base (fmtWords fmt) then some 6
    else if pre = 2 ∧ ((rowOf s operand).isOpen ∨ (rowOf s operand).ever = false ∨ (rowOf s operand).fmt ≠ fmt) then some 8
    else if pre = 3 ∧ (rowOf s row).count = countMax then some 0xA
    else none
  | .acc row src ramp first col cntM1 =>
    if first + cntM1 > 63 then some 1 else accFault s p row [src] ramp col
  | .dif row src ramp first col cntM1 =>
    if first + cntM1 > 63 then some 1 else accFault s p row [src] ramp col
  | .xdf row a b ramp col _ => accFault s p row [a, b] ramp col
  | .cls row => if !ownsRow s p row then some 2 else if !(rowOf s row).isOpen then some 4 else none

/-- The row an instruction names. -/
def insRow : Ins → Option Nat
  | .opn r _ _ | .acc r _ _ _ _ _ | .dif r _ _ _ _ _ | .xdf r _ _ _ _ _ | .cls r => some r
  | .bad r _ => r
  | _ => none

/-- The sources an instruction names. -/
def insSrcs : Ins → List Nat
  | .acc _ x _ _ _ _ | .dif _ x _ _ _ _ => [x]
  | .xdf _ a b _ _ _ => [a, b]
  | .bad _ l => l
  | _ => []

/-- Slots of an instruction that does not fault (R199, Table 6.4). -/
def insCost (s : State) : Ins → Nat
  | .opn _ pre _ => if pre = 2 then 2 else 1
  | .cls _ => 2
  | .acc r _ _ _ _ c | .dif r _ _ _ _ c => 1 + accWords (rowOf s r).fmt * ((c + 8) / 8)
  | .xdf r _ _ _ _ c => 1 + (accWords (rowOf s r).fmt + 1) * ((c + 8) / 8)
  | _ => 1

/-! ### Contributions (R192 to R194) -/

/-- What one sample position gives a row: its value, whether COUNT and k advance, an infinity, the flags. -/
structure Contrib where
  val  : Option Int := none
  adv  : Bool := false
  inf  : Bool := false
  shrt : Bool := false
  excl : Bool := false
  spar : Bool := false

/-- A sample as ACC takes it (Table 6.2). `cal`: the frame is a calibration frame of a new lane. -/
def accContrib (orng cal : Bool) : Smp → Contrib
  | .noEdge => {}
  | .val x => { val := some x, adv := true, spar := cal }
  | .ovr pos =>
    if orng then { adv := true, inf := true, spar := cal }
    else { val := some (if pos then 8191 else -8191), adv := true, spar := cal }
  | .withheld sp => { shrt := true, spar := sp }
  | .suspect => { excl := true, spar := cal }

/-- A sample as DIFF takes it, with its predecessor (R193). -/
def difContrib (orng cal : Bool) (pred : Option Int) : Smp → Contrib
  | .val x => match pred with
    | none => {}
    | some y => { val := some (x - y), adv := true, spar := cal }
  | .ovr _ => if orng then { adv := true, inf := true, spar := cal } else {}
  | o => accContrib orng cal o

/-- A pair of samples as XDIF takes it (R194): the difference when both contribute, and the union of flags. -/
def xdfContrib (a b : Contrib) : Contrib :=
  let fl : Contrib := { shrt := a.shrt || b.shrt, excl := a.excl || b.excl, spar := a.spar || b.spar,
                        inf := a.inf || b.inf, adv := a.inf || b.inf }
  match a.val, b.val with
  | some x, some y => { fl with val := if a.inf || b.inf then none else some (x - y), adv := true }
  | _, _ => fl

/-- The contributions of a source's positions for DIFF, each with the valid sample before it. -/
def difList (orng cal : Bool) : List Smp → Option Int → List Contrib
  | [], _ => []
  | x :: r, p => difContrib orng cal p x :: difList orng cal r (predAfter [x] p)

/-- The contributions an accumulation takes, in order of position. -/
def contribs (s : State) (orng : Bool) : Ins → List Contrib
  | .acc _ src _ first _ cntM1 =>
    match funcOfCode src with
    | none => []
    | some f => (((funcOf s f).smps.drop first).take (cntM1 + 1)).map (accContrib orng (funcOf s f).calFrm)
  | .dif _ src _ first _ cntM1 =>
    match funcOfCode src with
    | none => []
    | some f => ((difList orng (funcOf s f).calFrm (funcOf s f).smps (funcOf s f).pred).drop first).take (cntM1 + 1)
  | .xdf _ a b _ _ cntM1 =>
    match funcOfCode a, funcOfCode b with
    | some f, some g =>
      (List.range (cntM1 + 1)).map fun i =>
        xdfContrib (accContrib orng (funcOf s f).calFrm ((funcOf s f).smps.getD i .noEdge))
          (accContrib orng (funcOf s g).calFrm ((funcOf s g).smps.getD i .noEdge))
    | _, _ => []
  | _ => []

/-! ### Partials and promotion (R208 to R214) -/

/-- The running accumulation of one instruction: the row, its partials and the block's state, the rescales made,
and whether a partial overflowed. -/
structure AccRun where
  row  : RowU
  p0   : Int := 0
  p1   : Int := 0
  p2   : Int := 0
  j    : Nat := 0
  kb   : Nat := 0
  resc : Nat := 0
  ovf  : Bool := false
  bang : Bool := false

/-- Whether a sum fits a 20-bit partial (R209). -/
def fitsPartial (x : Int) : Bool := decide (-524288 ≤ x) && decide (x ≤ 524287)

/-- Whether a sum fits a 48-bit word; -2^47 encodes infinity (R209). -/
def fitsWord (x : Int) : Bool := decide (-(2 : Int) ^ 47 + 1 ≤ x) && decide (x ≤ (2 : Int) ^ 47 - 1)

/-- A row made infinite (R216): every word reads -2^47. -/
def infRow (r : RowU) : RowU := { r with inf := true, words := List.replicate (fmtWords r.fmt) infWord }

/-- Shift every word right by one until all fit (R213): at most 15 times, or infinity (R214). -/
def rescale : Nat → RowU → RowU × Nat × Bool
  | 0, r => (r, 0, !(r.words.all fitsWord))
  | n + 1, r =>
    if r.words.all fitsWord then (r, 0, false)
    else if 15 ≤ r.exp then (r, 0, true)
    else
      let q := rescale n { r with words := r.words.map fun (w : Int) => w >>> (1 : Nat), exp := r.exp + 1 }
      (q.1, q.2.1 + 1, q.2.2)

/-- Promotion of the partials into the words (R208), with the word overflow of R210, R213 and R214. -/
def promote (ramp : Bool) (col : Nat) (a : AccRun) : AccRun :=
  let r := a.row
  let w := fun i => r.words.getD i 0
  let kb : Int := a.kb
  let ws :=
    match r.fmt with
    | 0 => [w 0 + (if ramp then kb * a.p0 + a.p1 else a.p0)]
    | 1 => [w 0 + a.p0, w 1 + kb * a.p0 + a.p1]
    | 2 => [w 0 + a.p0, w 1 + kb * a.p0 + a.p1, w 2 + kb * kb * a.p0 + 2 * kb * a.p1 + a.p2]
    | _ => r.words.set col (w col + a.p0)
  let a1 : AccRun := { a with p0 := 0, p1 := 0, p2 := 0, j := 0, kb := r.count }
  if r.inf then a1
  else
    let r1 := { r with words := ws }
    if ws.all fitsWord then { a1 with row := r1 }
    else if r.ovf then
      let q := rescale 16 r1
      if q.2.2 then { a1 with row := infRow q.1, bang := true, resc := a.resc + q.2.1 }
      else { a1 with row := q.1, resc := a.resc + q.2.1 }
    else { a1 with row := infRow r, bang := true }

/-- One contribution into the partials (R208, R209): x is the sample shifted right by the exponent; nothing is
taken past COUNT 2^24-1 (R205) or after a partial overflow. -/
def addSample (ramp : Bool) (col : Nat) (a : AccRun) (c : Contrib) : AccRun :=
  if a.ovf || decide (countMax ≤ a.row.count) then a
  else
    let r := { a.row with short := a.row.short || c.shrt, excl := a.row.excl || c.excl, spared := a.row.spared || c.spar }
    if !c.adv then { a with row := r }
    else
      let r1 := { r with count := r.count + 1 }
      if c.inf && !r.inf then
        { a with row := infRow r1, bang := true, p0 := 0, p1 := 0, p2 := 0, j := 0, kb := r1.count }
      else if r.inf then { a with row := r1 }
      else match c.val with
        | none => { a with row := r1 }
        | some v =>
          let x := v >>> r.exp
          let j : Int := a.j
          let p0 := a.p0 + x
          let p1 := a.p1 + j * x
          let p2 := a.p2 + j * j * x
          let use1 := decide (r.fmt = 1 ∨ r.fmt = 2) || (decide (r.fmt = 0) && ramp)
          let bad := !fitsPartial p0 || (use1 && !fitsPartial p1) || (decide (r.fmt = 2) && !fitsPartial p2)
          if bad then { a with ovf := true }
          else
            let r2 := { r1 with ramp := r1.ramp || (decide (r.fmt = 0) && ramp) }
            let a1 := { a with row := r2, p0 := p0, p1 := p1, p2 := p2, j := a.j + 1 }
            if a.j = 7 then promote ramp col a1 else a1

/-- RAMP of an accumulation. -/
def insRamp : Ins → Bool
  | .acc _ _ r _ _ _ | .dif _ _ r _ _ _ | .xdf _ _ _ r _ _ => r
  | _ => false

/-- COL of an accumulation. -/
def insCol : Ins → Nat
  | .acc _ _ _ _ c _ | .dif _ _ _ _ c _ | .xdf _ _ _ _ c _ => c
  | _ => 0

/-- Execute one accumulation on a row (R208, R209). -/
def accumulate (s : State) (i : Ins) (r : RowU) : AccRun :=
  let a := (contribs s r.orng i).foldl (addSample (insRamp i) (insCol i)) { row := r, kb := r.count }
  if a.ovf then a else promote (insRamp i) (insCol i) a

/-- Execute several accumulations in order, stopping at a partial overflow. -/
def accumulateAll (s : State) : List Ins → RowU → AccRun
  | [], r => { row := r }
  | i :: is, r =>
    let a := accumulate s i r
    if a.ovf then a
    else
      let b := accumulateAll s is a.row
      { b with resc := a.resc + b.resc, bang := a.bang || b.bang }

/-- Put an open row's words into the accumulator memory. -/
def storeWords (s : State) (r : RowU) : State :=
  { s with accs := ((List.range (fmtWords r.fmt)).foldl
      (fun (m : List (Nat × Int)) i =>
        let v := r.words.getD i 0
        if v = 0 then kvDel m (r.base + i) else kvSet m (r.base + i) v) s.accs) }

/-- Put a row into the state, with its words. -/
def putRow (s : State) (n : Nat) (r : RowU) : State := storeWords (modRow s n fun _ => r) r

/-- Change a partition's run. -/
def modRun (s : State) (p : Nat) (f : PRun → PRun) : State := modPart s p fun u => { u with run := f u.run }

/-- Change a row's replay data. -/
def setRunRow (s : State) (p r : Nat) (x : RowRun) : State :=
  modRun s p fun u => { u with rows := kvSet u.rows r x }

/-- A row that became infinite is reported (R216). -/
def reportInf (s : State) (p : Nat) : State := addCnt (partEvt s p 2) ROWS.INF_CNT 0 p 1

/-- Replays and rescales are counted and reported, once each (R215). -/
def reportReplays (s : State) (p : Nat) : Nat → State
  | 0 => s
  | n + 1 => reportReplays (addCnt (partEvt s p 3) ROWS.REPLAY_CNT 0 p 1) p n

/-- The flags of a record (Table 7.2). -/
def recFlags (r : RowU) (auto : Bool) : Nat :=
  b2n r.inf + 2 * b2n (decide (0 < r.exp)) + 4 * b2n r.short + 8 * b2n r.excl + 16 * b2n r.spared + 32 * b2n auto +
    64 * b2n (decide (r.fmt = 0) && r.ramp) + 128 * b2n r.carried

/-- Close a row: the record goes to the staging area at once, and beyond the 64th it is dropped (R204, R236). -/
def closeRow (s : State) (p n : Nat) (auto : Bool) : State :=
  let r := rowOf s n
  let rec' : Rec := ⟨n, r.fmt, r.exp, r.count, recFlags r auto, r.openFrn, s.frn, r.words⟩
  let s1 := modRow s n fun x => { x with isOpen := false, auto := auto }
  modPart s1 p fun u =>
    if u.staged.length < 64 then { u with staged := u.staged ++ [rec'] } else { u with dropped := u.dropped + 1 }

/-- Close a row that has reached its largest COUNT (R205). -/
def autoClose (s : State) (p n : Nat) : State :=
  let s1 := partEvt (closeRow s p n true) p 4
  match runRow s1 p n with
  | none => setRunRow s1 p n ⟨rowOf s1 n, [], 0, true⟩
  | some x => setRunRow s1 p n { x with auto := true }

/-- What a row's replays in an instruction came to: the run that ended without a partial overflow, if any; the exponent
reached; the replays of the frame, the slots of the window and the rescales so far. -/
structure Replayed where
  run     : Option AccRun
  exp     : Nat
  replays : Nat
  used    : Nat
  resc    : Nat

/-- The replay loop of a row (R211, R214): restore the checkpoint, raise the exponent and execute again, until no
partial overflows, three replays have been made, the exponent is at 15 or the quota is used up. -/
def replayLoop (s : State) (quota : Nat) (x : RowRun) : Nat → Nat → Nat → Nat → Nat → Replayed
  | 0, exp, replays, used, resc => ⟨none, exp, replays, used, resc⟩
  | n + 1, exp, replays, used, resc =>
    let rc := 1 + (x.accs.map (insCost s)).foldl (· + ·) 0
    if replays = 3 ∨ exp = 15 ∨ quota < used + rc then ⟨none, exp, replays, used, resc⟩
    else
      let e := exp + 1
      let r0 := { x.ckpt with exp := e, words := x.ckpt.words.map fun (w : Int) => w >>> (e - x.ckpt.exp : Nat) }
      let a := accumulateAll s x.accs r0
      if a.ovf then replayLoop s quota x n a.row.exp (replays + 1) (used + rc) (resc + a.resc)
      else ⟨some a, a.row.exp, replays + 1, used + rc, resc + a.resc⟩

/-- The slot quota of a partition (R21, R75). -/
def quotaOf (s : State) (p : Nat) : Nat := getF s FRAME.SLOT_QUOTA 0 p 0

/-- Execute an accumulation of partition p (R208 to R216), with its replays and its auto-close. -/
def execAcc (s : State) (p n : Nat) (i : Ins) : State :=
  let r := rowOf s n
  let x : RowRun := match runRow s p n with
    | some x => if x.accs.isEmpty && !(x.ckpt.isOpen) then ⟨r, [], x.replays, x.auto⟩ else x
    | none => ⟨r, [], 0, false⟩
  let x1 := { x with accs := x.accs ++ [i] }
  let a := accumulate s i r
  let inf0 := r.inf
  let counted := (accumulate s i { infRow r with orng := r.orng }).row
  let done : State :=
    if !a.ovf then
      let s1 := setRunRow (putRow s n a.row) p n x1
      let s2 := reportReplays s1 p a.resc
      if a.bang && !inf0 then reportInf s2 p else s2
    else if !r.ovf then
      reportInf (setRunRow (putRow s n counted) p n x1) p
    else
      let o := replayLoop s (quotaOf s p) x1 4 a.row.exp x.replays (partOf s p).run.used a.resc
      let row := match o.run with
        | some b => b.row
        | none => { counted with exp := o.exp }
      let s1 := setRunRow (putRow s n row) p n { x1 with replays := o.replays }
      let s2 := reportReplays (modRun s1 p fun q => { q with used := o.used }) p (o.replays - x.replays + o.resc)
      if row.inf && !inf0 then reportInf s2 p else s2
  if (rowOf done n).count = countMax then autoClose done p n else done

/-- Execute OPEN (R201, R202, Table 6.6). CARRY of a row that was never opened starts from words 0 and COUNT 0 in this frame, and
words of another format are cut or filled with zeros (DESIGN CHOICE, notes/assumptions 33). -/
def execOpn (s : State) (p n pre operand : Nat) : State :=
  let fmt := getF s ROWS.DESC_FMT 0 n 0
  let old := rowOf s n
  let src := if pre = 2 then rowOf s operand else old
  let zeros := List.replicate (fmtWords fmt) (0 : Int)
  let fresh : RowU :=
    { isOpen := true, ever := true, opened := true, carried := pre == 3, base := getF s ROWS.DESC_BASE 0 n 0, fmt := fmt,
      ovf := getF s ROWS.DESC_OVF 0 n 0 == 1, orng := getF s ROWS.DESC_ORNG 0 n 0 == 1,
      openFrn := s.frn, words := zeros }
  let keep := (src.words ++ zeros).take (fmtWords fmt)
  let r :=
    match pre with
    | 0 => fresh
    | 1 => { fresh with words := toSigned 16 operand :: zeros.drop 1 }
    | 2 => { fresh with words := if src.inf then List.replicate (fmtWords fmt) infWord else keep, exp := src.exp, inf := src.inf }
    | _ => { fresh with words := if old.inf then List.replicate (fmtWords fmt) infWord else keep, exp := old.exp,
                        inf := old.inf, count := old.count, openFrn := if old.ever then old.openFrn else s.frn }
  setRunRow (putRow s n r) p n ⟨r, [], ((runRow s p n).map fun x => x.replays).getD 0, false⟩

/-- Record a fault (R200); a source that is not permitted also shows in the partition's STATUS (R33, R198). -/
def recordFault (s : State) (p idx code : Nat) (grant : Bool) : State :=
  let s1 := setF (setF (setF s ROWS.FAULT_LAST_INDEX 0 p 0 idx) ROWS.FAULT_LAST_CODE 0 p 0 code)
    ROWS.FAULT_LAST_FRN 0 p 0 s.frn
  let s2 := partEvt (addCnt s1 ROWS.FAULT_CNT 0 p 1) p 1
  if grant then set1 s2 PART.STATUS_LANE_GRANT p 1 else s2

/-- Whether a trigger has fired in the frame's acquisition interval (R206). -/
def fired (s : State) (p k : Nat) : Bool := (timeOf s p).fires.getD k false

/-- Mark the partition's row of an accumulation that an overrun kept from running (R32, R79). -/
def missedRow (s : State) (p : Nat) : Ins → State
  | .acc r _ _ _ _ _ | .dif r _ _ _ _ _ | .xdf r _ _ _ _ _ =>
    if ownsRow s p r && (rowOf s r).isOpen then modRow s r fun x => { x with short := true } else s
  | _ => s

/-- A partition's program overruns (R78, R80). -/
def overrun (s : State) (p : Nat) : State :=
  let s1 := modRun s p fun u => { u with overrun := true }
  let s2 := evt (partEvt s1 p 0) .frame 0 0
  addCnt s2 FRAME.OVERRUN_CNT 0 p 1

/-- What an instruction that neither faults nor is skipped does. -/
def runIns (s : State) (p : Nat) (i : Ins) : State :=
  match i with
  | .nop | .bad _ _ => s
  | .fin => modRun s p fun u => { u with ended := true }
  | .syn skip neg trig =>
    if fired s p trig == neg then
      modRun s p fun u => if skip = 0 then { u with skipAll := true } else { u with skip := skip }
    else s
  | .opn row pre operand => if autoClosed s p row then s else execOpn s p row pre operand
  | .cls row => if autoClosed s p row then s else closeRow s p row false
  | .acc row _ _ _ _ _ | .dif row _ _ _ _ _ | .xdf row _ _ _ _ _ =>
    if autoClosed s p row then s else execAcc s p row i

/-- One instruction of a partition's program in its slot window (R199, R200, R207, R78): skipped at no cost,
faulted at one slot, or executed at its cost; when the quota does not hold it, the program overruns. -/
def stepIns (s : State) (p : Nat) (i : Ins) : State :=
  let u := (partOf s p).run
  if u.ended || u.overrun then s
  else
    let idx := u.pc
    let s0 := modRun s p fun v => { v with pc := v.pc + 1 }
    if 0 < u.skip then modRun s0 p fun v => { v with skip := v.skip - 1 }
    else if u.skipAll && i != .fin then s0
    else
      let quiet := ((insRow i).map fun r => autoClosed s p r).getD false
      let flt := if quiet then none else insFault s p i
      let c := match flt with
        | some _ => 1
        | none => insCost s i
      if quotaOf s p < u.used + c then missedRow (overrun s0 p) p i
      else
        let s1 := modRun s0 p fun v => { v with used := v.used + c }
        match flt with
        | some k => recordFault s1 p idx k ((insSrcs i).any fun x => !ownsSrc s p x)
        | none => runIns s1 p i

/-- The rows that skipped accumulations would have taken from an overrun on: the rest of the bank as SYNC and END would
have had it (R79, notes/assumptions 12). -/
def missedRest : List Nat → State → Nat → Nat → State
  | [], s, _, _ => s
  | w :: ws, s, p, skip =>
    let i := decodeIns w
    if 0 < skip then missedRest ws s p (skip - 1)
    else match i with
      | .fin => s
      | .syn k neg trig =>
        if fired s p trig == neg then (if k = 0 then s else missedRest ws s p k) else missedRest ws s p 0
      | _ => missedRest ws (missedRow s p i) p 0

/-- Execute a list of program words (R223): to END, to the end of the bank or to an overrun. -/
def runWords : List Nat → State → Nat → State
  | [], s, _ => s
  | w :: ws, s, p =>
    let t := stepIns s p (decodeIns w)
    if (partOf t p).run.ended then t
    else if (partOf t p).run.overrun then missedRest (w :: ws) t p 0
    else runWords ws t p

/-- The words of a bank from index 0 to the first END that no counted SYNC can skip (R207, R220). -/
def bankWords (b : List (Nat × Nat)) : List Nat :=
  let last := (b.getLast?.map fun x => x.1 + 1).getD 0
  (List.range (min 3584 (last + 257))).map fun i => (kvGet b i).getD 0xF0000000

/-- The active and the standby bank of a partition (R220, R222). -/
def activeBank (s : State) (p : Nat) : List (Nat × Nat) :=
  if getF s ROWS.PROG_CTRL_ACTIVE 0 p 0 = 0 then (partOf s p).bankA else (partOf s p).bankB

def standbyBank (s : State) (p : Nat) : List (Nat × Nat) :=
  if getF s ROWS.PROG_CTRL_ACTIVE 0 p 0 = 0 then (partOf s p).bankB else (partOf s p).bankA

/-- Start a frame's slot windows (R75): nothing used, no row touched. -/
def runsStart (s : State) : State :=
  { s with parts := s.parts.map fun u => { u with run := {}, staged := [], dropped := 0 } }

/-- What the descriptors show at the end of stage 2 (R228). CFG_PEND stands until the row's next OPEN (Table 6.7). OPEN_CNT is
updated with them (DESIGN CHOICE, notes/assumptions 34). -/
def publishRows (s : State) : State :=
  let s1 := (List.range 256).foldl (fun t n =>
    let r := rowOf t n
    if !r.ever then t
    else
      let held := !r.isOpen && !r.opened && getF t ROWS.DESC_CFG_PEND 0 n 0 == 1
      let pend := held || r.isOpen && (getF t ROWS.DESC_BASE 0 n 0 != r.base || getF t ROWS.DESC_FMT 0 n 0 != r.fmt
        || (getF t ROWS.DESC_OVF 0 n 0 == 1) != r.ovf || (getF t ROWS.DESC_ORNG 0 n 0 == 1) != r.orng)
      let reps := ((List.range 4).map fun p => ((runRow t p n).map fun x => x.replays).getD 0).foldl (· + ·) 0
      let t1 := setF (setF (setF t ROWS.DESC_OPEN 0 n 0 (b2n r.isOpen)) ROWS.DESC_INF 0 n 0 (b2n r.inf))
        ROWS.DESC_CFG_PEND 0 n 0 (b2n pend)
      let t2 := setF (setF (setF t1 ROWS.DESC_EXP 0 n 0 r.exp) ROWS.DESC_REPLAYS 0 n 0 reps)
        ROWS.DESC_ST_COUNT 0 n 0 r.count
      let t3 := setF (setF (setF t2 ROWS.DESC_ST_SHORT 0 n 0 (b2n r.short)) ROWS.DESC_ST_EXCLUDED 0 n 0 (b2n r.excl))
        ROWS.DESC_ST_SPARED 0 n 0 (b2n r.spared)
      modRow (setF t3 ROWS.DESC_ST_AUTOCLOSE 0 n 0 (b2n r.auto)) n fun x => { x with opened := false }) s
  let open' := fun p => ((List.range 256).filter fun n => (rowOf s1 n).isOpen && ownsRow s1 p n).length
  set1 (set1 (set1 (set1 s1 ROWS.OPEN_CNT_P0 0 (open' 0)) ROWS.OPEN_CNT_P1 0 (open' 1)) ROWS.OPEN_CNT_P2 0 (open' 2))
    ROWS.OPEN_CNT_P3 0 (open' 3)

/-- Stage 2 (R48, R75): the slot windows of the open partitions in order, each from its active bank. -/
def stage2 (s : State) : State :=
  let s0 := runsStart s
  let s1 := (List.range 4).foldl (fun t p =>
    if isOpen t p then runWords (bankWords (activeBank t p)) (set1 t PART.STATUS_LANE_GRANT p 0) p else t) s0
  publishRows s1

/-- The slot counts of the frame that ends, as the next one reports them (Table 2.4); Root's count is not
stated and is drawn free, at most 512 (R77). -/
def publishSlots (s : State) : State :=
  let d := drawFree s
  let s0 := set1 d.2 FRAME.SLOT_ROOT 0 (d.1 % 513)
  (List.range 4).foldl (fun t p =>
    setF (setF t FRAME.SLOT_EXEC 0 p 0 (partOf t p).run.used) FRAME.SLOT_OVER 0 p 0 (b2n (partOf t p).run.overrun)) s0

/-- Close every row of a partition without harvest, fill its banks with END and return its descriptors and
program control to their reset values (R38, R224). -/
def resetRows (s : State) (p : Nat) : State :=
  let s1 := { s with rows := s.rows.mapIdx fun n r => if ownsRow s p n then {} else r }
  let s2 := modPart s1 p fun _ => {}
  let s3 := ((List.range 256).filter fun n => ownsRow s p n).foldl (fun t n =>
    [ROWS.DESC_BASE, ROWS.DESC_FMT, ROWS.DESC_OVF, ROWS.DESC_ORNG, ROWS.DESC_OPEN, ROWS.DESC_INF, ROWS.DESC_CFG_PEND,
     ROWS.DESC_EXP, ROWS.DESC_REPLAYS, ROWS.DESC_ST_COUNT, ROWS.DESC_ST_SHORT, ROWS.DESC_ST_EXCLUDED,
     ROWS.DESC_ST_SPARED, ROWS.DESC_ST_AUTOCLOSE].foldl (fun v f => setF v f 0 n 0 f.reset) t) s2
  let s4 := [ROWS.PROG_CTRL_ACTIVE, ROWS.PROG_BASE, ROWS.FAULT_LAST_INDEX, ROWS.FAULT_LAST_CODE, ROWS.FAULT_LAST_FRN,
    ROWS.FAULT_CNT, ROWS.REPLAY_CNT, ROWS.INF_CNT].foldl (fun t f => setF t f 0 p 0 f.reset) s3
  match p with
  | 0 => set1 s4 ROWS.OPEN_CNT_P0 0 0
  | 1 => set1 s4 ROWS.OPEN_CNT_P1 0 0
  | 2 => set1 s4 ROWS.OPEN_CNT_P2 0 0
  | _ => set1 s4 ROWS.OPEN_CNT_P3 0 0

/-! ### Writes of the ROWS page as they act (R201, R221, R222) -/

/-- A descriptor's configuration word acts: the stored fields change; while the row is open and they differ from
the latched ones, CFG_PEND is set (R201). -/
def descWrite (s : State) (n v : Nat) : State :=
  let s1 := setF (setF (setF (setF s ROWS.DESC_BASE 0 n 0 (bitsOf v 0 10)) ROWS.DESC_FMT 0 n 0 (bitsOf v 10 2))
    ROWS.DESC_OVF 0 n 0 (bitsOf v 12 1)) ROWS.DESC_ORNG 0 n 0 (bitsOf v 13 1)
  let r := rowOf s n
  let diff := bitsOf v 0 10 ≠ r.base ∨ bitsOf v 10 2 ≠ r.fmt ∨ (bitOf v 12) ≠ r.ovf ∨ (bitOf v 13) ≠ r.orng
  if r.isOpen then setF s1 ROWS.DESC_CFG_PEND 0 n 0 (if diff then 1 else 0) else s1

/-- Store a word of the standby bank; END is what an unlisted word reads (R220). -/
def setStandby (s : State) (p i w : Nat) : State :=
  let put := fun (b : List (Nat × Nat)) => if w = 0xF0000000 then kvDel b i else kvSet b i w
  if getF s ROWS.PROG_CTRL_ACTIVE 0 p 0 = 0 then modPart s p fun u => { u with bankB := put u.bankB }
  else modPart s p fun u => { u with bankA := put u.bankA }

/-- A program window word acts (R221): beyond standby word 3583 it is discarded; word 15 advances PROG_BASE, which wraps at
its 12 bits (DESIGN CHOICE, notes/assumptions 35). -/
def progWinWrite (s : State) (p i v : Nat) : State :=
  let b := getF s ROWS.PROG_BASE 0 p 0
  let s1 := if b + i < 3584 then setStandby s p (b + i) (v % 2 ^ 32) else s
  if i = 15 then setF s1 ROWS.PROG_BASE 0 p 0 (b + 16) else s1

/-- What a program window word reads (R222). -/
def progWinRead (s : State) (p i : Nat) : Nat :=
  let b := getF s ROWS.PROG_BASE 0 p 0
  if b + i < 3584 then (kvGet (standbyBank s p) (b + i)).getD 0xF0000000 else 0

/-- SWAP acts (R222). -/
def progSwap (s : State) (p : Nat) : State :=
  setF s ROWS.PROG_CTRL_ACTIVE 0 p 0 (1 - getF s ROWS.PROG_CTRL_ACTIVE 0 p 0)

/-! ### Meanings -/

/-- A row-engine command executes one instruction of partition p in its slot window of the frame in progress.
A closed partition, or a module whose frames do not run, executes nothing (R24). -/
def insCommand (s : State) (p : Nat) (i : Ins) : State :=
  if isOpen s p && s.phase == .running then stepIns s p i else s

/-- NOP (R195, Table 6.3): one slot. -/
def execNop (p : Nat) (s : State) : Host.Outcome State Fault Refusal :=
  if p < 4 then .next (insCommand s p .nop) else .refused .illFormed

/-- OPEN with ZERO (R202). -/
def execOpenZero (p row : Nat) (s : State) : Host.Outcome State Fault Refusal :=
  if p < 4 ∧ row < 256 then .next (insCommand s p (.opn row 0 0)) else .refused .illFormed

/-- OPEN with BIAS (R202): the bias is a signed 16-bit operand. -/
def execOpenBias (p row : Nat) (bias : Int) (s : State) : Host.Outcome State Fault Refusal :=
  if p < 4 ∧ row < 256 ∧ -32768 ≤ bias ∧ bias ≤ 32767 then .next (insCommand s p (.opn row 1 (ofSigned 16 bias)))
  else .refused .illFormed

/-- OPEN with RESIDUAL (R202). -/
def execOpenResidual (p row src : Nat) (s : State) : Host.Outcome State Fault Refusal :=
  if p < 4 ∧ row < 256 ∧ src < 256 then .next (insCommand s p (.opn row 2 src)) else .refused .illFormed

/-- OPEN with CARRY (R202). -/
def execOpenCarry (p row : Nat) (s : State) : Host.Outcome State Fault Refusal :=
  if p < 4 ∧ row < 256 then .next (insCommand s p (.opn row 3 0)) else .refused .illFormed

/-- ACC (R192, R208). -/
def execAccIns (p row src : Nat) (ramp : Bool) (first col cntM1 : Nat) (s : State) : Host.Outcome State Fault Refusal :=
  if p < 4 ∧ row < 256 ∧ src < 32 ∧ first < 64 ∧ col < 4 ∧ cntM1 < 64 then
    .next (insCommand s p (.acc row src ramp first col cntM1))
  else .refused .illFormed

/-- DIFF (R193). -/
def execDiff (p row src : Nat) (ramp : Bool) (first col cntM1 : Nat) (s : State) : Host.Outcome State Fault Refusal :=
  if p < 4 ∧ row < 256 ∧ src < 32 ∧ first < 64 ∧ col < 4 ∧ cntM1 < 64 then
    .next (insCommand s p (.dif row src ramp first col cntM1))
  else .refused .illFormed

/-- XDIF (R194). -/
def execXdif (p row srcA srcB : Nat) (ramp : Bool) (col cntM1 : Nat) (s : State) : Host.Outcome State Fault Refusal :=
  if p < 4 ∧ row < 256 ∧ srcA < 32 ∧ srcB < 32 ∧ col < 4 ∧ cntM1 < 64 then
    .next (insCommand s p (.xdf row srcA srcB ramp col cntM1))
  else .refused .illFormed

/-- SYNC (R207). -/
def execSync (p skip : Nat) (neg : Bool) (trig : Nat) (s : State) : Host.Outcome State Fault Refusal :=
  if p < 4 ∧ skip < 256 ∧ trig < 8 then .next (insCommand s p (.syn skip neg trig)) else .refused .illFormed

/-- CLOSE (R204). -/
def execClose (p row : Nat) (s : State) : Host.Outcome State Fault Refusal :=
  if p < 4 ∧ row < 256 then .next (insCommand s p (.cls row)) else .refused .illFormed

/-- END (R223). -/
def execEndProg (p : Nat) (s : State) : Host.Outcome State Fault Refusal :=
  if p < 4 then .next (insCommand s p .fin) else .refused .illFormed

/-- DESCRIPTOR_WRITE (R201): a descriptor's word 0 acts at step 5. -/
def execDescriptorWrite (row value : Nat) (s : State) : Host.Outcome State Fault Refusal :=
  if row < 256 ∧ value < 2 ^ 32 then .next (descWrite s row value) else .refused .illFormed

/-- PROG_BASE_WRITE (R221). -/
def execProgBaseWrite (p value : Nat) (s : State) : Host.Outcome State Fault Refusal :=
  if p < 4 ∧ value < 2 ^ 32 then .next (setF s ROWS.PROG_BASE 0 p 0 value) else .refused .illFormed

/-- PROG_WIN_WRITE (R221). -/
def execProgWinWrite (p i value : Nat) (s : State) : Host.Outcome State Fault Refusal :=
  if p < 4 ∧ i < 16 ∧ value < 2 ^ 32 then .next (progWinWrite s p i value) else .refused .illFormed

/-- SWAP (R222). -/
def execSwap (p : Nat) (s : State) : Host.Outcome State Fault Refusal :=
  if p < 4 then .next (progSwap s p) else .refused .illFormed

end Sys2Proof.Machine
end

