-- ==== Sys2Proof/Machine/Harvest.lean ====
section
/-! DEFINITION. Harvest (R230 to R247): records, rings, their indices and the ring writer of stage 6. -/

namespace Sys2Proof.Machine

/-- Address of a ring slot (R230). -/
def ringAddr (p slot : Nat) : Nat := 0x500000 + p * 0x4000 + slot % 256 * 0x40

/-- Unreleased records of a ring (R235). -/
def ringFill (s : State) (p : Nat) : Nat :=
  (getF s HARV.WR_IDX 0 p 0 + 512 - getF s HARV.RD_IDX 0 p 0) % 512

/-- Whether a domain runs (R284). -/
def domRuns (s : State) (d : Nat) : Bool := isOpen s d && s.phase == .running

/-- One nanosecond in the counter's unit of 2^-64 ns (R353). -/
def nsUnit : Nat := 2 ^ 64

/-- One second in the counter's unit. -/
def secUnit : Nat := 1000000000 * 2 ^ 64

/-- Seconds, nanoseconds and 2^-16 ns of a counter value (R352); SEC counts modulo 2^48 (R353). -/
def timeSec (t : Nat) : Nat := t / secUnit % 2 ^ 48
def timeNs (t : Nat) : Nat := t % secUnit / nsUnit
def timeFrac (t : Nat) : Nat := t % nsUnit / 2 ^ 48

/-- The bytes of a record's words (R233): 48 bits with their sign extension, little-endian. -/
def recWord (words : List Int) (i : Nat) : Nat := ofSigned 64 (words.getD i 0)

/-- Whether a step of TIMEp acted at a boundary from `a`+1 to `b` (Table 7.1, STEPPED). -/
def steppedBetween (s : State) (p a b : Nat) : Bool :=
  match (timeOf s p).stepped with
  | none => false
  | some f => decide (a < f) && decide (f ≤ b)

/-- Write one record into a ring slot (R232, Table 7.1). -/
def writeRec (s : State) (p slot seq : Nat) (r : Rec) : State :=
  let a := ringAddr p slot
  let run := domRuns s p
  let t := (timeOf s p).t
  let close := if run then timeNs t + 2 ^ 30 * b2n (steppedBetween s p r.openFrn r.frn) + 2 ^ 31 else
    2 ^ 30 * b2n (steppedBetween s p r.openFrn r.frn)
  let s1 := setLE s a (seq + 2 ^ 16 * r.row + 2 ^ 24 * r.fmt + 2 ^ 28 * r.exp) 4
  let s2 := setLE s1 (a + 4) (r.count + 2 ^ 24 * r.flags) 4
  let s3 := setLE (setLE s2 (a + 8) r.openFrn 8) (a + 16) r.frn 8
  let s4 := setLE (setLE s3 (a + 24) (if run then timeSec t % 2 ^ 32 else 0) 4) (a + 28) close 4
  (List.range 4).foldl (fun v i => setLE v (a + 32 + 8 * i) (recWord r.words i) 8) s4

/-- A dropped record (R239): cause 0 FULL, 1 STAGING. -/
def dropRec (s : State) (p seq cause : Nat) : State :=
  let s1 := setF (setF s HARV.LAST_DROP_SEQ 0 p 0 seq) HARV.LAST_DROP_CAUSE 0 p 0 cause
  let s2 := addCnt s1 (if cause = 0 then HARV.DROP_CNT else HARV.STAGE_DROP_CNT) 0 p 1
  partEvt s2 p 6

/-- The ring writer takes one staged record (R237). -/
def takeRec (s : State) (p : Nat) (r : Rec) : State :=
  let seq := getF s HARV.FILL_NEXT_SEQ 0 p 0
  let s1 := setF s HARV.FILL_NEXT_SEQ 0 p 0 (seq + 1)
  if ringFill s p < 256 then
    let w := getF s HARV.WR_IDX 0 p 0
    addCnt (setF (writeRec s1 p w seq r) HARV.WR_IDX 0 p 0 (w + 1)) HARV.REC_CNT 0 p 1
  else dropRec s1 p seq 0

/-- Drop the records beyond the 64th, which take SEQ after the staged ones (R236, R239). -/
def dropStaged (s : State) (p : Nat) : Nat → State
  | 0 => s
  | n + 1 =>
    let seq := getF s HARV.FILL_NEXT_SEQ 0 p 0
    dropStaged (dropRec (setF s HARV.FILL_NEXT_SEQ 0 p 0 (seq + 1)) p seq 1) p n

/-- Stage 6 at the rings (R237, R238, R243). -/
def harvest (s : State) : State :=
  (List.range 4).foldl (fun t p =>
    let u := partOf t p
    let c0 := getF t HARV.WR_IDX 0 p 0
    let t1 := dropStaged (u.staged.foldl (fun v r => takeRec v p r) t) p u.dropped
    let t2 := modPart t1 p fun x => { x with staged := [], dropped := 0 }
    let wrote := getF t2 HARV.WR_IDX 0 p 0 ≠ c0
    if wrote ∧ getF t2 HARV.WM 0 p 0 ≤ ringFill t2 p then partEvt t2 p 5 else t2) s

/-- Empty a partition's ring and return its block to reset values (R38, R242). -/
def resetHarvest (s : State) (p : Nat) : State :=
  let s1 := clearRange s (0x500000 + p * 0x4000) 0x4000
  [HARV.WR_IDX, HARV.RD_IDX, HARV.FILL_NEXT_SEQ, HARV.WM, HARV.DROP_CNT, HARV.STAGE_DROP_CNT, HARV.REC_CNT,
   HARV.LAST_DROP_SEQ, HARV.LAST_DROP_CAUSE].foldl (fun t f => setF t f 0 p 0 f.reset) s1

/-- An RD_IDX write is checked at its boundary (R241). -/
def rdIdxWrite (s : State) (p v : Nat) : State :=
  if (getF s HARV.WR_IDX 0 p 0 + 512 - v % 512) % 512 > ringFill s p then partEvt s p 7
  else setF s HARV.RD_IDX 0 p 0 v

/-- RD_IDX_WRITE (R241). -/
def execRdIdxWrite (p value : Nat) (s : State) : Host.Outcome State Fault Refusal :=
  if p < 4 ∧ value < 2 ^ 32 then .next (rdIdxWrite s p value) else .refused .illFormed

end Sys2Proof.Machine
end

