-- ==== Sys2Proof/Machine/Quality.lean ====
section
/-! DEFINITION. Quality levels and reference selection (R248 to R283): QL intake, qualifier windows, channel
tests, wait-to-restore and hold-off, choice and switch. -/

namespace Sys2Proof.Machine

/-! ### Ranks (R250 to R256) -/

/-- Rank of an SSM code with its enhanced code, or none for a pair Table 8.2 does not list (R254, R255). -/
def ssmRank (ssm : Nat) (ecode : Option Nat) : Option Nat :=
  if ssm = 0xF then some 0
  else
    match ecode with
    | some e =>
      if e = 0xFF then ssmAlone ssm
      else if ssm = 2 ∧ e = 0x21 then some 15
      else if ssm = 2 ∧ e = 0x20 then some 14
      else if ssm = 2 ∧ e = 0x23 then some 13
      else if ssm = 0xB ∧ e = 0x22 then some 6
      else none
    | none => ssmAlone ssm
where
  ssmAlone (c : Nat) : Option Nat :=
    if c = 2 then some 12 else if c = 4 then some 10 else if c = 8 then some 8 else if c = 0xB then some 4 else none

/-- Rank of a clockClass (R256, Table 8.3). -/
def classRank (c : Nat) : Nat :=
  if c = 6 then 14 else if c = 7 ∨ c = 135 then 12 else if c = 140 then 10 else if c = 150 then 8
  else if c = 160 then 4 else if c = 165 then 2 else 0

/-- The source of a channel's QL (R250). -/
def qlSrc (s : State) (c : Nat) : Nat := polVal s.pol CHAN.QL_SRC c 0 0

/-- The rank in effect of a channel: ASSUMED for source 0 (R250). -/
def rankOf (s : State) (c : Nat) : Nat :=
  if qlSrc s c = 0 then polVal s.pol CHAN.QL_ASSUMED c 0 0 else (chanOf s c).rank

/-- Whether a channel's source has timed out or not yet delivered (R252); source 0 delivers no message. -/
def qlTimedOut (s : State) (c : Nat) : Bool := if qlSrc s c = 0 then false else (chanOf s c).timedOut

/-- Journal and count a change of the rank in effect, or a timeout (R280, Table 8.6). -/
def qlChange (s : State) (c old new : Nat) (timeout : Bool) : State :=
  if old = new ∧ !timeout then s
  else
    let s1 := addCnt s SEL.QL_CHG_CNT 0 0 1
    let s2 := journalPg s1 0x042 (some (chanOwner s c)) .sel c
      (c + 16 * old + 256 * new + 4096 * qlSrc s c + 2 ^ 15 * b2n timeout)
    chanEvt s2 c 1

/-- A received rank takes effect and its timeout restarts (R252). `frames`: the timeout's length. -/
def applyRank (s : State) (c rank frames : Nat) : State :=
  let old := rankOf s c
  let s1 := modChan s c fun u =>
    { u with rank := rank, timedOut := false, qlLeft := some (frames + 1), qlAge := some 0 }
  qlChange s1 c old rank false

/-- The timeout of a channel's QL expires (R252): the rank reads 0 and the QL_TIMEOUT test fails. -/
def qlExpire (s : State) (c : Nat) : State :=
  let old := rankOf s c
  let s1 := modChan s c fun u => { u with rank := 0, timedOut := true, qlLeft := none }
  qlChange s1 c old 0 true

/-- What CHAN_QL shows of a channel from the end of stage 3 on (R282, Table 8.8). -/
def publishQl (s : State) (c : Nat) : State :=
  let s1 := setF (setF s SEL.CHAN_QL_RANK 0 c 0 (rankOf s c)) SEL.CHAN_QL_TIMED_OUT 0 c 0 (b2n (qlTimedOut s c))
  setF s1 SEL.CHAN_QL_AGE 0 c 0 (((chanOf s c).qlAge.map fun a => satTo 255 (a / 1000)).getD 0xFF)

/-- One frame of a channel's QL timers (R252). -/
def qlFrame (s : State) (c : Nat) : State :=
  let u := chanOf s c
  let s1 := modChan s c fun x => { x with qlLeft := u.qlLeft.map fun k => k - 1, qlAge := u.qlAge.map fun k => k + 1 }
  publishQl (if (chanOf s1 c).qlLeft = some 0 then qlExpire s1 c else s1) c

/-! ### Qualifier windows (R257 to R259) -/

/-- A channel's samples 0 as Root's rows have them: none when withheld or flagged (R163); a packet channel's are the
estimates applied at the boundary of the frame (R259). -/
def samples0 (s : State) (c : Nat) : Option (List Smp) :=
  if c < 10 then (funcOf s c).inc.map fun x => [x] else some ((pktOf s (c - 10)).fresh.map smpOf)

/-- A channel's sample 0 of the frame; its latest estimate for a packet channel. -/
def sample0 (s : State) (c : Nat) : Option Smp := (samples0 s c).map fun l => l.getLast?.getD .noEdge

/-- The kind of a window that closes (R258). -/
def winKind (u : ChanU) : WinKind :=
  if u.inf then .incomplete
  else if 0 < u.valid ∧ u.held = 0 ∧ u.overs = 0 then .complete
  else if u.valid = 0 ∧ u.held = 0 ∧ u.overs = 0 then .empty
  else .incomplete

/-- Complete windows of a history. -/
def completeWins (l : List Win) : List Win := l.filter fun w => w.kind == .complete

/-- Keep the history from the earliest of the latest 8 complete windows on. -/
def trimWins (l : List Win) : List Win :=
  match ((completeWins l).reverse.take 8).getLast? with
  | none => []
  | some w => if 8 ≤ (completeWins l).length then l.filter fun x => decide (w.opened ≤ x.opened) else l

/-- The phase rate over the latest 8 complete windows in LSB per frame (R258). -/
def phaseRate (l : List Win) : Option Rat :=
  let cs := completeWins (trimWins l)
  match cs.head?, cs.getLast? with
  | some a, some b =>
    if cs.length < 8 then none
    else
      let skip := (l.filter fun w => w.kind == .incomplete && decide (a.opened < w.opened) && decide (w.opened < b.opened)).length
      let t := b.opened + 1024 - a.opened - 1024 * skip
      some (((cs.map fun w => w.sum).foldl (· + ·) 0 : Int) / (t : Rat))
  | _, _ => none

/-- The wander of a complete window just closed against the previous complete one (Table 8.4, order 7). -/
def wanderOf (l : List Win) : Option Rat :=
  match (completeWins l).reverse with
  | i :: j :: _ => some (absR ((i.sum : Rat) - (j.sum : Rat) * (i.n : Rat) / (j.n : Rat)))
  | _ => none

/-- A qualifier row takes a sample 0 (R257, R258): under POISON a sum beyond its word makes it infinity (R210, R216). -/
def takeSample (u : ChanU) : Smp → ChanU
  | .val x =>
    let ok := !u.inf && fitsWord (u.sum + x)
    { u with sum := if ok then u.sum + x else infWord, valid := u.valid + 1, inf := !ok }
  | .ovr _ => { u with overs := u.overs + 1 }
  | _ => u

/-- The qualifier row of a channel takes its frame's samples 0 (R257, R258); one that becomes infinity raises ROOT_ROW_INF
(R218). -/
def qualSample (s : State) (c : Nat) : State :=
  match samples0 s c with
  | none => modChan s c fun u => { u with held := u.held + 1 }
  | some l =>
    let v := l.foldl takeSample (chanOf s c)
    evtIf (v.inf && !(chanOf s c).inf) (modChan s c fun _ => v) .rows 0 0

/-- The window of a channel closes and reopens, and the window tests are evaluated (R257, R260). -/
def windowClose (s : State) (c : Nat) : State :=
  let u := chanOf s c
  let w : Win := ⟨s.frn - s.frn % 1024, u.sum, u.valid, winKind u⟩
  let wins := trimWins (u.wins ++ [w])
  let full := 8 ≤ (completeWins wins).length
  let done := w.kind == .complete && decide full
  let rho := phaseRate wins
  let y := rho.map fun r => -r / frameLsb
  let fbad := match y with
    | some v => if done then decide (absR v > (polVal s.pol CHAN.FREQ_RANGE c 0 0 : Rat) / 1000000000) else u.freqBad
    | none => u.freqBad
  let wv := wanderOf wins
  let wbad := match wv with
    | some v => if done then decide (v > (polVal s.pol CHAN.WANDER c 0 0 : Rat)) else u.wandBad
    | none => u.wandBad
  let s1 := modChan s c fun x =>
    { x with wins := wins, sum := 0, valid := 0, held := 0, overs := 0, inf := false, freqBad := fbad, wandBad := wbad }
  let s2 := match y with
    | some v => setF s1 SEL.CHAN_FREQ 0 c 0 (satSigned 32 (roundAway (v * 1000000000000)))
    | none => s1
  match wv with
  | some v => if done then setF s2 SEL.CHAN_DEV_WANDER 0 c 0 (satTo 0xFFFF v.floor.toNat) else s2
  | none => s2

/-- A channel's baseline is lost by inactivity (R157): its lane starts anew, and its windows and its frequency with it
(R268, R282). -/
def dropBaseline (s : State) (c : Nat) : State :=
  let s0 := setF s SEL.CHAN_FREQ 0 c 0 0x80000000
  let s1 := modChan s0 c fun u =>
    { u with wins := [], sum := 0, valid := 0, held := 0, overs := 0, inf := false, lastOk := none, freqBad := false, wandBad := false }
  let s2 := if c < 10 then baseLost s1 c
    else modPkt s1 (c - 10) fun u => { u with base := false }
  match laneFor s2 c with
  | none => s2
  | some n => if c < 10 then set1 (modLane s2 n fun l => { l with host := {}, inc := {} }) LANE.STATUS_NO_BASE n 1 else s2

/-- The edges counted for a channel in the frame (Table 8.4, order 3); an estimate for a packet channel. -/
def activeIn (s : State) (c : Nat) : Bool :=
  if c < 10 then decide (0 < (funcOf s c).edges) else (pktOf s (c - 10)).got

/-- ACT_TIMEOUT of a channel in frames. -/
def actTimeout (s : State) (c : Nat) : Nat := polVal s.pol CHAN.ACT_TIMEOUT c 0 0

/-- Whether ACT_TIMEOUT frames have passed without a counted edge or an estimate. -/
def idleOut (s : State) (c : Nat) : Bool := decide (actTimeout s c ≤ (chanOf s c).idle)

/-- What follows from a channel's activity: at ACT_TIMEOUT it loses its baseline, once (R157, R260), and ACTIVE is raised when
activity is lost or regained (R142, Table 4.4). -/
def activityChange (s : State) (c : Nat) : State :=
  let u := chanOf s c
  let lost := u.dead || idleOut s c
  let s1 := if idleOut s c && !u.bare then dropBaseline s c else s
  let s2 := modChan s1 c fun x => { x with quiet := lost, bare := idleOut s c }
  if lost = u.quiet then s2 else chanEvt s2 c 2

/-- A channel's activity over the frame; edges of a port's recovered clock do not end its loss of lock (R414). -/
def activityFrame (s : State) (c : Nat) : State :=
  let act := activeIn s c
  activityChange (modChan s c fun x =>
    { x with idle := if act then 0 else x.idle + 1, dead := x.dead && !(act && c != 8 && c != 9) }) c

/-- The deviation of a valid sample 0 from the phase rate (Table 8.4, order 6), once there are windows. -/
def stepDev (s : State) (c : Nat) : Smp → Option Rat
  | .val x => match phaseRate (chanOf s c).wins, (chanOf s c).lastOk with
    | some rho, some f => some (absR ((x : Rat) - rho * ((s.frn - f : Nat) : Rat)))
    | _, _ => none
  | _ => none

/-- Whether a sample 0 fails the phase-step test: over-range needs no windows. -/
def sampleSteps (s : State) (c : Nat) (x : Smp) : Bool :=
  match x with
  | .ovr _ => true
  | _ => decide ((polVal s.pol CHAN.PHASE_STEP c 0 0 : Rat) < (stepDev s c x).getD 0)

/-- The phase-step test of one sample 0, and its STEP condition (R142). -/
def stepSample (c : Nat) (s : State) (x : Smp) : State :=
  let bad := sampleSteps s c x
  let s1 := match stepDev s c x with
    | some d => setF s SEL.CHAN_DEV_STEP 0 c 0 (satTo 0xFFFF d.floor.toNat)
    | none => s
  let s2 := modChan s1 c fun u =>
    { u with stepBad := u.stepBad || bad, lastOk := match x with
        | .val _ => some s.frn
        | _ => u.lastOk }
  if bad then chanEvt s2 c 3 else s2

/-- The phase-step test (Table 8.4, order 6) of the frame's samples 0; the start of an overdrive needs no windows. -/
def stepTest (s : State) (c : Nat) : State :=
  ((samples0 s c).getD []).foldl (stepSample c) (modChan s c fun u => { u with stepBad := u.odStart, odStart := false })

/-- The tests of Table 8.4 that a channel fails, in table order: whether each of orders 1 to 9 fails (R260). -/
def failBits (s : State) (c : Nat) : List Bool :=
  let u := chanOf s c
  [ polVal s.pol CHAN.POL_ID_ENABLED c 0 0 == 0,
    decide (c < 10) && (laneFor s c).isNone,
    u.dead || idleOut s c,
    u.inf,
    u.freqBad,
    u.stepBad,
    u.wandBad,
    qlTimedOut s c,
    rankOf s c == 0 ]

/-- Reason codes of the tests in table order (Table 8.9). -/
def testReason : List Nat := [0xB, 0x8, 0x1, 0x5, 0x2, 0x3, 0x4, 0x7, 0x6]

/-- The reason of the first failing test. -/
def firstReason (fs : List Bool) : Option Nat := ((fs.zip testReason).find? fun x => x.1).map fun x => x.2

/-- Whether a test of the hold-off class fails: orders 4 to 7. -/
def holdFails (fs : List Bool) : Bool := ((fs.drop 3).take 4).any id

/-- Whether a test of the WTR class fails: orders 1 to 3, 8 and 9. -/
def wtrFails (fs : List Bool) : Bool := (fs.take 3).any id || (fs.drop 7).any id

/-- Complete windows that opened at or after a frame. -/
def winsSince (u : ChanU) (f : Nat) : Nat := ((completeWins u.wins).filter fun w => decide (f ≤ w.opened)).length

/-! ### Verdicts (R261 to R268) -/

/-- A pair qualifies (R266, R267). -/
def pairOk (v : PairU) : PairU := { v with reason := 0, timer := 0, kind := 0, ever := true, wtrDue := false, lastFail := none }

/-- The part of a pair's frame once no test fails and no hold-off is served: windows, then wait-to-restore
(R264, R267, R268). -/
def pairFree (windows wtr : Nat) (v : PairU) : PairU :=
  if windows < 8 then { v with reason := 1, timer := 0, kind := 0, wtrDue := v.wtrDue || v.ever }
  else if !v.wtrDue then pairOk v
  else if v.kind = 1 then
    if v.timer ≤ 1 then pairOk v else { v with reason := 9, timer := v.timer - 1 }
  else if wtr = 0 then pairOk v
  else { v with reason := 9, timer := wtr * 8000, kind := 1 }

/-- One frame of a pair (R260 to R267). `fs`: the tests; `hold`, `wtr`: the lengths; `wins`: complete windows since
the domain's start; `after`: since the last failing frame. -/
def pairFrame (frn : Nat) (fs : List Bool) (hold wtr wins after : Nat) (v : PairU) : PairU :=
  match firstReason fs with
  | some r =>
    let w := { v with reason := r, wtrDue := v.wtrDue || (v.ever && wtrFails fs) }
    if holdFails fs then { w with timer := hold * 8, kind := 2, lastFail := some frn, wtrDue := w.wtrDue || decide (v.kind = 1) }
    else if v.kind = 2 then { w with timer := v.timer - 1 }
    else { w with timer := 0, kind := 0 }
  | none =>
    if v.lastFail.isSome then
      let t := v.timer - 1
      if 0 < t ∨ after < 8 then { v with reason := 0xA, timer := t, kind := if 0 < t then 2 else 0 }
      else pairFree wins wtr { v with timer := 0, kind := 0, lastFail := none }
    else pairFree wins wtr v

/-- Whether a channel's sample 0 is withheld in the frame, so that verdicts carry over (R261). -/
def paused (s : State) (c : Nat) : Bool := (sample0 s c).isNone && !(decide (c < 8) && (funcOf s c).driven)

/-- Whether a channel is a candidate of a domain (Table 1.1, Table 4.2). -/
def isCand (s : State) (d c : Nat) : Bool := bitOf (polVal s.pol CHAN.CAND c 0 0) d

/-- A pair's reason changes (R280, R283, Table 4.4). -/
def reasonChanged (s : State) (d c old new : Nat) : State :=
  let s1 := journalPg s 0x040 (some d) .sel d (c + 16 * new + 256 * old + 4096 * rankOf s c + 65536 * d)
  let s2 := partEvt s1 d 10
  let s3 := if old = 0 then addCnt s2 SEL.DISQ_CNT 0 d 1 else s2
  if old = 0 ∨ new = 0 then chanEvt s3 c 0 else s3

/-- Put a pair's new verdict state, reporting a change of its reason; the first reason after a start is no
change. -/
def putPair (s : State) (d c : Nat) (v : PairU) : State :=
  let old := (pairOf s d c).reason
  let s1 := modPair s d c fun _ => v
  if old = v.reason ∨ old = 0xF then s1 else reasonChanged s1 d c old v.reason

/-- Stage 3 for one pair. -/
def pairStage (s : State) (d c : Nat) : State :=
  if !isCand s d c then modPair s d c fun _ => {}
  else
    let u := chanOf s c
    let v := pairOf s d c
    let fs := failBits s c
    if paused s c && (firstReason fs).isNone && v.reason != 0xF then s
    else
      let start := (domOf s d).start
      let after := match v.lastFail with
        | some f => winsSince u (max start (f + 1))
        | none => 0
      putPair s d c (pairFrame s.frn fs (polVal s.pol CHAN.HOLD_OFF c 0 0) (polVal s.pol CHAN.WTR c 0 0)
        (winsSince u start) after v)

/-! ### Selection (R269 to R279) -/

/-- The active channel of a domain; 0xF none. -/
def activeOf (s : State) (d : Nat) : Nat := getF s SEL.ACTIVE_CHAN 0 d 0

/-- Whether a pair is qualified. -/
def qualified (s : State) (d c : Nat) : Bool := isCand s d c && (pairOf s d c).reason == 0

/-- The choice of R269. -/
def choose (s : State) (d : Nat) : Nat :=
  let best := (List.range 12).foldl (fun (b : Nat) c =>
    if qualified s d c && (b == 0xF || decide (rankOf s b < rankOf s c)) then c else b) 0xF
  let cur := activeOf s d
  if getF s SEL.DPOL_REVERTIVE 0 d 0 = 0 ∧ cur ≠ 0xF ∧ qualified s d cur ∧ (best = 0xF ∨ rankOf s best ≤ rankOf s cur)
  then cur else best

/-- Whether a domain's switches are slewed: ALIGN or PKT mode (R274). -/
def slewed (s : State) (d : Nat) : Bool := (domOf s d).mode != 0

/-- The slew of a domain ends: SLEWING clears, FROM reads 0xF (R277). The output stays at its present phase, so what a stopped
slew had left counts no more as error (R279). -/
def slewClear (s : State) (d : Nat) : State :=
  let s1 := setF (setF s SEL.ACTIVE_SLEWING 0 d 0 0) SEL.ACTIVE_FROM 0 d 0 0xF
  modDom (setF s1 SEL.SLEW_LEFT 0 d 0 0) d fun u => { u with e := u.e - u.slew, slew := 0, slewWait := false, acqSlew := false, reqSlew := false }

/-- SLEW_LEFT reaches 0 (R277): the slew ends and SLEW_DONE is raised. -/
def slewEnd (s : State) (d : Nat) : State := partEvt (slewClear s d) d 11

/-- A switch to another channel (R274 to R279). -/
def switchTo (s : State) (d best : Nat) : State :=
  let cur := activeOf s d
  let sl := slewed s d && best != 0xF
  let s1 := setF (setF (setF s SEL.ACTIVE_CHAN 0 d 0 best) SEL.ACTIVE_RANK 0 d 0 (if best = 0xF then 0 else rankOf s best))
    SEL.ACTIVE_FRN 0 d 0 s.frn
  let s2 := if best = 0xF then modDom (slewClear s1 d) d fun u => { u with halted := (domOf s d).slew }
    else if sl then
      let from' := if getF s SEL.ACTIVE_SLEWING 0 d 0 = 1 then getF s SEL.ACTIVE_FROM 0 d 0 else cur
      modDom (setF (setF s1 SEL.ACTIVE_SLEWING 0 d 0 1) SEL.ACTIVE_FROM 0 d 0 from') d fun u =>
        { u with slewWait := true, halted := 0 }
    else modDom s1 d fun u => { u with setB := true }
  let s3 := addCnt s2 SEL.SWITCH_CNT 0 d 1
  let s4 := journalPg s3 0x041 (some d) .sel d
    (best + 16 * cur + 256 * (if best = 0xF then 0 else rankOf s best) + 4096 * b2n sl + 65536 * d)
  let s5 := partEvt s4 d 9
  if best = 0xF then partEvt s5 d 12 else s5

/-- Stage 3: the choice of one running domain (R269). -/
def selectDom (s : State) (d : Nat) : State :=
  let best := choose s d
  let s1 := if best ≠ activeOf s d then switchTo s d best else s
  let a := activeOf s1 d
  setF s1 SEL.ACTIVE_RANK 0 d 0 (if a = 0xF then 0 else rankOf s1 a)

/-- What the SEL page shows of a channel's tests (Table 8.8). -/
def publishTests (s : State) (c : Nat) : State :=
  let bits := ((failBits s c).zipIdx.filter fun x => x.1).foldl (fun b x => b + 2 ^ x.2) 0
  setF (setF s SEL.CHAN_TEST_FAIL 0 c 0 bits) SEL.CHAN_TEST_WINDOWS 0 c 0 (min 8 (completeWins (chanOf s c).wins).length)

/-- The qualifier rows at the end of stage 2 (R257): each takes its samples 0, and closes in the last frame of
its window; the tests of the frame see the rows as they then stand (R249). -/
def qualRows (s : State) : State :=
  let s1 := (List.range 12).foldl (fun t c => activityFrame (qualSample t c) c) s
  (List.range 12).foldl stepTest (if s.frn % 1024 = 1023 then (List.range 12).foldl windowClose s1 else s1)

/-- Stage 3 (R248, R249, R269): QL timers, channel tests, the verdicts of every pair, then the choices. -/
def stage3 (s : State) : State :=
  let s1 := (List.range 12).foldl qlFrame (qualRows s)
  let s2 := (List.range 12).foldl publishTests s1
  let run := (List.range 4).filter fun d => domRuns s2 d
  let s3 := run.foldl (fun t d => (List.range 12).foldl (fun v c => pairStage v d c) t) s2
  run.foldl selectDom s3

/-! ### Meanings -/

/-- QUALIFIER_WINDOW_CLOSE (R257): in the last frame of a window every qualifier row closes and reopens. A window
that FRAME_TICK has closed already holds no sample and closes as it stands only once. -/
def execQualifierWindowClose (s : State) : Host.Outcome State Fault Refusal :=
  if s.frn % 1024 = 1023 ∧ s.phase = .running ∧
      !(s.chans.any fun u => u.wins.any fun w => decide (w.opened = s.frn - s.frn % 1024)) then
    .next ((List.range 12).foldl windowClose s)
  else .next s

/-- ACT_TIMEOUT (R260): ACT_TIMEOUT frames have passed without an edge or estimate; the channel fails NO_ACTIVITY
and loses its baseline. -/
def execActTimeout (chan : Nat) (s : State) : Host.Outcome State Fault Refusal :=
  if chan < 12 then
    if idleOut s chan then .next s
    else .next (activityChange (modChan s chan fun u => { u with idle := actTimeout s chan }) chan)
  else .refused .illFormed

/-- QL_TIMEOUT (R252): the source of a channel with a message-borne QL times out. -/
def execQlTimeout (chan : Nat) (s : State) : Host.Outcome State Fault Refusal :=
  if chan < 12 then
    if qlSrc s chan ≠ 0 ∧ (chanOf s chan).timedOut = false then .next (publishQl (qlExpire s chan) chan) else .next s
  else .refused .illFormed

/-- HOLD_OFF_EXPIRY (R263): a pair's hold-off timer reaches 0; the verdict keeps reading HOLD_OFF until 8 complete
windows exist that opened after the last failing frame. -/
def execHoldOffExpiry (dom chan : Nat) (s : State) : Host.Outcome State Fault Refusal :=
  if dom < 4 ∧ chan < 12 then
    let v := pairOf s dom chan
    if isCand s dom chan ∧ v.kind = 2 ∧ v.reason = 0xA then
      let u := chanOf s chan
      let start := (domOf s dom).start
      let after := match v.lastFail with
        | some f => winsSince u (max start (f + 1))
        | none => 0
      .next (putPair s dom chan (pairFrame s.frn [] 0 (polVal s.pol CHAN.WTR chan 0 0) (winsSince u start) after
        { v with timer := 1 }))
    else .next s
  else .refused .illFormed

/-- WTR_EXPIRY (R267): a pair's WTR timer reaches 0 and the pair qualifies. -/
def execWtrExpiry (dom chan : Nat) (s : State) : Host.Outcome State Fault Refusal :=
  if dom < 4 ∧ chan < 12 then
    let v := pairOf s dom chan
    if isCand s dom chan ∧ v.kind = 1 ∧ v.reason = 9 then .next (putPair s dom chan (pairOk v)) else .next s
  else .refused .illFormed

/-- SLEW_DONE (R277): SLEW_LEFT of a slewing domain reaches 0. -/
def execSlewDone (dom : Nat) (s : State) : Host.Outcome State Fault Refusal :=
  if dom < 4 then
    if getF s SEL.ACTIVE_SLEWING 0 dom 0 = 1 then .next (slewEnd s dom) else .next s
  else .refused .illFormed

end Sys2Proof.Machine
end

