-- ==== Sys2Proof/Machine/Domain.lean ====
section
/-! DEFINITION. Domains (R284 to R321): phase detection, loop filter, slews, states, holdover history, Dusk and
bridging. Real quantities are rational numbers; square roots and pi are rational approximations and stored loop
values are rounded to 2^-128 (notes/assumptions 7). -/

namespace Sys2Proof.Machine

/-! ### Arithmetic -/

/-- Integer square root of a number below 4^n, by bits. -/
def isqrtBits : Nat → Nat → Nat → Nat
  | 0, _, r => r
  | n + 1, x, r => isqrtBits n x (if (r + 2 ^ n) * (r + 2 ^ n) ≤ x then r + 2 ^ n else r)

/-- Square root of a non-negative rational to 2^-96 (notes/assumptions 7). -/
def sqrtR (x : Rat) : Rat :=
  if x ≤ 0 then 0 else ((isqrtBits 256 (x * ((2 ^ 192 : Nat) : Rat)).floor.toNat 0 : Nat) : Rat) / ((2 ^ 96 : Nat) : Rat)

/-- Pi to 30 decimals (notes/assumptions 7). -/
def piR : Rat := 3141592653589793238462643383279 / 1000000000000000000000000000000

/-- Round to a multiple of 2^-128 (notes/assumptions 7). -/
def fine (x : Rat) : Rat := (roundAway (x * ((2 ^ 128 : Nat) : Rat)) : Rat) / ((2 ^ 128 : Nat) : Rat)

/-! ### What a domain reads -/

/-- The state code of a domain: OFF while its partition is closed (R284, Table 9.2). -/
def domState (s : State) (d : Nat) : Nat := if isOpen s d then get1 s DPLL.STATUS_STATE d else 7

/-- ACQUIRING or LOCKED. -/
def following (s : State) (d : Nat) : Bool := domState s d == 1 || domState s d == 2

/-- The ageing figure that Dusk uses, in 10^-18 per s (R314). -/
def ageingOf (s : State) : Nat :=
  if bit1 s FRAME.TB_SRC 0 then polVal s.pol OSC.EXT_AGEING 0 0 0 else if Config.gradeH then 347 else 2894

/-- The feedback increment of a domain's frame (R286). -/
def fbInc (s : State) (d : Nat) : Option Int :=
  match (funcOf s (10 + d)).inc with
  | some (.val x) => some x
  | _ => none

/-- Whether FBd holds no lane (R173, R301). -/
def fbNoLane (s : State) (d : Nat) : Bool := (laneFor s (10 + d)).isNone

/-- Whether the active channel delivers a valid sample 0 or an estimate in the frame (R290). -/
def refValid (s : State) (d : Nat) : Bool :=
  let c := activeOf s d
  if c = 0xF then false
  else if 10 ≤ c then (pktOf s (c - 10)).got
  else match sample0 s c with
    | some (.val _) => true
    | _ => false

/-- Oven warm-up with the OCXO measuring (R306). -/
def warming (s : State) : Bool := bit1 s OSC.STATUS_WARMUP 0 && !bit1 s FRAME.TB_SRC 0

/-- LSB of 2^-9 ns in the counter's unit. -/
def lsbUnit : Rat := ((2 ^ 55 : Nat) : Rat)

/-- TIMEd at the feedback edge `x` LSB into the acquisition interval, in units of 2^-64 ns: the edge is a cycle of the VCO, and
each cycle adds the same (R326, R353). Where TIMEd did not count cycles it ran evenly (R354). -/
def timeAtFb (s : State) (d : Nat) (x : Rat) : Rat :=
  let u := timeOf s d
  let part := if u.cyc = 0 then x / frameLsb else (roundAway (x * (u.cyc : Rat) / frameLsb) : Rat) / (u.cyc : Rat)
  (u.t : Rat) - (u.span : Rat) * (1 - part)

/-- TIMEd at a time within the acquisition interval, in units of 2^-64 ns, interpolated from the feedback's sample-0 edge (R288),
on the time in effect after the boundary that closed it. -/
def timeAt (s : State) (d : Nat) (x : Rat) : Rat :=
  let y := ((funcOf s (10 + d)).t0).getD x
  timeAtFb s d y + (x - y) * lsbUnit

/-- TIMEd at tick `f` on the time in effect, in LSB: the spans of the intervals since then taken off the latest tick
(R412); before the ticks kept, the last span known stands for each frame. -/
def timeAtTick (s : State) (d f : Nat) : Rat :=
  let u := timeOf s d
  let n := s.frn - f
  let known := (u.ticks.take n).map fun x => (x.2 : Rat)
  ((u.t : Rat) - known.foldl (· + ·) 0 - ((n - known.length : Nat) : Rat) * (u.span : Rat)) / lsbUnit

/-- TIMEd at the tick of a packet channel's latest estimate less the estimate, in LSB (R412). -/
def pktErr (s : State) (d c : Nat) : Rat :=
  let u := pktOf s (c - 10)
  timeAtTick s d (u.fe.getD s.frn) - u.m

/-- Reduce modulo P into -P/2 up to, but not including, +P/2 (R288). -/
def wrapP (p x : Rat) : Rat := if p ≤ 0 then x else x - p * (((x + p / 2) / p).floor : Rat)

/-- OFFSET in effect in LSB. -/
def offsetOf (s : State) (d : Nat) : Rat := ((domOf s d).offset : Rat)

/-- The phase of the active channel and of the feedback as the detector keeps them (R286, R289). -/
def phiDiff (s : State) (d c : Nat) : Rat :=
  if c < 10 then ((funcOf s c).phi : Rat) - ((funcOf s (10 + d)).phi : Rat) else pktErr s d c

/-- The phase error before B (R287 to R289): FREQ relative; ALIGN and PKT absolute. -/
def rawErr (s : State) (d c : Nat) : Rat :=
  if (domOf s d).mode = 0 then phiDiff s d c
  else if c < 10 then
    match (funcOf s c).t0, funcPeriod s c with
    | some x, some p => wrapP p (timeAt s d x / lsbUnit - offsetOf s d)
    | _, _ => (domOf s d).e
  else pktErr s d c - offsetOf s d

/-! ### Loop filter (R291 to R296) -/

/-- BW in 0.1 mHz as the loop may use it (R293): the page's BW, one twentieth of the update rate, 0.5 Hz in PKT. -/
def bwEff (s : State) (d : Nat) : Rat :=
  let bw : Rat := get1 s DPLL.BW d
  let c := activeOf s d
  let rate : Rat :=
    if !following s d || c = 0xF then 8000
    else if c < 10 then (if nomFreq s c < 8000 then nomFreq s c else 8000)
    else (let g := (pktOf s (c - 10)).gap; if g = 0 then 8000 else 8000 / (g : Rat))
  let m := if rate * 500 < bw then rate * 500 else bw
  if (domOf s d).mode = 2 ∧ 5000 < m then 5000 else m

/-- Damping factor: ZETA in units of 1/256. -/
def zetaOf (s : State) (d : Nat) : Rat := (get1 s DPLL.DAMP d : Rat) / 256

/-- Natural frequency times the update interval (R292). -/
def omegaT (s : State) (d : Nat) : Rat :=
  let z := zetaOf s d
  let a := 1 + 2 * z * z
  let q := sqrtR (a + sqrtR (a * a + 1))
  if q = 0 then 0 else 2 * piR * (bwEff s d / 10000) / q * (((domOf s d).gap : Rat) / 8000)

/-- Kp and Ki (R292). -/
def kpOf (s : State) (d : Nat) : Rat := 2 * zetaOf s d * omegaT s d
def kiOf (s : State) (d : Nat) : Rat := omegaT s d * omegaT s d

/-- Report the loop's bandwidth and gains (R292, R293), the gains rounded to the nearest unit. -/
def publishGains (s : State) (d : Nat) : State :=
  let b := bwEff s d
  let s1 := set1 (set1 s DPLL.BW_EFF d b.floor.toNat) DPLL.STATUS_BW_CLAMP d (b2n (decide (b < (get1 s DPLL.BW d : Rat))))
  let ki := (kiOf s d * ((2 ^ 64 : Nat) : Rat) + 1 / 2).floor.toNat
  set1 (set1 (set1 s1 DPLL.KP d (kpOf s d * ((2 ^ 32 : Nat) : Rat) + 1 / 2).floor.toNat) DPLL.KI_LO d ki) DPLL.KI_HI d (ki / 2 ^ 32)

/-- One update of the loop filter with the error `e - R` and the frames since the last update (R291, R294). -/
def loopUpdate (s : State) (d : Nat) (err : Rat) (g : Nat) : State :=
  let s0 := publishGains (modDom s d fun u => { u with gap := max 1 g }) d
  let u := domOf s0 d
  let x := err / (((max 1 g : Nat) : Rat) * frameLsb)
  let yI := fine (u.yI - kiOf s0 d * x)
  let y := fine (yI - kpOf s0 d * x)
  let lim : Rat := (u.pull : Rat) / 1000000000
  let clamp := decide (lim < absR y)
  let y1 := if clamp then (if 0 < y then lim else -lim) else y
  let s1 := modDom s0 d fun v => { v with yI := if clamp then v.yI else yI, y := y1, lastUpd := s.frn, err := err }
  let s2 := evtIf (clamp && !bit1 s DPLL.STATUS_PULL_CLAMP d) (set1 s1 DPLL.STATUS_PULL_CLAMP d (b2n clamp)) .dpll d 4
  set1 s2 DPLL.PHASE_ERR d (satSigned 32 (roundAway err))

/-- The remaining offset is 0: a switch's slew ends with SLEW_DONE (R277), any other in silence. -/
def slewOver (s : State) (d : Nat) : State :=
  if getF s SEL.ACTIVE_SLEWING 0 d 0 = 1 then slewEnd s d else slewClear s d

/-- Move the remaining offset toward 0 by the slope limit (R298); at 0 the slew ends (R277). -/
def slewFrame (s : State) (d : Nat) : State :=
  let u := domOf s d
  if u.slewWait || u.acqFirst || u.slew = 0 then s
  else
    let st : Rat := (get1 s DPLL.SLOPE d : Rat) * 64 / 10000
    let r := if absR u.slew ≤ st then 0 else if 0 < u.slew then u.slew - st else u.slew + st
    if r = 0 then slewOver (modDom s d fun v => { v with slew := 0 }) d
    else setF (modDom s d fun v => { v with slew := r }) SEL.SLEW_LEFT 0 d 0 (satSigned 32 (truncR r))

/-! ### Policy fields that wait (R297) -/

/-- Take the policy's MODE, PULL and OFFSET. -/
def applyCfg (s : State) (d : Nat) : State :=
  set1 (modDom s d fun u =>
    { u with mode := get1 s DPLL.MODE d, pull := get1 s DPLL.PULL d, offset := toSigned 32 (get1 s DPLL.OFFSET d) })
    DPLL.STATUS_CFG_PEND d 0

/-- The store keeps the latest HIST_LEN segments (R307). -/
def keepSegs (s : State) (d : Nat) : State :=
  let s1 := modDom s d fun u => { u with segs := u.segs.drop (u.segs.length - get1 s DPLL.HOLD_CFG_HIST_LEN d) }
  set1 s1 DPLL.HIST_SEGS d (domOf s1 d).segs.length

/-- At a commit, MODE, PULL and OFFSET wait while the domain follows; the other fields apply (R297). -/
def commitCfg (s : State) (d : Nat) : State :=
  let u := domOf s d
  let differ := u.mode ≠ get1 s DPLL.MODE d ∨ u.pull ≠ get1 s DPLL.PULL d ∨ u.offset ≠ toSigned 32 (get1 s DPLL.OFFSET d)
  let s1 := keepSegs s d
  if following s d then set1 s1 DPLL.STATUS_CFG_PEND d (if differ then 1 else 0) else applyCfg s1 d

/-! ### Dusk (R311 to R316) -/

/-- Ageing as a rate per second. -/
def ageRate (s : State) (d : Nat) : Rat := ((domOf s d).ageing : Rat) / 1000000000000000000

/-- The bound `t` seconds after entry: ns in ALIGN and PKT, 10^-12 in FREQ (R311, R312). -/
def duskBoundAt (s : State) (d : Nat) (t : Rat) : Rat :=
  let u := domOf s d
  if u.mode = 0 then (u.f0 + ageRate s d * t) * 1000000000000
  else u.a0 + (u.f0 * t + ageRate s d * t * t / 2) * 1000000000

/-- Seconds since entry to HOLDOVER. -/
def sinceEntry (s : State) (d : Nat) : Rat := ((s.frn - (domOf s d).entry : Nat) : Rat) / 8000

/-- The budget (R311, R312). -/
def budgetOf (s : State) (d : Nat) : Rat := (get1 s DPLL.BUDGET d : Rat)

/-- Seconds from entry until the bound reaches the budget, or none when it never does (R313). -/
def duskTime (s : State) (d : Nat) : Option Rat :=
  let u := domOf s d
  let dd := ageRate s d
  if u.mode = 0 then
    if dd = 0 then (if u.f0 * 1000000000000 ≤ budgetOf s d then none else some 0)
    else some ((budgetOf s d / 1000000000000 - u.f0) / dd)
  else
    let rest := (budgetOf s d - u.a0) / 1000000000
    if dd = 0 then (if u.f0 = 0 then none else some (rest / u.f0))
    else if rest < 0 then some 0
    else some ((sqrtR (u.f0 * u.f0 + 2 * dd * rest) - u.f0) / dd)

/-- Whole seconds until the budget is reached, as DUSK_LEFT reads them (R313). -/
def duskLeft (s : State) (d : Nat) : Nat :=
  match duskTime s d with
  | none => 0xFFFFFFFF
  | some t => satTo 0xFFFFFFFE (t - sinceEntry s d).floor.toNat

/-- Whether the bound exceeds the budget in the frame in progress (Table 9.3, row 6). With f0 and D both 0 Dusk
never moves the domain (R313). -/
def duskOver (s : State) (d : Nat) : Bool :=
  let u := domOf s d
  !(decide (u.f0 = 0) && decide (u.ageing = 0)) && decide (budgetOf s d < duskBoundAt s d (sinceEntry s d))

/-- f0 from what the entry found under the fields in effect (R308, R309, R315). -/
def f0Of (s : State) (d : Nat) : Rat :=
  let u := domOf s d
  if u.fbEntry then 1 / 1000000
  else if u.nElig < 8 then (get1 s DPLL.F0_SHORT d : Rat) / 1000000000000000
  else (get1 s DPLL.F0_FLOOR d : Rat) / 1000000000000000 + 2 * u.sdev / sqrtR (u.nElig : Rat)

/-- The segments eligible at a frame (R308). -/
def eligible (s : State) (d : Nat) : List Seg :=
  (domOf s d).segs.filter fun g => decide (g.frn + get1 s DPLL.HOLD_CFG_EXCL_S d * 8000 ≤ s.frn)

/-- Sample standard deviation (R308). -/
def sampleDev (ys : List Rat) : Rat :=
  let m : Rat := (ys.length : Rat)
  let mean := ys.foldl (· + ·) 0 / m
  sqrtR ((ys.map fun y => (y - mean) * (y - mean)).foldl (· + ·) 0 / (m - 1))

/-- Report the present bound and the time left. -/
def publishDusk (s : State) (d : Nat) : State :=
  set1 (set1 s DPLL.DUSK_BOUND d (satTo 0xFFFFFFFF (duskBoundAt s d (sinceEntry s d)).floor.toNat)) DPLL.DUSK_LEFT d (duskLeft s d)

/-- Recompute the bound from the entry values of a0 and s (R316, R554). -/
def duskRecompute (s : State) (d : Nat) : State :=
  if domState s d = 3 then
    publishDusk (modDom s d fun u => { u with f0 := f0Of s d, ageing := ageingOf s }) d
  else s

/-! ### States (R300 to R304) -/

/-- A domain changes from a state to another (R304). -/
def domChanged (s : State) (d old new left : Nat) : State :=
  let s1 := set1 (set1 s DPLL.STATUS_STATE d new) DPLL.STATE_FRN d s.frn
  let s2 := evt s1 .dpll d 0
  let s3 := if new = 3 then addCnt (evt s2 .dpll d 1) DPLL.HOLD_CNT d 0 1 else if new = 4 then evt s2 .dpll d 2 else s2
  let s4 := if old = 2 ∧ new = 1 then addCnt s3 DPLL.UNLOCK_CNT d 0 1 else s3
  journalPg s4 0x050 (some d) .dpll d
    (new + 8 * old + 64 * d + 256 * get1 s4 DPLL.STATUS_FB_LOST d + 512 * get1 s4 DPLL.STATUS_HIST_SHORT d + 65536 * left)

/-- A domain changes its state. -/
def setDomState (s : State) (d new left : Nat) : State := domChanged s d (domState s d) new left

/-- Entry to ACQUIRING (R287, R297, R299, R301 rows 4, 5 and 7). -/
def enterAcquiring (s : State) (d : Nat) : State :=
  let fresh := domState s d = 0 ∧ (domOf s d).mode = 0
  let s1 := applyCfg (setDomState s d 1 0) d
  let s2 := set1 (set1 s1 DPLL.DUSK_LEFT d 0xFFFFFFFF) DPLL.DUSK_BOUND d 0
  modDom s2 d fun u =>
    { u with setB := true, e := if fresh then 0 else u.e, acqFirst := u.mode != 0, halted := 0,
             lockFrom := some s.frn, slewWait := false }

/-- Entry to HOLDOVER (R308 to R311, R315). -/
def enterHoldover (s : State) (d : Nat) : State :=
  let s0 := applyCfg s d
  let u := domOf s0 d
  let el := eligible s0 d
  let ys := el.map fun g => g.y
  let n := ys.length
  let yh := if n = 0 then u.yI else ys.foldl (· + ·) 0 / (n : Rat)
  let s1 := set1 s0 DPLL.STATUS_HIST_SHORT d (b2n (decide (n < 8)))
  let a0 := if u.mode = 0 then 0 else (absR u.err + absR u.slew + absR u.halted) / 512
  let s2 := modDom s1 d fun v =>
    { v with yHold := yh, sdev := if n < 8 then 0 else sampleDev ys, nElig := n, a0 := a0, entry := s.frn, ageing := ageingOf s,
             fbEntry := bit1 s DPLL.STATUS_FB_LOST d, halted := 0, setB := true, segOk := false, lockFrom := none, acqFirst := false, phiSyn := 0 }
  let s3 := slewClear (modDom s2 d fun v => { v with f0 := f0Of s2 d }) d
  let v := domOf s3 d
  let y48 := satSigned 48 (roundAway (yh * ((2 ^ 48 : Nat) : Rat)))
  let s4 := set1 (set1 s3 DPLL.HOLD_FREQ_LO d y48) DPLL.HOLD_FREQ_HI d (y48 / 2 ^ 32)
  let s5 := set1 (set1 s4 DPLL.HOLD_F0 d (satTo 0xFFFFFFFF (roundAway (v.f0 * 1000000000000000)).toNat)) DPLL.HOLD_A0 d
    (satTo 0xFFFFFFFF (roundAway (a0 * 512)).toNat)
  let s6 := publishDusk (set1 s5 DPLL.ENTRY_FRN d s.frn) d
  setDomState s6 d 3 (satTo 0xFFFF (duskLeft s6 d / 60))

/-- Entry to LOST (R301 row 6, R317). -/
def enterLost (s : State) (d : Nat) : State := setDomState (set1 s DPLL.DUSK_LEFT d 0) d 4 0

/-- FBd loses its lane (R303): FB_LOST latches and is raised once. -/
def fbLost (s : State) (d : Nat) : State :=
  if fbNoLane s d && !bit1 s DPLL.STATUS_FB_LOST d then evt (set1 s DPLL.STATUS_FB_LOST d 1) .dpll d 5 else s

/-- Rows 2 to 6 of Table 9.3: the state after the choice of stage 3 and whether a transition was made. -/
def transition (s : State) (d : Nat) : State × Bool :=
  let st := domState s d
  let some' := activeOf s d ≠ 0xF
  let fb := bit1 s DPLL.STATUS_FB_LOST d
  if (st = 1 ∨ st = 2) ∧ fb then (enterHoldover s d, true)
  else if (st = 1 ∨ st = 2) ∧ !some' then (enterHoldover s d, true)
  else if (st = 0 ∨ st = 3 ∨ st = 4) ∧ some' ∧ !fb then (enterAcquiring s d, true)
  else if st = 3 ∧ duskOver s d then (enterLost s d, true)
  else (s, false)

/-- LOCK_S in frames. -/
def lockFrames (s : State) (d : Nat) : Nat := get1 s DPLL.LOCK_LOCK_S d * 8000

/-- Whether the lock count is complete in the frame in progress (R302). -/
def lockCrit (s : State) (d : Nat) : Bool :=
  let u := domOf s d
  match u.lockFrom with
  | none => false
  | some f => decide (f + lockFrames s d ≤ s.frn + 1) && !u.acqSlew && !u.acqFirst &&
      get1 s DPLL.STATUS_PULL_CLAMP d == 0 && get1 s DPLL.STATUS_BRIDGING d == 0

/-- ACQUIRING to LOCKED (R301 row 8). -/
def enterLocked (s : State) (d : Nat) : State := setDomState s d 2 0

/-! ### Bridging (R318, R319) -/

/-- Whether the APLL keeps the domain bridging: coasting, or a retune that has not locked (R318, R328). -/
def apllBridges (s : State) (d : Nat) : Bool :=
  bit1 s APLL.STATUS_COAST d || retuning s d

/-- The frame of the latest move that concerns a domain's bridge: its feedback's, and its active channel's while it
follows one (R318, R319). -/
def bridgeMove (s : State) (d : Nat) : Option Nat :=
  let a := (funcOf s (10 + d)).moved
  let c := activeOf s d
  let b := if following s d && decide (c < 10) then (funcOf s c).moved else none
  match a, b with
  | some x, some y => some (max x y)
  | some x, none => some x
  | none, y => y

/-- Start a bridge for the given causes (R318). -/
def bridgeStart (s : State) (d : Nat) (lane apll : Bool) : State :=
  let was := bit1 s DPLL.STATUS_BRIDGING d
  let s1 := modDom s d fun u =>
    { u with brLane := u.brLane || lane, brApll := u.brApll || apll, brEnd := if lane then s.frn + 8 else u.brEnd,
             segOk := false }
  if was then s1 else addCnt (evt (set1 s1 DPLL.STATUS_BRIDGING d 1) .dpll d 3) DPLL.BRIDGE_CNT d 0 1

/-- End a bridge (R319): FREQ mode and the synthetic loop set B anew. -/
def bridgeStop (s : State) (d : Nat) : State :=
  set1 (modDom s d fun u => { u with brLane := false, brApll := false, setB := true }) DPLL.STATUS_BRIDGING d 0

/-- Whether the bridge's causes have all ended (R319): the lanes deliver valid increments after the calibration
frames, and the APLL has relocked. A feedback left without a lane, and a choice of none, deliver nothing to wait for (DEDUCED,
notes/assumptions 40). -/
def bridgeOver (s : State) (d : Nat) : Bool :=
  let u := domOf s d
  let ref := !following s d || activeOf s d == 0xF || refValid s d
  let lanes := !u.brLane || fbNoLane s d || (decide (u.brEnd < s.frn) && (fbInc s d).isSome && ref)
  lanes && !apllBridges s d

/-- The bridge of one frame. -/
def bridgeFrame (s : State) (d : Nat) : State :=
  let lane := decide (bridgeMove s d = some s.frn)
  let apll := apllBridges s d
  let s1 := if lane || (apll && !(domOf s d).brApll) then bridgeStart s d lane apll else s
  if bit1 s1 DPLL.STATUS_BRIDGING d && bridgeOver s1 d then bridgeStop s1 d else s1

/-! ### History (R307) -/

/-- A segment closes in its last frame and is stored if it qualifies, having begun under the length in effect (R307). -/
def closeSegment (s : State) (d : Nat) : State :=
  let u := domOf s d
  let len := get1 s DPLL.HOLD_CFG_SEG_S d * 8000
  let y : Rat := -(u.segSum : Rat) / ((len : Rat) * frameLsb)
  let s1 := modDom s d fun v =>
    { v with segOk := false, segSum := 0,
             segs := if u.segOk && u.segLen == len then v.segs ++ [(⟨s.frn, y⟩ : Seg)] else v.segs }
  keepSegs s1 d

/-- Whether the frame in progress is the last of a history segment. -/
def segmentEnds (s : State) (d : Nat) : Bool :=
  let len := get1 s DPLL.HOLD_CFG_SEG_S d * 8000
  decide (0 < len) && (s.frn + 1) % len == 0

/-- One frame of the history row (R307). -/
def historyFrame (s : State) (d : Nat) : State :=
  let len := get1 s DPLL.HOLD_CFG_SEG_S d * 8000
  let good := domState s d = 2 ∧ (domOf s d).slew = 0 ∧ get1 s DPLL.STATUS_BRIDGING d = 0 ∧ (fbInc s d).isSome ∧ !warming s
  let s1 := modDom s d fun u =>
    let v := if s.frn % len = 0 then { u with segSum := 0, segOk := true, segLen := len } else u
    { v with segSum := v.segSum + (fbInc s d).getD 0, segOk := v.segOk && decide good }
  let s2 := if segmentEnds s d then closeSegment s1 d else s1
  set1 s2 DPLL.HIST_ELIGIBLE d (satTo 255 (eligible s2 d).length)

/-! ### Stage 4 -/

/-- Data bits of TIME_STEP and STEP_REFUSED (Table 11.3); `mag`: the magnitude field, or the cause. -/
def stepData (src : Nat) (delta : Rat) (slewed : Bool) (cause : Option Nat) : Nat :=
  let ns := absR delta
  let ms := decide (16777216 ≤ ns)
  let mag := satTo 0xFFFFFF (if ms then ns / 1000000 else ns).floor.toNat
  src + 8 * b2n (decide (delta < 0)) + 16 * b2n ms + 32 * b2n slewed + 256 * cause.getD mag

/-- A request carried as a slew is recorded (R363). -/
def slewRecord (s : State) (d src : Nat) (delta : Rat) : State :=
  journalPg (set1 s TIME.STEP_LIM_LAST_SRC d src) 0x060 (some (ownerOf s .time d)) .time d (stepData src delta true none)

/-- The first error after entry to ACQUIRING in ALIGN or PKT mode (R299): a step of the whole nanoseconds at the
next boundary with the remainder slewed, or a slew of it all. -/
def firstError (s : State) (d : Nat) (e : Rat) : State :=
  let ns := truncR (e / 512)
  let big := decide ((get1 s TIME.STEP_CFG_THRESH d : Rat) < absR e / 512)
  let back := 0 < ns
  let may := !(decide back && bit1 s TIME.STEP_CFG_NO_BACKSTEP d)
  let r := if big && may then e - (ns : Rat) * 512 else e
  let s1 := modDom s d fun u =>
    { u with e := e, slew := r, acqFirst := false, slewWait := false, acqSlew := decide (r ≠ 0), reqSlew := false,
             acqStep := if big && may then some (-(ns : Rat)) else none }
  let s2 := setF s1 SEL.SLEW_LEFT 0 d 0 (satSigned 32 (truncR r))
  let s3 := if (big && may) || decide (e = 0) then s2 else slewRecord s2 d 1 (-e / 512)
  if r = 0 then slewOver s3 d else s3

/-- In the frame of a build-out, of an entry to ACQUIRING and of the end of a bridge, B is set so that e keeps its value (R275,
R287). -/
def takeB (s : State) (d : Nat) : State :=
  let u := domOf s d
  if u.setB && u.mode == 0 && following s d && activeOf s d != 0xF then
    modDom s d fun v => { v with b := phiDiff s d (activeOf s d) - v.e, setB := false }
  else s

/-- The phase error of the frame before R: against the active channel (R287 to R289), or the synthetic reference (R310). -/
def errNow (s : State) (d : Nat) : Rat :=
  let u := domOf s d
  if following s d then rawErr s d (activeOf s d) - (if u.mode = 0 then u.b else 0)
  else u.phiSyn - ((funcOf s (10 + d)).phi : Rat) - u.b

/-- An update on the active channel (R287 to R290, R298). What a step asked for takes of the first error is not left to the
loop (R299; DEDUCED, notes/assumptions 41). -/
def refUpdate (s : State) (d : Nat) : State :=
  let u := domOf s d
  let e := errNow s d
  let s1 := modDom s d fun v => { v with e := e }
  if u.acqFirst then loopUpdate (firstError s1 d e) d 0 (s.frn - u.lastUpd)
  else
    let s2 := if u.slewWait then
        setF (modDom s1 d fun v => { v with slew := e, slewWait := false, reqSlew := false }) SEL.SLEW_LEFT 0 d 0 (satSigned 32 (truncR e))
      else s1
    let s3 := if u.slewWait && decide (e = 0) then slewOver s2 d else s2
    loopUpdate s3 d (e - (domOf s2 d).slew) (s.frn - u.lastUpd)

/-- An update on the synthetic reference, in every frame (R310). -/
def synUpdate (s : State) (d : Nat) : State :=
  let u := domOf s d
  let ysyn := if domState s d = 0 then 0 else u.yHold
  let phi := fine (u.phiSyn - ysyn * frameLsb)
  let s1 := modDom s d fun v =>
    { v with phiSyn := phi, setB := false, b := if v.setB then phi - ((funcOf s (10 + d)).phi : Rat) - v.e else v.b }
  let e := errNow s1 d
  loopUpdate (modDom s1 d fun v => { v with e := e }) d (e - u.slew) (s.frn - u.lastUpd)

/-- While the APLL coasts the loop is held, and the drift of its VCO shows in PHASE_ERR (R332). -/
def coastFrame (s : State) (d : Nat) : State :=
  if bit1 s APLL.STATUS_COAST d && (fbInc s d).isSome && (!following s d || refValid s d) then
    set1 s DPLL.PHASE_ERR d (satSigned 32 (roundAway (errNow s d - (domOf s d).slew)))
  else s

/-- The lock count of an ACQUIRING domain (R302): a bridge neither advances nor restarts it (R318). -/
def lockCount (s : State) (d : Nat) (updated : Bool) : State :=
  let u := domOf s d
  let out := updated && decide ((get1 s DPLL.LOCK_LOCK_WIN d : Rat) < absR u.err)
  if domState s d ≠ 1 then s
  else if bit1 s DPLL.STATUS_BRIDGING d then modDom s d fun v => { v with lockFrom := v.lockFrom.map fun f => f + 1 }
  else if bit1 s DPLL.STATUS_PULL_CLAMP d || out then modDom s d fun v => { v with lockFrom := some (s.frn + 1) }
  else s

/-- LOCKED to ACQUIRING (Table 9.3, row 7): the frame's error is the first after the entry where the frame is an update (R299),
and the lock count begins with the next frame. -/
def lockBroken (s : State) (d : Nat) (updated : Bool) : State :=
  let mode := (domOf s d).mode
  let s1 := takeB (modDom (enterAcquiring s d) d fun v => { v with lockFrom := some (s.frn + 1) }) d
  if updated && mode == (domOf s1 d).mode && (domOf s1 d).acqFirst then firstError s1 d (domOf s1 d).e else s1

/-- Rows 7 and 8 of Table 9.3 (R301). -/
def lockMove (s : State) (d : Nat) (updated : Bool) : State :=
  let u := domOf s d
  let out := updated && !u.stepped && decide (4 * (get1 s DPLL.LOCK_LOCK_WIN d : Rat) < absR u.err)
  if domState s d = 2 then (if bit1 s DPLL.STATUS_PULL_CLAMP d || out then lockBroken s d updated else s)
  else if domState s d = 1 ∧ updated ∧ lockCrit s d then enterLocked s d
  else s

/-- The domain's clock rank (R273). -/
def clockRank (s : State) (d : Nat) : Nat :=
  match domState s d with
  | 1 | 2 => getF s SEL.ACTIVE_RANK 0 d 0
  | 3 => getF s SEL.DPOL_HOLD_RANK 0 d 0
  | 4 => getF s SEL.DPOL_LOST_RANK 0 d 0
  | _ => getF s SEL.DPOL_FREE_RANK 0 d 0

/-- Whether stage 3 of the frame in progress has changed the domain's channel. -/
def switched (s : State) (d : Nat) : Bool := getF s SEL.ACTIVE_FRN 0 d 0 == s.frn % 2 ^ 32 && activeOf s d != 0xF

/-- Whether domain d is in a bridge. -/
def bridging (s : State) (d : Nat) : Bool := bit1 s DPLL.STATUS_BRIDGING d

/-- The transition of a frame (Table 9.3), and whether there was one: a bridge keeps the state (R318). -/
def domMove (s : State) (d : Nat) : State × Bool := if bridging s d then (s, false) else transition s d

/-- Whether the frame gives the loop an update (R287, R290, R310). -/
def updates (s : State) (d : Nat) : Bool :=
  !bridging s d && !bit1 s DPLL.STATUS_FB_LOST d && (!following s d || ((fbInc s d).isSome && refValid s d))

/-- The loop's part of a frame (R290, R310, R332). -/
def domUpdate (s : State) (d : Nat) : State :=
  if bridging s d then coastFrame s d
  else if !updates s d then s
  else if following s d then refUpdate s d
  else synUpdate s d

/-- The bound of a domain in HOLDOVER or LOST (R311, R313). -/
def duskFrame (s : State) (d : Nat) : State :=
  if domState s d = 3 then publishDusk s d
  else if domState s d = 4 then
    set1 s DPLL.DUSK_BOUND d (satTo 0xFFFFFFFF (duskBoundAt s d (sinceEntry s d)).floor.toNat)
  else s

/-- Stage 4 for one running domain. -/
def domFrame (s : State) (d : Nat) : State :=
  let r := domMove (bridgeFrame (fbLost (set1 s DPLL.STATUS_WARMUP d (b2n (warming s))) d) d) d
  let s1 := takeB (if r.2 || switched r.1 d then publishGains r.1 d else r.1) d
  let s2 := lockCount (slewFrame (domUpdate s1 d) d) d (updates s1 d)
  let s3 := if r.2 || bridging s1 d then s2 else lockMove s2 d (updates s1 d)
  let s4 := modDom (duskFrame (historyFrame s3 d) d) d fun u => { u with stepped := false }
  setF s4 SEL.ACTIVE_CLOCK_RANK 0 d 0 (clockRank s4 d)

/-- Stage 4 (Table 2.1). -/
def stage4 (s : State) : State :=
  (List.range 4).foldl (fun t d => if domRuns t d then domFrame t d else t) s

/-- A domain starts in FREE_RUN, or OFF while its partition is closed (R38, R266, R300, R307, R542): loop, history, verdicts and choice begin anew. -/
def startDom (s : State) (d : Nat) : State :=
  let s1 := modDom s d fun _ => { start := s.frn, lastUpd := s.frn }
  let s2 := { s1 with pairs := s1.pairs.modify d fun l => l.map fun _ => {} }
  let s3 := [SEL.ACTIVE_CHAN, SEL.ACTIVE_RANK, SEL.ACTIVE_SLEWING, SEL.ACTIVE_FROM, SEL.ACTIVE_CLOCK_RANK, SEL.ACTIVE_FRN,
    SEL.SLEW_LEFT].foldl (fun t f => setF t f 0 d 0 f.reset) s2
  let s4 := applyCfg (set1 s3 DPLL.STATUS_STATE d (if isOpen s d then 0 else 7)) d
  setF s4 SEL.ACTIVE_CLOCK_RANK 0 d 0 (getF s4 SEL.DPOL_FREE_RANK 0 d 0)

/-! ### Meanings -/

/-- The domains whose bridge waits for a lane moved in the frame bridge on their last frequency (R170, R318). -/
def bridgeMoved (s : State) : State :=
  (List.range 4).foldl (fun t d => if domRuns t d && bridgeMove t d == some t.frn then bridgeStart t d true false else t) s

/-- LANE_CALIBRATION (R165, R166): a lane's calibration pair in one of its calibration frames; a fault found
moves the lane's function in the frame, and its domain bridges (R168, R170). Outside a calibration frame, or on a faulted
lane, nothing is timed. -/
def execLaneCalibration (r : CalResult) (s : State) : Host.Outcome State Fault Refusal :=
  if r.lane < 18 then
    if calibrates s r.lane then
      let c := calibrate s r.lane r.result r.codeBad
      match c.2 with
      | none => .next c.1
      | some k => .next (bridgeMoved (moveFaulted c.1 [(r.lane, k)]))
    else .next s
  else .refused .illFormed

/-- LOCK_ACHIEVED (R302): the lock count of an ACQUIRING domain completes. -/
def execLockAchieved (dom : Nat) (s : State) : Host.Outcome State Fault Refusal :=
  if dom < 4 then
    if domState s dom = 1 ∧ lockCrit s dom then .next (enterLocked s dom) else .next s
  else .refused .illFormed

/-- BRIDGE_END (R319): a bridge whose causes have all ended. -/
def execBridgeEnd (dom : Nat) (s : State) : Host.Outcome State Fault Refusal :=
  if dom < 4 then
    if bit1 s DPLL.STATUS_BRIDGING dom ∧ bridgeOver s dom then .next (bridgeStop s dom) else .next s
  else .refused .illFormed

/-- HISTORY_SEGMENT (R307): in the last frame of a segment of a running domain the history row closes it. -/
def execHistorySegment (dom : Nat) (s : State) : Host.Outcome State Fault Refusal :=
  if dom < 4 then
    if domRuns s dom ∧ segmentEnds s dom then .next (closeSegment s dom) else .next s
  else .refused .illFormed

/-- DUSK_EXPIRY (R311, Table 9.3 row 6): the Dusk bound of a domain in HOLDOVER exceeds the budget while no
candidate is active. -/
def execDuskExpiry (dom : Nat) (s : State) : Host.Outcome State Fault Refusal :=
  if dom < 4 then
    if domState s dom = 3 ∧ activeOf s dom = 0xF ∧ duskOver s dom then .next (enterLost s dom) else .next s
  else .refused .illFormed

/-- LOOP_BW_WRITE (R296, Table 9.6): BW and DAMP written at a boundary; a value outside its range is ignored, and
yI, y and the state are kept. -/
def loopBw (s : State) (d : Nat) (bw damp : Option Nat) : State :=
  let s1 := match bw with
    | some b => if 1 ≤ b ∧ b ≤ 250000 then set1 s DPLL.BW d b else s
    | none => s
  let s2 := match damp with
    | some z => if 64 ≤ z ∧ z ≤ 2047 then set1 s1 DPLL.DAMP d z else s1
    | none => s1
  publishGains s2 d

def execLoopBwWrite (dom : Nat) (bw damp : Option Nat) (s : State) : Host.Outcome State Fault Refusal :=
  if dom < 4 then .next (loopBw s dom bw damp) else .refused .illFormed

end Sys2Proof.Machine
end

