-- ==== Sys2Proof/Machine/Synth.lean ====
section
/-! DEFINITION. Synthesis and outputs (R322 to R351): APLLs, retune, lock and coasting, the epoch counter, integer
boundaries, output dividers, pulses, alignment, squelch, formats. Positions within an interval are counted in VCO
periods from the tick that opens it. -/

namespace Sys2Proof.Machine

/-! ### Frequencies and limits (R323 to R325, R335, R345 to R348) -/

/-- f_NOM in effect of APLLd in Hz (R324). -/
def fNom (s : State) (d : Nat) : Rat := vcoHz (apllOf s d).refsel (apllOf s d).ratio

/-- The clock frequency limit of a format at a bank supply in Hz (Table 10.3). -/
def fmtLimit (fmt bankV : Nat) : Option Rat :=
  if fmt = 2 ∨ fmt = 4 then some 1080000000
  else if fmt = 3 then some 400000000
  else if fmt = 5 then some (if bankV = 0 then 200000000 else 250000000)
  else none

/-- Whether a frequency keeps to the limit of an output's format in force. -/
def withinFmt (s : State) (n : Nat) (f : Rat) : Bool :=
  match fmtLimit (outOf s n).fmt (outOf s n).bankV with
  | none => true
  | some m => decide (f ≤ m)

/-- Whether f_NOM lies within the VCO range (R325). -/
def vcoOk (f : Rat) : Bool := decide (5400000000 ≤ f) && decide (f ≤ 6500000000)

/-- The outputs of a domain's APLL (R335). -/
def outsOf (s : State) (d : Nat) : List Nat := (List.range 10).filter fun n => outOwner s n == d

/-- RATIO as the page holds it. -/
def ratioReg (s : State) (d : Nat) : Nat := get1 s APLL.RATIO_LO d + 2 ^ 32 * get1 s APLL.RATIO_HI d

/-- Whether an APPLY passes (R325): REFSEL is not 3, f_NOM lies in range, no enabled output exceeds its limit. -/
def applyOk (s : State) (d : Nat) : Bool :=
  let r := get1 s APLL.CFG_REFSEL d
  let f := vcoHz r (ratioReg s d)
  r != 3 && vcoOk f && (outsOf s d).all fun n =>
    get1 s OUT.CTRL n == 0 || withinFmt s n (f / (get1 s OUT.DIV n : Rat))

/-- Report f_NOM in effect in kHz. -/
def publishVco (s : State) (d : Nat) : State := set1 s APLL.VCO_KHZ d (roundAway (fNom s d / 1000)).toNat

/-- P of a pulse output in ns (R346): the period code and PER_NS. -/
def perNs (code custom : Nat) : Nat :=
  match code with
  | 0 => 1000000000
  | 1 => 100000000
  | 2 => 10000000
  | 3 => 1000000
  | 4 => 125000
  | _ => custom

/-- Whether PULSE_PER, PER_NS and WIDTH_NS may stand together (R346, R347). -/
def pulseOk (code custom width : Nat) : Bool :=
  decide (code ≤ 5) && decide (1000 ≤ custom) && 1000000000 % custom == 0 && decide (4 ≤ width) &&
    decide (width + 4 ≤ perNs code custom)

/-! ### What an output should do -/

/-- Whether a standby module squelches an output (R433). -/
def stbyOff (s : State) (n : Nat) : Bool :=
  let r := get1 s SHELF.STATUS_ROLE 0
  (r == 1 || r == 3) && bitOf (polVal s.pol SHELF.STBY_SQUELCH 0 0 0) n

/-- RUN as the registers ask for it (Table 10.6): 0 OFF, 1 WAIT, 2 RUNNING, 3 HOLD, 4 SQ_LOST, 5 SQ_PF. -/
def outWant (s : State) (n : Nat) : Nat :=
  let d := outOwner s n
  let a := apllOf s d
  if get1 s OUT.STATUS_RUN n = 5 then 5
  else if get1 s OUT.CTRL n = 0 ∨ stbyOff s n ∨ s.phase = .lost then 0
  else if get1 s OUT.MODE_SQUELCH_LOST n = 1 ∧ domState s d = 4 then 4
  else if !a.powered || !a.zeroed || bit1 s APLL.STATUS_RETUNE d then 3
  else if get1 s OUT.MODE_PULSE n = 1 ∧ get1 s OUT.PALIGN_EN n = 1 ∧ (outOf s n).tau.isNone then 1
  else 2

/-- VCO periods since the latest rising edge of a clock output, at the latest tick (R337). -/
def clockPos (s : State) (n : Nat) : Nat :=
  let u := outOf s n
  (((apllOf s (outOwner s n)).e : Int) - (u.coarse : Int)).emod (max u.div 1 : Nat) |>.toNat

/-- VCO periods from the latest tick to the end of the high phase or pulse in progress; not positive when the
output is low (R336, R338). -/
def highLeft (s : State) (n : Nat) : Rat :=
  let u := outOf s n
  if u.pulse then u.busy else (u.div : Rat) / 2 - (clockPos s n : Rat)

/-- VCO periods of a time in ns (R347). -/
def nsToVco (s : State) (n : Nat) (ns : Rat) : Rat := ns * fNom s (outOwner s n) / 1000000000

/-- The output has finished its high phase or pulse `x` periods after the opening tick and holds logic 0 (R338, R339,
R343, R601). -/
def finishStop (s : State) (n : Nat) (x : Rat) : State :=
  let want := outWant s n
  let u := outOf s n
  let clockNext := get1 s OUT.MODE_PULSE n = 0
  let half : Rat := (((get1 s OUT.DIV n + 1) / 2 : Nat) : Rat)
  let gap := if u.quiet = 0 then 0 else if clockNext then x + half else max (x + nsToVco s n 4) u.space
  let again := want = 2 ∨ want = 1
  let s1 := modOut s n fun v => { v with active := false, fall := none, quiet := if again then v.quiet else 0, gap := gap }
  if want = 0 then evt (set1 s1 OUT.STATUS_RUN n 0) .out n 1
  else if want = 4 then addCnt (evt (set1 s1 OUT.STATUS_RUN n 4) .out n 2) OUT.SQUELCH_CNT n 0 1
  else if want = 2 then (if u.quiet = 2 then set1 s1 OUT.STATUS_RUN n 3 else s1)
  else set1 s1 OUT.STATUS_RUN n want

/-- Start to hold a running output after its current high phase or pulse. `quiet`: how it starts again. -/
def beginStop (s : State) (n quiet : Nat) : State :=
  match (outOf s n).fall with
  | some _ => modOut s n fun v => { v with quiet := quiet }
  | none =>
    let x := highLeft s n
    let s1 := modOut s n fun v => { v with quiet := quiet }
    if 0 < x then modOut s1 n fun v => { v with fall := some x } else finishStop s1 n x

/-- Bring an output to what its registers ask for, at a boundary (R328, R338, R343, R433). -/
def outRefresh (s : State) (n : Nat) : State :=
  let want := outWant s n
  let u := outOf s n
  let s0 := modOut s n fun v => { v with want := want, fresh := v.fresh || (want == 2 && v.want != 2) }
  if u.active then
    if want = 2 then s0
    else
      let s1 := if want = 3 then set1 s0 OUT.STATUS_RUN n 3 else s0
      beginStop s1 n 0
  else if want = 2 then s0
  else
    let s1 := if want = 1 then s0 else modOut s0 n fun v => { v with quiet := 0 }
    if want = 4 ∧ get1 s OUT.STATUS_RUN n ≠ 4 then
      addCnt (evt (set1 s1 OUT.STATUS_RUN n 4) .out n 2) OUT.SQUELCH_CNT n 0 1
    else set1 s1 OUT.STATUS_RUN n want

/-- Bring every output to what its registers ask for. -/
def outsRefresh (s : State) : State := (List.range 10).foldl outRefresh s

/-! ### Retune, lock and coasting (R325 to R332) -/

/-- An APPLY that acts at a boundary (R325, R327, R328). -/
def applyRetune (s : State) (d : Nat) : State :=
  if !(apllOf s d).powered then s
  else if !applyOk s d then evt s .apll d 5
  else
    let r := get1 s APLL.CFG_REFSEL d
    let s1 := modApll s d fun a => { a with refsel := r, ratio := ratioReg s d, zeroReq := true }
    let s2 := set1 (set1 (set1 s1 APLL.STATUS_RETUNE d 1) APLL.STATUS_EPOCH_PEND d 1) APLL.STATUS_LOCK d 0
    (outsOf s2 d).foldl outRefresh (publishVco s2 d)

/-- Journal an APLL's lock event (Table 18.3, APLL_LOCK). -/
def journalApll (s : State) (d code : Nat) : State := journalPg s 0x058 (some (ownerOf s .apll d)) .apll d code

/-- Loss of lock (R329): the tuning is held and the APLL coasts. -/
def lockLost (s : State) (d : Nat) : State :=
  let s1 := set1 (set1 s APLL.STATUS_LOCK d 0) APLL.STATUS_COAST d 1
  addCnt (journalApll (evt s1 .apll d 0) d 0) APLL.LOL_CNT d 0 1

/-- The feedback tap restarts where a retune had stopped it: the lane's baseline ends as at a move (R157, Table 10.1). -/
def fbRestart (s : State) (d : Nat) : State :=
  let f := 10 + d
  if !bit1 s APLL.STATUS_RETUNE d then s
  else
    let s1 := baseLost s f
    match laneFor s1 f with
    | none => s1
    | some n => set1 (modLane s1 n fun l => { l with host := {}, inc := {} }) LANE.STATUS_NO_BASE n 1

/-- The loop engages again after a coast (R330, R331), also of a retune made meanwhile (R328); a first lock is no relock. -/
def relockApll (s : State) (d : Nat) : State :=
  let s1 := fbRestart (set1 (set1 s APLL.STATUS_LOCK d 1) APLL.STATUS_COAST d 0) d
  if (apllOf s d).locked then journalApll (evt s1 .apll d 1) d 1
  else modApll s1 d fun a => { a with locked := true }

/-- The loop locks after a retune, or for the first time since the domain started (Table 10.1, R542). -/
def retuneLocked (s : State) (d : Nat) : State :=
  fbRestart (modApll (set1 s APLL.STATUS_LOCK d 1) d fun a => { a with locked := true }) d

/-- Loss of the jitter reference (R331). -/
def refLostAll (s : State) : State :=
  (List.range 4).foldl (fun t d =>
    let t1 := journalApll (evt (set1 t APLL.STATUS_REF_LOST d 1) .apll d 2) d 2
    if (apllOf t1 d).powered && !bit1 t1 APLL.STATUS_COAST d then lockLost t1 d else t1) { s with jrOn := false }

/-- The jitter reference returns (R331). -/
def refBack (s : State) : State :=
  (List.range 4).foldl (fun t d => journalApll (set1 t APLL.STATUS_REF_LOST d 0) d 3) { s with jrOn := true }

/-- An APLL starts with its domain (R327, R331, R542). -/
def apllStart (s : State) (d : Nat) : State :=
  let r := get1 s APLL.CFG_REFSEL d
  let s1 := modApll s d fun _ => { powered := true, refsel := r, ratio := ratioReg s d, zeroReq := true }
  let s2 := set1 (set1 (set1 s1 APLL.STATUS_LOCK d 0) APLL.STATUS_RETUNE d 0) APLL.STATUS_EPOCH_PEND d 1
  let s3 := set1 (set1 s2 APLL.STATUS_COAST d (b2n (!s.jrOn))) APLL.STATUS_REF_LOST d (b2n (!s.jrOn))
  (outsOf s3 d).foldl (fun t n => outRefresh (set1 t OUT.STATUS_DLL_LOCK n 1) n) (publishVco s3 d)

/-- The APLL of a closed partition is powered down (R327). -/
def apllStop (s : State) (d : Nat) : State :=
  let s1 := modApll s d fun a => { a with powered := false, locked := false, zeroed := false, zeroReq := false }
  [APLL.STATUS_LOCK, APLL.STATUS_COAST, APLL.STATUS_RETUNE, APLL.STATUS_EPOCH_PEND].foldl (fun t f => set1 t f d 0) s1

/-! ### The epoch counter (R333, R603) -/

/-- An EPOCH request (R333): it waits for a rollover while locked; one for a domain that does not run has no
effect. -/
def epochRequest (s : State) (d : Nat) : State :=
  if domRuns s d && (apllOf s d).powered then
    set1 (modApll s d fun a => { a with zeroReq := true }) APLL.STATUS_EPOCH_PEND d 1
  else s

/-- Whether a rollover of TIMEd zeroes E (R333). -/
def zeroDue (s : State) (d : Nat) : Bool :=
  let a := apllOf s d
  a.powered && a.zeroReq && bit1 s APLL.STATUS_LOCK d

/-- E is zeroed; `e` is its value at the latest tick. -/
def zeroEpoch (s : State) (d e : Nat) : State :=
  let s1 := modApll s d fun a => { a with e := e, zeroReq := false, zeroed := true }
  let s2 := evt (set1 (set1 s1 APLL.EPOCH_FRN d s.frn) APLL.STATUS_EPOCH_PEND d 0) .apll d 6
  if bit1 s2 APLL.STATUS_RETUNE d then evt (set1 s2 APLL.STATUS_RETUNE d 0) .apll d 3 else s2

/-- A zeroing moves the grid under a running clock output (R603): `z` periods after the opening tick, at which its
position from the latest rising edge was `pos`. An output already on the new grid is not disturbed. -/
def moveGrid (s : State) (n : Nat) (z : Rat) (pos : Nat) : State :=
  let u := outOf s n
  if !u.active || u.pulse || u.fall.isSome then s
  else if (pos + u.coarse) % max u.div 1 = 0 then s
  else modOut s n fun v => { v with fall := some (z + (u.div : Rat) / 2 - (pos : Rat)), quiet := 1 }

/-- An output's high phase or pulse that has ended stops it (R337). -/
def stopIfDue (s : State) (n : Nat) : State :=
  match (outOf s n).fall with
  | some x => if x ≤ 0 then finishStop s n x else s
  | none => s

/-- E is zeroed at the latest tick itself (SECONDS_ROLLOVER). -/
def zeroNow (s : State) (d : Nat) : State :=
  if zeroDue s d then
    let s1 := (outsOf s d).foldl (fun t n => stopIfDue (moveGrid t n 0 (clockPos s n)) n) s
    (outsOf s1 d).foldl outRefresh (zeroEpoch s1 d 0)
  else s

/-! ### An output over an interval -/

/-- How an interval runs for an APLL: its VCO periods, E at the opening tick, the period at which E is zeroed,
TIMEd at the opening tick and how far it ran, in 2^-64 ns. -/
structure Ivl where
  cyc  : Nat
  e0   : Nat
  zero : Option Nat
  t0   : Nat
  span : Nat

/-- The first rising edge of the grid at or after `lo` periods, if it falls in the interval (R337). -/
def gridEdge (v : Ivl) (div coarse lo : Nat) : Option Nat :=
  let d := max div 1
  let after := fun (e l : Nat) => l + (((coarse : Int) - (e : Int) - (l : Int)).emod (d : Int)).toNat
  let c := match v.zero with
    | none => after v.e0 lo
    | some z =>
      let a := after v.e0 lo
      if a < z then a else z + after 0 (lo - z)
  if c < v.cyc then some c else none

/-- P of an output in the counter's unit. -/
def perUnit (s : State) (n : Nat) : Nat := perNs (get1 s OUT.PULSE_PER n) (get1 s OUT.PER_NS n) * nsUnit

/-- theta in the counter's unit (R346). -/
def thetaOf (s : State) (n : Nat) : Rat :=
  let u := outOf s n
  let t := if get1 s OUT.PALIGN_EN n = 1 then u.tau.getD 0 else 0
  t + (u.ofs : Rat) * ((2 ^ 48 : Nat) : Rat)

/-- The pulse instants of an interval as periods from its opening tick, from `lo` on (R346). -/
def pulseInstants (v : Ivl) (p : Nat) (theta : Rat) (lo : Rat) : List Rat :=
  if v.span = 0 ∨ p = 0 then []
  else
    let x0 := wrapP (p : Rat) (theta - (v.t0 : Rat))
    let x := if x0 < 0 then x0 + (p : Rat) else x0
    ((List.range 256).map fun (k : Nat) => (x + (k : Rat) * (p : Rat)) * (v.cyc : Rat) / (v.span : Rat)).filter
      fun c => decide (lo ≤ c) && decide (c < (v.cyc : Rat))

/-- The DLL step nearest to an instant in VCO periods (R346, R371). -/
def dllStep (c : Rat) : Rat := (roundAway (c * 256) : Rat) / 256

/-- The fine delay that an output takes whole at an edge (R340); while its DLL coasts it keeps the one it has (R341). -/
def takeFine (s : State) (n : Nat) : Nat :=
  if bit1 s OUT.STATUS_DLL_COAST n then (outOf s n).fine else get1 s OUT.DELAY n

/-- One pulse rises at the DLL step nearest to an instant, unless one is in progress or ended less than 4 ns before (R346, R347,
R364). -/
def emitPulse (s : State) (n : Nat) (cyc : Nat) (at' : Rat) : State :=
  let u := outOf s n
  let c := dllStep at'
  if c < u.space then s
  else
    let w := (roundAway (nsToVco s n (get1 s OUT.WIDTH_NS n : Rat)) : Rat)
    modOut s n fun v =>
      { v with busy := c + w, space := c + w + nsToVco s n 4, fine := takeFine s n,
               pulses := v.pulses ++ [if cyc = 0 then 0 else c * frameLsb / (cyc : Rat)] }

/-- The first edge of an output that starts (R338, R340, R601). -/
def outStarts (s : State) (n : Nat) : State :=
  let q := (outOf s n).quiet
  let s1 := modOut s n fun v =>
    { v with active := true, quiet := 0, gap := 0, fine := takeFine s n, pulse := get1 s OUT.MODE_PULSE n == 1,
             div := get1 s OUT.DIV n, coarse := get1 s OUT.COARSE n }
  let s2 := set1 s1 OUT.STATUS_RUN n 2
  if q = 1 then s2
  else
    let s3 := set1 s2 OUT.ENABLE_FRN n s.frn
    if q = 2 then s3 else evt s3 .out n 0

/-- The earliest period at which a waiting output may start. -/
def startFrom (s : State) (n : Nat) (v : Ivl) (held : Bool) : Rat :=
  let u := outOf s n
  let a : Rat := if u.gap < 0 then 0 else u.gap
  match v.zero with
  | some z => if held && decide (a < (z : Rat)) then (z : Rat) else a
  | none => a

/-- Rising edges of the grid while E counts `n` cycles from `e` (R337). -/
def gridCount (e n coarse div : Nat) : Nat :=
  let d : Int := (max div 1 : Nat)
  (((e : Int) + n - 1 - coarse) / d - ((e : Int) - 1 - coarse) / d).toNat

/-- Rising edges of the grid in an interval, by which FINE steps (R340). -/
def edgeCount (v : Ivl) (coarse div : Nat) : Nat :=
  match v.zero with
  | none => gridCount v.e0 v.cyc coarse div
  | some z => gridCount v.e0 z coarse div + gridCount 0 (v.cyc - z) coarse div

/-- Move the fine delay toward FINE by at most `k` steps. -/
def fineStep (now goal k : Nat) : Nat := if now < goal then min goal (now + k) else max goal (now - k)

/-- An output that another partition drove until a commit ends its last high phase or pulse, and may start half a period or 4 ns
after it (R42, R339, R601). -/
def leaveAdvance (s : State) (n : Nat) (v : Ivl) : State :=
  match (outOf s n).left with
  | none => s
  | some x =>
    if frameLsb ≤ x then modOut s n fun u => { u with left := some (x - frameLsb) }
    else
      let low : Rat := if bit1 s OUT.MODE_PULSE n then nsToVco s n 4 else (((get1 s OUT.DIV n + 1) / 2 : Nat) : Rat)
      evtIf (decide (0 < x)) (modOut s n fun u => { u with left := none, gap := x * (v.cyc : Rat) / frameLsb + low }) .out n 1

/-- An output over an interval: a stop that falls due, a start, the pulses of a running output (R338 to R340, R346,
R603). `held`: it waited for the zeroing made in this interval. -/
def outAdvance (s0 : State) (n : Nat) (v : Ivl) (held : Bool) : State :=
  let s := leaveAdvance s0 n v
  let s1 := match v.zero with
    | none => s
    | some z => if held then s else moveGrid s n (z : Rat) ((clockPos s n + z) % max (outOf s n).div 1)
  let s2 := match (outOf s1 n).fall with
    | none => s1
    | some x => if x ≤ (v.cyc : Rat) then finishStop s1 n x
      else modOut s1 n fun u => { u with fall := some (x - (v.cyc : Rat)) }
  let u := outOf s2 n
  let s3 :=
    if u.active then
      if u.pulse then
        if u.fall.isSome then s2
        else (pulseInstants v (perUnit s2 n) (thetaOf s2 n) 0).foldl (fun t c => emitPulse t n v.cyc c) s2
      else if bit1 s2 OUT.STATUS_DLL_COAST n then s2
      else modOut s2 n fun w => { w with fine := fineStep w.fine (get1 s2 OUT.DELAY n) (edgeCount v w.coarse w.div) }
    else if outWant s2 n = 2 && u.left.isNone then
      let lo := startFrom s2 n v held
      if get1 s2 OUT.MODE_PULSE n = 1 then
        match (pulseInstants v (perUnit s2 n) (thetaOf s2 n) lo).filter (fun c => !u.fresh || decide (0 < c)) with
        | [] => s2
        | l => l.foldl (fun t c => emitPulse t n v.cyc c) (outStarts s2 n)
      else
        match gridEdge v (get1 s2 OUT.DIV n) (get1 s2 OUT.COARSE n) (max lo.ceil.toNat (if u.fresh then 1 else 0)) with
        | none => s2
        | some _ => outStarts s2 n
    else s2
  modOut s3 n fun w =>
    { w with fresh := false, gap := w.gap - (v.cyc : Rat), busy := w.busy - (v.cyc : Rat), space := w.space - (v.cyc : Rat),
             tau := if w.tauNew.isSome then w.tauNew else w.tau, tauNew := none }

/-- The VCO cycles of APLLd in an interval, and the part of a cycle left over: it runs at f_NOM (1 + y)(1 + y_JR) (R324);
coasting, at its held tuning (R331). -/
def vcoCycles (s : State) (d : Nat) (i : FrameIn) : Nat × Rat :=
  let a := apllOf s d
  let x := a.frac + fNom s d * (1 + (a.steer : Rat) / ((2 ^ 48 : Nat) : Rat)) * (1 + i.jitter) / 8000
  let n := x.floor.toNat
  if !a.powered then (0, 0)
  else (if bit1 s APLL.STATUS_COAST d then i.vco.getD d n else n, fine (x - (n : Rat)))

/-- APLLd and its outputs over an interval: E counts on, and a rollover `z` periods in zeroes it when one is due
(R333). -/
def synthAdvance (s : State) (d cyc t0 span : Nat) (roll : Option Nat) : State :=
  if !(apllOf s d).powered then s
  else
    let a := apllOf s d
    let z := if zeroDue s d then roll else none
    let held := !a.zeroed || bit1 s APLL.STATUS_RETUNE d
    let v : Ivl := ⟨cyc, a.e, z, t0, span⟩
    let outs := outsOf s d
    let s1 := match z with
      | none => s
      | some k =>
        let t := zeroEpoch s d (cyc - k)
        modApll t d fun b => { b with e := a.e }
    let s2 := outs.foldl (fun t n => outAdvance t n v held) s1
    modApll s2 d fun b => { b with e := match z with
      | none => a.e + cyc
      | some k => cyc - k }

/-! ### Stage 5 and the frame's alignment (R295, R334, R348) -/

/-- The distance in Hz from the VCO to the nearest multiple of f_PFD (R334). -/
def boundaryHz (s : State) (d : Nat) : Rat :=
  let a := apllOf s d
  let f := fNom s d * (1 + (a.steer : Rat) / ((2 ^ 48 : Nat) : Rat))
  let p := pfdHz a.refsel
  absR (wrapP p f)

/-- Stage 5 for one domain: y is loaded in units of 2^-48 (R295), and BOUNDARY and SPUR_NEAR follow (R334). -/
def steerFrame (s : State) (d : Nat) : State :=
  let y := roundAway ((domOf s d).y * ((2 ^ 48 : Nat) : Rat))
  let w := satSigned 48 y
  let s1 := modApll s d fun a => { a with steer := y }
  let s2 := set1 (set1 s1 DPLL.STEER_LO d w) DPLL.STEER_HI d (w / 2 ^ 32)
  let b := boundaryHz s2 d
  let isNear := decide (b < 2000000)
  let s3 := set1 s2 APLL.BOUNDARY d (satTo 0xFFFF (roundAway (b / 1000)).toNat)
  let s4 := evtIf (isNear && !(apllOf s d).isNear) s3 .apll d 4
  modApll s4 d fun a => { a with isNear := isNear }

/-- Alignment of a pulse output in one frame (R348): tau follows each valid sample 0 of the channel; with none for
two periods ALIGN_LOST is raised once. -/
def alignFrame (s : State) (n : Nat) : State :=
  if get1 s OUT.PALIGN_EN n = 0 then s
  else
    let c := get1 s OUT.PALIGN_CHAN n
    let d := outOwner s n
    let u := outOf s n
    match sample0 s c, (funcOf s c).t0 with
    | some (.val _), some x =>
      modOut s n fun v => { v with tauNew := some (timeAt s d x), tauAge := 0, lost := false }
    | _, _ =>
      let age := u.tauAge + 1
      let over2 := decide (2 * perNs (get1 s OUT.PULSE_PER n) (get1 s OUT.PER_NS n) ≤ age * 125000)
      let s1 := modOut s n fun v => { v with tauAge := age, lost := v.lost || over2 }
      evtIf (over2 && !u.lost) s1 .out n 4

/-- Stage 5 (Table 2.1): steering, then what the outputs follow. -/
def stage5 (s : State) : State :=
  let s1 := (List.range 4).foldl (fun t d => if domRuns t d then steerFrame t d else t) s
  outsRefresh ((List.range 10).foldl alignFrame s1)

/-! ### Writes of the OUT page as they act -/

/-- CFG_BAD (R335 to R348). -/
def cfgBad (s : State) (n : Nat) : State := evt s .out n 5

/-- ENABLE acts (R338). -/
def outEnableWrite (s : State) (n : Nat) (en : Bool) : State := outRefresh (set1 s OUT.CTRL n (b2n en)) n

/-- MODE.PULSE acts (R601). -/
def pulseModeWrite (s : State) (n : Nat) (pulse : Bool) : State :=
  let s1 := set1 s OUT.MODE_PULSE n (b2n pulse)
  let u := outOf s n
  if u.active && u.pulse != pulse then
    if u.fall.isSome then modOut (set1 s1 OUT.STATUS_RUN n 3) n fun v => { v with quiet := 2 }
    else beginStop (set1 s1 OUT.STATUS_RUN n 3) n 2
  else outRefresh s1 n

/-- DIV and COARSE act together (R335, R337, R339): a DIV out of range or beyond the format's limit, and a pair that
breaks COARSE < DIV, are ignored. -/
def dividerWrite (s : State) (n : Nat) (div coarse : Option Nat) : State :=
  let fine' := match div with
    | none => true
    | some v => decide (5 ≤ v) && decide (v < 2 ^ 32) && withinFmt s n (fNom s (outOwner s n) / (v : Rat))
  let s0 := if fine' then s else cfgBad s n
  let v := (if fine' then div else none).getD (get1 s OUT.DIV n)
  let c := coarse.getD (get1 s OUT.COARSE n)
  if v ≤ c then cfgBad s0 n
  else
    let s1 := set1 (set1 s0 OUT.DIV n v) OUT.COARSE n c
    let u := outOf s1 n
    if u.active && !u.pulse && (u.div != v || u.coarse != c) then
      if u.fall.isSome then s1 else beginStop s1 n 1
    else s1

/-- PULSE_PER, PER_NS and WIDTH_NS act together (R346, R347). -/
def pulsePeriodSet (s : State) (n : Nat) (code per width : Option Nat) : State :=
  let c := code.getD (get1 s OUT.PULSE_PER n)
  let p := per.getD (get1 s OUT.PER_NS n)
  let w := width.getD (get1 s OUT.WIDTH_NS n)
  if pulseOk c p w then set1 (set1 (set1 s OUT.PULSE_PER n c) OUT.PER_NS n p) OUT.WIDTH_NS n w else cfgBad s n

/-- Whether a partition may align to a channel (R348). -/
def alignChanOk (s : State) (n chan : Nat) : Bool := decide (chan < 10) && mayMeasure s (outOwner s n) chan

/-- PALIGN acts (R348): enabling it, or another channel, withholds pulses until a valid edge. -/
def palignSet (s : State) (n chan : Nat) (en : Bool) : State :=
  if !alignChanOk s n chan then cfgBad s n
  else
    let same := get1 s OUT.PALIGN_CHAN n == chan && get1 s OUT.PALIGN_EN n == b2n en
    let s1 := set1 (set1 s OUT.PALIGN_CHAN n chan) OUT.PALIGN_EN n (b2n en)
    outRefresh (if same then s1 else modOut s1 n fun v =>
      { v with tau := none, tauNew := none, tauAge := 0, lost := false }) n

/-- PALIGN_OFS_HI acts with the held low half (R349). -/
def palignOfsSet (s : State) (n hi : Nat) : State :=
  let s1 := set1 s OUT.PALIGN_OFS_HI n hi
  modOut s1 n fun v => { v with ofs := toSigned 48 (get1 s1 OUT.PALIGN_OFS_LO n + 2 ^ 32 * (hi % 2 ^ 16)) }

/-- FINE acts (R340): a running clock output steps to it; another takes it whole at its next edge. -/
def fineSet (s : State) (n fine : Nat) : State := set1 s OUT.DELAY n fine

/-- PALIGN_OFS as the page holds it. -/
def ofsReg (s : State) (n : Nat) : Int := toSigned 48 (get1 s OUT.PALIGN_OFS_LO n + 2 ^ 32 * get1 s OUT.PALIGN_OFS_HI n)

/-! ### Formats and resets (R344, R345) -/

/-- Take the policy's formats and bank supplies in force (R345, R542). -/
def takeFormats (s : State) : State :=
  (List.range 10).foldl (fun t n =>
    set1 (modOut t n fun u =>
      { u with fmt := polVal t.pol OUT.FORMAT_FMT n 0 0, psel := polVal t.pol OUT.FORMAT_P_SEL n 0 0,
               nsel := polVal t.pol OUT.FORMAT_N_SEL n 0 0, bankV := polVal t.pol OUT.FORMAT_BANK_V n 0 0 })
      OUT.STATUS_FMT_PEND n 0) s

/-- FMT_PEND reads whether the committed format differs from the one in force (R345). -/
def fmtPending (s : State) : State :=
  (List.range 10).foldl (fun t n =>
    let u := outOf t n
    set1 t OUT.STATUS_FMT_PEND n (b2n (!(u.fmt == polVal t.pol OUT.FORMAT_FMT n 0 0 &&
      u.psel == polVal t.pol OUT.FORMAT_P_SEL n 0 0 && u.nsel == polVal t.pol OUT.FORMAT_N_SEL n 0 0 &&
      u.bankV == polVal t.pol OUT.FORMAT_BANK_V n 0 0)))) s

/-- When the last high phase or pulse of an output ends, in LSB from the latest tick; not positive while it is low. -/
def lastFall (s : State) (n : Nat) : Option Rat :=
  let u := outOf s n
  if u.active then some (u.fall.getD (highLeft s n) * 512000000000 / fNom s (outOwner s n)) else u.left

/-- The OUT page of an output that starts anew: policy start values, no waveform (R42, R322). -/
def outInit (s : State) (n : Nat) : State :=
  let s1 := resetFields s [OUT.CTRL, OUT.STATUS_RUN, OUT.STATUS_DLL_COAST, OUT.MODE_PULSE, OUT.MODE_SQUELCH_LOST,
    OUT.DIV, OUT.DELAY, OUT.COARSE, OUT.PULSE_PER, OUT.PER_NS, OUT.WIDTH_NS, OUT.PALIGN_CHAN, OUT.PALIGN_EN,
    OUT.PALIGN_OFS_LO, OUT.PALIGN_OFS_HI, OUT.ENABLE_FRN, OUT.SQUELCH_CNT] n
  outRefresh (modOut s1 n fun u =>
    { fmt := u.fmt, psel := u.psel, nsel := u.nsel, bankV := u.bankV, ofs := ofsReg s1 n, left := u.left }) n

/-- A request for a zeroing ends, but for the one that a start or a retune makes (R333, R344). -/
def dropEpoch (s : State) (d : Nat) : State :=
  if (apllOf s d).zeroed && !bit1 s APLL.STATUS_RETUNE d then
    set1 (modApll s d fun a => { a with zeroReq := false }) APLL.STATUS_EPOCH_PEND d 0
  else s

/-- The synthesis pages at a partition reset (R344): the shaping fields keep the values in effect; the domain's
requests end. -/
def synthReset (s0 : State) (d : Nat) : State :=
  let s := dropEpoch s0 d
  let a := apllOf s d
  let s1 := set1 (set1 (set1 s APLL.CFG_REFSEL d a.refsel) APLL.RATIO_LO d a.ratio) APLL.RATIO_HI d (a.ratio / 2 ^ 32)
  let s2 := set1 (set1 s1 APLL.LOL_CNT d 0) APLL.EPOCH_FRN d 0
  (outsOf s2 d).foldl (fun t n =>
    let u := outOf t n
    let w := ofSigned 48 u.ofs
    set1 (set1 (set1 t OUT.SQUELCH_CNT n 0) OUT.PALIGN_OFS_LO n w) OUT.PALIGN_OFS_HI n (w / 2 ^ 32)) s2

/-! ### DLL (R341) -/

/-- An output's DLL loses lock and coasts. -/
def dllLost (s : State) (n : Nat) : State :=
  evt (set1 (set1 s OUT.STATUS_DLL_LOCK n 0) OUT.STATUS_DLL_COAST n 1) .out n 3

/-- The DLL relocks; FINE steps stored meanwhile apply from here on. -/
def dllLocked (s : State) (n : Nat) : State := set1 (set1 s OUT.STATUS_DLL_LOCK n 1) OUT.STATUS_DLL_COAST n 0

/-! ### Meanings -/

/-- EPOCH (R333) as it acts. -/
def execEpoch (n : Nat) (s : State) : Host.Outcome State Fault Refusal :=
  if n < 4 then .next (epochRequest s n) else .refused .illFormed

/-- OUT_ENABLE (R338): ENABLE 1 acts. -/
def execOutEnable (n : Nat) (s : State) : Host.Outcome State Fault Refusal :=
  if n < 10 then .next (outEnableWrite s n true) else .refused .illFormed

/-- OUT_DISABLE (R338): ENABLE 0 acts. -/
def execOutDisable (n : Nat) (s : State) : Host.Outcome State Fault Refusal :=
  if n < 10 then .next (outEnableWrite s n false) else .refused .illFormed

/-- PULSE_MODE_CHANGE (R601). -/
def execPulseModeChange (n : Nat) (pulse : Bool) (s : State) : Host.Outcome State Fault Refusal :=
  if n < 10 then .next (pulseModeWrite s n pulse) else .refused .illFormed

/-- DIVIDER_CHANGE (R335, R337, R339): the two fields are 32 bits wide. -/
def execDividerChange (n : Nat) (div coarse : Option Nat) (s : State) : Host.Outcome State Fault Refusal :=
  if n < 10 ∧ div.getD 0 < 2 ^ 32 ∧ coarse.getD 0 < 2 ^ 32 then .next (dividerWrite s n div coarse) else .refused .illFormed

/-- FINE_WRITE (R340). -/
def execFineWrite (n fine : Nat) (s : State) : Host.Outcome State Fault Refusal :=
  if n < 10 ∧ fine < 256 then .next (fineSet s n fine) else .refused .illFormed

/-- PULSE_PERIOD_WRITE (R346, R347): the fields are 3, 30 and 30 bits wide. -/
def execPulsePeriodWrite (n : Nat) (code perNs widthNs : Option Nat) (s : State) : Host.Outcome State Fault Refusal :=
  if n < 10 ∧ code.getD 0 < 8 ∧ perNs.getD 0 < 2 ^ 30 ∧ widthNs.getD 0 < 2 ^ 30 then
    .next (pulsePeriodSet s n code perNs widthNs)
  else .refused .illFormed

/-- PALIGN_WRITE (R348). -/
def execPalignWrite (n chan : Nat) (en : Bool) (s : State) : Host.Outcome State Fault Refusal :=
  if n < 10 ∧ chan < 16 then .next (palignSet s n chan en) else .refused .illFormed

/-- PALIGN_OFS_HI_WRITE (R349). -/
def execPalignOfsHiWrite (n hi : Nat) (s : State) : Host.Outcome State Fault Refusal :=
  if n < 10 ∧ hi < 2 ^ 16 then .next (palignOfsSet s n hi) else .refused .illFormed

/-- APLL_LOCK_LOST (R329): a running APLL that is locked loses lock. -/
def execApllLockLost (n : Nat) (s : State) : Host.Outcome State Fault Refusal :=
  if n < 4 then
    if (apllOf s n).powered && bit1 s APLL.STATUS_LOCK n then .next (lockLost s n) else .next s
  else .refused .illFormed

/-- RELOCK (R330, R331): a coasting APLL re-engages, with the reference present. -/
def execRelock (n : Nat) (s : State) : Host.Outcome State Fault Refusal :=
  if n < 4 then
    if (apllOf s n).powered && bit1 s APLL.STATUS_COAST n && s.jrOn then .next (relockApll s n) else .next s
  else .refused .illFormed

/-- RETUNE_LOCK (R328, R542): the loop locks after a retune, or first after the domain's start. -/
def execRetuneLock (n : Nat) (s : State) : Host.Outcome State Fault Refusal :=
  if n < 4 then
    if (apllOf s n).powered && !bit1 s APLL.STATUS_LOCK n && !bit1 s APLL.STATUS_COAST n && s.jrOn then
      .next (retuneLocked s n)
    else .next s
  else .refused .illFormed

/-- REF_LOST (R331); a reference already absent is not lost again. -/
def execRefLost (s : State) : Host.Outcome State Fault Refusal :=
  if s.jrOn then .next (refLostAll s) else .next s

/-- REF_RETURN (R331). -/
def execRefReturn (s : State) : Host.Outcome State Fault Refusal :=
  if s.jrOn then .next s else .next (refBack s)

/-- DLL_LOL (R341). -/
def execDllLol (n : Nat) (s : State) : Host.Outcome State Fault Refusal :=
  if n < 10 then
    if bit1 s OUT.STATUS_DLL_COAST n then .next s else .next (dllLost s n)
  else .refused .illFormed

/-- DLL_RELOCK (R341). -/
def execDllRelock (n : Nat) (s : State) : Host.Outcome State Fault Refusal :=
  if n < 10 then .next (dllLocked s n) else .refused .illFormed

/-- ALIGN_LOST (R348): no valid edge of the alignment channel for two periods. -/
def execAlignLost (n : Nat) (s : State) : Host.Outcome State Fault Refusal :=
  if n < 10 then
    if bit1 s OUT.PALIGN_EN n && !(outOf s n).lost then
      .next (evt (modOut s n fun v => { v with lost := true }) .out n 4)
    else .next s
  else .refused .illFormed

end Sys2Proof.Machine
end

