-- ==== Sys2Proof/Machine/TimeUnit.lean ====
section
/-! DEFINITION. Time counters, triggers and captures (R352 to R385): the counter over an interval, change requests,
triggers, captures, the ToD message and NMEA input. Counter values are in units of 2^-64 ns. -/

namespace Sys2Proof.Machine

/-! ### The counter (R352 to R357) -/

/-- SEC counts modulo 2^48 (R353). -/
def timeWrap : Nat := 2 ^ 48 * secUnit

/-- What one VCO cycle adds, held to 2^-64 ns (R353). -/
def cycleUnit (s : State) (d : Nat) : Nat :=
  let f := fNom s d
  if f = 0 then 0 else (roundAway ((secUnit : Rat) / f)).toNat

/-- Ticks of the latest tick, as TICK shows them (R357). -/
def publishTick (s : State) (d : Nat) : State :=
  let t := (timeOf s d).t
  let s1 := set1 (set1 s TIME.TICK_SEC_LO d (timeSec t)) TIME.TICK_SEC_HI d (timeSec t / 2 ^ 32)
  set1 (set1 s1 TIME.TICK_NS d (timeNs t)) TIME.TICK_FRAC d (timeFrac t)

/-- The FREQ-mode counter slew of one frame in LSB (R361): at most SLOPE x 0.1 ns/s. -/
def slewPart (s : State) (d : Nat) : Rat :=
  let u := timeOf s d
  let m : Rat := (get1 s DPLL.SLOPE d : Rat) * 64 / 10000
  if absR u.slew ≤ m then u.slew else if 0 < u.slew then m else -m

/-- Report what is left of the counter slew (R361). -/
def publishSlew (s : State) (d : Nat) : State :=
  let r := (timeOf s d).slew
  set1 (set1 s TIME.T_SLEW_LEFT d (satSigned 32 (truncR r))) TIME.STATUS_T_SLEWING d (b2n (decide (r ≠ 0)))

/-! ### Triggers (R368 to R373) -/

/-- The value of a trigger's next instance in ns. -/
def trigAt (u : TrigU) : Nat := u.t + u.next * u.per

/-- Change one trigger. -/
def modTrig (s : State) (d k : Nat) (f : TrigU → TrigU) : State :=
  modTime s d fun u => { u with trigs := u.trigs.modify k f }

def trigOf (s : State) (d k : Nat) : TrigU := (timeOf s d).trigs.getD k {}

/-- The edge nearest to 0 within the pairing window, the later of two equally near. -/
def nearest (edges : List Rat) : Option Rat :=
  (edges.filter fun t => decide (absR t ≤ 8190)).foldl (fun (b : Option Rat) u => match b with
    | none => some u
    | some v => if absR u ≤ absR v then some u else some v) none

/-- The INTERVAL action (Table 11.4): the measured edge nearest to the firing instant, edges counted in LSB from it; an edge that
the lane cannot time gives NO_PAIR. -/
def trigInterval (s : State) (d k : Nat) (edges : List Rat) (barred : Rat → Bool) : State :=
  let r := match nearest edges with
    | some x => if barred x then (Smp.noEdge, some 3) else pairStop [x] 0
    | none => (.noEdge, some 3)
  let flags := match r.2 with
    | some 0 => 1
    | some 1 => 2
    | some 3 => 4
    | _ => 0
  setF (setF s TIME.TRIG_IVL_RESULT_CODE d k 0 (smpCode r.1)) TIME.TRIG_IVL_RESULT_FLAGS d k 0 flags

/-- Whether an output may be the target of a PULSE action (Table 11.4). -/
def pulseTarget (s : State) (d n : Nat) : Bool := decide (n < 10) && outOwner s n == d && get1 s OUT.MODE_PULSE n == 1

/-- The PULSE action (R371, R372), `c` VCO periods after the latest tick. -/
def trigPulse (s : State) (d k n cyc : Nat) (c : Rat) : State :=
  let a := apllOf s d
  if !pulseTarget s d n || bit1 s OUT.CTRL n || bit1 s APLL.STATUS_RETUNE d || !a.locked then
    evt (setF s TIME.TRIG_STAT_CAUSE d k 0 2) .time d 4
  else emitPulse s n cyc c

/-- A trigger fires (R366, R370, R371): its firing registers, events and action. `t`: the firing instant; `n`:
instances passed; `frm`: the frame whose acquisition interval holds the instant, `c` of that interval's `cyc` VCO periods in. The
INTERVAL action waits for the samples of that frame. -/
def fireTrig (s : State) (d k t n frm : Nat) (late jumped : Bool) (cyc : Nat) (c : Rat) : State :=
  let u := trigOf s d k
  let s1 := setF (setF s TIME.TRIG_FIRED_SEC_LO d k 0 (timeSec t)) TIME.TRIG_FIRED_SEC_HI d k 0 (timeSec t / 2 ^ 32)
  let s2 := setF (setF s1 TIME.TRIG_FIRED_NS d k 0 (timeNs t)) TIME.TRIG_FIRED_FRAC d k 0 (timeFrac t)
  let s3 := setF s2 TIME.TRIG_FIRED_FRN d k 0 frm
  let s4 := setF (setF s3 TIME.TRIG_STAT_LATE d k 0 (b2n late)) TIME.TRIG_STAT_JUMPED d k 0 (b2n jumped)
  let s5 := if u.per = 0 then setF s4 TIME.TRIG_STAT_STATE d k 0 2 else s4
  let at' := if cyc = 0 then 0 else c * frameLsb / (cyc : Rat)
  let s6 := modTrig s5 d k fun x =>
    { x with armed := decide (u.per ≠ 0), next := x.next + n, late := none,
             ivl := if u.action = 1 then some (at', frm) else x.ivl }
  let s7 := modTime s6 d fun x =>
    { x with firesNext := (List.range 8).map fun j => x.firesNext.getD j false || j == k,
             epochAct := x.epochAct || u.action == 2 }
  let s8 := evtIf late (evt s7 .time d 2) .time d 3
  let s9 := if 1 < n then addCnt s8 TIME.TRIG_SKIPPED d k (n - 1) else s8
  if u.action = 3 then trigPulse s9 d k u.target cyc c else s9

/-- Whether the lane of a function could not time an edge as an extra conversion (R154): it follows a timed edge by less than
100 ns. -/
def barredEdge (s : State) (f : Nat) (x : Rat) : Bool :=
  (laneFor s f).isNone || (funcOf s f).timed.any fun t => decide (t < x) && decide (x < t + 51200)

/-- The INTERVAL action of one trigger in the frame of its firing: the edges of the interval, and those up to the pairing window
on either side of it (R371). -/
def trigEdges (v : Interval) (d : Nat) (s : State) (k : Nat) : State :=
  let u := trigOf s d k
  match u.ivl with
  | none => s
  | some (x, frm) =>
    if frm ≠ s.frn then s
    else trigInterval (modTrig s d k fun y => { y with ivl := none }) d k ((stopEdges s v u.target).map fun t => t - x)
      fun e => barredEdge s u.target (e + x)

/-- The INTERVAL actions that the frame's samples complete. -/
def trigStage (v : Interval) (s : State) : State :=
  (List.range 4).foldl (fun t d => (List.range 8).foldl (trigEdges v d) t) s

/-- The firings of one trigger within an interval from `t0` on, at most `n` of them. -/
def fireWithin (d k t0 span cyc : Nat) : Nat → State → State
  | 0, s => s
  | n + 1, s =>
    let u := trigOf s d k
    let x := trigAt u * nsUnit
    if u.armed && u.late.isNone && decide (x < timeWrap) && decide (t0 ≤ x) && decide (x < t0 + span) then
      let off : Rat := (x - t0 : Nat)
      fireWithin d k t0 span cyc n (fireTrig s d k x 1 (s.frn + 1) false false cyc (off * (cyc : Rat) / (span : Rat)))
    else s

/-- After a forward step every unfired instance at or before TIMEd fires once at the tick (R366). -/
def jumpTrigs (s : State) (d : Nat) : State :=
  (List.range 8).foldl (fun t k =>
    let u := trigOf t d k
    let now := (timeOf t d).t
    if u.armed && u.late.isNone && decide (trigAt u * nsUnit ≤ now) then
      let n := if u.per = 0 then 1 else (now / nsUnit - trigAt u) / u.per + 1
      fireTrig t d k now n (t.frn + 1) false true 0 0
    else t) s

/-- LATE_OK firings that are due at this tick (R369). -/
def lateTrigs (s : State) (d : Nat) : State :=
  (List.range 8).foldl (fun t k =>
    let u := trigOf t d k
    if u.armed && u.late == some t.frn then fireTrig t d k (timeOf t d).t 1 (t.frn + 1) true false 0 0 else t) s

/-- Why an ARM is refused under R372, in the order of Table 11.7's causes that apply. -/
def armCause (s : State) (d k : Nat) : Nat :=
  let per := getF s TIME.TRIG_PER d k 0
  let act := getF s TIME.TRIG_CTRL_ACTION d k 0
  let tgt := getF s TIME.TRIG_CTRL_TARGET d k 0
  if !domRuns s d then 3
  else if (act = 1 ∧ !(decide (tgt < 10) && mayMeasure s d tgt)) ∨ (act = 3 ∧ !pulseTarget s d tgt) then 2
  else if 999999999 < getF s TIME.TRIG_NS d k 0 ∨
      (per ≠ 0 ∧ (per < 125000 ∨ 1000000000 < per ∨ 1000000000 % per ≠ 0)) then 4
  else 0

/-- ARM acts (R368, R369, R372). -/
def trigArmAct (s : State) (d k : Nat) : State :=
  let cause := armCause s d k
  if cause ≠ 0 then
    let s1 := modTrig s d k fun u => { u with armed := false, late := none }
    evt (setF (setF s1 TIME.TRIG_STAT_STATE d k 0 3) TIME.TRIG_STAT_CAUSE d k 0 cause) .time d 4
  else
    let per := getF s TIME.TRIG_PER d k 0
    let t := (getF s TIME.TRIG_SEC_LO d k 0 + 2 ^ 32 * getF s TIME.TRIG_SEC_HI d k 0) * 1000000000 + getF s TIME.TRIG_NS d k 0
    let now := (timeOf s d).t
    let past := decide (t * nsUnit ≤ now)
    let u : TrigU :=
      { armed := true, t := t, per := per, action := getF s TIME.TRIG_CTRL_ACTION d k 0,
        target := getF s TIME.TRIG_CTRL_TARGET d k 0,
        next := if per ≠ 0 ∧ past then (now / nsUnit - t) / per + 1 else 0,
        late := if per = 0 ∧ past then some (s.frn + 1) else none }
    if per = 0 ∧ past ∧ getF s TIME.TRIG_CTRL_LATE_OK d k 0 = 0 then
      let s1 := modTrig s d k fun v => { v with armed := false, late := none }
      evt (setF (setF s1 TIME.TRIG_STAT_STATE d k 0 0) TIME.TRIG_STAT_CAUSE d k 0 1) .time d 4
    else
      setF (setF (modTrig s d k fun _ => u) TIME.TRIG_STAT_STATE d k 0 1) TIME.TRIG_STAT_CAUSE d k 0 0

/-- DISARM acts (R373). -/
def trigDisarmAct (s : State) (d k : Nat) : State :=
  setF (modTrig s d k fun u => { u with armed := false, late := none }) TIME.TRIG_STAT_STATE d k 0 0

/-! ### Change requests (R359 to R363) -/

/-- A request is refused (R363). -/
def refuseReq (s : State) (d cause src : Nat) (delta : Rat) : State :=
  journalPg (evt (set1 s TIME.STEP_LIM_LAST_REFUSE d cause) .time d 1) 0x061 (some (ownerOf s .time d)) .time d
    (stepData src delta false (some cause))

/-- Steps of the last 28 800 000 frames (R362). -/
def stepsHour (s : State) (d : Nat) : List Nat :=
  (timeOf s d).steps.filter fun f => decide (s.frn < f + 28800000)

/-- A step acts (R361, R363). -/
def timeStep (s : State) (d src : Nat) (delta : Rat) (counted : Bool) : State :=
  let u := timeOf s d
  let move := roundAway (delta * (nsUnit : Rat))
  let t := ((u.t : Int) + move).emod (timeWrap : Int) |>.toNat
  let steps := (if counted then [s.frn] else []) ++ stepsHour s d
  let s1 := modTime s d fun v => { v with t := t, stepped := some s.frn, steps := steps, mark := true, jump := move }
  let s2 := set1 (set1 s1 TIME.STATUS_TIME_SET d 1) TIME.STATUS_STEPPED d 1
  let w := ofSigned 64 (truncR delta)
  let s3 := set1 (set1 (set1 s2 TIME.LAST_STEP_LO d w) TIME.LAST_STEP_HI d (w / 2 ^ 32)) TIME.LAST_STEP_FRN d s.frn
  let s4 := set1 (set1 s3 TIME.STEP_LIM_LAST_SRC d src) TIME.STEP_LIM_DONE_HR d (satTo 255 steps.length)
  let s5 := addCnt (evt s4 .time d 0) TIME.STEP_CNT d 0 1
  let s6 := journalPg s5 0x060 (some (ownerOf s .time d)) .time d (stepData src delta false none)
  let s7 := modDom s6 d fun v => { v with stepped := true }
  if 0 < delta then jumpTrigs s7 d else s7

/-- A request is carried as a slew (R361, R363). -/
def timeSlew (s : State) (d src : Nat) (delta : Rat) : State :=
  let s2 := slewRecord s d src delta
  if (domOf s d).mode = 0 then publishSlew (modTime s2 d fun u => { u with slew := u.slew + delta * 512 }) d
  else
    let s3 := modDom s2 d fun u => { u with slew := u.slew + delta * 512, reqSlew := true }
    setF s3 SEL.SLEW_LEFT 0 d 0 (satSigned 32 (truncR (domOf s3 d).slew))

/-- Whether a label step would fight the loop (Table 11.2, row 3). -/
def labelBlocked (s : State) (d : Nat) : Bool :=
  let c := activeOf s d
  (domOf s d).mode == 2 || (c != 0xF && (decide (10 ≤ c) || polVal s.pol CHAN.NOM_FREQ_LO c 0 0 % 65536 != 0))

/-- The first row of Table 11.2 that holds (R360). -/
def handleReq (s : State) (d src : Nat) (delta : Rat) : State :=
  if !domRuns s d then refuseReq s d 1 src delta
  else if src = 1 then timeStep s d src delta true
  else if src = 0 ∧ (domOf s d).mode ≠ 0 ∧ following s d then refuseReq s d 2 src delta
  else if src = 3 ∧ labelBlocked s d then refuseReq s d 3 src delta
  else if !bit1 s TIME.STATUS_TIME_SET d then timeStep s d src delta false
  else if src ≠ 3 ∧ absR delta ≤ (get1 s TIME.STEP_CFG_THRESH d : Rat) then timeSlew s d src delta
  else if delta < 0 ∧ get1 s TIME.STEP_CFG_NO_BACKSTEP d = 1 then
    (if src = 3 then refuseReq s d 4 src delta else timeSlew s d src delta)
  else if get1 s TIME.STEP_LIM_MAX_HR d ≤ (stepsHour s d).length then
    (if src = 3 then refuseReq s d 5 src delta else timeSlew s d src delta)
  else timeStep s d src delta true

/-- The order in which requests compete (R359). -/
def reqOrder : List Nat := [1, 2, 3, 0]

/-- The change that a request asks for at tick B, in ns: to a value of TIMEd, or by an amount (Table 11.1). -/
def reqDelta (s : State) (d : Nat) (r : ChangeReq) : Rat :=
  if r.abs then r.delta - ((timeOf s d).t : Rat) / (nsUnit : Rat) else r.delta

/-- The requests of a boundary: those refused with BAD first; the others compete, the first acts, and the rest are refused with
CONFLICT (R359). -/
def resolveReqs (s : State) (d : Nat) : State :=
  let u := timeOf s d
  let due := u.reqs.filter fun r => decide (r.due ≤ s.frn)
  let s1 := modTime s d fun v => { v with reqs := v.reqs.filter fun r => decide (s.frn < r.due) }
  let s2 := (due.filter fun r => r.bad).foldl (fun t r => refuseReq t d 7 r.src (reqDelta s d r)) s1
  match reqOrder.flatMap fun src => due.filter fun r => r.src == src && !r.bad with
  | [] => s2
  | r :: rest => rest.foldl (fun t q => refuseReq t d 6 q.src (reqDelta s d q)) (handleReq s2 d r.src (reqDelta s d r))

/-- Put a request for a boundary. -/
def putReq (s : State) (d src : Nat) (delta : Rat) (due : Nat) : State :=
  modTime s d fun u => { u with reqs := u.reqs ++ [{ src := src, delta := delta, due := due }] }

/-- SET_SEC as the page holds it. -/
def setSec (s : State) (d : Nat) : Nat := get1 s TIME.SET_SEC_LO d + 2 ^ 32 * get1 s TIME.SET_SEC_HI d

/-- The sub-second part of the SET fields in ns. -/
def setSub (s : State) (d : Nat) : Rat := (get1 s TIME.SET_NS d : Rat) + (get1 s TIME.SET_FRAC d : Rat) / 65536

/-- A host SET makes a request for a boundary (Table 11.1, R359); it is BAD when both are asked for, of which no change follows,
or when SET_NS is out of range. -/
def hostSet (s : State) (d : Nat) (abs rel : Bool) (due : Nat) : State :=
  let put := fun (t : State) (delta : Rat) (a bad : Bool) =>
    modTime t d fun u => { u with reqs := u.reqs ++ [{ src := 0, delta := delta, due := due, abs := a, bad := bad }] }
  let wide := decide (999999999 < get1 s TIME.SET_NS d)
  if abs && rel then
    let x := drawFree s
    put x.2 (if bitOf x.1 0 then 2 ^ bitsOf x.1 1 6 else -(2 ^ bitsOf x.1 1 6)) false true
  else if abs then put s ((setSec s d : Rat) * 1000000000 + setSub s d) true wide
  else if rel then put s ((toSigned 48 (setSec s d) : Rat) * 1000000000 + setSub s d) false wide
  else s

/-- The span of STATUS.STEPPED (R363). -/
def steppedSpan : Nat := 128000

/-- STATUS.STEPPED and DONE_HR in a frame (R362, R363). -/
def steppedFrame (s : State) (d : Nat) : State :=
  let s1 := match (timeOf s d).stepped with
    | some f => if f + steppedSpan ≤ s.frn then set1 s TIME.STATUS_STEPPED d 0 else s
    | none => s
  let l := stepsHour s1 d
  set1 (modTime s1 d fun v => { v with steps := l }) TIME.STEP_LIM_DONE_HR d (satTo 255 l.length)

/-! ### Captures (R374 to R376) -/

def capOf (s : State) (d c : Nat) : CapU := (timeOf s d).caps.getD c {}

def modCap (s : State) (d c : Nat) (f : CapU → CapU) : State :=
  modTime s d fun u => { u with caps := u.caps.modify c f }

/-- ARM acts (R374). -/
def capArmAct (s : State) (d c : Nat) : State :=
  let src := getF s TIME.CAP_CTRL_SRC d c 0
  let cause := if !domRuns s d then 2 else if src < 10 ∧ mayMeasure s d src then
    (if get1 s DPLL.STATUS_FB_LOST d = 1 then 3 else 0) else 1
  if cause ≠ 0 then
    setF (setF (modCap s d c fun _ => {}) TIME.CAP_STAT_STATE d c 0 3) TIME.CAP_STAT_CAUSE d c 0 cause
  else
    let s1 := modCap s d c fun _ => { armed := true, frm := s.frn, src := src }
    let s2 := setF (setF s1 TIME.CAP_STAT_STATE d c 0 1) TIME.CAP_STAT_CAUSE d c 0 0
    setF (setF s2 TIME.CAP_STAT_SKIP d c 0 0) TIME.CAP_STAT_STEPPED d c 0 0

/-- CANCEL acts (R376). -/
def capCancelAct (s : State) (d c : Nat) : State :=
  setF (modCap s d c fun _ => {}) TIME.CAP_STAT_STATE d c 0 0

/-- The time of a capture's edge in the frame in progress, if its sample 0 and the feedback's are valid (R374): the edge comes
before the tick, so a step at that tick does not move it (R367). -/
def capEdge (s : State) (d src : Nat) : Option Nat :=
  match sample0 s src, (funcOf s src).t0, fbInc s d with
  | some (.val _), some x, some _ =>
    some ((timeAt s d x - ((timeOf s d).jump : Rat)).floor.emod (timeWrap : Int)).toNat
  | _, _, _ => none

/-- A capture takes its edge (R375). -/
def capTake (s : State) (d c : Nat) (t : Nat) : State :=
  modCap s d c fun u =>
    { u with armed := false, taken := some (t, s.frn, match (timeOf s d).stepped with
      | some f => decide (u.frm < f) && decide (f < s.frn)
      | none => false) }

/-- The value taken is written and CAP_DONE raised (R375). -/
def capWrite (s : State) (d c : Nat) : State :=
  match (capOf s d c).taken with
  | none => s
  | some (t, f, st) =>
    let s1 := setF (setF s TIME.CAP_SEC_LO d c 0 (timeSec t)) TIME.CAP_SEC_HI d c 0 (timeSec t / 2 ^ 32)
    let s2 := setF (setF (setF s1 TIME.CAP_NS d c 0 (timeNs t)) TIME.CAP_FRAC d c 0 (timeFrac t)) TIME.CAP_FRN d c 0 f
    let s3 := setF (setF s2 TIME.CAP_STAT_STATE d c 0 2) TIME.CAP_STAT_STEPPED d c 0 (b2n st)
    evt (modCap s3 d c fun u => { u with taken := none }) .time d 5

/-- A capture over one frame, after stage 1: it takes its edge, or counts one passed over (R374, R375). -/
def capFrame (s : State) (d c : Nat) : State :=
  let u := capOf s d c
  if !u.armed || decide (s.frn ≤ u.frm) then s
  else if bit1 s DPLL.STATUS_FB_LOST d then
    setF (setF (modCap s d c fun _ => {}) TIME.CAP_STAT_STATE d c 0 3) TIME.CAP_STAT_CAUSE d c 0 3
  else match capEdge s d u.src with
    | some t => capTake s d c t
    | none =>
      if (funcOf s u.src).t0.isSome then setF s TIME.CAP_STAT_SKIP d c 0 (satTo 0xFFFF (getF s TIME.CAP_STAT_SKIP d c 0 + 1))
      else s

/-- Stage 6 at the captures: the values taken in the frame before are written, then this frame's edges are taken. -/
def capStage (s : State) : State :=
  (List.range 4).foldl (fun t d => (List.range 8).foldl (fun v c => capFrame (capWrite v d c) d c) t) s

/-! ### The ToD message (R377 to R379) -/

/-- Whether the ToD UART of a domain sends (R377, R379). -/
def todSends (s : State) (d : Nat) : Bool := domRuns s d && get1 s TIME.TOD_CFG_CONN d == 1 && bit1 s TIME.TOD_CFG_TX_EN d

/-- Baud rate of a code (R378). -/
def baudRate (code : Nat) : Nat := [9600, 19200, 38400, 57600, 115200, 230400, 460800, 921600].getD code 9600

/-- The bytes of a number, most significant first. -/
def beBytes (v : Nat) : Nat → List Nat
  | 0 => []
  | n + 1 => (v / 256 ^ n % 256) :: beBytes v n

/-- Minutes of Dusk left as messages carry them (Table 11.5). -/
def duskMinutes (s : State) (d : Nat) : Nat :=
  if domState s d = 3 then satTo 0xFFFE (get1 s DPLL.DUSK_LEFT d / 60) else 0xFFFF

/-- Whether a slew of R361 is in progress: of the counter, or a change request's in the remaining offset. -/
def timeSlewing (s : State) (d : Nat) : Bool :=
  let u := domOf s d
  bit1 s TIME.STATUS_T_SLEWING d || (decide (u.slew ≠ 0) && (u.reqSlew || u.acqSlew))

/-- The ToD message that labels a second (Table 11.5). -/
def todBytes (s : State) (d sec seq : Nat) (stepped : Bool) : List Nat :=
  let flags := get1 s TIME.STATUS_TIME_SET d + 2 * b2n stepped + 4 * get1 s TIME.UTC_VALID d + 8 * get1 s TIME.UTC_LEAP61 d +
    16 * get1 s TIME.UTC_LEAP59 d + 32 * b2n (timeSlewing s d)
  let body := [0x45, 0x5A, 0x01, 0x10] ++ beBytes sec 6 ++ beBytes (get1 s TIME.UTC_OFS d) 2 ++
    [flags, domState s d + 16 * d, getF s SEL.ACTIVE_CLOCK_RANK 0 d 0, 0] ++ beBytes (duskMinutes s d) 2 ++ beBytes seq 2
  body ++ beBytes (crc16 body) 2

/-- The ToD message is sent (R379). -/
def todSend (s : State) (d sec : Nat) (stepped : Bool) : State :=
  let u := timeOf s d
  let seq := if u.tod.isEmpty then 0 else (get1 s TIME.TOD_STAT_TX_SEQ d + 1) % 65536
  let s1 := set1 s TIME.TOD_STAT_TX_SEQ d seq
  modTime s1 d fun v =>
    { v with tod := todBytes s1 d sec seq stepped, todDue := v.todDue.drop 1, todLeft := 220 * 8000 / baudRate u.baud + 1 }

/-- Whether a second is labelled TIME_STEPPED at a rollover (R365). -/
def todStepped (s : State) (d : Nat) : Bool :=
  match (timeOf s d).stepped with
  | some f => decide (f ≤ s.frn) && decide (s.frn < f + steppedSpan)
  | none => false

/-- A page that the UART is connected to anew sends from its next rollover, from message 0 on (Table 11.6). -/
def todConnect (s : State) (d : Nat) : State :=
  set1 (modTime s d fun u => { u with todDue := [], tod := [] }) TIME.TOD_STAT_TX_SEQ d 0

/-- One frame of the ToD UART: the delays and the transmission run down, and a message that is due waits for the one in
transmission (DESIGN CHOICE, notes/assumptions 70); BAUD acts between messages (R378, R379). -/
def todFrame (s : State) (d : Nat) : State :=
  let s1 := modTime s d fun u =>
    { u with todLeft := u.todLeft - 1, todDue := u.todDue.map fun (x : Nat × Nat × Bool) => (x.1, x.2.1 - 1, x.2.2) }
  let s2 := match (timeOf s d).todDue with
    | (sec, 0, st) :: _ =>
      if !todSends s1 d then modTime s1 d fun u => { u with todDue := u.todDue.drop 1 }
      else if (timeOf s1 d).todLeft = 0 then todSend s1 d sec st
      else s1
    | _ => s1
  if (timeOf s2 d).todLeft = 0 then modTime s2 d fun u => { u with baud := get1 s2 TIME.TOD_CFG_BAUD d } else s2

/-! ### Rollovers and the interval -/

/-- A seconds rollover outside the epoch counter: the ToD message is scheduled, and NMEA may label the second. -/
def rollEffects (s : State) (d sec : Nat) : State :=
  let s1 := modTime s d fun u => { u with rolled := some sec, nmeaSec := some sec }
  if todSends s1 d then
    modTime s1 d fun u => { u with todDue := u.todDue ++ [(sec, 8 * get1 s1 TIME.TOD_CFG_TX_DELAY d, todStepped s1 d)] }
  else s1

/-- A TIME_MARK that is due is written (R570). -/
def timeMark (s : State) (d : Nat) : State :=
  let u := timeOf s d
  match u.rolled with
  | some sec =>
    if u.mark then
      journalPg (modTime s d fun v => { v with mark := false }) 0x062 (some (ownerOf s .time d)) .time d (sec % 2 ^ 32)
    else s
  | none => s

/-- TIMEd, its APLL and its outputs over the interval that a tick closes (R333, R353, R354, R361, R370). -/
def timeAdvance (i : FrameIn) (s : State) (d : Nat) : State :=
  let s0 := (outsOf s d).foldl (fun t n => modOut t n fun u => { u with pulses := [] }) s
  if !domRuns s0 d then s0
  else
    let u := timeOf s0 d
    let run := vcoCycles s0 d i
    let cyc := run.1
    let still := retuning s0 d
    let base := if still then (if u.base = 0 then 125000 * nsUnit else u.base) else cyc * cycleUnit s0 d
    let part := slewPart s0 d
    let span := ((base : Int) + roundAway (part * lsbUnit)).toNat
    let t1 := (u.t + span) % timeWrap
    let roll := if timeSec u.t = timeSec t1 then none
      else some (((((secUnit - u.t % secUnit : Nat) : Rat) * (cyc : Rat) / (span : Rat)).ceil).toNat)
    let s1 := (List.range 8).foldl (fun t k => fireWithin d k u.t span cyc 3 t) s0
    let s2 := modApll (synthAdvance s1 d cyc u.t span roll) d fun a => { a with frac := run.2 }
    let s3 := modTime s2 d fun v =>
      { v with t := t1, span := span, base := base, rolled := none, slew := v.slew - part, cyc := if still then 0 else cyc }
    let s4 := publishSlew s3 d
    if roll.isSome then rollEffects s4 d (timeSec t1) else s4

/-- The time unit at a tick, before the boundary's actions: TICK, the hourly mark, the firings of the interval, a
LATE_OK firing, and STEPPED (R357, R363, R570). -/
def timeTick (s : State) (d : Nat) : State :=
  if !domRuns s d then modTime s d fun u => { u with fires := [], firesNext := [] }
  else
    let s1 := modTime s d fun u => { u with fires := u.firesNext, firesNext := [], jump := 0 }
    steppedFrame (todFrame s1 d) d

/-- After the boundary's actions: the EPOCH action of a trigger, the requests of the boundary, late firings, then the
mark of the interval's rollover and TICK. -/
def timeBoundary (s : State) (d : Nat) : State :=
  if !domRuns s d then publishTick (resolveReqs s d) d
  else
    let s1 := if (timeOf s d).epochAct then epochRequest (modTime s d fun u => { u with epochAct := false }) d else s
    let s2 := match (domOf s1 d).acqStep with
      | some delta => putReq (modDom s1 d fun u => { u with acqStep := none }) d 1 delta s1.frn
      | none => s1
    let due := (timeOf s2 d).mark
    let s3 := lateTrigs (resolveReqs s2 d) d
    let s4 := if due then timeMark s3 d else s3
    let s5 := if s4.frn % 28800000 = 0 then modTime s4 d fun u => { u with mark := true } else s4
    let s6 := modTime s5 d fun u => { u with ticks := ((u.t, u.span) :: u.ticks).take 1026 }
    publishTick s6 d

/-- TIMEd at a start of the domain: it reads 0 and everything it holds ends (R355, R373, R376). -/
def timeStart (s : State) (d : Nat) (runs : Bool) : State :=
  modTime s d fun u =>
    { trigs := u.trigs.map fun _ => {}, caps := u.caps.map fun _ => {}, mark := runs, baud := get1 s TIME.TOD_CFG_BAUD d,
      firesNext := [] }

/-- Take UTC.OFS, VALID, LEAP61 and LEAP59 from policy (R383). -/
def utcPolicy (s : State) (d : Nat) : State :=
  [TIME.UTC_OFS, TIME.UTC_VALID, TIME.UTC_LEAP61, TIME.UTC_LEAP59].foldl (fun t f => set1 t f d (polVal t.pol f d 0 0)) s

/-! ### NMEA input (R380 to R382) -/

/-- The digits of a field as a number, or none. -/
def digitsNat : List Nat → Option Nat
  | [] => none
  | l => if l.all fun c => decide (48 ≤ c) && decide (c ≤ 57) then some (l.foldl (fun a c => 10 * a + (c - 48)) 0) else none

/-- Split a sentence's body at commas. -/
def splitCommas (l : List Nat) : List (List Nat) :=
  l.foldr (fun c acc => if c = 44 then [] :: acc else match acc with
    | [] => [[c]]
    | f :: r => (c :: f) :: r) [[]]

/-- The value of a hexadecimal digit. -/
def hexVal (c : Nat) : Option Nat :=
  if 48 ≤ c ∧ c ≤ 57 then some (c - 48) else if 65 ≤ c ∧ c ≤ 70 then some (c - 55)
  else if 97 ≤ c ∧ c ≤ 102 then some (c - 87) else none

/-- The body of a sentence with a valid checksum and length: `$` body `*` two digits, with or without CR LF. -/
def nmeaBody (text : List Nat) : Option (List Nat) :=
  let l := if text.reverse.take 2 = [10, 13] then text.take (text.length - 2) else text
  if 82 < text.length then none
  else match l with
  | 36 :: r =>
    let body := r.takeWhile fun c => c != 42
    match r.drop body.length with
    | [42, a, b] =>
      match hexVal a, hexVal b with
      | some x, some y => if body.foldl (fun c v => c ^^^ v) 0 = 16 * x + y then some body else none
      | _, _ => none
    | _ => none
  | _ => none

/-- Whether a year is a leap year. -/
def leapYear (y : Nat) : Bool := (y % 4 == 0 && y % 100 != 0) || y % 400 == 0

/-- Days in a month. -/
def monthDays (y m : Nat) : Nat :=
  if m = 2 then (if leapYear y then 29 else 28) else if m = 4 ∨ m = 6 ∨ m = 9 ∨ m = 11 then 30 else 31

/-- Days from 1970-01-01 to a date. -/
def daysFrom (y m d : Nat) : Nat :=
  let a := y - 1
  (a * 365 + a / 4 - a / 100 + a / 400) - 719162 + ((List.range (m - 1)).map fun k => monthDays y (k + 1)).foldl (· + ·) 0 +
    (d - 1)

/-- Seconds of the day from hhmmss with a fraction of zero, or none. -/
def nmeaTime (f : List Nat) : Option Nat :=
  let frac := f.drop 6
  let zero : Bool := match frac with
    | [] => true
    | 46 :: r => r.all fun c => c == 48
    | _ => false
  match digitsNat (f.take 2), digitsNat ((f.drop 2).take 2), digitsNat ((f.drop 4).take 2) with
  | some h, some m, some sec =>
    if zero ∧ 6 ≤ f.length ∧ h < 24 ∧ m < 60 ∧ sec < 60 then some (h * 3600 + m * 60 + sec) else none
  | _, _, _ => none

/-- Seconds since 1970 without leap seconds, for a date in a valid range. -/
def nmeaLabel (y m d secs : Nat) : Option Nat :=
  if 1970 ≤ y ∧ 1 ≤ m ∧ m ≤ 12 ∧ 1 ≤ d ∧ d ≤ monthDays y m then some (daysFrom y m d * 86400 + secs) else none

/-- The UTC second of an accepted sentence, ZDA or RMC (R380). -/
def nmeaParse (text : List Nat) : Option Nat :=
  match nmeaBody text with
  | none => none
  | some body =>
    match splitCommas body with
    | name :: fs =>
      if name.length ≠ 5 then none
      else if name.drop 2 = [90, 68, 65] then
        match fs with
        | t :: d :: m :: y :: _ =>
          match nmeaTime t, digitsNat d, digitsNat m, digitsNat y with
          | some secs, some dd, some mm, some yy => nmeaLabel yy mm dd secs
          | _, _, _, _ => none
        | _ => none
      else if name.drop 2 = [82, 77, 67] then
        match fs with
        | t :: [65] :: _ :: _ :: _ :: _ :: _ :: _ :: date :: _ =>
          match nmeaTime t, digitsNat (date.take 2), digitsNat ((date.drop 2).take 2), digitsNat (date.drop 4) with
          | some secs, some dd, some mm, some yy =>
            if date.length = 6 then nmeaLabel (2000 + yy) mm dd secs else none
          | _, _, _, _ => none
        | _ => none
      else none
    | [] => none

/-- Whether Leaf runs (Table 14.9a, STATUS.LEAF). -/
def leafRuns (s : State) : Bool := get1 s ROOT.STATUS_LEAF 0 == 0

/-- Leaf goes down: MATCH_RUN stays, and three more sentences are needed for a request (Table 11.6). -/
def nmeaPause (s : State) (d : Nat) : State := modTime s d fun u => { u with nmeaLast := 0 }

/-- A used label's MISMATCH (R382). -/
def nmeaUse (s : State) (d : Nat) (m : Int) : State :=
  let sat := if m > 127 then 127 else if m < -127 then -127 else m
  let s1 := set1 s TIME.TOD_STAT_MISMATCH d (ofSigned 8 sat)
  if m = 0 then
    modTime (set1 (set1 s1 TIME.TOD_STAT_MATCH_RUN d 0) TIME.STATUS_TOD_MISMATCH d 0) d fun u => { u with nmeaLast := 0 }
  else
    let old := get1 s TIME.TOD_STAT_MATCH_RUN d
    let run := if (timeOf s d).nmeaLast = m ∧ old < 3 then old + 1 else 1
    let s2 := evtIf (!bit1 s TIME.STATUS_TOD_MISMATCH d) (set1 s1 TIME.STATUS_TOD_MISMATCH d 1) .time d 6
    let s3 := modTime (set1 s2 TIME.TOD_STAT_MATCH_RUN d run) d fun u => { u with nmeaLast := m }
    if run = 3 then putReq s3 d 3 ((m : Rat) * 1000000000) (s.frn + 1) else s3

/-- A received sentence (R380 to R382). -/
def nmea (s : State) (d : Nat) (text : List Nat) (afterUs : Nat) : State :=
  match nmeaParse text with
  | none => evt (addCnt s TIME.NMEA_BAD_CNT d 0 1) .time d 7
  | some utc =>
    let s1 := addCnt s TIME.NMEA_OK_CNT d 0 1
    let inWindow := decide (10000 ≤ afterUs) && decide (afterUs ≤ 900000)
    let s2 := modTime s1 d fun u => { u with nmeaSec := none }
    if !inWindow then addCnt s2 TIME.NMEA_PHASE_CNT d 0 1
    else match (timeOf s d).nmeaSec with
      | none => s2
      | some sec => nmeaUse s2 d ((utc : Int) + toSigned 16 (get1 s TIME.UTC_OFS d) - (sec : Int))

/-! ### Meanings -/

/-- STEPPED_END (R363): STEPPED clears 128 000 frames after the latest step. -/
def execSteppedEnd (dom : Nat) (s : State) : Host.Outcome State Fault Refusal :=
  if dom < 4 then .next (steppedFrame s dom) else .refused .illFormed

/-- SET_ABS (R83, R359): a request for the next boundary. -/
def execSetAbs (dom : Nat) (s : State) : Host.Outcome State Fault Refusal :=
  if dom < 4 then .next (hostSet s dom true false (s.frn + 1)) else .refused .illFormed

/-- SET_REL (R359). -/
def execSetRel (dom : Nat) (s : State) : Host.Outcome State Fault Refusal :=
  if dom < 4 then .next (hostSet s dom false true (s.frn + 1)) else .refused .illFormed

/-- TRIG_ARM (R368, R369, R372) as it acts. -/
def execTrigArm (dom k : Nat) (s : State) : Host.Outcome State Fault Refusal :=
  if dom < 4 ∧ k < 8 then .next (trigArmAct s dom k) else .refused .illFormed

/-- TRIG_DISARM (R373) as it acts. -/
def execTrigDisarm (dom k : Nat) (s : State) : Host.Outcome State Fault Refusal :=
  if dom < 4 ∧ k < 8 then .next (trigDisarmAct s dom k) else .refused .illFormed

/-- CAP_ARM (R374) as it acts. -/
def execCapArm (dom c : Nat) (s : State) : Host.Outcome State Fault Refusal :=
  if dom < 4 ∧ c < 8 then .next (capArmAct s dom c) else .refused .illFormed

/-- CAP_CANCEL (R376) as it acts. -/
def execCapCancel (dom c : Nat) (s : State) : Host.Outcome State Fault Refusal :=
  if dom < 4 ∧ c < 8 then .next (capCancelAct s dom c) else .refused .illFormed

/-- BAUD_WRITE (R378): the field changes; the UART takes it once no message is in transmission. -/
def baudSet (s : State) (d v : Nat) : State :=
  let s1 := set1 s TIME.TOD_CFG_BAUD d v
  if (timeOf s1 d).todLeft = 0 then modTime s1 d fun u => { u with baud := v % 8 } else s1

def execBaudWrite (dom baud : Nat) (s : State) : Host.Outcome State Fault Refusal :=
  if dom < 4 ∧ baud < 8 then .next (baudSet s dom baud) else .refused .illFormed

/-- SECONDS_ROLLOVER (R353): the seconds of a running TIMEd change at the counter's present value; E is zeroed if
that is due, the mark is written and the ToD message scheduled. -/
def execSecondsRollover (dom : Nat) (s : State) : Host.Outcome State Fault Refusal :=
  if dom < 4 then
    if domRuns s dom then
      let sec := (timeSec (timeOf s dom).t + 1) % 2 ^ 48
      let s1 := modTime s dom fun u => { u with t := (u.t - u.t % secUnit + secUnit) % timeWrap }
      .next (timeMark (rollEffects (zeroNow s1 dom) dom sec) dom)
    else .next s
  else .refused .illFormed

/-- TRIG_FIRE (R370, R371): TIMEd reaches the next instance of an armed trigger; the edges are the target channel's
measured edges, in LSB from that instant. -/
def execTrigFire (dom k : Nat) (edges : List Rat) (s : State) : Host.Outcome State Fault Refusal :=
  if dom < 4 ∧ k < 8 then
    let u := trigOf s dom k
    if domRuns s dom && u.armed then
      let late := u.late.isSome
      let t := if late then (timeOf s dom).t else trigAt u * nsUnit
      let f := fireTrig s dom k t 1 (s.frn + 1) late false 0 0
      if u.action = 1 then
        .next (trigInterval (modTrig f dom k fun x => { x with ivl := none }) dom k edges fun _ => (laneFor s u.target).isNone)
      else .next f
    else .next s
  else .refused .illFormed

/-- CAP_DONE (R375): an armed capture takes a qualifying edge of the frame in progress, and its value is written. -/
def execCapDone (dom c : Nat) (s : State) : Host.Outcome State Fault Refusal :=
  if dom < 4 ∧ c < 8 then
    let u := capOf s dom c
    if u.taken.isSome then .next (capWrite s dom c)
    else if u.armed && decide (u.frm < s.frn) then
      match capEdge s dom u.src with
      | some t => .next (capWrite (capTake s dom c t) dom c)
      | none => .next s
    else .next s
  else .refused .illFormed

/-- TOD_MESSAGE (R379): TX_DELAY after a rollover the message that labels it is sent. -/
def execTodMessage (dom : Nat) (s : State) : Host.Outcome State Fault Refusal :=
  if dom < 4 then
    match (timeOf s dom).todDue with
    | (sec, _, st) :: _ => if todSends s dom then .next (todSend s dom sec st) else .next s
    | [] => .next s
  else .refused .illFormed

/-- NMEA_SENTENCE (R380 to R382): bytes received on TOD_RX of the connected domain, and the time from the latest
rollover to the start of the sentence. Nothing is parsed without RX_EN or while Leaf does not run. -/
def execNmeaSentence (dom : Nat) (text : List Nat) (afterUs : Nat) (s : State) : Host.Outcome State Fault Refusal :=
  if dom < 4 ∧ text.all (fun c => decide (c < 256)) then
    if get1 s TIME.TOD_CFG_CONN dom == 1 && bit1 s TIME.TOD_CFG_RX_EN dom && leafRuns s then
      .next (nmea s dom text afterUs)
    else .next s
  else .refused .illFormed

end Sys2Proof.Machine
end

