-- ==== Sys2Proof/Machine/Gate.lean ====
section
/-! DEFINITION. Gate calls (R447 to R451, Table 14.1): the bound of each call, refusals, the queue of boundary calls
and what each does when it acts; and the state of a PTP instance that a refusal or a fault can end (R399). -/

namespace Sys2Proof.Machine

/-! ### PTP instances: blocks, closes and restarts (R397, R399, R417) -/

/-- Whether instance `p` uses port `n`: CFG.EN, in an open partition (R397). -/
def instOn (s : State) (n p : Nat) : Bool := isOpen s p && getF s PTPTS.CFG_EN n p 0 == 1

/-- The ports an instance uses. -/
def instPorts (s : State) (p : Nat) : List Nat := (List.range 2).filter fun n => instOn s n p

/-- Whether an instance is closed (R399). -/
def instClosed (s : State) (p : Nat) : Bool := (List.range 2).any fun n => getF s PTPTS.STATE_CLOSED n p 0 == 1

/-- An event of an instance block: raised in its page and as PTP_EVT of its partition (R417). -/
def ptpEvt (s : State) (n p bit : Nat) : State := partEvt (evt s .ptpts n bit) p 13

/-- A PTP port changes state (Table 12.10). -/
def setPtpPort (s : State) (n p v : Nat) : State :=
  if getF s PTPTS.STATE_PORT n p 0 = v then s else ptpEvt (setF s PTPTS.STATE_PORT n p 0 v) n p 2

/-- The RO fields of an instance block beside its state of closing. -/
def instRo : List Fld :=
  [PTPTS.PARENT_LO, PTPTS.PARENT_HI, PTPTS.GM_CLASS, PTPTS.GM_STEPS, PTPTS.MPD, PTPTS.OFFSET, PTPTS.GRANTS_SLAVES,
   PTPTS.GRANTS_RATE]

/-- The parent's clockIdentity as an instance block shows it. -/
def parentOf (s : State) (n p : Nat) : Nat := getF s PTPTS.PARENT_LO n p 0 + 2 ^ 32 * getF s PTPTS.PARENT_HI n p 0

/-- The parent of an instance changes (R401). -/
def setParent (s : State) (n p id : Nat) : State :=
  let s1 := setF (setF s PTPTS.PARENT_LO n p 0 id) PTPTS.PARENT_HI n p 0 (id / 2 ^ 32)
  journalPg (ptpEvt s1 n p 1) 0x072 (some p) .ptpts n id

/-- An instance's port block returns to its start; a parent that ends with it is a change of parent (R401). -/
def blockClear (s : State) (n p : Nat) : State :=
  let s1 := if instOn s n p then setPtpPort s n p 0 else setF s PTPTS.STATE_PORT n p 0 0
  let s2 := if instOn s1 n p && parentOf s1 n p != 0 then setParent s1 n p 0 else s1
  instRo.foldl (fun t f => setF t f n p 0 f.reset) s2

/-- Return an instance's state to its start, keeping its record of closes. -/
def instClear (s : State) (p : Nat) : State :=
  let s1 := (List.range 2).foldl (fun t n => blockClear t n p) s
  modPtp s1 p fun u => { closes := u.closes, held := u.held }

/-- Clear CLOSED and CAUSE of an instance. -/
def instOpen (s : State) (p : Nat) : State :=
  (List.range 2).foldl (fun t n => setF (setF t PTPTS.STATE_CLOSED n p 0 0) PTPTS.STATE_CAUSE n p 0 0) s

/-- The packet channels that instance `p` feeds (R410). -/
def fedChans (s : State) (p : Nat) : List Nat :=
  [10, 11].filter fun c => (instPorts s p).any fun n => getF s PTPTS.CFG_FEED n p 0 == c - 9

/-- A packet channel fails NO_ACTIVITY at once (Table 8.4) and loses its baseline (R412). -/
def pktFail (s : State) (c : Nat) : State := modChan (dropBaseline s c) c fun u => { u with dead := true }

/-- The gate calls of an instance leave the queue. -/
def dropCalls (s : State) (p : Nat) : State :=
  { s with gate := { s.gate with queue := s.gate.queue.filter fun x => match x.2 with
      | .pkt i _ _ _ _ => i != p
      | .time i _ _ => i != p
      | .utc i _ _ _ _ => i != p
      | _ => true } }

/-- An instance restarts through INITIALIZING: its closure ends unless it stays closed (R399, R467). -/
def instRestart (s : State) (p : Nat) : State :=
  let s1 := (fedChans s p).foldl (fun t c => modPkt t (c - 10) fun u => { u with base := false }) (instClear (dropCalls s p) p)
  if (ptpOf s1 p).held then s1 else instOpen s1 p

/-- A partition reset or a commit ends every closure of an instance and its record (R38, R399). -/
def instReset (s : State) (p : Nat) : State := instRestart (modPtp s p fun _ => {}) p

/-- Frames in 10 min, in 60 s and in 1 s (R399). -/
def tenMin : Nat := 4800000
def oneMin : Nat := 480000
def oneSec : Nat := 8000

/-- An instance closes (R36, R399): its packet channel fails, its ports end, and the close is counted and journalled;
the third in 10 min holds it closed. -/
def instClose (s : State) (p cause : Nat) : State :=
  if instClosed s p then s
  else
    let ps := instPorts s p
    let closes := s.frn :: (ptpOf s p).closes.filter fun f => decide (s.frn < f + tenMin)
    let held := decide (3 ≤ closes.length)
    let s1 := (fedChans s p).foldl pktFail s
    let s2 := modPtp (instClear s1 p) p fun u => { u with closes := closes, held := held }
    let s3 := ps.foldl (fun t n =>
      let t1 := setF (setF t PTPTS.STATE_CLOSED n p 0 1) PTPTS.STATE_CAUSE n p 0 cause
      ptpEvt (addCnt t1 PTPTS.CLOSE_CNT n p 1) n p 0) s2
    journalPg s3 0x071 (some p) .ptpts (ps.headD 0) (cause + 256 * b2n held)

/-- A message counted in BAD_CNT or UNKNOWN_CNT: more than 1000 in a second close the instance (R399). -/
def strange (s : State) (f : Fld) (n p : Nat) : State :=
  let s1 := addCnt s f n p 1
  let bad := s1.frn :: (ptpOf s1 p).bad.filter fun x => decide (s1.frn < x + oneSec)
  let s2 := modPtp s1 p fun v => { v with bad := bad }
  if 1000 < bad.length then instClose s2 p 2 else s2

/-! ### Results and refusals (R448, R451) -/

/-- Result code of a call, as it returns to Leaf. -/
def gateRes (s : State) (r : Nat) : State := { s with gate := { s.gate with res := r, data := [] } }

/-- A call is refused (R448): counted, GATE_LAST, and GATE_REFUSED once per call code and second. -/
def gateRefuse (s : State) (code r : Nat) : State :=
  let s1 := addCnt (gateRes s r) ROOT.GATE_REFUSE_CNT 0 0 1
  let s2 := set1 (set1 (set1 s1 ROOT.GATE_LAST_CALL 0 code) ROOT.GATE_LAST_RESULT 0 r) ROOT.GATE_LAST_FRN 0 s.frn
  let sec := s.frn / 8000
  if kvGet s2.gate.raised code = some sec then s2
  else evt { s2 with gate := { s2.gate with raised := kvSet s2.gate.raised code sec } } .root 0 7

/-- The call code of a boundary call (Table 14.1). -/
def GateCall.code : GateCall → Nat
  | .ql .. => 1
  | .pkt .. => 2
  | .time .. => 3
  | .utc .. => 4
  | .page .. => 8

/-- A refused estimate is counted; the sixteenth in a row closes the instance with DIVERGE (R451). -/
def pktRefused (s : State) (p : Nat) : State :=
  let n := (ptpOf s p).refused + 1
  let s1 := modPtp s p fun u => { u with refused := n }
  if 16 ≤ n then instClose s1 p 1 else s1

/-- Refuse a boundary call. -/
def callRefuse (s : State) (c : GateCall) (r : Nat) : State :=
  let s1 := gateRefuse s c.code r
  match c with
  | .pkt p _ _ _ _ => pktRefused s1 p
  | _ => s1

/-! ### Bounds (Table 14.1) -/

/-- The fields that PAGE_REPORT may write at a word address, with their indices: the instance blocks except CFG,
RATES, ASYM and AMT; SHELF fields other than FC, TEC_REC and NODE; ETHn.ESMC_TX; TOD_STAT MISMATCH and MATCH_RUN;
the NMEA counters. -/
def leafFields : List (Page × Fld) :=
  (instRo ++ [PTPTS.STATE_PORT, PTPTS.STATE_CLOSED, PTPTS.STATE_CAUSE, PTPTS.RX_SYNC_CNT, PTPTS.TX_SYNC_CNT,
    PTPTS.UNKNOWN_CNT, PTPTS.BAD_CNT, PTPTS.CLOSE_CNT, PTPTS.EST_CNT]).map (fun f => (.ptpts, f)) ++
  ((SHELF.fields.filter fun f => (f.acc == .ro || f.acc == .cnt) &&
    !([SHELF.STATUS_FC, SHELF.TEC_REC_TEC, SHELF.TEC_REC_REC, SHELF.NODE].contains f)).map fun f => (.shelf, f)) ++
  [(.eth, ETH.ESMC_TX_SSM), (.eth, ETH.ESMC_TX_ECODE), (.time, TIME.TOD_STAT_MISMATCH), (.time, TIME.TOD_STAT_MATCH_RUN),
   (.time, TIME.NMEA_OK_CNT), (.time, TIME.NMEA_BAD_CNT), (.time, TIME.NMEA_PHASE_CNT)]

/-- The Leaf-reported fields of the word at an address: field, instance and index. -/
def leafWord (addr : Nat) : List (Fld × Nat × Nat) :=
  leafFields.flatMap fun x => (List.range (pageCount x.1)).flatMap fun n =>
    ((List.range x.2.n1).filter fun k => fldAddr x.2 n k 0 == addr).map fun k => (x.2, n, k)

/-- The bound of a boundary call at a boundary: the refusal's result code, or none (Table 14.1). -/
def gateCheck (s : State) (b : Nat) : GateCall → Option Nat
  | .ql c src node _ _ _ =>
    if c < 12 ∧ src ≠ 0 ∧ qlSrc s c = src ∧ (src = 3 → polVal s.pol CHAN.QL_NODE c 0 0 = node) then none else some 9
  | .pkt p c fe _ r =>
    let u := pktOf s (c - 10)
    if !(decide (10 ≤ c ∧ c < 12) && (fedChans s p).contains c) then some 2
    else if instClosed s p then some 7
    else if (match u.fe with
      | some f => decide (fe ≤ f)
      | none => false) || decide (fe + 1024 < b) then some 4
    else if 1 / 2000 < absR r then some 3
    else none
  | .time p d delta =>
    if d ≠ p then some 2
    else if bit1 s TIME.STATUS_TIME_SET d && decide ((get1 s ROOT.LEAF_LIMITS 0 : Rat) * 1000000000 < absR delta) then some 3
    else none
  | .utc p q ofs l61 l59 =>
    if q ≠ p ∨ !(ptpOf s p).utcOk then some 2 else if 255 < ofs.natAbs ∨ (l61 && l59) then some 1 else none
  | .page addr _ => if (leafWord addr).isEmpty then some 2 else none

/-- Calls the gate queue holds (Table 14.10). -/
def gateDepth : Nat := 256

/-- Leaf makes a boundary call (R448, R449): judged now, and queued for its boundary. -/
def gateCall (s : State) (cyc : Nat) (c : GateCall) : State :=
  if !leafRuns s then s
  else
    let b := dueOf s cyc
    match gateCheck s b c with
    | some r => callRefuse s c r
    | none =>
      if gateDepth ≤ s.gate.queue.length then callRefuse s c 8
      else gateRes { s with gate := { s.gate with queue := s.gate.queue ++ [(b, c)] } } 0

/-! ### What the calls do (R252, R412, R413, R401) -/

/-- The Announce receipt timeout of the instance that feeds a packet channel, in frames. -/
def announceFrames (s : State) (c : Nat) : Nat :=
  let port := (List.range 2).flatMap fun n => ((List.range 4).filter fun p =>
    instOn s n p && getF s PTPTS.CFG_FEED n p 0 == c - 9).map fun p => (n, p)
  match port with
  | [] => 0
  | (n, p) :: _ =>
    let t : Rat := (getF s PTPTS.RATES_ANN_TMO n p 0 : Rat) * 8000
    let l := toSigned 8 (getF s PTPTS.RATES_LOG_ANN n p 0)
    (if 0 ≤ l then t * ((2 ^ l.toNat : Nat) : Rat) else t / ((2 ^ (-l).toNat : Nat) : Rat)).floor.toNat

/-- The timeout of a QL source in frames (Table 8.1). -/
def qlTimeoutOf (s : State) (c src : Nat) : Nat :=
  if src = 1 ∨ src = 2 then 40000 else if src = 3 then 8000 else announceFrames s c

/-- A received QL takes effect (R252 to R256): Root maps the codes; a pair that Table 8.2 does not list gives rank 0
and counts on the receiving port. -/
def qlApply (s : State) (c src ssm : Nat) (ecode : Option Nat) (first : Bool) : State :=
  let s1 := setF (setF s SEL.CHAN_QL_SSM 0 c 0 ssm) SEL.CHAN_QL_ECODE 0 c 0 (ecode.getD 0xFF)
  let rank := if src = 4 then some (classRank (ecode.getD 0xFF)) else ssmRank ssm ecode
  let s2 := if rank.isNone && first && (src == 1 || src == 2) then
      addCnt s1 (if src = 1 then SEL.ESMC_BAD_CNT0 else SEL.ESMC_BAD_CNT1) 0 0 1 else s1
  applyRank s2 c (rank.getD 0) (qlTimeoutOf s2 c src)

/-- An estimate is applied (R412): its sample 0 against the previous one, and F_e and M for the phase detectors. -/
def pktApply (s : State) (p c fe : Nat) (m : Rat) : State :=
  let u := pktOf s (c - 10)
  let f := u.fe.getD fe
  let x := roundAway (((fe : Int) - (f : Int) : Int) * frameLsb - (m - u.m))
  let s1 := modPkt s (c - 10) fun _ =>
    { fe := some fe, base := true, m := m, gap := fe - f, got := true, fresh := u.fresh ++ if u.base then [x] else [] }
  modChan (modPtp s1 p fun v => { v with refused := 0 }) c fun v => { v with dead := false }

/-- TIMEp.UTC takes the parent's values (R401). -/
def utcApply (s : State) (p : Nat) (ofs : Int) (l61 l59 : Bool) : State :=
  set1 (set1 (set1 (set1 s TIME.UTC_OFS p (ofSigned 16 ofs)) TIME.UTC_VALID p 1) TIME.UTC_LEAP61 p (b2n l61)) TIME.UTC_LEAP59 p
    (b2n l59)

/-- Leaf's report that an instance it runs has closed itself: an internal check failed, CAUSE 3 (R399, notes/assumptions 51). -/
def closeReport (s : State) (value : Nat) (x : Fld × Nat × Nat) : Bool :=
  x.1 == PTPTS.STATE_CLOSED && bitsOf value PTPTS.STATE_CLOSED.lo 1 == 1 &&
  bitsOf value PTPTS.STATE_CAUSE.lo PTPTS.STATE_CAUSE.width == 3 && instOn s x.2.1 x.2.2 && !instClosed s x.2.2

/-- Write the Leaf-reported fields of a word; a report of an internal failure closes its instance (R399). -/
def pageApply (s : State) (addr value : Nat) : State :=
  let s1 := ((leafWord addr).filter (closeReport s value)).foldl (fun t x => instClose t x.2.2 3) s
  (leafWord addr).foldl (fun t x => setF t x.1 x.2.1 x.2.2 0 (bitsOf value x.1.lo x.1.width)) s1

/-- A queued call acts at step 4 of its boundary, judged again (R449, Table 14.8). -/
def gateAct (s : State) (c : GateCall) : State :=
  match gateCheck s s.frn c with
  | some r => callRefuse s c r
  | none =>
    match c with
    | .ql ch src _ ssm ecode first => qlApply s ch src ssm ecode first
    | .pkt p ch fe m _ => pktApply s p ch fe m
    | .time _ d delta => putReq s d 2 delta s.frn
    | .utc _ p ofs l61 l59 => utcApply s p ofs l61 l59
    | .page addr value => pageApply s addr value

/-- Step 4 of a boundary: the calls that are due act in the order they were made (R64, R449). -/
def gateStep (s : State) : State :=
  let due := s.gate.queue.filter fun x => decide (x.1 ≤ s.frn)
  let s1 := { s with gate := { s.gate with queue := s.gate.queue.filter fun x => decide (s.frn < x.1) },
                     pkts := s.pkts.map fun u => { u with got := false, fresh := [] } }
  due.foldl (fun t x => gateAct t x.2) s1

/-! ### Meanings -/

/-- QL_DELIVER (R252, Table 14.1): the codes have the widths of Table 8.2. For source 4 the enhanced code is the clockClass. -/
def execQlDeliver (chan source node ssm : Nat) (ecode : Option Nat) (cyc : Nat) (s : State) : Host.Outcome State Fault Refusal :=
  if ssm < 16 ∧ ecode.getD 0 < 256 ∧ cyc < 1250 then
    .next (gateCall s cyc (.ql chan source node ssm ecode true))
  else .refused .illFormed

/-- PKT_ESTIMATE (R411, Table 14.1); M in LSB. -/
def execPktEstimate (inst chan fe : Nat) (m r : Rat) (cyc : Nat) (s : State) : Host.Outcome State Fault Refusal :=
  if inst < 4 ∧ cyc < 1250 then .next (gateCall s cyc (.pkt inst chan fe m r)) else .refused .illFormed

/-- TIME_CHANGE (R413, Table 14.1); the change in ns. -/
def execTimeChange (inst dom : Nat) (delta : Rat) (cyc : Nat) (s : State) : Host.Outcome State Fault Refusal :=
  if inst < 4 ∧ cyc < 1250 then .next (gateCall s cyc (.time inst dom delta)) else .refused .illFormed

/-- UTC_UPDATE (R401, Table 14.1). -/
def execUtcUpdate (inst part : Nat) (ofs : Int) (leap61 leap59 : Bool) (cyc : Nat) (s : State) : Host.Outcome State Fault Refusal :=
  if inst < 4 ∧ cyc < 1250 then .next (gateCall s cyc (.utc inst part ofs leap61 leap59)) else .refused .illFormed

/-- PAGE_REPORT (Table 14.1). -/
def execPageReport (addr value cyc : Nat) (s : State) : Host.Outcome State Fault Refusal :=
  if value < 2 ^ 32 ∧ cyc < 1250 then .next (gateCall s cyc (.page addr value)) else .refused .illFormed

/-- JOURNAL (Table 14.1): an entry of the Leaf range, at most 64 per second. -/
def gateJournal (s : State) (code part data : Nat) : State :=
  if !leafRuns s then s
  else
    let sec := s.frn / 8000
    let k := if s.gate.jrn.1 = sec then s.gate.jrn.2 else 0
    if code < 0x800 ∨ 0xFFE < code ∨ 4 ≤ part then gateRefuse s 0x09 1
    else if 64 ≤ k then gateRefuse s 0x09 5
    else
      let s1 := journal (gateRes s 0) code (some part) 0x40 0 data
      { s1 with gate := { s1.gate with jrn := (sec, k + 1) } }

def execJournal (code part data : Nat) (s : State) : Host.Outcome State Fault Refusal :=
  if data < 2 ^ 32 then .next (gateJournal s code part data) else .refused .illFormed

end Sys2Proof.Machine
end

