-- ==== Sys2Proof/Machine/Ether.lean ====
section
/-! DEFINITION. Ethernet ports (R386 to R393, R402 to R408, R414, R415): modes, receive classification, the flood
limiter, timestamps, calibration, loss and re-enable, ESMC, sent frames and one-step Sync insertion. -/

namespace Sys2Proof.Machine

/-! ### Bytes of a frame -/

/-- `n` bytes from an offset, most significant first. -/
def beAt (b : List Nat) (off n : Nat) : Nat := ((b.drop off).take n).foldl (fun a c => 256 * a + c) 0

/-- Write `n` bytes at an offset, most significant first. -/
def putBE (b : List Nat) (off n v : Nat) : List Nat := b.take off ++ beBytes v n ++ b.drop (off + n)

/-- How many VLAN tags a frame carries from an offset on (TPID 0x8100 or 0x88A8), counted up to 4. -/
def tagCount (b : List Nat) (off : Nat) : Nat → Nat
  | 0 => 0
  | n + 1 => if beAt b off 2 = 0x8100 ∨ beAt b off 2 = 0x88A8 then tagCount b (off + 4) n + 1 else 0

/-- What a frame is by its bytes alone (Table 12.2): the offset of the PTP header, of the ESMC or ARP payload, and the
IP destination. -/
inductive EthKind where
  | ptpL2 (off : Nat)
  | ptpUdp4 (off dst : Nat)
  | ptpUdp6 (off dst : Nat)
  | esmc (off : Nat)
  | arp (target : Nat)
  | nd (target dst : Nat)
  | tags
  | otherEtype
  | otherIp
  deriving DecidableEq, Repr

/-- An IPv4 packet at an offset: UDP to port 319 or 320, no fragment; anything else is OTHER_IP. -/
def ip4Kind (b : List Nat) (o : Nat) : EthKind :=
  let ihl := beAt b o 1 % 16
  let u := o + 4 * ihl
  let port := beAt b (u + 2) 2
  if beAt b o 1 / 16 = 4 ∧ 5 ≤ ihl ∧ beAt b (o + 9) 1 = 17 ∧ beAt b (o + 6) 2 % 2 ^ 14 = 0 ∧ (port = 319 ∨ port = 320) then
    .ptpUdp4 (u + 8) (beAt b (o + 16) 4)
  else .otherIp

/-- An IPv6 packet at an offset, without extension headers. -/
def ip6Kind (b : List Nat) (o : Nat) : EthKind :=
  let next := beAt b (o + 6) 1
  let port := beAt b (o + 42) 2
  let icmp := beAt b (o + 40) 1
  if beAt b o 1 / 16 = 6 ∧ next = 17 ∧ (port = 319 ∨ port = 320) then .ptpUdp6 (o + 48) (beAt b (o + 24) 16)
  else if beAt b o 1 / 16 = 6 ∧ next = 58 ∧ (icmp = 135 ∨ icmp = 136) then .nd (beAt b (o + 48) 16) (beAt b (o + 24) 16)
  else .otherIp

/-- What a frame is by its bytes. -/
def ethKind (b : List Nat) : EthKind :=
  let v := tagCount b 12 4
  let o := 12 + 4 * v
  let e := beAt b o 2
  if 2 < v then .tags
  else if e = 0x88F7 then .ptpL2 (o + 2)
  else if e = 0x8809 ∧ beAt b (o + 2) 1 = 0x0A then .esmc (o + 2)
  else if e = 0x0806 then (if beAt b (o + 8) 2 = 1 ∨ beAt b (o + 8) 2 = 2 then .arp (beAt b (o + 26) 4) else .otherEtype)
  else if e = 0x0800 then ip4Kind b (o + 2)
  else if e = 0x86DD then ip6Kind b (o + 2)
  else .otherEtype

/-- Whether a kind belongs to an admitted class of Table 12.2. -/
def EthKind.admitted : EthKind → Bool
  | .tags | .otherEtype | .otherIp => false
  | _ => true

/-- The offset of the PTP header, where the frame is a PTP message. -/
def EthKind.ptpOff : EthKind → Option Nat
  | .ptpL2 o | .ptpUdp4 o _ | .ptpUdp6 o _ => some o
  | _ => none

/-- Whether the unit stamps the frame: a PTP event message, by its messageType over Ethernet, by port 319 over UDP
(Table 12.2, R402). -/
def isEvent (b : List Nat) : Bool :=
  match ethKind b with
  | .ptpL2 o => decide (beAt b o 1 % 16 < 4)
  | .ptpUdp4 o _ | .ptpUdp6 o _ => beAt b (o - 6) 2 == 319
  | _ => false

/-! ### What a port admits (R389) -/

/-- Port mode (Table 12.1). -/
def portMode (s : State) (n : Nat) : Nat := get1 s ETH.MODE_MODE n

/-- Whether a port is enabled: CTRL.ENABLE and a mode other than 0 (R414). -/
def portEnabled (s : State) (n : Nat) : Bool := bit1 s ETH.CTRL_ENABLE n && portMode s n != 0

/-- Whether a port's link is up. -/
def portUp (s : State) (n : Nat) : Bool := bit1 s ETH.STATUS_LINK n

/-- The port's MAC address, its first byte the most significant. -/
def portMac (s : State) (n : Nat) : Nat := get1 s ETH.MAC_LO n + 2 ^ 32 * get1 s ETH.MAC_HI n

/-- The instances on a port. -/
def portInsts (s : State) (n : Nat) : List Nat := (List.range 4).filter fun p => instOn s n p

/-- The multicast addresses of an instance's profile and transport (Table 12.5; the addresses IEEE 1588 gives the
default profiles, PRESUMED, notes/assumptions 20). -/
def profileMacs (prof trans : Nat) : List Nat :=
  if prof = 3 then []
  else if trans = 0 then (if prof = 0 then [0x011B19000000] else [0x011B19000000, 0x0180C200000E])
  else if trans = 1 then [0x01005E000181, 0x01005E00006B]
  else [0x333300000181, 0x33330000006B]

/-- Whether a destination address is a multicast address of a profile enabled on the port. -/
def profileMac (s : State) (n mac : Nat) : Bool :=
  (portInsts s n).any fun p =>
    (profileMacs (getF s PTPTS.CFG_PROFILE n p 0) (getF s PTPTS.CFG_TRANSPORT n p 0)).contains mac

/-- Whether the destination of a frame is admitted (R389). -/
def dstOk (s : State) (n : Nat) (b : List Nat) : Bool :=
  let d := beAt b 0 6
  let k := ethKind b
  d == portMac s n || (d == 0xFFFFFFFFFFFF && (match k with
    | .arp _ => true
    | _ => false)) || profileMac s n d ||
  (d == 0x0180C2000002 && (match k with
    | .esmc _ => true
    | _ => false))

/-- The addresses of the instances on a port with a transport, from LEAF_DATA (Table 14.4): IPv4 (1) or IPv6 (2). -/
def instAddrs (s : State) (n trans : Nat) : List Nat :=
  (s.pol.leaf.filter fun r => r.1 == 1 && r.2.getD 1 9 == n && instOn s n (r.2.getD 0 9) &&
    getF s PTPTS.CFG_TRANSPORT n (r.2.getD 0 9) 0 == trans).map fun r =>
      if trans = 1 then beAt r.2 2 4 else beAt r.2 6 16

/-- The group addresses of the default profiles over UDP (PRESUMED, notes/assumptions 20). -/
def groupAddr (s : State) (n trans a : Nat) : Bool :=
  ((portInsts s n).any fun p => getF s PTPTS.CFG_TRANSPORT n p 0 == trans && decide (getF s PTPTS.CFG_PROFILE n p 0 < 2)) &&
  (if trans = 1 then [0xE0000181, 0xE000006B].contains a
   else a % 2 ^ 16 == 0x181 && a / 2 ^ 120 == 0xFF || a == 0xFF02000000000000000000000000006B)

/-- Whether an IP destination is an address of an instance on the port. -/
def ipOk (s : State) (n trans a : Nat) : Bool := (instAddrs s n trans).contains a || groupAddr s n trans a

/-- The drop class of a received frame, or none for an admitted one (R389, Table 12.2). -/
def dropClass (s : State) (n : Nat) (f : EthFrame) : Option Nat :=
  let len := f.bytes.length + 4
  let k := ethKind f.bytes
  if !f.fcsOk then some 0
  else if len < 64 ∨ 1530 < len then some 1
  else if !dstOk s n f.bytes then some 2
  else match k with
    | .tags => some 3
    | .otherEtype => some 4
    | .otherIp => some 5
    | .ptpL2 _ => none
    | .ptpUdp4 _ d => if ipOk s n 1 d then none else some 5
    | .ptpUdp6 _ d => if ipOk s n 2 d then none else some 5
    | .esmc _ => none
    | .arp t => if (instAddrs s n 1).contains t then none else some 4
    | .nd t d => if (instAddrs s n 2).contains t || (instAddrs s n 2).contains d then none else some 5

/-! ### Timestamps (R402 to R404) -/

/-- The raw receive timestamp in LSB from tick 0: the strobe plus CAL_RX minus BOARD.RX (R404). -/
def rxRaw (s : State) (n rawF rawO : Nat) : Int :=
  (rawF : Int) * 64000000 + rawO + toSigned 32 (get1 s ETH.CAL_RX n) - toSigned 16 (get1 s ETH.BOARD_RX n)

/-- The raw transmit timestamp: the strobe minus CAL_TX plus BOARD.TX (R404). -/
def txRaw (s : State) (n rawF rawO : Nat) : Int :=
  (rawF : Int) * 64000000 + rawO - toSigned 32 (get1 s ETH.CAL_TX n) + toSigned 16 (get1 s ETH.BOARD_TX n)

/-- TIMEd after the boundary of tick `f`; before and after the ticks kept, the latest span stands for each frame. -/
def tickTime (s : State) (d f : Nat) : Nat :=
  let u := timeOf s d
  if s.frn < f then u.t + (f - s.frn) * u.span
  else match u.ticks[s.frn - f]? with
    | some x => x.1
    | none => u.t - (s.frn - f) * u.span

/-- The span of the interval from tick `f` to tick `f + 1`. -/
def tickSpan (s : State) (d f : Nat) : Nat :=
  let u := timeOf s d
  if s.frn ≤ f then u.span else (u.ticks[s.frn - f - 1]?.map fun x => x.2).getD u.span

/-- A raw timestamp on TIMEd, in units of 2^-64 ns and kept to 2^-16 ns (R403). -/
def rawTime (s : State) (d : Nat) (x : Int) : Nat :=
  let f := (x / 64000000).toNat
  let o := (x % 64000000).toNat
  (tickTime s d f + o * tickSpan s d f / 64000000) / 2 ^ 48 * 2 ^ 48 % timeWrap

/-- A timestamp in the forms in which it reaches Leaf (R403), for the instance that its message belongs to, if it has one. -/
def stampOf (s : State) (n : Nat) (inst : Option Nat) (x : Int) : Stamp :=
  { raw := x, time := inst.map fun p => rawTime s p x, valid := bit1 s ETH.STATUS_TS_VALID n }

/-- A departing event message is stamped at its strobe (R402, R404): Leaf takes the timestamp with the departure. -/
def stampTx (s : State) (n : Nat) (inst : Option Nat) (rawF rawO : Nat) : State :=
  let s1 := modEth (addCnt s PTPTS.TX_TS_CNT n 0 1) n fun u => { u with left := some (stampOf s n inst (txRaw s n rawF rawO)) }
  if bit1 s ETH.STATUS_TS_VALID n then s1 else addCnt s1 PTPTS.INVALID_CNT n 0 1

/-- An arriving event message is stamped. -/
def stampRx (s : State) (n : Nat) : State :=
  let s1 := addCnt s PTPTS.RX_TS_CNT n 0 1
  if bit1 s1 ETH.STATUS_TS_VALID n then s1 else addCnt s1 PTPTS.INVALID_CNT n 0 1

/-- An arrival's timestamp enters the FIFO, or is lost when it is full (Table 12.10). -/
def fifoPut (s : State) (n : Nat) (x : Stamp) : State :=
  if 256 ≤ (ethOf s n).fifo.length then evt (addCnt s PTPTS.FIFO_OVF_CNT n 0 1) .ptpts n 3
  else modEth s n fun u => { u with fifo := u.fifo ++ [x] }

/-- Leaf takes a timestamp from the FIFO with the message it belongs to. -/
def fifoTake (s : State) (n : Nat) (x : Int) : State := modEth s n fun u => { u with fifo := u.fifo.eraseP fun t => t.raw == x }

/-! ### PTP header checks (R394, R398) -/

/-- Whether an acceptable master table accepts a clockIdentity; an empty one accepts all (R398). -/
def masterOk (s : State) (n p id : Nat) : Bool :=
  let t := (List.range 8).map fun i => getF s PTPTS.AMT_LO n p i + 2 ^ 32 * getF s PTPTS.AMT_HI n p i
  t.all (fun x => x == 0) || (id != 0 && t.contains id)

/-- The instance on a port whose domain number a message carries (R394). -/
def domainInst (s : State) (n dom : Nat) : Option Nat :=
  (portInsts s n).find? fun p => getF s PTPTS.CFG_DOMAIN n p 0 == dom

/-- The instance that a frame's PTP message belongs to. -/
def frameInst (s : State) (n : Nat) (b : List Nat) : Option Nat :=
  match (ethKind b).ptpOff with
  | some o => domainInst s n (beAt b (o + 4) 1)
  | none => none

/-- The length of a PTP message before its TLVs, by messageType (PRESUMED from IEEE 1588, notes/assumptions 50). -/
def ptpBody (type : Nat) : Nat :=
  if type = 2 ∨ type = 3 ∨ type = 9 ∨ type = 0xA then 54 else if type = 0xB then 64 else if type = 0xD then 48 else 44

/-- Whether TLVs from an offset on name security, an alternate timescale or a path trace (Table 12.4; the type codes of IEEE
1588, PRESUMED, notes/assumptions 50). -/
def oddTlv (b : List Nat) (stop : Nat) : Nat → Nat → Bool
  | 0, _ => false
  | k + 1, o =>
    decide (o + 4 ≤ stop) &&
    (([8, 9, 0x2000, 0x8009] : List Nat).contains (beAt b o 2) || oddTlv b stop k (o + 4 + beAt b (o + 2) 2))

/-- Whether a message is of a kind that Table 12.4 does not support: management, one of those TLVs, or unicast in a multicast
profile or the reverse. -/
def ptpOdd (s : State) (n p : Nat) (b : List Nat) (o : Nat) : Bool :=
  let type := beAt b o 1 % 16
  type == 0xD || oddTlv b (min b.length (o + beAt b (o + 2) 2)) 64 (o + ptpBody type) ||
  bitOf (beAt b (o + 6) 1) 2 != (getF s PTPTS.CFG_PROFILE n p 0 == 3)

/-- Leaf's checks of a received PTP message that the port passed to it (R394, R398): a message of no instance is
dropped in class NO_INSTANCE, an unsupported one counts in BAD_CNT, a Sync or Announce of an unknown master in
UNKNOWN_CNT. -/
def ptpHeader (s : State) (n : Nat) (b : List Nat) (o : Nat) : State :=
  let type := beAt b o 1 % 16
  match domainInst s n (beAt b (o + 4) 1) with
  | none => addCnt s ETH.DROP_CNT n 7 1
  | some p =>
    if beAt b (o + 1) 1 % 16 ≠ 2 ∨ 1 < beAt b (o + 1) 1 / 16 ∨ ptpOdd s n p b o then strange s PTPTS.BAD_CNT n p
    else if (type = 0 ∨ type = 0xB) ∧ !masterOk s n p (beAt b (o + 20) 8) then strange s PTPTS.UNKNOWN_CNT n p
    else s

/-- Whether an ESMC PDU carries the ITU OUI, subtype 0x0001 and version 1 (R392). -/
def esmcOk (oui subtype version : Nat) : Bool := oui == 0x0019A7 && subtype == 1 && version == 1

/-- What Leaf does first with a frame passed to it. -/
def leafTakes (s : State) (n : Nat) (b : List Nat) : State :=
  match ethKind b with
  | .esmc o =>
    if esmcOk (beAt b (o + 1) 3) (beAt b (o + 4) 2) (beAt b (o + 6) 1 / 16) then s else addCnt s ETH.DROP_CNT n 6 1
  | k => match k.ptpOff with
    | some o => ptpHeader s n b o
    | none => s

/-- A frame is dropped in class FLOOD; FLOOD is raised once per onset (R391). -/
def floodDrop (s : State) (n : Nat) (onset : Bool) : State :=
  let s1 := addCnt s ETH.DROP_CNT n 8 1
  if onset && !(ethOf s1 n).flood then evt (modEth s1 n fun u => { u with flood := true }) .eth n 3 else s1

/-- A frame arrives at a port whose link is up (R389 to R391, Table 14.7). -/
def ethReceive (s : State) (n : Nat) (f : EthFrame) : State :=
  match dropClass s n f with
  | some c => addCnt s ETH.DROP_CNT n c 1
  | none =>
    let ev := isEvent f.bytes
    let s1 := if ev then stampRx s n else s
    if (ethOf s1 n).bucket < 4 then floodDrop s1 n true
    else if !leafRuns s1 then floodDrop s1 n false
    else
      let s2 := modEth s1 n fun u => { u with bucket := u.bucket - 4, flood := false }
      let s3 := addCnt s2 ETH.RX_CNT n 0 1
      let x := stampOf s n (frameInst s n f.bytes) (rxRaw s n f.rawF f.rawO)
      leafTakes (if ev then fifoPut s3 n x else s3) n f.bytes

/-! ### Link (R386, R405, R406, R414, R415) -/

/-- Every PTP port on a port takes a state. -/
def portStates (s : State) (n v : Nat) : State := (portInsts s n).foldl (fun t p => setPtpPort t n p v) s

/-- The link of a port goes down with a cause of Table 18.3; its PTP ports read `v` (R414). -/
def linkDown (s : State) (n cause v : Nat) : State :=
  let s1 := portStates s n v
  if !portUp s1 n then s1
  else
    let s2 := [ETH.STATUS_LINK, ETH.STATUS_PCS_LOCK, ETH.STATUS_TS_VALID].foldl (fun t f => set1 t f n 0) s1
    let s3 := addCnt (evt s2 .eth n 0) ETH.LINK_CNT n 0 1
    let s4 := modChan s3 (8 + n) fun u => { u with dead := true }
    journalPg s4 0x070 none .eth n (2 * cause)

/-- Whether the transmit reference a port names lies outside its limit (R388). -/
def txclkBad (s : State) (n : Nat) : Bool :=
  let src := get1 s ETH.TXCLK_SRC n
  let q : Rat := fNom s (src - 1) / (get1 s ETH.TXCLK_DIV n : Rat)
  let goal : Rat := if portMode s n = 3 then 156250000 else 125000000
  decide (goal / 10000 < absR (q - goal))

/-- Whether a port's transmit reference comes from an APLL. -/
def txclkFrom (s : State) (n : Nat) : Bool :=
  portMode s n != 0 && decide (1 ≤ get1 s ETH.TXCLK_SRC n) && decide (get1 s ETH.TXCLK_SRC n ≤ 4)

/-- TXCLK_FB of a port at a boundary at which a RATIO acts (R388). -/
def txclkJudge (s : State) (n : Nat) : State := set1 s ETH.STATUS_TXCLK_FB n (b2n (txclkFrom s n && txclkBad s n))

/-- Whether a port's transmit reference stands still: its APLL has not locked since its domain started or its latest retune, and
the port does not use the jitter reference instead (R388, Table 10.1). -/
def txclkStopped (s : State) (n : Nat) : Bool :=
  let d := get1 s ETH.TXCLK_SRC n - 1
  txclkFrom s n && !bit1 s ETH.STATUS_TXCLK_FB n && (!(apllOf s d).locked || retuning s d)

/-- The PCS of an enabled port locks: the link comes up, calibration begins, the recovered clock takes a new baseline
and the PTP ports start (R405, R414, R415); an SGMII word that is not 1000 Mb/s leaves the link down (R387), and without its
transmit reference the link stays lost (R388). -/
def pcsLocks (s : State) (n : Nat) (speedOk : Bool) : State :=
  if !portEnabled s n || bit1 s PWR.STATUS_PF 0 || txclkStopped s n then s
  else if portMode s n = 2 ∧ !speedOk then linkDown (set1 s ETH.STATUS_SPEED_BAD n 1) n 0 1
  else
    let s1 := set1 (set1 (set1 s ETH.STATUS_SPEED_BAD n 0) ETH.STATUS_PCS_LOCK n 1) ETH.STATUS_TS_VALID n 0
    let s2 := modEth (set1 s1 ETH.STATUS_CAL_DEFAULT n 0) n fun u => { u with calFrom := s.frn, an := false }
    let s3 := modChan (dropBaseline s2 (8 + n)) (8 + n) fun u => { u with dead := false }
    let s4 := portStates s3 n 0
    if portUp s4 n then s4
    else journalPg (evt (set1 s4 ETH.STATUS_LINK n 1) .eth n 1) 0x070 none .eth n 1

/-- The factory base delay of a port in its mode, as the calibration blocks 1 to 3 hold it, or the nominal one in ROM where one
of them is LOST (R405, Table 15.1). -/
def baseDelay (s : State) (n : Nat) (tx : Bool) : Int :=
  let cal := s.mem.filter fun c => decide (0x801000 ≤ c.1) && decide (c.1 < 0x804000)
  toSigned 16 (if bit1 s SYS.STATUS_CAL_DEFAULT 0 then Config.nominalDelay n (portMode s n) tx
    else Config.baseDelay cal n (portMode s n) tx).toNat

/-- Calibration ends (R405, R406): the means of its conversions added to the base delays, or the base delays alone
when the recovered clock has no lane. -/
def calEnds (s : State) (n : Nat) (rx tx : Int) : State :=
  let lane := (laneFor s (8 + n)).isSome
  let base := baseDelay s n
  let v := fun b (m : Int) => ofSigned 32 (base b + if lane then m else 0)
  let s1 := set1 (set1 s ETH.CAL_RX n (v false rx)) ETH.CAL_TX n (v true tx)
  evt (set1 (set1 s1 ETH.STATUS_CAL_DEFAULT n (b2n !lane)) ETH.STATUS_TS_VALID n 1) .eth n 2

/-- CTRL.ENABLE acts (R414, R415). -/
def portEnableWrite (s : State) (n : Nat) (en : Bool) : State :=
  let was := portEnabled s n
  let s1 := set1 s ETH.CTRL_ENABLE n (b2n en)
  if !en then linkDown s1 n 1 2
  else if !was && portEnabled s1 n then portStates s1 n 1 else s1

/-- RESTART_AN acts (R386): the negotiation of Clause 37 with MODE.AN, or of SGMII, starts again. -/
def restartAn (s : State) (n : Nat) : State :=
  let m := portMode s n
  if portEnabled s n && (m == 2 || (m == 1 && get1 s ETH.MODE_AN n == 1)) then modEth s n fun u => { u with an := true } else s

/-- APPLY acts (R325, R388): the retune, and the transmit references taken from that APLL: judged again, and stopped
until relock, so that the link is lost. -/
def applyAct (s : State) (d : Nat) : State :=
  let s1 := applyRetune s d
  if bit1 s1 APLL.STATUS_LOCK d || !(apllOf s d).powered || !applyOk s d then s1
  else (List.range 2).foldl (fun t n =>
    if txclkFrom t n && get1 t ETH.TXCLK_SRC n == d + 1 then
      (let u := txclkJudge t n
       if bit1 u ETH.STATUS_TXCLK_FB n then u else linkDown u n 0 1)
    else t) s1

/-- Sync messages per second of a granted interval, 0 to 128 (R396). -/
def syncRate (l : Int) : Nat := if l ≤ 0 then 2 ^ (-l).toNat else 0

/-- The grants in force of an instance, as GRANTS reports them (Table 12.10). -/
def publishGrants (s : State) (p : Nat) : State :=
  let g := (ptpOf s p).grants
  (instPorts s p).foldl (fun t n =>
    setF (setF t PTPTS.GRANTS_SLAVES n p 0 g.length) PTPTS.GRANTS_RATE n p 0 ((g.map fun x => syncRate x.2.1).foldl (· + ·) 0)) s

/-- A commit that changes a port's mode restarts the port (R386, Table 12.8). -/
def portModeChange (s : State) (n : Nat) : State :=
  let s1 := linkDown s n 2 (if portMode s n = 0 then 2 else 0)
  (portInsts s1 n).foldl (fun t p => publishGrants (modPtp t p fun u => { u with grants := [] }) p) s1

/-- Grants that have lapsed end. -/
def grantsFrame (s : State) (p : Nat) : State :=
  if (ptpOf s p).grants.all fun g => decide (s.frn < g.2.2) then s
  else publishGrants (modPtp s p fun u => { u with grants := u.grants.filter fun g => decide (s.frn < g.2.2) }) p

/-- One frame of a PTP port (R394): from INITIALIZING with its link up it goes on to LISTENING, or to MASTER where it is
master-only; PRE_MASTER ends in MASTER. -/
def ptpPortFrame (s : State) (n p : Nat) : State :=
  let st := getF s PTPTS.STATE_PORT n p 0
  if st = 0 ∧ portUp s n ∧ getF s PTPTS.STATE_CLOSED n p 0 = 0 then
    setPtpPort s n p (if getF s PTPTS.CFG_ROLE n p 0 = 2 then 5 else 3)
  else if st = 4 ∧ (kvGet (ptpOf s p).pre n).getD 0 ≤ s.frn then setPtpPort s n p 5
  else s

/-- One frame of the ports (R391, R396): the buckets gain, grants lapse, and the PTP ports move on. -/
def etherFrame (s : State) : State :=
  let s1 : State := { s with eths := s.eths.map fun (u : EthU) => { u with bucket := min 256 (u.bucket + 1) } }
  let s2 := (List.range 4).foldl grantsFrame s1
  if !leafRuns s2 then s2
  else (List.range 2).foldl (fun t n => (portInsts t n).foldl (fun v p => ptpPortFrame v n p) t) s2

/-! ### ESMC (R392, R393) -/

/-- Codes of Table 12.3 for a clock rank: SSM and enhanced code. -/
def rankCodes (r : Nat) : Nat × Nat :=
  if r = 15 then (2, 0x21) else if r = 14 then (2, 0x20) else if r = 13 then (2, 0x23) else if r = 12 then (2, 0xFF)
  else if 10 ≤ r then (4, 0xFF) else if 8 ≤ r then (8, 0xFF) else if 6 ≤ r then (0xB, 0x22) else if 4 ≤ r then (0xB, 0xFF)
  else (0xF, 0xFF)

/-- The codes a port sends now; the enhanced code only with ETLV. -/
def esmcCodes (s : State) (n : Nat) : Nat × Nat :=
  let c := rankCodes (getF s SEL.ACTIVE_CLOCK_RANK 0 (get1 s ETH.ESMC_CFG_DOM n) 0)
  (c.1, if get1 s ETH.ESMC_CFG_ETLV n = 1 then c.2 else 0xFF)

/-- The ESMC PDU that a port sends now (R393): with ETLV it carries the enhanced SSM TLV, with the module's clockIdentity, flags
0 and cascade counts of 0. -/
def esmcPdu (s : State) (n : Nat) (event : Bool) : EsmcSent :=
  let c := esmcCodes s n
  { event := event, ssm := c.1, tlv := if get1 s ETH.ESMC_CFG_ETLV n = 1 then some ⟨c.2, Config.clockIdentity.toNat, 0, (0, 0)⟩ else none }

/-- Leaf sends an ESMC PDU on a port (R393): ESMC_TX shows what was sent. -/
def esmcSend (s : State) (n : Nat) (event : Bool) : State :=
  let c := esmcCodes s n
  let s1 := modEth s n fun u => { u with esmc := some (esmcPdu s n event) }
  addCnt (set1 (set1 s1 ETH.ESMC_TX_SSM n c.1) ETH.ESMC_TX_ECODE n c.2) ETH.TX_CNT n 0 1

/-- Whether ESMC is sent on a port. -/
def esmcOn (s : State) (n : Nat) : Bool := leafRuns s && portUp s n && get1 s ETH.ESMC_CFG_TX_EN n == 1

/-- Deliver a QL to each channel of a source, in channel order; one message counts once (R392, R255). -/
def deliverQl (s : State) (cyc src node ssm : Nat) (ecode : Option Nat) : State :=
  let cs := (List.range 12).filter fun c => qlSrc s c == src && (src != 3 || polVal s.pol CHAN.QL_NODE c 0 0 == node)
  cs.foldl (fun t c => gateCall t cyc (.ql c src node ssm ecode (some c == cs.head?))) s

/-- The enhanced code of a PDU that carries the enhanced SSM TLV. -/
def EsmcPdu.code (u : EsmcPdu) : Option Nat := u.tlv.map EsmcTlv.ecode

/-- A received ESMC PDU (R392): its enhanced SSM TLV is recorded whole (R254). -/
def esmcReceive (s : State) (n : Nat) (p : EsmcPdu) (cyc : Nat) : State :=
  if !(portUp s n && leafRuns s) then s
  else if !esmcOk p.oui p.subtype p.version then addCnt s ETH.DROP_CNT n 6 1
  else deliverQl (modEth s n fun u => { u with tlv := p.tlv }) cyc (n + 1) 0 p.ssm (EsmcPdu.code p)

/-! ### Sent frames (R408, R448) -/

/-- Ones'-complement folding to 16 bits. -/
def fold16 (x : Nat) : Nat :=
  let y := x % 65536 + x / 65536
  let z := y % 65536 + y / 65536
  z % 65536 + z / 65536

/-- Ones'-complement sum of `n` 16-bit words from an offset. -/
def wordSum (b : List Nat) (off n : Nat) : Nat :=
  fold16 (((List.range n).map fun i => beAt b (off + 2 * i) 2).foldl (· + ·) 0)

/-- S of Table 12.7: the words at header offsets 8 to 15 and 34 to 43. -/
def insertSum (b : List Nat) (o : Nat) : Nat := fold16 (wordSum b (o + 8) 4 + wordSum b (o + 34) 5)

/-- One-step insertion of a time T into a Sync (R408, Table 12.7): correctionField gains FRAC, originTimestamp takes
SEC and NS; over IPv4 the UDP checksum is 0, over IPv6 the trailer keeps the sum. -/
def insertSync (b : List Nat) (t : Nat) : List Nat :=
  match (ethKind b).ptpOff with
  | none => b
  | some o =>
    let b1 := putBE b (o + 8) 8 ((beAt b (o + 8) 8 + timeFrac t) % 2 ^ 64)
    let b2 := putBE (putBE b1 (o + 34) 6 (timeSec t)) (o + 40) 4 (timeNs t)
    match ethKind b with
    | .ptpUdp4 _ _ => putBE b2 (o - 2) 2 0
    | .ptpUdp6 _ _ => putBE b2 (o + 44) 2 (fold16 (beAt b (o + 44) 2 + insertSum b o + (65535 - insertSum b2 o)))
    | _ => b2

/-- The PTP message type a frame carries, if it is a PTP message. -/
def ptpType (b : List Nat) : Option Nat := (ethKind b).ptpOff.map fun o => beAt b o 1 % 16

/-- Whether R415 keeps a frame from leaving: Sync, Delay_Req or Pdelay_Req before TS_VALID. -/
def heldBack (s : State) (n : Nat) (b : List Nat) : Bool :=
  !bit1 s ETH.STATUS_TS_VALID n && (match ptpType b with
    | some t => decide (t < 3)
    | none => false)

/-- A frame leaves a port; the strobe stamps an event message (R402). -/
def frameOut (s : State) (n : Nat) (b : List Nat) (rawF rawO : Nat) : State :=
  let s1 := modEth (addCnt s ETH.TX_CNT n 0 1) n fun u => { u with tx := b }
  if isEvent b then stampTx s1 n (frameInst s n b) rawF rawO else s1

/-- TX_FRAME (Table 14.1): port, source address, class and rates are checked; a Sync goes to the inserter and leaves by
SYNC_TRANSMIT, any other frame leaves at once. -/
def txFrame (s : State) (p n : Nat) (b : List Nat) (rawF rawO : Nat) : State :=
  if !leafRuns s then s
  else
    let sec := s.frn / 8000
    let k := if (ethOf s n).txSec.1 = sec then (ethOf s n).txSec.2 else 0
    let j := if (ptpOf s p).syncSec.1 = sec then (ptpOf s p).syncSec.2 else 0
    let sync := ptpType b == some 0
    if decide (2 ≤ n) || !portEnabled s n || beAt b 6 6 != portMac s n || !(ethKind b).admitted then gateRefuse s 0x05 1
    else if 4000 ≤ k ∨ (sync ∧ 128 ≤ j) then gateRefuse s 0x05 5
    else
      let s1 := modEth (gateRes s 0) n fun u => { u with txSec := (sec, k + 1) }
      let s2 := if sync then modPtp s1 p fun u => { u with syncSec := (sec, j + 1) } else s1
      if sync || !portUp s2 n || heldBack s2 n b then s2 else frameOut s2 n b rawF rawO

/-! ### Meanings -/

/-- Whether a list holds bytes. -/
def areBytes (l : List Nat) : Bool := l.all fun b => decide (b < 256)

/-- APPLY (R325, R328, R388) as it acts. -/
def execApply (n : Nat) (s : State) : Host.Outcome State Fault Refusal :=
  if n < 4 then .next (applyAct s n) else .refused .illFormed

/-- ETH_FRAME_RECEIVE (R389 to R391): nothing arrives while the link is down. -/
def execEthFrameReceive (port : Nat) (f : EthFrame) (s : State) : Host.Outcome State Fault Refusal :=
  if port < 2 ∧ areBytes f.bytes ∧ f.rawO < 64000000 then (if portUp s port then .next (ethReceive s port f) else .next s)
  else .refused .illFormed

/-- PCS_LOCK (R405, R414, R415). -/
def execPcsLock (port : Nat) (speedOk : Bool) (s : State) : Host.Outcome State Fault Refusal :=
  if port < 2 then .next (pcsLocks s port speedOk) else .refused .illFormed

/-- PCS_LOCK_LOSS (R414). -/
def execPcsLockLoss (port : Nat) (s : State) : Host.Outcome State Fault Refusal :=
  if port < 2 then (if portUp s port then .next (linkDown s port 0 1) else .next s) else .refused .illFormed

/-- Frames of a calibration (R405). -/
def calSpan : Nat := 8000

/-- CAL_DONE (R405, R406): the calibration of a port ends in the 8000th frame after its PCS locked. -/
def execCalDone (port : Nat) (rxMean txMean : Int) (s : State) : Host.Outcome State Fault Refusal :=
  if port < 2 then
    if bit1 s ETH.STATUS_PCS_LOCK port && !bit1 s ETH.STATUS_TS_VALID port && decide ((ethOf s port).calFrom + calSpan ≤ s.frn) then
      .next (calEnds s port rxMean txMean)
    else .next s
  else .refused .illFormed

/-- PORT_ENABLE (R415) as it acts. -/
def execPortEnable (n : Nat) (s : State) : Host.Outcome State Fault Refusal :=
  if n < 2 then .next (portEnableWrite s n true) else .refused .illFormed

/-- PORT_DISABLE (R414) as it acts. -/
def execPortDisable (n : Nat) (s : State) : Host.Outcome State Fault Refusal :=
  if n < 2 then .next (portEnableWrite s n false) else .refused .illFormed

/-- RESTART_AN (R386) as it acts. -/
def execRestartAn (n : Nat) (s : State) : Host.Outcome State Fault Refusal :=
  if n < 2 then .next (restartAn s n) else .refused .illFormed

/-- ESMC_PDU_RECEIVE (R392). -/
def execEsmcPduReceive (port : Nat) (pdu : EsmcPdu) (cyc : Nat) (s : State) : Host.Outcome State Fault Refusal :=
  if port < 2 ∧ pdu.ssm < 16 ∧ (EsmcPdu.code pdu).getD 0 < 256 ∧ cyc < 1250 then .next (esmcReceive s port pdu cyc)
  else .refused .illFormed

/-- ESMC_INFO_PDU (R393). -/
def execEsmcInfoPdu (port : Nat) (s : State) : Host.Outcome State Fault Refusal :=
  if port < 2 then (if esmcOn s port then .next (esmcSend s port false) else .next s) else .refused .illFormed

/-- ESMC_EVENT_PDU (R393): the code has changed since the latest PDU. -/
def execEsmcEventPdu (port : Nat) (s : State) : Host.Outcome State Fault Refusal :=
  if port < 2 then
    if esmcOn s port && esmcCodes s port != (get1 s ETH.ESMC_TX_SSM port, get1 s ETH.ESMC_TX_ECODE port) then
      .next (esmcSend s port true)
    else .next s
  else .refused .illFormed

/-- TX_FRAME (R448, Table 14.1). -/
def execTxFrame (inst port : Nat) (f : SentFrame) (s : State) : Host.Outcome State Fault Refusal :=
  if inst < 4 ∧ areBytes f.bytes ∧ f.rawO < 64000000 then .next (txFrame s inst port f.bytes f.rawF f.rawO) else .refused .illFormed

end Sys2Proof.Machine
end

