-- ==== Sys2Proof/Machine/Ptp.lean ====
section
/-! DEFINITION. PTP messages (R394 to R401, R408 to R413): what an instance does with the messages its port passes to
it, the estimates it delivers, and the messages it sends. Times are in LSB (2^-9 ns) unless said otherwise. -/

namespace Sys2Proof.Machine

/-! ### Acceptance (R394, R398, R399) -/

/-- What the checks of a received message give: the state with what they count, and whether the message is accepted.
`named`: whether the acceptable master table is asked. -/
def acceptMsg (s : State) (p : Nat) (m : PtpMsg) (named : Bool) : State × Bool :=
  let n := m.port
  if !leafRuns s || !portUp s n || !instOn s n p then (s, false)
  else if m.domainNumber ≠ getF s PTPTS.CFG_DOMAIN n p 0 then (addCnt s ETH.DROP_CNT n 7 1, false)
  else if m.version ≠ 2 ∨ 1 < m.minorVersion ∨ m.odd then (strange s PTPTS.BAD_CNT n p, false)
  else if named && !masterOk s n p m.clockId then (strange s PTPTS.UNKNOWN_CNT n p, false)
  else (s, !instClosed s p)

/-- State of a PTP port. -/
def ptpState (s : State) (n p : Nat) : Nat := getF s PTPTS.STATE_PORT n p 0

/-- Whether a PTP port follows a parent: SLAVE, or UNCALIBRATED on the way to it. -/
def isSlave (s : State) (n p : Nat) : Bool := ptpState s n p == 8 || ptpState s n p == 7

/-- Whether an instance has a port in SLAVE (R400). -/
def hasParent (s : State) (p : Nat) : Bool := (instPorts s p).any fun n => ptpState s n p == 8

/-- Whether a port's timestamps are valid. -/
def tsValid (s : State) (n : Nat) : Bool := bit1 s ETH.STATUS_TS_VALID n

/-- The raw timestamp of a received message: its strobe time with CAL_RX and BOARD.RX (R404). -/
def rxStamp (s : State) (m : PtpMsg) : Int := rxRaw s m.port m.rawF m.rawO

/-- Frame and offset of a raw timestamp (R403). -/
def rawFrn (x : Int) : Nat := (x / 64000000).toNat
def rawOfs (x : Int) : Nat := (x % 64000000).toNat

/-! ### Estimates (R409, R411, R413) -/

/-- The master's time at the tick before an arrival (R411): the origin time, correction, mean path delay and asymmetry,
carried back over the offset at the master's rate. -/
def masterAt (s : State) (n p : Nat) (origin : Rat) (corr : Int) (o : Nat) (r : Rat) : Rat :=
  origin + (corr : Rat) / 128 + (getF s PTPTS.MPD n p 0 : Rat) + (toSigned 32 (getF s PTPTS.ASYM n p 0) : Rat) - (o : Rat) * (1 + r)

/-- A complete Sync gives an estimate (R411) and, where R413 asks for it, a change request: OFFSET shows TIMEp − M. -/
def estimate (s : State) (p n cyc : Nat) (raw : Int) (origin : Rat) (corr : Int) (r : Rat) : State :=
  let m := masterAt s n p origin corr (rawOfs raw) r
  let off := timeAtTick s p (rawFrn raw) - m
  let s1 := setF (setPtpPort s n p 8) PTPTS.OFFSET n p 0 (satSigned 32 (roundAway off))
  let s2 := modPtp s1 p fun u => { u with arrival := raw, rate := r }
  let feed := getF s2 PTPTS.CFG_FEED n p 0
  if feed = 0 then s2
  else
    let c := 9 + feed
    let s3 := gateCall s2 cyc (.pkt p c (rawFrn raw) m r)
    let s4 := if s3.gate.res = 0 then addCnt s3 PTPTS.EST_CNT n p 1 else s3
    let ns := -off / 512
    if domRuns s4 p && (domOf s4 p).mode == 0 && activeOf s4 p == c && decide ((get1 s4 TIME.STEP_CFG_THRESH p : Rat) < absR ns) then
      gateCall s4 cyc (.time p p ns)
    else s4

/-- A Sync that the port accepts from its parent (R409, R411): an estimate when it is one-step, else it waits. -/
def syncTaken (s : State) (p : Nat) (m : PtpMsg) (origin r : Rat) (cyc : Nat) : State :=
  let n := m.port
  if !isSlave s n p || parentOf s n p != m.clockId || !tsValid s n then s
  else if m.twoStep then modPtp s p fun u => { u with pend := some ⟨n, m.seqId, m.clockId, rxStamp s m, m.correction, s.frn⟩ }
  else estimate s p n cyc (rxStamp s m) origin m.correction r

/-- A received Sync. -/
def syncReceive (s : State) (p : Nat) (m : PtpMsg) (origin r : Rat) (cyc : Nat) : State :=
  let a := acceptMsg (fifoTake s m.port (rxStamp s m)) p m true
  if a.2 then syncTaken (addCnt a.1 PTPTS.RX_SYNC_CNT m.port p 1) p m origin r cyc else a.1

/-- A received Follow_Up (R409): it completes the waiting Sync of its sequenceId within 1 s. -/
def followUp (s : State) (p : Nat) (m : PtpMsg) (origin r : Rat) (cyc : Nat) : State :=
  let a := acceptMsg s p m false
  if !a.2 then a.1
  else match (ptpOf a.1 p).pend with
    | none => a.1
    | some t =>
      if t.port = m.port ∧ t.seq = m.seqId ∧ t.id = m.clockId then
        let s1 := modPtp a.1 p fun u => { u with pend := none }
        if s1.frn ≤ t.frn + oneSec ∧ isSlave s1 t.port p ∧ tsValid s1 t.port then
          estimate s1 p t.port cyc t.raw origin (t.corr + m.correction) r
        else s1
      else a.1

/-! ### Announce (R400, R401) -/

/-- An Announce of the parent (R401): its fields are shown, UTC is updated, and its clockClass is the QL of the channel
that the instance feeds, where policy says so (Table 8.1). -/
def fromParent (s : State) (n p : Nat) (b : AnnounceBody) (cyc : Nat) : State :=
  let s1 := setF (setF s PTPTS.GM_CLASS n p 0 b.gmClass) PTPTS.GM_STEPS n p 0 b.steps
  let s2 := modPtp s1 p fun u => { u with utcOk := b.utcValid }
  let s3 := if b.utcValid then gateCall s2 cyc (.utc p p b.utcOfs b.leap61 b.leap59) else s2
  let c := 9 + getF s3 PTPTS.CFG_FEED n p 0
  if 10 ≤ c ∧ c < 12 ∧ qlSrc s3 c = 4 then gateCall s3 cyc (.ql c 4 0 0 (some b.gmClass) true) else s3

/-- A port's parent is lost (R401): its fields return, UTC stays, and the port takes a state. -/
def portParentLost (s : State) (p n v : Nat) : State :=
  let s1 := setF (setF (setParent s n p 0) PTPTS.GM_CLASS n p 0 255) PTPTS.GM_STEPS n p 0 0
  setPtpPort (modPtp s1 p fun u => { u with utcOk := false, pend := none }) n p v

/-- The best master choice moves a BMCA port to a state without a parent (R394). -/
def bmcaMove (s : State) (p n v : Nat) : State := if isSlave s n p then portParentLost s p n v else setPtpPort s n p v

/-- A number of a port's Announce intervals in frames. -/
def announceSpan (s : State) (n p k : Nat) : Nat :=
  let l := toSigned 8 (getF s PTPTS.RATES_LOG_ANN n p 0)
  let t : Rat := (k : Rat) * oneSec
  (if 0 ≤ l then t * ((2 ^ l.toNat : Nat) : Rat) else t / ((2 ^ (-l).toNat : Nat) : Rat)).ceil.toNat

/-- A BMCA port becomes a master (R394): at once, or through PRE_MASTER. -/
def bmcaMaster (s : State) (p n wait : Nat) : State :=
  if ptpState s n p = 4 ∨ ptpState s n p = 5 then s
  else if wait = 0 then bmcaMove s p n 5
  else modPtp (bmcaMove s p n 4) p fun u => { u with pre := kvSet u.pre n (s.frn + announceSpan s n p wait) }

/-- A received Announce (R394, R400, R401): the best master choice makes its sender the parent, or a BMCA port a master or
passive, or leaves the port as it is. -/
def announceReceive (s : State) (p : Nat) (m : PtpMsg) (b : AnnounceBody) (cyc : Nat) : State :=
  let n := m.port
  let a := acceptMsg s p m true
  let role := getF s PTPTS.CFG_ROLE n p 0
  if !a.2 || role == 2 then a.1
  else
    let mine := isSlave a.1 n p && parentOf a.1 n p == m.clockId
    match b.best with
    | .master wait => if role = 3 then bmcaMaster a.1 p n wait else a.1
    | .passive => if role = 3 then bmcaMove a.1 p n 6 else a.1
    | .same => if mine then fromParent a.1 n p b cyc else a.1
    | .parent =>
      if mine then fromParent a.1 n p b cyc
      else
        let s1 := if parentOf a.1 n p = m.clockId then a.1 else setParent a.1 n p m.clockId
        fromParent (setPtpPort s1 n p 7) n p b cyc

/-- The parent is lost (R401): UTC stays; a slave-only port listens, a BMCA port is a master. -/
def parentLost (s : State) (p : Nat) : State :=
  ((instPorts s p).filter fun n => isSlave s n p).foldl (fun t n =>
    portParentLost t p n (if getF t PTPTS.CFG_ROLE n p 0 = 3 then 5 else 3)) s

/-- The clockClass a master port sends (Table 12.6). -/
def txClass (s : State) (p : Nat) : Nat :=
  let slave := (instPorts s p).find? fun n => ptpState s n p == 8
  match domState s p, slave with
  | 2, some n => getF s PTPTS.GM_CLASS n p 0
  | 2, none => if 14 ≤ getF s SEL.ACTIVE_CLOCK_RANK 0 p 0 then 6 else 248
  | 3, some _ => 135
  | 3, none => 7
  | 4, some _ => 165
  | 4, none => 140
  | _, _ => 248

/-- A master port sends Announce. -/
def announceSend (s : State) (p n : Nat) : State :=
  let s1 := modPtp s p fun u => { u with sent := some (.announce (txClass s p) (bit1 s TIME.UTC_VALID p)
    (toSigned 16 (get1 s TIME.UTC_OFS p)) (bit1 s TIME.UTC_LEAP61 p) (bit1 s TIME.UTC_LEAP59 p)) }
  addCnt s1 ETH.TX_CNT n 0 1

/-! ### Delay mechanisms (R409, R411) -/

/-- Whether a master port of an instance may serve: in MASTER, its instance open, Leaf running, its link up. -/
def serves (s : State) (p n : Nat) : Bool :=
  leafRuns s && portUp s n && instOn s n p && !instClosed s p && ptpState s n p == 5

/-- A received Delay_Req is answered from its arrival (R409); not before TS_VALID (Table 12.8), nor under the peer-to-peer
profile, whose delay mechanism is another (Table 12.4). -/
def delayReq (s : State) (p : Nat) (m : PtpMsg) : State :=
  let a := acceptMsg (fifoTake s m.port (rxStamp s m)) p m false
  if a.2 && serves a.1 p m.port && tsValid a.1 m.port && getF a.1 PTPTS.CFG_PROFILE m.port p 0 != 1 then
    let t := rawTime a.1 p (rxStamp s m)
    let s1 := modPtp a.1 p fun u => { u with sent := some (.delayResp (timeSec t) (timeNs t) (m.correction - (timeFrac t : Int))) }
    addCnt s1 ETH.TX_CNT m.port 0 1
  else a.1

/-- A received Pdelay_Req is answered with Pdelay_Resp, which is stamped, and Pdelay_Resp_Follow_Up with the
turnaround (R409). -/
def pdelayReq (s : State) (p : Nat) (m : PtpMsg) (depF depO : Nat) : State :=
  let a := acceptMsg (fifoTake s m.port (rxStamp s m)) p m false
  if a.2 && getF a.1 PTPTS.CFG_PROFILE m.port p 0 == 1 && tsValid a.1 m.port then
    let turn : Int := txRaw s m.port depF depO - rxStamp s m
    let s1 := modPtp a.1 p fun u => { u with sent := some (.pdelay true 0 0 0 (m.correction + turn * 128)) }
    addCnt (stampTx s1 m.port (some p) depF depO) ETH.TX_CNT m.port 0 2
  else a.1

/-- A slave port sends a Delay_Req, or a Pdelay_Req under the peer-to-peer profile; it is stamped, and the instance keeps its
departure (R402, R404, R415). -/
def delayReqSend (s : State) (p n rawF rawO : Nat) : State :=
  if leafRuns s && portUp s n && instOn s n p && !instClosed s p && isSlave s n p && tsValid s n then
    let s1 := modPtp (stampTx s n (some p) rawF rawO) p fun u => { u with dep := some (txRaw s n rawF rawO) }
    addCnt s1 ETH.TX_CNT n 0 1
  else s

/-- The mean path delay from an answered request (R411, notes/assumptions 50). In the request-response mechanism, where `t1` is
the latest Sync's origin and `t4` the request's arrival at the master: half of the two transits, in the master's time. Under
peer delay, where `t1` and `t4` are the request's arrival at the peer and the response's departure from it: half of the round
trip less the peer's turnaround. The correction comes off in both. -/
def meanPath (u : PtpU) (peer : Bool) (here : Int) (corr : Int) (t1 t4 : Rat) : Rat :=
  let dep : Rat := (u.dep.getD 0 : Rat)
  ((if peer then (here : Rat) - dep - (t4 - t1) else ((u.arrival : Rat) - dep) * (1 + u.rate) + (t4 - t1)) - (corr : Rat) / 128) / 2

/-- A response to the latest request gives the mean path delay (R411). -/
def delayResp (s : State) (p : Nat) (m : PtpMsg) (t1 t4 : Rat) : State :=
  let n := m.port
  let x := rxStamp s m
  let a := acceptMsg (fifoTake s n x) p m false
  let peer := getF a.1 PTPTS.CFG_PROFILE n p 0 == 1
  if a.2 && (isSlave a.1 n p || peer) && (ptpOf a.1 p).dep.isSome then
    setF a.1 PTPTS.MPD n p 0 (satTo 0xFFFFFFFF (roundAway (meanPath (ptpOf a.1 p) peer x m.correction t1 t4)).toNat)
  else a.1

/-! ### Unicast negotiation (R396) -/

/-- A request for unicast Sync: granted within 32 slaves and 128 messages per second, else answered with duration 0. -/
def unicastRequest (s : State) (p n slave : Nat) (l : Int) (duration : Nat) : State :=
  if !serves s p n || getF s PTPTS.CFG_PROFILE n p 0 != 3 then s
  else
    let rest := (ptpOf s p).grants.filter fun g => g.1 != slave
    let rate := (rest.map fun x => syncRate x.2.1).foldl (· + ·) 0 + syncRate l
    let ok := decide (-7 ≤ l) && decide (l ≤ 0) && decide (rest.length < 32) && decide (rate ≤ 128) && decide (0 < duration)
    let s1 := modPtp s p fun u =>
      { u with grants := if ok then rest ++ [(slave, l, s.frn + duration * oneSec)] else u.grants,
               sent := some (.grant slave (if ok then duration else 0)) }
    addCnt (publishGrants s1 p) ETH.TX_CNT n 0 1

/-- The Sync messages an instance has sent in the last second. -/
def recentSyncs (s : State) (p : Nat) : List Nat := (ptpOf s p).syncs.filter fun f => decide (s.frn < f + oneSec)

/-- A one-step Sync leaves with T inserted (R408); without a valid T, or past 128 in a second (R395), it is not sent. -/
def syncSend (s : State) (p n : Nat) (b : List Nat) (rawF rawO : Nat) : State :=
  if serves s p n && tsValid s n && ptpType b == some 0 && decide ((recentSyncs s p).length < 128) then
    let s1 := modPtp s p fun u => { u with syncs := s.frn :: recentSyncs s p }
    addCnt (frameOut s1 n (insertSync b (rawTime s p (txRaw s n rawF rawO))) rawF rawO) PTPTS.TX_SYNC_CNT n p 1
  else s

/-! ### Meanings -/

/-- Whether the fields of a received message fit its header. -/
def PtpMsg.ok (m : PtpMsg) : Bool :=
  decide (m.port < 2) && decide (m.version < 16) && decide (m.minorVersion < 16) && decide (m.domainNumber < 256) &&
  decide (m.clockId < 2 ^ 64) && decide (m.portNum < 2 ^ 16) && decide (m.seqId < 2 ^ 16) && decide (m.rawO < 64000000)

/-- SYNC_RECEIVE (R411): `origin` is the originTimestamp and `rate` the master's estimated fractional frequency. -/
def execSyncReceive (inst : Nat) (m : PtpMsg) (origin rate : Rat) (cyc : Nat) (s : State) : Host.Outcome State Fault Refusal :=
  if inst < 4 ∧ PtpMsg.ok m ∧ cyc < 1250 then .next (syncReceive s inst m origin rate cyc) else .refused .illFormed

/-- FOLLOW_UP_RECEIVE (R409). -/
def execFollowUpReceive (inst : Nat) (m : PtpMsg) (origin rate : Rat) (cyc : Nat) (s : State) : Host.Outcome State Fault Refusal :=
  if inst < 4 ∧ PtpMsg.ok m ∧ cyc < 1250 then .next (followUp s inst m origin rate cyc) else .refused .illFormed

/-- FOLLOW_UP_TIMEOUT (R409): the waiting Sync is discarded. -/
def execFollowUpTimeout (inst : Nat) (s : State) : Host.Outcome State Fault Refusal :=
  if inst < 4 then .next (modPtp s inst fun u => { u with pend := none }) else .refused .illFormed

/-- ANNOUNCE_RECEIVE (R400, R401). -/
def execAnnounceReceive (inst : Nat) (m : PtpMsg) (b : AnnounceBody) (cyc : Nat) (s : State) : Host.Outcome State Fault Refusal :=
  if inst < 4 ∧ PtpMsg.ok m ∧ b.gmClass < 256 ∧ b.steps < 2 ^ 16 ∧ cyc < 1250 then .next (announceReceive s inst m b cyc)
  else .refused .illFormed

/-- ANNOUNCE_RECEIPT_TIMEOUT (R401). -/
def execAnnounceReceiptTimeout (inst : Nat) (s : State) : Host.Outcome State Fault Refusal :=
  if inst < 4 then (if leafRuns s then .next (parentLost s inst) else .next s) else .refused .illFormed

/-- ANNOUNCE_TRANSMIT (R400). -/
def execAnnounceTransmit (inst port : Nat) (s : State) : Host.Outcome State Fault Refusal :=
  if inst < 4 ∧ port < 2 then (if serves s inst port then .next (announceSend s inst port) else .next s)
  else .refused .illFormed

/-- DELAY_REQ_RECEIVE (R409). -/
def execDelayReqReceive (inst : Nat) (m : PtpMsg) (s : State) : Host.Outcome State Fault Refusal :=
  if inst < 4 ∧ PtpMsg.ok m then .next (delayReq s inst m) else .refused .illFormed

/-- PDELAY_REQ_RECEIVE (R409); the response's departure as a raw timestamp. -/
def execPdelayReqReceive (inst : Nat) (m : PtpMsg) (depF depO : Nat) (s : State) : Host.Outcome State Fault Refusal :=
  if inst < 4 ∧ PtpMsg.ok m ∧ depO < 64000000 then .next (pdelayReq s inst m depF depO) else .refused .illFormed

/-- DELAY_REQ_TRANSMIT (R402, R415): the transmit strobe. -/
def execDelayReqTransmit (inst : Nat) (q : SentReq) (s : State) : Host.Outcome State Fault Refusal :=
  if inst < 4 ∧ q.port < 2 ∧ q.rawO < 64000000 then .next (delayReqSend s inst q.port q.rawF q.rawO) else .refused .illFormed

/-- DELAY_RESP_RECEIVE (R411). -/
def execDelayRespReceive (inst : Nat) (m : PtpMsg) (t1 t4 : Rat) (s : State) : Host.Outcome State Fault Refusal :=
  if inst < 4 ∧ PtpMsg.ok m then .next (delayResp s inst m t1 t4) else .refused .illFormed

/-- UNICAST_REQUEST (R396). -/
def execUnicastRequest (inst port slave : Nat) (logInterval : Int) (duration : Nat) (s : State) :
    Host.Outcome State Fault Refusal :=
  if inst < 4 ∧ port < 2 ∧ duration < 2 ^ 32 then .next (unicastRequest s inst port slave logInterval duration)
  else .refused .illFormed

/-- SYNC_TRANSMIT (R408): the built frame and the transmit strobe. -/
def execSyncTransmit (inst port : Nat) (bytes : List Nat) (rawF rawO : Nat) (s : State) : Host.Outcome State Fault Refusal :=
  if inst < 4 ∧ port < 2 ∧ areBytes bytes ∧ rawO < 64000000 then .next (syncSend s inst port bytes rawF rawO)
  else .refused .illFormed

/-- Whether 60 s have passed since an instance's latest close (R399). -/
def reopenDue (s : State) (p : Nat) : Bool := match (ptpOf s p).closes with
  | [] => true
  | f :: _ => decide (f + oneMin ≤ s.frn)

/-- PTP_REOPEN (R399): 60 s after its close an instance that does not stay closed reopens through INITIALIZING. -/
def execPtpReopen (inst : Nat) (s : State) : Host.Outcome State Fault Refusal :=
  if inst < 4 then
    if leafRuns s && instClosed s inst && !(ptpOf s inst).held && reopenDue s inst then .next (instOpen s inst) else .next s
  else .refused .illFormed

end Sys2Proof.Machine
end

