-- ==== Sys2Proof/Machine/Shelf.lean ====
section
/-! DEFINITION. The shelf bus (R418 to R446): messages, received frames, the election, alerts, transmit buffers and
errors. Remote reads are answered in Machine/Reads.lean. -/

namespace Sys2Proof.Machine

def modShelf (s : State) (f : ShelfU → ShelfU) : State := { s with shelf := f s.shelf }

/-! ### Addressing (R418 to R424) -/

/-- The node ID that policy and straps give (R419). -/
def nodeId (s : State) : Nat := get1 s SHELF.CFG_NODE_BASE 0 + 2 * b2n s.straps.addr1 + b2n s.straps.addr0

/-- The node ID in effect. -/
def nodeOf (s : State) : Nat := get1 s SHELF.NODE 0

/-- Role in effect: 0 SOLO, 1 STANDBY, 2 ACTIVE, 3 ISOLATED. -/
def roleOf (s : State) : Nat := get1 s SHELF.STATUS_ROLE 0

def electEn (s : State) : Bool := get1 s SHELF.CFG_ELECT_EN 0 == 1

/-- Class of a message type (Table 13.1). -/
def typeClass (t : Nat) : Nat := [0, 1, 2, 2, 3, 5, 5].getD t 8

/-- The identifier of a frame of a type that the module sends (R421). -/
def txIdent (s : State) (t : Nat) : Nat := 256 * typeClass t + 8 * nodeOf s + t

/-- The identifier and the payload of the frame that the module has on the bus. -/
def busFrame (s : State) : Option (Nat × List Nat) := s.shelf.onBus.map fun b => (txIdent s b.1, b.2)

/-- The transceiver is powered (R442): the hold-up node is at 12 V or above. -/
def transceiverOn (s : State) : Bool := decide (12000 ≤ get1 s PWR.HOLDUP 0)

/-- Payload bytes that a received frame of a type needs (Table 13.1). -/
def typeBytes (t : Nat) (p : List Nat) : Nat :=
  if t = 6 then 4 + 4 * p.getD 3 0 else [8, 8, 4, 16, 16, 8].getD t 0

/-- A frame that the module ignores and counts in UNKNOWN_CNT (R422). -/
def canUnknown (f : CanFrame) : Bool :=
  let t := f.ident % 8
  f.extended || !f.fd || f.remote || t == 7 || f.ident / 256 != typeClass t || decide (f.payload.length < typeBytes t f.payload)

/-- The sender of a frame. -/
def canNode (f : CanFrame) : Nat := f.ident / 8 % 32

/-! ### Election key (R430) -/

/-- What the state pads show (Table 9.4). -/
def stCode (s : State) : Nat :=
  if s.phase != .running || domState s 0 == 7 then 7 else if warming s then 5 else domState s 0

/-- State score (Table 13.3). -/
def stateScore (s : State) : Nat :=
  match stCode s with
  | 0 => 2
  | 1 => 3
  | 2 => 5
  | 3 => 4
  | 4 => 1
  | _ => 0

/-- Whether the module is DERIVED: DOM0 follows a channel whose QL comes from a node of its election group. -/
def derived (s : State) : Bool :=
  let c := activeOf s 0
  c != 0xF && qlSrc s c == 3 &&
    kvGet s.shelf.groups (polVal s.pol CHAN.QL_NODE c 0 0) == some (get1 s SHELF.CFG_GROUP 0)

/-- Election rank. -/
def electRank (s : State) : Nat := if derived s then 0 else getF s SEL.ACTIVE_CLOCK_RANK 0 0 0

/-- The module itself as an election peer. -/
def selfPeer (s : State) : Peer := ⟨nodeOf s, s.frn, b2n (roleOf s == 2), electRank s, stateScore s⟩

/-- (rank, score) of `a` above that of `b`. -/
def Peer.above (a b : Peer) : Bool := decide (b.rank < a.rank) || (a.rank == b.rank && decide (b.score < a.score))

/-- Key of `a` above that of `b`: rank, score, then the lower node ID. -/
def Peer.beats (a b : Peer) : Bool := Peer.above a b || (a.rank == b.rank && a.score == b.score && decide (a.node < b.node))

/-- The role that R432 gives in a role, with the module silent or not. -/
def electRole (me : Peer) (peers : List Peer) (role : Nat) (silent : Bool) : Nat :=
  if peers.isEmpty then 2
  else if silent then 1
  else if role = 2 then
    (if peers.any (fun p => p.claim == 1 && Peer.beats p me) || peers.any (fun p => Peer.above p me) then 1 else 2)
  else if !(peers.any fun p => p.claim == 1) && !(peers.any fun p => Peer.beats p me) then 2 else role

/-- One evaluation of the role (R432); an ISOLATED module keeps its role, and without ELECT_EN the role is SOLO. -/
def evaluate (s : State) : State :=
  if !electEn s || roleOf s == 3 || s.shelf.next == some 3 || s.shelf.mute then s
  else
    let role := s.shelf.next.getD (roleOf s)
    let r := electRole (selfPeer s) s.shelf.peers role (bit1 s SHELF.STATUS_SILENT 0)
    modShelf s fun u => { u with next := if r = roleOf s then none else some r }

/-- Report the peers and the node that claims ACTIVE (Table 13.7). -/
def publishPeers (s : State) : State :=
  let ps := s.shelf.peers
  let claim := (ps.filter fun p => p.claim == 1) ++ (if roleOf s = 2 then [selfPeer s] else [])
  let best := claim.foldl (fun (b : Option Peer) p => match b with
    | none => some p
    | some q => if Peer.beats p q then some p else b) none
  let s1 := set1 s SHELF.PEERS 0 ((ps.map fun p => 2 ^ p.node).foldl (· + ·) 0)
  let s2 := set1 (set1 s1 SHELF.ACTIVE_NODE_NONE 0 (b2n best.isNone)) SHELF.STATUS_DERIVED 0 (b2n (derived s1))
  match best with
  | some p => set1 s2 SHELF.ACTIVE_NODE_ID 0 p.node
  | none => set1 s2 SHELF.ACTIVE_NODE_ID 0 0

/-! ### Transmission (R420, R424, R425, R435, R443) -/

/-- Whether the module may send: bus enabled, not isolated, no clash, not muted by a power fail. -/
def maySend (s : State) : Bool :=
  get1 s SHELF.CFG_EN 0 == 1 && roleOf s != 3 && !bit1 s SHELF.STATUS_NODE_CLASH 0 && !s.shelf.mute

/-- A waiting frame goes on the bus when the bus is free, the transceiver powered and the controller not bus-off: lowest
identifier first. -/
def busStart (s : State) : State :=
  let u := s.shelf
  if u.onBus.isSome || get1 s SHELF.STATUS_FC 0 == 2 || get1 s SHELF.CFG_EN 0 == 0 || !transceiverOn s then s
  else match u.bufs with
    | [] => s
    | b :: r => modShelf s fun v => { v with onBus := some b, bufs := r }

/-- Load a message into its transmit buffer (R435): it replaces a pending one; when that one's start-of-frame is on
the bus the cancel is late. Types order the buffers as their identifiers do. -/
def loadBuf (s : State) (t : Nat) (p : List Nat) : State :=
  let late := match s.shelf.onBus with
    | some b => b.1 == t
    | none => false
  let s1 := if late then evt (addCnt s SHELF.CANCEL_LATE_CNT 0 0 1) .shelf 0 6 else s
  busStart (modShelf s1 fun u => { u with bufs := kvSet u.bufs t p })

/-- SEQ of the next message of a type, and the state after it. -/
def takeSeq (s : State) (t : Nat) : Nat × State :=
  let q := s.shelf.seqs.getD t 0
  (q, modShelf s fun u => { u with seqs := u.seqs.modify t fun x => (x + 1) % 256 })

/-- Leaf queues a message built with its SEQ. -/
def shelfQueue (s : State) (t : Nat) (build : Nat → List Nat) : State :=
  if !(leafRuns s && maySend s) then s
  else
    let q := takeSeq s t
    loadBuf q.2 t (build q.1)

/-- STATUS payload (Table 13.2). -/
def laneSpared (s : State) : Bool :=
  (List.range 18).any (fun n => get1 s LANE.STATUS_FAULT n == 1) || (List.range 16).any fun f => laneFor s f != some f

def statusBytes (s : State) (seq : Nat) : List Nat :=
  let role := if roleOf s = 2 then 2 else if roleOf s = 1 then 1 else 0
  [seq, 1, role + 4 * get1 s SHELF.CFG_ELECT_EN 0 + 8 * b2n (derived s) + 16 * get1 s SHELF.CFG_GROUP 0,
   domState s 0 + 8 * b2n (warming s), getF s SEL.ACTIVE_CLOCK_RANK 0 0 0 + 16 * activeOf s 0,
   domState s 1, domState s 2, domState s 3] ++ beBytes (duskMinutes s 0) 2 ++ beBytes (s.frn % 2 ^ 32) 4 ++
  [b2n (laneSpared s) + 2 * get1 s FRAME.TB_SRC 0 + 16 * b2n Config.gradeH, 0]

/-- ELECT content beside SEQ: claim, rank, score, group. -/
def electBody (s : State) (claim : Nat) : List Nat :=
  [claim, electRank s, stateScore s, get1 s SHELF.CFG_GROUP 0 + 128 * b2n (derived s), 0, 0, 0]

/-- The CLAIM of the role in effect. -/
def claimOf (s : State) : Nat := b2n (roleOf s == 2)

/-- QL_FWD codes: Table 12.3, or DNU from a DERIVED module (R426). -/
def qlfCodes (s : State) : Nat × Nat :=
  if derived s then (0xF, 0xFF) else rankCodes (getF s SEL.ACTIVE_CLOCK_RANK 0 (get1 s SHELF.TX_CFG_QLF_DOM 0) 0)

/-- TOD payload (Table 13.2). -/
def todPayload (s : State) (sec seq : Nat) : List Nat :=
  let d := get1 s SHELF.TX_CFG_TOD_DOM 0
  beBytes sec 6 ++ beBytes (get1 s TIME.UTC_OFS d) 2 ++ ((todBytes s d sec 0 (todStepped s d)).drop 12).take 3 ++ [seq, 0, 0, 0, 0]

def sendStatus (s : State) : State := shelfQueue s 4 (statusBytes s)

/-- ELECT is queued, with an evaluation of the role first (R432). -/
def sendElect (s : State) (judge : Bool) : State :=
  if !electEn s then s
  else
    let s1 := if judge && leafRuns s then evaluate s else s
    let b := electBody s1 (claimOf s1)
    shelfQueue (modShelf s1 fun u => { u with elSent := some b }) 1 fun q => q :: b

def sendQlf (s : State) : State :=
  if get1 s SHELF.TX_CFG_QLF_EN 0 = 0 then s
  else
    let c := qlfCodes s
    shelfQueue (modShelf s fun u => { u with qlSent := some c }) 2 fun q => [q, c.1, c.2, get1 s SHELF.TX_CFG_QLF_DOM 0]

def sendTod (s : State) (sec : Nat) : State :=
  if get1 s SHELF.TX_CFG_TOD_EN 0 = 0 then s
  else shelfQueue (modShelf s fun u => { u with tod := none }) 3 fun q => todPayload s sec q

/-- An event of a kind of Table 13.5 queues one ALERT when its mask bit is set (R434). -/
def sendAlert (s : State) (kind part dom data : Nat) : State :=
  if !bitOf (get1 s SHELF.TX_CFG_ALERT_MASK 0) kind then s
  else shelfQueue s 0 fun q => [q, kind, part + 16 * dom, 0] ++ beBytes data 4

/-- Whether a FRN meets a schedule (Table 13.2). -/
def onSchedule (s : State) (period off : Nat) : Bool := s.frn % period == (31 * nodeOf s + off) % period

/-- Whether ELECT is due by schedule, or because CLAIM or a key changed. -/
def electDue (s : State) : Bool := onSchedule s 1000 500 || s.shelf.elSent != some (electBody s (claimOf s))

/-- Whether QL_FWD is due by schedule, or because the code changed. -/
def qlfDue (s : State) : Bool := onSchedule s 2000 250 || s.shelf.qlSent != some (qlfCodes s)

/-! ### Role changes and presence (R431, R433, R438) -/

/-- A role that waits acts at a boundary (R433): reported, journalled, the listed outputs stop or restart. -/
def roleChange (s : State) : State :=
  match s.shelf.next with
  | none => s
  | some r =>
    let old := roleOf s
    let s1 := modShelf s fun u => { u with next := none }
    if r = old then s1
    else
      let s2 := publishPeers (set1 (set1 s1 SHELF.STATUS_ROLE 0 r) SHELF.ROLE_FRN 0 s.frn)
      let s3 := journalPg (evt s2 .shelf 0 0) 0x081 none .shelf 0 (old + 16 * r + 256 * get1 s2 SHELF.ACTIVE_NODE_ID 0)
      sendAlert (outsRefresh s3) 7 0 0 (256 * old + r)

/-- A peer's presence lapses (R431, R434): it leaves the present set without WITHDRAW. -/
def peerLapse (s : State) (node : Nat) : State :=
  let s1 := modShelf s fun u => { u with peers := u.peers.filter fun p => p.node != node }
  evaluate (sendAlert (evt (publishPeers s1) .shelf 0 4) 6 0 0 node)

/-- The module becomes silent and stands down (R431, R438): Root evaluates in Leaf's place while Leaf is down. -/
def goSilent (s : State) : State :=
  let s1 := set1 s SHELF.STATUS_SILENT 0 1
  if leafRuns s1 then evaluate s1
  else if s1.shelf.atStop && roleOf s1 == 2 then modShelf s1 fun u => { u with next := some 1 } else s1

/-- Frames in 500 ms and 375 ms (R431). -/
def presentFrames : Nat := 4000
def silentFrames : Nat := 3000

/-- Leaf stops: whether a peer of the group is present at that moment is kept (R438). -/
def shelfStop (s : State) : State := modShelf s fun u => { u with atStop := !u.peers.isEmpty }

/-- Leaf runs again (R440): the module rejoins as STANDBY and every SEQ restarts at 0. -/
def shelfRejoin (s : State) : State :=
  let s1 := modShelf s fun u =>
    { u with seqs := List.replicate 8 0, peers := [], groups := [], tod := none, reqs := [],
             next := if electEn s && (roleOf s == 2) then some 1 else u.next }
  publishPeers s1

/-- The role at a reset of the shelf protocol (R441). -/
def shelfReset (s : State) : State :=
  let s1 := { s with shelf := { own := s.frn } }
  publishPeers (set1 (set1 s1 SHELF.NODE 0 (nodeId s)) SHELF.STATUS_ROLE 0 (b2n (electEn s)))

/-- A commit acts on the shelf bus (R419, R424, R432, Table 13.6): a new node ID ends ISOLATED as STANDBY; a new group
empties the present set; ELECT_EN sets SOLO or STANDBY. -/
def shelfCommit (s : State) (oldGroup : Nat) : State :=
  let base := if electEn s then 1 else 0
  let moved := nodeId s != nodeOf s
  let s1 := if moved then set1 (set1 s SHELF.NODE 0 (nodeId s)) SHELF.STATUS_NODE_CLASH 0 0 else s
  let s1 := if electEn s1 then s1 else set1 s1 SHELF.STATUS_SILENT 0 0
  let s2 := if get1 s1 SHELF.CFG_GROUP 0 = oldGroup then s1
    else evaluate (modShelf s1 fun u => { u with peers := [] })
  let r := roleOf s2
  let want := if moved && r == 3 then base else if r = 3 then 3 else if !electEn s2 then 0 else if r = 0 then 1 else r
  publishPeers (if want = r then s2 else modShelf s2 fun u => { u with next := some want })

/-! ### Frames on the bus -/

/-- The frame on the bus completes: counted; an own ELECT ends silence (R431). -/
def busDone (s : State) : State :=
  match s.shelf.onBus with
  | none => s
  | some b =>
    let s1 := addCnt (modShelf s fun u => { u with onBus := none }) SHELF.TX_CNT 0 0 1
    busStart (if b.1 = 1 then set1 (modShelf s1 fun u => { u with own := s1.frn }) SHELF.STATUS_SILENT 0 0 else s1)

/-- The schedule of a TOD message: 10 ms after a rollover of its domain (R428). The rollover lies in the frame that ended
when `rolled` is set, so the message is queued 79 frames after it, within the last 125 us of the 10 ms. -/
def todSchedule (s : State) : State :=
  let u := timeOf s (get1 s SHELF.TX_CFG_TOD_DOM 0)
  match u.rolled, s.shelf.tod with
  | some sec, _ => modShelf s fun v => { v with tod := some (sec, 78) }
  | none, some (sec, n + 1) => modShelf s fun v => { v with tod := some (sec, n) }
  | none, some (sec, 0) => sendTod s sec
  | none, none => s

/-- One frame of the shelf bus, after stage 4: a frame completes; presence and silence run; messages that are due are
queued. -/
def shelfFrame (s : State) : State :=
  let s1 := busDone s
  let lapsed := s1.shelf.peers.filter fun p => decide (p.frn + presentFrames ≤ s1.frn)
  let s2 := if leafRuns s1 then lapsed.foldl (fun t p => peerLapse t p.node) s1 else s1
  let s3 := if electEn s2 && !bit1 s2 SHELF.STATUS_SILENT 0 && decide (s2.shelf.own + silentFrames ≤ s2.frn) then goSilent s2 else s2
  if !leafRuns s3 then s3
  else
    let s4 := publishPeers s3
    let s5 := if onSchedule s4 1000 0 then sendStatus s4 else s4
    let s6 := if electEn s5 && electDue s5 then sendElect s5 true else s5
    let s7 := if qlfDue s6 then sendQlf s6 else s6
    todSchedule s7

/-- Whether a domain entered HOLDOVER or LOST is alerted with its DUSK registers (R434). -/
def alertDom (s : State) (d : Nat) : State :=
  if domState s d = 3 then sendAlert s 1 d d (get1 s DPLL.DUSK_LEFT d)
  else if domState s d = 4 then sendAlert s 2 d d (get1 s DPLL.DUSK_BOUND d) else s

/-- A lane spared, `a` the state before (R434, Table 13.5): the function's code of Table 5.1, the old and the new lane. -/
def alertLane (a s : State) (f : Nat) : State :=
  match laneFor s f with
  | none => s
  | some n =>
    if laneFor a f = some n then s
    else sendAlert s 4 0 0 (65536 * funcCode f + 256 * (laneFor a f).getD 0x1F + n)

/-- A channel that lost its lane, `a` the state before (R434). -/
def alertChan (a s : State) (c : Nat) : State :=
  if (laneFor a c).isSome && (laneFor s c).isNone then sendAlert s 5 (chanOwner s c) 0 c else s

/-- The alerts of a frame, from the states before and after its stages (R434): domains that entered HOLDOVER or LOST,
lanes spared, channels that came to fail with LANE_LOST. -/
def shelfAlerts (a s : State) : State :=
  let s1 := ((List.range 4).filter fun d => domState a d != domState s d).foldl alertDom s
  (List.range 10).foldl (alertChan a) ((List.range 16).foldl (alertLane a) s1)

/-! ### Received frames (R422 to R432) -/

/-- A valid ELECT (R431, R432). -/
def electRx (s : State) (n : Nat) (p : List Nat) : State :=
  let claim := p.getD 1 0
  let group := p.getD 4 0 % 16
  let s1 := modShelf s fun u => { u with groups := kvSet u.groups n group }
  let was := s1.shelf.peers.any fun q => q.node == n
  let rest := s1.shelf.peers.filter fun q => q.node != n
  let s2 := if group ≠ get1 s1 SHELF.CFG_GROUP 0 then s1
    else if claim = 2 then modShelf s1 fun u => { u with peers := rest }
    else evtIf (!was) (modShelf s1 fun u =>
      { u with peers := rest ++ [⟨n, s1.frn, claim, p.getD 2 0 % 16, p.getD 3 0 % 8⟩] }) .shelf 0 5
  publishPeers (evaluate s2)

/-- A valid TOD: the active node's second against TIME0's (R428). -/
def todRx (s : State) (n : Nat) (p : List Nat) : State :=
  if bit1 s SHELF.ACTIVE_NODE_NONE 0 || get1 s SHELF.ACTIVE_NODE_ID 0 != n then s
  else
    let x : Int := (beAt p 0 6 : Int) - timeSec (timeOf s 0).t
    let y := if x > 127 then 127 else if x < -127 then -127 else x
    set1 (set1 s SHELF.PEER_TOD_DIFF 0 (ofSigned 8 y)) SHELF.PEER_TOD_VALID 0 1

/-- CAN FD payload length that holds `n` bytes. -/
def canLen (n : Nat) : Nat := ([8, 12, 16, 20, 24, 32, 48, 64].find? fun k => decide (n ≤ k)).getD 64

/-- REG_RESP payload (R429, Table 13.4). -/
def respBytes (node tag result : Nat) (words : List Nat) : List Nat :=
  let b := [node, tag, result, words.length] ++ words.flatMap fun w => beBytes w 4
  b ++ List.replicate (canLen b.length - b.length) 0

/-- A remote read is answered. -/
def sendResp (s : State) (node tag result : Nat) (words : List Nat) : State :=
  if maySend s then loadBuf (addCnt s SHELF.REMOTE_CNT 0 0 1) 6 (respBytes node tag result words) else s

/-- A valid REG_REQ (R429): for this node, with REMOTE_EN; held, or answered at once with OVERLOAD. -/
def regReqRx (s : State) (n : Nat) (p : List Nat) : State :=
  if p.getD 0 0 ≠ nodeOf s then s
  else if get1 s SHELF.CFG_REMOTE_EN 0 = 0 then addCnt s SHELF.REMOTE_DENIED_CNT 0 0 1
  else if 4 ≤ s.shelf.reqs.length then sendResp s n (p.getD 1 0) 7 []
  else modShelf s fun u => { u with reqs := u.reqs ++ [⟨n, p.getD 1 0, p.getD 2 0, beAt p 3 3⟩] }

/-- The module's own node ID from another sender (R424). -/
def nodeClash (s : State) (ident : Nat) : State :=
  let s1 := set1 (evt s .shelf 0 1) SHELF.STATUS_NODE_CLASH 0 1
  modShelf (journalPg s1 0x080 none .shelf 0 ident) fun u => { u with next := some 3, bufs := [] }

/-- A frame arrives on the bus (R422 to R424): rejected, clashing and stranger frames are counted; a valid frame acts
by its type. -/
def shelfRx (s : State) (f : CanFrame) (cyc : Nat) : State :=
  if get1 s SHELF.CFG_EN 0 = 0 ∨ !leafRuns s ∨ !transceiverOn s then s
  else if canUnknown f then addCnt s SHELF.UNKNOWN_CNT 0 0 1
  else
    let n := canNode f
    let s1 := addCnt s SHELF.RX_CNT 0 0 1
    if n = nodeOf s1 then nodeClash s1 f.ident
    else if !bitOf (get1 s1 SHELF.ROSTER 0) n then
      (let first := get1 s1 SHELF.STRANGER_CNT 0 == 0
       evtIf first (addCnt s1 SHELF.STRANGER_CNT 0 0 1) .shelf 0 7)
    else match f.ident % 8 with
      | 1 => electRx s1 n f.payload
      | 2 => deliverQl (modShelf s1 fun u => { u with qlDoms := kvSet u.qlDoms n (f.payload.getD 3 0 % 4) }) cyc 3 n (f.payload.getD 1 0 % 16) (some (f.payload.getD 2 0))
      | 3 => todRx s1 n f.payload
      | 5 => regReqRx s1 n f.payload
      | _ => s1

/-! ### Errors and power (R436, R443, R444) -/

/-- Bus-off: the frame on the bus goes back to its buffer unless a newer message waits there. -/
def busOffEnter (s : State) (tec : Nat) : State :=
  let s1 := set1 (set1 s SHELF.STATUS_FC 0 2) SHELF.TEC_REC_TEC 0 tec
  let s2 := modShelf s1 fun u => match u.onBus with
    | some b => { u with onBus := none, bufs := if (kvGet u.bufs b.1).isSome then u.bufs else kvSet u.bufs b.1 b.2 }
    | none => u
  journalPg (addCnt (evt s2 .shelf 0 2) SHELF.BUSOFF_CNT 0 0 1) 0x082 none .shelf 0 (tec % 256)

/-- Recovery: both counters are 0, and pending buffers are sent. -/
def busOffLeave (s : State) : State :=
  busStart (set1 (set1 (set1 s SHELF.STATUS_FC 0 0) SHELF.TEC_REC_TEC 0 0) SHELF.TEC_REC_REC 0 0)

/-- The pre-built frames of a power fail (R443): every other pending buffer is cancelled, WITHDRAW and, if masked,
POWER_FAIL are sent, then nothing. -/
def shelfPowerFail (s : State) : State :=
  let late := s.shelf.onBus.isSome
  let s1 := if late then evt (addCnt s SHELF.CANCEL_LATE_CNT 0 0 1) .shelf 0 6 else s
  let s2 := modShelf s1 fun u => { u with bufs := [] }
  let ok := maySend s2
  let a := takeSeq s2 1
  let s3 := if ok && electEn s2 then
    (loadBuf (modShelf a.2 fun u => { u with elSent := none }) 1 (a.1 :: electBody s2 2)) else s2
  let b := takeSeq s3 0
  let s4 := if ok && bitOf (get1 s3 SHELF.TX_CFG_ALERT_MASK 0) 3 then
      modShelf b.2 fun u => { u with bufs := u.bufs ++ [(0, [b.1, 3, 0, 0, 0, 0, 0, 0])] }
    else s3
  busStart (modShelf s4 fun u =>
    { u with mute := true, next := if electEn s && (roleOf s == 2) then some 1 else u.next })

/-- After PF_RECOVERED (R444): ELECT with CLAIM STANDBY, no evaluation yet. -/
def shelfRecover (s : State) : State :=
  let s1 := modShelf s fun u => { u with mute := false }
  if !electEn s1 then s1
  else
    let b := electBody s1 0
    shelfQueue (modShelf s1 fun u => { u with elSent := some b }) 1 fun q => q :: b

/-- SHELF_TX (Table 14.1): Leaf queues a message; hardware inserts the node ID. A payload beyond CAN FD's 64 bytes is a bad
argument (DESIGN CHOICE, notes/assumptions 55). -/
def gateShelfTx (s : State) (t : Nat) (p : List Nat) : State :=
  if !leafRuns s then s
  else if !([1, 2, 3, 4, 6].contains t) || decide (64 < p.length) then gateRefuse s 0x06 1
  else if !maySend s || get1 s SHELF.STATUS_FC 0 == 2 then gateRefuse s 0x06 7
  else loadBuf (gateRes s 0) t p

/-! ### Meanings -/

/-- Whether a frame has the form of a CAN frame. -/
def CanFrame.ok (f : CanFrame) : Bool :=
  decide (f.ident < 2 ^ 29) && (f.extended || decide (f.ident < 2048)) && areBytes f.payload && decide (f.payload.length ≤ 64)

/-- SHELF_TX (R448, Table 14.1). -/
def execShelfTx (type : Nat) (payload : List Nat) (s : State) : Host.Outcome State Fault Refusal :=
  if areBytes payload then .next (gateShelfTx s type payload) else .refused .illFormed

/-- SHELF_STATUS_TX (R425): STATUS in the frame its schedule names. -/
def execShelfStatusTx (s : State) : Host.Outcome State Fault Refusal :=
  if onSchedule s 1000 0 then .next (sendStatus s) else .next s

/-- SHELF_ELECT_TX (R425, R432): ELECT on schedule or after a change, the role evaluated. -/
def execShelfElectTx (s : State) : Host.Outcome State Fault Refusal :=
  if electDue s then .next (sendElect s true) else .next s

/-- SHELF_QL_FWD_TX (R426). -/
def execShelfQlFwdTx (s : State) : Host.Outcome State Fault Refusal :=
  if qlfDue s then .next (sendQlf s) else .next s

/-- SHELF_TOD_TX (R428): the TOD of the latest rollover that waits. -/
def execShelfTodTx (s : State) : Host.Outcome State Fault Refusal :=
  match s.shelf.tod, (timeOf s (get1 s SHELF.TX_CFG_TOD_DOM 0)).rolled with
  | some x, _ => .next (sendTod s x.1)
  | none, some sec => .next (sendTod s sec)
  | none, none => .next s

/-- ALERT (R434). -/
def execAlert (kind part dom data : Nat) (s : State) : Host.Outcome State Fault Refusal :=
  if 1 ≤ kind ∧ kind ≤ 7 ∧ part < 4 ∧ dom < 4 ∧ data < 2 ^ 32 then .next (sendAlert s kind part dom data) else .refused .illFormed

/-- SHELF_ELECT_RX (R432). -/
def execShelfElectRx (f : CanFrame) (s : State) : Host.Outcome State Fault Refusal :=
  if CanFrame.ok f ∧ f.ident % 8 = 1 then .next (shelfRx s f 0) else .refused .illFormed

/-- SHELF_QL_FWD_RX (R427). -/
def execShelfQlFwdRx (f : CanFrame) (cyc : Nat) (s : State) : Host.Outcome State Fault Refusal :=
  if CanFrame.ok f ∧ f.ident % 8 = 2 ∧ cyc < 1250 then .next (shelfRx s f cyc) else .refused .illFormed

/-- SHELF_TOD_RX (R428). -/
def execShelfTodRx (f : CanFrame) (s : State) : Host.Outcome State Fault Refusal :=
  if CanFrame.ok f ∧ f.ident % 8 = 3 then .next (shelfRx s f 0) else .refused .illFormed

/-- REG_REQ (R429). -/
def execRegReq (f : CanFrame) (s : State) : Host.Outcome State Fault Refusal :=
  if CanFrame.ok f ∧ f.ident % 8 = 5 then .next (shelfRx s f 0) else .refused .illFormed

/-- UNKNOWN_FRAME (R422): a frame that R422 rejects. -/
def execUnknownFrame (f : CanFrame) (s : State) : Host.Outcome State Fault Refusal :=
  if CanFrame.ok f then (if canUnknown f then .next (shelfRx s f 0) else .next s) else .refused .illFormed

/-- PEER_LOST (R431): the presence of a present node lapses. -/
def execPeerLost (node : Nat) (s : State) : Host.Outcome State Fault Refusal :=
  if node < 32 then
    if leafRuns s && s.shelf.peers.any fun p => p.node == node then .next (peerLapse s node) else .next s
  else .refused .illFormed

/-- SILENT (R431, R438): 375 ms pass without an own ELECT completing. -/
def execSilent (s : State) : Host.Outcome State Fault Refusal := if electEn s then .next (goSilent s) else .next s

/-- BUS_OFF (R436). -/
def execBusOff (tec : Nat) (s : State) : Host.Outcome State Fault Refusal :=
  if tec < 512 then
    if get1 s SHELF.CFG_EN 0 = 0 ∨ get1 s SHELF.STATUS_FC 0 = 2 then .next s else .next (busOffEnter s tec)
  else .refused .illFormed

/-- BUS_OFF_RECOVERY (R436). -/
def execBusOffRecovery (s : State) : Host.Outcome State Fault Refusal :=
  if get1 s SHELF.STATUS_FC 0 = 2 then .next (busOffLeave s) else .next s

/-- ERR_PASSIVE (R436): from error active. -/
def execErrPassive (tec rec : Nat) (s : State) : Host.Outcome State Fault Refusal :=
  if tec < 256 ∧ rec < 256 then
    if get1 s SHELF.STATUS_FC 0 = 0 ∧ get1 s SHELF.CFG_EN 0 = 1 then
      .next (evt (set1 (set1 (set1 s SHELF.STATUS_FC 0 1) SHELF.TEC_REC_TEC 0 tec) SHELF.TEC_REC_REC 0 rec) .shelf 0 3)
    else .next s
  else .refused .illFormed

end Sys2Proof.Machine
end

