-- ==== Sys2Proof/Machine/Cellar.lean ====
section
/-! DEFINITION. The Cellar (R475 to R509): block copies, the store engine with its queue and supply check, command
stores, the power-fail sequence, the ring, recall and scrub. -/

namespace Sys2Proof.Machine

def modCellar (s : State) (f : CellarU → CellarU) : State := { s with cellar := f s.cellar }

/-! ### SRAM and dirty blocks (R475, R481) -/

/-- Address of a block in the window. -/
def blockAddr (b : Nat) : Nat := 0x800000 + 0x1000 * b

/-- Put a number into a rising list. -/
def insertNat (x : Nat) : List Nat → List Nat
  | [] => [x]
  | a :: r => if x < a then x :: a :: r else if x = a then a :: r else a :: insertNat x r

/-- Write one byte of SRAM; a change makes its block dirty (R481). -/
def putSram (s : State) (a b : Nat) : State :=
  if (memByte s a).toNat = b % 256 then s
  else modCellar (setByte s a (BitVec.ofNat 8 b)) fun u => { u with dirty := insertNat ((canonAddr a - 0x800000) / 0x1000) u.dirty }

/-- Write bytes of SRAM from an address on. -/
def putSrams (s : State) (a : Nat) : List Nat → State
  | [] => s
  | b :: r => putSrams (putSram s a b) (a + 1) r

/-- The bytes of a number, least significant first. -/
def leBytes (v : Nat) : Nat → List Nat
  | 0 => []
  | n + 1 => v % 256 :: leBytes (v / 256) n

/-- Write `n` bytes of SRAM little-endian. -/
def putSramLE (s : State) (a v n : Nat) : State := putSrams s a (leBytes v n)

/-- A block's SRAM as cells by offset. -/
def blockCells (s : State) (b : Nat) : List Host.Cell :=
  (s.mem.filter fun c => decide (blockAddr b ≤ c.1) && decide (c.1 < blockAddr (b + 1))).map fun c => (c.1 - blockAddr b, c.2)

/-- Replace a block's SRAM. -/
def loadBlock (m : List Host.Cell) (b : Nat) (d : List Host.Cell) : List Host.Cell :=
  d.foldl (fun n c => memPut n (blockAddr b + c.1) c.2)
    (m.filter fun c => decide (c.1 < blockAddr b) || decide (blockAddr (b + 1) ≤ c.1))

/-! ### Copies (R477 to R480) -/

/-- COMMIT of a complete copy. -/
def commitWord : Nat := 0xA5A50F0F

/-- CRC of a copy: its 4096 data bytes, then header bytes 0x00 to 0x0B (Table 15.2). -/
def copyCrc (c : NvCopy) : Nat :=
  crc32 ((List.range 4096).map (fun i => ((kvGet c.data i).getD 0).toNat) ++
    leBytes c.gen 4 ++ leBytes (c.block + 256 * c.copy) 4 ++ leBytes c.wear 4)

/-- A copy of a block; one that nothing has programmed since delivery is VALID with GEN 1, WEAR 1 and data 0
(DESIGN CHOICE, notes/assumptions 24). -/
def nvOf (s : State) (b c : Nat) : Option NvCopy := kvGet s.cellar.nv (2 * b + c)

/-- State code of a copy (Table 15.3). -/
def copyState (s : State) (b c : Nat) : Nat :=
  match nvOf s b c with
  | none => 0
  | some k => if k.erased then 3 else if k.commit ≠ commitWord then 1
    else if k.weak || k.block != b || k.crc != copyCrc k then 2 else 0

def copyGen (s : State) (b c : Nat) : Nat := match nvOf s b c with
  | none => 1
  | some k => k.gen

def copyWear (s : State) (b c : Nat) : Nat := match nvOf s b c with
  | none => 1
  | some k => k.wear

def copyData (s : State) (b c : Nat) : List Host.Cell := match nvOf s b c with
  | none => []
  | some k => k.data

/-- The winning copy of a block, or none when it is LOST (R500). -/
def winner (s : State) (b : Nat) : Option Nat :=
  let a := copyState s b 0 == 0
  let c := copyState s b 1 == 0
  if a && c then (if copyGen s b 0 < copyGen s b 1 then some 1 else some 0)
  else if a then some 0 else if c then some 1 else none

/-- The target copy of a block store (R480): the copy that is not VALID, the first of two; else the lower GEN, B at
equal GENs. A LOST block is stored to copy A (R502). -/
def targetCopy (s : State) (b : Nat) : Nat :=
  if copyState s b 0 ≠ 0 then 0 else if copyState s b 1 ≠ 0 then 1
  else if copyGen s b 0 < copyGen s b 1 then 0 else 1

/-- The copy that a store or a fix of the queue programs. -/
def jobCopy (s : State) (j : StoreJob) : Nat := j.fix.getD (targetCopy s j.block)

/-- GEN of a block store into a copy (R480). -/
def newGen (s : State) (b c : Nat) : Nat := if copyState s b (1 - c) = 0 then copyGen s b (1 - c) + 1 else 1

/-- WEAR after programming a copy again; 1 when the previous is unreadable (R480, R505). -/
def newWear (s : State) (b c : Nat) : Nat :=
  if copyState s b c = 0 ∨ copyState s b c = 1 then satTo 0xFFFFFFFF (copyWear s b c + 1) else 1

/-! ### Lifetime counters (R476, R505) -/

/-- Address of lifetime counter `i`, in the order of Table 15.7. -/
def ltAddr (i : Nat) : Nat := blockAddr 15 + 0x20 + 4 * i

def ltGet (s : State) (i : Nat) : Nat := memLE s (ltAddr i) 4

/-- Voltages as journal entries carry them (Table 15.8). -/
def voltBits (v : Supply) : Nat := 2 ^ 12 * satTo 255 (v.holdupMv / 200) + 2 ^ 20 * satTo 255 (v.vinMv / 250)

/-- The latest measured voltages. -/
def supplyNow (s : State) : Supply := ⟨get1 s PWR.VIN 0, get1 s PWR.HOLDUP 0⟩

/-- Journal a Cellar event (R509, Table 15.8). -/
def cellarEntry (s : State) (code block copy cause : Nat) (v : Supply) : State :=
  journalPg s code none .cellar 0 (block + 256 * copy + 512 * cause + voltBits v)

/-- A value of a lifetime register or WEAR reaches 0xFFFFFFFF (R505). -/
def lifetimeSat (s : State) (block copy : Nat) : State :=
  if bit1 s CELLAR.STATUS_LIFETIME_SAT 0 then s
  else cellarEntry (evt (set1 s CELLAR.STATUS_LIFETIME_SAT 0 1) .cellar 0 6) 0x0A6 block copy 0 (supplyNow s)

/-- Add 1 to a lifetime counter (R505). -/
def ltAdd (s : State) (i : Nat) : State :=
  let x := ltGet s i
  if 0xFFFFFFFF ≤ x then s
  else
    let s1 := putSramLE s (ltAddr i) (x + 1) 4
    if x + 1 = 0xFFFFFFFF then lifetimeSat s1 15 0 else s1

/-! ### Requests (R483, R484, R485, R450) -/

/-- The block that a partition may store by command (Table 15.1). -/
def mayStore (p b : Nat) : Bool :=
  (decide (176 + 8 * p ≤ b) && decide (b < 184 + 8 * p)) || (decide (240 + 4 * p ≤ b) && decide (b < 244 + 4 * p)) ||
  (p == 0 && decide (24 ≤ b) && decide (b < 144))

/-- Put a store into the queue: merged into one of its block that waits, which keeps its place and takes the better
priority (R483). -/
def addJob (s : State) (j : StoreJob) : State :=
  if j.fix.isNone && s.cellar.queue.any (fun q => q.block == j.block && q.fix.isNone) then
    modCellar s fun u => { u with queue := u.queue.map fun q =>
      if q.block == j.block && q.fix.isNone then { q with prio := min q.prio j.prio, owners := q.owners ++ j.owners } else q }
  else if j.fix.isSome && s.cellar.queue.contains j then s
  else modCellar s fun u => { u with queue := u.queue ++ [j] }

/-- The store to be served next: the best priority, the earliest of it (R483). -/
def nextJob (q : List StoreJob) : Option StoreJob :=
  q.foldl (fun (b : Option StoreJob) j => match b with
    | none => some j
    | some k => if j.prio < k.prio then some j else b) none

/-- Take a job out of the queue. -/
def dropJob : List StoreJob → StoreJob → List StoreJob
  | [], _ => []
  | q :: r, j => if q = j then r else q :: dropJob r j

/-- Leaf becomes PARKED: the watchdog is suspended (R466). -/
def leafPark (s : State) : State :=
  { set1 s ROOT.STATUS_LEAF 0 3 with root := { s.root with parkedAt := some s.frn } }

/-- Leaf resumes: the frames it was PARKED do not count for the watchdog. -/
def leafResume (s : State) : State :=
  { set1 s ROOT.STATUS_LEAF 0 0 with root := { s.root with kick := s.root.kick + (s.frn - s.root.parkedAt.getD s.frn), parkedAt := none } }

/-- Whether a request parks Leaf for its stores: a STORE_REQUEST, or a command store of bank L (R450, R485). -/
def parksLeaf (j : StoreJob) (o : Nat) : Bool := o == 9 || (decide (o < 4) && decide (32 ≤ j.block) && decide (j.block < 144))

/-- Leaf is parked by a request before its first store begins. -/
def park (s : State) (o : Nat) : State :=
  let s1 := modCellar s fun u => { u with parked := insertNat o u.parked }
  if leafRuns s1 then leafPark s1 else s1

/-- A request has no store left: Leaf resumes when nothing parks it any more. -/
def unpark (s : State) (o : Nat) : State :=
  let s1 := modCellar s fun u => { u with parked := u.parked.filter fun x => x != o }
  if s1.cellar.parked.isEmpty && get1 s1 ROOT.STATUS_LEAF 0 == 3 then leafResume s1 else s1

/-- Whether any store of a request is queued or running. -/
def pendingOf (s : State) (o : Nat) : Bool :=
  s.cellar.queue.any (fun q => q.owners.contains o) || (match s.cellar.run with
    | some r => r.job.owners.contains o
    | none => false)

/-! ### The engine (R480, R482, R487, R488) -/

/-- The supply check of a store (R487): 18 V at the hold-up node, and 4.3 V at VIN while PFAIL_N is high for a store
that is not the power-fail sequence's. -/
def supplyOk (s : State) (j : StoreJob) (v : Supply) : Bool :=
  decide (18000 ≤ v.holdupMv) && (j.prio == 1 || bit1 s PWR.STATUS_PF 0 || decide (4300 ≤ v.vinMv))

/-- A store begins (R480, R482): content taken, target chosen, the window busy. A repair or a refresh that waits for the target
copy is dropped: the store programs that copy (Table 15.6). -/
def startJob (s : State) (j : StoreJob) : State :=
  let c := jobCopy s j
  let s1 := modCellar s fun u =>
    { u with queue := (dropJob u.queue j).filter fun q => !(j.fix.isNone && q.block == j.block && q.fix == some c) }
  let src := if copyState s j.block c = 0 then c else (winner s j.block).getD c
  let r : StoreRun :=
    { job := j, copy := c, wear := newWear s j.block c,
      gen := if j.fix.isSome then copyGen s j.block src else newGen s j.block c,
      data := if j.fix.isSome then copyData s j.block src else blockCells s j.block }
  let s2 := modCellar s1 fun u =>
    { u with run := some r, defer := none, dirty := if j.fix.isSome then u.dirty else u.dirty.filter fun b => b != j.block }
  let s3 := (j.owners.filter fun o => parksLeaf j o).foldl park s2
  let s4 := (j.owners.filter fun o => decide (o < 4)).foldl (fun t p => setF t CELLAR.STORE_STAT_STATE 0 p 0 2) s3
  let s5 := set1 (set1 s4 CELLAR.STATUS_DEFERRED 0 0) CELLAR.STATUS_BUSY 0 1
  set1 (set1 s5 CELLAR.QUEUE_BLOCK 0 j.block) CELLAR.QUEUE_COPY 0 c

/-- The engine takes the next store if it is free: the supply check passes, or the queue is deferred (R487, R488). -/
def engineStart (s : State) (v : Supply) : State :=
  if s.cellar.run.isSome || s.phase == .off then s
  else match nextJob s.cellar.queue with
    | none => set1 (modCellar s fun u => { u with defer := none }) CELLAR.STATUS_DEFERRED 0 0
    | some j =>
      if supplyOk s j v then startJob s j
      else if s.cellar.defer.isSome then s
      else
        let s1 := modCellar (set1 s CELLAR.STATUS_DEFERRED 0 1) fun u => { u with defer := some s.frn }
        addCnt (evt s1 .cellar 0 3) CELLAR.DEFER_CNT 0 0 1

/-- The engine meets a new request: while the queue is deferred, only the repeated check starts a store (R488). -/
def engineKick (s : State) (v : Supply) : State := if s.cellar.defer.isSome then s else engineStart s v

/-- Whether the engine accepts a request (R491). -/
def engineTakes (s : State) : Bool := !s.cellar.shut && !bit1 s CELLAR.STATUS_PF_SEQ 0

/-- Root requests a store; before the hold-up node first reaches 18 V it waits (R489). -/
def rootStore (s : State) (b prio owner : Nat) : State :=
  if !engineTakes s then s
  else if !s.cellar.held18 then modCellar s fun u => { u with wait := u.wait ++ [⟨b, prio, [owner], none⟩] }
  else engineKick (addJob s ⟨b, prio, [owner], none⟩) (supplyNow s)

/-- Root queues the repair of a copy at priority 5, or a refresh at 6 (R501, R503). -/
def rootFix (s : State) (b c prio : Nat) : State :=
  if !engineTakes s then s
  else if !s.cellar.held18 then modCellar s fun u => { u with wait := u.wait ++ [⟨b, prio, [], some c⟩] }
  else engineKick (addJob s ⟨b, prio, [], some c⟩) (supplyNow s)

/-- A partition's command ends with a state and cause (Table 15.7). -/
def cmdEnd (s : State) (p state cause : Nat) : State :=
  let s1 := modCellar s fun u => { u with cmds := u.cmds.modify p fun c => (0, c.2) }
  setF (setF (setF s1 CELLAR.STORE_STAT_STATE 0 p 0 state) CELLAR.STORE_STAT_CAUSE 0 p 0 cause) CELLAR.STORE_STAT_FRN 0 p 0 s.frn

/-- A GO write acts (R484): rejected, it leaves a command in progress as it is. -/
def storeCmd (s : State) (p first countM1 : Nat) : State :=
  let bs := (List.range (countM1 + 1)).map fun i => first + i
  let ok := bs.all fun b => mayStore p b
  if (s.cellar.cmds.getD p (0, 0)).1 ≠ 0 then
    setF (setF s CELLAR.STORE_STAT_STATE 0 p 0 5) CELLAR.STORE_STAT_CAUSE 0 p 0 (if ok then 2 else 1)
  else if !ok then cmdEnd s p 5 1
  else if !engineTakes s then cmdEnd s p 4 4
  else
    let s1 := modCellar s fun u => { u with cmds := u.cmds.set p (countM1 + 1, 0) }
    let s2 := setF (setF s1 CELLAR.STORE_STAT_STATE 0 p 0 1) CELLAR.STORE_STAT_CAUSE 0 p 0 0
    let s3 := setF s2 CELLAR.STORE_STAT_DONE 0 p 0 0
    engineKick (bs.foldl (fun t b => addJob t ⟨b, 4, [p], none⟩) s3) (supplyNow s)

/-- A partition's command loses the blocks not yet started (R38, R490). -/
def dropOwner (s : State) (o : Nat) : State :=
  modCellar s fun u =>
    let l := u.queue.map fun (q : StoreJob) => { q with owners := q.owners.filter fun x => x != o }
    { u with queue := l.filter fun q => !q.owners.isEmpty || q.fix.isSome }

/-- The owner that a running store keeps of a command that a reset has cancelled: it parks Leaf to its end and counts in
PSTORE_CNT, and no command is credited with it. -/
def orphan (p : Nat) : Nat := 16 + p

/-- A partition reset cancels its command (R38): IDLE at once; a running store completes, and no later command is credited with
it. -/
def cancelCmd (s : State) (p : Nat) : State :=
  let s1 := dropOwner s p
  let s2 := modCellar s1 fun u =>
    { u with cmds := u.cmds.set p (0, 0),
             run := u.run.map fun (r : StoreRun) =>
               (let j := r.job
                { r with job := { j with owners := j.owners.map fun o => if o = p then orphan p else o } }) }
  let s3 := [CELLAR.STORE_STAT_STATE, CELLAR.STORE_STAT_CAUSE, CELLAR.STORE_STAT_DONE, CELLAR.STORE_STAT_FRN].foldl
    (fun t f => setF t f 0 p 0 0) s2
  if pendingOf s3 (orphan p) then s3 else unpark s3 p

/-- The running store of a cancelled command ends (R38). -/
def orphanDone (s : State) (p : Nat) : State :=
  let s1 := addCnt s CELLAR.PSTORE_CNT 0 p 1
  if pendingOf s1 p then s1 else unpark s1 p

/-- One block of a partition's command is stored (R484). -/
def cmdBlockDone (s : State) (p : Nat) : State :=
  let c := s.cellar.cmds.getD p (0, 0)
  let s1 := addCnt s CELLAR.PSTORE_CNT 0 p 1
  if c.1 = 0 then
    let s2 := if getF s1 CELLAR.STORE_STAT_STATE 0 p 0 = 4 then setF s1 CELLAR.STORE_STAT_DONE 0 p 0 (satTo 255 (c.2 + 1)) else s1
    if pendingOf s2 p then s2 else unpark s2 p
  else
    let s2 := setF (modCellar s1 fun u => { u with cmds := u.cmds.set p (c.1 - 1, c.2 + 1) }) CELLAR.STORE_STAT_DONE 0 p 0 (satTo 255 (c.2 + 1))
    if c.1 = 1 then unpark (partEvt (cmdEnd s2 p 3 0) p 14) p else s2

/-! ### The ring (R496 to R499) -/

/-- A value of 12 bytes. -/
def pad12 (l : List Nat) : List Nat := (l ++ List.replicate 12 0).take 12

/-- The 0x320 bytes of a ring slot that its CRC covers (Table 15.5). -/
def ringBytes (ring : List (Nat × List Nat)) (seq frn : Nat) : List Nat :=
  leBytes 0x47525A45 4 ++ leBytes seq 4 ++ leBytes frn 8 ++ leBytes ((ring.map fun k => 2 ^ k.1).foldl (· + ·) 0) 8 ++
  List.replicate 8 0 ++ (List.range 64).flatMap fun k => pad12 ((kvGet ring k).getD [])

/-- Address of a ring slot (R496). -/
def slotAddr (n : Nat) : Nat := blockAddr (208 + n / 4) + n % 4 * 0x400

/-- SEQ of the next slot: one higher than the last written, 0 for the first. -/
def ringNext (s : State) : Nat := match s.cellar.ringSeq with
  | some q => q + 1
  | none => 0

/-- Root writes the table into the next slot (R498). -/
def ringWrite (s : State) : State :=
  let q := ringNext s
  let b := ringBytes s.cellar.ring q s.frn
  let s1 := putSrams s (slotAddr (q % 64)) (b ++ leBytes (crc32 b) 4 ++ List.replicate 0xDC 0)
  modCellar s1 fun u => { u with ringSeq := some q, ringDirty := false, ringFrn := some s.frn }

/-- The block of the slot in use. -/
def ringBlock (s : State) : Nat := 208 + (s.cellar.ringSeq.getD 0) % 64 / 4

/-- Frames in 20 s. -/
def ringGap : Nat := 160000

/-- Whether 20 s have passed since the previous ring store (R498). -/
def ringDue (s : State) : Bool := match s.cellar.ringFrn with
  | none => true
  | some f => decide (f + ringGap ≤ s.frn)

/-- The table is written to its slot and the slot's block is stored at priority 3. -/
def ringStore (s : State) : State :=
  let s1 := ringWrite s
  rootStore s1 (ringBlock s1) 3 8

/-- A put: the value in RAM changes and the ring is dirty; it is written now or at the end of the interval (R498). -/
def ringPut (s : State) (k : Nat) (v : List Nat) : State :=
  let s1 := modCellar s fun u => { u with ring := kvSet u.ring k (pad12 v), ringDirty := true }
  if ringDue s1 && s1.cellar.held18 && engineTakes s1 then ringStore s1 else s1

/-- A ring slot's SEQ and keys, if its MAGIC and CRC are valid. -/
def slotRead (s : State) (n : Nat) : Option (Nat × List (Nat × List Nat)) :=
  let a := slotAddr n
  if memLE s a 4 ≠ 0x47525A45 then none
  else
    let b := memBytes s a 0x320
    if crc32 b ≠ memLE s (a + 0x320) 4 then none
    else some (memLE s (a + 4) 4, (List.range 64).filterMap fun k =>
      if bitOf (memLE s (a + 16) 8) k then some (k, memBytes s (a + 0x20 + 12 * k) 12) else none)

/-- The ring table at recall: the valid slot of the highest SEQ (R499). -/
def ringRecall (s : State) : Option (Nat × List (Nat × List Nat)) :=
  ((List.range 64).filterMap (slotRead s)).foldl (fun (b : Option (Nat × List (Nat × List Nat))) x => match b with
    | none => some x
    | some y => if y.1 < x.1 then some x else b) none

/-! ### Completion of a store (R480, R488, R490, R491, R504) -/

/-- The running store's copy is programmed (R480): the header's last field is COMMIT. -/
def programmed (s : State) (r : StoreRun) : State :=
  let c : NvCopy := { gen := r.gen, block := r.job.block, copy := r.copy, wear := r.wear, data := r.data }
  let s1 := modCellar s fun u => { u with nv := kvSet u.nv (2 * r.job.block + r.copy) { c with crc := copyCrc c }, run := none }
  let s2 := set1 s1 CELLAR.STATUS_BUSY 0 0
  let s3 := if r.wear = 1000001 then cellarEntry (evt s2 .cellar 0 5) 0x0A5 r.job.block r.copy 0 (supplyNow s) else s2
  if r.wear = 0xFFFFFFFF then lifetimeSat s3 r.job.block r.copy else s3

/-- LAST of the CELLAR page. -/
def setLast (s : State) (b c result : Nat) : State :=
  set1 (set1 (set1 (set1 s CELLAR.LAST_BLOCK 0 b) CELLAR.LAST_COPY 0 c) CELLAR.LAST_RESULT 0 result) CELLAR.LAST_FRN 0 s.frn

/-- The power-fail sequence ends with block 15 (R491). -/
def pfDone (s : State) (c : Nat) (v : Supply) : State :=
  let s1 := modCellar (set1 s CELLAR.STATUS_PF_SEQ 0 0) fun u => { u with shut := true }
  cellarEntry (evt s1 .cellar 0 7) 0x0A3 15 c 0 v

/-- A completed store: copies, counters and the partitions' commands. What the stores of a commit or an image load go
on to is in Machine/Root.lean. -/
def storeEnds (s : State) (r : StoreRun) (v : Supply) : State :=
  let s1 := setLast (programmed s r) r.job.block r.copy 0
  if r.job.fix.isSome then s1
  else
    let s2 := ltAdd (addCnt s1 CELLAR.STORE_CNT 0 0 1) 3
    let s3 := (r.job.owners.filter fun o => decide (o < 4)).foldl cmdBlockDone s2
    let s3 := ((List.range 4).filter fun p => r.job.owners.contains (orphan p)).foldl orphanDone s3
    let s4 := if r.job.owners.contains 9 && !pendingOf s3 9 then unpark s3 9 else s3
    if r.job.prio = 1 ∧ r.job.block = 15 then pfDone s4 r.copy v else s4

/-- The deferred store is abandoned (R488): its requests read FAILED with SUPPLY, and their other blocks leave. -/
def storeAbandon (s : State) (j : StoreJob) (v : Supply) : State :=
  let c := jobCopy s j
  let s1 := modCellar s fun u => { u with queue := dropJob u.queue j, defer := none }
  let s2 := cellarEntry (evt (set1 s1 CELLAR.STATUS_DEFERRED 0 0) .cellar 0 2) 0x0A2 j.block c 1 v
  let s3 := setLast (ltAdd (addCnt s2 CELLAR.FAILED_CNT 0 0 1) 7) j.block c 1
  let s4 := (j.owners.filter fun o => decide (o < 4)).foldl (fun t p => unpark (cmdEnd (dropOwner t p) p 4 3) p) s3
  if j.owners.contains 9 then unpark (dropOwner s4 9) 9 else s4

/-- Every queued and deferred request is cancelled (R490): the partitions' read FAILED with POWER, and LAST shows the deferred
store. -/
def cancelAll (s : State) : State :=
  let ps := (List.range 4).filter fun p => (s.cellar.cmds.getD p (0, 0)).1 != 0
  let s0 := match s.cellar.defer, nextJob s.cellar.queue with
    | some _, some j => setLast s j.block (jobCopy s j) 2
    | _, _ => s
  let s1 := modCellar (set1 s0 CELLAR.STATUS_DEFERRED 0 0) fun u => { u with queue := [], wait := [], defer := none }
  let still := fun (t : State) p => match t.cellar.run with
    | some r => r.job.owners.contains p && (t.cellar.cmds.getD p (0, 0)).1 == 1
    | none => false
  let s2 := ps.foldl (fun t p => if still t p then t else cmdEnd t p 4 4) s1
  (s2.cellar.parked.filter fun o => !pendingOf s2 o).foldl unpark s2

/-- The power-fail set in its order (R490): dirty black-box blocks, newest first, at most 9; the ring block if it is
dirty; block 15 with MARK equal to SESSION. -/
def pfQueue (s : State) : State :=
  let w := get1 s BBOX.WR_SEQ 0 % 4096 / 256
  let bb := ((List.range 16).map fun i => 224 + (w + 16 - i) % 16).filter fun b => s.cellar.dirty.contains b
  let s1 := if s.cellar.ringDirty then ringWrite s else s
  let rb := if s1.cellar.dirty.contains (ringBlock s1) then [ringBlock s1] else []
  let s2 := putSramLE s1 (blockAddr 15 + 4) s1.cellar.session 4
  modCellar s2 fun u => { u with queue := (bb.take 9 ++ rb ++ [15]).map fun b => ⟨b, 1, [7], none⟩ }

/-- PFAIL_N falls (R490): requests are cancelled and the sequence is queued behind the running store. -/
def pfSequence (s : State) (v : Supply) : State :=
  engineStart (pfQueue (set1 (cancelAll s) CELLAR.STATUS_PF_SEQ 0 1)) v

/-- After PF_RECOVERED the engine resumes (R493). -/
def cellarResume (s : State) : State := modCellar s fun u => { u with shut := false }

/-- The hold-up node first reaches 18 V (R489, R494): Root's stores begin, ring key 0 first, which supersedes a repair of the copy
that it programs. -/
def cellarReady (s : State) (v : Supply) : State :=
  if s.cellar.held18 then s
  else
    let w := s.cellar.wait
    let s1 := modCellar s fun u => { u with held18 := true, wait := [] }
    if !engineTakes s1 then engineStart s1 v
    else
      let s2 := (w.filter fun j => j.fix.isSome).foldl addJob (if s1.cellar.ringDirty then ringWrite s1 else s1)
      let s3 := if s1.cellar.ringDirty then engineKick (addJob s2 ⟨ringBlock s2, 3, [8], none⟩) v else s2
      engineKick ((w.filter fun j => j.fix.isNone).foldl addJob s3) v

/-! ### Recall (R500 to R502, R494) -/

/-- One block at recall: the winner is loaded, or zeros; torn, bad and blank copies are repaired. -/
def recallBlock (s : State) (b : Nat) : State :=
  if (nvOf s b 0).isNone && (nvOf s b 1).isNone then s
  else match winner s b with
    | some w =>
      let s1 := { s with mem := loadBlock s.mem b (copyData s b w) }
      let st := copyState s b (1 - w)
      if st = 0 then s1
      else
        let s2 := if st = 3 then s1
          else cellarEntry (ltAdd (addCnt (evt s1 .cellar 0 0) CELLAR.TORN_CNT 0 0 1) 4) 0x0A0 b (1 - w) st (supplyNow s)
        rootFix s2 b (1 - w) 5
    | none =>
      let s1 := cellarEntry (ltAdd (addCnt (evt s .cellar 0 1) CELLAR.LOST_CNT 0 0 1) 5) 0x0A1 b 0 0 (supplyNow s)
      let p := if b < 208 then (b - 176) / 8 else (b - 240) / 4
      let s2 := if (176 ≤ b ∧ b < 208) ∨ 240 ≤ b then partEvt s1 p 15 else s1
      let s3 := if 1 ≤ b ∧ b ≤ 3 then { s2 with lanes := s2.lanes.map fun (l : LaneU) => { l with stored := 0, known := false } } else s2
      if b = 15 then set1 s3 CELLAR.STATUS_LIFETIME_RESET 0 1 else s3

/-- SRAM is loaded from the copies, block 15 first. -/
def recallSram (s : State) : State :=
  ((List.range 256).filter fun b => b != 15).foldl recallBlock
    (recallBlock { modCellar s (fun u => { nv := u.nv }) with mem := [] } 15)

/-- Recall at power-on (R500): SRAM is loaded, block 15 first so that the lifetime counters of its winner count on;
then the ring, SESSION, and whether the previous power-down was unfinished (R494). -/
def cellarRecall (s : State) : State :=
  let s2 := recallSram s
  let ring := ringRecall s2
  let mark := memLE s2 (blockAddr 15 + 4) 4
  let key := match ring with
    | some r => (kvGet r.2 0).map fun v => beAt (v.take 4).reverse 0 4
    | none => none
  let sess := match key with
    | some k => k + 1
    | none => ltGet s2 0 + 1
  let s3 := modCellar s2 fun u =>
    { u with ring := kvSet ((ring.map fun r => r.2).getD []) 0 (pad12 (leBytes sess 4)), ringSeq := ring.map fun r => r.1,
             ringDirty := true, session := sess % 2 ^ 32 }
  let s4 := putSramLE (ltAdd s3 0) (blockAddr 15) sess 4
  if key.isSome && key != some mark then
    (ltAdd (cellarEntry (evt (set1 s4 CELLAR.STATUS_UNFINISHED 0 1) .cellar 0 2) 0x0A2 15 0 5 (supplyNow s)) 7)
  else s4

/-! ### Scrub (R503) -/

/-- A copy's cells are found not to read as programmed. -/
def weaken (s : State) (b c : Nat) : State :=
  let k : NvCopy := (nvOf s b c).getD { block := b, copy := c }
  modCellar s fun u => { u with nv := kvSet u.nv (2 * b + c) { k with weak := true } }

/-- A margin read of the next copy (R503). A weak copy that a queued store will program needs no refresh (Table 15.6). -/
def scrubStep (s : State) (r : ScrubRead) (v : Supply) : State :=
  let i := get1 s CELLAR.SCRUB_NEXT 0
  let b := i / 2
  let c := i % 2
  let s1 := set1 s CELLAR.SCRUB_NEXT 0 ((i + 1) % 512)
  if copyState s b c = 3 then s1
  else
    let s2 := set1 s1 CELLAR.SCRUB_FRN 0 s.frn
    match r with
    | .tightOk => s2
    | .tightFail =>
      if s.cellar.queue.any fun q => q.fix.isNone && q.block == b && targetCopy s b == c then s2
      else
      let s3 := cellarEntry (evt s2 .cellar 0 4) 0x0A4 b c 0 v
      rootFix (ltAdd (addCnt s3 CELLAR.REFRESH_CNT 0 0 1) 6) b c 6
    | .normalFail =>
      let s3 := weaken s2 b c
      if copyState s b (1 - c) = 0 then
        rootFix (cellarEntry (ltAdd (addCnt (evt s3 .cellar 0 0) CELLAR.TORN_CNT 0 0 1) 4) 0x0A0 b c (copyState s3 b c) v) b c 5
      else rootStore s3 b 2 8

/-! ### Gate calls (Table 14.1) -/

/-- CELLAR_STORE: blocks 144 to 175; Leaf keeps running. -/
def gateCellarStore (s : State) (first count : Nat) : State :=
  let bs := (List.range count).map fun i => first + i
  if !leafRuns s then s
  else if bs.any fun b => decide (32 ≤ b) && decide (b < 144) then gateRefuse s 0x0A 6
  else if count = 0 ∨ !bs.all fun b => decide (144 ≤ b) && decide (b < 176) then gateRefuse s 0x0A 3
  else if !engineTakes s then gateRefuse s 0x0A 8
  else engineKick (bs.foldl (fun t b => addJob t ⟨b, 4, [4], none⟩) (gateRes s 0)) (supplyNow s)

/-- STORE_REQUEST: blocks 32 to 175; Root parks Leaf before the first store begins (R450). -/
def gateStoreRequest (s : State) (first count : Nat) : State :=
  let bs := (List.range count).map fun i => first + i
  if !leafRuns s then s
  else if count = 0 ∨ !bs.all fun b => decide (32 ≤ b) && decide (b < 176) then gateRefuse s 0x0B 3
  else if !engineTakes s then gateRefuse s 0x0B 8
  else engineKick (bs.foldl (fun t b => addJob t ⟨b, 4, [9], none⟩) (gateRes s 0)) (supplyNow s)

/-- RING_PUT: keys 32 to 63, values of at most 12 bytes. -/
def gateRingPut (s : State) (k : Nat) (v : List Nat) : State :=
  if !leafRuns s then s
  else if k < 32 ∨ 64 ≤ k ∨ 12 < v.length then gateRefuse s 0x0C 3
  else ringPut (gateRes s 0) k v

/-! ### Meanings -/

/-- STORE_CMD (R484, R485) as it acts. -/
def execStoreCmd (p first countM1 : Nat) (s : State) : Host.Outcome State Fault Refusal :=
  if p < 4 ∧ first < 256 ∧ countM1 < 256 then .next (storeCmd s p first countM1) else .refused .illFormed

/-- CELLAR_STORE (R448, Table 14.1). -/
def execCellarStore (first count : Nat) (s : State) : Host.Outcome State Fault Refusal :=
  .next (gateCellarStore s first count)

/-- STORE_REQUEST (R450, Table 14.1). -/
def execStoreRequest (first count : Nat) (s : State) : Host.Outcome State Fault Refusal :=
  .next (gateStoreRequest s first count)

/-- RING_PUT (R498, Table 14.1). -/
def execRingPut (key : Nat) (data : List Nat) (s : State) : Host.Outcome State Fault Refusal :=
  if areBytes data then .next (gateRingPut s key data) else .refused .illFormed

/-- RING_STORE (R498): a dirty ring is written at the end of its interval. -/
def execRingStore (v : Supply) (s : State) : Host.Outcome State Fault Refusal :=
  if s.cellar.ringDirty && ringDue s && s.cellar.held18 && engineTakes s then
    (let s1 := ringWrite s
     .next (engineKick (addJob s1 ⟨ringBlock s1, 3, [8], none⟩) v))
  else .next s

/-- HOLDUP_FIRST_18V (R489, R494). -/
def execHoldupFirst18v (v : Supply) (s : State) : Host.Outcome State Fault Refusal :=
  if 18000 ≤ v.holdupMv then .next (cellarReady s v) else .next s

/-- STORE_DEFER_RETRY (R488): the check of a deferred store is made again. -/
def execStoreDeferRetry (v : Supply) (s : State) : Host.Outcome State Fault Refusal :=
  if s.cellar.defer.isSome then .next (engineStart s v) else .next s

/-- SCRUB (R503): the scrubber waits while a store runs. -/
def execScrub (r : ScrubRead) (s : State) : Host.Outcome State Fault Refusal :=
  if s.cellar.run.isSome then .next s else .next (scrubStep s r (supplyNow s))

end Sys2Proof.Machine
end

