-- ==== Sys2Proof/Machine/Crypto.lean ====
section
/-! DEFINITION. SHA-512 and the verification of pure Ed25519 signatures (R455, R462), as RFC 8032 and FIPS 180-4 give
them, over lists of bytes. -/

namespace Sys2Proof.Machine

/-! ### SHA-512 -/

/-- 2^64. -/
def w64 : Nat := 0x10000000000000000

/-- Rotate a 64-bit word right. -/
def rotr (x n : Nat) : Nat := (x / 2 ^ n) ||| (x * 2 ^ (64 - n) % w64)

/-- The round constants: the first 64 bits of the fractions of the cube roots of the first 80 primes. -/
def shaK : List Nat :=
  [0x428A2F98D728AE22, 0x7137449123EF65CD, 0xB5C0FBCFEC4D3B2F, 0xE9B5DBA58189DBBC,
   0x3956C25BF348B538, 0x59F111F1B605D019, 0x923F82A4AF194F9B, 0xAB1C5ED5DA6D8118,
   0xD807AA98A3030242, 0x12835B0145706FBE, 0x243185BE4EE4B28C, 0x550C7DC3D5FFB4E2,
   0x72BE5D74F27B896F, 0x80DEB1FE3B1696B1, 0x9BDC06A725C71235, 0xC19BF174CF692694,
   0xE49B69C19EF14AD2, 0xEFBE4786384F25E3, 0x0FC19DC68B8CD5B5, 0x240CA1CC77AC9C65] ++
  [0x2DE92C6F592B0275, 0x4A7484AA6EA6E483, 0x5CB0A9DCBD41FBD4, 0x76F988DA831153B5,
   0x983E5152EE66DFAB, 0xA831C66D2DB43210, 0xB00327C898FB213F, 0xBF597FC7BEEF0EE4,
   0xC6E00BF33DA88FC2, 0xD5A79147930AA725, 0x06CA6351E003826F, 0x142929670A0E6E70,
   0x27B70A8546D22FFC, 0x2E1B21385C26C926, 0x4D2C6DFC5AC42AED, 0x53380D139D95B3DF,
   0x650A73548BAF63DE, 0x766A0ABB3C77B2A8, 0x81C2C92E47EDAEE6, 0x92722C851482353B] ++
  [0xA2BFE8A14CF10364, 0xA81A664BBC423001, 0xC24B8B70D0F89791, 0xC76C51A30654BE30,
   0xD192E819D6EF5218, 0xD69906245565A910, 0xF40E35855771202A, 0x106AA07032BBD1B8,
   0x19A4C116B8D2D0C8, 0x1E376C085141AB53, 0x2748774CDF8EEB99, 0x34B0BCB5E19B48A8,
   0x391C0CB3C5C95A63, 0x4ED8AA4AE3418ACB, 0x5B9CCA4F7763E373, 0x682E6FF3D6B2B8A3,
   0x748F82EE5DEFB2FC, 0x78A5636F43172F60, 0x84C87814A1F0AB72, 0x8CC702081A6439EC] ++
  [0x90BEFFFA23631E28, 0xA4506CEBDE82BDE9, 0xBEF9A3F7B2C67915, 0xC67178F2E372532B,
   0xCA273ECEEA26619C, 0xD186B8C721C0C207, 0xEADA7DD6CDE0EB1E, 0xF57D4F7FEE6ED178,
   0x06F067AA72176FBA, 0x0A637DC5A2C898A6, 0x113F9804BEF90DAE, 0x1B710B35131C471B,
   0x28DB77F523047D84, 0x32CAAB7B40C72493, 0x3C9EBE0A15C9BEBC, 0x431D67C49C100D4C,
   0x4CC5D4BECB3E42B6, 0x597F299CFC657E2A, 0x5FCB6FAB3AD6FAEC, 0x6C44198C4A475817]

/-- The initial hash value: the fractions of the square roots of the first 8 primes. -/
def shaInit : List Nat :=
  [0x6A09E667F3BCC908, 0xBB67AE8584CAA73B, 0x3C6EF372FE94F82B, 0xA54FF53A5F1D36F1,
   0x510E527FADE682D1, 0x9B05688C2B3E6C1F, 0x1F83D9ABFB41BD6B, 0x5BE0CD19137E2179]

/-- The bytes of a number, most significant first. -/
def beList (v : Nat) : Nat → List Nat
  | 0 => []
  | n + 1 => (v / 256 ^ n % 256) :: beList v n

/-- A list of bytes as a number, most significant first. -/
def beNat (l : List Nat) : Nat := l.foldl (fun a b => 256 * a + b) 0

/-- A list of bytes as a number, least significant first. -/
def leNat (l : List Nat) : Nat := l.foldr (fun b a => b + 256 * a) 0

/-- The message padded to a multiple of 128 bytes. -/
def shaPad (m : List Nat) : List Nat :=
  m ++ 0x80 :: List.replicate ((239 - m.length % 128) % 128) 0 ++ beList (8 * m.length) 16

/-- Extend the last 16 words of the schedule, kept newest first, by the next word. -/
def shaNext (w : List Nat) : Nat :=
  let a := w.getD 14 0
  let b := w.getD 1 0
  let s0 := rotr a 1 ^^^ rotr a 8 ^^^ (a / 2 ^ 7)
  let s1 := rotr b 19 ^^^ rotr b 61 ^^^ (b / 2 ^ 6)
  (w.getD 15 0 + s0 + w.getD 6 0 + s1) % w64

/-- One round on the eight working variables. -/
def shaRound (v : List Nat) (k w : Nat) : List Nat :=
  match v with
  | [a, b, c, d, e, f, g, h] =>
    let s1 := rotr e 14 ^^^ rotr e 18 ^^^ rotr e 41
    let ch := (e &&& f) ^^^ ((w64 - 1 - e) &&& g)
    let t1 := h + s1 + ch + k + w
    let s0 := rotr a 28 ^^^ rotr a 34 ^^^ rotr a 39
    let mj := (a &&& b) ^^^ (a &&& c) ^^^ (b &&& c)
    [(t1 + s0 + mj) % w64, a, b, c, (d + t1) % w64, e, f, g]
  | _ => v

/-- The rounds of a block: the words given, then the extended schedule. -/
def shaRounds : List Nat → List Nat → List Nat → List Nat → List Nat
  | [], _, _, v => v
  | k :: ks, w :: ws, hist, v => shaRounds ks ws ((w :: hist).take 16) (shaRound v k w)
  | k :: ks, [], hist, v =>
    let w := shaNext hist
    shaRounds ks [] ((w :: hist).take 16) (shaRound v k w)

/-- The 16 words of a block. -/
def shaWords (b : List Nat) : List Nat := (List.range 16).map fun i => beNat ((b.drop (8 * i)).take 8)

/-- The compression of `n` blocks. -/
def shaBlocks : Nat → List Nat → List Nat → List Nat
  | 0, _, h => h
  | n + 1, m, h =>
    let v := shaRounds shaK (shaWords (m.take 128)) [] h
    shaBlocks n (m.drop 128) (List.zipWith (fun a b => (a + b) % w64) h v)

/-- SHA-512 of a list of bytes: 64 bytes. -/
def sha512 (m : List Nat) : List Nat :=
  let p := shaPad m
  (shaBlocks (p.length / 128) p shaInit).flatMap fun x => beList x 8

/-! ### Ed25519 (RFC 8032) -/

/-- The field's prime. -/
def edP : Nat := 2 ^ 255 - 19

/-- The order of the base point. -/
def edL : Nat := 2 ^ 252 + 27742317777372353535851937790883648493

/-- `b ^ e` modulo p, over the low `n` bits of `e`, most significant first. -/
def powP (b e : Nat) : Nat → Nat → Nat
  | 0, r => r
  | n + 1, r =>
    let q := r * r % edP
    powP b e n (if bitOf e n then q * b % edP else q)

def powMod (b e : Nat) : Nat := powP b e 256 1

/-- The inverse in the field. -/
def invP (x : Nat) : Nat := powMod x (edP - 2)

/-- The curve's constant d = -121665/121666. -/
def edD : Nat := (edP - 121665) * invP 121666 % edP

/-- A square root of -1. -/
def edI : Nat := powMod 2 ((edP - 1) / 4)

/-- A point in extended coordinates. -/
structure EdPoint where
  x : Nat
  y : Nat
  z : Nat
  t : Nat
  deriving DecidableEq, Repr

def edZero : EdPoint := ⟨0, 1, 1, 0⟩

/-- The sum of two points; doubling too, since the formula is complete. -/
def edAdd (p q : EdPoint) : EdPoint :=
  let a := (p.y + edP - p.x) * (q.y + edP - q.x) % edP
  let b := (p.y + p.x) * (q.y + q.x) % edP
  let c := p.t * 2 * edD * q.t % edP
  let d := p.z * 2 * q.z % edP
  let e := b + edP - a
  let f := d + edP - c
  let g := d + c
  let h := b + a
  ⟨e * f % edP, g * h % edP, f * g % edP, e * h % edP⟩

/-- `k` times a point, over the low `n` bits of `k`, most significant first. -/
def edMulBits (k : Nat) (p : EdPoint) : Nat → EdPoint → EdPoint
  | 0, r => r
  | n + 1, r =>
    let q := edAdd r r
    edMulBits k p n (if bitOf k n then edAdd q p else q)

def edMul (k : Nat) (p : EdPoint) : EdPoint := edMulBits k p 256 edZero

/-- Whether two points are equal. -/
def edEq (p q : EdPoint) : Bool :=
  p.x * q.z % edP == q.x * p.z % edP && p.y * q.z % edP == q.y * p.z % edP

/-- The x coordinate of a y and a sign, or none when there is none. -/
def edRecover (y sign : Nat) : Option Nat :=
  let u := (y * y + edP - 1) % edP
  let v := (edD * (y * y) + 1) % edP
  let v3 := v * v % edP * v % edP
  let x := u * v3 % edP * powMod (u * v3 % edP * (v3 * v % edP) % edP) ((edP - 5) / 8) % edP
  let vx := v * (x * x % edP) % edP
  let root := if vx = u then some x else if vx = (edP - u) % edP then some (x * edI % edP) else none
  match root with
  | none => none
  | some r => if r = 0 ∧ sign = 1 then none else some (if r % 2 = sign then r else (edP - r) % edP)

/-- Decode a point from 32 bytes. -/
def edDecode (b : List Nat) : Option EdPoint :=
  let n := leNat b
  let y := n % 2 ^ 255
  if b.length ≠ 32 ∨ edP ≤ y then none
  else (edRecover y (n / 2 ^ 255)).map fun x => ⟨x, y, 1, x * y % edP⟩

/-- The base point: y = 4/5, x even. -/
def edBase : EdPoint :=
  let y := 4 * invP 5 % edP
  let x := (edRecover y 0).getD 0
  ⟨x, y, 1, x * y % edP⟩

/-- Verify a signature of 64 bytes under a public key of 32 bytes (RFC 8032, 5.1.7). -/
def edVerify (pub sig msg : List Nat) : Bool :=
  let r := sig.take 32
  let sv := leNat (sig.drop 32)
  match edDecode pub, edDecode r with
  | some a, some p =>
    let k := leNat (sha512 (r ++ pub ++ msg)) % edL
    decide (sig.length = 64) && decide (sv < edL) &&
      edEq (edMul 8 (edMul sv edBase)) (edMul 8 (edAdd p (edMul k a)))
  | _, _ => false

/-- The fingerprint of a key (R455): the first 16 bytes of its SHA-512 digest. -/
def fingerprint (pub : List Nat) : List Nat := (sha512 pub).take 16

end Sys2Proof.Machine
end

