-- ==== Sys2Proof/Machine/Operands.lean ====
section
/-! DEFINITION. Operand forms: what an address names (Tables 3.1, 3.2), the fields that lie in a word, and the
operands that exist. -/

namespace Sys2Proof.Machine

/-- What a word address names (Table 3.1). -/
inductive Region where
  | page (p : Page) (n off : Nat)
  | chan (n off : Nat)
  | ring (p off : Nat)
  | bbox (off : Nat)
  | accDebug (w : Nat) (high : Bool)
  | cellar (block off : Nat)
  | portStatus
  | unmapped
  deriving DecidableEq, Repr

/-- The length of a page: 0x400 (Table 3.12), and the descriptor area after the ROWS page (Table 3.2). -/
def pageLen : Page → Nat
  | .rows => 0xC00
  | _ => 0x400

/-- The page that holds an address of the register region. -/
def pageAt (a : Nat) : Option (Page × Nat) :=
  allPageInsts.find? fun x => decide (pageBase x.1 x.2 ≤ a) && decide (a < pageBase x.1 x.2 + pageLen x.1)

/-- Decode a word address (R90, R91). -/
def regionOf (a : Nat) : Region :=
  if a < 0x100000 then
    match pageAt a with
    | some (p, n) => .page p n (a - pageBase p n)
    | none => .unmapped
  else if 0x400000 ≤ a ∧ a < 0x400800 then .chan (bitsOf a 7 4) (bitsOf a 0 7)
  else if 0x500000 ≤ a ∧ a < 0x510000 then .ring (bitsOf a 14 2) (bitsOf a 0 14)
  else if 0x600000 ≤ a ∧ a < 0x610000 then .bbox (a - 0x600000)
  else if 0x700000 ≤ a ∧ a < 0x702000 then .accDebug (bitsOf a 3 10) (bitOf a 2)
  else if 0x800000 ≤ a ∧ a < 0x900000 then .cellar (bitsOf a 12 8) (bitsOf a 0 12)
  else if a = 0xFFFFFC then .portStatus
  else .unmapped

/-- The indices at which a field lies in the word at an offset of its page. -/
def fldPos (f : Fld) (off : Nat) : Option (Nat × Nat) :=
  if off < f.off then none
  else
    let d := off - f.off
    let k := if f.n1 ≤ 1 then 0 else d / f.s1
    let r := d - k * f.s1
    let j := if f.n2 ≤ 1 then 0 else r / f.s2
    if k < f.n1 ∧ j < f.n2 ∧ r = j * f.s2 then some (k, j) else none

/-- A field of a word: the field and its indices. -/
structure FldAt where
  fld : Fld
  n   : Nat
  k   : Nat
  j   : Nat
  deriving DecidableEq, Repr

/-- The cell of a field of a word. -/
def FldAt.key (x : FldAt) : Nat := fldKey x.fld x.n x.k x.j

/-- The bits of the word that the field takes. -/
def FldAt.bits (x : FldAt) : Nat := (2 ^ x.fld.width - 1) * 2 ^ x.fld.lo

/-- The fields that lie in the word at an offset of a page. -/
def fieldsAt (p : Page) (n off : Nat) : List FldAt :=
  (pageAll p).filterMap fun f => (fldPos f off).map fun kj => ⟨f, n, kj.1, kj.2⟩

/-- The fields that lie in a word of the register region or of the Channel Table's Policy halves. -/
def fieldsOf (a : Nat) : List FldAt :=
  match regionOf a with
  | .page p n off => fieldsAt p n off
  | .chan n off => if n < 12 ∧ off < 0x40 then fieldsAt .chan n off else []
  | _ => []

/-! ### Operands that exist -/

/-- A domain, partition, APLL or time counter number. -/
def isDom (n : Nat) : Bool := decide (n < 4)
/-- An output number. -/
def isOut (n : Nat) : Bool := decide (n < 10)
/-- A channel number (Table 4.1). -/
def isChan (n : Nat) : Bool := decide (n < 12)
/-- A page with its instance number (Table 3.2). -/
def isPage (p : Page) (n : Nat) : Bool := p != .chan && decide (n < pageCount p)
/-- A 32-bit word. -/
def isWord (v : Nat) : Bool := decide (v < 2 ^ 32)
/-- A word address of the 24-bit space (R90). -/
def isAddr (a : Nat) : Bool := decide (a < 2 ^ 24) && a % 4 == 0
/-- A timebase cycle of a frame (Table 2.4). -/
def isCyc (c : Nat) : Bool := decide (c < 1250)

end Sys2Proof.Machine
end

