-- ==== Sys2Proof/Machine/Profile.lean ====
section
/-! DEFINITION. The profile (R452 to R457, R599, R600): its header and records, the policy it gives, the checks in
their order and the refusal codes. -/

namespace Sys2Proof.Machine

/-! ### Refusal codes (Table 14.5) -/

def refMAGIC : Nat := 1
def refLENGTH : Nat := 2
def refSIGNATURE : Nat := 3
def refKEY : Nat := 4
def refROLLBACK : Nat := 5
def refSERIAL : Nat := 6
def refRECORD : Nat := 7
def refCHECK : Nat := 8
def refSTORE : Nat := 9
def refPOWER : Nat := 10
def refABORTED : Nat := 11
def refEPOCH : Nat := 12
def refROOTVER : Nat := 13

/-! ### What a profile gives -/

/-- A profile as far as it is read: values by cell with the offset of the record that gave each, the LEAF_DATA
sub-records, the key that KEY_ROTATE gives, the channels and partitions seen, and the offsets of records with a value
that R599 refuses. -/
structure Draft where
  vals : List (Nat × Nat) := []
  src  : List (Nat × Nat) := []
  leaf : List (Nat × List Nat) := []
  rot  : Option (List Nat) := none
  chans : List Nat := []
  parts : List Nat := []
  bad  : List Nat := []
  deriving DecidableEq, Repr

/-- The cell under which a draft keeps a partition's open flag. -/
def openKey (p : Nat) : Nat := fldKey PART.STATUS_OPEN p 0 0

/-- A record at an offset gives a cell a value. -/
def Draft.put (d : Draft) (off key v : Nat) : Draft :=
  { d with vals := kvSet d.vals key v, src := kvSet d.src key off }

/-- A record at an offset breaks a rule of R599. -/
def Draft.badIf (d : Draft) (c : Bool) (off : Nat) : Draft := if c then { d with bad := d.bad ++ [off] } else d

/-- The policy of a draft: LK fields and start values that it leaves unset take the Reset column (R452). -/
def Draft.policy (d : Draft) (gen : Nat) : Policy :=
  { gen := gen
    opens := (List.range 4).map fun p => (kvGet d.vals (openKey p)).getD (b2n (p == 0)) == 1
    vals := d.vals.filter fun x => !((List.range 4).map openKey).contains x.1
    leaf := d.leaf }

/-- The ROM profile (R350, R552). -/
def romPolicy : Policy :=
  { gen := 0
    opens := [true, false, false, false]
    vals := kvSet (kvSet (kvSet [] (fldKey OUT.CTRL 0 0 0) 1) (fldKey OUT.FORMAT_FMT 0 0 0) 5)
      (fldKey OUT.FORMAT_P_SEL 0 0 0) 2
    leaf := [] }

/-! ### Records (Tables 14.3, 14.4, R600) -/

/-- The LK fields that report assignments, which only PARTITION and CHANNEL records set (R600). -/
def assigned (f : Fld) : Bool :=
  [PART.PORTS_OUTS, PART.PORTS_IRQ, PART.PORTS_SPI, PART.PORTS_I2C, PART.CHANS_OWN, PART.CHANS_GRANT, FRAME.SLOT_QUOTA,
   ROWS.ALLOC_DESC_FIRST, ROWS.ALLOC_DESC_COUNT, ROWS.ALLOC_WORD_FIRST, ROWS.ALLOC_WORD_COUNT, OUT.SRC,
   CHAN.POL_ID_OWNER, CHAN.CAND, CHAN.GRANT].contains f

/-- Whether an RW field takes a start value (R322, R599). -/
def takesStart (f : Fld) : Bool :=
  ((f.acc == .rw || f.acc == .cnt) && (f.page == .apll || f.page == .out)) || f == DPLL.BW || f == DPLL.DAMP

/-- Whether a FIELDS mask may cover a field (Table 14.3, R383, R600). -/
def maySet (f : Fld) : Bool :=
  (f.acc == .lk && !assigned f) || takesStart f ||
    [TIME.UTC_OFS, TIME.UTC_VALID, TIME.UTC_LEAP61, TIME.UTC_LEAP59].contains f

/-- The bits of a word that fields take. -/
def bitsOfAll (l : List FldAt) : Nat := l.foldl (fun m x => m ||| x.bits) 0

/-- One entry of a FIELDS record: three bytes of address, 0x00, mask, value (Table 14.3). None: not well formed. The
DEBUG page's LK fields follow the DEBUG record alone (R472). -/
def fieldsEntry (d : Draft) (off : Nat) (e : List Nat) : Option Draft :=
  let a := leNat (e.take 3)
  let mask := leNat ((e.drop 4).take 4)
  let v := leNat ((e.drop 8).take 4)
  let fs := (fieldsOf a).filter fun x => maySet x.fld
  if a % 4 ≠ 0 ∨ e.getD 3 0 ≠ 0 ∨ mask &&& bitsOfAll fs ≠ mask then none
  else some (fs.foldl (fun (t : Draft) x =>
    let m := bitsOf mask x.fld.lo x.fld.width
    if m = 0 ∨ x.fld.page = .dbg then t
    else
      let old := (kvGet t.vals x.key).getD (fldReset x.fld x.n x.k)
      t.put off x.key (((old ||| m) ^^^ m) ||| (bitsOf v x.fld.lo x.fld.width &&& m))) d)

/-- A FIELDS record: entries of 12 bytes. -/
def fieldsRec : Nat → Draft → Nat → List Nat → Option Draft
  | _, d, _, [] => some d
  | 0, _, _, _ => none
  | n + 1, d, off, l =>
    if l.length < 12 then none
    else match fieldsEntry d off (l.take 12) with
      | none => none
      | some t => fieldsRec n t off (l.drop 12)

/-- A CHANNEL record: channel, three bytes of 0x00, bytes 0x00 to 0x2F of the Policy half (R600). -/
def channelRec (d : Draft) (off : Nat) (l : List Nat) : Option Draft :=
  let c := l.getD 0 0
  let h := l.drop 4
  let words := (List.range 12).map fun i => leNat ((h.drop (4 * i)).take 4)
  let fs := fun i => fieldsAt .chan c (4 * i)
  let kind := if c < 8 then 0 else if c < 10 then 1 else 2
  let ok := l.length == 52 && decide (c < 12) && !d.chans.contains c && (l.drop 1).take 3 == [0, 0, 0] &&
    ((List.range 12).all fun i => words.getD i 0 &&& bitsOfAll (fs i) == words.getD i 0) &&
    words.getD 0 0 % 256 == c + 16 * kind
  if !ok then none
  else some ((List.range 12).foldl (fun (t : Draft) i => (fs i).foldl (fun (t : Draft) x =>
    if x.fld.acc == .lk then t.put off x.key (bitsOf (words.getD i 0) x.fld.lo x.fld.width) else t) t)
    { d with chans := c :: d.chans })

/-- A PARTITION record (Table 14.3). An output that an earlier record claims breaks R600. -/
def partitionRec (d : Draft) (off : Nat) (l : List Nat) : Option Draft :=
  let p := l.getD 0 0
  let w := fun i => leNat ((l.drop i).take 2)
  if l.length ≠ 16 ∨ 4 ≤ p ∨ d.parts.contains p then none
  else
    let outs := w 14
    let taken := d.parts.any fun q => (kvGet d.vals (fldKey PART.PORTS_OUTS q 0 0)).getD 0 &&& outs != 0
    let bad := decide (1 < l.getD 1 0) || decide (3 < l.getD 2 0) || decide (1 < l.getD 3 0) || decide (4096 ≤ w 4) ||
      decide (256 ≤ w 6) || decide (256 ≤ w 8) || decide (1024 ≤ w 10) || decide (2048 ≤ w 12) || decide (1024 ≤ outs) || taken
    let puts : List (Fld × Nat × Nat × Nat) :=
      [(PART.STATUS_OPEN, p, 0, l.getD 1 0), (PART.PORTS_SPI, p, 0, bitsOf (l.getD 2 0) 0 1),
       (PART.PORTS_I2C, p, 0, bitsOf (l.getD 2 0) 1 1), (PART.PORTS_IRQ, p, 0, l.getD 3 0), (FRAME.SLOT_QUOTA, 0, p, w 4),
       (ROWS.ALLOC_DESC_FIRST, 0, p, w 6), (ROWS.ALLOC_DESC_COUNT, 0, p, w 8), (ROWS.ALLOC_WORD_FIRST, 0, p, w 10),
       (ROWS.ALLOC_WORD_COUNT, 0, p, w 12), (PART.PORTS_OUTS, p, 0, outs)]
    some ((puts.foldl (fun (t : Draft) x => t.put off (fldKey x.1 x.2.1 x.2.2.1 0) x.2.2.2)
      { d with parts := p :: d.parts }).badIf bad off)

/-- The sub-records of a LEAF_DATA record (Table 14.4). -/
def leafRec : Nat → Draft → Nat → List Nat → Option Draft
  | _, d, _, [] => some d
  | 0, _, _, _ => none
  | n + 1, d, off, l =>
    let tag := l.getD 0 0
    let len := l.getD 1 0
    let x := (l.drop 2).take len
    if l.length < 2 + len ∨ !((tag == 1 && len == 24) || (tag == 2 && len == 20)) then none
    else
      let bad := decide (4 ≤ x.getD 0 0) || decide (2 ≤ x.getD 1 0) ||
        (if tag = 1 then decide (128 < x.getD 22 0) || decide (32 < x.getD 23 0)
         else decide (4 ≤ x.getD 2 0) || !(x.getD 3 0 == 4 || x.getD 3 0 == 6))
      leafRec n (({ d with leaf := d.leaf ++ [(tag, x)] } : Draft).badIf bad off) off (l.drop (2 + len))

/-- One record (Table 14.3). -/
def oneRec (d : Draft) (off type : Nat) (x : List Nat) : Option Draft :=
  if type = 1 then fieldsRec x.length d off x
  else if type = 2 then channelRec d off x
  else if type = 3 then partitionRec d off x
  else if type = 4 then leafRec x.length d off x
  else if type = 5 then (if x.length = 32 then some { d with rot := some x } else none)
  else if type = 6 then
    if x.length ≠ 5 then none
    else
      let scope := x.getD 0 0
      let dur := leNat (x.drop 1)
      let bad := decide (8 ≤ scope) || (bitOf scope 2 && !bitOf scope 1) || dur == 0
      some (((((d.put off (fldKey DBG.SCOPE_ACC_WINDOW 0 0 0) (bitsOf scope 0 1)).put off
        (fldKey DBG.SCOPE_LEAF_PORT 0 0 0) (bitsOf scope 1 1)).put off (fldKey DBG.SCOPE_LEAF_HALT 0 0 0)
        (bitsOf scope 2 1)).put off (fldKey DBG.DURATION 0 0 0) dur).badIf bad off)
  else none

/-- The records from an offset on (R454): the draft, and the offset of the first that is not well formed. -/
def walkRecs : Nat → Draft → Nat → List Nat → Draft × Option Nat
  | _, d, _, [] => (d, none)
  | 0, d, off, _ => (d, some off)
  | n + 1, d, off, l =>
    let type := leNat (l.take 2)
    let len := leNat ((l.drop 2).take 2)
    let span := 4 + (len + 3) / 4 * 4
    if l.length < span ∨ ((l.drop (4 + len)).take (span - 4 - len)).any (fun b => b != 0) then (d, some off)
    else match oneRec d off type ((l.drop 4).take len) with
      | none => (d, some off)
      | some t => walkRecs n t (off + span) (l.drop span)

/-! ### Rules that refuse a profile at commit (R456 check 7, R599) -/

/-- A rule: whether the policy keeps it, and the cells that it rests on. -/
abbrev Rule := Bool × List Nat

/-- A range rule of one field. -/
def ranged (q : Policy) (f : Fld) (n k lo hi : Nat) : Rule :=
  (decide (lo ≤ polVal q f n k 0) && decide (polVal q f n k 0 ≤ hi), [fldKey f n k 0])

/-- Nominal frequency of a channel in 2^-16 Hz. -/
def polNom (q : Policy) (c : Nat) : Nat := polVal q CHAN.NOM_FREQ_LO c 0 0 + 2 ^ 32 * polVal q CHAN.NOM_FREQ_HI c 0 0

/-- A channel's Policy half (Table 4.2, R133, R134, R251, R262, R386). A reserved PAD.TERM is refused in every entry, also where
R134 ignores the PAD fields (DESIGN CHOICE, notes/assumptions 69). -/
def chanRules (q : Policy) (c : Nat) : List Rule :=
  let v := fun f => polVal q f c 0 0
  let key := fun f => fldKey f c 0 0
  let nom := polNom q c
  let noms := [key CHAN.NOM_FREQ_LO, key CHAN.NOM_FREQ_HI]
  let mode := polVal q ETH.MODE_MODE (c - 8) 0 0
  let act := if c < 8 ∧ 0 < nom ∧ nom < 8000 * 65536 then (12000 * 65536 + nom - 1) / nom else 1
  [ranged q CHAN.PAD_TERM c 0 0 2, ranged q CHAN.QL_SRC c 0 0 4, ranged q CHAN.FREQ_RANGE c 0 1 65535,
   ranged q CHAN.PHASE_STEP c 0 1 8190, ranged q CHAN.WANDER c 0 1 65535,
   (v CHAN.QL_SRC != 4 || decide (10 ≤ c), [key CHAN.QL_SRC]),
   (decide (act ≤ v CHAN.ACT_TIMEOUT), key CHAN.ACT_TIMEOUT :: noms)] ++
  (if c < 8 then
    [(v CHAN.POL_ID_ENABLED == 0 || (decide (65536 ≤ nom) && decide (nom ≤ 800000000 * 65536)),
      key CHAN.POL_ID_ENABLED :: noms)]
   else if c < 10 then
    [(if mode = 0 then v CHAN.POL_ID_ENABLED == 0
      else nom == (if mode = 3 then 10560000000000 else 125000000 * 65536),
      fldKey ETH.MODE_MODE (c - 8) 0 0 :: key CHAN.POL_ID_ENABLED :: noms)]
   else [])

/-- Whether two ranges share no number. -/
def apart (a n b m : Nat) : Bool := decide (a + n ≤ b) || decide (b + m ≤ a) || n == 0 || m == 0

/-- Row ranges and slot quotas (R22, R189). -/
def rowRules (q : Policy) : List Rule :=
  let df := fun p => polVal q ROWS.ALLOC_DESC_FIRST 0 p 0
  let dc := fun p => polVal q ROWS.ALLOC_DESC_COUNT 0 p 0
  let wf := fun p => polVal q ROWS.ALLOC_WORD_FIRST 0 p 0
  let wc := fun p => polVal q ROWS.ALLOC_WORD_COUNT 0 p 0
  let key := fun p => fldKey ROWS.ALLOC_DESC_FIRST 0 p 0
  (decide (((List.range 4).map fun p => polVal q FRAME.SLOT_QUOTA 0 p 0).foldl (· + ·) 0 ≤ 3584),
    (List.range 4).map fun p => fldKey FRAME.SLOT_QUOTA 0 p 0) ::
  ((List.range 4).map fun p =>
    (apart (df p) (dc p) 0 32 && apart (wf p) (wc p) 0 256 && decide (df p + dc p ≤ 256) && decide (wf p + wc p ≤ 1024),
     [key p])) ++
  (List.range 4).flatMap fun p => (List.range p).map fun r =>
    (apart (df p) (dc p) (df r) (dc r) && apart (wf p) (wc p) (wf r) (wc r), [key p, key r])

/-- The owner that a policy gives an output (R600). -/
def polOut (q : Policy) (n : Nat) : Nat :=
  ((List.range 4).find? fun p => p ≠ 0 && bitOf (polVal q PART.PORTS_OUTS p 0 0) n).getD 0

/-- A domain's page (Table 9.6, R285). -/
def domRules (q : Policy) (d : Nat) : List Rule :=
  let cand := (List.range 10).filter fun c => bitOf (polVal q CHAN.CAND c 0 0) d
  [ranged q DPLL.MODE d 0 0 2, ranged q DPLL.SLOPE d 0 1 65535, ranged q DPLL.PULL d 0 1 500000,
   ranged q DPLL.LOCK_LOCK_S d 0 1 255, ranged q DPLL.HOLD_CFG_SEG_S d 0 1 1023, ranged q DPLL.HOLD_CFG_HIST_LEN d 0 8 255,
   ranged q DPLL.HOLD_CFG_EXCL_S d 0 0 60, ranged q DPLL.BW d 0 1 250000, ranged q DPLL.DAMP d 0 64 2047,
   (polVal q DPLL.MODE d 0 0 != 2 || cand.isEmpty, fldKey DPLL.MODE d 0 0 :: cand.map fun c => fldKey CHAN.CAND c 0 0)]

/-- f_NOM that start values give in Hz. -/
def polNomHz (q : Policy) (d : Nat) : Rat :=
  vcoHz (polVal q APLL.CFG_REFSEL d 0 0) (polVal q APLL.RATIO_LO d 0 0 + 2 ^ 32 * polVal q APLL.RATIO_HI d 0 0)

/-- An APLL page's start values (R322). -/
def apllRules (q : Policy) (d : Nat) : List Rule :=
  [(polVal q APLL.CFG_REFSEL d 0 0 != 3, [fldKey APLL.CFG_REFSEL d 0 0]),
   (polVal q APLL.CFG_REFSEL d 0 0 == 3 || vcoOk (polNomHz q d),
    [fldKey APLL.CFG_REFSEL d 0 0, fldKey APLL.RATIO_LO d 0 0, fldKey APLL.RATIO_HI d 0 0]),
   ranged q APLL.LOL_CNT d 0 0 0]

/-- Whether a frequency keeps to a format's limit at a bank supply. -/
def hzOk (fmt bankV : Nat) (f : Rat) : Bool := match fmtLimit fmt bankV with
  | none => true
  | some m => decide (f ≤ m)

/-- An output (R322, R327, R335 to R348, R345, Tables 10.2, 10.3). -/
def outRules (s : State) (q : Policy) (n : Nat) : List Rule :=
  let v := fun f => polVal q f n 0 0
  let key := fun f => fldKey f n 0 0
  let p := polOut q n
  let hz := polNomHz q p / (max (v OUT.DIV) 1 : Nat)
  let bank := n / 5 * 5
  let ofs := toSigned 48 (v OUT.PALIGN_OFS_LO + 2 ^ 32 * v OUT.PALIGN_OFS_HI)
  let chan := v OUT.PALIGN_CHAN
  let named := (kvGet q.vals (key OUT.PALIGN_CHAN)).isSome || v OUT.PALIGN_EN == 1
  [(q.opens.getD p false, [fldKey PART.PORTS_OUTS p 0 0, openKey p]),
   ranged q OUT.DIV n 0 5 4294967295, (decide (v OUT.COARSE < v OUT.DIV), [key OUT.COARSE, key OUT.DIV]),
   (pulseOk (v OUT.PULSE_PER) (v OUT.PER_NS) (v OUT.WIDTH_NS), [key OUT.PULSE_PER, key OUT.PER_NS, key OUT.WIDTH_NS]),
   (!named || (decide (chan < 10) && (polVal q CHAN.POL_ID_OWNER chan 0 0 == p || bitOf (polVal q CHAN.GRANT chan 0 0) p)),
    [key OUT.PALIGN_CHAN, key OUT.PALIGN_EN]),
   (decide (-(500000000 * 65536) ≤ ofs) && decide (ofs ≤ 500000000 * 65536), [key OUT.PALIGN_OFS_LO, key OUT.PALIGN_OFS_HI]),
   (hzOk (v OUT.FORMAT_FMT) (v OUT.FORMAT_BANK_V) hz && hzOk (outOf s n).fmt (outOf s n).bankV hz,
    [key OUT.DIV, key OUT.FORMAT_FMT, key OUT.FORMAT_BANK_V, fldKey APLL.RATIO_LO p 0 0, fldKey APLL.RATIO_HI p 0 0,
     fldKey APLL.CFG_REFSEL p 0 0, fldKey PART.PORTS_OUTS p 0 0]),
   ranged q OUT.FORMAT_FMT n 0 0 5, ranged q OUT.FORMAT_BANK_V n 0 0 2,
   (v OUT.FORMAT_BANK_V == polVal q OUT.FORMAT_BANK_V bank 0 0, [key OUT.FORMAT_BANK_V, fldKey OUT.FORMAT_BANK_V bank 0 0]),
   (!((v OUT.FORMAT_FMT == 3 || v OUT.FORMAT_FMT == 4) && v OUT.FORMAT_BANK_V == 0),
    [key OUT.FORMAT_FMT, key OUT.FORMAT_BANK_V]),
   ranged q OUT.SQUELCH_CNT n 0 0 0, ranged q (HDR.EVT_CNT .out) n 0 0 0]

/-- Whether a PTP instance block lies within its row of Table 12.5 (R395). -/
def ptpRow (q : Policy) (n p : Nat) : Bool :=
  let g := fun f => polVal q f n p 0
  let within := fun f (lo hi : Int) => decide (lo ≤ toSigned 8 (g f)) && decide (toSigned 8 (g f) ≤ hi)
  let dom := fun lo hi => decide (lo ≤ g PTPTS.CFG_DOMAIN) && decide (g PTPTS.CFG_DOMAIN ≤ hi)
  let tr := g PTPTS.CFG_TRANSPORT
  match g PTPTS.CFG_PROFILE with
  | 2 => tr == 0 && dom 24 43 && within PTPTS.RATES_LOG_SYNC (-4) (-4) && within PTPTS.RATES_LOG_DELAY (-4) (-4) &&
      within PTPTS.RATES_LOG_ANN (-3) (-3)
  | 3 => (tr == 1 || tr == 2) && dom 44 63 && within PTPTS.RATES_LOG_SYNC (-7) 0 && within PTPTS.RATES_LOG_DELAY (-7) 0 &&
      within PTPTS.RATES_LOG_ANN (-3) 0
  | _ => decide (tr ≤ 2) && dom 0 127 && within PTPTS.RATES_LOG_SYNC (-7) 1 && within PTPTS.RATES_LOG_DELAY (-7) 5 &&
      within PTPTS.RATES_LOG_ANN 0 4

/-- The blocks that feed a packet channel in a policy. -/
def feeders (q : Policy) (f : Nat) : List (Nat × Nat) :=
  ((List.range 2).flatMap fun n => (List.range 4).map fun p => (n, p)).filter fun x =>
    polVal q PTPTS.CFG_FEED x.1 x.2 0 == f

/-- A PTP instance block (R395, R397, R410). -/
def ptpRules (q : Policy) (n p : Nat) : List Rule :=
  let g := fun f => polVal q f n p 0
  let key := fun f => fldKey f n p 0
  let feed := g PTPTS.CFG_FEED
  [ranged q PTPTS.CFG_FEED n p 0 2,
   ranged q PTPTS.CFG_TRANSPORT n p 0 2,
   (if g PTPTS.CFG_EN = 0 then feed == 0
    else g PTPTS.CFG_ROLE != 0 && ptpRow q n p && !(g PTPTS.CFG_ROLE == 2 && feed != 0),
    [key PTPTS.CFG_EN, key PTPTS.CFG_ROLE, key PTPTS.CFG_FEED, key PTPTS.CFG_PROFILE, key PTPTS.CFG_TRANSPORT,
     key PTPTS.CFG_DOMAIN, key PTPTS.RATES_LOG_SYNC, key PTPTS.RATES_LOG_DELAY, key PTPTS.RATES_LOG_ANN]),
   (feed == 0 || decide (2 < feed) ||
      ((feeders q feed).length == 1 && polVal q CHAN.POL_ID_OWNER (9 + feed) 0 0 == p),
    [key PTPTS.CFG_FEED, fldKey CHAN.POL_ID_OWNER (9 + feed) 0 0])]

/-- The rules that concern the module as a whole (R377, R388, R418, R419, R433, R530, Table 11.7). SHELF DATA_RATE names no
rate below the nominal one, so R418 refuses none of its codes. -/
def moduleRules (q : Policy) : List Rule :=
  let conn := (List.range 4).filter fun d => polVal q TIME.TOD_CFG_CONN d 0 0 == 1
  [(decide (conn.length ≤ 1), conn.map fun d => fldKey TIME.TOD_CFG_CONN d 0 0),
   (polVal q SHELF.CFG_NODE_BASE 0 0 0 % 4 == 0, [fldKey SHELF.CFG_NODE_BASE 0 0 0]),
   ((List.range 10).all fun n => !bitOf (polVal q SHELF.STBY_SQUELCH 0 0 0) n || polOut q n == 0,
    fldKey SHELF.STBY_SQUELCH 0 0 0 :: (List.range 4).map fun p => fldKey PART.PORTS_OUTS p 0 0),
   (polVal q OSC.TB_CFG 0 0 0 == 0 || polVal q OSC.EXT_AGEING 0 0 0 != 0xFFFFFFFF, [fldKey OSC.TB_CFG 0 0 0])] ++
  ((List.range 4).map fun d => ranged q TIME.STEP_CFG_THRESH d 0 0 999999999) ++
  (List.range 2).flatMap fun n =>
    let src := polVal q ETH.TXCLK_SRC n 0 0
    [ranged q ETH.TXCLK_SRC n 0 0 4,
     (polVal q ETH.MODE_MODE n 0 0 == 0 || src == 0 || decide (4 < src) || q.opens.getD (src - 1) false,
      [fldKey ETH.TXCLK_SRC n 0 0, fldKey ETH.MODE_MODE n 0 0, openKey (src - 1)])]

/-- Every rule that refuses a profile at commit. -/
def allRules (s : State) (q : Policy) : List Rule :=
  (List.range 12).flatMap (chanRules q) ++ rowRules q ++ (List.range 4).flatMap (domRules q) ++
  (List.range 4).flatMap (apllRules q) ++ (List.range 10).flatMap (outRules s q) ++
  ((List.range 2).flatMap fun n => (List.range 4).flatMap fun p => ptpRules q n p) ++ moduleRules q

/-- The offset of a broken rule: the last record that gave one of its cells. -/
def ruleOffset (d : Draft) (keys : List Nat) : Nat :=
  keys.foldl (fun m k => max m ((kvGet d.src k).getD 0)) 0x80

/-- The offset of the first record that breaks a rule, or none (check 7). -/
def checkRules (s : State) (d : Draft) (q : Policy) : Option Nat :=
  let bad := d.bad ++ ((allRules s q).filter fun r => !r.1).map fun r => ruleOffset d r.2
  bad.foldl (fun m o => some (match m with
    | none => o
    | some x => min x o)) none

/-! ### The header and the checks (R453 to R456) -/

/-- First byte of the staging area and of the active policy. -/
def stagingAddr : Nat := blockAddr 24
def activeAddr : Nat := blockAddr 16

/-- LENGTH of the profile at an address. -/
def profLength (s : State) (a : Nat) : Nat := memLE s (a + 0x0C) 4

/-- GEN of the profile at an address. -/
def profGen (s : State) (a : Nat) : Nat := memLE s (a + 8) 4

/-- PUBKEY of the profile at an address. -/
def profKey (s : State) (a : Nat) : List Nat := memBytes s (a + 0x40) 32

/-- Check 1: the code of the failure, or none. -/
def checkHeader (s : State) (a : Nat) : Option Nat :=
  let len := profLength s a
  if memLE s a 4 ≠ 0x46505A45 ∨ memLE s (a + 4) 2 ≠ 1 then some refMAGIC
  else if len < 192 ∨ 32768 < len ∨ len % 4 ≠ 0 then some refLENGTH
  else none

/-- The stored fingerprint, or none while no key is enrolled (R457). -/
def enrolled (s : State) : Option (List Nat) :=
  let f := memBytes s (blockAddr 0) 16
  if f.all (· == 0) then none else some f

/-- Checks 1 to 3 and 5 of R456, in their order, with check 4 when a generation to exceed is given. -/
def checkSigned (s : State) (a : Nat) (above : Option Nat) : Option Nat :=
  match checkHeader s a with
  | some r => some r
  | none =>
    let len := profLength s a
    let ser := memLE s (a + 0x10) 8
    if (enrolled s).any fun f => f != fingerprint (profKey s a) then some refKEY
    else if !edVerify (profKey s a) (memBytes s (a + len - 64) 64) (memBytes s a (len - 64)) then some refSIGNATURE
    else if above.any fun g => decide (profGen s a ≤ g) then some refROLLBACK
    else if ser ≠ 0 ∧ ser ≠ Config.serial.toNat then some refSERIAL
    else none

/-- The records of the profile at an address. -/
def profDraft (s : State) (a : Nat) : Draft × Option Nat :=
  let len := profLength s a - 192
  walkRecs (len + 1) {} 0x80 (memBytes s (a + 0x80) len)

/-- The policy that the profile at an address gives. -/
def profPolicy (s : State) (a : Nat) : Policy := ((profDraft s a).1).policy (profGen s a)

/-- Verify the staged profile (R456): the refusal code and offset, or none. -/
def verifyStaged (s : State) : Option (Nat × Nat) :=
  match checkSigned s stagingAddr (some (get1 s ROOT.POL_GEN 0)) with
  | some r => some (r, 0xFFFF)
  | none =>
    match profDraft s stagingAddr with
    | (_, some off) => some (refRECORD, off)
    | (d, none) => (checkRules s d (d.policy (profGen s stagingAddr))).map fun off => (refCHECK, off)

end Sys2Proof.Machine
end

