-- ==== Sys2Proof/Machine/BlackBox.lean ====
section
/-! DEFINITION. The black box (R562 to R575): Root's writer, the entries held beside the queue, the markers of a run,
the recall at power-on. -/

namespace Sys2Proof.Machine

/-! ### The writer (R567, R568, R573, R575) -/

/-- UNREAD (Table 18.5): the lesser of WR_SEQ - RD_SEQ and 4096; 0 when RD_SEQ is ahead. -/
def unread (s : State) : Nat :=
  let d := (get1 s BBOX.WR_SEQ 0 + 2 ^ 32 - get1 s BBOX.RD_SEQ 0) % 2 ^ 32
  if 2 ^ 31 ≤ d then 0 else satTo 4096 d

/-- UNREAD_WM is raised when UNREAD passes from below WM to WM or more (R575). -/
def unreadCross (before : Bool) (s : State) : State :=
  evtIf (before && decide (get1 s BBOX.WM 0 ≤ unread s)) s .bbox 0 0

/-- Whether UNREAD lies below WM. -/
def belowWm (s : State) : Bool := decide (unread s < get1 s BBOX.WM 0)

/-- The 16 bytes of an entry (Table 18.2). -/
def entryBytes (e : JEntry) (seq : Nat) : List Nat :=
  leBytes (e.frn % 2 ^ 32) 4 ++ leBytes (e.frn / 2 ^ 32 % 2 ^ 16) 2 ++
  leBytes (e.code % 2 ^ 12 + 2 ^ 12 * (match e.part with
    | some p => p % 4
    | none => 4)) 2 ++ [e.unit % 256, e.inst % 256] ++ leBytes (seq % 65536) 2 ++ leBytes (e.data % 2 ^ 32) 4

/-- OVERWRITE (R575): the entry of sequence `w` goes over one that the host has not marked read. -/
def overwriteEvt (s : State) (w : Nat) : State :=
  let old := (w + 2 ^ 32 - 4096) % 2 ^ 32
  let due := match s.jrn.owNext with
    | none => true
    | some n => decide ((w + 2 ^ 32 - n) % 2 ^ 32 < 2 ^ 31)
  if (old + 2 ^ 32 - get1 s BBOX.RD_SEQ 0) % 2 ^ 32 < 2 ^ 31 && due then
    evt { s with jrn := { s.jrn with owNext := some ((w + 4096) % 2 ^ 32) } } .bbox 0 1
  else s

/-- The events of a written entry's code (R575). -/
def codeEvts (s : State) (code : Nat) : State :=
  let s1 := evtIf (code != 0 && code == get1 s BBOX.WATCH 0) s .bbox 0 2
  evtIf (code == 7) (evtIf (code == 6) s1 .bbox 0 3) .bbox 0 4

/-- Write one entry at the write position; the block that the position leaves is sealed (R495, R567, R572). -/
def writeEntry (s : State) (e : JEntry) : State :=
  let w := get1 s BBOX.WR_SEQ 0
  let i := w % 4096
  let before := belowWm s
  let s1 := putSrams (overwriteEvt s w) (blockAddr 224 + 16 * i) (entryBytes e w)
  let s2 := set1 (set1 s1 BBOX.WR_SEQ 0 (w + 1)) BBOX.WR_IDX 0 (w + 1)
  let s3 := codeEvts (addCnt (unreadCross before s2) BBOX.ENTRY_CNT 0 0 1) e.code
  if i % 256 = 255 then
    let bit := 2 ^ (i / 256)
    rootStore (set1 s3 BBOX.STALE 0 ((get1 s3 BBOX.STALE 0 ||| bit) ^^^ bit)) (224 + i / 256) 3 8
  else s3

/-! ### The queue and what is held beside it (R565, R566) -/

/-- A QUEUE_LOST entry. -/
def lostEntry (x : Nat × Nat) : JEntry := ⟨x.1, 0x007, none, pageType .bbox, 0, x.2⟩

/-- The oldest frame's loss becomes a QUEUE_LOST entry held beside the queue. -/
def holdLost (s : State) : State :=
  match s.jrn.lost with
  | [] => s
  | x :: r => { s with jrn := { s.jrn with held := s.jrn.held ++ [lostEntry x], lost := r } }

/-- Held entries go into the queue while it has room. -/
def pumpHeld : Nat → State → State
  | 0, s => s
  | n + 1, s =>
    match s.jrn.held with
    | [] => s
    | e :: r =>
      if s.jrn.queue.length < 64 then
        pumpHeld n { s with jrn := { s.jrn with queue := s.jrn.queue ++ [e], held := r } }
      else s

/-- Root takes one entry from the queue and writes it. -/
def drainOne (s : State) : State :=
  match s.jrn.queue with
  | [] => s
  | e :: r => pumpHeld 64 (writeEntry { s with jrn := { s.jrn with queue := r } } e)

/-- Root drains the queue and what is held. -/
def drainN : Nat → State → State
  | 0, s => s
  | n + 1, s => drainN n (drainOne s)

/-- Root runs again after a processor reset. -/
def rootUp (s : State) : State := { s with root := { s.root with down := none } }

/-- Drain everything, while Root runs (R547, R565). -/
def drainAll (s : State) : State :=
  let s1 := pumpHeld 64 s
  if s.root.down.isSome then s1 else drainN (s1.jrn.queue.length + s1.jrn.held.length) s1

/-- The end of a frame: its losses become an entry (R565). -/
def frameLost (s : State) : State := pumpHeld 64 (holdLost s)

/-- The SUPPRESSED entry of a code and of how often it was suppressed (R566). -/
def suppressedEntry (s : State) (x : Nat × Nat) : JEntry :=
  ⟨s.frn % 2 ^ 48, 0x006, none, pageType .bbox, 0, x.1 % 4096 + 4096 * satTo 0xFFFFF x.2⟩

/-- The last frame of a suppression window: one SUPPRESSED entry for each code suppressed in it (R566). -/
def suppressionEnd (s : State) : State :=
  pumpHeld 64 { s with jrn := { s.jrn with held := s.jrn.held ++ s.jrn.supp.map (suppressedEntry s), counts := [], supp := [] } }

/-- Whether the frame in progress is the last of its window. -/
def windowLast (s : State) : Bool := s.frn % 8000 == 7999

/-! ### Markers and recall (R549, R571, R572) -/

/-- FRN_RESTART: the entries that wait are written first (R572). -/
def frnRestart (s : State) : State :=
  let s1 := drainAll s
  drainAll (journalPg s1 0x001 none .sys 0 (2 ^ 29 * get1 s1 SYS.RESET 0 + s1.cellar.session % 2 ^ 29))

/-- CODE of the entry at an index. -/
def entryCode (s : State) (i : Nat) : Nat := memLE s (blockAddr 224 + 16 * i + 6) 2 % 4096

/-- SEQ of the entry at an index. -/
def entrySeq (s : State) (i : Nat) : Nat := memLE s (blockAddr 224 + 16 * i + 10) 2

/-- Whether sequence `a` is newer than `b` (R572). -/
def newerSeq (a b : Nat) : Bool :=
  let d := (a + 65536 - b) % 65536
  decide (1 ≤ d) && decide (d ≤ 32767)

/-- The newest of the qualifying entries: newer than the most others, then the highest index (R572). -/
def newestEntry (l : List (Nat × Nat)) : Option (Nat × Nat) :=
  (l.map fun x => ((l.filter fun y => newerSeq x.2 y.2).length, x)).foldl (fun (b : Option (Nat × (Nat × Nat))) y =>
    match b with
    | none => some y
    | some z => if z.1 < y.1 ∨ (z.1 = y.1 ∧ z.2.1 < y.2.1) then some y else some z) none |>.map fun y => y.2

/-- Entries of the black box (Table 18.6). -/
def bbEntries : Nat := 16 * 256

/-- How many entries before the write position a 16-bit SEQ lies. -/
def seqAge (w x : Nat) : Nat := (w + 65536 - x) % 65536

/-- Whether a written entry is of an earlier lap (R572). -/
def laps (w : Nat) (x : Nat × Nat) : Bool := decide (4096 < seqAge w x.2) || seqAge w x.2 == 0 || x.2 % 4096 != x.1

/-- Power-on: WR_SEQ and STALE from what the black-box blocks hold (R572). -/
def bboxRecall (s : State) : State :=
  let seen := ((List.range bbEntries).filter fun i => entryCode s i != 0).map fun i => (i, entrySeq s i)
  let newest := newestEntry (seen.filter fun x => x.2 % 4096 == x.1)
  let w := (newest.map fun x => (x.2 + 1) % 65536).getD 0
  let old := seen.filter (laps w)
  let stale := ((List.range 16).filter fun b => old.any fun x => x.1 / 256 == b).foldl (fun m b => m + 2 ^ b) 0
  set1 (set1 (set1 s BBOX.WR_SEQ 0 w) BBOX.WR_IDX 0 w) BBOX.STALE 0 stale

/-! ### Host writes (R575) -/

/-- RD_SEQ acts: OVERWRITE may be raised again. -/
def rdSeqWrite (s : State) (v : Nat) : State :=
  let before := belowWm s
  let s1 := set1 s BBOX.RD_SEQ 0 v
  unreadCross before { s1 with jrn := { s1.jrn with owNext := none } }

/-- WM acts. -/
def bboxWmWrite (s : State) (v : Nat) : State :=
  let before := belowWm s
  unreadCross before (set1 s BBOX.WM 0 v)

/-! ### Meanings -/

/-- RD_SEQ write (R575) as it acts. -/
def execRdSeqWrite (value : Nat) (s : State) : Host.Outcome State Fault Refusal :=
  if value < 2 ^ 32 then .next (rdSeqWrite s value) else .refused .illFormed

/-- BBOX_ENTRY_WRITE (R567): Root writes the oldest queued entry. -/
def execBboxEntryWrite (s : State) : Host.Outcome State Fault Refusal := .next (drainOne (rootUp s))

/-- QUEUE_LOST (R565): a frame's loss is queued once there is room. -/
def execQueueLost (s : State) : Host.Outcome State Fault Refusal := .next (pumpHeld 64 (holdLost s))

/-- SUPPRESSION_WINDOW_END (R566). -/
def execSuppressionWindowEnd (s : State) : Host.Outcome State Fault Refusal :=
  if windowLast s then .next (suppressionEnd s) else .next s

end Sys2Proof.Machine
end

