-- ==== Sys2Proof/Machine/Table.lean ====
section
/-! DEFINITION. The Channel Table's Host halves (R136 to R149): judging an entry, the cached copies, the reset image. -/

namespace Sys2Proof.Machine

/-- Address of channel `c`'s Host half. -/
def hostHalf (c : Nat) : Nat := pageBase .chan c + 0x40

/-- Word `i` of a Host half in memory. -/
def halfWord (s : State) (c i : Nat) : Nat := memLE s (hostHalf c + 4 * i) 4

/-- An entry's verdict (R143, Tables 4.5, 4.6). -/
def judgeEntry (s : State) (c : Nat) : Nat :=
  let plan := halfWord s c 4
  let stop := bitsOf plan 9 4
  let ivl := bitOf plan 8
  if crc16 (memBytes s (hostHalf c) 60) ≠ memLE s (hostHalf c + 60) 2 then 2
  else if 10 ≤ c then (if plan = 0 then 1 else 3)
  else if ivl ∧ (9 < stop ∨ stop = c) then 3
  else if ivl ∧ !mayMeasure s (chanOwner s c) stop then 4
  else 1

/-- The ENTRY condition (Table 4.4, Table 18.3): raised by the cached mask, journalled whatever the mask (R142). -/
def entryCond (s : State) (c verdict gen : Nat) : State :=
  journal (chanEvt s c 6) 0x030 (some (chanOwner s c)) (pageType .chan) c (verdict + 256 * (gen % 2 ^ 24))

/-- EFF_GEN of an entry. -/
def effGen (s : State) (c : Nat) : Nat := get1 s CHAN.EFF_GEN c

/-- The table-cache refresh of one entry (R143, R145 to R147). -/
def refreshEntry (s : State) (c : Nat) : State :=
  let gen := halfWord s c 14
  if gen = effGen s c then s
  else
    let v := judgeEntry s c
    let old := get1 s CHAN.VERDICT c
    let s1 := set1 (set1 s CHAN.VERDICT c v) CHAN.VFRN c s.frn
    let words := (List.range 16).map (halfWord s c)
    let s2 := modChan s1 c fun u => { u with accepted := if v = 1 then some words else none }
    if v ≠ 1 ∧ v ≠ old then entryCond s2 c v gen else s2

/-- Stage 6: the table-cache refresh (R68). -/
def tableRefresh (s : State) : State := (List.range 12).foldl refreshEntry s

/-- An accepted entry becomes the cached copy (R144). -/
def acceptEntry (s : State) (c : Nat) : State :=
  match (chanOf s c).accepted with
  | none => s
  | some w =>
    let gen := w.getD 14 0
    let old := effGen s c
    let s1 := modChan s c fun u => { u with plan := w, accepted := none }
    let s2 := set1 (set1 s1 CHAN.EFF_GEN c gen) CHAN.VERDICT c 1
    if gen = old then s2 else entryCond s2 c 1 gen

/-- Step 6 of a boundary (R64). -/
def tableAccept (s : State) : State := (List.range 12).foldl acceptEntry s

/-- A Host half returns to the reset image; an acceptance that waits is withdrawn (R149). -/
def hostHalfReset (s : State) (c : Nat) : State :=
  let waits := (chanOf s c).accepted.isSome || (get1 s CHAN.VERDICT c == 5 && get1 s CHAN.VFRN c == s.frn % 2 ^ 24)
  let moved := effGen s c ≠ 0
  let s1 := clearRange s (hostHalf c) 64
  let s2 := modChan s1 c fun u => { u with plan := [], accepted := none }
  let v := if waits then 5 else 0
  let s3 := set1 (set1 (set1 s2 CHAN.EFF_GEN c 0) CHAN.VERDICT c v) CHAN.VFRN c (if waits then s.frn else 0)
  if moved then entryCond s3 c v 0 else s3

/-- Every Host half at power-on reset and at reset through RESET_N (R148). -/
def tableReset (s : State) : State :=
  (List.range 12).foldl (fun t c =>
    let t1 := modChan (clearRange t (hostHalf c) 64) c fun u => { u with plan := [], accepted := none }
    [CHAN.EFF_GEN, CHAN.VERDICT, CHAN.VFRN].foldl (fun t f => set1 t f c 0) t1) s

end Sys2Proof.Machine
end

