-- ==== Sys2Proof/Machine/Restart.lean ====
section
/-! DEFINITION. Starts and resets of partitions (R37 to R42, R149, R224, R242, R344, R542, R546 to R548): what a partition
reset returns to its start, how a domain and its synthesis start, and the shared pages that a soft reset clears. -/

namespace Sys2Proof.Machine

/-- The fields of a page that a reset returns to their reset values (R11): LK fields follow the policy, RS fields show the
latest snapshot, and `keep` stays. -/
def resettable (p : Page) (keep : List Fld) : List Fld :=
  (pageAll p).filter fun f => f.acc != .lk && f.acc != .rs && f.acc != .wo && f != HDR.FRAME_STAMP p && !keep.contains f

/-- Return a page to its reset values. -/
def resetPage (s : State) (p : Page) (n : Nat) (keep : List Fld) : State := resetFields s (resettable p keep) n

/-- The event registers of a page. -/
def evtFields (p : Page) : List Fld := [HDR.EVT p, HDR.EVT_EN p, HDR.EVT_CNT p]

/-- The PART page records its latest reset (Table 17.8). -/
def recordReset (s : State) (p cause : Nat) : State :=
  let s1 := resetPage s .part p [PART.LAST_RESET, PART.RESET_FRN, PART.RESET_CNT]
  addCnt (set1 (set1 s1 PART.LAST_RESET p cause) PART.RESET_FRN p s.frn) PART.RESET_CNT p 0 1

/-- A partition reset (R38) with its cause: 1 HOST, 2 COMMIT, 3 SOFT. -/
def partReset (s : State) (p cause : Nat) : State :=
  let s0 := journalPg (recordReset s p cause) 0x011 (some p) .part p cause
  let s1 := resetPage (resetPage s0 .dpll p [DPLL.STATUS_FB_LOST]) .time p []
  let s2 := synthReset (resetFields s1 (evtFields .apll) p) p
  let s3 := (outsOf s2 p).foldl (fun t n => set1 (resetFields t (evtFields .out) n) OUT.ENABLE_FRN n 0) s2
  let s4 := cancelCmd (instReset (resetHarvest (resetRows s3 p) p) p) p
  let s5 := ((List.range 12).filter fun c => chanOwner s c == p).foldl hostHalfReset s4
  let s6 := publishGains (utcPolicy (timeStart (startDom s5 p) p (isOpen s p)) p) p
  let old := get1 s DPLL.STATUS_STATE p
  if old = domState s6 p then s6 else domChanged s6 p old (domState s6 p) 0

/-- RESET_DONE is raised at the first boundary after a partition reset (R560). -/
def resetDone (s : State) : State :=
  (List.range 4).foldl (fun t p =>
    evtIf (get1 t PART.LAST_RESET p != 0 && (get1 t PART.RESET_FRN p + 1) % 2 ^ 32 == t.frn % 2 ^ 32) t .part p 16) s

/-- The synthesis of a domain that starts (R542): the start values of policy, the APLL, and its outputs. -/
def synthStart (s : State) (d : Nat) : State :=
  let s1 := resetPage s .apll d [APLL.VCO_KHZ, APLL.BOUNDARY]
  (outsOf s1 d).foldl outInit (apllStart s1 d)

/-- An output moves to another partition (R42): it finishes its high phase or pulse as the state `a` before the commit has it, is
disabled, and starts under its new owner's settings. -/
def moveOutput (a s : State) (n : Nat) : State :=
  let x := lastFall a n
  let low := (outOf a n).active && decide (x.getD 0 ≤ 0)
  outInit (modOut (evtIf low (resetFields s (evtFields .out) n) .out n 1) n fun u => { u with left := x }) n

/-- QL state of a channel that has heard no message (R252). -/
def qlClear (s : State) (c : Nat) : State :=
  modChan s c fun u => { u with rank := 0, timedOut := true, qlLeft := none, qlAge := none }

/-- The SEL page at a soft reset, with the ranks and timers that it shows (Table 17.3). -/
def selReset (s : State) : State := (List.range 12).foldl qlClear (resetPage s .sel 0 [])

/-- The ROOT fields that a soft reset keeps: key, generation and epoch status, and what runs (Table 17.3). -/
def rootKept : List Fld :=
  [ROOT.STATUS_PSTATE, ROOT.STATUS_LEAF, ROOT.STATUS_ROM_PROFILE, ROOT.STATUS_KEY_ENROLLED, ROOT.STATUS_COMMIT_PEND,
   ROOT.POL_GEN, ROOT.STAGE_GEN, ROOT.COMMIT_FRN, ROOT.KEY_FPR, ROOT.LEAF_VER, ROOT.LEAF_EPOCH, ROOT.ROOT_VER]

/-- The shared pages that a soft reset clears (R546, Table 17.3). -/
def sharedReset (s : State) : State :=
  let s1 := resetPage (selReset s) .shelf 0 [SHELF.NODE]
  let s2 := (List.range 2).foldl (fun t n => resetPage t .ptpts n []) s1
  shelfReset (resetPage (resetPage s2 .dbg 0 [DBG.STATUS_STRAP]) .root 0 rootKept)

end Sys2Proof.Machine
end

