-- ==== Sys2Proof/Machine/Root.lean ====
section
/-! DEFINITION. Root (R447 to R472): verifying and committing a profile, loading and starting Leaf, Leaf's faults, debug
grants, and what the completion or failure of a block store leads to. -/

namespace Sys2Proof.Machine

def modRoot (s : State) (f : RootU → RootU) : State := { s with root := f s.root }

/-! ### Staging and refusal (R456, R458 to R460) -/

/-- PSTATE (Table 14.9a): 0 IDLE, 1 VERIFYING, 2 VERIFIED, 3 COMMITTING, 4 REFUSED. -/
def pstate (s : State) : Nat := get1 s ROOT.STATUS_PSTATE 0

/-- Whether the staging area is locked (R458). -/
def stagingLocked (s : State) : Bool := pstate s == 1 || pstate s == 3

/-- Address and value of the COMMITTING mark, in the staging header's reserved bytes (notes/assumptions 60). -/
def markAddr : Nat := stagingAddr + 0x7C
def markWord : Nat := 0x54494D43

/-- Whether the staging area carries the mark. -/
def marked (s : State) : Bool := memLE s markAddr 4 == markWord

/-- Clear the mark in SRAM. -/
def unmark (s : State) : State := if marked s then putSramLE s markAddr 0 4 else s

/-- SRAM of a block returns to its stored content (R460, R464). -/
def reloadBlock (s : State) (b : Nat) : State :=
  let d := match winner s b with
    | some w => copyData s b w
    | none => []
  modCellar { s with mem := loadBlock s.mem b d } fun u => { u with dirty := u.dirty.filter fun x => x != b }

/-- Reload a range of blocks. -/
def reloadBlocks (s : State) (first n : Nat) : State := (List.range n).foldl (fun t i => reloadBlock t (first + i)) s

/-- The staged profile is refused (R456, R460). -/
def refuseProfile (s : State) (code off : Nat) : State :=
  let s1 := if s.root.stage = 0 then s else unmark (reloadBlocks (dropOwner s 5) 16 8)
  let s2 := modRoot s1 fun u => { u with thenCommit := false, stage := 0, commitAt := none }
  let s3 := set1 (set1 (set1 s2 ROOT.STATUS_PSTATE 0 4) ROOT.STATUS_COMMIT_PEND 0 0) ROOT.STAGE_GEN 0 0
  let s4 := evt (set1 (set1 s3 ROOT.REFUSE_CODE 0 code) ROOT.REFUSE_OFFSET 0 off) .root 0 2
  journalPg s4 0x091 none .root 0 (code + 65536 * off)

/-- Blocks that the staged profile occupies. -/
def profBlocks (s : State) : Nat := (profLength s stagingAddr + 4095) / 4096

/-- Queue the commit's stores of blocks from `first` on. -/
def commitStores (s : State) (first n : Nat) : State :=
  (List.range n).foldl (fun t i => rootStore t (first + i) 2 5) s

/-- The commit begins (R459): the mark, and the stores of the staging blocks. -/
def beginCommit (s : State) : State :=
  if !engineTakes s then refuseProfile s refPOWER 0xFFFF
  else
    let s1 := modRoot (set1 s ROOT.STATUS_PSTATE 0 3) fun u => { u with stage := 1, thenCommit := false }
    commitStores (putSramLE s1 markAddr markWord 4) 24 (profBlocks s)

/-- The staging blocks are stored: the profile is copied to blocks 16 to 23, which are stored (R459). -/
def copyProfile (s : State) : State :=
  let n := profBlocks s
  let s1 := putSrams s activeAddr (memBytes s stagingAddr (4096 * n))
  commitStores (modRoot (putSramLE s1 (activeAddr + 0x7C) 0 4) fun u => { u with stage := 2 }) 16 n

/-- The last store of a commit ends: the commit frame is the second after (R459). -/
def scheduleCommit (s : State) : State :=
  let f := s.frn + 2
  set1 (set1 (modRoot s fun u => { u with stage := 3, commitAt := some f }) ROOT.COMMIT_FRN 0 f) ROOT.STATUS_COMMIT_PEND 0 1

/-- Verification of the staged profile begins (R458). -/
def beginVerify (s : State) (commit : Bool) : State :=
  let s1 := modRoot s fun u => { u with thenCommit := commit, touched := false }
  set1 (set1 s1 ROOT.STATUS_PSTATE 0 1) ROOT.STAGE_GEN 0 0

/-- Verification ends (R456, R458). -/
def endVerify (s : State) : State :=
  match verifyStaged (unmark s) with
  | some r => refuseProfile s r.1 r.2
  | none =>
    let s1 := evt (set1 (set1 s ROOT.STATUS_PSTATE 0 2) ROOT.STAGE_GEN 0 (profGen s stagingAddr)) .root 0 0
    if s1.root.thenCommit then beginCommit s1 else s1

/-- A COMMIT write acts (R459): a profile already verified is not verified again unless staging has changed since. -/
def commitCmd (s : State) : State :=
  match pstate s with
  | 1 => modRoot s fun u => { u with thenCommit := true }
  | 2 => if s.root.touched then beginVerify s true else beginCommit s
  | 3 => s
  | _ => beginVerify s true

/-- A VERIFY write acts (R458). -/
def verifyCmd (s : State) : State := if stagingLocked s then s else beginVerify s false

/-- An ABORT write acts (Table 14.9a, R460). -/
def abortCmd (s : State) : State :=
  match pstate s with
  | 1 | 2 => set1 (set1 (modRoot s fun u => { u with thenCommit := false }) ROOT.STATUS_PSTATE 0 0) ROOT.STAGE_GEN 0 0
  | 3 => if get1 s ROOT.STATUS_COMMIT_PEND 0 = 1 then s else refuseProfile s refABORTED 0xFFFF
  | _ => s

/-- PFAIL_N falls, or Root restarts, before the commit frame (R460, R547). -/
def stopCommit (s : State) (code : Nat) : State := if pstate s = 3 then refuseProfile s code 0xFFFF else s

/-! ### The key (R455, R457) -/

/-- Report the enrolled key. -/
def publishKey (s : State) : State :=
  let f := (enrolled s).getD (List.replicate 16 0)
  let s1 := (List.range 4).foldl (fun t i => setF t ROOT.KEY_FPR 0 i 0 (leNat ((f.drop (4 * i)).take 4))) s
  set1 s1 ROOT.STATUS_KEY_ENROLLED 0 (b2n (enrolled s).isSome)

/-- A commit enrols the first key, or takes the key of KEY_ROTATE (R457). -/
def commitKey (s : State) (pub : List Nat) (rot : Option (List Nat)) : State :=
  let first := (enrolled s).isNone
  if !first && rot.isNone then s
  else
    let f := fingerprint (rot.getD pub)
    let s1 := publishKey (rootStore (putSrams s (blockAddr 0) f) 0 2 8)
    if first then journalPg s1 0x092 none .root 0 (leNat (f.take 4)) else s1

/-! ### Debug grants (R469, R470, R472) -/

/-- The scope byte of the policy in effect. -/
def debugScope (s : State) : Nat :=
  get1 s DBG.SCOPE_ACC_WINDOW 0 + 2 * get1 s DBG.SCOPE_LEAF_PORT 0 + 4 * get1 s DBG.SCOPE_LEAF_HALT 0

/-- A grant runs. -/
def granted (s : State) : Bool := s.root.grantEnd.isSome

/-- The running grant ends: 0 expiry, 1 revoke, 2 commit, 3 reset. -/
def debugEnd (s : State) (cause : Nat) : State :=
  if !granted s then s
  else
    let s1 := set1 (modRoot s fun u => { u with grantEnd := none }) DBG.STATUS_GRANTED 0 0
    journalPg (evt s1 .dbg 0 1) 0x098 none .dbg 0 cause

/-- A REQUEST write acts (R469). -/
def debugAsk (s : State) : State :=
  if s.straps.debug && debugScope s != 0 then
    let dur := get1 s DBG.DURATION 0
    let s1 := modRoot s fun u => { u with grantEnd := some (s.frn + 8000 * dur) }
    let s2 := set1 (set1 (set1 s1 DBG.STATUS_GRANTED 0 1) DBG.STATUS_REFUSED 0 0) DBG.GRANT_FRN 0 s.frn
    journalPg (addCnt (evt s2 .dbg 0 0) DBG.GRANT_CNT 0 0 1) 0x097 none .dbg 0 (debugScope s + 256 * satTo 0xFFFFFF dur)
  else evt (set1 s DBG.STATUS_REFUSED 0 1) .dbg 0 2

/-- A grant whose DURATION has passed ends. -/
def debugFrame (s : State) : State :=
  if s.root.grantEnd.any fun f => decide (f ≤ s.frn) then debugEnd s 0 else s

/-! ### The commit acts (R41, R42, R65, R135, R149, R268, R297, R316, R383, R457, R459) -/

/-- Whether a commit changes an assignment of partition `p` (R41). -/
def reassigned (a b : Policy) (p : Nat) : Bool :=
  let own := fun (q : Policy) c => polVal q CHAN.POL_ID_OWNER c 0 0 == p
  let same := fun f n k j => polVal a f n k j == polVal b f n k j
  let inst := [PTPTS.CFG_EN, PTPTS.CFG_ROLE, PTPTS.CFG_PROFILE, PTPTS.CFG_TRANSPORT, PTPTS.CFG_FEED, PTPTS.CFG_DOMAIN,
    PTPTS.RATES_LOG_SYNC, PTPTS.RATES_LOG_DELAY, PTPTS.RATES_LOG_ANN, PTPTS.RATES_ANN_TMO, PTPTS.ASYM]
  let names := fun (q : Policy) => q.leaf.filter fun x => x.2.getD 0 4 == p
  !(a.opens.getD p false == b.opens.getD p false &&
    ((List.range 10).all fun n => (polOut a n == p) == (polOut b n == p)) &&
    ((List.range 12).all fun c => own a c == own b c &&
      bitOf (polVal a CHAN.CAND c 0 0) p == bitOf (polVal b CHAN.CAND c 0 0) p &&
      bitOf (polVal a CHAN.GRANT c 0 0) p == bitOf (polVal b CHAN.GRANT c 0 0) p) &&
    [FRAME.SLOT_QUOTA, ROWS.ALLOC_DESC_FIRST, ROWS.ALLOC_DESC_COUNT, ROWS.ALLOC_WORD_FIRST, ROWS.ALLOC_WORD_COUNT].all
      (fun f => same f 0 p 0) &&
    [PART.PORTS_SPI, PART.PORTS_I2C, PART.PORTS_IRQ].all (fun f => same f p 0 0) &&
    ((List.range 2).all fun n => inst.all (fun f => same f n p 0) &&
      (List.range 8).all fun j => same PTPTS.AMT_LO n p j && same PTPTS.AMT_HI n p j) &&
    names a == names b)

/-- Whether a commit changes a channel's Policy half (R135). -/
def halfChanged (a b : Policy) (c : Nat) : Bool :=
  (CHAN.fields.filter fun f => f.acc == .lk).any fun f => polVal a f c 0 0 != polVal b f c 0 0

/-- A channel's QL under a new policy: a rank heard from another source is dropped, and a change of the rank in effect
is reported (R250, R252). -/
def requalify (a : Policy) (s : State) (c : Nat) : State :=
  let old := rankOf { s with pol := a } c
  let same := [CHAN.QL_SRC, CHAN.QL_NODE].all fun f => polVal a f c 0 0 == polVal s.pol f c 0 0
  let s1 := if same then s else qlClear s c
  let new := rankOf s1 c
  if old = new then s1 else qlChange s1 c old new false

/-- The ports under a new policy (R386, R388). -/
def portCommit (a : Policy) (s : State) (n : Nat) : State :=
  txclkJudge (if polVal a ETH.MODE_MODE n 0 0 ≠ polVal s.pol ETH.MODE_MODE n 0 0 then portModeChange s n else s) n

/-- The source that policy selects (R47). -/
def selectedSrc (s : State) : Nat := get1 s OSC.TB_CFG 0

/-- TB_FALLBACK reads 1 while the source in use differs from the one policy selects, DEGRADED at its onset (R47, R558). -/
def markFallback (s : State) : State :=
  let off := get1 s FRAME.TB_SRC 0 != selectedSrc s
  let s1 := set1 s SYS.STATUS_TB_FALLBACK 0 (b2n off)
  if off && get1 s SYS.STATUS_TB_FALLBACK 0 == 0 then degraded s1 else s1

/-- A policy replaces another at one boundary (R65): everything that follows from the change of fields. -/
def changePolicy (s : State) (b : Policy) : State :=
  let a := s.pol
  let moved := (List.range 4).filter (reassigned a b)
  let opens := moved.filter fun p => !a.opens.getD p false && b.opens.getD p false
  let closes := moved.filter fun p => a.opens.getD p false && !b.opens.getD p false
  let outs := (List.range 10).filter fun n => polOut a n != polOut b n
  let chans := (List.range 12).filter fun c => polVal a CHAN.POL_ID_OWNER c 0 0 != polVal b CHAN.POL_ID_OWNER c 0 0
  let halves := (List.range 12).filter (halfChanged a b)
  let s1 : State := { moved.foldl resetRows s with pol := b }
  let s2 := halves.foldl (fun t c => set1 t CHAN.POL_GEN c b.gen) s1
  let s3 := outs.foldl (moveOutput s) (chans.foldl hostHalfReset s2)
  let s4 := opens.foldl synthStart (closes.foldl apllStop (moved.foldl (fun t p => partReset t p 2) s3))
  let s5 := (List.range 4).foldl (fun t d =>
    if !domRuns t d then t
    else if domState t d = 3 then duskRecompute (commitCfg t d) d else commitCfg t d) s4
  let s6 := (List.range 12).foldl (requalify a) s5
  let s7 := (List.range 4).foldl (fun t p => if (ptpOf t p).held then instReset t p else t) s6
  let conn := (List.range 4).filter fun d => polVal a TIME.TOD_CFG_CONN d 0 0 == 0 && polVal b TIME.TOD_CFG_CONN d 0 0 == 1
  let s7 := conn.foldl todConnect s7
  let s8 := fmtPending ((List.range 4).foldl utcPolicy ((List.range 2).foldl (portCommit a) s7))
  let s9 := shelfCommit (markFallback s8) (polVal a SHELF.CFG_GROUP 0 0 0)
  if debugScope s9 = 0 then debugEnd s9 2 else s9

/-- Step 2 of the commit frame (R459): the policy acts; the mark is cleared and its block stored. -/
def policyCommit (s : State) : State :=
  let b := profPolicy s activeAddr
  let s1 := modRoot s fun u => { u with stage := 0, commitAt := none, touched := true }
  let s2 := set1 (set1 (set1 s1 ROOT.STATUS_PSTATE 0 0) ROOT.STATUS_COMMIT_PEND 0 0) ROOT.STAGE_GEN 0 0
  let s3 := set1 (set1 s2 ROOT.POL_GEN 0 b.gen) ROOT.STATUS_ROM_PROFILE 0 0
  let s4 := journalPg (evt s3 .root 0 1) 0x090 none .root 0 b.gen
  let s5 := commitKey s4 (profKey s activeAddr) (profDraft s activeAddr).1.rot
  rootStore (unmark (changePolicy s5 b)) 24 2 8

/-- Step 2 of a boundary: the commit whose frame it opens (R64). -/
def commitStep (s : State) : State := if s.root.commitAt == some s.frn then policyCommit s else s

/-! ### The Leaf image (R462 to R465) -/

def imageAddr : Nat := blockAddr 32
def imageField (s : State) (off : Nat) : Nat := memLE s (imageAddr + off) 4

/-- The stored security epoch (Table 15.1). -/
def leafEpoch (s : State) : Nat := memLE s (blockAddr 0 + 16) 4

/-- The check of the image in bank L: the refusal code, or none (R462, R463). -/
def imageCheck (s : State) : Option Nat :=
  let len := imageField s 0x0C
  if imageField s 0 ≠ 0x464C5A45 then some refMAGIC
  else if len < 4096 ∨ 458752 < len then some refLENGTH
  else if !edVerify (leBytes Config.imageKey.toNat 32) (memBytes s (imageAddr + len - 64) 64) (memBytes s imageAddr (len - 64)) then
    some refSIGNATURE
  else if imageField s 8 < leafEpoch s then some refEPOCH
  else if Config.rootVer.toNat < imageField s 0x14 then some refROOTVER
  else none

/-- Acceptance raises the stored epoch (R463). -/
def acceptEpoch (s : State) : State :=
  let e := imageField s 8
  let s1 := if e ≤ leafEpoch s then s else rootStore (putSramLE s (blockAddr 0 + 16) e 4) 0 2 8
  set1 s1 ROOT.LEAF_EPOCH 0 (leafEpoch s1)

/-- STATUS.LEAF (Table 14.9a): 0 RUNNING, 1 RESTARTING, 2 HELD, 3 PARKED, 4 LOADING, 5 ABSENT. -/
def leafState (s : State) : Nat := get1 s ROOT.STATUS_LEAF 0

/-- Whether the module runs at the Root floor (Table 17.7). -/
def rootFloor (s : State) : Bool := leafState s == 2 || leafState s == 5

/-- STATUS.LEAF changes; DEGRADED is raised when the Root floor begins (R558). -/
def setLeaf (s : State) (v : Nat) : State :=
  let s1 := set1 s ROOT.STATUS_LEAF 0 v
  if !rootFloor s && rootFloor s1 then degraded s1 else s1

/-- Leaf stops (R467): its gate calls are lost, packet channels fail at once, PTP instances restart, and the shelf bus
goes on without it (R438). -/
def leafDown (s : State) : State :=
  let s1 := { s with gate := { s.gate with queue := [], res := 0, data := [] } }
  let s2 := [10, 11].foldl pktFail s1
  let s3 := (List.range 4).foldl (fun t p => nmeaPause (instRestart t p) p) s2
  if leafState s = 0 ∨ leafState s = 3 then shelfStop s3 else s3

/-- Counted restarts that began within the preceding 10 min (R468). -/
def inWindow (s : State) : List Nat := s.root.window.filter fun f => decide (s.frn ≤ f + tenMin)

/-- LEAF_LAST (Table 14.9a). -/
def leafLast (s : State) (cause : Nat) : State :=
  set1 (set1 (set1 s ROOT.LEAF_LAST_CAUSE 0 cause) ROOT.LEAF_LAST_IN_WINDOW 0 (satTo 3 (inWindow s).length)) ROOT.LEAF_LAST_FRN 0 s.frn

/-- Data of LEAF_RESTART and LEAF_HELD entries. -/
def leafData (s : State) (cause : Nat) : Nat := cause + 256 * satTo 3 (inWindow s).length

/-- A restart begins (R467). -/
def leafRestart (s : State) (cause : Nat) : State :=
  let s1 := addCnt (evt (leafLast (leafDown s) cause) .root 0 3) ROOT.LEAF_RESTART_CNT 0 0 1
  setLeaf (journalPg s1 0x095 none .root 0 (leafData s1 cause)) 1

/-- A fault of a running Leaf (R466, R468): cause 1 WDT, 2 MPU, 3 EXCEPTION, 4 SELF. -/
def leafFault (s : State) (cause : Nat) : State :=
  if !leafRuns s then s
  else
    let w := inWindow s
    if 3 ≤ w.length then
      let s1 := evt (leafLast (leafDown (modRoot s fun u => { u with window := w })) cause) .root 0 4
      setLeaf (journalPg s1 0x096 none .root 0 (leafData s1 cause)) 2
    else leafRestart (modRoot s fun u => { u with window := w ++ [s.frn] }) cause

/-- Cause HOST (R468): it empties the window; a load in progress ends. -/
def leafHost (s : State) : State := leafRestart (modRoot s fun u => { u with window := [], img := 0 }) 5

/-- Root verifies bank L and starts Leaf, or leaves it ABSENT (R465, R497). -/
def leafStart (s : State) : State :=
  if leafState s ≠ 1 then s
  else
    let s1 := if (imageCheck s).isSome then reloadBlocks s 32 112 else s
    if (imageCheck s1).isSome then setLeaf s1 5
    else
      let s2 := set1 (acceptEpoch s1) ROOT.LEAF_VER 0 (imageField s1 4)
      let s3 := modRoot s2 fun u => { u with kick := s.frn, parkedAt := none, down := none, leafKeys := s.cellar.ring.filter fun x => decide (32 ≤ x.1) }
      setLeaf (shelfRejoin s3) (if s3.cellar.parked.isEmpty then 0 else 3)

/-- IMAGE_LOAD acts (R464): Leaf stops, and partition 0 may write bank L. -/
def imageLoad (s : State) : State :=
  if leafState s = 4 then s else setLeaf (leafDown (modRoot s fun u => { u with img := 1 })) 4

/-- The image load ends and Leaf starts, with cause IMAGE. -/
def imageOver (s : State) : State := leafRestart (modRoot s fun u => { u with img := 0 }) 6

/-- IMAGE_ACTIVATE acts: the write grant ends and Root verifies the image (R464). -/
def imageActivate (s : State) : State :=
  if leafState s = 4 ∧ s.root.img = 1 then modRoot s fun u => { u with img := 2 } else s

/-- IMAGE_CANCEL acts (R464). -/
def imageCancel (s : State) : State :=
  if leafState s = 4 ∧ s.root.img = 1 then imageOver (reloadBlocks s 32 112) else s

/-- An image is refused (R464): the previous one is recalled and started. -/
def imageRefuse (s : State) (code : Nat) : State :=
  let s1 := reloadBlocks (dropOwner s 6) 32 112
  let s2 := evt (set1 (set1 s1 ROOT.REFUSE_CODE 0 code) ROOT.REFUSE_OFFSET 0 0xFFFF) .root 0 6
  imageOver (journalPg s2 0x094 none .root 0 code)

/-- The last block of an accepted image is stored (R464, R468): Leaf starts, and a hold is over. -/
def imageStored (s : State) : State :=
  let s1 := evt (set1 s ROOT.LEAF_VER 0 (imageField s 4)) .root 0 5
  imageOver (journalPg s1 0x093 none .root 0 (imageField s 4))

/-- Verification of a loaded image ends (R463, R464). -/
def imageVerified (s : State) : State :=
  match imageCheck s with
  | some r => imageRefuse s r
  | none =>
    if !engineTakes s then imageRefuse s refPOWER
    else
      let n := (imageField s 0x0C + 4095) / 4096
      (List.range n).foldl (fun t i => rootStore t (32 + i) 2 6) (modRoot (acceptEpoch s) fun u => { u with img := 3 })

/-- PFAIL_N falls during an image load's stores: the load is refused (notes/assumptions 61). -/
def imagePowerFail (s : State) : State := if s.root.img = 3 then imageRefuse s refPOWER else s

/-! ### Stores that end (R459, R464, R480, R488) -/

/-- What the end of a store leads to. -/
def storeThen (s : State) (r : StoreRun) : State :=
  let s1 := if r.job.owners.contains 5 && !pendingOf s 5 then
      (if s.root.stage = 1 then copyProfile s else if s.root.stage = 2 then scheduleCommit s else s)
    else s
  if r.job.owners.contains 6 && s1.root.img == 3 && !pendingOf s1 6 then imageStored s1 else s1

/-- The running store ends and the engine goes on. -/
def storeDone (s : State) (v : Supply) : State :=
  match s.cellar.run with
  | none => s
  | some r => engineStart (storeThen (storeEnds s r v) r) v

/-- The deferred store is given up (R488): a commit or image load of which it is part is refused with STORE. -/
def storeGiveUp (s : State) (v : Supply) : State :=
  match s.cellar.defer, nextJob s.cellar.queue with
  | some _, some j =>
    let s1 := storeAbandon s j v
    let s2 := if j.owners.contains 5 then stopCommit s1 refSTORE else s1
    let s3 := if j.owners.contains 6 && s2.root.img == 3 then imageRefuse s2 refSTORE else s2
    engineStart s3 v
  | _, _ => s

/-! ### Meanings -/

/-- VERIFY (R458) as it acts. -/
def execVerify (s : State) : Host.Outcome State Fault Refusal := .next (verifyCmd s)

/-- COMMIT (R459) as it acts. -/
def execCommit (s : State) : Host.Outcome State Fault Refusal := .next (commitCmd s)

/-- ABORT (R460) as it acts. -/
def execAbort (s : State) : Host.Outcome State Fault Refusal := .next (abortCmd s)

/-- VERIFY_DONE (R458): the verification in progress ends. -/
def execVerifyDone (s : State) : Host.Outcome State Fault Refusal := if pstate s = 1 then .next (endVerify s) else .next s

/-- POLICY_COMMIT (R65, R459): the commit acts in its commit frame and in no other. -/
def execPolicyCommit (s : State) : Host.Outcome State Fault Refusal := .next (commitStep s)

/-- IMAGE_LOAD (R464) as it acts. -/
def execImageLoad (s : State) : Host.Outcome State Fault Refusal := .next (imageLoad s)

/-- IMAGE_ACTIVATE (R464) as it acts. -/
def execImageActivate (s : State) : Host.Outcome State Fault Refusal := .next (imageActivate s)

/-- IMAGE_CANCEL (R464) as it acts. -/
def execImageCancel (s : State) : Host.Outcome State Fault Refusal := .next (imageCancel s)

/-- IMAGE_DONE (R464): the verification of a loaded image ends. -/
def execImageDone (s : State) : Host.Outcome State Fault Refusal :=
  if s.root.img = 2 then .next (imageVerified s) else .next s

/-- LEAF_START (R465). -/
def execLeafStart (s : State) : Host.Outcome State Fault Refusal := .next (leafStart s)

/-- LEAF_RESTART_CMD (R468) as it acts. -/
def execLeafRestartCmd (s : State) : Host.Outcome State Fault Refusal := .next (leafHost s)

/-- LEAF_WDT_EXPIRY (R466): 2000 frames pass without a kick of a running Leaf. -/
def execLeafWdtExpiry (s : State) : Host.Outcome State Fault Refusal :=
  if s.root.kick + 2000 ≤ s.frn then .next (leafFault s 1) else .next s

/-- LEAF_MPU_FAULT (R447). -/
def execLeafMpuFault (s : State) : Host.Outcome State Fault Refusal := .next (leafFault s 2)

/-- LEAF_EXCEPTION (R466). -/
def execLeafException (s : State) : Host.Outcome State Fault Refusal := .next (leafFault s 3)

/-- WDT_KICK (R466). -/
def execWdtKick (s : State) : Host.Outcome State Fault Refusal :=
  if leafRuns s then .next (gateRes (modRoot s fun u => { u with kick := s.frn }) 0) else .next s

/-- RESTART_SELF (Table 14.1): cause SELF. -/
def execRestartSelf (reason : Nat) (s : State) : Host.Outcome State Fault Refusal :=
  if reason < 2 ^ 32 then .next (leafFault s 4) else .refused .illFormed

/-- DEBUG_REQUEST (R469) as it acts. -/
def execDebugRequest (s : State) : Host.Outcome State Fault Refusal := .next (debugAsk s)

/-- DEBUG_REVOKE (R470) as it acts. -/
def execDebugRevoke (s : State) : Host.Outcome State Fault Refusal := .next (debugEnd s 1)

/-- DEBUG_EXPIRY (R470): DURATION has passed. -/
def execDebugExpiry (s : State) : Host.Outcome State Fault Refusal :=
  if s.root.grantEnd.any fun f => decide (f ≤ s.frn) then .next (debugEnd s 0) else .next s

/-- STORE_FAILED (R488): the store still deferred is abandoned. -/
def execStoreFailed (v : Supply) (s : State) : Host.Outcome State Fault Refusal := .next (storeGiveUp s v)

end Sys2Proof.Machine
end

