-- ==== Sys2Proof/Machine/Power.lean ====
section
/-! DEFINITION. Power, hold-up and ovens (R510 to R537): power fail, recovery and shutdown, the measurements of a frame,
the capacitance estimate, VAUX3, warm-up and the heaters. -/

namespace Sys2Proof.Machine

def modPower (s : State) (f : PowerU → PowerU) : State := { s with power := f s.power }

/-- A power fail is declared. -/
def powerFailed (s : State) : Bool := bit1 s PWR.STATUS_PF 0

/-- PFAIL_N is driven low (R517): a power fail, shutdown, or VIN not yet qualified. -/
def pfailLow (s : State) : Bool := powerFailed s || s.phase == .off

/-! ### VIN_AVG and the threshold (R514, R515) -/

/-- Readings in the mean. -/
def avgFrames : Nat := 8000

/-- Drop the oldest reading. -/
def dropOldest : List (Nat × Nat) → List (Nat × Nat)
  | [] => []
  | (v, n) :: r => if n ≤ 1 then r else (v, n - 1) :: r

/-- Add the newest reading. -/
def pushNewest : List (Nat × Nat) → Nat → List (Nat × Nat)
  | [], v => [(v, 1)]
  | [(w, n)], v => if w = v then [(w, n + 1)] else [(w, n), (v, 1)]
  | x :: r, v => x :: pushNewest r v

/-- The mean of the readings, in whole mV. -/
def avgOf (l : List (Nat × Nat)) : Nat :=
  (l.foldl (fun a x => a + x.1 * x.2) 0) / max 1 (l.foldl (fun a x => a + x.2) 0)

/-- Report VIN_AVG and V_PF. -/
def publishAvg (s : State) : State :=
  let a := satTo 0xFFFF (avgOf s.power.avg)
  set1 (set1 s PWR.VIN_AVG 0 a) PWR.V_PF 0 (max 4400 (7 * a / 10))

/-- Seed the mean with a reading. -/
def seedAvg (s : State) (mv : Nat) : State := publishAvg (modPower s fun u => { u with avg := [(mv, avgFrames)] })

/-- VIN_AVG after a reading of a frame. -/
def avgFrame (s : State) (mv : Nat) : State :=
  publishAvg (modPower s fun u => { u with avg := pushNewest (dropOldest u.avg) mv })

/-- Why a VIN reading is a power fail (R515): 1 UNDERVOLT, 2 DROP, 3 OVERVOLT; 0 when it is none. -/
def failCause (s : State) (mv : Nat) : Nat :=
  let a := get1 s PWR.VIN_AVG 0
  if 63000 < mv then 3
  else if 44000 < 7 * a then (if 10 * mv < 7 * a then 2 else 0)
  else if mv < 4400 then 1 else 0

/-- VIN in 250 mV units and hold-up in 200 mV units. -/
def vin250 (mv : Nat) : Nat := satTo 255 (mv / 250)
def hold200 (mv : Nat) : Nat := satTo 255 (mv / 200)

/-! ### HOLDUP_OK and the charger (R523) -/

/-- HOLDUP_OK sets at 23.0 V and clears below 22.0 V; it is raised on setting. -/
def holdupOk (s : State) (mv : Nat) : State :=
  if mv < 22000 then set1 s PWR.STATUS_HOLDUP_OK 0 0
  else if 23000 ≤ mv ∧ get1 s PWR.STATUS_HOLDUP_OK 0 = 0 then evt (set1 s PWR.STATUS_HOLDUP_OK 0 1) .pwr 0 2
  else s

/-- CHARGING reads 1 while the charger raises the voltage. -/
def charging (s : State) (mv : Nat) : State := set1 s PWR.STATUS_CHARGING 0 (b2n (!powerFailed s && decide (mv < 24000)))

/-- The lowest hold-up voltage of a power fail. -/
def holdupMin (s : State) (mv : Nat) : State :=
  if powerFailed s then set1 s PWR.LAST_PF_HOLDUP_MIN 0 (min (get1 s PWR.LAST_PF_HOLDUP_MIN 0) (hold200 mv)) else s

/-! ### Shutdown (R520) -/

/-- A store that the loss of supply cuts leaves its target copy TORN. -/
def tearCopy (s : State) : State :=
  match s.cellar.run with
  | none => s
  | some r =>
    let torn : NvCopy := { block := r.job.block, copy := r.copy, gen := r.gen, wear := r.wear, commit := 0xFFFFFFFF }
    modCellar s fun u => { u with run := none, nv := kvSet u.nv (2 * r.job.block + r.copy) torn }

/-- The module loses its supply: everything but the non-volatile copies ends. -/
def powerOff (s : State) : State :=
  let s1 := tearCopy s
  let s2 := modCellar s1 fun u => { nv := u.nv }
  { s2 with phase := .off, writeQ := [], jrn := {}, i2cHold := none }

/-- When output n stops high at a shutdown: a high phase or pulse that ends within 50 µs finishes, a longer one is cut. -/
def shutFall (s : State) (n : Nat) : Option Rat :=
  match lastFall s n with
  | none => none
  | some x => if x ≤ (s.cyc : Rat) * 51200 + 25600000 then some x else none

/-- The outputs' part of a shutdown: to logic 0, RUN SQ_PF. -/
def outputsShut (s : State) : State :=
  (List.range 10).foldl (fun t n =>
    set1 (modOut t n fun u => { u with active := false, fall := none, left := shutFall t n }) OUT.STATUS_RUN n 5) s

/-- The hold-up node falls below 12 V: outputs to logic 0, then the transceiver, VAUX3 and the processor stop. -/
def shutdown (s : State) : State :=
  let s1 := outputsShut s
  let s2 := set1 (modShelf s1 fun _ => {}) PWR.STATUS_VAUX3_OFF 0 1
  modPower (powerOff s2) fun u => { u with shut := true, reset := false, freed := none }

/-! ### Power fail and recovery (R516, R519) -/

/-- What a declaration records (Table 16.8). -/
def recordFail (s : State) (cause vin holdup : Nat) : State :=
  let s1 := set1 (set1 (set1 s PWR.STATUS_PF 0 1) PWR.STATUS_CAUSE 0 cause) PWR.LAST_PF_FRN 0 s.frn
  let s2 := set1 (set1 s1 PWR.LAST_PF_VIN 0 (vin250 vin)) PWR.LAST_PF_HOLDUP 0 (hold200 holdup)
  let s3 := set1 (set1 s2 PWR.LAST_PF_HOLDUP_MIN 0 (hold200 holdup)) PWR.LAST_PF_CAUSE 0 cause
  set1 (set1 s3 PWR.LAST_PF_RECOVERED 0 0) PWR.LAST_PF_MS 0 0

/-- The data of POWER_FAIL (R537). -/
def failData (s : State) (cause vin holdup : Nat) : Nat :=
  vin250 vin + 2 ^ 8 * vin250 (get1 s PWR.VIN_AVG 0) + 2 ^ 16 * hold200 holdup + 2 ^ 24 * cause

/-- A power fail is declared. With RESET_N low no sequence runs (R522); below 12 V the module shuts down at once. -/
def powerFail (s : State) (cause vin holdup : Nat) : State :=
  let s1 := set1 (set1 (recordFail s cause vin holdup) OSC.STATUS_OVEN_OFF 0 1) PWR.STATUS_CHARGING 0 0
  let s2 := (List.range 2).foldl (fun t n => if portEnabled t n then linkDown t n 3 1 else t) s1
  let s3 := addCnt (evt s2 .pwr 0 0) PWR.PF_CNT 0 0 1
  let s4 := journalPg s3 0x0B0 none .pwr 0 (failData s cause vin holdup)
  let s5 := imagePowerFail (stopCommit (ltAdd s4 1) refPOWER)
  if holdup < 12000 then shutdown s5
  else if s.phase = .held then s5
  else shelfPowerFail (pfSequence (drainAll s5) ⟨vin, holdup⟩)

/-- Whether VIN qualifies for a recovery, the hold-up node never having been below 12 V since the declaration (R519). -/
def vinQualifies (s : State) (mv : Nat) : Bool :=
  decide (60 ≤ get1 s PWR.LAST_PF_HOLDUP_MIN 0) && decide (4600 ≤ mv) && decide (3 * get1 s PWR.VIN_AVG 0 ≤ 4 * mv) && decide (mv ≤ 61000)

/-- A recovery. The ports relock by their own events (R415). -/
def pfRecover (s : State) (vin ms : Nat) : State :=
  let s1 := set1 (set1 (set1 s PWR.STATUS_PF 0 0) PWR.LAST_PF_RECOVERED 0 1) PWR.LAST_PF_MS 0 (satTo 0xFFFF ms)
  let s2 := addCnt (set1 s1 OSC.STATUS_OVEN_OFF 0 0) OSC.OVEN_START_CNT 0 0 1
  let s3 := ltAdd (addCnt (evt (charging (seedAvg s2 vin) (get1 s PWR.HOLDUP 0)) .pwr 0 1) PWR.RECOVER_CNT 0 0 1) 2
  let s4 := journalPg s3 0x0B1 none .pwr 0 (satTo 0xFFFF ms + 2 ^ 16 * get1 s PWR.LAST_PF_HOLDUP_MIN 0)
  engineStart (shelfRecover (cellarResume s4)) ⟨vin, get1 s PWR.HOLDUP 0⟩

/-! ### Ovens (R527 to R529) -/

/-- The saturation current of a heater (Table 16.9). -/
def heaterMax (inner : Bool) : Nat := if inner then 120 else 540

/-- Whether a heater reads at saturation, and whether it reads below 5 mA. The S grade has no inner heater. -/
def heaterSat (s : State) (inner : Bool) : Bool :=
  if inner then Config.gradeH && decide (heaterMax true ≤ get1 s OSC.HEATER_INNER 0)
  else decide (heaterMax false ≤ get1 s OSC.HEATER_OUTER 0)
def heaterIdle (s : State) (inner : Bool) : Bool :=
  if inner then Config.gradeH && decide (get1 s OSC.HEATER_INNER 0 < 5) else decide (get1 s OSC.HEATER_OUTER 0 < 5)

/-- Frames that a condition has held without a break. -/
def runOf (held : Bool) (n : Nat) : Nat := if held then n + 1 else 0

/-- The lengths of time of this chapter, in frames of 125 µs: 1 s, 10 s, 30 s and 600 s. -/
def oneSecond : Nat := 8000
def tenSeconds : Nat := 80000
def regSeconds : Nat := 240000
def warmLimit : Nat := 4800000

/-- Either of a pair of counts has reached a length. -/
def either (x : Nat × Nat) (n : Nat) : Bool := decide (n ≤ x.1) || decide (n ≤ x.2)

/-- Warm-up begins. -/
def warmStart (s : State) : State :=
  set1 (set1 (modPower s fun u => { u with warm := 0 }) OSC.STATUS_WARMUP 0 1) OSC.WARM_S 0 0

/-- Warm-up ends normally. -/
def warmDone (s : State) : State :=
  let s1 := set1 (set1 s OSC.STATUS_WARMUP 0 0) OSC.WARM_LAST 0 (get1 s OSC.WARM_S 0)
  evt (set1 s1 OSC.STATUS_OVEN_FAULT 0 0) .osc 0 0

/-- The oven is declared faulty. -/
def ovenFault (s : State) : State :=
  let s1 := set1 (set1 (set1 s OSC.STATUS_WARMUP 0 0) OSC.WARM_LAST 0 0xFFFF) OSC.STATUS_OVEN_FAULT 0 1
  let s2 := if get1 s OSC.STATUS_OVEN_FAULT 0 = 1 then s1 else degraded s1
  journalPg (evt s2 .osc 0 1) 0x0B8 none .osc 0 (get1 s OSC.HEATER_OUTER 0 + 2 ^ 16 * get1 s OSC.HEATER_INNER 0)

/-! ### The measurements of a frame (R514, R527, R533, R534) -/

/-- Whether a VIN reading lies outside the operating conditions. -/
def vinOutside (mv : Nat) : Bool := decide (mv < 4500) || decide (60000 < mv)

/-- The ovens' part of a frame. -/
def ovenFrame (s : State) (i : FrameIn) : State :=
  let s1 := set1 (set1 s OSC.HEATER_OUTER 0 i.heaterOuter) OSC.HEATER_INNER 0 (if Config.gradeH then i.heaterInner else 0)
  let s2 := set1 (set1 s1 OSC.STATUS_REGULATING 0 (b2n i.regulating)) OSC.STATUS_EXT_ACTIVE 0 (b2n (get1 s FRAME.TB_SRC 0 == 1 || !(i.edges.getD 14 []).isEmpty))
  let hot := fun x => !bit1 s2 OSC.STATUS_WARMUP 0 && heaterSat s2 x
  let s3 := if hot false || hot true then s2 else set1 s2 OSC.STATUS_HEATER_SAT 0 0
  let s4 := if heaterIdle s2 false || heaterIdle s2 true then s3 else set1 s3 OSC.STATUS_HEATER_IDLE 0 0
  let s5 := modPower s4 fun u =>
    { u with warm := u.warm + 1, reg := runOf i.regulating u.reg, unreg := runOf (!i.regulating) u.unreg,
             sat := (runOf (hot false) u.sat.1, runOf (hot true) u.sat.2),
             idle := (runOf (heaterIdle s2 false) u.idle.1, runOf (heaterIdle s2 true) u.idle.2) }
  set1 s5 OSC.WARM_S 0 (satTo 0xFFFF (s5.power.warm / 8000))

/-- The measurements of a frame. -/
def powerFrame (s : State) (i : FrameIn) : State :=
  let s1 := set1 (set1 s PWR.VIN 0 (satTo 0xFFFF i.vinMv)) PWR.HOLDUP 0 (satTo 0xFFFF i.holdupMv)
  let s2 := set1 (set1 s1 PWR.IIN 0 (satTo 0xFFFF i.iinMa)) PWR.PIN 0 (satTo 0xFFFF i.pinMw)
  let s3 := if powerFailed s2 then s2 else avgFrame s2 i.vinMv
  let s4 := charging (holdupOk (holdupMin s3 i.holdupMv) i.holdupMv) i.holdupMv
  let s5 := modPower s4 fun u => { u with range := runOf (vinOutside i.vinMv) u.range }
  ovenFrame (set1 s5 PWR.STATUS_VIN_RANGE 0 (b2n (vinOutside i.vinMv))) i

/-! ### Meanings -/

/-- POWER_FAIL (R515, R516): nothing while one is declared, without supply, or when VIN does not cross. -/
def execPowerFail (vinMv holdupMv : Nat) (s : State) : Host.Outcome State Fault Refusal :=
  let c := failCause s vinMv
  if pfailLow s || c == 0 then .next s else .next (powerFail s c vinMv holdupMv)

/-- VIN_GLITCH (R515). -/
def execVinGlitch (s : State) : Host.Outcome State Fault Refusal :=
  if pfailLow s then .next s else .next (addCnt s PWR.GLITCH_CNT 0 0 1)

/-- PF_RECOVERED (R519). -/
def execPfRecovered (vinMv msLow : Nat) (s : State) : Host.Outcome State Fault Refusal :=
  if powerFailed s && s.phase != .off && vinQualifies s vinMv then .next (pfRecover s vinMv msLow) else .next s

/-- SHUTDOWN (R520). -/
def execShutdown (s : State) : Host.Outcome State Fault Refusal :=
  if powerFailed s && s.phase != .off then .next (shutdown s) else .next s

/-- HOLDUP_OK (R523). -/
def execHoldupOk (holdupMv : Nat) (s : State) : Host.Outcome State Fault Refusal :=
  if s.phase = .off then .next s else .next (holdupOk (holdupMin s holdupMv) holdupMv)

/-- CAP_ESTIMATE (R526): `us` is the time from 18.0 V to 22.0 V. -/
def execCapEstimate (us : Nat) (s : State) : Host.Outcome State Fault Refusal :=
  if pfailLow s then .next s
  else
    let c := satTo 0xFFFF (us / 50)
    .next (evtIf (decide (c < 640)) (set1 (set1 s PWR.CAP_EST 0 c) PWR.RESERVE 0 (satTo 0xFFFF (63 * c / 1000))) .pwr 0 3)

/-- VAUX3_OC (R511). -/
def execVaux3Oc (s : State) : Host.Outcome State Fault Refusal :=
  if s.phase = .off ∨ get1 s PWR.STATUS_VAUX3_OFF 0 = 1 then .next s else .next (evt (set1 s PWR.STATUS_VAUX3_OFF 0 1) .pwr 0 5)

/-- VAUX3_RETRY (R511): the supply stays on unless the load still exceeds 150 mA. -/
def execVaux3Retry (loadMa : Nat) (s : State) : Host.Outcome State Fault Refusal :=
  if s.phase = .off ∨ get1 s PWR.STATUS_VAUX3_OFF 0 = 0 then .next s
  else if 150 < loadMa then .next (evt s .pwr 0 5)
  else .next (set1 s PWR.STATUS_VAUX3_OFF 0 0)

/-- VIN_RANGE (R533): VIN still outside after 1 s outside. -/
def execVinRange (vinMv : Nat) (s : State) : Host.Outcome State Fault Refusal :=
  if s.phase != .off && vinOutside vinMv && decide (oneSecond ≤ s.power.range) then .next (evt (set1 s PWR.STATUS_VIN_RANGE 0 1) .pwr 0 4) else .next s

/-- WARMUP_DONE (R527): REGULATING has read 1 for 30 s. -/
def execWarmupDone (s : State) : Host.Outcome State Fault Refusal :=
  if bit1 s OSC.STATUS_WARMUP 0 && decide (regSeconds ≤ s.power.reg) then .next (warmDone s) else .next s

/-- OVEN_FAULT (R527): 600 s after the heaters start. -/
def execOvenFault (s : State) : Host.Outcome State Fault Refusal :=
  if bit1 s OSC.STATUS_WARMUP 0 && s.phase != .off && decide (warmLimit ≤ s.power.warm) then .next (ovenFault s) else .next s

/-- WARMUP_RESTART (R528): REGULATING has read 0 for more than 1 s; not while a power fail keeps the heaters stopped. -/
def execWarmupRestart (s : State) : Host.Outcome State Fault Refusal :=
  if s.phase != .off && !bit1 s OSC.STATUS_WARMUP 0 && decide (oneSecond < s.power.unreg) && !bit1 s OSC.STATUS_OVEN_OFF 0 then
    .next (warmStart s)
  else .next s

/-- HEATER_SAT (R529): outside warm-up a heater has been at its saturation current for 10 s. -/
def execHeaterSat (s : State) : Host.Outcome State Fault Refusal :=
  if !bit1 s OSC.STATUS_WARMUP 0 && either s.power.sat tenSeconds then .next (evt (set1 s OSC.STATUS_HEATER_SAT 0 1) .osc 0 2) else .next s

/-- HEATER_IDLE (R529): a heater has been below 5 mA for 10 s. -/
def execHeaterIdle (s : State) : Host.Outcome State Fault Refusal :=
  if either s.power.idle tenSeconds then .next (evt (set1 s OSC.STATUS_HEATER_IDLE 0 1) .osc 0 3) else .next s

end Sys2Proof.Machine
end

