-- ==== Sys2Proof/Machine/Start.lean ====
section
/-! DEFINITION. Start-up and resets (R461, R538 to R553): power-on, reset through RESET_N, the policy that a start applies,
boundary 0, soft reset and processor reset. -/

namespace Sys2Proof.Machine

/-! ### The policy of a start (R461, R552) -/

/-- The policy of a stored profile that passes checks 1 to 3 and 5 of R456, or none (R461). -/
def storedPolicy (s : State) (a : Nat) : Option Policy :=
  if (checkSigned s a none).isSome then none else some (profPolicy s a)

/-- A policy is taken up before the first frame. -/
def takePolicy (s : State) (q : Policy) (rom : Bool) : State :=
  let s1 := set1 (set1 { s with pol := q } ROOT.POL_GEN 0 q.gen) ROOT.STATUS_ROM_PROFILE 0 (b2n rom)
  let s2 := (List.range 12).foldl (fun t c => set1 t CHAN.POL_GEN c q.gen) s1
  if rom then degraded s2 else s2

/-- The staging profile of a commit that power loss cut short is applied, copied and stored, and its mark cleared. -/
def finishCommit (s : State) (q : Policy) : State :=
  let n := profBlocks s
  let rot := (profDraft s stagingAddr).1.rot
  let s1 := commitKey s (profKey s stagingAddr) rot
  let s2 := putSrams s1 activeAddr (memBytes s1 stagingAddr (4096 * n))
  let s3 := (List.range n).foldl (fun t i => rootStore t (16 + i) 2 8) (putSramLE s2 (activeAddr + 0x7C) 0 4)
  takePolicy (rootStore (unmark s3) 24 2 8) q false

/-- Step 4 of a start (R461). -/
def startPolicy (s : State) : State :=
  match storedPolicy s activeAddr with
  | some q => takePolicy s q false
  | none =>
    match (if marked s then storedPolicy (unmark s) stagingAddr else none) with
    | some q => finishCommit s q
    | none => takePolicy s romPolicy true

/-- Fields that take a start value from policy (R599). -/
def startValues (s : State) : State :=
  [Page.dpll, .apll, .out].foldl (fun t p =>
    (List.range (pageCount p)).foldl (fun u n => resetFields u ((pageAll p).filter takesStart) n) t) s

/-- What every start sets up before the ports open (R540 to R543): policy, key and epoch status, Leaf not yet running,
instances, shelf role, strap report, Host halves. -/
def bootUp (s : State) (cause : Nat) : State :=
  let s0 := startValues (startPolicy (publishKey (set1 s SYS.RESET 0 cause)))
  let s1 := (List.range 4).foldl publishGains s0
  let s2 := set1 (set1 s1 ROOT.LEAF_EPOCH 0 (leafEpoch s1)) ROOT.STATUS_LEAF 0 1
  let s3 := (List.range 4).foldl instReset (set1 s2 DBG.STATUS_STRAP 0 (b2n s2.straps.debug))
  shelfReset (tableReset s3)

/-! ### Power-on reset (R540, Table 17.3) -/

/-- CAL_DEFAULT when a calibration block was lost (R553). -/
def calDefault (s : State) : State :=
  if s.lanes.all fun l => l.known then s else degraded (set1 s SYS.STATUS_CAL_DEFAULT 0 1)

/-- The supply and the ovens at power-on: a cold start. -/
def powerInit (s : State) (i : StartIn) : State :=
  let s1 := set1 (set1 s PWR.VIN 0 (satTo 0xFFFF i.vinMv)) PWR.HOLDUP 0 (satTo 0xFFFF i.holdupMv)
  addCnt (charging (holdupOk (seedAvg s1 i.vinMv) i.holdupMv) i.holdupMv) OSC.OVEN_START_CNT 0 0 1

/-- What a power-on reset finds: the non-volatile copies, and nothing else. -/
def coldState (s : State) (i : StartIn) : State :=
  { pending := s.pending, freeIx := s.freeIx, phase := .waiting, straps := i.straps, jrOn := i.jitterRef, vio := s.vio,
    cellar := { nv := s.cellar.nv } }

/-- FRN_RESTART is the first entry of the run: what the recall journals follows it (R572). -/
def firstEntry (s : State) : State :=
  let q := s.jrn.queue
  q.foldl enqueue (frnRestart { s with jrn := { s.jrn with queue := [] } })

/-- Power-on reset, up to the open ports. -/
def powerOn (s : State) (i : StartIn) : State :=
  let s1 := calDefault (bboxRecall (cellarRecall (powerInit (coldState s i) i)))
  drainAll (firstEntry (bootUp s1 (b2n s.power.shut)))

/-! ### Reset through RESET_N (R522, R545) -/

/-- Fields that a reset through RESET_N keeps (Table 17.3): supply measurements, warm-up, lane of the record. -/
def resetKept : List Fld :=
  ((PWR.fields ++ OSC.fields).filter fun f => f.acc == .ro) ++
  [PWR.PF_CNT, BBOX.WR_SEQ, BBOX.WR_IDX, BBOX.STALE, SYS.STATUS_CAL_DEFAULT]

/-- RESET_N is low (R539, R545): no frame, outputs and ports released, Root stopped; a block store that runs goes on. -/
def resetHold (s : State) : State :=
  let s1 := (List.range 10).foldl (fun t n => modOut t n fun u => { u with active := false, fall := none, left := none }) s
  let s2 := modCellar s1 fun u =>
    { u with queue := [], wait := [], defer := none, parked := [], cmds := List.replicate 4 (0, 0), ringFrn := none, shut := false,
             run := u.run.map fun (r : StoreRun) =>
               (let j := r.job
                { r with job := { j with owners := [] } }) }
  let s3 := set1 (set1 (set1 s2 ROOT.STATUS_LEAF 0 1) ROOT.STATUS_PSTATE 0 0) SYS.STATUS_NO_TIMEBASE 0 1
  { s3 with phase := .held, writeQ := [], snapReq := [], snapAll := [], gate := {}, root := {}, shelf := { mute := true },
            spi := {}, i2c := {}, i2cHold := none, power := { s3.power with reset := false, freed := none } }

/-- The state that a release starts from: what Table 17.3 keeps, everything else as at power-on. -/
def warmState (s : State) (straps : Straps) : State :=
  let known := get1 s SYS.STATUS_CAL_DEFAULT 0 == 0
  let s1 : State :=
    { pending := s.pending, freeIx := s.freeIx, phase := .waiting, straps := straps, jrOn := s.jrOn, vio := s.vio,
      mem := s.mem.filter (fun c => decide (0x800000 ≤ c.1)), cellar := s.cellar, power := s.power,
      lanes := (lanesReset s known).lanes }
  resetKept.foldl (fun t f => set1 t f 0 (get1 s f 0)) (set1 s1 CELLAR.STATUS_BUSY 0 (b2n s.cellar.run.isSome))

/-- The losses of every frame are held (R565). -/
def holdAllLost : List (Nat × Nat) → State → State
  | [], s => s
  | _ :: r, s => holdAllLost r (holdLost s)

/-- RESET_N is released: entries that wait are written, then the steps of a start but rails and recall. -/
def resetRelease (s : State) (straps : Straps) : State :=
  let s1 := drainAll (holdAllLost s.jrn.lost s)
  drainAll (frnRestart (bootUp (warmState s1 straps) 2))

/-- A reset that waited for PF_DONE acts (R522). -/
def resetAfterPf (s : State) : State :=
  if s.power.reset && !bit1 s CELLAR.STATUS_PF_SEQ 0 then
    match s.power.freed with
    | some st => resetRelease (resetHold s) st
    | none => resetHold s
  else s

/-! ### Boundary 0 (R542) -/

/-- A domain starts with its partition. -/
def openDomain (s : State) (d : Nat) : State :=
  synthStart (publishGains (utcPolicy (timeStart (startDom s d) d true) d) d) d

/-- The tick generator starts on a source (0 OCXO, 1 EXTTB_IN): frame 0 opens. -/
def startFrames (s : State) (src : Nat) : State :=
  let s1 := set1 (set1 { s with phase := .running, frn := 0, cyc := 0 } FRAME.TB_SRC 0 src) SYS.STATUS_NO_TIMEBASE 0 0
  let s2 := (List.range 4).foldl (fun t d => if isOpen t d then t else set1 t DPLL.STATUS_STATE d 7) s1
  (List.range 2).foldl txclkJudge (((List.range 4).filter (isOpen s2)).foldl openDomain (takeFormats s2))

/-- TB_SWITCH is raised and journalled (R541, R554): cause 0 start-up, 1 loss. -/
def tbSwitched (s : State) (src cause : Nat) : State :=
  journalPg (evt (markFallback (set1 s FRAME.TB_SRC 0 src)) .sys 0 1) 0x004 none .frame 0 (src + 2 * cause)

/-! ### Soft reset and processor reset (R546, R547) -/

/-- SYS records a reset. -/
def recordSys (s : State) (cause : Nat) : State := set1 (set1 s SYS.RESET 0 cause) SYS.RESET_FRN 0 s.frn

/-- A verification in progress, or its result, ends; a commit goes on. -/
def dropVerify (s : State) : State :=
  if pstate s = 3 then s
  else set1 (set1 (modRoot s fun u => { u with thenCommit := false }) ROOT.STATUS_PSTATE 0 0) ROOT.STAGE_GEN 0 0

/-- Whether a commit has reset a partition in this frame: a reset of the same boundary adds no second one (Table 1.3). -/
def commitReset (s : State) (p : Nat) : Bool :=
  get1 s PART.LAST_RESET p == 2 && get1 s PART.RESET_FRN p == s.frn % 2 ^ 32

/-- A soft reset at step 3 of its boundary. -/
def softReset (s : State) : State :=
  let s1 := journalPg (addCnt (recordSys s 3) SYS.SOFT_RESET_CNT 0 0 1) 0x002 none .sys 0 0
  let s2 := ((List.range 4).filter (isOpen s1)).foldl (fun t p =>
    if commitReset t p then set1 t PART.LAST_RESET p 3 else partReset t p 3) s1
  let s3 := ((List.range 12).filter fun c => !isOpen s2 (chanOwner s2 c)).foldl hostHalfReset s2
  leafHost (sharedReset (dropVerify (debugEnd s3 3)))

/-- Leaf is started again by a processor reset: it does not count toward R468. -/
def leafAgain (s : State) : State :=
  match leafState s with
  | 4 => s
  | 3 => set1 (shelfRejoin (leafRestart s 0)) ROOT.STATUS_LEAF 0 3
  | _ => leafRestart s 0

/-- A processor reset: Root restarts while the hardware runs. -/
def procReset (s : State) : State :=
  let s1 := addCnt (evt (recordSys s 4) .sys 0 3) SYS.PROC_RESET_CNT 0 0 1
  let s2 := journalPg s1 0x003 none .sys 0 0
  let s3 := if pstate s2 = 1 then refuseProfile s2 refABORTED 0xFFFF else s2
  let s4 := if get1 s3 ROOT.STATUS_COMMIT_PEND 0 = 1 then s3 else stopCommit s3 refABORTED
  modRoot (shelfReset (leafAgain (debugEnd s4 3))) fun u => { u with down := some (s.frn + 400) }

/-! ### Meanings -/

/-- POWER_ON_RESET (R521, R540): it begins when VIN qualifies with the thresholds 4.6 V and 61 V. -/
def execPowerOnReset (i : StartIn) (s : State) : Host.Outcome State Fault Refusal :=
  if s.phase = .off ∧ 4600 ≤ i.vinMv ∧ i.vinMv ≤ 61000 then .next (powerOn s i) else .next s

/-- RESET_N_FALL (R522, R545): during the power-fail sequence it waits for PF_DONE. -/
def execResetNFall (s : State) : Host.Outcome State Fault Refusal :=
  if s.phase = .off ∨ s.phase = .held then .next s
  else if bit1 s CELLAR.STATUS_PF_SEQ 0 then .next (modPower s fun u => { u with reset := true, freed := none })
  else .next (resetHold s)

/-- RESET_N_RELEASE (R545, R591): the straps are sampled. -/
def execResetNRelease (straps : Straps) (s : State) : Host.Outcome State Fault Refusal :=
  if s.phase = .held then .next (resetRelease s straps)
  else if s.power.reset then .next (modPower s fun u => { u with freed := some straps })
  else .next s

/-- PROC_RESET (R547). -/
def execProcReset (s : State) : Host.Outcome State Fault Refusal :=
  if s.phase = .off ∨ s.phase = .held then .next s else .next (procReset s)

/-- SOFT_RESET (R546) as it acts: a write with another KEY is ignored. -/
def execSoftReset (key : Nat) (s : State) : Host.Outcome State Fault Refusal :=
  if key < 2 ^ 16 then (if key = 0x5EED then .next (softReset s) else .next s) else .refused .illFormed

end Sys2Proof.Machine
end

