-- ==== Sys2Proof/Machine/Flags.lean ====
section
/-! DEFINITION. Flags and fields that the module computes when they are read: interrupts and pins (R103 to R106, R305,
R517), the status word (R113), and the register fields that show state held elsewhere. -/

namespace Sys2Proof.Machine

/-! ### Interrupts and pins -/

/-- A page is pending (R103). -/
def pagePending (s : State) (p : Page) (n : Nat) : Bool := get1 s (HDR.EVT p) n &&& get1 s (HDR.EVT_EN p) n != 0

/-- Whether a page is pending and owned by a partition. -/
def pendingFor (s : State) (q : Nat) (p : Page) (n : Nat) : Bool := ownerOf s p n == q && pagePending s p n

/-- A partition is pending (R103). -/
def partPending (s : State) (q : Nat) : Bool := allPageInsts.any fun x => pendingFor s q x.1 x.2

/-- Whether the host ports and pads work: not without supply, not while RESET_N is low, not without VIO (R89, R106, R588). -/
def portsLive (s : State) : Bool := s.vio && s.phase != .off && s.phase != .held

/-- RESET_N is low: the reset it makes holds, or waits for PF_DONE (R522, R545). -/
def resetLow (s : State) : Bool := s.phase == .held || (s.power.reset && s.power.freed.isNone)

/-- IRQA_N (false) or IRQB_N (true) is driven low (R104): released while RESET_N is low (R106). -/
def irqLow (s : State) (b : Bool) : Bool :=
  portsLive s && !resetLow s && (List.range 4).any fun q => polVal s.pol PART.PORTS_IRQ q 0 0 == b2n b && partPending s q

/-- The code on ST2 to ST0 (R305, R590): 7 where the pads are not driven. -/
def stPads (s : State) : Nat := if portsLive s then stCode s else 7

/-- What a leg of an output is at an instant: undriven, at a level, or following the output's signal or its complement. -/
inductive Leg where
  | hiZ
  | low
  | high
  | signal
  | complement
  deriving DecidableEq, Repr

/-- A leg by its setting (Table 10.2): 0 Hi-Z, 1 low, 2 true, 3 complement; logic 0 while the output emits nothing (R342). -/
def legOf (emits : Bool) (c : Nat) : Leg :=
  if c = 0 then .hiZ else if c = 1 then .low else if c = 2 then (if emits then .signal else .low)
  else if emits then .complement else .high

/-- The P and N legs of an output (R342, R345, R539): both at high impedance until the host ports open, at logic 0 after a
shutdown (R520). A commit that moves an output and a shutdown let the high phase in progress finish as R42 and R520 say. -/
def outLegs (s : State) (n : Nat) : Leg × Leg :=
  let u := outOf s n
  let emits := u.active || u.left.isSome
  if (s.phase = .off ∧ s.power.shut = false) ∨ s.phase = .held ∨ u.fmt = 0 then (.hiZ, .hiZ)
  else if u.fmt = 1 then (.low, .low)
  else if u.fmt = 5 then (legOf emits u.psel, legOf emits u.nsel)
  else (legOf emits 2, legOf emits 3)

/-- FRN bit `i` words: low and high. -/
def frnLo (s : State) : Nat := s.frn % 2 ^ 32
def frnHi (s : State) : Nat := s.frn / 2 ^ 32 % 2 ^ 32

/-! ### The status word (Table 3.6) -/

/-- The status word of a port. -/
def statusWord (s : State) (p : Port) : Nat :=
  let u := portOf s p
  0xA * 2 ^ 28 + u.result % 16 * 2 ^ 24 + b2n u.denied * 2 ^ 23 + get1 s CELLAR.STATUS_BUSY 0 * 2 ^ 22 + b2n u.crcErr * 2 ^ 21 +
  b2n s.straps.crc * 2 ^ 20 + b2n (irqLow s false) * 2 ^ 19 + b2n (irqLow s true) * 2 ^ 18 + s.frn % 2 * 2 ^ 17 +
  u.txn % 256 * 2 ^ 8 + b2n u.late * 2 ^ 7

/-! ### Views of fields -/

/-- Bits from a list, the first lowest. -/
def packBits (l : List Bool) : Nat := l.foldr (fun b a => b2n b + 2 * a) 0

/-- Groups of `w` bits from a list, the first lowest. -/
def packW (w : Nat) (l : List Nat) : Nat := l.foldr (fun v a => v % 2 ^ w + 2 ^ w * a) 0

/-- The page header (Table 3.11). No record makes a whole page LK, so LOCKED_BY_POLICY reads 0. -/
def viewHdr (s : State) (f : Fld) (n : Nat) : Option Nat :=
  let p := f.page
  if f = HDR.TYPE p then some (pageType p)
  else if f = HDR.INSTANCE p then some n
  else if f = HDR.OWNER p then some (ownerOf s p n)
  else if f = HDR.LOCKED p then some 0
  else if f = HDR.SAT p then some (b2n (pageSat s p n))
  else if f = HDR.SNAP_PENDING p then some (b2n (!s.snapAll.isEmpty || (kvGet s.snapReq (pageBase p n)).isSome))
  else none

/-- The channel entry's lane: 0x1F for none. -/
def chanLane (s : State) (c : Nat) : Nat := if c < 10 then (laneFor s c).getD 0x1F else 0x1F

/-- The Policy half (Table 4.2). -/
def viewChan (s : State) (f : Fld) (n : Nat) : Option Nat :=
  if f = CHAN.POL_ID_CHAN then some n
  else if f = CHAN.POL_ID_KIND then some (if n < 8 then 0 else if n < 10 then 1 else if n < 12 then 2 else 0xF)
  else if f = CHAN.LANE then some (chanLane s n)
  else if f = CHAN.SPARED then some (b2n (decide (n < 10) && chanLane s n != 0x1F && chanLane s n != n))
  else none

/-- A channel has no lane; SELF or EXTTB has none (Table 17.7). -/
def laneLost (s : State) : Bool := (List.range 10).any fun c => (laneFor s c).isNone
def funcLost (s : State) : Bool := (laneFor s 14).isNone || (laneFor s 15).isNone

/-- The SYS page (Table 17.7). -/
def viewSys (s : State) (f : Fld) : Option Nat :=
  if f = SYS.STATUS_LANE_SPARED then some (b2n (laneSpared s))
  else if f = SYS.STATUS_ROM_PROFILE then some (get1 s ROOT.STATUS_ROM_PROFILE 0)
  else if f = SYS.STATUS_ROOT_FLOOR then some (b2n (rootFloor s))
  else if f = SYS.STATUS_OVEN_FAULT then some (get1 s OSC.STATUS_OVEN_FAULT 0)
  else if f = SYS.STATUS_LANE_LOST then some (b2n (laneLost s))
  else if f = SYS.STATUS_FUNC_LOST then some (b2n (funcLost s))
  else if f = SYS.FRN_LO then some (frnLo s)
  else if f = SYS.FRN_HI then some (frnHi s)
  else if f = SYS.ID_GRADE then some (b2n Config.gradeH)
  else if f = SYS.ID_HWREV then some Config.hwRev.toNat
  else if f = SYS.SERIAL_LO then some (Config.serial.toNat % 2 ^ 32)
  else if f = SYS.SERIAL_HI then some (Config.serial.toNat / 2 ^ 32)
  else none

/-- The shared pages in the order of PEND_B (Table 17.8). -/
def sharedPages : List (Page × Nat) :=
  [(.sys, 0), (.frame, 0), (.rows, 0), (.harv, 0), (.sel, 0), (.eth, 0), (.eth, 1), (.ptpts, 0), (.ptpts, 1), (.shelf, 0),
   (.root, 0), (.cellar, 0), (.bbox, 0), (.pwr, 0), (.osc, 0), (.dbg, 0)]

/-- The pages of a domain in the order of PEND_A and PEND_B. -/
def ownPages : List Page := [.part, .dpll, .apll, .time]

/-- The pages of the closed partitions in the order of PEND_B.CLOSED. -/
def closedPend (s : State) : List Bool :=
  [1, 2, 3].flatMap fun q => ownPages.map fun p => !isOpen s q && pagePending s p q

/-- The PART page (Table 17.8). -/
def viewPart (s : State) (f : Fld) (n : Nat) : Option Nat :=
  if f = PART.STATUS_OPEN then some (b2n (isOpen s n))
  else if f = PART.PEND_A_LANE then some (packBits ((List.range 18).map fun k => pendingFor s n .lane k))
  else if f = PART.PEND_A_OUT then some (packBits ((List.range 10).map fun k => pendingFor s n .out k))
  else if f = PART.PEND_A_OWN then some (packBits (ownPages.map fun p => pendingFor s n p n))
  else if f = PART.PEND_B_SHARED then some (if n = 0 then packBits (sharedPages.map fun x => pagePending s x.1 x.2) else 0)
  else if f = PART.PEND_B_CLOSED then some (if n = 0 then packBits (closedPend s) else 0)
  else if f = PART.CHANS_OWN then some (packBits ((List.range 12).map fun c => chanOwner s c == n))
  else if f = PART.PORTS_OUTS then some (packBits ((List.range 10).map fun k => outOwner s k == n))
  else if f = PART.CHANS_GRANT then some (packBits ((List.range 12).map fun c => bitOf (polVal s.pol CHAN.GRANT c 0 0) n))
  else none

/-- The stage in progress (Table 2.1): 0 the boundary, 1 to 6, 7 the quiet interval. -/
def stageAt (cyc : Nat) : Nat :=
  if cyc < 20 then 0 else if cyc < 60 then 1 else if cyc < 720 then 2 else if cyc < 800 then 3
  else if cyc < 860 then 4 else if cyc < 900 then 5 else if cyc < 1100 then 6 else 7

/-- The FRAME page (Table 2.4). POS reads 0 where no frame runs, after TB_LOST too (DESIGN CHOICE, notes/assumptions 5). -/
def viewFrame (s : State) (f : Fld) : Option Nat :=
  if f = FRAME.FRN_LO then some (frnLo s)
  else if f = FRAME.FRN_HI then some (frnHi s)
  else if f = FRAME.POS_TB_CYCLE then some (if s.phase = .running then s.cyc else 0)
  else if f = FRAME.POS_STAGE then some (if s.phase = .running then stageAt s.cyc else 0)
  else none

/-- The LANE page (R175). -/
def viewLane (s : State) (f : Fld) (n : Nat) : Option Nat :=
  let u := (laneOf s n).func
  if f = LANE.MAP_FUNC then some ((u.map funcCode).getD 0x1F)
  else if f = LANE.MAP_HOME then some (u.getD n)
  else if f = LANE.MAP_MOVED then some (b2n (u.isSome && u != some n))
  else none

/-- A counter of a ring's block is saturated. -/
def ringSat (s : State) (p : Nat) : Bool :=
  [HARV.DROP_CNT, HARV.STAGE_DROP_CNT, HARV.REC_CNT].any fun f => getF s f 0 p 0 == cntMax

/-- The HARV page (Table 7.4). -/
def viewHarv (s : State) (f : Fld) (k : Nat) : Option Nat :=
  if f = HARV.FILL_FILL then some (ringFill s k)
  else if f = HARV.LAST_DROP_RING_SAT then some (b2n (ringSat s k))
  else none

/-- The verdict code of a pair (Table 8.9): 0xF for what is no candidate. -/
def verdictOf (s : State) (d c : Nat) : Nat := if isCand s d c then (pairOf s d c).reason else 0xF

/-- The rank that the SEL page shows of a channel: the one in effect at the end of the latest stage 3 (R282). -/
def rankShown (s : State) (c : Nat) : Nat := getF s SEL.CHAN_QL_RANK 0 c 0

/-- The SEL page (Table 8.8). -/
def viewSel (s : State) (f : Fld) (k j : Nat) : Option Nat :=
  if f = SEL.CHAN_QL_SRC then some (qlSrc s k)
  else if f = SEL.DPOL_SWITCH then some (b2n (slewed s k))
  else if f = SEL.CAND then some (packBits ((List.range 12).map fun c => isCand s k c))
  else if f = SEL.VERDICT_LO then some (packW 4 ((List.range 8).map (verdictOf s k)))
  else if f = SEL.VERDICT_HI then some (packW 4 (([8, 9, 10, 11] : List Nat).map (verdictOf s k)))
  else if f = SEL.RANK_LO then some (packW 4 ((List.range 8).map (rankShown s)))
  else if f = SEL.RANK_HI then some (packW 4 (([8, 9, 10, 11] : List Nat).map (rankShown s)))
  else if f = SEL.TIMER_LEFT then some (pairOf s k j).timer
  else if f = SEL.TIMER_KIND then some (pairOf s k j).kind
  else none

/-- The DPLL page (Table 9.6). -/
def viewDpll (s : State) (f : Fld) (n : Nat) : Option Nat :=
  if f = DPLL.STATUS_STATE then some (domState s n)
  else if f = DPLL.AGEING then some (ageingOf s)
  else none

/-- The states of the copies of the inspected block (Table 15.7). -/
def viewInspect (s : State) (f : Fld) : Option Nat :=
  let b := get1 s CELLAR.INSPECT_SEL 0
  if f = CELLAR.INSPECT_STATE_STATE_A then some (copyState s b 0)
  else if f = CELLAR.INSPECT_STATE_STATE_B then some (copyState s b 1)
  else if f = CELLAR.INSPECT_STATE_WINNER then some ((winner s b).getD 0)
  else if f = CELLAR.INSPECT_STATE_LOST then some (b2n (winner s b).isNone)
  else if f = CELLAR.INSPECT_STATE_DIRTY then some (b2n (s.cellar.dirty.contains b))
  else if f = CELLAR.INSPECT_STATE_CLASS then
    some (if 208 ≤ b ∧ b < 224 then 1 else if b = 15 ∨ (224 ≤ b ∧ b < 240) then 2 else 0)
  else if f = CELLAR.INSPECT_GEN_A then some (copyGen s b 0)
  else if f = CELLAR.INSPECT_GEN_B then some (copyGen s b 1)
  else if f = CELLAR.INSPECT_WEAR_A then some (copyWear s b 0)
  else if f = CELLAR.INSPECT_WEAR_B then some (copyWear s b 1)
  else none

/-- The lifetime registers, in order (Table 15.7). -/
def ltFields : List Fld :=
  [CELLAR.LT_POWER_UPS, CELLAR.LT_POWER_FAILS, CELLAR.LT_PF_RECOVERED, CELLAR.LT_STORES, CELLAR.LT_TORN, CELLAR.LT_LOST,
   CELLAR.LT_REFRESH, CELLAR.LT_STORE_FAILED]

/-- The CELLAR page (Table 15.7). -/
def viewCellar (s : State) (f : Fld) : Option Nat :=
  if f = CELLAR.QUEUE_DEPTH then some (satTo 255 s.cellar.queue.length)
  else match (List.range 8).find? fun i => ltFields.getD i CELLAR.QUEUE_DEPTH == f with
    | some i => some (ltGet s i)
    | none => viewInspect s f

/-- The BBOX page (Table 18.5). -/
def viewBbox (s : State) (f : Fld) : Option Nat :=
  if f = BBOX.UNREAD then some (unread s)
  else if f = BBOX.QUEUE then some s.jrn.queue.length
  else none

/-- Seconds left of the debug grant (R470). -/
def grantLeft (s : State) : Nat := match s.root.grantEnd with
  | some e => (e - s.frn + 7999) / 8000
  | none => 0

/-- The RO fields of an instance block with EN 0 read their reset values (R397). -/
def viewPtpts (s : State) (f : Fld) (n p : Nat) : Option Nat :=
  if getF s PTPTS.CFG_EN n p 0 = 0 ∧ (instRo ++ [PTPTS.STATE_PORT, PTPTS.STATE_CLOSED, PTPTS.STATE_CAUSE]).contains f then some f.reset
  else none

/-- The other pages. -/
def viewMisc (s : State) (f : Fld) (n : Nat) : Option Nat :=
  if f = ROOT.ROOT_VER then some Config.rootVer.toNat
  else if f = DBG.GRANT_LEFT then some (grantLeft s)
  else if f = OUT.SRC then some (outOwner s n)
  else none

/-- What a field shows that no cell holds. -/
def viewF (s : State) (f : Fld) (n k j : Nat) : Option Nat :=
  match (if f.page = .chan then none else viewHdr s f n) with
  | some v => some v
  | none =>
    match f.page with
    | .chan => viewChan s f n
    | .sys => viewSys s f
    | .part => viewPart s f n
    | .frame => viewFrame s f
    | .lane => viewLane s f n
    | .harv => viewHarv s f k
    | .sel => viewSel s f k j
    | .dpll => viewDpll s f n
    | .cellar => viewCellar s f
    | .bbox => viewBbox s f
    | .ptpts => viewPtpts s f n k
    | _ => viewMisc s f n

/-- The live value of a field: computed, or its cell (RS fields: the live cell that snapshots copy). -/
def liveF (s : State) (x : FldAt) : Nat :=
  match viewF s x.fld x.n x.k x.j with
  | some v => v % 2 ^ x.fld.width
  | none => getF s x.fld x.n x.k x.j

end Sys2Proof.Machine
end

