-- ==== Sys2Proof/Machine/Reads.lean ====
section
/-! DEFINITION. Reads (R28, R57, R61, R71, R87, R91 to R93, R97 to R99, R222, R225 to R227, R246, R281, R358, R417, R506): what
a word address reads as for a tag, the shadows, remote reads of the shelf bus (R429) and of Leaf (Table 14.1). -/

namespace Sys2Proof.Machine

/-! ### Rights -/

/-- Whether an offset lies in the part of a page that is partition `q`'s own. -/
def inOwn (off base stride q : Nat) : Bool := decide (base + stride * q ≤ off) && decide (off < base + stride * (q + 1))

/-- The registers of a shared page that count as partition `q`'s own for reading. -/
def ownPart (s : State) (q : Nat) (p : Page) (off : Nat) : Bool :=
  match p with
  | .frame => off == 0x48 || off == 0x78 || off == 0x54 + 4 * q || off == 0x64 + 4 * q
  | .rows =>
    off == 0x40 || off == 0x44 || off == 0x48 || inOwn off 0x80 0x20 q || inOwn off 0x100 0x40 q ||
    (decide (0x400 ≤ off) && ownsRow s q ((off - 0x400) / 8))
  | .harv => inOwn off 0x80 0x20 q
  | .sel =>
    inOwn off 0x200 0x80 q ||
    (decide (0x40 ≤ off) && decide (off < 0x100) && chanOwner s ((off - 0x40) / 4 % 12) == q)
  | .ptpts => inOwn off 0x80 0x40 q || inOwn off 0x200 0x40 q
  | .cellar => inOwn off 0x80 0x20 q
  | _ => false

/-- Whether partition `q` may read a register (R28): its own pages and SYS, and its own part of a shared page. -/
def pageReadOk (s : State) (q : Nat) (p : Page) (n off : Nat) : Bool :=
  q == 0 || p == .sys || ownerOf s p n == q || ownPart s q p off

/-- Whether a Cellar block belongs to partition `q`'s areas (R18). -/
def ownArea (q b : Nat) : Bool :=
  (decide (176 + 8 * q ≤ b) && decide (b < 184 + 8 * q)) || (decide (240 + 4 * q ≤ b) && decide (b < 244 + 4 * q))

/-- Whether the debug window shows a word to a partition (R225): the grant covers it, and the word is the partition's own or
the reader is partition 0. -/
def debugReadOk (s : State) (q w : Nat) : Bool :=
  granted s && get1 s DBG.SCOPE_ACC_WINDOW 0 == 1 &&
  (q == 0 || (decide (getF s ROWS.ALLOC_WORD_FIRST 0 q 0 ≤ w) &&
    decide (w < getF s ROWS.ALLOC_WORD_FIRST 0 q 0 + getF s ROWS.ALLOC_WORD_COUNT 0 q 0)))

/-- Whether partition `q` may read an address (Tables 3.1, 3.4). -/
def mayRead (s : State) (q : Nat) : Region → Bool
  | .page p n off => pageReadOk s q p n off
  | .chan n _ => q == 0 || (decide (n < 12) && chanOwner s n == q)
  | .ring p _ => q == 0 || q == p
  | .bbox _ => q == 0
  | .accDebug w _ => debugReadOk s q w
  | .cellar b _ => q == 0 || ownArea q b
  | .portStatus => true
  | .unmapped => true

/-- A tag names an open partition (R97, R98). -/
def tagOpen (s : State) (tag : Nat) : Bool := decide (tag < 4) && isOpen s tag

/-! ### Shadows -/

/-- Who reads: a host port, the shelf port, Leaf. -/
inductive Via where
  | port (p : Port)
  | shelf
  | leaf
  deriving DecidableEq, Repr

def shadowOf (s : State) : Via → Shadow
  | .port p => (portOf s p).shadow
  | .shelf => s.shelf.shadow
  | .leaf => s.gate.shadow

def modShadow (s : State) (v : Via) (f : Shadow → Shadow) : State :=
  match v with
  | .port p => modPort s p fun u => { u with shadow := f u.shadow }
  | .shelf => modShelf s fun u => { u with shadow := f u.shadow }
  | .leaf => { s with gate := { s.gate with shadow := f s.gate.shadow } }

/-- How far TIMEd runs over the frame in progress, by the interval before it; by 125 us in its first frame. -/
def frameSpan (s : State) (d : Nat) : Nat :=
  if (timeOf s d).span = 0 then 125000 * nsUnit else (timeOf s d).span

/-- A domain's time at the moment of a fetch (R358): the cycle is the command's; where in the cycle the fetch falls the spec
leaves open (notes/assumptions 1). A domain that does not run holds its time. -/
def nowTime (s : State) (d : Nat) : Nat × State :=
  let u := timeOf s d
  if domRuns s d then
    let x := drawFree s
    ((u.t + frameSpan s d * (s.cyc * 2 ^ 64 + x.1) / (1250 * 2 ^ 64)) % timeWrap, x.2)
  else (u.t, s)

/-- FRN_LO is read: the high word goes to the reader's shadow (R57, R58). -/
def latchFrn (s : State) (v : Via) (sys : Bool) : State :=
  modShadow s v fun u => if sys then { u with sysFrnHi := frnHi s } else { u with frnHi := frnHi s }

/-- NOW_NS is read: SEC and FRAC go to the reader's shadow (R358). -/
def latchNow (s : State) (v : Via) (d : Nat) : Nat × State :=
  let x := nowTime s d
  (timeNs x.1, modShadow x.2 v fun u =>
    { u with nowSec := u.nowSec.set d (timeSec x.1), nowFrac := u.nowFrac.set d (timeFrac x.1) })

/-- The fields that read from a shadow. -/
def shadowF (s : State) (v : Via) (f : Fld) (n : Nat) : Option Nat :=
  let u := shadowOf s v
  if f = FRAME.FRN_HI then some u.frnHi
  else if f = SYS.FRN_HI then some u.sysFrnHi
  else if f = TIME.NOW_SEC_LO then some (u.nowSec.getD n 0 % 2 ^ 32)
  else if f = TIME.NOW_SEC_HI then some (u.nowSec.getD n 0 / 2 ^ 32)
  else if f = TIME.NOW_FRAC then some (u.nowFrac.getD n 0)
  else none

/-! ### Words -/

/-- The value most recently taken for an address and not yet acted (R61). -/
def takenWord (s : State) (a : Nat) : Option Nat :=
  ((s.writeQ.filter fun w => w.addr == a).getLast?).map fun w => w.value

/-- What a field shows to a reader (Table 0.4, R61, R71, R222). A counter whose clearing was taken last reads 0; a write of
another value is ignored (R86, R102). -/
def readField (s : State) (v : Via) (a : Nat) (x : FldAt) : Nat :=
  match x.fld.acc with
  | .wo => 0
  | .rs => (kvGet s.snaps x.key).getD (fldReset x.fld x.n x.k)
  | .rw =>
    if x.fld = ROWS.PROG_WIN then progWinRead s x.k x.j
    else match takenWord s a with
      | some w => bitsOf w x.fld.lo x.fld.width
      | none => liveF s x
  | .cnt => if (takenWord s a).map (fun w => bitsOf w x.fld.lo x.fld.width) = some 0 then 0 else liveF s x
  | _ => (shadowF s v x.fld x.n).getD (liveF s x)

/-- A word put together from its fields; reserved bits read 0 (R92). -/
def readFields (s : State) (v : Via) (a : Nat) (l : List FldAt) : Nat :=
  l.foldl (fun w x => w + readField s v a x % 2 ^ x.fld.width * 2 ^ x.fld.lo) 0

/-- A register word. OPEN_CNT shows a partition its own byte (R227). -/
def readPage (s : State) (v : Via) (q : Nat) (p : Page) (n off : Nat) : Nat × State :=
  let a := pageBase p n + off
  if p = .time ∧ off = 0x40 then latchNow s v n
  else
    let w := readFields s v a (fieldsAt p n off)
    let w := if p = .rows ∧ off = 0x48 then bitsOf w (8 * q) 8 * 2 ^ (8 * q) else w
    (w, if p = .sys ∧ off = 0x40 then latchFrn s v true else if p = .frame ∧ off = 0x40 then latchFrn s v false else s)

/-- A word of the Channel Table (R129 to R131). -/
def readChan (s : State) (v : Via) (n off : Nat) : Nat :=
  let a := pageBase .chan n + off
  if 12 ≤ n then (if off = 0 then 0xF0 + n else 0)
  else if off < 0x40 then readFields s v a (fieldsAt .chan n off)
  else (takenWord s a).getD (memLE s a 4)

/-- A half of an accumulator word (R225). -/
def readAcc (s : State) (w : Nat) (high : Bool) : Nat :=
  let x := ofSigned 64 ((kvGet s.accs w).getD 0)
  if high then x / 2 ^ 32 else x % 2 ^ 32

/-- Result codes of Table 3.9. -/
def resOK : Nat := 0
def resUNMAPPED : Nat := 1
def resDENIED : Nat := 2
def resBUSY : Nat := 3
def resCRC : Nat := 4
def resALIGN : Nat := 5
def resSHORT : Nat := 6

/-- The Cellar window is busy (R482). -/
def windowBusy (s : State) : Bool := get1 s CELLAR.STATUS_BUSY 0 == 1

/-- What a mapped address reads as, rights aside. -/
def readValue (s : State) (v : Via) (q a : Nat) : Nat × State :=
  match regionOf a with
  | .page p n off => readPage s v q p n off
  | .chan n off => (readChan s v n off, s)
  | .ring _ _ => (memLE s a 4, s)
  | .bbox _ => (memLE s a 4, s)
  | .accDebug w high => (readAcc s w high, s)
  | .cellar _ _ => ((takenWord s a).getD (memLE s a 4), s)
  | .portStatus => (match v with
    | .port p => statusWord s p
    | _ => 0, s)
  | .unmapped => (0, s)

/-- A word read by a host port, and the state after (R91, R93, R96 to R98, R114, R115, R226): a word of the window has the code
BUSY while a store runs, denied or not. -/
def readWord (s : State) (p : Port) (tag a : Nat) : Fetched × State :=
  let r := regionOf a
  let busy := match r with
    | .cellar _ _ => windowBusy s
    | _ => false
  if r = .portStatus then (⟨statusWord s p, resOK, false⟩, s)
  else if !tagOpen s tag || (r != .unmapped && !mayRead s tag r) then (⟨0, if busy then resBUSY else resDENIED, true⟩, s)
  else if r = .unmapped then (⟨0, resUNMAPPED, false⟩, s)
  else if busy then (⟨0, resBUSY, false⟩, s)
  else
    let x := readValue s (.port p) tag a
    (⟨x.1, resOK, false⟩, x.2)

/-! ### Reads by the shelf bus and by Leaf -/

/-- Words of the register pages with the rights of partition 0, from consecutive addresses: value and code of each. -/
def readRegs (v : Via) : Nat → Nat → State → List (Nat × Nat) × State
  | _, 0, s => ([], s)
  | a, n + 1, s =>
    let x : (Nat × Nat) × State :=
      if 0x100000 ≤ a then ((0, resDENIED), s)
      else if regionOf a = .unmapped then ((0, resUNMAPPED), s)
      else
        let y := readValue s v 0 a
        ((y.1, resOK), y.2)
    let r := readRegs v (a + 4) n x.2
    (x.1 :: r.1, r.2)

/-- The answer to a remote read (Table 13.4). -/
def regResp (s : State) (r : RegReq) : State :=
  if r.count = 0 ∨ 15 < r.count then sendResp s r.node r.tag 6 []
  else if r.addr % 4 ≠ 0 then sendResp s r.node r.tag 5 []
  else
    let x := readRegs .shelf r.addr r.count s
    sendResp x.2 r.node r.tag ((x.1.map fun y => y.2).foldl max 0) (x.1.map fun y => y.1)

/-- REG_READ (Table 14.1): register pages only, else BOUND. -/
def gateRegRead (s : State) (a n : Nat) : State :=
  if !leafRuns s then s
  else if 0x100000 < a + 4 * n ∨ a % 4 ≠ 0 then gateRefuse s 0x07 3
  else
    let x := readRegs .leaf a n s
    let g := (gateRes x.2 0).gate
    { x.2 with gate := { g with data := x.1.map fun y => y.1 } }

/-! ### Meanings -/

/-- The port shifted out a word. -/
def shiftOut (s : State) (p : Port) (l : List Nat) : State := modPort s p fun u => { u with out := l }

/-- PORT_STATUS_READ (R93): any tag; the read replaces no result. -/
def execPortStatusRead (port : Port) (s : State) : Host.Outcome State Fault Refusal :=
  if portsLive s then .next (shiftOut s port [statusWord s port]) else .next s

/-- FRN_LO_READ (R57, R58): the fetch of FRN_LO of FRAME or SYS. -/
def execFrnLoRead (port : Port) (page : Page) (s : State) : Host.Outcome State Fault Refusal :=
  if page = .frame ∨ page = .sys then
    (if portsLive s then .next (shiftOut (latchFrn s (.port port) (page == .sys)) port [frnLo s]) else .next s)
  else .refused .illFormed

/-- FRN_HI_READ (R57, R58): the shadow. -/
def execFrnHiRead (port : Port) (page : Page) (s : State) : Host.Outcome State Fault Refusal :=
  let u := (portOf s port).shadow
  if page = .frame ∨ page = .sys then
    (if portsLive s then .next (shiftOut s port [if page = .sys then u.sysFrnHi else u.frnHi]) else .next s)
  else .refused .illFormed

/-- NOW_NS_READ (R358). -/
def execNowNsRead (port : Port) (r : DomRead) (s : State) : Host.Outcome State Fault Refusal :=
  if isDom r.dom && decide (r.cyc < 1250) then
    (if portsLive s then
      let x := latchNow { s with cyc := r.cyc } (.port port) r.dom
      .next (shiftOut x.2 port [x.1])
    else .next s)
  else .refused .illFormed

/-- NOW_SEC_READ (R358): 0 NOW_SEC_LO, 1 NOW_SEC_HI, 2 NOW_FRAC, from the shadow. -/
def execNowSecRead (port : Port) (dom reg : Nat) (s : State) : Host.Outcome State Fault Refusal :=
  let u := (portOf s port).shadow
  let sec := u.nowSec.getD dom 0
  if isDom dom && decide (reg < 3) then
    (if portsLive s then
      .next (shiftOut s port [if reg = 0 then sec % 2 ^ 32 else if reg = 1 then sec / 2 ^ 32 else u.nowFrac.getD dom 0])
    else .next s)
  else .refused .illFormed

/-- ACC_DEBUG_READ (R225, R226): without a grant it reads 0 and sets ACCESS_DENIED. -/
def execAccDebugRead (port : Port) (tag addr : Nat) (s : State) : Host.Outcome State Fault Refusal :=
  if tag < 8 ∧ 0x700000 ≤ addr ∧ addr < 0x702000 ∧ addr % 4 = 0 then
    (if portsLive s then
      let x := readWord s port tag addr
      .next (modPort (shiftOut x.2 port [x.1.value]) port fun u =>
        if x.1.denied then { u with denied := true, result := resDENIED } else u)
    else .next s)
  else .refused .illFormed

/-- REG_RESP (R429): the oldest remote read that waits is answered. -/
def execRegResp (s : State) : Host.Outcome State Fault Refusal :=
  match s.shelf.reqs with
  | [] => .next s
  | r :: l => .next (regResp (modShelf s fun u => { u with reqs := l }) r)

/-- REG_READ by Leaf (Table 14.1). -/
def execRegRead (addr count : Nat) (s : State) : Host.Outcome State Fault Refusal := .next (gateRegRead s addr count)

end Sys2Proof.Machine
end

