-- ==== Sys2Proof/Machine/Ports.lean ====
section
/-! DEFINITION. The host ports (R59, R63, R69, R88 to R126, R588): the checks of a written word, words taken, the SPI and
two-wire transactions, the hold of the two-wire clock, and the host commands of one word. -/

namespace Sys2Proof.Machine

/-! ### The partition checker (R30, R94 to R97, Tables 3.1 and 3.4) -/

/-- The partition whose part of a shared page an offset lies in. -/
def blockOwner (off base stride : Nat) : Option Nat := (List.range 4).find? fun q => inOwn off base stride q

/-- The partition that may write a page offset; nobody writes a descriptor that no partition holds. OVERRUN_CNT_Pp is written by
partition p alone, so nobody clears it while p is closed (DESIGN CHOICE, notes/assumptions 22). -/
def pageWriter (s : State) (p : Page) (n off : Nat) : Option Nat :=
  match p with
  | .rows =>
    if 0x400 ≤ off then (List.range 4).find? fun q => ownsRow s q ((off - 0x400) / 8)
    else match blockOwner off 0x80 0x20 with
      | some q => some q
      | none => some ((blockOwner off 0x100 0x40).getD 0)
  | .harv | .cellar => some ((blockOwner off 0x80 0x20).getD 0)
  | .frame => some ((blockOwner off 0x64 4).getD 0)
  | _ => some (ownerOf s p n)

/-- The partition that may write an address, or none. -/
def writerOf (s : State) : Region → Option Nat
  | .page p n off => pageWriter s p n off
  | .chan n off => if n < 12 ∧ 0x40 ≤ off then some (chanOwner s n) else none
  | .cellar b _ =>
    if 24 ≤ b ∧ b < 32 then (if stagingLocked s then none else some 0)
    else if 32 ≤ b ∧ b < 144 then (if s.root.img = 1 then some 0 else none)
    else (List.range 4).find? fun q => ownArea q b
  | _ => none

/-- The port permission of a partition (Table 1.1). -/
def portAllowed (s : State) (p : Port) (q : Nat) : Bool :=
  match p with
  | .spi => polVal s.pol PART.PORTS_SPI q 0 0 == 1
  | .i2c => polVal s.pol PART.PORTS_I2C q 0 0 == 1

/-- Whether an LK field of a written word differs from its policy value (R95). -/
def lkConflict (s : State) (a v : Nat) : Bool :=
  (fieldsOf a).any fun x => x.fld.acc == .lk && bitsOf v x.fld.lo x.fld.width != liveF s x

/-- The result code of one written word (R30, R91, R93, R95, R97). -/
def checkWord (s : State) (p : Port) (tag a v : Nat) : Nat :=
  let r := regionOf a
  if !tagOpen s tag || !portAllowed s p tag then resDENIED
  else if r = .portStatus then resOK
  else if r = .unmapped then resUNMAPPED
  else if writerOf s r ≠ some tag || lkConflict s a v then resDENIED
  else resOK

/-! ### Words taken (R59, R63, R69, R73, R94) -/

/-- Clear bits of a W1C field at once (R63). -/
def clearW1c (s : State) (v : Nat) (x : FldAt) : State :=
  let old := getF s x.fld x.n x.k x.j
  if x.fld.acc = .w1c then setF s x.fld x.n x.k x.j (old ^^^ (old &&& bitsOf v x.fld.lo x.fld.width)) else s

/-- Whether a field acts at step 5. -/
def queued (x : FldAt) : Bool := x.fld.acc == .rw || x.fld.acc == .cnt || x.fld.acc == .wo

/-- The boundary that latches a snapshot requested now (R69, R598). -/
def snapDue (s : State) (cyc : Nat) : Nat := max 1 (dueOf s cyc)

/-- Put an element into a list once. -/
def putNew {α : Type} [DecidableEq α] (l : List α) (x : α) : List α := if x ∈ l then l else l ++ [x]

/-- A snapshot of a page is requested. -/
def reqSnap (s : State) (p : Page) (n cyc : Nat) : State := { s with snapReq := putNew s.snapReq (pageBase p n, snapDue s cyc) }

/-- A snapshot of every page is requested. -/
def reqSnapAll (s : State) (cyc : Nat) : State := { s with snapAll := putNew s.snapAll (snapDue s cyc) }

/-- A word that passed the checks is taken: W1C bits clear, a snapshot is requested, the rest waits for its boundary. -/
def takeWord (s : State) (p : Port) (tag a v cyc : Nat) : State :=
  let w : QWrite := ⟨a, v, tag, p, dueOf s cyc, (portOf s p).bursts⟩
  match regionOf a with
  | .page g n off =>
    let s1 := (fieldsAt g n off).foldl (fun t x => clearW1c t v x) s
    if off = 0x1C then (if bitOf v 0 then reqSnap s1 g n cyc else s1)
    else if g = .frame ∧ off = 0x4C then (if bitOf v 0 then reqSnapAll s1 cyc else s1)
    else if (fieldsAt g n off).any queued then { s1 with writeQ := s1.writeQ ++ [w] } else s1
  | .chan _ _ | .cellar _ _ => { s with writeQ := s.writeQ ++ [w] }
  | _ => s

/-- A burst in progress: the highest result code, the refused addresses, whether a word has been taken, the state. -/
structure Burst where
  res     : Nat
  refused : List Nat
  took    : Bool
  st      : State

/-- One word of a write burst; `busy`: a store runs, and no word of the window is taken (R114, R115). -/
def burstWord (p : Port) (tag cyc : Nat) (busy : Bool) (b : Burst) (x : Nat × Nat) : Burst :=
  let c := checkWord b.st p tag x.1 x.2
  let inWin := match regionOf x.1 with
    | .cellar _ _ => true
    | _ => false
  if c = resDENIED then { b with res := max b.res (if busy && inWin then resBUSY else c), refused := b.refused ++ [x.1] }
  else if c = resUNMAPPED then { b with res := max b.res c }
  else if busy && inWin then { b with res := max b.res resBUSY }
  else { b with took := true, st := takeWord b.st p tag x.1 x.2 cyc }

/-- Data of an ACCESS_DENIED entry (Table 3.5). -/
def deniedData (count tag addr : Nat) (p : Port) : Nat :=
  (count - 1) % 16 * 2 ^ 28 + b2n (p == .i2c) * 2 ^ 27 + tag % 8 * 2 ^ 24 + addr % 2 ^ 24

/-- The unit and instance of an address in the journal; 0 for memory. -/
def addrUnit (a : Nat) : Nat × Nat :=
  match regionOf a with
  | .page p n _ => (pageType p, n)
  | _ => (0, 0)

/-- Journal ACCESS_DENIED (R100). -/
def journalDenied (s : State) (count tag addr : Nat) (p : Port) : State :=
  journal s 0x010 (if tag < 4 then some tag else none) (addrUnit addr).1 (addrUnit addr).2 (deniedData count tag addr p)

/-- A write burst is taken: the words by their checks, one entry for the refused ones; a write of which a word was taken at or
after the cutoff counts in DEFER_CNT (R59, R60, R84, R100). -/
def takeBurst (s : State) (p : Port) (tag cyc : Nat) (words : List (Nat × Nat)) : Burst :=
  let b := words.foldl (burstWord p tag cyc (windowBusy s)) ⟨resOK, [], false, s⟩
  let s1 := match b.refused with
    | [] => b.st
    | a :: r => journalDenied b.st (r.length + 1) tag a p
  let s2 := modPort s1 p fun u => { u with bursts := u.bursts + 1 }
  { b with st := if b.took && isLate s cyc then addCnt s2 FRAME.DEFER_CNT 0 0 1 else s2 }

/-! ### Transactions -/

/-- The header of Table 3.7. -/
def header (write : Bool) (tag len addr : Nat) : Nat := b2n write * 2 ^ 31 + tag * 2 ^ 28 + len * 2 ^ 24 + addr

/-- CRC-16 over 32-bit words, most significant bit first (R117, R118). -/
def crcWords (l : List Nat) : Nat := crc16 (l.flatMap fun w => beBytes w 4)

/-- Addresses of a burst (R108, R486): in the Cellar window under WRAP they stay in the 256-byte page. -/
def burstAddrs (wrap : Bool) (a : Nat) : Nat → List Nat
  | 0 => []
  | n + 1 =>
    let next := if wrap && decide (0x800000 ≤ a) && decide (a < 0x900000) then a / 256 * 256 + (a + 4) % 256 else a + 4
    a :: burstAddrs wrap next n

/-- The page mode of a tag (R486). -/
def wraps (s : State) (tag : Nat) : Bool := decide (tag < 4) && getF s CELLAR.PAGEMODE 0 tag 0 == 1

/-- The addresses of a transaction. -/
def txnAddrs (s : State) (tag addr len : Nat) : List Nat := burstAddrs (wraps s tag) addr (len + 1)

/-- A transaction ends: the port's result and flags (R113, R114), the count when the header was complete (R116). -/
def endTxn (s : State) (p : Port) (res : Nat) (denied crcErr late counted : Bool) : State :=
  modPort s p fun u =>
    { u with result := res, denied := denied, crcErr := crcErr, late := late, txn := if counted then (u.txn + 1) % 256 else u.txn }

/-- A transaction counts and leaves the stored result (R93). -/
def countTxn (s : State) (p : Port) : State := modPort s p fun u => { u with txn := (u.txn + 1) % 256 }

/-- A complete write sequence reaches its end: ALIGN, CRC, or the burst is taken (R109, R110, R114, R123). -/
def writeEnd (s : State) (p : Port) (tag len addr : Nat) (data : List Nat) (crc cyc : Nat) : State :=
  let crcBad := s.straps.crc && crc != crcWords (header true tag len addr :: data)
  if addr % 4 ≠ 0 then endTxn s p resALIGN false crcBad false true
  else if crcBad then endTxn s p resCRC false true false true
  else
    let b := takeBurst s p tag cyc ((txnAddrs s tag addr len).zip data)
    drainAll (endTxn b.st p b.res (!b.refused.isEmpty) false (b.took && isLate s cyc) true)

/-- Fetch the words of a read, one after another (R111). -/
def fetchWords (p : Port) (tag : Nat) : List Nat → State → List Fetched × State
  | [], s => ([], s)
  | a :: r, s =>
    let x := readWord s p tag a
    let y := fetchWords p tag r x.2
    (x.1 :: y.1, y.2)

/-- A word that no access gave: it is sent as 0. -/
def noWord (code : Nat) : Fetched := ⟨0, code, false⟩

/-- Whether a read addresses PORT_STATUS alone. -/
def onlyStatus (l : List Nat) : Bool := !l.isEmpty && l.all fun a => a == 0xFFFFFC

/-- The end of a read: its words with their codes, whether it was complete, ALIGN and header CRC (R93, R114). -/
def readEnd (s : State) (p : Port) (addrs : List Nat) (words : List Fetched) (complete align crcBad : Bool) : State :=
  if complete && !align && !crcBad && onlyStatus addrs then countTxn s p
  else
    let c := (words.map fun x => x.code).foldl max resOK
    let res := max (if complete then 0 else resSHORT) (max (if align then resALIGN else 0) (max (if crcBad then resCRC else 0) c))
    endTxn s p res (words.any fun x => x.denied) crcBad false true

/-- Set the cycle of an access (FRAME.POS). -/
def atCyc (s : State) (cyc : Nat) : State := { s with cyc := cyc }

/-! ### SPI (R107 to R112) -/

/-- Bits of an SPI write and of an SPI read (Table 3.8). -/
def spiWriteBits (crc : Bool) (len : Nat) : Nat := 32 + 32 * (len + 1) + 16 * b2n crc
def spiReadBits (crc : Bool) (len : Nat) : Nat := 64 + 32 * (len + 1) + 16 * b2n crc

/-- What SPI_SDO shows over `bits` clocks of a sequence of `total`: the words given, then zeros, past the end too, a word for each
32 clocks begun (Table 3.8, R110). -/
def sdo (total bits : Nat) (l : List Nat) : List Nat :=
  let n := (min bits total + 31) / 32 + (bits - total + 31) / 32
  (l ++ List.replicate n 0).take n

/-- An SPI write transaction. -/
def spiWriteTxn (s : State) (t : SpiWrite) : State :=
  let total := spiWriteBits s.straps.crc t.len
  let bits := t.cut.getD total
  let s1 := shiftOut (atCyc s t.cyc) .spi (sdo total bits [statusWord s .spi])
  if bits < 32 then endTxn s1 .spi resSHORT false false false false
  else if bits < total then endTxn s1 .spi resSHORT false false false true
  else writeEnd s1 .spi t.tag t.len t.addr t.data t.crc t.cyc

/-- An SPI read transaction: a word is fetched once the 32 bits before it are out (R111). -/
def spiReadTxn (s : State) (t : SpiRead) : State :=
  let st := statusWord s .spi
  let total := spiReadBits s.straps.crc t.len
  let bits := t.cut.getD total
  let s1 := shiftOut (atCyc s t.cyc) .spi (sdo total bits [st])
  if bits < 32 then endTxn s1 .spi resSHORT false false false false
  else
    let crcBad := s.straps.crc && decide (48 ≤ bits) && t.crc != crcWords [header false t.tag t.len t.addr]
    let align := t.addr % 4 != 0
    let active := !align && !crcBad && (!s.straps.crc || decide (48 ≤ bits))
    let n := if bits < 64 then 0 else min (t.len + 1) ((bits - 64) / 32 + 1)
    let addrs := (txnAddrs s t.tag t.addr t.len).take n
    let x := if active then fetchWords .spi t.tag addrs s1 else (addrs.map fun _ => noWord 0, s1)
    let vals := x.1.map fun y => y.value
    let complete := decide (total ≤ bits)
    let s2 := readEnd x.2 .spi addrs x.1 complete align crcBad
    shiftOut s2 .spi (sdo total bits (st :: 0 :: vals ++ (if s.straps.crc then [crcWords vals] else [])))

/-! ### The two-wire port (R120 to R126) -/

/-- The module's address (R120). -/
def i2cAddr (s : State) : Nat := 0x38 + 2 * b2n s.straps.addr1 + b2n s.straps.addr0

/-- Bytes of a write and of a read after the address byte; a read's second address byte is not counted. -/
def i2cWriteBytes (crc : Bool) (len : Nat) : Nat := 4 + 4 * (len + 1) + 2 * b2n crc
def i2cReadBytes (crc : Bool) (len : Nat) : Nat := 4 + 4 * (len + 1) + 4 * b2n crc

/-- An address lies in the Cellar window. -/
def inWindow24 (a : Nat) : Bool := decide (0x800000 ≤ a) && decide (a < 0x900000)

/-- The module's acknowledges of a transaction: of the address byte and of `good` bytes after it, none of the rest (R121). -/
def acked (s : State) (good bad : Nat) : State :=
  modPort s .i2c fun u => { u with acks := List.replicate (1 + good) true ++ List.replicate bad false }

/-- The addresses of the words of a two-wire write that have a byte on the bus. -/
def i2cReached (s : State) (t : I2cWrite) : List Nat :=
  (txnAddrs s t.tag t.addr t.len).take ((t.stop.getD (i2cWriteBytes s.straps.crc t.len) - 4 + 3) / 4)

/-- The bytes of a two-wire write have all been clocked: the sequence acknowledged, bytes past it not; one that a STOP ended
early takes nothing (R121, R123). -/
def i2cWriteDone (s : State) (t : I2cWrite) (cyc : Nat) : State :=
  let total := i2cWriteBytes s.straps.crc t.len
  let bytes := t.stop.getD total
  let s1 := acked s (min bytes total) (bytes - total)
  if bytes < total then endTxn s1 .i2c resSHORT false false false (decide (4 ≤ bytes))
  else writeEnd s1 .i2c t.tag t.len t.addr t.data t.crc cyc

/-- A two-wire write transaction: held while a store runs and a data byte lies in the window (R124). -/
def i2cWriteTxn (s : State) (t : I2cWrite) : State :=
  let s1 := shiftOut (atCyc s t.cyc) .i2c []
  if windowBusy s && t.addr % 4 == 0 && (i2cReached s t).any inWindow24 then { s1 with i2cHold := some (.write t) }
  else i2cWriteDone s1 t t.cyc

/-- What a read transaction asks: the addresses of the words whose first byte is clocked. -/
def i2cAddrs (s : State) (t : I2cRead) : List Nat :=
  let bytes := t.stop.getD (i2cReadBytes s.straps.crc t.len)
  (txnAddrs s t.tag t.addr t.len).take (min (t.len + 1) ((bytes - 4 - 2 * b2n s.straps.crc + 3) / 4))

/-- The end of a two-wire read with its words. -/
def i2cReadDone (s : State) (t : I2cRead) (words : List Fetched) (align crcBad : Bool) : State :=
  let vals := words.map fun y => y.value
  let complete := decide (i2cReadBytes s.straps.crc t.len ≤ t.stop.getD (i2cReadBytes s.straps.crc t.len))
  let s1 := readEnd s .i2c (i2cAddrs s t) words complete align crcBad
  shiftOut s1 .i2c (vals ++ (if s.straps.crc && complete then [crcWords vals] else []) ++ List.replicate t.extra 0)

/-- A two-wire read transaction: words are fetched up to the first that the Cellar holds (R124); the module acknowledges the header,
its CRC and both address bytes. -/
def i2cReadTxn (s : State) (t : I2cRead) : State :=
  let bytes := t.stop.getD (i2cReadBytes s.straps.crc t.len)
  let head := 4 + 2 * b2n s.straps.crc
  let s1 := acked (shiftOut (atCyc s t.cyc) .i2c []) (min bytes head + b2n (decide (head ≤ bytes))) 0
  if bytes < 4 then endTxn s1 .i2c resSHORT false false false false
  else
    let addrs := i2cAddrs s t
    let crcBad := s.straps.crc && decide (6 ≤ bytes) && t.crc != crcWords [header false t.tag t.len t.addr]
    let align := t.addr % 4 != 0
    if align || crcBad then i2cReadDone s1 t (addrs.map fun _ => noWord 0) align crcBad
    else
      let first := if windowBusy s then addrs.takeWhile fun a => !inWindow24 a else addrs
      let x := fetchWords .i2c t.tag first s1
      if first.length < addrs.length then { x.2 with i2cHold := some (.read t x.1) } else i2cReadDone x.2 t x.1 false false

/-- The clock is released: no store runs any more (R124). -/
def releaseHold (s : State) : State :=
  if windowBusy s then s
  else
    let s1 := { s with i2cHold := none }
    match s.i2cHold with
    | none => s
    | some (.write t) => i2cWriteDone s1 t s.cyc
    | some (.read t done) =>
      let x := fetchWords .i2c t.tag ((i2cAddrs s t).drop done.length) s1
      i2cReadDone x.2 t (done ++ x.1) false false

/-- The bytes of a held write before the first that lies in the window. -/
def i2cBefore (s : State) (t : I2cWrite) : Nat := 4 + 4 * ((i2cReached s t).takeWhile fun a => !inWindow24 a).length

/-- The hold reaches 30 ms (R125): a read sends 0; of a write the remaining bytes are not acknowledged, and nothing is taken. -/
def holdTimeout (s : State) : State :=
  let s1 := { s with i2cHold := none }
  match s.i2cHold with
  | none => s
  | some (.write t) =>
    let total := i2cWriteBytes s.straps.crc t.len
    let bytes := t.stop.getD total
    let s2 := acked s1 (i2cBefore s t) (bytes - i2cBefore s t)
    endTxn s2 .i2c (if bytes < total then resSHORT else resBUSY) false false false true
  | some (.read t done) =>
    i2cReadDone s1 t (done ++ ((i2cAddrs s t).drop done.length).map fun _ => noWord resBUSY) false false

/-! ### Meanings of transactions -/

/-- Whether the two-wire bus is free for a command. -/
def busFree (s : State) : Port → Bool
  | .spi => portsLive s
  | .i2c => portsLive s && s.i2cHold.isNone

def SpiWrite.ok (t : SpiWrite) : Bool :=
  decide (t.tag < 8) && decide (t.len < 16) && decide (t.addr < 2 ^ 24) && t.data.length == t.len + 1 && t.data.all isWord && isCyc t.cyc

def SpiRead.ok (t : SpiRead) : Bool := decide (t.tag < 8) && decide (t.len < 16) && decide (t.addr < 2 ^ 24) && isCyc t.cyc

def I2cWrite.ok (t : I2cWrite) : Bool :=
  decide (t.dev < 128) && decide (t.tag < 8) && decide (t.len < 16) && decide (t.addr < 2 ^ 24) && t.data.length == t.len + 1 &&
  t.data.all isWord && isCyc t.cyc

def I2cRead.ok (t : I2cRead) : Bool :=
  decide (t.dev < 128) && decide (t.tag < 8) && decide (t.len < 16) && decide (t.addr < 2 ^ 24) && isCyc t.cyc

/-- SPI_WRITE (R107 to R110). -/
def execSpiWrite (t : SpiWrite) (s : State) : Host.Outcome State Fault Refusal :=
  if SpiWrite.ok t then (if busFree s .spi then .next (spiWriteTxn s t) else .next s) else .refused .illFormed

/-- SPI_READ (R107, R111). -/
def execSpiRead (t : SpiRead) (s : State) : Host.Outcome State Fault Refusal :=
  if SpiRead.ok t then (if busFree s .spi then .next (spiReadTxn s t) else .next s) else .refused .illFormed

/-- I2C_WRITE (R120, R121, R123): another address is not acknowledged. -/
def execI2cWrite (t : I2cWrite) (s : State) : Host.Outcome State Fault Refusal :=
  if I2cWrite.ok t then (if busFree s .i2c && t.dev == i2cAddr s then .next (i2cWriteTxn s t) else .next s) else .refused .illFormed

/-- I2C_READ (R120, R122). -/
def execI2cRead (t : I2cRead) (s : State) : Host.Outcome State Fault Refusal :=
  if I2cRead.ok t then (if busFree s .i2c && t.dev == i2cAddr s then .next (i2cReadTxn s t) else .next s) else .refused .illFormed

/-- I2C_HOLD_TIMEOUT (R125). -/
def execI2cHoldTimeout (s : State) : Host.Outcome State Fault Refusal := .next (holdTimeout s)

/-- BLOCK_STORE_DONE (R480, R522): the running store ends; a reset that waited for PF_DONE acts, a held clock is released. -/
def execBlockStoreDone (v : Supply) (s : State) : Host.Outcome State Fault Refusal :=
  .next (releaseHold (resetAfterPf (storeDone s v)))

/-! ### Host commands of one word -/

/-- One word written through a port as a transaction of its own, with its CRC right. -/
def oneWrite (s : State) (a : Access) (addr v : Nat) : State :=
  if !busFree s a.port then s
  else
    let crc := crcWords [header true a.tag 0 addr, v]
    match a.port with
    | .spi => spiWriteTxn s { tag := a.tag, len := 0, addr := addr, data := [v], crc := crc, cut := none, cyc := a.cyc }
    | .i2c => i2cWriteTxn s { dev := i2cAddr s, tag := a.tag, len := 0, addr := addr, data := [v], crc := crc, stop := none, cyc := a.cyc }

/-- An access that exists. -/
def Access.ok (a : Access) : Bool := decide (a.tag < 8) && isCyc a.cyc

/-- HOST_REGISTER_WRITE (R59 to R62); at an address that is no word's the transaction ends with ALIGN (R109). -/
def execHostRegisterWrite (a : Access) (addr value : Nat) (s : State) : Host.Outcome State Fault Refusal :=
  if Access.ok a && decide (addr < 2 ^ 24) && isWord value then .next (oneWrite s a addr value) else .refused .illFormed

/-- SNAP_REQ (R69). -/
def execSnapReq (a : Access) (page : Page) (n : Nat) (s : State) : Host.Outcome State Fault Refusal :=
  if Access.ok a && isPage page n then .next (oneWrite s a (pageBase page n + 0x1C) 1) else .refused .illFormed

/-- SNAP_ALL (R73). -/
def execSnapAll (a : Access) (s : State) : Host.Outcome State Fault Refusal :=
  if Access.ok a then .next (oneWrite s a (fldAddr FRAME.SNAP_ALL 0 0 0) 1) else .refused .illFormed

/-- EVT_CLEAR (R63, R101). -/
def execEvtClear (a : Access) (page : Page) (n bits : Nat) (s : State) : Host.Outcome State Fault Refusal :=
  if Access.ok a && isPage page n && isWord bits then .next (oneWrite s a (pageBase page n + 0x10) bits) else .refused .illFormed

/-- COUNTER_CLEAR (R102): a write to a counter's word; it acts at step 5, where only 0 clears. -/
def execCounterClear (a : Access) (addr value : Nat) (s : State) : Host.Outcome State Fault Refusal :=
  if Access.ok a && isAddr addr && isWord value && (fieldsOf addr).any fun x => x.fld.acc == .cnt then
    .next (oneWrite s a addr value)
  else .refused .illFormed

/-- PART_RESET (R37). -/
def execPartReset (a : Access) (p : Nat) (s : State) : Host.Outcome State Fault Refusal :=
  if Access.ok a && isDom p then .next (oneWrite s a (fldAddr PART.CTRL p 0 0) 1) else .refused .illFormed

/-- CHANNEL_TABLE_WRITE (R136 to R138). -/
def execChannelTableWrite (a : Access) (addr value : Nat) (s : State) : Host.Outcome State Fault Refusal :=
  if Access.ok a && isAddr addr && isWord value && decide (0x400000 ≤ addr) && decide (addr < 0x400800) then
    .next (oneWrite s a addr value)
  else .refused .illFormed

/-! ### VIO (R588) -/

/-- VIO_FALL: the host pads are released; a transaction in progress fails and takes nothing. -/
def execVioFall (s : State) : Host.Outcome State Fault Refusal := .next { s with vio := false, i2cHold := none }

/-- VIO_RETURN: the pads resume with the port state unchanged. -/
def execVioReturn (s : State) : Host.Outcome State Fault Refusal := .next { s with vio := true }

end Sys2Proof.Machine
end

