-- ==== Sys2Proof/Machine/HostWrites.lean ====
section
/-! DEFINITION. Host writes as they act at steps 3 and 5 of a boundary (R59 to R67, R102, R221, R546): which writes are due,
which are discarded, and what each word does. -/

namespace Sys2Proof.Machine

/-! ### Words -/

/-- The value of the last write to an address among the writes of a boundary. -/
def lastAt (l : List QWrite) (a : Nat) : Option Nat := ((l.filter fun w => w.addr == a).getLast?).map fun w => w.value

/-- Whether a later write of the boundary goes to one of the addresses: values in between never act (R62). -/
def later (rest : List QWrite) (as : List Nat) : Bool := rest.any fun w => as.contains w.addr

/-- A field of a written word: RW takes the value, a counter is cleared by 0 only (R94, R102). -/
def plainField (s : State) (v : Nat) (x : FldAt) : State :=
  match x.fld.acc with
  | .rw => setF s x.fld x.n x.k x.j (bitsOf v x.fld.lo x.fld.width)
  | .cnt => if bitsOf v x.fld.lo x.fld.width = 0 then setF s x.fld x.n x.k x.j 0 else s
  | _ => s

/-- A word whose RW fields and counters take what is written. -/
def plainWord (s : State) (p : Page) (n off v : Nat) : State := (fieldsAt p n off).foldl (fun t x => plainField t v x) s

/-- ROWS (R201, R221, R222). -/
def actRows (s : State) (off v : Nat) : State :=
  if 0x400 ≤ off then (if off % 8 = 0 then descWrite s ((off - 0x400) / 8) v else s)
  else if 0x100 ≤ off ∧ off < 0x200 then progWinWrite s ((off - 0x100) / 0x40) (off % 0x40 / 4) v
  else if 0x80 ≤ off ∧ off < 0x100 ∧ off % 0x20 = 8 then (if bitOf v 0 then progSwap s ((off - 0x80) / 0x20) else s)
  else plainWord s .rows 0 off v

/-- DPLLd: BW and DAMP act together (R296). -/
def actDpll (all rest : List QWrite) (s : State) (n off v : Nat) : State :=
  let b := pageBase .dpll n + 0x44
  let z := pageBase .dpll n + 0x48
  if off = 0x44 ∨ off = 0x48 then
    (if later rest [b, z] then s else loopBw s n ((lastAt all b).map fun x => bitsOf x 0 18) ((lastAt all z).map fun x => bitsOf x 0 11))
  else plainWord s .dpll n off v

/-- APLLd (R325, R333): REFSEL 3 is not taken. -/
def actApll (s : State) (n off v : Nat) : State :=
  if off = 0x08 then (if bitOf v 0 then epochRequest s n else s)
  else if off = 0x40 then
    (let s1 := if bitsOf v 0 2 = 3 then s else set1 s APLL.CFG_REFSEL n (bitsOf v 0 2)
     if bitOf v 2 then applyAct s1 n else s1)
  else plainWord s .apll n off v

/-- OUTn (R335 to R349, R601). -/
def actOut (all rest : List QWrite) (s : State) (n off v : Nat) : State :=
  let b := pageBase .out n
  if [0x08, 0x48, 0x50, 0x64, 0x6C].contains off && later rest [b + off] then s
  else if off = 0x08 then outEnableWrite s n (bitOf v 0)
  else if off = 0x48 then pulseModeWrite (outRefresh (set1 s OUT.MODE_SQUELCH_LOST n (bitsOf v 1 1)) n) n (bitOf v 0)
  else if off = 0x50 then fineSet s n (bitsOf v 0 8)
  else if off = 0x64 then palignSet s n (bitsOf v 0 4) (bitOf v 8)
  else if off = 0x6C then palignOfsSet s n (bitsOf v 0 16)
  else if off = 0x4C ∨ off = 0x54 then
    (if later rest [b + 0x4C, b + 0x54] then s else dividerWrite s n (lastAt all (b + 0x4C)) (lastAt all (b + 0x54)))
  else if off = 0x58 ∨ off = 0x5C ∨ off = 0x60 then
    (if later rest [b + 0x58, b + 0x5C, b + 0x60] then s
     else pulsePeriodSet s n ((lastAt all (b + 0x58)).map fun x => bitsOf x 0 3) ((lastAt all (b + 0x5C)).map fun x => bitsOf x 0 30)
       ((lastAt all (b + 0x60)).map fun x => bitsOf x 0 30))
  else plainWord s .out n off v

/-- TIMEd (R359, R377). Arming words of triggers and captures act after the boundary's step. -/
def actTime (rest : List QWrite) (s : State) (n off v : Nat) : State :=
  if off = 0x08 then hostSet s n (bitOf v 0) (bitOf v 1) s.frn
  else if off = 0x8C then
    (if later rest [pageBase .time n + 0x8C] then s else baudSet (plainWord s .time n off v) n (bitsOf v 1 3))
  else plainWord s .time n off v

/-- ETHn (R386). -/
def actEth (rest : List QWrite) (s : State) (n off v : Nat) : State :=
  if off = 0x08 then
    (let s1 := if later rest [pageBase .eth n + 0x08] then s else portEnableWrite s n (bitOf v 0)
     if bitOf v 1 then restartAn s1 n else s1)
  else plainWord s .eth n off v

/-- LANEn (R186): CTRL.WIDTH is taken only where the lane measures a pad channel. -/
def actLane (s : State) (n off v : Nat) : State :=
  let pad := match (laneOf s n).func with
    | some f => decide (f < 8)
    | none => false
  if off = 0x08 ∧ !pad then s else plainWord s .lane n off v

/-- ROOT.CTRL (R458 to R468): ABORT first, and COMMIT includes VERIFY. -/
def actRoot (s : State) (off v : Nat) : State :=
  if off = 0x08 then
    (let s1 := if bitOf v 2 then abortCmd s else s
     let s2 := if bitOf v 1 then commitCmd s1 else if bitOf v 0 then verifyCmd s1 else s1
     let s3 := if bitOf v 6 then imageCancel s2 else s2
     let s4 := if bitOf v 4 then imageLoad s3 else s3
     let s5 := if bitOf v 5 then imageActivate s4 else s4
     if bitOf v 8 then leafHost s5 else s5)
  else plainWord s .root 0 off v

/-- A register word acts. SYS.CTRL and PART.CTRL acted at step 3. -/
def actPage (all rest : List QWrite) (s : State) (p : Page) (n off v : Nat) : State :=
  let last := !later rest [pageBase p n + off]
  match p with
  | .rows => actRows s off v
  | .dpll => actDpll all rest s n off v
  | .lane => actLane s n off v
  | .apll => actApll s n off v
  | .out => actOut all rest s n off v
  | .time => actTime rest s n off v
  | .eth => actEth rest s n off v
  | .root => actRoot s off v
  | .harv =>
    if 0x80 ≤ off ∧ off < 0x100 ∧ off % 0x20 = 4 then (if last then rdIdxWrite s ((off - 0x80) / 0x20) (bitsOf v 0 9) else s)
    else plainWord s .harv n off v
  | .bbox =>
    if off = 0x48 then (if last then rdSeqWrite s v else s)
    else if off = 0x50 then (if last then bboxWmWrite s (bitsOf v 0 13) else s)
    else plainWord s .bbox n off v
  | .dbg =>
    if off = 0x08 then
      (let s1 := if bitOf v 0 then debugAsk s else s
       if bitOf v 1 then debugEnd s1 1 else s1)
    else plainWord s .dbg n off v
  | _ => plainWord s p n off v

/-- A word of the Cellar window reaches SRAM (R481); after VERIFIED it touches the staging. -/
def actCellarWord (s : State) (b a v : Nat) : State :=
  let s1 := putSramLE s a v 4
  if 24 ≤ b ∧ b < 32 then modRoot s1 fun u => { u with touched := true } else s1

/-- A host write acts. -/
def actWord (all rest : List QWrite) (s : State) (w : QWrite) : State :=
  match regionOf w.addr with
  | .page p n off => actPage all rest s p n off w.value
  | .chan _ _ => setLE s w.addr w.value 4
  | .cellar b _ => actCellarWord s b w.addr w.value
  | _ => s

/-! ### Steps 3 and 5 (R62, R64, R66, R67) -/

/-- Whether a write's target still belongs to the partition of its tag. -/
def stillWritable (s : State) (w : QWrite) : Bool := tagOpen s w.tag && writerOf s (regionOf w.addr) == some w.tag

/-- The partition that a write resets. -/
def resetsPart (w : QWrite) : Option Nat :=
  match regionOf w.addr with
  | .page .part p 8 => if bitOf w.value 0 then some p else none
  | _ => none

/-- Whether a write is a keyed soft reset (R546). -/
def isSoft (w : QWrite) : Bool := w.addr == 0x08 && bitOf w.value 0 && bitsOf w.value 16 16 == 0x5EED

/-- Words that act each: the program window's registers, whose writes are memory writes (R221). -/
def eachActs (a : Nat) : Bool :=
  match regionOf a with
  | .page .rows _ off =>
    (decide (0x100 ≤ off) && decide (off < 0x200)) ||
    (decide (0x80 ≤ off) && decide (off < 0x100) && (off % 0x20 == 0x08 || off % 0x20 == 0x0C))
  | _ => false

/-- Whether a later write of the boundary takes a write's place: values in between never act, command bits among them (R62). -/
def replaced (s : State) (rest : List QWrite) (w : QWrite) : Bool :=
  !eachActs w.addr && rest.any fun x => x.addr == w.addr && stillWritable s x

/-- Writes whose target has passed to another partition are discarded and journalled, once for each transaction (R67, R100):
those of this one among the writes that follow. -/
def discard (s : State) (rest : List QWrite) (w : QWrite) : State :=
  let n := (rest.filter fun x => x.port == w.port && x.txn == w.txn && !stillWritable s x).length
  journalDenied s (n + 1) w.tag w.addr w.port

/-- The writes in the order taken; `gone` are the transactions whose discards are journalled. -/
def actAll (all : List QWrite) : List QWrite → List (Port × Nat) → State → State
  | [], _, s => s
  | w :: r, gone, s =>
    if stillWritable s w then actAll all r gone (if replaced s r w then s else actWord all r s w)
    else if gone.contains (w.port, w.txn) then actAll all r gone s
    else actAll all r ((w.port, w.txn) :: gone) (discard s r w)

/-- Writes that act at a boundary. -/
def dueWrites (s : State) : List QWrite := s.writeQ.filter fun w => decide (w.due ≤ s.frn)

/-- The partitions whose PART_RESET is due. -/
def resetParts (s : State) (due : List QWrite) : List Nat :=
  (List.range 4).filter fun p => due.any fun w => resetsPart w == some p && stillWritable s w

/-- Whether the last write of the boundary to SYS.CTRL is a keyed soft reset (R62, R546). -/
def softDue (s : State) (due : List QWrite) : Bool :=
  match (due.filter fun w => w.addr == 0x08 && stillWritable s w).getLast? with
  | some w => isSoft w
  | none => false

/-- Step 3: soft reset, then the partition resets that it or a commit has not made (Tables 1.3, 17.6). -/
def resetStep (s : State) (due : List QWrite) : State :=
  let soft := softDue s due
  let s1 := if soft then softReset s else s
  (resetParts s due).foldl (fun t p => if commitReset t p || (soft && isOpen t p) then t else partReset t p 1) s1

/-- A GO word of partition p (R484). -/
def goWord (p : Nat) (s : State) (w : QWrite) : State :=
  match regionOf w.addr with
  | .page .cellar _ off =>
    if off = 0x84 + 0x20 * p ∧ bitOf w.value 31 ∧ stillWritable s w then storeCmd s p (bitsOf w.value 0 8) (bitsOf w.value 8 8) else s
  | _ => s

/-- The last write of the boundary to each address, in the order taken (R62). -/
def lastWrites (s : State) : List QWrite → List QWrite
  | [] => []
  | w :: r => if replaced s r w then lastWrites s r else w :: lastWrites s r

/-- The command stores of a boundary, in partition order (R483). -/
def storeStep (s : State) (live : List QWrite) : State :=
  (List.range 4).foldl (fun t p => (lastWrites s live).foldl (goWord p) t) s

/-- Step 5: due writes but those that a reset of their partition discards (R66); the arming words act later. -/
def writeStep (s : State) (due : List QWrite) (parts : List Nat) : State :=
  let live := due.filter fun w => !parts.contains w.tag
  storeStep (actAll live live [] s) live

/-- An arming word of a trigger (R368, R373): DISARM, then ARM. -/
def armTrig (s : State) (d k v : Nat) : State :=
  let s1 := if bitOf v 1 then trigDisarmAct s d k else s
  if bitOf v 0 then trigArmAct s1 d k else s1

/-- An arming word of a capture (R374, R376): CANCEL, then ARM. -/
def armCap (s : State) (d c v : Nat) : State :=
  let s1 := if bitOf v 1 then capCancelAct s d c else s
  if bitOf v 0 then capArmAct s1 d c else s1

/-- The arming words of a boundary, after its steps of time. -/
def armWord (s : State) (w : QWrite) : State :=
  match regionOf w.addr with
  | .page .time d off =>
    if !stillWritable s w then s
    else if 0x100 ≤ off ∧ off < 0x300 ∧ off % 0x40 = 0x10 then armTrig s d ((off - 0x100) / 0x40) w.value
    else if 0x300 ≤ off ∧ off < 0x400 ∧ off % 0x20 = 0 then armCap s d ((off - 0x300) / 0x20) w.value
    else s
  | _ => s

/-- The arming words of a boundary, in the order taken (R62). -/
def armStep (s : State) (due : List QWrite) (parts : List Nat) : State :=
  (lastWrites s (due.filter fun w => !parts.contains w.tag)).foldl armWord s

end Sys2Proof.Machine
end

