-- ==== Sys2Proof/Machine/Frame.lean ====
section
/-! DEFINITION. The frame (R45 to R83, R541, R542, R554, R555): the boundary's actions in the order of Table 2.2, the stages
in the order of Table 2.1, the start of frame 0, and the loss of the timebase. -/

namespace Sys2Proof.Machine

/-! ### Snapshots (R69 to R74, R598) -/

/-- Latch a page: its RS fields, and FRAME_STAMP with the FRN of the frame that ended. -/
def latchPage (s : State) (p : Page) (n : Nat) : State :=
  let fs := (pageAll p).filter fun f => f.acc == .rs
  let cells := fs.flatMap fun f => (fldIdx f).map fun kj => (f, kj.1, kj.2)
  let sn := cells.foldl (fun m x =>
    let v := getF s x.1 n x.2.1 x.2.2
    let key := fldKey x.1 n x.2.1 x.2.2
    if v = fldReset x.1 n x.2.1 then kvDel m key else kvSet m key v) s.snaps
  set1 { s with snaps := sn } (HDR.FRAME_STAMP p) n (s.frn - 1)

/-- Step 1: the snapshots that are due latch. -/
def snapStep (s : State) : State :=
  let every := s.snapAll.any fun d => decide (d ≤ s.frn)
  let due := allPageInsts.filter fun x => every || s.snapReq.any fun r => r.1 == pageBase x.1 x.2 && decide (r.2 ≤ s.frn)
  let s1 := due.foldl (fun t x => latchPage t x.1 x.2) s
  let s2 := { s1 with snapReq := s.snapReq.filter fun r => decide (s.frn < r.2), snapAll := s.snapAll.filter fun d => decide (s.frn < d) }
  evtIf every s2 .frame 0 1

/-! ### The boundary and the stages -/

/-- Steps 2 to 6 of the boundary that opens the frame in progress, and what Root and the time units do there. -/
def boundarySteps (s : State) : State :=
  let due := dueWrites s
  let s0 := commitStep { s with writeQ := s.writeQ.filter fun w => decide (s.frn < w.due) }
  let parts := resetParts s0 due
  let s1 := writeStep (gateStep (resetStep s0 due)) due parts
  let s2 := debugFrame (roleChange (resetDone (tableAccept s1)))
  armStep ((List.range 4).foldl timeBoundary s2) due parts

/-- The stages of the frame in progress, the alerts they give rise to, and what runs once a frame beside them. -/
def stages (s : State) (i : FrameIn) : State :=
  let s0 := trigStage (intervalOf s i []) (stage1 s i)
  let s1 := stage4 (drainAll (stage3 (stage2 s0)))
  let s2 := capStage (tableRefresh (harvest (stage5 s1)))
  let s3 := shelfFrame (shelfAlerts s (etherFrame s2))
  let s4 := if s3.cellar.ringDirty && ringDue s3 && s3.cellar.held18 && engineTakes s3 then ringStore s3 else s3
  drainAll s4

/-- What ends with the frame in progress: rows that a CLOSE taken alone closed after stage 6 are harvested, the time units and
outputs have run over it, the journal reports its losses, its slot counts are published, the lanes count down. -/
def frameEnd (s : State) (i : FrameIn) : State :=
  let s1 := (List.range 4).foldl (timeAdvance i) (harvest s)
  let s2 := frameLost (drainAll s1)
  let s3 := if windowLast s2 then suppressionEnd s2 else s2
  lanesEnd (publishSlots (drainAll s3))

/-- A tick: the frame in progress ends, the next one's boundary and stages run. -/
def frameTick (s : State) (i : FrameIn) : State :=
  let s1 := frameEnd s i
  let s0 := { s1 with frn := s1.frn + 1, cyc := 0 }
  let s2 := if s0.root.down.any fun f => decide (f ≤ s0.frn) then rootUp s0 else s0
  let s3 := snapStep ((List.range 4).foldl timeTick s2)
  powerFrame (stages (drainAll (boundarySteps s3)) i) i

/-- Frame 0: its boundary and its stages, which run without samples (R49). -/
def frameZero (s : State) (src : Nat) : State :=
  stages (drainAll (boundarySteps (startFrames s src))) (FrameIn.quiet (get1 s PWR.VIN 0) (get1 s PWR.HOLDUP 0))

/-! ### The timebase (R541, R554, R555) -/

/-- A running domain bridges over a switch of the timebase: two frames without samples, then as a lane bridge. -/
def tbBridge (s : State) (d : Nat) : State :=
  let u := domOf s d
  let e := max (s.frn + 1) (if u.brLane then u.brEnd else 0)
  if domRuns s d then modDom (bridgeStart s d true false) d fun v => { v with brEnd := e } else s

/-- The tick generator continues on the other source. -/
def tbSwitch (s : State) : State :=
  let s1 := tbSwitched { s with tbHold := 2 } (1 - get1 s FRAME.TB_SRC 0) 1
  (List.range 4).foldl (fun t d => tbBridge (if domState t d = 3 then duskRecompute t d else t) d) s1

/-- An output holds logic 0 after its high phase or pulse, when no further tick comes. -/
def outLost (s : State) (n : Nat) : State :=
  let s1 := outRefresh s n
  let u := outOf s1 n
  let s2 := modOut (evtIf (decide (0 < u.left.getD 0)) s1 .out n 1) n fun v => { v with left := none }
  match u.fall with
  | some x => finishStop s2 n x
  | none => s2

/-- The tick stops. -/
def tbLost (s : State) : State :=
  let s1 := degraded (set1 { s with phase := .lost } SYS.STATUS_NO_TIMEBASE 0 1)
  let s2 := journalPg s1 0x005 none .frame 0 (get1 s FRAME.TB_SRC 0)
  drainAll ((List.range 10).foldl outLost s2)

/-! ### Meanings -/

/-- FRAME_TICK (R45, R46, R48): without a timebase there is no tick. -/
def execFrameTick (i : FrameIn) (s : State) : Host.Outcome State Fault Refusal :=
  if s.phase = .running then .next (frameTick s i) else .next s

/-- TIMEBASE_QUALIFIED (R541, R542): the source that policy selects qualifies, and frame 0 starts. -/
def execTimebaseQualified (s : State) : Host.Outcome State Fault Refusal :=
  if s.phase = .waiting then .next (frameZero s (selectedSrc s)) else .next s

/-- TB_FALLBACK (R541): the other source qualifies. -/
def execTbFallback (s : State) : Host.Outcome State Fault Refusal :=
  if s.phase = .waiting then
    (let src := 1 - selectedSrc s
     .next (drainAll (frameZero (tbSwitched s src 0) src)))
  else .next s

/-- TB_SWITCH (R554). -/
def execTbSwitch (s : State) : Host.Outcome State Fault Refusal :=
  if s.phase = .running then .next (tbSwitch s) else .next s

/-- TB_LOST (R555). -/
def execTbLost (s : State) : Host.Outcome State Fault Refusal :=
  if s.phase = .running then .next (tbLost s) else .next s

end Sys2Proof.Machine
end

