-- ==== Sys2Proof/Machine/Dispatch.lean ====
section
/-! DEFINITION. The meaning of every command: one arm for each constructor of `Instr`. -/

namespace Sys2Proof.Machine

def exec (i : Instr) (s : State) : Host.Outcome State Fault Refusal :=
  match i with
  | .powerOnReset x => Sys2Proof.Machine.execPowerOnReset x s
  | .resetNFall => Sys2Proof.Machine.execResetNFall s
  | .resetNRelease straps => Sys2Proof.Machine.execResetNRelease straps s
  | .timebaseQualified => Sys2Proof.Machine.execTimebaseQualified s
  | .tbFallback => Sys2Proof.Machine.execTbFallback s
  | .tbSwitch => Sys2Proof.Machine.execTbSwitch s
  | .tbLost => Sys2Proof.Machine.execTbLost s
  | .procReset => Sys2Proof.Machine.execProcReset s
  | .softReset key => Sys2Proof.Machine.execSoftReset key s
  | .frameTick x => Sys2Proof.Machine.execFrameTick x s
  | .qualifierWindowClose => Sys2Proof.Machine.execQualifierWindowClose s
  | .laneCalibration r => Sys2Proof.Machine.execLaneCalibration r s
  | .spareCalDone lane => Sys2Proof.Machine.execSpareCalDone lane s
  | .padOverdrive pad => Sys2Proof.Machine.execPadOverdrive pad s
  | .suspectEnd pad => Sys2Proof.Machine.execSuspectEnd pad s
  | .actTimeout chan => Sys2Proof.Machine.execActTimeout chan s
  | .qlTimeout chan => Sys2Proof.Machine.execQlTimeout chan s
  | .holdOffExpiry dom chan => Sys2Proof.Machine.execHoldOffExpiry dom chan s
  | .wtrExpiry dom chan => Sys2Proof.Machine.execWtrExpiry dom chan s
  | .lockAchieved dom => Sys2Proof.Machine.execLockAchieved dom s
  | .slewDone dom => Sys2Proof.Machine.execSlewDone dom s
  | .bridgeEnd dom => Sys2Proof.Machine.execBridgeEnd dom s
  | .historySegment dom => Sys2Proof.Machine.execHistorySegment dom s
  | .duskExpiry dom => Sys2Proof.Machine.execDuskExpiry dom s
  | .steppedEnd dom => Sys2Proof.Machine.execSteppedEnd dom s
  | .nop p => Sys2Proof.Machine.execNop p s
  | .openZero p row => Sys2Proof.Machine.execOpenZero p row s
  | .openBias p row bias => Sys2Proof.Machine.execOpenBias p row bias s
  | .openResidual p row src => Sys2Proof.Machine.execOpenResidual p row src s
  | .openCarry p row => Sys2Proof.Machine.execOpenCarry p row s
  | .acc p row src ramp first col cntM1 => Sys2Proof.Machine.execAccIns p row src ramp first col cntM1 s
  | .diff p row src ramp first col cntM1 => Sys2Proof.Machine.execDiff p row src ramp first col cntM1 s
  | .xdif p row srcA srcB ramp col cntM1 => Sys2Proof.Machine.execXdif p row srcA srcB ramp col cntM1 s
  | .sync p skip neg trig => Sys2Proof.Machine.execSync p skip neg trig s
  | .close p row => Sys2Proof.Machine.execClose p row s
  | .endProg p => Sys2Proof.Machine.execEndProg p s
  | .spiWrite t => Sys2Proof.Machine.execSpiWrite t s
  | .spiRead t => Sys2Proof.Machine.execSpiRead t s
  | .i2cWrite t => Sys2Proof.Machine.execI2cWrite t s
  | .i2cRead t => Sys2Proof.Machine.execI2cRead t s
  | .i2cHoldTimeout => Sys2Proof.Machine.execI2cHoldTimeout s
  | .hostRegisterWrite a addr value => Sys2Proof.Machine.execHostRegisterWrite a addr value s
  | .portStatusRead port => Sys2Proof.Machine.execPortStatusRead port s
  | .frnLoRead port page => Sys2Proof.Machine.execFrnLoRead port page s
  | .frnHiRead port page => Sys2Proof.Machine.execFrnHiRead port page s
  | .nowNsRead port r => Sys2Proof.Machine.execNowNsRead port r s
  | .nowSecRead port dom reg => Sys2Proof.Machine.execNowSecRead port dom reg s
  | .accDebugRead port tag addr => Sys2Proof.Machine.execAccDebugRead port tag addr s
  | .snapReq a page n => Sys2Proof.Machine.execSnapReq a page n s
  | .snapAll a => Sys2Proof.Machine.execSnapAll a s
  | .evtClear a page n bits => Sys2Proof.Machine.execEvtClear a page n bits s
  | .counterClear a addr value => Sys2Proof.Machine.execCounterClear a addr value s
  | .partReset a p => Sys2Proof.Machine.execPartReset a p s
  | .channelTableWrite a addr value => Sys2Proof.Machine.execChannelTableWrite a addr value s
  | .descriptorWrite row value => Sys2Proof.Machine.execDescriptorWrite row value s
  | .progBaseWrite p value => Sys2Proof.Machine.execProgBaseWrite p value s
  | .progWinWrite p x value => Sys2Proof.Machine.execProgWinWrite p x value s
  | .swap p => Sys2Proof.Machine.execSwap p s
  | .rdIdxWrite p value => Sys2Proof.Machine.execRdIdxWrite p value s
  | .loopBwWrite dom bw damp => Sys2Proof.Machine.execLoopBwWrite dom bw damp s
  | .setAbs dom => Sys2Proof.Machine.execSetAbs dom s
  | .setRel dom => Sys2Proof.Machine.execSetRel dom s
  | .trigArm dom k => Sys2Proof.Machine.execTrigArm dom k s
  | .trigDisarm dom k => Sys2Proof.Machine.execTrigDisarm dom k s
  | .capArm dom c => Sys2Proof.Machine.execCapArm dom c s
  | .capCancel dom c => Sys2Proof.Machine.execCapCancel dom c s
  | .apply n => Sys2Proof.Machine.execApply n s
  | .epoch n => Sys2Proof.Machine.execEpoch n s
  | .outEnable n => Sys2Proof.Machine.execOutEnable n s
  | .outDisable n => Sys2Proof.Machine.execOutDisable n s
  | .pulseModeChange n pulse => Sys2Proof.Machine.execPulseModeChange n pulse s
  | .dividerChange n div coarse => Sys2Proof.Machine.execDividerChange n div coarse s
  | .fineWrite n fine => Sys2Proof.Machine.execFineWrite n fine s
  | .pulsePeriodWrite n code perNs widthNs => Sys2Proof.Machine.execPulsePeriodWrite n code perNs widthNs s
  | .palignWrite n chan en => Sys2Proof.Machine.execPalignWrite n chan en s
  | .palignOfsHiWrite n hi => Sys2Proof.Machine.execPalignOfsHiWrite n hi s
  | .baudWrite dom baud => Sys2Proof.Machine.execBaudWrite dom baud s
  | .storeCmd p first countM1 => Sys2Proof.Machine.execStoreCmd p first countM1 s
  | .verify => Sys2Proof.Machine.execVerify s
  | .commit => Sys2Proof.Machine.execCommit s
  | .abort => Sys2Proof.Machine.execAbort s
  | .imageLoad => Sys2Proof.Machine.execImageLoad s
  | .imageActivate => Sys2Proof.Machine.execImageActivate s
  | .imageCancel => Sys2Proof.Machine.execImageCancel s
  | .leafRestartCmd => Sys2Proof.Machine.execLeafRestartCmd s
  | .debugRequest => Sys2Proof.Machine.execDebugRequest s
  | .debugRevoke => Sys2Proof.Machine.execDebugRevoke s
  | .portEnable n => Sys2Proof.Machine.execPortEnable n s
  | .portDisable n => Sys2Proof.Machine.execPortDisable n s
  | .restartAn n => Sys2Proof.Machine.execRestartAn n s
  | .rdSeqWrite value => Sys2Proof.Machine.execRdSeqWrite value s
  | .policyCommit => Sys2Proof.Machine.execPolicyCommit s
  | .verifyDone => Sys2Proof.Machine.execVerifyDone s
  | .imageDone => Sys2Proof.Machine.execImageDone s
  | .leafStart => Sys2Proof.Machine.execLeafStart s
  | .leafWdtExpiry => Sys2Proof.Machine.execLeafWdtExpiry s
  | .leafMpuFault => Sys2Proof.Machine.execLeafMpuFault s
  | .leafException => Sys2Proof.Machine.execLeafException s
  | .debugExpiry => Sys2Proof.Machine.execDebugExpiry s
  | .qlDeliver chan source node ssm ecode cyc => Sys2Proof.Machine.execQlDeliver chan source node ssm ecode cyc s
  | .pktEstimate inst chan fe m r cyc => Sys2Proof.Machine.execPktEstimate inst chan fe m r cyc s
  | .timeChange inst dom delta cyc => Sys2Proof.Machine.execTimeChange inst dom delta cyc s
  | .utcUpdate inst part ofs leap61 leap59 cyc => Sys2Proof.Machine.execUtcUpdate inst part ofs leap61 leap59 cyc s
  | .txFrame inst port f => Sys2Proof.Machine.execTxFrame inst port f s
  | .shelfTx type payload => Sys2Proof.Machine.execShelfTx type payload s
  | .regRead addr count => Sys2Proof.Machine.execRegRead addr count s
  | .pageReport addr value cyc => Sys2Proof.Machine.execPageReport addr value cyc s
  | .journal code part data => Sys2Proof.Machine.execJournal code part data s
  | .cellarStore first count => Sys2Proof.Machine.execCellarStore first count s
  | .storeRequest first count => Sys2Proof.Machine.execStoreRequest first count s
  | .ringPut key data => Sys2Proof.Machine.execRingPut key data s
  | .wdtKick => Sys2Proof.Machine.execWdtKick s
  | .restartSelf reason => Sys2Proof.Machine.execRestartSelf reason s
  | .secondsRollover dom => Sys2Proof.Machine.execSecondsRollover dom s
  | .trigFire dom k edges => Sys2Proof.Machine.execTrigFire dom k edges s
  | .capDone dom c => Sys2Proof.Machine.execCapDone dom c s
  | .todMessage dom => Sys2Proof.Machine.execTodMessage dom s
  | .nmeaSentence dom text afterUs => Sys2Proof.Machine.execNmeaSentence dom text afterUs s
  | .apllLockLost n => Sys2Proof.Machine.execApllLockLost n s
  | .relock n => Sys2Proof.Machine.execRelock n s
  | .retuneLock n => Sys2Proof.Machine.execRetuneLock n s
  | .refLost => Sys2Proof.Machine.execRefLost s
  | .refReturn => Sys2Proof.Machine.execRefReturn s
  | .dllLol n => Sys2Proof.Machine.execDllLol n s
  | .dllRelock n => Sys2Proof.Machine.execDllRelock n s
  | .ethFrameReceive port f => Sys2Proof.Machine.execEthFrameReceive port f s
  | .pcsLock port speedOk => Sys2Proof.Machine.execPcsLock port speedOk s
  | .pcsLockLoss port => Sys2Proof.Machine.execPcsLockLoss port s
  | .calDone port rxMean txMean => Sys2Proof.Machine.execCalDone port rxMean txMean s
  | .esmcPduReceive port pdu cyc => Sys2Proof.Machine.execEsmcPduReceive port pdu cyc s
  | .esmcInfoPdu port => Sys2Proof.Machine.execEsmcInfoPdu port s
  | .esmcEventPdu port => Sys2Proof.Machine.execEsmcEventPdu port s
  | .syncReceive inst m origin rate cyc => Sys2Proof.Machine.execSyncReceive inst m origin rate cyc s
  | .followUpReceive inst m origin rate cyc => Sys2Proof.Machine.execFollowUpReceive inst m origin rate cyc s
  | .followUpTimeout inst => Sys2Proof.Machine.execFollowUpTimeout inst s
  | .announceReceive inst m b cyc => Sys2Proof.Machine.execAnnounceReceive inst m b cyc s
  | .delayReqReceive inst m => Sys2Proof.Machine.execDelayReqReceive inst m s
  | .pdelayReqReceive inst m depF depO => Sys2Proof.Machine.execPdelayReqReceive inst m depF depO s
  | .unicastRequest inst port slave logInterval duration => Sys2Proof.Machine.execUnicastRequest inst port slave logInterval duration s
  | .syncTransmit inst port bytes rawF rawO => Sys2Proof.Machine.execSyncTransmit inst port bytes rawF rawO s
  | .announceTransmit inst port => Sys2Proof.Machine.execAnnounceTransmit inst port s
  | .ptpReopen inst => Sys2Proof.Machine.execPtpReopen inst s
  | .shelfStatusTx => Sys2Proof.Machine.execShelfStatusTx s
  | .shelfElectTx => Sys2Proof.Machine.execShelfElectTx s
  | .shelfQlFwdTx => Sys2Proof.Machine.execShelfQlFwdTx s
  | .shelfTodTx => Sys2Proof.Machine.execShelfTodTx s
  | .alert kind part dom data => Sys2Proof.Machine.execAlert kind part dom data s
  | .shelfElectRx f => Sys2Proof.Machine.execShelfElectRx f s
  | .shelfQlFwdRx f cyc => Sys2Proof.Machine.execShelfQlFwdRx f cyc s
  | .shelfTodRx f => Sys2Proof.Machine.execShelfTodRx f s
  | .regReq f => Sys2Proof.Machine.execRegReq f s
  | .regResp => Sys2Proof.Machine.execRegResp s
  | .peerLost node => Sys2Proof.Machine.execPeerLost node s
  | .silent => Sys2Proof.Machine.execSilent s
  | .busOff tec => Sys2Proof.Machine.execBusOff tec s
  | .busOffRecovery => Sys2Proof.Machine.execBusOffRecovery s
  | .powerFail vinMv holdupMv => Sys2Proof.Machine.execPowerFail vinMv holdupMv s
  | .vinGlitch => Sys2Proof.Machine.execVinGlitch s
  | .pfRecovered vinMv msLow => Sys2Proof.Machine.execPfRecovered vinMv msLow s
  | .shutdown => Sys2Proof.Machine.execShutdown s
  | .holdupOk holdupMv => Sys2Proof.Machine.execHoldupOk holdupMv s
  | .capEstimate us => Sys2Proof.Machine.execCapEstimate us s
  | .vaux3Oc => Sys2Proof.Machine.execVaux3Oc s
  | .vaux3Retry loadMa => Sys2Proof.Machine.execVaux3Retry loadMa s
  | .vinRange vinMv => Sys2Proof.Machine.execVinRange vinMv s
  | .warmupDone => Sys2Proof.Machine.execWarmupDone s
  | .ovenFault => Sys2Proof.Machine.execOvenFault s
  | .warmupRestart => Sys2Proof.Machine.execWarmupRestart s
  | .heaterSat => Sys2Proof.Machine.execHeaterSat s
  | .heaterIdle => Sys2Proof.Machine.execHeaterIdle s
  | .holdupFirst18v v => Sys2Proof.Machine.execHoldupFirst18v v s
  | .blockStoreDone v => Sys2Proof.Machine.execBlockStoreDone v s
  | .storeDeferRetry v => Sys2Proof.Machine.execStoreDeferRetry v s
  | .storeFailed v => Sys2Proof.Machine.execStoreFailed v s
  | .scrub r => Sys2Proof.Machine.execScrub r s
  | .ringStore v => Sys2Proof.Machine.execRingStore v s
  | .bboxEntryWrite => Sys2Proof.Machine.execBboxEntryWrite s
  | .queueLost => Sys2Proof.Machine.execQueueLost s
  | .suppressionWindowEnd => Sys2Proof.Machine.execSuppressionWindowEnd s
  | .alignLost n => Sys2Proof.Machine.execAlignLost n s
  | .announceReceiptTimeout inst => Sys2Proof.Machine.execAnnounceReceiptTimeout inst s
  | .delayReqTransmit inst q => Sys2Proof.Machine.execDelayReqTransmit inst q s
  | .delayRespReceive inst m t1 t4 => Sys2Proof.Machine.execDelayRespReceive inst m t1 t4 s
  | .errPassive tec rec => Sys2Proof.Machine.execErrPassive tec rec s
  | .unknownFrame f => Sys2Proof.Machine.execUnknownFrame f s
  | .vioFall => Sys2Proof.Machine.execVioFall s
  | .vioReturn => Sys2Proof.Machine.execVioReturn s

end Sys2Proof.Machine
end

