-- ==== Sys2Proof/WellFormed.lean ====
section
/-! DEFINITION. Which commands exist: every operand names a unit the module has and a value its width holds. -/

namespace Sys2Proof

open Sys2Proof.Machine

/-- Whether a command can be sent to the block at all; a command that is not well-formed is refused in every state. -/
def Instr.wellFormed : Instr → Bool
  | .powerOnReset _ => true
  | .resetNFall => true
  | .resetNRelease _ => true
  | .timebaseQualified => true
  | .tbFallback => true
  | .tbSwitch => true
  | .tbLost => true
  | .procReset => true
  | .softReset key => decide (key < 2 ^ 16)
  | .frameTick _ => true
  | .qualifierWindowClose => true
  | .laneCalibration r => decide (r.lane < 18)
  | .spareCalDone lane => decide (lane < 18)
  | .padOverdrive pad => decide (pad < 8)
  | .suspectEnd pad => decide (pad < 8)
  | .actTimeout chan => decide (chan < 12)
  | .qlTimeout chan => decide (chan < 12)
  | .holdOffExpiry dom chan => decide (dom < 4 ∧ chan < 12)
  | .wtrExpiry dom chan => decide (dom < 4 ∧ chan < 12)
  | .lockAchieved dom => decide (dom < 4)
  | .slewDone dom => decide (dom < 4)
  | .bridgeEnd dom => decide (dom < 4)
  | .historySegment dom => decide (dom < 4)
  | .duskExpiry dom => decide (dom < 4)
  | .steppedEnd dom => decide (dom < 4)
  | .nop p => decide (p < 4)
  | .openZero p row => decide (p < 4 ∧ row < 256)
  | .openBias p row bias => decide (p < 4 ∧ row < 256 ∧ -32768 ≤ bias ∧ bias ≤ 32767)
  | .openResidual p row src => decide (p < 4 ∧ row < 256 ∧ src < 256)
  | .openCarry p row => decide (p < 4 ∧ row < 256)
  | .acc p row src _ first col cntM1 => decide (p < 4 ∧ row < 256 ∧ src < 32 ∧ first < 64 ∧ col < 4 ∧ cntM1 < 64)
  | .diff p row src _ first col cntM1 => decide (p < 4 ∧ row < 256 ∧ src < 32 ∧ first < 64 ∧ col < 4 ∧ cntM1 < 64)
  | .xdif p row srcA srcB _ col cntM1 => decide (p < 4 ∧ row < 256 ∧ srcA < 32 ∧ srcB < 32 ∧ col < 4 ∧ cntM1 < 64)
  | .sync p skip _ trig => decide (p < 4 ∧ skip < 256 ∧ trig < 8)
  | .close p row => decide (p < 4 ∧ row < 256)
  | .endProg p => decide (p < 4)
  | .spiWrite t => SpiWrite.ok t
  | .spiRead t => SpiRead.ok t
  | .i2cWrite t => I2cWrite.ok t
  | .i2cRead t => I2cRead.ok t
  | .i2cHoldTimeout => true
  | .hostRegisterWrite a addr value => Access.ok a && decide (addr < 2 ^ 24) && isWord value
  | .portStatusRead _ => true
  | .frnLoRead _ page => decide (page = .frame ∨ page = .sys)
  | .frnHiRead _ page => decide (page = .frame ∨ page = .sys)
  | .nowNsRead _ r => isDom r.dom && decide (r.cyc < 1250)
  | .nowSecRead _ dom reg => isDom dom && decide (reg < 3)
  | .accDebugRead _ tag addr => decide (tag < 8 ∧ 0x700000 ≤ addr ∧ addr < 0x702000 ∧ addr % 4 = 0)
  | .snapReq a page n => Access.ok a && isPage page n
  | .snapAll a => Access.ok a
  | .evtClear a page n bits => Access.ok a && isPage page n && isWord bits
  | .counterClear a addr value => Access.ok a && isAddr addr && isWord value && (fieldsOf addr).any fun x => x.fld.acc == .cnt
  | .partReset a p => Access.ok a && isDom p
  | .channelTableWrite a addr value => Access.ok a && isAddr addr && isWord value && decide (0x400000 ≤ addr) && decide (addr < 0x400800)
  | .descriptorWrite row value => decide (row < 256 ∧ value < 2 ^ 32)
  | .progBaseWrite p value => decide (p < 4 ∧ value < 2 ^ 32)
  | .progWinWrite p i value => decide (p < 4 ∧ i < 16 ∧ value < 2 ^ 32)
  | .swap p => decide (p < 4)
  | .rdIdxWrite p value => decide (p < 4 ∧ value < 2 ^ 32)
  | .loopBwWrite dom _ _ => decide (dom < 4)
  | .setAbs dom => decide (dom < 4)
  | .setRel dom => decide (dom < 4)
  | .trigArm dom k => decide (dom < 4 ∧ k < 8)
  | .trigDisarm dom k => decide (dom < 4 ∧ k < 8)
  | .capArm dom c => decide (dom < 4 ∧ c < 8)
  | .capCancel dom c => decide (dom < 4 ∧ c < 8)
  | .apply n => decide (n < 4)
  | .epoch n => decide (n < 4)
  | .outEnable n => decide (n < 10)
  | .outDisable n => decide (n < 10)
  | .pulseModeChange n _ => decide (n < 10)
  | .dividerChange n div coarse => decide (n < 10 ∧ div.getD 0 < 2 ^ 32 ∧ coarse.getD 0 < 2 ^ 32)
  | .fineWrite n fine => decide (n < 10 ∧ fine < 256)
  | .pulsePeriodWrite n code perNs widthNs => decide (n < 10 ∧ code.getD 0 < 8 ∧ perNs.getD 0 < 2 ^ 30 ∧ widthNs.getD 0 < 2 ^ 30)
  | .palignWrite n chan _ => decide (n < 10 ∧ chan < 16)
  | .palignOfsHiWrite n hi => decide (n < 10 ∧ hi < 2 ^ 16)
  | .baudWrite dom baud => decide (dom < 4 ∧ baud < 8)
  | .storeCmd p first countM1 => decide (p < 4 ∧ first < 256 ∧ countM1 < 256)
  | .verify => true
  | .commit => true
  | .abort => true
  | .imageLoad => true
  | .imageActivate => true
  | .imageCancel => true
  | .leafRestartCmd => true
  | .debugRequest => true
  | .debugRevoke => true
  | .portEnable n => decide (n < 2)
  | .portDisable n => decide (n < 2)
  | .restartAn n => decide (n < 2)
  | .rdSeqWrite value => decide (value < 2 ^ 32)
  | .policyCommit => true
  | .verifyDone => true
  | .imageDone => true
  | .leafStart => true
  | .leafWdtExpiry => true
  | .leafMpuFault => true
  | .leafException => true
  | .debugExpiry => true
  | .qlDeliver _ _ _ ssm ecode cyc => decide (ssm < 16 ∧ ecode.getD 0 < 256 ∧ cyc < 1250)
  | .pktEstimate inst _ _ _ _ cyc => decide (inst < 4 ∧ cyc < 1250)
  | .timeChange inst _ _ cyc => decide (inst < 4 ∧ cyc < 1250)
  | .utcUpdate inst _ _ _ _ cyc => decide (inst < 4 ∧ cyc < 1250)
  | .txFrame inst _ f => decide (inst < 4 ∧ areBytes f.bytes ∧ f.rawO < 64000000)
  | .shelfTx _ payload => areBytes payload
  | .regRead _ _ => true
  | .pageReport _ value cyc => decide (value < 2 ^ 32 ∧ cyc < 1250)
  | .journal _ _ data => decide (data < 2 ^ 32)
  | .cellarStore _ _ => true
  | .storeRequest _ _ => true
  | .ringPut _ data => areBytes data
  | .wdtKick => true
  | .restartSelf reason => decide (reason < 2 ^ 32)
  | .secondsRollover dom => decide (dom < 4)
  | .trigFire dom k _ => decide (dom < 4 ∧ k < 8)
  | .capDone dom c => decide (dom < 4 ∧ c < 8)
  | .todMessage dom => decide (dom < 4)
  | .nmeaSentence dom text _ => decide (dom < 4 ∧ text.all (fun c => decide (c < 256)))
  | .apllLockLost n => decide (n < 4)
  | .relock n => decide (n < 4)
  | .retuneLock n => decide (n < 4)
  | .refLost => true
  | .refReturn => true
  | .dllLol n => decide (n < 10)
  | .dllRelock n => decide (n < 10)
  | .ethFrameReceive port f => decide (port < 2 ∧ areBytes f.bytes ∧ f.rawO < 64000000)
  | .pcsLock port _ => decide (port < 2)
  | .pcsLockLoss port => decide (port < 2)
  | .calDone port _ _ => decide (port < 2)
  | .esmcPduReceive port pdu cyc => decide (port < 2 ∧ pdu.ssm < 16 ∧ (EsmcPdu.code pdu).getD 0 < 256 ∧ cyc < 1250)
  | .esmcInfoPdu port => decide (port < 2)
  | .esmcEventPdu port => decide (port < 2)
  | .syncReceive inst m _ _ cyc => decide (inst < 4 ∧ PtpMsg.ok m ∧ cyc < 1250)
  | .followUpReceive inst m _ _ cyc => decide (inst < 4 ∧ PtpMsg.ok m ∧ cyc < 1250)
  | .followUpTimeout inst => decide (inst < 4)
  | .announceReceive inst m b cyc => decide (inst < 4 ∧ PtpMsg.ok m ∧ b.gmClass < 256 ∧ b.steps < 2 ^ 16 ∧ cyc < 1250)
  | .delayReqReceive inst m => decide (inst < 4 ∧ PtpMsg.ok m)
  | .pdelayReqReceive inst m _ depO => decide (inst < 4 ∧ PtpMsg.ok m ∧ depO < 64000000)
  | .unicastRequest inst port _ _ duration => decide (inst < 4 ∧ port < 2 ∧ duration < 2 ^ 32)
  | .syncTransmit inst port bytes _ rawO => decide (inst < 4 ∧ port < 2 ∧ areBytes bytes ∧ rawO < 64000000)
  | .announceTransmit inst port => decide (inst < 4 ∧ port < 2)
  | .ptpReopen inst => decide (inst < 4)
  | .shelfStatusTx => true
  | .shelfElectTx => true
  | .shelfQlFwdTx => true
  | .shelfTodTx => true
  | .alert kind part dom data => decide (1 ≤ kind ∧ kind ≤ 7 ∧ part < 4 ∧ dom < 4 ∧ data < 2 ^ 32)
  | .shelfElectRx f => decide (CanFrame.ok f ∧ f.ident % 8 = 1)
  | .shelfQlFwdRx f cyc => decide (CanFrame.ok f ∧ f.ident % 8 = 2 ∧ cyc < 1250)
  | .shelfTodRx f => decide (CanFrame.ok f ∧ f.ident % 8 = 3)
  | .regReq f => decide (CanFrame.ok f ∧ f.ident % 8 = 5)
  | .regResp => true
  | .peerLost node => decide (node < 32)
  | .silent => true
  | .busOff tec => decide (tec < 512)
  | .busOffRecovery => true
  | .powerFail _ _ => true
  | .vinGlitch => true
  | .pfRecovered _ _ => true
  | .shutdown => true
  | .holdupOk _ => true
  | .capEstimate _ => true
  | .vaux3Oc => true
  | .vaux3Retry _ => true
  | .vinRange _ => true
  | .warmupDone => true
  | .ovenFault => true
  | .warmupRestart => true
  | .heaterSat => true
  | .heaterIdle => true
  | .holdupFirst18v _ => true
  | .blockStoreDone _ => true
  | .storeDeferRetry _ => true
  | .storeFailed _ => true
  | .scrub _ => true
  | .ringStore _ => true
  | .bboxEntryWrite => true
  | .queueLost => true
  | .suppressionWindowEnd => true
  | .alignLost n => decide (n < 10)
  | .announceReceiptTimeout inst => decide (inst < 4)
  | .delayReqTransmit inst q => decide (inst < 4 ∧ q.port < 2 ∧ q.rawO < 64000000)
  | .delayRespReceive inst m _ _ => decide (inst < 4 ∧ PtpMsg.ok m)
  | .errPassive tec rec => decide (tec < 256 ∧ rec < 256)
  | .unknownFrame f => CanFrame.ok f
  | .vioFall => true
  | .vioReturn => true

end Sys2Proof
end

