-- ==== Sys2Proof/Safety.lean ====
section
/-! DEFINITION. What a safe run is: every command taken exists, so no step stops; the invariants that every step keeps; and
the terms in which frames are stated: which components of the state, and which register cells, a command may change. -/

namespace Sys2Proof.Machine

/-- A step that answers a next state. -/
def Advances (s : State) : Prop := ∃ t, step s = .next t

/-- A run of `k` steps that stops nowhere. -/
def SafeFor (k : Nat) (s : State) : Prop := ∃ t, Sys2Proof.core.run k s = .next t

/-- Every command that waits exists. -/
def QueueOk (s : State) : Prop := ∀ c ∈ s.pending, c.wellFormed = true

/-- How many triggers and captures a domain's time unit has. -/
def TimeU.sizes (u : TimeU) : Nat × Nat := (u.trigs.length, u.caps.length)

/-- The units of the module: 18 lanes, 16 lane functions, 256 rows, 4 partitions, 12 channels, 2 of them packet channels, 4
domains with 12 pairs each, 4 APLLs, 10 outputs, 4 time units with 8 triggers and 8 captures each, 2 ports, 4 instances. -/
structure Shaped (s : State) : Prop where
  lanes : s.lanes.length = 18
  funcs : s.funcs.length = 16
  rows  : s.rows.length = 256
  parts : s.parts.length = 4
  chans : s.chans.length = 12
  pkts  : s.pkts.length = 2
  pairs : s.pairs.map List.length = List.replicate 4 12
  doms  : s.doms.length = 4
  aplls : s.aplls.length = 4
  outs  : s.outs.length = 10
  times : s.times.map TimeU.sizes = List.replicate 4 (8, 8)
  eths  : s.eths.length = 2
  ptps  : s.ptps.length = 4

/-- What every step keeps: memory in its canonical form, the journal queue within its 64 entries (R565), and the units. -/
structure Inv (s : State) : Prop where
  shape : Shaped s
  mem : Memory.wf s.mem = true
  jrn : s.jrn.queue.length ≤ 64

/-! ### Frames of register cells -/

/-- The cells of a list of fields without indices, with their instances. -/
def cells (l : List (Fld × Nat)) : List Nat := l.map fun x => fldKey x.1 x.2 0 0

/-- The cells that an event of a page writes. -/
def evtCells (p : Page) (n : Nat) : List Nat := cells [(HDR.EVT p, n), (HDR.EVT_CNT p, n)]

/-- The cells that a journal entry may count in: one lost for want of room, one suppressed (R565, R566). -/
def jrnCells : List Nat := cells [(BBOX.QLOST_CNT, 0), (BBOX.SUPPRESS_CNT, 0)]

/-- Register cells other than those listed are as they were. -/
def CellsElse (ks : List Nat) (s t : State) : Prop := ∀ k, k ∉ ks → kvGet t.regs k = kvGet s.regs k

/-- Only register cells changed, and of these only the ones listed: every other cell, every unit and every byte of memory is
as it was. -/
def OnlyCells (ks : List Nat) (s t : State) : Prop := t = { s with regs := t.regs } ∧ CellsElse ks s t

/-- A counter counted on: by `m`, saturating (R86). -/
def Counted (s t : State) (f : Fld) (n k m : Nat) : Prop := getF t f n k 0 = satTo cntMax (getF s f n k 0 + m)

/-- An event bit of a page is set. -/
def Raised (s : State) (p : Page) (n bit : Nat) : Prop := bitOf (get1 s (HDR.EVT p) n) bit = true

/-- The register cells of a page: what the cell `k` holds where `k` belongs to the page. -/
def pageCells (p : Page) (regs : List (Nat × Nat)) (k : Nat) : Option Nat :=
  if keyPage k = pageType p then kvGet regs k else none

/-! ### Slot windows -/

/-- A row-engine instruction's turn: its partition is open, frames run, and its program neither skips it, has ended nor has
overrun; the row it names was not closed automatically in the frame (R75, R78, R205, R207). -/
def RowTurn (s : State) (p : Nat) (i : Ins) : Prop :=
  isOpen s p = true ∧ s.phase = .running ∧ (partOf s p).run.ended = false ∧ (partOf s p).run.overrun = false ∧
  (partOf s p).run.skip = 0 ∧ (partOf s p).run.skipAll = false ∧ ∀ r, insRow i = some r → autoClosed s p r = false

/-- The instruction executes: it meets no fault and its slots fit the quota (R78, R199, R200). -/
def RowRuns (s : State) (p : Nat) (i : Ins) : Prop :=
  RowTurn s p i ∧ insFault s p i = none ∧ (partOf s p).run.used + insCost s i ≤ quotaOf s p

/-- The slots an instruction takes, and the next instruction's index. -/
def SlotsUsed (s t : State) (p n : Nat) : Prop :=
  (partOf t p).run.used = (partOf s p).run.used + n ∧ (partOf t p).run.pc = (partOf s p).run.pc + 1

/-! ### Opened rows -/

/-- A row opened under its descriptor in the frame in progress, with words of its own: COUNT 0, exponent 0, no flag (R201, R202). -/
def openedRow (s : State) (row : Nat) (ws : List Int) : RowU :=
  { isOpen := true, ever := true, opened := true, base := getF s ROWS.DESC_BASE 0 row 0, fmt := getF s ROWS.DESC_FMT 0 row 0,
    ovf := getF s ROWS.DESC_OVF 0 row 0 == 1, orng := getF s ROWS.DESC_ORNG 0 row 0 == 1, openFrn := s.frn, words := ws }

/-- A row's words under a format: -2^47 in every word of an infinite row, else its words, cut or filled with zeros where the
format has another number of them (DESIGN CHOICE for that case, notes/assumptions 33). -/
def wordsUnder (fmt : Nat) (r : RowU) : List Int :=
  if r.inf then List.replicate (fmtWords fmt) infWord else (r.words ++ List.replicate (fmtWords fmt) 0).take (fmtWords fmt)

/-- An OPEN of partition `p` has put `r` at `row` at a cost of `n` slots: the accumulator words of `r` hold its words, and every
other row, every other accumulator word and everything else is as it was. -/
def RowOpened (s t : State) (p row n : Nat) (r : RowU) : Prop :=
  rowOf t row = r ∧ (∀ m, m ≠ row → rowOf t m = rowOf s m) ∧
  (∀ i, i < fmtWords r.fmt → (kvGet t.accs (r.base + i)).getD 0 = r.words.getD i 0) ∧
  (∀ a, a < r.base ∨ r.base + fmtWords r.fmt ≤ a → kvGet t.accs a = kvGet s.accs a) ∧
  SlotsUsed s t p n ∧ t = { s with rows := t.rows, accs := t.accs, parts := t.parts }

/-! ### Outputs -/

/-- An active output has begun to stop: a stop in progress keeps its end, a high phase or pulse in progress ends it later, and
an output that is low has stopped (R338, R339). -/
def OutStops (s t : State) (n : Nat) : Prop :=
  (∀ x, (outOf s n).fall = some x → (outOf t n).active = true ∧ (outOf t n).fall = some x) ∧
  ((outOf s n).fall = none → 0 < highLeft s n → (outOf t n).active = true ∧ (outOf t n).fall = some (highLeft s n)) ∧
  ((outOf s n).fall = none → highLeft s n ≤ 0 → (outOf t n).active = false)

/-- An output has been brought to what its registers ask for in `u`: one that runs and should goes on, one that runs and should
not begins to stop, one that waits for its first edge keeps its RUN, and one that should not run reports why; no other output is
touched (R338, R343). -/
def OutRefreshed (s u t : State) (n : Nat) : Prop :=
  let w := outWant u n
  (∀ m, m ≠ n → outOf t m = outOf s m) ∧ (outOf t n).want = w ∧
  ((outOf s n).active = true → w = 2 → (outOf t n).active = true ∧ (outOf t n).fall = (outOf s n).fall ∧
    get1 t OUT.STATUS_RUN n = get1 s OUT.STATUS_RUN n) ∧
  ((outOf s n).active = true → w ≠ 2 → OutStops s t n ∧ ((outOf t n).active = false → get1 t OUT.STATUS_RUN n = w)) ∧
  ((outOf s n).active = false → (outOf t n).active = false ∧
    get1 t OUT.STATUS_RUN n = if w = 2 then get1 s OUT.STATUS_RUN n else w)

/-! ### Stores -/

/-- A store of block `b` for requester `o` is queued or running, at priority `prio` or better (R483). -/
def StoreWaits (t : State) (b o prio : Nat) : Prop :=
  ∃ j : StoreJob, (j ∈ t.cellar.queue ∨ (t.cellar.run.map fun r => r.job) = some j) ∧ j.block = b ∧ o ∈ j.owners ∧ j.prio ≤ prio

/-- A rewrite of one copy is queued at its priority, or that copy is being programmed (R501, R503). -/
def FixWaits (t : State) (b c prio : Nat) : Prop :=
  (⟨b, prio, [], some c⟩ : StoreJob) ∈ t.cellar.queue ∨ ∃ r, t.cellar.run = some r ∧ r.job.block = b ∧ r.copy = c

/-- A gate call is refused with a result, counted and reported, and changes nothing of the Cellar (R448). -/
def GateRefused (s t : State) (call result : Nat) : Prop :=
  t.gate.res = result ∧ get1 t ROOT.GATE_LAST_CALL 0 = call ∧ get1 t ROOT.GATE_LAST_RESULT 0 = result ∧
  Counted s t ROOT.GATE_REFUSE_CNT 0 0 1 ∧ t.cellar = s.cellar

/-! ### PTP and shelf messages -/

/-- Instance `p` accepts a message on its port: Leaf runs, the link is up, the instance is open and uses the port, and domain
and version are its own, and the message is of a kind that Table 12.4 supports (R394, R399). -/
def PtpAccepts (s : State) (p : Nat) (m : PtpMsg) : Prop :=
  PtpMsg.ok m = true ∧ leafRuns s = true ∧ portUp s m.port = true ∧ instOn s m.port p = true ∧ instClosed s p = false ∧
  m.domainNumber = getF s PTPTS.CFG_DOMAIN m.port p 0 ∧ m.version = 2 ∧
  m.minorVersion ≤ 1 ∧ m.odd = false

/-- A complete Sync has given an estimate (R411, R413): the port is SLAVE, OFFSET shows TIMEp − M at the tick before the arrival,
and an instance that feeds a packet channel has made its gate call, with a change of time where the channel is active in FREQ mode
and the offset exceeds THRESH. -/
def PtpEstimated (s t : State) (p n cyc : Nat) (raw : Int) (origin : Rat) (corr : Int) (r : Rat) : Prop :=
  let m := masterAt s n p origin corr (rawOfs raw) r
  let off := timeAtTick s p (rawFrn raw) - m
  let feed := getF s PTPTS.CFG_FEED n p 0
  let call : GateCall := .pkt p (9 + feed) (rawFrn raw) m r
  let ask : GateCall := .time p p (-off / 512)
  let Shown := getF t PTPTS.STATE_PORT n p 0 = 8 ∧ getF t PTPTS.OFFSET n p 0 = satSigned 32 (roundAway off) % 2 ^ 32 ∧
    (ptpOf t p).arrival = raw ∧ (ptpOf t p).rate = r
  (feed = 0 → Shown ∧ t.gate = s.gate) ∧
  (feed ≠ 0 → gateCheck s (dueOf s cyc) call = none → s.gate.queue.length < 255 → Shown ∧ Counted s t PTPTS.EST_CNT n p 1 ∧
    (dueOf s cyc, call) ∈ t.gate.queue ∧
    (domRuns s p = true → (domOf s p).mode = 0 → activeOf s p = 9 + feed →
      (get1 s TIME.STEP_CFG_THRESH p : Rat) < absR (-off / 512) → gateCheck s (dueOf s cyc) ask = none →
      (dueOf s cyc, ask) ∈ t.gate.queue))

/-- An Announce of the parent has been taken (R400, R401, Table 8.1): its grandmaster is shown, its UTC goes to the partition, and
its clockClass to a channel whose QL is the instance's. -/
def AnnounceTaken (s t : State) (p n cyc : Nat) (b : AnnounceBody) : Prop :=
  let c := 9 + getF s PTPTS.CFG_FEED n p 0
  getF t PTPTS.GM_CLASS n p 0 = b.gmClass ∧ getF t PTPTS.GM_STEPS n p 0 = b.steps ∧ (ptpOf t p).utcOk = b.utcValid ∧
  (s.gate.queue.length < 255 →
    (b.utcValid = true → b.utcOfs.natAbs ≤ 255 → (b.leap61 = false ∨ b.leap59 = false) →
      (dueOf s cyc, .utc p p b.utcOfs b.leap61 b.leap59) ∈ t.gate.queue) ∧
    (10 ≤ c → c < 12 → qlSrc s c = 4 → (dueOf s cyc, .ql c 4 0 0 (some b.gmClass) true) ∈ t.gate.queue))

/-- A port that followed a parent follows none (R401). -/
def ParentEnded (t : State) (n p : Nat) : Prop :=
  parentOf t n p = 0 ∧ getF t PTPTS.GM_CLASS n p 0 = 255 ∧ getF t PTPTS.GM_STEPS n p 0 = 0 ∧ (ptpOf t p).utcOk = false ∧
  (ptpOf t p).pend = none

/-- The commands that bring a message to an instance. -/
def Brings (i : Instr) (p : Nat) (m : PtpMsg) : Prop :=
  (∃ origin rate cyc, cyc < 1250 ∧ (i = .syncReceive p m origin rate cyc ∨ i = .followUpReceive p m origin rate cyc)) ∨
  (∃ b cyc, b.gmClass < 256 ∧ b.steps < 2 ^ 16 ∧ cyc < 1250 ∧ i = .announceReceive p m b cyc) ∨ i = .delayReqReceive p m ∨
  (∃ f o, o < 64000000 ∧ i = .pdelayReqReceive p m f o) ∨ ∃ t1 t4, i = .delayRespReceive p m t1 t4

/-- A shelf message is on the bus or waits in its buffer. -/
def Sent (s : State) (type : Nat) (p : List Nat) : Prop :=
  s.shelf.onBus = some (type, p) ∨ kvGet s.shelf.bufs type = some p

/-- Leaf may send on the shelf bus. -/
def MaySend (s : State) : Prop := leafRuns s = true ∧ maySend s = true

/-- A valid frame of another node of the roster, with the transceiver supplied (R422 to R424, R442). -/
def FrameOk (s : State) (f : CanFrame) : Prop :=
  CanFrame.ok f = true ∧ get1 s SHELF.CFG_EN 0 ≠ 0 ∧ leafRuns s = true ∧ transceiverOn s = true ∧
  canUnknown f = false ∧ canNode f ≠ nodeOf s ∧
  bitOf (get1 s SHELF.ROSTER 0) (canNode f) = true

/-- The commands that bring a frame to the shelf controller. -/
def BringsFrame (i : Instr) (f : CanFrame) : Prop :=
  CanFrame.ok f = true ∧
  ((i = .shelfElectRx f ∧ f.ident % 8 = 1) ∨ (∃ cyc, cyc < 1250 ∧ i = .shelfQlFwdRx f cyc ∧ f.ident % 8 = 2) ∨
   (i = .shelfTodRx f ∧ f.ident % 8 = 3) ∨ (i = .regReq f ∧ f.ident % 8 = 5) ∨ (i = .unknownFrame f ∧ canUnknown f = true))

/-! ### Frames of components -/

/-- The components of the state. -/
inductive Component where
  | pending | freeIx | phase | straps | frn | cyc | regs | snaps | snapReq | snapAll | writeQ | spi | i2c | i2cHold
  | pol | mem | jrn | lanes | funcs | rows | accs | parts | chans | pkts | pairs | doms | aplls | outs | times
  | gate | eths | ptps | shelf | cellar | root | power | vio | tbHold | jrOn
  deriving DecidableEq, Repr

/-- All components. -/
def Component.all : List Component :=
  [.pending, .freeIx, .phase, .straps, .frn, .cyc, .regs, .snaps, .snapReq, .snapAll, .writeQ, .spi, .i2c, .i2cHold,
   .pol, .mem, .jrn, .lanes, .funcs, .rows, .accs, .parts, .chans, .pkts, .pairs, .doms, .aplls, .outs, .times,
   .gate, .eths, .ptps, .shelf, .cellar, .root, .power, .vio, .tbHold, .jrOn]

/-- All components but those listed. -/
def Component.allBut (l : List Component) : List Component := Component.all.filter fun c => !l.contains c

/-- A component is the same in two states. -/
def Component.same (c : Component) (s t : State) : Prop :=
  match c with
  | .pending => t.pending = s.pending
  | .freeIx => t.freeIx = s.freeIx
  | .phase => t.phase = s.phase
  | .straps => t.straps = s.straps
  | .frn => t.frn = s.frn
  | .cyc => t.cyc = s.cyc
  | .regs => t.regs = s.regs
  | .snaps => t.snaps = s.snaps
  | .snapReq => t.snapReq = s.snapReq
  | .snapAll => t.snapAll = s.snapAll
  | .writeQ => t.writeQ = s.writeQ
  | .spi => t.spi = s.spi
  | .i2c => t.i2c = s.i2c
  | .i2cHold => t.i2cHold = s.i2cHold
  | .pol => t.pol = s.pol
  | .mem => t.mem = s.mem
  | .jrn => t.jrn = s.jrn
  | .lanes => t.lanes = s.lanes
  | .funcs => t.funcs = s.funcs
  | .rows => t.rows = s.rows
  | .accs => t.accs = s.accs
  | .parts => t.parts = s.parts
  | .chans => t.chans = s.chans
  | .pkts => t.pkts = s.pkts
  | .pairs => t.pairs = s.pairs
  | .doms => t.doms = s.doms
  | .aplls => t.aplls = s.aplls
  | .outs => t.outs = s.outs
  | .times => t.times = s.times
  | .gate => t.gate = s.gate
  | .eths => t.eths = s.eths
  | .ptps => t.ptps = s.ptps
  | .shelf => t.shelf = s.shelf
  | .cellar => t.cellar = s.cellar
  | .root => t.root = s.root
  | .power => t.power = s.power
  | .vio => t.vio = s.vio
  | .tbHold => t.tbHold = s.tbHold
  | .jrOn => t.jrOn = s.jrOn

end Sys2Proof.Machine

namespace Sys2Proof

open Sys2Proof.Machine in
/-- The components that a command may change; every command leaves the queue of waiting commands alone. -/
def Instr.writes (i : Instr) : List Component :=
  match i with
  | .powerOnReset _ => Component.allBut [.pending, .freeIx, .vio]
  | .resetNFall =>
    [.phase, .regs, .snapReq, .snapAll, .writeQ, .spi, .i2c, .i2cHold, .outs, .gate, .shelf, .cellar, .root,
     .power]
  | .resetNRelease _ => Component.allBut [.pending, .freeIx, .vio, .jrOn]
  | .timebaseQualified | .tbFallback =>
    Component.allBut [.pending, .straps, .snaps, .snapReq, .snapAll, .spi, .i2c, .i2cHold, .power, .vio, .tbHold, .jrOn]
  | .tbSwitch => [.regs, .jrn, .doms, .tbHold]
  | .tbLost => [.phase, .regs, .mem, .jrn, .outs, .cellar, .root]
  | .procReset =>
    [.regs, .mem, .jrn, .lanes, .funcs, .chans, .pkts, .times, .gate, .ptps, .shelf, .cellar, .root]
  | .softReset _ =>
    [.regs, .mem, .jrn, .lanes, .funcs, .rows, .parts, .chans, .pkts, .pairs, .doms, .aplls, .times, .gate,
     .ptps, .shelf, .cellar, .root]
  | .frameTick _ =>
    Component.allBut [.pending, .phase, .straps, .spi, .i2c, .i2cHold, .vio, .jrOn]
  | .qualifierWindowClose => [.regs, .chans]
  | .laneCalibration _ => [.regs, .jrn, .lanes, .funcs, .doms]
  | .spareCalDone _ => [.regs]
  | .padOverdrive _ => [.regs, .jrn, .lanes, .funcs, .chans]
  | .suspectEnd _ => [.regs, .funcs]
  | .actTimeout _ => [.regs, .lanes, .funcs, .chans, .pkts]
  | .qlTimeout _ => [.regs, .jrn, .chans]
  | .holdOffExpiry _ _ | .wtrExpiry _ _ => [.regs, .jrn, .pairs]
  | .lockAchieved _ => [.regs, .jrn]
  | .slewDone _ | .bridgeEnd _ | .historySegment _ => [.regs, .doms]
  | .duskExpiry _ => [.regs, .jrn]
  | .steppedEnd _ => [.regs, .times]
  | .nop _ | .openZero _ _ | .openBias _ _ _ | .openResidual _ _ _ | .openCarry _ _ | .acc _ _ _ _ _ _ _
    | .diff _ _ _ _ _ _ _ | .xdif _ _ _ _ _ _ _ | .sync _ _ _ _ | .close _ _ | .endProg _ => [.regs, .rows, .accs, .parts]
  | .spiWrite _ => [.cyc, .regs, .snapReq, .snapAll, .writeQ, .spi, .i2c, .mem, .jrn, .cellar, .root]
  | .spiRead _ => [.freeIx, .cyc, .spi, .i2c, .gate, .shelf]
  | .i2cWrite _ =>
    [.cyc, .regs, .snapReq, .snapAll, .writeQ, .spi, .i2c, .i2cHold, .mem, .jrn, .cellar, .root]
  | .i2cRead _ => [.freeIx, .cyc, .spi, .i2c, .i2cHold, .gate, .shelf]
  | .i2cHoldTimeout => [.spi, .i2c, .i2cHold]
  | .hostRegisterWrite _ _ _ =>
    [.cyc, .regs, .snapReq, .snapAll, .writeQ, .spi, .i2c, .i2cHold, .mem, .jrn, .cellar, .root]
  | .portStatusRead _ => [.spi, .i2c]
  | .frnLoRead _ _ => [.spi, .i2c, .gate, .shelf]
  | .frnHiRead _ _ => [.spi, .i2c]
  | .nowNsRead _ _ => [.freeIx, .cyc, .spi, .i2c, .gate, .shelf]
  | .nowSecRead _ _ _ => [.spi, .i2c]
  | .accDebugRead _ _ _ => [.freeIx, .spi, .i2c, .gate, .shelf]
  | .snapReq _ _ _ | .snapAll _ | .evtClear _ _ _ _ | .counterClear _ _ _ | .partReset _ _ | .channelTableWrite _ _ _ =>
    [.cyc, .regs, .snapReq, .snapAll, .writeQ, .spi, .i2c, .i2cHold, .mem, .jrn, .cellar, .root]
  | .descriptorWrite _ _ | .progBaseWrite _ _ => [.regs]
  | .progWinWrite _ _ _ => [.regs, .parts]
  | .swap _ | .rdIdxWrite _ _ | .loopBwWrite _ _ _ => [.regs]
  | .setAbs _ | .setRel _ => [.freeIx, .times]
  | .trigArm _ _ | .trigDisarm _ _ | .capArm _ _ | .capCancel _ _ => [.regs, .times]
  | .apply _ => [.regs, .jrn, .chans, .aplls, .outs]
  | .epoch _ => [.regs, .aplls]
  | .outEnable _ | .outDisable _ | .pulseModeChange _ _ | .dividerChange _ _ _ => [.regs, .outs]
  | .fineWrite _ _ | .pulsePeriodWrite _ _ _ _ => [.regs]
  | .palignWrite _ _ _ | .palignOfsHiWrite _ _ => [.regs, .outs]
  | .baudWrite _ _ => [.regs, .times]
  | .storeCmd _ _ _ => [.regs, .cellar, .root]
  | .verify => [.regs, .root]
  | .commit | .abort => [.regs, .mem, .jrn, .cellar, .root]
  | .imageLoad => [.regs, .jrn, .lanes, .funcs, .chans, .pkts, .times, .gate, .ptps, .shelf, .root]
  | .imageActivate => [.root]
  | .imageCancel =>
    [.regs, .mem, .jrn, .lanes, .funcs, .chans, .pkts, .times, .gate, .ptps, .shelf, .cellar, .root]
  | .leafRestartCmd => [.regs, .jrn, .lanes, .funcs, .chans, .pkts, .times, .gate, .ptps, .shelf, .root]
  | .debugRequest | .debugRevoke => [.regs, .jrn, .root]
  | .portEnable _ | .portDisable _ => [.regs, .jrn, .chans]
  | .restartAn _ => [.eths]
  | .rdSeqWrite _ => [.regs, .jrn]
  | .policyCommit =>
    [.regs, .pol, .mem, .jrn, .rows, .parts, .chans, .pkts, .pairs, .doms, .aplls, .outs, .times, .gate,
     .ptps, .shelf, .cellar, .root]
  | .verifyDone => [.regs, .mem, .jrn, .cellar, .root]
  | .imageDone =>
    [.regs, .mem, .jrn, .lanes, .funcs, .chans, .pkts, .times, .gate, .ptps, .shelf, .cellar, .root]
  | .leafStart => [.regs, .mem, .shelf, .cellar, .root]
  | .leafWdtExpiry | .leafMpuFault | .leafException => [.regs, .jrn, .lanes, .funcs, .chans, .pkts, .times, .gate, .ptps, .shelf, .root]
  | .debugExpiry => [.regs, .jrn, .root]
  | .qlDeliver _ _ _ _ _ _ | .pktEstimate _ _ _ _ _ _ | .timeChange _ _ _ _ | .utcUpdate _ _ _ _ _ _ => [.regs, .jrn, .lanes, .funcs, .chans, .pkts, .gate, .ptps]
  | .txFrame _ _ _ => [.regs, .gate, .eths, .ptps]
  | .shelfTx _ _ => [.regs, .gate, .shelf]
  | .regRead _ _ => [.freeIx, .regs, .spi, .i2c, .gate, .shelf]
  | .pageReport _ _ _ => [.regs, .jrn, .lanes, .funcs, .chans, .pkts, .gate, .ptps]
  | .journal _ _ _ => [.regs, .jrn, .gate]
  | .cellarStore _ _ | .storeRequest _ _ => [.regs, .gate, .cellar, .root]
  | .ringPut _ _ => [.regs, .mem, .gate, .cellar, .root]
  | .wdtKick => [.gate, .root]
  | .restartSelf _ => [.regs, .jrn, .lanes, .funcs, .chans, .pkts, .times, .gate, .ptps, .shelf, .root]
  | .secondsRollover _ => [.regs, .jrn, .aplls, .outs, .times]
  | .trigFire _ _ _ => [.regs, .outs, .times]
  | .capDone _ _ | .todMessage _ | .nmeaSentence _ _ _ => [.regs, .times]
  | .apllLockLost _ => [.regs, .jrn]
  | .relock _ => [.regs, .jrn, .lanes, .funcs, .aplls]
  | .retuneLock _ => [.regs, .lanes, .funcs, .aplls]
  | .refLost | .refReturn => [.regs, .jrn, .jrOn]
  | .dllLol _ | .dllRelock _ => [.regs]
  | .ethFrameReceive _ _ => [.regs, .jrn, .lanes, .funcs, .chans, .pkts, .eths, .ptps]
  | .pcsLock _ _ => [.regs, .jrn, .lanes, .funcs, .chans, .pkts, .eths]
  | .pcsLockLoss _ => [.regs, .jrn, .chans]
  | .calDone _ _ _ => [.regs]
  | .esmcPduReceive _ _ _ => [.regs, .jrn, .lanes, .funcs, .chans, .pkts, .gate, .eths, .ptps]
  | .esmcInfoPdu _ | .esmcEventPdu _ => [.regs, .eths]
  | .syncReceive _ _ _ _ _ => [.regs, .jrn, .lanes, .funcs, .chans, .pkts, .gate, .eths, .ptps]
  | .followUpReceive _ _ _ _ _ => [.regs, .jrn, .lanes, .funcs, .chans, .pkts, .gate, .ptps]
  | .followUpTimeout _ => [.ptps]
  | .announceReceive _ _ _ _ => [.regs, .jrn, .lanes, .funcs, .chans, .pkts, .gate, .ptps]
  | .delayReqReceive _ _ | .pdelayReqReceive _ _ _ _ => [.regs, .jrn, .lanes, .funcs, .chans, .pkts, .eths, .ptps]
  | .unicastRequest _ _ _ _ _ => [.regs, .ptps]
  | .syncTransmit _ _ _ _ _ => [.regs, .eths, .ptps]
  | .announceTransmit _ _ => [.regs, .ptps]
  | .ptpReopen _ => [.regs]
  | .shelfStatusTx | .shelfElectTx | .shelfQlFwdTx | .shelfTodTx | .alert _ _ _ _ => [.regs, .shelf]
  | .shelfElectRx _ | .shelfQlFwdRx _ _ | .shelfTodRx _ | .regReq _ => [.regs, .jrn, .lanes, .funcs, .chans, .pkts, .gate, .ptps, .shelf]
  | .regResp => [.freeIx, .regs, .spi, .i2c, .gate, .shelf]
  | .peerLost _ | .silent => [.regs, .shelf]
  | .busOff _ => [.regs, .jrn, .shelf]
  | .busOffRecovery => [.regs, .shelf]
  | .powerFail _ _ =>
    [.phase, .regs, .writeQ, .i2cHold, .mem, .jrn, .lanes, .funcs, .chans, .pkts, .outs, .times, .gate, .ptps,
     .shelf, .cellar, .root, .power]
  | .vinGlitch => [.regs]
  | .pfRecovered _ _ => [.regs, .mem, .jrn, .shelf, .cellar, .root, .power]
  | .shutdown => [.phase, .regs, .writeQ, .i2cHold, .jrn, .outs, .shelf, .cellar, .power]
  | .holdupOk _ | .capEstimate _ | .vaux3Oc | .vaux3Retry _ | .vinRange _ | .warmupDone => [.regs]
  | .ovenFault => [.regs, .jrn]
  | .warmupRestart => [.regs, .power]
  | .heaterSat | .heaterIdle => [.regs]
  | .holdupFirst18v _ => [.regs, .mem, .cellar, .root]
  | .blockStoreDone _ => Component.allBut [.pending, .vio, .jrOn]
  | .storeDeferRetry _ => [.regs, .cellar, .root]
  | .storeFailed _ =>
    [.regs, .mem, .jrn, .lanes, .funcs, .chans, .pkts, .times, .gate, .ptps, .shelf, .cellar, .root]
  | .scrub _ => [.regs, .mem, .jrn, .cellar, .root]
  | .ringStore _ => [.regs, .mem, .cellar, .root]
  | .bboxEntryWrite => [.regs, .mem, .jrn, .cellar, .root]
  | .queueLost | .suppressionWindowEnd => [.jrn]
  | .alignLost _ => [.regs, .outs]
  | .announceReceiptTimeout _ => [.regs, .jrn, .ptps]
  | .delayReqTransmit _ _ => [.regs, .eths, .ptps]
  | .delayRespReceive _ _ _ _ => [.regs, .jrn, .lanes, .funcs, .chans, .pkts, .eths, .ptps]
  | .errPassive _ _ => [.regs]
  | .unknownFrame _ => [.regs, .jrn, .lanes, .funcs, .chans, .pkts, .gate, .ptps, .shelf]
  | .vioFall => [.i2cHold, .vio]
  | .vioReturn => [.vio]

/-- All register pages. -/
def Page.every : List Page :=
  [.sys, .part, .frame, .lane, .rows, .harv, .chan, .sel, .dpll, .apll, .out, .time, .eth, .ptpts, .shelf, .root, .cellar,
   .bbox, .pwr, .osc, .dbg]

/-- The register pages whose cells a command may change; the other pages read as before. -/
def Instr.pages (i : Instr) : List Page :=
  match i with
  | .powerOnReset _ => Page.every
  | .resetNFall => [.sys, .root]
  | .resetNRelease _ | .timebaseQualified | .tbFallback => Page.every
  | .tbSwitch => [.sys, .frame, .dpll, .bbox]
  | .tbLost => [.sys, .out, .root, .cellar, .bbox]
  | .procReset =>
    [.sys, .part, .lane, .sel, .ptpts, .shelf, .root, .bbox, .dbg]
  | .softReset _ | .frameTick _ => Page.every
  | .qualifierWindowClose => [.sel]
  | .laneCalibration _ => [.sys, .part, .lane, .dpll, .bbox]
  | .spareCalDone _ => [.lane]
  | .padOverdrive _ => [.part, .lane, .bbox]
  | .suspectEnd _ => [.lane]
  | .actTimeout _ => [.part, .lane, .sel]
  | .qlTimeout _ | .holdOffExpiry _ _ | .wtrExpiry _ _ => [.part, .sel, .bbox]
  | .lockAchieved _ => [.dpll, .bbox]
  | .slewDone _ => [.part, .sel]
  | .bridgeEnd _ | .historySegment _ => [.dpll]
  | .duskExpiry _ => [.dpll, .bbox]
  | .steppedEnd _ => [.time]
  | .nop _ | .openZero _ _ | .openBias _ _ _ | .openResidual _ _ _ | .openCarry _ _ | .acc _ _ _ _ _ _ _
    | .diff _ _ _ _ _ _ _ | .xdif _ _ _ _ _ _ _ | .sync _ _ _ _ | .close _ _ | .endProg _ => [.part, .frame, .rows]
  | .spiWrite _ => Page.every
  | .spiRead _ => []
  | .i2cWrite _ => Page.every
  | .i2cRead _ | .i2cHoldTimeout => []
  | .hostRegisterWrite _ _ _ => Page.every
  | .portStatusRead _ | .frnLoRead _ _ | .frnHiRead _ _ | .nowNsRead _ _ | .nowSecRead _ _ _ | .accDebugRead _ _ _ => []
  | .snapReq _ _ _ | .snapAll _ | .evtClear _ _ _ _ | .counterClear _ _ _ | .partReset _ _ | .channelTableWrite _ _ _ => Page.every
  | .descriptorWrite _ _ | .progBaseWrite _ _ | .progWinWrite _ _ _ | .swap _ => [.rows]
  | .rdIdxWrite _ _ => [.part, .harv]
  | .loopBwWrite _ _ _ => [.dpll]
  | .setAbs _ | .setRel _ => []
  | .trigArm _ _ | .trigDisarm _ _ | .capArm _ _ | .capCancel _ _ => [.time]
  | .apply _ => [.part, .apll, .out, .eth, .ptpts, .bbox]
  | .epoch _ => [.apll]
  | .outEnable _ | .outDisable _ | .pulseModeChange _ _ | .dividerChange _ _ _ | .fineWrite _ _
    | .pulsePeriodWrite _ _ _ _ | .palignWrite _ _ _ | .palignOfsHiWrite _ _ => [.out]
  | .baudWrite _ _ => [.time]
  | .storeCmd _ _ _ => [.root, .cellar]
  | .verify => [.root]
  | .commit => [.root, .cellar, .bbox]
  | .abort => [.root, .bbox]
  | .imageLoad => [.sys, .part, .lane, .sel, .ptpts, .root, .bbox]
  | .imageActivate => []
  | .imageCancel | .leafRestartCmd => [.sys, .part, .lane, .sel, .ptpts, .root, .bbox]
  | .debugRequest | .debugRevoke => [.bbox, .dbg]
  | .portEnable _ | .portDisable _ => [.part, .eth, .ptpts, .bbox]
  | .restartAn _ => []
  | .rdSeqWrite _ => [.bbox]
  | .policyCommit => Page.every
  | .verifyDone => [.root, .cellar, .bbox]
  | .imageDone => [.sys, .part, .lane, .sel, .ptpts, .root, .cellar, .bbox]
  | .leafStart => [.sys, .shelf, .root, .cellar]
  | .leafWdtExpiry | .leafMpuFault | .leafException => [.sys, .part, .lane, .sel, .ptpts, .root, .bbox]
  | .debugExpiry => [.bbox, .dbg]
  | .qlDeliver _ _ _ _ _ _ | .pktEstimate _ _ _ _ _ _ | .timeChange _ _ _ _ | .utcUpdate _ _ _ _ _ _ => [.part, .lane, .sel, .ptpts, .root, .bbox]
  | .txFrame _ _ _ => [.eth, .ptpts, .root]
  | .shelfTx _ _ => [.shelf, .root]
  | .regRead _ _ => [.root]
  | .pageReport _ _ _ => [.part, .lane, .sel, .ptpts, .root, .bbox]
  | .journal _ _ _ => [.root, .bbox]
  | .cellarStore _ _ | .storeRequest _ _ | .ringPut _ _ => [.root, .cellar]
  | .wdtKick => []
  | .restartSelf _ => [.sys, .part, .lane, .sel, .ptpts, .root, .bbox]
  | .secondsRollover _ => [.apll, .out, .bbox]
  | .trigFire _ _ _ | .capDone _ _ | .todMessage _ | .nmeaSentence _ _ _ => [.time]
  | .apllLockLost _ => [.apll, .bbox]
  | .relock _ => [.lane, .apll, .bbox]
  | .retuneLock _ => [.lane, .apll]
  | .refLost | .refReturn => [.apll, .bbox]
  | .dllLol _ | .dllRelock _ => [.out]
  | .ethFrameReceive _ _ | .pcsLock _ _ => [.part, .lane, .sel, .eth, .ptpts, .bbox]
  | .pcsLockLoss _ => [.part, .eth, .ptpts, .bbox]
  | .calDone _ _ _ => [.eth]
  | .esmcPduReceive _ _ _ => [.part, .lane, .sel, .eth, .ptpts, .root, .bbox]
  | .esmcInfoPdu _ | .esmcEventPdu _ => [.eth]
  | .syncReceive _ _ _ _ _ | .followUpReceive _ _ _ _ _ => [.part, .lane, .sel, .eth, .ptpts, .root, .bbox]
  | .followUpTimeout _ => []
  | .announceReceive _ _ _ _ => [.part, .lane, .sel, .eth, .ptpts, .root, .bbox]
  | .delayReqReceive _ _ | .pdelayReqReceive _ _ _ _ => [.part, .lane, .sel, .eth, .ptpts, .bbox]
  | .unicastRequest _ _ _ _ _ | .syncTransmit _ _ _ _ _ => [.eth, .ptpts]
  | .announceTransmit _ _ => [.eth]
  | .ptpReopen _ => [.ptpts]
  | .shelfStatusTx | .shelfElectTx | .shelfQlFwdTx | .shelfTodTx | .alert _ _ _ _ => [.shelf]
  | .shelfElectRx _ | .shelfQlFwdRx _ _ | .shelfTodRx _ | .regReq _ => [.part, .lane, .sel, .ptpts, .shelf, .root, .bbox]
  | .regResp | .peerLost _ | .silent => [.shelf]
  | .busOff _ => [.shelf, .bbox]
  | .busOffRecovery => [.shelf]
  | .powerFail _ _ =>
    [.sys, .part, .lane, .sel, .out, .eth, .ptpts, .shelf, .root, .cellar, .bbox, .pwr, .osc]
  | .vinGlitch => [.pwr]
  | .pfRecovered _ _ => [.shelf, .root, .cellar, .bbox, .pwr, .osc]
  | .shutdown => [.out, .pwr]
  | .holdupOk _ | .capEstimate _ | .vaux3Oc | .vaux3Retry _ | .vinRange _ => [.pwr]
  | .warmupDone => [.osc]
  | .ovenFault => [.sys, .bbox, .osc]
  | .warmupRestart | .heaterSat | .heaterIdle => [.osc]
  | .holdupFirst18v _ => [.root, .cellar]
  | .blockStoreDone _ => Page.every
  | .storeDeferRetry _ => [.root, .cellar]
  | .storeFailed _ => [.sys, .part, .lane, .sel, .ptpts, .root, .cellar, .bbox]
  | .scrub _ => [.root, .cellar, .bbox]
  | .ringStore _ => [.root, .cellar]
  | .bboxEntryWrite => [.root, .cellar, .bbox]
  | .queueLost | .suppressionWindowEnd => []
  | .alignLost _ => [.out]
  | .announceReceiptTimeout _ => [.part, .ptpts, .bbox]
  | .delayReqTransmit _ _ => [.eth, .ptpts]
  | .delayRespReceive _ _ _ _ => [.part, .lane, .sel, .eth, .ptpts, .bbox]
  | .errPassive _ _ => [.shelf]
  | .unknownFrame _ => [.part, .lane, .sel, .ptpts, .shelf, .root, .bbox]
  | .vioFall | .vioReturn => []

end Sys2Proof
end

