-- ==== Sys2Proof/Certificates/Slice0/Obligations.lean ====
section
/-! DEFINITION. The statements about the module, for the provers. -/

section

open Sys2Proof Sys2Proof.Machine

/-! ### The block as a whole -/

/-- A step takes the command at the front of the queue and runs it on the state with the rest of the queue; on an empty
queue the block idles (notes/assumptions 4). -/
def Obligations.StepRunsFront : Prop :=
  (∀ (c : Instr) (r : List Instr) (s : State), s.pending = c :: r → step s = exec c { s with pending := r }) ∧
  ∀ s : State, s.pending = [] → step s = .next s

/-- What holds right after reset: no supply, nothing waits, every invariant holds, and every register field reads its value of
the Reset column, or of the policy in effect, which gives none (notes/assumptions 2). -/
def Obligations.ResetState : Prop :=
  State.reset.phase = .off ∧ State.reset.pending = [] ∧ Inv State.reset ∧ QueueOk State.reset ∧ State.reset.frn = 0 ∧
  (∀ f n k j, f.acc ≠ .lk → getF State.reset f n k j = fldReset f n k) ∧ (∀ a, memByte State.reset a = unlisted (canonAddr a))

/-- A command that exists is never refused and never faults; a command that does not exist is refused as ill formed. -/
def Obligations.ExecTotal : Prop :=
  ∀ (c : Instr) (s : State),
    (c.wellFormed = true → ∃ t, exec c s = .next t) ∧ (c.wellFormed = false → exec c s = .refused .illFormed)

/-- The queue is first in, first out and no command's effect touches it: a step leaves exactly the rest of the queue. -/
def Obligations.QueueFifo : Prop :=
  (∀ (c : Instr) (s t : State), exec c s = .next t → t.pending = s.pending) ∧
  (∀ s t : State, step s = .next t → t.pending = s.pending.tail) ∧ ∀ s t : State, QueueOk s → step s = .next t → QueueOk t

/-- A queue of commands that exist never stops: a step advances whatever state the block is in. -/
def Obligations.QueuedCommandsAdvance : Prop := ∀ s : State, QueueOk s → Advances s ∧ ∀ k, SafeFor k s

/-- Each command changes no component of the state but those `Instr.writes` lists for it: what is not listed is as it was. -/
def Obligations.ComponentFrame : Prop :=
  ∀ (c : Instr) (s t : State), exec c s = .next t → ∀ k, k ∉ c.writes → k.same s t

/-- Every step keeps the invariants: memory stays in canonical form and the journal queue within 64 entries. -/
def Obligations.StepKeepsInv : Prop := ∀ s t : State, Inv s → step s = .next t → Inv t

/-- Each command changes register cells on no pages but those `Instr.pages` lists for it: every cell of another page, its
events and counters among them, reads as before. -/
def Obligations.PageFrame : Prop :=
  ∀ (c : Instr) (s t : State), exec c s = .next t → ∀ p, p ∉ c.pages → pageCells p t.regs = pageCells p s.regs

/-! ### Power and ovens -/

/-- The supervisor's inputs that only report: each sets the fields and raises the event the spec gives it, and changes no other
register cell and no other part of the state; VIN outside its range is reported after 1 s outside (R515, R526, R511, R533). -/
def Obligations.PowerInputsReport : Prop :=
  ∀ s : State, s.phase ≠ .off →
    (get1 s PWR.STATUS_PF 0 = 0 → ∃ t, exec .vinGlitch s = .next t ∧
      get1 t PWR.GLITCH_CNT 0 = satTo cntMax (get1 s PWR.GLITCH_CNT 0 + 1) ∧
      OnlyCells (cells [(PWR.GLITCH_CNT, 0)] ++ evtCells .pwr 0) s t) ∧
    (∀ us, get1 s PWR.STATUS_PF 0 = 0 → ∃ t, exec (.capEstimate us) s = .next t ∧
      get1 t PWR.CAP_EST 0 = satTo 0xFFFF (us / 50) ∧ get1 t PWR.RESERVE 0 = satTo 0xFFFF (63 * satTo 0xFFFF (us / 50) / 1000) ∧
      (us / 50 < 640 → Raised t .pwr 0 3) ∧
      OnlyCells (cells [(PWR.CAP_EST, 0), (PWR.RESERVE, 0)] ++ evtCells .pwr 0) s t) ∧
    (get1 s PWR.STATUS_VAUX3_OFF 0 = 0 → ∃ t, exec .vaux3Oc s = .next t ∧ get1 t PWR.STATUS_VAUX3_OFF 0 = 1 ∧
      Raised t .pwr 0 5 ∧ OnlyCells (cells [(PWR.STATUS_VAUX3_OFF, 0)] ++ evtCells .pwr 0) s t) ∧
    (∀ ma, get1 s PWR.STATUS_VAUX3_OFF 0 = 1 → ∃ t, exec (.vaux3Retry ma) s = .next t ∧
      (ma ≤ 150 → get1 t PWR.STATUS_VAUX3_OFF 0 = 0) ∧
      (150 < ma → get1 t PWR.STATUS_VAUX3_OFF 0 = 1 ∧ Raised t .pwr 0 5) ∧
      OnlyCells (cells [(PWR.STATUS_VAUX3_OFF, 0)] ++ evtCells .pwr 0) s t) ∧
    (∀ mv, mv < 4500 ∨ 60000 < mv → oneSecond ≤ s.power.range → ∃ t, exec (.vinRange mv) s = .next t ∧
      get1 t PWR.STATUS_VIN_RANGE 0 = 1 ∧ Raised t .pwr 0 4 ∧
      OnlyCells (cells [(PWR.STATUS_VIN_RANGE, 0)] ++ evtCells .pwr 0) s t) ∧
    ∀ mv, (4500 ≤ mv ∧ mv ≤ 60000) ∨ s.power.range < oneSecond → exec (.vinRange mv) s = .next s

/-- HOLDUP_OK sets at 23.0 V, with its event when it was 0, and clears below 22.0 V; between the two it stays (R523). -/
def Obligations.HoldupOkThresholds : Prop :=
  ∀ (s : State) (mv : Nat), s.phase ≠ .off → get1 s PWR.STATUS_PF 0 = 0 → get1 s PWR.STATUS_HOLDUP_OK 0 < 2 →
    ∃ t, exec (.holdupOk mv) s = .next t ∧
      (mv < 22000 → get1 t PWR.STATUS_HOLDUP_OK 0 = 0) ∧
      (23000 ≤ mv → get1 t PWR.STATUS_HOLDUP_OK 0 = 1 ∧ (get1 s PWR.STATUS_HOLDUP_OK 0 = 0 → Raised t .pwr 0 2)) ∧
      (22000 ≤ mv → mv < 23000 → get1 t PWR.STATUS_HOLDUP_OK 0 = get1 s PWR.STATUS_HOLDUP_OK 0) ∧
      OnlyCells (cells [(PWR.STATUS_HOLDUP_OK, 0)] ++ evtCells .pwr 0) s t

/-- Warm-up ends when REGULATING has read 1 for 30 s, restarts when it has read 0 for more than 1 s outside a power fail, and
ends in a fault, with DEGRADED at its onset, 600 s after the heaters start; a heater at its saturation current, and one below
5 mA, for 10 s is reported. No cell but those named changes, and nothing but cells and what is journalled (R527 to R529). -/
def Obligations.OvenConditions : Prop :=
  ∀ s : State, s.phase ≠ .off →
    (get1 s OSC.STATUS_WARMUP 0 = 1 → regSeconds ≤ s.power.reg → ∃ t, exec .warmupDone s = .next t ∧
      get1 t OSC.STATUS_WARMUP 0 = 0 ∧ get1 t OSC.WARM_LAST 0 = get1 s OSC.WARM_S 0 % 2 ^ 16 ∧ get1 t OSC.STATUS_OVEN_FAULT 0 = 0 ∧
      Raised t .osc 0 0 ∧
      OnlyCells (cells [(OSC.STATUS_WARMUP, 0), (OSC.WARM_LAST, 0), (OSC.STATUS_OVEN_FAULT, 0)] ++ evtCells .osc 0) s t) ∧
    (get1 s OSC.STATUS_WARMUP 0 = 1 → warmLimit ≤ s.power.warm → ∃ t, exec .ovenFault s = .next t ∧
      get1 t OSC.STATUS_WARMUP 0 = 0 ∧ get1 t OSC.WARM_LAST 0 = 0xFFFF ∧ get1 t OSC.STATUS_OVEN_FAULT 0 = 1 ∧ Raised t .osc 0 1 ∧
      (get1 s OSC.STATUS_OVEN_FAULT 0 ≠ 1 → Raised t .sys 0 2) ∧ t = { s with regs := t.regs, jrn := t.jrn } ∧
      CellsElse (cells [(OSC.STATUS_WARMUP, 0), (OSC.WARM_LAST, 0), (OSC.STATUS_OVEN_FAULT, 0)] ++ evtCells .osc 0 ++
        evtCells .sys 0 ++ jrnCells) s t) ∧
    (get1 s OSC.STATUS_WARMUP 0 = 0 → oneSecond < s.power.unreg → get1 s OSC.STATUS_OVEN_OFF 0 = 0 →
      ∃ t, exec .warmupRestart s = .next t ∧ get1 t OSC.STATUS_WARMUP 0 = 1 ∧ get1 t OSC.WARM_S 0 = 0 ∧
        OnlyCells (cells [(OSC.STATUS_WARMUP, 0), (OSC.WARM_S, 0)]) { s with power := { s.power with warm := 0 } } t) ∧
    (get1 s OSC.STATUS_WARMUP 0 = 0 → tenSeconds ≤ s.power.sat.1 ∨ tenSeconds ≤ s.power.sat.2 → ∃ t, exec .heaterSat s = .next t ∧
      get1 t OSC.STATUS_HEATER_SAT 0 = 1 ∧ Raised t .osc 0 2 ∧
      OnlyCells (cells [(OSC.STATUS_HEATER_SAT, 0)] ++ evtCells .osc 0) s t) ∧
    (tenSeconds ≤ s.power.idle.1 ∨ tenSeconds ≤ s.power.idle.2 → ∃ t, exec .heaterIdle s = .next t ∧
      get1 t OSC.STATUS_HEATER_IDLE 0 = 1 ∧ Raised t .osc 0 3 ∧
      OnlyCells (cells [(OSC.STATUS_HEATER_IDLE, 0)] ++ evtCells .osc 0) s t)

/-- A VIN reading that crosses is a power fail: with the hold-up node at 12 V or more it records its cause, its FRN and the two
voltages, drives PFAIL_N low, switches the ovens off and is counted and raised, and the module goes on; a VIN that qualifies
ends it, is counted and raised, and seeds VIN_AVG; the hold-up node below 12 V shuts the module down: every output is at logic
0, no write waits, VAUX3 is off, and a store that runs leaves its copy TORN (R515, R516, R519, R520). -/
def Obligations.PowerFailRecords : Prop :=
  ∀ s : State, s.phase ≠ .off →
    (∀ vin holdup, s.phase ≠ .held → get1 s PWR.STATUS_PF 0 = 0 → failCause s vin ≠ 0 → 12000 ≤ holdup →
      ∃ t, exec (.powerFail vin holdup) s = .next t ∧ t.phase = s.phase ∧ t.frn = s.frn ∧ pfailLow t = true ∧
        get1 t PWR.STATUS_CAUSE 0 = failCause s vin ∧ get1 t PWR.LAST_PF_CAUSE 0 = failCause s vin ∧
        get1 t PWR.LAST_PF_FRN 0 = s.frn % 2 ^ 32 ∧ get1 t PWR.LAST_PF_VIN 0 = satTo 255 (vin / 250) ∧
        get1 t PWR.LAST_PF_HOLDUP 0 = satTo 255 (holdup / 200) ∧ get1 t PWR.LAST_PF_RECOVERED 0 = 0 ∧
        get1 t OSC.STATUS_OVEN_OFF 0 = 1 ∧ Counted s t PWR.PF_CNT 0 0 1 ∧ Raised t .pwr 0 0) ∧
    (∀ vin holdup, get1 s PWR.STATUS_PF 0 = 0 → failCause s vin ≠ 0 → ∃ t, exec (.powerFail vin holdup) s = .next t ∧
      (holdup < 12000 → t.phase = .off ∧ ∀ n, n < 10 → get1 t OUT.STATUS_RUN n = 5 ∧ (outOf t n).active = false) ∧
      (12000 ≤ holdup → s.phase = .held → t.phase = .held ∧ get1 t PWR.STATUS_PF 0 = 1 ∧ Counted s t PWR.PF_CNT 0 0 1)) ∧
    (∀ vin holdup, get1 s PWR.STATUS_PF 0 = 1 ∨ failCause s vin = 0 → exec (.powerFail vin holdup) s = .next s) ∧
    (∀ vin ms, get1 s PWR.STATUS_PF 0 = 1 → vinQualifies s vin = true → ∃ t, exec (.pfRecovered vin ms) s = .next t ∧
      t.phase = s.phase ∧ t.frn = s.frn ∧ get1 t PWR.STATUS_PF 0 = 0 ∧ get1 t PWR.LAST_PF_RECOVERED 0 = 1 ∧
      get1 t PWR.LAST_PF_MS 0 = satTo 0xFFFF ms ∧ get1 t PWR.VIN_AVG 0 = vin ∧ get1 t OSC.STATUS_OVEN_OFF 0 = 0 ∧
      Counted s t PWR.RECOVER_CNT 0 0 1 ∧ Raised t .pwr 0 1) ∧
    (∀ vin ms, get1 s PWR.STATUS_PF 0 = 0 ∨ vinQualifies s vin = false → exec (.pfRecovered vin ms) s = .next s) ∧
    (get1 s PWR.STATUS_PF 0 = 1 → ∃ t, exec .shutdown s = .next t ∧ t.phase = .off ∧ t.writeQ = [] ∧ t.cellar.run = none ∧
      get1 t PWR.STATUS_VAUX3_OFF 0 = 1 ∧ (∀ n, n < 10 → get1 t OUT.STATUS_RUN n = 5 ∧ (outOf t n).active = false) ∧
      ∀ r, s.cellar.run = some r → r.copy < 2 → copyState t r.job.block r.copy = 1)

/-- VIO falls: the host I/O pads go and a held two-wire transaction ends; VIO returns: the port state is unchanged. While VIO
is absent a transaction on either port changes nothing, and a running module goes on to its next frame, VIO still absent (R588). -/
def Obligations.VioFallsAndReturns : Prop :=
  ∀ s : State,
    (∃ t, exec .vioFall s = .next t ∧ t = { s with vio := false, i2cHold := none }) ∧
    (∃ t, exec .vioReturn s = .next t ∧ t = { s with vio := true }) ∧
    (s.vio = false →
      (∀ x, SpiWrite.ok x = true → exec (.spiWrite x) s = .next s) ∧ (∀ x, SpiRead.ok x = true → exec (.spiRead x) s = .next s) ∧
      (∀ x, I2cWrite.ok x = true → exec (.i2cWrite x) s = .next s) ∧ (∀ x, I2cRead.ok x = true → exec (.i2cRead x) s = .next s) ∧
      (s.phase = .running → ∀ i, ∃ t, exec (.frameTick i) s = .next t ∧ t.phase = .running ∧ t.frn = s.frn + 1 ∧ t.vio = false))

/-! ### Start, resets and the timebase -/

/-- Power-on reset: begun when VIN lies within 4.6 V to 61 V, it opens the ports without a timebase, samples the straps and
keeps of the module before it, beside the commands that wait, the free values and VIO, the non-volatile copies alone; SYS.RESET
tells a start after a shutdown from a first one. Outside those voltages, and with supply, nothing begins (R521, R539, R540). -/
def Obligations.PowerOnReset : Prop :=
  ∀ (s : State) (i : StartIn), s.phase = .off →
    (4600 ≤ i.vinMv → i.vinMv ≤ 61000 → ∃ t, exec (.powerOnReset i) s = .next t ∧ t.phase = .waiting ∧ t.frn = 0 ∧
      portsLive t = s.vio ∧ get1 t SYS.STATUS_NO_TIMEBASE 0 = 1 ∧ t.straps = i.straps ∧ t.writeQ = [] ∧ t.snaps = [] ∧
      t.snapReq = [] ∧ t.snapAll = [] ∧ get1 t SYS.RESET 0 = b2n s.power.shut) ∧
    (∀ u : State, u.phase = .off → u.pending = s.pending → u.freeIx = s.freeIx → u.vio = s.vio → u.cellar.nv = s.cellar.nv →
      u.power.shut = s.power.shut → exec (.powerOnReset i) u = exec (.powerOnReset i) s) ∧
    (i.vinMv < 4600 ∨ 61000 < i.vinMv → exec (.powerOnReset i) s = .next s) ∧
    ∀ u : State, u.phase ≠ .off → exec (.powerOnReset i) u = .next u

/-- RESET_N low stops the module: no frame, the writes that wait are gone, every output stops, Root and Leaf are down; during
the power-fail sequence the reset waits for it. Its release samples the straps and starts the module again without a recall; a
release while the reset waits is kept for it, and any other does nothing (R522, R545, R591). -/
def Obligations.ResetLine : Prop :=
  ∀ s : State,
    (s.phase ≠ .off → s.phase ≠ .held → get1 s CELLAR.STATUS_PF_SEQ 0 = 0 → ∃ t, exec .resetNFall s = .next t ∧
      t.phase = .held ∧ t.writeQ = [] ∧ t.snapReq = [] ∧ t.snapAll = [] ∧ t.gate = {} ∧ t.root = {} ∧ t.i2cHold = none ∧
      t.cellar.queue = [] ∧ (∀ n, n < 10 → (outOf t n).active = false) ∧
      get1 t ROOT.STATUS_LEAF 0 = 1 ∧ get1 t ROOT.STATUS_PSTATE 0 = 0 ∧ get1 t SYS.STATUS_NO_TIMEBASE 0 = 1) ∧
    (s.phase ≠ .off → s.phase ≠ .held → get1 s CELLAR.STATUS_PF_SEQ 0 = 1 →
      exec .resetNFall s = .next { s with power := { s.power with reset := true, freed := none } }) ∧
    (s.phase = .off ∨ s.phase = .held → exec .resetNFall s = .next s) ∧
    (∀ straps, s.phase = .held → ∃ t, exec (.resetNRelease straps) s = .next t ∧ t.phase = .waiting ∧ t.frn = 0 ∧
      t.straps = straps ∧ t.writeQ = [] ∧ t.vio = s.vio ∧ t.cellar.nv = s.cellar.nv ∧ get1 t SYS.RESET 0 = 2) ∧
    (∀ straps, s.phase ≠ .held →
      (s.power.reset = true →
        exec (.resetNRelease straps) s = .next { s with power := { s.power with freed := some straps } }) ∧
      (s.power.reset = false → exec (.resetNRelease straps) s = .next s))

/-- FRN is 0 in the first frame after the tick generator starts, on the source that policy selects or, when only the other
qualifies, on that one with TB_SWITCH raised, and rises by 1 at every tick (R53, R541, R542). -/
def Obligations.TimebaseStarts : Prop :=
  (∀ s : State, s.phase = .waiting →
    (∃ t, exec .timebaseQualified s = .next t ∧ t.phase = .running ∧ t.frn = 0 ∧ t.cyc = 0 ∧
      get1 t FRAME.TB_SRC 0 = selectedSrc s % 2 ∧ get1 t SYS.STATUS_NO_TIMEBASE 0 = 0) ∧
    ∃ t, exec .tbFallback s = .next t ∧ t.phase = .running ∧ t.frn = 0 ∧ t.cyc = 0 ∧
      get1 t FRAME.TB_SRC 0 = 1 - selectedSrc s ∧ get1 t SYS.STATUS_NO_TIMEBASE 0 = 0 ∧ Raised t .sys 0 1) ∧
  ∀ (s : State) (i : FrameIn), s.phase = .running → ∃ t, exec (.frameTick i) s = .next t ∧ t.phase = .running ∧ t.frn = s.frn + 1

/-- The timebase in use is lost: with another one qualified, frames go on from it, with TB_SWITCH raised and two frames without
samples; with none, frames stop until the next start (R554, R555). -/
def Obligations.TimebaseLoss : Prop :=
  ∀ s : State, s.phase = .running →
    (∃ t, exec .tbSwitch s = .next t ∧ t.phase = .running ∧ t.frn = s.frn ∧ t.tbHold = 2 ∧
      get1 t FRAME.TB_SRC 0 = 1 - get1 s FRAME.TB_SRC 0 ∧ Raised t .sys 0 1) ∧
    ∃ t, exec .tbLost s = .next t ∧ t.phase = .lost ∧ t.frn = s.frn ∧ get1 t SYS.STATUS_NO_TIMEBASE 0 = 1

/-- A processor reset restarts Root and Leaf while the hardware runs: frames, outputs, domains and the writes that wait go on;
Root acts again 400 frames later at the latest; cause and FRN are recorded (R547). -/
def Obligations.ProcessorReset : Prop :=
  ∀ s : State, s.phase ≠ .off → s.phase ≠ .held → ∃ t, exec .procReset s = .next t ∧
    t.phase = s.phase ∧ t.frn = s.frn ∧ t.writeQ = s.writeQ ∧ t.outs = s.outs ∧ t.doms = s.doms ∧ t.times = s.times ∧
    t.root.down = some (s.frn + 400) ∧ get1 t SYS.RESET 0 = 4 ∧ Raised t .sys 0 3

/-- A soft reset with its key is recorded and counted, and resets every open partition that a commit has not reset at the same
boundary: its rows are closed without harvest, its program, fires and staged records are gone and its time is 0; with another
key the write is ignored (R38, R546). -/
def Obligations.SoftReset : Prop :=
  ∀ s : State,
    (∃ t, exec (.softReset 0x5EED) s = .next t ∧ t.phase = s.phase ∧ t.frn = s.frn ∧ get1 t SYS.RESET 0 = 3 ∧
      get1 t SYS.RESET_FRN 0 = s.frn % 2 ^ 32 ∧ Counted s t SYS.SOFT_RESET_CNT 0 0 1 ∧
      ∀ p, p < 4 → isOpen s p = true → get1 t PART.LAST_RESET p = 3 ∧ get1 t PART.RESET_FRN p = s.frn % 2 ^ 32 ∧
        (commitReset s p = false → partOf t p = {} ∧ (timeOf t p).t = 0 ∧ ∀ m, ownsRow s p m = true → rowOf t m = {})) ∧
    ∀ key, key < 2 ^ 16 → key ≠ 0x5EED → exec (.softReset key) s = .next s

/-- A tick opens the next frame: the writes due at its boundary leave the queue, snapshots requested for it are made, and
without frames no tick comes (R45, R53, R60, R69). -/
def Obligations.FrameTick : Prop :=
  ∀ (i : FrameIn) (s : State),
    (s.phase = .running → ∃ t, exec (.frameTick i) s = .next t ∧ t.phase = .running ∧ t.frn = s.frn + 1 ∧ t.cyc = 0 ∧
      t.writeQ = s.writeQ.filter (fun w => decide (s.frn + 1 < w.due)) ∧
      t.snapAll = s.snapAll.filter (fun d => decide (s.frn + 1 < d))) ∧
    (s.phase ≠ .running → exec (.frameTick i) s = .next s)

/-! ### Lanes, channels and domains -/

/-- A calibration pair within 16 LSB of the stored value becomes the lane's correction; one outside it, one that was not timed,
or one whose code is bad, is a lane fault of the frame (R165, R166, R168). A lane that calibrates in no frame of the pair times
nothing. -/
def Obligations.LaneCalibration : Prop :=
  ∀ (s : State) (n : Nat) (v : Int) (bad : Bool), Shaped s → n < 18 →
    let st := if (laneOf s n).known then (laneOf s n).stored else v
    let Faulty := fun (t : State) (code : Nat) => get1 t LANE.STATUS_FAULT n = 1 ∧ get1 t LANE.HEALTH_CODE n = code ∧
      get1 t LANE.HEALTH_FAULT_FRN n = s.frn % 2 ^ 16 ∧ Raised t .lane n 0 ∧ Raised t .sys 0 0
    (calibrates s n = false → ∀ r, exec (.laneCalibration ⟨n, r, bad⟩) s = .next s) ∧
    (calibrates s n = true → bad = false → -16 ≤ v - st → v - st ≤ 16 →
      ∃ t, exec (.laneCalibration ⟨n, some v, bad⟩) s = .next t ∧ (laneOf t n).corr = v - st ∧ (laneOf t n).stored = st ∧
        get1 t LANE.CAL_DEV n = satSigned 16 (v - st) ∧ OnlyCells [fldKey LANE.CAL_DEV n 0 0] { s with lanes := t.lanes } t) ∧
    (calibrates s n = true → bad = true ∨ v - st < -16 ∨ 16 < v - st →
      ∃ t, exec (.laneCalibration ⟨n, some v, bad⟩) s = .next t ∧ Faulty t (if bad then 3 else 1)) ∧
    (calibrates s n = true →
      ∃ t, exec (.laneCalibration ⟨n, none, bad⟩) s = .next t ∧ Faulty t (if bad then 3 else 2))

/-- Overdrive begins on a pad: the lane that measures it loses its baseline and reports OVERDRIVE, the pads beside it are
SUSPECT for three frames; the last of them ends SUSPECT; the last calibration frame of a new lane ends SPARE_CAL (R168, R180,
R181, R185). -/
def Obligations.PadsAndSpares : Prop :=
  ∀ s : State, Shaped s →
    (∀ pad, pad < 8 → (funcOf s pad).driven = false → ∃ t, exec (.padOverdrive pad) s = .next t ∧
      (funcOf t pad).driven = true ∧ (funcOf t pad).pred = none ∧ (∀ g ∈ padNeighbours pad, (funcOf t g).suspect = 3) ∧
      ∀ n, laneFor s pad = some n → get1 t LANE.STATUS_OVERDRIVE n = 1 ∧ get1 t LANE.STATUS_NO_BASE n = 1 ∧
        (laneOf t n).host = {} ∧ Raised t .lane n 1) ∧
    (∀ pad, pad < 8 → (funcOf s pad).suspect = 1 → ∃ t, exec (.suspectEnd pad) s = .next t ∧ (funcOf t pad).suspect = 0 ∧
      ∀ n, laneFor s pad = some n → get1 t LANE.STATUS_SUSPECT n = 0 ∧
        OnlyCells [fldKey LANE.STATUS_SUSPECT n 0 0] { s with funcs := t.funcs } t) ∧
    ∀ n, n < 18 → get1 s LANE.STATUS_SPARE_CAL n = 1 → get1 s LANE.HEALTH_CAL_LEFT n ≤ 1 →
      ∃ t, exec (.spareCalDone n) s = .next t ∧ get1 t LANE.STATUS_SPARE_CAL n = 0 ∧ get1 t LANE.HEALTH_CAL_LEFT n = 0 ∧
        Raised t .lane n 4 ∧
        OnlyCells (cells [(LANE.STATUS_SPARE_CAL, n), (LANE.HEALTH_CAL_LEFT, n)] ++ evtCells .lane n) s t

/-- A channel that reaches ACT_TIMEOUT fails NO_ACTIVITY and, unless it has none already, loses its baseline and its windows;
one whose QL source times out has rank 0; in the last frame of a window each channel's sums become the window and begin anew
(R252, R257, R260, R268). -/
def Obligations.ChannelQualifier : Prop :=
  ∀ s : State, Shaped s →
    (∀ c, c < 12 → idleOut s c = false → ∃ t, exec (.actTimeout c) s = .next t ∧
      (chanOf t c).idle = actTimeout s c ∧ (failBits t c).getD 2 false = true ∧
      ((chanOf s c).bare = false → (chanOf t c).wins = [] ∧ (chanOf t c).lastOk = none ∧
        (c < 10 → (funcOf t c).pred = none ∧ ∀ n, laneFor s c = some n → get1 t LANE.STATUS_NO_BASE n = 1) ∧
        (10 ≤ c → (pktOf t (c - 10)).base = false))) ∧
    (∀ c, c < 12 → idleOut s c = true → exec (.actTimeout c) s = .next s) ∧
    (∀ c, c < 12 → qlSrc s c ≠ 0 → (chanOf s c).timedOut = false → ∃ t, exec (.qlTimeout c) s = .next t ∧
      (chanOf t c).rank = 0 ∧ (chanOf t c).timedOut = true ∧ (chanOf t c).qlLeft = none ∧
      get1 t SEL.QL_CHG_CNT 0 = satTo cntMax (get1 s SEL.QL_CHG_CNT 0 + 1)) ∧
    (∀ c, c < 12 → qlSrc s c = 0 ∨ (chanOf s c).timedOut = true → exec (.qlTimeout c) s = .next s) ∧
    (s.phase = .running → s.frn % 1024 = 1023 →
      (∀ c, c < 12 → ∀ w ∈ (chanOf s c).wins, w.opened ≠ s.frn - s.frn % 1024) →
      ∃ t, exec .qualifierWindowClose s = .next t ∧ ∀ c, c < 12 →
        (chanOf t c).sum = 0 ∧ (chanOf t c).valid = 0 ∧ (chanOf t c).held = 0 ∧ (chanOf t c).overs = 0 ∧
        (chanOf t c).wins = trimWins ((chanOf s c).wins ++
          [⟨s.frn - s.frn % 1024, (chanOf s c).sum, (chanOf s c).valid, winKind (chanOf s c)⟩]))

/-- WTR expiry qualifies the pair; hold-off expiry keeps HOLD_OFF while fewer than 8 complete windows opened after the last
failing frame, and then qualifies the pair or starts its WTR; a slew that ends clears its report and what it had left (R263,
R266, R267, R277). -/
def Obligations.PairTimers : Prop :=
  ∀ (s : State) (d c : Nat), Shaped s → d < 4 →
    (c < 12 → isCand s d c = true → (pairOf s d c).kind = 1 → (pairOf s d c).reason = 9 →
      ∃ t, exec (.wtrExpiry d c) s = .next t ∧ (pairOf t d c).reason = 0 ∧ (pairOf t d c).ever = true ∧
        (pairOf t d c).timer = 0 ∧ (pairOf t d c).kind = 0) ∧
    (∀ f, c < 12 → isCand s d c = true → (pairOf s d c).kind = 2 → (pairOf s d c).reason = 0xA →
      (pairOf s d c).lastFail = some f →
      let wins := winsSince (chanOf s c) (max (domOf s d).start (f + 1))
      let wtr := polVal s.pol CHAN.WTR c 0 0
      ∃ t, exec (.holdOffExpiry d c) s = .next t ∧
        (wins < 8 → (pairOf t d c).reason = 0xA ∧ (pairOf t d c).timer = 0 ∧ (pairOf t d c).kind = 0) ∧
        (8 ≤ wins → (pairOf s d c).wtrDue = false ∨ wtr = 0 → (pairOf t d c).reason = 0 ∧ (pairOf t d c).kind = 0) ∧
        (8 ≤ wins → (pairOf s d c).wtrDue = true → wtr ≠ 0 →
          (pairOf t d c).reason = 9 ∧ (pairOf t d c).timer = wtr * 8000 ∧ (pairOf t d c).kind = 1)) ∧
    (getF s SEL.ACTIVE_SLEWING 0 d 0 = 1 → ∃ t, exec (.slewDone d) s = .next t ∧ getF t SEL.ACTIVE_SLEWING 0 d 0 = 0 ∧
      getF t SEL.ACTIVE_FROM 0 d 0 = 0xF ∧ getF t SEL.SLEW_LEFT 0 d 0 = 0 ∧ (domOf t d).slew = 0 ∧ Raised t .part d 11) ∧
    (getF s SEL.ACTIVE_SLEWING 0 d 0 ≠ 1 → exec (.slewDone d) s = .next s)

/-- The transitions that a domain's own conditions make: ACQUIRING to LOCKED, and HOLDOVER to LOST when the Dusk bound exceeds
the budget; the state and its FRN are reported and STATE_CHG is raised (R302, R311). -/
def Obligations.DomainTransitions : Prop :=
  ∀ (s : State) (d : Nat), d < 4 →
    (domState s d = 1 → lockCrit s d = true → ∃ t, exec (.lockAchieved d) s = .next t ∧ get1 t DPLL.STATUS_STATE d = 2 ∧
      get1 t DPLL.STATE_FRN d = s.frn % 2 ^ 32 ∧ Raised t .dpll d 0 ∧ t.doms = s.doms) ∧
    (domState s d = 3 → activeOf s d = 0xF → duskOver s d = true → ∃ t, exec (.duskExpiry d) s = .next t ∧
      get1 t DPLL.STATUS_STATE d = 4 ∧ get1 t DPLL.STATE_FRN d = s.frn % 2 ^ 32 ∧ get1 t DPLL.DUSK_LEFT d = 0 ∧
      Raised t .dpll d 0 ∧ Raised t .dpll d 2 ∧ t.doms = s.doms)

/-- A bridge that is over ends with a new loop offset to come; the last frame of a history segment of a running domain stores
the segment if it qualified and began under the length in effect, and the store keeps the latest HIST_LEN; STEPPED clears
128 000 frames after the latest step (R307, R319, R363). -/
def Obligations.DomainFrameEnds : Prop :=
  ∀ (s : State) (d : Nat), Shaped s → d < 4 →
    (get1 s DPLL.STATUS_BRIDGING d = 1 → bridgeOver s d = true → ∃ t, exec (.bridgeEnd d) s = .next t ∧
      get1 t DPLL.STATUS_BRIDGING d = 0 ∧ (domOf t d).setB = true ∧ (domOf t d).brLane = false ∧ (domOf t d).brApll = false ∧
      OnlyCells [fldKey DPLL.STATUS_BRIDGING d 0 0] { s with doms := t.doms } t) ∧
    (get1 s DPLL.STATUS_BRIDGING d = 0 ∨ bridgeOver s d = false → exec (.bridgeEnd d) s = .next s) ∧
    (domRuns s d = true → segmentEnds s d = true →
      let kept := (domOf s d).segOk && decide ((domOf s d).segLen = get1 s DPLL.HOLD_CFG_SEG_S d * 8000)
      ∃ t, exec (.historySegment d) s = .next t ∧ (domOf t d).segOk = false ∧ (domOf t d).segSum = 0 ∧
        (domOf t d).segs.length = min (get1 s DPLL.HOLD_CFG_HIST_LEN d) ((domOf s d).segs.length + b2n kept) ∧
        (kept = true → 0 < get1 s DPLL.HOLD_CFG_HIST_LEN d → (domOf t d).segs.getLast? = some ⟨s.frn,
          -((domOf s d).segSum : Rat) / ((get1 s DPLL.HOLD_CFG_SEG_S d * 8000 : Nat) * frameLsb)⟩) ∧
        get1 t DPLL.HIST_SEGS d = (domOf t d).segs.length % 2 ^ 8 ∧
        OnlyCells [fldKey DPLL.HIST_SEGS d 0 0] { s with doms := t.doms } t) ∧
    (domRuns s d = false ∨ segmentEnds s d = false → exec (.historySegment d) s = .next s) ∧
    (∀ f, (timeOf s d).stepped = some f → f + 128000 ≤ s.frn → ∃ t, exec (.steppedEnd d) s = .next t ∧
      get1 t TIME.STATUS_STEPPED d = 0 ∧ (timeOf t d).t = (timeOf s d).t)

/-- A loop bandwidth and a damping inside their ranges are taken, each without the other; outside its range a value is ignored;
the loop's state is kept (R296). -/
def Obligations.LoopBandwidth : Prop :=
  ∀ (s : State) (d : Nat) (bw damp : Option Nat), d < 4 → ∃ t, exec (.loopBwWrite d bw damp) s = .next t ∧ t.doms = s.doms ∧
    get1 t DPLL.STATUS_STATE d = get1 s DPLL.STATUS_STATE d ∧
    (∀ b, bw = some b → 1 ≤ b → b ≤ 250000 → get1 t DPLL.BW d = b) ∧
    ((bw = none ∨ ∃ b, bw = some b ∧ (b < 1 ∨ 250000 < b)) → get1 t DPLL.BW d = get1 s DPLL.BW d) ∧
    (∀ z, damp = some z → 64 ≤ z → z ≤ 2047 → get1 t DPLL.DAMP d = z) ∧
    ((damp = none ∨ ∃ z, damp = some z ∧ (z < 64 ∨ 2047 < z)) → get1 t DPLL.DAMP d = get1 s DPLL.DAMP d)

/-! ### The row engine -/

/-- OPEN starts a row in the frame in progress under its descriptor: with zeros, with a bias in word 0, with the words, exponent
and infinity of another row, or on from its own words, exponent, infinity and COUNT with its own opening FRN, marked carried.
The accumulator words hold the row's words, the slots of Table 6.4 are used, and nothing else changes (R199, R201, R202).
CARRY of a row that was never opened takes the frame in progress as its opening FRN (the model's choice,
notes/assumptions 33). -/
def Obligations.RowOpen : Prop :=
  ∀ (s : State) (p row : Nat), Shaped s → p < 4 → row < 256 →
    let fmt := getF s ROWS.DESC_FMT 0 row 0
    let zeros := List.replicate (fmtWords fmt) (0 : Int)
    (RowRuns s p (.opn row 0 0) → ∃ t, exec (.openZero p row) s = .next t ∧ RowOpened s t p row 1 (openedRow s row zeros)) ∧
    (∀ b : Int, -32768 ≤ b → b ≤ 32767 → RowRuns s p (.opn row 1 (ofSigned 16 b)) → ∃ t, exec (.openBias p row b) s = .next t ∧
      RowOpened s t p row 1 (openedRow s row (b :: zeros.tail))) ∧
    (∀ src, src < 256 → RowRuns s p (.opn row 2 src) → ∃ t, exec (.openResidual p row src) s = .next t ∧
      RowOpened s t p row 2 { openedRow s row (wordsUnder fmt (rowOf s src)) with
        exp := (rowOf s src).exp, inf := (rowOf s src).inf }) ∧
    (RowRuns s p (.opn row 3 0) → ∃ t, exec (.openCarry p row) s = .next t ∧
      RowOpened s t p row 1 { openedRow s row (wordsUnder fmt (rowOf s row)) with
        carried := true, exp := (rowOf s row).exp, inf := (rowOf s row).inf, count := (rowOf s row).count,
        openFrn := if (rowOf s row).ever then (rowOf s row).openFrn else s.frn })

/-- One valid sample of a frame, taken by a SUM row in range, adds to word 0 and to COUNT: ACC the sample, DIFF its difference
from the sample before it, XDIF the difference of two sources; the accumulator word holds it, and every other row and word
stays (R192, R193, R194, R208). -/
def Obligations.RowAccumulate : Prop :=
  ∀ (s : State) (p row : Nat) (w x y : Int), Shaped s → p < 4 → row < 256 →
    (rowOf s row).fmt = 0 → (rowOf s row).inf = false → (rowOf s row).exp = 0 → (rowOf s row).words = [w] →
    (rowOf s row).count + 1 < countMax → -8191 ≤ x → x ≤ 8191 → -8191 ≤ y → y ≤ 8191 →
    let Added := fun (t : State) (v : Int) (c : Nat) =>
      (rowOf t row).words = [w + v] ∧ (rowOf t row).count = (rowOf s row).count + 1 ∧ (rowOf t row).isOpen = (rowOf s row).isOpen ∧
      (kvGet t.accs (rowOf s row).base).getD 0 = w + v ∧ (∀ a, a ≠ (rowOf s row).base → kvGet t.accs a = kvGet s.accs a) ∧
      SlotsUsed s t p c ∧ ∀ m, m ≠ row → rowOf t m = rowOf s m
    (∀ src f i, src < 32 → i < 64 → funcOfCode src = some f → (funcOf s f).smps[i]? = some (.val x) →
      RowRuns s p (.acc row src false i 0 0) → fitsWord (w + x) = true →
      ∃ t, exec (.acc p row src false i 0 0) s = .next t ∧ Added t x 2) ∧
    (∀ src f, src < 32 → funcOfCode src = some f → (funcOf s f).smps[0]? = some (.val x) → (funcOf s f).pred = some y →
      RowRuns s p (.dif row src false 0 0 0) → fitsWord (w + (x - y)) = true →
      ∃ t, exec (.diff p row src false 0 0 0) s = .next t ∧ Added t (x - y) 2) ∧
    ∀ a b f g, a < 32 → b < 32 → funcOfCode a = some f → funcOfCode b = some g →
      (funcOf s f).smps[0]? = some (.val x) → (funcOf s g).smps[0]? = some (.val y) →
      RowRuns s p (.xdf row a b false 0 0) → fitsWord (w + (x - y)) = true →
      ∃ t, exec (.xdif p row a b false 0 0) s = .next t ∧ Added t (x - y) 3

/-- NOP uses a slot; SYNC skips when its trigger's state is the one named; CLOSE takes two slots and stages the row's record, or
counts it as dropped behind 64; END ends the program (R195, R204, R207, R223, R236). -/
def Obligations.RowControl : Prop :=
  ∀ (s : State) (p : Nat), Shaped s → p < 4 →
    (RowRuns s p .nop → ∃ t, exec (.nop p) s = .next t ∧ SlotsUsed s t p 1 ∧ t = { s with parts := t.parts }) ∧
    (∀ k neg trig, k < 256 → trig < 8 → RowRuns s p (.syn k neg trig) → ∃ t, exec (.sync p k neg trig) s = .next t ∧
      SlotsUsed s t p 1 ∧ (fired s p trig = neg → 0 < k → (partOf t p).run.skip = k) ∧
      (fired s p trig = neg → k = 0 → (partOf t p).run.skipAll = true) ∧
      (fired s p trig ≠ neg → (partOf t p).run.skip = 0 ∧ (partOf t p).run.skipAll = false) ∧ t = { s with parts := t.parts }) ∧
    (∀ row, row < 256 → RowRuns s p (.cls row) → ∃ t, exec (.close p row) s = .next t ∧
      (rowOf t row).isOpen = false ∧ (rowOf t row).words = (rowOf s row).words ∧
      ((partOf s p).staged.length < 64 → (partOf t p).staged = (partOf s p).staged ++
        [⟨row, (rowOf s row).fmt, (rowOf s row).exp, (rowOf s row).count, recFlags (rowOf s row) false, (rowOf s row).openFrn, s.frn,
          (rowOf s row).words⟩]) ∧
      (64 ≤ (partOf s p).staged.length → (partOf t p).staged = (partOf s p).staged ∧
        (partOf t p).dropped = (partOf s p).dropped + 1) ∧
      SlotsUsed s t p 2 ∧ (∀ m, m ≠ row → rowOf t m = rowOf s m) ∧ t = { s with rows := t.rows, parts := t.parts }) ∧
    (RowRuns s p .fin → ∃ t, exec (.endProg p) s = .next t ∧ (partOf t p).run.ended = true ∧ SlotsUsed s t p 1 ∧
      t = { s with parts := t.parts })

/-- An instruction that meets a fault does nothing to any row, takes one slot and is recorded with its code, its index and the
FRN; one whose slots exceed the quota does not run, and ends the partition's program as overrun, counted and raised: no word
changes, and the only row that may change is one an accumulation named, which is the partition's own and reads SHORT (R32, R78
to R80, R200). -/
def Obligations.RowFaultsAndOverrun : Prop :=
  ∀ (s : State) (p row : Nat), Shaped s → p < 4 → row < 256 →
    (∀ k, RowTurn s p (.cls row) → insFault s p (.cls row) = some k → (partOf s p).run.used + 1 ≤ quotaOf s p →
      ∃ t, exec (.close p row) s = .next t ∧ t.rows = s.rows ∧ getF t ROWS.FAULT_LAST_CODE 0 p 0 = k % 2 ^ 4 ∧
        getF t ROWS.FAULT_LAST_INDEX 0 p 0 = (partOf s p).run.pc % 2 ^ 12 ∧ getF t ROWS.FAULT_LAST_FRN 0 p 0 = s.frn % 2 ^ 16 ∧
        getF t ROWS.FAULT_CNT 0 p 0 = satTo cntMax (getF s ROWS.FAULT_CNT 0 p 0 + 1) ∧ Raised t .part p 1 ∧ SlotsUsed s t p 1) ∧
    (RowTurn s p (.opn row 0 0) → insFault s p (.opn row 0 0) = none → quotaOf s p < (partOf s p).run.used + 1 →
      ∃ t, exec (.openZero p row) s = .next t ∧ t.rows = s.rows ∧ t.accs = s.accs ∧ (partOf t p).run.overrun = true ∧
        getF t FRAME.OVERRUN_CNT 0 p 0 = satTo cntMax (getF s FRAME.OVERRUN_CNT 0 p 0 + 1) ∧ Raised t .part p 0) ∧
    (∀ src, src < 32 → RowTurn s p (.acc row src false 0 0 0) → insFault s p (.acc row src false 0 0 0) = none →
      quotaOf s p < (partOf s p).run.used + insCost s (.acc row src false 0 0 0) →
      ∃ t, exec (.acc p row src false 0 0 0) s = .next t ∧ t.accs = s.accs ∧ rowOf t row = { rowOf s row with short := true } ∧
        (∀ m, m ≠ row → rowOf t m = rowOf s m) ∧ (partOf t p).run.overrun = true ∧ Raised t .part p 0)

/-- A descriptor word, PROG_BASE, the program window and SWAP act on the cells they name and on no other; a window word beyond
the bank is discarded, and the last of a burst advances PROG_BASE (R201, R220, R221, R222). -/
def Obligations.RowsPageWrites : Prop :=
  ∀ (s : State) (p v : Nat), Shaped s → p < 4 → v < 2 ^ 32 →
    (∀ row, row < 256 → ∃ t, exec (.descriptorWrite row v) s = .next t ∧ getF t ROWS.DESC_BASE 0 row 0 = v % 2 ^ 10 ∧
      getF t ROWS.DESC_FMT 0 row 0 = v / 2 ^ 10 % 4 ∧ getF t ROWS.DESC_OVF 0 row 0 = v / 2 ^ 12 % 2 ∧
      getF t ROWS.DESC_ORNG 0 row 0 = v / 2 ^ 13 % 2 ∧
      OnlyCells [fldKey ROWS.DESC_BASE 0 row 0, fldKey ROWS.DESC_FMT 0 row 0, fldKey ROWS.DESC_OVF 0 row 0,
        fldKey ROWS.DESC_ORNG 0 row 0, fldKey ROWS.DESC_CFG_PEND 0 row 0] s t) ∧
    (∃ t, exec (.progBaseWrite p v) s = .next t ∧ getF t ROWS.PROG_BASE 0 p 0 = v % 2 ^ 12 ∧
      OnlyCells [fldKey ROWS.PROG_BASE 0 p 0] s t) ∧
    (∀ i, i < 16 → getF s ROWS.PROG_BASE 0 p 0 + i < 3584 → ∃ t, exec (.progWinWrite p i v) s = .next t ∧
      (kvGet (standbyBank t p) (getF s ROWS.PROG_BASE 0 p 0 + i)).getD 0xF0000000 = v ∧ activeBank t p = activeBank s p ∧
      getF t ROWS.PROG_BASE 0 p 0 = (if i = 15 then (getF s ROWS.PROG_BASE 0 p 0 + 16) % 2 ^ 12 else getF s ROWS.PROG_BASE 0 p 0)) ∧
    (∀ i, i < 16 → 3584 ≤ getF s ROWS.PROG_BASE 0 p 0 + i → ∃ t, exec (.progWinWrite p i v) s = .next t ∧ t.parts = s.parts) ∧
    (getF s ROWS.PROG_CTRL_ACTIVE 0 p 0 < 2 → ∃ t, exec (.swap p) s = .next t ∧ activeBank t p = standbyBank s p ∧
      standbyBank t p = activeBank s p ∧ OnlyCells [fldKey ROWS.PROG_CTRL_ACTIVE 0 p 0] s t)

/-- A read index within the records of the ring is stored; one beyond them is reported and changes nothing (R241). -/
def Obligations.HarvestReadIndex : Prop :=
  ∀ (s : State) (p v : Nat), p < 4 → v < 2 ^ 32 →
    ((getF s HARV.WR_IDX 0 p 0 + 512 - v % 512) % 512 ≤ ringFill s p → ∃ t, exec (.rdIdxWrite p v) s = .next t ∧
      getF t HARV.RD_IDX 0 p 0 = v % 512 ∧ OnlyCells [fldKey HARV.RD_IDX 0 p 0] s t) ∧
    (ringFill s p < (getF s HARV.WR_IDX 0 p 0 + 512 - v % 512) % 512 → ∃ t, exec (.rdIdxWrite p v) s = .next t ∧
      getF t HARV.RD_IDX 0 p 0 = getF s HARV.RD_IDX 0 p 0 ∧ Raised t .part p 7 ∧ OnlyCells (evtCells .part p) s t)

/-! ### The host ports -/

/-- A register word that passes the checks waits for its boundary, the next one or, from the cutoff on, the one after it; one
that is denied is not taken and is flagged, and one at no word's address or at an unmapped one is not taken; each ends a counted
transaction with its result. On a bus that is not free nothing happens (R59, R60, R90, R94, R95, R109, R113, R116). -/
def Obligations.HostWriteTaken : Prop :=
  ∀ (s : State) (a : Access) (addr v : Nat), a.tag < 8 → a.cyc < 1250 → addr < 2 ^ 24 → v < 2 ^ 32 →
    let free := busFree s a.port = true
    let Ends := fun (t : State) (r : Nat) => t.writeQ = s.writeQ ∧ (portOf t a.port).result = r ∧
      (portOf t a.port).denied = (r == resDENIED) ∧ (portOf t a.port).txn = ((portOf s a.port).txn + 1) % 256
    let may := free ∧ addr % 4 = 0 ∧ windowBusy s = false
    (¬ free → exec (.hostRegisterWrite a addr v) s = .next s) ∧
    (free → addr % 4 ≠ 0 → ∃ t, exec (.hostRegisterWrite a addr v) s = .next t ∧ Ends t resALIGN) ∧
    (may → checkWord s a.port a.tag addr v = resUNMAPPED → ∃ t, exec (.hostRegisterWrite a addr v) s = .next t ∧
      Ends t resUNMAPPED) ∧
    (may → checkWord s a.port a.tag addr v = resDENIED → ∃ t, exec (.hostRegisterWrite a addr v) s = .next t ∧ Ends t resDENIED) ∧
    (may → checkWord s a.port a.tag addr v = resOK →
      (∃ p n off, regionOf addr = .page p n off ∧ off ≠ 0x1C ∧ (p ≠ .frame ∨ off ≠ 0x4C) ∧ (fieldsAt p n off).any queued = true) →
      ∃ t, exec (.hostRegisterWrite a addr v) s = .next t ∧ t.writeQ = s.writeQ ++ [⟨addr, v, a.tag, a.port, dueOf s a.cyc, (portOf s a.port).bursts⟩] ∧
        (portOf t a.port).result = resOK ∧ (portOf t a.port).denied = false ∧
        (portOf t a.port).late = isLate s a.cyc ∧ (portOf t a.port).txn = ((portOf s a.port).txn + 1) % 256)

/-- A write acts in the frame after the one in which it was taken, or one later when taken at or after 123.0 us; before frame 0
it acts at boundary 0 (R60, R540). -/
def Obligations.WriteCutoff : Prop :=
  ∀ (s : State) (cyc : Nat), cyc < 1250 →
    (s.phase = .running → cyc < 1230 → dueOf s cyc = s.frn + 1 ∧ isLate s cyc = false) ∧
    (s.phase = .running → 1230 ≤ cyc → dueOf s cyc = s.frn + 2 ∧ isLate s cyc = true) ∧
    (s.phase = .waiting → dueOf s cyc = 0 ∧ isLate s cyc = false)

/-- SPI: a write cut short, misaligned or with a bad CRC takes nothing and says why; one that is whole takes its words. A read
shifts out the status word, 32 zeros, then the words it fetched and their CRC; cut short, misaligned or with a bad CRC it says
why; a read of PORT_STATUS keeps the result. Zeros go out in the rest of a transaction and past its end (R93, R107 to R114,
R117, R118). -/
def Obligations.SpiTransactions : Prop :=
  ∀ s : State, busFree s .spi = true →
    (∀ t, SpiWrite.ok t = true →
      let total := spiWriteBits s.straps.crc t.len
      let bits := t.cut.getD total
      let crcOk := s.straps.crc = true → t.crc = crcWords (header true t.tag t.len t.addr :: t.data)
      let s1 := shiftOut (atCyc s t.cyc) .spi (sdo total bits [statusWord s .spi])
      ∃ u, exec (.spiWrite t) s = .next u ∧ u.spi.out = sdo total bits [statusWord s .spi] ∧
        (bits < total → u.writeQ = s.writeQ ∧ u.regs = s.regs ∧ u.spi.result = resSHORT ∧
          u.spi.txn = (if bits < 32 then s.spi.txn else (s.spi.txn + 1) % 256)) ∧
        (total ≤ bits → t.addr % 4 ≠ 0 → u.writeQ = s.writeQ ∧ u.regs = s.regs ∧ u.spi.result = resALIGN) ∧
        (total ≤ bits → t.addr % 4 = 0 → ¬ crcOk →
          u.writeQ = s.writeQ ∧ u.regs = s.regs ∧ u.spi.result = resCRC ∧ u.spi.crcErr = true) ∧
        (total ≤ bits → t.addr % 4 = 0 → crcOk →
          let b := takeBurst s1 .spi t.tag t.cyc ((txnAddrs s t.tag t.addr t.len).zip t.data)
          u.writeQ = b.st.writeQ ∧ u.spi.result = b.res ∧ u.spi.denied = !b.refused.isEmpty ∧
            u.spi.txn = (s.spi.txn + 1) % 256)) ∧
    (∀ t, SpiRead.ok t = true →
      let total := spiReadBits s.straps.crc t.len
      let bits := t.cut.getD total
      let crcOk := s.straps.crc = true → t.crc = crcWords [header false t.tag t.len t.addr]
      let s1 := shiftOut (atCyc s t.cyc) .spi (sdo total bits [statusWord s .spi])
      ∃ u, exec (.spiRead t) s = .next u ∧ u.writeQ = s.writeQ ∧ u.regs = s.regs ∧
        (bits < total → u.spi.result = resSHORT ∧
          u.spi.txn = (if bits < 32 then s.spi.txn else (s.spi.txn + 1) % 256)) ∧
        (total ≤ bits → u.spi.txn = (s.spi.txn + 1) % 256) ∧
        (total ≤ bits → t.addr % 4 ≠ 0 → u.spi.result = resALIGN) ∧
        (total ≤ bits → t.addr % 4 = 0 → ¬ crcOk → u.spi.result = resCRC ∧ u.spi.crcErr = true) ∧
        (total ≤ bits → t.addr % 4 = 0 → crcOk →
          let x := (fetchWords .spi t.tag (txnAddrs s t.tag t.addr t.len) s1).1
          let vals := x.map fun y => y.value
          u.spi.out = sdo total bits (statusWord s .spi :: 0 :: vals ++ (if s.straps.crc then [crcWords vals] else [])) ∧
          (t.addr ≠ 0xFFFFFC → u.spi.result = (x.map fun y => y.code).foldl max resOK ∧
            u.spi.denied = x.any fun y => y.denied) ∧
          (t.addr = 0xFFFFFC → t.len = 0 → u.spi.result = s.spi.result ∧ u.spi.denied = s.spi.denied)))

/-- Two wires: a transaction for another address changes nothing. A write is acknowledged byte by byte to its end and takes its
words, or says why it takes none; one with a data byte in the Cellar window while a store runs is held. A read shifts out the
words it fetched, their CRC and zeros for further bytes; it is held before a word of the window while a store runs. A hold that
times out takes nothing and sends 0, with BUSY (R120 to R125). -/
def Obligations.I2cTransactions : Prop :=
  ∀ s : State,
    (busFree s .i2c = true → (∀ t, I2cWrite.ok t = true → t.dev ≠ i2cAddr s → exec (.i2cWrite t) s = .next s) ∧
      ∀ t, I2cRead.ok t = true → t.dev ≠ i2cAddr s → exec (.i2cRead t) s = .next s) ∧
    (∀ t, busFree s .i2c = true → I2cWrite.ok t = true → t.dev = i2cAddr s →
      let total := i2cWriteBytes s.straps.crc t.len
      let bytes := t.stop.getD total
      let crcOk := s.straps.crc = true → t.crc = crcWords (header true t.tag t.len t.addr :: t.data)
      let waits := windowBusy s = true ∧ t.addr % 4 = 0 ∧ (i2cReached s t).any inWindow24 = true
      ∃ u, exec (.i2cWrite t) s = .next u ∧
        (waits → u.i2cHold = some (.write t) ∧ u.writeQ = s.writeQ ∧ u.regs = s.regs) ∧
        (¬ waits → u.i2cHold = none ∧
          u.i2c.acks = List.replicate (1 + min bytes total) true ++ List.replicate (bytes - total) false) ∧
        (¬ waits → bytes < total → u.writeQ = s.writeQ ∧ u.regs = s.regs ∧ u.i2c.result = resSHORT ∧
          u.i2c.txn = (if bytes < 4 then s.i2c.txn else (s.i2c.txn + 1) % 256)) ∧
        (¬ waits → total ≤ bytes → t.addr % 4 ≠ 0 → u.writeQ = s.writeQ ∧ u.regs = s.regs ∧ u.i2c.result = resALIGN) ∧
        (¬ waits → total ≤ bytes → t.addr % 4 = 0 → ¬ crcOk →
          u.writeQ = s.writeQ ∧ u.regs = s.regs ∧ u.i2c.result = resCRC ∧ u.i2c.crcErr = true) ∧
        (¬ waits → total ≤ bytes → t.addr % 4 = 0 → crcOk →
          let b := takeBurst (acked (shiftOut (atCyc s t.cyc) .i2c []) (min bytes total) (bytes - total)) .i2c t.tag t.cyc
            ((txnAddrs s t.tag t.addr t.len).zip t.data)
          u.writeQ = b.st.writeQ ∧ u.i2c.result = b.res ∧ u.i2c.txn = (s.i2c.txn + 1) % 256)) ∧
    (∀ t, busFree s .i2c = true → I2cRead.ok t = true → t.dev = i2cAddr s →
      let total := i2cReadBytes s.straps.crc t.len
      let bytes := t.stop.getD total
      let head := 4 + 2 * b2n s.straps.crc
      let crcOk := s.straps.crc = true → t.crc = crcWords [header false t.tag t.len t.addr]
      let s1 := acked (shiftOut (atCyc s t.cyc) .i2c []) (min bytes head + 1) 0
      let waits := windowBusy s = true ∧ (txnAddrs s t.tag t.addr t.len).any inWindow24 = true
      total ≤ bytes → ∃ u, exec (.i2cRead t) s = .next u ∧ u.writeQ = s.writeQ ∧ u.regs = s.regs ∧
        (t.addr % 4 ≠ 0 → u.i2c.result = resALIGN) ∧
        (t.addr % 4 = 0 → ¬ crcOk → u.i2c.result = resCRC ∧ u.i2c.crcErr = true) ∧
        (t.addr % 4 = 0 → crcOk → ¬ waits →
          let x := (fetchWords .i2c t.tag (txnAddrs s t.tag t.addr t.len) s1).1
          let vals := x.map fun y => y.value
          u.i2c.out = vals ++ (if s.straps.crc then [crcWords vals] else []) ++ List.replicate t.extra 0 ∧
          (t.addr ≠ 0xFFFFFC → u.i2c.result = (x.map fun y => y.code).foldl max resOK)) ∧
        (t.addr % 4 = 0 → crcOk → waits → u.i2cHold = some (.read t (fetchWords .i2c t.tag
          ((txnAddrs s t.tag t.addr t.len).takeWhile fun a => !inWindow24 a) s1).1))) ∧
    (∀ t, s.i2cHold = some (.write t) →
      let bytes := t.stop.getD (i2cWriteBytes s.straps.crc t.len)
      ∃ u, exec .i2cHoldTimeout s = .next u ∧ u.i2cHold = none ∧ u.writeQ = s.writeQ ∧ u.regs = s.regs ∧
        u.i2c.result = (if bytes < i2cWriteBytes s.straps.crc t.len then resSHORT else resBUSY) ∧
        u.i2c.acks = List.replicate (1 + i2cBefore s t) true ++ List.replicate (bytes - i2cBefore s t) false) ∧
    (∀ t done, s.i2cHold = some (.read t done) → (i2cAddrs s t).any inWindow24 = true → done.length < (i2cAddrs s t).length →
      (∀ x ∈ done, x.code < resCRC) →
      let bytes := t.stop.getD (i2cReadBytes s.straps.crc t.len)
      ∃ u, exec .i2cHoldTimeout s = .next u ∧ u.i2cHold = none ∧ u.writeQ = s.writeQ ∧ u.regs = s.regs ∧
        u.i2c.result = (if bytes < i2cReadBytes s.straps.crc t.len then resSHORT else resBUSY) ∧
        ∀ i, done.length ≤ i → i < (i2cAddrs s t).length → u.i2c.out[i]? = some 0) ∧
    (s.i2cHold = none → exec .i2cHoldTimeout s = .next s)

/-- The host commands of one word that act at once: a snapshot is requested for its boundary, event bits clear; no write waits
for them (R63, R69, R73, R101). What a late transaction counts, and what Root journals meanwhile, may raise events of the pages
FRAME, BBOX, ROOT and CELLAR. -/
def Obligations.HostRequests : Prop :=
  ∀ (s : State) (a : Access), a.tag < 8 → a.cyc < 1250 → busFree s a.port = true → windowBusy s = false →
    (∀ p n, isPage p n = true → checkWord s a.port a.tag (pageBase p n + 0x1C) 1 = resOK →
      ∃ t, exec (.snapReq a p n) s = .next t ∧ (pageBase p n, snapDue s a.cyc) ∈ t.snapReq ∧ (∀ x ∈ s.snapReq, x ∈ t.snapReq) ∧
        t.writeQ = s.writeQ ∧ (portOf t a.port).result = resOK) ∧
    (checkWord s a.port a.tag (fldAddr FRAME.SNAP_ALL 0 0 0) 1 = resOK →
      ∃ t, exec (.snapAll a) s = .next t ∧ snapDue s a.cyc ∈ t.snapAll ∧ t.writeQ = s.writeQ ∧ (portOf t a.port).result = resOK) ∧
    (∀ p n bits, isPage p n = true → bits < 2 ^ 32 → checkWord s a.port a.tag (pageBase p n + 0x10) bits = resOK →
      isLate s a.cyc = false ∨ p ≠ .frame → p ∉ [Page.bbox, .root, .cellar] ∨ (s.jrn.queue = [] ∧ s.jrn.held = []) →
      ∃ t, exec (.evtClear a p n bits) s = .next t ∧ t.writeQ = s.writeQ ∧ (portOf t a.port).result = resOK ∧
        ∀ b, b < 32 → bitOf (get1 t (HDR.EVT p) n) b = (bitOf (get1 s (HDR.EVT p) n) b && !bitOf bits b))

/-- The host commands of one word that wait for their boundary: a counter's clearing, a partition reset and a Channel Table
word that pass the checks join the queue of writes (R38, R60, R102, R136). -/
def Obligations.HostQueued : Prop :=
  ∀ (s : State) (a : Access), a.tag < 8 → a.cyc < 1250 → busFree s a.port = true → windowBusy s = false →
    (∀ addr v, addr < 2 ^ 24 → addr % 4 = 0 → v < 2 ^ 32 → ((fieldsOf addr).any fun x => x.fld.acc == .cnt) = true →
      addr < 0x100000 → checkWord s a.port a.tag addr v = resOK → ∃ t, exec (.counterClear a addr v) s = .next t ∧
        t.writeQ = s.writeQ ++ [⟨addr, v, a.tag, a.port, dueOf s a.cyc, (portOf s a.port).bursts⟩]) ∧
    (∀ p, p < 4 → checkWord s a.port a.tag (fldAddr PART.CTRL p 0 0) 1 = resOK → ∃ t, exec (.partReset a p) s = .next t ∧
      t.writeQ = s.writeQ ++ [⟨fldAddr PART.CTRL p 0 0, 1, a.tag, a.port, dueOf s a.cyc, (portOf s a.port).bursts⟩]) ∧
    (∀ addr v, addr % 4 = 0 → 0x400000 ≤ addr → addr < 0x400800 → v < 2 ^ 32 → checkWord s a.port a.tag addr v = resOK →
      ∃ t, exec (.channelTableWrite a addr v) s = .next t ∧
        t.writeQ = s.writeQ ++ [⟨addr, v, a.tag, a.port, dueOf s a.cyc, (portOf s a.port).bursts⟩])

/-- Reads that a port latches: PORT_STATUS replaces nothing; FRN_LO and NOW_NS put the rest of their value in the port's shadow,
where FRN_HI, NOW_SEC and NOW_FRAC read it; NOW of a running domain runs on from its tick by the cycle of the read, where in
that cycle the spec leaves open (notes/assumptions 1); a debug read without a grant reads 0 and is denied; no read changes a
register cell (R57, R58, R93, R225, R226, R358). -/
def Obligations.PortReads : Prop :=
  ∀ (s : State) (p : Port), portsLive s = true →
    (∃ t, exec (.portStatusRead p) s = .next t ∧ (portOf t p).out = [statusWord s p] ∧
      (portOf t p).result = (portOf s p).result ∧ t.regs = s.regs) ∧
    (∀ g, g = .frame ∨ g = .sys → ∃ t, exec (.frnLoRead p g) s = .next t ∧ (portOf t p).out = [frnLo s] ∧ t.regs = s.regs ∧
      (if g = .sys then (portOf t p).shadow.sysFrnHi else (portOf t p).shadow.frnHi) = frnHi s) ∧
    (∀ g, g = .frame ∨ g = .sys → ∃ t, exec (.frnHiRead p g) s = .next t ∧ t.regs = s.regs ∧ (portOf t p).out =
      [if g = .sys then (portOf s p).shadow.sysFrnHi else (portOf s p).shadow.frnHi]) ∧
    (∀ d cyc, d < 4 → cyc < 1250 → ∃ t x, exec (.nowNsRead p ⟨d, cyc⟩) s = .next t ∧ (portOf t p).out = [timeNs x] ∧ t.regs = s.regs ∧
      (portOf t p).shadow.nowSec = (portOf s p).shadow.nowSec.set d (timeSec x) ∧
      (portOf t p).shadow.nowFrac = (portOf s p).shadow.nowFrac.set d (timeFrac x) ∧
      (domRuns s d = false → x = (timeOf s d).t) ∧
      (domRuns s d = true → ∃ f, f < 2 ^ 64 ∧
        x = ((timeOf s d).t + frameSpan s d * (cyc * 2 ^ 64 + f) / (1250 * 2 ^ 64)) % timeWrap)) ∧
    (∀ d, d < 4 → ∃ t, exec (.nowSecRead p d 0) s = .next t ∧ (portOf t p).out = [(portOf s p).shadow.nowSec.getD d 0 % 2 ^ 32]) ∧
    (∀ d, d < 4 → ∃ t, exec (.nowSecRead p d 1) s = .next t ∧ (portOf t p).out = [(portOf s p).shadow.nowSec.getD d 0 / 2 ^ 32]) ∧
    (∀ d, d < 4 → ∃ t, exec (.nowSecRead p d 2) s = .next t ∧ (portOf t p).out = [(portOf s p).shadow.nowFrac.getD d 0]) ∧
    (∀ tag w (h : Bool), tag < 8 → w < 1024 → ∃ t, exec (.accDebugRead p tag (0x700000 + 8 * w + 4 * b2n h)) s = .next t ∧
      t.regs = s.regs ∧
      (tagOpen s tag = true → debugReadOk s tag w = true →
        (portOf t p).out = [ofSigned 64 ((kvGet s.accs w).getD 0) / (if h then 2 ^ 32 else 1) % 2 ^ 32]) ∧
      (tagOpen s tag = false ∨ debugReadOk s tag w = false → (portOf t p).out = [0] ∧ (portOf t p).denied = true ∧
        (portOf t p).result = resDENIED))

/-! ### Time -/

/-- SET_ABS and SET_REL make a request for the next boundary and change nothing else; one with NS out of range is BAD. At its
boundary the one request that is due leaves the list and acts by the first row of Table 11.2 that holds: refused as BAD or
while the domain does not run, refused by a host's request to a domain that follows, a step for the first one, a slew in FREQ
mode within the threshold (R83, R359, R360, R361, R363). -/
def Obligations.TimeRequests : Prop :=
  ∀ (s : State) (d : Nat), Shaped s → d < 4 →
    (let r : ChangeReq := ⟨0, (setSec s d : Rat) * 1000000000 + setSub s d, s.frn + 1, true, decide (999999999 < get1 s TIME.SET_NS d)⟩
      ∃ t, exec (.setAbs d) s = .next t ∧ timeOf t d = { timeOf s d with reqs := (timeOf s d).reqs ++ [r] } ∧
        (∀ e, e ≠ d → timeOf t e = timeOf s e) ∧ t = { s with times := t.times }) ∧
    (let r : ChangeReq := ⟨0, (toSigned 48 (setSec s d) : Rat) * 1000000000 + setSub s d, s.frn + 1, false,
        decide (999999999 < get1 s TIME.SET_NS d)⟩
      ∃ t, exec (.setRel d) s = .next t ∧ timeOf t d = { timeOf s d with reqs := (timeOf s d).reqs ++ [r] } ∧
        (∀ e, e ≠ d → timeOf t e = timeOf s e) ∧ t = { s with times := t.times }) ∧
    ∀ r, ((timeOf s d).reqs.filter fun q => decide (q.due ≤ s.frn)) = [r] → r.src < 4 →
      let t := resolveReqs s d
      let Refused := fun (cause : Nat) => (timeOf t d).t = (timeOf s d).t ∧ get1 t TIME.STEP_LIM_LAST_REFUSE d = cause ∧ Raised t .time d 1
      (timeOf t d).reqs = (timeOf s d).reqs.filter (fun q => decide (s.frn < q.due)) ∧
      (r.bad = true → Refused 7) ∧
      (r.bad = false → domRuns s d = false → Refused 1) ∧
      (r.bad = false → domRuns s d = true → r.src = 0 → (domOf s d).mode ≠ 0 → following s d = true → Refused 2) ∧
      (r.bad = false → domRuns s d = true → r.src = 0 → (domOf s d).mode = 0 ∨ following s d = false →
        get1 s TIME.STATUS_TIME_SET d = 0 →
        (∀ n : Nat, r.abs = true → r.delta * 2 ^ 64 = n → (timeOf t d).t = n % timeWrap) ∧
        (timeOf t d).stepped = some s.frn ∧ get1 t TIME.STATUS_TIME_SET d = 1 ∧ get1 t TIME.STATUS_STEPPED d = 1 ∧
        Counted s t TIME.STEP_CNT d 0 1 ∧ Raised t .time d 0) ∧
      (r.bad = false → domRuns s d = true → r.src = 0 ∨ r.src = 2 → (domOf s d).mode = 0 → get1 s TIME.STATUS_TIME_SET d = 1 →
        absR (reqDelta s d r) ≤ (get1 s TIME.STEP_CFG_THRESH d : Rat) →
        (timeOf t d).t = (timeOf s d).t ∧ (timeOf t d).slew = (timeOf s d).slew + reqDelta s d r * 512)

/-- ARM latches the trigger's registers; it is refused with its cause under R372; a one-shot time already past fires late with
LATE_OK and ends LATE without, and a periodic one takes its next instance; DISARM ends it (R368, R369, R372, R373). -/
def Obligations.Triggers : Prop :=
  ∀ (s : State) (d k : Nat), Shaped s → d < 4 → k < 8 →
    let T := (getF s TIME.TRIG_SEC_LO d k 0 + 2 ^ 32 * getF s TIME.TRIG_SEC_HI d k 0) * 1000000000 + getF s TIME.TRIG_NS d k 0
    let per := getF s TIME.TRIG_PER d k 0
    let Armed := fun (t : State) (next : Nat) (late : Option Nat) => (trigOf t d k).armed = true ∧ (trigOf t d k).t = T ∧
      (trigOf t d k).per = per ∧ (trigOf t d k).next = next ∧ (trigOf t d k).late = late ∧
      (trigOf t d k).action = getF s TIME.TRIG_CTRL_ACTION d k 0 ∧ (trigOf t d k).target = getF s TIME.TRIG_CTRL_TARGET d k 0 ∧
      getF t TIME.TRIG_STAT_STATE d k 0 = 1 ∧ getF t TIME.TRIG_STAT_CAUSE d k 0 = 0
    (armCause s d k = 0 → (timeOf s d).t < T * 2 ^ 64 → ∃ t, exec (.trigArm d k) s = .next t ∧ Armed t 0 none) ∧
    (armCause s d k ≠ 0 → ∃ t, exec (.trigArm d k) s = .next t ∧ (trigOf t d k).armed = false ∧
      getF t TIME.TRIG_STAT_STATE d k 0 = 3 ∧ getF t TIME.TRIG_STAT_CAUSE d k 0 = armCause s d k ∧ Raised t .time d 4) ∧
    (armCause s d k = 0 → T * 2 ^ 64 ≤ (timeOf s d).t → per = 0 → getF s TIME.TRIG_CTRL_LATE_OK d k 0 = 0 →
      ∃ t, exec (.trigArm d k) s = .next t ∧ (trigOf t d k).armed = false ∧ getF t TIME.TRIG_STAT_STATE d k 0 = 0 ∧
        getF t TIME.TRIG_STAT_CAUSE d k 0 = 1 ∧ Raised t .time d 4) ∧
    (armCause s d k = 0 → T * 2 ^ 64 ≤ (timeOf s d).t → per = 0 → getF s TIME.TRIG_CTRL_LATE_OK d k 0 ≠ 0 →
      ∃ t, exec (.trigArm d k) s = .next t ∧ Armed t 0 (some (s.frn + 1))) ∧
    (armCause s d k = 0 → T * 2 ^ 64 ≤ (timeOf s d).t → per ≠ 0 →
      ∃ t, exec (.trigArm d k) s = .next t ∧ Armed t (((timeOf s d).t / 2 ^ 64 - T) / per + 1) none) ∧
    (∃ t, exec (.trigDisarm d k) s = .next t ∧ (trigOf t d k).armed = false ∧ getF t TIME.TRIG_STAT_STATE d k 0 = 0 ∧
      OnlyCells [fldKey TIME.TRIG_STAT_STATE d k 0] { s with times := t.times } t)

/-- An armed trigger of a running domain fires: its firing registers read its instance's time, or TIMEd for a late firing, it
is raised, and a late one twice; a one-shot trigger is then FIRED and no longer armed, a periodic one goes on to its next
instance. Its action is carried out: the edge nearest to the instant gives an INTERVAL's result or none, EPOCH waits for the
tick, a PULSE rises on its output or is refused. TIMEd runs on (R366, R369 to R372). -/
def Obligations.TriggerFires : Prop :=
  ∀ (s : State) (d k : Nat) (edges : List Rat), Shaped s → d < 4 → k < 8 →
    let u := trigOf s d k
    let x := if u.late.isSome then (timeOf s d).t else trigAt u * 2 ^ 64
    let refused := pulseTarget s d u.target = false ∨ get1 s OUT.CTRL u.target = 1 ∨ get1 s APLL.STATUS_RETUNE d = 1 ∨
      (apllOf s d).locked = false
    (domRuns s d = true → u.armed = true → ∃ t, exec (.trigFire d k edges) s = .next t ∧
      getF t TIME.TRIG_FIRED_SEC_LO d k 0 = timeSec x % 2 ^ 32 ∧ getF t TIME.TRIG_FIRED_SEC_HI d k 0 = timeSec x / 2 ^ 32 ∧
      getF t TIME.TRIG_FIRED_NS d k 0 = timeNs x ∧ getF t TIME.TRIG_FIRED_FRAC d k 0 = timeFrac x ∧
      getF t TIME.TRIG_FIRED_FRN d k 0 = (s.frn + 1) % 2 ^ 32 ∧ getF t TIME.TRIG_STAT_LATE d k 0 = b2n u.late.isSome ∧
      getF t TIME.TRIG_STAT_JUMPED d k 0 = 0 ∧ Raised t .time d 2 ∧ (u.late.isSome = true → Raised t .time d 3) ∧
      (trigOf t d k).late = none ∧ (trigOf t d k).next = u.next + 1 ∧ (timeOf t d).t = (timeOf s d).t ∧
      (timeOf t d).firesNext.getD k false = true ∧
      (u.per = 0 → (trigOf t d k).armed = false ∧ getF t TIME.TRIG_STAT_STATE d k 0 = 2) ∧
      (u.per ≠ 0 → (trigOf t d k).armed = true) ∧
      (u.action = 1 → (laneFor s u.target).isNone = true ∨ nearest edges = none →
        getF t TIME.TRIG_IVL_RESULT_CODE d k 0 = smpCode .noEdge ∧ getF t TIME.TRIG_IVL_RESULT_FLAGS d k 0 = 4) ∧
      (∀ y, u.action = 1 → (laneFor s u.target).isSome = true → nearest edges = some y →
        getF t TIME.TRIG_IVL_RESULT_CODE d k 0 = smpCode (pairStop [y] 0).1 % 2 ^ 14) ∧
      (u.action = 2 → (timeOf t d).epochAct = true) ∧
      (u.action = 3 → refused → getF t TIME.TRIG_STAT_CAUSE d k 0 = 2 ∧ Raised t .time d 4 ∧ t.outs = s.outs) ∧
      (u.action = 3 → ¬ refused → outOf t u.target = outOf (emitPulse s u.target 0 0) u.target ∧
        ∀ m, m ≠ u.target → outOf t m = outOf s m)) ∧
    (domRuns s d = false ∨ u.armed = false → exec (.trigFire d k edges) s = .next s)

/-- A capture: ARM of a source it may measure waits for an edge; another, one of a domain that does not run or has lost its
feedback, is refused with its cause; an edge of a later frame, or a value taken, is written with its time, FRN and stepped mark,
with CAPTURED raised; CANCEL ends it (R374, R375, R376). -/
def Obligations.Captures : Prop :=
  ∀ (s : State) (d c : Nat), Shaped s → d < 4 → c < 8 →
    let src := getF s TIME.CAP_CTRL_SRC d c 0
    let Refused := fun (t : State) (cause : Nat) => (capOf t d c).armed = false ∧ getF t TIME.CAP_STAT_STATE d c 0 = 3 ∧
      getF t TIME.CAP_STAT_CAUSE d c 0 = cause
    let Written := fun (t : State) (x f : Nat) => getF t TIME.CAP_NS d c 0 = timeNs x ∧ getF t TIME.CAP_SEC_LO d c 0 = timeSec x % 2 ^ 32 ∧
      getF t TIME.CAP_SEC_HI d c 0 = timeSec x / 2 ^ 32 ∧ getF t TIME.CAP_FRAC d c 0 = timeFrac x ∧
      getF t TIME.CAP_FRN d c 0 = f % 2 ^ 32 ∧ getF t TIME.CAP_STAT_STATE d c 0 = 2 ∧ (capOf t d c).taken = none ∧ Raised t .time d 5
    (domRuns s d = true → src < 10 → mayMeasure s d src = true → get1 s DPLL.STATUS_FB_LOST d ≠ 1 →
      ∃ t, exec (.capArm d c) s = .next t ∧ (capOf t d c).armed = true ∧ (capOf t d c).frm = s.frn ∧ (capOf t d c).src = src ∧
        getF t TIME.CAP_STAT_STATE d c 0 = 1 ∧ getF t TIME.CAP_STAT_CAUSE d c 0 = 0 ∧ getF t TIME.CAP_STAT_SKIP d c 0 = 0) ∧
    (domRuns s d = false → ∃ t, exec (.capArm d c) s = .next t ∧ Refused t 2) ∧
    (domRuns s d = true → 10 ≤ src ∨ mayMeasure s d src = false → ∃ t, exec (.capArm d c) s = .next t ∧ Refused t 1) ∧
    (domRuns s d = true → src < 10 → mayMeasure s d src = true → get1 s DPLL.STATUS_FB_LOST d = 1 →
      ∃ t, exec (.capArm d c) s = .next t ∧ Refused t 3) ∧
    (∃ t, exec (.capCancel d c) s = .next t ∧ capOf t d c = {} ∧ getF t TIME.CAP_STAT_STATE d c 0 = 0) ∧
    (∀ x f st, (capOf s d c).taken = some (x, f, st) → ∃ t, exec (.capDone d c) s = .next t ∧ Written t x f ∧
      getF t TIME.CAP_STAT_STEPPED d c 0 = b2n st) ∧
    (∀ x, (capOf s d c).taken = none → (capOf s d c).armed = true → (capOf s d c).frm < s.frn →
      capEdge s d (capOf s d c).src = some x → ∃ t, exec (.capDone d c) s = .next t ∧ Written t x s.frn ∧
        (capOf t d c).armed = false) ∧
    ((capOf s d c).taken = none → (capOf s d c).armed = false ∨ s.frn ≤ (capOf s d c).frm ∨
      capEdge s d (capOf s d c).src = none → exec (.capDone d c) s = .next s)

/-- The time-of-day port: the oldest message due is sent with its bytes and the next SEQ, 0 for the first; a sentence that does
not parse is counted BAD, one outside its window PHASE, one that agrees with TIMEd ends a mismatch, one that does not reports
it, and the third in a row that says the same makes a request; BAUD acts when no message is in transmission; a rollover moves
TIMEd to the next second and schedules its message (R353, R378 to R382). -/
def Obligations.TimeOfDay : Prop :=
  ∀ (s : State) (d : Nat), Shaped s → d < 4 →
    (∀ sec n st rest, (timeOf s d).todDue = (sec, n, st) :: rest → todSends s d = true →
      let seq := if (timeOf s d).tod = [] then 0 else (get1 s TIME.TOD_STAT_TX_SEQ d + 1) % 65536
      ∃ t, exec (.todMessage d) s = .next t ∧ (timeOf t d).todDue = rest ∧ 0 < (timeOf t d).todLeft ∧
        get1 t TIME.TOD_STAT_TX_SEQ d = seq ∧ (timeOf t d).tod = todBytes t d sec seq st ∧ (timeOf t d).t = (timeOf s d).t) ∧
    ((timeOf s d).todDue = [] ∨ todSends s d = false → exec (.todMessage d) s = .next s) ∧
    (∀ text us, (text.all fun c => decide (c < 256)) = true →
      let hears := get1 s TIME.TOD_CFG_CONN d = 1 ∧ get1 s TIME.TOD_CFG_RX_EN d = 1 ∧ leafRuns s = true
      (¬ hears → exec (.nmeaSentence d text us) s = .next s) ∧
      (hears → nmeaParse text = none → ∃ t, exec (.nmeaSentence d text us) s = .next t ∧
        get1 t TIME.NMEA_BAD_CNT d = satTo cntMax (get1 s TIME.NMEA_BAD_CNT d + 1) ∧ Raised t .time d 7) ∧
      (∀ utc, hears → nmeaParse text = some utc → us < 10000 ∨ 900000 < us → ∃ t, exec (.nmeaSentence d text us) s = .next t ∧
        get1 t TIME.NMEA_OK_CNT d = satTo cntMax (get1 s TIME.NMEA_OK_CNT d + 1) ∧
        get1 t TIME.NMEA_PHASE_CNT d = satTo cntMax (get1 s TIME.NMEA_PHASE_CNT d + 1)) ∧
      (∀ utc sec, hears → nmeaParse text = some utc → 10000 ≤ us → us ≤ 900000 → (timeOf s d).nmeaSec = some sec →
        let m : Int := (utc : Int) + toSigned 16 (get1 s TIME.UTC_OFS d) - (sec : Int)
        let run := if (timeOf s d).nmeaLast = m ∧ get1 s TIME.TOD_STAT_MATCH_RUN d < 3 then get1 s TIME.TOD_STAT_MATCH_RUN d + 1 else 1
        ∃ t, exec (.nmeaSentence d text us) s = .next t ∧
          get1 t TIME.TOD_STAT_MISMATCH d = ofSigned 8 (if m > 127 then 127 else if m < -127 then -127 else m) % 2 ^ 8 ∧
          (m = 0 → get1 t TIME.TOD_STAT_MATCH_RUN d = 0 ∧ get1 t TIME.STATUS_TOD_MISMATCH d = 0 ∧
            (timeOf t d).reqs = (timeOf s d).reqs) ∧
          (m ≠ 0 → get1 t TIME.TOD_STAT_MATCH_RUN d = run ∧ get1 t TIME.STATUS_TOD_MISMATCH d = 1 ∧
            (get1 s TIME.STATUS_TOD_MISMATCH d ≠ 1 → Raised t .time d 6) ∧
            (timeOf t d).reqs = (timeOf s d).reqs ++
              (if run = 3 then [{ src := 3, delta := (m : Rat) * 1000000000, due := s.frn + 1 }] else [])))) ∧
    (∀ b, b < 8 → ∃ t, exec (.baudWrite d b) s = .next t ∧ get1 t TIME.TOD_CFG_BAUD d = b ∧
      (timeOf t d).baud = if (timeOf s d).todLeft = 0 then b else (timeOf s d).baud) ∧
    (domRuns s d = true →
      let sec := (timeSec (timeOf s d).t + 1) % 2 ^ 48
      ∃ t, exec (.secondsRollover d) s = .next t ∧
        (timeOf t d).t = ((timeOf s d).t - (timeOf s d).t % secUnit + secUnit) % timeWrap ∧
        (timeOf t d).rolled = some sec ∧ (timeOf t d).mark = false ∧ (timeOf t d).todDue = (timeOf s d).todDue ++
          (if todSends s d then [(sec, 8 * get1 s TIME.TOD_CFG_TX_DELAY d, todStepped s d)] else [])) ∧
    (domRuns s d = false → exec (.secondsRollover d) s = .next s)

/-! ### Synthesis and outputs -/

/-- An APLL that loses lock coasts with its tuning held, counted and reported; it engages again with RELOCKED; it locks after a
retune; either lock, after a retune, restarts the feedback tap without a baseline; loss of the jitter reference
is reported for every APLL, and each that runs and does not coast loses lock (R328 to R331). A DLL that loses lock coasts until it
locks again (R341). An output whose alignment channel gives no edge reports it once (R348). Without its condition each does
nothing. -/
def Obligations.LocksAndReferences : Prop :=
  ∀ s : State, Shaped s →
    (∀ d, d < 4 →
      ((apllOf s d).powered = true → get1 s APLL.STATUS_LOCK d = 1 → ∃ t, exec (.apllLockLost d) s = .next t ∧
        get1 t APLL.STATUS_LOCK d = 0 ∧ get1 t APLL.STATUS_COAST d = 1 ∧ t.aplls = s.aplls ∧
        get1 t APLL.LOL_CNT d = satTo cntMax (get1 s APLL.LOL_CNT d + 1) ∧ Raised t .apll d 0) ∧
      ((apllOf s d).powered = false ∨ get1 s APLL.STATUS_LOCK d ≠ 1 → exec (.apllLockLost d) s = .next s) ∧
      ((apllOf s d).powered = true → get1 s APLL.STATUS_COAST d = 1 → s.jrOn = true → ∃ t, exec (.relock d) s = .next t ∧
        get1 t APLL.STATUS_LOCK d = 1 ∧ get1 t APLL.STATUS_COAST d = 0 ∧ (apllOf t d).locked = true ∧
        ((apllOf s d).locked = true → Raised t .apll d 1) ∧
        (get1 s APLL.STATUS_RETUNE d = 1 → (funcOf t (10 + d)).pred = none)) ∧
      ((apllOf s d).powered = false ∨ get1 s APLL.STATUS_COAST d ≠ 1 ∨ s.jrOn = false → exec (.relock d) s = .next s) ∧
      ((apllOf s d).powered = true → get1 s APLL.STATUS_LOCK d ≠ 1 → get1 s APLL.STATUS_COAST d ≠ 1 → s.jrOn = true →
        ∃ t, exec (.retuneLock d) s = .next t ∧ get1 t APLL.STATUS_LOCK d = 1 ∧ (apllOf t d).locked = true ∧
          (get1 s APLL.STATUS_RETUNE d = 1 → (funcOf t (10 + d)).pred = none)) ∧
      ((apllOf s d).powered = false ∨ get1 s APLL.STATUS_LOCK d = 1 ∨ get1 s APLL.STATUS_COAST d = 1 ∨ s.jrOn = false →
        exec (.retuneLock d) s = .next s)) ∧
    (s.jrOn = true → ∃ t, exec .refLost s = .next t ∧ t.jrOn = false ∧ ∀ d, d < 4 → get1 t APLL.STATUS_REF_LOST d = 1 ∧
      Raised t .apll d 2 ∧ ((apllOf s d).powered = true → get1 s APLL.STATUS_COAST d ≠ 1 →
        get1 t APLL.STATUS_LOCK d = 0 ∧ get1 t APLL.STATUS_COAST d = 1 ∧ Raised t .apll d 0) ∧
      ((apllOf s d).powered = false ∨ get1 s APLL.STATUS_COAST d = 1 →
        get1 t APLL.STATUS_LOCK d = get1 s APLL.STATUS_LOCK d ∧ get1 t APLL.STATUS_COAST d = get1 s APLL.STATUS_COAST d)) ∧
    (s.jrOn = false → exec .refLost s = .next s) ∧
    (s.jrOn = false → ∃ t, exec .refReturn s = .next t ∧ t.jrOn = true ∧ ∀ d, d < 4 → get1 t APLL.STATUS_REF_LOST d = 0) ∧
    (s.jrOn = true → exec .refReturn s = .next s) ∧
    (∀ n, n < 10 →
      (get1 s OUT.STATUS_DLL_COAST n ≠ 1 → ∃ t, exec (.dllLol n) s = .next t ∧ get1 t OUT.STATUS_DLL_LOCK n = 0 ∧
        get1 t OUT.STATUS_DLL_COAST n = 1 ∧ Raised t .out n 3 ∧
        OnlyCells (cells [(OUT.STATUS_DLL_LOCK, n), (OUT.STATUS_DLL_COAST, n)] ++ evtCells .out n) s t) ∧
      (get1 s OUT.STATUS_DLL_COAST n = 1 → exec (.dllLol n) s = .next s) ∧
      (∃ t, exec (.dllRelock n) s = .next t ∧ get1 t OUT.STATUS_DLL_LOCK n = 1 ∧ get1 t OUT.STATUS_DLL_COAST n = 0 ∧
        OnlyCells (cells [(OUT.STATUS_DLL_LOCK, n), (OUT.STATUS_DLL_COAST, n)]) s t) ∧
      (get1 s OUT.PALIGN_EN n = 1 → (outOf s n).lost = false → ∃ t, exec (.alignLost n) s = .next t ∧ (outOf t n).lost = true ∧
        (∀ m, m ≠ n → outOf t m = outOf s m) ∧ Raised t .out n 4) ∧
      (get1 s OUT.PALIGN_EN n ≠ 1 ∨ (outOf s n).lost = true → exec (.alignLost n) s = .next s))

/-- APPLY of a running APLL puts the reference and the ratio in effect, reports f_NOM and starts a retune that ends at a
zeroing of the epoch counter; one that R325 refuses only raises CFG_BAD, and one of an APLL that is powered down does nothing.
EPOCH of a running domain waits for a rollover, with the epoch counter as it is; for another it has no effect (R325, R327, R328,
R333). -/
def Obligations.RetuneAndEpoch : Prop :=
  ∀ (s : State) (d : Nat), Shaped s → d < 4 →
    ((apllOf s d).powered = true → applyOk s d = true → ∃ t, exec (.apply d) s = .next t ∧
      (apllOf t d).refsel = get1 s APLL.CFG_REFSEL d ∧ (apllOf t d).ratio = ratioReg s d ∧ (apllOf t d).zeroReq = true ∧
      get1 t APLL.STATUS_RETUNE d = 1 ∧ get1 t APLL.STATUS_EPOCH_PEND d = 1 ∧ get1 t APLL.STATUS_LOCK d = 0 ∧
      get1 t APLL.VCO_KHZ d = (roundAway (vcoHz (get1 s APLL.CFG_REFSEL d) (ratioReg s d) / 1000)).toNat % 2 ^ 23 ∧
      ∀ e, e ≠ d → apllOf t e = apllOf s e) ∧
    ((apllOf s d).powered = true → applyOk s d = false → ∃ t, exec (.apply d) s = .next t ∧
      OnlyCells (evtCells .apll d) s t ∧ Raised t .apll d 5) ∧
    ((apllOf s d).powered = false → exec (.apply d) s = .next s) ∧
    ((apllOf s d).powered = true → domRuns s d = true → ∃ t, exec (.epoch d) s = .next t ∧ (apllOf t d).zeroReq = true ∧
      (apllOf t d).e = (apllOf s d).e ∧ get1 t APLL.STATUS_EPOCH_PEND d = 1 ∧
      OnlyCells (cells [(APLL.STATUS_EPOCH_PEND, d)]) { s with aplls := t.aplls } t) ∧
    ((apllOf s d).powered = false ∨ domRuns s d = false → exec (.epoch d) s = .next s)

/-- The writes of the output page as they act, each on its own output: ENABLE and another pulse alignment bring the output to what
its registers then ask for; a stop, a pulse mode or divider change of a running output waits for the end of the high phase or
pulse in progress; a value out of range raises CFG_BAD and its field stays, and a pair or group of fields that may not stand
together stays whole (R335, R337 to R340, R343, R346 to R349, R601). -/
def Obligations.OutputWrites : Prop :=
  ∀ (s : State) (n : Nat), Shaped s → n < 10 →
    (∃ t, exec (.outEnable n) s = .next t ∧ get1 t OUT.CTRL n = 1 ∧ OutRefreshed s (set1 s OUT.CTRL n 1) t n) ∧
    (∃ t, exec (.outDisable n) s = .next t ∧ get1 t OUT.CTRL n = 0 ∧ OutRefreshed s (set1 s OUT.CTRL n 0) t n ∧
      (outOf t n).want = (if get1 s OUT.STATUS_RUN n = 5 then 5 else 0)) ∧
    (∀ p, ∃ t, exec (.pulseModeChange n p) s = .next t ∧ get1 t OUT.MODE_PULSE n = b2n p ∧ (∀ m, m ≠ n → outOf t m = outOf s m) ∧
      ((outOf s n).active = true → (outOf s n).pulse ≠ p → OutStops s t n ∧ (outOf t n).pulse = (outOf s n).pulse ∧
        get1 t OUT.STATUS_RUN n ≠ 2) ∧
      ((outOf s n).active = false ∨ (outOf s n).pulse = p → OutRefreshed s (set1 s OUT.MODE_PULSE n (b2n p)) t n)) ∧
    (∀ div coarse : Option Nat, div.getD 0 < 2 ^ 32 → coarse.getD 0 < 2 ^ 32 →
      let ok := div.all fun v => decide (5 ≤ v) && withinFmt s n (fNom s (outOwner s n) / (v : Rat))
      let v := if ok then div.getD (get1 s OUT.DIV n) else get1 s OUT.DIV n
      let c := coarse.getD (get1 s OUT.COARSE n)
      ∃ t, exec (.dividerChange n div coarse) s = .next t ∧ (ok = false → Raised t .out n 5) ∧
        (∀ m, m ≠ n → outOf t m = outOf s m) ∧ (outOf t n).div = (outOf s n).div ∧ (outOf t n).coarse = (outOf s n).coarse ∧
        (v ≤ c → Raised t .out n 5 ∧ OnlyCells (evtCells .out n) s t) ∧
        (c < v → get1 t OUT.DIV n = v % 2 ^ 32 ∧ get1 t OUT.COARSE n = c % 2 ^ 32 ∧
          ((outOf s n).active = true → (outOf s n).pulse = false → (outOf s n).div ≠ v ∨ (outOf s n).coarse ≠ c → OutStops s t n) ∧
          ((outOf s n).active = false ∨ (outOf s n).pulse = true ∨ ((outOf s n).div = v ∧ (outOf s n).coarse = c) →
            OnlyCells (cells [(OUT.DIV, n), (OUT.COARSE, n)] ++ evtCells .out n) s t))) ∧
    (∀ f, f < 256 → ∃ t, exec (.fineWrite n f) s = .next t ∧ get1 t OUT.DELAY n = f ∧ OnlyCells (cells [(OUT.DELAY, n)]) s t) ∧
    (∀ code per width : Option Nat, code.getD 0 < 8 → per.getD 0 < 2 ^ 30 → width.getD 0 < 2 ^ 30 →
      let k := code.getD (get1 s OUT.PULSE_PER n)
      let p := per.getD (get1 s OUT.PER_NS n)
      let w := width.getD (get1 s OUT.WIDTH_NS n)
      ∃ t, exec (.pulsePeriodWrite n code per width) s = .next t ∧
        (pulseOk k p w = true → get1 t OUT.PULSE_PER n = k ∧ get1 t OUT.PER_NS n = p ∧ get1 t OUT.WIDTH_NS n = w ∧
          OnlyCells (cells [(OUT.PULSE_PER, n), (OUT.PER_NS, n), (OUT.WIDTH_NS, n)]) s t) ∧
        (pulseOk k p w = false → Raised t .out n 5 ∧ OnlyCells (evtCells .out n) s t)) ∧
    (∀ c e, c < 16 →
      let same := get1 s OUT.PALIGN_CHAN n = c ∧ get1 s OUT.PALIGN_EN n = b2n e
      let set := set1 (set1 s OUT.PALIGN_CHAN n c) OUT.PALIGN_EN n (b2n e)
      let u := if same then set else modOut set n fun v => { v with tau := none, tauNew := none, tauAge := 0, lost := false }
      (alignChanOk s n c = true → ∃ t, exec (.palignWrite n c e) s = .next t ∧ get1 t OUT.PALIGN_CHAN n = c ∧
        get1 t OUT.PALIGN_EN n = b2n e ∧ (outOf t n).tau = (outOf u n).tau ∧ OutRefreshed s u t n) ∧
      (alignChanOk s n c = false → ∃ t, exec (.palignWrite n c e) s = .next t ∧
        OnlyCells (evtCells .out n) s t ∧ Raised t .out n 5)) ∧
    (∀ h, h < 2 ^ 16 → ∃ t, exec (.palignOfsHiWrite n h) s = .next t ∧ get1 t OUT.PALIGN_OFS_HI n = h ∧
      (outOf t n).ofs = toSigned 48 (get1 s OUT.PALIGN_OFS_LO n + 2 ^ 32 * h) ∧ (∀ m, m ≠ n → outOf t m = outOf s m) ∧
      OnlyCells (cells [(OUT.PALIGN_OFS_HI, n)]) { s with outs := t.outs } t)

/-! ### The Cellar -/

/-- A store command acts: blocks outside the partition's range are rejected with RANGE, a command during another with BUSY, and
neither changes the Cellar or the command in progress; one that the engine does not take fails with POWER; else each of its blocks
is queued or running, and where nothing else waits the first begins at once, or is deferred where the supply is short. The gate's
stores are queued with priority 4 or refused by their bounds; a ring put changes the value in RAM, which is written at once when
its interval is over (R450, R480, R482 to R485, R487, R488, R491, R498). -/
def Obligations.StoreRequests : Prop :=
  ∀ s : State, Shaped s →
    (∀ p first k, p < 4 → first < 256 → k < 256 →
      let bs := (List.range (k + 1)).map fun i => first + i
      let inRange := ∀ b ∈ bs, mayStore p b = true
      let idle := (s.cellar.cmds.getD p (0, 0)).1 = 0
      let Stat := fun (t : State) (state cause : Nat) =>
        getF t CELLAR.STORE_STAT_STATE 0 p 0 = state ∧ getF t CELLAR.STORE_STAT_CAUSE 0 p 0 = cause
      (¬ inRange → ∃ t, exec (.storeCmd p first k) s = .next t ∧ Stat t 5 1 ∧ t.cellar = s.cellar) ∧
      (inRange → ¬ idle → ∃ t, exec (.storeCmd p first k) s = .next t ∧ Stat t 5 2 ∧ t.cellar = s.cellar) ∧
      (inRange → idle → engineTakes s = false → ∃ t, exec (.storeCmd p first k) s = .next t ∧ Stat t 4 4 ∧
        t.cellar = s.cellar) ∧
      (inRange → idle → engineTakes s = true → ∃ t, exec (.storeCmd p first k) s = .next t ∧
        (Stat t 1 0 ∨ Stat t 2 0) ∧ getF t CELLAR.STORE_STAT_DONE 0 p 0 = 0 ∧ t.cellar.cmds = s.cellar.cmds.set p (k + 1, 0) ∧
        (∀ b ∈ bs, StoreWaits t b p 4) ∧
        (s.cellar.run.isSome = true → Stat t 1 0 ∧ t.cellar.run = s.cellar.run) ∧
        (s.cellar.run = none → s.cellar.queue = [] → s.phase ≠ .off →
          (supplyOk s ⟨first, 4, [p], none⟩ (supplyNow s) = true → ∃ r, t.cellar.run = some r ∧ Stat t 2 0 ∧
            r.job = ⟨first, 4, [p], none⟩ ∧ r.copy = targetCopy s first ∧ r.gen = newGen s first r.copy ∧
            r.data = blockCells s first ∧ t.cellar.queue = bs.tail.map (fun b => ⟨b, 4, [p], none⟩) ∧
            get1 t CELLAR.STATUS_BUSY 0 = 1 ∧ get1 t CELLAR.QUEUE_BLOCK 0 = first ∧
            (p = 0 → 32 ≤ first → first < 144 → 0 ∈ t.cellar.parked)) ∧
          (supplyOk s ⟨first, 4, [p], none⟩ (supplyNow s) = false → s.cellar.defer = none → Stat t 1 0 ∧ t.cellar.run = none ∧
            t.cellar.defer = some s.frn ∧ t.cellar.queue = bs.map (fun b => ⟨b, 4, [p], none⟩) ∧
            get1 t CELLAR.STATUS_DEFERRED 0 = 1 ∧ Counted s t CELLAR.DEFER_CNT 0 0 1 ∧ Raised t .cellar 0 3)))) ∧
    (∀ first n,
      let bs := (List.range n).map fun i => first + i
      let bankL := ∃ b ∈ bs, 32 ≤ b ∧ b < 144
      (leafRuns s = false → exec (.cellarStore first n) s = .next s ∧ exec (.storeRequest first n) s = .next s) ∧
      (leafRuns s = true →
        (bankL → ∃ t, exec (.cellarStore first n) s = .next t ∧ GateRefused s t 0x0A 6) ∧
        (¬ bankL → n = 0 ∨ (∃ b ∈ bs, b < 144 ∨ 176 ≤ b) → ∃ t, exec (.cellarStore first n) s = .next t ∧ GateRefused s t 0x0A 3) ∧
        (0 < n → (∀ b ∈ bs, 144 ≤ b ∧ b < 176) → ∃ t, exec (.cellarStore first n) s = .next t ∧
          (engineTakes s = false → GateRefused s t 0x0A 8) ∧
          (engineTakes s = true → t.gate.res = 0 ∧ ∀ b ∈ bs, StoreWaits t b 4 4)) ∧
        (n = 0 ∨ (∃ b ∈ bs, b < 32 ∨ 176 ≤ b) → ∃ t, exec (.storeRequest first n) s = .next t ∧ GateRefused s t 0x0B 3) ∧
        (0 < n → (∀ b ∈ bs, 32 ≤ b ∧ b < 176) → ∃ t, exec (.storeRequest first n) s = .next t ∧
          (engineTakes s = false → GateRefused s t 0x0B 8) ∧
          (engineTakes s = true → t.gate.res = 0 ∧ ∀ b ∈ bs, StoreWaits t b 9 4)))) ∧
    (∀ k v, areBytes v = true →
      (leafRuns s = false → exec (.ringPut k v) s = .next s) ∧
      (leafRuns s = true → 32 ≤ k → k < 64 → v.length ≤ 12 → ∃ t, exec (.ringPut k v) s = .next t ∧ t.gate.res = 0 ∧
        kvGet t.cellar.ring k = some (pad12 v) ∧
        (ringDue s = true → s.cellar.held18 = true → engineTakes s = true → t.cellar.ringDirty = false ∧
          StoreWaits t (ringBlock t) 8 3) ∧
        (ringDue s = false ∨ s.cellar.held18 = false ∨ engineTakes s = false → t.cellar.ringDirty = true ∧
          t.cellar.queue = s.cellar.queue ∧ t.cellar.run = s.cellar.run)) ∧
      (leafRuns s = true → k < 32 ∨ 64 ≤ k ∨ 12 < v.length → ∃ t, exec (.ringPut k v) s = .next t ∧ GateRefused s t 0x0C 3))

/-- A store that completes leaves its copy programmed with its CRC, the counters raised and the engine on to what waits; the last of
a power-fail sequence ends it, and a reset that waited for it acts; a dirty ring is written to its next slot and stored; at 18 V
the waiting stores are queued or begin; a deferred store is tried again, and given up with what it was part of when its time has
passed; the scrubber reads the next copy, and one that fails a margin is refreshed, unless a queued store will program it, or repaired, or
its block stored again (R480,
R487 to R489, R491, R498, R503, R522). -/
def Obligations.StoresAndScrub : Prop :=
  ∀ s : State, Shaped s → ∀ v : Supply,
    (∀ r, s.cellar.run = some r → r.job.block < 256 → r.copy < 2 →
      let c : NvCopy := { gen := r.gen, block := r.job.block, copy := r.copy, wear := r.wear, data := r.data }
      ∃ t, exec (.blockStoreDone v) s = .next t ∧ nvOf t r.job.block r.copy = some { c with crc := copyCrc c } ∧
        (s.power.reset = false → t.i2cHold = if windowBusy t then s.i2cHold else none) ∧
        (s.power.reset = false → s.i2cHold = none → get1 t CELLAR.STATUS_BUSY 0 = b2n t.cellar.run.isSome ∧
          get1 t CELLAR.LAST_BLOCK 0 = r.job.block ∧ get1 t CELLAR.LAST_COPY 0 = r.copy ∧ get1 t CELLAR.LAST_RESULT 0 = 0 ∧
          (r.job.fix = none → Counted s t CELLAR.STORE_CNT 0 0 1) ∧
          (r.job.fix ≠ none → get1 t CELLAR.STORE_CNT 0 = get1 s CELLAR.STORE_CNT 0) ∧
          (s.cellar.queue = [] → 5 ∉ r.job.owners → 6 ∉ r.job.owners → t.cellar.run = none) ∧
          (r.job.fix = none → r.job.prio = 1 → r.job.block = 15 → get1 t CELLAR.STATUS_PF_SEQ 0 = 0 ∧ t.cellar.shut = true ∧
            Raised t .cellar 0 7)) ∧
        (s.power.reset = true → r.job.fix = none → r.job.prio = 1 → r.job.block = 15 →
          t.phase = if s.power.freed.isSome then .waiting else .held)) ∧
    (s.cellar.run = none → s.power.reset = false → s.i2cHold = none → exec (.blockStoreDone v) s = .next s) ∧
    (let due := s.cellar.ringDirty = true ∧ ringDue s = true ∧ s.cellar.held18 = true ∧ engineTakes s = true
     (due → ∃ t, exec (.ringStore v) s = .next t ∧ t.cellar.ringDirty = false ∧ t.cellar.ringSeq = some (ringNext s) ∧
        t.cellar.ringFrn = some s.frn ∧ StoreWaits t (ringBlock t) 8 3 ∧
        (Memory.wf s.mem = true → memBytes t (slotAddr (ringNext s % 64)) 0x320 =
          (ringBytes s.cellar.ring (ringNext s) s.frn).map fun b => b % 256)) ∧
     (¬ due → exec (.ringStore v) s = .next s)) ∧
    (18000 ≤ v.holdupMv → s.cellar.held18 = false → ∃ t, exec (.holdupFirst18v v) s = .next t ∧ t.cellar.held18 = true ∧
      t.cellar.wait = [] ∧ (engineTakes s = true →
        (∀ j ∈ s.cellar.wait, j.fix = none → ∀ o ∈ j.owners, StoreWaits t j.block o j.prio) ∧
        (s.cellar.ringDirty = true → t.cellar.ringDirty = false ∧ StoreWaits t (ringBlock t) 8 3))) ∧
    (v.holdupMv < 18000 ∨ s.cellar.held18 = true → exec (.holdupFirst18v v) s = .next s) ∧
    (∀ f j, s.cellar.defer = some f → s.cellar.run = none → s.phase ≠ .off → nextJob s.cellar.queue = some j →
      (supplyOk s j v = true → ∃ t r, exec (.storeDeferRetry v) s = .next t ∧ t.cellar.run = some r ∧ r.job = j ∧
        t.cellar.defer = none ∧ get1 t CELLAR.STATUS_DEFERRED 0 = 0) ∧
      (supplyOk s j v = false → exec (.storeDeferRetry v) s = .next s)) ∧
    (s.cellar.defer = none ∨ s.cellar.run.isSome = true ∨ s.phase = .off → exec (.storeDeferRetry v) s = .next s) ∧
    (∀ f j, s.cellar.defer = some f → nextJob s.cellar.queue = some j → j.block < 256 →
      ∃ t, exec (.storeFailed v) s = .next t ∧ get1 t CELLAR.LAST_BLOCK 0 = j.block ∧ get1 t CELLAR.LAST_RESULT 0 = 1 ∧
        Counted s t CELLAR.FAILED_CNT 0 0 1 ∧ Raised t .cellar 0 2 ∧
        (s.cellar.queue = [j] → t.cellar.queue = [] ∧ t.cellar.defer = none ∧ get1 t CELLAR.STATUS_DEFERRED 0 = 0) ∧
        (∀ p ∈ j.owners, p < 4 → getF t CELLAR.STORE_STAT_STATE 0 p 0 = 4 ∧ getF t CELLAR.STORE_STAT_CAUSE 0 p 0 = 3) ∧
        (5 ∈ j.owners → pstate s = 3 → pstate t = 4 ∧ get1 t ROOT.REFUSE_CODE 0 = refSTORE) ∧
        (6 ∈ j.owners → s.root.img = 3 → leafState t = 1 ∧ t.root.img = 0 ∧ get1 t ROOT.REFUSE_CODE 0 = refSTORE)) ∧
    (s.cellar.defer = none ∨ s.cellar.queue = [] → exec (.storeFailed v) s = .next s) ∧
    (s.cellar.run.isSome = true → ∀ r, exec (.scrub r) s = .next s) ∧
    (s.cellar.run = none → let i := get1 s CELLAR.SCRUB_NEXT 0
      let b := i / 2
      let c := i % 2
      let rewritten := targetCopy s b = c ∧ ∃ q ∈ s.cellar.queue, q.fix = none ∧ q.block = b
      let Repaired := fun (t : State) (prio : Nat) => engineTakes s = true →
        (s.cellar.held18 = true → FixWaits t b c prio) ∧ (s.cellar.held18 = false → ⟨b, prio, [], some c⟩ ∈ t.cellar.wait)
      (copyState s b c = 3 → ∀ r, ∃ t, exec (.scrub r) s = .next t ∧ get1 t CELLAR.SCRUB_NEXT 0 = (i + 1) % 512 ∧
        OnlyCells (cells [(CELLAR.SCRUB_NEXT, 0)]) s t) ∧
      (copyState s b c ≠ 3 → ∀ r, ∃ t, exec (.scrub r) s = .next t ∧ get1 t CELLAR.SCRUB_NEXT 0 = (i + 1) % 512 ∧
        get1 t CELLAR.SCRUB_FRN 0 = s.frn % 2 ^ 16 ∧
        (r = .tightOk → OnlyCells (cells [(CELLAR.SCRUB_NEXT, 0), (CELLAR.SCRUB_FRN, 0)]) s t) ∧
        (r = .tightFail → ¬ rewritten → Counted s t CELLAR.REFRESH_CNT 0 0 1 ∧ Raised t .cellar 0 4 ∧ Repaired t 6) ∧
        (r = .tightFail → rewritten → OnlyCells (cells [(CELLAR.SCRUB_NEXT, 0), (CELLAR.SCRUB_FRN, 0)]) s t) ∧
        (r = .normalFail → copyState t b c ≠ 0 ∧
          (copyState s b (1 - c) = 0 → Counted s t CELLAR.TORN_CNT 0 0 1 ∧ Raised t .cellar 0 0 ∧ Repaired t 5) ∧
          (copyState s b (1 - c) ≠ 0 → engineTakes s = true → s.cellar.held18 = true → StoreWaits t b 8 2))))

/-! ### Root -/

/-- The profile's commands: VERIFY begins a verification unless staging is locked; COMMIT of a verified profile that staging still
holds begins the commit, or is refused with POWER while the engine is shut, verifies first otherwise, and does nothing during a
commit; ABORT ends a verification or its result, and refuses a commit whose frame is not yet set; a verification ends REFUSED with
its code, or VERIFIED, or goes on to the commit that asked for it; in the commit frame, and in no other, the policy acts (R65,
R456, R458, R459, R460). -/
def Obligations.ProfileCommands : Prop :=
  ∀ s : State, Shaped s →
    let Begun := fun t : State => pstate t = 3 ∧ t.root.stage = 1 ∧ t.root.thenCommit = false ∧ t.pol = s.pol
    let RefusedWith := fun (t : State) (code off : Nat) => pstate t = 4 ∧ get1 t ROOT.REFUSE_CODE 0 = code % 2 ^ 8 ∧
      get1 t ROOT.REFUSE_OFFSET 0 = off % 2 ^ 16 ∧ t.root.stage = 0 ∧ t.root.commitAt = none ∧ t.root.thenCommit = false ∧
      Raised t .root 0 2 ∧ t.pol = s.pol
    let Verifies := fun (t : State) (commit : Bool) => pstate t = 1 ∧ get1 t ROOT.STAGE_GEN 0 = 0 ∧ t.root.thenCommit = commit ∧
      t.root.touched = false ∧ t = { s with regs := t.regs, root := t.root }
    (stagingLocked s = false → ∃ t, exec .verify s = .next t ∧ Verifies t false) ∧
    (stagingLocked s = true → exec .verify s = .next s) ∧
    ((pstate s ≠ 1 ∧ pstate s ≠ 2 ∧ pstate s ≠ 3) ∨ (pstate s = 2 ∧ s.root.touched = true) →
      ∃ t, exec .commit s = .next t ∧ Verifies t true) ∧
    (pstate s = 1 → exec .commit s = .next { s with root := { s.root with thenCommit := true } }) ∧
    (pstate s = 2 → s.root.touched = false → ∃ t, exec .commit s = .next t ∧ (engineTakes s = true → Begun t) ∧
      (engineTakes s = false → RefusedWith t refPOWER 0xFFFF)) ∧
    (pstate s = 3 → exec .commit s = .next s) ∧
    (pstate s = 1 ∨ pstate s = 2 → ∃ t, exec .abort s = .next t ∧ pstate t = 0 ∧ get1 t ROOT.STAGE_GEN 0 = 0 ∧
      t.root.thenCommit = false ∧ t = { s with regs := t.regs, root := t.root }) ∧
    (pstate s = 3 → get1 s ROOT.STATUS_COMMIT_PEND 0 ≠ 1 → ∃ t, exec .abort s = .next t ∧ RefusedWith t refABORTED 0xFFFF) ∧
    (pstate s = 3 → get1 s ROOT.STATUS_COMMIT_PEND 0 = 1 → exec .abort s = .next s) ∧
    (pstate s ≠ 1 → pstate s ≠ 2 → pstate s ≠ 3 → exec .abort s = .next s) ∧
    (pstate s = 1 → ∃ t, exec .verifyDone s = .next t ∧
      (∀ r, verifyStaged (unmark s) = some r → RefusedWith t r.1 r.2) ∧
      (verifyStaged (unmark s) = none → Raised t .root 0 0 ∧
        (s.root.thenCommit = false → pstate t = 2 ∧ get1 t ROOT.STAGE_GEN 0 = profGen s stagingAddr % 2 ^ 32 ∧ t.mem = s.mem) ∧
        (s.root.thenCommit = true → engineTakes s = true → Begun t) ∧
        (s.root.thenCommit = true → engineTakes s = false → RefusedWith t refPOWER 0xFFFF))) ∧
    (pstate s ≠ 1 → exec .verifyDone s = .next s) ∧
    (s.root.commitAt = some s.frn → ∃ t, exec .policyCommit s = .next t ∧ t.pol = profPolicy s activeAddr ∧ pstate t = 0 ∧
      get1 t ROOT.STATUS_COMMIT_PEND 0 = 0 ∧ get1 t ROOT.POL_GEN 0 = (profPolicy s activeAddr).gen % 2 ^ 32 ∧
      t.root.commitAt = none ∧ Raised t .root 0 1) ∧
    (s.root.commitAt ≠ some s.frn → exec .policyCommit s = .next s)

/-- The Leaf image: IMAGE_LOAD stops Leaf and opens bank L; IMAGE_ACTIVATE hands the image to Root; IMAGE_CANCEL ends the
load and starts Leaf again; an image that fails its check is refused with its code, one that passes while the engine is shut with
POWER, and one that passes is stored; Leaf starts with the image that Root accepts, the stored one where the one in bank L fails,
parked while a store parks it, and is absent when neither passes (R450, R462 to R465, R467, R468). -/
def Obligations.LeafImage : Prop :=
  ∀ s : State, Shaped s →
    (leafState s ≠ 4 → ∃ t, exec .imageLoad s = .next t ∧ leafState t = 4 ∧ t.root.img = 1 ∧ t.gate.queue = [] ∧ t.mem = s.mem) ∧
    (leafState s = 4 → exec .imageLoad s = .next s) ∧
    (leafState s = 4 → s.root.img = 1 →
      exec .imageActivate s = .next { s with root := { s.root with img := 2 } } ∧
      ∃ t, exec .imageCancel s = .next t ∧ leafState t = 1 ∧ t.root.img = 0 ∧ get1 t ROOT.LEAF_LAST_CAUSE 0 = 6 ∧
        get1 t ROOT.LEAF_RESTART_CNT 0 = satTo cntMax (get1 s ROOT.LEAF_RESTART_CNT 0 + 1)) ∧
    (leafState s ≠ 4 ∨ s.root.img ≠ 1 → exec .imageActivate s = .next s ∧ exec .imageCancel s = .next s) ∧
    (s.root.img = 2 → ∃ t, exec .imageDone s = .next t ∧
      let Refused := fun c : Nat => leafState t = 1 ∧ t.root.img = 0 ∧ get1 t ROOT.REFUSE_CODE 0 = c ∧ Raised t .root 0 6
      (∀ c, imageCheck s = some c → Refused c) ∧
      (imageCheck s = none → engineTakes s = false → Refused refPOWER) ∧
      (imageCheck s = none → engineTakes s = true → t.root.img = 3 ∧ (s.cellar.held18 = true →
        ∀ i, i < (imageField s 0x0C + 4095) / 4096 → StoreWaits t (32 + i) 6 2))) ∧
    (s.root.img ≠ 2 → exec .imageDone s = .next s) ∧
    (leafState s = 1 → let u := if imageCheck s = none then s else reloadBlocks s 32 112
      ∃ t, exec .leafStart s = .next t ∧
        (imageCheck u = none → leafState t = (if t.cellar.parked = [] then 0 else 3) ∧
          get1 t ROOT.LEAF_VER 0 = imageField u 4 % 2 ^ 32 ∧ t.root.kick = s.frn ∧ t.root.down = none) ∧
        (imageCheck u ≠ none → leafState t = 5)) ∧
    (leafState s ≠ 1 → exec .leafStart s = .next s)

/-- A fault of a running Leaf restarts it, or holds it at the fourth in 10 min, with its cause; the watchdog's only after 2000
frames without a kick; LEAF_RESTART empties that window; a kick starts the watchdog's time again. A debug grant is given where
strap and policy allow it, and ends at a revoke or when its duration has passed (R447, R466 to R470). -/
def Obligations.LeafFaultsAndDebug : Prop :=
  ∀ s : State, Shaped s →
    (∀ i c, (i = .leafWdtExpiry ∧ c = 1 ∧ s.root.kick + 2000 ≤ s.frn) ∨ (i = .leafMpuFault ∧ c = 2) ∨ (i = .leafException ∧ c = 3) ∨
        ((∃ w, w < 2 ^ 32 ∧ i = .restartSelf w) ∧ c = 4) →
      (leafRuns s = true → (inWindow s).length < 3 → ∃ t, exec i s = .next t ∧ leafState t = 1 ∧
        t.root.window = inWindow s ++ [s.frn] ∧ get1 t ROOT.LEAF_LAST_CAUSE 0 = c ∧
        get1 t ROOT.LEAF_RESTART_CNT 0 = satTo cntMax (get1 s ROOT.LEAF_RESTART_CNT 0 + 1) ∧ Raised t .root 0 3) ∧
      (leafRuns s = true → 3 ≤ (inWindow s).length → ∃ t, exec i s = .next t ∧ leafState t = 2 ∧
        get1 t ROOT.LEAF_LAST_CAUSE 0 = c ∧ Raised t .root 0 4) ∧
      (leafRuns s = false → exec i s = .next s)) ∧
    (s.frn < s.root.kick + 2000 → exec .leafWdtExpiry s = .next s) ∧
    (∃ t, exec .leafRestartCmd s = .next t ∧ leafState t = 1 ∧ t.root.window = [] ∧ get1 t ROOT.LEAF_LAST_CAUSE 0 = 5 ∧
      Raised t .root 0 3) ∧
    (leafRuns s = true → ∃ t, exec .wdtKick s = .next t ∧ t.root.kick = s.frn ∧ t.gate.res = 0 ∧ t.regs = s.regs) ∧
    (leafRuns s = false → exec .wdtKick s = .next s) ∧
    (s.straps.debug = true → debugScope s ≠ 0 → ∃ t, exec .debugRequest s = .next t ∧
      t.root.grantEnd = some (s.frn + 8000 * get1 s DBG.DURATION 0) ∧ get1 t DBG.STATUS_GRANTED 0 = 1 ∧
      get1 t DBG.STATUS_REFUSED 0 = 0 ∧ get1 t DBG.GRANT_FRN 0 = s.frn % 2 ^ 32 ∧
      get1 t DBG.GRANT_CNT 0 = satTo cntMax (get1 s DBG.GRANT_CNT 0 + 1) ∧ Raised t .dbg 0 0) ∧
    (s.straps.debug = false ∨ debugScope s = 0 → ∃ t, exec .debugRequest s = .next t ∧ get1 t DBG.STATUS_REFUSED 0 = 1 ∧
      Raised t .dbg 0 2 ∧ OnlyCells (cells [(DBG.STATUS_REFUSED, 0)] ++ evtCells .dbg 0) s t) ∧
    (∀ f, s.root.grantEnd = some f → ∃ t, exec .debugRevoke s = .next t ∧ t.root.grantEnd = none ∧
      get1 t DBG.STATUS_GRANTED 0 = 0 ∧ Raised t .dbg 0 1) ∧
    (∀ f, s.root.grantEnd = some f →
      (f ≤ s.frn → ∃ t, exec .debugExpiry s = .next t ∧ t.root.grantEnd = none ∧ get1 t DBG.STATUS_GRANTED 0 = 0 ∧ Raised t .dbg 0 1) ∧
      (s.frn < f → exec .debugExpiry s = .next s)) ∧
    (s.root.grantEnd = none → exec .debugRevoke s = .next s ∧ exec .debugExpiry s = .next s)

/-! ### The gate, the journal and the black box -/

/-- A boundary call of Leaf is judged by its bound: accepted, it waits for its boundary with result 0; refused, also for want of
room among the 256 that may wait, it is counted with its code and result; a stopped Leaf calls nothing. At its boundary a call is
judged again: refused, it is counted; else it acts as Table 14.1 says (R252, R401, R412, R413, R448, R449). -/
def Obligations.GateCalls : Prop :=
  ∀ (s : State) (cyc : Nat), Shaped s → cyc < 1250 →
    let Refused := fun (t : State) (c : GateCall) (r : Nat) => t.gate.queue = s.gate.queue ∧ GateRefused s t (GateCall.code c) r
    (∀ i c,
      ((∃ ch src nd ssm e, i = .qlDeliver ch src nd ssm e cyc ∧ c = .ql ch src nd ssm e true ∧
          ssm < 16 ∧ e.getD 0 < 256) ∨
        (∃ p ch fe m r, i = .pktEstimate p ch fe m r cyc ∧ c = .pkt p ch fe m r ∧ p < 4) ∨
        (∃ p d x, i = .timeChange p d x cyc ∧ c = .time p d x ∧ p < 4) ∨
        (∃ p q o a b, i = .utcUpdate p q o a b cyc ∧ c = .utc p q o a b ∧ p < 4) ∨
        (∃ a v, i = .pageReport a v cyc ∧ c = .page a v ∧ v < 2 ^ 32)) →
      (leafRuns s = true → gateCheck s (dueOf s cyc) c = none → s.gate.queue.length < 256 →
        ∃ t, exec i s = .next t ∧ t.gate.queue = s.gate.queue ++ [(dueOf s cyc, c)] ∧ t.gate.res = 0 ∧
          t = { s with gate := t.gate }) ∧
      (leafRuns s = true → gateCheck s (dueOf s cyc) c = none → 256 ≤ s.gate.queue.length →
        ∃ t, exec i s = .next t ∧ Refused t c 8) ∧
      (∀ r, leafRuns s = true → gateCheck s (dueOf s cyc) c = some r → ∃ t, exec i s = .next t ∧ Refused t c r) ∧
      (leafRuns s = false → exec i s = .next s)) ∧
    (∀ c r, gateCheck s s.frn c = some r → Refused (gateAct s c) c r) ∧
    (∀ ch src nd ssm e first, ssm < 16 → e.getD 0 < 256 → gateCheck s s.frn (.ql ch src nd ssm e first) = none →
      let t := gateAct s (.ql ch src nd ssm e first)
      (chanOf t ch).rank = (if src = 4 then some (classRank (e.getD 0xFF)) else ssmRank ssm e).getD 0 ∧
        (chanOf t ch).timedOut = false ∧ (chanOf t ch).qlLeft = some (qlTimeoutOf s ch src + 1) ∧
        getF t SEL.CHAN_QL_SSM 0 ch 0 = ssm ∧ getF t SEL.CHAN_QL_ECODE 0 ch 0 = e.getD 0xFF) ∧
    (∀ p d x, d < 4 → gateCheck s s.frn (.time p d x) = none →
      (timeOf (gateAct s (.time p d x)) d).reqs = (timeOf s d).reqs ++ [{ src := 2, delta := x, due := s.frn }]) ∧
    (∀ p q o a b, gateCheck s s.frn (.utc p q o a b) = none → let t := gateAct s (.utc p q o a b)
      get1 t TIME.UTC_OFS p = ofSigned 16 o % 2 ^ 16 ∧ get1 t TIME.UTC_VALID p = 1 ∧ get1 t TIME.UTC_LEAP61 p = b2n a ∧
        get1 t TIME.UTC_LEAP59 p = b2n b) ∧
    (∀ p ch fe m r, gateCheck s s.frn (.pkt p ch fe m r) = none →
      let o := pktOf s (ch - 10)
      let x := roundAway (((fe : Int) - (o.fe.getD fe : Int) : Int) * frameLsb - (m - o.m))
      pktOf (gateAct s (.pkt p ch fe m r)) (ch - 10) =
        { fe := some fe, base := true, m := m, gap := fe - o.fe.getD fe, got := true, fresh := o.fresh ++ if o.base then [x] else [] }) ∧
    (∀ a v, gateCheck s s.frn (.page a v) = none → ∀ x ∈ leafWord a,
      getF (gateAct s (.page a v)) x.1 x.2.1 x.2.2 0 = bitsOf v x.1.lo x.1.width ∧
        (closeReport s v x = true → Raised (gateAct s (.page a v)) .ptpts x.2.1 0))

/-- Leaf's journal entries keep to their range and rate; beyond 256 of a code in the window they are counted and not written, and
with the queue full they are counted lost. Root writes the oldest queued entry at the write position, with its bytes of Table 18.2,
and the position moves on, sealing the block it leaves; losses and suppressed codes become entries, held while the queue is full; a
write of RD_SEQ stands, and raises UNREAD_WM where UNREAD passes WM (R448, R495, R563, R565 to R568, R575). -/
def Obligations.JournalAndBlackBox : Prop :=
  ∀ s : State, Inv s →
    (∀ code part data, data < 2 ^ 32 →
      let ranged := 0x800 ≤ code ∧ code ≤ 0xFFE ∧ part < 4
      let used := if s.gate.jrn.1 = s.frn / 8000 then s.gate.jrn.2 else 0
      let seen := (kvGet s.jrn.counts code).getD 0
      (leafRuns s = false → exec (.journal code part data) s = .next s) ∧
      (leafRuns s = true → ¬ ranged → ∃ t, exec (.journal code part data) s = .next t ∧ GateRefused s t 9 1 ∧ t.jrn = s.jrn) ∧
      (leafRuns s = true → ranged → 64 ≤ used → ∃ t, exec (.journal code part data) s = .next t ∧ GateRefused s t 9 5 ∧
        t.jrn = s.jrn) ∧
      (leafRuns s = true → ranged → used < 64 → ∃ t, exec (.journal code part data) s = .next t ∧ t.gate.res = 0 ∧
        t.gate.jrn = (s.frn / 8000, used + 1) ∧
        (seen < 256 → kvGet t.jrn.counts code = some (seen + 1)) ∧
        (seen < 256 → s.jrn.queue.length < 64 →
          t.jrn.queue = s.jrn.queue ++ [⟨s.frn % 2 ^ 48, code, some part, 0x40, 0, data⟩] ∧ t.regs = s.regs) ∧
        (seen < 256 → s.jrn.queue.length = 64 → t.jrn.queue = s.jrn.queue ∧ Counted s t BBOX.QLOST_CNT 0 0 1 ∧
          kvGet t.jrn.lost (s.frn % 2 ^ 48) = some ((kvGet s.jrn.lost (s.frn % 2 ^ 48)).getD 0 + 1)) ∧
        (256 ≤ seen → t.jrn.queue = s.jrn.queue ∧ Counted s t BBOX.SUPPRESS_CNT 0 0 1 ∧
          kvGet t.jrn.supp code = some ((kvGet s.jrn.supp code).getD 0 + 1)))) ∧
    (∀ e r, s.jrn.queue = e :: r → let w := get1 s BBOX.WR_SEQ 0
      ∃ t, exec .bboxEntryWrite s = .next t ∧ t.jrn.queue ++ t.jrn.held = r ++ s.jrn.held ∧
        (t.jrn.held = [] ∨ t.jrn.queue.length = 64) ∧ t.root.down = none ∧ get1 t BBOX.WR_SEQ 0 = (w + 1) % 2 ^ 32 ∧
        get1 t BBOX.WR_IDX 0 = (w + 1) % 2 ^ 12 ∧ Counted s t BBOX.ENTRY_CNT 0 0 1 ∧
        memBytes t (blockAddr 224 + 16 * (w % 4096)) 16 = entryBytes e w ∧
        (w % 256 = 255 → engineTakes s = true → s.cellar.held18 = true → StoreWaits t (224 + w % 4096 / 256) 8 3)) ∧
    (s.jrn.queue = [] → exec .bboxEntryWrite s = .next { s with root := { s.root with down := none } }) ∧
    (let Moved := fun (t : State) (new : List JEntry) => t.jrn.queue ++ t.jrn.held = s.jrn.queue ++ s.jrn.held ++ new ∧
        (t.jrn.held = [] ∨ t.jrn.queue.length = 64) ∧ t = { s with jrn := t.jrn }
     (∀ x r, s.jrn.lost = x :: r → ∃ t, exec .queueLost s = .next t ∧ t.jrn.lost = r ∧ Moved t [lostEntry x]) ∧
     (s.jrn.lost = [] → ∃ t, exec .queueLost s = .next t ∧ t.jrn.lost = [] ∧ Moved t []) ∧
     (windowLast s = true → ∃ t, exec .suppressionWindowEnd s = .next t ∧ t.jrn.counts = [] ∧ t.jrn.supp = [] ∧
       Moved t (s.jrn.supp.map (suppressedEntry s)))) ∧
    (windowLast s = false → exec .suppressionWindowEnd s = .next s) ∧
    (∀ v, v < 2 ^ 32 → ∃ t, exec (.rdSeqWrite v) s = .next t ∧ get1 t BBOX.RD_SEQ 0 = v ∧ get1 t BBOX.WR_SEQ 0 = get1 s BBOX.WR_SEQ 0 ∧
      (belowWm s = true → get1 s BBOX.WM 0 ≤ unread t → Raised t .bbox 0 0))

/-! ### Ethernet -/

/-- A port: it starts when enabled, loses its link when disabled, at a loss of lock and at a word of another speed, and negotiates
again on request; the PCS lock brings the link up where its transmit reference runs, and calibration makes the timestamps valid
8000 frames later; a received frame is counted as received or in its drop class, and an event message is stamped and its
timestamp kept for Leaf; ESMC messages reach the channels that name the port, with their TLV recorded; ESMC and sent frames are
counted and stamped as they leave, and TX_FRAME is refused by its bounds (R254, R386 to R393, R402 to R406, R414, R415, R448). -/
def Obligations.EthernetPorts : Prop :=
  ∀ (s : State) (n : Nat), Shaped s → n < 2 →
    let States := fun (t : State) (v : Nat) => ∀ p ∈ portInsts s n, getF t PTPTS.STATE_PORT n p 0 = v
    let Down := fun t : State => portUp t n = false ∧ (portUp s n = true → get1 t ETH.STATUS_LINK n = 0 ∧
      get1 t ETH.STATUS_PCS_LOCK n = 0 ∧ get1 t ETH.STATUS_TS_VALID n = 0 ∧ Counted s t ETH.LINK_CNT n 0 1 ∧ Raised t .eth n 0)
    (portEnabled s n = false → portMode s n ≠ 0 → ∃ t, exec (.portEnable n) s = .next t ∧ get1 t ETH.CTRL_ENABLE n = 1 ∧
      States t 1) ∧
    (portEnabled s n = true ∨ portMode s n = 0 → ∃ t, exec (.portEnable n) s = .next t ∧ get1 t ETH.CTRL_ENABLE n = 1 ∧
      OnlyCells (cells [(ETH.CTRL_ENABLE, n)]) s t) ∧
    (∃ t, exec (.portDisable n) s = .next t ∧ get1 t ETH.CTRL_ENABLE n = 0 ∧ Down t ∧ States t 2) ∧
    (let may := portEnabled s n = true ∧ (portMode s n = 2 ∨ (portMode s n = 1 ∧ get1 s ETH.MODE_AN n = 1))
     (may → ∃ t, exec (.restartAn n) s = .next t ∧ (ethOf t n).an = true ∧ t = { s with eths := t.eths }) ∧
     (¬ may → exec (.restartAn n) s = .next s)) ∧
    (let may := portEnabled s n = true ∧ get1 s PWR.STATUS_PF 0 ≠ 1 ∧ txclkStopped s n = false
     (∀ ok, may → (portMode s n = 2 → ok = true) → ∃ t, exec (.pcsLock n ok) s = .next t ∧ get1 t ETH.STATUS_LINK n = 1 ∧
        get1 t ETH.STATUS_PCS_LOCK n = 1 ∧ get1 t ETH.STATUS_TS_VALID n = 0 ∧ get1 t ETH.STATUS_SPEED_BAD n = 0 ∧
        (ethOf t n).calFrom = s.frn ∧ (ethOf t n).an = false ∧ States t 0 ∧ (portUp s n = false → Raised t .eth n 1)) ∧
     (may → portMode s n = 2 → ∃ t, exec (.pcsLock n false) s = .next t ∧ get1 t ETH.STATUS_SPEED_BAD n = 1 ∧ Down t ∧ States t 1) ∧
     (∀ ok, ¬ may → exec (.pcsLock n ok) s = .next s)) ∧
    (portUp s n = true → ∃ t, exec (.pcsLockLoss n) s = .next t ∧ Down t ∧ States t 1) ∧
    (portUp s n = false → exec (.pcsLockLoss n) s = .next s) ∧
    (let due := get1 s ETH.STATUS_PCS_LOCK n = 1 ∧ get1 s ETH.STATUS_TS_VALID n ≠ 1 ∧ (ethOf s n).calFrom + 8000 ≤ s.frn
     let v := fun (toTx : Bool) (m : Int) =>
       ofSigned 32 (baseDelay s n toTx + if (laneFor s (8 + n)).isSome then m else 0) % 2 ^ 32
     ∀ rx tx : Int,
       (due → ∃ t, exec (.calDone n rx tx) s = .next t ∧ get1 t ETH.STATUS_TS_VALID n = 1 ∧
         get1 t ETH.CAL_RX n = v false rx ∧ get1 t ETH.CAL_TX n = v true tx ∧
         get1 t ETH.STATUS_CAL_DEFAULT n = b2n (laneFor s (8 + n)).isNone ∧ Raised t .eth n 2 ∧
         OnlyCells (cells [(ETH.CAL_RX, n), (ETH.CAL_TX, n), (ETH.STATUS_CAL_DEFAULT, n), (ETH.STATUS_TS_VALID, n)] ++
           evtCells .eth n) s t) ∧
       (¬ due → exec (.calDone n rx tx) s = .next s)) ∧
    (∀ f, areBytes f.bytes = true → f.rawO < 64000000 →
      (portUp s n = false → exec (.ethFrameReceive n f) s = .next s) ∧
      (portUp s n = true → ∃ t, exec (.ethFrameReceive n f) s = .next t ∧
        (∀ c, dropClass s n f = some c → Counted s t ETH.DROP_CNT n c 1 ∧ OnlyCells (evtCells .eth n ++ [fldKey ETH.DROP_CNT n c 0]) s t) ∧
        (dropClass s n f = none → (isEvent f.bytes = true → Counted s t PTPTS.RX_TS_CNT n 0 1) ∧
          ((ethOf s n).bucket < 4 → Counted s t ETH.DROP_CNT n 8 1 ∧ get1 t ETH.RX_CNT n = get1 s ETH.RX_CNT n ∧
            ethOf t n = { ethOf s n with flood := true } ∧ ((ethOf s n).flood = false → Raised t .eth n 3)) ∧
          (4 ≤ (ethOf s n).bucket → leafRuns s = false → Counted s t ETH.DROP_CNT n 8 1 ∧
            get1 t ETH.RX_CNT n = get1 s ETH.RX_CNT n ∧ ethOf t n = ethOf s n) ∧
          (4 ≤ (ethOf s n).bucket → leafRuns s = true → Counted s t ETH.RX_CNT n 0 1 ∧
            (let x := stampOf s n (frameInst s n f.bytes) (rxRaw s n f.rawF f.rawO)
             let kept := isEvent f.bytes = true ∧ (ethOf s n).fifo.length < 256
             ethOf t n = { ethOf s n with bucket := (ethOf s n).bucket - 4, flood := false,
                                          fifo := if kept then (ethOf s n).fifo ++ [x] else (ethOf s n).fifo }) ∧
            (isEvent f.bytes = true → 256 ≤ (ethOf s n).fifo.length → Counted s t PTPTS.FIFO_OVF_CNT n 0 1) ∧
            (∀ o, ethKind f.bytes = .esmc o → esmcOk (beAt f.bytes (o + 1) 3) (beAt f.bytes (o + 4) 2)
              (beAt f.bytes (o + 6) 1 / 16) = false → Counted s t ETH.DROP_CNT n 6 1) ∧
            (∀ o, (ethKind f.bytes).ptpOff = some o → domainInst s n (beAt f.bytes (o + 4) 1) = none →
              Counted s t ETH.DROP_CNT n 7 1))))) ∧
    (∀ u cyc, u.ssm < 16 → (EsmcPdu.code u).getD 0 < 256 → cyc < 1250 →
      let cs := (List.range 12).filter fun c => qlSrc s c == n + 1
      (portUp s n = false ∨ leafRuns s = false → exec (.esmcPduReceive n u cyc) s = .next s) ∧
      (portUp s n = true → leafRuns s = true → esmcOk u.oui u.subtype u.version = false →
        ∃ t, exec (.esmcPduReceive n u cyc) s = .next t ∧ Counted s t ETH.DROP_CNT n 6 1 ∧ t = { s with regs := t.regs }) ∧
      (portUp s n = true → leafRuns s = true → esmcOk u.oui u.subtype u.version = true →
        ∃ t, exec (.esmcPduReceive n u cyc) s = .next t ∧ (ethOf t n).tlv = u.tlv ∧
          (s.gate.queue.length + cs.length ≤ 256 → t.gate.queue = s.gate.queue ++ cs.map fun c =>
            (dueOf s cyc, .ql c (n + 1) 0 u.ssm (EsmcPdu.code u) (some c == cs.head?))))) ∧
    (let Sent' := fun (t : State) (event : Bool) => get1 t ETH.ESMC_TX_SSM n = (esmcCodes s n).1 ∧
        get1 t ETH.ESMC_TX_ECODE n = (esmcCodes s n).2 ∧ (ethOf t n).esmc = some (esmcPdu s n event) ∧
        Counted s t ETH.TX_CNT n 0 1 ∧ t = { s with regs := t.regs, eths := t.eths }
     let news := esmcCodes s n ≠ (get1 s ETH.ESMC_TX_SSM n, get1 s ETH.ESMC_TX_ECODE n)
     (esmcOn s n = true → ∃ t, exec (.esmcInfoPdu n) s = .next t ∧ Sent' t false) ∧
     (esmcOn s n = true → news → ∃ t, exec (.esmcEventPdu n) s = .next t ∧ Sent' t true) ∧
     (esmcOn s n = false → exec (.esmcInfoPdu n) s = .next s) ∧
     (esmcOn s n = false ∨ ¬ news → exec (.esmcEventPdu n) s = .next s)) ∧
    (∀ p b f o, p < 4 → areBytes b = true → o < 64000000 →
      let sec := s.frn / 8000
      let k := if (ethOf s n).txSec.1 = sec then (ethOf s n).txSec.2 else 0
      let j := if (ptpOf s p).syncSec.1 = sec then (ptpOf s p).syncSec.2 else 0
      let sync := ptpType b = some 0
      let bounded := portEnabled s n = true ∧ beAt b 6 6 = portMac s n ∧ (ethKind b).admitted = true
      let inRate := k < 4000 ∧ (sync → j < 128)
      (leafRuns s = false → exec (.txFrame p n ⟨b, f, o⟩) s = .next s) ∧
      (leafRuns s = true → ¬ bounded → ∃ t, exec (.txFrame p n ⟨b, f, o⟩) s = .next t ∧ GateRefused s t 5 1 ∧ t.eths = s.eths) ∧
      (leafRuns s = true → bounded → ¬ inRate → ∃ t, exec (.txFrame p n ⟨b, f, o⟩) s = .next t ∧ GateRefused s t 5 5 ∧ t.eths = s.eths) ∧
      (leafRuns s = true → bounded → inRate → ∃ t, exec (.txFrame p n ⟨b, f, o⟩) s = .next t ∧ t.gate.res = 0 ∧
        (ethOf t n).txSec = (sec, k + 1) ∧ (sync → (ptpOf t p).syncSec = (sec, j + 1)) ∧
        (sync ∨ portUp s n = false ∨ heldBack s n b = true → (ethOf t n).tx = (ethOf s n).tx ∧ t.regs = s.regs) ∧
        (¬ sync → portUp s n = true → heldBack s n b = false → (ethOf t n).tx = b ∧ Counted s t ETH.TX_CNT n 0 1 ∧
          (isEvent b = true → Counted s t PTPTS.TX_TS_CNT n 0 1 ∧
            (ethOf t n).left = some (stampOf s n (frameInst s n b) (txRaw s n f o)))))) ∧
    (∀ p q b f o, p < 4 → 2 ≤ q → areBytes b = true → o < 64000000 → leafRuns s = true →
      ∃ t, exec (.txFrame p q ⟨b, f, o⟩) s = .next t ∧ GateRefused s t 5 1 ∧ t.eths = s.eths)

/-! ### PTP -/

/-- Received messages: one that its instance does not accept changes nothing but a timestamp taken from the FIFO and what it counts:
another domain's in its drop class, an unsupported one in BAD_CNT, a Sync or Announce of an unknown master in UNKNOWN_CNT. A Sync
of the parent waits for its Follow_Up or gives the estimate at once; a Follow_Up within 1 s completes it, and a timeout drops it;
the best master's Announce makes it the parent, or the port a master, after its wait, or passive; a lost parent leaves the port
listening or master (R394, R398 to R401, R409, R411, R413). -/
def Obligations.PtpReceive : Prop :=
  ∀ (s : State) (p : Nat), Shaped s → p < 4 →
    (∀ i m, Brings i p m → PtpMsg.ok m = true →
      let sane := m.version = 2 ∧ m.minorVersion ≤ 1 ∧ m.odd = false
      let reached := leafRuns s = true ∧ portUp s m.port = true ∧ instOn s m.port p = true
      let ours := m.domainNumber = getF s PTPTS.CFG_DOMAIN m.port p 0
      ∃ t, exec i s = .next t ∧
        (¬ reached ∨ (ours ∧ sane ∧ masterOk s m.port p m.clockId = true ∧ instClosed s p = true) → t = { s with eths := t.eths }) ∧
        (reached → ¬ ours → Counted s t ETH.DROP_CNT m.port 7 1 ∧ t = { s with regs := t.regs, eths := t.eths }) ∧
        (reached → ours → ¬ sane → Counted s t PTPTS.BAD_CNT m.port p 1) ∧
        ((∃ b c, i = .announceReceive p m b c) ∨ (∃ a b c, i = .syncReceive p m a b c) → reached → ours → sane →
          masterOk s m.port p m.clockId = false → Counted s t PTPTS.UNKNOWN_CNT m.port p 1)) ∧
    (∀ m origin rate cyc, cyc < 1250 → PtpAccepts s p m → masterOk s m.port p m.clockId = true →
      let follows := isSlave s m.port p = true ∧ parentOf s m.port p = m.clockId ∧ tsValid s m.port = true
      ∃ t, exec (.syncReceive p m origin rate cyc) s = .next t ∧ Counted s t PTPTS.RX_SYNC_CNT m.port p 1 ∧
        (¬ follows → t = { s with regs := t.regs, eths := t.eths }) ∧
        (follows → m.twoStep = true → t.gate = s.gate ∧
          (ptpOf t p).pend = some ⟨m.port, m.seqId, m.clockId, rxStamp s m, m.correction, s.frn⟩) ∧
        (follows → m.twoStep = false → PtpEstimated s t p m.port cyc (rxStamp s m) origin m.correction rate)) ∧
    (∀ m origin rate cyc, cyc < 1250 → PtpAccepts s p m →
      (∀ w, (ptpOf s p).pend = some w → w.port = m.port → w.seq = m.seqId → w.id = m.clockId →
        let intime := s.frn ≤ w.frn + 8000 ∧ isSlave s m.port p = true ∧ tsValid s m.port = true
        ∃ t, exec (.followUpReceive p m origin rate cyc) s = .next t ∧ (ptpOf t p).pend = none ∧
          (intime → PtpEstimated s t p m.port cyc w.raw origin (w.corr + m.correction) rate) ∧
          (¬ intime → t = { s with ptps := t.ptps })) ∧
      ((∀ w, (ptpOf s p).pend = some w → w.port ≠ m.port ∨ w.seq ≠ m.seqId ∨ w.id ≠ m.clockId) →
        exec (.followUpReceive p m origin rate cyc) s = .next s)) ∧
    (∃ t, exec (.followUpTimeout p) s = .next t ∧ (ptpOf t p).pend = none ∧ t = { s with ptps := t.ptps }) ∧
    (∀ m b cyc, cyc < 1250 → PtpAccepts s p m → masterOk s m.port p m.clockId = true → b.gmClass < 256 → b.steps < 2 ^ 16 →
      let n := m.port
      let role := getF s PTPTS.CFG_ROLE n p 0
      let port := fun t => getF t PTPTS.STATE_PORT n p 0
      let slave := isSlave s n p = true
      let mine := slave ∧ parentOf s n p = m.clockId
      ∃ t, exec (.announceReceive p m b cyc) s = .next t ∧
        (role ≠ 2 → b.best = .parent ∨ b.best = .same → mine → port t = port s ∧ AnnounceTaken s t p n cyc b) ∧
        (role ≠ 2 → b.best = .parent → ¬ mine → port t = 7 ∧ parentOf t n p = m.clockId ∧ AnnounceTaken s t p n cyc b ∧
          (parentOf s n p ≠ m.clockId → Raised t .ptpts n 1)) ∧
        (role = 3 → ∀ wait, b.best = .master wait → port s ≠ 4 → port s ≠ 5 → (slave → ParentEnded t n p) ∧
          (wait = 0 → port t = 5) ∧
          (wait ≠ 0 → port t = 4 ∧ kvGet (ptpOf t p).pre n = some (s.frn + announceSpan s n p wait))) ∧
        (role = 3 → b.best = .passive → port t = 6 ∧ (slave → ParentEnded t n p)) ∧
        (role = 2 ∨ (b.best = .same ∧ ¬ mine) ∨ (b.best = .passive ∧ role ≠ 3) ∨
          (∃ wait, b.best = .master wait ∧ (role ≠ 3 ∨ port s = 4 ∨ port s = 5)) → t = s)) ∧
    (leafRuns s = true → ∃ t, exec (.announceReceiptTimeout p) s = .next t ∧ ∀ n ∈ instPorts s p,
      (isSlave s n p = true → ParentEnded t n p ∧
        getF t PTPTS.STATE_PORT n p 0 = (if getF s PTPTS.CFG_ROLE n p 0 = 3 then 5 else 3)) ∧
      (isSlave s n p = false → getF t PTPTS.STATE_PORT n p 0 = getF s PTPTS.STATE_PORT n p 0)) ∧
    (leafRuns s = false → exec (.announceReceiptTimeout p) s = .next s)

/-- Sent messages: a port that serves sends Announce, answers Delay_Req outside the peer-to-peer profile, and grants unicast Sync
within its limits; under that profile a port answers Pdelay_Req; a slave's request is stamped as it leaves; an answered request
gives the mean path delay; a one-step Sync carries its departure time, at most 128 in a second; a closed instance reopens after
60 s. Where a condition fails, nothing is sent (R394 to R396, R399, R400, R402, R404, R408, R409, R411, R415). -/
def Obligations.PtpSend : Prop :=
  ∀ (s : State) (p n : Nat), Shaped s → p < 4 → n < 2 →
    (serves s p n = true → ∃ t, exec (.announceTransmit p n) s = .next t ∧ Counted s t ETH.TX_CNT n 0 1 ∧
      (ptpOf t p).sent = some (.announce (txClass s p) (bit1 s TIME.UTC_VALID p) (toSigned 16 (get1 s TIME.UTC_OFS p))
        (bit1 s TIME.UTC_LEAP61 p) (bit1 s TIME.UTC_LEAP59 p))) ∧
    (serves s p n = false → exec (.announceTransmit p n) s = .next s) ∧
    (∀ m, PtpAccepts s p m →
      let peer := getF s PTPTS.CFG_PROFILE m.port p 0 = 1
      let valid := tsValid s m.port = true
      let answers := valid ∧ ¬ peer ∧ serves s p m.port = true
      (∃ t, exec (.delayReqReceive p m) s = .next t ∧
        (let x := rawTime s p (rxStamp s m)
         answers → Counted s t ETH.TX_CNT m.port 0 1 ∧
          (ptpOf t p).sent = some (.delayResp (timeSec x) (timeNs x) (m.correction - (timeFrac x : Int)))) ∧
        (¬ answers → t = { s with eths := t.eths })) ∧
      (∀ f o, o < 64000000 → ∃ t, exec (.pdelayReqReceive p m f o) s = .next t ∧
        (let x := txRaw s m.port f o
         valid → peer → Counted s t PTPTS.TX_TS_CNT m.port 0 1 ∧ Counted s t ETH.TX_CNT m.port 0 2 ∧
          (ethOf t m.port).left = some (stampOf s m.port (some p) x) ∧
          (ptpOf t p).sent = some (.pdelay true 0 0 0 (m.correction + (x - rxStamp s m) * 128))) ∧
        (¬ valid ∨ ¬ peer → t = { s with eths := t.eths })) ∧
      (∀ t1 t4, ∃ t, exec (.delayRespReceive p m t1 t4) s = .next t ∧
        (∀ dep, (ptpOf s p).dep = some dep →
          let corr : Rat := (m.correction : Rat) / 128
          let Path := fun x : Rat => getF t PTPTS.MPD m.port p 0 = satTo 0xFFFFFFFF (roundAway (x / 2)).toNat
          (peer → Path ((rxStamp s m : Rat) - (dep : Rat) - (t4 - t1) - corr)) ∧
          (¬ peer → isSlave s m.port p = true →
            Path (((ptpOf s p).arrival - (dep : Rat)) * (1 + (ptpOf s p).rate) + (t4 - t1) - corr))) ∧
        ((ptpOf s p).dep = none ∨ (¬ peer ∧ isSlave s m.port p = false) → t = { s with eths := t.eths }))) ∧
    (∀ f o, o < 64000000 →
      let may := leafRuns s = true ∧ portUp s n = true ∧ instOn s n p = true ∧ instClosed s p = false ∧ isSlave s n p = true ∧
        tsValid s n = true
      (may → ∃ t, exec (.delayReqTransmit p ⟨n, f, o⟩) s = .next t ∧ Counted s t PTPTS.TX_TS_CNT n 0 1 ∧
        Counted s t ETH.TX_CNT n 0 1 ∧ (ptpOf t p).dep = some (txRaw s n f o) ∧
        (ethOf t n).left = some (stampOf s n (some p) (txRaw s n f o))) ∧
      (¬ may → exec (.delayReqTransmit p ⟨n, f, o⟩) s = .next s)) ∧
    (∀ q l d, d < 2 ^ 32 →
      let rest := (ptpOf s p).grants.filter fun g => g.1 != q
      let rate := (rest.map fun x => syncRate x.2.1).foldl (· + ·) 0 + syncRate l
      let may := serves s p n = true ∧ getF s PTPTS.CFG_PROFILE n p 0 = 3
      let fits := -7 ≤ l ∧ l ≤ 0 ∧ rest.length < 32 ∧ rate ≤ 128 ∧ 0 < d
      (may → ∃ t, exec (.unicastRequest p n q l d) s = .next t ∧ Counted s t ETH.TX_CNT n 0 1 ∧
        (fits → (ptpOf t p).grants = rest ++ [(q, l, s.frn + d * 8000)] ∧ (ptpOf t p).sent = some (.grant q d)) ∧
        (¬ fits → (ptpOf t p).grants = (ptpOf s p).grants ∧ (ptpOf t p).sent = some (.grant q 0))) ∧
      (¬ may → exec (.unicastRequest p n q l d) s = .next s)) ∧
    (∀ b f o, areBytes b = true → o < 64000000 →
      let may := serves s p n = true ∧ tsValid s n = true ∧ ptpType b = some 0 ∧ (recentSyncs s p).length < 128
      (may → ∃ t, exec (.syncTransmit p n b f o) s = .next t ∧ Counted s t PTPTS.TX_SYNC_CNT n p 1 ∧ Counted s t ETH.TX_CNT n 0 1 ∧
        (ethOf t n).tx = insertSync b (rawTime s p (txRaw s n f o)) ∧ (ptpOf t p).syncs = s.frn :: recentSyncs s p) ∧
      (¬ may → exec (.syncTransmit p n b f o) s = .next s)) ∧
    (let due := leafRuns s = true ∧ instClosed s p = true ∧ (ptpOf s p).held = false ∧
        ∀ f r, (ptpOf s p).closes = f :: r → f + 480000 ≤ s.frn
     (due → ∃ t, exec (.ptpReopen p) s = .next t ∧ instClosed t p = false ∧ t = { s with regs := t.regs }) ∧
     (¬ due → exec (.ptpReopen p) s = .next s))

/-! ### The shelf bus -/

/-- Messages that are due are sent with the next SEQ of their type, where the bus is enabled and the module may send; an alert only
with its mask bit; Leaf's own message by the gate's bounds. The controller's error states are reported; a silent module says so.
Where a condition fails nothing is sent (R420, R424 to R426, R428, R431, R432, R434 to R436, R448). -/
def Obligations.ShelfSend : Prop :=
  ∀ s : State, Shaped s → let seq := fun t => s.shelf.seqs.getD t 0
    let Kept := fun t : State => t.shelf.bufs = s.shelf.bufs ∧ t.shelf.onBus = s.shelf.onBus ∧ t.shelf.seqs = s.shelf.seqs
    (MaySend s →
      (onSchedule s 1000 0 = true → ∃ t, exec .shelfStatusTx s = .next t ∧ Sent t 4 (statusBytes s (seq 4)) ∧
        t.shelf.seqs = s.shelf.seqs.modify 4 fun x => (x + 1) % 256) ∧
      (electDue s = true → electEn s = true → ∃ t, exec .shelfElectTx s = .next t ∧
        Sent t 1 (seq 1 :: electBody s (claimOf s)) ∧ t.shelf.elSent = some (electBody s (claimOf s))) ∧
      (qlfDue s = true → get1 s SHELF.TX_CFG_QLF_EN 0 ≠ 0 → ∃ t, exec .shelfQlFwdTx s = .next t ∧
        Sent t 2 [seq 2, (qlfCodes s).1, (qlfCodes s).2, get1 s SHELF.TX_CFG_QLF_DOM 0] ∧ t.shelf.qlSent = some (qlfCodes s)) ∧
      (∀ sec, (∃ k, s.shelf.tod = some (sec, k)) ∨
          (s.shelf.tod = none ∧ (timeOf s (get1 s SHELF.TX_CFG_TOD_DOM 0)).rolled = some sec) →
        get1 s SHELF.TX_CFG_TOD_EN 0 ≠ 0 → ∃ t, exec .shelfTodTx s = .next t ∧
          Sent t 3 (todPayload s sec (seq 3)) ∧ t.shelf.tod = none) ∧
      (∀ k p d x, 1 ≤ k → k ≤ 7 → p < 4 → d < 4 → x < 2 ^ 32 → bitOf (get1 s SHELF.TX_CFG_ALERT_MASK 0) k = true →
        ∃ t, exec (.alert k p d x) s = .next t ∧ Sent t 0 ([seq 0, k, p + 16 * d, 0] ++ beBytes x 4)) ∧
      (∀ k b, (k = 1 ∨ k = 2 ∨ k = 3 ∨ k = 4 ∨ k = 6) → areBytes b = true → b.length ≤ 64 → get1 s SHELF.STATUS_FC 0 ≠ 2 →
        ∃ t, exec (.shelfTx k b) s = .next t ∧ Sent t k b ∧ t.gate.res = 0)) ∧
    (onSchedule s 1000 0 = false ∨ ¬ MaySend s → exec .shelfStatusTx s = .next s) ∧
    (electDue s = false ∨ electEn s = false → exec .shelfElectTx s = .next s) ∧
    (electDue s = true → electEn s = true → ¬ MaySend s → ∃ t, exec .shelfElectTx s = .next t ∧
      t.shelf.elSent = some (electBody s (claimOf s)) ∧ Kept t) ∧
    (qlfDue s = false ∨ get1 s SHELF.TX_CFG_QLF_EN 0 = 0 → exec .shelfQlFwdTx s = .next s) ∧
    (qlfDue s = true → get1 s SHELF.TX_CFG_QLF_EN 0 ≠ 0 → ¬ MaySend s → ∃ t, exec .shelfQlFwdTx s = .next t ∧
      t.shelf.qlSent = some (qlfCodes s) ∧ Kept t) ∧
    (get1 s SHELF.TX_CFG_TOD_EN 0 = 0 ∨
        (s.shelf.tod = none ∧ (timeOf s (get1 s SHELF.TX_CFG_TOD_DOM 0)).rolled = none) → exec .shelfTodTx s = .next s) ∧
    (¬ MaySend s → ∃ t, exec .shelfTodTx s = .next t ∧ Kept t) ∧
    (∀ k p d x, 1 ≤ k → k ≤ 7 → p < 4 → d < 4 → x < 2 ^ 32 →
      bitOf (get1 s SHELF.TX_CFG_ALERT_MASK 0) k = false ∨ ¬ MaySend s → exec (.alert k p d x) s = .next s) ∧
    (∀ k b, areBytes b = true →
      let allowed := (k = 1 ∨ k = 2 ∨ k = 3 ∨ k = 4 ∨ k = 6) ∧ b.length ≤ 64
      (leafRuns s = false → exec (.shelfTx k b) s = .next s) ∧
      (leafRuns s = true → ¬ allowed → ∃ t, exec (.shelfTx k b) s = .next t ∧ GateRefused s t 6 1 ∧ t.shelf = s.shelf) ∧
      (leafRuns s = true → allowed → maySend s = false ∨ get1 s SHELF.STATUS_FC 0 = 2 →
        ∃ t, exec (.shelfTx k b) s = .next t ∧ GateRefused s t 6 7 ∧ t.shelf = s.shelf)) ∧
    (electEn s = true → ∃ t, exec .silent s = .next t ∧ get1 t SHELF.STATUS_SILENT 0 = 1) ∧
    (electEn s = false → exec .silent s = .next s) ∧
    (∀ tec, tec < 512 →
      (get1 s SHELF.CFG_EN 0 ≠ 0 → get1 s SHELF.STATUS_FC 0 ≠ 2 → ∃ t, exec (.busOff tec) s = .next t ∧
        get1 t SHELF.STATUS_FC 0 = 2 ∧ get1 t SHELF.TEC_REC_TEC 0 = tec % 2 ^ 8 ∧ t.shelf.onBus = none ∧
        (∀ b, s.shelf.onBus = some b → kvGet t.shelf.bufs b.1 = some ((kvGet s.shelf.bufs b.1).getD b.2)) ∧
        Counted s t SHELF.BUSOFF_CNT 0 0 1 ∧ Raised t .shelf 0 2) ∧
      (get1 s SHELF.CFG_EN 0 = 0 ∨ get1 s SHELF.STATUS_FC 0 = 2 → exec (.busOff tec) s = .next s)) ∧
    (get1 s SHELF.STATUS_FC 0 = 2 → ∃ t, exec .busOffRecovery s = .next t ∧ get1 t SHELF.STATUS_FC 0 = 0 ∧
      get1 t SHELF.TEC_REC_TEC 0 = 0 ∧ get1 t SHELF.TEC_REC_REC 0 = 0) ∧
    (get1 s SHELF.STATUS_FC 0 ≠ 2 → exec .busOffRecovery s = .next s) ∧
    (∀ tec rec, tec < 256 → rec < 256 →
      (get1 s SHELF.STATUS_FC 0 = 0 → get1 s SHELF.CFG_EN 0 = 1 → ∃ t, exec (.errPassive tec rec) s = .next t ∧
        get1 t SHELF.STATUS_FC 0 = 1 ∧ get1 t SHELF.TEC_REC_TEC 0 = tec ∧ get1 t SHELF.TEC_REC_REC 0 = rec ∧
        Raised t .shelf 0 3 ∧ t.shelf = s.shelf) ∧
      (get1 s SHELF.STATUS_FC 0 ≠ 0 ∨ get1 s SHELF.CFG_EN 0 ≠ 1 → exec (.errPassive tec rec) s = .next s))

/-- Received frames: where the bus is off, Leaf does not run or the transceiver has no supply, nothing happens; a frame that R422
rejects is counted and nothing else; the module's own node ID from another sender isolates it; a stranger is counted. From a node of
the roster, an ELECT of the group makes its node present and a withdrawal ends that; a forwarded QL goes to its channels; the active
node's second gives PEER_TOD; a remote read is held, denied or answered. A lapsed peer leaves. Leaf reads register pages (R422 to
R424, R427 to R429, R431, R432, R434, R442, R448). -/
def Obligations.ShelfReceive : Prop :=
  ∀ s : State, Shaped s →
    (∀ i f, BringsFrame i f →
      let off := get1 s SHELF.CFG_EN 0 = 0 ∨ leafRuns s = false ∨ transceiverOn s = false
      (off → exec i s = .next s) ∧
      (¬ off → canUnknown f = true → ∃ t, exec i s = .next t ∧ Counted s t SHELF.UNKNOWN_CNT 0 0 1 ∧ t = { s with regs := t.regs }) ∧
      (¬ off → canUnknown f = false → canNode f = nodeOf s → ∃ t, exec i s = .next t ∧ Counted s t SHELF.RX_CNT 0 0 1 ∧
        get1 t SHELF.STATUS_NODE_CLASH 0 = 1 ∧ t.shelf = { s.shelf with next := some 3, bufs := [] } ∧ Raised t .shelf 0 1) ∧
      (¬ off → canUnknown f = false → canNode f ≠ nodeOf s → bitOf (get1 s SHELF.ROSTER 0) (canNode f) = false →
        ∃ t, exec i s = .next t ∧ Counted s t SHELF.RX_CNT 0 0 1 ∧ Counted s t SHELF.STRANGER_CNT 0 0 1 ∧
          (get1 s SHELF.STRANGER_CNT 0 = 0 → Raised t .shelf 0 7) ∧ t = { s with regs := t.regs })) ∧
    (∀ f, CanFrame.ok f = true → canUnknown f = false → exec (.unknownFrame f) s = .next s) ∧
    (∀ f, FrameOk s f → let n := canNode f
      (f.ident % 8 = 1 → ∃ t, exec (.shelfElectRx f) s = .next t ∧ Counted s t SHELF.RX_CNT 0 0 1 ∧
        (let others := s.shelf.peers.filter fun q => q.node != n
         let g := f.payload.getD 4 0 % 16
         kvGet t.shelf.groups n = some g ∧
         (g ≠ get1 s SHELF.CFG_GROUP 0 → t.shelf.peers = s.shelf.peers) ∧
         (g = get1 s SHELF.CFG_GROUP 0 → f.payload.getD 1 0 = 2 → t.shelf.peers = others) ∧
         (g = get1 s SHELF.CFG_GROUP 0 → f.payload.getD 1 0 ≠ 2 →
           t.shelf.peers = others ++ [⟨n, s.frn, f.payload.getD 1 0, f.payload.getD 2 0 % 16, f.payload.getD 3 0 % 8⟩] ∧
           ((∀ q ∈ s.shelf.peers, q.node ≠ n) → Raised t .shelf 0 5)))) ∧
      (∀ cyc, f.ident % 8 = 2 → cyc < 1250 → ∃ t, exec (.shelfQlFwdRx f cyc) s = .next t ∧ Counted s t SHELF.RX_CNT 0 0 1 ∧
        kvGet t.shelf.qlDoms n = some (f.payload.getD 3 0 % 4) ∧
        (let cs := (List.range 12).filter fun c => qlSrc s c == 3 && polVal s.pol CHAN.QL_NODE c 0 0 == n
         s.gate.queue.length + cs.length ≤ 256 → t.gate.queue = s.gate.queue ++ cs.map fun c =>
           (dueOf s cyc, .ql c 3 n (f.payload.getD 1 0 % 16) (some (f.payload.getD 2 0)) (some c == cs.head?)))) ∧
      (f.ident % 8 = 3 → ∃ t, exec (.shelfTodRx f) s = .next t ∧ Counted s t SHELF.RX_CNT 0 0 1 ∧ t.shelf = s.shelf ∧
        (let x : Int := (beAt f.payload 0 6 : Int) - timeSec (timeOf s 0).t
         let active := get1 s SHELF.ACTIVE_NODE_NONE 0 ≠ 1 ∧ get1 s SHELF.ACTIVE_NODE_ID 0 = n
         (active → get1 t SHELF.PEER_TOD_VALID 0 = 1 ∧
           get1 t SHELF.PEER_TOD_DIFF 0 = ofSigned 8 (if x > 127 then 127 else if x < -127 then -127 else x) % 2 ^ 8) ∧
         (¬ active → get1 t SHELF.PEER_TOD_VALID 0 = get1 s SHELF.PEER_TOD_VALID 0 ∧
           get1 t SHELF.PEER_TOD_DIFF 0 = get1 s SHELF.PEER_TOD_DIFF 0))) ∧
      (f.ident % 8 = 5 → ∃ t, exec (.regReq f) s = .next t ∧ Counted s t SHELF.RX_CNT 0 0 1 ∧
        (let mine := f.payload.getD 0 0 = nodeOf s
         let allowed := get1 s SHELF.CFG_REMOTE_EN 0 ≠ 0
         let tag := f.payload.getD 1 0
         (¬ mine → t.shelf = s.shelf) ∧
         (mine → ¬ allowed → t.shelf = s.shelf ∧ Counted s t SHELF.REMOTE_DENIED_CNT 0 0 1) ∧
         (mine → allowed → s.shelf.reqs.length < 4 →
           t.shelf.reqs = s.shelf.reqs ++ [⟨n, tag, f.payload.getD 2 0, beAt f.payload 3 3⟩]) ∧
         (mine → allowed → 4 ≤ s.shelf.reqs.length → t.shelf.reqs = s.shelf.reqs ∧
           (maySend s = true → Counted s t SHELF.REMOTE_CNT 0 0 1 ∧ Sent t 6 (respBytes n tag 7 [])))))) ∧
    (s.shelf.reqs = [] → exec .regResp s = .next s) ∧
    (∀ r l, s.shelf.reqs = r :: l → ∃ t, exec .regResp s = .next t ∧ t.shelf.reqs = l ∧
      (maySend s = true → Counted s t SHELF.REMOTE_CNT 0 0 1 ∧
        (r.count = 0 ∨ 15 < r.count → Sent t 6 (respBytes r.node r.tag 6 [])) ∧
        (0 < r.count → r.count ≤ 15 → r.addr % 4 ≠ 0 → Sent t 6 (respBytes r.node r.tag 5 [])) ∧
        (0 < r.count → r.count ≤ 15 → r.addr % 4 = 0 →
          let x := (readRegs .shelf r.addr r.count { s with shelf := { s.shelf with reqs := l } }).1
          Sent t 6 (respBytes r.node r.tag ((x.map fun y => y.2).foldl max 0) (x.map fun y => y.1)))) ∧
      (maySend s = false → t.shelf.bufs = s.shelf.bufs ∧ t.shelf.onBus = s.shelf.onBus ∧
        get1 t SHELF.REMOTE_CNT 0 = get1 s SHELF.REMOTE_CNT 0)) ∧
    (∀ n, n < 32 →
      (leafRuns s = true → (∃ q ∈ s.shelf.peers, q.node = n) → ∃ t, exec (.peerLost n) s = .next t ∧
        t.shelf.peers = s.shelf.peers.filter (fun q => q.node != n) ∧ Raised t .shelf 0 4 ∧
        (bitOf (get1 s SHELF.TX_CFG_ALERT_MASK 0) 6 = true → maySend s = true →
          Sent t 0 ([s.shelf.seqs.getD 0 0, 6, 0, 0] ++ beBytes n 4))) ∧
      (leafRuns s = false ∨ (∀ q ∈ s.shelf.peers, q.node ≠ n) → exec (.peerLost n) s = .next s)) ∧
    (∀ a n,
      (leafRuns s = false → exec (.regRead a n) s = .next s) ∧
      (leafRuns s = true → a % 4 = 0 → a + 4 * n ≤ 0x100000 → ∃ t, exec (.regRead a n) s = .next t ∧ t.gate.res = 0 ∧
        t.gate.data.length = n ∧ t.gate.data = (readRegs .leaf a n s).1.map fun y => y.1) ∧
      (leafRuns s = true → a % 4 ≠ 0 ∨ 0x100000 < a + 4 * n → ∃ t, exec (.regRead a n) s = .next t ∧ GateRefused s t 7 3 ∧
        t.shelf = s.shelf))

end
end

