-- ==== Sys2Proof/Laws/Only.lean ====
section
/-! SUPPORT. What it means that an operation changes only some components of the state, one abbreviation for each set of
components that some operation changes (the register cells are stated apart, in Laws/State.lean), and the lemmas that
carry a component through a fold and through a choice. -/

namespace Sys2Proof.Machine

/-- A law cited as a term inside a list for simp, as in `simp [cite @setF_keeps]`: simp then reads its clauses where they
stand, and declares no lemma of its own for each of them. -/
theorem cite {p : Prop} (h : p) : p := h

/-- What every step of a fold keeps, the fold keeps. -/
theorem foldl_inv {α β σ : Type} (g : σ → β) (f : σ → α → σ) (h : ∀ t x, g (f t x) = g t) (l : List α) (s : σ) :
    g (l.foldl f s) = g s := by
  induction l generalizing s with
  | nil => rfl
  | cons x l ih => rw [List.foldl_cons, ih, h]

@[simp low] theorem foldl_pending {α : Type} (f : State → α → State) (h : ∀ t x, (f t x).pending = t.pending) (l : List α) (s : State) :
    (l.foldl f s).pending = s.pending := foldl_inv State.pending f h l s
@[simp low] theorem ite_pending (c : Prop) [Decidable c] (a b : State) : (if c then a else b).pending = if c then a.pending else b.pending := by
  split <;> rfl
@[simp low] theorem foldl_freeIx {α : Type} (f : State → α → State) (h : ∀ t x, (f t x).freeIx = t.freeIx) (l : List α) (s : State) :
    (l.foldl f s).freeIx = s.freeIx := foldl_inv State.freeIx f h l s
@[simp low] theorem ite_freeIx (c : Prop) [Decidable c] (a b : State) : (if c then a else b).freeIx = if c then a.freeIx else b.freeIx := by
  split <;> rfl
@[simp low] theorem foldl_phase {α : Type} (f : State → α → State) (h : ∀ t x, (f t x).phase = t.phase) (l : List α) (s : State) :
    (l.foldl f s).phase = s.phase := foldl_inv State.phase f h l s
@[simp low] theorem ite_phase (c : Prop) [Decidable c] (a b : State) : (if c then a else b).phase = if c then a.phase else b.phase := by
  split <;> rfl
@[simp low] theorem foldl_straps {α : Type} (f : State → α → State) (h : ∀ t x, (f t x).straps = t.straps) (l : List α) (s : State) :
    (l.foldl f s).straps = s.straps := foldl_inv State.straps f h l s
@[simp low] theorem ite_straps (c : Prop) [Decidable c] (a b : State) : (if c then a else b).straps = if c then a.straps else b.straps := by
  split <;> rfl
@[simp low] theorem foldl_frn {α : Type} (f : State → α → State) (h : ∀ t x, (f t x).frn = t.frn) (l : List α) (s : State) :
    (l.foldl f s).frn = s.frn := foldl_inv State.frn f h l s
@[simp low] theorem ite_frn (c : Prop) [Decidable c] (a b : State) : (if c then a else b).frn = if c then a.frn else b.frn := by
  split <;> rfl
@[simp low] theorem foldl_cyc {α : Type} (f : State → α → State) (h : ∀ t x, (f t x).cyc = t.cyc) (l : List α) (s : State) :
    (l.foldl f s).cyc = s.cyc := foldl_inv State.cyc f h l s
@[simp low] theorem ite_cyc (c : Prop) [Decidable c] (a b : State) : (if c then a else b).cyc = if c then a.cyc else b.cyc := by
  split <;> rfl
@[simp low] theorem foldl_regs {α : Type} (f : State → α → State) (h : ∀ t x, (f t x).regs = t.regs) (l : List α) (s : State) :
    (l.foldl f s).regs = s.regs := foldl_inv State.regs f h l s
@[simp low] theorem ite_regs (c : Prop) [Decidable c] (a b : State) : (if c then a else b).regs = if c then a.regs else b.regs := by
  split <;> rfl
@[simp low] theorem foldl_snaps {α : Type} (f : State → α → State) (h : ∀ t x, (f t x).snaps = t.snaps) (l : List α) (s : State) :
    (l.foldl f s).snaps = s.snaps := foldl_inv State.snaps f h l s
@[simp low] theorem ite_snaps (c : Prop) [Decidable c] (a b : State) : (if c then a else b).snaps = if c then a.snaps else b.snaps := by
  split <;> rfl
@[simp low] theorem foldl_snapReq {α : Type} (f : State → α → State) (h : ∀ t x, (f t x).snapReq = t.snapReq) (l : List α) (s : State) :
    (l.foldl f s).snapReq = s.snapReq := foldl_inv State.snapReq f h l s
@[simp low] theorem ite_snapReq (c : Prop) [Decidable c] (a b : State) : (if c then a else b).snapReq = if c then a.snapReq else b.snapReq := by
  split <;> rfl
@[simp low] theorem foldl_snapAll {α : Type} (f : State → α → State) (h : ∀ t x, (f t x).snapAll = t.snapAll) (l : List α) (s : State) :
    (l.foldl f s).snapAll = s.snapAll := foldl_inv State.snapAll f h l s
@[simp low] theorem ite_snapAll (c : Prop) [Decidable c] (a b : State) : (if c then a else b).snapAll = if c then a.snapAll else b.snapAll := by
  split <;> rfl
@[simp low] theorem foldl_writeQ {α : Type} (f : State → α → State) (h : ∀ t x, (f t x).writeQ = t.writeQ) (l : List α) (s : State) :
    (l.foldl f s).writeQ = s.writeQ := foldl_inv State.writeQ f h l s
@[simp low] theorem ite_writeQ (c : Prop) [Decidable c] (a b : State) : (if c then a else b).writeQ = if c then a.writeQ else b.writeQ := by
  split <;> rfl
@[simp low] theorem foldl_spi {α : Type} (f : State → α → State) (h : ∀ t x, (f t x).spi = t.spi) (l : List α) (s : State) :
    (l.foldl f s).spi = s.spi := foldl_inv State.spi f h l s
@[simp low] theorem ite_spi (c : Prop) [Decidable c] (a b : State) : (if c then a else b).spi = if c then a.spi else b.spi := by
  split <;> rfl
@[simp low] theorem foldl_i2c {α : Type} (f : State → α → State) (h : ∀ t x, (f t x).i2c = t.i2c) (l : List α) (s : State) :
    (l.foldl f s).i2c = s.i2c := foldl_inv State.i2c f h l s
@[simp low] theorem ite_i2c (c : Prop) [Decidable c] (a b : State) : (if c then a else b).i2c = if c then a.i2c else b.i2c := by
  split <;> rfl
@[simp low] theorem foldl_i2cHold {α : Type} (f : State → α → State) (h : ∀ t x, (f t x).i2cHold = t.i2cHold) (l : List α) (s : State) :
    (l.foldl f s).i2cHold = s.i2cHold := foldl_inv State.i2cHold f h l s
@[simp low] theorem ite_i2cHold (c : Prop) [Decidable c] (a b : State) : (if c then a else b).i2cHold = if c then a.i2cHold else b.i2cHold := by
  split <;> rfl
@[simp low] theorem foldl_pol {α : Type} (f : State → α → State) (h : ∀ t x, (f t x).pol = t.pol) (l : List α) (s : State) :
    (l.foldl f s).pol = s.pol := foldl_inv State.pol f h l s
@[simp low] theorem ite_pol (c : Prop) [Decidable c] (a b : State) : (if c then a else b).pol = if c then a.pol else b.pol := by
  split <;> rfl
@[simp low] theorem foldl_mem {α : Type} (f : State → α → State) (h : ∀ t x, (f t x).mem = t.mem) (l : List α) (s : State) :
    (l.foldl f s).mem = s.mem := foldl_inv State.mem f h l s
@[simp low] theorem ite_mem (c : Prop) [Decidable c] (a b : State) : (if c then a else b).mem = if c then a.mem else b.mem := by
  split <;> rfl
@[simp low] theorem foldl_jrn {α : Type} (f : State → α → State) (h : ∀ t x, (f t x).jrn = t.jrn) (l : List α) (s : State) :
    (l.foldl f s).jrn = s.jrn := foldl_inv State.jrn f h l s
@[simp low] theorem ite_jrn (c : Prop) [Decidable c] (a b : State) : (if c then a else b).jrn = if c then a.jrn else b.jrn := by
  split <;> rfl
@[simp low] theorem foldl_lanes {α : Type} (f : State → α → State) (h : ∀ t x, (f t x).lanes = t.lanes) (l : List α) (s : State) :
    (l.foldl f s).lanes = s.lanes := foldl_inv State.lanes f h l s
@[simp low] theorem ite_lanes (c : Prop) [Decidable c] (a b : State) : (if c then a else b).lanes = if c then a.lanes else b.lanes := by
  split <;> rfl
@[simp low] theorem foldl_funcs {α : Type} (f : State → α → State) (h : ∀ t x, (f t x).funcs = t.funcs) (l : List α) (s : State) :
    (l.foldl f s).funcs = s.funcs := foldl_inv State.funcs f h l s
@[simp low] theorem ite_funcs (c : Prop) [Decidable c] (a b : State) : (if c then a else b).funcs = if c then a.funcs else b.funcs := by
  split <;> rfl
@[simp low] theorem foldl_rows {α : Type} (f : State → α → State) (h : ∀ t x, (f t x).rows = t.rows) (l : List α) (s : State) :
    (l.foldl f s).rows = s.rows := foldl_inv State.rows f h l s
@[simp low] theorem ite_rows (c : Prop) [Decidable c] (a b : State) : (if c then a else b).rows = if c then a.rows else b.rows := by
  split <;> rfl
@[simp low] theorem foldl_accs {α : Type} (f : State → α → State) (h : ∀ t x, (f t x).accs = t.accs) (l : List α) (s : State) :
    (l.foldl f s).accs = s.accs := foldl_inv State.accs f h l s
@[simp low] theorem ite_accs (c : Prop) [Decidable c] (a b : State) : (if c then a else b).accs = if c then a.accs else b.accs := by
  split <;> rfl
@[simp low] theorem foldl_parts {α : Type} (f : State → α → State) (h : ∀ t x, (f t x).parts = t.parts) (l : List α) (s : State) :
    (l.foldl f s).parts = s.parts := foldl_inv State.parts f h l s
@[simp low] theorem ite_parts (c : Prop) [Decidable c] (a b : State) : (if c then a else b).parts = if c then a.parts else b.parts := by
  split <;> rfl
@[simp low] theorem foldl_chans {α : Type} (f : State → α → State) (h : ∀ t x, (f t x).chans = t.chans) (l : List α) (s : State) :
    (l.foldl f s).chans = s.chans := foldl_inv State.chans f h l s
@[simp low] theorem ite_chans (c : Prop) [Decidable c] (a b : State) : (if c then a else b).chans = if c then a.chans else b.chans := by
  split <;> rfl
@[simp low] theorem foldl_pkts {α : Type} (f : State → α → State) (h : ∀ t x, (f t x).pkts = t.pkts) (l : List α) (s : State) :
    (l.foldl f s).pkts = s.pkts := foldl_inv State.pkts f h l s
@[simp low] theorem ite_pkts (c : Prop) [Decidable c] (a b : State) : (if c then a else b).pkts = if c then a.pkts else b.pkts := by
  split <;> rfl
@[simp low] theorem foldl_pairs {α : Type} (f : State → α → State) (h : ∀ t x, (f t x).pairs = t.pairs) (l : List α) (s : State) :
    (l.foldl f s).pairs = s.pairs := foldl_inv State.pairs f h l s
@[simp low] theorem ite_pairs (c : Prop) [Decidable c] (a b : State) : (if c then a else b).pairs = if c then a.pairs else b.pairs := by
  split <;> rfl
@[simp low] theorem foldl_doms {α : Type} (f : State → α → State) (h : ∀ t x, (f t x).doms = t.doms) (l : List α) (s : State) :
    (l.foldl f s).doms = s.doms := foldl_inv State.doms f h l s
@[simp low] theorem ite_doms (c : Prop) [Decidable c] (a b : State) : (if c then a else b).doms = if c then a.doms else b.doms := by
  split <;> rfl
@[simp low] theorem foldl_aplls {α : Type} (f : State → α → State) (h : ∀ t x, (f t x).aplls = t.aplls) (l : List α) (s : State) :
    (l.foldl f s).aplls = s.aplls := foldl_inv State.aplls f h l s
@[simp low] theorem ite_aplls (c : Prop) [Decidable c] (a b : State) : (if c then a else b).aplls = if c then a.aplls else b.aplls := by
  split <;> rfl
@[simp low] theorem foldl_outs {α : Type} (f : State → α → State) (h : ∀ t x, (f t x).outs = t.outs) (l : List α) (s : State) :
    (l.foldl f s).outs = s.outs := foldl_inv State.outs f h l s
@[simp low] theorem ite_outs (c : Prop) [Decidable c] (a b : State) : (if c then a else b).outs = if c then a.outs else b.outs := by
  split <;> rfl
@[simp low] theorem foldl_times {α : Type} (f : State → α → State) (h : ∀ t x, (f t x).times = t.times) (l : List α) (s : State) :
    (l.foldl f s).times = s.times := foldl_inv State.times f h l s
@[simp low] theorem ite_times (c : Prop) [Decidable c] (a b : State) : (if c then a else b).times = if c then a.times else b.times := by
  split <;> rfl
@[simp low] theorem foldl_gate {α : Type} (f : State → α → State) (h : ∀ t x, (f t x).gate = t.gate) (l : List α) (s : State) :
    (l.foldl f s).gate = s.gate := foldl_inv State.gate f h l s
@[simp low] theorem ite_gate (c : Prop) [Decidable c] (a b : State) : (if c then a else b).gate = if c then a.gate else b.gate := by
  split <;> rfl
@[simp low] theorem foldl_eths {α : Type} (f : State → α → State) (h : ∀ t x, (f t x).eths = t.eths) (l : List α) (s : State) :
    (l.foldl f s).eths = s.eths := foldl_inv State.eths f h l s
@[simp low] theorem ite_eths (c : Prop) [Decidable c] (a b : State) : (if c then a else b).eths = if c then a.eths else b.eths := by
  split <;> rfl
@[simp low] theorem foldl_ptps {α : Type} (f : State → α → State) (h : ∀ t x, (f t x).ptps = t.ptps) (l : List α) (s : State) :
    (l.foldl f s).ptps = s.ptps := foldl_inv State.ptps f h l s
@[simp low] theorem ite_ptps (c : Prop) [Decidable c] (a b : State) : (if c then a else b).ptps = if c then a.ptps else b.ptps := by
  split <;> rfl
@[simp low] theorem foldl_shelf {α : Type} (f : State → α → State) (h : ∀ t x, (f t x).shelf = t.shelf) (l : List α) (s : State) :
    (l.foldl f s).shelf = s.shelf := foldl_inv State.shelf f h l s
@[simp low] theorem ite_shelf (c : Prop) [Decidable c] (a b : State) : (if c then a else b).shelf = if c then a.shelf else b.shelf := by
  split <;> rfl
@[simp low] theorem foldl_cellar {α : Type} (f : State → α → State) (h : ∀ t x, (f t x).cellar = t.cellar) (l : List α) (s : State) :
    (l.foldl f s).cellar = s.cellar := foldl_inv State.cellar f h l s
@[simp low] theorem ite_cellar (c : Prop) [Decidable c] (a b : State) : (if c then a else b).cellar = if c then a.cellar else b.cellar := by
  split <;> rfl
@[simp low] theorem foldl_root {α : Type} (f : State → α → State) (h : ∀ t x, (f t x).root = t.root) (l : List α) (s : State) :
    (l.foldl f s).root = s.root := foldl_inv State.root f h l s
@[simp low] theorem ite_root (c : Prop) [Decidable c] (a b : State) : (if c then a else b).root = if c then a.root else b.root := by
  split <;> rfl
@[simp low] theorem foldl_power {α : Type} (f : State → α → State) (h : ∀ t x, (f t x).power = t.power) (l : List α) (s : State) :
    (l.foldl f s).power = s.power := foldl_inv State.power f h l s
@[simp low] theorem ite_power (c : Prop) [Decidable c] (a b : State) : (if c then a else b).power = if c then a.power else b.power := by
  split <;> rfl
@[simp low] theorem foldl_vio {α : Type} (f : State → α → State) (h : ∀ t x, (f t x).vio = t.vio) (l : List α) (s : State) :
    (l.foldl f s).vio = s.vio := foldl_inv State.vio f h l s
@[simp low] theorem ite_vio (c : Prop) [Decidable c] (a b : State) : (if c then a else b).vio = if c then a.vio else b.vio := by
  split <;> rfl
@[simp low] theorem foldl_tbHold {α : Type} (f : State → α → State) (h : ∀ t x, (f t x).tbHold = t.tbHold) (l : List α) (s : State) :
    (l.foldl f s).tbHold = s.tbHold := foldl_inv State.tbHold f h l s
@[simp low] theorem ite_tbHold (c : Prop) [Decidable c] (a b : State) : (if c then a else b).tbHold = if c then a.tbHold else b.tbHold := by
  split <;> rfl
@[simp low] theorem foldl_jrOn {α : Type} (f : State → α → State) (h : ∀ t x, (f t x).jrOn = t.jrOn) (l : List α) (s : State) :
    (l.foldl f s).jrOn = s.jrOn := foldl_inv State.jrOn f h l s
@[simp low] theorem ite_jrOn (c : Prop) [Decidable c] (a b : State) : (if c then a else b).jrOn = if c then a.jrOn else b.jrOn := by
  split <;> rfl

/-- Every component of a choice between two states is the choice of the component: the laws `ite_X` above, as one. -/
theorem ite_state (c : Prop) [Decidable c] (a b : State) :
    (if c then a else b).pending = (if c then a.pending else b.pending) ∧
    (if c then a else b).freeIx = (if c then a.freeIx else b.freeIx) ∧
    (if c then a else b).phase = (if c then a.phase else b.phase) ∧
    (if c then a else b).straps = (if c then a.straps else b.straps) ∧
    (if c then a else b).frn = (if c then a.frn else b.frn) ∧ (if c then a else b).cyc = (if c then a.cyc else b.cyc) ∧
    (if c then a else b).regs = (if c then a.regs else b.regs) ∧
    (if c then a else b).snaps = (if c then a.snaps else b.snaps) ∧
    (if c then a else b).snapReq = (if c then a.snapReq else b.snapReq) ∧
    (if c then a else b).snapAll = (if c then a.snapAll else b.snapAll) ∧
    (if c then a else b).writeQ = (if c then a.writeQ else b.writeQ) ∧
    (if c then a else b).spi = (if c then a.spi else b.spi) ∧ (if c then a else b).i2c = (if c then a.i2c else b.i2c) ∧
    (if c then a else b).i2cHold = (if c then a.i2cHold else b.i2cHold) ∧
    (if c then a else b).pol = (if c then a.pol else b.pol) ∧ (if c then a else b).mem = (if c then a.mem else b.mem) ∧
    (if c then a else b).jrn = (if c then a.jrn else b.jrn) ∧ (if c then a else b).lanes = (if c then a.lanes else b.lanes) ∧
    (if c then a else b).funcs = (if c then a.funcs else b.funcs) ∧
    (if c then a else b).rows = (if c then a.rows else b.rows) ∧ (if c then a else b).accs = (if c then a.accs else b.accs) ∧
    (if c then a else b).parts = (if c then a.parts else b.parts) ∧
    (if c then a else b).chans = (if c then a.chans else b.chans) ∧
    (if c then a else b).pkts = (if c then a.pkts else b.pkts) ∧
    (if c then a else b).pairs = (if c then a.pairs else b.pairs) ∧
    (if c then a else b).doms = (if c then a.doms else b.doms) ∧
    (if c then a else b).aplls = (if c then a.aplls else b.aplls) ∧
    (if c then a else b).outs = (if c then a.outs else b.outs) ∧
    (if c then a else b).times = (if c then a.times else b.times) ∧
    (if c then a else b).gate = (if c then a.gate else b.gate) ∧ (if c then a else b).eths = (if c then a.eths else b.eths) ∧
    (if c then a else b).ptps = (if c then a.ptps else b.ptps) ∧
    (if c then a else b).shelf = (if c then a.shelf else b.shelf) ∧
    (if c then a else b).cellar = (if c then a.cellar else b.cellar) ∧
    (if c then a else b).root = (if c then a.root else b.root) ∧
    (if c then a else b).power = (if c then a.power else b.power) ∧ (if c then a else b).vio = (if c then a.vio else b.vio) ∧
    (if c then a else b).tbHold = (if c then a.tbHold else b.tbHold) ∧
    (if c then a else b).jrOn = (if c then a.jrOn else b.jrOn) := by
  split <;> simp only [and_self]

/-- Every component that each step of a fold keeps is kept by the fold: the laws `foldl_X` above, as one. -/
theorem foldl_state {α : Type} (f : State → α → State) (l : List α) (s : State) :
    ((∀ t x, (f t x).pending = t.pending) → (l.foldl f s).pending = s.pending) ∧
    ((∀ t x, (f t x).freeIx = t.freeIx) → (l.foldl f s).freeIx = s.freeIx) ∧
    ((∀ t x, (f t x).phase = t.phase) → (l.foldl f s).phase = s.phase) ∧
    ((∀ t x, (f t x).straps = t.straps) → (l.foldl f s).straps = s.straps) ∧
    ((∀ t x, (f t x).frn = t.frn) → (l.foldl f s).frn = s.frn) ∧ ((∀ t x, (f t x).cyc = t.cyc) → (l.foldl f s).cyc = s.cyc) ∧
    ((∀ t x, (f t x).regs = t.regs) → (l.foldl f s).regs = s.regs) ∧
    ((∀ t x, (f t x).snaps = t.snaps) → (l.foldl f s).snaps = s.snaps) ∧
    ((∀ t x, (f t x).snapReq = t.snapReq) → (l.foldl f s).snapReq = s.snapReq) ∧
    ((∀ t x, (f t x).snapAll = t.snapAll) → (l.foldl f s).snapAll = s.snapAll) ∧
    ((∀ t x, (f t x).writeQ = t.writeQ) → (l.foldl f s).writeQ = s.writeQ) ∧
    ((∀ t x, (f t x).spi = t.spi) → (l.foldl f s).spi = s.spi) ∧ ((∀ t x, (f t x).i2c = t.i2c) → (l.foldl f s).i2c = s.i2c) ∧
    ((∀ t x, (f t x).i2cHold = t.i2cHold) → (l.foldl f s).i2cHold = s.i2cHold) ∧
    ((∀ t x, (f t x).pol = t.pol) → (l.foldl f s).pol = s.pol) ∧ ((∀ t x, (f t x).mem = t.mem) → (l.foldl f s).mem = s.mem) ∧
    ((∀ t x, (f t x).jrn = t.jrn) → (l.foldl f s).jrn = s.jrn) ∧
    ((∀ t x, (f t x).lanes = t.lanes) → (l.foldl f s).lanes = s.lanes) ∧
    ((∀ t x, (f t x).funcs = t.funcs) → (l.foldl f s).funcs = s.funcs) ∧
    ((∀ t x, (f t x).rows = t.rows) → (l.foldl f s).rows = s.rows) ∧
    ((∀ t x, (f t x).accs = t.accs) → (l.foldl f s).accs = s.accs) ∧
    ((∀ t x, (f t x).parts = t.parts) → (l.foldl f s).parts = s.parts) ∧
    ((∀ t x, (f t x).chans = t.chans) → (l.foldl f s).chans = s.chans) ∧
    ((∀ t x, (f t x).pkts = t.pkts) → (l.foldl f s).pkts = s.pkts) ∧
    ((∀ t x, (f t x).pairs = t.pairs) → (l.foldl f s).pairs = s.pairs) ∧
    ((∀ t x, (f t x).doms = t.doms) → (l.foldl f s).doms = s.doms) ∧
    ((∀ t x, (f t x).aplls = t.aplls) → (l.foldl f s).aplls = s.aplls) ∧
    ((∀ t x, (f t x).outs = t.outs) → (l.foldl f s).outs = s.outs) ∧
    ((∀ t x, (f t x).times = t.times) → (l.foldl f s).times = s.times) ∧
    ((∀ t x, (f t x).gate = t.gate) → (l.foldl f s).gate = s.gate) ∧
    ((∀ t x, (f t x).eths = t.eths) → (l.foldl f s).eths = s.eths) ∧
    ((∀ t x, (f t x).ptps = t.ptps) → (l.foldl f s).ptps = s.ptps) ∧
    ((∀ t x, (f t x).shelf = t.shelf) → (l.foldl f s).shelf = s.shelf) ∧
    ((∀ t x, (f t x).cellar = t.cellar) → (l.foldl f s).cellar = s.cellar) ∧
    ((∀ t x, (f t x).root = t.root) → (l.foldl f s).root = s.root) ∧
    ((∀ t x, (f t x).power = t.power) → (l.foldl f s).power = s.power) ∧
    ((∀ t x, (f t x).vio = t.vio) → (l.foldl f s).vio = s.vio) ∧
    ((∀ t x, (f t x).tbHold = t.tbHold) → (l.foldl f s).tbHold = s.tbHold) ∧
    ((∀ t x, (f t x).jrOn = t.jrOn) → (l.foldl f s).jrOn = s.jrOn) :=
  ⟨fun h => foldl_pending f h l s, fun h => foldl_freeIx f h l s, fun h => foldl_phase f h l s,
   fun h => foldl_straps f h l s, fun h => foldl_frn f h l s, fun h => foldl_cyc f h l s, fun h => foldl_regs f h l s,
   fun h => foldl_snaps f h l s, fun h => foldl_snapReq f h l s, fun h => foldl_snapAll f h l s,
   fun h => foldl_writeQ f h l s, fun h => foldl_spi f h l s, fun h => foldl_i2c f h l s, fun h => foldl_i2cHold f h l s,
   fun h => foldl_pol f h l s, fun h => foldl_mem f h l s, fun h => foldl_jrn f h l s, fun h => foldl_lanes f h l s,
   fun h => foldl_funcs f h l s, fun h => foldl_rows f h l s, fun h => foldl_accs f h l s, fun h => foldl_parts f h l s,
   fun h => foldl_chans f h l s, fun h => foldl_pkts f h l s, fun h => foldl_pairs f h l s, fun h => foldl_doms f h l s,
   fun h => foldl_aplls f h l s, fun h => foldl_outs f h l s, fun h => foldl_times f h l s, fun h => foldl_gate f h l s,
   fun h => foldl_eths f h l s, fun h => foldl_ptps f h l s, fun h => foldl_shelf f h l s, fun h => foldl_cellar f h l s,
   fun h => foldl_root f h l s, fun h => foldl_power f h l s, fun h => foldl_vio f h l s, fun h => foldl_tbHold f h l s,
   fun h => foldl_jrOn f h l s⟩

/-- Only accs may change. -/
abbrev OnlyAccs (s t : State) : Prop :=
  t.pending = s.pending ∧ t.freeIx = s.freeIx ∧ t.phase = s.phase ∧ t.straps = s.straps ∧ t.frn = s.frn ∧
  t.cyc = s.cyc ∧ t.regs = s.regs ∧ t.snaps = s.snaps ∧ t.snapReq = s.snapReq ∧ t.snapAll = s.snapAll ∧
  t.writeQ = s.writeQ ∧ t.spi = s.spi ∧ t.i2c = s.i2c ∧ t.i2cHold = s.i2cHold ∧ t.pol = s.pol ∧ t.mem = s.mem ∧
  t.jrn = s.jrn ∧ t.lanes = s.lanes ∧ t.funcs = s.funcs ∧ t.rows = s.rows ∧ t.parts = s.parts ∧ t.chans = s.chans ∧
  t.pkts = s.pkts ∧ t.pairs = s.pairs ∧ t.doms = s.doms ∧ t.aplls = s.aplls ∧ t.outs = s.outs ∧ t.times = s.times ∧
  t.gate = s.gate ∧ t.eths = s.eths ∧ t.ptps = s.ptps ∧ t.shelf = s.shelf ∧ t.cellar = s.cellar ∧ t.root = s.root ∧
  t.power = s.power ∧ t.vio = s.vio ∧ t.tbHold = s.tbHold ∧ t.jrOn = s.jrOn

/-- Only aplls may change. -/
abbrev OnlyAplls (s t : State) : Prop :=
  t.pending = s.pending ∧ t.freeIx = s.freeIx ∧ t.phase = s.phase ∧ t.straps = s.straps ∧ t.frn = s.frn ∧
  t.cyc = s.cyc ∧ t.regs = s.regs ∧ t.snaps = s.snaps ∧ t.snapReq = s.snapReq ∧ t.snapAll = s.snapAll ∧
  t.writeQ = s.writeQ ∧ t.spi = s.spi ∧ t.i2c = s.i2c ∧ t.i2cHold = s.i2cHold ∧ t.pol = s.pol ∧ t.mem = s.mem ∧
  t.jrn = s.jrn ∧ t.lanes = s.lanes ∧ t.funcs = s.funcs ∧ t.rows = s.rows ∧ t.accs = s.accs ∧ t.parts = s.parts ∧
  t.chans = s.chans ∧ t.pkts = s.pkts ∧ t.pairs = s.pairs ∧ t.doms = s.doms ∧ t.outs = s.outs ∧ t.times = s.times ∧
  t.gate = s.gate ∧ t.eths = s.eths ∧ t.ptps = s.ptps ∧ t.shelf = s.shelf ∧ t.cellar = s.cellar ∧ t.root = s.root ∧
  t.power = s.power ∧ t.vio = s.vio ∧ t.tbHold = s.tbHold ∧ t.jrOn = s.jrOn

/-- Only cellar may change. -/
abbrev OnlyCellar (s t : State) : Prop :=
  t.pending = s.pending ∧ t.freeIx = s.freeIx ∧ t.phase = s.phase ∧ t.straps = s.straps ∧ t.frn = s.frn ∧
  t.cyc = s.cyc ∧ t.regs = s.regs ∧ t.snaps = s.snaps ∧ t.snapReq = s.snapReq ∧ t.snapAll = s.snapAll ∧
  t.writeQ = s.writeQ ∧ t.spi = s.spi ∧ t.i2c = s.i2c ∧ t.i2cHold = s.i2cHold ∧ t.pol = s.pol ∧ t.mem = s.mem ∧
  t.jrn = s.jrn ∧ t.lanes = s.lanes ∧ t.funcs = s.funcs ∧ t.rows = s.rows ∧ t.accs = s.accs ∧ t.parts = s.parts ∧
  t.chans = s.chans ∧ t.pkts = s.pkts ∧ t.pairs = s.pairs ∧ t.doms = s.doms ∧ t.aplls = s.aplls ∧ t.outs = s.outs ∧
  t.times = s.times ∧ t.gate = s.gate ∧ t.eths = s.eths ∧ t.ptps = s.ptps ∧ t.shelf = s.shelf ∧ t.root = s.root ∧
  t.power = s.power ∧ t.vio = s.vio ∧ t.tbHold = s.tbHold ∧ t.jrOn = s.jrOn

/-- Only chans may change. -/
abbrev OnlyChans (s t : State) : Prop :=
  t.pending = s.pending ∧ t.freeIx = s.freeIx ∧ t.phase = s.phase ∧ t.straps = s.straps ∧ t.frn = s.frn ∧
  t.cyc = s.cyc ∧ t.regs = s.regs ∧ t.snaps = s.snaps ∧ t.snapReq = s.snapReq ∧ t.snapAll = s.snapAll ∧
  t.writeQ = s.writeQ ∧ t.spi = s.spi ∧ t.i2c = s.i2c ∧ t.i2cHold = s.i2cHold ∧ t.pol = s.pol ∧ t.mem = s.mem ∧
  t.jrn = s.jrn ∧ t.lanes = s.lanes ∧ t.funcs = s.funcs ∧ t.rows = s.rows ∧ t.accs = s.accs ∧ t.parts = s.parts ∧
  t.pkts = s.pkts ∧ t.pairs = s.pairs ∧ t.doms = s.doms ∧ t.aplls = s.aplls ∧ t.outs = s.outs ∧ t.times = s.times ∧
  t.gate = s.gate ∧ t.eths = s.eths ∧ t.ptps = s.ptps ∧ t.shelf = s.shelf ∧ t.cellar = s.cellar ∧ t.root = s.root ∧
  t.power = s.power ∧ t.vio = s.vio ∧ t.tbHold = s.tbHold ∧ t.jrOn = s.jrOn

/-- Only cyc may change. -/
abbrev OnlyCyc (s t : State) : Prop :=
  t.pending = s.pending ∧ t.freeIx = s.freeIx ∧ t.phase = s.phase ∧ t.straps = s.straps ∧ t.frn = s.frn ∧
  t.regs = s.regs ∧ t.snaps = s.snaps ∧ t.snapReq = s.snapReq ∧ t.snapAll = s.snapAll ∧ t.writeQ = s.writeQ ∧
  t.spi = s.spi ∧ t.i2c = s.i2c ∧ t.i2cHold = s.i2cHold ∧ t.pol = s.pol ∧ t.mem = s.mem ∧ t.jrn = s.jrn ∧
  t.lanes = s.lanes ∧ t.funcs = s.funcs ∧ t.rows = s.rows ∧ t.accs = s.accs ∧ t.parts = s.parts ∧ t.chans = s.chans ∧
  t.pkts = s.pkts ∧ t.pairs = s.pairs ∧ t.doms = s.doms ∧ t.aplls = s.aplls ∧ t.outs = s.outs ∧ t.times = s.times ∧
  t.gate = s.gate ∧ t.eths = s.eths ∧ t.ptps = s.ptps ∧ t.shelf = s.shelf ∧ t.cellar = s.cellar ∧ t.root = s.root ∧
  t.power = s.power ∧ t.vio = s.vio ∧ t.tbHold = s.tbHold ∧ t.jrOn = s.jrOn

/-- Only doms may change. -/
abbrev OnlyDoms (s t : State) : Prop :=
  t.pending = s.pending ∧ t.freeIx = s.freeIx ∧ t.phase = s.phase ∧ t.straps = s.straps ∧ t.frn = s.frn ∧
  t.cyc = s.cyc ∧ t.regs = s.regs ∧ t.snaps = s.snaps ∧ t.snapReq = s.snapReq ∧ t.snapAll = s.snapAll ∧
  t.writeQ = s.writeQ ∧ t.spi = s.spi ∧ t.i2c = s.i2c ∧ t.i2cHold = s.i2cHold ∧ t.pol = s.pol ∧ t.mem = s.mem ∧
  t.jrn = s.jrn ∧ t.lanes = s.lanes ∧ t.funcs = s.funcs ∧ t.rows = s.rows ∧ t.accs = s.accs ∧ t.parts = s.parts ∧
  t.chans = s.chans ∧ t.pkts = s.pkts ∧ t.pairs = s.pairs ∧ t.aplls = s.aplls ∧ t.outs = s.outs ∧ t.times = s.times ∧
  t.gate = s.gate ∧ t.eths = s.eths ∧ t.ptps = s.ptps ∧ t.shelf = s.shelf ∧ t.cellar = s.cellar ∧ t.root = s.root ∧
  t.power = s.power ∧ t.vio = s.vio ∧ t.tbHold = s.tbHold ∧ t.jrOn = s.jrOn

/-- Only eths may change. -/
abbrev OnlyEths (s t : State) : Prop :=
  t.pending = s.pending ∧ t.freeIx = s.freeIx ∧ t.phase = s.phase ∧ t.straps = s.straps ∧ t.frn = s.frn ∧
  t.cyc = s.cyc ∧ t.regs = s.regs ∧ t.snaps = s.snaps ∧ t.snapReq = s.snapReq ∧ t.snapAll = s.snapAll ∧
  t.writeQ = s.writeQ ∧ t.spi = s.spi ∧ t.i2c = s.i2c ∧ t.i2cHold = s.i2cHold ∧ t.pol = s.pol ∧ t.mem = s.mem ∧
  t.jrn = s.jrn ∧ t.lanes = s.lanes ∧ t.funcs = s.funcs ∧ t.rows = s.rows ∧ t.accs = s.accs ∧ t.parts = s.parts ∧
  t.chans = s.chans ∧ t.pkts = s.pkts ∧ t.pairs = s.pairs ∧ t.doms = s.doms ∧ t.aplls = s.aplls ∧ t.outs = s.outs ∧
  t.times = s.times ∧ t.gate = s.gate ∧ t.ptps = s.ptps ∧ t.shelf = s.shelf ∧ t.cellar = s.cellar ∧ t.root = s.root ∧
  t.power = s.power ∧ t.vio = s.vio ∧ t.tbHold = s.tbHold ∧ t.jrOn = s.jrOn

/-- Only freeIx may change. -/
abbrev OnlyFreeIx (s t : State) : Prop :=
  t.pending = s.pending ∧ t.phase = s.phase ∧ t.straps = s.straps ∧ t.frn = s.frn ∧ t.cyc = s.cyc ∧ t.regs = s.regs ∧
  t.snaps = s.snaps ∧ t.snapReq = s.snapReq ∧ t.snapAll = s.snapAll ∧ t.writeQ = s.writeQ ∧ t.spi = s.spi ∧
  t.i2c = s.i2c ∧ t.i2cHold = s.i2cHold ∧ t.pol = s.pol ∧ t.mem = s.mem ∧ t.jrn = s.jrn ∧ t.lanes = s.lanes ∧
  t.funcs = s.funcs ∧ t.rows = s.rows ∧ t.accs = s.accs ∧ t.parts = s.parts ∧ t.chans = s.chans ∧ t.pkts = s.pkts ∧
  t.pairs = s.pairs ∧ t.doms = s.doms ∧ t.aplls = s.aplls ∧ t.outs = s.outs ∧ t.times = s.times ∧ t.gate = s.gate ∧
  t.eths = s.eths ∧ t.ptps = s.ptps ∧ t.shelf = s.shelf ∧ t.cellar = s.cellar ∧ t.root = s.root ∧ t.power = s.power ∧
  t.vio = s.vio ∧ t.tbHold = s.tbHold ∧ t.jrOn = s.jrOn

/-- Only funcs may change. -/
abbrev OnlyFuncs (s t : State) : Prop :=
  t.pending = s.pending ∧ t.freeIx = s.freeIx ∧ t.phase = s.phase ∧ t.straps = s.straps ∧ t.frn = s.frn ∧
  t.cyc = s.cyc ∧ t.regs = s.regs ∧ t.snaps = s.snaps ∧ t.snapReq = s.snapReq ∧ t.snapAll = s.snapAll ∧
  t.writeQ = s.writeQ ∧ t.spi = s.spi ∧ t.i2c = s.i2c ∧ t.i2cHold = s.i2cHold ∧ t.pol = s.pol ∧ t.mem = s.mem ∧
  t.jrn = s.jrn ∧ t.lanes = s.lanes ∧ t.rows = s.rows ∧ t.accs = s.accs ∧ t.parts = s.parts ∧ t.chans = s.chans ∧
  t.pkts = s.pkts ∧ t.pairs = s.pairs ∧ t.doms = s.doms ∧ t.aplls = s.aplls ∧ t.outs = s.outs ∧ t.times = s.times ∧
  t.gate = s.gate ∧ t.eths = s.eths ∧ t.ptps = s.ptps ∧ t.shelf = s.shelf ∧ t.cellar = s.cellar ∧ t.root = s.root ∧
  t.power = s.power ∧ t.vio = s.vio ∧ t.tbHold = s.tbHold ∧ t.jrOn = s.jrOn

/-- Only gate may change. -/
abbrev OnlyGate (s t : State) : Prop :=
  t.pending = s.pending ∧ t.freeIx = s.freeIx ∧ t.phase = s.phase ∧ t.straps = s.straps ∧ t.frn = s.frn ∧
  t.cyc = s.cyc ∧ t.regs = s.regs ∧ t.snaps = s.snaps ∧ t.snapReq = s.snapReq ∧ t.snapAll = s.snapAll ∧
  t.writeQ = s.writeQ ∧ t.spi = s.spi ∧ t.i2c = s.i2c ∧ t.i2cHold = s.i2cHold ∧ t.pol = s.pol ∧ t.mem = s.mem ∧
  t.jrn = s.jrn ∧ t.lanes = s.lanes ∧ t.funcs = s.funcs ∧ t.rows = s.rows ∧ t.accs = s.accs ∧ t.parts = s.parts ∧
  t.chans = s.chans ∧ t.pkts = s.pkts ∧ t.pairs = s.pairs ∧ t.doms = s.doms ∧ t.aplls = s.aplls ∧ t.outs = s.outs ∧
  t.times = s.times ∧ t.eths = s.eths ∧ t.ptps = s.ptps ∧ t.shelf = s.shelf ∧ t.cellar = s.cellar ∧ t.root = s.root ∧
  t.power = s.power ∧ t.vio = s.vio ∧ t.tbHold = s.tbHold ∧ t.jrOn = s.jrOn

/-- Only jrn may change. -/
abbrev OnlyJrn (s t : State) : Prop :=
  t.pending = s.pending ∧ t.freeIx = s.freeIx ∧ t.phase = s.phase ∧ t.straps = s.straps ∧ t.frn = s.frn ∧
  t.cyc = s.cyc ∧ t.regs = s.regs ∧ t.snaps = s.snaps ∧ t.snapReq = s.snapReq ∧ t.snapAll = s.snapAll ∧
  t.writeQ = s.writeQ ∧ t.spi = s.spi ∧ t.i2c = s.i2c ∧ t.i2cHold = s.i2cHold ∧ t.pol = s.pol ∧ t.mem = s.mem ∧
  t.lanes = s.lanes ∧ t.funcs = s.funcs ∧ t.rows = s.rows ∧ t.accs = s.accs ∧ t.parts = s.parts ∧ t.chans = s.chans ∧
  t.pkts = s.pkts ∧ t.pairs = s.pairs ∧ t.doms = s.doms ∧ t.aplls = s.aplls ∧ t.outs = s.outs ∧ t.times = s.times ∧
  t.gate = s.gate ∧ t.eths = s.eths ∧ t.ptps = s.ptps ∧ t.shelf = s.shelf ∧ t.cellar = s.cellar ∧ t.root = s.root ∧
  t.power = s.power ∧ t.vio = s.vio ∧ t.tbHold = s.tbHold ∧ t.jrOn = s.jrOn

/-- Only lanes may change. -/
abbrev OnlyLanes (s t : State) : Prop :=
  t.pending = s.pending ∧ t.freeIx = s.freeIx ∧ t.phase = s.phase ∧ t.straps = s.straps ∧ t.frn = s.frn ∧
  t.cyc = s.cyc ∧ t.regs = s.regs ∧ t.snaps = s.snaps ∧ t.snapReq = s.snapReq ∧ t.snapAll = s.snapAll ∧
  t.writeQ = s.writeQ ∧ t.spi = s.spi ∧ t.i2c = s.i2c ∧ t.i2cHold = s.i2cHold ∧ t.pol = s.pol ∧ t.mem = s.mem ∧
  t.jrn = s.jrn ∧ t.funcs = s.funcs ∧ t.rows = s.rows ∧ t.accs = s.accs ∧ t.parts = s.parts ∧ t.chans = s.chans ∧
  t.pkts = s.pkts ∧ t.pairs = s.pairs ∧ t.doms = s.doms ∧ t.aplls = s.aplls ∧ t.outs = s.outs ∧ t.times = s.times ∧
  t.gate = s.gate ∧ t.eths = s.eths ∧ t.ptps = s.ptps ∧ t.shelf = s.shelf ∧ t.cellar = s.cellar ∧ t.root = s.root ∧
  t.power = s.power ∧ t.vio = s.vio ∧ t.tbHold = s.tbHold ∧ t.jrOn = s.jrOn

/-- Only mem may change. -/
abbrev OnlyMem (s t : State) : Prop :=
  t.pending = s.pending ∧ t.freeIx = s.freeIx ∧ t.phase = s.phase ∧ t.straps = s.straps ∧ t.frn = s.frn ∧
  t.cyc = s.cyc ∧ t.regs = s.regs ∧ t.snaps = s.snaps ∧ t.snapReq = s.snapReq ∧ t.snapAll = s.snapAll ∧
  t.writeQ = s.writeQ ∧ t.spi = s.spi ∧ t.i2c = s.i2c ∧ t.i2cHold = s.i2cHold ∧ t.pol = s.pol ∧ t.jrn = s.jrn ∧
  t.lanes = s.lanes ∧ t.funcs = s.funcs ∧ t.rows = s.rows ∧ t.accs = s.accs ∧ t.parts = s.parts ∧ t.chans = s.chans ∧
  t.pkts = s.pkts ∧ t.pairs = s.pairs ∧ t.doms = s.doms ∧ t.aplls = s.aplls ∧ t.outs = s.outs ∧ t.times = s.times ∧
  t.gate = s.gate ∧ t.eths = s.eths ∧ t.ptps = s.ptps ∧ t.shelf = s.shelf ∧ t.cellar = s.cellar ∧ t.root = s.root ∧
  t.power = s.power ∧ t.vio = s.vio ∧ t.tbHold = s.tbHold ∧ t.jrOn = s.jrOn

/-- Only outs may change. -/
abbrev OnlyOuts (s t : State) : Prop :=
  t.pending = s.pending ∧ t.freeIx = s.freeIx ∧ t.phase = s.phase ∧ t.straps = s.straps ∧ t.frn = s.frn ∧
  t.cyc = s.cyc ∧ t.regs = s.regs ∧ t.snaps = s.snaps ∧ t.snapReq = s.snapReq ∧ t.snapAll = s.snapAll ∧
  t.writeQ = s.writeQ ∧ t.spi = s.spi ∧ t.i2c = s.i2c ∧ t.i2cHold = s.i2cHold ∧ t.pol = s.pol ∧ t.mem = s.mem ∧
  t.jrn = s.jrn ∧ t.lanes = s.lanes ∧ t.funcs = s.funcs ∧ t.rows = s.rows ∧ t.accs = s.accs ∧ t.parts = s.parts ∧
  t.chans = s.chans ∧ t.pkts = s.pkts ∧ t.pairs = s.pairs ∧ t.doms = s.doms ∧ t.aplls = s.aplls ∧ t.times = s.times ∧
  t.gate = s.gate ∧ t.eths = s.eths ∧ t.ptps = s.ptps ∧ t.shelf = s.shelf ∧ t.cellar = s.cellar ∧ t.root = s.root ∧
  t.power = s.power ∧ t.vio = s.vio ∧ t.tbHold = s.tbHold ∧ t.jrOn = s.jrOn

/-- Only pairs may change. -/
abbrev OnlyPairs (s t : State) : Prop :=
  t.pending = s.pending ∧ t.freeIx = s.freeIx ∧ t.phase = s.phase ∧ t.straps = s.straps ∧ t.frn = s.frn ∧
  t.cyc = s.cyc ∧ t.regs = s.regs ∧ t.snaps = s.snaps ∧ t.snapReq = s.snapReq ∧ t.snapAll = s.snapAll ∧
  t.writeQ = s.writeQ ∧ t.spi = s.spi ∧ t.i2c = s.i2c ∧ t.i2cHold = s.i2cHold ∧ t.pol = s.pol ∧ t.mem = s.mem ∧
  t.jrn = s.jrn ∧ t.lanes = s.lanes ∧ t.funcs = s.funcs ∧ t.rows = s.rows ∧ t.accs = s.accs ∧ t.parts = s.parts ∧
  t.chans = s.chans ∧ t.pkts = s.pkts ∧ t.doms = s.doms ∧ t.aplls = s.aplls ∧ t.outs = s.outs ∧ t.times = s.times ∧
  t.gate = s.gate ∧ t.eths = s.eths ∧ t.ptps = s.ptps ∧ t.shelf = s.shelf ∧ t.cellar = s.cellar ∧ t.root = s.root ∧
  t.power = s.power ∧ t.vio = s.vio ∧ t.tbHold = s.tbHold ∧ t.jrOn = s.jrOn

/-- Only parts may change. -/
abbrev OnlyParts (s t : State) : Prop :=
  t.pending = s.pending ∧ t.freeIx = s.freeIx ∧ t.phase = s.phase ∧ t.straps = s.straps ∧ t.frn = s.frn ∧
  t.cyc = s.cyc ∧ t.regs = s.regs ∧ t.snaps = s.snaps ∧ t.snapReq = s.snapReq ∧ t.snapAll = s.snapAll ∧
  t.writeQ = s.writeQ ∧ t.spi = s.spi ∧ t.i2c = s.i2c ∧ t.i2cHold = s.i2cHold ∧ t.pol = s.pol ∧ t.mem = s.mem ∧
  t.jrn = s.jrn ∧ t.lanes = s.lanes ∧ t.funcs = s.funcs ∧ t.rows = s.rows ∧ t.accs = s.accs ∧ t.chans = s.chans ∧
  t.pkts = s.pkts ∧ t.pairs = s.pairs ∧ t.doms = s.doms ∧ t.aplls = s.aplls ∧ t.outs = s.outs ∧ t.times = s.times ∧
  t.gate = s.gate ∧ t.eths = s.eths ∧ t.ptps = s.ptps ∧ t.shelf = s.shelf ∧ t.cellar = s.cellar ∧ t.root = s.root ∧
  t.power = s.power ∧ t.vio = s.vio ∧ t.tbHold = s.tbHold ∧ t.jrOn = s.jrOn

/-- Only pkts may change. -/
abbrev OnlyPkts (s t : State) : Prop :=
  t.pending = s.pending ∧ t.freeIx = s.freeIx ∧ t.phase = s.phase ∧ t.straps = s.straps ∧ t.frn = s.frn ∧
  t.cyc = s.cyc ∧ t.regs = s.regs ∧ t.snaps = s.snaps ∧ t.snapReq = s.snapReq ∧ t.snapAll = s.snapAll ∧
  t.writeQ = s.writeQ ∧ t.spi = s.spi ∧ t.i2c = s.i2c ∧ t.i2cHold = s.i2cHold ∧ t.pol = s.pol ∧ t.mem = s.mem ∧
  t.jrn = s.jrn ∧ t.lanes = s.lanes ∧ t.funcs = s.funcs ∧ t.rows = s.rows ∧ t.accs = s.accs ∧ t.parts = s.parts ∧
  t.chans = s.chans ∧ t.pairs = s.pairs ∧ t.doms = s.doms ∧ t.aplls = s.aplls ∧ t.outs = s.outs ∧ t.times = s.times ∧
  t.gate = s.gate ∧ t.eths = s.eths ∧ t.ptps = s.ptps ∧ t.shelf = s.shelf ∧ t.cellar = s.cellar ∧ t.root = s.root ∧
  t.power = s.power ∧ t.vio = s.vio ∧ t.tbHold = s.tbHold ∧ t.jrOn = s.jrOn

/-- Only power may change. -/
abbrev OnlyPower (s t : State) : Prop :=
  t.pending = s.pending ∧ t.freeIx = s.freeIx ∧ t.phase = s.phase ∧ t.straps = s.straps ∧ t.frn = s.frn ∧
  t.cyc = s.cyc ∧ t.regs = s.regs ∧ t.snaps = s.snaps ∧ t.snapReq = s.snapReq ∧ t.snapAll = s.snapAll ∧
  t.writeQ = s.writeQ ∧ t.spi = s.spi ∧ t.i2c = s.i2c ∧ t.i2cHold = s.i2cHold ∧ t.pol = s.pol ∧ t.mem = s.mem ∧
  t.jrn = s.jrn ∧ t.lanes = s.lanes ∧ t.funcs = s.funcs ∧ t.rows = s.rows ∧ t.accs = s.accs ∧ t.parts = s.parts ∧
  t.chans = s.chans ∧ t.pkts = s.pkts ∧ t.pairs = s.pairs ∧ t.doms = s.doms ∧ t.aplls = s.aplls ∧ t.outs = s.outs ∧
  t.times = s.times ∧ t.gate = s.gate ∧ t.eths = s.eths ∧ t.ptps = s.ptps ∧ t.shelf = s.shelf ∧ t.cellar = s.cellar ∧
  t.root = s.root ∧ t.vio = s.vio ∧ t.tbHold = s.tbHold ∧ t.jrOn = s.jrOn

/-- Only ptps may change. -/
abbrev OnlyPtps (s t : State) : Prop :=
  t.pending = s.pending ∧ t.freeIx = s.freeIx ∧ t.phase = s.phase ∧ t.straps = s.straps ∧ t.frn = s.frn ∧
  t.cyc = s.cyc ∧ t.regs = s.regs ∧ t.snaps = s.snaps ∧ t.snapReq = s.snapReq ∧ t.snapAll = s.snapAll ∧
  t.writeQ = s.writeQ ∧ t.spi = s.spi ∧ t.i2c = s.i2c ∧ t.i2cHold = s.i2cHold ∧ t.pol = s.pol ∧ t.mem = s.mem ∧
  t.jrn = s.jrn ∧ t.lanes = s.lanes ∧ t.funcs = s.funcs ∧ t.rows = s.rows ∧ t.accs = s.accs ∧ t.parts = s.parts ∧
  t.chans = s.chans ∧ t.pkts = s.pkts ∧ t.pairs = s.pairs ∧ t.doms = s.doms ∧ t.aplls = s.aplls ∧ t.outs = s.outs ∧
  t.times = s.times ∧ t.gate = s.gate ∧ t.eths = s.eths ∧ t.shelf = s.shelf ∧ t.cellar = s.cellar ∧ t.root = s.root ∧
  t.power = s.power ∧ t.vio = s.vio ∧ t.tbHold = s.tbHold ∧ t.jrOn = s.jrOn

/-- Only regs may change. -/
abbrev OnlyRegs (s t : State) : Prop :=
  t.pending = s.pending ∧ t.freeIx = s.freeIx ∧ t.phase = s.phase ∧ t.straps = s.straps ∧ t.frn = s.frn ∧
  t.cyc = s.cyc ∧ t.snaps = s.snaps ∧ t.snapReq = s.snapReq ∧ t.snapAll = s.snapAll ∧ t.writeQ = s.writeQ ∧
  t.spi = s.spi ∧ t.i2c = s.i2c ∧ t.i2cHold = s.i2cHold ∧ t.pol = s.pol ∧ t.mem = s.mem ∧ t.jrn = s.jrn ∧
  t.lanes = s.lanes ∧ t.funcs = s.funcs ∧ t.rows = s.rows ∧ t.accs = s.accs ∧ t.parts = s.parts ∧ t.chans = s.chans ∧
  t.pkts = s.pkts ∧ t.pairs = s.pairs ∧ t.doms = s.doms ∧ t.aplls = s.aplls ∧ t.outs = s.outs ∧ t.times = s.times ∧
  t.gate = s.gate ∧ t.eths = s.eths ∧ t.ptps = s.ptps ∧ t.shelf = s.shelf ∧ t.cellar = s.cellar ∧ t.root = s.root ∧
  t.power = s.power ∧ t.vio = s.vio ∧ t.tbHold = s.tbHold ∧ t.jrOn = s.jrOn

/-- Only root may change. -/
abbrev OnlyRoot (s t : State) : Prop :=
  t.pending = s.pending ∧ t.freeIx = s.freeIx ∧ t.phase = s.phase ∧ t.straps = s.straps ∧ t.frn = s.frn ∧
  t.cyc = s.cyc ∧ t.regs = s.regs ∧ t.snaps = s.snaps ∧ t.snapReq = s.snapReq ∧ t.snapAll = s.snapAll ∧
  t.writeQ = s.writeQ ∧ t.spi = s.spi ∧ t.i2c = s.i2c ∧ t.i2cHold = s.i2cHold ∧ t.pol = s.pol ∧ t.mem = s.mem ∧
  t.jrn = s.jrn ∧ t.lanes = s.lanes ∧ t.funcs = s.funcs ∧ t.rows = s.rows ∧ t.accs = s.accs ∧ t.parts = s.parts ∧
  t.chans = s.chans ∧ t.pkts = s.pkts ∧ t.pairs = s.pairs ∧ t.doms = s.doms ∧ t.aplls = s.aplls ∧ t.outs = s.outs ∧
  t.times = s.times ∧ t.gate = s.gate ∧ t.eths = s.eths ∧ t.ptps = s.ptps ∧ t.shelf = s.shelf ∧ t.cellar = s.cellar ∧
  t.power = s.power ∧ t.vio = s.vio ∧ t.tbHold = s.tbHold ∧ t.jrOn = s.jrOn

/-- Only rows may change. -/
abbrev OnlyRows (s t : State) : Prop :=
  t.pending = s.pending ∧ t.freeIx = s.freeIx ∧ t.phase = s.phase ∧ t.straps = s.straps ∧ t.frn = s.frn ∧
  t.cyc = s.cyc ∧ t.regs = s.regs ∧ t.snaps = s.snaps ∧ t.snapReq = s.snapReq ∧ t.snapAll = s.snapAll ∧
  t.writeQ = s.writeQ ∧ t.spi = s.spi ∧ t.i2c = s.i2c ∧ t.i2cHold = s.i2cHold ∧ t.pol = s.pol ∧ t.mem = s.mem ∧
  t.jrn = s.jrn ∧ t.lanes = s.lanes ∧ t.funcs = s.funcs ∧ t.accs = s.accs ∧ t.parts = s.parts ∧ t.chans = s.chans ∧
  t.pkts = s.pkts ∧ t.pairs = s.pairs ∧ t.doms = s.doms ∧ t.aplls = s.aplls ∧ t.outs = s.outs ∧ t.times = s.times ∧
  t.gate = s.gate ∧ t.eths = s.eths ∧ t.ptps = s.ptps ∧ t.shelf = s.shelf ∧ t.cellar = s.cellar ∧ t.root = s.root ∧
  t.power = s.power ∧ t.vio = s.vio ∧ t.tbHold = s.tbHold ∧ t.jrOn = s.jrOn

/-- Only shelf may change. -/
abbrev OnlyShelf (s t : State) : Prop :=
  t.pending = s.pending ∧ t.freeIx = s.freeIx ∧ t.phase = s.phase ∧ t.straps = s.straps ∧ t.frn = s.frn ∧
  t.cyc = s.cyc ∧ t.regs = s.regs ∧ t.snaps = s.snaps ∧ t.snapReq = s.snapReq ∧ t.snapAll = s.snapAll ∧
  t.writeQ = s.writeQ ∧ t.spi = s.spi ∧ t.i2c = s.i2c ∧ t.i2cHold = s.i2cHold ∧ t.pol = s.pol ∧ t.mem = s.mem ∧
  t.jrn = s.jrn ∧ t.lanes = s.lanes ∧ t.funcs = s.funcs ∧ t.rows = s.rows ∧ t.accs = s.accs ∧ t.parts = s.parts ∧
  t.chans = s.chans ∧ t.pkts = s.pkts ∧ t.pairs = s.pairs ∧ t.doms = s.doms ∧ t.aplls = s.aplls ∧ t.outs = s.outs ∧
  t.times = s.times ∧ t.gate = s.gate ∧ t.eths = s.eths ∧ t.ptps = s.ptps ∧ t.cellar = s.cellar ∧ t.root = s.root ∧
  t.power = s.power ∧ t.vio = s.vio ∧ t.tbHold = s.tbHold ∧ t.jrOn = s.jrOn

/-- Only snapAll may change. -/
abbrev OnlySnapAll (s t : State) : Prop :=
  t.pending = s.pending ∧ t.freeIx = s.freeIx ∧ t.phase = s.phase ∧ t.straps = s.straps ∧ t.frn = s.frn ∧
  t.cyc = s.cyc ∧ t.regs = s.regs ∧ t.snaps = s.snaps ∧ t.snapReq = s.snapReq ∧ t.writeQ = s.writeQ ∧ t.spi = s.spi ∧
  t.i2c = s.i2c ∧ t.i2cHold = s.i2cHold ∧ t.pol = s.pol ∧ t.mem = s.mem ∧ t.jrn = s.jrn ∧ t.lanes = s.lanes ∧
  t.funcs = s.funcs ∧ t.rows = s.rows ∧ t.accs = s.accs ∧ t.parts = s.parts ∧ t.chans = s.chans ∧ t.pkts = s.pkts ∧
  t.pairs = s.pairs ∧ t.doms = s.doms ∧ t.aplls = s.aplls ∧ t.outs = s.outs ∧ t.times = s.times ∧ t.gate = s.gate ∧
  t.eths = s.eths ∧ t.ptps = s.ptps ∧ t.shelf = s.shelf ∧ t.cellar = s.cellar ∧ t.root = s.root ∧ t.power = s.power ∧
  t.vio = s.vio ∧ t.tbHold = s.tbHold ∧ t.jrOn = s.jrOn

/-- Only snapReq may change. -/
abbrev OnlySnapReq (s t : State) : Prop :=
  t.pending = s.pending ∧ t.freeIx = s.freeIx ∧ t.phase = s.phase ∧ t.straps = s.straps ∧ t.frn = s.frn ∧
  t.cyc = s.cyc ∧ t.regs = s.regs ∧ t.snaps = s.snaps ∧ t.snapAll = s.snapAll ∧ t.writeQ = s.writeQ ∧ t.spi = s.spi ∧
  t.i2c = s.i2c ∧ t.i2cHold = s.i2cHold ∧ t.pol = s.pol ∧ t.mem = s.mem ∧ t.jrn = s.jrn ∧ t.lanes = s.lanes ∧
  t.funcs = s.funcs ∧ t.rows = s.rows ∧ t.accs = s.accs ∧ t.parts = s.parts ∧ t.chans = s.chans ∧ t.pkts = s.pkts ∧
  t.pairs = s.pairs ∧ t.doms = s.doms ∧ t.aplls = s.aplls ∧ t.outs = s.outs ∧ t.times = s.times ∧ t.gate = s.gate ∧
  t.eths = s.eths ∧ t.ptps = s.ptps ∧ t.shelf = s.shelf ∧ t.cellar = s.cellar ∧ t.root = s.root ∧ t.power = s.power ∧
  t.vio = s.vio ∧ t.tbHold = s.tbHold ∧ t.jrOn = s.jrOn

/-- Only times may change. -/
abbrev OnlyTimes (s t : State) : Prop :=
  t.pending = s.pending ∧ t.freeIx = s.freeIx ∧ t.phase = s.phase ∧ t.straps = s.straps ∧ t.frn = s.frn ∧
  t.cyc = s.cyc ∧ t.regs = s.regs ∧ t.snaps = s.snaps ∧ t.snapReq = s.snapReq ∧ t.snapAll = s.snapAll ∧
  t.writeQ = s.writeQ ∧ t.spi = s.spi ∧ t.i2c = s.i2c ∧ t.i2cHold = s.i2cHold ∧ t.pol = s.pol ∧ t.mem = s.mem ∧
  t.jrn = s.jrn ∧ t.lanes = s.lanes ∧ t.funcs = s.funcs ∧ t.rows = s.rows ∧ t.accs = s.accs ∧ t.parts = s.parts ∧
  t.chans = s.chans ∧ t.pkts = s.pkts ∧ t.pairs = s.pairs ∧ t.doms = s.doms ∧ t.aplls = s.aplls ∧ t.outs = s.outs ∧
  t.gate = s.gate ∧ t.eths = s.eths ∧ t.ptps = s.ptps ∧ t.shelf = s.shelf ∧ t.cellar = s.cellar ∧ t.root = s.root ∧
  t.power = s.power ∧ t.vio = s.vio ∧ t.tbHold = s.tbHold ∧ t.jrOn = s.jrOn

/-- Only freeIx, regs may change. -/
abbrev OnlyFreeIxRegs (s t : State) : Prop :=
  t.pending = s.pending ∧ t.phase = s.phase ∧ t.straps = s.straps ∧ t.frn = s.frn ∧ t.cyc = s.cyc ∧
  t.snaps = s.snaps ∧ t.snapReq = s.snapReq ∧ t.snapAll = s.snapAll ∧ t.writeQ = s.writeQ ∧ t.spi = s.spi ∧
  t.i2c = s.i2c ∧ t.i2cHold = s.i2cHold ∧ t.pol = s.pol ∧ t.mem = s.mem ∧ t.jrn = s.jrn ∧ t.lanes = s.lanes ∧
  t.funcs = s.funcs ∧ t.rows = s.rows ∧ t.accs = s.accs ∧ t.parts = s.parts ∧ t.chans = s.chans ∧ t.pkts = s.pkts ∧
  t.pairs = s.pairs ∧ t.doms = s.doms ∧ t.aplls = s.aplls ∧ t.outs = s.outs ∧ t.times = s.times ∧ t.gate = s.gate ∧
  t.eths = s.eths ∧ t.ptps = s.ptps ∧ t.shelf = s.shelf ∧ t.cellar = s.cellar ∧ t.root = s.root ∧ t.power = s.power ∧
  t.vio = s.vio ∧ t.tbHold = s.tbHold ∧ t.jrOn = s.jrOn

/-- Only freeIx, times may change. -/
abbrev OnlyFreeIxTimes (s t : State) : Prop :=
  t.pending = s.pending ∧ t.phase = s.phase ∧ t.straps = s.straps ∧ t.frn = s.frn ∧ t.cyc = s.cyc ∧ t.regs = s.regs ∧
  t.snaps = s.snaps ∧ t.snapReq = s.snapReq ∧ t.snapAll = s.snapAll ∧ t.writeQ = s.writeQ ∧ t.spi = s.spi ∧
  t.i2c = s.i2c ∧ t.i2cHold = s.i2cHold ∧ t.pol = s.pol ∧ t.mem = s.mem ∧ t.jrn = s.jrn ∧ t.lanes = s.lanes ∧
  t.funcs = s.funcs ∧ t.rows = s.rows ∧ t.accs = s.accs ∧ t.parts = s.parts ∧ t.chans = s.chans ∧ t.pkts = s.pkts ∧
  t.pairs = s.pairs ∧ t.doms = s.doms ∧ t.aplls = s.aplls ∧ t.outs = s.outs ∧ t.gate = s.gate ∧ t.eths = s.eths ∧
  t.ptps = s.ptps ∧ t.shelf = s.shelf ∧ t.cellar = s.cellar ∧ t.root = s.root ∧ t.power = s.power ∧ t.vio = s.vio ∧
  t.tbHold = s.tbHold ∧ t.jrOn = s.jrOn

/-- Only lanes, funcs may change. -/
abbrev OnlyLanesFuncs (s t : State) : Prop :=
  t.pending = s.pending ∧ t.freeIx = s.freeIx ∧ t.phase = s.phase ∧ t.straps = s.straps ∧ t.frn = s.frn ∧
  t.cyc = s.cyc ∧ t.regs = s.regs ∧ t.snaps = s.snaps ∧ t.snapReq = s.snapReq ∧ t.snapAll = s.snapAll ∧
  t.writeQ = s.writeQ ∧ t.spi = s.spi ∧ t.i2c = s.i2c ∧ t.i2cHold = s.i2cHold ∧ t.pol = s.pol ∧ t.mem = s.mem ∧
  t.jrn = s.jrn ∧ t.rows = s.rows ∧ t.accs = s.accs ∧ t.parts = s.parts ∧ t.chans = s.chans ∧ t.pkts = s.pkts ∧
  t.pairs = s.pairs ∧ t.doms = s.doms ∧ t.aplls = s.aplls ∧ t.outs = s.outs ∧ t.times = s.times ∧ t.gate = s.gate ∧
  t.eths = s.eths ∧ t.ptps = s.ptps ∧ t.shelf = s.shelf ∧ t.cellar = s.cellar ∧ t.root = s.root ∧ t.power = s.power ∧
  t.vio = s.vio ∧ t.tbHold = s.tbHold ∧ t.jrOn = s.jrOn

/-- Only mem, cellar may change. -/
abbrev OnlyMemCellar (s t : State) : Prop :=
  t.pending = s.pending ∧ t.freeIx = s.freeIx ∧ t.phase = s.phase ∧ t.straps = s.straps ∧ t.frn = s.frn ∧
  t.cyc = s.cyc ∧ t.regs = s.regs ∧ t.snaps = s.snaps ∧ t.snapReq = s.snapReq ∧ t.snapAll = s.snapAll ∧
  t.writeQ = s.writeQ ∧ t.spi = s.spi ∧ t.i2c = s.i2c ∧ t.i2cHold = s.i2cHold ∧ t.pol = s.pol ∧ t.jrn = s.jrn ∧
  t.lanes = s.lanes ∧ t.funcs = s.funcs ∧ t.rows = s.rows ∧ t.accs = s.accs ∧ t.parts = s.parts ∧ t.chans = s.chans ∧
  t.pkts = s.pkts ∧ t.pairs = s.pairs ∧ t.doms = s.doms ∧ t.aplls = s.aplls ∧ t.outs = s.outs ∧ t.times = s.times ∧
  t.gate = s.gate ∧ t.eths = s.eths ∧ t.ptps = s.ptps ∧ t.shelf = s.shelf ∧ t.root = s.root ∧ t.power = s.power ∧
  t.vio = s.vio ∧ t.tbHold = s.tbHold ∧ t.jrOn = s.jrOn

/-- Only regs, aplls may change. -/
abbrev OnlyRegsAplls (s t : State) : Prop :=
  t.pending = s.pending ∧ t.freeIx = s.freeIx ∧ t.phase = s.phase ∧ t.straps = s.straps ∧ t.frn = s.frn ∧
  t.cyc = s.cyc ∧ t.snaps = s.snaps ∧ t.snapReq = s.snapReq ∧ t.snapAll = s.snapAll ∧ t.writeQ = s.writeQ ∧
  t.spi = s.spi ∧ t.i2c = s.i2c ∧ t.i2cHold = s.i2cHold ∧ t.pol = s.pol ∧ t.mem = s.mem ∧ t.jrn = s.jrn ∧
  t.lanes = s.lanes ∧ t.funcs = s.funcs ∧ t.rows = s.rows ∧ t.accs = s.accs ∧ t.parts = s.parts ∧ t.chans = s.chans ∧
  t.pkts = s.pkts ∧ t.pairs = s.pairs ∧ t.doms = s.doms ∧ t.outs = s.outs ∧ t.times = s.times ∧ t.gate = s.gate ∧
  t.eths = s.eths ∧ t.ptps = s.ptps ∧ t.shelf = s.shelf ∧ t.cellar = s.cellar ∧ t.root = s.root ∧ t.power = s.power ∧
  t.vio = s.vio ∧ t.tbHold = s.tbHold ∧ t.jrOn = s.jrOn

/-- Only regs, cellar may change. -/
abbrev OnlyRegsCellar (s t : State) : Prop :=
  t.pending = s.pending ∧ t.freeIx = s.freeIx ∧ t.phase = s.phase ∧ t.straps = s.straps ∧ t.frn = s.frn ∧
  t.cyc = s.cyc ∧ t.snaps = s.snaps ∧ t.snapReq = s.snapReq ∧ t.snapAll = s.snapAll ∧ t.writeQ = s.writeQ ∧
  t.spi = s.spi ∧ t.i2c = s.i2c ∧ t.i2cHold = s.i2cHold ∧ t.pol = s.pol ∧ t.mem = s.mem ∧ t.jrn = s.jrn ∧
  t.lanes = s.lanes ∧ t.funcs = s.funcs ∧ t.rows = s.rows ∧ t.accs = s.accs ∧ t.parts = s.parts ∧ t.chans = s.chans ∧
  t.pkts = s.pkts ∧ t.pairs = s.pairs ∧ t.doms = s.doms ∧ t.aplls = s.aplls ∧ t.outs = s.outs ∧ t.times = s.times ∧
  t.gate = s.gate ∧ t.eths = s.eths ∧ t.ptps = s.ptps ∧ t.shelf = s.shelf ∧ t.root = s.root ∧ t.power = s.power ∧
  t.vio = s.vio ∧ t.tbHold = s.tbHold ∧ t.jrOn = s.jrOn

/-- Only regs, chans may change. -/
abbrev OnlyRegsChans (s t : State) : Prop :=
  t.pending = s.pending ∧ t.freeIx = s.freeIx ∧ t.phase = s.phase ∧ t.straps = s.straps ∧ t.frn = s.frn ∧
  t.cyc = s.cyc ∧ t.snaps = s.snaps ∧ t.snapReq = s.snapReq ∧ t.snapAll = s.snapAll ∧ t.writeQ = s.writeQ ∧
  t.spi = s.spi ∧ t.i2c = s.i2c ∧ t.i2cHold = s.i2cHold ∧ t.pol = s.pol ∧ t.mem = s.mem ∧ t.jrn = s.jrn ∧
  t.lanes = s.lanes ∧ t.funcs = s.funcs ∧ t.rows = s.rows ∧ t.accs = s.accs ∧ t.parts = s.parts ∧ t.pkts = s.pkts ∧
  t.pairs = s.pairs ∧ t.doms = s.doms ∧ t.aplls = s.aplls ∧ t.outs = s.outs ∧ t.times = s.times ∧ t.gate = s.gate ∧
  t.eths = s.eths ∧ t.ptps = s.ptps ∧ t.shelf = s.shelf ∧ t.cellar = s.cellar ∧ t.root = s.root ∧ t.power = s.power ∧
  t.vio = s.vio ∧ t.tbHold = s.tbHold ∧ t.jrOn = s.jrOn

/-- Only regs, doms may change. -/
abbrev OnlyRegsDoms (s t : State) : Prop :=
  t.pending = s.pending ∧ t.freeIx = s.freeIx ∧ t.phase = s.phase ∧ t.straps = s.straps ∧ t.frn = s.frn ∧
  t.cyc = s.cyc ∧ t.snaps = s.snaps ∧ t.snapReq = s.snapReq ∧ t.snapAll = s.snapAll ∧ t.writeQ = s.writeQ ∧
  t.spi = s.spi ∧ t.i2c = s.i2c ∧ t.i2cHold = s.i2cHold ∧ t.pol = s.pol ∧ t.mem = s.mem ∧ t.jrn = s.jrn ∧
  t.lanes = s.lanes ∧ t.funcs = s.funcs ∧ t.rows = s.rows ∧ t.accs = s.accs ∧ t.parts = s.parts ∧ t.chans = s.chans ∧
  t.pkts = s.pkts ∧ t.pairs = s.pairs ∧ t.aplls = s.aplls ∧ t.outs = s.outs ∧ t.times = s.times ∧ t.gate = s.gate ∧
  t.eths = s.eths ∧ t.ptps = s.ptps ∧ t.shelf = s.shelf ∧ t.cellar = s.cellar ∧ t.root = s.root ∧ t.power = s.power ∧
  t.vio = s.vio ∧ t.tbHold = s.tbHold ∧ t.jrOn = s.jrOn

/-- Only regs, eths may change. -/
abbrev OnlyRegsEths (s t : State) : Prop :=
  t.pending = s.pending ∧ t.freeIx = s.freeIx ∧ t.phase = s.phase ∧ t.straps = s.straps ∧ t.frn = s.frn ∧
  t.cyc = s.cyc ∧ t.snaps = s.snaps ∧ t.snapReq = s.snapReq ∧ t.snapAll = s.snapAll ∧ t.writeQ = s.writeQ ∧
  t.spi = s.spi ∧ t.i2c = s.i2c ∧ t.i2cHold = s.i2cHold ∧ t.pol = s.pol ∧ t.mem = s.mem ∧ t.jrn = s.jrn ∧
  t.lanes = s.lanes ∧ t.funcs = s.funcs ∧ t.rows = s.rows ∧ t.accs = s.accs ∧ t.parts = s.parts ∧ t.chans = s.chans ∧
  t.pkts = s.pkts ∧ t.pairs = s.pairs ∧ t.doms = s.doms ∧ t.aplls = s.aplls ∧ t.outs = s.outs ∧ t.times = s.times ∧
  t.gate = s.gate ∧ t.ptps = s.ptps ∧ t.shelf = s.shelf ∧ t.cellar = s.cellar ∧ t.root = s.root ∧ t.power = s.power ∧
  t.vio = s.vio ∧ t.tbHold = s.tbHold ∧ t.jrOn = s.jrOn

/-- Only regs, funcs may change. -/
abbrev OnlyRegsFuncs (s t : State) : Prop :=
  t.pending = s.pending ∧ t.freeIx = s.freeIx ∧ t.phase = s.phase ∧ t.straps = s.straps ∧ t.frn = s.frn ∧
  t.cyc = s.cyc ∧ t.snaps = s.snaps ∧ t.snapReq = s.snapReq ∧ t.snapAll = s.snapAll ∧ t.writeQ = s.writeQ ∧
  t.spi = s.spi ∧ t.i2c = s.i2c ∧ t.i2cHold = s.i2cHold ∧ t.pol = s.pol ∧ t.mem = s.mem ∧ t.jrn = s.jrn ∧
  t.lanes = s.lanes ∧ t.rows = s.rows ∧ t.accs = s.accs ∧ t.parts = s.parts ∧ t.chans = s.chans ∧ t.pkts = s.pkts ∧
  t.pairs = s.pairs ∧ t.doms = s.doms ∧ t.aplls = s.aplls ∧ t.outs = s.outs ∧ t.times = s.times ∧ t.gate = s.gate ∧
  t.eths = s.eths ∧ t.ptps = s.ptps ∧ t.shelf = s.shelf ∧ t.cellar = s.cellar ∧ t.root = s.root ∧ t.power = s.power ∧
  t.vio = s.vio ∧ t.tbHold = s.tbHold ∧ t.jrOn = s.jrOn

/-- Only regs, gate may change. -/
abbrev OnlyRegsGate (s t : State) : Prop :=
  t.pending = s.pending ∧ t.freeIx = s.freeIx ∧ t.phase = s.phase ∧ t.straps = s.straps ∧ t.frn = s.frn ∧
  t.cyc = s.cyc ∧ t.snaps = s.snaps ∧ t.snapReq = s.snapReq ∧ t.snapAll = s.snapAll ∧ t.writeQ = s.writeQ ∧
  t.spi = s.spi ∧ t.i2c = s.i2c ∧ t.i2cHold = s.i2cHold ∧ t.pol = s.pol ∧ t.mem = s.mem ∧ t.jrn = s.jrn ∧
  t.lanes = s.lanes ∧ t.funcs = s.funcs ∧ t.rows = s.rows ∧ t.accs = s.accs ∧ t.parts = s.parts ∧ t.chans = s.chans ∧
  t.pkts = s.pkts ∧ t.pairs = s.pairs ∧ t.doms = s.doms ∧ t.aplls = s.aplls ∧ t.outs = s.outs ∧ t.times = s.times ∧
  t.eths = s.eths ∧ t.ptps = s.ptps ∧ t.shelf = s.shelf ∧ t.cellar = s.cellar ∧ t.root = s.root ∧ t.power = s.power ∧
  t.vio = s.vio ∧ t.tbHold = s.tbHold ∧ t.jrOn = s.jrOn

/-- Only regs, jrn may change. -/
abbrev OnlyRegsJrn (s t : State) : Prop :=
  t.pending = s.pending ∧ t.freeIx = s.freeIx ∧ t.phase = s.phase ∧ t.straps = s.straps ∧ t.frn = s.frn ∧
  t.cyc = s.cyc ∧ t.snaps = s.snaps ∧ t.snapReq = s.snapReq ∧ t.snapAll = s.snapAll ∧ t.writeQ = s.writeQ ∧
  t.spi = s.spi ∧ t.i2c = s.i2c ∧ t.i2cHold = s.i2cHold ∧ t.pol = s.pol ∧ t.mem = s.mem ∧ t.lanes = s.lanes ∧
  t.funcs = s.funcs ∧ t.rows = s.rows ∧ t.accs = s.accs ∧ t.parts = s.parts ∧ t.chans = s.chans ∧ t.pkts = s.pkts ∧
  t.pairs = s.pairs ∧ t.doms = s.doms ∧ t.aplls = s.aplls ∧ t.outs = s.outs ∧ t.times = s.times ∧ t.gate = s.gate ∧
  t.eths = s.eths ∧ t.ptps = s.ptps ∧ t.shelf = s.shelf ∧ t.cellar = s.cellar ∧ t.root = s.root ∧ t.power = s.power ∧
  t.vio = s.vio ∧ t.tbHold = s.tbHold ∧ t.jrOn = s.jrOn

/-- Only regs, lanes may change. -/
abbrev OnlyRegsLanes (s t : State) : Prop :=
  t.pending = s.pending ∧ t.freeIx = s.freeIx ∧ t.phase = s.phase ∧ t.straps = s.straps ∧ t.frn = s.frn ∧
  t.cyc = s.cyc ∧ t.snaps = s.snaps ∧ t.snapReq = s.snapReq ∧ t.snapAll = s.snapAll ∧ t.writeQ = s.writeQ ∧
  t.spi = s.spi ∧ t.i2c = s.i2c ∧ t.i2cHold = s.i2cHold ∧ t.pol = s.pol ∧ t.mem = s.mem ∧ t.jrn = s.jrn ∧
  t.funcs = s.funcs ∧ t.rows = s.rows ∧ t.accs = s.accs ∧ t.parts = s.parts ∧ t.chans = s.chans ∧ t.pkts = s.pkts ∧
  t.pairs = s.pairs ∧ t.doms = s.doms ∧ t.aplls = s.aplls ∧ t.outs = s.outs ∧ t.times = s.times ∧ t.gate = s.gate ∧
  t.eths = s.eths ∧ t.ptps = s.ptps ∧ t.shelf = s.shelf ∧ t.cellar = s.cellar ∧ t.root = s.root ∧ t.power = s.power ∧
  t.vio = s.vio ∧ t.tbHold = s.tbHold ∧ t.jrOn = s.jrOn

/-- Only regs, mem may change. -/
abbrev OnlyRegsMem (s t : State) : Prop :=
  t.pending = s.pending ∧ t.freeIx = s.freeIx ∧ t.phase = s.phase ∧ t.straps = s.straps ∧ t.frn = s.frn ∧
  t.cyc = s.cyc ∧ t.snaps = s.snaps ∧ t.snapReq = s.snapReq ∧ t.snapAll = s.snapAll ∧ t.writeQ = s.writeQ ∧
  t.spi = s.spi ∧ t.i2c = s.i2c ∧ t.i2cHold = s.i2cHold ∧ t.pol = s.pol ∧ t.jrn = s.jrn ∧ t.lanes = s.lanes ∧
  t.funcs = s.funcs ∧ t.rows = s.rows ∧ t.accs = s.accs ∧ t.parts = s.parts ∧ t.chans = s.chans ∧ t.pkts = s.pkts ∧
  t.pairs = s.pairs ∧ t.doms = s.doms ∧ t.aplls = s.aplls ∧ t.outs = s.outs ∧ t.times = s.times ∧ t.gate = s.gate ∧
  t.eths = s.eths ∧ t.ptps = s.ptps ∧ t.shelf = s.shelf ∧ t.cellar = s.cellar ∧ t.root = s.root ∧ t.power = s.power ∧
  t.vio = s.vio ∧ t.tbHold = s.tbHold ∧ t.jrOn = s.jrOn

/-- Only regs, outs may change. -/
abbrev OnlyRegsOuts (s t : State) : Prop :=
  t.pending = s.pending ∧ t.freeIx = s.freeIx ∧ t.phase = s.phase ∧ t.straps = s.straps ∧ t.frn = s.frn ∧
  t.cyc = s.cyc ∧ t.snaps = s.snaps ∧ t.snapReq = s.snapReq ∧ t.snapAll = s.snapAll ∧ t.writeQ = s.writeQ ∧
  t.spi = s.spi ∧ t.i2c = s.i2c ∧ t.i2cHold = s.i2cHold ∧ t.pol = s.pol ∧ t.mem = s.mem ∧ t.jrn = s.jrn ∧
  t.lanes = s.lanes ∧ t.funcs = s.funcs ∧ t.rows = s.rows ∧ t.accs = s.accs ∧ t.parts = s.parts ∧ t.chans = s.chans ∧
  t.pkts = s.pkts ∧ t.pairs = s.pairs ∧ t.doms = s.doms ∧ t.aplls = s.aplls ∧ t.times = s.times ∧ t.gate = s.gate ∧
  t.eths = s.eths ∧ t.ptps = s.ptps ∧ t.shelf = s.shelf ∧ t.cellar = s.cellar ∧ t.root = s.root ∧ t.power = s.power ∧
  t.vio = s.vio ∧ t.tbHold = s.tbHold ∧ t.jrOn = s.jrOn

/-- Only regs, parts may change. -/
abbrev OnlyRegsParts (s t : State) : Prop :=
  t.pending = s.pending ∧ t.freeIx = s.freeIx ∧ t.phase = s.phase ∧ t.straps = s.straps ∧ t.frn = s.frn ∧
  t.cyc = s.cyc ∧ t.snaps = s.snaps ∧ t.snapReq = s.snapReq ∧ t.snapAll = s.snapAll ∧ t.writeQ = s.writeQ ∧
  t.spi = s.spi ∧ t.i2c = s.i2c ∧ t.i2cHold = s.i2cHold ∧ t.pol = s.pol ∧ t.mem = s.mem ∧ t.jrn = s.jrn ∧
  t.lanes = s.lanes ∧ t.funcs = s.funcs ∧ t.rows = s.rows ∧ t.accs = s.accs ∧ t.chans = s.chans ∧ t.pkts = s.pkts ∧
  t.pairs = s.pairs ∧ t.doms = s.doms ∧ t.aplls = s.aplls ∧ t.outs = s.outs ∧ t.times = s.times ∧ t.gate = s.gate ∧
  t.eths = s.eths ∧ t.ptps = s.ptps ∧ t.shelf = s.shelf ∧ t.cellar = s.cellar ∧ t.root = s.root ∧ t.power = s.power ∧
  t.vio = s.vio ∧ t.tbHold = s.tbHold ∧ t.jrOn = s.jrOn

/-- Only regs, pol may change. -/
abbrev OnlyRegsPol (s t : State) : Prop :=
  t.pending = s.pending ∧ t.freeIx = s.freeIx ∧ t.phase = s.phase ∧ t.straps = s.straps ∧ t.frn = s.frn ∧
  t.cyc = s.cyc ∧ t.snaps = s.snaps ∧ t.snapReq = s.snapReq ∧ t.snapAll = s.snapAll ∧ t.writeQ = s.writeQ ∧
  t.spi = s.spi ∧ t.i2c = s.i2c ∧ t.i2cHold = s.i2cHold ∧ t.mem = s.mem ∧ t.jrn = s.jrn ∧ t.lanes = s.lanes ∧
  t.funcs = s.funcs ∧ t.rows = s.rows ∧ t.accs = s.accs ∧ t.parts = s.parts ∧ t.chans = s.chans ∧ t.pkts = s.pkts ∧
  t.pairs = s.pairs ∧ t.doms = s.doms ∧ t.aplls = s.aplls ∧ t.outs = s.outs ∧ t.times = s.times ∧ t.gate = s.gate ∧
  t.eths = s.eths ∧ t.ptps = s.ptps ∧ t.shelf = s.shelf ∧ t.cellar = s.cellar ∧ t.root = s.root ∧ t.power = s.power ∧
  t.vio = s.vio ∧ t.tbHold = s.tbHold ∧ t.jrOn = s.jrOn

/-- Only regs, power may change. -/
abbrev OnlyRegsPower (s t : State) : Prop :=
  t.pending = s.pending ∧ t.freeIx = s.freeIx ∧ t.phase = s.phase ∧ t.straps = s.straps ∧ t.frn = s.frn ∧
  t.cyc = s.cyc ∧ t.snaps = s.snaps ∧ t.snapReq = s.snapReq ∧ t.snapAll = s.snapAll ∧ t.writeQ = s.writeQ ∧
  t.spi = s.spi ∧ t.i2c = s.i2c ∧ t.i2cHold = s.i2cHold ∧ t.pol = s.pol ∧ t.mem = s.mem ∧ t.jrn = s.jrn ∧
  t.lanes = s.lanes ∧ t.funcs = s.funcs ∧ t.rows = s.rows ∧ t.accs = s.accs ∧ t.parts = s.parts ∧ t.chans = s.chans ∧
  t.pkts = s.pkts ∧ t.pairs = s.pairs ∧ t.doms = s.doms ∧ t.aplls = s.aplls ∧ t.outs = s.outs ∧ t.times = s.times ∧
  t.gate = s.gate ∧ t.eths = s.eths ∧ t.ptps = s.ptps ∧ t.shelf = s.shelf ∧ t.cellar = s.cellar ∧ t.root = s.root ∧
  t.vio = s.vio ∧ t.tbHold = s.tbHold ∧ t.jrOn = s.jrOn

/-- Only regs, ptps may change. -/
abbrev OnlyRegsPtps (s t : State) : Prop :=
  t.pending = s.pending ∧ t.freeIx = s.freeIx ∧ t.phase = s.phase ∧ t.straps = s.straps ∧ t.frn = s.frn ∧
  t.cyc = s.cyc ∧ t.snaps = s.snaps ∧ t.snapReq = s.snapReq ∧ t.snapAll = s.snapAll ∧ t.writeQ = s.writeQ ∧
  t.spi = s.spi ∧ t.i2c = s.i2c ∧ t.i2cHold = s.i2cHold ∧ t.pol = s.pol ∧ t.mem = s.mem ∧ t.jrn = s.jrn ∧
  t.lanes = s.lanes ∧ t.funcs = s.funcs ∧ t.rows = s.rows ∧ t.accs = s.accs ∧ t.parts = s.parts ∧ t.chans = s.chans ∧
  t.pkts = s.pkts ∧ t.pairs = s.pairs ∧ t.doms = s.doms ∧ t.aplls = s.aplls ∧ t.outs = s.outs ∧ t.times = s.times ∧
  t.gate = s.gate ∧ t.eths = s.eths ∧ t.shelf = s.shelf ∧ t.cellar = s.cellar ∧ t.root = s.root ∧ t.power = s.power ∧
  t.vio = s.vio ∧ t.tbHold = s.tbHold ∧ t.jrOn = s.jrOn

/-- Only regs, root may change. -/
abbrev OnlyRegsRoot (s t : State) : Prop :=
  t.pending = s.pending ∧ t.freeIx = s.freeIx ∧ t.phase = s.phase ∧ t.straps = s.straps ∧ t.frn = s.frn ∧
  t.cyc = s.cyc ∧ t.snaps = s.snaps ∧ t.snapReq = s.snapReq ∧ t.snapAll = s.snapAll ∧ t.writeQ = s.writeQ ∧
  t.spi = s.spi ∧ t.i2c = s.i2c ∧ t.i2cHold = s.i2cHold ∧ t.pol = s.pol ∧ t.mem = s.mem ∧ t.jrn = s.jrn ∧
  t.lanes = s.lanes ∧ t.funcs = s.funcs ∧ t.rows = s.rows ∧ t.accs = s.accs ∧ t.parts = s.parts ∧ t.chans = s.chans ∧
  t.pkts = s.pkts ∧ t.pairs = s.pairs ∧ t.doms = s.doms ∧ t.aplls = s.aplls ∧ t.outs = s.outs ∧ t.times = s.times ∧
  t.gate = s.gate ∧ t.eths = s.eths ∧ t.ptps = s.ptps ∧ t.shelf = s.shelf ∧ t.cellar = s.cellar ∧ t.power = s.power ∧
  t.vio = s.vio ∧ t.tbHold = s.tbHold ∧ t.jrOn = s.jrOn

/-- Only regs, rows may change. -/
abbrev OnlyRegsRows (s t : State) : Prop :=
  t.pending = s.pending ∧ t.freeIx = s.freeIx ∧ t.phase = s.phase ∧ t.straps = s.straps ∧ t.frn = s.frn ∧
  t.cyc = s.cyc ∧ t.snaps = s.snaps ∧ t.snapReq = s.snapReq ∧ t.snapAll = s.snapAll ∧ t.writeQ = s.writeQ ∧
  t.spi = s.spi ∧ t.i2c = s.i2c ∧ t.i2cHold = s.i2cHold ∧ t.pol = s.pol ∧ t.mem = s.mem ∧ t.jrn = s.jrn ∧
  t.lanes = s.lanes ∧ t.funcs = s.funcs ∧ t.accs = s.accs ∧ t.parts = s.parts ∧ t.chans = s.chans ∧ t.pkts = s.pkts ∧
  t.pairs = s.pairs ∧ t.doms = s.doms ∧ t.aplls = s.aplls ∧ t.outs = s.outs ∧ t.times = s.times ∧ t.gate = s.gate ∧
  t.eths = s.eths ∧ t.ptps = s.ptps ∧ t.shelf = s.shelf ∧ t.cellar = s.cellar ∧ t.root = s.root ∧ t.power = s.power ∧
  t.vio = s.vio ∧ t.tbHold = s.tbHold ∧ t.jrOn = s.jrOn

/-- Only regs, shelf may change. -/
abbrev OnlyRegsShelf (s t : State) : Prop :=
  t.pending = s.pending ∧ t.freeIx = s.freeIx ∧ t.phase = s.phase ∧ t.straps = s.straps ∧ t.frn = s.frn ∧
  t.cyc = s.cyc ∧ t.snaps = s.snaps ∧ t.snapReq = s.snapReq ∧ t.snapAll = s.snapAll ∧ t.writeQ = s.writeQ ∧
  t.spi = s.spi ∧ t.i2c = s.i2c ∧ t.i2cHold = s.i2cHold ∧ t.pol = s.pol ∧ t.mem = s.mem ∧ t.jrn = s.jrn ∧
  t.lanes = s.lanes ∧ t.funcs = s.funcs ∧ t.rows = s.rows ∧ t.accs = s.accs ∧ t.parts = s.parts ∧ t.chans = s.chans ∧
  t.pkts = s.pkts ∧ t.pairs = s.pairs ∧ t.doms = s.doms ∧ t.aplls = s.aplls ∧ t.outs = s.outs ∧ t.times = s.times ∧
  t.gate = s.gate ∧ t.eths = s.eths ∧ t.ptps = s.ptps ∧ t.cellar = s.cellar ∧ t.root = s.root ∧ t.power = s.power ∧
  t.vio = s.vio ∧ t.tbHold = s.tbHold ∧ t.jrOn = s.jrOn

/-- Only regs, snaps may change. -/
abbrev OnlyRegsSnaps (s t : State) : Prop :=
  t.pending = s.pending ∧ t.freeIx = s.freeIx ∧ t.phase = s.phase ∧ t.straps = s.straps ∧ t.frn = s.frn ∧
  t.cyc = s.cyc ∧ t.snapReq = s.snapReq ∧ t.snapAll = s.snapAll ∧ t.writeQ = s.writeQ ∧ t.spi = s.spi ∧
  t.i2c = s.i2c ∧ t.i2cHold = s.i2cHold ∧ t.pol = s.pol ∧ t.mem = s.mem ∧ t.jrn = s.jrn ∧ t.lanes = s.lanes ∧
  t.funcs = s.funcs ∧ t.rows = s.rows ∧ t.accs = s.accs ∧ t.parts = s.parts ∧ t.chans = s.chans ∧ t.pkts = s.pkts ∧
  t.pairs = s.pairs ∧ t.doms = s.doms ∧ t.aplls = s.aplls ∧ t.outs = s.outs ∧ t.times = s.times ∧ t.gate = s.gate ∧
  t.eths = s.eths ∧ t.ptps = s.ptps ∧ t.shelf = s.shelf ∧ t.cellar = s.cellar ∧ t.root = s.root ∧ t.power = s.power ∧
  t.vio = s.vio ∧ t.tbHold = s.tbHold ∧ t.jrOn = s.jrOn

/-- Only regs, times may change. -/
abbrev OnlyRegsTimes (s t : State) : Prop :=
  t.pending = s.pending ∧ t.freeIx = s.freeIx ∧ t.phase = s.phase ∧ t.straps = s.straps ∧ t.frn = s.frn ∧
  t.cyc = s.cyc ∧ t.snaps = s.snaps ∧ t.snapReq = s.snapReq ∧ t.snapAll = s.snapAll ∧ t.writeQ = s.writeQ ∧
  t.spi = s.spi ∧ t.i2c = s.i2c ∧ t.i2cHold = s.i2cHold ∧ t.pol = s.pol ∧ t.mem = s.mem ∧ t.jrn = s.jrn ∧
  t.lanes = s.lanes ∧ t.funcs = s.funcs ∧ t.rows = s.rows ∧ t.accs = s.accs ∧ t.parts = s.parts ∧ t.chans = s.chans ∧
  t.pkts = s.pkts ∧ t.pairs = s.pairs ∧ t.doms = s.doms ∧ t.aplls = s.aplls ∧ t.outs = s.outs ∧ t.gate = s.gate ∧
  t.eths = s.eths ∧ t.ptps = s.ptps ∧ t.shelf = s.shelf ∧ t.cellar = s.cellar ∧ t.root = s.root ∧ t.power = s.power ∧
  t.vio = s.vio ∧ t.tbHold = s.tbHold ∧ t.jrOn = s.jrOn

/-- Only rows, accs may change. -/
abbrev OnlyRowsAccs (s t : State) : Prop :=
  t.pending = s.pending ∧ t.freeIx = s.freeIx ∧ t.phase = s.phase ∧ t.straps = s.straps ∧ t.frn = s.frn ∧
  t.cyc = s.cyc ∧ t.regs = s.regs ∧ t.snaps = s.snaps ∧ t.snapReq = s.snapReq ∧ t.snapAll = s.snapAll ∧
  t.writeQ = s.writeQ ∧ t.spi = s.spi ∧ t.i2c = s.i2c ∧ t.i2cHold = s.i2cHold ∧ t.pol = s.pol ∧ t.mem = s.mem ∧
  t.jrn = s.jrn ∧ t.lanes = s.lanes ∧ t.funcs = s.funcs ∧ t.parts = s.parts ∧ t.chans = s.chans ∧ t.pkts = s.pkts ∧
  t.pairs = s.pairs ∧ t.doms = s.doms ∧ t.aplls = s.aplls ∧ t.outs = s.outs ∧ t.times = s.times ∧ t.gate = s.gate ∧
  t.eths = s.eths ∧ t.ptps = s.ptps ∧ t.shelf = s.shelf ∧ t.cellar = s.cellar ∧ t.root = s.root ∧ t.power = s.power ∧
  t.vio = s.vio ∧ t.tbHold = s.tbHold ∧ t.jrOn = s.jrOn

/-- Only rows, parts may change. -/
abbrev OnlyRowsParts (s t : State) : Prop :=
  t.pending = s.pending ∧ t.freeIx = s.freeIx ∧ t.phase = s.phase ∧ t.straps = s.straps ∧ t.frn = s.frn ∧
  t.cyc = s.cyc ∧ t.regs = s.regs ∧ t.snaps = s.snaps ∧ t.snapReq = s.snapReq ∧ t.snapAll = s.snapAll ∧
  t.writeQ = s.writeQ ∧ t.spi = s.spi ∧ t.i2c = s.i2c ∧ t.i2cHold = s.i2cHold ∧ t.pol = s.pol ∧ t.mem = s.mem ∧
  t.jrn = s.jrn ∧ t.lanes = s.lanes ∧ t.funcs = s.funcs ∧ t.accs = s.accs ∧ t.chans = s.chans ∧ t.pkts = s.pkts ∧
  t.pairs = s.pairs ∧ t.doms = s.doms ∧ t.aplls = s.aplls ∧ t.outs = s.outs ∧ t.times = s.times ∧ t.gate = s.gate ∧
  t.eths = s.eths ∧ t.ptps = s.ptps ∧ t.shelf = s.shelf ∧ t.cellar = s.cellar ∧ t.root = s.root ∧ t.power = s.power ∧
  t.vio = s.vio ∧ t.tbHold = s.tbHold ∧ t.jrOn = s.jrOn

/-- Only spi, i2c may change. -/
abbrev OnlySpiI2c (s t : State) : Prop :=
  t.pending = s.pending ∧ t.freeIx = s.freeIx ∧ t.phase = s.phase ∧ t.straps = s.straps ∧ t.frn = s.frn ∧
  t.cyc = s.cyc ∧ t.regs = s.regs ∧ t.snaps = s.snaps ∧ t.snapReq = s.snapReq ∧ t.snapAll = s.snapAll ∧
  t.writeQ = s.writeQ ∧ t.i2cHold = s.i2cHold ∧ t.pol = s.pol ∧ t.mem = s.mem ∧ t.jrn = s.jrn ∧ t.lanes = s.lanes ∧
  t.funcs = s.funcs ∧ t.rows = s.rows ∧ t.accs = s.accs ∧ t.parts = s.parts ∧ t.chans = s.chans ∧ t.pkts = s.pkts ∧
  t.pairs = s.pairs ∧ t.doms = s.doms ∧ t.aplls = s.aplls ∧ t.outs = s.outs ∧ t.times = s.times ∧ t.gate = s.gate ∧
  t.eths = s.eths ∧ t.ptps = s.ptps ∧ t.shelf = s.shelf ∧ t.cellar = s.cellar ∧ t.root = s.root ∧ t.power = s.power ∧
  t.vio = s.vio ∧ t.tbHold = s.tbHold ∧ t.jrOn = s.jrOn

/-- Only chans, pkts, ptps may change. -/
abbrev OnlyChansPktsPtps (s t : State) : Prop :=
  t.pending = s.pending ∧ t.freeIx = s.freeIx ∧ t.phase = s.phase ∧ t.straps = s.straps ∧ t.frn = s.frn ∧
  t.cyc = s.cyc ∧ t.regs = s.regs ∧ t.snaps = s.snaps ∧ t.snapReq = s.snapReq ∧ t.snapAll = s.snapAll ∧
  t.writeQ = s.writeQ ∧ t.spi = s.spi ∧ t.i2c = s.i2c ∧ t.i2cHold = s.i2cHold ∧ t.pol = s.pol ∧ t.mem = s.mem ∧
  t.jrn = s.jrn ∧ t.lanes = s.lanes ∧ t.funcs = s.funcs ∧ t.rows = s.rows ∧ t.accs = s.accs ∧ t.parts = s.parts ∧
  t.pairs = s.pairs ∧ t.doms = s.doms ∧ t.aplls = s.aplls ∧ t.outs = s.outs ∧ t.times = s.times ∧ t.gate = s.gate ∧
  t.eths = s.eths ∧ t.shelf = s.shelf ∧ t.cellar = s.cellar ∧ t.root = s.root ∧ t.power = s.power ∧ t.vio = s.vio ∧
  t.tbHold = s.tbHold ∧ t.jrOn = s.jrOn

/-- Only freeIx, regs, times may change. -/
abbrev OnlyFreeIxRegsTimes (s t : State) : Prop :=
  t.pending = s.pending ∧ t.phase = s.phase ∧ t.straps = s.straps ∧ t.frn = s.frn ∧ t.cyc = s.cyc ∧
  t.snaps = s.snaps ∧ t.snapReq = s.snapReq ∧ t.snapAll = s.snapAll ∧ t.writeQ = s.writeQ ∧ t.spi = s.spi ∧
  t.i2c = s.i2c ∧ t.i2cHold = s.i2cHold ∧ t.pol = s.pol ∧ t.mem = s.mem ∧ t.jrn = s.jrn ∧ t.lanes = s.lanes ∧
  t.funcs = s.funcs ∧ t.rows = s.rows ∧ t.accs = s.accs ∧ t.parts = s.parts ∧ t.chans = s.chans ∧ t.pkts = s.pkts ∧
  t.pairs = s.pairs ∧ t.doms = s.doms ∧ t.aplls = s.aplls ∧ t.outs = s.outs ∧ t.gate = s.gate ∧ t.eths = s.eths ∧
  t.ptps = s.ptps ∧ t.shelf = s.shelf ∧ t.cellar = s.cellar ∧ t.root = s.root ∧ t.power = s.power ∧ t.vio = s.vio ∧
  t.tbHold = s.tbHold ∧ t.jrOn = s.jrOn

/-- Only mem, cellar, root may change. -/
abbrev OnlyMemCellarRoot (s t : State) : Prop :=
  t.pending = s.pending ∧ t.freeIx = s.freeIx ∧ t.phase = s.phase ∧ t.straps = s.straps ∧ t.frn = s.frn ∧
  t.cyc = s.cyc ∧ t.regs = s.regs ∧ t.snaps = s.snaps ∧ t.snapReq = s.snapReq ∧ t.snapAll = s.snapAll ∧
  t.writeQ = s.writeQ ∧ t.spi = s.spi ∧ t.i2c = s.i2c ∧ t.i2cHold = s.i2cHold ∧ t.pol = s.pol ∧ t.jrn = s.jrn ∧
  t.lanes = s.lanes ∧ t.funcs = s.funcs ∧ t.rows = s.rows ∧ t.accs = s.accs ∧ t.parts = s.parts ∧ t.chans = s.chans ∧
  t.pkts = s.pkts ∧ t.pairs = s.pairs ∧ t.doms = s.doms ∧ t.aplls = s.aplls ∧ t.outs = s.outs ∧ t.times = s.times ∧
  t.gate = s.gate ∧ t.eths = s.eths ∧ t.ptps = s.ptps ∧ t.shelf = s.shelf ∧ t.power = s.power ∧ t.vio = s.vio ∧
  t.tbHold = s.tbHold ∧ t.jrOn = s.jrOn

/-- Only regs, aplls, outs may change. -/
abbrev OnlyRegsApllsOuts (s t : State) : Prop :=
  t.pending = s.pending ∧ t.freeIx = s.freeIx ∧ t.phase = s.phase ∧ t.straps = s.straps ∧ t.frn = s.frn ∧
  t.cyc = s.cyc ∧ t.snaps = s.snaps ∧ t.snapReq = s.snapReq ∧ t.snapAll = s.snapAll ∧ t.writeQ = s.writeQ ∧
  t.spi = s.spi ∧ t.i2c = s.i2c ∧ t.i2cHold = s.i2cHold ∧ t.pol = s.pol ∧ t.mem = s.mem ∧ t.jrn = s.jrn ∧
  t.lanes = s.lanes ∧ t.funcs = s.funcs ∧ t.rows = s.rows ∧ t.accs = s.accs ∧ t.parts = s.parts ∧ t.chans = s.chans ∧
  t.pkts = s.pkts ∧ t.pairs = s.pairs ∧ t.doms = s.doms ∧ t.times = s.times ∧ t.gate = s.gate ∧ t.eths = s.eths ∧
  t.ptps = s.ptps ∧ t.shelf = s.shelf ∧ t.cellar = s.cellar ∧ t.root = s.root ∧ t.power = s.power ∧ t.vio = s.vio ∧
  t.tbHold = s.tbHold ∧ t.jrOn = s.jrOn

/-- Only regs, cellar, root may change. -/
abbrev OnlyRegsCellarRoot (s t : State) : Prop :=
  t.pending = s.pending ∧ t.freeIx = s.freeIx ∧ t.phase = s.phase ∧ t.straps = s.straps ∧ t.frn = s.frn ∧
  t.cyc = s.cyc ∧ t.snaps = s.snaps ∧ t.snapReq = s.snapReq ∧ t.snapAll = s.snapAll ∧ t.writeQ = s.writeQ ∧
  t.spi = s.spi ∧ t.i2c = s.i2c ∧ t.i2cHold = s.i2cHold ∧ t.pol = s.pol ∧ t.mem = s.mem ∧ t.jrn = s.jrn ∧
  t.lanes = s.lanes ∧ t.funcs = s.funcs ∧ t.rows = s.rows ∧ t.accs = s.accs ∧ t.parts = s.parts ∧ t.chans = s.chans ∧
  t.pkts = s.pkts ∧ t.pairs = s.pairs ∧ t.doms = s.doms ∧ t.aplls = s.aplls ∧ t.outs = s.outs ∧ t.times = s.times ∧
  t.gate = s.gate ∧ t.eths = s.eths ∧ t.ptps = s.ptps ∧ t.shelf = s.shelf ∧ t.power = s.power ∧ t.vio = s.vio ∧
  t.tbHold = s.tbHold ∧ t.jrOn = s.jrOn

/-- Only regs, chans, shelf may change. -/
abbrev OnlyRegsChansShelf (s t : State) : Prop :=
  t.pending = s.pending ∧ t.freeIx = s.freeIx ∧ t.phase = s.phase ∧ t.straps = s.straps ∧ t.frn = s.frn ∧
  t.cyc = s.cyc ∧ t.snaps = s.snaps ∧ t.snapReq = s.snapReq ∧ t.snapAll = s.snapAll ∧ t.writeQ = s.writeQ ∧
  t.spi = s.spi ∧ t.i2c = s.i2c ∧ t.i2cHold = s.i2cHold ∧ t.pol = s.pol ∧ t.mem = s.mem ∧ t.jrn = s.jrn ∧
  t.lanes = s.lanes ∧ t.funcs = s.funcs ∧ t.rows = s.rows ∧ t.accs = s.accs ∧ t.parts = s.parts ∧ t.pkts = s.pkts ∧
  t.pairs = s.pairs ∧ t.doms = s.doms ∧ t.aplls = s.aplls ∧ t.outs = s.outs ∧ t.times = s.times ∧ t.gate = s.gate ∧
  t.eths = s.eths ∧ t.ptps = s.ptps ∧ t.cellar = s.cellar ∧ t.root = s.root ∧ t.power = s.power ∧ t.vio = s.vio ∧
  t.tbHold = s.tbHold ∧ t.jrOn = s.jrOn

/-- Only regs, eths, ptps may change. -/
abbrev OnlyRegsEthsPtps (s t : State) : Prop :=
  t.pending = s.pending ∧ t.freeIx = s.freeIx ∧ t.phase = s.phase ∧ t.straps = s.straps ∧ t.frn = s.frn ∧
  t.cyc = s.cyc ∧ t.snaps = s.snaps ∧ t.snapReq = s.snapReq ∧ t.snapAll = s.snapAll ∧ t.writeQ = s.writeQ ∧
  t.spi = s.spi ∧ t.i2c = s.i2c ∧ t.i2cHold = s.i2cHold ∧ t.pol = s.pol ∧ t.mem = s.mem ∧ t.jrn = s.jrn ∧
  t.lanes = s.lanes ∧ t.funcs = s.funcs ∧ t.rows = s.rows ∧ t.accs = s.accs ∧ t.parts = s.parts ∧ t.chans = s.chans ∧
  t.pkts = s.pkts ∧ t.pairs = s.pairs ∧ t.doms = s.doms ∧ t.aplls = s.aplls ∧ t.outs = s.outs ∧ t.times = s.times ∧
  t.gate = s.gate ∧ t.shelf = s.shelf ∧ t.cellar = s.cellar ∧ t.root = s.root ∧ t.power = s.power ∧ t.vio = s.vio ∧
  t.tbHold = s.tbHold ∧ t.jrOn = s.jrOn

/-- Only regs, funcs, tbHold may change. -/
abbrev OnlyRegsFuncsTbHold (s t : State) : Prop :=
  t.pending = s.pending ∧ t.freeIx = s.freeIx ∧ t.phase = s.phase ∧ t.straps = s.straps ∧ t.frn = s.frn ∧
  t.cyc = s.cyc ∧ t.snaps = s.snaps ∧ t.snapReq = s.snapReq ∧ t.snapAll = s.snapAll ∧ t.writeQ = s.writeQ ∧
  t.spi = s.spi ∧ t.i2c = s.i2c ∧ t.i2cHold = s.i2cHold ∧ t.pol = s.pol ∧ t.mem = s.mem ∧ t.jrn = s.jrn ∧
  t.lanes = s.lanes ∧ t.rows = s.rows ∧ t.accs = s.accs ∧ t.parts = s.parts ∧ t.chans = s.chans ∧ t.pkts = s.pkts ∧
  t.pairs = s.pairs ∧ t.doms = s.doms ∧ t.aplls = s.aplls ∧ t.outs = s.outs ∧ t.times = s.times ∧ t.gate = s.gate ∧
  t.eths = s.eths ∧ t.ptps = s.ptps ∧ t.shelf = s.shelf ∧ t.cellar = s.cellar ∧ t.root = s.root ∧ t.power = s.power ∧
  t.vio = s.vio ∧ t.jrOn = s.jrOn

/-- Only regs, gate, shelf may change. -/
abbrev OnlyRegsGateShelf (s t : State) : Prop :=
  t.pending = s.pending ∧ t.freeIx = s.freeIx ∧ t.phase = s.phase ∧ t.straps = s.straps ∧ t.frn = s.frn ∧
  t.cyc = s.cyc ∧ t.snaps = s.snaps ∧ t.snapReq = s.snapReq ∧ t.snapAll = s.snapAll ∧ t.writeQ = s.writeQ ∧
  t.spi = s.spi ∧ t.i2c = s.i2c ∧ t.i2cHold = s.i2cHold ∧ t.pol = s.pol ∧ t.mem = s.mem ∧ t.jrn = s.jrn ∧
  t.lanes = s.lanes ∧ t.funcs = s.funcs ∧ t.rows = s.rows ∧ t.accs = s.accs ∧ t.parts = s.parts ∧ t.chans = s.chans ∧
  t.pkts = s.pkts ∧ t.pairs = s.pairs ∧ t.doms = s.doms ∧ t.aplls = s.aplls ∧ t.outs = s.outs ∧ t.times = s.times ∧
  t.eths = s.eths ∧ t.ptps = s.ptps ∧ t.cellar = s.cellar ∧ t.root = s.root ∧ t.power = s.power ∧ t.vio = s.vio ∧
  t.tbHold = s.tbHold ∧ t.jrOn = s.jrOn

/-- Only regs, jrn, cellar may change. -/
abbrev OnlyRegsJrnCellar (s t : State) : Prop :=
  t.pending = s.pending ∧ t.freeIx = s.freeIx ∧ t.phase = s.phase ∧ t.straps = s.straps ∧ t.frn = s.frn ∧
  t.cyc = s.cyc ∧ t.snaps = s.snaps ∧ t.snapReq = s.snapReq ∧ t.snapAll = s.snapAll ∧ t.writeQ = s.writeQ ∧
  t.spi = s.spi ∧ t.i2c = s.i2c ∧ t.i2cHold = s.i2cHold ∧ t.pol = s.pol ∧ t.mem = s.mem ∧ t.lanes = s.lanes ∧
  t.funcs = s.funcs ∧ t.rows = s.rows ∧ t.accs = s.accs ∧ t.parts = s.parts ∧ t.chans = s.chans ∧ t.pkts = s.pkts ∧
  t.pairs = s.pairs ∧ t.doms = s.doms ∧ t.aplls = s.aplls ∧ t.outs = s.outs ∧ t.times = s.times ∧ t.gate = s.gate ∧
  t.eths = s.eths ∧ t.ptps = s.ptps ∧ t.shelf = s.shelf ∧ t.root = s.root ∧ t.power = s.power ∧ t.vio = s.vio ∧
  t.tbHold = s.tbHold ∧ t.jrOn = s.jrOn

/-- Only regs, jrn, chans may change. -/
abbrev OnlyRegsJrnChans (s t : State) : Prop :=
  t.pending = s.pending ∧ t.freeIx = s.freeIx ∧ t.phase = s.phase ∧ t.straps = s.straps ∧ t.frn = s.frn ∧
  t.cyc = s.cyc ∧ t.snaps = s.snaps ∧ t.snapReq = s.snapReq ∧ t.snapAll = s.snapAll ∧ t.writeQ = s.writeQ ∧
  t.spi = s.spi ∧ t.i2c = s.i2c ∧ t.i2cHold = s.i2cHold ∧ t.pol = s.pol ∧ t.mem = s.mem ∧ t.lanes = s.lanes ∧
  t.funcs = s.funcs ∧ t.rows = s.rows ∧ t.accs = s.accs ∧ t.parts = s.parts ∧ t.pkts = s.pkts ∧ t.pairs = s.pairs ∧
  t.doms = s.doms ∧ t.aplls = s.aplls ∧ t.outs = s.outs ∧ t.times = s.times ∧ t.gate = s.gate ∧ t.eths = s.eths ∧
  t.ptps = s.ptps ∧ t.shelf = s.shelf ∧ t.cellar = s.cellar ∧ t.root = s.root ∧ t.power = s.power ∧ t.vio = s.vio ∧
  t.tbHold = s.tbHold ∧ t.jrOn = s.jrOn

/-- Only regs, jrn, doms may change. -/
abbrev OnlyRegsJrnDoms (s t : State) : Prop :=
  t.pending = s.pending ∧ t.freeIx = s.freeIx ∧ t.phase = s.phase ∧ t.straps = s.straps ∧ t.frn = s.frn ∧
  t.cyc = s.cyc ∧ t.snaps = s.snaps ∧ t.snapReq = s.snapReq ∧ t.snapAll = s.snapAll ∧ t.writeQ = s.writeQ ∧
  t.spi = s.spi ∧ t.i2c = s.i2c ∧ t.i2cHold = s.i2cHold ∧ t.pol = s.pol ∧ t.mem = s.mem ∧ t.lanes = s.lanes ∧
  t.funcs = s.funcs ∧ t.rows = s.rows ∧ t.accs = s.accs ∧ t.parts = s.parts ∧ t.chans = s.chans ∧ t.pkts = s.pkts ∧
  t.pairs = s.pairs ∧ t.aplls = s.aplls ∧ t.outs = s.outs ∧ t.times = s.times ∧ t.gate = s.gate ∧ t.eths = s.eths ∧
  t.ptps = s.ptps ∧ t.shelf = s.shelf ∧ t.cellar = s.cellar ∧ t.root = s.root ∧ t.power = s.power ∧ t.vio = s.vio ∧
  t.tbHold = s.tbHold ∧ t.jrOn = s.jrOn

/-- Only regs, jrn, gate may change. -/
abbrev OnlyRegsJrnGate (s t : State) : Prop :=
  t.pending = s.pending ∧ t.freeIx = s.freeIx ∧ t.phase = s.phase ∧ t.straps = s.straps ∧ t.frn = s.frn ∧
  t.cyc = s.cyc ∧ t.snaps = s.snaps ∧ t.snapReq = s.snapReq ∧ t.snapAll = s.snapAll ∧ t.writeQ = s.writeQ ∧
  t.spi = s.spi ∧ t.i2c = s.i2c ∧ t.i2cHold = s.i2cHold ∧ t.pol = s.pol ∧ t.mem = s.mem ∧ t.lanes = s.lanes ∧
  t.funcs = s.funcs ∧ t.rows = s.rows ∧ t.accs = s.accs ∧ t.parts = s.parts ∧ t.chans = s.chans ∧ t.pkts = s.pkts ∧
  t.pairs = s.pairs ∧ t.doms = s.doms ∧ t.aplls = s.aplls ∧ t.outs = s.outs ∧ t.times = s.times ∧ t.eths = s.eths ∧
  t.ptps = s.ptps ∧ t.shelf = s.shelf ∧ t.cellar = s.cellar ∧ t.root = s.root ∧ t.power = s.power ∧ t.vio = s.vio ∧
  t.tbHold = s.tbHold ∧ t.jrOn = s.jrOn

/-- Only regs, jrn, jrOn may change. -/
abbrev OnlyRegsJrnJrOn (s t : State) : Prop :=
  t.pending = s.pending ∧ t.freeIx = s.freeIx ∧ t.phase = s.phase ∧ t.straps = s.straps ∧ t.frn = s.frn ∧
  t.cyc = s.cyc ∧ t.snaps = s.snaps ∧ t.snapReq = s.snapReq ∧ t.snapAll = s.snapAll ∧ t.writeQ = s.writeQ ∧
  t.spi = s.spi ∧ t.i2c = s.i2c ∧ t.i2cHold = s.i2cHold ∧ t.pol = s.pol ∧ t.mem = s.mem ∧ t.lanes = s.lanes ∧
  t.funcs = s.funcs ∧ t.rows = s.rows ∧ t.accs = s.accs ∧ t.parts = s.parts ∧ t.chans = s.chans ∧ t.pkts = s.pkts ∧
  t.pairs = s.pairs ∧ t.doms = s.doms ∧ t.aplls = s.aplls ∧ t.outs = s.outs ∧ t.times = s.times ∧ t.gate = s.gate ∧
  t.eths = s.eths ∧ t.ptps = s.ptps ∧ t.shelf = s.shelf ∧ t.cellar = s.cellar ∧ t.root = s.root ∧ t.power = s.power ∧
  t.vio = s.vio ∧ t.tbHold = s.tbHold

/-- Only regs, jrn, pairs may change. -/
abbrev OnlyRegsJrnPairs (s t : State) : Prop :=
  t.pending = s.pending ∧ t.freeIx = s.freeIx ∧ t.phase = s.phase ∧ t.straps = s.straps ∧ t.frn = s.frn ∧
  t.cyc = s.cyc ∧ t.snaps = s.snaps ∧ t.snapReq = s.snapReq ∧ t.snapAll = s.snapAll ∧ t.writeQ = s.writeQ ∧
  t.spi = s.spi ∧ t.i2c = s.i2c ∧ t.i2cHold = s.i2cHold ∧ t.pol = s.pol ∧ t.mem = s.mem ∧ t.lanes = s.lanes ∧
  t.funcs = s.funcs ∧ t.rows = s.rows ∧ t.accs = s.accs ∧ t.parts = s.parts ∧ t.chans = s.chans ∧ t.pkts = s.pkts ∧
  t.doms = s.doms ∧ t.aplls = s.aplls ∧ t.outs = s.outs ∧ t.times = s.times ∧ t.gate = s.gate ∧ t.eths = s.eths ∧
  t.ptps = s.ptps ∧ t.shelf = s.shelf ∧ t.cellar = s.cellar ∧ t.root = s.root ∧ t.power = s.power ∧ t.vio = s.vio ∧
  t.tbHold = s.tbHold ∧ t.jrOn = s.jrOn

/-- Only regs, jrn, ptps may change. -/
abbrev OnlyRegsJrnPtps (s t : State) : Prop :=
  t.pending = s.pending ∧ t.freeIx = s.freeIx ∧ t.phase = s.phase ∧ t.straps = s.straps ∧ t.frn = s.frn ∧
  t.cyc = s.cyc ∧ t.snaps = s.snaps ∧ t.snapReq = s.snapReq ∧ t.snapAll = s.snapAll ∧ t.writeQ = s.writeQ ∧
  t.spi = s.spi ∧ t.i2c = s.i2c ∧ t.i2cHold = s.i2cHold ∧ t.pol = s.pol ∧ t.mem = s.mem ∧ t.lanes = s.lanes ∧
  t.funcs = s.funcs ∧ t.rows = s.rows ∧ t.accs = s.accs ∧ t.parts = s.parts ∧ t.chans = s.chans ∧ t.pkts = s.pkts ∧
  t.pairs = s.pairs ∧ t.doms = s.doms ∧ t.aplls = s.aplls ∧ t.outs = s.outs ∧ t.times = s.times ∧ t.gate = s.gate ∧
  t.eths = s.eths ∧ t.shelf = s.shelf ∧ t.cellar = s.cellar ∧ t.root = s.root ∧ t.power = s.power ∧ t.vio = s.vio ∧
  t.tbHold = s.tbHold ∧ t.jrOn = s.jrOn

/-- Only regs, jrn, root may change. -/
abbrev OnlyRegsJrnRoot (s t : State) : Prop :=
  t.pending = s.pending ∧ t.freeIx = s.freeIx ∧ t.phase = s.phase ∧ t.straps = s.straps ∧ t.frn = s.frn ∧
  t.cyc = s.cyc ∧ t.snaps = s.snaps ∧ t.snapReq = s.snapReq ∧ t.snapAll = s.snapAll ∧ t.writeQ = s.writeQ ∧
  t.spi = s.spi ∧ t.i2c = s.i2c ∧ t.i2cHold = s.i2cHold ∧ t.pol = s.pol ∧ t.mem = s.mem ∧ t.lanes = s.lanes ∧
  t.funcs = s.funcs ∧ t.rows = s.rows ∧ t.accs = s.accs ∧ t.parts = s.parts ∧ t.chans = s.chans ∧ t.pkts = s.pkts ∧
  t.pairs = s.pairs ∧ t.doms = s.doms ∧ t.aplls = s.aplls ∧ t.outs = s.outs ∧ t.times = s.times ∧ t.gate = s.gate ∧
  t.eths = s.eths ∧ t.ptps = s.ptps ∧ t.shelf = s.shelf ∧ t.cellar = s.cellar ∧ t.power = s.power ∧ t.vio = s.vio ∧
  t.tbHold = s.tbHold ∧ t.jrOn = s.jrOn

/-- Only regs, jrn, shelf may change. -/
abbrev OnlyRegsJrnShelf (s t : State) : Prop :=
  t.pending = s.pending ∧ t.freeIx = s.freeIx ∧ t.phase = s.phase ∧ t.straps = s.straps ∧ t.frn = s.frn ∧
  t.cyc = s.cyc ∧ t.snaps = s.snaps ∧ t.snapReq = s.snapReq ∧ t.snapAll = s.snapAll ∧ t.writeQ = s.writeQ ∧
  t.spi = s.spi ∧ t.i2c = s.i2c ∧ t.i2cHold = s.i2cHold ∧ t.pol = s.pol ∧ t.mem = s.mem ∧ t.lanes = s.lanes ∧
  t.funcs = s.funcs ∧ t.rows = s.rows ∧ t.accs = s.accs ∧ t.parts = s.parts ∧ t.chans = s.chans ∧ t.pkts = s.pkts ∧
  t.pairs = s.pairs ∧ t.doms = s.doms ∧ t.aplls = s.aplls ∧ t.outs = s.outs ∧ t.times = s.times ∧ t.gate = s.gate ∧
  t.eths = s.eths ∧ t.ptps = s.ptps ∧ t.cellar = s.cellar ∧ t.root = s.root ∧ t.power = s.power ∧ t.vio = s.vio ∧
  t.tbHold = s.tbHold ∧ t.jrOn = s.jrOn

/-- Only regs, jrn, times may change. -/
abbrev OnlyRegsJrnTimes (s t : State) : Prop :=
  t.pending = s.pending ∧ t.freeIx = s.freeIx ∧ t.phase = s.phase ∧ t.straps = s.straps ∧ t.frn = s.frn ∧
  t.cyc = s.cyc ∧ t.snaps = s.snaps ∧ t.snapReq = s.snapReq ∧ t.snapAll = s.snapAll ∧ t.writeQ = s.writeQ ∧
  t.spi = s.spi ∧ t.i2c = s.i2c ∧ t.i2cHold = s.i2cHold ∧ t.pol = s.pol ∧ t.mem = s.mem ∧ t.lanes = s.lanes ∧
  t.funcs = s.funcs ∧ t.rows = s.rows ∧ t.accs = s.accs ∧ t.parts = s.parts ∧ t.chans = s.chans ∧ t.pkts = s.pkts ∧
  t.pairs = s.pairs ∧ t.doms = s.doms ∧ t.aplls = s.aplls ∧ t.outs = s.outs ∧ t.gate = s.gate ∧ t.eths = s.eths ∧
  t.ptps = s.ptps ∧ t.shelf = s.shelf ∧ t.cellar = s.cellar ∧ t.root = s.root ∧ t.power = s.power ∧ t.vio = s.vio ∧
  t.tbHold = s.tbHold ∧ t.jrOn = s.jrOn

/-- Only regs, lanes, funcs may change. -/
abbrev OnlyRegsLanesFuncs (s t : State) : Prop :=
  t.pending = s.pending ∧ t.freeIx = s.freeIx ∧ t.phase = s.phase ∧ t.straps = s.straps ∧ t.frn = s.frn ∧
  t.cyc = s.cyc ∧ t.snaps = s.snaps ∧ t.snapReq = s.snapReq ∧ t.snapAll = s.snapAll ∧ t.writeQ = s.writeQ ∧
  t.spi = s.spi ∧ t.i2c = s.i2c ∧ t.i2cHold = s.i2cHold ∧ t.pol = s.pol ∧ t.mem = s.mem ∧ t.jrn = s.jrn ∧
  t.rows = s.rows ∧ t.accs = s.accs ∧ t.parts = s.parts ∧ t.chans = s.chans ∧ t.pkts = s.pkts ∧ t.pairs = s.pairs ∧
  t.doms = s.doms ∧ t.aplls = s.aplls ∧ t.outs = s.outs ∧ t.times = s.times ∧ t.gate = s.gate ∧ t.eths = s.eths ∧
  t.ptps = s.ptps ∧ t.shelf = s.shelf ∧ t.cellar = s.cellar ∧ t.root = s.root ∧ t.power = s.power ∧ t.vio = s.vio ∧
  t.tbHold = s.tbHold ∧ t.jrOn = s.jrOn

/-- Only regs, mem, chans may change. -/
abbrev OnlyRegsMemChans (s t : State) : Prop :=
  t.pending = s.pending ∧ t.freeIx = s.freeIx ∧ t.phase = s.phase ∧ t.straps = s.straps ∧ t.frn = s.frn ∧
  t.cyc = s.cyc ∧ t.snaps = s.snaps ∧ t.snapReq = s.snapReq ∧ t.snapAll = s.snapAll ∧ t.writeQ = s.writeQ ∧
  t.spi = s.spi ∧ t.i2c = s.i2c ∧ t.i2cHold = s.i2cHold ∧ t.pol = s.pol ∧ t.jrn = s.jrn ∧ t.lanes = s.lanes ∧
  t.funcs = s.funcs ∧ t.rows = s.rows ∧ t.accs = s.accs ∧ t.parts = s.parts ∧ t.pkts = s.pkts ∧ t.pairs = s.pairs ∧
  t.doms = s.doms ∧ t.aplls = s.aplls ∧ t.outs = s.outs ∧ t.times = s.times ∧ t.gate = s.gate ∧ t.eths = s.eths ∧
  t.ptps = s.ptps ∧ t.shelf = s.shelf ∧ t.cellar = s.cellar ∧ t.root = s.root ∧ t.power = s.power ∧ t.vio = s.vio ∧
  t.tbHold = s.tbHold ∧ t.jrOn = s.jrOn

/-- Only regs, mem, parts may change. -/
abbrev OnlyRegsMemParts (s t : State) : Prop :=
  t.pending = s.pending ∧ t.freeIx = s.freeIx ∧ t.phase = s.phase ∧ t.straps = s.straps ∧ t.frn = s.frn ∧
  t.cyc = s.cyc ∧ t.snaps = s.snaps ∧ t.snapReq = s.snapReq ∧ t.snapAll = s.snapAll ∧ t.writeQ = s.writeQ ∧
  t.spi = s.spi ∧ t.i2c = s.i2c ∧ t.i2cHold = s.i2cHold ∧ t.pol = s.pol ∧ t.jrn = s.jrn ∧ t.lanes = s.lanes ∧
  t.funcs = s.funcs ∧ t.rows = s.rows ∧ t.accs = s.accs ∧ t.chans = s.chans ∧ t.pkts = s.pkts ∧ t.pairs = s.pairs ∧
  t.doms = s.doms ∧ t.aplls = s.aplls ∧ t.outs = s.outs ∧ t.times = s.times ∧ t.gate = s.gate ∧ t.eths = s.eths ∧
  t.ptps = s.ptps ∧ t.shelf = s.shelf ∧ t.cellar = s.cellar ∧ t.root = s.root ∧ t.power = s.power ∧ t.vio = s.vio ∧
  t.tbHold = s.tbHold ∧ t.jrOn = s.jrOn

/-- Only regs, outs, times may change. -/
abbrev OnlyRegsOutsTimes (s t : State) : Prop :=
  t.pending = s.pending ∧ t.freeIx = s.freeIx ∧ t.phase = s.phase ∧ t.straps = s.straps ∧ t.frn = s.frn ∧
  t.cyc = s.cyc ∧ t.snaps = s.snaps ∧ t.snapReq = s.snapReq ∧ t.snapAll = s.snapAll ∧ t.writeQ = s.writeQ ∧
  t.spi = s.spi ∧ t.i2c = s.i2c ∧ t.i2cHold = s.i2cHold ∧ t.pol = s.pol ∧ t.mem = s.mem ∧ t.jrn = s.jrn ∧
  t.lanes = s.lanes ∧ t.funcs = s.funcs ∧ t.rows = s.rows ∧ t.accs = s.accs ∧ t.parts = s.parts ∧ t.chans = s.chans ∧
  t.pkts = s.pkts ∧ t.pairs = s.pairs ∧ t.doms = s.doms ∧ t.aplls = s.aplls ∧ t.gate = s.gate ∧ t.eths = s.eths ∧
  t.ptps = s.ptps ∧ t.shelf = s.shelf ∧ t.cellar = s.cellar ∧ t.root = s.root ∧ t.power = s.power ∧ t.vio = s.vio ∧
  t.tbHold = s.tbHold ∧ t.jrOn = s.jrOn

/-- Only regs, pairs, doms may change. -/
abbrev OnlyRegsPairsDoms (s t : State) : Prop :=
  t.pending = s.pending ∧ t.freeIx = s.freeIx ∧ t.phase = s.phase ∧ t.straps = s.straps ∧ t.frn = s.frn ∧
  t.cyc = s.cyc ∧ t.snaps = s.snaps ∧ t.snapReq = s.snapReq ∧ t.snapAll = s.snapAll ∧ t.writeQ = s.writeQ ∧
  t.spi = s.spi ∧ t.i2c = s.i2c ∧ t.i2cHold = s.i2cHold ∧ t.pol = s.pol ∧ t.mem = s.mem ∧ t.jrn = s.jrn ∧
  t.lanes = s.lanes ∧ t.funcs = s.funcs ∧ t.rows = s.rows ∧ t.accs = s.accs ∧ t.parts = s.parts ∧ t.chans = s.chans ∧
  t.pkts = s.pkts ∧ t.aplls = s.aplls ∧ t.outs = s.outs ∧ t.times = s.times ∧ t.gate = s.gate ∧ t.eths = s.eths ∧
  t.ptps = s.ptps ∧ t.shelf = s.shelf ∧ t.cellar = s.cellar ∧ t.root = s.root ∧ t.power = s.power ∧ t.vio = s.vio ∧
  t.tbHold = s.tbHold ∧ t.jrOn = s.jrOn

/-- Only regs, rows, parts may change. -/
abbrev OnlyRegsRowsParts (s t : State) : Prop :=
  t.pending = s.pending ∧ t.freeIx = s.freeIx ∧ t.phase = s.phase ∧ t.straps = s.straps ∧ t.frn = s.frn ∧
  t.cyc = s.cyc ∧ t.snaps = s.snaps ∧ t.snapReq = s.snapReq ∧ t.snapAll = s.snapAll ∧ t.writeQ = s.writeQ ∧
  t.spi = s.spi ∧ t.i2c = s.i2c ∧ t.i2cHold = s.i2cHold ∧ t.pol = s.pol ∧ t.mem = s.mem ∧ t.jrn = s.jrn ∧
  t.lanes = s.lanes ∧ t.funcs = s.funcs ∧ t.accs = s.accs ∧ t.chans = s.chans ∧ t.pkts = s.pkts ∧ t.pairs = s.pairs ∧
  t.doms = s.doms ∧ t.aplls = s.aplls ∧ t.outs = s.outs ∧ t.times = s.times ∧ t.gate = s.gate ∧ t.eths = s.eths ∧
  t.ptps = s.ptps ∧ t.shelf = s.shelf ∧ t.cellar = s.cellar ∧ t.root = s.root ∧ t.power = s.power ∧ t.vio = s.vio ∧
  t.tbHold = s.tbHold ∧ t.jrOn = s.jrOn

/-- Only rows, accs, parts may change. -/
abbrev OnlyRowsAccsParts (s t : State) : Prop :=
  t.pending = s.pending ∧ t.freeIx = s.freeIx ∧ t.phase = s.phase ∧ t.straps = s.straps ∧ t.frn = s.frn ∧
  t.cyc = s.cyc ∧ t.regs = s.regs ∧ t.snaps = s.snaps ∧ t.snapReq = s.snapReq ∧ t.snapAll = s.snapAll ∧
  t.writeQ = s.writeQ ∧ t.spi = s.spi ∧ t.i2c = s.i2c ∧ t.i2cHold = s.i2cHold ∧ t.pol = s.pol ∧ t.mem = s.mem ∧
  t.jrn = s.jrn ∧ t.lanes = s.lanes ∧ t.funcs = s.funcs ∧ t.chans = s.chans ∧ t.pkts = s.pkts ∧ t.pairs = s.pairs ∧
  t.doms = s.doms ∧ t.aplls = s.aplls ∧ t.outs = s.outs ∧ t.times = s.times ∧ t.gate = s.gate ∧ t.eths = s.eths ∧
  t.ptps = s.ptps ∧ t.shelf = s.shelf ∧ t.cellar = s.cellar ∧ t.root = s.root ∧ t.power = s.power ∧ t.vio = s.vio ∧
  t.tbHold = s.tbHold ∧ t.jrOn = s.jrOn

/-- Only spi, i2c, i2cHold may change. -/
abbrev OnlySpiI2cI2cHold (s t : State) : Prop :=
  t.pending = s.pending ∧ t.freeIx = s.freeIx ∧ t.phase = s.phase ∧ t.straps = s.straps ∧ t.frn = s.frn ∧
  t.cyc = s.cyc ∧ t.regs = s.regs ∧ t.snaps = s.snaps ∧ t.snapReq = s.snapReq ∧ t.snapAll = s.snapAll ∧
  t.writeQ = s.writeQ ∧ t.pol = s.pol ∧ t.mem = s.mem ∧ t.jrn = s.jrn ∧ t.lanes = s.lanes ∧ t.funcs = s.funcs ∧
  t.rows = s.rows ∧ t.accs = s.accs ∧ t.parts = s.parts ∧ t.chans = s.chans ∧ t.pkts = s.pkts ∧ t.pairs = s.pairs ∧
  t.doms = s.doms ∧ t.aplls = s.aplls ∧ t.outs = s.outs ∧ t.times = s.times ∧ t.gate = s.gate ∧ t.eths = s.eths ∧
  t.ptps = s.ptps ∧ t.shelf = s.shelf ∧ t.cellar = s.cellar ∧ t.root = s.root ∧ t.power = s.power ∧ t.vio = s.vio ∧
  t.tbHold = s.tbHold ∧ t.jrOn = s.jrOn

/-- Only regs, aplls, outs, times may change. -/
abbrev OnlyRegsApllsOutsTimes (s t : State) : Prop :=
  t.pending = s.pending ∧ t.freeIx = s.freeIx ∧ t.phase = s.phase ∧ t.straps = s.straps ∧ t.frn = s.frn ∧
  t.cyc = s.cyc ∧ t.snaps = s.snaps ∧ t.snapReq = s.snapReq ∧ t.snapAll = s.snapAll ∧ t.writeQ = s.writeQ ∧
  t.spi = s.spi ∧ t.i2c = s.i2c ∧ t.i2cHold = s.i2cHold ∧ t.pol = s.pol ∧ t.mem = s.mem ∧ t.jrn = s.jrn ∧
  t.lanes = s.lanes ∧ t.funcs = s.funcs ∧ t.rows = s.rows ∧ t.accs = s.accs ∧ t.parts = s.parts ∧ t.chans = s.chans ∧
  t.pkts = s.pkts ∧ t.pairs = s.pairs ∧ t.doms = s.doms ∧ t.gate = s.gate ∧ t.eths = s.eths ∧ t.ptps = s.ptps ∧
  t.shelf = s.shelf ∧ t.cellar = s.cellar ∧ t.root = s.root ∧ t.power = s.power ∧ t.vio = s.vio ∧
  t.tbHold = s.tbHold ∧ t.jrOn = s.jrOn

/-- Only regs, gate, cellar, root may change. -/
abbrev OnlyRegsGateCellarRoot (s t : State) : Prop :=
  t.pending = s.pending ∧ t.freeIx = s.freeIx ∧ t.phase = s.phase ∧ t.straps = s.straps ∧ t.frn = s.frn ∧
  t.cyc = s.cyc ∧ t.snaps = s.snaps ∧ t.snapReq = s.snapReq ∧ t.snapAll = s.snapAll ∧ t.writeQ = s.writeQ ∧
  t.spi = s.spi ∧ t.i2c = s.i2c ∧ t.i2cHold = s.i2cHold ∧ t.pol = s.pol ∧ t.mem = s.mem ∧ t.jrn = s.jrn ∧
  t.lanes = s.lanes ∧ t.funcs = s.funcs ∧ t.rows = s.rows ∧ t.accs = s.accs ∧ t.parts = s.parts ∧ t.chans = s.chans ∧
  t.pkts = s.pkts ∧ t.pairs = s.pairs ∧ t.doms = s.doms ∧ t.aplls = s.aplls ∧ t.outs = s.outs ∧ t.times = s.times ∧
  t.eths = s.eths ∧ t.ptps = s.ptps ∧ t.shelf = s.shelf ∧ t.power = s.power ∧ t.vio = s.vio ∧ t.tbHold = s.tbHold ∧
  t.jrOn = s.jrOn

/-- Only regs, gate, eths, ptps may change. -/
abbrev OnlyRegsGateEthsPtps (s t : State) : Prop :=
  t.pending = s.pending ∧ t.freeIx = s.freeIx ∧ t.phase = s.phase ∧ t.straps = s.straps ∧ t.frn = s.frn ∧
  t.cyc = s.cyc ∧ t.snaps = s.snaps ∧ t.snapReq = s.snapReq ∧ t.snapAll = s.snapAll ∧ t.writeQ = s.writeQ ∧
  t.spi = s.spi ∧ t.i2c = s.i2c ∧ t.i2cHold = s.i2cHold ∧ t.pol = s.pol ∧ t.mem = s.mem ∧ t.jrn = s.jrn ∧
  t.lanes = s.lanes ∧ t.funcs = s.funcs ∧ t.rows = s.rows ∧ t.accs = s.accs ∧ t.parts = s.parts ∧ t.chans = s.chans ∧
  t.pkts = s.pkts ∧ t.pairs = s.pairs ∧ t.doms = s.doms ∧ t.aplls = s.aplls ∧ t.outs = s.outs ∧ t.times = s.times ∧
  t.shelf = s.shelf ∧ t.cellar = s.cellar ∧ t.root = s.root ∧ t.power = s.power ∧ t.vio = s.vio ∧
  t.tbHold = s.tbHold ∧ t.jrOn = s.jrOn

/-- Only regs, jrn, chans, eths may change. -/
abbrev OnlyRegsJrnChansEths (s t : State) : Prop :=
  t.pending = s.pending ∧ t.freeIx = s.freeIx ∧ t.phase = s.phase ∧ t.straps = s.straps ∧ t.frn = s.frn ∧
  t.cyc = s.cyc ∧ t.snaps = s.snaps ∧ t.snapReq = s.snapReq ∧ t.snapAll = s.snapAll ∧ t.writeQ = s.writeQ ∧
  t.spi = s.spi ∧ t.i2c = s.i2c ∧ t.i2cHold = s.i2cHold ∧ t.pol = s.pol ∧ t.mem = s.mem ∧ t.lanes = s.lanes ∧
  t.funcs = s.funcs ∧ t.rows = s.rows ∧ t.accs = s.accs ∧ t.parts = s.parts ∧ t.pkts = s.pkts ∧ t.pairs = s.pairs ∧
  t.doms = s.doms ∧ t.aplls = s.aplls ∧ t.outs = s.outs ∧ t.times = s.times ∧ t.gate = s.gate ∧ t.ptps = s.ptps ∧
  t.shelf = s.shelf ∧ t.cellar = s.cellar ∧ t.root = s.root ∧ t.power = s.power ∧ t.vio = s.vio ∧
  t.tbHold = s.tbHold ∧ t.jrOn = s.jrOn

/-- Only regs, jrn, chans, ptps may change. -/
abbrev OnlyRegsJrnChansPtps (s t : State) : Prop :=
  t.pending = s.pending ∧ t.freeIx = s.freeIx ∧ t.phase = s.phase ∧ t.straps = s.straps ∧ t.frn = s.frn ∧
  t.cyc = s.cyc ∧ t.snaps = s.snaps ∧ t.snapReq = s.snapReq ∧ t.snapAll = s.snapAll ∧ t.writeQ = s.writeQ ∧
  t.spi = s.spi ∧ t.i2c = s.i2c ∧ t.i2cHold = s.i2cHold ∧ t.pol = s.pol ∧ t.mem = s.mem ∧ t.lanes = s.lanes ∧
  t.funcs = s.funcs ∧ t.rows = s.rows ∧ t.accs = s.accs ∧ t.parts = s.parts ∧ t.pkts = s.pkts ∧ t.pairs = s.pairs ∧
  t.doms = s.doms ∧ t.aplls = s.aplls ∧ t.outs = s.outs ∧ t.times = s.times ∧ t.gate = s.gate ∧ t.eths = s.eths ∧
  t.shelf = s.shelf ∧ t.cellar = s.cellar ∧ t.root = s.root ∧ t.power = s.power ∧ t.vio = s.vio ∧
  t.tbHold = s.tbHold ∧ t.jrOn = s.jrOn

/-- Only regs, jrn, doms, tbHold may change. -/
abbrev OnlyRegsJrnDomsTbHold (s t : State) : Prop :=
  t.pending = s.pending ∧ t.freeIx = s.freeIx ∧ t.phase = s.phase ∧ t.straps = s.straps ∧ t.frn = s.frn ∧
  t.cyc = s.cyc ∧ t.snaps = s.snaps ∧ t.snapReq = s.snapReq ∧ t.snapAll = s.snapAll ∧ t.writeQ = s.writeQ ∧
  t.spi = s.spi ∧ t.i2c = s.i2c ∧ t.i2cHold = s.i2cHold ∧ t.pol = s.pol ∧ t.mem = s.mem ∧ t.lanes = s.lanes ∧
  t.funcs = s.funcs ∧ t.rows = s.rows ∧ t.accs = s.accs ∧ t.parts = s.parts ∧ t.chans = s.chans ∧ t.pkts = s.pkts ∧
  t.pairs = s.pairs ∧ t.aplls = s.aplls ∧ t.outs = s.outs ∧ t.times = s.times ∧ t.gate = s.gate ∧ t.eths = s.eths ∧
  t.ptps = s.ptps ∧ t.shelf = s.shelf ∧ t.cellar = s.cellar ∧ t.root = s.root ∧ t.power = s.power ∧ t.vio = s.vio ∧
  t.jrOn = s.jrOn

/-- Only regs, jrn, doms, times may change. -/
abbrev OnlyRegsJrnDomsTimes (s t : State) : Prop :=
  t.pending = s.pending ∧ t.freeIx = s.freeIx ∧ t.phase = s.phase ∧ t.straps = s.straps ∧ t.frn = s.frn ∧
  t.cyc = s.cyc ∧ t.snaps = s.snaps ∧ t.snapReq = s.snapReq ∧ t.snapAll = s.snapAll ∧ t.writeQ = s.writeQ ∧
  t.spi = s.spi ∧ t.i2c = s.i2c ∧ t.i2cHold = s.i2cHold ∧ t.pol = s.pol ∧ t.mem = s.mem ∧ t.lanes = s.lanes ∧
  t.funcs = s.funcs ∧ t.rows = s.rows ∧ t.accs = s.accs ∧ t.parts = s.parts ∧ t.chans = s.chans ∧ t.pkts = s.pkts ∧
  t.pairs = s.pairs ∧ t.aplls = s.aplls ∧ t.outs = s.outs ∧ t.gate = s.gate ∧ t.eths = s.eths ∧ t.ptps = s.ptps ∧
  t.shelf = s.shelf ∧ t.cellar = s.cellar ∧ t.root = s.root ∧ t.power = s.power ∧ t.vio = s.vio ∧
  t.tbHold = s.tbHold ∧ t.jrOn = s.jrOn

/-- Only regs, jrn, lanes, funcs may change. -/
abbrev OnlyRegsJrnLanesFuncs (s t : State) : Prop :=
  t.pending = s.pending ∧ t.freeIx = s.freeIx ∧ t.phase = s.phase ∧ t.straps = s.straps ∧ t.frn = s.frn ∧
  t.cyc = s.cyc ∧ t.snaps = s.snaps ∧ t.snapReq = s.snapReq ∧ t.snapAll = s.snapAll ∧ t.writeQ = s.writeQ ∧
  t.spi = s.spi ∧ t.i2c = s.i2c ∧ t.i2cHold = s.i2cHold ∧ t.pol = s.pol ∧ t.mem = s.mem ∧ t.rows = s.rows ∧
  t.accs = s.accs ∧ t.parts = s.parts ∧ t.chans = s.chans ∧ t.pkts = s.pkts ∧ t.pairs = s.pairs ∧ t.doms = s.doms ∧
  t.aplls = s.aplls ∧ t.outs = s.outs ∧ t.times = s.times ∧ t.gate = s.gate ∧ t.eths = s.eths ∧ t.ptps = s.ptps ∧
  t.shelf = s.shelf ∧ t.cellar = s.cellar ∧ t.root = s.root ∧ t.power = s.power ∧ t.vio = s.vio ∧
  t.tbHold = s.tbHold ∧ t.jrOn = s.jrOn

/-- Only regs, jrn, outs, shelf may change. -/
abbrev OnlyRegsJrnOutsShelf (s t : State) : Prop :=
  t.pending = s.pending ∧ t.freeIx = s.freeIx ∧ t.phase = s.phase ∧ t.straps = s.straps ∧ t.frn = s.frn ∧
  t.cyc = s.cyc ∧ t.snaps = s.snaps ∧ t.snapReq = s.snapReq ∧ t.snapAll = s.snapAll ∧ t.writeQ = s.writeQ ∧
  t.spi = s.spi ∧ t.i2c = s.i2c ∧ t.i2cHold = s.i2cHold ∧ t.pol = s.pol ∧ t.mem = s.mem ∧ t.lanes = s.lanes ∧
  t.funcs = s.funcs ∧ t.rows = s.rows ∧ t.accs = s.accs ∧ t.parts = s.parts ∧ t.chans = s.chans ∧ t.pkts = s.pkts ∧
  t.pairs = s.pairs ∧ t.doms = s.doms ∧ t.aplls = s.aplls ∧ t.times = s.times ∧ t.gate = s.gate ∧ t.eths = s.eths ∧
  t.ptps = s.ptps ∧ t.cellar = s.cellar ∧ t.root = s.root ∧ t.power = s.power ∧ t.vio = s.vio ∧ t.tbHold = s.tbHold ∧
  t.jrOn = s.jrOn

/-- Only regs, lanes, funcs, aplls may change. -/
abbrev OnlyRegsLanesFuncsAplls (s t : State) : Prop :=
  t.pending = s.pending ∧ t.freeIx = s.freeIx ∧ t.phase = s.phase ∧ t.straps = s.straps ∧ t.frn = s.frn ∧
  t.cyc = s.cyc ∧ t.snaps = s.snaps ∧ t.snapReq = s.snapReq ∧ t.snapAll = s.snapAll ∧ t.writeQ = s.writeQ ∧
  t.spi = s.spi ∧ t.i2c = s.i2c ∧ t.i2cHold = s.i2cHold ∧ t.pol = s.pol ∧ t.mem = s.mem ∧ t.jrn = s.jrn ∧
  t.rows = s.rows ∧ t.accs = s.accs ∧ t.parts = s.parts ∧ t.chans = s.chans ∧ t.pkts = s.pkts ∧ t.pairs = s.pairs ∧
  t.doms = s.doms ∧ t.outs = s.outs ∧ t.times = s.times ∧ t.gate = s.gate ∧ t.eths = s.eths ∧ t.ptps = s.ptps ∧
  t.shelf = s.shelf ∧ t.cellar = s.cellar ∧ t.root = s.root ∧ t.power = s.power ∧ t.vio = s.vio ∧
  t.tbHold = s.tbHold ∧ t.jrOn = s.jrOn

/-- Only regs, mem, cellar, root may change. -/
abbrev OnlyRegsMemCellarRoot (s t : State) : Prop :=
  t.pending = s.pending ∧ t.freeIx = s.freeIx ∧ t.phase = s.phase ∧ t.straps = s.straps ∧ t.frn = s.frn ∧
  t.cyc = s.cyc ∧ t.snaps = s.snaps ∧ t.snapReq = s.snapReq ∧ t.snapAll = s.snapAll ∧ t.writeQ = s.writeQ ∧
  t.spi = s.spi ∧ t.i2c = s.i2c ∧ t.i2cHold = s.i2cHold ∧ t.pol = s.pol ∧ t.jrn = s.jrn ∧ t.lanes = s.lanes ∧
  t.funcs = s.funcs ∧ t.rows = s.rows ∧ t.accs = s.accs ∧ t.parts = s.parts ∧ t.chans = s.chans ∧ t.pkts = s.pkts ∧
  t.pairs = s.pairs ∧ t.doms = s.doms ∧ t.aplls = s.aplls ∧ t.outs = s.outs ∧ t.times = s.times ∧ t.gate = s.gate ∧
  t.eths = s.eths ∧ t.ptps = s.ptps ∧ t.shelf = s.shelf ∧ t.power = s.power ∧ t.vio = s.vio ∧ t.tbHold = s.tbHold ∧
  t.jrOn = s.jrOn

/-- Only regs, mem, jrn, cellar may change. -/
abbrev OnlyRegsMemJrnCellar (s t : State) : Prop :=
  t.pending = s.pending ∧ t.freeIx = s.freeIx ∧ t.phase = s.phase ∧ t.straps = s.straps ∧ t.frn = s.frn ∧
  t.cyc = s.cyc ∧ t.snaps = s.snaps ∧ t.snapReq = s.snapReq ∧ t.snapAll = s.snapAll ∧ t.writeQ = s.writeQ ∧
  t.spi = s.spi ∧ t.i2c = s.i2c ∧ t.i2cHold = s.i2cHold ∧ t.pol = s.pol ∧ t.lanes = s.lanes ∧ t.funcs = s.funcs ∧
  t.rows = s.rows ∧ t.accs = s.accs ∧ t.parts = s.parts ∧ t.chans = s.chans ∧ t.pkts = s.pkts ∧ t.pairs = s.pairs ∧
  t.doms = s.doms ∧ t.aplls = s.aplls ∧ t.outs = s.outs ∧ t.times = s.times ∧ t.gate = s.gate ∧ t.eths = s.eths ∧
  t.ptps = s.ptps ∧ t.shelf = s.shelf ∧ t.root = s.root ∧ t.power = s.power ∧ t.vio = s.vio ∧ t.tbHold = s.tbHold ∧
  t.jrOn = s.jrOn

/-- Only regs, mem, jrn, chans may change. -/
abbrev OnlyRegsMemJrnChans (s t : State) : Prop :=
  t.pending = s.pending ∧ t.freeIx = s.freeIx ∧ t.phase = s.phase ∧ t.straps = s.straps ∧ t.frn = s.frn ∧
  t.cyc = s.cyc ∧ t.snaps = s.snaps ∧ t.snapReq = s.snapReq ∧ t.snapAll = s.snapAll ∧ t.writeQ = s.writeQ ∧
  t.spi = s.spi ∧ t.i2c = s.i2c ∧ t.i2cHold = s.i2cHold ∧ t.pol = s.pol ∧ t.lanes = s.lanes ∧ t.funcs = s.funcs ∧
  t.rows = s.rows ∧ t.accs = s.accs ∧ t.parts = s.parts ∧ t.pkts = s.pkts ∧ t.pairs = s.pairs ∧ t.doms = s.doms ∧
  t.aplls = s.aplls ∧ t.outs = s.outs ∧ t.times = s.times ∧ t.gate = s.gate ∧ t.eths = s.eths ∧ t.ptps = s.ptps ∧
  t.shelf = s.shelf ∧ t.cellar = s.cellar ∧ t.root = s.root ∧ t.power = s.power ∧ t.vio = s.vio ∧
  t.tbHold = s.tbHold ∧ t.jrOn = s.jrOn

/-- Only regs, pol, jrn, chans may change. -/
abbrev OnlyRegsPolJrnChans (s t : State) : Prop :=
  t.pending = s.pending ∧ t.freeIx = s.freeIx ∧ t.phase = s.phase ∧ t.straps = s.straps ∧ t.frn = s.frn ∧
  t.cyc = s.cyc ∧ t.snaps = s.snaps ∧ t.snapReq = s.snapReq ∧ t.snapAll = s.snapAll ∧ t.writeQ = s.writeQ ∧
  t.spi = s.spi ∧ t.i2c = s.i2c ∧ t.i2cHold = s.i2cHold ∧ t.mem = s.mem ∧ t.lanes = s.lanes ∧ t.funcs = s.funcs ∧
  t.rows = s.rows ∧ t.accs = s.accs ∧ t.parts = s.parts ∧ t.pkts = s.pkts ∧ t.pairs = s.pairs ∧ t.doms = s.doms ∧
  t.aplls = s.aplls ∧ t.outs = s.outs ∧ t.times = s.times ∧ t.gate = s.gate ∧ t.eths = s.eths ∧ t.ptps = s.ptps ∧
  t.shelf = s.shelf ∧ t.cellar = s.cellar ∧ t.root = s.root ∧ t.power = s.power ∧ t.vio = s.vio ∧
  t.tbHold = s.tbHold ∧ t.jrOn = s.jrOn

/-- Only regs, rows, accs, parts may change. -/
abbrev OnlyRegsRowsAccsParts (s t : State) : Prop :=
  t.pending = s.pending ∧ t.freeIx = s.freeIx ∧ t.phase = s.phase ∧ t.straps = s.straps ∧ t.frn = s.frn ∧
  t.cyc = s.cyc ∧ t.snaps = s.snaps ∧ t.snapReq = s.snapReq ∧ t.snapAll = s.snapAll ∧ t.writeQ = s.writeQ ∧
  t.spi = s.spi ∧ t.i2c = s.i2c ∧ t.i2cHold = s.i2cHold ∧ t.pol = s.pol ∧ t.mem = s.mem ∧ t.jrn = s.jrn ∧
  t.lanes = s.lanes ∧ t.funcs = s.funcs ∧ t.chans = s.chans ∧ t.pkts = s.pkts ∧ t.pairs = s.pairs ∧ t.doms = s.doms ∧
  t.aplls = s.aplls ∧ t.outs = s.outs ∧ t.times = s.times ∧ t.gate = s.gate ∧ t.eths = s.eths ∧ t.ptps = s.ptps ∧
  t.shelf = s.shelf ∧ t.cellar = s.cellar ∧ t.root = s.root ∧ t.power = s.power ∧ t.vio = s.vio ∧
  t.tbHold = s.tbHold ∧ t.jrOn = s.jrOn

/-- Only regs, snapReq, snapAll, writeQ may change. -/
abbrev OnlyRegsSnapReqSnapAllWriteQ (s t : State) : Prop :=
  t.pending = s.pending ∧ t.freeIx = s.freeIx ∧ t.phase = s.phase ∧ t.straps = s.straps ∧ t.frn = s.frn ∧
  t.cyc = s.cyc ∧ t.snaps = s.snaps ∧ t.spi = s.spi ∧ t.i2c = s.i2c ∧ t.i2cHold = s.i2cHold ∧ t.pol = s.pol ∧
  t.mem = s.mem ∧ t.jrn = s.jrn ∧ t.lanes = s.lanes ∧ t.funcs = s.funcs ∧ t.rows = s.rows ∧ t.accs = s.accs ∧
  t.parts = s.parts ∧ t.chans = s.chans ∧ t.pkts = s.pkts ∧ t.pairs = s.pairs ∧ t.doms = s.doms ∧ t.aplls = s.aplls ∧
  t.outs = s.outs ∧ t.times = s.times ∧ t.gate = s.gate ∧ t.eths = s.eths ∧ t.ptps = s.ptps ∧ t.shelf = s.shelf ∧
  t.cellar = s.cellar ∧ t.root = s.root ∧ t.power = s.power ∧ t.vio = s.vio ∧ t.tbHold = s.tbHold ∧ t.jrOn = s.jrOn

/-- Only regs, snaps, snapReq, snapAll may change. -/
abbrev OnlyRegsSnapsSnapReqSnapAll (s t : State) : Prop :=
  t.pending = s.pending ∧ t.freeIx = s.freeIx ∧ t.phase = s.phase ∧ t.straps = s.straps ∧ t.frn = s.frn ∧
  t.cyc = s.cyc ∧ t.writeQ = s.writeQ ∧ t.spi = s.spi ∧ t.i2c = s.i2c ∧ t.i2cHold = s.i2cHold ∧ t.pol = s.pol ∧
  t.mem = s.mem ∧ t.jrn = s.jrn ∧ t.lanes = s.lanes ∧ t.funcs = s.funcs ∧ t.rows = s.rows ∧ t.accs = s.accs ∧
  t.parts = s.parts ∧ t.chans = s.chans ∧ t.pkts = s.pkts ∧ t.pairs = s.pairs ∧ t.doms = s.doms ∧ t.aplls = s.aplls ∧
  t.outs = s.outs ∧ t.times = s.times ∧ t.gate = s.gate ∧ t.eths = s.eths ∧ t.ptps = s.ptps ∧ t.shelf = s.shelf ∧
  t.cellar = s.cellar ∧ t.root = s.root ∧ t.power = s.power ∧ t.vio = s.vio ∧ t.tbHold = s.tbHold ∧ t.jrOn = s.jrOn

/-- Only spi, i2c, gate, shelf may change. -/
abbrev OnlySpiI2cGateShelf (s t : State) : Prop :=
  t.pending = s.pending ∧ t.freeIx = s.freeIx ∧ t.phase = s.phase ∧ t.straps = s.straps ∧ t.frn = s.frn ∧
  t.cyc = s.cyc ∧ t.regs = s.regs ∧ t.snaps = s.snaps ∧ t.snapReq = s.snapReq ∧ t.snapAll = s.snapAll ∧
  t.writeQ = s.writeQ ∧ t.i2cHold = s.i2cHold ∧ t.pol = s.pol ∧ t.mem = s.mem ∧ t.jrn = s.jrn ∧ t.lanes = s.lanes ∧
  t.funcs = s.funcs ∧ t.rows = s.rows ∧ t.accs = s.accs ∧ t.parts = s.parts ∧ t.chans = s.chans ∧ t.pkts = s.pkts ∧
  t.pairs = s.pairs ∧ t.doms = s.doms ∧ t.aplls = s.aplls ∧ t.outs = s.outs ∧ t.times = s.times ∧ t.eths = s.eths ∧
  t.ptps = s.ptps ∧ t.cellar = s.cellar ∧ t.root = s.root ∧ t.power = s.power ∧ t.vio = s.vio ∧ t.tbHold = s.tbHold ∧
  t.jrOn = s.jrOn

/-- Only freeIx, spi, i2c, gate, shelf may change. -/
abbrev OnlyFreeIxSpiI2cGateShelf (s t : State) : Prop :=
  t.pending = s.pending ∧ t.phase = s.phase ∧ t.straps = s.straps ∧ t.frn = s.frn ∧ t.cyc = s.cyc ∧ t.regs = s.regs ∧
  t.snaps = s.snaps ∧ t.snapReq = s.snapReq ∧ t.snapAll = s.snapAll ∧ t.writeQ = s.writeQ ∧ t.i2cHold = s.i2cHold ∧
  t.pol = s.pol ∧ t.mem = s.mem ∧ t.jrn = s.jrn ∧ t.lanes = s.lanes ∧ t.funcs = s.funcs ∧ t.rows = s.rows ∧
  t.accs = s.accs ∧ t.parts = s.parts ∧ t.chans = s.chans ∧ t.pkts = s.pkts ∧ t.pairs = s.pairs ∧ t.doms = s.doms ∧
  t.aplls = s.aplls ∧ t.outs = s.outs ∧ t.times = s.times ∧ t.eths = s.eths ∧ t.ptps = s.ptps ∧ t.cellar = s.cellar ∧
  t.root = s.root ∧ t.power = s.power ∧ t.vio = s.vio ∧ t.tbHold = s.tbHold ∧ t.jrOn = s.jrOn

/-- Only phase, writeQ, i2cHold, jrn, cellar may change. -/
abbrev OnlyPhaseWriteQI2cHoldJrnCellar (s t : State) : Prop :=
  t.pending = s.pending ∧ t.freeIx = s.freeIx ∧ t.straps = s.straps ∧ t.frn = s.frn ∧ t.cyc = s.cyc ∧
  t.regs = s.regs ∧ t.snaps = s.snaps ∧ t.snapReq = s.snapReq ∧ t.snapAll = s.snapAll ∧ t.spi = s.spi ∧
  t.i2c = s.i2c ∧ t.pol = s.pol ∧ t.mem = s.mem ∧ t.lanes = s.lanes ∧ t.funcs = s.funcs ∧ t.rows = s.rows ∧
  t.accs = s.accs ∧ t.parts = s.parts ∧ t.chans = s.chans ∧ t.pkts = s.pkts ∧ t.pairs = s.pairs ∧ t.doms = s.doms ∧
  t.aplls = s.aplls ∧ t.outs = s.outs ∧ t.times = s.times ∧ t.gate = s.gate ∧ t.eths = s.eths ∧ t.ptps = s.ptps ∧
  t.shelf = s.shelf ∧ t.root = s.root ∧ t.power = s.power ∧ t.vio = s.vio ∧ t.tbHold = s.tbHold ∧ t.jrOn = s.jrOn

/-- Only regs, jrn, chans, aplls, outs may change. -/
abbrev OnlyRegsJrnChansApllsOuts (s t : State) : Prop :=
  t.pending = s.pending ∧ t.freeIx = s.freeIx ∧ t.phase = s.phase ∧ t.straps = s.straps ∧ t.frn = s.frn ∧
  t.cyc = s.cyc ∧ t.snaps = s.snaps ∧ t.snapReq = s.snapReq ∧ t.snapAll = s.snapAll ∧ t.writeQ = s.writeQ ∧
  t.spi = s.spi ∧ t.i2c = s.i2c ∧ t.i2cHold = s.i2cHold ∧ t.pol = s.pol ∧ t.mem = s.mem ∧ t.lanes = s.lanes ∧
  t.funcs = s.funcs ∧ t.rows = s.rows ∧ t.accs = s.accs ∧ t.parts = s.parts ∧ t.pkts = s.pkts ∧ t.pairs = s.pairs ∧
  t.doms = s.doms ∧ t.times = s.times ∧ t.gate = s.gate ∧ t.eths = s.eths ∧ t.ptps = s.ptps ∧ t.shelf = s.shelf ∧
  t.cellar = s.cellar ∧ t.root = s.root ∧ t.power = s.power ∧ t.vio = s.vio ∧ t.tbHold = s.tbHold ∧ t.jrOn = s.jrOn

/-- Only regs, jrn, doms, outs, times may change. -/
abbrev OnlyRegsJrnDomsOutsTimes (s t : State) : Prop :=
  t.pending = s.pending ∧ t.freeIx = s.freeIx ∧ t.phase = s.phase ∧ t.straps = s.straps ∧ t.frn = s.frn ∧
  t.cyc = s.cyc ∧ t.snaps = s.snaps ∧ t.snapReq = s.snapReq ∧ t.snapAll = s.snapAll ∧ t.writeQ = s.writeQ ∧
  t.spi = s.spi ∧ t.i2c = s.i2c ∧ t.i2cHold = s.i2cHold ∧ t.pol = s.pol ∧ t.mem = s.mem ∧ t.lanes = s.lanes ∧
  t.funcs = s.funcs ∧ t.rows = s.rows ∧ t.accs = s.accs ∧ t.parts = s.parts ∧ t.chans = s.chans ∧ t.pkts = s.pkts ∧
  t.pairs = s.pairs ∧ t.aplls = s.aplls ∧ t.gate = s.gate ∧ t.eths = s.eths ∧ t.ptps = s.ptps ∧ t.shelf = s.shelf ∧
  t.cellar = s.cellar ∧ t.root = s.root ∧ t.power = s.power ∧ t.vio = s.vio ∧ t.tbHold = s.tbHold ∧ t.jrOn = s.jrOn

/-- Only regs, jrn, lanes, funcs, aplls may change. -/
abbrev OnlyRegsJrnLanesFuncsAplls (s t : State) : Prop :=
  t.pending = s.pending ∧ t.freeIx = s.freeIx ∧ t.phase = s.phase ∧ t.straps = s.straps ∧ t.frn = s.frn ∧
  t.cyc = s.cyc ∧ t.snaps = s.snaps ∧ t.snapReq = s.snapReq ∧ t.snapAll = s.snapAll ∧ t.writeQ = s.writeQ ∧
  t.spi = s.spi ∧ t.i2c = s.i2c ∧ t.i2cHold = s.i2cHold ∧ t.pol = s.pol ∧ t.mem = s.mem ∧ t.rows = s.rows ∧
  t.accs = s.accs ∧ t.parts = s.parts ∧ t.chans = s.chans ∧ t.pkts = s.pkts ∧ t.pairs = s.pairs ∧ t.doms = s.doms ∧
  t.outs = s.outs ∧ t.times = s.times ∧ t.gate = s.gate ∧ t.eths = s.eths ∧ t.ptps = s.ptps ∧ t.shelf = s.shelf ∧
  t.cellar = s.cellar ∧ t.root = s.root ∧ t.power = s.power ∧ t.vio = s.vio ∧ t.tbHold = s.tbHold ∧ t.jrOn = s.jrOn

/-- Only regs, jrn, lanes, funcs, chans may change. -/
abbrev OnlyRegsJrnLanesFuncsChans (s t : State) : Prop :=
  t.pending = s.pending ∧ t.freeIx = s.freeIx ∧ t.phase = s.phase ∧ t.straps = s.straps ∧ t.frn = s.frn ∧
  t.cyc = s.cyc ∧ t.snaps = s.snaps ∧ t.snapReq = s.snapReq ∧ t.snapAll = s.snapAll ∧ t.writeQ = s.writeQ ∧
  t.spi = s.spi ∧ t.i2c = s.i2c ∧ t.i2cHold = s.i2cHold ∧ t.pol = s.pol ∧ t.mem = s.mem ∧ t.rows = s.rows ∧
  t.accs = s.accs ∧ t.parts = s.parts ∧ t.pkts = s.pkts ∧ t.pairs = s.pairs ∧ t.doms = s.doms ∧ t.aplls = s.aplls ∧
  t.outs = s.outs ∧ t.times = s.times ∧ t.gate = s.gate ∧ t.eths = s.eths ∧ t.ptps = s.ptps ∧ t.shelf = s.shelf ∧
  t.cellar = s.cellar ∧ t.root = s.root ∧ t.power = s.power ∧ t.vio = s.vio ∧ t.tbHold = s.tbHold ∧ t.jrOn = s.jrOn

/-- Only regs, jrn, pkts, gate, ptps may change. -/
abbrev OnlyRegsJrnPktsGatePtps (s t : State) : Prop :=
  t.pending = s.pending ∧ t.freeIx = s.freeIx ∧ t.phase = s.phase ∧ t.straps = s.straps ∧ t.frn = s.frn ∧
  t.cyc = s.cyc ∧ t.snaps = s.snaps ∧ t.snapReq = s.snapReq ∧ t.snapAll = s.snapAll ∧ t.writeQ = s.writeQ ∧
  t.spi = s.spi ∧ t.i2c = s.i2c ∧ t.i2cHold = s.i2cHold ∧ t.pol = s.pol ∧ t.mem = s.mem ∧ t.lanes = s.lanes ∧
  t.funcs = s.funcs ∧ t.rows = s.rows ∧ t.accs = s.accs ∧ t.parts = s.parts ∧ t.chans = s.chans ∧ t.pairs = s.pairs ∧
  t.doms = s.doms ∧ t.aplls = s.aplls ∧ t.outs = s.outs ∧ t.times = s.times ∧ t.eths = s.eths ∧ t.shelf = s.shelf ∧
  t.cellar = s.cellar ∧ t.root = s.root ∧ t.power = s.power ∧ t.vio = s.vio ∧ t.tbHold = s.tbHold ∧ t.jrOn = s.jrOn

/-- Only regs, lanes, funcs, chans, pkts may change. -/
abbrev OnlyRegsLanesFuncsChansPkts (s t : State) : Prop :=
  t.pending = s.pending ∧ t.freeIx = s.freeIx ∧ t.phase = s.phase ∧ t.straps = s.straps ∧ t.frn = s.frn ∧
  t.cyc = s.cyc ∧ t.snaps = s.snaps ∧ t.snapReq = s.snapReq ∧ t.snapAll = s.snapAll ∧ t.writeQ = s.writeQ ∧
  t.spi = s.spi ∧ t.i2c = s.i2c ∧ t.i2cHold = s.i2cHold ∧ t.pol = s.pol ∧ t.mem = s.mem ∧ t.jrn = s.jrn ∧
  t.rows = s.rows ∧ t.accs = s.accs ∧ t.parts = s.parts ∧ t.pairs = s.pairs ∧ t.doms = s.doms ∧ t.aplls = s.aplls ∧
  t.outs = s.outs ∧ t.times = s.times ∧ t.gate = s.gate ∧ t.eths = s.eths ∧ t.ptps = s.ptps ∧ t.shelf = s.shelf ∧
  t.cellar = s.cellar ∧ t.root = s.root ∧ t.power = s.power ∧ t.vio = s.vio ∧ t.tbHold = s.tbHold ∧ t.jrOn = s.jrOn

/-- Only regs, mem, gate, cellar, root may change. -/
abbrev OnlyRegsMemGateCellarRoot (s t : State) : Prop :=
  t.pending = s.pending ∧ t.freeIx = s.freeIx ∧ t.phase = s.phase ∧ t.straps = s.straps ∧ t.frn = s.frn ∧
  t.cyc = s.cyc ∧ t.snaps = s.snaps ∧ t.snapReq = s.snapReq ∧ t.snapAll = s.snapAll ∧ t.writeQ = s.writeQ ∧
  t.spi = s.spi ∧ t.i2c = s.i2c ∧ t.i2cHold = s.i2cHold ∧ t.pol = s.pol ∧ t.jrn = s.jrn ∧ t.lanes = s.lanes ∧
  t.funcs = s.funcs ∧ t.rows = s.rows ∧ t.accs = s.accs ∧ t.parts = s.parts ∧ t.chans = s.chans ∧ t.pkts = s.pkts ∧
  t.pairs = s.pairs ∧ t.doms = s.doms ∧ t.aplls = s.aplls ∧ t.outs = s.outs ∧ t.times = s.times ∧ t.eths = s.eths ∧
  t.ptps = s.ptps ∧ t.shelf = s.shelf ∧ t.power = s.power ∧ t.vio = s.vio ∧ t.tbHold = s.tbHold ∧ t.jrOn = s.jrOn

/-- Only regs, mem, jrn, cellar, root may change. -/
abbrev OnlyRegsMemJrnCellarRoot (s t : State) : Prop :=
  t.pending = s.pending ∧ t.freeIx = s.freeIx ∧ t.phase = s.phase ∧ t.straps = s.straps ∧ t.frn = s.frn ∧
  t.cyc = s.cyc ∧ t.snaps = s.snaps ∧ t.snapReq = s.snapReq ∧ t.snapAll = s.snapAll ∧ t.writeQ = s.writeQ ∧
  t.spi = s.spi ∧ t.i2c = s.i2c ∧ t.i2cHold = s.i2cHold ∧ t.pol = s.pol ∧ t.lanes = s.lanes ∧ t.funcs = s.funcs ∧
  t.rows = s.rows ∧ t.accs = s.accs ∧ t.parts = s.parts ∧ t.chans = s.chans ∧ t.pkts = s.pkts ∧ t.pairs = s.pairs ∧
  t.doms = s.doms ∧ t.aplls = s.aplls ∧ t.outs = s.outs ∧ t.times = s.times ∧ t.gate = s.gate ∧ t.eths = s.eths ∧
  t.ptps = s.ptps ∧ t.shelf = s.shelf ∧ t.power = s.power ∧ t.vio = s.vio ∧ t.tbHold = s.tbHold ∧ t.jrOn = s.jrOn

/-- Only regs, mem, shelf, cellar, root may change. -/
abbrev OnlyRegsMemShelfCellarRoot (s t : State) : Prop :=
  t.pending = s.pending ∧ t.freeIx = s.freeIx ∧ t.phase = s.phase ∧ t.straps = s.straps ∧ t.frn = s.frn ∧
  t.cyc = s.cyc ∧ t.snaps = s.snaps ∧ t.snapReq = s.snapReq ∧ t.snapAll = s.snapAll ∧ t.writeQ = s.writeQ ∧
  t.spi = s.spi ∧ t.i2c = s.i2c ∧ t.i2cHold = s.i2cHold ∧ t.pol = s.pol ∧ t.jrn = s.jrn ∧ t.lanes = s.lanes ∧
  t.funcs = s.funcs ∧ t.rows = s.rows ∧ t.accs = s.accs ∧ t.parts = s.parts ∧ t.chans = s.chans ∧ t.pkts = s.pkts ∧
  t.pairs = s.pairs ∧ t.doms = s.doms ∧ t.aplls = s.aplls ∧ t.outs = s.outs ∧ t.times = s.times ∧ t.gate = s.gate ∧
  t.eths = s.eths ∧ t.ptps = s.ptps ∧ t.power = s.power ∧ t.vio = s.vio ∧ t.tbHold = s.tbHold ∧ t.jrOn = s.jrOn

/-- Only freeIx, cyc, spi, i2c, gate, shelf may change. -/
abbrev OnlyFreeIxCycSpiI2cGateShelf (s t : State) : Prop :=
  t.pending = s.pending ∧ t.phase = s.phase ∧ t.straps = s.straps ∧ t.frn = s.frn ∧ t.regs = s.regs ∧
  t.snaps = s.snaps ∧ t.snapReq = s.snapReq ∧ t.snapAll = s.snapAll ∧ t.writeQ = s.writeQ ∧ t.i2cHold = s.i2cHold ∧
  t.pol = s.pol ∧ t.mem = s.mem ∧ t.jrn = s.jrn ∧ t.lanes = s.lanes ∧ t.funcs = s.funcs ∧ t.rows = s.rows ∧
  t.accs = s.accs ∧ t.parts = s.parts ∧ t.chans = s.chans ∧ t.pkts = s.pkts ∧ t.pairs = s.pairs ∧ t.doms = s.doms ∧
  t.aplls = s.aplls ∧ t.outs = s.outs ∧ t.times = s.times ∧ t.eths = s.eths ∧ t.ptps = s.ptps ∧ t.cellar = s.cellar ∧
  t.root = s.root ∧ t.power = s.power ∧ t.vio = s.vio ∧ t.tbHold = s.tbHold ∧ t.jrOn = s.jrOn

/-- Only freeIx, regs, spi, i2c, gate, shelf may change. -/
abbrev OnlyFreeIxRegsSpiI2cGateShelf (s t : State) : Prop :=
  t.pending = s.pending ∧ t.phase = s.phase ∧ t.straps = s.straps ∧ t.frn = s.frn ∧ t.cyc = s.cyc ∧
  t.snaps = s.snaps ∧ t.snapReq = s.snapReq ∧ t.snapAll = s.snapAll ∧ t.writeQ = s.writeQ ∧ t.i2cHold = s.i2cHold ∧
  t.pol = s.pol ∧ t.mem = s.mem ∧ t.jrn = s.jrn ∧ t.lanes = s.lanes ∧ t.funcs = s.funcs ∧ t.rows = s.rows ∧
  t.accs = s.accs ∧ t.parts = s.parts ∧ t.chans = s.chans ∧ t.pkts = s.pkts ∧ t.pairs = s.pairs ∧ t.doms = s.doms ∧
  t.aplls = s.aplls ∧ t.outs = s.outs ∧ t.times = s.times ∧ t.eths = s.eths ∧ t.ptps = s.ptps ∧ t.cellar = s.cellar ∧
  t.root = s.root ∧ t.power = s.power ∧ t.vio = s.vio ∧ t.tbHold = s.tbHold ∧ t.jrOn = s.jrOn

/-- Only regs, jrn, doms, aplls, outs, times may change. -/
abbrev OnlyRegsJrnDomsApllsOutsTimes (s t : State) : Prop :=
  t.pending = s.pending ∧ t.freeIx = s.freeIx ∧ t.phase = s.phase ∧ t.straps = s.straps ∧ t.frn = s.frn ∧
  t.cyc = s.cyc ∧ t.snaps = s.snaps ∧ t.snapReq = s.snapReq ∧ t.snapAll = s.snapAll ∧ t.writeQ = s.writeQ ∧
  t.spi = s.spi ∧ t.i2c = s.i2c ∧ t.i2cHold = s.i2cHold ∧ t.pol = s.pol ∧ t.mem = s.mem ∧ t.lanes = s.lanes ∧
  t.funcs = s.funcs ∧ t.rows = s.rows ∧ t.accs = s.accs ∧ t.parts = s.parts ∧ t.chans = s.chans ∧ t.pkts = s.pkts ∧
  t.pairs = s.pairs ∧ t.gate = s.gate ∧ t.eths = s.eths ∧ t.ptps = s.ptps ∧ t.shelf = s.shelf ∧ t.cellar = s.cellar ∧
  t.root = s.root ∧ t.power = s.power ∧ t.vio = s.vio ∧ t.tbHold = s.tbHold ∧ t.jrOn = s.jrOn

/-- Only regs, mem, jrn, lanes, cellar, root may change. -/
abbrev OnlyRegsMemJrnLanesCellarRoot (s t : State) : Prop :=
  t.pending = s.pending ∧ t.freeIx = s.freeIx ∧ t.phase = s.phase ∧ t.straps = s.straps ∧ t.frn = s.frn ∧
  t.cyc = s.cyc ∧ t.snaps = s.snaps ∧ t.snapReq = s.snapReq ∧ t.snapAll = s.snapAll ∧ t.writeQ = s.writeQ ∧
  t.spi = s.spi ∧ t.i2c = s.i2c ∧ t.i2cHold = s.i2cHold ∧ t.pol = s.pol ∧ t.funcs = s.funcs ∧ t.rows = s.rows ∧
  t.accs = s.accs ∧ t.parts = s.parts ∧ t.chans = s.chans ∧ t.pkts = s.pkts ∧ t.pairs = s.pairs ∧ t.doms = s.doms ∧
  t.aplls = s.aplls ∧ t.outs = s.outs ∧ t.times = s.times ∧ t.gate = s.gate ∧ t.eths = s.eths ∧ t.ptps = s.ptps ∧
  t.shelf = s.shelf ∧ t.power = s.power ∧ t.vio = s.vio ∧ t.tbHold = s.tbHold ∧ t.jrOn = s.jrOn

/-- Only regs, pairs, doms, aplls, outs, times may change. -/
abbrev OnlyRegsPairsDomsApllsOutsTimes (s t : State) : Prop :=
  t.pending = s.pending ∧ t.freeIx = s.freeIx ∧ t.phase = s.phase ∧ t.straps = s.straps ∧ t.frn = s.frn ∧
  t.cyc = s.cyc ∧ t.snaps = s.snaps ∧ t.snapReq = s.snapReq ∧ t.snapAll = s.snapAll ∧ t.writeQ = s.writeQ ∧
  t.spi = s.spi ∧ t.i2c = s.i2c ∧ t.i2cHold = s.i2cHold ∧ t.pol = s.pol ∧ t.mem = s.mem ∧ t.jrn = s.jrn ∧
  t.lanes = s.lanes ∧ t.funcs = s.funcs ∧ t.rows = s.rows ∧ t.accs = s.accs ∧ t.parts = s.parts ∧ t.chans = s.chans ∧
  t.pkts = s.pkts ∧ t.gate = s.gate ∧ t.eths = s.eths ∧ t.ptps = s.ptps ∧ t.shelf = s.shelf ∧ t.cellar = s.cellar ∧
  t.root = s.root ∧ t.power = s.power ∧ t.vio = s.vio ∧ t.tbHold = s.tbHold ∧ t.jrOn = s.jrOn

/-- Only regs, pol, mem, jrn, cellar, root may change. -/
abbrev OnlyRegsPolMemJrnCellarRoot (s t : State) : Prop :=
  t.pending = s.pending ∧ t.freeIx = s.freeIx ∧ t.phase = s.phase ∧ t.straps = s.straps ∧ t.frn = s.frn ∧
  t.cyc = s.cyc ∧ t.snaps = s.snaps ∧ t.snapReq = s.snapReq ∧ t.snapAll = s.snapAll ∧ t.writeQ = s.writeQ ∧
  t.spi = s.spi ∧ t.i2c = s.i2c ∧ t.i2cHold = s.i2cHold ∧ t.lanes = s.lanes ∧ t.funcs = s.funcs ∧ t.rows = s.rows ∧
  t.accs = s.accs ∧ t.parts = s.parts ∧ t.chans = s.chans ∧ t.pkts = s.pkts ∧ t.pairs = s.pairs ∧ t.doms = s.doms ∧
  t.aplls = s.aplls ∧ t.outs = s.outs ∧ t.times = s.times ∧ t.gate = s.gate ∧ t.eths = s.eths ∧ t.ptps = s.ptps ∧
  t.shelf = s.shelf ∧ t.power = s.power ∧ t.vio = s.vio ∧ t.tbHold = s.tbHold ∧ t.jrOn = s.jrOn

/-- Only freeIx, cyc, spi, i2c, i2cHold, gate, shelf may change. -/
abbrev OnlyFreeIxCycSpiI2cI2cHoldGateShelf (s t : State) : Prop :=
  t.pending = s.pending ∧ t.phase = s.phase ∧ t.straps = s.straps ∧ t.frn = s.frn ∧ t.regs = s.regs ∧
  t.snaps = s.snaps ∧ t.snapReq = s.snapReq ∧ t.snapAll = s.snapAll ∧ t.writeQ = s.writeQ ∧ t.pol = s.pol ∧
  t.mem = s.mem ∧ t.jrn = s.jrn ∧ t.lanes = s.lanes ∧ t.funcs = s.funcs ∧ t.rows = s.rows ∧ t.accs = s.accs ∧
  t.parts = s.parts ∧ t.chans = s.chans ∧ t.pkts = s.pkts ∧ t.pairs = s.pairs ∧ t.doms = s.doms ∧ t.aplls = s.aplls ∧
  t.outs = s.outs ∧ t.times = s.times ∧ t.eths = s.eths ∧ t.ptps = s.ptps ∧ t.cellar = s.cellar ∧ t.root = s.root ∧
  t.power = s.power ∧ t.vio = s.vio ∧ t.tbHold = s.tbHold ∧ t.jrOn = s.jrOn

/-- Only phase, regs, mem, jrn, outs, cellar, root may change. -/
abbrev OnlyPhaseRegsMemJrnOutsCellarRoot (s t : State) : Prop :=
  t.pending = s.pending ∧ t.freeIx = s.freeIx ∧ t.straps = s.straps ∧ t.frn = s.frn ∧ t.cyc = s.cyc ∧
  t.snaps = s.snaps ∧ t.snapReq = s.snapReq ∧ t.snapAll = s.snapAll ∧ t.writeQ = s.writeQ ∧ t.spi = s.spi ∧
  t.i2c = s.i2c ∧ t.i2cHold = s.i2cHold ∧ t.pol = s.pol ∧ t.lanes = s.lanes ∧ t.funcs = s.funcs ∧ t.rows = s.rows ∧
  t.accs = s.accs ∧ t.parts = s.parts ∧ t.chans = s.chans ∧ t.pkts = s.pkts ∧ t.pairs = s.pairs ∧ t.doms = s.doms ∧
  t.aplls = s.aplls ∧ t.times = s.times ∧ t.gate = s.gate ∧ t.eths = s.eths ∧ t.ptps = s.ptps ∧ t.shelf = s.shelf ∧
  t.power = s.power ∧ t.vio = s.vio ∧ t.tbHold = s.tbHold ∧ t.jrOn = s.jrOn

/-- Only regs, jrn, lanes, funcs, chans, pkts, eths may change. -/
abbrev OnlyRegsJrnLanesFuncsChansPktsEths (s t : State) : Prop :=
  t.pending = s.pending ∧ t.freeIx = s.freeIx ∧ t.phase = s.phase ∧ t.straps = s.straps ∧ t.frn = s.frn ∧
  t.cyc = s.cyc ∧ t.snaps = s.snaps ∧ t.snapReq = s.snapReq ∧ t.snapAll = s.snapAll ∧ t.writeQ = s.writeQ ∧
  t.spi = s.spi ∧ t.i2c = s.i2c ∧ t.i2cHold = s.i2cHold ∧ t.pol = s.pol ∧ t.mem = s.mem ∧ t.rows = s.rows ∧
  t.accs = s.accs ∧ t.parts = s.parts ∧ t.pairs = s.pairs ∧ t.doms = s.doms ∧ t.aplls = s.aplls ∧ t.outs = s.outs ∧
  t.times = s.times ∧ t.gate = s.gate ∧ t.ptps = s.ptps ∧ t.shelf = s.shelf ∧ t.cellar = s.cellar ∧ t.root = s.root ∧
  t.power = s.power ∧ t.vio = s.vio ∧ t.tbHold = s.tbHold ∧ t.jrOn = s.jrOn

/-- Only regs, jrn, lanes, funcs, chans, pkts, ptps may change. -/
abbrev OnlyRegsJrnLanesFuncsChansPktsPtps (s t : State) : Prop :=
  t.pending = s.pending ∧ t.freeIx = s.freeIx ∧ t.phase = s.phase ∧ t.straps = s.straps ∧ t.frn = s.frn ∧
  t.cyc = s.cyc ∧ t.snaps = s.snaps ∧ t.snapReq = s.snapReq ∧ t.snapAll = s.snapAll ∧ t.writeQ = s.writeQ ∧
  t.spi = s.spi ∧ t.i2c = s.i2c ∧ t.i2cHold = s.i2cHold ∧ t.pol = s.pol ∧ t.mem = s.mem ∧ t.rows = s.rows ∧
  t.accs = s.accs ∧ t.parts = s.parts ∧ t.pairs = s.pairs ∧ t.doms = s.doms ∧ t.aplls = s.aplls ∧ t.outs = s.outs ∧
  t.times = s.times ∧ t.gate = s.gate ∧ t.eths = s.eths ∧ t.shelf = s.shelf ∧ t.cellar = s.cellar ∧ t.root = s.root ∧
  t.power = s.power ∧ t.vio = s.vio ∧ t.tbHold = s.tbHold ∧ t.jrOn = s.jrOn

/-- Only regs, mem, jrn, shelf, cellar, root, power may change. -/
abbrev OnlyRegsMemJrnShelfCellarRootPower (s t : State) : Prop :=
  t.pending = s.pending ∧ t.freeIx = s.freeIx ∧ t.phase = s.phase ∧ t.straps = s.straps ∧ t.frn = s.frn ∧
  t.cyc = s.cyc ∧ t.snaps = s.snaps ∧ t.snapReq = s.snapReq ∧ t.snapAll = s.snapAll ∧ t.writeQ = s.writeQ ∧
  t.spi = s.spi ∧ t.i2c = s.i2c ∧ t.i2cHold = s.i2cHold ∧ t.pol = s.pol ∧ t.lanes = s.lanes ∧ t.funcs = s.funcs ∧
  t.rows = s.rows ∧ t.accs = s.accs ∧ t.parts = s.parts ∧ t.chans = s.chans ∧ t.pkts = s.pkts ∧ t.pairs = s.pairs ∧
  t.doms = s.doms ∧ t.aplls = s.aplls ∧ t.outs = s.outs ∧ t.times = s.times ∧ t.gate = s.gate ∧ t.eths = s.eths ∧
  t.ptps = s.ptps ∧ t.vio = s.vio ∧ t.tbHold = s.tbHold ∧ t.jrOn = s.jrOn

/-- Only regs, snapReq, snapAll, writeQ, spi, i2c, jrn may change. -/
abbrev OnlyRegsSnapReqSnapAllWriteQSpiI2cJrn (s t : State) : Prop :=
  t.pending = s.pending ∧ t.freeIx = s.freeIx ∧ t.phase = s.phase ∧ t.straps = s.straps ∧ t.frn = s.frn ∧
  t.cyc = s.cyc ∧ t.snaps = s.snaps ∧ t.i2cHold = s.i2cHold ∧ t.pol = s.pol ∧ t.mem = s.mem ∧ t.lanes = s.lanes ∧
  t.funcs = s.funcs ∧ t.rows = s.rows ∧ t.accs = s.accs ∧ t.parts = s.parts ∧ t.chans = s.chans ∧ t.pkts = s.pkts ∧
  t.pairs = s.pairs ∧ t.doms = s.doms ∧ t.aplls = s.aplls ∧ t.outs = s.outs ∧ t.times = s.times ∧ t.gate = s.gate ∧
  t.eths = s.eths ∧ t.ptps = s.ptps ∧ t.shelf = s.shelf ∧ t.cellar = s.cellar ∧ t.root = s.root ∧ t.power = s.power ∧
  t.vio = s.vio ∧ t.tbHold = s.tbHold ∧ t.jrOn = s.jrOn

/-- Only regs, jrn, lanes, funcs, chans, pkts, eths, ptps may change. -/
abbrev OnlyRegsJrnLanesFuncsChansPktsEthsPtps (s t : State) : Prop :=
  t.pending = s.pending ∧ t.freeIx = s.freeIx ∧ t.phase = s.phase ∧ t.straps = s.straps ∧ t.frn = s.frn ∧
  t.cyc = s.cyc ∧ t.snaps = s.snaps ∧ t.snapReq = s.snapReq ∧ t.snapAll = s.snapAll ∧ t.writeQ = s.writeQ ∧
  t.spi = s.spi ∧ t.i2c = s.i2c ∧ t.i2cHold = s.i2cHold ∧ t.pol = s.pol ∧ t.mem = s.mem ∧ t.rows = s.rows ∧
  t.accs = s.accs ∧ t.parts = s.parts ∧ t.pairs = s.pairs ∧ t.doms = s.doms ∧ t.aplls = s.aplls ∧ t.outs = s.outs ∧
  t.times = s.times ∧ t.gate = s.gate ∧ t.shelf = s.shelf ∧ t.cellar = s.cellar ∧ t.root = s.root ∧
  t.power = s.power ∧ t.vio = s.vio ∧ t.tbHold = s.tbHold ∧ t.jrOn = s.jrOn

/-- Only regs, jrn, lanes, funcs, chans, pkts, gate, ptps may change. -/
abbrev OnlyRegsJrnLanesFuncsChansPktsGatePtps (s t : State) : Prop :=
  t.pending = s.pending ∧ t.freeIx = s.freeIx ∧ t.phase = s.phase ∧ t.straps = s.straps ∧ t.frn = s.frn ∧
  t.cyc = s.cyc ∧ t.snaps = s.snaps ∧ t.snapReq = s.snapReq ∧ t.snapAll = s.snapAll ∧ t.writeQ = s.writeQ ∧
  t.spi = s.spi ∧ t.i2c = s.i2c ∧ t.i2cHold = s.i2cHold ∧ t.pol = s.pol ∧ t.mem = s.mem ∧ t.rows = s.rows ∧
  t.accs = s.accs ∧ t.parts = s.parts ∧ t.pairs = s.pairs ∧ t.doms = s.doms ∧ t.aplls = s.aplls ∧ t.outs = s.outs ∧
  t.times = s.times ∧ t.eths = s.eths ∧ t.shelf = s.shelf ∧ t.cellar = s.cellar ∧ t.root = s.root ∧
  t.power = s.power ∧ t.vio = s.vio ∧ t.tbHold = s.tbHold ∧ t.jrOn = s.jrOn

/-- Only regs, jrn, lanes, funcs, chans, pkts, pairs, doms may change. -/
abbrev OnlyRegsJrnLanesFuncsChansPktsPairsDoms (s t : State) : Prop :=
  t.pending = s.pending ∧ t.freeIx = s.freeIx ∧ t.phase = s.phase ∧ t.straps = s.straps ∧ t.frn = s.frn ∧
  t.cyc = s.cyc ∧ t.snaps = s.snaps ∧ t.snapReq = s.snapReq ∧ t.snapAll = s.snapAll ∧ t.writeQ = s.writeQ ∧
  t.spi = s.spi ∧ t.i2c = s.i2c ∧ t.i2cHold = s.i2cHold ∧ t.pol = s.pol ∧ t.mem = s.mem ∧ t.rows = s.rows ∧
  t.accs = s.accs ∧ t.parts = s.parts ∧ t.aplls = s.aplls ∧ t.outs = s.outs ∧ t.times = s.times ∧ t.gate = s.gate ∧
  t.eths = s.eths ∧ t.ptps = s.ptps ∧ t.shelf = s.shelf ∧ t.cellar = s.cellar ∧ t.root = s.root ∧ t.power = s.power ∧
  t.vio = s.vio ∧ t.tbHold = s.tbHold ∧ t.jrOn = s.jrOn

/-- Only phase, frn, cyc, regs, pairs, doms, aplls, outs, times may change. -/
abbrev OnlyPhaseFrnCycRegsPairsDomsApllsOutsTimes (s t : State) : Prop :=
  t.pending = s.pending ∧ t.freeIx = s.freeIx ∧ t.straps = s.straps ∧ t.snaps = s.snaps ∧ t.snapReq = s.snapReq ∧
  t.snapAll = s.snapAll ∧ t.writeQ = s.writeQ ∧ t.spi = s.spi ∧ t.i2c = s.i2c ∧ t.i2cHold = s.i2cHold ∧
  t.pol = s.pol ∧ t.mem = s.mem ∧ t.jrn = s.jrn ∧ t.lanes = s.lanes ∧ t.funcs = s.funcs ∧ t.rows = s.rows ∧
  t.accs = s.accs ∧ t.parts = s.parts ∧ t.chans = s.chans ∧ t.pkts = s.pkts ∧ t.gate = s.gate ∧ t.eths = s.eths ∧
  t.ptps = s.ptps ∧ t.shelf = s.shelf ∧ t.cellar = s.cellar ∧ t.root = s.root ∧ t.power = s.power ∧ t.vio = s.vio ∧
  t.tbHold = s.tbHold ∧ t.jrOn = s.jrOn

/-- Only phase, regs, writeQ, i2cHold, jrn, outs, shelf, cellar, power may change. -/
abbrev OnlyPhaseRegsWriteQPlus1 (s t : State) : Prop :=
  t.pending = s.pending ∧ t.freeIx = s.freeIx ∧ t.straps = s.straps ∧ t.frn = s.frn ∧ t.cyc = s.cyc ∧
  t.snaps = s.snaps ∧ t.snapReq = s.snapReq ∧ t.snapAll = s.snapAll ∧ t.spi = s.spi ∧ t.i2c = s.i2c ∧ t.pol = s.pol ∧
  t.mem = s.mem ∧ t.lanes = s.lanes ∧ t.funcs = s.funcs ∧ t.rows = s.rows ∧ t.accs = s.accs ∧ t.parts = s.parts ∧
  t.chans = s.chans ∧ t.pkts = s.pkts ∧ t.pairs = s.pairs ∧ t.doms = s.doms ∧ t.aplls = s.aplls ∧ t.times = s.times ∧
  t.gate = s.gate ∧ t.eths = s.eths ∧ t.ptps = s.ptps ∧ t.root = s.root ∧ t.vio = s.vio ∧ t.tbHold = s.tbHold ∧
  t.jrOn = s.jrOn

/-- Only regs, jrn, lanes, funcs, chans, pkts, gate, eths, ptps may change. -/
abbrev OnlyRegsJrnLanesFuncsChansPktsGateEthsPtps (s t : State) : Prop :=
  t.pending = s.pending ∧ t.freeIx = s.freeIx ∧ t.phase = s.phase ∧ t.straps = s.straps ∧ t.frn = s.frn ∧
  t.cyc = s.cyc ∧ t.snaps = s.snaps ∧ t.snapReq = s.snapReq ∧ t.snapAll = s.snapAll ∧ t.writeQ = s.writeQ ∧
  t.spi = s.spi ∧ t.i2c = s.i2c ∧ t.i2cHold = s.i2cHold ∧ t.pol = s.pol ∧ t.mem = s.mem ∧ t.rows = s.rows ∧
  t.accs = s.accs ∧ t.parts = s.parts ∧ t.pairs = s.pairs ∧ t.doms = s.doms ∧ t.aplls = s.aplls ∧ t.outs = s.outs ∧
  t.times = s.times ∧ t.shelf = s.shelf ∧ t.cellar = s.cellar ∧ t.root = s.root ∧ t.power = s.power ∧ t.vio = s.vio ∧
  t.tbHold = s.tbHold ∧ t.jrOn = s.jrOn

/-- Only regs, jrn, lanes, funcs, chans, pkts, gate, ptps, shelf may change. -/
abbrev OnlyRegsJrnLanesFuncsChansPktsGatePtpsShelf (s t : State) : Prop :=
  t.pending = s.pending ∧ t.freeIx = s.freeIx ∧ t.phase = s.phase ∧ t.straps = s.straps ∧ t.frn = s.frn ∧
  t.cyc = s.cyc ∧ t.snaps = s.snaps ∧ t.snapReq = s.snapReq ∧ t.snapAll = s.snapAll ∧ t.writeQ = s.writeQ ∧
  t.spi = s.spi ∧ t.i2c = s.i2c ∧ t.i2cHold = s.i2cHold ∧ t.pol = s.pol ∧ t.mem = s.mem ∧ t.rows = s.rows ∧
  t.accs = s.accs ∧ t.parts = s.parts ∧ t.pairs = s.pairs ∧ t.doms = s.doms ∧ t.aplls = s.aplls ∧ t.outs = s.outs ∧
  t.times = s.times ∧ t.eths = s.eths ∧ t.cellar = s.cellar ∧ t.root = s.root ∧ t.power = s.power ∧ t.vio = s.vio ∧
  t.tbHold = s.tbHold ∧ t.jrOn = s.jrOn

/-- Only regs, jrn, lanes, funcs, chans, pkts, times, gate, ptps may change. -/
abbrev OnlyRegsJrnLanesFuncsChansPktsTimesGatePtps (s t : State) : Prop :=
  t.pending = s.pending ∧ t.freeIx = s.freeIx ∧ t.phase = s.phase ∧ t.straps = s.straps ∧ t.frn = s.frn ∧
  t.cyc = s.cyc ∧ t.snaps = s.snaps ∧ t.snapReq = s.snapReq ∧ t.snapAll = s.snapAll ∧ t.writeQ = s.writeQ ∧
  t.spi = s.spi ∧ t.i2c = s.i2c ∧ t.i2cHold = s.i2cHold ∧ t.pol = s.pol ∧ t.mem = s.mem ∧ t.rows = s.rows ∧
  t.accs = s.accs ∧ t.parts = s.parts ∧ t.pairs = s.pairs ∧ t.doms = s.doms ∧ t.aplls = s.aplls ∧ t.outs = s.outs ∧
  t.eths = s.eths ∧ t.shelf = s.shelf ∧ t.cellar = s.cellar ∧ t.root = s.root ∧ t.power = s.power ∧ t.vio = s.vio ∧
  t.tbHold = s.tbHold ∧ t.jrOn = s.jrOn

/-- Only regs, jrn, lanes, funcs, chans, pkts, times, gate, ptps, shelf may change. -/
abbrev OnlyRegsJrnLanesPlus7 (s t : State) : Prop :=
  t.pending = s.pending ∧ t.freeIx = s.freeIx ∧ t.phase = s.phase ∧ t.straps = s.straps ∧ t.frn = s.frn ∧
  t.cyc = s.cyc ∧ t.snaps = s.snaps ∧ t.snapReq = s.snapReq ∧ t.snapAll = s.snapAll ∧ t.writeQ = s.writeQ ∧
  t.spi = s.spi ∧ t.i2c = s.i2c ∧ t.i2cHold = s.i2cHold ∧ t.pol = s.pol ∧ t.mem = s.mem ∧ t.rows = s.rows ∧
  t.accs = s.accs ∧ t.parts = s.parts ∧ t.pairs = s.pairs ∧ t.doms = s.doms ∧ t.aplls = s.aplls ∧ t.outs = s.outs ∧
  t.eths = s.eths ∧ t.cellar = s.cellar ∧ t.root = s.root ∧ t.power = s.power ∧ t.vio = s.vio ∧ t.tbHold = s.tbHold ∧
  t.jrOn = s.jrOn

/-- Only regs, snapReq, snapAll, writeQ, spi, i2c, mem, jrn, cellar, root may change. -/
abbrev OnlyRegsSnapReqSnapAllPlus7 (s t : State) : Prop :=
  t.pending = s.pending ∧ t.freeIx = s.freeIx ∧ t.phase = s.phase ∧ t.straps = s.straps ∧ t.frn = s.frn ∧
  t.cyc = s.cyc ∧ t.snaps = s.snaps ∧ t.i2cHold = s.i2cHold ∧ t.pol = s.pol ∧ t.lanes = s.lanes ∧ t.funcs = s.funcs ∧
  t.rows = s.rows ∧ t.accs = s.accs ∧ t.parts = s.parts ∧ t.chans = s.chans ∧ t.pkts = s.pkts ∧ t.pairs = s.pairs ∧
  t.doms = s.doms ∧ t.aplls = s.aplls ∧ t.outs = s.outs ∧ t.times = s.times ∧ t.gate = s.gate ∧ t.eths = s.eths ∧
  t.ptps = s.ptps ∧ t.shelf = s.shelf ∧ t.power = s.power ∧ t.vio = s.vio ∧ t.tbHold = s.tbHold ∧ t.jrOn = s.jrOn

/-- Only cyc, regs, snapReq, snapAll, writeQ, spi, i2c, mem, jrn, cellar, root may change. -/
abbrev OnlyCycRegsSnapReqPlus8 (s t : State) : Prop :=
  t.pending = s.pending ∧ t.freeIx = s.freeIx ∧ t.phase = s.phase ∧ t.straps = s.straps ∧ t.frn = s.frn ∧
  t.snaps = s.snaps ∧ t.i2cHold = s.i2cHold ∧ t.pol = s.pol ∧ t.lanes = s.lanes ∧ t.funcs = s.funcs ∧
  t.rows = s.rows ∧ t.accs = s.accs ∧ t.parts = s.parts ∧ t.chans = s.chans ∧ t.pkts = s.pkts ∧ t.pairs = s.pairs ∧
  t.doms = s.doms ∧ t.aplls = s.aplls ∧ t.outs = s.outs ∧ t.times = s.times ∧ t.gate = s.gate ∧ t.eths = s.eths ∧
  t.ptps = s.ptps ∧ t.shelf = s.shelf ∧ t.power = s.power ∧ t.vio = s.vio ∧ t.tbHold = s.tbHold ∧ t.jrOn = s.jrOn

/-- Only regs, jrn, lanes, funcs, chans, pkts, times, gate, ptps, shelf, root may change. -/
abbrev OnlyRegsJrnLanesPlus8 (s t : State) : Prop :=
  t.pending = s.pending ∧ t.freeIx = s.freeIx ∧ t.phase = s.phase ∧ t.straps = s.straps ∧ t.frn = s.frn ∧
  t.cyc = s.cyc ∧ t.snaps = s.snaps ∧ t.snapReq = s.snapReq ∧ t.snapAll = s.snapAll ∧ t.writeQ = s.writeQ ∧
  t.spi = s.spi ∧ t.i2c = s.i2c ∧ t.i2cHold = s.i2cHold ∧ t.pol = s.pol ∧ t.mem = s.mem ∧ t.rows = s.rows ∧
  t.accs = s.accs ∧ t.parts = s.parts ∧ t.pairs = s.pairs ∧ t.doms = s.doms ∧ t.aplls = s.aplls ∧ t.outs = s.outs ∧
  t.eths = s.eths ∧ t.cellar = s.cellar ∧ t.power = s.power ∧ t.vio = s.vio ∧ t.tbHold = s.tbHold ∧ t.jrOn = s.jrOn

/-- Only regs, pol, mem, jrn, chans, pkts, gate, ptps, shelf, cellar, root may change. -/
abbrev OnlyRegsPolMemPlus8 (s t : State) : Prop :=
  t.pending = s.pending ∧ t.freeIx = s.freeIx ∧ t.phase = s.phase ∧ t.straps = s.straps ∧ t.frn = s.frn ∧
  t.cyc = s.cyc ∧ t.snaps = s.snaps ∧ t.snapReq = s.snapReq ∧ t.snapAll = s.snapAll ∧ t.writeQ = s.writeQ ∧
  t.spi = s.spi ∧ t.i2c = s.i2c ∧ t.i2cHold = s.i2cHold ∧ t.lanes = s.lanes ∧ t.funcs = s.funcs ∧ t.rows = s.rows ∧
  t.accs = s.accs ∧ t.parts = s.parts ∧ t.pairs = s.pairs ∧ t.doms = s.doms ∧ t.aplls = s.aplls ∧ t.outs = s.outs ∧
  t.times = s.times ∧ t.eths = s.eths ∧ t.power = s.power ∧ t.vio = s.vio ∧ t.tbHold = s.tbHold ∧ t.jrOn = s.jrOn

/-- Only cyc, regs, snapReq, snapAll, writeQ, spi, i2c, i2cHold, mem, jrn, cellar, root may change. -/
abbrev OnlyCycRegsSnapReqPlus9 (s t : State) : Prop :=
  t.pending = s.pending ∧ t.freeIx = s.freeIx ∧ t.phase = s.phase ∧ t.straps = s.straps ∧ t.frn = s.frn ∧
  t.snaps = s.snaps ∧ t.pol = s.pol ∧ t.lanes = s.lanes ∧ t.funcs = s.funcs ∧ t.rows = s.rows ∧ t.accs = s.accs ∧
  t.parts = s.parts ∧ t.chans = s.chans ∧ t.pkts = s.pkts ∧ t.pairs = s.pairs ∧ t.doms = s.doms ∧ t.aplls = s.aplls ∧
  t.outs = s.outs ∧ t.times = s.times ∧ t.gate = s.gate ∧ t.eths = s.eths ∧ t.ptps = s.ptps ∧ t.shelf = s.shelf ∧
  t.power = s.power ∧ t.vio = s.vio ∧ t.tbHold = s.tbHold ∧ t.jrOn = s.jrOn

/-- Only freeIx, regs, mem, jrn, funcs, parts, aplls, outs, times, cellar, root, tbHold may change. -/
abbrev OnlyFreeIxRegsMemPlus9 (s t : State) : Prop :=
  t.pending = s.pending ∧ t.phase = s.phase ∧ t.straps = s.straps ∧ t.frn = s.frn ∧ t.cyc = s.cyc ∧
  t.snaps = s.snaps ∧ t.snapReq = s.snapReq ∧ t.snapAll = s.snapAll ∧ t.writeQ = s.writeQ ∧ t.spi = s.spi ∧
  t.i2c = s.i2c ∧ t.i2cHold = s.i2cHold ∧ t.pol = s.pol ∧ t.lanes = s.lanes ∧ t.rows = s.rows ∧ t.accs = s.accs ∧
  t.chans = s.chans ∧ t.pkts = s.pkts ∧ t.pairs = s.pairs ∧ t.doms = s.doms ∧ t.gate = s.gate ∧ t.eths = s.eths ∧
  t.ptps = s.ptps ∧ t.shelf = s.shelf ∧ t.power = s.power ∧ t.vio = s.vio ∧ t.jrOn = s.jrOn

/-- Only regs, mem, jrn, lanes, funcs, chans, pkts, times, gate, ptps, shelf, cellar, root may change. -/
abbrev OnlyRegsMemJrnPlus10B (s t : State) : Prop :=
  t.pending = s.pending ∧ t.freeIx = s.freeIx ∧ t.phase = s.phase ∧ t.straps = s.straps ∧ t.frn = s.frn ∧
  t.cyc = s.cyc ∧ t.snaps = s.snaps ∧ t.snapReq = s.snapReq ∧ t.snapAll = s.snapAll ∧ t.writeQ = s.writeQ ∧
  t.spi = s.spi ∧ t.i2c = s.i2c ∧ t.i2cHold = s.i2cHold ∧ t.pol = s.pol ∧ t.rows = s.rows ∧ t.accs = s.accs ∧
  t.parts = s.parts ∧ t.pairs = s.pairs ∧ t.doms = s.doms ∧ t.aplls = s.aplls ∧ t.outs = s.outs ∧ t.eths = s.eths ∧
  t.power = s.power ∧ t.vio = s.vio ∧ t.tbHold = s.tbHold ∧ t.jrOn = s.jrOn

/-- Only freeIx, regs, snapReq, snapAll, writeQ, spi, i2c, i2cHold, mem, jrn, gate, shelf, cellar, root may change. -/
abbrev OnlyFreeIxRegsSnapReqPlus11 (s t : State) : Prop :=
  t.pending = s.pending ∧ t.phase = s.phase ∧ t.straps = s.straps ∧ t.frn = s.frn ∧ t.cyc = s.cyc ∧
  t.snaps = s.snaps ∧ t.pol = s.pol ∧ t.lanes = s.lanes ∧ t.funcs = s.funcs ∧ t.rows = s.rows ∧ t.accs = s.accs ∧
  t.parts = s.parts ∧ t.chans = s.chans ∧ t.pkts = s.pkts ∧ t.pairs = s.pairs ∧ t.doms = s.doms ∧ t.aplls = s.aplls ∧
  t.outs = s.outs ∧ t.times = s.times ∧ t.eths = s.eths ∧ t.ptps = s.ptps ∧ t.power = s.power ∧ t.vio = s.vio ∧
  t.tbHold = s.tbHold ∧ t.jrOn = s.jrOn

/-- Only phase, regs, snapReq, snapAll, writeQ, spi, i2c, i2cHold, outs, gate, shelf, cellar, root, power may change.
-/
abbrev OnlyPhaseRegsSnapReqPlus11 (s t : State) : Prop :=
  t.pending = s.pending ∧ t.freeIx = s.freeIx ∧ t.straps = s.straps ∧ t.frn = s.frn ∧ t.cyc = s.cyc ∧
  t.snaps = s.snaps ∧ t.pol = s.pol ∧ t.mem = s.mem ∧ t.jrn = s.jrn ∧ t.lanes = s.lanes ∧ t.funcs = s.funcs ∧
  t.rows = s.rows ∧ t.accs = s.accs ∧ t.parts = s.parts ∧ t.chans = s.chans ∧ t.pkts = s.pkts ∧ t.pairs = s.pairs ∧
  t.doms = s.doms ∧ t.aplls = s.aplls ∧ t.times = s.times ∧ t.eths = s.eths ∧ t.ptps = s.ptps ∧ t.vio = s.vio ∧
  t.tbHold = s.tbHold ∧ t.jrOn = s.jrOn

/-- Only regs, mem, jrn, rows, parts, chans, pkts, pairs, doms, aplls, times, gate, ptps, cellar, root may change. -/
abbrev OnlyRegsMemJrnPlus12 (s t : State) : Prop :=
  t.pending = s.pending ∧ t.freeIx = s.freeIx ∧ t.phase = s.phase ∧ t.straps = s.straps ∧ t.frn = s.frn ∧
  t.cyc = s.cyc ∧ t.snaps = s.snaps ∧ t.snapReq = s.snapReq ∧ t.snapAll = s.snapAll ∧ t.writeQ = s.writeQ ∧
  t.spi = s.spi ∧ t.i2c = s.i2c ∧ t.i2cHold = s.i2cHold ∧ t.pol = s.pol ∧ t.lanes = s.lanes ∧ t.funcs = s.funcs ∧
  t.accs = s.accs ∧ t.outs = s.outs ∧ t.eths = s.eths ∧ t.shelf = s.shelf ∧ t.power = s.power ∧ t.vio = s.vio ∧
  t.tbHold = s.tbHold ∧ t.jrOn = s.jrOn

/-- Only freeIx, regs, mem, jrn, lanes, funcs, parts, chans, pkts, aplls, outs, times, gate, eths, ptps, shelf,
cellar, root may change. -/
abbrev OnlyFreeIxRegsMemPlus14 (s t : State) : Prop :=
  t.pending = s.pending ∧ t.phase = s.phase ∧ t.straps = s.straps ∧ t.frn = s.frn ∧ t.cyc = s.cyc ∧
  t.snaps = s.snaps ∧ t.snapReq = s.snapReq ∧ t.snapAll = s.snapAll ∧ t.writeQ = s.writeQ ∧ t.spi = s.spi ∧
  t.i2c = s.i2c ∧ t.i2cHold = s.i2cHold ∧ t.pol = s.pol ∧ t.rows = s.rows ∧ t.accs = s.accs ∧ t.pairs = s.pairs ∧
  t.doms = s.doms ∧ t.power = s.power ∧ t.vio = s.vio ∧ t.tbHold = s.tbHold ∧ t.jrOn = s.jrOn

/-- Only phase, regs, writeQ, i2cHold, mem, jrn, lanes, funcs, chans, pkts, outs, times, gate, ptps, shelf, cellar,
root, power may change. -/
abbrev OnlyPhaseRegsWriteQPlus15 (s t : State) : Prop :=
  t.pending = s.pending ∧ t.freeIx = s.freeIx ∧ t.straps = s.straps ∧ t.frn = s.frn ∧ t.cyc = s.cyc ∧
  t.snaps = s.snaps ∧ t.snapReq = s.snapReq ∧ t.snapAll = s.snapAll ∧ t.spi = s.spi ∧ t.i2c = s.i2c ∧ t.pol = s.pol ∧
  t.rows = s.rows ∧ t.accs = s.accs ∧ t.parts = s.parts ∧ t.pairs = s.pairs ∧ t.doms = s.doms ∧ t.aplls = s.aplls ∧
  t.eths = s.eths ∧ t.vio = s.vio ∧ t.tbHold = s.tbHold ∧ t.jrOn = s.jrOn

/-- Only regs, mem, jrn, lanes, funcs, rows, parts, chans, pkts, pairs, doms, aplls, times, gate, ptps, shelf,
cellar, root may change. -/
abbrev OnlyRegsMemJrnPlus15 (s t : State) : Prop :=
  t.pending = s.pending ∧ t.freeIx = s.freeIx ∧ t.phase = s.phase ∧ t.straps = s.straps ∧ t.frn = s.frn ∧
  t.cyc = s.cyc ∧ t.snaps = s.snaps ∧ t.snapReq = s.snapReq ∧ t.snapAll = s.snapAll ∧ t.writeQ = s.writeQ ∧
  t.spi = s.spi ∧ t.i2c = s.i2c ∧ t.i2cHold = s.i2cHold ∧ t.pol = s.pol ∧ t.accs = s.accs ∧ t.outs = s.outs ∧
  t.eths = s.eths ∧ t.power = s.power ∧ t.vio = s.vio ∧ t.tbHold = s.tbHold ∧ t.jrOn = s.jrOn

/-- Only regs, pol, mem, jrn, rows, parts, chans, pkts, pairs, doms, aplls, outs, times, gate, ptps, shelf, cellar,
root may change. -/
abbrev OnlyRegsPolMemPlus15 (s t : State) : Prop :=
  t.pending = s.pending ∧ t.freeIx = s.freeIx ∧ t.phase = s.phase ∧ t.straps = s.straps ∧ t.frn = s.frn ∧
  t.cyc = s.cyc ∧ t.snaps = s.snaps ∧ t.snapReq = s.snapReq ∧ t.snapAll = s.snapAll ∧ t.writeQ = s.writeQ ∧
  t.spi = s.spi ∧ t.i2c = s.i2c ∧ t.i2cHold = s.i2cHold ∧ t.lanes = s.lanes ∧ t.funcs = s.funcs ∧ t.accs = s.accs ∧
  t.eths = s.eths ∧ t.power = s.power ∧ t.vio = s.vio ∧ t.tbHold = s.tbHold ∧ t.jrOn = s.jrOn

/-- Only regs, mem, jrn, lanes, funcs, rows, accs, parts, chans, pkts, pairs, doms, aplls, outs, times, eths, ptps,
shelf, cellar, root may change. -/
abbrev OnlyRegsMemJrnPlus17 (s t : State) : Prop :=
  t.pending = s.pending ∧ t.freeIx = s.freeIx ∧ t.phase = s.phase ∧ t.straps = s.straps ∧ t.frn = s.frn ∧
  t.cyc = s.cyc ∧ t.snaps = s.snaps ∧ t.snapReq = s.snapReq ∧ t.snapAll = s.snapAll ∧ t.writeQ = s.writeQ ∧
  t.spi = s.spi ∧ t.i2c = s.i2c ∧ t.i2cHold = s.i2cHold ∧ t.pol = s.pol ∧ t.gate = s.gate ∧ t.power = s.power ∧
  t.vio = s.vio ∧ t.tbHold = s.tbHold ∧ t.jrOn = s.jrOn

/-- Only freeIx, regs, writeQ, pol, mem, jrn, lanes, funcs, rows, parts, chans, pkts, pairs, doms, aplls, outs,
times, gate, eths, ptps, shelf, cellar, root may change. -/
abbrev OnlyFreeIxRegsWriteQPlus17 (s t : State) : Prop :=
  t.pending = s.pending ∧ t.phase = s.phase ∧ t.straps = s.straps ∧ t.frn = s.frn ∧ t.cyc = s.cyc ∧
  t.snaps = s.snaps ∧ t.snapReq = s.snapReq ∧ t.snapAll = s.snapAll ∧ t.spi = s.spi ∧ t.i2c = s.i2c ∧
  t.i2cHold = s.i2cHold ∧ t.accs = s.accs ∧ t.power = s.power ∧ t.vio = s.vio ∧ t.tbHold = s.tbHold ∧ t.jrOn = s.jrOn

/-- Only freeIx, phase, frn, cyc, regs, writeQ, pol, mem, jrn, lanes, funcs, rows, accs, parts, chans, pkts, pairs,
doms, aplls, outs, times, gate, eths, ptps, shelf, cellar, root may change. -/
abbrev OnlyFreeIxPhaseFrnPlus18 (s t : State) : Prop :=
  t.pending = s.pending ∧ t.straps = s.straps ∧ t.snaps = s.snaps ∧ t.snapReq = s.snapReq ∧ t.snapAll = s.snapAll ∧
  t.spi = s.spi ∧ t.i2c = s.i2c ∧ t.i2cHold = s.i2cHold ∧ t.power = s.power ∧ t.vio = s.vio ∧ t.tbHold = s.tbHold ∧
  t.jrOn = s.jrOn

/-- Only freeIx, frn, cyc, regs, snaps, snapReq, snapAll, writeQ, pol, mem, jrn, lanes, funcs, rows, accs, parts,
chans, pkts, pairs, doms, aplls, outs, times, gate, eths, ptps, shelf, cellar, root, power, tbHold may change. -/
abbrev OnlyFreeIxFrnCycPlus19 (s t : State) : Prop :=
  t.pending = s.pending ∧ t.phase = s.phase ∧ t.straps = s.straps ∧ t.spi = s.spi ∧ t.i2c = s.i2c ∧
  t.i2cHold = s.i2cHold ∧ t.vio = s.vio ∧ t.jrOn = s.jrOn

/-- Only phase, straps, frn, cyc, regs, snaps, snapReq, snapAll, writeQ, spi, i2c, i2cHold, pol, mem, jrn, lanes,
funcs, rows, accs, parts, chans, pkts, pairs, doms, aplls, outs, times, gate, eths, ptps, shelf, root, tbHold may
change. -/
abbrev OnlyPhaseStrapsFrnPlus20 (s t : State) : Prop :=
  t.pending = s.pending ∧ t.freeIx = s.freeIx ∧ t.cellar = s.cellar ∧ t.power = s.power ∧ t.vio = s.vio ∧
  t.jrOn = s.jrOn

/-- Only phase, straps, frn, cyc, regs, snaps, snapReq, snapAll, writeQ, spi, i2c, i2cHold, pol, mem, jrn, lanes,
funcs, rows, accs, parts, chans, pkts, pairs, doms, aplls, outs, times, gate, eths, ptps, shelf, cellar, root, tbHold
may change. -/
abbrev OnlyPhaseStrapsFrnPlus21 (s t : State) : Prop :=
  t.pending = s.pending ∧ t.freeIx = s.freeIx ∧ t.power = s.power ∧ t.vio = s.vio ∧ t.jrOn = s.jrOn

/-- Only phase, straps, frn, cyc, regs, snaps, snapReq, snapAll, writeQ, spi, i2c, i2cHold, pol, mem, jrn, lanes,
funcs, rows, accs, parts, chans, pkts, pairs, doms, aplls, outs, times, gate, eths, ptps, shelf, cellar, root, power,
tbHold may change. -/
abbrev OnlyPhaseStrapsFrnPlus22 (s t : State) : Prop :=
  t.pending = s.pending ∧ t.freeIx = s.freeIx ∧ t.vio = s.vio ∧ t.jrOn = s.jrOn

/-- Only phase, straps, frn, cyc, regs, snaps, snapReq, snapAll, writeQ, spi, i2c, i2cHold, pol, mem, jrn, lanes,
funcs, rows, accs, parts, chans, pkts, pairs, doms, aplls, outs, times, gate, eths, ptps, shelf, cellar, root, power,
tbHold, jrOn may change. -/
abbrev OnlyPhaseStrapsFrnPlus23 (s t : State) : Prop :=
  t.pending = s.pending ∧ t.freeIx = s.freeIx ∧ t.vio = s.vio

end Sys2Proof.Machine
end

