-- ==== Sys2Proof/Laws/Frames.lean ====
section
/-! SUPPORT. The frame of every operation that returns a state: the components it leaves as they were, one lemma
for each, cited by name (`simp [cite @setF_keeps]`). The meanings' frames follow from these by simp. -/

namespace Sys2Proof.Machine

/-! ### Machine/Ops.lean -/

theorem setF_keeps (s : State) (f : Fld) (n k j v : Nat) :
    OnlyRegs s (setF s f n k j v) := by simp [OnlyRegs, setF]
theorem set1_keeps (s : State) (f : Fld) (n v : Nat) : OnlyRegs s (set1 s f n v) := by simp [OnlyRegs, set1, cite @setF_keeps]
theorem resetF_keeps (s : State) (f : Fld) (n : Nat) : OnlyRegs s (resetF s f n) := by simp [OnlyRegs, resetF, cite @setF_keeps, cite @foldl_state]
theorem resetFields_keeps (s : State) (fs : List Fld) (n : Nat) :
    OnlyRegs s (resetFields s fs n) := by simp [OnlyRegs, resetFields, cite @resetF_keeps, cite @foldl_state]
theorem setEvtBit_keeps (s : State) (p : Page) (n bit : Nat) :
    OnlyRegs s (setEvtBit s p n bit) := by simp [OnlyRegs, setEvtBit, cite @set1_keeps]
theorem raiseSat_keeps (s : State) (p : Page) (n : Nat) :
    OnlyRegs s (raiseSat s p n) := by unfold OnlyRegs raiseSat; dsimp only; (repeat' split) <;> simp [cite @set1_keeps, cite @setEvtBit_keeps]
theorem evt_keeps (s : State) (p : Page) (n bit : Nat) : OnlyRegs s (evt s p n bit) := by simp [OnlyRegs, evt, cite @raiseSat_keeps, cite @set1_keeps, cite @setEvtBit_keeps, cite @ite_state]
theorem evtIf_keeps (c : Bool) (s : State) (p : Page) (n bit : Nat) :
    OnlyRegs s (evtIf c s p n bit) := by simp [OnlyRegs, evtIf, cite @evt_keeps, cite @ite_state]
theorem addCnt_keeps (s : State) (f : Fld) (n k m : Nat) :
    OnlyRegs s (addCnt s f n k m) := by simp [OnlyRegs, addCnt, cite @raiseSat_keeps, cite @setF_keeps, cite @ite_state]
theorem partEvt_keeps (s : State) (p bit : Nat) : OnlyRegs s (partEvt s p bit) := by simp [OnlyRegs, partEvt, cite @evt_keeps]
theorem enqueue_keeps (s : State) (e : JEntry) : OnlyRegsJrn s (enqueue s e) := by simp [OnlyRegsJrn, enqueue, cite @addCnt_keeps, cite @ite_state]
theorem journal_keeps (s : State) (code : Nat) (part : Option Nat) (unit inst data : Nat) :
    OnlyRegsJrn s (journal s code part unit inst data) := by simp [OnlyRegsJrn, journal, cite @addCnt_keeps, cite @enqueue_keeps, cite @ite_state]
theorem journalPg_keeps (s : State) (code : Nat) (part : Option Nat) (p : Page) (inst data : Nat) :
    OnlyRegsJrn s (journalPg s code part p inst data) := by simp [OnlyRegsJrn, journalPg, cite @journal_keeps]
theorem setByte_keeps (s : State) (a : Nat) (b : Byte) :
    OnlyMem s (setByte s a b) := by simp [OnlyMem, setByte]
theorem setLE_keeps (s : State) (a v x1 : Nat) : OnlyMem s (setLE s a v x1) := by
  unfold OnlyMem
  induction x1 generalizing s a v with
  | zero => simp [setLE, cite @setByte_keeps]
  | succ n ih => simp [setLE, ih, cite @setByte_keeps]
theorem setBytes_keeps (s : State) (a : Nat) (x1 : List Nat) : OnlyMem s (setBytes s a x1) := by
  unfold OnlyMem
  induction x1 generalizing s a with
  | nil => simp [setBytes, cite @setByte_keeps]
  | cons b r ih => simp [setBytes, ih, cite @setByte_keeps]
theorem clearRange_keeps (s : State) (a n : Nat) :
    OnlyMem s (clearRange s a n) := by simp [OnlyMem, clearRange]
theorem modLane_keeps (s : State) (n : Nat) (f : LaneU → LaneU) :
    OnlyLanes s (modLane s n f) := by simp [OnlyLanes, modLane]
theorem modFunc_keeps (s : State) (n : Nat) (f : FuncU → FuncU) :
    OnlyFuncs s (modFunc s n f) := by simp [OnlyFuncs, modFunc]
theorem modRow_keeps (s : State) (n : Nat) (f : RowU → RowU) :
    OnlyRows s (modRow s n f) := by simp [OnlyRows, modRow]
theorem modPart_keeps (s : State) (n : Nat) (f : PartU → PartU) :
    OnlyParts s (modPart s n f) := by simp [OnlyParts, modPart]
theorem modChan_keeps (s : State) (n : Nat) (f : ChanU → ChanU) :
    OnlyChans s (modChan s n f) := by simp [OnlyChans, modChan]
theorem modPkt_keeps (s : State) (n : Nat) (f : PktU → PktU) :
    OnlyPkts s (modPkt s n f) := by simp [OnlyPkts, modPkt]
theorem modPair_keeps (s : State) (d c : Nat) (f : PairU → PairU) :
    OnlyPairs s (modPair s d c f) := by simp [OnlyPairs, modPair]
theorem modDom_keeps (s : State) (n : Nat) (f : DomU → DomU) :
    OnlyDoms s (modDom s n f) := by simp [OnlyDoms, modDom]
theorem modApll_keeps (s : State) (n : Nat) (f : ApllU → ApllU) :
    OnlyAplls s (modApll s n f) := by simp [OnlyAplls, modApll]
theorem modOut_keeps (s : State) (n : Nat) (f : OutU → OutU) :
    OnlyOuts s (modOut s n f) := by simp [OnlyOuts, modOut]
theorem modTime_keeps (s : State) (n : Nat) (f : TimeU → TimeU) :
    OnlyTimes s (modTime s n f) := by simp [OnlyTimes, modTime]
theorem modEth_keeps (s : State) (n : Nat) (f : EthU → EthU) :
    OnlyEths s (modEth s n f) := by simp [OnlyEths, modEth]
theorem modPtp_keeps (s : State) (n : Nat) (f : PtpU → PtpU) :
    OnlyPtps s (modPtp s n f) := by simp [OnlyPtps, modPtp]
theorem modPort_keeps (s : State) (p : Port) (f : PortSt → PortSt) :
    OnlySpiI2c s (modPort s p f) := by unfold OnlySpiI2c modPort; (repeat' split) <;> simp
theorem drawFree_keeps (s : State) : OnlyFreeIx s (drawFree s).2 := by simp [OnlyFreeIx, drawFree]
theorem chanEvt_keeps (s : State) (c bit : Nat) : OnlyRegs s (chanEvt s c bit) := by simp [OnlyRegs, chanEvt, cite @partEvt_keeps, cite @set1_keeps, cite @ite_state]

/-! ### Machine/Lanes.lean -/

theorem degraded_keeps (s : State) : OnlyRegs s (degraded s) := by simp [OnlyRegs, degraded, cite @evt_keeps]
theorem baseLost_keeps (s : State) (f : Nat) :
    OnlyFuncs s (baseLost s f) := by simp [OnlyFuncs, baseLost, cite @modFunc_keeps]
theorem bareLane_keeps (s : State) (n : Nat) :
    OnlyRegs s (bareLane s n) := by simp [OnlyRegs, bareLane, cite @set1_keeps]
theorem startLane_keeps (s : State) (n f : Nat) :
    OnlyRegsLanesFuncs s (startLane s n f) := by simp [OnlyRegsLanesFuncs, startLane, cite @modLane_keeps, cite @set1_keeps, cite @bareLane_keeps, cite @modFunc_keeps, cite @baseLost_keeps]
theorem journalMove_keeps (s : State) (f old new : Nat) :
    OnlyRegsJrn s (journalMove s f old new) := by simp [OnlyRegsJrn, journalMove, cite @journalPg_keeps]
theorem laneSorted_keeps (s t : State) : OnlyJrn t (laneSorted s t) := by (repeat' constructor) <;> rfl
theorem loseLane_keeps (s : State) (f old : Nat) :
    OnlyRegsJrnLanesFuncs s (loseLane s f old) := by simp [OnlyRegsJrnLanesFuncs, loseLane, cite @baseLost_keeps, cite @modLane_keeps, cite @journalMove_keeps, cite @bareLane_keeps, cite @degraded_keeps, cite @chanEvt_keeps, cite @set1_keeps, cite @ite_state]
theorem moveFunc_keeps (s : State) (f old : Nat) :
    OnlyRegsJrnLanesFuncs s (moveFunc s f old) := by
  unfold OnlyRegsJrnLanesFuncs moveFunc; dsimp only; (repeat' split) <;> simp [cite @bareLane_keeps, cite @modLane_keeps, cite @journalMove_keeps, cite @startLane_keeps, cite @chanEvt_keeps, cite @loseLane_keeps, cite @ite_state]
theorem laneFault_keeps (s : State) (n code : Nat) :
    OnlyRegs s (laneFault s n code) := by simp [OnlyRegs, laneFault, cite @evt_keeps, cite @set1_keeps, cite @ite_state]
theorem noSamples_keeps (s : State) (n k : Nat) :
    OnlyRegs s (noSamples s n k) := by simp [OnlyRegs, noSamples, cite @set1_keeps]
theorem idleLane_keeps (s : State) (n : Nat) :
    OnlyRegs s (idleLane s n) := by simp [OnlyRegs, idleLane, cite @noSamples_keeps, cite @set1_keeps, cite @ite_state]
theorem withhold_keeps (s : State) (f n : Nat) :
    OnlyRegsFuncs s (withhold s f n) := by simp [OnlyRegsFuncs, withhold, cite @noSamples_keeps, cite @modFunc_keeps]
theorem moveIfBad_keeps (bad : List (Nat × Nat)) (s : State) (f : Nat) :
    OnlyRegsJrnLanesFuncs s (moveIfBad bad s f) := by
  unfold OnlyRegsJrnLanesFuncs moveIfBad; (repeat' split) <;> simp [cite @moveFunc_keeps, cite @withhold_keeps, cite @ite_state]
theorem moveFaulted_keeps (s : State) (bad : List (Nat × Nat)) :
    OnlyRegsJrnLanesFuncs s (moveFaulted s bad) := by
  unfold OnlyRegsJrnLanesFuncs moveFaulted; dsimp only; (repeat' split) <;> simp [cite @laneSorted_keeps, cite @moveIfBad_keeps, cite @laneFault_keeps, cite @foldl_state]
theorem calibrate_keeps (s : State) (n : Nat) (result : Option Int) (codeBad : Bool) :
    OnlyRegsLanes s (calibrate s n result codeBad).1 := by unfold OnlyRegsLanes calibrate; dsimp only; (repeat' split) <;> simp [cite @modLane_keeps, cite @set1_keeps]
theorem selfCheck_keeps (s : State) (i : FrameIn) (n : Nat) :
    OnlyRegsLanes s (selfCheck s i n) := by simp [OnlyRegsLanes, selfCheck, cite @modLane_keeps, cite @set1_keeps, cite @ite_state]
theorem calFrame_keeps (s : State) (i : FrameIn) (n : Nat) :
    OnlyRegsLanes s (calFrame s i n).1 := by unfold OnlyRegsLanes calFrame; (repeat' split) <;> simp [cite @calibrate_keeps]
theorem checkLane_keeps (i : FrameIn) (a : State × List (Nat × Nat)) (n : Nat) :
    OnlyRegsLanes a.1 (checkLane i a n).1 := by unfold OnlyRegsLanes checkLane; split <;> simp [cite @selfCheck_keeps, cite @calFrame_keeps]
theorem findFaults_keeps (s : State) (i : FrameIn) : OnlyRegsLanes s (findFaults s i).1 := by
  unfold OnlyRegsLanes findFaults
  generalize List.range 18 = l
  have h := fun {β : Type} (g : State → β) (hg : ∀ t x, g (checkLane i t x).1 = g t.1) =>
    foldl_inv (fun a => g a.1) (checkLane i) hg l (s, [])
  exact ⟨h State.pending (by simp [cite @checkLane_keeps]), h State.freeIx (by simp [cite @checkLane_keeps]), h State.phase (by simp [cite @checkLane_keeps]), h State.straps (by simp [cite @checkLane_keeps]), h State.frn (by simp [cite @checkLane_keeps]), h State.cyc (by simp [cite @checkLane_keeps]), h State.snaps (by simp [cite @checkLane_keeps]), h State.snapReq (by simp [cite @checkLane_keeps]), h State.snapAll (by simp [cite @checkLane_keeps]), h State.writeQ (by simp [cite @checkLane_keeps]), h State.spi (by simp [cite @checkLane_keeps]), h State.i2c (by simp [cite @checkLane_keeps]), h State.i2cHold (by simp [cite @checkLane_keeps]), h State.pol (by simp [cite @checkLane_keeps]), h State.mem (by simp [cite @checkLane_keeps]), h State.jrn (by simp [cite @checkLane_keeps]), h State.funcs (by simp [cite @checkLane_keeps]), h State.rows (by simp [cite @checkLane_keeps]), h State.accs (by simp [cite @checkLane_keeps]), h State.parts (by simp [cite @checkLane_keeps]), h State.chans (by simp [cite @checkLane_keeps]), h State.pkts (by simp [cite @checkLane_keeps]), h State.pairs (by simp [cite @checkLane_keeps]), h State.doms (by simp [cite @checkLane_keeps]), h State.aplls (by simp [cite @checkLane_keeps]), h State.outs (by simp [cite @checkLane_keeps]), h State.times (by simp [cite @checkLane_keeps]), h State.gate (by simp [cite @checkLane_keeps]), h State.eths (by simp [cite @checkLane_keeps]), h State.ptps (by simp [cite @checkLane_keeps]), h State.shelf (by simp [cite @checkLane_keeps]), h State.cellar (by simp [cite @checkLane_keeps]), h State.root (by simp [cite @checkLane_keeps]), h State.power (by simp [cite @checkLane_keeps]), h State.vio (by simp [cite @checkLane_keeps]), h State.tbHold (by simp [cite @checkLane_keeps]), h State.jrOn (by simp [cite @checkLane_keeps])⟩
theorem laneDriven_keeps (s : State) (f : Nat) :
    OnlyRegsLanes s (laneDriven s f) := by unfold OnlyRegsLanes laneDriven; dsimp only; (repeat' split) <;> simp [cite @evt_keeps, cite @set1_keeps, cite @modLane_keeps]
theorem laneSuspect_keeps (s : State) (g : Nat) (was : Bool) :
    OnlyRegs s (laneSuspect s g was) := by unfold OnlyRegs laneSuspect; (repeat' split) <;> simp [cite @evtIf_keeps, cite @set1_keeps]
theorem suspectOnset_keeps (s : State) (g : Nat) :
    OnlyRegsFuncs s (suspectOnset s g) := by simp [OnlyRegsFuncs, suspectOnset, cite @laneSuspect_keeps, cite @modFunc_keeps, cite @chanEvt_keeps, cite @ite_state]
theorem overdriveOnset_keeps (s : State) (f : Nat) :
    OnlyRegsJrnLanesFuncsChans s (overdriveOnset s f) := by simp [OnlyRegsJrnLanesFuncsChans, overdriveOnset, cite @modFunc_keeps, cite @baseLost_keeps, cite @modChan_keeps, cite @suspectOnset_keeps, cite @laneDriven_keeps, cite @chanEvt_keeps, cite @journalPg_keeps, cite @foldl_state]
theorem overdriveLane_keeps (s : State) (f : Nat) (on : Bool) : OnlyRegsLanes s (overdriveLane s f on) := by
  unfold OnlyRegsLanes overdriveLane; dsimp only; (repeat' split) <;> simp [cite @set1_keeps, cite @addCnt_keeps, cite @modLane_keeps]
theorem overdrivePad_keeps (s : State) (f : Nat) (on : Bool) :
    OnlyRegsJrnLanesFuncsChans s (overdrivePad s f on) := by simp [OnlyRegsJrnLanesFuncsChans, overdrivePad, cite @overdriveLane_keeps, cite @overdriveOnset_keeps, cite @modFunc_keeps, cite @ite_state, cite @foldl_state]
theorem overdriveFrame_keeps (s : State) (pads : Nat) :
    OnlyRegsJrnLanesFuncsChans s (overdriveFrame s pads) := by simp [OnlyRegsJrnLanesFuncsChans, overdriveFrame, cite @overdrivePad_keeps, cite @foldl_state]
theorem suspectFlag_keeps (s : State) (f : Nat) :
    OnlyRegs s (suspectFlag s f) := by unfold OnlyRegs suspectFlag; (repeat' split) <;> simp [cite @set1_keeps]
theorem suspectFlags_keeps (s : State) : OnlyRegs s (suspectFlags s) := by simp [OnlyRegs, suspectFlags, cite @suspectFlag_keeps, cite @foldl_state]
theorem suspectTick_keeps (s : State) (f : Nat) :
    OnlyRegsFuncs s (suspectTick s f) := by unfold OnlyRegsFuncs suspectTick; dsimp only; (repeat' split) <;> simp [cite @modFunc_keeps, cite @set1_keeps]
theorem noLane_keeps (s : State) (f : Nat) :
    OnlyFuncs s (noLane s f) := by simp [OnlyFuncs, noLane, cite @modFunc_keeps]
theorem laneSummary_keeps (s : State) (n : Nat) (out : List Smp) (flags : List Nat) :
    OnlyRegs s (laneSummary s n out flags) := by
  unfold OnlyRegs laneSummary; dsimp only; (repeat' split) <;> simp [cite @set1_keeps, cite @evt_keeps, cite @addCnt_keeps, cite @evtIf_keeps, cite @ite_state, cite @foldl_state]
theorem sampleFunc_keeps (v : Interval) (s : State) (f : Nat) :
    OnlyRegsLanesFuncs s (sampleFunc v s f) := by
  unfold OnlyRegsLanesFuncs sampleFunc; dsimp only; (repeat' split) <;> simp [cite @noLane_keeps, cite @modLane_keeps, cite @modFunc_keeps, cite @set1_keeps, cite @laneSummary_keeps, cite @ite_state, cite @foldl_state]
theorem latchPlan_keeps (s : State) (f : Nat) :
    OnlyFuncs s (latchPlan s f) := by simp [OnlyFuncs, latchPlan, cite @modFunc_keeps, cite @ite_state]
theorem stage1_keeps (s : State) (i : FrameIn) :
    OnlyRegsJrnLanesFuncsChans s (stage1 s i) := by simp [OnlyRegsJrnLanesFuncsChans, stage1, cite @suspectFlags_keeps, cite @overdriveFrame_keeps, cite @findFaults_keeps, cite @sampleFunc_keeps, cite @idleLane_keeps, cite @latchPlan_keeps, cite @laneSorted_keeps, cite @moveFaulted_keeps, cite @foldl_state]
theorem spareCalEnd_keeps (s : State) (n : Nat) :
    OnlyRegs s (spareCalEnd s n) := by simp [OnlyRegs, spareCalEnd, cite @evt_keeps, cite @set1_keeps]
theorem lanesEnd_keeps (s : State) :
    OnlyRegsFuncsTbHold s (lanesEnd s) := by simp [OnlyRegsFuncsTbHold, lanesEnd, cite @spareCalEnd_keeps, cite @set1_keeps, cite @suspectTick_keeps, cite @ite_state, cite @foldl_state]
theorem lanesReset_keeps (s : State) (known : Bool) :
    OnlyLanesFuncs s (lanesReset s known) := by simp [OnlyLanesFuncs, lanesReset]

/-! ### Machine/Rows.lean -/

theorem storeWords_keeps (s : State) (r : RowU) :
    OnlyAccs s (storeWords s r) := by simp [OnlyAccs, storeWords]
theorem putRow_keeps (s : State) (n : Nat) (r : RowU) :
    OnlyRowsAccs s (putRow s n r) := by simp [OnlyRowsAccs, putRow, cite @storeWords_keeps, cite @modRow_keeps]
theorem modRun_keeps (s : State) (p : Nat) (f : PRun → PRun) :
    OnlyParts s (modRun s p f) := by simp [OnlyParts, modRun, cite @modPart_keeps]
theorem setRunRow_keeps (s : State) (p r : Nat) (x : RowRun) :
    OnlyParts s (setRunRow s p r x) := by simp [OnlyParts, setRunRow, cite @modRun_keeps]
theorem reportInf_keeps (s : State) (p : Nat) : OnlyRegs s (reportInf s p) := by simp [OnlyRegs, reportInf, cite @addCnt_keeps, cite @partEvt_keeps]
theorem reportReplays_keeps (s : State) (p x1 : Nat) : OnlyRegs s (reportReplays s p x1) := by
  unfold OnlyRegs
  induction x1 generalizing s with
  | zero => simp [reportReplays, cite @addCnt_keeps, cite @partEvt_keeps]
  | succ n ih => simp [reportReplays, ih, cite @addCnt_keeps, cite @partEvt_keeps]
theorem closeRow_keeps (s : State) (p n : Nat) (auto : Bool) :
    OnlyRowsParts s (closeRow s p n auto) := by simp [OnlyRowsParts, closeRow, cite @modPart_keeps, cite @modRow_keeps]
theorem autoClose_keeps (s : State) (p n : Nat) : OnlyRegsRowsParts s (autoClose s p n) := by
  unfold OnlyRegsRowsParts autoClose; dsimp only; (repeat' split) <;> simp [cite @setRunRow_keeps, cite @partEvt_keeps, cite @closeRow_keeps]
theorem execAcc_keeps (s : State) (p n : Nat) (i : Ins) :
    OnlyRegsRowsAccsParts s (execAcc s p n i) := by
  unfold OnlyRegsRowsAccsParts execAcc; dsimp only; (repeat' split) <;> simp [cite @setRunRow_keeps, cite @putRow_keeps, cite @reportReplays_keeps, cite @reportInf_keeps, cite @modRun_keeps, cite @autoClose_keeps, cite @ite_state]
theorem execOpn_keeps (s : State) (p n pre operand : Nat) :
    OnlyRowsAccsParts s (execOpn s p n pre operand) := by
  unfold OnlyRowsAccsParts execOpn; dsimp only; (repeat' split) <;> simp [cite @setRunRow_keeps, cite @putRow_keeps, cite @ite_state]
theorem recordFault_keeps (s : State) (p idx code : Nat) (grant : Bool) :
    OnlyRegs s (recordFault s p idx code grant) := by simp [OnlyRegs, recordFault, cite @setF_keeps, cite @partEvt_keeps, cite @addCnt_keeps, cite @set1_keeps, cite @ite_state]
theorem missedRow_keeps (s : State) (p : Nat) (x1 : Ins) :
    OnlyRows s (missedRow s p x1) := by
  unfold OnlyRows missedRow; (repeat' split) <;> simp [cite @modRow_keeps, cite @ite_state]
theorem overrun_keeps (s : State) (p : Nat) :
    OnlyRegsParts s (overrun s p) := by simp [OnlyRegsParts, overrun, cite @addCnt_keeps, cite @evt_keeps, cite @partEvt_keeps, cite @modRun_keeps]
theorem runIns_keeps (s : State) (p : Nat) (i : Ins) :
    OnlyRegsRowsAccsParts s (runIns s p i) := by
  unfold OnlyRegsRowsAccsParts runIns; (repeat' split) <;> simp [cite @modRun_keeps, cite @execOpn_keeps, cite @closeRow_keeps, cite @execAcc_keeps, cite @ite_state]
theorem stepIns_keeps (s : State) (p : Nat) (i : Ins) :
    OnlyRegsRowsAccsParts s (stepIns s p i) := by
  unfold OnlyRegsRowsAccsParts stepIns; dsimp only; (repeat' split) <;> simp [cite @modRun_keeps, cite @missedRow_keeps, cite @overrun_keeps, cite @recordFault_keeps, cite @runIns_keeps, cite @ite_state]
theorem missedRest_keeps (x1 : List Nat) (x2 : State) (x3 x4 : Nat) :
    OnlyRows x2 (missedRest x1 x2 x3 x4) := by
  unfold OnlyRows
  induction x1 generalizing x2 x3 x4 with
  | nil => simp [missedRest, cite @missedRow_keeps]
  | cons b r ih => (unfold missedRest; dsimp only; (repeat' split) <;> simp [ih, cite @missedRow_keeps])
theorem runWords_keeps (x1 : List Nat) (x2 : State) (x3 : Nat) :
    OnlyRegsRowsAccsParts x2 (runWords x1 x2 x3) := by
  unfold OnlyRegsRowsAccsParts
  induction x1 generalizing x2 x3 with
  | nil => simp [runWords, cite @stepIns_keeps, cite @missedRest_keeps]
  | cons b r ih => (unfold runWords; dsimp only; (repeat' split) <;> simp [ih, cite @stepIns_keeps, cite @missedRest_keeps])
theorem runsStart_keeps (s : State) : OnlyParts s (runsStart s) := by simp [OnlyParts, runsStart]
theorem publishRows_keeps (s : State) :
    OnlyRegsRows s (publishRows s) := by simp [OnlyRegsRows, publishRows, cite @setF_keeps, cite @modRow_keeps, cite @set1_keeps, cite @ite_state, cite @foldl_state]
theorem stage2_keeps (s : State) :
    OnlyRegsRowsAccsParts s (stage2 s) := by simp [OnlyRegsRowsAccsParts, stage2, cite @publishRows_keeps, cite @runWords_keeps, cite @set1_keeps, cite @runsStart_keeps, cite @ite_state, cite @foldl_state]
theorem publishSlots_keeps (s : State) :
    OnlyFreeIxRegs s (publishSlots s) := by simp [OnlyFreeIxRegs, publishSlots, cite @setF_keeps, cite @set1_keeps, cite @drawFree_keeps, cite @foldl_state]
theorem resetRows_keeps (s : State) (p : Nat) : OnlyRegsRowsParts s (resetRows s p) := by
  unfold OnlyRegsRowsParts resetRows; dsimp only; (repeat' split) <;> simp [cite @set1_keeps, cite @setF_keeps, cite @modPart_keeps, cite @foldl_state]
theorem descWrite_keeps (s : State) (n v : Nat) :
    OnlyRegs s (descWrite s n v) := by simp [OnlyRegs, descWrite, cite @setF_keeps, cite @ite_state]
theorem setStandby_keeps (s : State) (p i w : Nat) :
    OnlyParts s (setStandby s p i w) := by simp [OnlyParts, setStandby, cite @modPart_keeps, cite @ite_state]
theorem progWinWrite_keeps (s : State) (p i v : Nat) :
    OnlyRegsParts s (progWinWrite s p i v) := by simp [OnlyRegsParts, progWinWrite, cite @setF_keeps, cite @setStandby_keeps, cite @ite_state]
theorem progSwap_keeps (s : State) (p : Nat) : OnlyRegs s (progSwap s p) := by simp [OnlyRegs, progSwap, cite @setF_keeps]
theorem insCommand_keeps (s : State) (p : Nat) (i : Ins) :
    OnlyRegsRowsAccsParts s (insCommand s p i) := by simp [OnlyRegsRowsAccsParts, insCommand, cite @stepIns_keeps, cite @ite_state]

/-! ### Machine/Harvest.lean -/

theorem writeRec_keeps (s : State) (p slot seq : Nat) (r : Rec) :
    OnlyMem s (writeRec s p slot seq r) := by simp [OnlyMem, writeRec, cite @setLE_keeps, cite @foldl_state]
theorem dropRec_keeps (s : State) (p seq cause : Nat) :
    OnlyRegs s (dropRec s p seq cause) := by simp [OnlyRegs, dropRec, cite @partEvt_keeps, cite @addCnt_keeps, cite @setF_keeps]
theorem takeRec_keeps (s : State) (p : Nat) (r : Rec) :
    OnlyRegsMem s (takeRec s p r) := by simp [OnlyRegsMem, takeRec, cite @addCnt_keeps, cite @setF_keeps, cite @writeRec_keeps, cite @dropRec_keeps, cite @ite_state]
theorem dropStaged_keeps (s : State) (p x1 : Nat) : OnlyRegs s (dropStaged s p x1) := by
  unfold OnlyRegs
  induction x1 generalizing s with
  | zero => simp [dropStaged, cite @dropRec_keeps, cite @setF_keeps]
  | succ n ih => (unfold dropStaged; dsimp only; (repeat' split) <;> simp [ih, cite @dropRec_keeps, cite @setF_keeps])
theorem harvest_keeps (s : State) : OnlyRegsMemParts s (harvest s) := by simp [OnlyRegsMemParts, harvest, cite @partEvt_keeps, cite @modPart_keeps, cite @dropStaged_keeps, cite @takeRec_keeps, cite @ite_state, cite @foldl_state]
theorem resetHarvest_keeps (s : State) (p : Nat) :
    OnlyRegsMem s (resetHarvest s p) := by simp [OnlyRegsMem, resetHarvest, cite @setF_keeps, cite @clearRange_keeps]
theorem rdIdxWrite_keeps (s : State) (p v : Nat) :
    OnlyRegs s (rdIdxWrite s p v) := by simp [OnlyRegs, rdIdxWrite, cite @partEvt_keeps, cite @setF_keeps, cite @ite_state]

/-! ### Machine/Quality.lean -/

theorem qlChange_keeps (s : State) (c old new : Nat) (timeout : Bool) :
    OnlyRegsJrn s (qlChange s c old new timeout) := by simp [OnlyRegsJrn, qlChange, cite @chanEvt_keeps, cite @journalPg_keeps, cite @addCnt_keeps, cite @ite_state]
theorem applyRank_keeps (s : State) (c rank frames : Nat) :
    OnlyRegsJrnChans s (applyRank s c rank frames) := by simp [OnlyRegsJrnChans, applyRank, cite @qlChange_keeps, cite @modChan_keeps]
theorem qlExpire_keeps (s : State) (c : Nat) :
    OnlyRegsJrnChans s (qlExpire s c) := by simp [OnlyRegsJrnChans, qlExpire, cite @qlChange_keeps, cite @modChan_keeps]
theorem publishQl_keeps (s : State) (c : Nat) :
    OnlyRegs s (publishQl s c) := by simp [OnlyRegs, publishQl, cite @setF_keeps]
theorem qlFrame_keeps (s : State) (c : Nat) :
    OnlyRegsJrnChans s (qlFrame s c) := by simp [OnlyRegsJrnChans, qlFrame, cite @modChan_keeps, cite @publishQl_keeps, cite @qlExpire_keeps, cite @ite_state]
theorem qualSample_keeps (s : State) (c : Nat) :
    OnlyRegsChans s (qualSample s c) := by
  unfold OnlyRegsChans qualSample; dsimp only; (repeat' split) <;> simp [cite @modChan_keeps, cite @evtIf_keeps, cite @foldl_state]
theorem windowClose_keeps (s : State) (c : Nat) :
    OnlyRegsChans s (windowClose s c) := by
  unfold OnlyRegsChans windowClose; dsimp only; (repeat' split) <;> simp [cite @modChan_keeps, cite @setF_keeps, cite @ite_state]
theorem dropBaseline_keeps (s : State) (c : Nat) :
    OnlyRegsLanesFuncsChansPkts s (dropBaseline s c) := by
  unfold OnlyRegsLanesFuncsChansPkts dropBaseline; dsimp only; (repeat' split) <;> simp [cite @setF_keeps, cite @modChan_keeps, cite @baseLost_keeps, cite @modPkt_keeps, cite @set1_keeps, cite @modLane_keeps, cite @ite_state]
theorem activityChange_keeps (s : State) (c : Nat) :
    OnlyRegsLanesFuncsChansPkts s (activityChange s c) := by simp [OnlyRegsLanesFuncsChansPkts, activityChange, cite @dropBaseline_keeps, cite @modChan_keeps, cite @chanEvt_keeps, cite @ite_state]
theorem activityFrame_keeps (s : State) (c : Nat) :
    OnlyRegsLanesFuncsChansPkts s (activityFrame s c) := by simp [OnlyRegsLanesFuncsChansPkts, activityFrame, cite @activityChange_keeps, cite @modChan_keeps, cite @ite_state]
theorem stepSample_keeps (c : Nat) (s : State) (x : Smp) :
    OnlyRegsChans s (stepSample c s x) := by
  unfold OnlyRegsChans stepSample; dsimp only; (repeat' split) <;> simp [cite @setF_keeps, cite @modChan_keeps, cite @chanEvt_keeps, cite @ite_state]
theorem stepTest_keeps (s : State) (c : Nat) :
    OnlyRegsChans s (stepTest s c) := by simp [OnlyRegsChans, stepTest, cite @stepSample_keeps, cite @modChan_keeps, cite @foldl_state]
theorem reasonChanged_keeps (s : State) (d c old new : Nat) :
    OnlyRegsJrn s (reasonChanged s d c old new) := by simp [OnlyRegsJrn, reasonChanged, cite @chanEvt_keeps, cite @addCnt_keeps, cite @partEvt_keeps, cite @journalPg_keeps, cite @ite_state]
theorem putPair_keeps (s : State) (d c : Nat) (v : PairU) :
    OnlyRegsJrnPairs s (putPair s d c v) := by simp [OnlyRegsJrnPairs, putPair, cite @modPair_keeps, cite @reasonChanged_keeps, cite @ite_state]
theorem pairStage_keeps (s : State) (d c : Nat) :
    OnlyRegsJrnPairs s (pairStage s d c) := by simp [OnlyRegsJrnPairs, pairStage, cite @modPair_keeps, cite @putPair_keeps, cite @ite_state]
theorem slewClear_keeps (s : State) (d : Nat) :
    OnlyRegsDoms s (slewClear s d) := by simp [OnlyRegsDoms, slewClear, cite @setF_keeps, cite @modDom_keeps]
theorem slewEnd_keeps (s : State) (d : Nat) : OnlyRegsDoms s (slewEnd s d) := by simp [OnlyRegsDoms, slewEnd, cite @partEvt_keeps, cite @slewClear_keeps]
theorem switchTo_keeps (s : State) (d best : Nat) :
    OnlyRegsJrnDoms s (switchTo s d best) := by simp [OnlyRegsJrnDoms, switchTo, cite @setF_keeps, cite @modDom_keeps, cite @slewClear_keeps, cite @addCnt_keeps, cite @journalPg_keeps, cite @partEvt_keeps, cite @ite_state]
theorem selectDom_keeps (s : State) (d : Nat) :
    OnlyRegsJrnDoms s (selectDom s d) := by simp [OnlyRegsJrnDoms, selectDom, cite @setF_keeps, cite @switchTo_keeps, cite @ite_state]
theorem publishTests_keeps (s : State) (c : Nat) :
    OnlyRegs s (publishTests s c) := by simp [OnlyRegs, publishTests, cite @setF_keeps]
theorem qualRows_keeps (s : State) :
    OnlyRegsLanesFuncsChansPkts s (qualRows s) := by simp [OnlyRegsLanesFuncsChansPkts, qualRows, cite @activityFrame_keeps, cite @qualSample_keeps, cite @stepTest_keeps, cite @windowClose_keeps, cite @ite_state, cite @foldl_state]
theorem stage3_keeps (s : State) :
    OnlyRegsJrnLanesFuncsChansPktsPairsDoms s (stage3 s) := by simp [OnlyRegsJrnLanesFuncsChansPktsPairsDoms, stage3, cite @selectDom_keeps, cite @pairStage_keeps, cite @publishTests_keeps, cite @qlFrame_keeps, cite @qualRows_keeps, cite @foldl_state]

/-! ### Machine/Domain.lean -/

theorem publishGains_keeps (s : State) (d : Nat) :
    OnlyRegs s (publishGains s d) := by simp [OnlyRegs, publishGains, cite @set1_keeps]
theorem loopUpdate_keeps (s : State) (d : Nat) (err : Rat) (g : Nat) :
    OnlyRegsDoms s (loopUpdate s d err g) := by simp [OnlyRegsDoms, loopUpdate, cite @publishGains_keeps, cite @modDom_keeps, cite @evtIf_keeps, cite @set1_keeps, cite @ite_state]
theorem slewOver_keeps (s : State) (d : Nat) :
    OnlyRegsDoms s (slewOver s d) := by simp [OnlyRegsDoms, slewOver, cite @slewEnd_keeps, cite @slewClear_keeps, cite @ite_state]
theorem slewFrame_keeps (s : State) (d : Nat) :
    OnlyRegsDoms s (slewFrame s d) := by simp [OnlyRegsDoms, slewFrame, cite @slewOver_keeps, cite @modDom_keeps, cite @setF_keeps, cite @ite_state]
theorem applyCfg_keeps (s : State) (d : Nat) :
    OnlyRegsDoms s (applyCfg s d) := by simp [OnlyRegsDoms, applyCfg, cite @set1_keeps, cite @modDom_keeps]
theorem keepSegs_keeps (s : State) (d : Nat) :
    OnlyRegsDoms s (keepSegs s d) := by simp [OnlyRegsDoms, keepSegs, cite @modDom_keeps, cite @set1_keeps]
theorem commitCfg_keeps (s : State) (d : Nat) :
    OnlyRegsDoms s (commitCfg s d) := by simp [OnlyRegsDoms, commitCfg, cite @keepSegs_keeps, cite @set1_keeps, cite @applyCfg_keeps, cite @ite_state]
theorem publishDusk_keeps (s : State) (d : Nat) :
    OnlyRegs s (publishDusk s d) := by simp [OnlyRegs, publishDusk, cite @set1_keeps]
theorem duskRecompute_keeps (s : State) (d : Nat) :
    OnlyRegsDoms s (duskRecompute s d) := by simp [OnlyRegsDoms, duskRecompute, cite @publishDusk_keeps, cite @modDom_keeps, cite @ite_state]
theorem domChanged_keeps (s : State) (d old new left : Nat) :
    OnlyRegsJrn s (domChanged s d old new left) := by simp [OnlyRegsJrn, domChanged, cite @journalPg_keeps, cite @addCnt_keeps, cite @evt_keeps, cite @set1_keeps, cite @ite_state]
theorem setDomState_keeps (s : State) (d new left : Nat) :
    OnlyRegsJrn s (setDomState s d new left) := by simp [OnlyRegsJrn, setDomState, cite @domChanged_keeps]
theorem enterAcquiring_keeps (s : State) (d : Nat) :
    OnlyRegsJrnDoms s (enterAcquiring s d) := by simp [OnlyRegsJrnDoms, enterAcquiring, cite @applyCfg_keeps, cite @setDomState_keeps, cite @set1_keeps, cite @modDom_keeps, cite @ite_state]
theorem enterHoldover_keeps (s : State) (d : Nat) :
    OnlyRegsJrnDoms s (enterHoldover s d) := by simp [OnlyRegsJrnDoms, enterHoldover, cite @applyCfg_keeps, cite @set1_keeps, cite @modDom_keeps, cite @slewClear_keeps, cite @publishDusk_keeps, cite @setDomState_keeps, cite @ite_state, cite @foldl_state]
theorem enterLost_keeps (s : State) (d : Nat) :
    OnlyRegsJrn s (enterLost s d) := by simp [OnlyRegsJrn, enterLost, cite @setDomState_keeps, cite @set1_keeps]
theorem fbLost_keeps (s : State) (d : Nat) : OnlyRegs s (fbLost s d) := by simp [OnlyRegs, fbLost, cite @evt_keeps, cite @set1_keeps, cite @ite_state]
theorem transition_keeps (s : State) (d : Nat) : OnlyRegsJrnDoms s (transition s d).1 := by
  unfold OnlyRegsJrnDoms transition; dsimp only; (repeat' split) <;> simp [cite @enterLost_keeps, cite @enterAcquiring_keeps, cite @enterHoldover_keeps]
theorem enterLocked_keeps (s : State) (d : Nat) :
    OnlyRegsJrn s (enterLocked s d) := by simp [OnlyRegsJrn, enterLocked, cite @setDomState_keeps]
theorem bridgeStart_keeps (s : State) (d : Nat) (lane apll : Bool) :
    OnlyRegsDoms s (bridgeStart s d lane apll) := by simp [OnlyRegsDoms, bridgeStart, cite @modDom_keeps, cite @addCnt_keeps, cite @evt_keeps, cite @set1_keeps, cite @ite_state]
theorem bridgeStop_keeps (s : State) (d : Nat) :
    OnlyRegsDoms s (bridgeStop s d) := by simp [OnlyRegsDoms, bridgeStop, cite @set1_keeps, cite @modDom_keeps]
theorem bridgeFrame_keeps (s : State) (d : Nat) :
    OnlyRegsDoms s (bridgeFrame s d) := by simp [OnlyRegsDoms, bridgeFrame, cite @bridgeStop_keeps, cite @bridgeStart_keeps, cite @ite_state]
theorem closeSegment_keeps (s : State) (d : Nat) :
    OnlyRegsDoms s (closeSegment s d) := by simp [OnlyRegsDoms, closeSegment, cite @modDom_keeps, cite @keepSegs_keeps, cite @ite_state]
theorem historyFrame_keeps (s : State) (d : Nat) :
    OnlyRegsDoms s (historyFrame s d) := by simp [OnlyRegsDoms, historyFrame, cite @modDom_keeps, cite @closeSegment_keeps, cite @set1_keeps, cite @ite_state]
theorem slewRecord_keeps (s : State) (d src : Nat) (delta : Rat) :
    OnlyRegsJrn s (slewRecord s d src delta) := by simp [OnlyRegsJrn, slewRecord, cite @journalPg_keeps, cite @set1_keeps]
theorem firstError_keeps (s : State) (d : Nat) (e : Rat) :
    OnlyRegsJrnDoms s (firstError s d e) := by simp [OnlyRegsJrnDoms, firstError, cite @modDom_keeps, cite @setF_keeps, cite @slewRecord_keeps, cite @slewOver_keeps, cite @ite_state]
theorem takeB_keeps (s : State) (d : Nat) :
    OnlyDoms s (takeB s d) := by simp [OnlyDoms, takeB, cite @modDom_keeps, cite @ite_state]
theorem refUpdate_keeps (s : State) (d : Nat) :
    OnlyRegsJrnDoms s (refUpdate s d) := by simp [OnlyRegsJrnDoms, refUpdate, cite @modDom_keeps, cite @loopUpdate_keeps, cite @firstError_keeps, cite @setF_keeps, cite @slewOver_keeps, cite @ite_state]
theorem synUpdate_keeps (s : State) (d : Nat) :
    OnlyRegsDoms s (synUpdate s d) := by simp [OnlyRegsDoms, synUpdate, cite @modDom_keeps, cite @loopUpdate_keeps, cite @ite_state]
theorem coastFrame_keeps (s : State) (d : Nat) :
    OnlyRegs s (coastFrame s d) := by simp [OnlyRegs, coastFrame, cite @set1_keeps, cite @ite_state]
theorem lockCount_keeps (s : State) (d : Nat) (updated : Bool) :
    OnlyDoms s (lockCount s d updated) := by simp [OnlyDoms, lockCount, cite @modDom_keeps, cite @ite_state]
theorem lockBroken_keeps (s : State) (d : Nat) (updated : Bool) :
    OnlyRegsJrnDoms s (lockBroken s d updated) := by simp [OnlyRegsJrnDoms, lockBroken, cite @takeB_keeps, cite @modDom_keeps, cite @enterAcquiring_keeps, cite @firstError_keeps, cite @ite_state]
theorem lockMove_keeps (s : State) (d : Nat) (updated : Bool) :
    OnlyRegsJrnDoms s (lockMove s d updated) := by simp [OnlyRegsJrnDoms, lockMove, cite @lockBroken_keeps, cite @enterLocked_keeps, cite @ite_state]
theorem domMove_keeps (s : State) (d : Nat) :
    OnlyRegsJrnDoms s (domMove s d).1 := by
  unfold OnlyRegsJrnDoms domMove; (repeat' split) <;> simp [cite @transition_keeps, cite @ite_state]
theorem domUpdate_keeps (s : State) (d : Nat) :
    OnlyRegsJrnDoms s (domUpdate s d) := by simp [OnlyRegsJrnDoms, domUpdate, cite @coastFrame_keeps, cite @refUpdate_keeps, cite @synUpdate_keeps, cite @ite_state]
theorem duskFrame_keeps (s : State) (d : Nat) :
    OnlyRegs s (duskFrame s d) := by simp [OnlyRegs, duskFrame, cite @publishDusk_keeps, cite @set1_keeps, cite @ite_state]
theorem domFrame_keeps (s : State) (d : Nat) :
    OnlyRegsJrnDoms s (domFrame s d) := by
  unfold OnlyRegsJrnDoms domFrame; dsimp only; (repeat' split) <;> simp [cite @domMove_keeps, cite @bridgeFrame_keeps, cite @fbLost_keeps, cite @set1_keeps, cite @takeB_keeps, cite @publishGains_keeps, cite @lockCount_keeps, cite @slewFrame_keeps, cite @domUpdate_keeps, cite @lockMove_keeps, cite @modDom_keeps, cite @duskFrame_keeps, cite @historyFrame_keeps, cite @setF_keeps, cite @ite_state]
theorem stage4_keeps (s : State) : OnlyRegsJrnDoms s (stage4 s) := by simp [OnlyRegsJrnDoms, stage4, cite @domFrame_keeps, cite @ite_state, cite @foldl_state]
theorem startDom_keeps (s : State) (d : Nat) :
    OnlyRegsPairsDoms s (startDom s d) := by simp [OnlyRegsPairsDoms, startDom, cite @modDom_keeps, cite @setF_keeps, cite @applyCfg_keeps, cite @set1_keeps]
theorem bridgeMoved_keeps (s : State) :
    OnlyRegsDoms s (bridgeMoved s) := by simp [OnlyRegsDoms, bridgeMoved, cite @bridgeStart_keeps, cite @ite_state, cite @foldl_state]
theorem loopBw_keeps (s : State) (d : Nat) (bw damp : Option Nat) :
    OnlyRegs s (loopBw s d bw damp) := by unfold OnlyRegs loopBw; dsimp only; (repeat' split) <;> simp [cite @publishGains_keeps, cite @set1_keeps]

/-! ### Machine/Synth.lean -/

theorem publishVco_keeps (s : State) (d : Nat) : OnlyRegs s (publishVco s d) := by simp [OnlyRegs, publishVco, cite @set1_keeps]
theorem finishStop_keeps (s : State) (n : Nat) (x : Rat) :
    OnlyRegsOuts s (finishStop s n x) := by simp [OnlyRegsOuts, finishStop, cite @evt_keeps, cite @set1_keeps, cite @modOut_keeps, cite @addCnt_keeps, cite @ite_state]
theorem beginStop_keeps (s : State) (n quiet : Nat) :
    OnlyRegsOuts s (beginStop s n quiet) := by unfold OnlyRegsOuts beginStop; dsimp only; (repeat' split) <;> simp [cite @modOut_keeps, cite @finishStop_keeps]
theorem outRefresh_keeps (s : State) (n : Nat) :
    OnlyRegsOuts s (outRefresh s n) := by simp [OnlyRegsOuts, outRefresh, cite @modOut_keeps, cite @set1_keeps, cite @beginStop_keeps, cite @addCnt_keeps, cite @evt_keeps, cite @ite_state]
theorem outsRefresh_keeps (s : State) : OnlyRegsOuts s (outsRefresh s) := by simp [OnlyRegsOuts, outsRefresh, cite @outRefresh_keeps, cite @foldl_state]
theorem applyRetune_keeps (s : State) (d : Nat) :
    OnlyRegsApllsOuts s (applyRetune s d) := by simp [OnlyRegsApllsOuts, applyRetune, cite @evt_keeps, cite @outRefresh_keeps, cite @publishVco_keeps, cite @set1_keeps, cite @modApll_keeps, cite @ite_state, cite @foldl_state]
theorem journalApll_keeps (s : State) (d code : Nat) :
    OnlyRegsJrn s (journalApll s d code) := by simp [OnlyRegsJrn, journalApll, cite @journalPg_keeps]
theorem lockLost_keeps (s : State) (d : Nat) : OnlyRegsJrn s (lockLost s d) := by simp [OnlyRegsJrn, lockLost, cite @addCnt_keeps, cite @journalApll_keeps, cite @evt_keeps, cite @set1_keeps]
theorem fbRestart_keeps (s : State) (d : Nat) :
    OnlyRegsLanesFuncs s (fbRestart s d) := by
  unfold OnlyRegsLanesFuncs fbRestart; dsimp only; (repeat' split) <;> simp [cite @baseLost_keeps, cite @set1_keeps, cite @modLane_keeps, cite @ite_state]
theorem relockApll_keeps (s : State) (d : Nat) :
    OnlyRegsJrnLanesFuncsAplls s (relockApll s d) := by simp [OnlyRegsJrnLanesFuncsAplls, relockApll, cite @fbRestart_keeps, cite @set1_keeps, cite @journalApll_keeps, cite @evt_keeps, cite @modApll_keeps, cite @ite_state]
theorem retuneLocked_keeps (s : State) (d : Nat) :
    OnlyRegsLanesFuncsAplls s (retuneLocked s d) := by simp [OnlyRegsLanesFuncsAplls, retuneLocked, cite @fbRestart_keeps, cite @modApll_keeps, cite @set1_keeps]
theorem refLostAll_keeps (s : State) :
    OnlyRegsJrnJrOn s (refLostAll s) := by simp [OnlyRegsJrnJrOn, refLostAll, cite @lockLost_keeps, cite @journalApll_keeps, cite @evt_keeps, cite @set1_keeps, cite @ite_state, cite @foldl_state]
theorem refBack_keeps (s : State) : OnlyRegsJrnJrOn s (refBack s) := by simp [OnlyRegsJrnJrOn, refBack, cite @journalApll_keeps, cite @set1_keeps, cite @foldl_state]
theorem apllStart_keeps (s : State) (d : Nat) :
    OnlyRegsApllsOuts s (apllStart s d) := by simp [OnlyRegsApllsOuts, apllStart, cite @outRefresh_keeps, cite @set1_keeps, cite @publishVco_keeps, cite @modApll_keeps, cite @foldl_state]
theorem apllStop_keeps (s : State) (d : Nat) :
    OnlyRegsAplls s (apllStop s d) := by simp [OnlyRegsAplls, apllStop, cite @set1_keeps, cite @modApll_keeps]
theorem epochRequest_keeps (s : State) (d : Nat) :
    OnlyRegsAplls s (epochRequest s d) := by simp [OnlyRegsAplls, epochRequest, cite @set1_keeps, cite @modApll_keeps, cite @ite_state]
theorem zeroEpoch_keeps (s : State) (d e : Nat) :
    OnlyRegsAplls s (zeroEpoch s d e) := by simp [OnlyRegsAplls, zeroEpoch, cite @evt_keeps, cite @set1_keeps, cite @modApll_keeps, cite @ite_state]
theorem moveGrid_keeps (s : State) (n : Nat) (z : Rat) (pos : Nat) :
    OnlyOuts s (moveGrid s n z pos) := by simp [OnlyOuts, moveGrid, cite @modOut_keeps, cite @ite_state]
theorem stopIfDue_keeps (s : State) (n : Nat) :
    OnlyRegsOuts s (stopIfDue s n) := by unfold OnlyRegsOuts stopIfDue; (repeat' split) <;> simp [cite @finishStop_keeps]
theorem zeroNow_keeps (s : State) (d : Nat) :
    OnlyRegsApllsOuts s (zeroNow s d) := by simp [OnlyRegsApllsOuts, zeroNow, cite @outRefresh_keeps, cite @zeroEpoch_keeps, cite @stopIfDue_keeps, cite @moveGrid_keeps, cite @ite_state, cite @foldl_state]
theorem emitPulse_keeps (s : State) (n : Nat) (cyc : Nat) (at' : Rat) :
    OnlyOuts s (emitPulse s n cyc at') := by simp [OnlyOuts, emitPulse, cite @modOut_keeps, cite @ite_state]
theorem outStarts_keeps (s : State) (n : Nat) :
    OnlyRegsOuts s (outStarts s n) := by simp [OnlyRegsOuts, outStarts, cite @modOut_keeps, cite @set1_keeps, cite @evt_keeps, cite @ite_state]
theorem leaveAdvance_keeps (s : State) (n : Nat) (v : Ivl) :
    OnlyRegsOuts s (leaveAdvance s n v) := by
  unfold OnlyRegsOuts leaveAdvance; dsimp only; (repeat' split) <;> simp [cite @modOut_keeps, cite @evtIf_keeps, cite @ite_state]
theorem outAdvance_keeps (s0 : State) (n : Nat) (v : Ivl) (held : Bool) :
    OnlyRegsOuts s0 (outAdvance s0 n v held) := by
  unfold OnlyRegsOuts outAdvance; dsimp only; (repeat' split) <;> simp [cite @leaveAdvance_keeps, cite @moveGrid_keeps, cite @finishStop_keeps, cite @modOut_keeps, cite @emitPulse_keeps, cite @outStarts_keeps, cite @ite_state, cite @foldl_state]
theorem synthAdvance_keeps (s : State) (d cyc t0 span : Nat) (roll : Option Nat) :
    OnlyRegsApllsOuts s (synthAdvance s d cyc t0 span roll) := by
  unfold OnlyRegsApllsOuts synthAdvance; dsimp only; (repeat' split) <;> simp [cite @modApll_keeps, cite @outAdvance_keeps, cite @zeroEpoch_keeps, cite @foldl_state]
theorem steerFrame_keeps (s : State) (d : Nat) :
    OnlyRegsAplls s (steerFrame s d) := by simp [OnlyRegsAplls, steerFrame, cite @modApll_keeps, cite @evtIf_keeps, cite @set1_keeps]
theorem alignFrame_keeps (s : State) (n : Nat) :
    OnlyRegsOuts s (alignFrame s n) := by unfold OnlyRegsOuts alignFrame; dsimp only; (repeat' split) <;> simp [cite @modOut_keeps, cite @evtIf_keeps]
theorem stage5_keeps (s : State) : OnlyRegsApllsOuts s (stage5 s) := by simp [OnlyRegsApllsOuts, stage5, cite @outsRefresh_keeps, cite @alignFrame_keeps, cite @steerFrame_keeps, cite @ite_state, cite @foldl_state]
theorem cfgBad_keeps (s : State) (n : Nat) : OnlyRegs s (cfgBad s n) := by simp [OnlyRegs, cfgBad, cite @evt_keeps]
theorem outEnableWrite_keeps (s : State) (n : Nat) (en : Bool) :
    OnlyRegsOuts s (outEnableWrite s n en) := by simp [OnlyRegsOuts, outEnableWrite, cite @outRefresh_keeps, cite @set1_keeps]
theorem pulseModeWrite_keeps (s : State) (n : Nat) (pulse : Bool) :
    OnlyRegsOuts s (pulseModeWrite s n pulse) := by simp [OnlyRegsOuts, pulseModeWrite, cite @modOut_keeps, cite @set1_keeps, cite @beginStop_keeps, cite @outRefresh_keeps, cite @ite_state]
theorem dividerWrite_keeps (s : State) (n : Nat) (div coarse : Option Nat) :
    OnlyRegsOuts s (dividerWrite s n div coarse) := by simp [OnlyRegsOuts, dividerWrite, cite @cfgBad_keeps, cite @set1_keeps, cite @beginStop_keeps, cite @ite_state]
theorem pulsePeriodSet_keeps (s : State) (n : Nat) (code per width : Option Nat) :
    OnlyRegs s (pulsePeriodSet s n code per width) := by simp [OnlyRegs, pulsePeriodSet, cite @set1_keeps, cite @cfgBad_keeps, cite @ite_state]
theorem palignSet_keeps (s : State) (n chan : Nat) (en : Bool) :
    OnlyRegsOuts s (palignSet s n chan en) := by simp [OnlyRegsOuts, palignSet, cite @cfgBad_keeps, cite @outRefresh_keeps, cite @set1_keeps, cite @modOut_keeps, cite @ite_state]
theorem palignOfsSet_keeps (s : State) (n hi : Nat) :
    OnlyRegsOuts s (palignOfsSet s n hi) := by simp [OnlyRegsOuts, palignOfsSet, cite @modOut_keeps, cite @set1_keeps]
theorem fineSet_keeps (s : State) (n fine : Nat) :
    OnlyRegs s (fineSet s n fine) := by simp [OnlyRegs, fineSet, cite @set1_keeps]
theorem takeFormats_keeps (s : State) : OnlyRegsOuts s (takeFormats s) := by simp [OnlyRegsOuts, takeFormats, cite @set1_keeps, cite @modOut_keeps, cite @foldl_state]
theorem fmtPending_keeps (s : State) : OnlyRegs s (fmtPending s) := by simp [OnlyRegs, fmtPending, cite @set1_keeps, cite @foldl_state]
theorem outInit_keeps (s : State) (n : Nat) :
    OnlyRegsOuts s (outInit s n) := by simp [OnlyRegsOuts, outInit, cite @resetFields_keeps, cite @outRefresh_keeps, cite @modOut_keeps]
theorem dropEpoch_keeps (s : State) (d : Nat) :
    OnlyRegsAplls s (dropEpoch s d) := by simp [OnlyRegsAplls, dropEpoch, cite @set1_keeps, cite @modApll_keeps, cite @ite_state]
theorem synthReset_keeps (s0 : State) (d : Nat) :
    OnlyRegsAplls s0 (synthReset s0 d) := by simp [OnlyRegsAplls, synthReset, cite @dropEpoch_keeps, cite @set1_keeps, cite @foldl_state]
theorem dllLost_keeps (s : State) (n : Nat) : OnlyRegs s (dllLost s n) := by simp [OnlyRegs, dllLost, cite @evt_keeps, cite @set1_keeps]
theorem dllLocked_keeps (s : State) (n : Nat) : OnlyRegs s (dllLocked s n) := by simp [OnlyRegs, dllLocked, cite @set1_keeps]

/-! ### Machine/TimeUnit.lean -/

theorem publishTick_keeps (s : State) (d : Nat) :
    OnlyRegs s (publishTick s d) := by simp [OnlyRegs, publishTick, cite @set1_keeps]
theorem publishSlew_keeps (s : State) (d : Nat) :
    OnlyRegs s (publishSlew s d) := by simp [OnlyRegs, publishSlew, cite @set1_keeps]
theorem modTrig_keeps (s : State) (d k : Nat) (f : TrigU → TrigU) :
    OnlyTimes s (modTrig s d k f) := by simp [OnlyTimes, modTrig, cite @modTime_keeps]
theorem trigInterval_keeps (s : State) (d k : Nat) (edges : List Rat) (barred : Rat → Bool) :
    OnlyRegs s (trigInterval s d k edges barred) := by
  unfold OnlyRegs trigInterval; dsimp only; (repeat' split) <;> simp [cite @setF_keeps, cite @ite_state]
theorem trigPulse_keeps (s : State) (d k n cyc : Nat) (c : Rat) :
    OnlyRegsOuts s (trigPulse s d k n cyc c) := by simp [OnlyRegsOuts, trigPulse, cite @evt_keeps, cite @setF_keeps, cite @emitPulse_keeps, cite @ite_state]
theorem fireTrig_keeps (s : State) (d k t n frm : Nat) (late jumped : Bool) (cyc : Nat) (c : Rat) :
    OnlyRegsOutsTimes s (fireTrig s d k t n frm late jumped cyc c) := by simp [OnlyRegsOutsTimes, fireTrig, cite @setF_keeps, cite @modTrig_keeps, cite @modTime_keeps, cite @evtIf_keeps, cite @evt_keeps, cite @addCnt_keeps, cite @trigPulse_keeps, cite @ite_state]
theorem trigEdges_keeps (v : Interval) (d : Nat) (s : State) (k : Nat) :
    OnlyRegsTimes s (trigEdges v d s k) := by
  unfold OnlyRegsTimes trigEdges; dsimp only; (repeat' split) <;> simp [cite @trigInterval_keeps, cite @modTrig_keeps, cite @ite_state]
theorem trigStage_keeps (v : Interval) (s : State) :
    OnlyRegsTimes s (trigStage v s) := by simp [OnlyRegsTimes, trigStage, cite @trigEdges_keeps, cite @foldl_state]
theorem fireWithin_keeps (d k t0 span cyc x1 : Nat) (x2 : State) :
    OnlyRegsOutsTimes x2 (fireWithin d k t0 span cyc x1 x2) := by
  unfold OnlyRegsOutsTimes
  induction x1 generalizing x2 with
  | zero => simp [fireWithin, cite @fireTrig_keeps]
  | succ n ih => (unfold fireWithin; dsimp only; (repeat' split) <;> simp [ih, cite @fireTrig_keeps])
theorem jumpTrigs_keeps (s : State) (d : Nat) :
    OnlyRegsOutsTimes s (jumpTrigs s d) := by simp [OnlyRegsOutsTimes, jumpTrigs, cite @fireTrig_keeps, cite @ite_state, cite @foldl_state]
theorem lateTrigs_keeps (s : State) (d : Nat) :
    OnlyRegsOutsTimes s (lateTrigs s d) := by simp [OnlyRegsOutsTimes, lateTrigs, cite @fireTrig_keeps, cite @ite_state, cite @foldl_state]
theorem trigArmAct_keeps (s : State) (d k : Nat) :
    OnlyRegsTimes s (trigArmAct s d k) := by simp [OnlyRegsTimes, trigArmAct, cite @evt_keeps, cite @setF_keeps, cite @modTrig_keeps, cite @ite_state]
theorem trigDisarmAct_keeps (s : State) (d k : Nat) :
    OnlyRegsTimes s (trigDisarmAct s d k) := by simp [OnlyRegsTimes, trigDisarmAct, cite @setF_keeps, cite @modTrig_keeps]
theorem refuseReq_keeps (s : State) (d cause src : Nat) (delta : Rat) :
    OnlyRegsJrn s (refuseReq s d cause src delta) := by simp [OnlyRegsJrn, refuseReq, cite @journalPg_keeps, cite @evt_keeps, cite @set1_keeps]
theorem timeStep_keeps (s : State) (d src : Nat) (delta : Rat) (counted : Bool) :
    OnlyRegsJrnDomsOutsTimes s (timeStep s d src delta counted) := by simp [OnlyRegsJrnDomsOutsTimes, timeStep, cite @modTime_keeps, cite @set1_keeps, cite @addCnt_keeps, cite @evt_keeps, cite @journalPg_keeps, cite @modDom_keeps, cite @jumpTrigs_keeps, cite @ite_state]
theorem timeSlew_keeps (s : State) (d src : Nat) (delta : Rat) :
    OnlyRegsJrnDomsTimes s (timeSlew s d src delta) := by simp [OnlyRegsJrnDomsTimes, timeSlew, cite @slewRecord_keeps, cite @publishSlew_keeps, cite @modTime_keeps, cite @modDom_keeps, cite @setF_keeps, cite @ite_state]
theorem handleReq_keeps (s : State) (d src : Nat) (delta : Rat) :
    OnlyRegsJrnDomsOutsTimes s (handleReq s d src delta) := by simp [OnlyRegsJrnDomsOutsTimes, handleReq, cite @refuseReq_keeps, cite @timeStep_keeps, cite @timeSlew_keeps, cite @ite_state]
theorem resolveReqs_keeps (s : State) (d : Nat) :
    OnlyRegsJrnDomsOutsTimes s (resolveReqs s d) := by
  unfold OnlyRegsJrnDomsOutsTimes resolveReqs; dsimp only; (repeat' split) <;> simp [cite @modTime_keeps, cite @refuseReq_keeps, cite @handleReq_keeps, cite @foldl_state]
theorem putReq_keeps (s : State) (d src : Nat) (delta : Rat) (due : Nat) :
    OnlyTimes s (putReq s d src delta due) := by simp [OnlyTimes, putReq, cite @modTime_keeps]
theorem hostSet_keeps (s : State) (d : Nat) (abs rel : Bool) (due : Nat) :
    OnlyFreeIxTimes s (hostSet s d abs rel due) := by simp [OnlyFreeIxTimes, hostSet, cite @modTime_keeps, cite @drawFree_keeps, cite @ite_state]
theorem steppedFrame_keeps (s : State) (d : Nat) : OnlyRegsTimes s (steppedFrame s d) := by
  unfold OnlyRegsTimes steppedFrame; dsimp only; (repeat' split) <;> simp [cite @set1_keeps, cite @modTime_keeps]
theorem modCap_keeps (s : State) (d c : Nat) (f : CapU → CapU) :
    OnlyTimes s (modCap s d c f) := by simp [OnlyTimes, modCap, cite @modTime_keeps]
theorem capArmAct_keeps (s : State) (d c : Nat) :
    OnlyRegsTimes s (capArmAct s d c) := by simp [OnlyRegsTimes, capArmAct, cite @setF_keeps, cite @modCap_keeps, cite @ite_state]
theorem capCancelAct_keeps (s : State) (d c : Nat) :
    OnlyRegsTimes s (capCancelAct s d c) := by simp [OnlyRegsTimes, capCancelAct, cite @setF_keeps, cite @modCap_keeps]
theorem capTake_keeps (s : State) (d c : Nat) (t : Nat) :
    OnlyTimes s (capTake s d c t) := by
  unfold OnlyTimes capTake; (repeat' split) <;> simp [cite @modCap_keeps]
theorem capWrite_keeps (s : State) (d c : Nat) :
    OnlyRegsTimes s (capWrite s d c) := by unfold OnlyRegsTimes capWrite; dsimp only; (repeat' split) <;> simp [cite @evt_keeps, cite @modCap_keeps, cite @setF_keeps]
theorem capFrame_keeps (s : State) (d c : Nat) :
    OnlyRegsTimes s (capFrame s d c) := by unfold OnlyRegsTimes capFrame; dsimp only; (repeat' split) <;> simp [cite @capTake_keeps, cite @setF_keeps, cite @modCap_keeps]
theorem capStage_keeps (s : State) : OnlyRegsTimes s (capStage s) := by simp [OnlyRegsTimes, capStage, cite @capFrame_keeps, cite @capWrite_keeps, cite @foldl_state]
theorem todSend_keeps (s : State) (d sec : Nat) (stepped : Bool) :
    OnlyRegsTimes s (todSend s d sec stepped) := by simp [OnlyRegsTimes, todSend, cite @set1_keeps, cite @modTime_keeps, cite @ite_state]
theorem todConnect_keeps (s : State) (d : Nat) :
    OnlyRegsTimes s (todConnect s d) := by simp [OnlyRegsTimes, todConnect, cite @set1_keeps, cite @modTime_keeps]
theorem todFrame_keeps (s : State) (d : Nat) :
    OnlyRegsTimes s (todFrame s d) := by
  unfold OnlyRegsTimes todFrame; dsimp only; (repeat' split) <;> simp [cite @modTime_keeps, cite @todSend_keeps, cite @ite_state]
theorem rollEffects_keeps (s : State) (d sec : Nat) :
    OnlyTimes s (rollEffects s d sec) := by simp [OnlyTimes, rollEffects, cite @modTime_keeps, cite @ite_state]
theorem timeMark_keeps (s : State) (d : Nat) :
    OnlyRegsJrnTimes s (timeMark s d) := by unfold OnlyRegsJrnTimes timeMark; dsimp only; (repeat' split) <;> simp [cite @journalPg_keeps, cite @modTime_keeps]
theorem timeAdvance_keeps (i : FrameIn) (s : State) (d : Nat) :
    OnlyRegsApllsOutsTimes s (timeAdvance i s d) := by
  unfold OnlyRegsApllsOutsTimes timeAdvance; dsimp only; (repeat' split) <;> simp [cite @modOut_keeps, cite @fireWithin_keeps, cite @modApll_keeps, cite @synthAdvance_keeps, cite @modTime_keeps, cite @publishSlew_keeps, cite @rollEffects_keeps, cite @ite_state, cite @foldl_state]
theorem timeTick_keeps (s : State) (d : Nat) :
    OnlyRegsTimes s (timeTick s d) := by simp [OnlyRegsTimes, timeTick, cite @modTime_keeps, cite @steppedFrame_keeps, cite @todFrame_keeps, cite @ite_state]
theorem timeBoundary_keeps (s : State) (d : Nat) :
    OnlyRegsJrnDomsApllsOutsTimes s (timeBoundary s d) := by
  unfold OnlyRegsJrnDomsApllsOutsTimes timeBoundary; dsimp only; (repeat' split) <;> simp [cite @publishTick_keeps, cite @resolveReqs_keeps, cite @epochRequest_keeps, cite @modTime_keeps, cite @putReq_keeps, cite @modDom_keeps, cite @lateTrigs_keeps, cite @timeMark_keeps, cite @ite_state]
theorem timeStart_keeps (s : State) (d : Nat) (runs : Bool) :
    OnlyTimes s (timeStart s d runs) := by simp [OnlyTimes, timeStart, cite @modTime_keeps]
theorem utcPolicy_keeps (s : State) (d : Nat) : OnlyRegs s (utcPolicy s d) := by simp [OnlyRegs, utcPolicy, cite @set1_keeps]
theorem nmeaPause_keeps (s : State) (d : Nat) :
    OnlyTimes s (nmeaPause s d) := by simp [OnlyTimes, nmeaPause, cite @modTime_keeps]
theorem nmeaUse_keeps (s : State) (d : Nat) (m : Int) :
    OnlyRegsTimes s (nmeaUse s d m) := by simp [OnlyRegsTimes, nmeaUse, cite @modTime_keeps, cite @set1_keeps, cite @putReq_keeps, cite @evtIf_keeps, cite @ite_state]
theorem nmea_keeps (s : State) (d : Nat) (text : List Nat) (afterUs : Nat) :
    OnlyRegsTimes s (nmea s d text afterUs) := by unfold OnlyRegsTimes nmea; dsimp only; (repeat' split) <;> simp [cite @evt_keeps, cite @addCnt_keeps, cite @modTime_keeps, cite @nmeaUse_keeps]
theorem baudSet_keeps (s : State) (d v : Nat) :
    OnlyRegsTimes s (baudSet s d v) := by simp [OnlyRegsTimes, baudSet, cite @modTime_keeps, cite @set1_keeps, cite @ite_state]

/-! ### Machine/Gate.lean -/

theorem ptpEvt_keeps (s : State) (n p bit : Nat) : OnlyRegs s (ptpEvt s n p bit) := by simp [OnlyRegs, ptpEvt, cite @partEvt_keeps, cite @evt_keeps]
theorem setPtpPort_keeps (s : State) (n p v : Nat) :
    OnlyRegs s (setPtpPort s n p v) := by simp [OnlyRegs, setPtpPort, cite @ptpEvt_keeps, cite @setF_keeps, cite @ite_state]
theorem setParent_keeps (s : State) (n p id : Nat) :
    OnlyRegsJrn s (setParent s n p id) := by simp [OnlyRegsJrn, setParent, cite @journalPg_keeps, cite @ptpEvt_keeps, cite @setF_keeps]
theorem blockClear_keeps (s : State) (n p : Nat) :
    OnlyRegsJrn s (blockClear s n p) := by simp [OnlyRegsJrn, blockClear, cite @setPtpPort_keeps, cite @setF_keeps, cite @setParent_keeps, cite @ite_state, cite @foldl_state]
theorem instClear_keeps (s : State) (p : Nat) :
    OnlyRegsJrnPtps s (instClear s p) := by simp [OnlyRegsJrnPtps, instClear, cite @blockClear_keeps, cite @modPtp_keeps, cite @foldl_state]
theorem instOpen_keeps (s : State) (p : Nat) : OnlyRegs s (instOpen s p) := by simp [OnlyRegs, instOpen, cite @setF_keeps, cite @foldl_state]
theorem pktFail_keeps (s : State) (c : Nat) :
    OnlyRegsLanesFuncsChansPkts s (pktFail s c) := by simp [OnlyRegsLanesFuncsChansPkts, pktFail, cite @modChan_keeps, cite @dropBaseline_keeps]
theorem dropCalls_keeps (s : State) (p : Nat) : OnlyGate s (dropCalls s p) := by simp [OnlyGate, dropCalls]
theorem instRestart_keeps (s : State) (p : Nat) :
    OnlyRegsJrnPktsGatePtps s (instRestart s p) := by simp [OnlyRegsJrnPktsGatePtps, instRestart, cite @modPkt_keeps, cite @instClear_keeps, cite @dropCalls_keeps, cite @instOpen_keeps, cite @ite_state, cite @foldl_state]
theorem instReset_keeps (s : State) (p : Nat) :
    OnlyRegsJrnPktsGatePtps s (instReset s p) := by simp [OnlyRegsJrnPktsGatePtps, instReset, cite @instRestart_keeps, cite @modPtp_keeps]
theorem instClose_keeps (s : State) (p cause : Nat) :
    OnlyRegsJrnLanesFuncsChansPktsPtps s (instClose s p cause) := by simp [OnlyRegsJrnLanesFuncsChansPktsPtps, instClose, cite @journalPg_keeps, cite @ptpEvt_keeps, cite @addCnt_keeps, cite @setF_keeps, cite @modPtp_keeps, cite @instClear_keeps, cite @pktFail_keeps, cite @ite_state, cite @foldl_state]
theorem strange_keeps (s : State) (f : Fld) (n p : Nat) :
    OnlyRegsJrnLanesFuncsChansPktsPtps s (strange s f n p) := by simp [OnlyRegsJrnLanesFuncsChansPktsPtps, strange, cite @addCnt_keeps, cite @modPtp_keeps, cite @instClose_keeps, cite @ite_state]
theorem gateRes_keeps (s : State) (r : Nat) : OnlyGate s (gateRes s r) := by simp [OnlyGate, gateRes]
theorem gateRefuse_keeps (s : State) (code r : Nat) :
    OnlyRegsGate s (gateRefuse s code r) := by simp [OnlyRegsGate, gateRefuse, cite @set1_keeps, cite @addCnt_keeps, cite @gateRes_keeps, cite @evt_keeps, cite @ite_state]
theorem pktRefused_keeps (s : State) (p : Nat) :
    OnlyRegsJrnLanesFuncsChansPktsPtps s (pktRefused s p) := by simp [OnlyRegsJrnLanesFuncsChansPktsPtps, pktRefused, cite @instClose_keeps, cite @modPtp_keeps, cite @ite_state]
theorem callRefuse_keeps (s : State) (c : GateCall) (r : Nat) :
    OnlyRegsJrnLanesFuncsChansPktsGatePtps s (callRefuse s c r) := by
  unfold OnlyRegsJrnLanesFuncsChansPktsGatePtps callRefuse; dsimp only; (repeat' split) <;> simp [cite @pktRefused_keeps, cite @gateRefuse_keeps]
theorem gateCall_keeps (s : State) (cyc : Nat) (c : GateCall) :
    OnlyRegsJrnLanesFuncsChansPktsGatePtps s (gateCall s cyc c) := by
  unfold OnlyRegsJrnLanesFuncsChansPktsGatePtps gateCall; dsimp only; (repeat' split) <;> simp [cite @callRefuse_keeps, cite @gateRes_keeps]
theorem qlApply_keeps (s : State) (c src ssm : Nat) (ecode : Option Nat) (first : Bool) :
    OnlyRegsJrnChans s (qlApply s c src ssm ecode first) := by simp [OnlyRegsJrnChans, qlApply, cite @applyRank_keeps, cite @addCnt_keeps, cite @setF_keeps, cite @ite_state]
theorem pktApply_keeps (s : State) (p c fe : Nat) (m : Rat) :
    OnlyChansPktsPtps s (pktApply s p c fe m) := by simp [OnlyChansPktsPtps, pktApply, cite @modPkt_keeps, cite @modChan_keeps, cite @modPtp_keeps, cite @ite_state]
theorem utcApply_keeps (s : State) (p : Nat) (ofs : Int) (l61 l59 : Bool) :
    OnlyRegs s (utcApply s p ofs l61 l59) := by simp [OnlyRegs, utcApply, cite @set1_keeps]
theorem pageApply_keeps (s : State) (addr value : Nat) :
    OnlyRegsJrnLanesFuncsChansPktsPtps s (pageApply s addr value) := by simp [OnlyRegsJrnLanesFuncsChansPktsPtps, pageApply, cite @instClose_keeps, cite @setF_keeps, cite @foldl_state]
theorem gateAct_keeps (s : State) (c : GateCall) :
    OnlyRegsJrnLanesFuncsChansPktsTimesGatePtps s (gateAct s c) := by
  unfold OnlyRegsJrnLanesFuncsChansPktsTimesGatePtps gateAct; (repeat' split) <;> simp [cite @callRefuse_keeps, cite @qlApply_keeps, cite @pktApply_keeps, cite @putReq_keeps, cite @utcApply_keeps, cite @pageApply_keeps]
theorem gateStep_keeps (s : State) :
    OnlyRegsJrnLanesFuncsChansPktsTimesGatePtps s (gateStep s) := by simp [OnlyRegsJrnLanesFuncsChansPktsTimesGatePtps, gateStep, cite @gateAct_keeps, cite @foldl_state]
theorem gateJournal_keeps (s : State) (code part data : Nat) :
    OnlyRegsJrnGate s (gateJournal s code part data) := by simp [OnlyRegsJrnGate, gateJournal, cite @journal_keeps, cite @gateRes_keeps, cite @gateRefuse_keeps, cite @ite_state]

/-! ### Machine/Ether.lean -/

theorem stampTx_keeps (s : State) (n : Nat) (inst : Option Nat) (rawF rawO : Nat) :
    OnlyRegsEths s (stampTx s n inst rawF rawO) := by simp [OnlyRegsEths, stampTx, cite @modEth_keeps, cite @addCnt_keeps, cite @ite_state]
theorem stampRx_keeps (s : State) (n : Nat) : OnlyRegs s (stampRx s n) := by simp [OnlyRegs, stampRx, cite @addCnt_keeps, cite @ite_state]
theorem fifoPut_keeps (s : State) (n : Nat) (x : Stamp) :
    OnlyRegsEths s (fifoPut s n x) := by simp [OnlyRegsEths, fifoPut, cite @evt_keeps, cite @addCnt_keeps, cite @modEth_keeps, cite @ite_state]
theorem fifoTake_keeps (s : State) (n : Nat) (x : Int) :
    OnlyEths s (fifoTake s n x) := by simp [OnlyEths, fifoTake, cite @modEth_keeps]
theorem ptpHeader_keeps (s : State) (n : Nat) (b : List Nat) (o : Nat) :
    OnlyRegsJrnLanesFuncsChansPktsPtps s (ptpHeader s n b o) := by
  unfold OnlyRegsJrnLanesFuncsChansPktsPtps ptpHeader; dsimp only; (repeat' split) <;> simp [cite @addCnt_keeps, cite @strange_keeps, cite @ite_state]
theorem leafTakes_keeps (s : State) (n : Nat) (b : List Nat) :
    OnlyRegsJrnLanesFuncsChansPktsPtps s (leafTakes s n b) := by
  unfold OnlyRegsJrnLanesFuncsChansPktsPtps leafTakes; (repeat' split) <;> simp [cite @addCnt_keeps, cite @ptpHeader_keeps]
theorem floodDrop_keeps (s : State) (n : Nat) (onset : Bool) :
    OnlyRegsEths s (floodDrop s n onset) := by simp [OnlyRegsEths, floodDrop, cite @evt_keeps, cite @modEth_keeps, cite @addCnt_keeps, cite @ite_state]
theorem ethReceive_keeps (s : State) (n : Nat) (f : EthFrame) :
    OnlyRegsJrnLanesFuncsChansPktsEthsPtps s (ethReceive s n f) := by
  unfold OnlyRegsJrnLanesFuncsChansPktsEthsPtps ethReceive; dsimp only; (repeat' split) <;> simp [cite @addCnt_keeps, cite @stampRx_keeps, cite @floodDrop_keeps, cite @modEth_keeps, cite @leafTakes_keeps, cite @fifoPut_keeps, cite @ite_state]
theorem portStates_keeps (s : State) (n v : Nat) :
    OnlyRegs s (portStates s n v) := by simp [OnlyRegs, portStates, cite @setPtpPort_keeps, cite @foldl_state]
theorem linkDown_keeps (s : State) (n cause v : Nat) :
    OnlyRegsJrnChans s (linkDown s n cause v) := by simp [OnlyRegsJrnChans, linkDown, cite @portStates_keeps, cite @journalPg_keeps, cite @modChan_keeps, cite @addCnt_keeps, cite @evt_keeps, cite @set1_keeps, cite @ite_state]
theorem txclkJudge_keeps (s : State) (n : Nat) : OnlyRegs s (txclkJudge s n) := by simp [OnlyRegs, txclkJudge, cite @set1_keeps]
theorem pcsLocks_keeps (s : State) (n : Nat) (speedOk : Bool) :
    OnlyRegsJrnLanesFuncsChansPktsEths s (pcsLocks s n speedOk) := by simp [OnlyRegsJrnLanesFuncsChansPktsEths, pcsLocks, cite @linkDown_keeps, cite @set1_keeps, cite @modEth_keeps, cite @modChan_keeps, cite @dropBaseline_keeps, cite @portStates_keeps, cite @journalPg_keeps, cite @evt_keeps, cite @ite_state]
theorem calEnds_keeps (s : State) (n : Nat) (rx tx : Int) :
    OnlyRegs s (calEnds s n rx tx) := by simp [OnlyRegs, calEnds, cite @set1_keeps, cite @evt_keeps, cite @ite_state]
theorem portEnableWrite_keeps (s : State) (n : Nat) (en : Bool) :
    OnlyRegsJrnChans s (portEnableWrite s n en) := by simp [OnlyRegsJrnChans, portEnableWrite, cite @linkDown_keeps, cite @set1_keeps, cite @portStates_keeps, cite @ite_state]
theorem restartAn_keeps (s : State) (n : Nat) : OnlyEths s (restartAn s n) := by simp [OnlyEths, restartAn, cite @modEth_keeps, cite @ite_state]
theorem applyAct_keeps (s : State) (d : Nat) :
    OnlyRegsJrnChansApllsOuts s (applyAct s d) := by simp [OnlyRegsJrnChansApllsOuts, applyAct, cite @applyRetune_keeps, cite @txclkJudge_keeps, cite @linkDown_keeps, cite @ite_state, cite @foldl_state]
theorem publishGrants_keeps (s : State) (p : Nat) :
    OnlyRegs s (publishGrants s p) := by simp [OnlyRegs, publishGrants, cite @setF_keeps, cite @foldl_state]
theorem portModeChange_keeps (s : State) (n : Nat) :
    OnlyRegsJrnChansPtps s (portModeChange s n) := by simp [OnlyRegsJrnChansPtps, portModeChange, cite @publishGrants_keeps, cite @modPtp_keeps, cite @linkDown_keeps, cite @foldl_state]
theorem grantsFrame_keeps (s : State) (p : Nat) :
    OnlyRegsPtps s (grantsFrame s p) := by simp [OnlyRegsPtps, grantsFrame, cite @publishGrants_keeps, cite @modPtp_keeps, cite @ite_state]
theorem ptpPortFrame_keeps (s : State) (n p : Nat) :
    OnlyRegs s (ptpPortFrame s n p) := by simp [OnlyRegs, ptpPortFrame, cite @setPtpPort_keeps, cite @ite_state]
theorem etherFrame_keeps (s : State) :
    OnlyRegsEthsPtps s (etherFrame s) := by simp [OnlyRegsEthsPtps, etherFrame, cite @grantsFrame_keeps, cite @ptpPortFrame_keeps, cite @ite_state, cite @foldl_state]
theorem esmcSend_keeps (s : State) (n : Nat) (event : Bool) :
    OnlyRegsEths s (esmcSend s n event) := by simp [OnlyRegsEths, esmcSend, cite @modEth_keeps, cite @addCnt_keeps, cite @set1_keeps]
theorem deliverQl_keeps (s : State) (cyc src node ssm : Nat) (ecode : Option Nat) :
    OnlyRegsJrnLanesFuncsChansPktsGatePtps s (deliverQl s cyc src node ssm ecode) := by simp [OnlyRegsJrnLanesFuncsChansPktsGatePtps, deliverQl, cite @gateCall_keeps, cite @foldl_state]
theorem esmcReceive_keeps (s : State) (n : Nat) (p : EsmcPdu) (cyc : Nat) :
    OnlyRegsJrnLanesFuncsChansPktsGateEthsPtps s (esmcReceive s n p cyc) := by simp [OnlyRegsJrnLanesFuncsChansPktsGateEthsPtps, esmcReceive, cite @addCnt_keeps, cite @deliverQl_keeps, cite @modEth_keeps, cite @ite_state]
theorem frameOut_keeps (s : State) (n : Nat) (b : List Nat) (rawF rawO : Nat) :
    OnlyRegsEths s (frameOut s n b rawF rawO) := by simp [OnlyRegsEths, frameOut, cite @modEth_keeps, cite @addCnt_keeps, cite @stampTx_keeps, cite @ite_state]
theorem txFrame_keeps (s : State) (p n : Nat) (b : List Nat) (rawF rawO : Nat) :
    OnlyRegsGateEthsPtps s (txFrame s p n b rawF rawO) := by simp [OnlyRegsGateEthsPtps, txFrame, cite @gateRefuse_keeps, cite @modEth_keeps, cite @gateRes_keeps, cite @modPtp_keeps, cite @frameOut_keeps, cite @ite_state]

/-! ### Machine/Ptp.lean -/

theorem acceptMsg_keeps (s : State) (p : Nat) (m : PtpMsg) (named : Bool) :
    OnlyRegsJrnLanesFuncsChansPktsPtps s (acceptMsg s p m named).1 := by
  unfold OnlyRegsJrnLanesFuncsChansPktsPtps acceptMsg; dsimp only; (repeat' split) <;> simp [cite @addCnt_keeps, cite @strange_keeps, cite @ite_state]
theorem estimate_keeps (s : State) (p n cyc : Nat) (raw : Int) (origin : Rat) (corr : Int) (r : Rat) :
    OnlyRegsJrnLanesFuncsChansPktsGatePtps s (estimate s p n cyc raw origin corr r) := by simp [OnlyRegsJrnLanesFuncsChansPktsGatePtps, estimate, cite @setF_keeps, cite @setPtpPort_keeps, cite @modPtp_keeps, cite @gateCall_keeps, cite @addCnt_keeps, cite @ite_state]
theorem syncTaken_keeps (s : State) (p : Nat) (m : PtpMsg) (origin r : Rat) (cyc : Nat) :
    OnlyRegsJrnLanesFuncsChansPktsGatePtps s (syncTaken s p m origin r cyc) := by simp [OnlyRegsJrnLanesFuncsChansPktsGatePtps, syncTaken, cite @modPtp_keeps, cite @estimate_keeps, cite @ite_state]
theorem syncReceive_keeps (s : State) (p : Nat) (m : PtpMsg) (origin r : Rat) (cyc : Nat) :
    OnlyRegsJrnLanesFuncsChansPktsGateEthsPtps s (syncReceive s p m origin r cyc) := by simp [OnlyRegsJrnLanesFuncsChansPktsGateEthsPtps, syncReceive, cite @acceptMsg_keeps, cite @fifoTake_keeps, cite @syncTaken_keeps, cite @addCnt_keeps, cite @ite_state]
theorem followUp_keeps (s : State) (p : Nat) (m : PtpMsg) (origin r : Rat) (cyc : Nat) :
    OnlyRegsJrnLanesFuncsChansPktsGatePtps s (followUp s p m origin r cyc) := by
  unfold OnlyRegsJrnLanesFuncsChansPktsGatePtps followUp; dsimp only; (repeat' split) <;> simp [cite @acceptMsg_keeps, cite @modPtp_keeps, cite @estimate_keeps, cite @ite_state]
theorem fromParent_keeps (s : State) (n p : Nat) (b : AnnounceBody) (cyc : Nat) :
    OnlyRegsJrnLanesFuncsChansPktsGatePtps s (fromParent s n p b cyc) := by simp [OnlyRegsJrnLanesFuncsChansPktsGatePtps, fromParent, cite @gateCall_keeps, cite @modPtp_keeps, cite @setF_keeps, cite @ite_state]
theorem portParentLost_keeps (s : State) (p n v : Nat) :
    OnlyRegsJrnPtps s (portParentLost s p n v) := by simp [OnlyRegsJrnPtps, portParentLost, cite @setF_keeps, cite @setParent_keeps, cite @setPtpPort_keeps, cite @modPtp_keeps]
theorem bmcaMove_keeps (s : State) (p n v : Nat) :
    OnlyRegsJrnPtps s (bmcaMove s p n v) := by simp [OnlyRegsJrnPtps, bmcaMove, cite @portParentLost_keeps, cite @setPtpPort_keeps, cite @ite_state]
theorem bmcaMaster_keeps (s : State) (p n wait : Nat) :
    OnlyRegsJrnPtps s (bmcaMaster s p n wait) := by simp [OnlyRegsJrnPtps, bmcaMaster, cite @bmcaMove_keeps, cite @modPtp_keeps, cite @ite_state]
theorem announceReceive_keeps (s : State) (p : Nat) (m : PtpMsg) (b : AnnounceBody) (cyc : Nat) :
    OnlyRegsJrnLanesFuncsChansPktsGatePtps s (announceReceive s p m b cyc) := by
  unfold OnlyRegsJrnLanesFuncsChansPktsGatePtps announceReceive; dsimp only; (repeat' split) <;> simp [cite @acceptMsg_keeps, cite @bmcaMaster_keeps, cite @bmcaMove_keeps, cite @fromParent_keeps, cite @setParent_keeps, cite @setPtpPort_keeps, cite @ite_state]
theorem parentLost_keeps (s : State) (p : Nat) :
    OnlyRegsJrnPtps s (parentLost s p) := by simp [OnlyRegsJrnPtps, parentLost, cite @portParentLost_keeps, cite @ite_state, cite @foldl_state]
theorem announceSend_keeps (s : State) (p n : Nat) :
    OnlyRegsPtps s (announceSend s p n) := by simp [OnlyRegsPtps, announceSend, cite @addCnt_keeps, cite @modPtp_keeps]
theorem delayReq_keeps (s : State) (p : Nat) (m : PtpMsg) :
    OnlyRegsJrnLanesFuncsChansPktsEthsPtps s (delayReq s p m) := by simp [OnlyRegsJrnLanesFuncsChansPktsEthsPtps, delayReq, cite @acceptMsg_keeps, cite @fifoTake_keeps, cite @modPtp_keeps, cite @addCnt_keeps, cite @ite_state]
theorem pdelayReq_keeps (s : State) (p : Nat) (m : PtpMsg) (depF depO : Nat) :
    OnlyRegsJrnLanesFuncsChansPktsEthsPtps s (pdelayReq s p m depF depO) := by simp [OnlyRegsJrnLanesFuncsChansPktsEthsPtps, pdelayReq, cite @acceptMsg_keeps, cite @fifoTake_keeps, cite @modPtp_keeps, cite @addCnt_keeps, cite @stampTx_keeps, cite @ite_state]
theorem delayReqSend_keeps (s : State) (p n rawF rawO : Nat) :
    OnlyRegsEthsPtps s (delayReqSend s p n rawF rawO) := by simp [OnlyRegsEthsPtps, delayReqSend, cite @modPtp_keeps, cite @stampTx_keeps, cite @addCnt_keeps, cite @ite_state]
theorem delayResp_keeps (s : State) (p : Nat) (m : PtpMsg) (t1 t4 : Rat) :
    OnlyRegsJrnLanesFuncsChansPktsEthsPtps s (delayResp s p m t1 t4) := by simp [OnlyRegsJrnLanesFuncsChansPktsEthsPtps, delayResp, cite @acceptMsg_keeps, cite @fifoTake_keeps, cite @setF_keeps, cite @ite_state]
theorem unicastRequest_keeps (s : State) (p n slave : Nat) (l : Int) (duration : Nat) :
    OnlyRegsPtps s (unicastRequest s p n slave l duration) := by simp [OnlyRegsPtps, unicastRequest, cite @addCnt_keeps, cite @publishGrants_keeps, cite @modPtp_keeps, cite @ite_state]
theorem syncSend_keeps (s : State) (p n : Nat) (b : List Nat) (rawF rawO : Nat) :
    OnlyRegsEthsPtps s (syncSend s p n b rawF rawO) := by simp [OnlyRegsEthsPtps, syncSend, cite @modPtp_keeps, cite @addCnt_keeps, cite @frameOut_keeps, cite @ite_state]

/-! ### Machine/Shelf.lean -/

theorem modShelf_keeps (s : State) (f : ShelfU → ShelfU) :
    OnlyShelf s (modShelf s f) := by simp [OnlyShelf, modShelf]
theorem evaluate_keeps (s : State) : OnlyShelf s (evaluate s) := by simp [OnlyShelf, evaluate, cite @modShelf_keeps, cite @ite_state]
theorem publishPeers_keeps (s : State) :
    OnlyRegs s (publishPeers s) := by unfold OnlyRegs publishPeers; dsimp only; (repeat' split) <;> simp [cite @set1_keeps]
theorem busStart_keeps (s : State) :
    OnlyShelf s (busStart s) := by
  unfold OnlyShelf busStart; dsimp only; (repeat' split) <;> simp [cite @modShelf_keeps, cite @ite_state]
theorem loadBuf_keeps (s : State) (t : Nat) (p : List Nat) :
    OnlyRegsShelf s (loadBuf s t p) := by simp [OnlyRegsShelf, loadBuf, cite @busStart_keeps, cite @modShelf_keeps, cite @evt_keeps, cite @addCnt_keeps, cite @ite_state]
theorem takeSeq_keeps (s : State) (t : Nat) : OnlyShelf s (takeSeq s t).2 := by simp [OnlyShelf, takeSeq, cite @modShelf_keeps]
theorem shelfQueue_keeps (s : State) (t : Nat) (build : Nat → List Nat) :
    OnlyRegsShelf s (shelfQueue s t build) := by simp [OnlyRegsShelf, shelfQueue, cite @loadBuf_keeps, cite @takeSeq_keeps, cite @ite_state]
theorem sendStatus_keeps (s : State) : OnlyRegsShelf s (sendStatus s) := by simp [OnlyRegsShelf, sendStatus, cite @shelfQueue_keeps]
theorem sendElect_keeps (s : State) (judge : Bool) :
    OnlyRegsShelf s (sendElect s judge) := by simp [OnlyRegsShelf, sendElect, cite @shelfQueue_keeps, cite @modShelf_keeps, cite @evaluate_keeps, cite @ite_state]
theorem sendQlf_keeps (s : State) : OnlyRegsShelf s (sendQlf s) := by simp [OnlyRegsShelf, sendQlf, cite @shelfQueue_keeps, cite @modShelf_keeps, cite @ite_state]
theorem sendTod_keeps (s : State) (sec : Nat) :
    OnlyRegsShelf s (sendTod s sec) := by simp [OnlyRegsShelf, sendTod, cite @shelfQueue_keeps, cite @modShelf_keeps, cite @ite_state]
theorem sendAlert_keeps (s : State) (kind part dom data : Nat) :
    OnlyRegsShelf s (sendAlert s kind part dom data) := by simp [OnlyRegsShelf, sendAlert, cite @shelfQueue_keeps, cite @ite_state]
theorem roleChange_keeps (s : State) : OnlyRegsJrnOutsShelf s (roleChange s) := by
  unfold OnlyRegsJrnOutsShelf roleChange; dsimp only; (repeat' split) <;> simp [cite @sendAlert_keeps, cite @outsRefresh_keeps, cite @journalPg_keeps, cite @evt_keeps, cite @publishPeers_keeps, cite @set1_keeps, cite @modShelf_keeps]
theorem peerLapse_keeps (s : State) (node : Nat) :
    OnlyRegsShelf s (peerLapse s node) := by simp [OnlyRegsShelf, peerLapse, cite @evaluate_keeps, cite @sendAlert_keeps, cite @evt_keeps, cite @publishPeers_keeps, cite @modShelf_keeps]
theorem goSilent_keeps (s : State) : OnlyRegsShelf s (goSilent s) := by simp [OnlyRegsShelf, goSilent, cite @set1_keeps, cite @evaluate_keeps, cite @modShelf_keeps, cite @ite_state]
theorem shelfStop_keeps (s : State) : OnlyShelf s (shelfStop s) := by simp [OnlyShelf, shelfStop, cite @modShelf_keeps]
theorem shelfRejoin_keeps (s : State) :
    OnlyRegsShelf s (shelfRejoin s) := by simp [OnlyRegsShelf, shelfRejoin, cite @modShelf_keeps, cite @publishPeers_keeps, cite @ite_state]
theorem shelfReset_keeps (s : State) : OnlyRegsShelf s (shelfReset s) := by simp [OnlyRegsShelf, shelfReset, cite @publishPeers_keeps, cite @set1_keeps]
theorem shelfCommit_keeps (s : State) (oldGroup : Nat) :
    OnlyRegsShelf s (shelfCommit s oldGroup) := by simp [OnlyRegsShelf, shelfCommit, cite @set1_keeps, cite @evaluate_keeps, cite @modShelf_keeps, cite @publishPeers_keeps, cite @ite_state]
theorem busDone_keeps (s : State) :
    OnlyRegsShelf s (busDone s) := by unfold OnlyRegsShelf busDone; dsimp only; (repeat' split) <;> simp [cite @busStart_keeps, cite @addCnt_keeps, cite @modShelf_keeps, cite @set1_keeps]
theorem todSchedule_keeps (s : State) :
    OnlyRegsShelf s (todSchedule s) := by
  unfold OnlyRegsShelf todSchedule; dsimp only; (repeat' split) <;> simp [cite @modShelf_keeps, cite @sendTod_keeps]
theorem shelfFrame_keeps (s : State) : OnlyRegsShelf s (shelfFrame s) := by simp [OnlyRegsShelf, shelfFrame, cite @busDone_keeps, cite @peerLapse_keeps, cite @goSilent_keeps, cite @todSchedule_keeps, cite @sendQlf_keeps, cite @sendElect_keeps, cite @sendStatus_keeps, cite @publishPeers_keeps, cite @ite_state, cite @foldl_state]
theorem alertDom_keeps (s : State) (d : Nat) :
    OnlyRegsShelf s (alertDom s d) := by simp [OnlyRegsShelf, alertDom, cite @sendAlert_keeps, cite @ite_state]
theorem alertLane_keeps (a s : State) (f : Nat) :
    OnlyRegsShelf s (alertLane a s f) := by
  unfold OnlyRegsShelf alertLane; (repeat' split) <;> simp [cite @sendAlert_keeps, cite @ite_state]
theorem alertChan_keeps (a s : State) (c : Nat) :
    OnlyRegsShelf s (alertChan a s c) := by simp [OnlyRegsShelf, alertChan, cite @sendAlert_keeps, cite @ite_state]
theorem shelfAlerts_keeps (a s : State) :
    OnlyRegsShelf s (shelfAlerts a s) := by unfold OnlyRegsShelf shelfAlerts; (repeat' split) <;> simp [cite @alertChan_keeps, cite @alertLane_keeps, cite @alertDom_keeps, cite @foldl_state]
theorem electRx_keeps (s : State) (n : Nat) (p : List Nat) :
    OnlyRegsShelf s (electRx s n p) := by simp [OnlyRegsShelf, electRx, cite @modShelf_keeps, cite @publishPeers_keeps, cite @evaluate_keeps, cite @evtIf_keeps, cite @ite_state]
theorem todRx_keeps (s : State) (n : Nat) (p : List Nat) :
    OnlyRegs s (todRx s n p) := by simp [OnlyRegs, todRx, cite @set1_keeps, cite @ite_state]
theorem sendResp_keeps (s : State) (node tag result : Nat) (words : List Nat) :
    OnlyRegsShelf s (sendResp s node tag result words) := by simp [OnlyRegsShelf, sendResp, cite @loadBuf_keeps, cite @addCnt_keeps, cite @ite_state]
theorem regReqRx_keeps (s : State) (n : Nat) (p : List Nat) :
    OnlyRegsShelf s (regReqRx s n p) := by simp [OnlyRegsShelf, regReqRx, cite @addCnt_keeps, cite @sendResp_keeps, cite @modShelf_keeps, cite @ite_state]
theorem nodeClash_keeps (s : State) (ident : Nat) :
    OnlyRegsJrnShelf s (nodeClash s ident) := by simp [OnlyRegsJrnShelf, nodeClash, cite @modShelf_keeps, cite @journalPg_keeps, cite @set1_keeps, cite @evt_keeps]
theorem shelfRx_keeps (s : State) (f : CanFrame) (cyc : Nat) :
    OnlyRegsJrnLanesFuncsChansPktsGatePtpsShelf s (shelfRx s f cyc) := by
  unfold OnlyRegsJrnLanesFuncsChansPktsGatePtpsShelf shelfRx; dsimp only; (repeat' split) <;> simp [cite @addCnt_keeps, cite @nodeClash_keeps, cite @evtIf_keeps, cite @electRx_keeps, cite @deliverQl_keeps, cite @modShelf_keeps, cite @todRx_keeps, cite @regReqRx_keeps, cite @ite_state]
theorem busOffEnter_keeps (s : State) (tec : Nat) :
    OnlyRegsJrnShelf s (busOffEnter s tec) := by simp [OnlyRegsJrnShelf, busOffEnter, cite @journalPg_keeps, cite @addCnt_keeps, cite @evt_keeps, cite @modShelf_keeps, cite @set1_keeps]
theorem busOffLeave_keeps (s : State) :
    OnlyRegsShelf s (busOffLeave s) := by simp [OnlyRegsShelf, busOffLeave, cite @busStart_keeps, cite @set1_keeps]
theorem shelfPowerFail_keeps (s : State) :
    OnlyRegsShelf s (shelfPowerFail s) := by simp [OnlyRegsShelf, shelfPowerFail, cite @busStart_keeps, cite @modShelf_keeps, cite @takeSeq_keeps, cite @loadBuf_keeps, cite @evt_keeps, cite @addCnt_keeps, cite @ite_state]
theorem shelfRecover_keeps (s : State) :
    OnlyRegsShelf s (shelfRecover s) := by simp [OnlyRegsShelf, shelfRecover, cite @modShelf_keeps, cite @shelfQueue_keeps, cite @ite_state]
theorem gateShelfTx_keeps (s : State) (t : Nat) (p : List Nat) :
    OnlyRegsGateShelf s (gateShelfTx s t p) := by simp [OnlyRegsGateShelf, gateShelfTx, cite @gateRefuse_keeps, cite @loadBuf_keeps, cite @gateRes_keeps, cite @ite_state]

/-! ### Machine/Cellar.lean -/

theorem modCellar_keeps (s : State) (f : CellarU → CellarU) :
    OnlyCellar s (modCellar s f) := by simp [OnlyCellar, modCellar]
theorem putSram_keeps (s : State) (a b : Nat) :
    OnlyMemCellar s (putSram s a b) := by simp [OnlyMemCellar, putSram, cite @modCellar_keeps, cite @setByte_keeps, cite @ite_state]
theorem putSrams_keeps (s : State) (a : Nat) (x1 : List Nat) : OnlyMemCellar s (putSrams s a x1) := by
  unfold OnlyMemCellar
  induction x1 generalizing s a with
  | nil => simp [putSrams, cite @putSram_keeps]
  | cons b r ih => simp [putSrams, ih, cite @putSram_keeps]
theorem putSramLE_keeps (s : State) (a v n : Nat) :
    OnlyMemCellar s (putSramLE s a v n) := by simp [OnlyMemCellar, putSramLE, cite @putSrams_keeps]
theorem cellarEntry_keeps (s : State) (code block copy cause : Nat) (v : Supply) :
    OnlyRegsJrn s (cellarEntry s code block copy cause v) := by simp [OnlyRegsJrn, cellarEntry, cite @journalPg_keeps]
theorem lifetimeSat_keeps (s : State) (block copy : Nat) :
    OnlyRegsJrn s (lifetimeSat s block copy) := by simp [OnlyRegsJrn, lifetimeSat, cite @cellarEntry_keeps, cite @evt_keeps, cite @set1_keeps, cite @ite_state]
theorem ltAdd_keeps (s : State) (i : Nat) :
    OnlyRegsMemJrnCellar s (ltAdd s i) := by simp [OnlyRegsMemJrnCellar, ltAdd, cite @lifetimeSat_keeps, cite @putSramLE_keeps, cite @ite_state]
theorem addJob_keeps (s : State) (j : StoreJob) : OnlyCellar s (addJob s j) := by simp [OnlyCellar, addJob, cite @modCellar_keeps, cite @ite_state]
theorem leafPark_keeps (s : State) :
    OnlyRegsRoot s (leafPark s) := by simp [OnlyRegsRoot, leafPark, cite @set1_keeps]
theorem leafResume_keeps (s : State) :
    OnlyRegsRoot s (leafResume s) := by simp [OnlyRegsRoot, leafResume, cite @set1_keeps]
theorem park_keeps (s : State) (o : Nat) :
    OnlyRegsCellarRoot s (park s o) := by simp [OnlyRegsCellarRoot, park, cite @modCellar_keeps, cite @leafPark_keeps, cite @ite_state]
theorem unpark_keeps (s : State) (o : Nat) :
    OnlyRegsCellarRoot s (unpark s o) := by simp [OnlyRegsCellarRoot, unpark, cite @modCellar_keeps, cite @leafResume_keeps, cite @ite_state]
theorem startJob_keeps (s : State) (j : StoreJob) :
    OnlyRegsCellarRoot s (startJob s j) := by simp [OnlyRegsCellarRoot, startJob, cite @modCellar_keeps, cite @park_keeps, cite @setF_keeps, cite @set1_keeps, cite @ite_state, cite @foldl_state]
theorem engineStart_keeps (s : State) (v : Supply) : OnlyRegsCellarRoot s (engineStart s v) := by
  unfold OnlyRegsCellarRoot engineStart; dsimp only; (repeat' split) <;> simp [cite @set1_keeps, cite @modCellar_keeps, cite @addCnt_keeps, cite @evt_keeps, cite @startJob_keeps]
theorem engineKick_keeps (s : State) (v : Supply) :
    OnlyRegsCellarRoot s (engineKick s v) := by simp [OnlyRegsCellarRoot, engineKick, cite @engineStart_keeps, cite @ite_state]
theorem rootStore_keeps (s : State) (b prio owner : Nat) :
    OnlyRegsCellarRoot s (rootStore s b prio owner) := by simp [OnlyRegsCellarRoot, rootStore, cite @modCellar_keeps, cite @engineKick_keeps, cite @addJob_keeps, cite @ite_state]
theorem rootFix_keeps (s : State) (b c prio : Nat) :
    OnlyRegsCellarRoot s (rootFix s b c prio) := by simp [OnlyRegsCellarRoot, rootFix, cite @modCellar_keeps, cite @engineKick_keeps, cite @addJob_keeps, cite @ite_state]
theorem cmdEnd_keeps (s : State) (p state cause : Nat) :
    OnlyRegsCellar s (cmdEnd s p state cause) := by simp [OnlyRegsCellar, cmdEnd, cite @setF_keeps, cite @modCellar_keeps]
theorem storeCmd_keeps (s : State) (p first countM1 : Nat) :
    OnlyRegsCellarRoot s (storeCmd s p first countM1) := by simp [OnlyRegsCellarRoot, storeCmd, cite @setF_keeps, cite @cmdEnd_keeps, cite @modCellar_keeps, cite @engineKick_keeps, cite @addJob_keeps, cite @ite_state, cite @foldl_state]
theorem dropOwner_keeps (s : State) (o : Nat) :
    OnlyCellar s (dropOwner s o) := by simp [OnlyCellar, dropOwner, cite @modCellar_keeps]
theorem cancelCmd_keeps (s : State) (p : Nat) :
    OnlyRegsCellarRoot s (cancelCmd s p) := by
  unfold OnlyRegsCellarRoot cancelCmd; dsimp only; (repeat' split) <;> simp [cite @dropOwner_keeps, cite @modCellar_keeps, cite @setF_keeps, cite @unpark_keeps, cite @ite_state, cite @foldl_state]
theorem orphanDone_keeps (s : State) (p : Nat) :
    OnlyRegsCellarRoot s (orphanDone s p) := by simp [OnlyRegsCellarRoot, orphanDone, cite @addCnt_keeps, cite @unpark_keeps, cite @ite_state]
theorem cmdBlockDone_keeps (s : State) (p : Nat) :
    OnlyRegsCellarRoot s (cmdBlockDone s p) := by simp [OnlyRegsCellarRoot, cmdBlockDone, cite @setF_keeps, cite @addCnt_keeps, cite @unpark_keeps, cite @partEvt_keeps, cite @cmdEnd_keeps, cite @modCellar_keeps, cite @ite_state]
theorem ringWrite_keeps (s : State) : OnlyMemCellar s (ringWrite s) := by simp [OnlyMemCellar, ringWrite, cite @modCellar_keeps, cite @putSrams_keeps]
theorem ringStore_keeps (s : State) :
    OnlyRegsMemCellarRoot s (ringStore s) := by simp [OnlyRegsMemCellarRoot, ringStore, cite @rootStore_keeps, cite @ringWrite_keeps]
theorem ringPut_keeps (s : State) (k : Nat) (v : List Nat) :
    OnlyRegsMemCellarRoot s (ringPut s k v) := by simp [OnlyRegsMemCellarRoot, ringPut, cite @ringStore_keeps, cite @modCellar_keeps, cite @ite_state]
theorem programmed_keeps (s : State) (r : StoreRun) :
    OnlyRegsJrnCellar s (programmed s r) := by simp [OnlyRegsJrnCellar, programmed, cite @lifetimeSat_keeps, cite @cellarEntry_keeps, cite @evt_keeps, cite @set1_keeps, cite @modCellar_keeps, cite @ite_state]
theorem setLast_keeps (s : State) (b c result : Nat) :
    OnlyRegs s (setLast s b c result) := by simp [OnlyRegs, setLast, cite @set1_keeps]
theorem pfDone_keeps (s : State) (c : Nat) (v : Supply) :
    OnlyRegsJrnCellar s (pfDone s c v) := by simp [OnlyRegsJrnCellar, pfDone, cite @cellarEntry_keeps, cite @evt_keeps, cite @modCellar_keeps, cite @set1_keeps]
theorem storeEnds_keeps (s : State) (r : StoreRun) (v : Supply) :
    OnlyRegsMemJrnCellarRoot s (storeEnds s r v) := by simp [OnlyRegsMemJrnCellarRoot, storeEnds, cite @setLast_keeps, cite @programmed_keeps, cite @ltAdd_keeps, cite @addCnt_keeps, cite @cmdBlockDone_keeps, cite @orphanDone_keeps, cite @unpark_keeps, cite @pfDone_keeps, cite @ite_state, cite @foldl_state]
theorem storeAbandon_keeps (s : State) (j : StoreJob) (v : Supply) :
    OnlyRegsMemJrnCellarRoot s (storeAbandon s j v) := by simp [OnlyRegsMemJrnCellarRoot, storeAbandon, cite @modCellar_keeps, cite @cellarEntry_keeps, cite @evt_keeps, cite @set1_keeps, cite @setLast_keeps, cite @ltAdd_keeps, cite @addCnt_keeps, cite @unpark_keeps, cite @cmdEnd_keeps, cite @dropOwner_keeps, cite @ite_state, cite @foldl_state]
theorem cancelAll_keeps (s : State) :
    OnlyRegsCellarRoot s (cancelAll s) := by
  unfold OnlyRegsCellarRoot cancelAll; dsimp only; (repeat' split) <;> simp [cite @setLast_keeps, cite @modCellar_keeps, cite @set1_keeps, cite @cmdEnd_keeps, cite @unpark_keeps, cite @ite_state, cite @foldl_state]
theorem pfQueue_keeps (s : State) : OnlyMemCellar s (pfQueue s) := by simp [OnlyMemCellar, pfQueue, cite @modCellar_keeps, cite @putSramLE_keeps, cite @ringWrite_keeps, cite @ite_state]
theorem pfSequence_keeps (s : State) (v : Supply) :
    OnlyRegsMemCellarRoot s (pfSequence s v) := by simp [OnlyRegsMemCellarRoot, pfSequence, cite @engineStart_keeps, cite @pfQueue_keeps, cite @set1_keeps, cite @cancelAll_keeps]
theorem cellarResume_keeps (s : State) : OnlyCellar s (cellarResume s) := by simp [OnlyCellar, cellarResume, cite @modCellar_keeps]
theorem cellarReady_keeps (s : State) (v : Supply) :
    OnlyRegsMemCellarRoot s (cellarReady s v) := by simp [OnlyRegsMemCellarRoot, cellarReady, cite @modCellar_keeps, cite @engineStart_keeps, cite @addJob_keeps, cite @ringWrite_keeps, cite @engineKick_keeps, cite @ite_state, cite @foldl_state]
theorem recallBlock_keeps (s : State) (b : Nat) : OnlyRegsMemJrnLanesCellarRoot s (recallBlock s b) := by
  unfold OnlyRegsMemJrnLanesCellarRoot recallBlock; dsimp only; (repeat' split) <;> simp [cite @rootFix_keeps, cite @cellarEntry_keeps, cite @ltAdd_keeps, cite @addCnt_keeps, cite @evt_keeps, cite @partEvt_keeps, cite @set1_keeps]
theorem recallSram_keeps (s : State) :
    OnlyRegsMemJrnLanesCellarRoot s (recallSram s) := by simp [OnlyRegsMemJrnLanesCellarRoot, recallSram, cite @modCellar_keeps, cite @recallBlock_keeps, cite @foldl_state]
theorem cellarRecall_keeps (s : State) :
    OnlyRegsMemJrnLanesCellarRoot s (cellarRecall s) := by simp [OnlyRegsMemJrnLanesCellarRoot, cellarRecall, cite @ltAdd_keeps, cite @cellarEntry_keeps, cite @evt_keeps, cite @set1_keeps, cite @putSramLE_keeps, cite @modCellar_keeps, cite @recallSram_keeps, cite @ite_state]
theorem weaken_keeps (s : State) (b c : Nat) : OnlyCellar s (weaken s b c) := by simp [OnlyCellar, weaken, cite @modCellar_keeps]
theorem scrubStep_keeps (s : State) (r : ScrubRead) (v : Supply) :
    OnlyRegsMemJrnCellarRoot s (scrubStep s r v) := by
  unfold OnlyRegsMemJrnCellarRoot scrubStep; dsimp only; (repeat' split) <;> simp [cite @set1_keeps, cite @cellarEntry_keeps, cite @evt_keeps, cite @rootFix_keeps, cite @ltAdd_keeps, cite @addCnt_keeps, cite @weaken_keeps, cite @rootStore_keeps, cite @ite_state]
theorem gateCellarStore_keeps (s : State) (first count : Nat) :
    OnlyRegsGateCellarRoot s (gateCellarStore s first count) := by simp [OnlyRegsGateCellarRoot, gateCellarStore, cite @gateRefuse_keeps, cite @engineKick_keeps, cite @addJob_keeps, cite @gateRes_keeps, cite @ite_state, cite @foldl_state]
theorem gateStoreRequest_keeps (s : State) (first count : Nat) :
    OnlyRegsGateCellarRoot s (gateStoreRequest s first count) := by simp [OnlyRegsGateCellarRoot, gateStoreRequest, cite @gateRefuse_keeps, cite @engineKick_keeps, cite @addJob_keeps, cite @gateRes_keeps, cite @ite_state, cite @foldl_state]
theorem gateRingPut_keeps (s : State) (k : Nat) (v : List Nat) :
    OnlyRegsMemGateCellarRoot s (gateRingPut s k v) := by simp [OnlyRegsMemGateCellarRoot, gateRingPut, cite @gateRefuse_keeps, cite @ringPut_keeps, cite @gateRes_keeps, cite @ite_state]

/-! ### Machine/BlackBox.lean -/

theorem unreadCross_keeps (before : Bool) (s : State) :
    OnlyRegs s (unreadCross before s) := by simp [OnlyRegs, unreadCross, cite @evtIf_keeps]
theorem overwriteEvt_keeps (s : State) (w : Nat) :
    OnlyRegsJrn s (overwriteEvt s w) := by simp [OnlyRegsJrn, overwriteEvt, cite @evt_keeps, cite @ite_state]
theorem codeEvts_keeps (s : State) (code : Nat) : OnlyRegs s (codeEvts s code) := by simp [OnlyRegs, codeEvts, cite @evtIf_keeps]
theorem writeEntry_keeps (s : State) (e : JEntry) :
    OnlyRegsMemJrnCellarRoot s (writeEntry s e) := by simp [OnlyRegsMemJrnCellarRoot, writeEntry, cite @rootStore_keeps, cite @set1_keeps, cite @codeEvts_keeps, cite @addCnt_keeps, cite @unreadCross_keeps, cite @putSrams_keeps, cite @overwriteEvt_keeps, cite @ite_state]
theorem holdLost_keeps (s : State) :
    OnlyJrn s (holdLost s) := by unfold OnlyJrn holdLost; dsimp only; (repeat' split) <;> simp
theorem pumpHeld_keeps (x1 : Nat) (x2 : State) : OnlyJrn x2 (pumpHeld x1 x2) := by
  unfold OnlyJrn
  induction x1 generalizing x2 with
  | zero => simp [pumpHeld]
  | succ n ih => (unfold pumpHeld; dsimp only; (repeat' split) <;> simp [ih])
theorem drainOne_keeps (s : State) : OnlyRegsMemJrnCellarRoot s (drainOne s) := by
  unfold OnlyRegsMemJrnCellarRoot drainOne; dsimp only; (repeat' split) <;> simp [cite @pumpHeld_keeps, cite @writeEntry_keeps]
theorem drainN_keeps (x1 : Nat) (x2 : State) : OnlyRegsMemJrnCellarRoot x2 (drainN x1 x2) := by
  unfold OnlyRegsMemJrnCellarRoot
  induction x1 generalizing x2 with
  | zero => simp [drainN, cite @drainOne_keeps]
  | succ n ih => simp [drainN, ih, cite @drainOne_keeps]
theorem rootUp_keeps (s : State) : OnlyRoot s (rootUp s) := by simp [OnlyRoot, rootUp]
theorem drainAll_keeps (s : State) :
    OnlyRegsMemJrnCellarRoot s (drainAll s) := by simp [OnlyRegsMemJrnCellarRoot, drainAll, cite @pumpHeld_keeps, cite @drainN_keeps, cite @ite_state]
theorem frameLost_keeps (s : State) : OnlyJrn s (frameLost s) := by simp [OnlyJrn, frameLost, cite @pumpHeld_keeps, cite @holdLost_keeps]
theorem suppressionEnd_keeps (s : State) :
    OnlyJrn s (suppressionEnd s) := by simp [OnlyJrn, suppressionEnd, cite @pumpHeld_keeps]
theorem frnRestart_keeps (s : State) :
    OnlyRegsMemJrnCellarRoot s (frnRestart s) := by simp [OnlyRegsMemJrnCellarRoot, frnRestart, cite @drainAll_keeps, cite @journalPg_keeps]
theorem bboxRecall_keeps (s : State) : OnlyRegs s (bboxRecall s) := by simp [OnlyRegs, bboxRecall, cite @set1_keeps]
theorem rdSeqWrite_keeps (s : State) (v : Nat) :
    OnlyRegsJrn s (rdSeqWrite s v) := by simp [OnlyRegsJrn, rdSeqWrite, cite @set1_keeps, cite @unreadCross_keeps]
theorem bboxWmWrite_keeps (s : State) (v : Nat) :
    OnlyRegs s (bboxWmWrite s v) := by simp [OnlyRegs, bboxWmWrite, cite @unreadCross_keeps, cite @set1_keeps]

/-! ### Machine/Table.lean -/

theorem entryCond_keeps (s : State) (c verdict gen : Nat) :
    OnlyRegsJrn s (entryCond s c verdict gen) := by simp [OnlyRegsJrn, entryCond, cite @journal_keeps, cite @chanEvt_keeps]
theorem refreshEntry_keeps (s : State) (c : Nat) :
    OnlyRegsJrnChans s (refreshEntry s c) := by simp [OnlyRegsJrnChans, refreshEntry, cite @entryCond_keeps, cite @modChan_keeps, cite @set1_keeps, cite @ite_state]
theorem tableRefresh_keeps (s : State) :
    OnlyRegsJrnChans s (tableRefresh s) := by simp [OnlyRegsJrnChans, tableRefresh, cite @refreshEntry_keeps, cite @foldl_state]
theorem acceptEntry_keeps (s : State) (c : Nat) : OnlyRegsJrnChans s (acceptEntry s c) := by
  unfold OnlyRegsJrnChans acceptEntry; dsimp only; (repeat' split) <;> simp [cite @entryCond_keeps, cite @set1_keeps, cite @modChan_keeps]
theorem tableAccept_keeps (s : State) :
    OnlyRegsJrnChans s (tableAccept s) := by simp [OnlyRegsJrnChans, tableAccept, cite @acceptEntry_keeps, cite @foldl_state]
theorem hostHalfReset_keeps (s : State) (c : Nat) :
    OnlyRegsMemJrnChans s (hostHalfReset s c) := by simp [OnlyRegsMemJrnChans, hostHalfReset, cite @set1_keeps, cite @modChan_keeps, cite @clearRange_keeps, cite @entryCond_keeps, cite @ite_state]
theorem tableReset_keeps (s : State) :
    OnlyRegsMemChans s (tableReset s) := by simp [OnlyRegsMemChans, tableReset, cite @set1_keeps, cite @modChan_keeps, cite @clearRange_keeps, cite @foldl_state]

/-! ### Machine/Restart.lean -/

theorem resetPage_keeps (s : State) (p : Page) (n : Nat) (keep : List Fld) :
    OnlyRegs s (resetPage s p n keep) := by simp [OnlyRegs, resetPage, cite @resetFields_keeps]
theorem recordReset_keeps (s : State) (p cause : Nat) :
    OnlyRegs s (recordReset s p cause) := by simp [OnlyRegs, recordReset, cite @addCnt_keeps, cite @set1_keeps, cite @resetPage_keeps]
theorem partReset_keeps (s : State) (p cause : Nat) :
    OnlyRegsMemJrnPlus12 s (partReset s p cause) := by simp [OnlyRegsMemJrnPlus12, partReset, cite @publishGains_keeps, cite @utcPolicy_keeps, cite @timeStart_keeps, cite @startDom_keeps, cite @hostHalfReset_keeps, cite @cancelCmd_keeps, cite @instReset_keeps, cite @resetHarvest_keeps, cite @resetRows_keeps, cite @set1_keeps, cite @resetFields_keeps, cite @synthReset_keeps, cite @resetPage_keeps, cite @journalPg_keeps, cite @recordReset_keeps, cite @domChanged_keeps, cite @ite_state, cite @foldl_state]
theorem resetDone_keeps (s : State) : OnlyRegs s (resetDone s) := by simp [OnlyRegs, resetDone, cite @evtIf_keeps, cite @foldl_state]
theorem synthStart_keeps (s : State) (d : Nat) :
    OnlyRegsApllsOuts s (synthStart s d) := by simp [OnlyRegsApllsOuts, synthStart, cite @outInit_keeps, cite @apllStart_keeps, cite @resetPage_keeps, cite @foldl_state]
theorem moveOutput_keeps (a s : State) (n : Nat) :
    OnlyRegsOuts s (moveOutput a s n) := by simp [OnlyRegsOuts, moveOutput, cite @outInit_keeps, cite @modOut_keeps, cite @evtIf_keeps, cite @resetFields_keeps]
theorem qlClear_keeps (s : State) (c : Nat) : OnlyChans s (qlClear s c) := by simp [OnlyChans, qlClear, cite @modChan_keeps]
theorem selReset_keeps (s : State) : OnlyRegsChans s (selReset s) := by simp [OnlyRegsChans, selReset, cite @qlClear_keeps, cite @resetPage_keeps, cite @foldl_state]
theorem sharedReset_keeps (s : State) :
    OnlyRegsChansShelf s (sharedReset s) := by simp [OnlyRegsChansShelf, sharedReset, cite @shelfReset_keeps, cite @resetPage_keeps, cite @selReset_keeps, cite @foldl_state]

/-! ### Machine/Root.lean -/

theorem modRoot_keeps (s : State) (f : RootU → RootU) :
    OnlyRoot s (modRoot s f) := by simp [OnlyRoot, modRoot]
theorem unmark_keeps (s : State) : OnlyMemCellar s (unmark s) := by simp [OnlyMemCellar, unmark, cite @putSramLE_keeps, cite @ite_state]
theorem reloadBlock_keeps (s : State) (b : Nat) :
    OnlyMemCellar s (reloadBlock s b) := by simp [OnlyMemCellar, reloadBlock, cite @modCellar_keeps]
theorem reloadBlocks_keeps (s : State) (first n : Nat) :
    OnlyMemCellar s (reloadBlocks s first n) := by simp [OnlyMemCellar, reloadBlocks, cite @reloadBlock_keeps, cite @foldl_state]
theorem refuseProfile_keeps (s : State) (code off : Nat) :
    OnlyRegsMemJrnCellarRoot s (refuseProfile s code off) := by simp [OnlyRegsMemJrnCellarRoot, refuseProfile, cite @journalPg_keeps, cite @evt_keeps, cite @set1_keeps, cite @modRoot_keeps, cite @unmark_keeps, cite @reloadBlocks_keeps, cite @dropOwner_keeps, cite @ite_state]
theorem commitStores_keeps (s : State) (first n : Nat) :
    OnlyRegsCellarRoot s (commitStores s first n) := by simp [OnlyRegsCellarRoot, commitStores, cite @rootStore_keeps, cite @foldl_state]
theorem beginCommit_keeps (s : State) :
    OnlyRegsMemJrnCellarRoot s (beginCommit s) := by simp [OnlyRegsMemJrnCellarRoot, beginCommit, cite @refuseProfile_keeps, cite @commitStores_keeps, cite @putSramLE_keeps, cite @modRoot_keeps, cite @set1_keeps, cite @ite_state]
theorem copyProfile_keeps (s : State) :
    OnlyRegsMemCellarRoot s (copyProfile s) := by simp [OnlyRegsMemCellarRoot, copyProfile, cite @commitStores_keeps, cite @modRoot_keeps, cite @putSramLE_keeps, cite @putSrams_keeps]
theorem scheduleCommit_keeps (s : State) :
    OnlyRegsRoot s (scheduleCommit s) := by simp [OnlyRegsRoot, scheduleCommit, cite @set1_keeps, cite @modRoot_keeps]
theorem beginVerify_keeps (s : State) (commit : Bool) :
    OnlyRegsRoot s (beginVerify s commit) := by simp [OnlyRegsRoot, beginVerify, cite @set1_keeps, cite @modRoot_keeps]
theorem endVerify_keeps (s : State) : OnlyRegsMemJrnCellarRoot s (endVerify s) := by
  unfold OnlyRegsMemJrnCellarRoot endVerify; dsimp only; (repeat' split) <;> simp [cite @refuseProfile_keeps, cite @evt_keeps, cite @set1_keeps, cite @beginCommit_keeps]
theorem commitCmd_keeps (s : State) :
    OnlyRegsMemJrnCellarRoot s (commitCmd s) := by unfold OnlyRegsMemJrnCellarRoot commitCmd; (repeat' split) <;> simp [cite @modRoot_keeps, cite @beginCommit_keeps, cite @beginVerify_keeps]
theorem verifyCmd_keeps (s : State) : OnlyRegsRoot s (verifyCmd s) := by simp [OnlyRegsRoot, verifyCmd, cite @beginVerify_keeps, cite @ite_state]
theorem abortCmd_keeps (s : State) :
    OnlyRegsMemJrnCellarRoot s (abortCmd s) := by unfold OnlyRegsMemJrnCellarRoot abortCmd; (repeat' split) <;> simp [cite @set1_keeps, cite @modRoot_keeps, cite @refuseProfile_keeps]
theorem stopCommit_keeps (s : State) (code : Nat) :
    OnlyRegsMemJrnCellarRoot s (stopCommit s code) := by simp [OnlyRegsMemJrnCellarRoot, stopCommit, cite @refuseProfile_keeps, cite @ite_state]
theorem publishKey_keeps (s : State) : OnlyRegs s (publishKey s) := by simp [OnlyRegs, publishKey, cite @set1_keeps, cite @setF_keeps, cite @foldl_state]
theorem commitKey_keeps (s : State) (pub : List Nat) (rot : Option (List Nat)) :
    OnlyRegsMemJrnCellarRoot s (commitKey s pub rot) := by simp [OnlyRegsMemJrnCellarRoot, commitKey, cite @journalPg_keeps, cite @publishKey_keeps, cite @rootStore_keeps, cite @putSrams_keeps, cite @ite_state]
theorem debugEnd_keeps (s : State) (cause : Nat) :
    OnlyRegsJrnRoot s (debugEnd s cause) := by simp [OnlyRegsJrnRoot, debugEnd, cite @journalPg_keeps, cite @evt_keeps, cite @set1_keeps, cite @modRoot_keeps, cite @ite_state]
theorem debugAsk_keeps (s : State) : OnlyRegsJrnRoot s (debugAsk s) := by simp [OnlyRegsJrnRoot, debugAsk, cite @journalPg_keeps, cite @addCnt_keeps, cite @evt_keeps, cite @set1_keeps, cite @modRoot_keeps, cite @ite_state]
theorem debugFrame_keeps (s : State) :
    OnlyRegsJrnRoot s (debugFrame s) := by simp [OnlyRegsJrnRoot, debugFrame, cite @debugEnd_keeps, cite @ite_state]
theorem requalify_keeps (a : Policy) (s : State) (c : Nat) :
    OnlyRegsPolJrnChans s (requalify a s c) := by simp [OnlyRegsPolJrnChans, requalify, cite @qlClear_keeps, cite @qlChange_keeps, cite @ite_state]
theorem portCommit_keeps (a : Policy) (s : State) (n : Nat) :
    OnlyRegsJrnChansPtps s (portCommit a s n) := by simp [OnlyRegsJrnChansPtps, portCommit, cite @txclkJudge_keeps, cite @portModeChange_keeps, cite @ite_state]
theorem markFallback_keeps (s : State) :
    OnlyRegs s (markFallback s) := by simp [OnlyRegs, markFallback, cite @set1_keeps, cite @degraded_keeps, cite @ite_state]
theorem changePolicy_keeps (s : State) (b : Policy) :
    OnlyRegsPolMemPlus15 s (changePolicy s b) := by simp [OnlyRegsPolMemPlus15, changePolicy, cite @resetRows_keeps, cite @set1_keeps, cite @moveOutput_keeps, cite @hostHalfReset_keeps, cite @synthStart_keeps, cite @apllStop_keeps, cite @partReset_keeps, cite @duskRecompute_keeps, cite @commitCfg_keeps, cite @requalify_keeps, cite @instReset_keeps, cite @todConnect_keeps, cite @fmtPending_keeps, cite @utcPolicy_keeps, cite @portCommit_keeps, cite @shelfCommit_keeps, cite @markFallback_keeps, cite @debugEnd_keeps, cite @ite_state, cite @foldl_state]
theorem policyCommit_keeps (s : State) :
    OnlyRegsPolMemPlus15 s (policyCommit s) := by simp [OnlyRegsPolMemPlus15, policyCommit, cite @rootStore_keeps, cite @unmark_keeps, cite @changePolicy_keeps, cite @commitKey_keeps, cite @journalPg_keeps, cite @evt_keeps, cite @set1_keeps, cite @modRoot_keeps]
theorem commitStep_keeps (s : State) :
    OnlyRegsPolMemPlus15 s (commitStep s) := by simp [OnlyRegsPolMemPlus15, commitStep, cite @policyCommit_keeps, cite @ite_state]
theorem acceptEpoch_keeps (s : State) :
    OnlyRegsMemCellarRoot s (acceptEpoch s) := by simp [OnlyRegsMemCellarRoot, acceptEpoch, cite @set1_keeps, cite @rootStore_keeps, cite @putSramLE_keeps, cite @ite_state]
theorem setLeaf_keeps (s : State) (v : Nat) : OnlyRegs s (setLeaf s v) := by simp [OnlyRegs, setLeaf, cite @degraded_keeps, cite @set1_keeps, cite @ite_state]
theorem leafDown_keeps (s : State) :
    OnlyRegsJrnLanesPlus7 s (leafDown s) := by simp [OnlyRegsJrnLanesPlus7, leafDown, cite @pktFail_keeps, cite @nmeaPause_keeps, cite @instRestart_keeps, cite @shelfStop_keeps, cite @ite_state, cite @foldl_state]
theorem leafLast_keeps (s : State) (cause : Nat) :
    OnlyRegs s (leafLast s cause) := by simp [OnlyRegs, leafLast, cite @set1_keeps]
theorem leafRestart_keeps (s : State) (cause : Nat) :
    OnlyRegsJrnLanesPlus7 s (leafRestart s cause) := by simp [OnlyRegsJrnLanesPlus7, leafRestart, cite @setLeaf_keeps, cite @journalPg_keeps, cite @addCnt_keeps, cite @evt_keeps, cite @leafLast_keeps, cite @leafDown_keeps]
theorem leafFault_keeps (s : State) (cause : Nat) :
    OnlyRegsJrnLanesPlus8 s (leafFault s cause) := by simp [OnlyRegsJrnLanesPlus8, leafFault, cite @setLeaf_keeps, cite @journalPg_keeps, cite @evt_keeps, cite @leafLast_keeps, cite @leafDown_keeps, cite @modRoot_keeps, cite @leafRestart_keeps, cite @ite_state]
theorem leafHost_keeps (s : State) :
    OnlyRegsJrnLanesPlus8 s (leafHost s) := by simp [OnlyRegsJrnLanesPlus8, leafHost, cite @leafRestart_keeps, cite @modRoot_keeps]
theorem leafStart_keeps (s : State) :
    OnlyRegsMemShelfCellarRoot s (leafStart s) := by simp [OnlyRegsMemShelfCellarRoot, leafStart, cite @reloadBlocks_keeps, cite @setLeaf_keeps, cite @set1_keeps, cite @acceptEpoch_keeps, cite @modRoot_keeps, cite @shelfRejoin_keeps, cite @ite_state]
theorem imageLoad_keeps (s : State) :
    OnlyRegsJrnLanesPlus8 s (imageLoad s) := by simp [OnlyRegsJrnLanesPlus8, imageLoad, cite @setLeaf_keeps, cite @leafDown_keeps, cite @modRoot_keeps, cite @ite_state]
theorem imageOver_keeps (s : State) :
    OnlyRegsJrnLanesPlus8 s (imageOver s) := by simp [OnlyRegsJrnLanesPlus8, imageOver, cite @leafRestart_keeps, cite @modRoot_keeps]
theorem imageActivate_keeps (s : State) : OnlyRoot s (imageActivate s) := by simp [OnlyRoot, imageActivate, cite @modRoot_keeps, cite @ite_state]
theorem imageCancel_keeps (s : State) :
    OnlyRegsMemJrnPlus10B s (imageCancel s) := by simp [OnlyRegsMemJrnPlus10B, imageCancel, cite @imageOver_keeps, cite @reloadBlocks_keeps, cite @ite_state]
theorem imageRefuse_keeps (s : State) (code : Nat) :
    OnlyRegsMemJrnPlus10B s (imageRefuse s code) := by simp [OnlyRegsMemJrnPlus10B, imageRefuse, cite @imageOver_keeps, cite @journalPg_keeps, cite @evt_keeps, cite @set1_keeps, cite @reloadBlocks_keeps, cite @dropOwner_keeps]
theorem imageStored_keeps (s : State) :
    OnlyRegsJrnLanesPlus8 s (imageStored s) := by simp [OnlyRegsJrnLanesPlus8, imageStored, cite @imageOver_keeps, cite @journalPg_keeps, cite @evt_keeps, cite @set1_keeps]
theorem imageVerified_keeps (s : State) : OnlyRegsMemJrnPlus10B s (imageVerified s) := by
  unfold OnlyRegsMemJrnPlus10B imageVerified; dsimp only; (repeat' split) <;> simp [cite @imageRefuse_keeps, cite @rootStore_keeps, cite @modRoot_keeps, cite @acceptEpoch_keeps, cite @foldl_state]
theorem imagePowerFail_keeps (s : State) :
    OnlyRegsMemJrnPlus10B s (imagePowerFail s) := by simp [OnlyRegsMemJrnPlus10B, imagePowerFail, cite @imageRefuse_keeps, cite @ite_state]
theorem storeThen_keeps (s : State) (r : StoreRun) :
    OnlyRegsMemJrnPlus10B s (storeThen s r) := by simp [OnlyRegsMemJrnPlus10B, storeThen, cite @imageStored_keeps, cite @copyProfile_keeps, cite @scheduleCommit_keeps, cite @ite_state]
theorem storeDone_keeps (s : State) (v : Supply) :
    OnlyRegsMemJrnPlus10B s (storeDone s v) := by unfold OnlyRegsMemJrnPlus10B storeDone; (repeat' split) <;> simp [cite @engineStart_keeps, cite @storeThen_keeps, cite @storeEnds_keeps]
theorem storeGiveUp_keeps (s : State) (v : Supply) : OnlyRegsMemJrnPlus10B s (storeGiveUp s v) := by
  unfold OnlyRegsMemJrnPlus10B storeGiveUp; dsimp only; (repeat' split) <;> simp [cite @engineStart_keeps, cite @storeAbandon_keeps, cite @imageRefuse_keeps, cite @stopCommit_keeps]

/-! ### Machine/Power.lean -/

theorem modPower_keeps (s : State) (f : PowerU → PowerU) :
    OnlyPower s (modPower s f) := by simp [OnlyPower, modPower]
theorem publishAvg_keeps (s : State) : OnlyRegs s (publishAvg s) := by simp [OnlyRegs, publishAvg, cite @set1_keeps]
theorem seedAvg_keeps (s : State) (mv : Nat) :
    OnlyRegsPower s (seedAvg s mv) := by simp [OnlyRegsPower, seedAvg, cite @publishAvg_keeps, cite @modPower_keeps]
theorem avgFrame_keeps (s : State) (mv : Nat) :
    OnlyRegsPower s (avgFrame s mv) := by simp [OnlyRegsPower, avgFrame, cite @publishAvg_keeps, cite @modPower_keeps]
theorem holdupOk_keeps (s : State) (mv : Nat) : OnlyRegs s (holdupOk s mv) := by simp [OnlyRegs, holdupOk, cite @set1_keeps, cite @evt_keeps, cite @ite_state]
theorem charging_keeps (s : State) (mv : Nat) : OnlyRegs s (charging s mv) := by simp [OnlyRegs, charging, cite @set1_keeps]
theorem holdupMin_keeps (s : State) (mv : Nat) : OnlyRegs s (holdupMin s mv) := by simp [OnlyRegs, holdupMin, cite @set1_keeps, cite @ite_state]
theorem tearCopy_keeps (s : State) :
    OnlyCellar s (tearCopy s) := by unfold OnlyCellar tearCopy; dsimp only; (repeat' split) <;> simp [cite @modCellar_keeps]
theorem powerOff_keeps (s : State) :
    OnlyPhaseWriteQI2cHoldJrnCellar s (powerOff s) := by simp [OnlyPhaseWriteQI2cHoldJrnCellar, powerOff, cite @modCellar_keeps, cite @tearCopy_keeps]
theorem outputsShut_keeps (s : State) :
    OnlyRegsOuts s (outputsShut s) := by simp [OnlyRegsOuts, outputsShut, cite @set1_keeps, cite @modOut_keeps, cite @foldl_state]
theorem shutdown_keeps (s : State) :
    OnlyPhaseRegsWriteQPlus1 s (shutdown s) := by simp [OnlyPhaseRegsWriteQPlus1, shutdown, cite @outputsShut_keeps, cite @set1_keeps, cite @modShelf_keeps, cite @modPower_keeps, cite @powerOff_keeps]
theorem recordFail_keeps (s : State) (cause vin holdup : Nat) :
    OnlyRegs s (recordFail s cause vin holdup) := by simp [OnlyRegs, recordFail, cite @set1_keeps]
theorem powerFail_keeps (s : State) (cause vin holdup : Nat) :
    OnlyPhaseRegsWriteQPlus15 s (powerFail s cause vin holdup) := by simp [OnlyPhaseRegsWriteQPlus15, powerFail, cite @shutdown_keeps, cite @imagePowerFail_keeps, cite @stopCommit_keeps, cite @ltAdd_keeps, cite @journalPg_keeps, cite @addCnt_keeps, cite @evt_keeps, cite @linkDown_keeps, cite @set1_keeps, cite @recordFail_keeps, cite @shelfPowerFail_keeps, cite @pfSequence_keeps, cite @drainAll_keeps, cite @ite_state, cite @foldl_state]
theorem pfRecover_keeps (s : State) (vin ms : Nat) :
    OnlyRegsMemJrnShelfCellarRootPower s (pfRecover s vin ms) := by simp [OnlyRegsMemJrnShelfCellarRootPower, pfRecover, cite @engineStart_keeps, cite @shelfRecover_keeps, cite @cellarResume_keeps, cite @journalPg_keeps, cite @ltAdd_keeps, cite @addCnt_keeps, cite @evt_keeps, cite @charging_keeps, cite @seedAvg_keeps, cite @set1_keeps]
theorem warmStart_keeps (s : State) : OnlyRegsPower s (warmStart s) := by simp [OnlyRegsPower, warmStart, cite @set1_keeps, cite @modPower_keeps]
theorem warmDone_keeps (s : State) : OnlyRegs s (warmDone s) := by simp [OnlyRegs, warmDone, cite @evt_keeps, cite @set1_keeps]
theorem ovenFault_keeps (s : State) : OnlyRegsJrn s (ovenFault s) := by simp [OnlyRegsJrn, ovenFault, cite @journalPg_keeps, cite @evt_keeps, cite @set1_keeps, cite @degraded_keeps, cite @ite_state]
theorem ovenFrame_keeps (s : State) (i : FrameIn) :
    OnlyRegsPower s (ovenFrame s i) := by simp [OnlyRegsPower, ovenFrame, cite @set1_keeps, cite @modPower_keeps, cite @ite_state]
theorem powerFrame_keeps (s : State) (i : FrameIn) :
    OnlyRegsPower s (powerFrame s i) := by simp [OnlyRegsPower, powerFrame, cite @set1_keeps, cite @avgFrame_keeps, cite @charging_keeps, cite @holdupOk_keeps, cite @holdupMin_keeps, cite @modPower_keeps, cite @ovenFrame_keeps, cite @ite_state]

/-! ### Machine/Start.lean -/

theorem takePolicy_keeps (s : State) (q : Policy) (rom : Bool) :
    OnlyRegsPol s (takePolicy s q rom) := by simp [OnlyRegsPol, takePolicy, cite @degraded_keeps, cite @set1_keeps, cite @ite_state, cite @foldl_state]
theorem finishCommit_keeps (s : State) (q : Policy) :
    OnlyRegsPolMemJrnCellarRoot s (finishCommit s q) := by simp [OnlyRegsPolMemJrnCellarRoot, finishCommit, cite @takePolicy_keeps, cite @rootStore_keeps, cite @unmark_keeps, cite @putSramLE_keeps, cite @putSrams_keeps, cite @commitKey_keeps, cite @foldl_state]
theorem startPolicy_keeps (s : State) :
    OnlyRegsPolMemJrnCellarRoot s (startPolicy s) := by unfold OnlyRegsPolMemJrnCellarRoot startPolicy; (repeat' split) <;> simp [cite @takePolicy_keeps, cite @finishCommit_keeps]
theorem startValues_keeps (s : State) : OnlyRegs s (startValues s) := by simp [OnlyRegs, startValues, cite @resetFields_keeps, cite @foldl_state]
theorem bootUp_keeps (s : State) (cause : Nat) :
    OnlyRegsPolMemPlus8 s (bootUp s cause) := by simp [OnlyRegsPolMemPlus8, bootUp, cite @startValues_keeps, cite @startPolicy_keeps, cite @publishKey_keeps, cite @set1_keeps, cite @publishGains_keeps, cite @instReset_keeps, cite @shelfReset_keeps, cite @tableReset_keeps, cite @foldl_state]
theorem calDefault_keeps (s : State) : OnlyRegs s (calDefault s) := by simp [OnlyRegs, calDefault, cite @degraded_keeps, cite @set1_keeps, cite @ite_state]
theorem powerInit_keeps (s : State) (i : StartIn) :
    OnlyRegsPower s (powerInit s i) := by simp [OnlyRegsPower, powerInit, cite @addCnt_keeps, cite @charging_keeps, cite @holdupOk_keeps, cite @seedAvg_keeps, cite @set1_keeps]
theorem coldState_keeps (s : State) (i : StartIn) : OnlyPhaseStrapsFrnPlus23 s (coldState s i) := by
  unfold OnlyPhaseStrapsFrnPlus23 coldState; dsimp only; (repeat' split) <;> simp
theorem firstEntry_keeps (s : State) :
    OnlyRegsMemJrnCellarRoot s (firstEntry s) := by simp [OnlyRegsMemJrnCellarRoot, firstEntry, cite @enqueue_keeps, cite @frnRestart_keeps, cite @foldl_state]
theorem powerOn_keeps (s : State) (i : StartIn) :
    OnlyPhaseStrapsFrnPlus23 s (powerOn s i) := by simp [OnlyPhaseStrapsFrnPlus23, powerOn, cite @drainAll_keeps, cite @firstEntry_keeps, cite @bootUp_keeps, cite @calDefault_keeps, cite @bboxRecall_keeps, cite @cellarRecall_keeps, cite @powerInit_keeps, cite @coldState_keeps]
theorem resetHold_keeps (s : State) :
    OnlyPhaseRegsSnapReqPlus11 s (resetHold s) := by simp [OnlyPhaseRegsSnapReqPlus11, resetHold, cite @modOut_keeps, cite @modCellar_keeps, cite @set1_keeps, cite @foldl_state]
theorem warmState_keeps (s : State) (straps : Straps) : OnlyPhaseStrapsFrnPlus20 s (warmState s straps) := by
  unfold OnlyPhaseStrapsFrnPlus20 warmState
  generalize resetKept = l
  exact ⟨(foldl_inv State.pending _ (by simp [cite @set1_keeps]) l _).trans rfl, (foldl_inv State.freeIx _ (by simp [cite @set1_keeps]) l _).trans rfl, (foldl_inv State.cellar _ (by simp [cite @set1_keeps]) l _).trans rfl, (foldl_inv State.power _ (by simp [cite @set1_keeps]) l _).trans rfl, (foldl_inv State.vio _ (by simp [cite @set1_keeps]) l _).trans rfl, (foldl_inv State.jrOn _ (by simp [cite @set1_keeps]) l _).trans rfl⟩
theorem holdAllLost_keeps (x1 : List (Nat × Nat)) (x2 : State) : OnlyJrn x2 (holdAllLost x1 x2) := by
  unfold OnlyJrn
  induction x1 generalizing x2 with
  | nil => simp [holdAllLost, cite @holdLost_keeps]
  | cons b r ih => simp [holdAllLost, ih, cite @holdLost_keeps]
theorem resetRelease_keeps (s : State) (straps : Straps) :
    OnlyPhaseStrapsFrnPlus21 s (resetRelease s straps) := by simp [OnlyPhaseStrapsFrnPlus21, resetRelease, cite @drainAll_keeps, cite @frnRestart_keeps, cite @bootUp_keeps, cite @warmState_keeps, cite @holdAllLost_keeps]
theorem resetAfterPf_keeps (s : State) :
    OnlyPhaseStrapsFrnPlus22 s (resetAfterPf s) := by unfold OnlyPhaseStrapsFrnPlus22 resetAfterPf; (repeat' split) <;> simp [cite @resetRelease_keeps, cite @resetHold_keeps]
theorem openDomain_keeps (s : State) (d : Nat) :
    OnlyRegsPairsDomsApllsOutsTimes s (openDomain s d) := by simp [OnlyRegsPairsDomsApllsOutsTimes, openDomain, cite @synthStart_keeps, cite @publishGains_keeps, cite @utcPolicy_keeps, cite @timeStart_keeps, cite @startDom_keeps]
theorem startFrames_keeps (s : State) (src : Nat) :
    OnlyPhaseFrnCycRegsPairsDomsApllsOutsTimes s (startFrames s src) := by simp [OnlyPhaseFrnCycRegsPairsDomsApllsOutsTimes, startFrames, cite @set1_keeps, cite @txclkJudge_keeps, cite @openDomain_keeps, cite @takeFormats_keeps, cite @ite_state, cite @foldl_state]
theorem tbSwitched_keeps (s : State) (src cause : Nat) :
    OnlyRegsJrn s (tbSwitched s src cause) := by simp [OnlyRegsJrn, tbSwitched, cite @journalPg_keeps, cite @evt_keeps, cite @markFallback_keeps, cite @set1_keeps]
theorem recordSys_keeps (s : State) (cause : Nat) :
    OnlyRegs s (recordSys s cause) := by simp [OnlyRegs, recordSys, cite @set1_keeps]
theorem dropVerify_keeps (s : State) : OnlyRegsRoot s (dropVerify s) := by simp [OnlyRegsRoot, dropVerify, cite @set1_keeps, cite @modRoot_keeps, cite @ite_state]
theorem softReset_keeps (s : State) :
    OnlyRegsMemJrnPlus15 s (softReset s) := by simp [OnlyRegsMemJrnPlus15, softReset, cite @leafHost_keeps, cite @sharedReset_keeps, cite @dropVerify_keeps, cite @debugEnd_keeps, cite @hostHalfReset_keeps, cite @set1_keeps, cite @partReset_keeps, cite @journalPg_keeps, cite @addCnt_keeps, cite @recordSys_keeps, cite @ite_state, cite @foldl_state]
theorem leafAgain_keeps (s : State) : OnlyRegsJrnLanesPlus7 s (leafAgain s) := by
  unfold OnlyRegsJrnLanesPlus7 leafAgain; (repeat' split) <;> simp [cite @set1_keeps, cite @shelfRejoin_keeps, cite @leafRestart_keeps]
theorem procReset_keeps (s : State) :
    OnlyRegsMemJrnPlus10B s (procReset s) := by simp [OnlyRegsMemJrnPlus10B, procReset, cite @modRoot_keeps, cite @shelfReset_keeps, cite @leafAgain_keeps, cite @debugEnd_keeps, cite @refuseProfile_keeps, cite @journalPg_keeps, cite @addCnt_keeps, cite @evt_keeps, cite @recordSys_keeps, cite @stopCommit_keeps, cite @ite_state]

/-! ### Machine/Reads.lean -/

theorem modShadow_keeps (s : State) (v : Via) (f : Shadow → Shadow) :
    OnlySpiI2cGateShelf s (modShadow s v f) := by
  unfold OnlySpiI2cGateShelf modShadow; dsimp only; (repeat' split) <;> simp [cite @modPort_keeps, cite @modShelf_keeps]
theorem nowTime_keeps (s : State) (d : Nat) :
    OnlyFreeIx s (nowTime s d).2 := by
  unfold OnlyFreeIx nowTime; dsimp only; (repeat' split) <;> simp [cite @drawFree_keeps, cite @ite_state]
theorem latchFrn_keeps (s : State) (v : Via) (sys : Bool) :
    OnlySpiI2cGateShelf s (latchFrn s v sys) := by simp [OnlySpiI2cGateShelf, latchFrn, cite @modShadow_keeps]
theorem latchNow_keeps (s : State) (v : Via) (d : Nat) :
    OnlyFreeIxSpiI2cGateShelf s (latchNow s v d).2 := by simp [OnlyFreeIxSpiI2cGateShelf, latchNow, cite @modShadow_keeps, cite @nowTime_keeps]
theorem readPage_keeps (s : State) (v : Via) (q : Nat) (p : Page) (n off : Nat) :
    OnlyFreeIxSpiI2cGateShelf s (readPage s v q p n off).2 := by
  unfold OnlyFreeIxSpiI2cGateShelf readPage; dsimp only; (repeat' split) <;> simp [cite @latchNow_keeps, cite @latchFrn_keeps, cite @ite_state]
theorem readValue_keeps (s : State) (v : Via) (q a : Nat) :
    OnlyFreeIxSpiI2cGateShelf s (readValue s v q a).2 := by unfold OnlyFreeIxSpiI2cGateShelf readValue; (repeat' split) <;> simp [cite @readPage_keeps]
theorem readWord_keeps (s : State) (p : Port) (tag a : Nat) :
    OnlyFreeIxSpiI2cGateShelf s (readWord s p tag a).2 := by
  unfold OnlyFreeIxSpiI2cGateShelf readWord; dsimp only; (repeat' split) <;> simp [cite @readValue_keeps, cite @ite_state]
theorem readRegs_keeps (v : Via) (x1 x2 : Nat) (x3 : State) :
    OnlyFreeIxSpiI2cGateShelf x3 (readRegs v x1 x2 x3).2 := by
  unfold OnlyFreeIxSpiI2cGateShelf
  induction x2 generalizing x1 x3 with
  | zero => simp [readRegs, cite @readValue_keeps]
  | succ n ih => (unfold readRegs; dsimp only; (repeat' split) <;> simp [ih, cite @readValue_keeps])
theorem regResp_keeps (s : State) (r : RegReq) :
    OnlyFreeIxRegsSpiI2cGateShelf s (regResp s r) := by simp [OnlyFreeIxRegsSpiI2cGateShelf, regResp, cite @sendResp_keeps, cite @readRegs_keeps, cite @ite_state]
theorem gateRegRead_keeps (s : State) (a n : Nat) :
    OnlyFreeIxRegsSpiI2cGateShelf s (gateRegRead s a n) := by simp [OnlyFreeIxRegsSpiI2cGateShelf, gateRegRead, cite @readRegs_keeps, cite @gateRefuse_keeps, cite @ite_state]
theorem shiftOut_keeps (s : State) (p : Port) (l : List Nat) :
    OnlySpiI2c s (shiftOut s p l) := by simp [OnlySpiI2c, shiftOut, cite @modPort_keeps]

/-! ### Machine/Ports.lean -/

theorem clearW1c_keeps (s : State) (v : Nat) (x : FldAt) :
    OnlyRegs s (clearW1c s v x) := by simp [OnlyRegs, clearW1c, cite @setF_keeps, cite @ite_state]
theorem reqSnap_keeps (s : State) (p : Page) (n cyc : Nat) :
    OnlySnapReq s (reqSnap s p n cyc) := by simp [OnlySnapReq, reqSnap]
theorem reqSnapAll_keeps (s : State) (cyc : Nat) :
    OnlySnapAll s (reqSnapAll s cyc) := by simp [OnlySnapAll, reqSnapAll]
theorem takeWord_keeps (s : State) (p : Port) (tag a v cyc : Nat) :
    OnlyRegsSnapReqSnapAllWriteQ s (takeWord s p tag a v cyc) := by
  unfold OnlyRegsSnapReqSnapAllWriteQ takeWord; dsimp only; (repeat' split) <;> simp [cite @clearW1c_keeps, cite @reqSnap_keeps, cite @reqSnapAll_keeps, cite @ite_state, cite @foldl_state]
theorem burstWord_keeps (p : Port) (tag cyc : Nat) (busy : Bool) (b : Burst) (x : Nat × Nat) :
    OnlyRegsSnapReqSnapAllWriteQ b.st (burstWord p tag cyc busy b x).st := by
  unfold OnlyRegsSnapReqSnapAllWriteQ burstWord; dsimp only; (repeat' split) <;> simp [cite @takeWord_keeps, cite @ite_state]
theorem journalDenied_keeps (s : State) (count tag addr : Nat) (p : Port) :
    OnlyRegsJrn s (journalDenied s count tag addr p) := by simp [OnlyRegsJrn, journalDenied, cite @journal_keeps]
theorem takeBurst_keeps (s : State) (p : Port) (tag cyc : Nat) (words : List (Nat × Nat)) :
    OnlyRegsSnapReqSnapAllWriteQSpiI2cJrn s (takeBurst s p tag cyc words).st := by
  have h := fun {β : Type} (g : State → β) (hg : ∀ b x, g (burstWord p tag cyc (windowBusy s) b x).st = g b.st) =>
    foldl_inv (fun b => g b.st) (burstWord p tag cyc (windowBusy s)) hg words ⟨resOK, [], false, s⟩
  unfold OnlyRegsSnapReqSnapAllWriteQSpiI2cJrn takeBurst; dsimp only
  (repeat' split) <;> simp [h State.pending (by simp [cite @burstWord_keeps]), h State.freeIx (by simp [cite @burstWord_keeps]), h State.phase (by simp [cite @burstWord_keeps]), h State.straps (by simp [cite @burstWord_keeps]), h State.frn (by simp [cite @burstWord_keeps]), h State.cyc (by simp [cite @burstWord_keeps]), h State.snaps (by simp [cite @burstWord_keeps]), h State.i2cHold (by simp [cite @burstWord_keeps]), h State.pol (by simp [cite @burstWord_keeps]), h State.mem (by simp [cite @burstWord_keeps]), h State.lanes (by simp [cite @burstWord_keeps]), h State.funcs (by simp [cite @burstWord_keeps]), h State.rows (by simp [cite @burstWord_keeps]), h State.accs (by simp [cite @burstWord_keeps]), h State.parts (by simp [cite @burstWord_keeps]), h State.chans (by simp [cite @burstWord_keeps]), h State.pkts (by simp [cite @burstWord_keeps]), h State.pairs (by simp [cite @burstWord_keeps]), h State.doms (by simp [cite @burstWord_keeps]), h State.aplls (by simp [cite @burstWord_keeps]), h State.outs (by simp [cite @burstWord_keeps]), h State.times (by simp [cite @burstWord_keeps]), h State.gate (by simp [cite @burstWord_keeps]), h State.eths (by simp [cite @burstWord_keeps]), h State.ptps (by simp [cite @burstWord_keeps]), h State.shelf (by simp [cite @burstWord_keeps]), h State.cellar (by simp [cite @burstWord_keeps]), h State.root (by simp [cite @burstWord_keeps]), h State.power (by simp [cite @burstWord_keeps]), h State.vio (by simp [cite @burstWord_keeps]), h State.tbHold (by simp [cite @burstWord_keeps]), h State.jrOn (by simp [cite @burstWord_keeps]), cite @journalDenied_keeps, cite @addCnt_keeps, cite @modPort_keeps]
theorem endTxn_keeps (s : State) (p : Port) (res : Nat) (denied crcErr late counted : Bool) :
    OnlySpiI2c s (endTxn s p res denied crcErr late counted) := by simp [OnlySpiI2c, endTxn, cite @modPort_keeps]
theorem countTxn_keeps (s : State) (p : Port) : OnlySpiI2c s (countTxn s p) := by simp [OnlySpiI2c, countTxn, cite @modPort_keeps]
theorem writeEnd_keeps (s : State) (p : Port) (tag len addr : Nat) (data : List Nat) (crc cyc : Nat) :
    OnlyRegsSnapReqSnapAllPlus7 s (writeEnd s p tag len addr data crc cyc) := by simp [OnlyRegsSnapReqSnapAllPlus7, writeEnd, cite @endTxn_keeps, cite @takeBurst_keeps, cite @drainAll_keeps, cite @ite_state]
theorem fetchWords_keeps (p : Port) (tag : Nat) (x1 : List Nat) (x2 : State) :
    OnlyFreeIxSpiI2cGateShelf x2 (fetchWords p tag x1 x2).2 := by
  unfold OnlyFreeIxSpiI2cGateShelf
  induction x1 generalizing x2 with
  | nil => simp [fetchWords, cite @readWord_keeps]
  | cons b r ih => (unfold fetchWords; dsimp only; (repeat' split) <;> simp [ih, cite @readWord_keeps])
theorem readEnd_keeps (s : State) (p : Port) (addrs : List Nat) (words : List Fetched) (complete align crcBad : Bool) :
    OnlySpiI2c s (readEnd s p addrs words complete align crcBad) := by simp [OnlySpiI2c, readEnd, cite @countTxn_keeps, cite @endTxn_keeps, cite @ite_state, cite @foldl_state]
theorem atCyc_keeps (s : State) (cyc : Nat) : OnlyCyc s (atCyc s cyc) := by simp [OnlyCyc, atCyc]
theorem spiWriteTxn_keeps (s : State) (t : SpiWrite) :
    OnlyCycRegsSnapReqPlus8 s (spiWriteTxn s t) := by simp [OnlyCycRegsSnapReqPlus8, spiWriteTxn, cite @shiftOut_keeps, cite @atCyc_keeps, cite @endTxn_keeps, cite @writeEnd_keeps, cite @ite_state]
theorem spiReadTxn_keeps (s : State) (t : SpiRead) :
    OnlyFreeIxCycSpiI2cGateShelf s (spiReadTxn s t) := by
  unfold OnlyFreeIxCycSpiI2cGateShelf spiReadTxn; dsimp only; (repeat' split) <;> simp [cite @shiftOut_keeps, cite @atCyc_keeps, cite @endTxn_keeps, cite @fetchWords_keeps, cite @readEnd_keeps, cite @ite_state]
theorem acked_keeps (s : State) (good bad : Nat) :
    OnlySpiI2c s (acked s good bad) := by simp [OnlySpiI2c, acked, cite @modPort_keeps]
theorem i2cWriteDone_keeps (s : State) (t : I2cWrite) (cyc : Nat) :
    OnlyRegsSnapReqSnapAllPlus7 s (i2cWriteDone s t cyc) := by simp [OnlyRegsSnapReqSnapAllPlus7, i2cWriteDone, cite @acked_keeps, cite @endTxn_keeps, cite @writeEnd_keeps, cite @ite_state]
theorem i2cWriteTxn_keeps (s : State) (t : I2cWrite) :
    OnlyCycRegsSnapReqPlus9 s (i2cWriteTxn s t) := by simp [OnlyCycRegsSnapReqPlus9, i2cWriteTxn, cite @shiftOut_keeps, cite @atCyc_keeps, cite @i2cWriteDone_keeps, cite @ite_state]
theorem i2cReadDone_keeps (s : State) (t : I2cRead) (words : List Fetched) (align crcBad : Bool) :
    OnlySpiI2c s (i2cReadDone s t words align crcBad) := by simp [OnlySpiI2c, i2cReadDone, cite @readEnd_keeps, cite @shiftOut_keeps, cite @ite_state]
theorem i2cReadTxn_keeps (s : State) (t : I2cRead) :
    OnlyFreeIxCycSpiI2cI2cHoldGateShelf s (i2cReadTxn s t) := by simp [OnlyFreeIxCycSpiI2cI2cHoldGateShelf, i2cReadTxn, cite @acked_keeps, cite @shiftOut_keeps, cite @atCyc_keeps, cite @endTxn_keeps, cite @i2cReadDone_keeps, cite @fetchWords_keeps, cite @ite_state]
theorem releaseHold_keeps (s : State) :
    OnlyFreeIxRegsSnapReqPlus11 s (releaseHold s) := by
  unfold OnlyFreeIxRegsSnapReqPlus11 releaseHold; dsimp only; (repeat' split) <;> simp [cite @i2cWriteDone_keeps, cite @fetchWords_keeps, cite @i2cReadDone_keeps, cite @ite_state]
theorem holdTimeout_keeps (s : State) :
    OnlySpiI2cI2cHold s (holdTimeout s) := by
  unfold OnlySpiI2cI2cHold holdTimeout; dsimp only; (repeat' split) <;> simp [cite @acked_keeps, cite @endTxn_keeps, cite @i2cReadDone_keeps, cite @ite_state]
theorem oneWrite_keeps (s : State) (a : Access) (addr v : Nat) :
    OnlyCycRegsSnapReqPlus9 s (oneWrite s a addr v) := by
  unfold OnlyCycRegsSnapReqPlus9 oneWrite; dsimp only; (repeat' split) <;> simp [cite @spiWriteTxn_keeps, cite @i2cWriteTxn_keeps]

/-! ### Machine/HostWrites.lean -/

theorem plainField_keeps (s : State) (v : Nat) (x : FldAt) :
    OnlyRegs s (plainField s v x) := by unfold OnlyRegs plainField; (repeat' split) <;> simp [cite @setF_keeps]
theorem plainWord_keeps (s : State) (p : Page) (n off v : Nat) :
    OnlyRegs s (plainWord s p n off v) := by simp [OnlyRegs, plainWord, cite @plainField_keeps, cite @foldl_state]
theorem actRows_keeps (s : State) (off v : Nat) :
    OnlyRegsParts s (actRows s off v) := by simp [OnlyRegsParts, actRows, cite @descWrite_keeps, cite @progWinWrite_keeps, cite @progSwap_keeps, cite @plainWord_keeps, cite @ite_state]
theorem actDpll_keeps (all rest : List QWrite) (s : State) (n off v : Nat) :
    OnlyRegs s (actDpll all rest s n off v) := by simp [OnlyRegs, actDpll, cite @loopBw_keeps, cite @plainWord_keeps, cite @ite_state]
theorem actApll_keeps (s : State) (n off v : Nat) :
    OnlyRegsJrnChansApllsOuts s (actApll s n off v) := by simp [OnlyRegsJrnChansApllsOuts, actApll, cite @epochRequest_keeps, cite @applyAct_keeps, cite @set1_keeps, cite @plainWord_keeps, cite @ite_state]
theorem actOut_keeps (all rest : List QWrite) (s : State) (n off v : Nat) :
    OnlyRegsOuts s (actOut all rest s n off v) := by simp [OnlyRegsOuts, actOut, cite @outEnableWrite_keeps, cite @pulseModeWrite_keeps, cite @outRefresh_keeps, cite @set1_keeps, cite @fineSet_keeps, cite @palignSet_keeps, cite @palignOfsSet_keeps, cite @dividerWrite_keeps, cite @pulsePeriodSet_keeps, cite @plainWord_keeps, cite @ite_state]
theorem actTime_keeps (rest : List QWrite) (s : State) (n off v : Nat) :
    OnlyFreeIxRegsTimes s (actTime rest s n off v) := by simp [OnlyFreeIxRegsTimes, actTime, cite @hostSet_keeps, cite @baudSet_keeps, cite @plainWord_keeps, cite @ite_state]
theorem actEth_keeps (rest : List QWrite) (s : State) (n off v : Nat) :
    OnlyRegsJrnChansEths s (actEth rest s n off v) := by simp [OnlyRegsJrnChansEths, actEth, cite @restartAn_keeps, cite @portEnableWrite_keeps, cite @plainWord_keeps, cite @ite_state]
theorem actLane_keeps (s : State) (n off v : Nat) :
    OnlyRegs s (actLane s n off v) := by
  unfold OnlyRegs actLane; dsimp only; (repeat' split) <;> simp [cite @plainWord_keeps, cite @ite_state]
theorem actRoot_keeps (s : State) (off v : Nat) :
    OnlyRegsMemJrnPlus10B s (actRoot s off v) := by simp [OnlyRegsMemJrnPlus10B, actRoot, cite @leafHost_keeps, cite @imageActivate_keeps, cite @imageLoad_keeps, cite @imageCancel_keeps, cite @commitCmd_keeps, cite @abortCmd_keeps, cite @verifyCmd_keeps, cite @plainWord_keeps, cite @ite_state]
theorem actPage_keeps (all rest : List QWrite) (s : State) (p : Page) (n off v : Nat) :
    OnlyFreeIxRegsMemPlus14 s (actPage all rest s p n off v) := by
  unfold OnlyFreeIxRegsMemPlus14 actPage; dsimp only; (repeat' split) <;> simp [cite @actRows_keeps, cite @actDpll_keeps, cite @actLane_keeps, cite @actApll_keeps, cite @actOut_keeps, cite @actTime_keeps, cite @actEth_keeps, cite @actRoot_keeps, cite @rdIdxWrite_keeps, cite @plainWord_keeps, cite @rdSeqWrite_keeps, cite @bboxWmWrite_keeps, cite @debugAsk_keeps, cite @debugEnd_keeps, cite @ite_state]
theorem actCellarWord_keeps (s : State) (b a v : Nat) :
    OnlyMemCellarRoot s (actCellarWord s b a v) := by simp [OnlyMemCellarRoot, actCellarWord, cite @modRoot_keeps, cite @putSramLE_keeps, cite @ite_state]
theorem actWord_keeps (all rest : List QWrite) (s : State) (w : QWrite) :
    OnlyFreeIxRegsMemPlus14 s (actWord all rest s w) := by unfold OnlyFreeIxRegsMemPlus14 actWord; (repeat' split) <;> simp [cite @actPage_keeps, cite @setLE_keeps, cite @actCellarWord_keeps]
theorem discard_keeps (s : State) (rest : List QWrite) (w : QWrite) :
    OnlyRegsJrn s (discard s rest w) := by simp [OnlyRegsJrn, discard, cite @journalDenied_keeps]
theorem actAll_keeps (all x1 : List QWrite) (x2 : List (Port × Nat)) (x3 : State) :
    OnlyFreeIxRegsMemPlus14 x3 (actAll all x1 x2 x3) := by
  unfold OnlyFreeIxRegsMemPlus14
  induction x1 generalizing x2 x3 with
  | nil => simp [actAll, cite @discard_keeps, cite @actWord_keeps]
  | cons b r ih => (unfold actAll; (repeat' split) <;> simp [ih, cite @discard_keeps, cite @actWord_keeps])
theorem resetStep_keeps (s : State) (due : List QWrite) :
    OnlyRegsMemJrnPlus15 s (resetStep s due) := by simp [OnlyRegsMemJrnPlus15, resetStep, cite @softReset_keeps, cite @partReset_keeps, cite @ite_state, cite @foldl_state]
theorem goWord_keeps (p : Nat) (s : State) (w : QWrite) :
    OnlyRegsCellarRoot s (goWord p s w) := by unfold OnlyRegsCellarRoot goWord; (repeat' split) <;> simp [cite @storeCmd_keeps]
theorem storeStep_keeps (s : State) (live : List QWrite) :
    OnlyRegsCellarRoot s (storeStep s live) := by simp [OnlyRegsCellarRoot, storeStep, cite @goWord_keeps, cite @foldl_state]
theorem writeStep_keeps (s : State) (due : List QWrite) (parts : List Nat) :
    OnlyFreeIxRegsMemPlus14 s (writeStep s due parts) := by simp [OnlyFreeIxRegsMemPlus14, writeStep, cite @storeStep_keeps, cite @actAll_keeps]
theorem armTrig_keeps (s : State) (d k v : Nat) :
    OnlyRegsTimes s (armTrig s d k v) := by simp [OnlyRegsTimes, armTrig, cite @trigArmAct_keeps, cite @trigDisarmAct_keeps, cite @ite_state]
theorem armCap_keeps (s : State) (d c v : Nat) :
    OnlyRegsTimes s (armCap s d c v) := by simp [OnlyRegsTimes, armCap, cite @capArmAct_keeps, cite @capCancelAct_keeps, cite @ite_state]
theorem armWord_keeps (s : State) (w : QWrite) :
    OnlyRegsTimes s (armWord s w) := by unfold OnlyRegsTimes armWord; (repeat' split) <;> simp [cite @armCap_keeps, cite @armTrig_keeps]
theorem armStep_keeps (s : State) (due : List QWrite) (parts : List Nat) :
    OnlyRegsTimes s (armStep s due parts) := by simp [OnlyRegsTimes, armStep, cite @armWord_keeps, cite @foldl_state]

/-! ### Machine/Frame.lean -/

theorem latchPage_keeps (s : State) (p : Page) (n : Nat) :
    OnlyRegsSnaps s (latchPage s p n) := by simp [OnlyRegsSnaps, latchPage, cite @set1_keeps]
theorem snapStep_keeps (s : State) :
    OnlyRegsSnapsSnapReqSnapAll s (snapStep s) := by simp [OnlyRegsSnapsSnapReqSnapAll, snapStep, cite @latchPage_keeps, cite @evtIf_keeps, cite @foldl_state]
theorem boundarySteps_keeps (s : State) :
    OnlyFreeIxRegsWriteQPlus17 s (boundarySteps s) := by simp [OnlyFreeIxRegsWriteQPlus17, boundarySteps, cite @armStep_keeps, cite @timeBoundary_keeps, cite @debugFrame_keeps, cite @roleChange_keeps, cite @resetDone_keeps, cite @tableAccept_keeps, cite @writeStep_keeps, cite @gateStep_keeps, cite @resetStep_keeps, cite @commitStep_keeps, cite @foldl_state]
theorem stages_keeps (s : State) (i : FrameIn) :
    OnlyRegsMemJrnPlus17 s (stages s i) := by simp [OnlyRegsMemJrnPlus17, stages, cite @trigStage_keeps, cite @stage1_keeps, cite @stage4_keeps, cite @drainAll_keeps, cite @stage3_keeps, cite @stage2_keeps, cite @capStage_keeps, cite @tableRefresh_keeps, cite @harvest_keeps, cite @stage5_keeps, cite @shelfFrame_keeps, cite @shelfAlerts_keeps, cite @etherFrame_keeps, cite @ringStore_keeps, cite @ite_state]
theorem frameEnd_keeps (s : State) (i : FrameIn) :
    OnlyFreeIxRegsMemPlus9 s (frameEnd s i) := by simp [OnlyFreeIxRegsMemPlus9, frameEnd, cite @timeAdvance_keeps, cite @harvest_keeps, cite @frameLost_keeps, cite @drainAll_keeps, cite @suppressionEnd_keeps, cite @lanesEnd_keeps, cite @publishSlots_keeps, cite @ite_state, cite @foldl_state]
theorem frameTick_keeps (s : State) (i : FrameIn) :
    OnlyFreeIxFrnCycPlus19 s (frameTick s i) := by simp [OnlyFreeIxFrnCycPlus19, frameTick, cite @frameEnd_keeps, cite @powerFrame_keeps, cite @stages_keeps, cite @drainAll_keeps, cite @boundarySteps_keeps, cite @snapStep_keeps, cite @timeTick_keeps, cite @rootUp_keeps, cite @ite_state, cite @foldl_state]
theorem frameZero_keeps (s : State) (src : Nat) :
    OnlyFreeIxPhaseFrnPlus18 s (frameZero s src) := by simp [OnlyFreeIxPhaseFrnPlus18, frameZero, cite @stages_keeps, cite @drainAll_keeps, cite @boundarySteps_keeps, cite @startFrames_keeps]
theorem tbBridge_keeps (s : State) (d : Nat) :
    OnlyRegsDoms s (tbBridge s d) := by simp [OnlyRegsDoms, tbBridge, cite @modDom_keeps, cite @bridgeStart_keeps, cite @ite_state]
theorem tbSwitch_keeps (s : State) :
    OnlyRegsJrnDomsTbHold s (tbSwitch s) := by simp [OnlyRegsJrnDomsTbHold, tbSwitch, cite @tbBridge_keeps, cite @duskRecompute_keeps, cite @tbSwitched_keeps, cite @ite_state, cite @foldl_state]
theorem outLost_keeps (s : State) (n : Nat) :
    OnlyRegsOuts s (outLost s n) := by
  unfold OnlyRegsOuts outLost; dsimp only; (repeat' split) <;> simp [cite @outRefresh_keeps, cite @modOut_keeps, cite @evtIf_keeps, cite @finishStop_keeps]
theorem tbLost_keeps (s : State) :
    OnlyPhaseRegsMemJrnOutsCellarRoot s (tbLost s) := by simp [OnlyPhaseRegsMemJrnOutsCellarRoot, tbLost, cite @drainAll_keeps, cite @outLost_keeps, cite @journalPg_keeps, cite @degraded_keeps, cite @set1_keeps, cite @foldl_state]

end Sys2Proof.Machine
end

