-- ==== Sys2Proof/Laws/State.lean ====
section
/-! SUPPORT. Register cells and units of the state: what reading a cell, a field, an event or a unit gives after it, or
another, was written. -/

namespace Sys2Proof.Machine

/-! ### Sorted lists -/

@[simp] theorem kvGet_kvSet_same {α : Type} (l : List (Nat × α)) (k : Nat) (v : α) : kvGet (kvSet l k v) k = some v := by
  induction l with
  | nil => simp [kvSet, kvGet]
  | cons x r ih =>
    obtain ⟨a, w⟩ := x
    simp only [kvSet]
    split
    · simp [kvGet]
    · split
      · simp [kvGet]
      · rename_i h1 h2
        simp [kvGet, Ne.symm h2, ih]

theorem kvGet_kvSet_ne {α : Type} (l : List (Nat × α)) {k m : Nat} (v : α) (h : m ≠ k) :
    kvGet (kvSet l k v) m = kvGet l m := by
  induction l with
  | nil => simp [kvSet, kvGet, Ne.symm h]
  | cons x r ih =>
    obtain ⟨a, w⟩ := x
    simp only [kvSet]
    split
    · simp [kvGet, Ne.symm h]
    · split
      · rename_i h1 h2
        subst h2
        simp [kvGet, Ne.symm h]
      · simp [kvGet, ih]

@[simp] theorem kvGet_kvDel_same {α : Type} (l : List (Nat × α)) (k : Nat) : kvGet (kvDel l k) k = none := by
  induction l with
  | nil => rfl
  | cons x r ih =>
    obtain ⟨a, w⟩ := x
    simp only [kvDel]
    split
    · exact ih
    · rename_i h
      simp [kvGet, h, ih]

theorem kvGet_kvDel_ne {α : Type} (l : List (Nat × α)) {k m : Nat} (h : m ≠ k) : kvGet (kvDel l k) m = kvGet l m := by
  induction l with
  | nil => rfl
  | cons x r ih =>
    obtain ⟨a, w⟩ := x
    simp only [kvDel]
    split
    · rename_i h1
      subst h1
      simp [kvGet, Ne.symm h, ih]
    · simp [kvGet, ih]

/-! ### Register cells -/

/-- Writing a field changes its own cell alone. -/
theorem setF_cell_ne (s : State) (f : Fld) (n k j v m : Nat) (h : m ≠ fldKey f n k j) :
    kvGet (setF s f n k j v).regs m = kvGet s.regs m := by
  unfold setF
  dsimp only
  split
  · exact kvGet_kvDel_ne _ h
  · exact kvGet_kvSet_ne _ _ h

theorem set1_cell_ne (s : State) (f : Fld) (n v m : Nat) (h : m ≠ fldKey f n 0 0) :
    kvGet (set1 s f n v).regs m = kvGet s.regs m := setF_cell_ne s f n 0 0 v m h

/-- A field that is not LK reads as the value last written to it, cut to its width. -/
theorem getF_setF_same (s : State) (f : Fld) (n k j v : Nat) (h : f.acc ≠ .lk) :
    getF (setF s f n k j v) f n k j = v % 2 ^ f.width := by
  have e : ∀ t : State, getF t f n k j = (kvGet t.regs (fldKey f n k j)).getD (fldReset f n k) := by
    intro t; unfold getF; split <;> simp_all
  rw [e]
  unfold setF
  dsimp only
  split
  · rename_i h1
    simp [h1]
  · simp

/-- Writing a field leaves every field of another cell as it was. -/
theorem getF_setF_ne (s : State) (f g : Fld) (n k j v m a b : Nat) (h : fldKey g m a b ≠ fldKey f n k j) :
    getF (setF s f n k j v) g m a b = getF s g m a b := by
  have e : kvGet (setF s f n k j v).regs (fldKey g m a b) = kvGet s.regs (fldKey g m a b) := setF_cell_ne s f n k j v _ h
  unfold getF
  split
  · rfl
  · rw [e]

theorem get1_set1_same (s : State) (f : Fld) (n v : Nat) (h : f.acc ≠ .lk) : get1 (set1 s f n v) f n = v % 2 ^ f.width :=
  getF_setF_same s f n 0 0 v h

theorem get1_set1_ne (s : State) (f g : Fld) (n v m : Nat) (h : fldKey g m 0 0 ≠ fldKey f n 0 0) :
    get1 (set1 s f n v) g m = get1 s g m := getF_setF_ne s f g n 0 0 v m 0 0 h

/-- A field reads the same where its cell and the policy are the same. -/
theorem getF_congr {s t : State} (f : Fld) (n k j : Nat) (h : kvGet t.regs (fldKey f n k j) = kvGet s.regs (fldKey f n k j))
    (hp : t.pol = s.pol) : getF t f n k j = getF s f n k j := by
  unfold getF
  rw [h, hp]

/-! ### Events and counters -/

/-- The two event cells of a page differ. -/
theorem evt_key_cnt (p : Page) (n : Nat) : fldKey (HDR.EVT p) n 0 0 ≠ fldKey (HDR.EVT_CNT p) n 0 0 := by
  unfold fldKey fldAddr HDR.EVT_CNT HDR.EVT
  dsimp only
  omega

/-- Setting an event bit changes the page's EVT alone. -/
theorem setEvtBit_cell_ne (s : State) (p : Page) (n bit m : Nat) (h : m ≠ fldKey (HDR.EVT p) n 0 0) :
    kvGet (setEvtBit s p n bit).regs m = kvGet s.regs m := set1_cell_ne s _ n _ m h

/-- COUNTER_SAT changes the page's EVT and EVT_CNT alone. -/
theorem raiseSat_cell_ne (s : State) (p : Page) (n m : Nat) (h : m ≠ fldKey (HDR.EVT p) n 0 0)
    (h2 : m ≠ fldKey (HDR.EVT_CNT p) n 0 0) : kvGet (raiseSat s p n).regs m = kvGet s.regs m := by
  unfold raiseSat
  split
  · rfl
  · dsimp only
    rw [set1_cell_ne _ _ _ _ _ h2, setEvtBit_cell_ne _ _ _ _ _ h]

/-- An event changes the page's EVT and EVT_CNT alone. -/
theorem evt_cell_ne (s : State) (p : Page) (n bit m : Nat) (h : m ≠ fldKey (HDR.EVT p) n 0 0)
    (h2 : m ≠ fldKey (HDR.EVT_CNT p) n 0 0) : kvGet (evt s p n bit).regs m = kvGet s.regs m := by
  unfold evt
  dsimp only
  split
  · rw [raiseSat_cell_ne _ _ _ _ h h2, set1_cell_ne _ _ _ _ _ h2, setEvtBit_cell_ne _ _ _ _ _ h]
  · rw [set1_cell_ne _ _ _ _ _ h2, setEvtBit_cell_ne _ _ _ _ _ h]

/-- A counter's addition changes the counter and, at its limit, its page's EVT and EVT_CNT. -/
theorem addCnt_cell_ne (s : State) (f : Fld) (n k a m : Nat) (h0 : m ≠ fldKey f n k 0)
    (h : m ≠ fldKey (HDR.EVT f.page) n 0 0) (h2 : m ≠ fldKey (HDR.EVT_CNT f.page) n 0 0) :
    kvGet (addCnt s f n k a).regs m = kvGet s.regs m := by
  unfold addCnt
  dsimp only
  split
  · rw [raiseSat_cell_ne _ _ _ _ h h2, setF_cell_ne _ _ _ _ _ _ _ h0]
  · rw [setF_cell_ne _ _ _ _ _ _ _ h0]

/-- A bit that is set stays set when another bit is. -/
theorem bitOf_lor (x i j : Nat) : bitOf (x ||| 2 ^ i) j = (bitOf x j || decide (i = j)) := by
  have e : ∀ y, bitOf y j = y.testBit j := by
    intro y
    unfold bitOf bitsOf
    rw [Nat.testBit_eq_decide_div_mod_eq]
    simp [beq_eq_decide]
  rw [e, e, Nat.testBit_or, Nat.testBit_two_pow]

theorem bitOf_mod (x w j : Nat) (h : j < w) : bitOf (x % 2 ^ w) j = bitOf x j := by
  have e : ∀ y, bitOf y j = y.testBit j := by
    intro y
    unfold bitOf bitsOf
    rw [Nat.testBit_eq_decide_div_mod_eq]
    simp [beq_eq_decide]
  rw [e, e, Nat.testBit_mod_two_pow]
  simp [h]

/-- EVT after a bit of it was set. -/
theorem setEvtBit_evt (s : State) (p : Page) (n bit j : Nat) (hj : j < 32) :
    bitOf (get1 (setEvtBit s p n bit) (HDR.EVT p) n) j = (bitOf (get1 s (HDR.EVT p) n) j || decide (bit = j)) := by
  unfold setEvtBit
  rw [get1_set1_same _ _ _ _ (by simp [HDR.EVT])]
  show bitOf (_ % 2 ^ 32) j = _
  rw [bitOf_mod _ _ _ hj, bitOf_lor]

/-- EVT does not depend on EVT_CNT. -/
theorem evt_of_cnt (s : State) (p : Page) (n v : Nat) : get1 (set1 s (HDR.EVT_CNT p) n v) (HDR.EVT p) n = get1 s (HDR.EVT p) n :=
  get1_set1_ne _ _ _ _ _ _ (evt_key_cnt p n)

/-- COUNTER_SAT keeps every bit that is set. -/
theorem raiseSat_mono (s : State) (p : Page) (n j : Nat) (hj : j < 32) (h : bitOf (get1 s (HDR.EVT p) n) j = true) :
    bitOf (get1 (raiseSat s p n) (HDR.EVT p) n) j = true := by
  unfold raiseSat
  split
  · exact h
  · dsimp only
    rw [evt_of_cnt, setEvtBit_evt _ _ _ _ _ hj, h]
    rfl

/-- An event sets its bit. -/
theorem evt_bit (s : State) (p : Page) (n bit : Nat) (hb : bit < 32) :
    bitOf (get1 (evt s p n bit) (HDR.EVT p) n) bit = true := by
  have h : bitOf (get1 (setEvtBit s p n bit) (HDR.EVT p) n) bit = true := by
    rw [setEvtBit_evt _ _ _ _ _ hb]
    simp
  unfold evt
  dsimp only
  split
  · exact raiseSat_mono _ _ _ _ hb (by rw [evt_of_cnt]; exact h)
  · rw [evt_of_cnt]
    exact h

/-- An event keeps every bit that is set. -/
theorem evt_mono (s : State) (p : Page) (n bit j : Nat) (hj : j < 32) (h : bitOf (get1 s (HDR.EVT p) n) j = true) :
    bitOf (get1 (evt s p n bit) (HDR.EVT p) n) j = true := by
  have h1 : bitOf (get1 (setEvtBit s p n bit) (HDR.EVT p) n) j = true := by
    rw [setEvtBit_evt _ _ _ _ _ hj, h]
    rfl
  unfold evt
  dsimp only
  split
  · exact raiseSat_mono _ _ _ _ hj (by rw [evt_of_cnt]; exact h1)
  · rw [evt_of_cnt]
    exact h1

/-- A field of another cell reads as before an event. -/
theorem getF_evt_ne (s : State) (p : Page) (n bit : Nat) (g : Fld) (m a b : Nat)
    (h : fldKey g m a b ≠ fldKey (HDR.EVT p) n 0 0) (h2 : fldKey g m a b ≠ fldKey (HDR.EVT_CNT p) n 0 0) :
    getF (evt s p n bit) g m a b = getF s g m a b :=
  getF_congr g m a b (evt_cell_ne s p n bit _ h h2) (by simp [cite @evt_keeps])

/-- A saturating counter after an addition. -/
theorem getF_addCnt_same (s : State) (f : Fld) (n k m : Nat) (hf : f.acc ≠ .lk) (hw : f.width = 32)
    (h : fldKey f n k 0 ≠ fldKey (HDR.EVT f.page) n 0 0) (h2 : fldKey f n k 0 ≠ fldKey (HDR.EVT_CNT f.page) n 0 0) :
    getF (addCnt s f n k m) f n k 0 = satTo cntMax (getF s f n k 0 + m) := by
  have hs : satTo cntMax (getF s f n k 0 + m) % 2 ^ f.width = satTo cntMax (getF s f n k 0 + m) := by
    rw [hw]
    apply Nat.mod_eq_of_lt
    unfold satTo cntMax
    split <;> omega
  unfold addCnt
  dsimp only
  split
  · rw [getF_congr f n k 0 (raiseSat_cell_ne _ _ _ _ h h2) (by simp [cite @raiseSat_keeps, cite @setF_keeps]), getF_setF_same _ _ _ _ _ _ hf, hs]
  · rw [getF_setF_same _ _ _ _ _ _ hf, hs]

/-- A field of another cell reads as before a counter's addition. -/
theorem getF_addCnt_ne (s : State) (f g : Fld) (n k x m a b : Nat) (h0 : fldKey g m a b ≠ fldKey f n k 0)
    (h : fldKey g m a b ≠ fldKey (HDR.EVT f.page) n 0 0) (h2 : fldKey g m a b ≠ fldKey (HDR.EVT_CNT f.page) n 0 0) :
    getF (addCnt s f n k x) g m a b = getF s g m a b :=
  getF_congr g m a b (addCnt_cell_ne s f n k x _ h0 h h2) (by simp [cite @addCnt_keeps])

/-! ### The states that a start begins from -/

@[simp] theorem coldState_phase (s : State) (i : StartIn) : (coldState s i).phase = .waiting := rfl
@[simp] theorem coldState_frn (s : State) (i : StartIn) : (coldState s i).frn = 0 := rfl
@[simp] theorem coldState_straps (s : State) (i : StartIn) : (coldState s i).straps = i.straps := rfl
@[simp] theorem coldState_writeQ (s : State) (i : StartIn) : (coldState s i).writeQ = [] := rfl
@[simp] theorem coldState_snaps (s : State) (i : StartIn) : (coldState s i).snaps = [] := rfl
@[simp] theorem coldState_mem (s : State) (i : StartIn) : (coldState s i).mem = [] := rfl
@[simp] theorem coldState_regs (s : State) (i : StartIn) : (coldState s i).regs = [] := rfl
@[simp] theorem coldState_nv (s : State) (i : StartIn) : (coldState s i).cellar.nv = s.cellar.nv := rfl

/-- What a release of RESET_N starts from, beside what Table 17.3 keeps. -/
theorem warmState_fresh (s : State) (st : Straps) :
    (warmState s st).phase = .waiting ∧ (warmState s st).frn = 0 ∧ (warmState s st).straps = st ∧
    (warmState s st).writeQ = [] ∧ (warmState s st).snaps = [] := by
  unfold warmState
  generalize resetKept = l
  dsimp only
  exact ⟨(foldl_inv State.phase _ (by simp [cite @set1_keeps]) l _).trans rfl, (foldl_inv State.frn _ (by simp [cite @set1_keeps]) l _).trans rfl,
    (foldl_inv State.straps _ (by simp [cite @set1_keeps]) l _).trans rfl, (foldl_inv State.writeQ _ (by simp [cite @set1_keeps]) l _).trans rfl,
    (foldl_inv State.snaps _ (by simp [cite @set1_keeps]) l _).trans rfl⟩

end Sys2Proof.Machine
end

