-- ==== Sys2Proof/Laws/JournalKept.lean ====
section
/-! SUPPORT. Every operation that touches the journal keeps its queue within 64 entries (R565). -/

namespace Sys2Proof.Machine

/-- What every step of a fold keeps within the queue's size, the fold keeps so. -/
@[simp] theorem foldl_jq {α : Type} (f : State → α → State)
    (h : ∀ t x, t.jrn.queue.length ≤ 64 → (f t x).jrn.queue.length ≤ 64) (l : List α) (s : State)
    (hs : s.jrn.queue.length ≤ 64) : (l.foldl f s).jrn.queue.length ≤ 64 := by
  induction l generalizing s with
  | nil => exact hs
  | cons x r ih => exact ih _ (h _ _ hs)

@[simp] theorem ite_queue (c : Prop) [Decidable c] (a b : Journal) :
    (if c then a else b).queue = if c then a.queue else b.queue := by split <;> rfl

@[simp] theorem ite_length (c : Prop) [Decidable c] (a b : List JEntry) :
    ((if c then a else b).length ≤ 64) = if c then a.length ≤ 64 else b.length ≤ 64 := by split <;> rfl
@[simp] theorem enqueue_jq (s : State) (e : JEntry) (h : s.jrn.queue.length ≤ 64) :
    (enqueue s e).jrn.queue.length ≤ 64 := by
  unfold enqueue
  split
  · simp [cite @addCnt_keeps]; omega
  · simpa [cite @addCnt_keeps] using h
@[simp] theorem journal_jq (s : State) (code : Nat) (part : Option Nat) (unit inst data : Nat) (h : s.jrn.queue.length ≤ 64) :
    (journal s code part unit inst data).jrn.queue.length ≤ 64 := by
  simp +contextual (maxDischargeDepth := 30) [journal, h, cite @addCnt_keeps]
@[simp] theorem journalPg_jq (s : State) (code : Nat) (part : Option Nat) (p : Page) (inst data : Nat) (h : s.jrn.queue.length ≤ 64) :
    (journalPg s code part p inst data).jrn.queue.length ≤ 64 := by
  simp +contextual (maxDischargeDepth := 30) [journalPg, h]
@[simp] theorem journalMove_jq (s : State) (f old new : Nat) (h : s.jrn.queue.length ≤ 64) :
    (journalMove s f old new).jrn.queue.length ≤ 64 := by
  simp +contextual (maxDischargeDepth := 30) [journalMove, h]
@[simp] theorem laneSorted_jq (s t : State) (h : t.jrn.queue.length ≤ 64) :
    (laneSorted s t).jrn.queue.length ≤ 64 := by
  have hb : ∀ (e : JEntry) (l : List JEntry), (byInst e l).length = l.length + 1 := by
    intro e l
    induction l with
    | nil => rfl
    | cons x r ih => unfold byInst; split <;> simp [ih]
  have hf : ∀ (q l : List JEntry), (q.foldl (fun l e => byInst e l) l).length = l.length + q.length := by
    intro q
    induction q with
    | nil => simp
    | cons x r ih => intro l; rw [List.foldl_cons, ih, hb]; simp; omega
  unfold laneSorted
  simp [hf]
  omega
@[simp] theorem loseLane_jq (s : State) (f old : Nat) (h : s.jrn.queue.length ≤ 64) :
    (loseLane s f old).jrn.queue.length ≤ 64 := by
  simp +contextual (maxDischargeDepth := 30) [loseLane, h, cite @baseLost_keeps, cite @modLane_keeps, cite @bareLane_keeps, cite @degraded_keeps, cite @chanEvt_keeps, cite @set1_keeps]
@[simp] theorem moveFunc_jq (s : State) (f old : Nat) (h : s.jrn.queue.length ≤ 64) :
    (moveFunc s f old).jrn.queue.length ≤ 64 := by
  unfold moveFunc; dsimp only; (repeat' split) <;> simp +contextual (maxDischargeDepth := 30) [h, cite @bareLane_keeps, cite @modLane_keeps, cite @startLane_keeps, cite @chanEvt_keeps]
@[simp] theorem moveIfBad_jq (bad : List (Nat × Nat)) (s : State) (f : Nat) (h : s.jrn.queue.length ≤ 64) :
    (moveIfBad bad s f).jrn.queue.length ≤ 64 := by
  unfold moveIfBad; (repeat' split) <;> simp +contextual (maxDischargeDepth := 30) [h, cite @withhold_keeps]
@[simp] theorem moveFaulted_jq (s : State) (bad : List (Nat × Nat)) (h : s.jrn.queue.length ≤ 64) :
    (moveFaulted s bad).jrn.queue.length ≤ 64 := by
  simp +contextual (maxDischargeDepth := 30) [moveFaulted, h, cite @laneFault_keeps]
@[simp] theorem overdriveOnset_jq (s : State) (f : Nat) (h : s.jrn.queue.length ≤ 64) :
    (overdriveOnset s f).jrn.queue.length ≤ 64 := by
  simp +contextual (maxDischargeDepth := 30) [overdriveOnset, h, cite @modFunc_keeps, cite @baseLost_keeps, cite @modChan_keeps, cite @suspectOnset_keeps, cite @laneDriven_keeps, cite @chanEvt_keeps]
@[simp] theorem overdrivePad_jq (s : State) (f : Nat) (on : Bool) (h : s.jrn.queue.length ≤ 64) :
    (overdrivePad s f on).jrn.queue.length ≤ 64 := by
  simp +contextual (maxDischargeDepth := 30) [overdrivePad, h, cite @overdriveLane_keeps, cite @modFunc_keeps]
@[simp] theorem overdriveFrame_jq (s : State) (pads : Nat) (h : s.jrn.queue.length ≤ 64) :
    (overdriveFrame s pads).jrn.queue.length ≤ 64 := by
  simp +contextual (maxDischargeDepth := 30) [overdriveFrame, h]
@[simp] theorem stage1_jq (s : State) (i : FrameIn) (h : s.jrn.queue.length ≤ 64) :
    (stage1 s i).jrn.queue.length ≤ 64 := by
  simp +contextual (maxDischargeDepth := 30) [stage1, h, cite @suspectFlags_keeps, cite @findFaults_keeps, cite @sampleFunc_keeps, cite @idleLane_keeps, cite @latchPlan_keeps]
@[simp] theorem qlChange_jq (s : State) (c old new : Nat) (timeout : Bool) (h : s.jrn.queue.length ≤ 64) :
    (qlChange s c old new timeout).jrn.queue.length ≤ 64 := by
  simp +contextual (maxDischargeDepth := 30) [qlChange, h, cite @chanEvt_keeps, cite @addCnt_keeps]
@[simp] theorem applyRank_jq (s : State) (c rank frames : Nat) (h : s.jrn.queue.length ≤ 64) :
    (applyRank s c rank frames).jrn.queue.length ≤ 64 := by
  simp +contextual (maxDischargeDepth := 30) [applyRank, h, cite @modChan_keeps]
@[simp] theorem qlExpire_jq (s : State) (c : Nat) (h : s.jrn.queue.length ≤ 64) :
    (qlExpire s c).jrn.queue.length ≤ 64 := by
  simp +contextual (maxDischargeDepth := 30) [qlExpire, h, cite @modChan_keeps]
@[simp] theorem qlFrame_jq (s : State) (c : Nat) (h : s.jrn.queue.length ≤ 64) :
    (qlFrame s c).jrn.queue.length ≤ 64 := by
  simp +contextual (maxDischargeDepth := 30) [qlFrame, h, cite @modChan_keeps, cite @publishQl_keeps]
@[simp] theorem reasonChanged_jq (s : State) (d c old new : Nat) (h : s.jrn.queue.length ≤ 64) :
    (reasonChanged s d c old new).jrn.queue.length ≤ 64 := by
  simp +contextual (maxDischargeDepth := 30) [reasonChanged, h, cite @chanEvt_keeps, cite @addCnt_keeps, cite @partEvt_keeps]
@[simp] theorem putPair_jq (s : State) (d c : Nat) (v : PairU) (h : s.jrn.queue.length ≤ 64) :
    (putPair s d c v).jrn.queue.length ≤ 64 := by
  simp +contextual (maxDischargeDepth := 30) [putPair, h, cite @modPair_keeps]
@[simp] theorem pairStage_jq (s : State) (d c : Nat) (h : s.jrn.queue.length ≤ 64) :
    (pairStage s d c).jrn.queue.length ≤ 64 := by
  simp +contextual (maxDischargeDepth := 30) [pairStage, h, cite @modPair_keeps]
@[simp] theorem switchTo_jq (s : State) (d best : Nat) (h : s.jrn.queue.length ≤ 64) :
    (switchTo s d best).jrn.queue.length ≤ 64 := by
  simp +contextual (maxDischargeDepth := 30) [switchTo, h, cite @setF_keeps, cite @modDom_keeps, cite @slewClear_keeps, cite @addCnt_keeps, cite @partEvt_keeps]
@[simp] theorem selectDom_jq (s : State) (d : Nat) (h : s.jrn.queue.length ≤ 64) :
    (selectDom s d).jrn.queue.length ≤ 64 := by
  simp +contextual (maxDischargeDepth := 30) [selectDom, h, cite @setF_keeps]
@[simp] theorem stage3_jq (s : State) (h : s.jrn.queue.length ≤ 64) :
    (stage3 s).jrn.queue.length ≤ 64 := by
  simp +contextual (maxDischargeDepth := 30) [stage3, h, cite @publishTests_keeps, cite @qualRows_keeps]
@[simp] theorem domChanged_jq (s : State) (d old new left : Nat) (h : s.jrn.queue.length ≤ 64) :
    (domChanged s d old new left).jrn.queue.length ≤ 64 := by
  simp +contextual (maxDischargeDepth := 30) [domChanged, h, cite @addCnt_keeps, cite @evt_keeps, cite @set1_keeps]
@[simp] theorem setDomState_jq (s : State) (d new left : Nat) (h : s.jrn.queue.length ≤ 64) :
    (setDomState s d new left).jrn.queue.length ≤ 64 := by
  simp +contextual (maxDischargeDepth := 30) [setDomState, h]
@[simp] theorem enterAcquiring_jq (s : State) (d : Nat) (h : s.jrn.queue.length ≤ 64) :
    (enterAcquiring s d).jrn.queue.length ≤ 64 := by
  simp +contextual (maxDischargeDepth := 30) [enterAcquiring, h, cite @applyCfg_keeps, cite @set1_keeps, cite @modDom_keeps]
@[simp] theorem enterHoldover_jq (s : State) (d : Nat) (h : s.jrn.queue.length ≤ 64) :
    (enterHoldover s d).jrn.queue.length ≤ 64 := by
  simp +contextual (maxDischargeDepth := 30) [enterHoldover, h, cite @applyCfg_keeps, cite @set1_keeps, cite @modDom_keeps, cite @slewClear_keeps, cite @publishDusk_keeps]
@[simp] theorem enterLost_jq (s : State) (d : Nat) (h : s.jrn.queue.length ≤ 64) :
    (enterLost s d).jrn.queue.length ≤ 64 := by
  simp +contextual (maxDischargeDepth := 30) [enterLost, h, cite @set1_keeps]
@[simp] theorem transition_jq (s : State) (d : Nat) (h : s.jrn.queue.length ≤ 64) :
    (transition s d).1.jrn.queue.length ≤ 64 := by
  unfold transition; dsimp only; (repeat' split) <;> simp +contextual (maxDischargeDepth := 30) [h]
@[simp] theorem enterLocked_jq (s : State) (d : Nat) (h : s.jrn.queue.length ≤ 64) :
    (enterLocked s d).jrn.queue.length ≤ 64 := by
  simp +contextual (maxDischargeDepth := 30) [enterLocked, h]
@[simp] theorem slewRecord_jq (s : State) (d src : Nat) (delta : Rat) (h : s.jrn.queue.length ≤ 64) :
    (slewRecord s d src delta).jrn.queue.length ≤ 64 := by
  simp +contextual (maxDischargeDepth := 30) [slewRecord, h, cite @set1_keeps]
@[simp] theorem firstError_jq (s : State) (d : Nat) (e : Rat) (h : s.jrn.queue.length ≤ 64) :
    (firstError s d e).jrn.queue.length ≤ 64 := by
  simp +contextual (maxDischargeDepth := 30) [firstError, h, cite @modDom_keeps, cite @setF_keeps, cite @slewOver_keeps]
@[simp] theorem refUpdate_jq (s : State) (d : Nat) (h : s.jrn.queue.length ≤ 64) :
    (refUpdate s d).jrn.queue.length ≤ 64 := by
  simp +contextual (maxDischargeDepth := 30) [refUpdate, h, cite @modDom_keeps, cite @loopUpdate_keeps, cite @setF_keeps, cite @slewOver_keeps]
@[simp] theorem lockBroken_jq (s : State) (d : Nat) (updated : Bool) (h : s.jrn.queue.length ≤ 64) :
    (lockBroken s d updated).jrn.queue.length ≤ 64 := by
  simp +contextual (maxDischargeDepth := 30) [lockBroken, h, cite @takeB_keeps, cite @modDom_keeps]
@[simp] theorem lockMove_jq (s : State) (d : Nat) (updated : Bool) (h : s.jrn.queue.length ≤ 64) :
    (lockMove s d updated).jrn.queue.length ≤ 64 := by
  simp +contextual (maxDischargeDepth := 30) [lockMove, h]
@[simp] theorem domMove_jq (s : State) (d : Nat) (h : s.jrn.queue.length ≤ 64) :
    (domMove s d).1.jrn.queue.length ≤ 64 := by
  unfold domMove; (repeat' split) <;> simp +contextual (maxDischargeDepth := 30) [h]
@[simp] theorem domUpdate_jq (s : State) (d : Nat) (h : s.jrn.queue.length ≤ 64) :
    (domUpdate s d).jrn.queue.length ≤ 64 := by
  simp +contextual (maxDischargeDepth := 30) [domUpdate, h, cite @coastFrame_keeps, cite @synUpdate_keeps]
@[simp] theorem domFrame_jq (s : State) (d : Nat) (h : s.jrn.queue.length ≤ 64) :
    (domFrame s d).jrn.queue.length ≤ 64 := by
  simp +contextual (maxDischargeDepth := 30) [domFrame, h, cite @bridgeFrame_keeps, cite @fbLost_keeps, cite @set1_keeps, cite @takeB_keeps, cite @publishGains_keeps, cite @lockCount_keeps, cite @slewFrame_keeps, cite @modDom_keeps, cite @duskFrame_keeps, cite @historyFrame_keeps, cite @setF_keeps]
@[simp] theorem stage4_jq (s : State) (h : s.jrn.queue.length ≤ 64) :
    (stage4 s).jrn.queue.length ≤ 64 := by
  simp +contextual (maxDischargeDepth := 30) [stage4, h]
@[simp] theorem journalApll_jq (s : State) (d code : Nat) (h : s.jrn.queue.length ≤ 64) :
    (journalApll s d code).jrn.queue.length ≤ 64 := by
  simp +contextual (maxDischargeDepth := 30) [journalApll, h]
@[simp] theorem lockLost_jq (s : State) (d : Nat) (h : s.jrn.queue.length ≤ 64) :
    (lockLost s d).jrn.queue.length ≤ 64 := by
  simp +contextual (maxDischargeDepth := 30) [lockLost, h, cite @addCnt_keeps, cite @evt_keeps, cite @set1_keeps]
@[simp] theorem relockApll_jq (s : State) (d : Nat) (h : s.jrn.queue.length ≤ 64) :
    (relockApll s d).jrn.queue.length ≤ 64 := by
  simp +contextual (maxDischargeDepth := 30) [relockApll, h, cite @fbRestart_keeps, cite @set1_keeps, cite @evt_keeps, cite @modApll_keeps]
@[simp] theorem refLostAll_jq (s : State) (h : s.jrn.queue.length ≤ 64) :
    (refLostAll s).jrn.queue.length ≤ 64 := by
  simp +contextual (maxDischargeDepth := 30) [refLostAll, h, cite @evt_keeps, cite @set1_keeps]
@[simp] theorem refBack_jq (s : State) (h : s.jrn.queue.length ≤ 64) :
    (refBack s).jrn.queue.length ≤ 64 := by
  simp +contextual (maxDischargeDepth := 30) [refBack, h, cite @set1_keeps]
@[simp] theorem refuseReq_jq (s : State) (d cause src : Nat) (delta : Rat) (h : s.jrn.queue.length ≤ 64) :
    (refuseReq s d cause src delta).jrn.queue.length ≤ 64 := by
  simp +contextual (maxDischargeDepth := 30) [refuseReq, h, cite @evt_keeps, cite @set1_keeps]
@[simp] theorem timeStep_jq (s : State) (d src : Nat) (delta : Rat) (counted : Bool) (h : s.jrn.queue.length ≤ 64) :
    (timeStep s d src delta counted).jrn.queue.length ≤ 64 := by
  simp +contextual (maxDischargeDepth := 30) [timeStep, h, cite @modTime_keeps, cite @set1_keeps, cite @addCnt_keeps, cite @evt_keeps, cite @modDom_keeps, cite @jumpTrigs_keeps]
@[simp] theorem timeSlew_jq (s : State) (d src : Nat) (delta : Rat) (h : s.jrn.queue.length ≤ 64) :
    (timeSlew s d src delta).jrn.queue.length ≤ 64 := by
  simp +contextual (maxDischargeDepth := 30) [timeSlew, h, cite @publishSlew_keeps, cite @modTime_keeps, cite @modDom_keeps, cite @setF_keeps]
@[simp] theorem handleReq_jq (s : State) (d src : Nat) (delta : Rat) (h : s.jrn.queue.length ≤ 64) :
    (handleReq s d src delta).jrn.queue.length ≤ 64 := by
  unfold handleReq; (repeat' split) <;> simp +contextual (maxDischargeDepth := 30) [h]
@[simp] theorem resolveReqs_jq (s : State) (d : Nat) (h : s.jrn.queue.length ≤ 64) :
    (resolveReqs s d).jrn.queue.length ≤ 64 := by
  unfold resolveReqs; dsimp only; (repeat' split) <;> simp +contextual (maxDischargeDepth := 30) [h, cite @modTime_keeps]
@[simp] theorem timeMark_jq (s : State) (d : Nat) (h : s.jrn.queue.length ≤ 64) :
    (timeMark s d).jrn.queue.length ≤ 64 := by
  unfold timeMark; dsimp only; (repeat' split) <;> simp +contextual (maxDischargeDepth := 30) [h, cite @modTime_keeps]
@[simp] theorem timeBoundary_jq (s : State) (d : Nat) (h : s.jrn.queue.length ≤ 64) :
    (timeBoundary s d).jrn.queue.length ≤ 64 := by
  unfold timeBoundary; dsimp only; (repeat' split) <;> simp +contextual (maxDischargeDepth := 30) [h, cite @publishTick_keeps, cite @epochRequest_keeps, cite @modTime_keeps, cite @putReq_keeps, cite @modDom_keeps, cite @lateTrigs_keeps]
@[simp] theorem setParent_jq (s : State) (n p id : Nat) (h : s.jrn.queue.length ≤ 64) :
    (setParent s n p id).jrn.queue.length ≤ 64 := by
  simp +contextual (maxDischargeDepth := 30) [setParent, h, cite @ptpEvt_keeps, cite @setF_keeps]
@[simp] theorem blockClear_jq (s : State) (n p : Nat) (h : s.jrn.queue.length ≤ 64) :
    (blockClear s n p).jrn.queue.length ≤ 64 := by
  simp +contextual (maxDischargeDepth := 30) [blockClear, h, cite @setPtpPort_keeps, cite @setF_keeps]
@[simp] theorem instClear_jq (s : State) (p : Nat) (h : s.jrn.queue.length ≤ 64) :
    (instClear s p).jrn.queue.length ≤ 64 := by
  simp +contextual (maxDischargeDepth := 30) [instClear, h, cite @modPtp_keeps]
@[simp] theorem instRestart_jq (s : State) (p : Nat) (h : s.jrn.queue.length ≤ 64) :
    (instRestart s p).jrn.queue.length ≤ 64 := by
  simp +contextual (maxDischargeDepth := 30) [instRestart, h, cite @modPkt_keeps, cite @dropCalls_keeps, cite @instOpen_keeps]
@[simp] theorem instReset_jq (s : State) (p : Nat) (h : s.jrn.queue.length ≤ 64) :
    (instReset s p).jrn.queue.length ≤ 64 := by
  simp +contextual (maxDischargeDepth := 30) [instReset, h, cite @modPtp_keeps]
@[simp] theorem instClose_jq (s : State) (p cause : Nat) (h : s.jrn.queue.length ≤ 64) :
    (instClose s p cause).jrn.queue.length ≤ 64 := by
  simp +contextual (maxDischargeDepth := 30) [instClose, h, cite @pktFail_keeps, cite @modPtp_keeps, cite @setF_keeps, cite @ptpEvt_keeps, cite @addCnt_keeps]
@[simp] theorem strange_jq (s : State) (f : Fld) (n p : Nat) (h : s.jrn.queue.length ≤ 64) :
    (strange s f n p).jrn.queue.length ≤ 64 := by
  simp +contextual (maxDischargeDepth := 30) [strange, h, cite @addCnt_keeps, cite @modPtp_keeps]
@[simp] theorem pktRefused_jq (s : State) (p : Nat) (h : s.jrn.queue.length ≤ 64) :
    (pktRefused s p).jrn.queue.length ≤ 64 := by
  simp +contextual (maxDischargeDepth := 30) [pktRefused, h, cite @modPtp_keeps]
@[simp] theorem callRefuse_jq (s : State) (c : GateCall) (r : Nat) (h : s.jrn.queue.length ≤ 64) :
    (callRefuse s c r).jrn.queue.length ≤ 64 := by
  unfold callRefuse; dsimp only; (repeat' split) <;> simp +contextual (maxDischargeDepth := 30) [h, cite @gateRefuse_keeps]
@[simp] theorem gateCall_jq (s : State) (cyc : Nat) (c : GateCall) (h : s.jrn.queue.length ≤ 64) :
    (gateCall s cyc c).jrn.queue.length ≤ 64 := by
  unfold gateCall; dsimp only; (repeat' split) <;> simp +contextual (maxDischargeDepth := 30) [h, cite @gateRes_keeps]
@[simp] theorem qlApply_jq (s : State) (c src ssm : Nat) (ecode : Option Nat) (first : Bool) (h : s.jrn.queue.length ≤ 64) :
    (qlApply s c src ssm ecode first).jrn.queue.length ≤ 64 := by
  simp +contextual (maxDischargeDepth := 30) [qlApply, h, cite @addCnt_keeps, cite @setF_keeps]
@[simp] theorem pageApply_jq (s : State) (addr value : Nat) (h : s.jrn.queue.length ≤ 64) :
    (pageApply s addr value).jrn.queue.length ≤ 64 := by
  simp +contextual (maxDischargeDepth := 30) [pageApply, h, cite @setF_keeps]
@[simp] theorem gateAct_jq (s : State) (c : GateCall) (h : s.jrn.queue.length ≤ 64) :
    (gateAct s c).jrn.queue.length ≤ 64 := by
  unfold gateAct; (repeat' split) <;> simp +contextual (maxDischargeDepth := 30) [h, cite @pktApply_keeps, cite @putReq_keeps, cite @utcApply_keeps]
@[simp] theorem gateStep_jq (s : State) (h : s.jrn.queue.length ≤ 64) :
    (gateStep s).jrn.queue.length ≤ 64 := by
  simp +contextual (maxDischargeDepth := 30) [gateStep, h]
@[simp] theorem gateJournal_jq (s : State) (code part data : Nat) (h : s.jrn.queue.length ≤ 64) :
    (gateJournal s code part data).jrn.queue.length ≤ 64 := by
  simp +contextual (maxDischargeDepth := 30) [gateJournal, h, cite @journal_keeps, cite @gateRes_keeps, cite @gateRefuse_keeps]
@[simp] theorem ptpHeader_jq (s : State) (n : Nat) (b : List Nat) (o : Nat) (h : s.jrn.queue.length ≤ 64) :
    (ptpHeader s n b o).jrn.queue.length ≤ 64 := by
  unfold ptpHeader; dsimp only; (repeat' split) <;> simp +contextual (maxDischargeDepth := 30) [h, cite @addCnt_keeps]
@[simp] theorem leafTakes_jq (s : State) (n : Nat) (b : List Nat) (h : s.jrn.queue.length ≤ 64) :
    (leafTakes s n b).jrn.queue.length ≤ 64 := by
  unfold leafTakes; (repeat' split) <;> simp +contextual (maxDischargeDepth := 30) [h, cite @addCnt_keeps]
@[simp] theorem ethReceive_jq (s : State) (n : Nat) (f : EthFrame) (h : s.jrn.queue.length ≤ 64) :
    (ethReceive s n f).jrn.queue.length ≤ 64 := by
  unfold ethReceive; dsimp only; (repeat' split) <;> simp +contextual (maxDischargeDepth := 30) [h, cite @addCnt_keeps, cite @stampRx_keeps, cite @floodDrop_keeps, cite @modEth_keeps, cite @fifoPut_keeps]
@[simp] theorem linkDown_jq (s : State) (n cause v : Nat) (h : s.jrn.queue.length ≤ 64) :
    (linkDown s n cause v).jrn.queue.length ≤ 64 := by
  simp +contextual (maxDischargeDepth := 30) [linkDown, h, cite @portStates_keeps, cite @modChan_keeps, cite @addCnt_keeps, cite @evt_keeps, cite @set1_keeps]
@[simp] theorem pcsLocks_jq (s : State) (n : Nat) (speedOk : Bool) (h : s.jrn.queue.length ≤ 64) :
    (pcsLocks s n speedOk).jrn.queue.length ≤ 64 := by
  simp +contextual (maxDischargeDepth := 30) [pcsLocks, h, cite @set1_keeps, cite @modEth_keeps, cite @modChan_keeps, cite @dropBaseline_keeps, cite @portStates_keeps, cite @evt_keeps]
@[simp] theorem portEnableWrite_jq (s : State) (n : Nat) (en : Bool) (h : s.jrn.queue.length ≤ 64) :
    (portEnableWrite s n en).jrn.queue.length ≤ 64 := by
  simp +contextual (maxDischargeDepth := 30) [portEnableWrite, h, cite @portStates_keeps, cite @set1_keeps]
@[simp] theorem applyAct_jq (s : State) (d : Nat) (h : s.jrn.queue.length ≤ 64) :
    (applyAct s d).jrn.queue.length ≤ 64 := by
  simp +contextual (maxDischargeDepth := 30) [applyAct, h, cite @applyRetune_keeps, cite @txclkJudge_keeps]
@[simp] theorem portModeChange_jq (s : State) (n : Nat) (h : s.jrn.queue.length ≤ 64) :
    (portModeChange s n).jrn.queue.length ≤ 64 := by
  simp +contextual (maxDischargeDepth := 30) [portModeChange, h, cite @publishGrants_keeps, cite @modPtp_keeps]
@[simp] theorem deliverQl_jq (s : State) (cyc src node ssm : Nat) (ecode : Option Nat) (h : s.jrn.queue.length ≤ 64) :
    (deliverQl s cyc src node ssm ecode).jrn.queue.length ≤ 64 := by
  simp +contextual (maxDischargeDepth := 30) [deliverQl, h]
@[simp] theorem esmcReceive_jq (s : State) (n : Nat) (p : EsmcPdu) (cyc : Nat) (h : s.jrn.queue.length ≤ 64) :
    (esmcReceive s n p cyc).jrn.queue.length ≤ 64 := by
  simp +contextual (maxDischargeDepth := 30) [esmcReceive, h, cite @addCnt_keeps, cite @modEth_keeps]
@[simp] theorem acceptMsg_jq (s : State) (p : Nat) (m : PtpMsg) (named : Bool) (h : s.jrn.queue.length ≤ 64) :
    (acceptMsg s p m named).1.jrn.queue.length ≤ 64 := by
  unfold acceptMsg; dsimp only; (repeat' split) <;> simp +contextual (maxDischargeDepth := 30) [h, cite @addCnt_keeps]
@[simp] theorem estimate_jq (s : State) (p n cyc : Nat) (raw : Int) (origin : Rat) (corr : Int) (r : Rat) (h : s.jrn.queue.length ≤ 64) :
    (estimate s p n cyc raw origin corr r).jrn.queue.length ≤ 64 := by
  simp +contextual (maxDischargeDepth := 30) [estimate, h, cite @setF_keeps, cite @setPtpPort_keeps, cite @modPtp_keeps, cite @addCnt_keeps]
@[simp] theorem syncTaken_jq (s : State) (p : Nat) (m : PtpMsg) (origin r : Rat) (cyc : Nat) (h : s.jrn.queue.length ≤ 64) :
    (syncTaken s p m origin r cyc).jrn.queue.length ≤ 64 := by
  simp +contextual (maxDischargeDepth := 30) [syncTaken, h, cite @modPtp_keeps]
@[simp] theorem syncReceive_jq (s : State) (p : Nat) (m : PtpMsg) (origin r : Rat) (cyc : Nat) (h : s.jrn.queue.length ≤ 64) :
    (syncReceive s p m origin r cyc).jrn.queue.length ≤ 64 := by
  simp +contextual (maxDischargeDepth := 30) [syncReceive, h, cite @fifoTake_keeps, cite @addCnt_keeps]
@[simp] theorem followUp_jq (s : State) (p : Nat) (m : PtpMsg) (origin r : Rat) (cyc : Nat) (h : s.jrn.queue.length ≤ 64) :
    (followUp s p m origin r cyc).jrn.queue.length ≤ 64 := by
  unfold followUp; dsimp only; (repeat' split) <;> simp +contextual (maxDischargeDepth := 30) [h, cite @modPtp_keeps]
@[simp] theorem fromParent_jq (s : State) (n p : Nat) (b : AnnounceBody) (cyc : Nat) (h : s.jrn.queue.length ≤ 64) :
    (fromParent s n p b cyc).jrn.queue.length ≤ 64 := by
  simp +contextual (maxDischargeDepth := 30) [fromParent, h, cite @modPtp_keeps, cite @setF_keeps]
@[simp] theorem portParentLost_jq (s : State) (p n v : Nat) (h : s.jrn.queue.length ≤ 64) :
    (portParentLost s p n v).jrn.queue.length ≤ 64 := by
  simp +contextual (maxDischargeDepth := 30) [portParentLost, h, cite @setF_keeps, cite @setPtpPort_keeps, cite @modPtp_keeps]
@[simp] theorem bmcaMove_jq (s : State) (p n v : Nat) (h : s.jrn.queue.length ≤ 64) :
    (bmcaMove s p n v).jrn.queue.length ≤ 64 := by
  simp +contextual (maxDischargeDepth := 30) [bmcaMove, h, cite @setPtpPort_keeps]
@[simp] theorem bmcaMaster_jq (s : State) (p n wait : Nat) (h : s.jrn.queue.length ≤ 64) :
    (bmcaMaster s p n wait).jrn.queue.length ≤ 64 := by
  simp +contextual (maxDischargeDepth := 30) [bmcaMaster, h, cite @modPtp_keeps]
@[simp] theorem announceReceive_jq (s : State) (p : Nat) (m : PtpMsg) (b : AnnounceBody) (cyc : Nat) (h : s.jrn.queue.length ≤ 64) :
    (announceReceive s p m b cyc).jrn.queue.length ≤ 64 := by
  unfold announceReceive; dsimp only; (repeat' split) <;> simp +contextual (maxDischargeDepth := 30) [h, cite @setPtpPort_keeps]
@[simp] theorem parentLost_jq (s : State) (p : Nat) (h : s.jrn.queue.length ≤ 64) :
    (parentLost s p).jrn.queue.length ≤ 64 := by
  simp +contextual (maxDischargeDepth := 30) [parentLost, h]
@[simp] theorem delayReq_jq (s : State) (p : Nat) (m : PtpMsg) (h : s.jrn.queue.length ≤ 64) :
    (delayReq s p m).jrn.queue.length ≤ 64 := by
  simp +contextual (maxDischargeDepth := 30) [delayReq, h, cite @fifoTake_keeps, cite @modPtp_keeps, cite @addCnt_keeps]
@[simp] theorem pdelayReq_jq (s : State) (p : Nat) (m : PtpMsg) (depF depO : Nat) (h : s.jrn.queue.length ≤ 64) :
    (pdelayReq s p m depF depO).jrn.queue.length ≤ 64 := by
  simp +contextual (maxDischargeDepth := 30) [pdelayReq, h, cite @fifoTake_keeps, cite @modPtp_keeps, cite @addCnt_keeps, cite @stampTx_keeps]
@[simp] theorem delayResp_jq (s : State) (p : Nat) (m : PtpMsg) (t1 t4 : Rat) (h : s.jrn.queue.length ≤ 64) :
    (delayResp s p m t1 t4).jrn.queue.length ≤ 64 := by
  simp +contextual (maxDischargeDepth := 30) [delayResp, h, cite @fifoTake_keeps, cite @setF_keeps]
@[simp] theorem roleChange_jq (s : State) (h : s.jrn.queue.length ≤ 64) :
    (roleChange s).jrn.queue.length ≤ 64 := by
  unfold roleChange; dsimp only; (repeat' split) <;> simp +contextual (maxDischargeDepth := 30) [h, cite @sendAlert_keeps, cite @outsRefresh_keeps, cite @evt_keeps, cite @publishPeers_keeps, cite @set1_keeps, cite @modShelf_keeps]
@[simp] theorem nodeClash_jq (s : State) (ident : Nat) (h : s.jrn.queue.length ≤ 64) :
    (nodeClash s ident).jrn.queue.length ≤ 64 := by
  simp +contextual (maxDischargeDepth := 30) [nodeClash, h, cite @modShelf_keeps, cite @set1_keeps, cite @evt_keeps]
@[simp] theorem shelfRx_jq (s : State) (f : CanFrame) (cyc : Nat) (h : s.jrn.queue.length ≤ 64) :
    (shelfRx s f cyc).jrn.queue.length ≤ 64 := by
  unfold shelfRx; dsimp only; (repeat' split) <;> simp +contextual (maxDischargeDepth := 30) [h, cite @addCnt_keeps, cite @evtIf_keeps, cite @electRx_keeps, cite @modShelf_keeps, cite @todRx_keeps, cite @regReqRx_keeps]
@[simp] theorem busOffEnter_jq (s : State) (tec : Nat) (h : s.jrn.queue.length ≤ 64) :
    (busOffEnter s tec).jrn.queue.length ≤ 64 := by
  simp +contextual (maxDischargeDepth := 30) [busOffEnter, h, cite @addCnt_keeps, cite @evt_keeps, cite @modShelf_keeps, cite @set1_keeps]
@[simp] theorem cellarEntry_jq (s : State) (code block copy cause : Nat) (v : Supply) (h : s.jrn.queue.length ≤ 64) :
    (cellarEntry s code block copy cause v).jrn.queue.length ≤ 64 := by
  simp +contextual (maxDischargeDepth := 30) [cellarEntry, h]
@[simp] theorem lifetimeSat_jq (s : State) (block copy : Nat) (h : s.jrn.queue.length ≤ 64) :
    (lifetimeSat s block copy).jrn.queue.length ≤ 64 := by
  simp +contextual (maxDischargeDepth := 30) [lifetimeSat, h, cite @evt_keeps, cite @set1_keeps]
@[simp] theorem ltAdd_jq (s : State) (i : Nat) (h : s.jrn.queue.length ≤ 64) :
    (ltAdd s i).jrn.queue.length ≤ 64 := by
  simp +contextual (maxDischargeDepth := 30) [ltAdd, h, cite @putSramLE_keeps]
@[simp] theorem programmed_jq (s : State) (r : StoreRun) (h : s.jrn.queue.length ≤ 64) :
    (programmed s r).jrn.queue.length ≤ 64 := by
  simp +contextual (maxDischargeDepth := 30) [programmed, h, cite @set1_keeps, cite @modCellar_keeps, cite @evt_keeps]
@[simp] theorem pfDone_jq (s : State) (c : Nat) (v : Supply) (h : s.jrn.queue.length ≤ 64) :
    (pfDone s c v).jrn.queue.length ≤ 64 := by
  simp +contextual (maxDischargeDepth := 30) [pfDone, h, cite @evt_keeps, cite @modCellar_keeps, cite @set1_keeps]
@[simp] theorem storeEnds_jq (s : State) (r : StoreRun) (v : Supply) (h : s.jrn.queue.length ≤ 64) :
    (storeEnds s r v).jrn.queue.length ≤ 64 := by
  simp +contextual (maxDischargeDepth := 30) [storeEnds, h, cite @setLast_keeps, cite @addCnt_keeps, cite @cmdBlockDone_keeps, cite @orphanDone_keeps, cite @unpark_keeps]
@[simp] theorem storeAbandon_jq (s : State) (j : StoreJob) (v : Supply) (h : s.jrn.queue.length ≤ 64) :
    (storeAbandon s j v).jrn.queue.length ≤ 64 := by
  simp +contextual (maxDischargeDepth := 30) [storeAbandon, h, cite @modCellar_keeps, cite @evt_keeps, cite @set1_keeps, cite @setLast_keeps, cite @addCnt_keeps, cite @unpark_keeps, cite @cmdEnd_keeps, cite @dropOwner_keeps]
@[simp] theorem recallBlock_jq (s : State) (b : Nat) (h : s.jrn.queue.length ≤ 64) :
    (recallBlock s b).jrn.queue.length ≤ 64 := by
  unfold recallBlock; dsimp only; (repeat' split) <;> simp +contextual (maxDischargeDepth := 30) [h, cite @rootFix_keeps, cite @addCnt_keeps, cite @evt_keeps, cite @partEvt_keeps, cite @set1_keeps, cite @cellarEntry_keeps, cite @ltAdd_keeps]
@[simp] theorem recallSram_jq (s : State) (h : s.jrn.queue.length ≤ 64) :
    (recallSram s).jrn.queue.length ≤ 64 := by
  unfold recallSram
  generalize (List.range 256).filter _ = l
  exact foldl_jq _ recallBlock_jq _ _ (recallBlock_jq _ _ h)
@[simp] theorem cellarRecall_jq (s : State) (h : s.jrn.queue.length ≤ 64) :
    (cellarRecall s).jrn.queue.length ≤ 64 := by
  simp +contextual (maxDischargeDepth := 30) [cellarRecall, h, cite @putSramLE_keeps, cite @evt_keeps, cite @set1_keeps, cite @modCellar_keeps]
@[simp] theorem scrubStep_jq (s : State) (r : ScrubRead) (v : Supply) (h : s.jrn.queue.length ≤ 64) :
    (scrubStep s r v).jrn.queue.length ≤ 64 := by
  unfold scrubStep; dsimp only; (repeat' split) <;> simp +contextual (maxDischargeDepth := 30) [h, cite @set1_keeps, cite @evt_keeps, cite @rootFix_keeps, cite @addCnt_keeps, cite @weaken_keeps, cite @rootStore_keeps]
@[simp] theorem overwriteEvt_jq (s : State) (w : Nat) (h : s.jrn.queue.length ≤ 64) :
    (overwriteEvt s w).jrn.queue.length ≤ 64 := by
  simp +contextual (maxDischargeDepth := 30) [overwriteEvt, h, cite @evt_keeps]
@[simp] theorem writeEntry_jq (s : State) (e : JEntry) (h : s.jrn.queue.length ≤ 64) :
    (writeEntry s e).jrn.queue.length ≤ 64 := by
  simp +contextual (maxDischargeDepth := 30) [writeEntry, h, cite @rootStore_keeps, cite @set1_keeps, cite @codeEvts_keeps, cite @addCnt_keeps, cite @unreadCross_keeps, cite @putSrams_keeps]
@[simp] theorem holdLost_jq (s : State) (h : s.jrn.queue.length ≤ 64) :
    (holdLost s).jrn.queue.length ≤ 64 := by
  unfold holdLost; dsimp only; (repeat' split) <;> simp +contextual (maxDischargeDepth := 30) [h]
@[simp] theorem pumpHeld_jq (x1 : Nat) (x2 : State) (h : x2.jrn.queue.length ≤ 64) :
    (pumpHeld x1 x2).jrn.queue.length ≤ 64 := by
  induction x1 generalizing x2 with
  | zero => exact h
  | succ n ih =>
    unfold pumpHeld
    split
    · exact h
    · split
      · apply ih
        simp; omega
      · exact h
@[simp] theorem drainOne_jq (s : State) (h : s.jrn.queue.length ≤ 64) :
    (drainOne s).jrn.queue.length ≤ 64 := by
  unfold drainOne
  split
  · exact h
  · rename_i e r hq
    apply pumpHeld_jq
    apply writeEntry_jq
    rw [hq] at h
    exact Nat.le_of_succ_le h
@[simp] theorem drainN_jq (x1 : Nat) (x2 : State) (h : x2.jrn.queue.length ≤ 64) :
    (drainN x1 x2).jrn.queue.length ≤ 64 := by
  induction x1 generalizing x2 with
  | zero => exact h
  | succ n ih => exact ih _ (drainOne_jq _ h)
@[simp] theorem drainAll_jq (s : State) (h : s.jrn.queue.length ≤ 64) :
    (drainAll s).jrn.queue.length ≤ 64 := by
  simp +contextual (maxDischargeDepth := 30) [drainAll, h]
@[simp] theorem frameLost_jq (s : State) (h : s.jrn.queue.length ≤ 64) :
    (frameLost s).jrn.queue.length ≤ 64 := by
  simp +contextual (maxDischargeDepth := 30) [frameLost, h]
@[simp] theorem suppressionEnd_jq (s : State) (h : s.jrn.queue.length ≤ 64) :
    (suppressionEnd s).jrn.queue.length ≤ 64 := by
  simp +contextual (maxDischargeDepth := 30) [suppressionEnd, h]
@[simp] theorem frnRestart_jq (s : State) (h : s.jrn.queue.length ≤ 64) :
    (frnRestart s).jrn.queue.length ≤ 64 := by
  simp +contextual (maxDischargeDepth := 30) [frnRestart, h]
@[simp] theorem rdSeqWrite_jq (s : State) (v : Nat) (h : s.jrn.queue.length ≤ 64) :
    (rdSeqWrite s v).jrn.queue.length ≤ 64 := by
  simp +contextual (maxDischargeDepth := 30) [rdSeqWrite, h, cite @set1_keeps, cite @unreadCross_keeps]
@[simp] theorem entryCond_jq (s : State) (c verdict gen : Nat) (h : s.jrn.queue.length ≤ 64) :
    (entryCond s c verdict gen).jrn.queue.length ≤ 64 := by
  simp +contextual (maxDischargeDepth := 30) [entryCond, h, cite @chanEvt_keeps]
@[simp] theorem refreshEntry_jq (s : State) (c : Nat) (h : s.jrn.queue.length ≤ 64) :
    (refreshEntry s c).jrn.queue.length ≤ 64 := by
  simp +contextual (maxDischargeDepth := 30) [refreshEntry, h, cite @modChan_keeps, cite @set1_keeps]
@[simp] theorem tableRefresh_jq (s : State) (h : s.jrn.queue.length ≤ 64) :
    (tableRefresh s).jrn.queue.length ≤ 64 := by
  simp +contextual (maxDischargeDepth := 30) [tableRefresh, h]
@[simp] theorem acceptEntry_jq (s : State) (c : Nat) (h : s.jrn.queue.length ≤ 64) :
    (acceptEntry s c).jrn.queue.length ≤ 64 := by
  unfold acceptEntry; dsimp only; (repeat' split) <;> simp +contextual (maxDischargeDepth := 30) [h, cite @set1_keeps, cite @modChan_keeps]
@[simp] theorem tableAccept_jq (s : State) (h : s.jrn.queue.length ≤ 64) :
    (tableAccept s).jrn.queue.length ≤ 64 := by
  simp +contextual (maxDischargeDepth := 30) [tableAccept, h]
@[simp] theorem hostHalfReset_jq (s : State) (c : Nat) (h : s.jrn.queue.length ≤ 64) :
    (hostHalfReset s c).jrn.queue.length ≤ 64 := by
  simp +contextual (maxDischargeDepth := 30) [hostHalfReset, h, cite @set1_keeps, cite @modChan_keeps, cite @clearRange_keeps]
@[simp] theorem partReset_jq (s : State) (p cause : Nat) (h : s.jrn.queue.length ≤ 64) :
    (partReset s p cause).jrn.queue.length ≤ 64 := by
  simp +contextual (maxDischargeDepth := 30) [partReset, h, cite @recordReset_keeps, cite @resetPage_keeps, cite @synthReset_keeps, cite @resetFields_keeps, cite @set1_keeps, cite @cancelCmd_keeps, cite @resetHarvest_keeps, cite @resetRows_keeps, cite @publishGains_keeps, cite @utcPolicy_keeps, cite @timeStart_keeps, cite @startDom_keeps]
@[simp] theorem refuseProfile_jq (s : State) (code off : Nat) (h : s.jrn.queue.length ≤ 64) :
    (refuseProfile s code off).jrn.queue.length ≤ 64 := by
  simp +contextual (maxDischargeDepth := 30) [refuseProfile, h, cite @evt_keeps, cite @set1_keeps, cite @modRoot_keeps, cite @unmark_keeps, cite @reloadBlocks_keeps, cite @dropOwner_keeps]
@[simp] theorem beginCommit_jq (s : State) (h : s.jrn.queue.length ≤ 64) :
    (beginCommit s).jrn.queue.length ≤ 64 := by
  simp +contextual (maxDischargeDepth := 30) [beginCommit, h, cite @commitStores_keeps, cite @putSramLE_keeps, cite @modRoot_keeps, cite @set1_keeps]
@[simp] theorem endVerify_jq (s : State) (h : s.jrn.queue.length ≤ 64) :
    (endVerify s).jrn.queue.length ≤ 64 := by
  unfold endVerify; dsimp only; (repeat' split) <;> simp +contextual (maxDischargeDepth := 30) [h, cite @evt_keeps, cite @set1_keeps]
@[simp] theorem commitCmd_jq (s : State) (h : s.jrn.queue.length ≤ 64) :
    (commitCmd s).jrn.queue.length ≤ 64 := by
  unfold commitCmd; (repeat' split) <;> simp +contextual (maxDischargeDepth := 30) [h, cite @modRoot_keeps, cite @beginVerify_keeps]
@[simp] theorem abortCmd_jq (s : State) (h : s.jrn.queue.length ≤ 64) :
    (abortCmd s).jrn.queue.length ≤ 64 := by
  unfold abortCmd; (repeat' split) <;> simp +contextual (maxDischargeDepth := 30) [h, cite @set1_keeps, cite @modRoot_keeps]
@[simp] theorem stopCommit_jq (s : State) (code : Nat) (h : s.jrn.queue.length ≤ 64) :
    (stopCommit s code).jrn.queue.length ≤ 64 := by
  simp +contextual (maxDischargeDepth := 30) [stopCommit, h]
@[simp] theorem commitKey_jq (s : State) (pub : List Nat) (rot : Option (List Nat)) (h : s.jrn.queue.length ≤ 64) :
    (commitKey s pub rot).jrn.queue.length ≤ 64 := by
  simp +contextual (maxDischargeDepth := 30) [commitKey, h, cite @publishKey_keeps, cite @rootStore_keeps, cite @putSrams_keeps]
@[simp] theorem debugEnd_jq (s : State) (cause : Nat) (h : s.jrn.queue.length ≤ 64) :
    (debugEnd s cause).jrn.queue.length ≤ 64 := by
  simp +contextual (maxDischargeDepth := 30) [debugEnd, h, cite @evt_keeps, cite @set1_keeps, cite @modRoot_keeps]
@[simp] theorem debugAsk_jq (s : State) (h : s.jrn.queue.length ≤ 64) :
    (debugAsk s).jrn.queue.length ≤ 64 := by
  simp +contextual (maxDischargeDepth := 30) [debugAsk, h, cite @evt_keeps, cite @set1_keeps, cite @addCnt_keeps, cite @modRoot_keeps]
@[simp] theorem debugFrame_jq (s : State) (h : s.jrn.queue.length ≤ 64) :
    (debugFrame s).jrn.queue.length ≤ 64 := by
  simp +contextual (maxDischargeDepth := 30) [debugFrame, h]
@[simp] theorem requalify_jq (a : Policy) (s : State) (c : Nat) (h : s.jrn.queue.length ≤ 64) :
    (requalify a s c).jrn.queue.length ≤ 64 := by
  simp +contextual (maxDischargeDepth := 30) [requalify, h, cite @qlClear_keeps]
@[simp] theorem portCommit_jq (a : Policy) (s : State) (n : Nat) (h : s.jrn.queue.length ≤ 64) :
    (portCommit a s n).jrn.queue.length ≤ 64 := by
  simp +contextual (maxDischargeDepth := 30) [portCommit, h, cite @txclkJudge_keeps]
@[simp] theorem changePolicy_jq (s : State) (b : Policy) (h : s.jrn.queue.length ≤ 64) :
    (changePolicy s b).jrn.queue.length ≤ 64 := by
  simp +contextual (maxDischargeDepth := 30) [changePolicy, h, cite @resetRows_keeps, cite @set1_keeps, cite @moveOutput_keeps, cite @synthStart_keeps, cite @apllStop_keeps, cite @duskRecompute_keeps, cite @commitCfg_keeps, cite @todConnect_keeps, cite @fmtPending_keeps, cite @utcPolicy_keeps, cite @shelfCommit_keeps, cite @markFallback_keeps]
@[simp] theorem policyCommit_jq (s : State) (h : s.jrn.queue.length ≤ 64) :
    (policyCommit s).jrn.queue.length ≤ 64 := by
  simp +contextual (maxDischargeDepth := 30) [policyCommit, h, cite @rootStore_keeps, cite @unmark_keeps, cite @evt_keeps, cite @set1_keeps, cite @modRoot_keeps]
@[simp] theorem commitStep_jq (s : State) (h : s.jrn.queue.length ≤ 64) :
    (commitStep s).jrn.queue.length ≤ 64 := by
  simp +contextual (maxDischargeDepth := 30) [commitStep, h]
@[simp] theorem leafDown_jq (s : State) (h : s.jrn.queue.length ≤ 64) :
    (leafDown s).jrn.queue.length ≤ 64 := by
  simp +contextual (maxDischargeDepth := 30) [leafDown, h, cite @pktFail_keeps, cite @nmeaPause_keeps, cite @shelfStop_keeps]
@[simp] theorem leafRestart_jq (s : State) (cause : Nat) (h : s.jrn.queue.length ≤ 64) :
    (leafRestart s cause).jrn.queue.length ≤ 64 := by
  simp +contextual (maxDischargeDepth := 30) [leafRestart, h, cite @addCnt_keeps, cite @evt_keeps, cite @leafLast_keeps, cite @setLeaf_keeps]
@[simp] theorem leafFault_jq (s : State) (cause : Nat) (h : s.jrn.queue.length ≤ 64) :
    (leafFault s cause).jrn.queue.length ≤ 64 := by
  simp +contextual (maxDischargeDepth := 30) [leafFault, h, cite @evt_keeps, cite @leafLast_keeps, cite @modRoot_keeps, cite @setLeaf_keeps]
@[simp] theorem leafHost_jq (s : State) (h : s.jrn.queue.length ≤ 64) :
    (leafHost s).jrn.queue.length ≤ 64 := by
  simp +contextual (maxDischargeDepth := 30) [leafHost, h, cite @modRoot_keeps]
@[simp] theorem imageLoad_jq (s : State) (h : s.jrn.queue.length ≤ 64) :
    (imageLoad s).jrn.queue.length ≤ 64 := by
  simp +contextual (maxDischargeDepth := 30) [imageLoad, h, cite @setLeaf_keeps, cite @modRoot_keeps]
@[simp] theorem imageOver_jq (s : State) (h : s.jrn.queue.length ≤ 64) :
    (imageOver s).jrn.queue.length ≤ 64 := by
  simp +contextual (maxDischargeDepth := 30) [imageOver, h, cite @modRoot_keeps]
@[simp] theorem imageCancel_jq (s : State) (h : s.jrn.queue.length ≤ 64) :
    (imageCancel s).jrn.queue.length ≤ 64 := by
  simp +contextual (maxDischargeDepth := 30) [imageCancel, h, cite @reloadBlocks_keeps]
@[simp] theorem imageRefuse_jq (s : State) (code : Nat) (h : s.jrn.queue.length ≤ 64) :
    (imageRefuse s code).jrn.queue.length ≤ 64 := by
  simp +contextual (maxDischargeDepth := 30) [imageRefuse, h, cite @evt_keeps, cite @set1_keeps, cite @reloadBlocks_keeps, cite @dropOwner_keeps]
@[simp] theorem imageStored_jq (s : State) (h : s.jrn.queue.length ≤ 64) :
    (imageStored s).jrn.queue.length ≤ 64 := by
  simp +contextual (maxDischargeDepth := 30) [imageStored, h, cite @evt_keeps, cite @set1_keeps]
@[simp] theorem imageVerified_jq (s : State) (h : s.jrn.queue.length ≤ 64) :
    (imageVerified s).jrn.queue.length ≤ 64 := by
  unfold imageVerified; dsimp only; (repeat' split) <;> simp +contextual (maxDischargeDepth := 30) [h, cite @rootStore_keeps, cite @modRoot_keeps, cite @acceptEpoch_keeps]
@[simp] theorem imagePowerFail_jq (s : State) (h : s.jrn.queue.length ≤ 64) :
    (imagePowerFail s).jrn.queue.length ≤ 64 := by
  simp +contextual (maxDischargeDepth := 30) [imagePowerFail, h]
@[simp] theorem storeThen_jq (s : State) (r : StoreRun) (h : s.jrn.queue.length ≤ 64) :
    (storeThen s r).jrn.queue.length ≤ 64 := by
  simp +contextual (maxDischargeDepth := 30) [storeThen, h, cite @copyProfile_keeps, cite @scheduleCommit_keeps]
@[simp] theorem storeDone_jq (s : State) (v : Supply) (h : s.jrn.queue.length ≤ 64) :
    (storeDone s v).jrn.queue.length ≤ 64 := by
  unfold storeDone; (repeat' split) <;> simp +contextual (maxDischargeDepth := 30) [h, cite @engineStart_keeps]
@[simp] theorem storeGiveUp_jq (s : State) (v : Supply) (h : s.jrn.queue.length ≤ 64) :
    (storeGiveUp s v).jrn.queue.length ≤ 64 := by
  unfold storeGiveUp; dsimp only; (repeat' split) <;> simp +contextual (maxDischargeDepth := 30) [h, cite @engineStart_keeps]
@[simp] theorem powerOff_jq (s : State) (h : s.jrn.queue.length ≤ 64) :
    (powerOff s).jrn.queue.length ≤ 64 := by
  simp +contextual (maxDischargeDepth := 30) [powerOff, h, cite @modCellar_keeps, cite @tearCopy_keeps]
@[simp] theorem shutdown_jq (s : State) (h : s.jrn.queue.length ≤ 64) :
    (shutdown s).jrn.queue.length ≤ 64 := by
  simp +contextual (maxDischargeDepth := 30) [shutdown, h, cite @outputsShut_keeps, cite @set1_keeps, cite @modShelf_keeps, cite @modPower_keeps]
@[simp] theorem powerFail_jq (s : State) (cause vin holdup : Nat) (h : s.jrn.queue.length ≤ 64) :
    (powerFail s cause vin holdup).jrn.queue.length ≤ 64 := by
  simp +contextual (maxDischargeDepth := 30) [powerFail, h, cite @shelfPowerFail_keeps, cite @pfSequence_keeps, cite @addCnt_keeps, cite @evt_keeps, cite @set1_keeps, cite @recordFail_keeps]
@[simp] theorem pfRecover_jq (s : State) (vin ms : Nat) (h : s.jrn.queue.length ≤ 64) :
    (pfRecover s vin ms).jrn.queue.length ≤ 64 := by
  simp +contextual (maxDischargeDepth := 30) [pfRecover, h, cite @engineStart_keeps, cite @shelfRecover_keeps, cite @cellarResume_keeps, cite @addCnt_keeps, cite @evt_keeps, cite @charging_keeps, cite @seedAvg_keeps, cite @set1_keeps]
@[simp] theorem ovenFault_jq (s : State) (h : s.jrn.queue.length ≤ 64) :
    (ovenFault s).jrn.queue.length ≤ 64 := by
  simp +contextual (maxDischargeDepth := 30) [ovenFault, h, cite @evt_keeps, cite @set1_keeps, cite @degraded_keeps]
@[simp] theorem finishCommit_jq (s : State) (q : Policy) (h : s.jrn.queue.length ≤ 64) :
    (finishCommit s q).jrn.queue.length ≤ 64 := by
  simp +contextual (maxDischargeDepth := 30) [finishCommit, h, cite @takePolicy_keeps, cite @rootStore_keeps, cite @unmark_keeps, cite @putSramLE_keeps, cite @putSrams_keeps]
@[simp] theorem startPolicy_jq (s : State) (h : s.jrn.queue.length ≤ 64) :
    (startPolicy s).jrn.queue.length ≤ 64 := by
  unfold startPolicy; (repeat' split) <;> simp +contextual (maxDischargeDepth := 30) [h, cite @takePolicy_keeps]
@[simp] theorem bootUp_jq (s : State) (cause : Nat) (h : s.jrn.queue.length ≤ 64) :
    (bootUp s cause).jrn.queue.length ≤ 64 := by
  simp +contextual (maxDischargeDepth := 30) [bootUp, h, cite @startValues_keeps, cite @publishKey_keeps, cite @set1_keeps, cite @publishGains_keeps, cite @shelfReset_keeps, cite @tableReset_keeps]
@[simp] theorem coldState_jq (s : State) (i : StartIn) (h : s.jrn.queue.length ≤ 64) :
    (coldState s i).jrn.queue.length ≤ 64 := by
  exact Nat.zero_le _
@[simp] theorem firstEntry_jq (s : State) (h : s.jrn.queue.length ≤ 64) :
    (firstEntry s).jrn.queue.length ≤ 64 := by
  unfold firstEntry
  exact foldl_jq _ (fun t e ht => enqueue_jq t e ht) _ _ (frnRestart_jq _ (Nat.zero_le _))
@[simp] theorem powerOn_jq (s : State) (i : StartIn) (h : s.jrn.queue.length ≤ 64) :
    (powerOn s i).jrn.queue.length ≤ 64 := by
  simp +contextual (maxDischargeDepth := 30) [powerOn, h, cite @calDefault_keeps, cite @bboxRecall_keeps, cite @powerInit_keeps]
@[simp] theorem warmState_jq (s : State) (straps : Straps) (h : s.jrn.queue.length ≤ 64) :
    (warmState s straps).jrn.queue.length ≤ 64 := by
  unfold warmState
  generalize resetKept = l
  exact foldl_jq _ (fun t f ht => by simpa [cite @set1_keeps] using ht) l _ (Nat.zero_le _)
@[simp] theorem holdAllLost_jq (x1 : List (Nat × Nat)) (x2 : State) (h : x2.jrn.queue.length ≤ 64) :
    (holdAllLost x1 x2).jrn.queue.length ≤ 64 := by
  induction x1 generalizing x2 with
  | nil => exact h
  | cons b r ih => exact ih _ (holdLost_jq _ h)
@[simp] theorem resetRelease_jq (s : State) (straps : Straps) (h : s.jrn.queue.length ≤ 64) :
    (resetRelease s straps).jrn.queue.length ≤ 64 := by
  simp +contextual (maxDischargeDepth := 30) [resetRelease, h]
@[simp] theorem resetAfterPf_jq (s : State) (h : s.jrn.queue.length ≤ 64) :
    (resetAfterPf s).jrn.queue.length ≤ 64 := by
  unfold resetAfterPf; (repeat' split) <;> simp +contextual (maxDischargeDepth := 30) [h, cite @resetHold_keeps]
@[simp] theorem tbSwitched_jq (s : State) (src cause : Nat) (h : s.jrn.queue.length ≤ 64) :
    (tbSwitched s src cause).jrn.queue.length ≤ 64 := by
  simp +contextual (maxDischargeDepth := 30) [tbSwitched, h, cite @evt_keeps, cite @markFallback_keeps, cite @set1_keeps]
@[simp] theorem softReset_jq (s : State) (h : s.jrn.queue.length ≤ 64) :
    (softReset s).jrn.queue.length ≤ 64 := by
  simp +contextual (maxDischargeDepth := 30) [softReset, h, cite @sharedReset_keeps, cite @dropVerify_keeps, cite @set1_keeps, cite @addCnt_keeps, cite @recordSys_keeps]
@[simp] theorem leafAgain_jq (s : State) (h : s.jrn.queue.length ≤ 64) :
    (leafAgain s).jrn.queue.length ≤ 64 := by
  unfold leafAgain; (repeat' split) <;> simp +contextual (maxDischargeDepth := 30) [h, cite @set1_keeps, cite @shelfRejoin_keeps]
@[simp] theorem procReset_jq (s : State) (h : s.jrn.queue.length ≤ 64) :
    (procReset s).jrn.queue.length ≤ 64 := by
  simp +contextual (maxDischargeDepth := 30) [procReset, h, cite @modRoot_keeps, cite @shelfReset_keeps, cite @addCnt_keeps, cite @evt_keeps, cite @recordSys_keeps]
@[simp] theorem journalDenied_jq (s : State) (count tag addr : Nat) (p : Port) (h : s.jrn.queue.length ≤ 64) :
    (journalDenied s count tag addr p).jrn.queue.length ≤ 64 := by
  simp +contextual (maxDischargeDepth := 30) [journalDenied, h]
@[simp] theorem takeBurst_jq (s : State) (p : Port) (tag cyc : Nat) (words : List (Nat × Nat)) (h : s.jrn.queue.length ≤ 64) :
    (takeBurst s p tag cyc words).st.jrn.queue.length ≤ 64 := by
  have h1 : ∀ (l : List (Nat × Nat)) (b : Burst), b.st.jrn.queue.length ≤ 64 → (l.foldl (burstWord p tag cyc (windowBusy s)) b).st.jrn.queue.length ≤ 64 := by
    intro l
    induction l with
    | nil => exact fun b hb => hb
    | cons x r ih => exact fun b hb => ih _ (by simpa [cite @burstWord_keeps, cite @addCnt_keeps] using hb)
  have h2 := h1 words ⟨resOK, [], false, s⟩ h
  unfold takeBurst
  dsimp only
  (repeat' split) <;> simp (maxDischargeDepth := 30) [h2, cite @burstWord_keeps, cite @addCnt_keeps, cite @modPort_keeps]
@[simp] theorem writeEnd_jq (s : State) (p : Port) (tag len addr : Nat) (data : List Nat) (crc cyc : Nat) (h : s.jrn.queue.length ≤ 64) :
    (writeEnd s p tag len addr data crc cyc).jrn.queue.length ≤ 64 := by
  simp +contextual (maxDischargeDepth := 30) [writeEnd, h, cite @endTxn_keeps]
@[simp] theorem spiWriteTxn_jq (s : State) (t : SpiWrite) (h : s.jrn.queue.length ≤ 64) :
    (spiWriteTxn s t).jrn.queue.length ≤ 64 := by
  simp +contextual (maxDischargeDepth := 30) [spiWriteTxn, h, cite @shiftOut_keeps, cite @atCyc_keeps, cite @endTxn_keeps]
@[simp] theorem i2cWriteDone_jq (s : State) (t : I2cWrite) (cyc : Nat) (h : s.jrn.queue.length ≤ 64) :
    (i2cWriteDone s t cyc).jrn.queue.length ≤ 64 := by
  simp +contextual (maxDischargeDepth := 30) [i2cWriteDone, h, cite @acked_keeps, cite @endTxn_keeps]
@[simp] theorem i2cWriteTxn_jq (s : State) (t : I2cWrite) (h : s.jrn.queue.length ≤ 64) :
    (i2cWriteTxn s t).jrn.queue.length ≤ 64 := by
  simp +contextual (maxDischargeDepth := 30) [i2cWriteTxn, h, cite @shiftOut_keeps, cite @atCyc_keeps]
@[simp] theorem releaseHold_jq (s : State) (h : s.jrn.queue.length ≤ 64) :
    (releaseHold s).jrn.queue.length ≤ 64 := by
  unfold releaseHold; dsimp only; (repeat' split) <;> simp +contextual (maxDischargeDepth := 30) [h, cite @fetchWords_keeps, cite @i2cReadDone_keeps]
@[simp] theorem oneWrite_jq (s : State) (a : Access) (addr v : Nat) (h : s.jrn.queue.length ≤ 64) :
    (oneWrite s a addr v).jrn.queue.length ≤ 64 := by
  unfold oneWrite; dsimp only; (repeat' split) <;> simp +contextual (maxDischargeDepth := 30) [h]
@[simp] theorem actApll_jq (s : State) (n off v : Nat) (h : s.jrn.queue.length ≤ 64) :
    (actApll s n off v).jrn.queue.length ≤ 64 := by
  simp +contextual (maxDischargeDepth := 30) [actApll, h, cite @epochRequest_keeps, cite @set1_keeps, cite @plainWord_keeps]
@[simp] theorem actEth_jq (rest : List QWrite) (s : State) (n off v : Nat) (h : s.jrn.queue.length ≤ 64) :
    (actEth rest s n off v).jrn.queue.length ≤ 64 := by
  simp +contextual (maxDischargeDepth := 30) [actEth, h, cite @restartAn_keeps, cite @plainWord_keeps]
@[simp] theorem actRoot_jq (s : State) (off v : Nat) (h : s.jrn.queue.length ≤ 64) :
    (actRoot s off v).jrn.queue.length ≤ 64 := by
  unfold actRoot; dsimp only; (repeat' split) <;> simp +contextual (maxDischargeDepth := 30) [h, cite @verifyCmd_keeps, cite @imageActivate_keeps, cite @plainWord_keeps]
@[simp] theorem actPage_jq (all rest : List QWrite) (s : State) (p : Page) (n off v : Nat) (h : s.jrn.queue.length ≤ 64) :
    (actPage all rest s p n off v).jrn.queue.length ≤ 64 := by
  unfold actPage; dsimp only; (repeat' split) <;> simp +contextual (maxDischargeDepth := 30) [h, cite @actRows_keeps, cite @actDpll_keeps, cite @actLane_keeps, cite @actOut_keeps, cite @actTime_keeps, cite @rdIdxWrite_keeps, cite @plainWord_keeps, cite @bboxWmWrite_keeps]
@[simp] theorem actWord_jq (all rest : List QWrite) (s : State) (w : QWrite) (h : s.jrn.queue.length ≤ 64) :
    (actWord all rest s w).jrn.queue.length ≤ 64 := by
  unfold actWord; (repeat' split) <;> simp +contextual (maxDischargeDepth := 30) [h, cite @setLE_keeps, cite @actCellarWord_keeps]
@[simp] theorem discard_jq (s : State) (rest : List QWrite) (w : QWrite) (h : s.jrn.queue.length ≤ 64) :
    (discard s rest w).jrn.queue.length ≤ 64 := by
  simp +contextual (maxDischargeDepth := 30) [discard, h]
@[simp] theorem actAll_jq (all x1 : List QWrite) (x2 : List (Port × Nat)) (x3 : State) (h : x3.jrn.queue.length ≤ 64) :
    (actAll all x1 x2 x3).jrn.queue.length ≤ 64 := by
  induction x1 generalizing x2 x3 with
  | nil => exact h
  | cons b r ih => unfold actAll; (repeat' split) <;> (apply ih; simp [h])
@[simp] theorem resetStep_jq (s : State) (due : List QWrite) (h : s.jrn.queue.length ≤ 64) :
    (resetStep s due).jrn.queue.length ≤ 64 := by
  simp +contextual (maxDischargeDepth := 30) [resetStep, h]
@[simp] theorem writeStep_jq (s : State) (due : List QWrite) (parts : List Nat) (h : s.jrn.queue.length ≤ 64) :
    (writeStep s due parts).jrn.queue.length ≤ 64 := by
  simp +contextual (maxDischargeDepth := 30) [writeStep, h, cite @storeStep_keeps]
@[simp] theorem boundarySteps_jq (s : State) (h : s.jrn.queue.length ≤ 64) :
    (boundarySteps s).jrn.queue.length ≤ 64 := by
  simp +contextual (maxDischargeDepth := 30) [boundarySteps, h, cite @armStep_keeps, cite @resetDone_keeps]
@[simp] theorem stages_jq (s : State) (i : FrameIn) (h : s.jrn.queue.length ≤ 64) :
    (stages s i).jrn.queue.length ≤ 64 := by
  simp +contextual (maxDischargeDepth := 30) [stages, h, cite @trigStage_keeps, cite @stage2_keeps, cite @capStage_keeps, cite @harvest_keeps, cite @stage5_keeps, cite @shelfFrame_keeps, cite @shelfAlerts_keeps, cite @etherFrame_keeps, cite @ringStore_keeps]
@[simp] theorem frameEnd_jq (s : State) (i : FrameIn) (h : s.jrn.queue.length ≤ 64) :
    (frameEnd s i).jrn.queue.length ≤ 64 := by
  simp +contextual (maxDischargeDepth := 30) [frameEnd, h, cite @timeAdvance_keeps, cite @harvest_keeps, cite @lanesEnd_keeps, cite @publishSlots_keeps]
@[simp] theorem frameTick_jq (s : State) (i : FrameIn) (h : s.jrn.queue.length ≤ 64) :
    (frameTick s i).jrn.queue.length ≤ 64 := by
  simp +contextual (maxDischargeDepth := 30) [frameTick, h, cite @frameEnd_keeps, cite @powerFrame_keeps, cite @snapStep_keeps, cite @timeTick_keeps, cite @rootUp_keeps]
@[simp] theorem frameZero_jq (s : State) (src : Nat) (h : s.jrn.queue.length ≤ 64) :
    (frameZero s src).jrn.queue.length ≤ 64 := by
  simp +contextual (maxDischargeDepth := 30) [frameZero, h, cite @startFrames_keeps]
@[simp] theorem tbSwitch_jq (s : State) (h : s.jrn.queue.length ≤ 64) :
    (tbSwitch s).jrn.queue.length ≤ 64 := by
  simp +contextual (maxDischargeDepth := 30) [tbSwitch, h, cite @tbBridge_keeps, cite @duskRecompute_keeps]
@[simp] theorem tbLost_jq (s : State) (h : s.jrn.queue.length ≤ 64) :
    (tbLost s).jrn.queue.length ≤ 64 := by
  simp +contextual (maxDischargeDepth := 30) [tbLost, h, cite @outLost_keeps, cite @degraded_keeps, cite @set1_keeps]

end Sys2Proof.Machine
end

