-- ==== Sys2Proof/Laws/Memory.lean ====
section
/-! SUPPORT. Memory: what a byte reads after a write, and that every operation on memory keeps its canonical form. -/

namespace Sys2Proof.Machine

/-! ### Reading after writing -/

theorem memPut_get (m : List Host.Cell) (a c : Nat) (b : Byte) :
    (kvGet (memPut m a b) c).getD (unlisted c) = if c = a then b else (kvGet m c).getD (unlisted c) := by
  unfold memPut
  by_cases h : c = a
  · subst h
    split
    · rename_i h1
      simp [h1]
    · simp
  · rw [if_neg h]
    split
    · rw [kvGet_kvDel_ne _ h]
    · rw [kvGet_kvSet_ne _ _ h]

/-- A byte reads as written, and every other byte as before. -/
theorem memByte_setByte (s : State) (a c : Nat) (b : Byte) :
    memByte (setByte s a b) c = if canonAddr c = canonAddr a then b else memByte s c := by
  unfold memByte setByte
  exact memPut_get _ _ _ _

/-- Below the Cellar and outside the black box, an address is its own storage. -/
theorem canonAddr_id (a : Nat) (h : a < 0x600000 ∨ 0x610000 ≤ a) : canonAddr a = a := by
  unfold canonAddr
  rw [if_neg (by omega)]

/-! ### The canonical form -/

@[simp] theorem wf_nil : Memory.wf [] = true := rfl

theorem wf_cons (a : Nat) (b : Byte) (r : List Host.Cell) :
    Memory.wf ((a, b) :: r) = true ↔ b ≠ unlisted a ∧ (∀ c ∈ r, a < c.1) ∧ Memory.wf r = true := by
  simp [Memory.wf, and_assoc]

@[simp] theorem wf_filter (m : List Host.Cell) (p : Host.Cell → Bool) (h : Memory.wf m = true) : Memory.wf (m.filter p) = true := by
  induction m with
  | nil => rfl
  | cons x r ih =>
    obtain ⟨a, b⟩ := x
    obtain ⟨h1, h2, h3⟩ := (wf_cons a b r).1 h
    rw [List.filter_cons]
    split
    · exact (wf_cons _ _ _).2 ⟨h1, fun c hc => h2 c (List.mem_of_mem_filter hc), ih h3⟩
    · exact ih h3

theorem mem_kvSet {α : Type} (l : List (Nat × α)) (k : Nat) (v : α) (c : Nat × α) (h : c ∈ kvSet l k v) :
    c = (k, v) ∨ c ∈ l := by
  induction l with
  | nil => simpa [kvSet] using h
  | cons x r ih =>
    obtain ⟨a, w⟩ := x
    simp only [kvSet] at h
    split at h
    · simpa using h
    · split at h
      · rcases List.mem_cons.1 h with h | h
        · exact .inl h
        · exact .inr (List.mem_cons_of_mem _ h)
      · rcases List.mem_cons.1 h with h | h
        · exact .inr (by simp [h])
        · rcases ih h with h | h
          · exact .inl h
          · exact .inr (List.mem_cons_of_mem _ h)

theorem mem_kvDel {α : Type} (l : List (Nat × α)) (k : Nat) (c : Nat × α) (h : c ∈ kvDel l k) : c ∈ l := by
  induction l with
  | nil => simpa [kvDel] using h
  | cons x r ih =>
    obtain ⟨a, w⟩ := x
    simp only [kvDel] at h
    split at h
    · exact List.mem_cons_of_mem _ (ih h)
    · rcases List.mem_cons.1 h with h | h
      · simp [h]
      · exact List.mem_cons_of_mem _ (ih h)

theorem wf_kvDel (m : List Host.Cell) (k : Nat) (h : Memory.wf m = true) : Memory.wf (kvDel m k) = true := by
  induction m with
  | nil => rfl
  | cons x r ih =>
    obtain ⟨a, b⟩ := x
    obtain ⟨h1, h2, h3⟩ := (wf_cons a b r).1 h
    simp only [kvDel]
    split
    · exact ih h3
    · exact (wf_cons _ _ _).2 ⟨h1, fun c hc => h2 c (mem_kvDel _ _ _ hc), ih h3⟩

theorem wf_kvSet (m : List Host.Cell) (k : Nat) (v : Byte) (hv : v ≠ unlisted k) (h : Memory.wf m = true) :
    Memory.wf (kvSet m k v) = true := by
  induction m with
  | nil => exact (wf_cons _ _ _).2 ⟨hv, by simp, rfl⟩
  | cons x r ih =>
    obtain ⟨a, b⟩ := x
    obtain ⟨h1, h2, h3⟩ := (wf_cons a b r).1 h
    simp only [kvSet]
    split
    · rename_i hk
      refine (wf_cons _ _ _).2 ⟨hv, ?_, h⟩
      intro c hc
      rcases List.mem_cons.1 hc with hc | hc
      · rw [hc]; exact hk
      · exact Nat.lt_trans hk (h2 c hc)
    · split
      · rename_i hk
        subst hk
        exact (wf_cons _ _ _).2 ⟨hv, h2, h3⟩
      · refine (wf_cons _ _ _).2 ⟨h1, ?_, ih h3⟩
        intro c hc
        rcases mem_kvSet _ _ _ _ hc with hc | hc
        · rw [hc]; dsimp only; omega
        · exact h2 c hc

/-- Writing a byte keeps the canonical form. -/
@[simp] theorem wf_memPut (m : List Host.Cell) (a : Nat) (b : Byte) (h : Memory.wf m = true) : Memory.wf (memPut m a b) = true := by
  unfold memPut
  split
  · exact wf_kvDel _ _ h
  · rename_i hb
    exact wf_kvSet _ _ _ hb h

/-- Loading a block keeps the canonical form. -/
@[simp] theorem wf_loadBlock (m : List Host.Cell) (b : Nat) (d : List Host.Cell) (h : Memory.wf m = true) :
    Memory.wf (loadBlock m b d) = true := by
  unfold loadBlock
  generalize hm : (m.filter _) = n
  have hn : Memory.wf n = true := by rw [← hm]; exact wf_filter _ _ h
  clear hm
  induction d generalizing n with
  | nil => exact hn
  | cons x r ih => exact ih _ (wf_memPut _ _ _ hn)

@[simp] theorem wf_ite (c : Prop) [Decidable c] (x y : List Host.Cell) :
    Memory.wf (if c then x else y) = if c then Memory.wf x else Memory.wf y := by split <;> rfl

/-- What every step of a fold keeps canonical, the fold keeps canonical. -/
@[simp] theorem foldl_wf {α : Type} (f : State → α → State) (h : ∀ t x, Memory.wf t.mem = true → Memory.wf (f t x).mem = true)
    (l : List α) (s : State) (hs : Memory.wf s.mem = true) : Memory.wf (l.foldl f s).mem = true := by
  induction l generalizing s with
  | nil => exact hs
  | cons x r ih => exact ih _ (h _ _ hs)

end Sys2Proof.Machine
end

