-- ==== Sys2Proof/Laws/MemoryKept.lean ====
section
/-! SUPPORT. Every operation that touches memory keeps its canonical form. -/

namespace Sys2Proof.Machine
@[simp] theorem setByte_wf (s : State) (a : Nat) (b : Byte) (h : Memory.wf s.mem = true) :
    Memory.wf (setByte s a b).mem = true := by
  exact wf_memPut _ _ _ h
@[simp] theorem setLE_wf (s : State) (a v x1 : Nat) (h : Memory.wf s.mem = true) :
    Memory.wf (setLE s a v x1).mem = true := by
  induction x1 generalizing s a v with
  | zero => exact h
  | succ n ih => exact ih _ _ _ (setByte_wf _ _ _ h)
@[simp] theorem setBytes_wf (s : State) (a : Nat) (x1 : List Nat) (h : Memory.wf s.mem = true) :
    Memory.wf (setBytes s a x1).mem = true := by
  induction x1 generalizing s a with
  | nil => exact h
  | cons b r ih => exact ih _ _ (setByte_wf _ _ _ h)
@[simp] theorem clearRange_wf (s : State) (a n : Nat) (h : Memory.wf s.mem = true) :
    Memory.wf (clearRange s a n).mem = true := by
  exact wf_filter _ _ h
@[simp] theorem writeRec_wf (s : State) (p slot seq : Nat) (r : Rec) (h : Memory.wf s.mem = true) :
    Memory.wf (writeRec s p slot seq r).mem = true := by
  simp +contextual (maxDischargeDepth := 30) [writeRec, h]
@[simp] theorem takeRec_wf (s : State) (p : Nat) (r : Rec) (h : Memory.wf s.mem = true) :
    Memory.wf (takeRec s p r).mem = true := by
  simp +contextual (maxDischargeDepth := 30) [takeRec, h, cite @addCnt_keeps, cite @setF_keeps, cite @dropRec_keeps]
@[simp] theorem harvest_wf (s : State) (h : Memory.wf s.mem = true) :
    Memory.wf (harvest s).mem = true := by
  simp +contextual (maxDischargeDepth := 30) [harvest, h, cite @partEvt_keeps, cite @modPart_keeps, cite @dropStaged_keeps]
@[simp] theorem resetHarvest_wf (s : State) (p : Nat) (h : Memory.wf s.mem = true) :
    Memory.wf (resetHarvest s p).mem = true := by
  simp +contextual (maxDischargeDepth := 30) [resetHarvest, h, cite @setF_keeps]
@[simp] theorem putSram_wf (s : State) (a b : Nat) (h : Memory.wf s.mem = true) :
    Memory.wf (putSram s a b).mem = true := by
  simp +contextual (maxDischargeDepth := 30) [putSram, h, cite @modCellar_keeps]
@[simp] theorem putSrams_wf (s : State) (a : Nat) (x1 : List Nat) (h : Memory.wf s.mem = true) :
    Memory.wf (putSrams s a x1).mem = true := by
  induction x1 generalizing s a with
  | nil => exact h
  | cons b r ih => exact ih _ _ (putSram_wf _ _ _ h)
@[simp] theorem putSramLE_wf (s : State) (a v n : Nat) (h : Memory.wf s.mem = true) :
    Memory.wf (putSramLE s a v n).mem = true := by
  simp +contextual (maxDischargeDepth := 30) [putSramLE, h]
@[simp] theorem ltAdd_wf (s : State) (i : Nat) (h : Memory.wf s.mem = true) :
    Memory.wf (ltAdd s i).mem = true := by
  simp +contextual (maxDischargeDepth := 30) [ltAdd, h, cite @lifetimeSat_keeps]
@[simp] theorem ringWrite_wf (s : State) (h : Memory.wf s.mem = true) :
    Memory.wf (ringWrite s).mem = true := by
  simp +contextual (maxDischargeDepth := 30) [ringWrite, h, cite @modCellar_keeps]
@[simp] theorem ringStore_wf (s : State) (h : Memory.wf s.mem = true) :
    Memory.wf (ringStore s).mem = true := by
  simp +contextual (maxDischargeDepth := 30) [ringStore, h, cite @rootStore_keeps]
@[simp] theorem ringPut_wf (s : State) (k : Nat) (v : List Nat) (h : Memory.wf s.mem = true) :
    Memory.wf (ringPut s k v).mem = true := by
  simp +contextual (maxDischargeDepth := 30) [ringPut, h, cite @modCellar_keeps]
@[simp] theorem storeEnds_wf (s : State) (r : StoreRun) (v : Supply) (h : Memory.wf s.mem = true) :
    Memory.wf (storeEnds s r v).mem = true := by
  simp +contextual (maxDischargeDepth := 30) [storeEnds, h, cite @setLast_keeps, cite @programmed_keeps, cite @addCnt_keeps, cite @cmdBlockDone_keeps, cite @orphanDone_keeps, cite @unpark_keeps, cite @pfDone_keeps]
@[simp] theorem storeAbandon_wf (s : State) (j : StoreJob) (v : Supply) (h : Memory.wf s.mem = true) :
    Memory.wf (storeAbandon s j v).mem = true := by
  simp +contextual (maxDischargeDepth := 30) [storeAbandon, h, cite @modCellar_keeps, cite @cellarEntry_keeps, cite @evt_keeps, cite @set1_keeps, cite @setLast_keeps, cite @addCnt_keeps, cite @unpark_keeps, cite @cmdEnd_keeps, cite @dropOwner_keeps]
@[simp] theorem pfQueue_wf (s : State) (h : Memory.wf s.mem = true) :
    Memory.wf (pfQueue s).mem = true := by
  simp +contextual (maxDischargeDepth := 30) [pfQueue, h, cite @modCellar_keeps]
@[simp] theorem pfSequence_wf (s : State) (v : Supply) (h : Memory.wf s.mem = true) :
    Memory.wf (pfSequence s v).mem = true := by
  simp +contextual (maxDischargeDepth := 30) [pfSequence, h, cite @engineStart_keeps, cite @set1_keeps, cite @cancelAll_keeps]
@[simp] theorem cellarReady_wf (s : State) (v : Supply) (h : Memory.wf s.mem = true) :
    Memory.wf (cellarReady s v).mem = true := by
  simp +contextual (maxDischargeDepth := 30) [cellarReady, h, cite @modCellar_keeps, cite @engineStart_keeps, cite @addJob_keeps, cite @engineKick_keeps]
@[simp] theorem recallBlock_wf (s : State) (b : Nat) (h : Memory.wf s.mem = true) :
    Memory.wf (recallBlock s b).mem = true := by
  unfold recallBlock; dsimp only; (repeat' split) <;> simp +contextual (maxDischargeDepth := 30) [h, cite @rootFix_keeps, cite @cellarEntry_keeps, cite @addCnt_keeps, cite @evt_keeps, cite @partEvt_keeps, cite @set1_keeps, cite @ltAdd_keeps]
@[simp] theorem recallSram_wf (s : State) (h : Memory.wf s.mem = true) :
    Memory.wf (recallSram s).mem = true := by
  exact foldl_wf _ recallBlock_wf _ _ (recallBlock_wf _ _ rfl)
@[simp] theorem cellarRecall_wf (s : State) (h : Memory.wf s.mem = true) :
    Memory.wf (cellarRecall s).mem = true := by
  unfold cellarRecall; (repeat' split) <;> simp +contextual (maxDischargeDepth := 30) [h, cite @cellarEntry_keeps, cite @evt_keeps, cite @set1_keeps, cite @modCellar_keeps]
@[simp] theorem scrubStep_wf (s : State) (r : ScrubRead) (v : Supply) (h : Memory.wf s.mem = true) :
    Memory.wf (scrubStep s r v).mem = true := by
  unfold scrubStep; dsimp only; (repeat' split) <;> simp +contextual (maxDischargeDepth := 30) [h, cite @set1_keeps, cite @cellarEntry_keeps, cite @evt_keeps, cite @rootFix_keeps, cite @addCnt_keeps, cite @weaken_keeps, cite @rootStore_keeps]
@[simp] theorem gateRingPut_wf (s : State) (k : Nat) (v : List Nat) (h : Memory.wf s.mem = true) :
    Memory.wf (gateRingPut s k v).mem = true := by
  simp +contextual (maxDischargeDepth := 30) [gateRingPut, h, cite @gateRefuse_keeps, cite @gateRes_keeps]
@[simp] theorem writeEntry_wf (s : State) (e : JEntry) (h : Memory.wf s.mem = true) :
    Memory.wf (writeEntry s e).mem = true := by
  simp +contextual (maxDischargeDepth := 30) [writeEntry, h, cite @rootStore_keeps, cite @set1_keeps, cite @codeEvts_keeps, cite @addCnt_keeps, cite @unreadCross_keeps, cite @overwriteEvt_keeps]
@[simp] theorem drainOne_wf (s : State) (h : Memory.wf s.mem = true) :
    Memory.wf (drainOne s).mem = true := by
  unfold drainOne; dsimp only; (repeat' split) <;> simp +contextual (maxDischargeDepth := 30) [h, cite @pumpHeld_keeps]
@[simp] theorem drainN_wf (x1 : Nat) (x2 : State) (h : Memory.wf x2.mem = true) :
    Memory.wf (drainN x1 x2).mem = true := by
  induction x1 generalizing x2 with
  | zero => exact h
  | succ n ih => exact ih _ (drainOne_wf _ h)
@[simp] theorem drainAll_wf (s : State) (h : Memory.wf s.mem = true) :
    Memory.wf (drainAll s).mem = true := by
  simp +contextual (maxDischargeDepth := 30) [drainAll, h, cite @pumpHeld_keeps]
@[simp] theorem frnRestart_wf (s : State) (h : Memory.wf s.mem = true) :
    Memory.wf (frnRestart s).mem = true := by
  simp +contextual (maxDischargeDepth := 30) [frnRestart, h, cite @journalPg_keeps]
@[simp] theorem hostHalfReset_wf (s : State) (c : Nat) (h : Memory.wf s.mem = true) :
    Memory.wf (hostHalfReset s c).mem = true := by
  simp +contextual (maxDischargeDepth := 30) [hostHalfReset, h, cite @set1_keeps, cite @modChan_keeps, cite @entryCond_keeps]
@[simp] theorem tableReset_wf (s : State) (h : Memory.wf s.mem = true) :
    Memory.wf (tableReset s).mem = true := by
  simp +contextual (maxDischargeDepth := 30) [tableReset, h, cite @set1_keeps, cite @modChan_keeps]
@[simp] theorem partReset_wf (s : State) (p cause : Nat) (h : Memory.wf s.mem = true) :
    Memory.wf (partReset s p cause).mem = true := by
  simp +contextual (maxDischargeDepth := 30) [partReset, h, cite @publishGains_keeps, cite @utcPolicy_keeps, cite @timeStart_keeps, cite @startDom_keeps, cite @domChanged_keeps, cite @cancelCmd_keeps, cite @instReset_keeps, cite @resetRows_keeps, cite @set1_keeps, cite @resetFields_keeps, cite @synthReset_keeps, cite @resetPage_keeps, cite @journalPg_keeps, cite @recordReset_keeps]
@[simp] theorem unmark_wf (s : State) (h : Memory.wf s.mem = true) :
    Memory.wf (unmark s).mem = true := by
  simp +contextual (maxDischargeDepth := 30) [unmark, h]
@[simp] theorem reloadBlock_wf (s : State) (b : Nat) (h : Memory.wf s.mem = true) :
    Memory.wf (reloadBlock s b).mem = true := by
  simp +contextual (maxDischargeDepth := 30) [reloadBlock, h, cite @modCellar_keeps]
@[simp] theorem reloadBlocks_wf (s : State) (first n : Nat) (h : Memory.wf s.mem = true) :
    Memory.wf (reloadBlocks s first n).mem = true := by
  simp +contextual (maxDischargeDepth := 30) [reloadBlocks, h]
@[simp] theorem refuseProfile_wf (s : State) (code off : Nat) (h : Memory.wf s.mem = true) :
    Memory.wf (refuseProfile s code off).mem = true := by
  simp +contextual (maxDischargeDepth := 30) [refuseProfile, h, cite @journalPg_keeps, cite @evt_keeps, cite @set1_keeps, cite @modRoot_keeps, cite @dropOwner_keeps]
@[simp] theorem beginCommit_wf (s : State) (h : Memory.wf s.mem = true) :
    Memory.wf (beginCommit s).mem = true := by
  simp +contextual (maxDischargeDepth := 30) [beginCommit, h, cite @commitStores_keeps, cite @modRoot_keeps, cite @set1_keeps]
@[simp] theorem copyProfile_wf (s : State) (h : Memory.wf s.mem = true) :
    Memory.wf (copyProfile s).mem = true := by
  simp +contextual (maxDischargeDepth := 30) [copyProfile, h, cite @commitStores_keeps, cite @modRoot_keeps]
@[simp] theorem endVerify_wf (s : State) (h : Memory.wf s.mem = true) :
    Memory.wf (endVerify s).mem = true := by
  unfold endVerify; dsimp only; (repeat' split) <;> simp +contextual (maxDischargeDepth := 30) [h, cite @evt_keeps, cite @set1_keeps]
@[simp] theorem commitCmd_wf (s : State) (h : Memory.wf s.mem = true) :
    Memory.wf (commitCmd s).mem = true := by
  unfold commitCmd; (repeat' split) <;> simp +contextual (maxDischargeDepth := 30) [h, cite @modRoot_keeps, cite @beginVerify_keeps]
@[simp] theorem abortCmd_wf (s : State) (h : Memory.wf s.mem = true) :
    Memory.wf (abortCmd s).mem = true := by
  unfold abortCmd; (repeat' split) <;> simp +contextual (maxDischargeDepth := 30) [h, cite @set1_keeps, cite @modRoot_keeps]
@[simp] theorem stopCommit_wf (s : State) (code : Nat) (h : Memory.wf s.mem = true) :
    Memory.wf (stopCommit s code).mem = true := by
  simp +contextual (maxDischargeDepth := 30) [stopCommit, h]
@[simp] theorem commitKey_wf (s : State) (pub : List Nat) (rot : Option (List Nat)) (h : Memory.wf s.mem = true) :
    Memory.wf (commitKey s pub rot).mem = true := by
  simp +contextual (maxDischargeDepth := 30) [commitKey, h, cite @journalPg_keeps, cite @publishKey_keeps, cite @rootStore_keeps]
@[simp] theorem changePolicy_wf (s : State) (b : Policy) (h : Memory.wf s.mem = true) :
    Memory.wf (changePolicy s b).mem = true := by
  simp +contextual (maxDischargeDepth := 30) [changePolicy, h, cite @resetRows_keeps, cite @set1_keeps, cite @moveOutput_keeps, cite @synthStart_keeps, cite @apllStop_keeps, cite @duskRecompute_keeps, cite @commitCfg_keeps, cite @requalify_keeps, cite @instReset_keeps, cite @todConnect_keeps, cite @fmtPending_keeps, cite @utcPolicy_keeps, cite @portCommit_keeps, cite @shelfCommit_keeps, cite @markFallback_keeps, cite @debugEnd_keeps]
@[simp] theorem policyCommit_wf (s : State) (h : Memory.wf s.mem = true) :
    Memory.wf (policyCommit s).mem = true := by
  simp +contextual (maxDischargeDepth := 30) [policyCommit, h, cite @rootStore_keeps, cite @journalPg_keeps, cite @evt_keeps, cite @set1_keeps, cite @modRoot_keeps]
@[simp] theorem commitStep_wf (s : State) (h : Memory.wf s.mem = true) :
    Memory.wf (commitStep s).mem = true := by
  simp +contextual (maxDischargeDepth := 30) [commitStep, h]
@[simp] theorem acceptEpoch_wf (s : State) (h : Memory.wf s.mem = true) :
    Memory.wf (acceptEpoch s).mem = true := by
  simp +contextual (maxDischargeDepth := 30) [acceptEpoch, h, cite @set1_keeps, cite @rootStore_keeps]
@[simp] theorem leafStart_wf (s : State) (h : Memory.wf s.mem = true) :
    Memory.wf (leafStart s).mem = true := by
  simp +contextual (maxDischargeDepth := 30) [leafStart, h, cite @setLeaf_keeps, cite @set1_keeps, cite @modRoot_keeps, cite @shelfRejoin_keeps]
@[simp] theorem imageCancel_wf (s : State) (h : Memory.wf s.mem = true) :
    Memory.wf (imageCancel s).mem = true := by
  simp +contextual (maxDischargeDepth := 30) [imageCancel, h, cite @imageOver_keeps]
@[simp] theorem imageRefuse_wf (s : State) (code : Nat) (h : Memory.wf s.mem = true) :
    Memory.wf (imageRefuse s code).mem = true := by
  simp +contextual (maxDischargeDepth := 30) [imageRefuse, h, cite @imageOver_keeps, cite @journalPg_keeps, cite @evt_keeps, cite @set1_keeps, cite @dropOwner_keeps]
@[simp] theorem imageVerified_wf (s : State) (h : Memory.wf s.mem = true) :
    Memory.wf (imageVerified s).mem = true := by
  unfold imageVerified; dsimp only; (repeat' split) <;> simp +contextual (maxDischargeDepth := 30) [h, cite @rootStore_keeps, cite @modRoot_keeps]
@[simp] theorem imagePowerFail_wf (s : State) (h : Memory.wf s.mem = true) :
    Memory.wf (imagePowerFail s).mem = true := by
  simp +contextual (maxDischargeDepth := 30) [imagePowerFail, h]
@[simp] theorem storeThen_wf (s : State) (r : StoreRun) (h : Memory.wf s.mem = true) :
    Memory.wf (storeThen s r).mem = true := by
  simp +contextual (maxDischargeDepth := 30) [storeThen, h, cite @imageStored_keeps, cite @scheduleCommit_keeps]
@[simp] theorem storeDone_wf (s : State) (v : Supply) (h : Memory.wf s.mem = true) :
    Memory.wf (storeDone s v).mem = true := by
  unfold storeDone; (repeat' split) <;> simp +contextual (maxDischargeDepth := 30) [h, cite @engineStart_keeps]
@[simp] theorem storeGiveUp_wf (s : State) (v : Supply) (h : Memory.wf s.mem = true) :
    Memory.wf (storeGiveUp s v).mem = true := by
  unfold storeGiveUp; dsimp only; (repeat' split) <;> simp +contextual (maxDischargeDepth := 30) [h, cite @engineStart_keeps]
@[simp] theorem powerFail_wf (s : State) (cause vin holdup : Nat) (h : Memory.wf s.mem = true) :
    Memory.wf (powerFail s cause vin holdup).mem = true := by
  simp +contextual (maxDischargeDepth := 30) [powerFail, h, cite @shutdown_keeps, cite @shelfPowerFail_keeps, cite @journalPg_keeps, cite @addCnt_keeps, cite @evt_keeps, cite @linkDown_keeps, cite @set1_keeps, cite @recordFail_keeps]
@[simp] theorem pfRecover_wf (s : State) (vin ms : Nat) (h : Memory.wf s.mem = true) :
    Memory.wf (pfRecover s vin ms).mem = true := by
  simp +contextual (maxDischargeDepth := 30) [pfRecover, h, cite @engineStart_keeps, cite @shelfRecover_keeps, cite @cellarResume_keeps, cite @journalPg_keeps, cite @addCnt_keeps, cite @evt_keeps, cite @charging_keeps, cite @seedAvg_keeps, cite @set1_keeps]
@[simp] theorem finishCommit_wf (s : State) (q : Policy) (h : Memory.wf s.mem = true) :
    Memory.wf (finishCommit s q).mem = true := by
  simp +contextual (maxDischargeDepth := 30) [finishCommit, h, cite @takePolicy_keeps, cite @rootStore_keeps]
@[simp] theorem startPolicy_wf (s : State) (h : Memory.wf s.mem = true) :
    Memory.wf (startPolicy s).mem = true := by
  unfold startPolicy; (repeat' split) <;> simp +contextual (maxDischargeDepth := 30) [h, cite @takePolicy_keeps]
@[simp] theorem bootUp_wf (s : State) (cause : Nat) (h : Memory.wf s.mem = true) :
    Memory.wf (bootUp s cause).mem = true := by
  simp +contextual (maxDischargeDepth := 30) [bootUp, h, cite @startValues_keeps, cite @publishKey_keeps, cite @set1_keeps, cite @publishGains_keeps, cite @instReset_keeps, cite @shelfReset_keeps]
@[simp] theorem coldState_wf (s : State) (i : StartIn) (h : Memory.wf s.mem = true) :
    Memory.wf (coldState s i).mem = true := by
  rfl
@[simp] theorem firstEntry_wf (s : State) (h : Memory.wf s.mem = true) :
    Memory.wf (firstEntry s).mem = true := by
  simp +contextual (maxDischargeDepth := 30) [firstEntry, h, cite @enqueue_keeps]
@[simp] theorem powerOn_wf (s : State) (i : StartIn) (h : Memory.wf s.mem = true) :
    Memory.wf (powerOn s i).mem = true := by
  simp +contextual (maxDischargeDepth := 30) [powerOn, h, cite @calDefault_keeps, cite @bboxRecall_keeps, cite @powerInit_keeps]
@[simp] theorem warmState_wf (s : State) (straps : Straps) (h : Memory.wf s.mem = true) :
    Memory.wf (warmState s straps).mem = true := by
  unfold warmState
  generalize resetKept = l
  exact foldl_wf _ (fun t f ht => by simpa [cite @set1_keeps] using ht) l _ (wf_filter s.mem _ h)
@[simp] theorem resetRelease_wf (s : State) (straps : Straps) (h : Memory.wf s.mem = true) :
    Memory.wf (resetRelease s straps).mem = true := by
  simp +contextual (maxDischargeDepth := 30) [resetRelease, h, cite @holdAllLost_keeps]
@[simp] theorem resetAfterPf_wf (s : State) (h : Memory.wf s.mem = true) :
    Memory.wf (resetAfterPf s).mem = true := by
  unfold resetAfterPf; (repeat' split) <;> simp +contextual (maxDischargeDepth := 30) [h, cite @resetHold_keeps]
@[simp] theorem softReset_wf (s : State) (h : Memory.wf s.mem = true) :
    Memory.wf (softReset s).mem = true := by
  simp +contextual (maxDischargeDepth := 30) [softReset, h, cite @leafHost_keeps, cite @sharedReset_keeps, cite @dropVerify_keeps, cite @debugEnd_keeps, cite @set1_keeps, cite @journalPg_keeps, cite @addCnt_keeps, cite @recordSys_keeps]
@[simp] theorem procReset_wf (s : State) (h : Memory.wf s.mem = true) :
    Memory.wf (procReset s).mem = true := by
  simp +contextual (maxDischargeDepth := 30) [procReset, h, cite @modRoot_keeps, cite @shelfReset_keeps, cite @leafAgain_keeps, cite @debugEnd_keeps, cite @journalPg_keeps, cite @addCnt_keeps, cite @evt_keeps, cite @recordSys_keeps]
@[simp] theorem writeEnd_wf (s : State) (p : Port) (tag len addr : Nat) (data : List Nat) (crc cyc : Nat) (h : Memory.wf s.mem = true) :
    Memory.wf (writeEnd s p tag len addr data crc cyc).mem = true := by
  simp +contextual (maxDischargeDepth := 30) [writeEnd, h, cite @endTxn_keeps, cite @takeBurst_keeps]
@[simp] theorem spiWriteTxn_wf (s : State) (t : SpiWrite) (h : Memory.wf s.mem = true) :
    Memory.wf (spiWriteTxn s t).mem = true := by
  simp +contextual (maxDischargeDepth := 30) [spiWriteTxn, h, cite @shiftOut_keeps, cite @atCyc_keeps, cite @endTxn_keeps]
@[simp] theorem i2cWriteDone_wf (s : State) (t : I2cWrite) (cyc : Nat) (h : Memory.wf s.mem = true) :
    Memory.wf (i2cWriteDone s t cyc).mem = true := by
  simp +contextual (maxDischargeDepth := 30) [i2cWriteDone, h, cite @acked_keeps, cite @endTxn_keeps]
@[simp] theorem i2cWriteTxn_wf (s : State) (t : I2cWrite) (h : Memory.wf s.mem = true) :
    Memory.wf (i2cWriteTxn s t).mem = true := by
  simp +contextual (maxDischargeDepth := 30) [i2cWriteTxn, h, cite @shiftOut_keeps, cite @atCyc_keeps]
@[simp] theorem releaseHold_wf (s : State) (h : Memory.wf s.mem = true) :
    Memory.wf (releaseHold s).mem = true := by
  unfold releaseHold; dsimp only; (repeat' split) <;> simp +contextual (maxDischargeDepth := 30) [h, cite @fetchWords_keeps, cite @i2cReadDone_keeps]
@[simp] theorem oneWrite_wf (s : State) (a : Access) (addr v : Nat) (h : Memory.wf s.mem = true) :
    Memory.wf (oneWrite s a addr v).mem = true := by
  unfold oneWrite; dsimp only; (repeat' split) <;> simp +contextual (maxDischargeDepth := 30) [h]
@[simp] theorem actRoot_wf (s : State) (off v : Nat) (h : Memory.wf s.mem = true) :
    Memory.wf (actRoot s off v).mem = true := by
  unfold actRoot; dsimp only; (repeat' split) <;> simp +contextual (maxDischargeDepth := 30) [h, cite @plainWord_keeps, cite @verifyCmd_keeps, cite @imageLoad_keeps, cite @imageActivate_keeps, cite @leafHost_keeps]
@[simp] theorem actPage_wf (all rest : List QWrite) (s : State) (p : Page) (n off v : Nat) (h : Memory.wf s.mem = true) :
    Memory.wf (actPage all rest s p n off v).mem = true := by
  unfold actPage; dsimp only; (repeat' split) <;> simp +contextual (maxDischargeDepth := 30) [h, cite @actRows_keeps, cite @actDpll_keeps, cite @actLane_keeps, cite @actApll_keeps, cite @actOut_keeps, cite @actTime_keeps, cite @actEth_keeps, cite @rdIdxWrite_keeps, cite @plainWord_keeps, cite @rdSeqWrite_keeps, cite @bboxWmWrite_keeps, cite @debugAsk_keeps, cite @debugEnd_keeps]
@[simp] theorem actCellarWord_wf (s : State) (b a v : Nat) (h : Memory.wf s.mem = true) :
    Memory.wf (actCellarWord s b a v).mem = true := by
  simp +contextual (maxDischargeDepth := 30) [actCellarWord, h, cite @modRoot_keeps]
@[simp] theorem actWord_wf (all rest : List QWrite) (s : State) (w : QWrite) (h : Memory.wf s.mem = true) :
    Memory.wf (actWord all rest s w).mem = true := by
  unfold actWord; (repeat' split) <;> simp +contextual (maxDischargeDepth := 30) [h]
@[simp] theorem actAll_wf (all x1 : List QWrite) (x2 : List (Port × Nat)) (x3 : State) (h : Memory.wf x3.mem = true) :
    Memory.wf (actAll all x1 x2 x3).mem = true := by
  induction x1 generalizing x2 x3 with
  | nil => exact h
  | cons b r ih => unfold actAll; (repeat' split) <;> (apply ih; simp [h, cite @discard_keeps])
@[simp] theorem resetStep_wf (s : State) (due : List QWrite) (h : Memory.wf s.mem = true) :
    Memory.wf (resetStep s due).mem = true := by
  simp +contextual (maxDischargeDepth := 30) [resetStep, h]
@[simp] theorem writeStep_wf (s : State) (due : List QWrite) (parts : List Nat) (h : Memory.wf s.mem = true) :
    Memory.wf (writeStep s due parts).mem = true := by
  simp +contextual (maxDischargeDepth := 30) [writeStep, h, cite @storeStep_keeps]
@[simp] theorem boundarySteps_wf (s : State) (h : Memory.wf s.mem = true) :
    Memory.wf (boundarySteps s).mem = true := by
  simp +contextual (maxDischargeDepth := 30) [boundarySteps, h, cite @armStep_keeps, cite @timeBoundary_keeps, cite @debugFrame_keeps, cite @roleChange_keeps, cite @resetDone_keeps, cite @tableAccept_keeps, cite @gateStep_keeps]
@[simp] theorem stages_wf (s : State) (i : FrameIn) (h : Memory.wf s.mem = true) :
    Memory.wf (stages s i).mem = true := by
  simp +contextual (maxDischargeDepth := 30) [stages, h, cite @trigStage_keeps, cite @stage1_keeps, cite @stage4_keeps, cite @stage3_keeps, cite @stage2_keeps, cite @capStage_keeps, cite @tableRefresh_keeps, cite @stage5_keeps, cite @shelfFrame_keeps, cite @shelfAlerts_keeps, cite @etherFrame_keeps]
@[simp] theorem frameEnd_wf (s : State) (i : FrameIn) (h : Memory.wf s.mem = true) :
    Memory.wf (frameEnd s i).mem = true := by
  simp +contextual (maxDischargeDepth := 30) [frameEnd, h, cite @timeAdvance_keeps, cite @frameLost_keeps, cite @suppressionEnd_keeps, cite @lanesEnd_keeps, cite @publishSlots_keeps]
@[simp] theorem frameTick_wf (s : State) (i : FrameIn) (h : Memory.wf s.mem = true) :
    Memory.wf (frameTick s i).mem = true := by
  simp +contextual (maxDischargeDepth := 30) [frameTick, h, cite @frameEnd_keeps, cite @powerFrame_keeps, cite @snapStep_keeps, cite @timeTick_keeps, cite @rootUp_keeps]
@[simp] theorem frameZero_wf (s : State) (src : Nat) (h : Memory.wf s.mem = true) :
    Memory.wf (frameZero s src).mem = true := by
  simp +contextual (maxDischargeDepth := 30) [frameZero, h, cite @startFrames_keeps]
@[simp] theorem tbLost_wf (s : State) (h : Memory.wf s.mem = true) :
    Memory.wf (tbLost s).mem = true := by
  simp +contextual (maxDischargeDepth := 30) [tbLost, h, cite @outLost_keeps, cite @journalPg_keeps, cite @degraded_keeps, cite @set1_keeps]

end Sys2Proof.Machine
end

