-- ==== Sys2Proof/Laws/Pages.lean ====
section
/-! SUPPORT. Register cells page by page: the page of every field, and for every operation the pages whose cells it leaves
as they were. -/

namespace Sys2Proof.Machine

open Sys2Proof

/-! ### The page of a field -/

@[simp] theorem HDR.SAT_page (p : Page) : (HDR.SAT p).page = p := rfl
@[simp] theorem HDR.EVT_page (p : Page) : (HDR.EVT p).page = p := rfl
@[simp] theorem HDR.EVT_EN_page (p : Page) : (HDR.EVT_EN p).page = p := rfl
@[simp] theorem HDR.EVT_CNT_page (p : Page) : (HDR.EVT_CNT p).page = p := rfl
@[simp] theorem HDR.SNAP_REQ_page (p : Page) : (HDR.SNAP_REQ p).page = p := rfl
@[simp] theorem HDR.SNAP_PENDING_page (p : Page) : (HDR.SNAP_PENDING p).page = p := rfl
@[simp] theorem HDR.FRAME_STAMP_page (p : Page) : (HDR.FRAME_STAMP p).page = p := rfl
@[simp] theorem HDR.TYPE_page (p : Page) : (HDR.TYPE p).page = p := rfl
@[simp] theorem HDR.INSTANCE_page (p : Page) : (HDR.INSTANCE p).page = p := rfl
@[simp] theorem HDR.VERSION_page (p : Page) : (HDR.VERSION p).page = p := rfl
@[simp] theorem HDR.OWNER_page (p : Page) : (HDR.OWNER p).page = p := rfl
@[simp] theorem HDR.LOCKED_page (p : Page) : (HDR.LOCKED p).page = p := rfl
@[simp] theorem CHAN.POL_ID_CHAN_page : CHAN.POL_ID_CHAN.page = .chan := rfl
@[simp] theorem CHAN.POL_ID_KIND_page : CHAN.POL_ID_KIND.page = .chan := rfl
@[simp] theorem CHAN.POL_ID_ENABLED_page : CHAN.POL_ID_ENABLED.page = .chan := rfl
@[simp] theorem CHAN.POL_ID_OWNER_page : CHAN.POL_ID_OWNER.page = .chan := rfl
@[simp] theorem CHAN.NOM_FREQ_LO_page : CHAN.NOM_FREQ_LO.page = .chan := rfl
@[simp] theorem CHAN.NOM_FREQ_HI_page : CHAN.NOM_FREQ_HI.page = .chan := rfl
@[simp] theorem CHAN.PAD_DIFF_page : CHAN.PAD_DIFF.page = .chan := rfl
@[simp] theorem CHAN.PAD_TERM_page : CHAN.PAD_TERM.page = .chan := rfl
@[simp] theorem CHAN.PAD_EDGE_page : CHAN.PAD_EDGE.page = .chan := rfl
@[simp] theorem CHAN.QL_SRC_page : CHAN.QL_SRC.page = .chan := rfl
@[simp] theorem CHAN.QL_ASSUMED_page : CHAN.QL_ASSUMED.page = .chan := rfl
@[simp] theorem CHAN.QL_NODE_page : CHAN.QL_NODE.page = .chan := rfl
@[simp] theorem CHAN.FREQ_RANGE_page : CHAN.FREQ_RANGE.page = .chan := rfl
@[simp] theorem CHAN.PHASE_STEP_page : CHAN.PHASE_STEP.page = .chan := rfl
@[simp] theorem CHAN.WANDER_page : CHAN.WANDER.page = .chan := rfl
@[simp] theorem CHAN.WTR_page : CHAN.WTR.page = .chan := rfl
@[simp] theorem CHAN.HOLD_OFF_page : CHAN.HOLD_OFF.page = .chan := rfl
@[simp] theorem CHAN.ACT_TIMEOUT_page : CHAN.ACT_TIMEOUT.page = .chan := rfl
@[simp] theorem CHAN.CAND_page : CHAN.CAND.page = .chan := rfl
@[simp] theorem CHAN.GRANT_page : CHAN.GRANT.page = .chan := rfl
@[simp] theorem CHAN.LANE_page : CHAN.LANE.page = .chan := rfl
@[simp] theorem CHAN.SPARED_page : CHAN.SPARED.page = .chan := rfl
@[simp] theorem CHAN.POL_GEN_page : CHAN.POL_GEN.page = .chan := rfl
@[simp] theorem CHAN.EFF_GEN_page : CHAN.EFF_GEN.page = .chan := rfl
@[simp] theorem CHAN.VERDICT_page : CHAN.VERDICT.page = .chan := rfl
@[simp] theorem CHAN.VFRN_page : CHAN.VFRN.page = .chan := rfl
@[simp] theorem SYS.CTRL_SOFT_RESET_page : SYS.CTRL_SOFT_RESET.page = .sys := rfl
@[simp] theorem SYS.CTRL_KEY_page : SYS.CTRL_KEY.page = .sys := rfl
@[simp] theorem SYS.STATUS_LANE_SPARED_page : SYS.STATUS_LANE_SPARED.page = .sys := rfl
@[simp] theorem SYS.STATUS_CAL_DEFAULT_page : SYS.STATUS_CAL_DEFAULT.page = .sys := rfl
@[simp] theorem SYS.STATUS_ROM_PROFILE_page : SYS.STATUS_ROM_PROFILE.page = .sys := rfl
@[simp] theorem SYS.STATUS_ROOT_FLOOR_page : SYS.STATUS_ROOT_FLOOR.page = .sys := rfl
@[simp] theorem SYS.STATUS_TB_FALLBACK_page : SYS.STATUS_TB_FALLBACK.page = .sys := rfl
@[simp] theorem SYS.STATUS_NO_TIMEBASE_page : SYS.STATUS_NO_TIMEBASE.page = .sys := rfl
@[simp] theorem SYS.STATUS_OVEN_FAULT_page : SYS.STATUS_OVEN_FAULT.page = .sys := rfl
@[simp] theorem SYS.STATUS_LANE_LOST_page : SYS.STATUS_LANE_LOST.page = .sys := rfl
@[simp] theorem SYS.STATUS_FUNC_LOST_page : SYS.STATUS_FUNC_LOST.page = .sys := rfl
@[simp] theorem SYS.FRN_LO_page : SYS.FRN_LO.page = .sys := rfl
@[simp] theorem SYS.FRN_HI_page : SYS.FRN_HI.page = .sys := rfl
@[simp] theorem SYS.ID_GRADE_page : SYS.ID_GRADE.page = .sys := rfl
@[simp] theorem SYS.ID_HWREV_page : SYS.ID_HWREV.page = .sys := rfl
@[simp] theorem SYS.ID_PRODUCT_page : SYS.ID_PRODUCT.page = .sys := rfl
@[simp] theorem SYS.SERIAL_LO_page : SYS.SERIAL_LO.page = .sys := rfl
@[simp] theorem SYS.SERIAL_HI_page : SYS.SERIAL_HI.page = .sys := rfl
@[simp] theorem SYS.RESET_page : SYS.RESET.page = .sys := rfl
@[simp] theorem SYS.RESET_FRN_page : SYS.RESET_FRN.page = .sys := rfl
@[simp] theorem SYS.FAULT_LANES_page : SYS.FAULT_LANES.page = .sys := rfl
@[simp] theorem SYS.SOFT_RESET_CNT_page : SYS.SOFT_RESET_CNT.page = .sys := rfl
@[simp] theorem SYS.PROC_RESET_CNT_page : SYS.PROC_RESET_CNT.page = .sys := rfl
@[simp] theorem PART.CTRL_page : PART.CTRL.page = .part := rfl
@[simp] theorem PART.STATUS_OPEN_page : PART.STATUS_OPEN.page = .part := rfl
@[simp] theorem PART.STATUS_LANE_GRANT_page : PART.STATUS_LANE_GRANT.page = .part := rfl
@[simp] theorem PART.PEND_A_LANE_page : PART.PEND_A_LANE.page = .part := rfl
@[simp] theorem PART.PEND_A_OUT_page : PART.PEND_A_OUT.page = .part := rfl
@[simp] theorem PART.PEND_A_OWN_page : PART.PEND_A_OWN.page = .part := rfl
@[simp] theorem PART.PEND_B_SHARED_page : PART.PEND_B_SHARED.page = .part := rfl
@[simp] theorem PART.PEND_B_CLOSED_page : PART.PEND_B_CLOSED.page = .part := rfl
@[simp] theorem PART.CHAN_EVT_page : PART.CHAN_EVT.page = .part := rfl
@[simp] theorem PART.PORTS_OUTS_page : PART.PORTS_OUTS.page = .part := rfl
@[simp] theorem PART.PORTS_IRQ_page : PART.PORTS_IRQ.page = .part := rfl
@[simp] theorem PART.PORTS_SPI_page : PART.PORTS_SPI.page = .part := rfl
@[simp] theorem PART.PORTS_I2C_page : PART.PORTS_I2C.page = .part := rfl
@[simp] theorem PART.CHANS_OWN_page : PART.CHANS_OWN.page = .part := rfl
@[simp] theorem PART.CHANS_GRANT_page : PART.CHANS_GRANT.page = .part := rfl
@[simp] theorem PART.LAST_RESET_page : PART.LAST_RESET.page = .part := rfl
@[simp] theorem PART.RESET_FRN_page : PART.RESET_FRN.page = .part := rfl
@[simp] theorem PART.RESET_CNT_page : PART.RESET_CNT.page = .part := rfl
@[simp] theorem FRAME.FRN_LO_page : FRAME.FRN_LO.page = .frame := rfl
@[simp] theorem FRAME.FRN_HI_page : FRAME.FRN_HI.page = .frame := rfl
@[simp] theorem FRAME.POS_TB_CYCLE_page : FRAME.POS_TB_CYCLE.page = .frame := rfl
@[simp] theorem FRAME.POS_STAGE_page : FRAME.POS_STAGE.page = .frame := rfl
@[simp] theorem FRAME.SNAP_ALL_page : FRAME.SNAP_ALL.page = .frame := rfl
@[simp] theorem FRAME.SLOT_ROOT_page : FRAME.SLOT_ROOT.page = .frame := rfl
@[simp] theorem FRAME.SLOT_EXEC_page : FRAME.SLOT_EXEC.page = .frame := rfl
@[simp] theorem FRAME.SLOT_QUOTA_page : FRAME.SLOT_QUOTA.page = .frame := rfl
@[simp] theorem FRAME.SLOT_OVER_page : FRAME.SLOT_OVER.page = .frame := rfl
@[simp] theorem FRAME.OVERRUN_CNT_page : FRAME.OVERRUN_CNT.page = .frame := rfl
@[simp] theorem FRAME.DEFER_CNT_page : FRAME.DEFER_CNT.page = .frame := rfl
@[simp] theorem FRAME.TB_SRC_page : FRAME.TB_SRC.page = .frame := rfl
@[simp] theorem LANE.CTRL_page : LANE.CTRL.page = .lane := rfl
@[simp] theorem LANE.STATUS_FAULT_page : LANE.STATUS_FAULT.page = .lane := rfl
@[simp] theorem LANE.STATUS_SPARE_CAL_page : LANE.STATUS_SPARE_CAL.page = .lane := rfl
@[simp] theorem LANE.STATUS_OVERDRIVE_page : LANE.STATUS_OVERDRIVE.page = .lane := rfl
@[simp] theorem LANE.STATUS_SUSPECT_page : LANE.STATUS_SUSPECT.page = .lane := rfl
@[simp] theorem LANE.STATUS_NO_BASE_page : LANE.STATUS_NO_BASE.page = .lane := rfl
@[simp] theorem LANE.STATUS_FUNC_LOST_page : LANE.STATUS_FUNC_LOST.page = .lane := rfl
@[simp] theorem LANE.MAP_FUNC_page : LANE.MAP_FUNC.page = .lane := rfl
@[simp] theorem LANE.MAP_HOME_page : LANE.MAP_HOME.page = .lane := rfl
@[simp] theorem LANE.MAP_MOVED_page : LANE.MAP_MOVED.page = .lane := rfl
@[simp] theorem LANE.HEALTH_CODE_page : LANE.HEALTH_CODE.page = .lane := rfl
@[simp] theorem LANE.HEALTH_CAL_LEFT_page : LANE.HEALTH_CAL_LEFT.page = .lane := rfl
@[simp] theorem LANE.HEALTH_FAULT_FRN_page : LANE.HEALTH_FAULT_FRN.page = .lane := rfl
@[simp] theorem LANE.CAL_DEV_page : LANE.CAL_DEV.page = .lane := rfl
@[simp] theorem LANE.EDGE_CNT_page : LANE.EDGE_CNT.page = .lane := rfl
@[simp] theorem LANE.SAMPLE0_page : LANE.SAMPLE0.page = .lane := rfl
@[simp] theorem LANE.T0_page : LANE.T0.page = .lane := rfl
@[simp] theorem LANE.CNT_VALID_page : LANE.CNT_VALID.page = .lane := rfl
@[simp] theorem LANE.CNT_NOEDGE_page : LANE.CNT_NOEDGE.page = .lane := rfl
@[simp] theorem LANE.CNT_OVR_page : LANE.CNT_OVR.page = .lane := rfl
@[simp] theorem LANE.IVL_FLAGS_page : LANE.IVL_FLAGS.page = .lane := rfl
@[simp] theorem LANE.OVERRANGE_CNT_page : LANE.OVERRANGE_CNT.page = .lane := rfl
@[simp] theorem LANE.OVERDRIVE_CNT_page : LANE.OVERDRIVE_CNT.page = .lane := rfl
@[simp] theorem LANE.IVL_CNT_page : LANE.IVL_CNT.page = .lane := rfl
@[simp] theorem ROWS.CAP_DESC_page : ROWS.CAP_DESC.page = .rows := rfl
@[simp] theorem ROWS.CAP_WORDS_page : ROWS.CAP_WORDS.page = .rows := rfl
@[simp] theorem ROWS.ROOT_ALLOC_DESC_page : ROWS.ROOT_ALLOC_DESC.page = .rows := rfl
@[simp] theorem ROWS.ROOT_ALLOC_WORDS_page : ROWS.ROOT_ALLOC_WORDS.page = .rows := rfl
@[simp] theorem ROWS.OPEN_CNT_P0_page : ROWS.OPEN_CNT_P0.page = .rows := rfl
@[simp] theorem ROWS.OPEN_CNT_P1_page : ROWS.OPEN_CNT_P1.page = .rows := rfl
@[simp] theorem ROWS.OPEN_CNT_P2_page : ROWS.OPEN_CNT_P2.page = .rows := rfl
@[simp] theorem ROWS.OPEN_CNT_P3_page : ROWS.OPEN_CNT_P3.page = .rows := rfl
@[simp] theorem ROWS.ALLOC_DESC_FIRST_page : ROWS.ALLOC_DESC_FIRST.page = .rows := rfl
@[simp] theorem ROWS.ALLOC_DESC_COUNT_page : ROWS.ALLOC_DESC_COUNT.page = .rows := rfl
@[simp] theorem ROWS.ALLOC_WORD_FIRST_page : ROWS.ALLOC_WORD_FIRST.page = .rows := rfl
@[simp] theorem ROWS.ALLOC_WORD_COUNT_page : ROWS.ALLOC_WORD_COUNT.page = .rows := rfl
@[simp] theorem ROWS.PROG_CTRL_SWAP_page : ROWS.PROG_CTRL_SWAP.page = .rows := rfl
@[simp] theorem ROWS.PROG_CTRL_ACTIVE_page : ROWS.PROG_CTRL_ACTIVE.page = .rows := rfl
@[simp] theorem ROWS.PROG_BASE_page : ROWS.PROG_BASE.page = .rows := rfl
@[simp] theorem ROWS.FAULT_LAST_INDEX_page : ROWS.FAULT_LAST_INDEX.page = .rows := rfl
@[simp] theorem ROWS.FAULT_LAST_CODE_page : ROWS.FAULT_LAST_CODE.page = .rows := rfl
@[simp] theorem ROWS.FAULT_LAST_FRN_page : ROWS.FAULT_LAST_FRN.page = .rows := rfl
@[simp] theorem ROWS.FAULT_CNT_page : ROWS.FAULT_CNT.page = .rows := rfl
@[simp] theorem ROWS.REPLAY_CNT_page : ROWS.REPLAY_CNT.page = .rows := rfl
@[simp] theorem ROWS.INF_CNT_page : ROWS.INF_CNT.page = .rows := rfl
@[simp] theorem ROWS.PROG_WIN_page : ROWS.PROG_WIN.page = .rows := rfl
@[simp] theorem ROWS.DESC_BASE_page : ROWS.DESC_BASE.page = .rows := rfl
@[simp] theorem ROWS.DESC_FMT_page : ROWS.DESC_FMT.page = .rows := rfl
@[simp] theorem ROWS.DESC_OVF_page : ROWS.DESC_OVF.page = .rows := rfl
@[simp] theorem ROWS.DESC_ORNG_page : ROWS.DESC_ORNG.page = .rows := rfl
@[simp] theorem ROWS.DESC_OPEN_page : ROWS.DESC_OPEN.page = .rows := rfl
@[simp] theorem ROWS.DESC_INF_page : ROWS.DESC_INF.page = .rows := rfl
@[simp] theorem ROWS.DESC_CFG_PEND_page : ROWS.DESC_CFG_PEND.page = .rows := rfl
@[simp] theorem ROWS.DESC_EXP_page : ROWS.DESC_EXP.page = .rows := rfl
@[simp] theorem ROWS.DESC_REPLAYS_page : ROWS.DESC_REPLAYS.page = .rows := rfl
@[simp] theorem ROWS.DESC_ST_COUNT_page : ROWS.DESC_ST_COUNT.page = .rows := rfl
@[simp] theorem ROWS.DESC_ST_SHORT_page : ROWS.DESC_ST_SHORT.page = .rows := rfl
@[simp] theorem ROWS.DESC_ST_EXCLUDED_page : ROWS.DESC_ST_EXCLUDED.page = .rows := rfl
@[simp] theorem ROWS.DESC_ST_SPARED_page : ROWS.DESC_ST_SPARED.page = .rows := rfl
@[simp] theorem ROWS.DESC_ST_AUTOCLOSE_page : ROWS.DESC_ST_AUTOCLOSE.page = .rows := rfl
@[simp] theorem HARV.CAP_RECORDS_page : HARV.CAP_RECORDS.page = .harv := rfl
@[simp] theorem HARV.CAP_BYTES_page : HARV.CAP_BYTES.page = .harv := rfl
@[simp] theorem HARV.WR_IDX_page : HARV.WR_IDX.page = .harv := rfl
@[simp] theorem HARV.RD_IDX_page : HARV.RD_IDX.page = .harv := rfl
@[simp] theorem HARV.FILL_FILL_page : HARV.FILL_FILL.page = .harv := rfl
@[simp] theorem HARV.FILL_NEXT_SEQ_page : HARV.FILL_NEXT_SEQ.page = .harv := rfl
@[simp] theorem HARV.WM_page : HARV.WM.page = .harv := rfl
@[simp] theorem HARV.DROP_CNT_page : HARV.DROP_CNT.page = .harv := rfl
@[simp] theorem HARV.STAGE_DROP_CNT_page : HARV.STAGE_DROP_CNT.page = .harv := rfl
@[simp] theorem HARV.REC_CNT_page : HARV.REC_CNT.page = .harv := rfl
@[simp] theorem HARV.LAST_DROP_SEQ_page : HARV.LAST_DROP_SEQ.page = .harv := rfl
@[simp] theorem HARV.LAST_DROP_CAUSE_page : HARV.LAST_DROP_CAUSE.page = .harv := rfl
@[simp] theorem HARV.LAST_DROP_RING_SAT_page : HARV.LAST_DROP_RING_SAT.page = .harv := rfl
@[simp] theorem SEL.CHAN_QL_RANK_page : SEL.CHAN_QL_RANK.page = .sel := rfl
@[simp] theorem SEL.CHAN_QL_SRC_page : SEL.CHAN_QL_SRC.page = .sel := rfl
@[simp] theorem SEL.CHAN_QL_TIMED_OUT_page : SEL.CHAN_QL_TIMED_OUT.page = .sel := rfl
@[simp] theorem SEL.CHAN_QL_SSM_page : SEL.CHAN_QL_SSM.page = .sel := rfl
@[simp] theorem SEL.CHAN_QL_ECODE_page : SEL.CHAN_QL_ECODE.page = .sel := rfl
@[simp] theorem SEL.CHAN_QL_AGE_page : SEL.CHAN_QL_AGE.page = .sel := rfl
@[simp] theorem SEL.CHAN_TEST_FAIL_page : SEL.CHAN_TEST_FAIL.page = .sel := rfl
@[simp] theorem SEL.CHAN_TEST_WINDOWS_page : SEL.CHAN_TEST_WINDOWS.page = .sel := rfl
@[simp] theorem SEL.CHAN_FREQ_page : SEL.CHAN_FREQ.page = .sel := rfl
@[simp] theorem SEL.CHAN_DEV_STEP_page : SEL.CHAN_DEV_STEP.page = .sel := rfl
@[simp] theorem SEL.CHAN_DEV_WANDER_page : SEL.CHAN_DEV_WANDER.page = .sel := rfl
@[simp] theorem SEL.ESMC_BAD_CNT0_page : SEL.ESMC_BAD_CNT0.page = .sel := rfl
@[simp] theorem SEL.ESMC_BAD_CNT1_page : SEL.ESMC_BAD_CNT1.page = .sel := rfl
@[simp] theorem SEL.QL_CHG_CNT_page : SEL.QL_CHG_CNT.page = .sel := rfl
@[simp] theorem SEL.DPOL_REVERTIVE_page : SEL.DPOL_REVERTIVE.page = .sel := rfl
@[simp] theorem SEL.DPOL_SWITCH_page : SEL.DPOL_SWITCH.page = .sel := rfl
@[simp] theorem SEL.DPOL_HOLD_RANK_page : SEL.DPOL_HOLD_RANK.page = .sel := rfl
@[simp] theorem SEL.DPOL_FREE_RANK_page : SEL.DPOL_FREE_RANK.page = .sel := rfl
@[simp] theorem SEL.DPOL_LOST_RANK_page : SEL.DPOL_LOST_RANK.page = .sel := rfl
@[simp] theorem SEL.CAND_page : SEL.CAND.page = .sel := rfl
@[simp] theorem SEL.ACTIVE_CHAN_page : SEL.ACTIVE_CHAN.page = .sel := rfl
@[simp] theorem SEL.ACTIVE_RANK_page : SEL.ACTIVE_RANK.page = .sel := rfl
@[simp] theorem SEL.ACTIVE_SLEWING_page : SEL.ACTIVE_SLEWING.page = .sel := rfl
@[simp] theorem SEL.ACTIVE_FROM_page : SEL.ACTIVE_FROM.page = .sel := rfl
@[simp] theorem SEL.ACTIVE_CLOCK_RANK_page : SEL.ACTIVE_CLOCK_RANK.page = .sel := rfl
@[simp] theorem SEL.ACTIVE_FRN_page : SEL.ACTIVE_FRN.page = .sel := rfl
@[simp] theorem SEL.VERDICT_LO_page : SEL.VERDICT_LO.page = .sel := rfl
@[simp] theorem SEL.VERDICT_HI_page : SEL.VERDICT_HI.page = .sel := rfl
@[simp] theorem SEL.RANK_LO_page : SEL.RANK_LO.page = .sel := rfl
@[simp] theorem SEL.RANK_HI_page : SEL.RANK_HI.page = .sel := rfl
@[simp] theorem SEL.SLEW_LEFT_page : SEL.SLEW_LEFT.page = .sel := rfl
@[simp] theorem SEL.SWITCH_CNT_page : SEL.SWITCH_CNT.page = .sel := rfl
@[simp] theorem SEL.DISQ_CNT_page : SEL.DISQ_CNT.page = .sel := rfl
@[simp] theorem SEL.TIMER_LEFT_page : SEL.TIMER_LEFT.page = .sel := rfl
@[simp] theorem SEL.TIMER_KIND_page : SEL.TIMER_KIND.page = .sel := rfl
@[simp] theorem DPLL.STATUS_STATE_page : DPLL.STATUS_STATE.page = .dpll := rfl
@[simp] theorem DPLL.STATUS_WARMUP_page : DPLL.STATUS_WARMUP.page = .dpll := rfl
@[simp] theorem DPLL.STATUS_BRIDGING_page : DPLL.STATUS_BRIDGING.page = .dpll := rfl
@[simp] theorem DPLL.STATUS_HIST_SHORT_page : DPLL.STATUS_HIST_SHORT.page = .dpll := rfl
@[simp] theorem DPLL.STATUS_FB_LOST_page : DPLL.STATUS_FB_LOST.page = .dpll := rfl
@[simp] theorem DPLL.STATUS_BW_CLAMP_page : DPLL.STATUS_BW_CLAMP.page = .dpll := rfl
@[simp] theorem DPLL.STATUS_PULL_CLAMP_page : DPLL.STATUS_PULL_CLAMP.page = .dpll := rfl
@[simp] theorem DPLL.STATUS_CFG_PEND_page : DPLL.STATUS_CFG_PEND.page = .dpll := rfl
@[simp] theorem DPLL.MODE_page : DPLL.MODE.page = .dpll := rfl
@[simp] theorem DPLL.BW_page : DPLL.BW.page = .dpll := rfl
@[simp] theorem DPLL.DAMP_page : DPLL.DAMP.page = .dpll := rfl
@[simp] theorem DPLL.SLOPE_page : DPLL.SLOPE.page = .dpll := rfl
@[simp] theorem DPLL.PULL_page : DPLL.PULL.page = .dpll := rfl
@[simp] theorem DPLL.LOCK_LOCK_WIN_page : DPLL.LOCK_LOCK_WIN.page = .dpll := rfl
@[simp] theorem DPLL.LOCK_LOCK_S_page : DPLL.LOCK_LOCK_S.page = .dpll := rfl
@[simp] theorem DPLL.OFFSET_page : DPLL.OFFSET.page = .dpll := rfl
@[simp] theorem DPLL.HOLD_CFG_SEG_S_page : DPLL.HOLD_CFG_SEG_S.page = .dpll := rfl
@[simp] theorem DPLL.HOLD_CFG_HIST_LEN_page : DPLL.HOLD_CFG_HIST_LEN.page = .dpll := rfl
@[simp] theorem DPLL.HOLD_CFG_EXCL_S_page : DPLL.HOLD_CFG_EXCL_S.page = .dpll := rfl
@[simp] theorem DPLL.F0_FLOOR_page : DPLL.F0_FLOOR.page = .dpll := rfl
@[simp] theorem DPLL.F0_SHORT_page : DPLL.F0_SHORT.page = .dpll := rfl
@[simp] theorem DPLL.BUDGET_page : DPLL.BUDGET.page = .dpll := rfl
@[simp] theorem DPLL.AGEING_page : DPLL.AGEING.page = .dpll := rfl
@[simp] theorem DPLL.PHASE_ERR_page : DPLL.PHASE_ERR.page = .dpll := rfl
@[simp] theorem DPLL.STEER_LO_page : DPLL.STEER_LO.page = .dpll := rfl
@[simp] theorem DPLL.STEER_HI_page : DPLL.STEER_HI.page = .dpll := rfl
@[simp] theorem DPLL.KP_page : DPLL.KP.page = .dpll := rfl
@[simp] theorem DPLL.KI_LO_page : DPLL.KI_LO.page = .dpll := rfl
@[simp] theorem DPLL.KI_HI_page : DPLL.KI_HI.page = .dpll := rfl
@[simp] theorem DPLL.BW_EFF_page : DPLL.BW_EFF.page = .dpll := rfl
@[simp] theorem DPLL.HOLD_FREQ_LO_page : DPLL.HOLD_FREQ_LO.page = .dpll := rfl
@[simp] theorem DPLL.HOLD_FREQ_HI_page : DPLL.HOLD_FREQ_HI.page = .dpll := rfl
@[simp] theorem DPLL.HOLD_F0_page : DPLL.HOLD_F0.page = .dpll := rfl
@[simp] theorem DPLL.HOLD_A0_page : DPLL.HOLD_A0.page = .dpll := rfl
@[simp] theorem DPLL.ENTRY_FRN_page : DPLL.ENTRY_FRN.page = .dpll := rfl
@[simp] theorem DPLL.DUSK_LEFT_page : DPLL.DUSK_LEFT.page = .dpll := rfl
@[simp] theorem DPLL.DUSK_BOUND_page : DPLL.DUSK_BOUND.page = .dpll := rfl
@[simp] theorem DPLL.HIST_SEGS_page : DPLL.HIST_SEGS.page = .dpll := rfl
@[simp] theorem DPLL.HIST_ELIGIBLE_page : DPLL.HIST_ELIGIBLE.page = .dpll := rfl
@[simp] theorem DPLL.STATE_FRN_page : DPLL.STATE_FRN.page = .dpll := rfl
@[simp] theorem DPLL.HOLD_CNT_page : DPLL.HOLD_CNT.page = .dpll := rfl
@[simp] theorem DPLL.UNLOCK_CNT_page : DPLL.UNLOCK_CNT.page = .dpll := rfl
@[simp] theorem DPLL.BRIDGE_CNT_page : DPLL.BRIDGE_CNT.page = .dpll := rfl
@[simp] theorem APLL.CTRL_page : APLL.CTRL.page = .apll := rfl
@[simp] theorem APLL.STATUS_LOCK_page : APLL.STATUS_LOCK.page = .apll := rfl
@[simp] theorem APLL.STATUS_COAST_page : APLL.STATUS_COAST.page = .apll := rfl
@[simp] theorem APLL.STATUS_REF_LOST_page : APLL.STATUS_REF_LOST.page = .apll := rfl
@[simp] theorem APLL.STATUS_RETUNE_page : APLL.STATUS_RETUNE.page = .apll := rfl
@[simp] theorem APLL.STATUS_EPOCH_PEND_page : APLL.STATUS_EPOCH_PEND.page = .apll := rfl
@[simp] theorem APLL.CFG_REFSEL_page : APLL.CFG_REFSEL.page = .apll := rfl
@[simp] theorem APLL.CFG_APPLY_page : APLL.CFG_APPLY.page = .apll := rfl
@[simp] theorem APLL.RATIO_LO_page : APLL.RATIO_LO.page = .apll := rfl
@[simp] theorem APLL.RATIO_HI_page : APLL.RATIO_HI.page = .apll := rfl
@[simp] theorem APLL.VCO_KHZ_page : APLL.VCO_KHZ.page = .apll := rfl
@[simp] theorem APLL.BOUNDARY_page : APLL.BOUNDARY.page = .apll := rfl
@[simp] theorem APLL.EPOCH_FRN_page : APLL.EPOCH_FRN.page = .apll := rfl
@[simp] theorem APLL.LOL_CNT_page : APLL.LOL_CNT.page = .apll := rfl
@[simp] theorem OUT.CTRL_page : OUT.CTRL.page = .out := rfl
@[simp] theorem OUT.STATUS_RUN_page : OUT.STATUS_RUN.page = .out := rfl
@[simp] theorem OUT.STATUS_DLL_LOCK_page : OUT.STATUS_DLL_LOCK.page = .out := rfl
@[simp] theorem OUT.STATUS_DLL_COAST_page : OUT.STATUS_DLL_COAST.page = .out := rfl
@[simp] theorem OUT.STATUS_FMT_PEND_page : OUT.STATUS_FMT_PEND.page = .out := rfl
@[simp] theorem OUT.SRC_page : OUT.SRC.page = .out := rfl
@[simp] theorem OUT.FORMAT_FMT_page : OUT.FORMAT_FMT.page = .out := rfl
@[simp] theorem OUT.FORMAT_P_SEL_page : OUT.FORMAT_P_SEL.page = .out := rfl
@[simp] theorem OUT.FORMAT_N_SEL_page : OUT.FORMAT_N_SEL.page = .out := rfl
@[simp] theorem OUT.FORMAT_BANK_V_page : OUT.FORMAT_BANK_V.page = .out := rfl
@[simp] theorem OUT.MODE_PULSE_page : OUT.MODE_PULSE.page = .out := rfl
@[simp] theorem OUT.MODE_SQUELCH_LOST_page : OUT.MODE_SQUELCH_LOST.page = .out := rfl
@[simp] theorem OUT.DIV_page : OUT.DIV.page = .out := rfl
@[simp] theorem OUT.DELAY_page : OUT.DELAY.page = .out := rfl
@[simp] theorem OUT.COARSE_page : OUT.COARSE.page = .out := rfl
@[simp] theorem OUT.PULSE_PER_page : OUT.PULSE_PER.page = .out := rfl
@[simp] theorem OUT.PER_NS_page : OUT.PER_NS.page = .out := rfl
@[simp] theorem OUT.WIDTH_NS_page : OUT.WIDTH_NS.page = .out := rfl
@[simp] theorem OUT.PALIGN_CHAN_page : OUT.PALIGN_CHAN.page = .out := rfl
@[simp] theorem OUT.PALIGN_EN_page : OUT.PALIGN_EN.page = .out := rfl
@[simp] theorem OUT.PALIGN_OFS_LO_page : OUT.PALIGN_OFS_LO.page = .out := rfl
@[simp] theorem OUT.PALIGN_OFS_HI_page : OUT.PALIGN_OFS_HI.page = .out := rfl
@[simp] theorem OUT.ENABLE_FRN_page : OUT.ENABLE_FRN.page = .out := rfl
@[simp] theorem OUT.SQUELCH_CNT_page : OUT.SQUELCH_CNT.page = .out := rfl
@[simp] theorem TIME.CTRL_SET_ABS_page : TIME.CTRL_SET_ABS.page = .time := rfl
@[simp] theorem TIME.CTRL_SET_REL_page : TIME.CTRL_SET_REL.page = .time := rfl
@[simp] theorem TIME.STATUS_TIME_SET_page : TIME.STATUS_TIME_SET.page = .time := rfl
@[simp] theorem TIME.STATUS_STEPPED_page : TIME.STATUS_STEPPED.page = .time := rfl
@[simp] theorem TIME.STATUS_T_SLEWING_page : TIME.STATUS_T_SLEWING.page = .time := rfl
@[simp] theorem TIME.STATUS_TOD_MISMATCH_page : TIME.STATUS_TOD_MISMATCH.page = .time := rfl
@[simp] theorem TIME.NOW_NS_page : TIME.NOW_NS.page = .time := rfl
@[simp] theorem TIME.NOW_SEC_LO_page : TIME.NOW_SEC_LO.page = .time := rfl
@[simp] theorem TIME.NOW_SEC_HI_page : TIME.NOW_SEC_HI.page = .time := rfl
@[simp] theorem TIME.NOW_FRAC_page : TIME.NOW_FRAC.page = .time := rfl
@[simp] theorem TIME.TICK_SEC_LO_page : TIME.TICK_SEC_LO.page = .time := rfl
@[simp] theorem TIME.TICK_SEC_HI_page : TIME.TICK_SEC_HI.page = .time := rfl
@[simp] theorem TIME.TICK_NS_page : TIME.TICK_NS.page = .time := rfl
@[simp] theorem TIME.TICK_FRAC_page : TIME.TICK_FRAC.page = .time := rfl
@[simp] theorem TIME.SET_SEC_LO_page : TIME.SET_SEC_LO.page = .time := rfl
@[simp] theorem TIME.SET_SEC_HI_page : TIME.SET_SEC_HI.page = .time := rfl
@[simp] theorem TIME.SET_NS_page : TIME.SET_NS.page = .time := rfl
@[simp] theorem TIME.SET_FRAC_page : TIME.SET_FRAC.page = .time := rfl
@[simp] theorem TIME.STEP_CFG_THRESH_page : TIME.STEP_CFG_THRESH.page = .time := rfl
@[simp] theorem TIME.STEP_CFG_NO_BACKSTEP_page : TIME.STEP_CFG_NO_BACKSTEP.page = .time := rfl
@[simp] theorem TIME.STEP_LIM_MAX_HR_page : TIME.STEP_LIM_MAX_HR.page = .time := rfl
@[simp] theorem TIME.STEP_LIM_DONE_HR_page : TIME.STEP_LIM_DONE_HR.page = .time := rfl
@[simp] theorem TIME.STEP_LIM_LAST_SRC_page : TIME.STEP_LIM_LAST_SRC.page = .time := rfl
@[simp] theorem TIME.STEP_LIM_LAST_REFUSE_page : TIME.STEP_LIM_LAST_REFUSE.page = .time := rfl
@[simp] theorem TIME.LAST_STEP_LO_page : TIME.LAST_STEP_LO.page = .time := rfl
@[simp] theorem TIME.LAST_STEP_HI_page : TIME.LAST_STEP_HI.page = .time := rfl
@[simp] theorem TIME.LAST_STEP_FRN_page : TIME.LAST_STEP_FRN.page = .time := rfl
@[simp] theorem TIME.T_SLEW_LEFT_page : TIME.T_SLEW_LEFT.page = .time := rfl
@[simp] theorem TIME.UTC_OFS_page : TIME.UTC_OFS.page = .time := rfl
@[simp] theorem TIME.UTC_VALID_page : TIME.UTC_VALID.page = .time := rfl
@[simp] theorem TIME.UTC_LEAP61_page : TIME.UTC_LEAP61.page = .time := rfl
@[simp] theorem TIME.UTC_LEAP59_page : TIME.UTC_LEAP59.page = .time := rfl
@[simp] theorem TIME.TOD_CFG_CONN_page : TIME.TOD_CFG_CONN.page = .time := rfl
@[simp] theorem TIME.TOD_CFG_BAUD_page : TIME.TOD_CFG_BAUD.page = .time := rfl
@[simp] theorem TIME.TOD_CFG_TX_EN_page : TIME.TOD_CFG_TX_EN.page = .time := rfl
@[simp] theorem TIME.TOD_CFG_RX_EN_page : TIME.TOD_CFG_RX_EN.page = .time := rfl
@[simp] theorem TIME.TOD_CFG_TX_DELAY_page : TIME.TOD_CFG_TX_DELAY.page = .time := rfl
@[simp] theorem TIME.TOD_STAT_TX_SEQ_page : TIME.TOD_STAT_TX_SEQ.page = .time := rfl
@[simp] theorem TIME.TOD_STAT_MISMATCH_page : TIME.TOD_STAT_MISMATCH.page = .time := rfl
@[simp] theorem TIME.TOD_STAT_MATCH_RUN_page : TIME.TOD_STAT_MATCH_RUN.page = .time := rfl
@[simp] theorem TIME.STEP_CNT_page : TIME.STEP_CNT.page = .time := rfl
@[simp] theorem TIME.NMEA_OK_CNT_page : TIME.NMEA_OK_CNT.page = .time := rfl
@[simp] theorem TIME.NMEA_BAD_CNT_page : TIME.NMEA_BAD_CNT.page = .time := rfl
@[simp] theorem TIME.NMEA_PHASE_CNT_page : TIME.NMEA_PHASE_CNT.page = .time := rfl
@[simp] theorem TIME.TRIG_SEC_LO_page : TIME.TRIG_SEC_LO.page = .time := rfl
@[simp] theorem TIME.TRIG_SEC_HI_page : TIME.TRIG_SEC_HI.page = .time := rfl
@[simp] theorem TIME.TRIG_NS_page : TIME.TRIG_NS.page = .time := rfl
@[simp] theorem TIME.TRIG_PER_page : TIME.TRIG_PER.page = .time := rfl
@[simp] theorem TIME.TRIG_CTRL_ARM_page : TIME.TRIG_CTRL_ARM.page = .time := rfl
@[simp] theorem TIME.TRIG_CTRL_DISARM_page : TIME.TRIG_CTRL_DISARM.page = .time := rfl
@[simp] theorem TIME.TRIG_CTRL_LATE_OK_page : TIME.TRIG_CTRL_LATE_OK.page = .time := rfl
@[simp] theorem TIME.TRIG_CTRL_ACTION_page : TIME.TRIG_CTRL_ACTION.page = .time := rfl
@[simp] theorem TIME.TRIG_CTRL_TARGET_page : TIME.TRIG_CTRL_TARGET.page = .time := rfl
@[simp] theorem TIME.TRIG_STAT_STATE_page : TIME.TRIG_STAT_STATE.page = .time := rfl
@[simp] theorem TIME.TRIG_STAT_CAUSE_page : TIME.TRIG_STAT_CAUSE.page = .time := rfl
@[simp] theorem TIME.TRIG_STAT_LATE_page : TIME.TRIG_STAT_LATE.page = .time := rfl
@[simp] theorem TIME.TRIG_STAT_JUMPED_page : TIME.TRIG_STAT_JUMPED.page = .time := rfl
@[simp] theorem TIME.TRIG_FIRED_SEC_LO_page : TIME.TRIG_FIRED_SEC_LO.page = .time := rfl
@[simp] theorem TIME.TRIG_FIRED_SEC_HI_page : TIME.TRIG_FIRED_SEC_HI.page = .time := rfl
@[simp] theorem TIME.TRIG_FIRED_NS_page : TIME.TRIG_FIRED_NS.page = .time := rfl
@[simp] theorem TIME.TRIG_FIRED_FRAC_page : TIME.TRIG_FIRED_FRAC.page = .time := rfl
@[simp] theorem TIME.TRIG_FIRED_FRN_page : TIME.TRIG_FIRED_FRN.page = .time := rfl
@[simp] theorem TIME.TRIG_IVL_RESULT_CODE_page : TIME.TRIG_IVL_RESULT_CODE.page = .time := rfl
@[simp] theorem TIME.TRIG_IVL_RESULT_FLAGS_page : TIME.TRIG_IVL_RESULT_FLAGS.page = .time := rfl
@[simp] theorem TIME.TRIG_SKIPPED_page : TIME.TRIG_SKIPPED.page = .time := rfl
@[simp] theorem TIME.CAP_CTRL_ARM_page : TIME.CAP_CTRL_ARM.page = .time := rfl
@[simp] theorem TIME.CAP_CTRL_CANCEL_page : TIME.CAP_CTRL_CANCEL.page = .time := rfl
@[simp] theorem TIME.CAP_CTRL_SRC_page : TIME.CAP_CTRL_SRC.page = .time := rfl
@[simp] theorem TIME.CAP_STAT_STATE_page : TIME.CAP_STAT_STATE.page = .time := rfl
@[simp] theorem TIME.CAP_STAT_STEPPED_page : TIME.CAP_STAT_STEPPED.page = .time := rfl
@[simp] theorem TIME.CAP_STAT_CAUSE_page : TIME.CAP_STAT_CAUSE.page = .time := rfl
@[simp] theorem TIME.CAP_STAT_SKIP_page : TIME.CAP_STAT_SKIP.page = .time := rfl
@[simp] theorem TIME.CAP_SEC_LO_page : TIME.CAP_SEC_LO.page = .time := rfl
@[simp] theorem TIME.CAP_SEC_HI_page : TIME.CAP_SEC_HI.page = .time := rfl
@[simp] theorem TIME.CAP_NS_page : TIME.CAP_NS.page = .time := rfl
@[simp] theorem TIME.CAP_FRAC_page : TIME.CAP_FRAC.page = .time := rfl
@[simp] theorem TIME.CAP_FRN_page : TIME.CAP_FRN.page = .time := rfl
@[simp] theorem ETH.CTRL_ENABLE_page : ETH.CTRL_ENABLE.page = .eth := rfl
@[simp] theorem ETH.CTRL_RESTART_AN_page : ETH.CTRL_RESTART_AN.page = .eth := rfl
@[simp] theorem ETH.STATUS_LINK_page : ETH.STATUS_LINK.page = .eth := rfl
@[simp] theorem ETH.STATUS_PCS_LOCK_page : ETH.STATUS_PCS_LOCK.page = .eth := rfl
@[simp] theorem ETH.STATUS_TS_VALID_page : ETH.STATUS_TS_VALID.page = .eth := rfl
@[simp] theorem ETH.STATUS_CAL_DEFAULT_page : ETH.STATUS_CAL_DEFAULT.page = .eth := rfl
@[simp] theorem ETH.STATUS_SPEED_BAD_page : ETH.STATUS_SPEED_BAD.page = .eth := rfl
@[simp] theorem ETH.STATUS_TXCLK_FB_page : ETH.STATUS_TXCLK_FB.page = .eth := rfl
@[simp] theorem ETH.MODE_MODE_page : ETH.MODE_MODE.page = .eth := rfl
@[simp] theorem ETH.MODE_AN_page : ETH.MODE_AN.page = .eth := rfl
@[simp] theorem ETH.MAC_LO_page : ETH.MAC_LO.page = .eth := rfl
@[simp] theorem ETH.MAC_HI_page : ETH.MAC_HI.page = .eth := rfl
@[simp] theorem ETH.TXCLK_SRC_page : ETH.TXCLK_SRC.page = .eth := rfl
@[simp] theorem ETH.TXCLK_DIV_page : ETH.TXCLK_DIV.page = .eth := rfl
@[simp] theorem ETH.BOARD_RX_page : ETH.BOARD_RX.page = .eth := rfl
@[simp] theorem ETH.BOARD_TX_page : ETH.BOARD_TX.page = .eth := rfl
@[simp] theorem ETH.CAL_RX_page : ETH.CAL_RX.page = .eth := rfl
@[simp] theorem ETH.CAL_TX_page : ETH.CAL_TX.page = .eth := rfl
@[simp] theorem ETH.ESMC_CFG_TX_EN_page : ETH.ESMC_CFG_TX_EN.page = .eth := rfl
@[simp] theorem ETH.ESMC_CFG_ETLV_page : ETH.ESMC_CFG_ETLV.page = .eth := rfl
@[simp] theorem ETH.ESMC_CFG_DOM_page : ETH.ESMC_CFG_DOM.page = .eth := rfl
@[simp] theorem ETH.ESMC_TX_SSM_page : ETH.ESMC_TX_SSM.page = .eth := rfl
@[simp] theorem ETH.ESMC_TX_ECODE_page : ETH.ESMC_TX_ECODE.page = .eth := rfl
@[simp] theorem ETH.RX_CNT_page : ETH.RX_CNT.page = .eth := rfl
@[simp] theorem ETH.TX_CNT_page : ETH.TX_CNT.page = .eth := rfl
@[simp] theorem ETH.LINK_CNT_page : ETH.LINK_CNT.page = .eth := rfl
@[simp] theorem ETH.DROP_CNT_page : ETH.DROP_CNT.page = .eth := rfl
@[simp] theorem PTPTS.RX_TS_CNT_page : PTPTS.RX_TS_CNT.page = .ptpts := rfl
@[simp] theorem PTPTS.TX_TS_CNT_page : PTPTS.TX_TS_CNT.page = .ptpts := rfl
@[simp] theorem PTPTS.INVALID_CNT_page : PTPTS.INVALID_CNT.page = .ptpts := rfl
@[simp] theorem PTPTS.FIFO_OVF_CNT_page : PTPTS.FIFO_OVF_CNT.page = .ptpts := rfl
@[simp] theorem PTPTS.CFG_EN_page : PTPTS.CFG_EN.page = .ptpts := rfl
@[simp] theorem PTPTS.CFG_ROLE_page : PTPTS.CFG_ROLE.page = .ptpts := rfl
@[simp] theorem PTPTS.CFG_PROFILE_page : PTPTS.CFG_PROFILE.page = .ptpts := rfl
@[simp] theorem PTPTS.CFG_TRANSPORT_page : PTPTS.CFG_TRANSPORT.page = .ptpts := rfl
@[simp] theorem PTPTS.CFG_FEED_page : PTPTS.CFG_FEED.page = .ptpts := rfl
@[simp] theorem PTPTS.CFG_DOMAIN_page : PTPTS.CFG_DOMAIN.page = .ptpts := rfl
@[simp] theorem PTPTS.STATE_PORT_page : PTPTS.STATE_PORT.page = .ptpts := rfl
@[simp] theorem PTPTS.STATE_CLOSED_page : PTPTS.STATE_CLOSED.page = .ptpts := rfl
@[simp] theorem PTPTS.STATE_CAUSE_page : PTPTS.STATE_CAUSE.page = .ptpts := rfl
@[simp] theorem PTPTS.RATES_LOG_SYNC_page : PTPTS.RATES_LOG_SYNC.page = .ptpts := rfl
@[simp] theorem PTPTS.RATES_LOG_DELAY_page : PTPTS.RATES_LOG_DELAY.page = .ptpts := rfl
@[simp] theorem PTPTS.RATES_LOG_ANN_page : PTPTS.RATES_LOG_ANN.page = .ptpts := rfl
@[simp] theorem PTPTS.RATES_ANN_TMO_page : PTPTS.RATES_ANN_TMO.page = .ptpts := rfl
@[simp] theorem PTPTS.PARENT_LO_page : PTPTS.PARENT_LO.page = .ptpts := rfl
@[simp] theorem PTPTS.PARENT_HI_page : PTPTS.PARENT_HI.page = .ptpts := rfl
@[simp] theorem PTPTS.GM_CLASS_page : PTPTS.GM_CLASS.page = .ptpts := rfl
@[simp] theorem PTPTS.GM_STEPS_page : PTPTS.GM_STEPS.page = .ptpts := rfl
@[simp] theorem PTPTS.MPD_page : PTPTS.MPD.page = .ptpts := rfl
@[simp] theorem PTPTS.OFFSET_page : PTPTS.OFFSET.page = .ptpts := rfl
@[simp] theorem PTPTS.RX_SYNC_CNT_page : PTPTS.RX_SYNC_CNT.page = .ptpts := rfl
@[simp] theorem PTPTS.TX_SYNC_CNT_page : PTPTS.TX_SYNC_CNT.page = .ptpts := rfl
@[simp] theorem PTPTS.UNKNOWN_CNT_page : PTPTS.UNKNOWN_CNT.page = .ptpts := rfl
@[simp] theorem PTPTS.BAD_CNT_page : PTPTS.BAD_CNT.page = .ptpts := rfl
@[simp] theorem PTPTS.GRANTS_SLAVES_page : PTPTS.GRANTS_SLAVES.page = .ptpts := rfl
@[simp] theorem PTPTS.GRANTS_RATE_page : PTPTS.GRANTS_RATE.page = .ptpts := rfl
@[simp] theorem PTPTS.CLOSE_CNT_page : PTPTS.CLOSE_CNT.page = .ptpts := rfl
@[simp] theorem PTPTS.EST_CNT_page : PTPTS.EST_CNT.page = .ptpts := rfl
@[simp] theorem PTPTS.ASYM_page : PTPTS.ASYM.page = .ptpts := rfl
@[simp] theorem PTPTS.AMT_LO_page : PTPTS.AMT_LO.page = .ptpts := rfl
@[simp] theorem PTPTS.AMT_HI_page : PTPTS.AMT_HI.page = .ptpts := rfl
@[simp] theorem SHELF.STATUS_FC_page : SHELF.STATUS_FC.page = .shelf := rfl
@[simp] theorem SHELF.STATUS_NODE_CLASH_page : SHELF.STATUS_NODE_CLASH.page = .shelf := rfl
@[simp] theorem SHELF.STATUS_ROLE_page : SHELF.STATUS_ROLE.page = .shelf := rfl
@[simp] theorem SHELF.STATUS_SILENT_page : SHELF.STATUS_SILENT.page = .shelf := rfl
@[simp] theorem SHELF.STATUS_DERIVED_page : SHELF.STATUS_DERIVED.page = .shelf := rfl
@[simp] theorem SHELF.CFG_NODE_BASE_page : SHELF.CFG_NODE_BASE.page = .shelf := rfl
@[simp] theorem SHELF.CFG_NOM_RATE_page : SHELF.CFG_NOM_RATE.page = .shelf := rfl
@[simp] theorem SHELF.CFG_DATA_RATE_page : SHELF.CFG_DATA_RATE.page = .shelf := rfl
@[simp] theorem SHELF.CFG_EN_page : SHELF.CFG_EN.page = .shelf := rfl
@[simp] theorem SHELF.CFG_ELECT_EN_page : SHELF.CFG_ELECT_EN.page = .shelf := rfl
@[simp] theorem SHELF.CFG_REMOTE_EN_page : SHELF.CFG_REMOTE_EN.page = .shelf := rfl
@[simp] theorem SHELF.CFG_GROUP_page : SHELF.CFG_GROUP.page = .shelf := rfl
@[simp] theorem SHELF.NODE_page : SHELF.NODE.page = .shelf := rfl
@[simp] theorem SHELF.ROSTER_page : SHELF.ROSTER.page = .shelf := rfl
@[simp] theorem SHELF.STBY_SQUELCH_page : SHELF.STBY_SQUELCH.page = .shelf := rfl
@[simp] theorem SHELF.TX_CFG_QLF_EN_page : SHELF.TX_CFG_QLF_EN.page = .shelf := rfl
@[simp] theorem SHELF.TX_CFG_QLF_DOM_page : SHELF.TX_CFG_QLF_DOM.page = .shelf := rfl
@[simp] theorem SHELF.TX_CFG_TOD_EN_page : SHELF.TX_CFG_TOD_EN.page = .shelf := rfl
@[simp] theorem SHELF.TX_CFG_TOD_DOM_page : SHELF.TX_CFG_TOD_DOM.page = .shelf := rfl
@[simp] theorem SHELF.TX_CFG_ALERT_MASK_page : SHELF.TX_CFG_ALERT_MASK.page = .shelf := rfl
@[simp] theorem SHELF.PEERS_page : SHELF.PEERS.page = .shelf := rfl
@[simp] theorem SHELF.ACTIVE_NODE_ID_page : SHELF.ACTIVE_NODE_ID.page = .shelf := rfl
@[simp] theorem SHELF.ACTIVE_NODE_NONE_page : SHELF.ACTIVE_NODE_NONE.page = .shelf := rfl
@[simp] theorem SHELF.ROLE_FRN_page : SHELF.ROLE_FRN.page = .shelf := rfl
@[simp] theorem SHELF.TEC_REC_TEC_page : SHELF.TEC_REC_TEC.page = .shelf := rfl
@[simp] theorem SHELF.TEC_REC_REC_page : SHELF.TEC_REC_REC.page = .shelf := rfl
@[simp] theorem SHELF.PEER_TOD_DIFF_page : SHELF.PEER_TOD_DIFF.page = .shelf := rfl
@[simp] theorem SHELF.PEER_TOD_VALID_page : SHELF.PEER_TOD_VALID.page = .shelf := rfl
@[simp] theorem SHELF.RX_CNT_page : SHELF.RX_CNT.page = .shelf := rfl
@[simp] theorem SHELF.TX_CNT_page : SHELF.TX_CNT.page = .shelf := rfl
@[simp] theorem SHELF.UNKNOWN_CNT_page : SHELF.UNKNOWN_CNT.page = .shelf := rfl
@[simp] theorem SHELF.STRANGER_CNT_page : SHELF.STRANGER_CNT.page = .shelf := rfl
@[simp] theorem SHELF.ERR_CNT_page : SHELF.ERR_CNT.page = .shelf := rfl
@[simp] theorem SHELF.BUSOFF_CNT_page : SHELF.BUSOFF_CNT.page = .shelf := rfl
@[simp] theorem SHELF.CANCEL_LATE_CNT_page : SHELF.CANCEL_LATE_CNT.page = .shelf := rfl
@[simp] theorem SHELF.REMOTE_CNT_page : SHELF.REMOTE_CNT.page = .shelf := rfl
@[simp] theorem SHELF.REMOTE_DENIED_CNT_page : SHELF.REMOTE_DENIED_CNT.page = .shelf := rfl
@[simp] theorem ROOT.CTRL_VERIFY_page : ROOT.CTRL_VERIFY.page = .root := rfl
@[simp] theorem ROOT.CTRL_COMMIT_page : ROOT.CTRL_COMMIT.page = .root := rfl
@[simp] theorem ROOT.CTRL_ABORT_page : ROOT.CTRL_ABORT.page = .root := rfl
@[simp] theorem ROOT.CTRL_IMAGE_LOAD_page : ROOT.CTRL_IMAGE_LOAD.page = .root := rfl
@[simp] theorem ROOT.CTRL_IMAGE_ACTIVATE_page : ROOT.CTRL_IMAGE_ACTIVATE.page = .root := rfl
@[simp] theorem ROOT.CTRL_IMAGE_CANCEL_page : ROOT.CTRL_IMAGE_CANCEL.page = .root := rfl
@[simp] theorem ROOT.CTRL_LEAF_RESTART_page : ROOT.CTRL_LEAF_RESTART.page = .root := rfl
@[simp] theorem ROOT.STATUS_PSTATE_page : ROOT.STATUS_PSTATE.page = .root := rfl
@[simp] theorem ROOT.STATUS_LEAF_page : ROOT.STATUS_LEAF.page = .root := rfl
@[simp] theorem ROOT.STATUS_ROM_PROFILE_page : ROOT.STATUS_ROM_PROFILE.page = .root := rfl
@[simp] theorem ROOT.STATUS_KEY_ENROLLED_page : ROOT.STATUS_KEY_ENROLLED.page = .root := rfl
@[simp] theorem ROOT.STATUS_COMMIT_PEND_page : ROOT.STATUS_COMMIT_PEND.page = .root := rfl
@[simp] theorem ROOT.POL_GEN_page : ROOT.POL_GEN.page = .root := rfl
@[simp] theorem ROOT.STAGE_GEN_page : ROOT.STAGE_GEN.page = .root := rfl
@[simp] theorem ROOT.COMMIT_FRN_page : ROOT.COMMIT_FRN.page = .root := rfl
@[simp] theorem ROOT.REFUSE_CODE_page : ROOT.REFUSE_CODE.page = .root := rfl
@[simp] theorem ROOT.REFUSE_OFFSET_page : ROOT.REFUSE_OFFSET.page = .root := rfl
@[simp] theorem ROOT.KEY_FPR_page : ROOT.KEY_FPR.page = .root := rfl
@[simp] theorem ROOT.LEAF_VER_page : ROOT.LEAF_VER.page = .root := rfl
@[simp] theorem ROOT.LEAF_EPOCH_page : ROOT.LEAF_EPOCH.page = .root := rfl
@[simp] theorem ROOT.LEAF_RESTART_CNT_page : ROOT.LEAF_RESTART_CNT.page = .root := rfl
@[simp] theorem ROOT.LEAF_LAST_CAUSE_page : ROOT.LEAF_LAST_CAUSE.page = .root := rfl
@[simp] theorem ROOT.LEAF_LAST_IN_WINDOW_page : ROOT.LEAF_LAST_IN_WINDOW.page = .root := rfl
@[simp] theorem ROOT.LEAF_LAST_FRN_page : ROOT.LEAF_LAST_FRN.page = .root := rfl
@[simp] theorem ROOT.GATE_REFUSE_CNT_page : ROOT.GATE_REFUSE_CNT.page = .root := rfl
@[simp] theorem ROOT.GATE_LAST_CALL_page : ROOT.GATE_LAST_CALL.page = .root := rfl
@[simp] theorem ROOT.GATE_LAST_RESULT_page : ROOT.GATE_LAST_RESULT.page = .root := rfl
@[simp] theorem ROOT.GATE_LAST_FRN_page : ROOT.GATE_LAST_FRN.page = .root := rfl
@[simp] theorem ROOT.LEAF_LIMITS_page : ROOT.LEAF_LIMITS.page = .root := rfl
@[simp] theorem ROOT.ROOT_VER_page : ROOT.ROOT_VER.page = .root := rfl
@[simp] theorem CELLAR.STATUS_BUSY_page : CELLAR.STATUS_BUSY.page = .cellar := rfl
@[simp] theorem CELLAR.STATUS_DEFERRED_page : CELLAR.STATUS_DEFERRED.page = .cellar := rfl
@[simp] theorem CELLAR.STATUS_PF_SEQ_page : CELLAR.STATUS_PF_SEQ.page = .cellar := rfl
@[simp] theorem CELLAR.STATUS_UNFINISHED_page : CELLAR.STATUS_UNFINISHED.page = .cellar := rfl
@[simp] theorem CELLAR.STATUS_LIFETIME_SAT_page : CELLAR.STATUS_LIFETIME_SAT.page = .cellar := rfl
@[simp] theorem CELLAR.STATUS_LIFETIME_RESET_page : CELLAR.STATUS_LIFETIME_RESET.page = .cellar := rfl
@[simp] theorem CELLAR.QUEUE_BLOCK_page : CELLAR.QUEUE_BLOCK.page = .cellar := rfl
@[simp] theorem CELLAR.QUEUE_COPY_page : CELLAR.QUEUE_COPY.page = .cellar := rfl
@[simp] theorem CELLAR.QUEUE_DEPTH_page : CELLAR.QUEUE_DEPTH.page = .cellar := rfl
@[simp] theorem CELLAR.LAST_BLOCK_page : CELLAR.LAST_BLOCK.page = .cellar := rfl
@[simp] theorem CELLAR.LAST_COPY_page : CELLAR.LAST_COPY.page = .cellar := rfl
@[simp] theorem CELLAR.LAST_RESULT_page : CELLAR.LAST_RESULT.page = .cellar := rfl
@[simp] theorem CELLAR.LAST_FRN_page : CELLAR.LAST_FRN.page = .cellar := rfl
@[simp] theorem CELLAR.INSPECT_SEL_page : CELLAR.INSPECT_SEL.page = .cellar := rfl
@[simp] theorem CELLAR.INSPECT_STATE_STATE_A_page : CELLAR.INSPECT_STATE_STATE_A.page = .cellar := rfl
@[simp] theorem CELLAR.INSPECT_STATE_STATE_B_page : CELLAR.INSPECT_STATE_STATE_B.page = .cellar := rfl
@[simp] theorem CELLAR.INSPECT_STATE_WINNER_page : CELLAR.INSPECT_STATE_WINNER.page = .cellar := rfl
@[simp] theorem CELLAR.INSPECT_STATE_LOST_page : CELLAR.INSPECT_STATE_LOST.page = .cellar := rfl
@[simp] theorem CELLAR.INSPECT_STATE_DIRTY_page : CELLAR.INSPECT_STATE_DIRTY.page = .cellar := rfl
@[simp] theorem CELLAR.INSPECT_STATE_CLASS_page : CELLAR.INSPECT_STATE_CLASS.page = .cellar := rfl
@[simp] theorem CELLAR.INSPECT_GEN_A_page : CELLAR.INSPECT_GEN_A.page = .cellar := rfl
@[simp] theorem CELLAR.INSPECT_GEN_B_page : CELLAR.INSPECT_GEN_B.page = .cellar := rfl
@[simp] theorem CELLAR.INSPECT_WEAR_A_page : CELLAR.INSPECT_WEAR_A.page = .cellar := rfl
@[simp] theorem CELLAR.INSPECT_WEAR_B_page : CELLAR.INSPECT_WEAR_B.page = .cellar := rfl
@[simp] theorem CELLAR.SCRUB_NEXT_page : CELLAR.SCRUB_NEXT.page = .cellar := rfl
@[simp] theorem CELLAR.SCRUB_FRN_page : CELLAR.SCRUB_FRN.page = .cellar := rfl
@[simp] theorem CELLAR.STORE_CNT_page : CELLAR.STORE_CNT.page = .cellar := rfl
@[simp] theorem CELLAR.TORN_CNT_page : CELLAR.TORN_CNT.page = .cellar := rfl
@[simp] theorem CELLAR.LOST_CNT_page : CELLAR.LOST_CNT.page = .cellar := rfl
@[simp] theorem CELLAR.DEFER_CNT_page : CELLAR.DEFER_CNT.page = .cellar := rfl
@[simp] theorem CELLAR.FAILED_CNT_page : CELLAR.FAILED_CNT.page = .cellar := rfl
@[simp] theorem CELLAR.REFRESH_CNT_page : CELLAR.REFRESH_CNT.page = .cellar := rfl
@[simp] theorem CELLAR.PAGEMODE_page : CELLAR.PAGEMODE.page = .cellar := rfl
@[simp] theorem CELLAR.STORE_CMD_FIRST_page : CELLAR.STORE_CMD_FIRST.page = .cellar := rfl
@[simp] theorem CELLAR.STORE_CMD_COUNT_M1_page : CELLAR.STORE_CMD_COUNT_M1.page = .cellar := rfl
@[simp] theorem CELLAR.STORE_CMD_GO_page : CELLAR.STORE_CMD_GO.page = .cellar := rfl
@[simp] theorem CELLAR.STORE_STAT_STATE_page : CELLAR.STORE_STAT_STATE.page = .cellar := rfl
@[simp] theorem CELLAR.STORE_STAT_CAUSE_page : CELLAR.STORE_STAT_CAUSE.page = .cellar := rfl
@[simp] theorem CELLAR.STORE_STAT_DONE_page : CELLAR.STORE_STAT_DONE.page = .cellar := rfl
@[simp] theorem CELLAR.STORE_STAT_FRN_page : CELLAR.STORE_STAT_FRN.page = .cellar := rfl
@[simp] theorem CELLAR.PSTORE_CNT_page : CELLAR.PSTORE_CNT.page = .cellar := rfl
@[simp] theorem CELLAR.LT_POWER_UPS_page : CELLAR.LT_POWER_UPS.page = .cellar := rfl
@[simp] theorem CELLAR.LT_POWER_FAILS_page : CELLAR.LT_POWER_FAILS.page = .cellar := rfl
@[simp] theorem CELLAR.LT_PF_RECOVERED_page : CELLAR.LT_PF_RECOVERED.page = .cellar := rfl
@[simp] theorem CELLAR.LT_STORES_page : CELLAR.LT_STORES.page = .cellar := rfl
@[simp] theorem CELLAR.LT_TORN_page : CELLAR.LT_TORN.page = .cellar := rfl
@[simp] theorem CELLAR.LT_LOST_page : CELLAR.LT_LOST.page = .cellar := rfl
@[simp] theorem CELLAR.LT_REFRESH_page : CELLAR.LT_REFRESH.page = .cellar := rfl
@[simp] theorem CELLAR.LT_STORE_FAILED_page : CELLAR.LT_STORE_FAILED.page = .cellar := rfl
@[simp] theorem BBOX.WR_SEQ_page : BBOX.WR_SEQ.page = .bbox := rfl
@[simp] theorem BBOX.WR_IDX_page : BBOX.WR_IDX.page = .bbox := rfl
@[simp] theorem BBOX.RD_SEQ_page : BBOX.RD_SEQ.page = .bbox := rfl
@[simp] theorem BBOX.UNREAD_page : BBOX.UNREAD.page = .bbox := rfl
@[simp] theorem BBOX.WM_page : BBOX.WM.page = .bbox := rfl
@[simp] theorem BBOX.STALE_page : BBOX.STALE.page = .bbox := rfl
@[simp] theorem BBOX.WATCH_page : BBOX.WATCH.page = .bbox := rfl
@[simp] theorem BBOX.ENTRY_CNT_page : BBOX.ENTRY_CNT.page = .bbox := rfl
@[simp] theorem BBOX.SUPPRESS_CNT_page : BBOX.SUPPRESS_CNT.page = .bbox := rfl
@[simp] theorem BBOX.QLOST_CNT_page : BBOX.QLOST_CNT.page = .bbox := rfl
@[simp] theorem BBOX.QUEUE_page : BBOX.QUEUE.page = .bbox := rfl
@[simp] theorem PWR.STATUS_PF_page : PWR.STATUS_PF.page = .pwr := rfl
@[simp] theorem PWR.STATUS_CAUSE_page : PWR.STATUS_CAUSE.page = .pwr := rfl
@[simp] theorem PWR.STATUS_HOLDUP_OK_page : PWR.STATUS_HOLDUP_OK.page = .pwr := rfl
@[simp] theorem PWR.STATUS_CHARGING_page : PWR.STATUS_CHARGING.page = .pwr := rfl
@[simp] theorem PWR.STATUS_VIN_RANGE_page : PWR.STATUS_VIN_RANGE.page = .pwr := rfl
@[simp] theorem PWR.STATUS_VAUX3_OFF_page : PWR.STATUS_VAUX3_OFF.page = .pwr := rfl
@[simp] theorem PWR.VIN_page : PWR.VIN.page = .pwr := rfl
@[simp] theorem PWR.VIN_AVG_page : PWR.VIN_AVG.page = .pwr := rfl
@[simp] theorem PWR.V_PF_page : PWR.V_PF.page = .pwr := rfl
@[simp] theorem PWR.HOLDUP_page : PWR.HOLDUP.page = .pwr := rfl
@[simp] theorem PWR.IIN_page : PWR.IIN.page = .pwr := rfl
@[simp] theorem PWR.PIN_page : PWR.PIN.page = .pwr := rfl
@[simp] theorem PWR.CAP_EST_page : PWR.CAP_EST.page = .pwr := rfl
@[simp] theorem PWR.RESERVE_page : PWR.RESERVE.page = .pwr := rfl
@[simp] theorem PWR.LAST_PF_FRN_page : PWR.LAST_PF_FRN.page = .pwr := rfl
@[simp] theorem PWR.LAST_PF_VIN_page : PWR.LAST_PF_VIN.page = .pwr := rfl
@[simp] theorem PWR.LAST_PF_HOLDUP_page : PWR.LAST_PF_HOLDUP.page = .pwr := rfl
@[simp] theorem PWR.LAST_PF_HOLDUP_MIN_page : PWR.LAST_PF_HOLDUP_MIN.page = .pwr := rfl
@[simp] theorem PWR.LAST_PF_CAUSE_page : PWR.LAST_PF_CAUSE.page = .pwr := rfl
@[simp] theorem PWR.LAST_PF_RECOVERED_page : PWR.LAST_PF_RECOVERED.page = .pwr := rfl
@[simp] theorem PWR.LAST_PF_MS_page : PWR.LAST_PF_MS.page = .pwr := rfl
@[simp] theorem PWR.PF_CNT_page : PWR.PF_CNT.page = .pwr := rfl
@[simp] theorem PWR.RECOVER_CNT_page : PWR.RECOVER_CNT.page = .pwr := rfl
@[simp] theorem PWR.GLITCH_CNT_page : PWR.GLITCH_CNT.page = .pwr := rfl
@[simp] theorem OSC.STATUS_WARMUP_page : OSC.STATUS_WARMUP.page = .osc := rfl
@[simp] theorem OSC.STATUS_REGULATING_page : OSC.STATUS_REGULATING.page = .osc := rfl
@[simp] theorem OSC.STATUS_OVEN_FAULT_page : OSC.STATUS_OVEN_FAULT.page = .osc := rfl
@[simp] theorem OSC.STATUS_HEATER_SAT_page : OSC.STATUS_HEATER_SAT.page = .osc := rfl
@[simp] theorem OSC.STATUS_HEATER_IDLE_page : OSC.STATUS_HEATER_IDLE.page = .osc := rfl
@[simp] theorem OSC.STATUS_EXT_ACTIVE_page : OSC.STATUS_EXT_ACTIVE.page = .osc := rfl
@[simp] theorem OSC.STATUS_OVEN_OFF_page : OSC.STATUS_OVEN_OFF.page = .osc := rfl
@[simp] theorem OSC.HEATER_OUTER_page : OSC.HEATER_OUTER.page = .osc := rfl
@[simp] theorem OSC.HEATER_INNER_page : OSC.HEATER_INNER.page = .osc := rfl
@[simp] theorem OSC.WARM_S_page : OSC.WARM_S.page = .osc := rfl
@[simp] theorem OSC.WARM_LAST_page : OSC.WARM_LAST.page = .osc := rfl
@[simp] theorem OSC.TB_CFG_page : OSC.TB_CFG.page = .osc := rfl
@[simp] theorem OSC.EXT_AGEING_page : OSC.EXT_AGEING.page = .osc := rfl
@[simp] theorem OSC.OVEN_START_CNT_page : OSC.OVEN_START_CNT.page = .osc := rfl
@[simp] theorem DBG.CTRL_REQUEST_page : DBG.CTRL_REQUEST.page = .dbg := rfl
@[simp] theorem DBG.CTRL_REVOKE_page : DBG.CTRL_REVOKE.page = .dbg := rfl
@[simp] theorem DBG.STATUS_GRANTED_page : DBG.STATUS_GRANTED.page = .dbg := rfl
@[simp] theorem DBG.STATUS_STRAP_page : DBG.STATUS_STRAP.page = .dbg := rfl
@[simp] theorem DBG.STATUS_REFUSED_page : DBG.STATUS_REFUSED.page = .dbg := rfl
@[simp] theorem DBG.SCOPE_ACC_WINDOW_page : DBG.SCOPE_ACC_WINDOW.page = .dbg := rfl
@[simp] theorem DBG.SCOPE_LEAF_PORT_page : DBG.SCOPE_LEAF_PORT.page = .dbg := rfl
@[simp] theorem DBG.SCOPE_LEAF_HALT_page : DBG.SCOPE_LEAF_HALT.page = .dbg := rfl
@[simp] theorem DBG.DURATION_page : DBG.DURATION.page = .dbg := rfl
@[simp] theorem DBG.GRANT_LEFT_page : DBG.GRANT_LEFT.page = .dbg := rfl
@[simp] theorem DBG.GRANT_FRN_page : DBG.GRANT_FRN.page = .dbg := rfl
@[simp] theorem DBG.GRANT_CNT_page : DBG.GRANT_CNT.page = .dbg := rfl

/-- The cell of a field carries the code of its page. -/
theorem keyPage_fldKey (f : Fld) (n k j : Nat) : keyPage (fldKey f n k j) = pageType f.page := by
  unfold keyPage fldKey; omega
/-- No two pages share a code. -/
theorem pageType_inj {p q : Page} (h : pageType p = pageType q) : p = q := by
  revert h; cases p <;> cases q <;> decide
/-! ### Writing a field leaves the other pages as they were -/

@[simp] theorem pageCells_ite (q : Page) (c : Prop) [Decidable c] (a b : List (Nat × Nat)) :
    pageCells q (if c then a else b) = if c then pageCells q a else pageCells q b := by split <;> rfl
@[simp] theorem setF_pg {q : Page} (s : State) (f : Fld) (n k j v : Nat) (h : ¬q = f.page) :
    pageCells q (setF s f n k j v).regs = pageCells q s.regs := by
  funext m
  unfold pageCells
  split
  · rename_i hm
    apply setF_cell_ne
    intro e
    rw [e, keyPage_fldKey] at hm
    exact h (pageType_inj hm).symm
  · rfl
@[simp] theorem set1_pg {q : Page} (s : State) (f : Fld) (n v : Nat) (h : ¬q = f.page) :
    pageCells q (set1 s f n v).regs = pageCells q s.regs := setF_pg s f n 0 0 v h
@[simp] theorem setEvtBit_pg {q : Page} (s : State) (p : Page) (n bit : Nat) (h : ¬q = p) :
    pageCells q (setEvtBit s p n bit).regs = pageCells q s.regs := by simp [setEvtBit, h]
@[simp] theorem raiseSat_pg {q : Page} (s : State) (p : Page) (n : Nat) (h : ¬q = p) :
    pageCells q (raiseSat s p n).regs = pageCells q s.regs := by
  unfold raiseSat; split <;> simp [h]
@[simp] theorem evt_pg {q : Page} (s : State) (p : Page) (n bit : Nat) (h : ¬q = p) :
    pageCells q (evt s p n bit).regs = pageCells q s.regs := by simp [evt, h]
@[simp] theorem evtIf_pg {q : Page} (c : Bool) (s : State) (p : Page) (n bit : Nat) (h : ¬q = p) :
    pageCells q (evtIf c s p n bit).regs = pageCells q s.regs := by simp [evtIf, h]
@[simp] theorem addCnt_pg {q : Page} (s : State) (f : Fld) (n k m : Nat) (h : ¬q = f.page) :
    pageCells q (addCnt s f n k m).regs = pageCells q s.regs := by simp [addCnt, h]
@[simp] theorem foldl_pgs {α : Type} {q : Page} (f : State → α → State) (h : ∀ t x, pageCells q (f t x).regs = pageCells q t.regs)
    (l : List α) (s : State) : pageCells q (l.foldl f s).regs = pageCells q s.regs :=
  foldl_inv (fun s => pageCells q s.regs) f h l s
@[simp] theorem resetF_pg {q : Page} (s : State) (f : Fld) (n : Nat) (h : ¬q = f.page) :
    pageCells q (resetF s f n).regs = pageCells q s.regs := by simp [resetF, h]
/-- A fold whose every step keeps a page keeps it. -/
theorem foldl_pgs_mem {α : Type} {q : Page} (f : State → α → State) (l : List α)
    (h : ∀ t x, x ∈ l → pageCells q (f t x).regs = pageCells q t.regs) (s : State) :
    pageCells q (l.foldl f s).regs = pageCells q s.regs := by
  induction l generalizing s with
  | nil => rfl
  | cons x l ih => rw [List.foldl_cons, ih (fun t y hy => h t y (List.mem_cons_of_mem _ hy)), h _ _ List.mem_cons_self]
/-- Returning fields to reset keeps the pages of none of them. -/
theorem resetFields_pg {q : Page} (s : State) (fs : List Fld) (n : Nat) (h : ∀ f ∈ fs, ¬q = f.page) :
    pageCells q (resetFields s fs n).regs = pageCells q s.regs :=
  foldl_pgs_mem _ _ (fun t f hf => resetF_pg t f n (h f hf)) s
/-- The pages Leaf reports into. -/
theorem leafFields_page : ∀ x ∈ leafFields, x.2.page = .eth ∨ x.2.page = .ptpts ∨ x.2.page = .time ∨ x.2.page = .shelf := by
  decide

theorem leafWord_page (a : Nat) : ∀ x ∈ leafWord a, x.1.page = .eth ∨ x.1.page = .ptpts ∨ x.1.page = .time ∨ x.1.page = .shelf := by
  intro x hx
  simp only [leafWord, List.mem_flatMap, List.mem_map] at hx
  obtain ⟨y, hy, n, -, k, -, rfl⟩ := hx
  exact leafFields_page y hy

theorem instRo_page : ∀ f ∈ instRo, f.page = .ptpts := by decide

/-! ### Machine/Ops.lean -/

@[simp] theorem partEvt_pg {pq : Page} (s : State) (p bit : Nat) (h : pq ∉ [Page.part]) :
    pageCells pq (partEvt s p bit).regs = pageCells pq s.regs := by
  simp only [List.mem_cons, List.not_mem_nil, or_false] at h
  simp (maxDischargeDepth := 30) [partEvt, h]
@[simp] theorem enqueue_pg {pq : Page} (s : State) (e : JEntry) (h : pq ∉ [Page.bbox]) :
    pageCells pq (enqueue s e).regs = pageCells pq s.regs := by
  simp only [List.mem_cons, List.not_mem_nil, or_false] at h
  simp (maxDischargeDepth := 30) [enqueue, h, cite @addCnt_keeps]
@[simp] theorem journal_pg {pq : Page} (s : State) (code : Nat) (part : Option Nat) (unit inst data : Nat) (h : pq ∉ [Page.bbox]) :
    pageCells pq (journal s code part unit inst data).regs = pageCells pq s.regs := by
  simp only [List.mem_cons, List.not_mem_nil, or_false] at h
  simp (maxDischargeDepth := 30) [journal, h, cite @addCnt_keeps]
@[simp] theorem journalPg_pg {pq : Page} (s : State) (code : Nat) (part : Option Nat) (p : Page) (inst data : Nat) (h : pq ∉ [Page.bbox]) :
    pageCells pq (journalPg s code part p inst data).regs = pageCells pq s.regs := by
  simp only [List.mem_cons, List.not_mem_nil, or_false] at h
  simp (maxDischargeDepth := 30) [journalPg, h]
@[simp] theorem chanEvt_pg {pq : Page} (s : State) (c bit : Nat) (h : pq ∉ [Page.part]) :
    pageCells pq (chanEvt s c bit).regs = pageCells pq s.regs := by
  simp only [List.mem_cons, List.not_mem_nil, or_false] at h
  simp (maxDischargeDepth := 30) [chanEvt, h]

/-! ### Machine/Lanes.lean -/

@[simp] theorem degraded_pg {pq : Page} (s : State) (h : pq ∉ [Page.sys]) :
    pageCells pq (degraded s).regs = pageCells pq s.regs := by
  simp only [List.mem_cons, List.not_mem_nil, or_false] at h
  simp (maxDischargeDepth := 30) [degraded, h]
@[simp] theorem bareLane_pg {pq : Page} (s : State) (n : Nat) (h : pq ∉ [Page.lane]) :
    pageCells pq (bareLane s n).regs = pageCells pq s.regs := by
  simp only [List.mem_cons, List.not_mem_nil, or_false] at h
  simp (maxDischargeDepth := 30) [bareLane, h]
@[simp] theorem startLane_pg {pq : Page} (s : State) (n f : Nat) (h : pq ∉ [Page.lane]) :
    pageCells pq (startLane s n f).regs = pageCells pq s.regs := by
  simp only [List.mem_cons, List.not_mem_nil, or_false] at h
  simp (maxDischargeDepth := 30) [startLane, h, cite @modLane_keeps, cite @modFunc_keeps, cite @baseLost_keeps]
@[simp] theorem journalMove_pg {pq : Page} (s : State) (f old new : Nat) (h : pq ∉ [Page.bbox]) :
    pageCells pq (journalMove s f old new).regs = pageCells pq s.regs := by
  simp only [List.mem_cons, List.not_mem_nil, or_false] at h
  simp (maxDischargeDepth := 30) [journalMove, h]
@[simp] theorem loseLane_pg {pq : Page} (s : State) (f old : Nat) (h : pq ∉ [Page.bbox, .lane, .part, .sys]) :
    pageCells pq (loseLane s f old).regs = pageCells pq s.regs := by
  simp only [List.mem_cons, List.not_mem_nil, or_false, not_or] at h
  simp (maxDischargeDepth := 30) [loseLane, h, cite @baseLost_keeps, cite @modLane_keeps]
@[simp] theorem moveFunc_pg {pq : Page} (s : State) (f old : Nat) (h : pq ∉ [Page.bbox, .lane, .part, .sys]) :
    pageCells pq (moveFunc s f old).regs = pageCells pq s.regs := by
  simp only [List.mem_cons, List.not_mem_nil, or_false, not_or] at h
  unfold moveFunc; dsimp only; (repeat' split) <;> simp (maxDischargeDepth := 30) [h, cite @modLane_keeps]
@[simp] theorem laneFault_pg {pq : Page} (s : State) (n code : Nat) (h : pq ∉ [Page.lane, .sys]) :
    pageCells pq (laneFault s n code).regs = pageCells pq s.regs := by
  simp only [List.mem_cons, List.not_mem_nil, or_false, not_or] at h
  simp (maxDischargeDepth := 30) [laneFault, h]
@[simp] theorem noSamples_pg {pq : Page} (s : State) (n k : Nat) (h : pq ∉ [Page.lane]) :
    pageCells pq (noSamples s n k).regs = pageCells pq s.regs := by
  simp only [List.mem_cons, List.not_mem_nil, or_false] at h
  simp (maxDischargeDepth := 30) [noSamples, h]
@[simp] theorem idleLane_pg {pq : Page} (s : State) (n : Nat) (h : pq ∉ [Page.lane]) :
    pageCells pq (idleLane s n).regs = pageCells pq s.regs := by
  simp only [List.mem_cons, List.not_mem_nil, or_false] at h
  simp (maxDischargeDepth := 30) [idleLane, h]
@[simp] theorem withhold_pg {pq : Page} (s : State) (f n : Nat) (h : pq ∉ [Page.lane]) :
    pageCells pq (withhold s f n).regs = pageCells pq s.regs := by
  simp only [List.mem_cons, List.not_mem_nil, or_false] at h
  simp (maxDischargeDepth := 30) [withhold, h, cite @modFunc_keeps]
@[simp] theorem moveIfBad_pg {pq : Page} (bad : List (Nat × Nat)) (s : State) (f : Nat) (h : pq ∉ [Page.bbox, .lane, .part, .sys]) :
    pageCells pq (moveIfBad bad s f).regs = pageCells pq s.regs := by
  simp only [List.mem_cons, List.not_mem_nil, or_false, not_or] at h
  unfold moveIfBad; (repeat' split) <;> simp (maxDischargeDepth := 30) [h]
@[simp] theorem moveFaulted_pg {pq : Page} (s : State) (bad : List (Nat × Nat)) (h : pq ∉ [Page.bbox, .lane, .part, .sys]) :
    pageCells pq (moveFaulted s bad).regs = pageCells pq s.regs := by
  simp only [List.mem_cons, List.not_mem_nil, or_false, not_or] at h
  simp (maxDischargeDepth := 30) [moveFaulted, h, cite @laneSorted_keeps]
@[simp] theorem calibrate_pg {pq : Page} (s : State) (n : Nat) (result : Option Int) (codeBad : Bool) (h : pq ∉ [Page.lane]) :
    pageCells pq (calibrate s n result codeBad).1.regs = pageCells pq s.regs := by
  simp only [List.mem_cons, List.not_mem_nil, or_false] at h
  unfold calibrate; dsimp only; (repeat' split) <;> simp (maxDischargeDepth := 30) [h, cite @modLane_keeps]
@[simp] theorem selfCheck_pg {pq : Page} (s : State) (i : FrameIn) (n : Nat) (h : pq ∉ [Page.lane]) :
    pageCells pq (selfCheck s i n).regs = pageCells pq s.regs := by
  simp only [List.mem_cons, List.not_mem_nil, or_false] at h
  simp (maxDischargeDepth := 30) [selfCheck, h, cite @modLane_keeps]
@[simp] theorem calFrame_pg {pq : Page} (s : State) (i : FrameIn) (n : Nat) (h : pq ∉ [Page.lane]) :
    pageCells pq (calFrame s i n).1.regs = pageCells pq s.regs := by
  simp only [List.mem_cons, List.not_mem_nil, or_false] at h
  unfold calFrame; (repeat' split) <;> simp (maxDischargeDepth := 30) [h]
@[simp] theorem checkLane_pg {pq : Page} (i : FrameIn) (a : State × List (Nat × Nat)) (n : Nat) (h : pq ∉ [Page.lane]) :
    pageCells pq (checkLane i a n).1.regs = pageCells pq a.1.regs := by
  simp only [List.mem_cons, List.not_mem_nil, or_false] at h
  unfold checkLane; dsimp only; (repeat' split) <;> simp (maxDischargeDepth := 30) [h]
@[simp] theorem findFaults_pg {pq : Page} (s : State) (i : FrameIn) (h : pq ∉ [Page.lane]) :
    pageCells pq (findFaults s i).1.regs = pageCells pq s.regs := by
  simp only [List.mem_cons, List.not_mem_nil, or_false] at h
  unfold findFaults
  generalize List.range 18 = l
  exact foldl_inv (fun a => pageCells pq a.1.regs) (checkLane i) (fun t x => checkLane_pg _ _ _ (by simp [h])) l (s, [])
@[simp] theorem laneDriven_pg {pq : Page} (s : State) (f : Nat) (h : pq ∉ [Page.lane]) :
    pageCells pq (laneDriven s f).regs = pageCells pq s.regs := by
  simp only [List.mem_cons, List.not_mem_nil, or_false] at h
  unfold laneDriven; dsimp only; (repeat' split) <;> simp (maxDischargeDepth := 30) [h, cite @modLane_keeps]
@[simp] theorem laneSuspect_pg {pq : Page} (s : State) (g : Nat) (was : Bool) (h : pq ∉ [Page.lane]) :
    pageCells pq (laneSuspect s g was).regs = pageCells pq s.regs := by
  simp only [List.mem_cons, List.not_mem_nil, or_false] at h
  unfold laneSuspect; (repeat' split) <;> simp (maxDischargeDepth := 30) [h]
@[simp] theorem suspectOnset_pg {pq : Page} (s : State) (g : Nat) (h : pq ∉ [Page.lane, .part]) :
    pageCells pq (suspectOnset s g).regs = pageCells pq s.regs := by
  simp only [List.mem_cons, List.not_mem_nil, or_false, not_or] at h
  simp (maxDischargeDepth := 30) [suspectOnset, h, cite @modFunc_keeps]
@[simp] theorem overdriveOnset_pg {pq : Page} (s : State) (f : Nat) (h : pq ∉ [Page.bbox, .lane, .part]) :
    pageCells pq (overdriveOnset s f).regs = pageCells pq s.regs := by
  simp only [List.mem_cons, List.not_mem_nil, or_false, not_or] at h
  simp (maxDischargeDepth := 30) [overdriveOnset, h, cite @modFunc_keeps, cite @baseLost_keeps, cite @modChan_keeps]
@[simp] theorem overdriveLane_pg {pq : Page} (s : State) (f : Nat) (on : Bool) (h : pq ∉ [Page.lane]) :
    pageCells pq (overdriveLane s f on).regs = pageCells pq s.regs := by
  simp only [List.mem_cons, List.not_mem_nil, or_false] at h
  unfold overdriveLane; dsimp only; (repeat' split) <;> simp (maxDischargeDepth := 30) [h, cite @modLane_keeps]
@[simp] theorem overdrivePad_pg {pq : Page} (s : State) (f : Nat) (on : Bool) (h : pq ∉ [Page.bbox, .lane, .part]) :
    pageCells pq (overdrivePad s f on).regs = pageCells pq s.regs := by
  simp only [List.mem_cons, List.not_mem_nil, or_false, not_or] at h
  simp (maxDischargeDepth := 30) [overdrivePad, h, cite @modFunc_keeps]
@[simp] theorem overdriveFrame_pg {pq : Page} (s : State) (pads : Nat) (h : pq ∉ [Page.bbox, .lane, .part]) :
    pageCells pq (overdriveFrame s pads).regs = pageCells pq s.regs := by
  simp only [List.mem_cons, List.not_mem_nil, or_false, not_or] at h
  simp (maxDischargeDepth := 30) [overdriveFrame, h]
@[simp] theorem suspectFlag_pg {pq : Page} (s : State) (f : Nat) (h : pq ∉ [Page.lane]) :
    pageCells pq (suspectFlag s f).regs = pageCells pq s.regs := by
  simp only [List.mem_cons, List.not_mem_nil, or_false] at h
  unfold suspectFlag; (repeat' split) <;> simp (maxDischargeDepth := 30) [h]
@[simp] theorem suspectFlags_pg {pq : Page} (s : State) (h : pq ∉ [Page.lane]) :
    pageCells pq (suspectFlags s).regs = pageCells pq s.regs := by
  simp only [List.mem_cons, List.not_mem_nil, or_false] at h
  simp (maxDischargeDepth := 30) [suspectFlags, h]
@[simp] theorem suspectTick_pg {pq : Page} (s : State) (f : Nat) (h : pq ∉ [Page.lane]) :
    pageCells pq (suspectTick s f).regs = pageCells pq s.regs := by
  simp only [List.mem_cons, List.not_mem_nil, or_false] at h
  unfold suspectTick; dsimp only; (repeat' split) <;> simp (maxDischargeDepth := 30) [h, cite @modFunc_keeps]
@[simp] theorem laneSummary_pg {pq : Page} (s : State) (n : Nat) (out : List Smp) (flags : List Nat) (h : pq ∉ [Page.lane]) :
    pageCells pq (laneSummary s n out flags).regs = pageCells pq s.regs := by
  simp only [List.mem_cons, List.not_mem_nil, or_false] at h
  unfold laneSummary; dsimp only; (repeat' split) <;> simp (maxDischargeDepth := 30) [h]
@[simp] theorem sampleFunc_pg {pq : Page} (v : Interval) (s : State) (f : Nat) (h : pq ∉ [Page.lane]) :
    pageCells pq (sampleFunc v s f).regs = pageCells pq s.regs := by
  simp only [List.mem_cons, List.not_mem_nil, or_false] at h
  unfold sampleFunc; dsimp only; (repeat' split) <;> simp (maxDischargeDepth := 30) [h, cite @noLane_keeps, cite @modLane_keeps, cite @modFunc_keeps]
@[simp] theorem stage1_pg {pq : Page} (s : State) (i : FrameIn) (h : pq ∉ [Page.bbox, .lane, .part, .sys]) :
    pageCells pq (stage1 s i).regs = pageCells pq s.regs := by
  simp only [List.mem_cons, List.not_mem_nil, or_false, not_or] at h
  simp (maxDischargeDepth := 30) [stage1, h, cite @latchPlan_keeps, cite @laneSorted_keeps]
@[simp] theorem spareCalEnd_pg {pq : Page} (s : State) (n : Nat) (h : pq ∉ [Page.lane]) :
    pageCells pq (spareCalEnd s n).regs = pageCells pq s.regs := by
  simp only [List.mem_cons, List.not_mem_nil, or_false] at h
  simp (maxDischargeDepth := 30) [spareCalEnd, h]
@[simp] theorem lanesEnd_pg {pq : Page} (s : State) (h : pq ∉ [Page.lane]) :
    pageCells pq (lanesEnd s).regs = pageCells pq s.regs := by
  simp only [List.mem_cons, List.not_mem_nil, or_false] at h
  simp (maxDischargeDepth := 30) [lanesEnd, h]

/-! ### Machine/Rows.lean -/

@[simp] theorem reportInf_pg {pq : Page} (s : State) (p : Nat) (h : pq ∉ [Page.part, .rows]) :
    pageCells pq (reportInf s p).regs = pageCells pq s.regs := by
  simp only [List.mem_cons, List.not_mem_nil, or_false, not_or] at h
  simp (maxDischargeDepth := 30) [reportInf, h]
@[simp] theorem reportReplays_pg {pq : Page} (s : State) (p x1 : Nat) (h : pq ∉ [Page.part, .rows]) :
    pageCells pq (reportReplays s p x1).regs = pageCells pq s.regs := by
  simp only [List.mem_cons, List.not_mem_nil, or_false, not_or] at h
  induction x1 generalizing s with
  | zero => rfl
  | succ n ih => simp [reportReplays, ih, h]
@[simp] theorem autoClose_pg {pq : Page} (s : State) (p n : Nat) (h : pq ∉ [Page.part]) :
    pageCells pq (autoClose s p n).regs = pageCells pq s.regs := by
  simp only [List.mem_cons, List.not_mem_nil, or_false] at h
  unfold autoClose; dsimp only; (repeat' split) <;> simp (maxDischargeDepth := 30) [h, cite @setRunRow_keeps, cite @closeRow_keeps]
@[simp] theorem execAcc_pg {pq : Page} (s : State) (p n : Nat) (i : Ins) (h : pq ∉ [Page.part, .rows]) :
    pageCells pq (execAcc s p n i).regs = pageCells pq s.regs := by
  simp only [List.mem_cons, List.not_mem_nil, or_false, not_or] at h
  unfold execAcc; dsimp only; (repeat' split) <;> simp (maxDischargeDepth := 30) [h, cite @setRunRow_keeps, cite @putRow_keeps, cite @modRun_keeps]
@[simp] theorem recordFault_pg {pq : Page} (s : State) (p idx code : Nat) (grant : Bool) (h : pq ∉ [Page.part, .rows]) :
    pageCells pq (recordFault s p idx code grant).regs = pageCells pq s.regs := by
  simp only [List.mem_cons, List.not_mem_nil, or_false, not_or] at h
  simp (maxDischargeDepth := 30) [recordFault, h]
@[simp] theorem overrun_pg {pq : Page} (s : State) (p : Nat) (h : pq ∉ [Page.frame, .part]) :
    pageCells pq (overrun s p).regs = pageCells pq s.regs := by
  simp only [List.mem_cons, List.not_mem_nil, or_false, not_or] at h
  simp (maxDischargeDepth := 30) [overrun, h, cite @modRun_keeps]
@[simp] theorem runIns_pg {pq : Page} (s : State) (p : Nat) (i : Ins) (h : pq ∉ [Page.part, .rows]) :
    pageCells pq (runIns s p i).regs = pageCells pq s.regs := by
  simp only [List.mem_cons, List.not_mem_nil, or_false, not_or] at h
  unfold runIns; (repeat' split) <;> simp (maxDischargeDepth := 30) [h, cite @modRun_keeps, cite @execOpn_keeps, cite @closeRow_keeps]
@[simp] theorem stepIns_pg {pq : Page} (s : State) (p : Nat) (i : Ins) (h : pq ∉ [Page.frame, .part, .rows]) :
    pageCells pq (stepIns s p i).regs = pageCells pq s.regs := by
  simp only [List.mem_cons, List.not_mem_nil, or_false, not_or] at h
  unfold stepIns; dsimp only; (repeat' split) <;> simp (maxDischargeDepth := 30) [h, cite @modRun_keeps, cite @missedRow_keeps]
@[simp] theorem runWords_pg {pq : Page} (x1 : List Nat) (x2 : State) (x3 : Nat) (h : pq ∉ [Page.frame, .part, .rows]) :
    pageCells pq (runWords x1 x2 x3).regs = pageCells pq x2.regs := by
  simp only [List.mem_cons, List.not_mem_nil, or_false, not_or] at h
  induction x1 generalizing x2 with
  | nil => rfl
  | cons b r ih => (unfold runWords; dsimp only; (repeat' split) <;> simp [ih, h, cite @missedRest_keeps])
@[simp] theorem publishRows_pg {pq : Page} (s : State) (h : pq ∉ [Page.rows]) :
    pageCells pq (publishRows s).regs = pageCells pq s.regs := by
  simp only [List.mem_cons, List.not_mem_nil, or_false] at h
  simp (maxDischargeDepth := 30) [publishRows, h, cite @modRow_keeps]
@[simp] theorem stage2_pg {pq : Page} (s : State) (h : pq ∉ [Page.frame, .part, .rows]) :
    pageCells pq (stage2 s).regs = pageCells pq s.regs := by
  simp only [List.mem_cons, List.not_mem_nil, or_false, not_or] at h
  simp (maxDischargeDepth := 30) [stage2, h, cite @runsStart_keeps]
@[simp] theorem publishSlots_pg {pq : Page} (s : State) (h : pq ∉ [Page.frame]) :
    pageCells pq (publishSlots s).regs = pageCells pq s.regs := by
  simp only [List.mem_cons, List.not_mem_nil, or_false] at h
  simp (maxDischargeDepth := 30) [publishSlots, h, cite @drawFree_keeps]
@[simp] theorem resetRows_pg {pq : Page} (s : State) (p : Nat) (h : pq ∉ [Page.rows]) :
    pageCells pq (resetRows s p).regs = pageCells pq s.regs := by
  simp only [List.mem_cons, List.not_mem_nil, or_false] at h
  unfold resetRows; dsimp only; (repeat' split) <;> simp (maxDischargeDepth := 30) [h, cite @modPart_keeps]
@[simp] theorem descWrite_pg {pq : Page} (s : State) (n v : Nat) (h : pq ∉ [Page.rows]) :
    pageCells pq (descWrite s n v).regs = pageCells pq s.regs := by
  simp only [List.mem_cons, List.not_mem_nil, or_false] at h
  simp (maxDischargeDepth := 30) [descWrite, h]
@[simp] theorem progWinWrite_pg {pq : Page} (s : State) (p i v : Nat) (h : pq ∉ [Page.rows]) :
    pageCells pq (progWinWrite s p i v).regs = pageCells pq s.regs := by
  simp only [List.mem_cons, List.not_mem_nil, or_false] at h
  simp (maxDischargeDepth := 30) [progWinWrite, h, cite @setStandby_keeps]
@[simp] theorem progSwap_pg {pq : Page} (s : State) (p : Nat) (h : pq ∉ [Page.rows]) :
    pageCells pq (progSwap s p).regs = pageCells pq s.regs := by
  simp only [List.mem_cons, List.not_mem_nil, or_false] at h
  simp (maxDischargeDepth := 30) [progSwap, h]
@[simp] theorem insCommand_pg {pq : Page} (s : State) (p : Nat) (i : Ins) (h : pq ∉ [Page.frame, .part, .rows]) :
    pageCells pq (insCommand s p i).regs = pageCells pq s.regs := by
  simp only [List.mem_cons, List.not_mem_nil, or_false, not_or] at h
  simp (maxDischargeDepth := 30) [insCommand, h]

/-! ### Machine/Harvest.lean -/

@[simp] theorem dropRec_pg {pq : Page} (s : State) (p seq cause : Nat) (h : pq ∉ [Page.harv, .part]) :
    pageCells pq (dropRec s p seq cause).regs = pageCells pq s.regs := by
  simp only [List.mem_cons, List.not_mem_nil, or_false, not_or] at h
  unfold dropRec; dsimp only; (repeat' split) <;> simp (maxDischargeDepth := 30) [h]
@[simp] theorem takeRec_pg {pq : Page} (s : State) (p : Nat) (r : Rec) (h : pq ∉ [Page.harv, .part]) :
    pageCells pq (takeRec s p r).regs = pageCells pq s.regs := by
  simp only [List.mem_cons, List.not_mem_nil, or_false, not_or] at h
  simp (maxDischargeDepth := 30) [takeRec, h, cite @writeRec_keeps]
@[simp] theorem dropStaged_pg {pq : Page} (s : State) (p x1 : Nat) (h : pq ∉ [Page.harv, .part]) :
    pageCells pq (dropStaged s p x1).regs = pageCells pq s.regs := by
  simp only [List.mem_cons, List.not_mem_nil, or_false, not_or] at h
  induction x1 generalizing s with
  | zero => rfl
  | succ n ih => (unfold dropStaged; dsimp only; (repeat' split) <;> simp [ih, h])
@[simp] theorem harvest_pg {pq : Page} (s : State) (h : pq ∉ [Page.harv, .part]) :
    pageCells pq (harvest s).regs = pageCells pq s.regs := by
  simp only [List.mem_cons, List.not_mem_nil, or_false, not_or] at h
  simp (maxDischargeDepth := 30) [harvest, h, cite @modPart_keeps]
@[simp] theorem resetHarvest_pg {pq : Page} (s : State) (p : Nat) (h : pq ∉ [Page.harv]) :
    pageCells pq (resetHarvest s p).regs = pageCells pq s.regs := by
  simp only [List.mem_cons, List.not_mem_nil, or_false] at h
  simp (maxDischargeDepth := 30) [resetHarvest, h, cite @clearRange_keeps]
@[simp] theorem rdIdxWrite_pg {pq : Page} (s : State) (p v : Nat) (h : pq ∉ [Page.harv, .part]) :
    pageCells pq (rdIdxWrite s p v).regs = pageCells pq s.regs := by
  simp only [List.mem_cons, List.not_mem_nil, or_false, not_or] at h
  simp (maxDischargeDepth := 30) [rdIdxWrite, h]

/-! ### Machine/Quality.lean -/

@[simp] theorem qlChange_pg {pq : Page} (s : State) (c old new : Nat) (timeout : Bool) (h : pq ∉ [Page.bbox, .part, .sel]) :
    pageCells pq (qlChange s c old new timeout).regs = pageCells pq s.regs := by
  simp only [List.mem_cons, List.not_mem_nil, or_false, not_or] at h
  simp (maxDischargeDepth := 30) [qlChange, h]
@[simp] theorem applyRank_pg {pq : Page} (s : State) (c rank frames : Nat) (h : pq ∉ [Page.bbox, .part, .sel]) :
    pageCells pq (applyRank s c rank frames).regs = pageCells pq s.regs := by
  simp only [List.mem_cons, List.not_mem_nil, or_false, not_or] at h
  simp (maxDischargeDepth := 30) [applyRank, h, cite @modChan_keeps]
@[simp] theorem qlExpire_pg {pq : Page} (s : State) (c : Nat) (h : pq ∉ [Page.bbox, .part, .sel]) :
    pageCells pq (qlExpire s c).regs = pageCells pq s.regs := by
  simp only [List.mem_cons, List.not_mem_nil, or_false, not_or] at h
  simp (maxDischargeDepth := 30) [qlExpire, h, cite @modChan_keeps]
@[simp] theorem publishQl_pg {pq : Page} (s : State) (c : Nat) (h : pq ∉ [Page.sel]) :
    pageCells pq (publishQl s c).regs = pageCells pq s.regs := by
  simp only [List.mem_cons, List.not_mem_nil, or_false] at h
  simp (maxDischargeDepth := 30) [publishQl, h]
@[simp] theorem qlFrame_pg {pq : Page} (s : State) (c : Nat) (h : pq ∉ [Page.bbox, .part, .sel]) :
    pageCells pq (qlFrame s c).regs = pageCells pq s.regs := by
  simp only [List.mem_cons, List.not_mem_nil, or_false, not_or] at h
  simp (maxDischargeDepth := 30) [qlFrame, h, cite @modChan_keeps]
@[simp] theorem qualSample_pg {pq : Page} (s : State) (c : Nat) (h : pq ∉ [Page.rows]) :
    pageCells pq (qualSample s c).regs = pageCells pq s.regs := by
  simp only [List.mem_cons, List.not_mem_nil, or_false] at h
  unfold qualSample; dsimp only; (repeat' split) <;> simp (maxDischargeDepth := 30) [h, cite @modChan_keeps]
@[simp] theorem windowClose_pg {pq : Page} (s : State) (c : Nat) (h : pq ∉ [Page.sel]) :
    pageCells pq (windowClose s c).regs = pageCells pq s.regs := by
  simp only [List.mem_cons, List.not_mem_nil, or_false] at h
  unfold windowClose; dsimp only; (repeat' split) <;> simp (maxDischargeDepth := 30) [h, cite @modChan_keeps]
@[simp] theorem dropBaseline_pg {pq : Page} (s : State) (c : Nat) (h : pq ∉ [Page.lane, .sel]) :
    pageCells pq (dropBaseline s c).regs = pageCells pq s.regs := by
  simp only [List.mem_cons, List.not_mem_nil, or_false, not_or] at h
  unfold dropBaseline; dsimp only; (repeat' split) <;> simp (maxDischargeDepth := 30) [h, cite @modChan_keeps, cite @baseLost_keeps, cite @modPkt_keeps, cite @modLane_keeps]
@[simp] theorem activityChange_pg {pq : Page} (s : State) (c : Nat) (h : pq ∉ [Page.lane, .part, .sel]) :
    pageCells pq (activityChange s c).regs = pageCells pq s.regs := by
  simp only [List.mem_cons, List.not_mem_nil, or_false, not_or] at h
  simp (maxDischargeDepth := 30) [activityChange, h, cite @modChan_keeps]
@[simp] theorem activityFrame_pg {pq : Page} (s : State) (c : Nat) (h : pq ∉ [Page.lane, .part, .sel]) :
    pageCells pq (activityFrame s c).regs = pageCells pq s.regs := by
  simp only [List.mem_cons, List.not_mem_nil, or_false, not_or] at h
  simp (maxDischargeDepth := 30) [activityFrame, h, cite @modChan_keeps]
@[simp] theorem stepSample_pg {pq : Page} (c : Nat) (s : State) (x : Smp) (h : pq ∉ [Page.part, .sel]) :
    pageCells pq (stepSample c s x).regs = pageCells pq s.regs := by
  simp only [List.mem_cons, List.not_mem_nil, or_false, not_or] at h
  unfold stepSample; dsimp only; (repeat' split) <;> simp (maxDischargeDepth := 30) [h, cite @modChan_keeps]
@[simp] theorem stepTest_pg {pq : Page} (s : State) (c : Nat) (h : pq ∉ [Page.part, .sel]) :
    pageCells pq (stepTest s c).regs = pageCells pq s.regs := by
  simp only [List.mem_cons, List.not_mem_nil, or_false, not_or] at h
  simp (maxDischargeDepth := 30) [stepTest, h, cite @modChan_keeps]
@[simp] theorem reasonChanged_pg {pq : Page} (s : State) (d c old new : Nat) (h : pq ∉ [Page.bbox, .part, .sel]) :
    pageCells pq (reasonChanged s d c old new).regs = pageCells pq s.regs := by
  simp only [List.mem_cons, List.not_mem_nil, or_false, not_or] at h
  simp (maxDischargeDepth := 30) [reasonChanged, h]
@[simp] theorem putPair_pg {pq : Page} (s : State) (d c : Nat) (v : PairU) (h : pq ∉ [Page.bbox, .part, .sel]) :
    pageCells pq (putPair s d c v).regs = pageCells pq s.regs := by
  simp only [List.mem_cons, List.not_mem_nil, or_false, not_or] at h
  simp (maxDischargeDepth := 30) [putPair, h, cite @modPair_keeps]
@[simp] theorem pairStage_pg {pq : Page} (s : State) (d c : Nat) (h : pq ∉ [Page.bbox, .part, .sel]) :
    pageCells pq (pairStage s d c).regs = pageCells pq s.regs := by
  simp only [List.mem_cons, List.not_mem_nil, or_false, not_or] at h
  simp (maxDischargeDepth := 30) [pairStage, h, cite @modPair_keeps]
@[simp] theorem slewClear_pg {pq : Page} (s : State) (d : Nat) (h : pq ∉ [Page.sel]) :
    pageCells pq (slewClear s d).regs = pageCells pq s.regs := by
  simp only [List.mem_cons, List.not_mem_nil, or_false] at h
  simp (maxDischargeDepth := 30) [slewClear, h, cite @modDom_keeps]
@[simp] theorem slewEnd_pg {pq : Page} (s : State) (d : Nat) (h : pq ∉ [Page.part, .sel]) :
    pageCells pq (slewEnd s d).regs = pageCells pq s.regs := by
  simp only [List.mem_cons, List.not_mem_nil, or_false, not_or] at h
  simp (maxDischargeDepth := 30) [slewEnd, h]
@[simp] theorem switchTo_pg {pq : Page} (s : State) (d best : Nat) (h : pq ∉ [Page.bbox, .part, .sel]) :
    pageCells pq (switchTo s d best).regs = pageCells pq s.regs := by
  simp only [List.mem_cons, List.not_mem_nil, or_false, not_or] at h
  simp (maxDischargeDepth := 30) [switchTo, h, cite @modDom_keeps]
@[simp] theorem selectDom_pg {pq : Page} (s : State) (d : Nat) (h : pq ∉ [Page.bbox, .part, .sel]) :
    pageCells pq (selectDom s d).regs = pageCells pq s.regs := by
  simp only [List.mem_cons, List.not_mem_nil, or_false, not_or] at h
  simp (maxDischargeDepth := 30) [selectDom, h]
@[simp] theorem publishTests_pg {pq : Page} (s : State) (c : Nat) (h : pq ∉ [Page.sel]) :
    pageCells pq (publishTests s c).regs = pageCells pq s.regs := by
  simp only [List.mem_cons, List.not_mem_nil, or_false] at h
  simp (maxDischargeDepth := 30) [publishTests, h]
@[simp] theorem qualRows_pg {pq : Page} (s : State) (h : pq ∉ [Page.lane, .part, .rows, .sel]) :
    pageCells pq (qualRows s).regs = pageCells pq s.regs := by
  simp only [List.mem_cons, List.not_mem_nil, or_false, not_or] at h
  simp (maxDischargeDepth := 30) [qualRows, h]
@[simp] theorem stage3_pg {pq : Page} (s : State) (h : pq ∉ [Page.bbox, .lane, .part, .rows, .sel]) :
    pageCells pq (stage3 s).regs = pageCells pq s.regs := by
  simp only [List.mem_cons, List.not_mem_nil, or_false, not_or] at h
  simp (maxDischargeDepth := 30) [stage3, h]

/-! ### Machine/Domain.lean -/

@[simp] theorem publishGains_pg {pq : Page} (s : State) (d : Nat) (h : pq ∉ [Page.dpll]) :
    pageCells pq (publishGains s d).regs = pageCells pq s.regs := by
  simp only [List.mem_cons, List.not_mem_nil, or_false] at h
  simp (maxDischargeDepth := 30) [publishGains, h]
@[simp] theorem loopUpdate_pg {pq : Page} (s : State) (d : Nat) (err : Rat) (g : Nat) (h : pq ∉ [Page.dpll]) :
    pageCells pq (loopUpdate s d err g).regs = pageCells pq s.regs := by
  simp only [List.mem_cons, List.not_mem_nil, or_false] at h
  simp (maxDischargeDepth := 30) [loopUpdate, h, cite @modDom_keeps]
@[simp] theorem slewOver_pg {pq : Page} (s : State) (d : Nat) (h : pq ∉ [Page.part, .sel]) :
    pageCells pq (slewOver s d).regs = pageCells pq s.regs := by
  simp only [List.mem_cons, List.not_mem_nil, or_false, not_or] at h
  simp (maxDischargeDepth := 30) [slewOver, h]
@[simp] theorem slewFrame_pg {pq : Page} (s : State) (d : Nat) (h : pq ∉ [Page.part, .sel]) :
    pageCells pq (slewFrame s d).regs = pageCells pq s.regs := by
  simp only [List.mem_cons, List.not_mem_nil, or_false, not_or] at h
  simp (maxDischargeDepth := 30) [slewFrame, h, cite @modDom_keeps]
@[simp] theorem applyCfg_pg {pq : Page} (s : State) (d : Nat) (h : pq ∉ [Page.dpll]) :
    pageCells pq (applyCfg s d).regs = pageCells pq s.regs := by
  simp only [List.mem_cons, List.not_mem_nil, or_false] at h
  simp (maxDischargeDepth := 30) [applyCfg, h, cite @modDom_keeps]
@[simp] theorem keepSegs_pg {pq : Page} (s : State) (d : Nat) (h : pq ∉ [Page.dpll]) :
    pageCells pq (keepSegs s d).regs = pageCells pq s.regs := by
  simp only [List.mem_cons, List.not_mem_nil, or_false] at h
  simp (maxDischargeDepth := 30) [keepSegs, h, cite @modDom_keeps]
@[simp] theorem commitCfg_pg {pq : Page} (s : State) (d : Nat) (h : pq ∉ [Page.dpll]) :
    pageCells pq (commitCfg s d).regs = pageCells pq s.regs := by
  simp only [List.mem_cons, List.not_mem_nil, or_false] at h
  simp (maxDischargeDepth := 30) [commitCfg, h]
@[simp] theorem publishDusk_pg {pq : Page} (s : State) (d : Nat) (h : pq ∉ [Page.dpll]) :
    pageCells pq (publishDusk s d).regs = pageCells pq s.regs := by
  simp only [List.mem_cons, List.not_mem_nil, or_false] at h
  simp (maxDischargeDepth := 30) [publishDusk, h]
@[simp] theorem duskRecompute_pg {pq : Page} (s : State) (d : Nat) (h : pq ∉ [Page.dpll]) :
    pageCells pq (duskRecompute s d).regs = pageCells pq s.regs := by
  simp only [List.mem_cons, List.not_mem_nil, or_false] at h
  simp (maxDischargeDepth := 30) [duskRecompute, h, cite @modDom_keeps]
@[simp] theorem domChanged_pg {pq : Page} (s : State) (d old new left : Nat) (h : pq ∉ [Page.bbox, .dpll]) :
    pageCells pq (domChanged s d old new left).regs = pageCells pq s.regs := by
  simp only [List.mem_cons, List.not_mem_nil, or_false, not_or] at h
  simp (maxDischargeDepth := 30) [domChanged, h]
@[simp] theorem setDomState_pg {pq : Page} (s : State) (d new left : Nat) (h : pq ∉ [Page.bbox, .dpll]) :
    pageCells pq (setDomState s d new left).regs = pageCells pq s.regs := by
  simp only [List.mem_cons, List.not_mem_nil, or_false, not_or] at h
  simp (maxDischargeDepth := 30) [setDomState, h]
@[simp] theorem enterAcquiring_pg {pq : Page} (s : State) (d : Nat) (h : pq ∉ [Page.bbox, .dpll]) :
    pageCells pq (enterAcquiring s d).regs = pageCells pq s.regs := by
  simp only [List.mem_cons, List.not_mem_nil, or_false, not_or] at h
  simp (maxDischargeDepth := 30) [enterAcquiring, h, cite @modDom_keeps]
@[simp] theorem enterHoldover_pg {pq : Page} (s : State) (d : Nat) (h : pq ∉ [Page.bbox, .dpll, .sel]) :
    pageCells pq (enterHoldover s d).regs = pageCells pq s.regs := by
  simp only [List.mem_cons, List.not_mem_nil, or_false, not_or] at h
  simp (maxDischargeDepth := 30) [enterHoldover, h, cite @modDom_keeps]
@[simp] theorem enterLost_pg {pq : Page} (s : State) (d : Nat) (h : pq ∉ [Page.bbox, .dpll]) :
    pageCells pq (enterLost s d).regs = pageCells pq s.regs := by
  simp only [List.mem_cons, List.not_mem_nil, or_false, not_or] at h
  simp (maxDischargeDepth := 30) [enterLost, h]
@[simp] theorem fbLost_pg {pq : Page} (s : State) (d : Nat) (h : pq ∉ [Page.dpll]) :
    pageCells pq (fbLost s d).regs = pageCells pq s.regs := by
  simp only [List.mem_cons, List.not_mem_nil, or_false] at h
  simp (maxDischargeDepth := 30) [fbLost, h]
@[simp] theorem transition_pg {pq : Page} (s : State) (d : Nat) (h : pq ∉ [Page.bbox, .dpll, .sel]) :
    pageCells pq (transition s d).1.regs = pageCells pq s.regs := by
  simp only [List.mem_cons, List.not_mem_nil, or_false, not_or] at h
  unfold transition; dsimp only; (repeat' split) <;> simp (maxDischargeDepth := 30) [h]
@[simp] theorem enterLocked_pg {pq : Page} (s : State) (d : Nat) (h : pq ∉ [Page.bbox, .dpll]) :
    pageCells pq (enterLocked s d).regs = pageCells pq s.regs := by
  simp only [List.mem_cons, List.not_mem_nil, or_false, not_or] at h
  simp (maxDischargeDepth := 30) [enterLocked, h]
@[simp] theorem bridgeStart_pg {pq : Page} (s : State) (d : Nat) (lane apll : Bool) (h : pq ∉ [Page.dpll]) :
    pageCells pq (bridgeStart s d lane apll).regs = pageCells pq s.regs := by
  simp only [List.mem_cons, List.not_mem_nil, or_false] at h
  simp (maxDischargeDepth := 30) [bridgeStart, h, cite @modDom_keeps]
@[simp] theorem bridgeStop_pg {pq : Page} (s : State) (d : Nat) (h : pq ∉ [Page.dpll]) :
    pageCells pq (bridgeStop s d).regs = pageCells pq s.regs := by
  simp only [List.mem_cons, List.not_mem_nil, or_false] at h
  simp (maxDischargeDepth := 30) [bridgeStop, h, cite @modDom_keeps]
@[simp] theorem bridgeFrame_pg {pq : Page} (s : State) (d : Nat) (h : pq ∉ [Page.dpll]) :
    pageCells pq (bridgeFrame s d).regs = pageCells pq s.regs := by
  simp only [List.mem_cons, List.not_mem_nil, or_false] at h
  simp (maxDischargeDepth := 30) [bridgeFrame, h]
@[simp] theorem closeSegment_pg {pq : Page} (s : State) (d : Nat) (h : pq ∉ [Page.dpll]) :
    pageCells pq (closeSegment s d).regs = pageCells pq s.regs := by
  simp only [List.mem_cons, List.not_mem_nil, or_false] at h
  simp (maxDischargeDepth := 30) [closeSegment, h, cite @modDom_keeps]
@[simp] theorem historyFrame_pg {pq : Page} (s : State) (d : Nat) (h : pq ∉ [Page.dpll]) :
    pageCells pq (historyFrame s d).regs = pageCells pq s.regs := by
  simp only [List.mem_cons, List.not_mem_nil, or_false] at h
  simp (maxDischargeDepth := 30) [historyFrame, h, cite @modDom_keeps]
@[simp] theorem slewRecord_pg {pq : Page} (s : State) (d src : Nat) (delta : Rat) (h : pq ∉ [Page.bbox, .time]) :
    pageCells pq (slewRecord s d src delta).regs = pageCells pq s.regs := by
  simp only [List.mem_cons, List.not_mem_nil, or_false, not_or] at h
  simp (maxDischargeDepth := 30) [slewRecord, h]
@[simp] theorem firstError_pg {pq : Page} (s : State) (d : Nat) (e : Rat) (h : pq ∉ [Page.bbox, .part, .sel, .time]) :
    pageCells pq (firstError s d e).regs = pageCells pq s.regs := by
  simp only [List.mem_cons, List.not_mem_nil, or_false, not_or] at h
  simp (maxDischargeDepth := 30) [firstError, h, cite @modDom_keeps]
@[simp] theorem refUpdate_pg {pq : Page} (s : State) (d : Nat) (h : pq ∉ [Page.bbox, .dpll, .part, .sel, .time]) :
    pageCells pq (refUpdate s d).regs = pageCells pq s.regs := by
  simp only [List.mem_cons, List.not_mem_nil, or_false, not_or] at h
  simp (maxDischargeDepth := 30) [refUpdate, h, cite @modDom_keeps]
@[simp] theorem synUpdate_pg {pq : Page} (s : State) (d : Nat) (h : pq ∉ [Page.dpll]) :
    pageCells pq (synUpdate s d).regs = pageCells pq s.regs := by
  simp only [List.mem_cons, List.not_mem_nil, or_false] at h
  simp (maxDischargeDepth := 30) [synUpdate, h, cite @modDom_keeps]
@[simp] theorem coastFrame_pg {pq : Page} (s : State) (d : Nat) (h : pq ∉ [Page.dpll]) :
    pageCells pq (coastFrame s d).regs = pageCells pq s.regs := by
  simp only [List.mem_cons, List.not_mem_nil, or_false] at h
  simp (maxDischargeDepth := 30) [coastFrame, h]
@[simp] theorem lockBroken_pg {pq : Page} (s : State) (d : Nat) (updated : Bool) (h : pq ∉ [Page.bbox, .dpll, .part, .sel, .time]) :
    pageCells pq (lockBroken s d updated).regs = pageCells pq s.regs := by
  simp only [List.mem_cons, List.not_mem_nil, or_false, not_or] at h
  simp (maxDischargeDepth := 30) [lockBroken, h, cite @takeB_keeps, cite @modDom_keeps]
@[simp] theorem lockMove_pg {pq : Page} (s : State) (d : Nat) (updated : Bool) (h : pq ∉ [Page.bbox, .dpll, .part, .sel, .time]) :
    pageCells pq (lockMove s d updated).regs = pageCells pq s.regs := by
  simp only [List.mem_cons, List.not_mem_nil, or_false, not_or] at h
  simp (maxDischargeDepth := 30) [lockMove, h]
@[simp] theorem domMove_pg {pq : Page} (s : State) (d : Nat) (h : pq ∉ [Page.bbox, .dpll, .sel]) :
    pageCells pq (domMove s d).1.regs = pageCells pq s.regs := by
  simp only [List.mem_cons, List.not_mem_nil, or_false, not_or] at h
  unfold domMove; (repeat' split) <;> simp (maxDischargeDepth := 30) [h]
@[simp] theorem domUpdate_pg {pq : Page} (s : State) (d : Nat) (h : pq ∉ [Page.bbox, .dpll, .part, .sel, .time]) :
    pageCells pq (domUpdate s d).regs = pageCells pq s.regs := by
  simp only [List.mem_cons, List.not_mem_nil, or_false, not_or] at h
  simp (maxDischargeDepth := 30) [domUpdate, h]
@[simp] theorem duskFrame_pg {pq : Page} (s : State) (d : Nat) (h : pq ∉ [Page.dpll]) :
    pageCells pq (duskFrame s d).regs = pageCells pq s.regs := by
  simp only [List.mem_cons, List.not_mem_nil, or_false] at h
  simp (maxDischargeDepth := 30) [duskFrame, h]
@[simp] theorem domFrame_pg {pq : Page} (s : State) (d : Nat) (h : pq ∉ [Page.bbox, .dpll, .part, .sel, .time]) :
    pageCells pq (domFrame s d).regs = pageCells pq s.regs := by
  simp only [List.mem_cons, List.not_mem_nil, or_false, not_or] at h
  simp (maxDischargeDepth := 30) [domFrame, h, cite @takeB_keeps, cite @lockCount_keeps, cite @modDom_keeps]
@[simp] theorem stage4_pg {pq : Page} (s : State) (h : pq ∉ [Page.bbox, .dpll, .part, .sel, .time]) :
    pageCells pq (stage4 s).regs = pageCells pq s.regs := by
  simp only [List.mem_cons, List.not_mem_nil, or_false, not_or] at h
  simp (maxDischargeDepth := 30) [stage4, h]
@[simp] theorem startDom_pg {pq : Page} (s : State) (d : Nat) (h : pq ∉ [Page.dpll, .sel]) :
    pageCells pq (startDom s d).regs = pageCells pq s.regs := by
  simp only [List.mem_cons, List.not_mem_nil, or_false, not_or] at h
  simp (maxDischargeDepth := 30) [startDom, h, cite @modDom_keeps]
@[simp] theorem bridgeMoved_pg {pq : Page} (s : State) (h : pq ∉ [Page.dpll]) :
    pageCells pq (bridgeMoved s).regs = pageCells pq s.regs := by
  simp only [List.mem_cons, List.not_mem_nil, or_false] at h
  simp (maxDischargeDepth := 30) [bridgeMoved, h]
@[simp] theorem loopBw_pg {pq : Page} (s : State) (d : Nat) (bw damp : Option Nat) (h : pq ∉ [Page.dpll]) :
    pageCells pq (loopBw s d bw damp).regs = pageCells pq s.regs := by
  simp only [List.mem_cons, List.not_mem_nil, or_false] at h
  unfold loopBw; dsimp only; (repeat' split) <;> simp (maxDischargeDepth := 30) [h]

/-! ### Machine/Synth.lean -/

@[simp] theorem publishVco_pg {pq : Page} (s : State) (d : Nat) (h : pq ∉ [Page.apll]) :
    pageCells pq (publishVco s d).regs = pageCells pq s.regs := by
  simp only [List.mem_cons, List.not_mem_nil, or_false] at h
  simp (maxDischargeDepth := 30) [publishVco, h]
@[simp] theorem finishStop_pg {pq : Page} (s : State) (n : Nat) (x : Rat) (h : pq ∉ [Page.out]) :
    pageCells pq (finishStop s n x).regs = pageCells pq s.regs := by
  simp only [List.mem_cons, List.not_mem_nil, or_false] at h
  simp (maxDischargeDepth := 30) [finishStop, h, cite @modOut_keeps]
@[simp] theorem beginStop_pg {pq : Page} (s : State) (n quiet : Nat) (h : pq ∉ [Page.out]) :
    pageCells pq (beginStop s n quiet).regs = pageCells pq s.regs := by
  simp only [List.mem_cons, List.not_mem_nil, or_false] at h
  unfold beginStop; dsimp only; (repeat' split) <;> simp (maxDischargeDepth := 30) [h, cite @modOut_keeps]
@[simp] theorem outRefresh_pg {pq : Page} (s : State) (n : Nat) (h : pq ∉ [Page.out]) :
    pageCells pq (outRefresh s n).regs = pageCells pq s.regs := by
  simp only [List.mem_cons, List.not_mem_nil, or_false] at h
  simp (maxDischargeDepth := 30) [outRefresh, h, cite @modOut_keeps]
@[simp] theorem outsRefresh_pg {pq : Page} (s : State) (h : pq ∉ [Page.out]) :
    pageCells pq (outsRefresh s).regs = pageCells pq s.regs := by
  simp only [List.mem_cons, List.not_mem_nil, or_false] at h
  simp (maxDischargeDepth := 30) [outsRefresh, h]
@[simp] theorem applyRetune_pg {pq : Page} (s : State) (d : Nat) (h : pq ∉ [Page.apll, .out]) :
    pageCells pq (applyRetune s d).regs = pageCells pq s.regs := by
  simp only [List.mem_cons, List.not_mem_nil, or_false, not_or] at h
  simp (maxDischargeDepth := 30) [applyRetune, h, cite @modApll_keeps]
@[simp] theorem journalApll_pg {pq : Page} (s : State) (d code : Nat) (h : pq ∉ [Page.bbox]) :
    pageCells pq (journalApll s d code).regs = pageCells pq s.regs := by
  simp only [List.mem_cons, List.not_mem_nil, or_false] at h
  simp (maxDischargeDepth := 30) [journalApll, h]
@[simp] theorem lockLost_pg {pq : Page} (s : State) (d : Nat) (h : pq ∉ [Page.apll, .bbox]) :
    pageCells pq (lockLost s d).regs = pageCells pq s.regs := by
  simp only [List.mem_cons, List.not_mem_nil, or_false, not_or] at h
  simp (maxDischargeDepth := 30) [lockLost, h]
@[simp] theorem fbRestart_pg {pq : Page} (s : State) (d : Nat) (h : pq ∉ [Page.lane]) :
    pageCells pq (fbRestart s d).regs = pageCells pq s.regs := by
  simp only [List.mem_cons, List.not_mem_nil, or_false] at h
  unfold fbRestart; dsimp only; (repeat' split) <;> simp (maxDischargeDepth := 30) [h, cite @baseLost_keeps, cite @modLane_keeps]
@[simp] theorem relockApll_pg {pq : Page} (s : State) (d : Nat) (h : pq ∉ [Page.apll, .bbox, .lane]) :
    pageCells pq (relockApll s d).regs = pageCells pq s.regs := by
  simp only [List.mem_cons, List.not_mem_nil, or_false, not_or] at h
  simp (maxDischargeDepth := 30) [relockApll, h, cite @modApll_keeps]
@[simp] theorem retuneLocked_pg {pq : Page} (s : State) (d : Nat) (h : pq ∉ [Page.apll, .lane]) :
    pageCells pq (retuneLocked s d).regs = pageCells pq s.regs := by
  simp only [List.mem_cons, List.not_mem_nil, or_false, not_or] at h
  simp (maxDischargeDepth := 30) [retuneLocked, h, cite @modApll_keeps]
@[simp] theorem refLostAll_pg {pq : Page} (s : State) (h : pq ∉ [Page.apll, .bbox]) :
    pageCells pq (refLostAll s).regs = pageCells pq s.regs := by
  simp only [List.mem_cons, List.not_mem_nil, or_false, not_or] at h
  simp (maxDischargeDepth := 30) [refLostAll, h]
@[simp] theorem refBack_pg {pq : Page} (s : State) (h : pq ∉ [Page.apll, .bbox]) :
    pageCells pq (refBack s).regs = pageCells pq s.regs := by
  simp only [List.mem_cons, List.not_mem_nil, or_false, not_or] at h
  simp (maxDischargeDepth := 30) [refBack, h]
@[simp] theorem apllStart_pg {pq : Page} (s : State) (d : Nat) (h : pq ∉ [Page.apll, .out]) :
    pageCells pq (apllStart s d).regs = pageCells pq s.regs := by
  simp only [List.mem_cons, List.not_mem_nil, or_false, not_or] at h
  simp (maxDischargeDepth := 30) [apllStart, h, cite @modApll_keeps]
@[simp] theorem apllStop_pg {pq : Page} (s : State) (d : Nat) (h : pq ∉ [Page.apll]) :
    pageCells pq (apllStop s d).regs = pageCells pq s.regs := by
  simp only [List.mem_cons, List.not_mem_nil, or_false] at h
  simp (maxDischargeDepth := 30) [apllStop, h, cite @modApll_keeps]
@[simp] theorem epochRequest_pg {pq : Page} (s : State) (d : Nat) (h : pq ∉ [Page.apll]) :
    pageCells pq (epochRequest s d).regs = pageCells pq s.regs := by
  simp only [List.mem_cons, List.not_mem_nil, or_false] at h
  simp (maxDischargeDepth := 30) [epochRequest, h, cite @modApll_keeps]
@[simp] theorem zeroEpoch_pg {pq : Page} (s : State) (d e : Nat) (h : pq ∉ [Page.apll]) :
    pageCells pq (zeroEpoch s d e).regs = pageCells pq s.regs := by
  simp only [List.mem_cons, List.not_mem_nil, or_false] at h
  simp (maxDischargeDepth := 30) [zeroEpoch, h, cite @modApll_keeps]
@[simp] theorem stopIfDue_pg {pq : Page} (s : State) (n : Nat) (h : pq ∉ [Page.out]) :
    pageCells pq (stopIfDue s n).regs = pageCells pq s.regs := by
  simp only [List.mem_cons, List.not_mem_nil, or_false] at h
  unfold stopIfDue; (repeat' split) <;> simp (maxDischargeDepth := 30) [h]
@[simp] theorem zeroNow_pg {pq : Page} (s : State) (d : Nat) (h : pq ∉ [Page.apll, .out]) :
    pageCells pq (zeroNow s d).regs = pageCells pq s.regs := by
  simp only [List.mem_cons, List.not_mem_nil, or_false, not_or] at h
  simp (maxDischargeDepth := 30) [zeroNow, h, cite @moveGrid_keeps]
@[simp] theorem outStarts_pg {pq : Page} (s : State) (n : Nat) (h : pq ∉ [Page.out]) :
    pageCells pq (outStarts s n).regs = pageCells pq s.regs := by
  simp only [List.mem_cons, List.not_mem_nil, or_false] at h
  simp (maxDischargeDepth := 30) [outStarts, h, cite @modOut_keeps]
@[simp] theorem leaveAdvance_pg {pq : Page} (s : State) (n : Nat) (v : Ivl) (h : pq ∉ [Page.out]) :
    pageCells pq (leaveAdvance s n v).regs = pageCells pq s.regs := by
  simp only [List.mem_cons, List.not_mem_nil, or_false] at h
  unfold leaveAdvance; dsimp only; (repeat' split) <;> simp (maxDischargeDepth := 30) [h, cite @modOut_keeps]
@[simp] theorem outAdvance_pg {pq : Page} (s0 : State) (n : Nat) (v : Ivl) (held : Bool) (h : pq ∉ [Page.out]) :
    pageCells pq (outAdvance s0 n v held).regs = pageCells pq s0.regs := by
  simp only [List.mem_cons, List.not_mem_nil, or_false] at h
  unfold outAdvance; dsimp only; (repeat' split) <;> simp (maxDischargeDepth := 30) [h, cite @moveGrid_keeps, cite @modOut_keeps, cite @emitPulse_keeps]
@[simp] theorem synthAdvance_pg {pq : Page} (s : State) (d cyc t0 span : Nat) (roll : Option Nat) (h : pq ∉ [Page.apll, .out]) :
    pageCells pq (synthAdvance s d cyc t0 span roll).regs = pageCells pq s.regs := by
  simp only [List.mem_cons, List.not_mem_nil, or_false, not_or] at h
  unfold synthAdvance; dsimp only; (repeat' split) <;> simp (maxDischargeDepth := 30) [h, cite @modApll_keeps]
@[simp] theorem steerFrame_pg {pq : Page} (s : State) (d : Nat) (h : pq ∉ [Page.apll, .dpll]) :
    pageCells pq (steerFrame s d).regs = pageCells pq s.regs := by
  simp only [List.mem_cons, List.not_mem_nil, or_false, not_or] at h
  simp (maxDischargeDepth := 30) [steerFrame, h, cite @modApll_keeps]
@[simp] theorem alignFrame_pg {pq : Page} (s : State) (n : Nat) (h : pq ∉ [Page.out]) :
    pageCells pq (alignFrame s n).regs = pageCells pq s.regs := by
  simp only [List.mem_cons, List.not_mem_nil, or_false] at h
  unfold alignFrame; dsimp only; (repeat' split) <;> simp (maxDischargeDepth := 30) [h, cite @modOut_keeps]
@[simp] theorem stage5_pg {pq : Page} (s : State) (h : pq ∉ [Page.apll, .dpll, .out]) :
    pageCells pq (stage5 s).regs = pageCells pq s.regs := by
  simp only [List.mem_cons, List.not_mem_nil, or_false, not_or] at h
  simp (maxDischargeDepth := 30) [stage5, h]
@[simp] theorem cfgBad_pg {pq : Page} (s : State) (n : Nat) (h : pq ∉ [Page.out]) :
    pageCells pq (cfgBad s n).regs = pageCells pq s.regs := by
  simp only [List.mem_cons, List.not_mem_nil, or_false] at h
  simp (maxDischargeDepth := 30) [cfgBad, h]
@[simp] theorem outEnableWrite_pg {pq : Page} (s : State) (n : Nat) (en : Bool) (h : pq ∉ [Page.out]) :
    pageCells pq (outEnableWrite s n en).regs = pageCells pq s.regs := by
  simp only [List.mem_cons, List.not_mem_nil, or_false] at h
  simp (maxDischargeDepth := 30) [outEnableWrite, h]
@[simp] theorem pulseModeWrite_pg {pq : Page} (s : State) (n : Nat) (pulse : Bool) (h : pq ∉ [Page.out]) :
    pageCells pq (pulseModeWrite s n pulse).regs = pageCells pq s.regs := by
  simp only [List.mem_cons, List.not_mem_nil, or_false] at h
  simp (maxDischargeDepth := 30) [pulseModeWrite, h, cite @modOut_keeps]
@[simp] theorem dividerWrite_pg {pq : Page} (s : State) (n : Nat) (div coarse : Option Nat) (h : pq ∉ [Page.out]) :
    pageCells pq (dividerWrite s n div coarse).regs = pageCells pq s.regs := by
  simp only [List.mem_cons, List.not_mem_nil, or_false] at h
  simp (maxDischargeDepth := 30) [dividerWrite, h]
@[simp] theorem pulsePeriodSet_pg {pq : Page} (s : State) (n : Nat) (code per width : Option Nat) (h : pq ∉ [Page.out]) :
    pageCells pq (pulsePeriodSet s n code per width).regs = pageCells pq s.regs := by
  simp only [List.mem_cons, List.not_mem_nil, or_false] at h
  simp (maxDischargeDepth := 30) [pulsePeriodSet, h]
@[simp] theorem palignSet_pg {pq : Page} (s : State) (n chan : Nat) (en : Bool) (h : pq ∉ [Page.out]) :
    pageCells pq (palignSet s n chan en).regs = pageCells pq s.regs := by
  simp only [List.mem_cons, List.not_mem_nil, or_false] at h
  simp (maxDischargeDepth := 30) [palignSet, h, cite @modOut_keeps]
@[simp] theorem palignOfsSet_pg {pq : Page} (s : State) (n hi : Nat) (h : pq ∉ [Page.out]) :
    pageCells pq (palignOfsSet s n hi).regs = pageCells pq s.regs := by
  simp only [List.mem_cons, List.not_mem_nil, or_false] at h
  simp (maxDischargeDepth := 30) [palignOfsSet, h, cite @modOut_keeps]
@[simp] theorem fineSet_pg {pq : Page} (s : State) (n fine : Nat) (h : pq ∉ [Page.out]) :
    pageCells pq (fineSet s n fine).regs = pageCells pq s.regs := by
  simp only [List.mem_cons, List.not_mem_nil, or_false] at h
  simp (maxDischargeDepth := 30) [fineSet, h]
@[simp] theorem takeFormats_pg {pq : Page} (s : State) (h : pq ∉ [Page.out]) :
    pageCells pq (takeFormats s).regs = pageCells pq s.regs := by
  simp only [List.mem_cons, List.not_mem_nil, or_false] at h
  simp (maxDischargeDepth := 30) [takeFormats, h, cite @modOut_keeps]
@[simp] theorem fmtPending_pg {pq : Page} (s : State) (h : pq ∉ [Page.out]) :
    pageCells pq (fmtPending s).regs = pageCells pq s.regs := by
  simp only [List.mem_cons, List.not_mem_nil, or_false] at h
  simp (maxDischargeDepth := 30) [fmtPending, h]
@[simp] theorem outInit_pg {pq : Page} (s : State) (n : Nat) (h : pq ∉ [Page.out]) :
    pageCells pq (outInit s n).regs = pageCells pq s.regs := by
  simp only [List.mem_cons, List.not_mem_nil, or_false] at h
  unfold outInit
  simp only [outRefresh_pg _ _ (by simpa using h), cite @modOut_keeps]
  exact resetFields_pg _ _ _ (by simp [h, cite @modOut_keeps])
@[simp] theorem dropEpoch_pg {pq : Page} (s : State) (d : Nat) (h : pq ∉ [Page.apll]) :
    pageCells pq (dropEpoch s d).regs = pageCells pq s.regs := by
  simp only [List.mem_cons, List.not_mem_nil, or_false] at h
  simp (maxDischargeDepth := 30) [dropEpoch, h, cite @modApll_keeps]
@[simp] theorem synthReset_pg {pq : Page} (s0 : State) (d : Nat) (h : pq ∉ [Page.apll, .out]) :
    pageCells pq (synthReset s0 d).regs = pageCells pq s0.regs := by
  simp only [List.mem_cons, List.not_mem_nil, or_false, not_or] at h
  simp (maxDischargeDepth := 30) [synthReset, h]
@[simp] theorem dllLost_pg {pq : Page} (s : State) (n : Nat) (h : pq ∉ [Page.out]) :
    pageCells pq (dllLost s n).regs = pageCells pq s.regs := by
  simp only [List.mem_cons, List.not_mem_nil, or_false] at h
  simp (maxDischargeDepth := 30) [dllLost, h]
@[simp] theorem dllLocked_pg {pq : Page} (s : State) (n : Nat) (h : pq ∉ [Page.out]) :
    pageCells pq (dllLocked s n).regs = pageCells pq s.regs := by
  simp only [List.mem_cons, List.not_mem_nil, or_false] at h
  simp (maxDischargeDepth := 30) [dllLocked, h]

/-! ### Machine/TimeUnit.lean -/

@[simp] theorem publishTick_pg {pq : Page} (s : State) (d : Nat) (h : pq ∉ [Page.time]) :
    pageCells pq (publishTick s d).regs = pageCells pq s.regs := by
  simp only [List.mem_cons, List.not_mem_nil, or_false] at h
  simp (maxDischargeDepth := 30) [publishTick, h]
@[simp] theorem publishSlew_pg {pq : Page} (s : State) (d : Nat) (h : pq ∉ [Page.time]) :
    pageCells pq (publishSlew s d).regs = pageCells pq s.regs := by
  simp only [List.mem_cons, List.not_mem_nil, or_false] at h
  simp (maxDischargeDepth := 30) [publishSlew, h]
@[simp] theorem trigInterval_pg {pq : Page} (s : State) (d k : Nat) (edges : List Rat) (barred : Rat → Bool) (h : pq ∉ [Page.time]) :
    pageCells pq (trigInterval s d k edges barred).regs = pageCells pq s.regs := by
  simp only [List.mem_cons, List.not_mem_nil, or_false] at h
  unfold trigInterval; dsimp only; (repeat' split) <;> simp (maxDischargeDepth := 30) [h]
@[simp] theorem trigPulse_pg {pq : Page} (s : State) (d k n cyc : Nat) (c : Rat) (h : pq ∉ [Page.time]) :
    pageCells pq (trigPulse s d k n cyc c).regs = pageCells pq s.regs := by
  simp only [List.mem_cons, List.not_mem_nil, or_false] at h
  simp (maxDischargeDepth := 30) [trigPulse, h, cite @emitPulse_keeps]
@[simp] theorem fireTrig_pg {pq : Page} (s : State) (d k t n frm : Nat) (late jumped : Bool) (cyc : Nat) (c : Rat) (h : pq ∉ [Page.time]) :
    pageCells pq (fireTrig s d k t n frm late jumped cyc c).regs = pageCells pq s.regs := by
  simp only [List.mem_cons, List.not_mem_nil, or_false] at h
  simp (maxDischargeDepth := 30) [fireTrig, h, cite @modTrig_keeps, cite @modTime_keeps]
@[simp] theorem trigEdges_pg {pq : Page} (v : Interval) (d : Nat) (s : State) (k : Nat) (h : pq ∉ [Page.time]) :
    pageCells pq (trigEdges v d s k).regs = pageCells pq s.regs := by
  simp only [List.mem_cons, List.not_mem_nil, or_false] at h
  unfold trigEdges; dsimp only; (repeat' split) <;> simp (maxDischargeDepth := 30) [h, cite @modTrig_keeps]
@[simp] theorem trigStage_pg {pq : Page} (v : Interval) (s : State) (h : pq ∉ [Page.time]) :
    pageCells pq (trigStage v s).regs = pageCells pq s.regs := by
  simp only [List.mem_cons, List.not_mem_nil, or_false] at h
  simp (maxDischargeDepth := 30) [trigStage, h]
@[simp] theorem fireWithin_pg {pq : Page} (d k t0 span cyc x1 : Nat) (x2 : State) (h : pq ∉ [Page.time]) :
    pageCells pq (fireWithin d k t0 span cyc x1 x2).regs = pageCells pq x2.regs := by
  simp only [List.mem_cons, List.not_mem_nil, or_false] at h
  induction x1 generalizing x2 with
  | zero => rfl
  | succ n ih => (unfold fireWithin; dsimp only; (repeat' split) <;> simp [ih, h])
@[simp] theorem jumpTrigs_pg {pq : Page} (s : State) (d : Nat) (h : pq ∉ [Page.time]) :
    pageCells pq (jumpTrigs s d).regs = pageCells pq s.regs := by
  simp only [List.mem_cons, List.not_mem_nil, or_false] at h
  simp (maxDischargeDepth := 30) [jumpTrigs, h]
@[simp] theorem lateTrigs_pg {pq : Page} (s : State) (d : Nat) (h : pq ∉ [Page.time]) :
    pageCells pq (lateTrigs s d).regs = pageCells pq s.regs := by
  simp only [List.mem_cons, List.not_mem_nil, or_false] at h
  simp (maxDischargeDepth := 30) [lateTrigs, h]
@[simp] theorem trigArmAct_pg {pq : Page} (s : State) (d k : Nat) (h : pq ∉ [Page.time]) :
    pageCells pq (trigArmAct s d k).regs = pageCells pq s.regs := by
  simp only [List.mem_cons, List.not_mem_nil, or_false] at h
  simp (maxDischargeDepth := 30) [trigArmAct, h, cite @modTrig_keeps]
@[simp] theorem trigDisarmAct_pg {pq : Page} (s : State) (d k : Nat) (h : pq ∉ [Page.time]) :
    pageCells pq (trigDisarmAct s d k).regs = pageCells pq s.regs := by
  simp only [List.mem_cons, List.not_mem_nil, or_false] at h
  simp (maxDischargeDepth := 30) [trigDisarmAct, h, cite @modTrig_keeps]
@[simp] theorem refuseReq_pg {pq : Page} (s : State) (d cause src : Nat) (delta : Rat) (h : pq ∉ [Page.bbox, .time]) :
    pageCells pq (refuseReq s d cause src delta).regs = pageCells pq s.regs := by
  simp only [List.mem_cons, List.not_mem_nil, or_false, not_or] at h
  simp (maxDischargeDepth := 30) [refuseReq, h]
@[simp] theorem timeStep_pg {pq : Page} (s : State) (d src : Nat) (delta : Rat) (counted : Bool) (h : pq ∉ [Page.bbox, .time]) :
    pageCells pq (timeStep s d src delta counted).regs = pageCells pq s.regs := by
  simp only [List.mem_cons, List.not_mem_nil, or_false, not_or] at h
  simp (maxDischargeDepth := 30) [timeStep, h, cite @modTime_keeps, cite @modDom_keeps]
@[simp] theorem timeSlew_pg {pq : Page} (s : State) (d src : Nat) (delta : Rat) (h : pq ∉ [Page.bbox, .sel, .time]) :
    pageCells pq (timeSlew s d src delta).regs = pageCells pq s.regs := by
  simp only [List.mem_cons, List.not_mem_nil, or_false, not_or] at h
  simp (maxDischargeDepth := 30) [timeSlew, h, cite @modTime_keeps, cite @modDom_keeps]
@[simp] theorem handleReq_pg {pq : Page} (s : State) (d src : Nat) (delta : Rat) (h : pq ∉ [Page.bbox, .sel, .time]) :
    pageCells pq (handleReq s d src delta).regs = pageCells pq s.regs := by
  simp only [List.mem_cons, List.not_mem_nil, or_false, not_or] at h
  simp (maxDischargeDepth := 30) [handleReq, h]
@[simp] theorem resolveReqs_pg {pq : Page} (s : State) (d : Nat) (h : pq ∉ [Page.bbox, .sel, .time]) :
    pageCells pq (resolveReqs s d).regs = pageCells pq s.regs := by
  simp only [List.mem_cons, List.not_mem_nil, or_false, not_or] at h
  unfold resolveReqs; dsimp only; (repeat' split) <;> simp (maxDischargeDepth := 30) [h, cite @modTime_keeps]
@[simp] theorem steppedFrame_pg {pq : Page} (s : State) (d : Nat) (h : pq ∉ [Page.time]) :
    pageCells pq (steppedFrame s d).regs = pageCells pq s.regs := by
  simp only [List.mem_cons, List.not_mem_nil, or_false] at h
  unfold steppedFrame; dsimp only; (repeat' split) <;> simp (maxDischargeDepth := 30) [h, cite @modTime_keeps]
@[simp] theorem capArmAct_pg {pq : Page} (s : State) (d c : Nat) (h : pq ∉ [Page.time]) :
    pageCells pq (capArmAct s d c).regs = pageCells pq s.regs := by
  simp only [List.mem_cons, List.not_mem_nil, or_false] at h
  simp (maxDischargeDepth := 30) [capArmAct, h, cite @modCap_keeps]
@[simp] theorem capCancelAct_pg {pq : Page} (s : State) (d c : Nat) (h : pq ∉ [Page.time]) :
    pageCells pq (capCancelAct s d c).regs = pageCells pq s.regs := by
  simp only [List.mem_cons, List.not_mem_nil, or_false] at h
  simp (maxDischargeDepth := 30) [capCancelAct, h, cite @modCap_keeps]
@[simp] theorem capWrite_pg {pq : Page} (s : State) (d c : Nat) (h : pq ∉ [Page.time]) :
    pageCells pq (capWrite s d c).regs = pageCells pq s.regs := by
  simp only [List.mem_cons, List.not_mem_nil, or_false] at h
  unfold capWrite; dsimp only; (repeat' split) <;> simp (maxDischargeDepth := 30) [h, cite @modCap_keeps]
@[simp] theorem capFrame_pg {pq : Page} (s : State) (d c : Nat) (h : pq ∉ [Page.time]) :
    pageCells pq (capFrame s d c).regs = pageCells pq s.regs := by
  simp only [List.mem_cons, List.not_mem_nil, or_false] at h
  unfold capFrame; dsimp only; (repeat' split) <;> simp (maxDischargeDepth := 30) [h, cite @capTake_keeps, cite @modCap_keeps]
@[simp] theorem capStage_pg {pq : Page} (s : State) (h : pq ∉ [Page.time]) :
    pageCells pq (capStage s).regs = pageCells pq s.regs := by
  simp only [List.mem_cons, List.not_mem_nil, or_false] at h
  simp (maxDischargeDepth := 30) [capStage, h]
@[simp] theorem todSend_pg {pq : Page} (s : State) (d sec : Nat) (stepped : Bool) (h : pq ∉ [Page.time]) :
    pageCells pq (todSend s d sec stepped).regs = pageCells pq s.regs := by
  simp only [List.mem_cons, List.not_mem_nil, or_false] at h
  simp (maxDischargeDepth := 30) [todSend, h, cite @modTime_keeps]
@[simp] theorem todConnect_pg {pq : Page} (s : State) (d : Nat) (h : pq ∉ [Page.time]) :
    pageCells pq (todConnect s d).regs = pageCells pq s.regs := by
  simp only [List.mem_cons, List.not_mem_nil, or_false] at h
  simp (maxDischargeDepth := 30) [todConnect, h, cite @modTime_keeps]
@[simp] theorem todFrame_pg {pq : Page} (s : State) (d : Nat) (h : pq ∉ [Page.time]) :
    pageCells pq (todFrame s d).regs = pageCells pq s.regs := by
  simp only [List.mem_cons, List.not_mem_nil, or_false] at h
  unfold todFrame; dsimp only; (repeat' split) <;> simp (maxDischargeDepth := 30) [h, cite @modTime_keeps]
@[simp] theorem timeMark_pg {pq : Page} (s : State) (d : Nat) (h : pq ∉ [Page.bbox]) :
    pageCells pq (timeMark s d).regs = pageCells pq s.regs := by
  simp only [List.mem_cons, List.not_mem_nil, or_false] at h
  unfold timeMark; dsimp only; (repeat' split) <;> simp (maxDischargeDepth := 30) [h, cite @modTime_keeps]
@[simp] theorem timeAdvance_pg {pq : Page} (i : FrameIn) (s : State) (d : Nat) (h : pq ∉ [Page.apll, .out, .time]) :
    pageCells pq (timeAdvance i s d).regs = pageCells pq s.regs := by
  simp only [List.mem_cons, List.not_mem_nil, or_false, not_or] at h
  unfold timeAdvance; dsimp only; (repeat' split) <;> simp (maxDischargeDepth := 30) [h, cite @modOut_keeps, cite @modApll_keeps, cite @modTime_keeps, cite @rollEffects_keeps]
@[simp] theorem timeTick_pg {pq : Page} (s : State) (d : Nat) (h : pq ∉ [Page.time]) :
    pageCells pq (timeTick s d).regs = pageCells pq s.regs := by
  simp only [List.mem_cons, List.not_mem_nil, or_false] at h
  simp (maxDischargeDepth := 30) [timeTick, h, cite @modTime_keeps]
@[simp] theorem timeBoundary_pg {pq : Page} (s : State) (d : Nat) (h : pq ∉ [Page.apll, .bbox, .sel, .time]) :
    pageCells pq (timeBoundary s d).regs = pageCells pq s.regs := by
  simp only [List.mem_cons, List.not_mem_nil, or_false, not_or] at h
  unfold timeBoundary; dsimp only; (repeat' split) <;> simp (maxDischargeDepth := 30) [h, cite @modTime_keeps, cite @putReq_keeps, cite @modDom_keeps]
@[simp] theorem utcPolicy_pg {pq : Page} (s : State) (d : Nat) (h : pq ∉ [Page.time]) :
    pageCells pq (utcPolicy s d).regs = pageCells pq s.regs := by
  simp only [List.mem_cons, List.not_mem_nil, or_false] at h
  simp (maxDischargeDepth := 30) [utcPolicy, h, cite @set1_keeps]
@[simp] theorem nmeaUse_pg {pq : Page} (s : State) (d : Nat) (m : Int) (h : pq ∉ [Page.time]) :
    pageCells pq (nmeaUse s d m).regs = pageCells pq s.regs := by
  simp only [List.mem_cons, List.not_mem_nil, or_false] at h
  simp (maxDischargeDepth := 30) [nmeaUse, h, cite @modTime_keeps, cite @putReq_keeps]
@[simp] theorem nmea_pg {pq : Page} (s : State) (d : Nat) (text : List Nat) (afterUs : Nat) (h : pq ∉ [Page.time]) :
    pageCells pq (nmea s d text afterUs).regs = pageCells pq s.regs := by
  simp only [List.mem_cons, List.not_mem_nil, or_false] at h
  unfold nmea; dsimp only; (repeat' split) <;> simp (maxDischargeDepth := 30) [h, cite @modTime_keeps]
@[simp] theorem baudSet_pg {pq : Page} (s : State) (d v : Nat) (h : pq ∉ [Page.time]) :
    pageCells pq (baudSet s d v).regs = pageCells pq s.regs := by
  simp only [List.mem_cons, List.not_mem_nil, or_false] at h
  simp (maxDischargeDepth := 30) [baudSet, h, cite @modTime_keeps]

/-! ### Machine/Gate.lean -/

@[simp] theorem ptpEvt_pg {pq : Page} (s : State) (n p bit : Nat) (h : pq ∉ [Page.part, .ptpts]) :
    pageCells pq (ptpEvt s n p bit).regs = pageCells pq s.regs := by
  simp only [List.mem_cons, List.not_mem_nil, or_false, not_or] at h
  simp (maxDischargeDepth := 30) [ptpEvt, h]
@[simp] theorem setPtpPort_pg {pq : Page} (s : State) (n p v : Nat) (h : pq ∉ [Page.part, .ptpts]) :
    pageCells pq (setPtpPort s n p v).regs = pageCells pq s.regs := by
  simp only [List.mem_cons, List.not_mem_nil, or_false, not_or] at h
  simp (maxDischargeDepth := 30) [setPtpPort, h]
@[simp] theorem setParent_pg {pq : Page} (s : State) (n p id : Nat) (h : pq ∉ [Page.bbox, .part, .ptpts]) :
    pageCells pq (setParent s n p id).regs = pageCells pq s.regs := by
  simp only [List.mem_cons, List.not_mem_nil, or_false, not_or] at h
  simp (maxDischargeDepth := 30) [setParent, h]
@[simp] theorem blockClear_pg {pq : Page} (s : State) (n p : Nat) (h : pq ∉ [Page.bbox, .part, .ptpts]) :
    pageCells pq (blockClear s n p).regs = pageCells pq s.regs := by
  simp only [List.mem_cons, List.not_mem_nil, or_false, not_or] at h
  unfold blockClear
  dsimp only
  rw [foldl_pgs_mem _ _ (fun t f hf => setF_pg _ _ _ _ _ _ (by rw [instRo_page f hf]; simp [h]))]
  (repeat' split) <;> simp [h]
@[simp] theorem instClear_pg {pq : Page} (s : State) (p : Nat) (h : pq ∉ [Page.bbox, .part, .ptpts]) :
    pageCells pq (instClear s p).regs = pageCells pq s.regs := by
  simp only [List.mem_cons, List.not_mem_nil, or_false, not_or] at h
  simp (maxDischargeDepth := 30) [instClear, h, cite @modPtp_keeps]
@[simp] theorem instOpen_pg {pq : Page} (s : State) (p : Nat) (h : pq ∉ [Page.ptpts]) :
    pageCells pq (instOpen s p).regs = pageCells pq s.regs := by
  simp only [List.mem_cons, List.not_mem_nil, or_false] at h
  simp (maxDischargeDepth := 30) [instOpen, h]
@[simp] theorem pktFail_pg {pq : Page} (s : State) (c : Nat) (h : pq ∉ [Page.lane, .sel]) :
    pageCells pq (pktFail s c).regs = pageCells pq s.regs := by
  simp only [List.mem_cons, List.not_mem_nil, or_false, not_or] at h
  simp (maxDischargeDepth := 30) [pktFail, h, cite @modChan_keeps]
@[simp] theorem instRestart_pg {pq : Page} (s : State) (p : Nat) (h : pq ∉ [Page.bbox, .part, .ptpts]) :
    pageCells pq (instRestart s p).regs = pageCells pq s.regs := by
  simp only [List.mem_cons, List.not_mem_nil, or_false, not_or] at h
  simp (maxDischargeDepth := 30) [instRestart, h, cite @modPkt_keeps, cite @dropCalls_keeps]
@[simp] theorem instReset_pg {pq : Page} (s : State) (p : Nat) (h : pq ∉ [Page.bbox, .part, .ptpts]) :
    pageCells pq (instReset s p).regs = pageCells pq s.regs := by
  simp only [List.mem_cons, List.not_mem_nil, or_false, not_or] at h
  simp (maxDischargeDepth := 30) [instReset, h, cite @modPtp_keeps]
@[simp] theorem instClose_pg {pq : Page} (s : State) (p cause : Nat) (h : pq ∉ [Page.bbox, .lane, .part, .ptpts, .sel]) :
    pageCells pq (instClose s p cause).regs = pageCells pq s.regs := by
  simp only [List.mem_cons, List.not_mem_nil, or_false, not_or] at h
  simp (maxDischargeDepth := 30) [instClose, h, cite @modPtp_keeps]
@[simp] theorem strange_pg {pq : Page} (s : State) (f : Fld) (n p : Nat) (h : pq ∉ [Page.bbox, .lane, .part, .ptpts, .sel, f.page]) :
    pageCells pq (strange s f n p).regs = pageCells pq s.regs := by
  simp only [List.mem_cons, List.not_mem_nil, or_false, not_or] at h
  simp (maxDischargeDepth := 30) [strange, h, cite @modPtp_keeps]
@[simp] theorem gateRefuse_pg {pq : Page} (s : State) (code r : Nat) (h : pq ∉ [Page.root]) :
    pageCells pq (gateRefuse s code r).regs = pageCells pq s.regs := by
  simp only [List.mem_cons, List.not_mem_nil, or_false] at h
  simp (maxDischargeDepth := 30) [gateRefuse, h, cite @set1_keeps, cite @addCnt_keeps, cite @gateRes_keeps]
@[simp] theorem pktRefused_pg {pq : Page} (s : State) (p : Nat) (h : pq ∉ [Page.bbox, .lane, .part, .ptpts, .sel]) :
    pageCells pq (pktRefused s p).regs = pageCells pq s.regs := by
  simp only [List.mem_cons, List.not_mem_nil, or_false, not_or] at h
  simp (maxDischargeDepth := 30) [pktRefused, h, cite @modPtp_keeps]
@[simp] theorem callRefuse_pg {pq : Page} (s : State) (c : GateCall) (r : Nat) (h : pq ∉ [Page.bbox, .lane, .part, .ptpts, .root, .sel]) :
    pageCells pq (callRefuse s c r).regs = pageCells pq s.regs := by
  simp only [List.mem_cons, List.not_mem_nil, or_false, not_or] at h
  unfold callRefuse; dsimp only; (repeat' split) <;> simp (maxDischargeDepth := 30) [h]
@[simp] theorem gateCall_pg {pq : Page} (s : State) (cyc : Nat) (c : GateCall) (h : pq ∉ [Page.bbox, .lane, .part, .ptpts, .root, .sel]) :
    pageCells pq (gateCall s cyc c).regs = pageCells pq s.regs := by
  simp only [List.mem_cons, List.not_mem_nil, or_false, not_or] at h
  unfold gateCall; dsimp only; (repeat' split) <;> simp (maxDischargeDepth := 30) [h, cite @gateRes_keeps]
@[simp] theorem qlApply_pg {pq : Page} (s : State) (c src ssm : Nat) (ecode : Option Nat) (first : Bool) (h : pq ∉ [Page.bbox, .part, .sel]) :
    pageCells pq (qlApply s c src ssm ecode first).regs = pageCells pq s.regs := by
  simp only [List.mem_cons, List.not_mem_nil, or_false, not_or] at h
  unfold qlApply; dsimp only; (repeat' split) <;> simp (maxDischargeDepth := 30) [h]
@[simp] theorem utcApply_pg {pq : Page} (s : State) (p : Nat) (ofs : Int) (l61 l59 : Bool) (h : pq ∉ [Page.time]) :
    pageCells pq (utcApply s p ofs l61 l59).regs = pageCells pq s.regs := by
  simp only [List.mem_cons, List.not_mem_nil, or_false] at h
  simp (maxDischargeDepth := 30) [utcApply, h]
@[simp] theorem pageApply_pg {pq : Page} (s : State) (addr value : Nat) (h : pq ∉ [Page.bbox, .eth, .lane, .part, .ptpts, .sel, .shelf, .time]) :
    pageCells pq (pageApply s addr value).regs = pageCells pq s.regs := by
  simp only [List.mem_cons, List.not_mem_nil, or_false, not_or] at h
  unfold pageApply
  refine (foldl_pgs_mem _ _ (fun t x hx => setF_pg _ _ _ _ _ _ (by
    intro e; rcases leafWord_page addr x hx with g | g | g | g <;> simp [e, g] at h)) _).trans ?_
  simp (maxDischargeDepth := 30) [h]
@[simp] theorem gateAct_pg {pq : Page} (s : State) (c : GateCall) (h : pq ∉ [Page.bbox, .eth, .lane, .part, .ptpts, .root, .sel, .shelf, .time]) :
    pageCells pq (gateAct s c).regs = pageCells pq s.regs := by
  simp only [List.mem_cons, List.not_mem_nil, or_false, not_or] at h
  unfold gateAct; (repeat' split) <;> simp (maxDischargeDepth := 30) [h, cite @pktApply_keeps, cite @putReq_keeps]
@[simp] theorem gateStep_pg {pq : Page} (s : State) (h : pq ∉ [Page.bbox, .eth, .lane, .part, .ptpts, .root, .sel, .shelf, .time]) :
    pageCells pq (gateStep s).regs = pageCells pq s.regs := by
  simp only [List.mem_cons, List.not_mem_nil, or_false, not_or] at h
  simp (maxDischargeDepth := 30) [gateStep, h]
@[simp] theorem gateJournal_pg {pq : Page} (s : State) (code part data : Nat) (h : pq ∉ [Page.bbox, .root]) :
    pageCells pq (gateJournal s code part data).regs = pageCells pq s.regs := by
  simp only [List.mem_cons, List.not_mem_nil, or_false, not_or] at h
  simp (maxDischargeDepth := 30) [gateJournal, h, cite @journal_keeps, cite @gateRes_keeps]

/-! ### Machine/Ether.lean -/

@[simp] theorem stampTx_pg {pq : Page} (s : State) (n : Nat) (inst : Option Nat) (rawF rawO : Nat) (h : pq ∉ [Page.ptpts]) :
    pageCells pq (stampTx s n inst rawF rawO).regs = pageCells pq s.regs := by
  simp only [List.mem_cons, List.not_mem_nil, or_false] at h
  simp (maxDischargeDepth := 30) [stampTx, h, cite @modEth_keeps]
@[simp] theorem stampRx_pg {pq : Page} (s : State) (n : Nat) (h : pq ∉ [Page.ptpts]) :
    pageCells pq (stampRx s n).regs = pageCells pq s.regs := by
  simp only [List.mem_cons, List.not_mem_nil, or_false] at h
  simp (maxDischargeDepth := 30) [stampRx, h]
@[simp] theorem fifoPut_pg {pq : Page} (s : State) (n : Nat) (x : Stamp) (h : pq ∉ [Page.ptpts]) :
    pageCells pq (fifoPut s n x).regs = pageCells pq s.regs := by
  simp only [List.mem_cons, List.not_mem_nil, or_false] at h
  simp (maxDischargeDepth := 30) [fifoPut, h, cite @modEth_keeps]
@[simp] theorem ptpHeader_pg {pq : Page} (s : State) (n : Nat) (b : List Nat) (o : Nat) (h : pq ∉ [Page.bbox, .eth, .lane, .part, .ptpts, .sel]) :
    pageCells pq (ptpHeader s n b o).regs = pageCells pq s.regs := by
  simp only [List.mem_cons, List.not_mem_nil, or_false, not_or] at h
  unfold ptpHeader; dsimp only; (repeat' split) <;> simp (maxDischargeDepth := 30) [h]
@[simp] theorem leafTakes_pg {pq : Page} (s : State) (n : Nat) (b : List Nat) (h : pq ∉ [Page.bbox, .eth, .lane, .part, .ptpts, .sel]) :
    pageCells pq (leafTakes s n b).regs = pageCells pq s.regs := by
  simp only [List.mem_cons, List.not_mem_nil, or_false, not_or] at h
  unfold leafTakes; (repeat' split) <;> simp (maxDischargeDepth := 30) [h]
@[simp] theorem floodDrop_pg {pq : Page} (s : State) (n : Nat) (onset : Bool) (h : pq ∉ [Page.eth]) :
    pageCells pq (floodDrop s n onset).regs = pageCells pq s.regs := by
  simp only [List.mem_cons, List.not_mem_nil, or_false] at h
  simp (maxDischargeDepth := 30) [floodDrop, h, cite @modEth_keeps]
@[simp] theorem ethReceive_pg {pq : Page} (s : State) (n : Nat) (f : EthFrame) (h : pq ∉ [Page.bbox, .eth, .lane, .part, .ptpts, .sel]) :
    pageCells pq (ethReceive s n f).regs = pageCells pq s.regs := by
  simp only [List.mem_cons, List.not_mem_nil, or_false, not_or] at h
  unfold ethReceive; dsimp only; (repeat' split) <;> simp (maxDischargeDepth := 30) [h, cite @modEth_keeps]
@[simp] theorem portStates_pg {pq : Page} (s : State) (n v : Nat) (h : pq ∉ [Page.part, .ptpts]) :
    pageCells pq (portStates s n v).regs = pageCells pq s.regs := by
  simp only [List.mem_cons, List.not_mem_nil, or_false, not_or] at h
  simp (maxDischargeDepth := 30) [portStates, h]
@[simp] theorem linkDown_pg {pq : Page} (s : State) (n cause v : Nat) (h : pq ∉ [Page.bbox, .eth, .part, .ptpts]) :
    pageCells pq (linkDown s n cause v).regs = pageCells pq s.regs := by
  simp only [List.mem_cons, List.not_mem_nil, or_false, not_or] at h
  simp (maxDischargeDepth := 30) [linkDown, h, cite @modChan_keeps]
@[simp] theorem txclkJudge_pg {pq : Page} (s : State) (n : Nat) (h : pq ∉ [Page.eth]) :
    pageCells pq (txclkJudge s n).regs = pageCells pq s.regs := by
  simp only [List.mem_cons, List.not_mem_nil, or_false] at h
  simp (maxDischargeDepth := 30) [txclkJudge, h]
@[simp] theorem pcsLocks_pg {pq : Page} (s : State) (n : Nat) (speedOk : Bool) (h : pq ∉ [Page.bbox, .eth, .lane, .part, .ptpts, .sel]) :
    pageCells pq (pcsLocks s n speedOk).regs = pageCells pq s.regs := by
  simp only [List.mem_cons, List.not_mem_nil, or_false, not_or] at h
  simp (maxDischargeDepth := 30) [pcsLocks, h, cite @modEth_keeps, cite @modChan_keeps]
@[simp] theorem calEnds_pg {pq : Page} (s : State) (n : Nat) (rx tx : Int) (h : pq ∉ [Page.eth]) :
    pageCells pq (calEnds s n rx tx).regs = pageCells pq s.regs := by
  simp only [List.mem_cons, List.not_mem_nil, or_false] at h
  simp (maxDischargeDepth := 30) [calEnds, h]
@[simp] theorem portEnableWrite_pg {pq : Page} (s : State) (n : Nat) (en : Bool) (h : pq ∉ [Page.bbox, .eth, .part, .ptpts]) :
    pageCells pq (portEnableWrite s n en).regs = pageCells pq s.regs := by
  simp only [List.mem_cons, List.not_mem_nil, or_false, not_or] at h
  simp (maxDischargeDepth := 30) [portEnableWrite, h]
@[simp] theorem applyAct_pg {pq : Page} (s : State) (d : Nat) (h : pq ∉ [Page.apll, .bbox, .eth, .out, .part, .ptpts]) :
    pageCells pq (applyAct s d).regs = pageCells pq s.regs := by
  simp only [List.mem_cons, List.not_mem_nil, or_false, not_or] at h
  simp (maxDischargeDepth := 30) [applyAct, h]
@[simp] theorem publishGrants_pg {pq : Page} (s : State) (p : Nat) (h : pq ∉ [Page.ptpts]) :
    pageCells pq (publishGrants s p).regs = pageCells pq s.regs := by
  simp only [List.mem_cons, List.not_mem_nil, or_false] at h
  simp (maxDischargeDepth := 30) [publishGrants, h]
@[simp] theorem portModeChange_pg {pq : Page} (s : State) (n : Nat) (h : pq ∉ [Page.bbox, .eth, .part, .ptpts]) :
    pageCells pq (portModeChange s n).regs = pageCells pq s.regs := by
  simp only [List.mem_cons, List.not_mem_nil, or_false, not_or] at h
  simp (maxDischargeDepth := 30) [portModeChange, h, cite @modPtp_keeps]
@[simp] theorem grantsFrame_pg {pq : Page} (s : State) (p : Nat) (h : pq ∉ [Page.ptpts]) :
    pageCells pq (grantsFrame s p).regs = pageCells pq s.regs := by
  simp only [List.mem_cons, List.not_mem_nil, or_false] at h
  simp (maxDischargeDepth := 30) [grantsFrame, h, cite @modPtp_keeps]
@[simp] theorem ptpPortFrame_pg {pq : Page} (s : State) (n p : Nat) (h : pq ∉ [Page.part, .ptpts]) :
    pageCells pq (ptpPortFrame s n p).regs = pageCells pq s.regs := by
  simp only [List.mem_cons, List.not_mem_nil, or_false, not_or] at h
  simp (maxDischargeDepth := 30) [ptpPortFrame, h]
@[simp] theorem etherFrame_pg {pq : Page} (s : State) (h : pq ∉ [Page.part, .ptpts]) :
    pageCells pq (etherFrame s).regs = pageCells pq s.regs := by
  simp only [List.mem_cons, List.not_mem_nil, or_false, not_or] at h
  simp (maxDischargeDepth := 30) [etherFrame, h]
@[simp] theorem esmcSend_pg {pq : Page} (s : State) (n : Nat) (event : Bool) (h : pq ∉ [Page.eth]) :
    pageCells pq (esmcSend s n event).regs = pageCells pq s.regs := by
  simp only [List.mem_cons, List.not_mem_nil, or_false] at h
  simp (maxDischargeDepth := 30) [esmcSend, h, cite @modEth_keeps]
@[simp] theorem deliverQl_pg {pq : Page} (s : State) (cyc src node ssm : Nat) (ecode : Option Nat) (h : pq ∉ [Page.bbox, .lane, .part, .ptpts, .root, .sel]) :
    pageCells pq (deliverQl s cyc src node ssm ecode).regs = pageCells pq s.regs := by
  simp only [List.mem_cons, List.not_mem_nil, or_false, not_or] at h
  simp (maxDischargeDepth := 30) [deliverQl, h]
@[simp] theorem esmcReceive_pg {pq : Page} (s : State) (n : Nat) (p : EsmcPdu) (cyc : Nat) (h : pq ∉ [Page.bbox, .eth, .lane, .part, .ptpts, .root, .sel]) :
    pageCells pq (esmcReceive s n p cyc).regs = pageCells pq s.regs := by
  simp only [List.mem_cons, List.not_mem_nil, or_false, not_or] at h
  simp (maxDischargeDepth := 30) [esmcReceive, h, cite @modEth_keeps]
@[simp] theorem frameOut_pg {pq : Page} (s : State) (n : Nat) (b : List Nat) (rawF rawO : Nat) (h : pq ∉ [Page.eth, .ptpts]) :
    pageCells pq (frameOut s n b rawF rawO).regs = pageCells pq s.regs := by
  simp only [List.mem_cons, List.not_mem_nil, or_false, not_or] at h
  simp (maxDischargeDepth := 30) [frameOut, h, cite @modEth_keeps]
@[simp] theorem txFrame_pg {pq : Page} (s : State) (p n : Nat) (b : List Nat) (rawF rawO : Nat) (h : pq ∉ [Page.eth, .ptpts, .root]) :
    pageCells pq (txFrame s p n b rawF rawO).regs = pageCells pq s.regs := by
  simp only [List.mem_cons, List.not_mem_nil, or_false, not_or] at h
  simp (maxDischargeDepth := 30) [txFrame, h, cite @modEth_keeps, cite @gateRes_keeps, cite @modPtp_keeps]

/-! ### Machine/Ptp.lean -/

@[simp] theorem acceptMsg_pg {pq : Page} (s : State) (p : Nat) (m : PtpMsg) (named : Bool) (h : pq ∉ [Page.bbox, .eth, .lane, .part, .ptpts, .sel]) :
    pageCells pq (acceptMsg s p m named).1.regs = pageCells pq s.regs := by
  simp only [List.mem_cons, List.not_mem_nil, or_false, not_or] at h
  unfold acceptMsg; dsimp only; (repeat' split) <;> simp (maxDischargeDepth := 30) [h]
@[simp] theorem estimate_pg {pq : Page} (s : State) (p n cyc : Nat) (raw : Int) (origin : Rat) (corr : Int) (r : Rat) (h : pq ∉ [Page.bbox, .lane, .part, .ptpts, .root, .sel]) :
    pageCells pq (estimate s p n cyc raw origin corr r).regs = pageCells pq s.regs := by
  simp only [List.mem_cons, List.not_mem_nil, or_false, not_or] at h
  simp (maxDischargeDepth := 30) [estimate, h, cite @modPtp_keeps]
@[simp] theorem syncTaken_pg {pq : Page} (s : State) (p : Nat) (m : PtpMsg) (origin r : Rat) (cyc : Nat) (h : pq ∉ [Page.bbox, .lane, .part, .ptpts, .root, .sel]) :
    pageCells pq (syncTaken s p m origin r cyc).regs = pageCells pq s.regs := by
  simp only [List.mem_cons, List.not_mem_nil, or_false, not_or] at h
  simp (maxDischargeDepth := 30) [syncTaken, h, cite @modPtp_keeps]
@[simp] theorem syncReceive_pg {pq : Page} (s : State) (p : Nat) (m : PtpMsg) (origin r : Rat) (cyc : Nat) (h : pq ∉ [Page.bbox, .eth, .lane, .part, .ptpts, .root, .sel]) :
    pageCells pq (syncReceive s p m origin r cyc).regs = pageCells pq s.regs := by
  simp only [List.mem_cons, List.not_mem_nil, or_false, not_or] at h
  simp (maxDischargeDepth := 30) [syncReceive, h, cite @fifoTake_keeps]
@[simp] theorem followUp_pg {pq : Page} (s : State) (p : Nat) (m : PtpMsg) (origin r : Rat) (cyc : Nat) (h : pq ∉ [Page.bbox, .eth, .lane, .part, .ptpts, .root, .sel]) :
    pageCells pq (followUp s p m origin r cyc).regs = pageCells pq s.regs := by
  simp only [List.mem_cons, List.not_mem_nil, or_false, not_or] at h
  unfold followUp; dsimp only; (repeat' split) <;> simp (maxDischargeDepth := 30) [h, cite @modPtp_keeps]
@[simp] theorem fromParent_pg {pq : Page} (s : State) (n p : Nat) (b : AnnounceBody) (cyc : Nat) (h : pq ∉ [Page.bbox, .lane, .part, .ptpts, .root, .sel]) :
    pageCells pq (fromParent s n p b cyc).regs = pageCells pq s.regs := by
  simp only [List.mem_cons, List.not_mem_nil, or_false, not_or] at h
  simp (maxDischargeDepth := 30) [fromParent, h, cite @modPtp_keeps]
@[simp] theorem portParentLost_pg {pq : Page} (s : State) (p n v : Nat) (h : pq ∉ [Page.bbox, .part, .ptpts]) :
    pageCells pq (portParentLost s p n v).regs = pageCells pq s.regs := by
  simp only [List.mem_cons, List.not_mem_nil, or_false, not_or] at h
  simp (maxDischargeDepth := 30) [portParentLost, h, cite @modPtp_keeps]
@[simp] theorem bmcaMove_pg {pq : Page} (s : State) (p n v : Nat) (h : pq ∉ [Page.bbox, .part, .ptpts]) :
    pageCells pq (bmcaMove s p n v).regs = pageCells pq s.regs := by
  simp only [List.mem_cons, List.not_mem_nil, or_false, not_or] at h
  simp (maxDischargeDepth := 30) [bmcaMove, h]
@[simp] theorem bmcaMaster_pg {pq : Page} (s : State) (p n wait : Nat) (h : pq ∉ [Page.bbox, .part, .ptpts]) :
    pageCells pq (bmcaMaster s p n wait).regs = pageCells pq s.regs := by
  simp only [List.mem_cons, List.not_mem_nil, or_false, not_or] at h
  simp (maxDischargeDepth := 30) [bmcaMaster, h, cite @modPtp_keeps]
@[simp] theorem announceReceive_pg {pq : Page} (s : State) (p : Nat) (m : PtpMsg) (b : AnnounceBody) (cyc : Nat) (h : pq ∉ [Page.bbox, .eth, .lane, .part, .ptpts, .root, .sel]) :
    pageCells pq (announceReceive s p m b cyc).regs = pageCells pq s.regs := by
  simp only [List.mem_cons, List.not_mem_nil, or_false, not_or] at h
  unfold announceReceive; dsimp only; (repeat' split) <;> simp (maxDischargeDepth := 30) [h]
@[simp] theorem parentLost_pg {pq : Page} (s : State) (p : Nat) (h : pq ∉ [Page.bbox, .part, .ptpts]) :
    pageCells pq (parentLost s p).regs = pageCells pq s.regs := by
  simp only [List.mem_cons, List.not_mem_nil, or_false, not_or] at h
  simp (maxDischargeDepth := 30) [parentLost, h]
@[simp] theorem announceSend_pg {pq : Page} (s : State) (p n : Nat) (h : pq ∉ [Page.eth]) :
    pageCells pq (announceSend s p n).regs = pageCells pq s.regs := by
  simp only [List.mem_cons, List.not_mem_nil, or_false] at h
  simp (maxDischargeDepth := 30) [announceSend, h, cite @modPtp_keeps]
@[simp] theorem delayReq_pg {pq : Page} (s : State) (p : Nat) (m : PtpMsg) (h : pq ∉ [Page.bbox, .eth, .lane, .part, .ptpts, .sel]) :
    pageCells pq (delayReq s p m).regs = pageCells pq s.regs := by
  simp only [List.mem_cons, List.not_mem_nil, or_false, not_or] at h
  simp (maxDischargeDepth := 30) [delayReq, h, cite @fifoTake_keeps, cite @modPtp_keeps]
@[simp] theorem pdelayReq_pg {pq : Page} (s : State) (p : Nat) (m : PtpMsg) (depF depO : Nat) (h : pq ∉ [Page.bbox, .eth, .lane, .part, .ptpts, .sel]) :
    pageCells pq (pdelayReq s p m depF depO).regs = pageCells pq s.regs := by
  simp only [List.mem_cons, List.not_mem_nil, or_false, not_or] at h
  simp (maxDischargeDepth := 30) [pdelayReq, h, cite @fifoTake_keeps, cite @modPtp_keeps]
@[simp] theorem delayReqSend_pg {pq : Page} (s : State) (p n rawF rawO : Nat) (h : pq ∉ [Page.eth, .ptpts]) :
    pageCells pq (delayReqSend s p n rawF rawO).regs = pageCells pq s.regs := by
  simp only [List.mem_cons, List.not_mem_nil, or_false, not_or] at h
  simp (maxDischargeDepth := 30) [delayReqSend, h, cite @modPtp_keeps]
@[simp] theorem delayResp_pg {pq : Page} (s : State) (p : Nat) (m : PtpMsg) (t1 t4 : Rat) (h : pq ∉ [Page.bbox, .eth, .lane, .part, .ptpts, .sel]) :
    pageCells pq (delayResp s p m t1 t4).regs = pageCells pq s.regs := by
  simp only [List.mem_cons, List.not_mem_nil, or_false, not_or] at h
  simp (maxDischargeDepth := 30) [delayResp, h, cite @fifoTake_keeps]
@[simp] theorem unicastRequest_pg {pq : Page} (s : State) (p n slave : Nat) (l : Int) (duration : Nat) (h : pq ∉ [Page.eth, .ptpts]) :
    pageCells pq (unicastRequest s p n slave l duration).regs = pageCells pq s.regs := by
  simp only [List.mem_cons, List.not_mem_nil, or_false, not_or] at h
  simp (maxDischargeDepth := 30) [unicastRequest, h, cite @modPtp_keeps]
@[simp] theorem syncSend_pg {pq : Page} (s : State) (p n : Nat) (b : List Nat) (rawF rawO : Nat) (h : pq ∉ [Page.eth, .ptpts]) :
    pageCells pq (syncSend s p n b rawF rawO).regs = pageCells pq s.regs := by
  simp only [List.mem_cons, List.not_mem_nil, or_false, not_or] at h
  simp (maxDischargeDepth := 30) [syncSend, h, cite @modPtp_keeps]

/-! ### Machine/Shelf.lean -/

@[simp] theorem publishPeers_pg {pq : Page} (s : State) (h : pq ∉ [Page.shelf]) :
    pageCells pq (publishPeers s).regs = pageCells pq s.regs := by
  simp only [List.mem_cons, List.not_mem_nil, or_false] at h
  unfold publishPeers; dsimp only; (repeat' split) <;> simp (maxDischargeDepth := 30) [h]
@[simp] theorem loadBuf_pg {pq : Page} (s : State) (t : Nat) (p : List Nat) (h : pq ∉ [Page.shelf]) :
    pageCells pq (loadBuf s t p).regs = pageCells pq s.regs := by
  simp only [List.mem_cons, List.not_mem_nil, or_false] at h
  simp (maxDischargeDepth := 30) [loadBuf, h, cite @busStart_keeps, cite @modShelf_keeps]
@[simp] theorem shelfQueue_pg {pq : Page} (s : State) (t : Nat) (build : Nat → List Nat) (h : pq ∉ [Page.shelf]) :
    pageCells pq (shelfQueue s t build).regs = pageCells pq s.regs := by
  simp only [List.mem_cons, List.not_mem_nil, or_false] at h
  simp (maxDischargeDepth := 30) [shelfQueue, h, cite @takeSeq_keeps]
@[simp] theorem sendStatus_pg {pq : Page} (s : State) (h : pq ∉ [Page.shelf]) :
    pageCells pq (sendStatus s).regs = pageCells pq s.regs := by
  simp only [List.mem_cons, List.not_mem_nil, or_false] at h
  simp (maxDischargeDepth := 30) [sendStatus, h]
@[simp] theorem sendElect_pg {pq : Page} (s : State) (judge : Bool) (h : pq ∉ [Page.shelf]) :
    pageCells pq (sendElect s judge).regs = pageCells pq s.regs := by
  simp only [List.mem_cons, List.not_mem_nil, or_false] at h
  simp (maxDischargeDepth := 30) [sendElect, h, cite @modShelf_keeps, cite @evaluate_keeps]
@[simp] theorem sendQlf_pg {pq : Page} (s : State) (h : pq ∉ [Page.shelf]) :
    pageCells pq (sendQlf s).regs = pageCells pq s.regs := by
  simp only [List.mem_cons, List.not_mem_nil, or_false] at h
  simp (maxDischargeDepth := 30) [sendQlf, h, cite @modShelf_keeps]
@[simp] theorem sendTod_pg {pq : Page} (s : State) (sec : Nat) (h : pq ∉ [Page.shelf]) :
    pageCells pq (sendTod s sec).regs = pageCells pq s.regs := by
  simp only [List.mem_cons, List.not_mem_nil, or_false] at h
  simp (maxDischargeDepth := 30) [sendTod, h, cite @modShelf_keeps]
@[simp] theorem sendAlert_pg {pq : Page} (s : State) (kind part dom data : Nat) (h : pq ∉ [Page.shelf]) :
    pageCells pq (sendAlert s kind part dom data).regs = pageCells pq s.regs := by
  simp only [List.mem_cons, List.not_mem_nil, or_false] at h
  simp (maxDischargeDepth := 30) [sendAlert, h]
@[simp] theorem roleChange_pg {pq : Page} (s : State) (h : pq ∉ [Page.bbox, .out, .shelf]) :
    pageCells pq (roleChange s).regs = pageCells pq s.regs := by
  simp only [List.mem_cons, List.not_mem_nil, or_false, not_or] at h
  unfold roleChange; dsimp only; (repeat' split) <;> simp (maxDischargeDepth := 30) [h, cite @modShelf_keeps]
@[simp] theorem peerLapse_pg {pq : Page} (s : State) (node : Nat) (h : pq ∉ [Page.shelf]) :
    pageCells pq (peerLapse s node).regs = pageCells pq s.regs := by
  simp only [List.mem_cons, List.not_mem_nil, or_false] at h
  simp (maxDischargeDepth := 30) [peerLapse, h, cite @evaluate_keeps, cite @modShelf_keeps]
@[simp] theorem goSilent_pg {pq : Page} (s : State) (h : pq ∉ [Page.shelf]) :
    pageCells pq (goSilent s).regs = pageCells pq s.regs := by
  simp only [List.mem_cons, List.not_mem_nil, or_false] at h
  simp (maxDischargeDepth := 30) [goSilent, h, cite @set1_keeps, cite @evaluate_keeps, cite @modShelf_keeps]
@[simp] theorem shelfRejoin_pg {pq : Page} (s : State) (h : pq ∉ [Page.shelf]) :
    pageCells pq (shelfRejoin s).regs = pageCells pq s.regs := by
  simp only [List.mem_cons, List.not_mem_nil, or_false] at h
  simp (maxDischargeDepth := 30) [shelfRejoin, h, cite @modShelf_keeps]
@[simp] theorem shelfReset_pg {pq : Page} (s : State) (h : pq ∉ [Page.shelf]) :
    pageCells pq (shelfReset s).regs = pageCells pq s.regs := by
  simp only [List.mem_cons, List.not_mem_nil, or_false] at h
  simp (maxDischargeDepth := 30) [shelfReset, h]
@[simp] theorem shelfCommit_pg {pq : Page} (s : State) (oldGroup : Nat) (h : pq ∉ [Page.shelf]) :
    pageCells pq (shelfCommit s oldGroup).regs = pageCells pq s.regs := by
  simp only [List.mem_cons, List.not_mem_nil, or_false] at h
  simp (maxDischargeDepth := 30) [shelfCommit, h, cite @evaluate_keeps, cite @modShelf_keeps]
@[simp] theorem busDone_pg {pq : Page} (s : State) (h : pq ∉ [Page.shelf]) :
    pageCells pq (busDone s).regs = pageCells pq s.regs := by
  simp only [List.mem_cons, List.not_mem_nil, or_false] at h
  unfold busDone; dsimp only; (repeat' split) <;> simp (maxDischargeDepth := 30) [h, cite @busStart_keeps, cite @modShelf_keeps, cite @addCnt_keeps]
@[simp] theorem todSchedule_pg {pq : Page} (s : State) (h : pq ∉ [Page.shelf]) :
    pageCells pq (todSchedule s).regs = pageCells pq s.regs := by
  simp only [List.mem_cons, List.not_mem_nil, or_false] at h
  unfold todSchedule; dsimp only; (repeat' split) <;> simp (maxDischargeDepth := 30) [h, cite @modShelf_keeps]
@[simp] theorem shelfFrame_pg {pq : Page} (s : State) (h : pq ∉ [Page.shelf]) :
    pageCells pq (shelfFrame s).regs = pageCells pq s.regs := by
  simp only [List.mem_cons, List.not_mem_nil, or_false] at h
  simp (maxDischargeDepth := 30) [shelfFrame, h, cite @busDone_keeps, cite @peerLapse_keeps]
@[simp] theorem alertDom_pg {pq : Page} (s : State) (d : Nat) (h : pq ∉ [Page.shelf]) :
    pageCells pq (alertDom s d).regs = pageCells pq s.regs := by
  simp only [List.mem_cons, List.not_mem_nil, or_false] at h
  simp (maxDischargeDepth := 30) [alertDom, h]
@[simp] theorem alertLane_pg {pq : Page} (a s : State) (f : Nat) (h : pq ∉ [Page.shelf]) :
    pageCells pq (alertLane a s f).regs = pageCells pq s.regs := by
  simp only [List.mem_cons, List.not_mem_nil, or_false] at h
  unfold alertLane; (repeat' split) <;> simp (maxDischargeDepth := 30) [h]
@[simp] theorem alertChan_pg {pq : Page} (a s : State) (c : Nat) (h : pq ∉ [Page.shelf]) :
    pageCells pq (alertChan a s c).regs = pageCells pq s.regs := by
  simp only [List.mem_cons, List.not_mem_nil, or_false] at h
  simp (maxDischargeDepth := 30) [alertChan, h]
@[simp] theorem shelfAlerts_pg {pq : Page} (a s : State) (h : pq ∉ [Page.shelf]) :
    pageCells pq (shelfAlerts a s).regs = pageCells pq s.regs := by
  simp only [List.mem_cons, List.not_mem_nil, or_false] at h
  simp (maxDischargeDepth := 30) [shelfAlerts, h]
@[simp] theorem electRx_pg {pq : Page} (s : State) (n : Nat) (p : List Nat) (h : pq ∉ [Page.shelf]) :
    pageCells pq (electRx s n p).regs = pageCells pq s.regs := by
  simp only [List.mem_cons, List.not_mem_nil, or_false] at h
  simp (maxDischargeDepth := 30) [electRx, h, cite @modShelf_keeps, cite @evaluate_keeps]
@[simp] theorem todRx_pg {pq : Page} (s : State) (n : Nat) (p : List Nat) (h : pq ∉ [Page.shelf]) :
    pageCells pq (todRx s n p).regs = pageCells pq s.regs := by
  simp only [List.mem_cons, List.not_mem_nil, or_false] at h
  simp (maxDischargeDepth := 30) [todRx, h]
@[simp] theorem sendResp_pg {pq : Page} (s : State) (node tag result : Nat) (words : List Nat) (h : pq ∉ [Page.shelf]) :
    pageCells pq (sendResp s node tag result words).regs = pageCells pq s.regs := by
  simp only [List.mem_cons, List.not_mem_nil, or_false] at h
  simp (maxDischargeDepth := 30) [sendResp, h]
@[simp] theorem regReqRx_pg {pq : Page} (s : State) (n : Nat) (p : List Nat) (h : pq ∉ [Page.shelf]) :
    pageCells pq (regReqRx s n p).regs = pageCells pq s.regs := by
  simp only [List.mem_cons, List.not_mem_nil, or_false] at h
  simp (maxDischargeDepth := 30) [regReqRx, h, cite @modShelf_keeps]
@[simp] theorem nodeClash_pg {pq : Page} (s : State) (ident : Nat) (h : pq ∉ [Page.bbox, .shelf]) :
    pageCells pq (nodeClash s ident).regs = pageCells pq s.regs := by
  simp only [List.mem_cons, List.not_mem_nil, or_false, not_or] at h
  simp (maxDischargeDepth := 30) [nodeClash, h, cite @modShelf_keeps]
@[simp] theorem shelfRx_pg {pq : Page} (s : State) (f : CanFrame) (cyc : Nat) (h : pq ∉ [Page.bbox, .lane, .part, .ptpts, .root, .sel, .shelf]) :
    pageCells pq (shelfRx s f cyc).regs = pageCells pq s.regs := by
  simp only [List.mem_cons, List.not_mem_nil, or_false, not_or] at h
  unfold shelfRx; dsimp only; (repeat' split) <;> simp (maxDischargeDepth := 30) [h, cite @modShelf_keeps]
@[simp] theorem busOffEnter_pg {pq : Page} (s : State) (tec : Nat) (h : pq ∉ [Page.bbox, .shelf]) :
    pageCells pq (busOffEnter s tec).regs = pageCells pq s.regs := by
  simp only [List.mem_cons, List.not_mem_nil, or_false, not_or] at h
  simp (maxDischargeDepth := 30) [busOffEnter, h, cite @modShelf_keeps]
@[simp] theorem busOffLeave_pg {pq : Page} (s : State) (h : pq ∉ [Page.shelf]) :
    pageCells pq (busOffLeave s).regs = pageCells pq s.regs := by
  simp only [List.mem_cons, List.not_mem_nil, or_false] at h
  simp (maxDischargeDepth := 30) [busOffLeave, h, cite @busStart_keeps]
@[simp] theorem shelfPowerFail_pg {pq : Page} (s : State) (h : pq ∉ [Page.shelf]) :
    pageCells pq (shelfPowerFail s).regs = pageCells pq s.regs := by
  simp only [List.mem_cons, List.not_mem_nil, or_false] at h
  simp (maxDischargeDepth := 30) [shelfPowerFail, h, cite @busStart_keeps, cite @modShelf_keeps, cite @takeSeq_keeps]
@[simp] theorem shelfRecover_pg {pq : Page} (s : State) (h : pq ∉ [Page.shelf]) :
    pageCells pq (shelfRecover s).regs = pageCells pq s.regs := by
  simp only [List.mem_cons, List.not_mem_nil, or_false] at h
  simp (maxDischargeDepth := 30) [shelfRecover, h, cite @modShelf_keeps]
@[simp] theorem gateShelfTx_pg {pq : Page} (s : State) (t : Nat) (p : List Nat) (h : pq ∉ [Page.root, .shelf]) :
    pageCells pq (gateShelfTx s t p).regs = pageCells pq s.regs := by
  simp only [List.mem_cons, List.not_mem_nil, or_false, not_or] at h
  simp (maxDischargeDepth := 30) [gateShelfTx, h, cite @gateRes_keeps]

/-! ### Machine/Cellar.lean -/

@[simp] theorem cellarEntry_pg {pq : Page} (s : State) (code block copy cause : Nat) (v : Supply) (h : pq ∉ [Page.bbox]) :
    pageCells pq (cellarEntry s code block copy cause v).regs = pageCells pq s.regs := by
  simp only [List.mem_cons, List.not_mem_nil, or_false] at h
  simp (maxDischargeDepth := 30) [cellarEntry, h]
@[simp] theorem lifetimeSat_pg {pq : Page} (s : State) (block copy : Nat) (h : pq ∉ [Page.bbox, .cellar]) :
    pageCells pq (lifetimeSat s block copy).regs = pageCells pq s.regs := by
  simp only [List.mem_cons, List.not_mem_nil, or_false, not_or] at h
  simp (maxDischargeDepth := 30) [lifetimeSat, h]
@[simp] theorem ltAdd_pg {pq : Page} (s : State) (i : Nat) (h : pq ∉ [Page.bbox, .cellar]) :
    pageCells pq (ltAdd s i).regs = pageCells pq s.regs := by
  simp only [List.mem_cons, List.not_mem_nil, or_false, not_or] at h
  simp (maxDischargeDepth := 30) [ltAdd, h, cite @putSramLE_keeps]
@[simp] theorem leafPark_pg {pq : Page} (s : State) (h : pq ∉ [Page.root]) :
    pageCells pq (leafPark s).regs = pageCells pq s.regs := by
  simp only [List.mem_cons, List.not_mem_nil, or_false] at h
  simp (maxDischargeDepth := 30) [leafPark, h]
@[simp] theorem leafResume_pg {pq : Page} (s : State) (h : pq ∉ [Page.root]) :
    pageCells pq (leafResume s).regs = pageCells pq s.regs := by
  simp only [List.mem_cons, List.not_mem_nil, or_false] at h
  simp (maxDischargeDepth := 30) [leafResume, h]
@[simp] theorem park_pg {pq : Page} (s : State) (o : Nat) (h : pq ∉ [Page.root]) :
    pageCells pq (park s o).regs = pageCells pq s.regs := by
  simp only [List.mem_cons, List.not_mem_nil, or_false] at h
  simp (maxDischargeDepth := 30) [park, h, cite @modCellar_keeps]
@[simp] theorem unpark_pg {pq : Page} (s : State) (o : Nat) (h : pq ∉ [Page.root]) :
    pageCells pq (unpark s o).regs = pageCells pq s.regs := by
  simp only [List.mem_cons, List.not_mem_nil, or_false] at h
  simp (maxDischargeDepth := 30) [unpark, h, cite @modCellar_keeps]
@[simp] theorem startJob_pg {pq : Page} (s : State) (j : StoreJob) (h : pq ∉ [Page.cellar, .root]) :
    pageCells pq (startJob s j).regs = pageCells pq s.regs := by
  simp only [List.mem_cons, List.not_mem_nil, or_false, not_or] at h
  simp (maxDischargeDepth := 30) [startJob, h, cite @modCellar_keeps]
@[simp] theorem engineStart_pg {pq : Page} (s : State) (v : Supply) (h : pq ∉ [Page.cellar, .root]) :
    pageCells pq (engineStart s v).regs = pageCells pq s.regs := by
  simp only [List.mem_cons, List.not_mem_nil, or_false, not_or] at h
  unfold engineStart; dsimp only; (repeat' split) <;> simp (maxDischargeDepth := 30) [h, cite @modCellar_keeps]
@[simp] theorem engineKick_pg {pq : Page} (s : State) (v : Supply) (h : pq ∉ [Page.cellar, .root]) :
    pageCells pq (engineKick s v).regs = pageCells pq s.regs := by
  simp only [List.mem_cons, List.not_mem_nil, or_false, not_or] at h
  simp (maxDischargeDepth := 30) [engineKick, h]
@[simp] theorem rootStore_pg {pq : Page} (s : State) (b prio owner : Nat) (h : pq ∉ [Page.cellar, .root]) :
    pageCells pq (rootStore s b prio owner).regs = pageCells pq s.regs := by
  simp only [List.mem_cons, List.not_mem_nil, or_false, not_or] at h
  simp (maxDischargeDepth := 30) [rootStore, h, cite @modCellar_keeps, cite @addJob_keeps]
@[simp] theorem rootFix_pg {pq : Page} (s : State) (b c prio : Nat) (h : pq ∉ [Page.cellar, .root]) :
    pageCells pq (rootFix s b c prio).regs = pageCells pq s.regs := by
  simp only [List.mem_cons, List.not_mem_nil, or_false, not_or] at h
  simp (maxDischargeDepth := 30) [rootFix, h, cite @modCellar_keeps, cite @addJob_keeps]
@[simp] theorem cmdEnd_pg {pq : Page} (s : State) (p state cause : Nat) (h : pq ∉ [Page.cellar]) :
    pageCells pq (cmdEnd s p state cause).regs = pageCells pq s.regs := by
  simp only [List.mem_cons, List.not_mem_nil, or_false] at h
  simp (maxDischargeDepth := 30) [cmdEnd, h, cite @modCellar_keeps]
@[simp] theorem storeCmd_pg {pq : Page} (s : State) (p first countM1 : Nat) (h : pq ∉ [Page.cellar, .root]) :
    pageCells pq (storeCmd s p first countM1).regs = pageCells pq s.regs := by
  simp only [List.mem_cons, List.not_mem_nil, or_false, not_or] at h
  simp (maxDischargeDepth := 30) [storeCmd, h, cite @modCellar_keeps, cite @addJob_keeps]
@[simp] theorem cancelCmd_pg {pq : Page} (s : State) (p : Nat) (h : pq ∉ [Page.cellar, .root]) :
    pageCells pq (cancelCmd s p).regs = pageCells pq s.regs := by
  simp only [List.mem_cons, List.not_mem_nil, or_false, not_or] at h
  unfold cancelCmd; dsimp only; (repeat' split) <;> simp (maxDischargeDepth := 30) [h, cite @dropOwner_keeps, cite @modCellar_keeps]
@[simp] theorem orphanDone_pg {pq : Page} (s : State) (p : Nat) (h : pq ∉ [Page.cellar, .root]) :
    pageCells pq (orphanDone s p).regs = pageCells pq s.regs := by
  simp only [List.mem_cons, List.not_mem_nil, or_false, not_or] at h
  simp (maxDischargeDepth := 30) [orphanDone, h]
@[simp] theorem cmdBlockDone_pg {pq : Page} (s : State) (p : Nat) (h : pq ∉ [Page.cellar, .part, .root]) :
    pageCells pq (cmdBlockDone s p).regs = pageCells pq s.regs := by
  simp only [List.mem_cons, List.not_mem_nil, or_false, not_or] at h
  simp (maxDischargeDepth := 30) [cmdBlockDone, h, cite @modCellar_keeps]
@[simp] theorem ringStore_pg {pq : Page} (s : State) (h : pq ∉ [Page.cellar, .root]) :
    pageCells pq (ringStore s).regs = pageCells pq s.regs := by
  simp only [List.mem_cons, List.not_mem_nil, or_false, not_or] at h
  simp (maxDischargeDepth := 30) [ringStore, h, cite @ringWrite_keeps]
@[simp] theorem ringPut_pg {pq : Page} (s : State) (k : Nat) (v : List Nat) (h : pq ∉ [Page.cellar, .root]) :
    pageCells pq (ringPut s k v).regs = pageCells pq s.regs := by
  simp only [List.mem_cons, List.not_mem_nil, or_false, not_or] at h
  simp (maxDischargeDepth := 30) [ringPut, h, cite @modCellar_keeps]
@[simp] theorem programmed_pg {pq : Page} (s : State) (r : StoreRun) (h : pq ∉ [Page.bbox, .cellar]) :
    pageCells pq (programmed s r).regs = pageCells pq s.regs := by
  simp only [List.mem_cons, List.not_mem_nil, or_false, not_or] at h
  simp (maxDischargeDepth := 30) [programmed, h, cite @modCellar_keeps]
@[simp] theorem setLast_pg {pq : Page} (s : State) (b c result : Nat) (h : pq ∉ [Page.cellar]) :
    pageCells pq (setLast s b c result).regs = pageCells pq s.regs := by
  simp only [List.mem_cons, List.not_mem_nil, or_false] at h
  simp (maxDischargeDepth := 30) [setLast, h]
@[simp] theorem pfDone_pg {pq : Page} (s : State) (c : Nat) (v : Supply) (h : pq ∉ [Page.bbox, .cellar]) :
    pageCells pq (pfDone s c v).regs = pageCells pq s.regs := by
  simp only [List.mem_cons, List.not_mem_nil, or_false, not_or] at h
  simp (maxDischargeDepth := 30) [pfDone, h, cite @modCellar_keeps]
@[simp] theorem storeEnds_pg {pq : Page} (s : State) (r : StoreRun) (v : Supply) (h : pq ∉ [Page.bbox, .cellar, .part, .root]) :
    pageCells pq (storeEnds s r v).regs = pageCells pq s.regs := by
  simp only [List.mem_cons, List.not_mem_nil, or_false, not_or] at h
  simp (maxDischargeDepth := 30) [storeEnds, h]
@[simp] theorem storeAbandon_pg {pq : Page} (s : State) (j : StoreJob) (v : Supply) (h : pq ∉ [Page.bbox, .cellar, .root]) :
    pageCells pq (storeAbandon s j v).regs = pageCells pq s.regs := by
  simp only [List.mem_cons, List.not_mem_nil, or_false, not_or] at h
  simp (maxDischargeDepth := 30) [storeAbandon, h, cite @modCellar_keeps, cite @dropOwner_keeps]
@[simp] theorem cancelAll_pg {pq : Page} (s : State) (h : pq ∉ [Page.cellar, .root]) :
    pageCells pq (cancelAll s).regs = pageCells pq s.regs := by
  simp only [List.mem_cons, List.not_mem_nil, or_false, not_or] at h
  unfold cancelAll; dsimp only; (repeat' split) <;> simp (maxDischargeDepth := 30) [h, cite @modCellar_keeps]
@[simp] theorem pfSequence_pg {pq : Page} (s : State) (v : Supply) (h : pq ∉ [Page.cellar, .root]) :
    pageCells pq (pfSequence s v).regs = pageCells pq s.regs := by
  simp only [List.mem_cons, List.not_mem_nil, or_false, not_or] at h
  simp (maxDischargeDepth := 30) [pfSequence, h, cite @pfQueue_keeps]
@[simp] theorem cellarReady_pg {pq : Page} (s : State) (v : Supply) (h : pq ∉ [Page.cellar, .root]) :
    pageCells pq (cellarReady s v).regs = pageCells pq s.regs := by
  simp only [List.mem_cons, List.not_mem_nil, or_false, not_or] at h
  simp (maxDischargeDepth := 30) [cellarReady, h, cite @modCellar_keeps, cite @addJob_keeps, cite @ringWrite_keeps]
@[simp] theorem recallBlock_pg {pq : Page} (s : State) (b : Nat) (h : pq ∉ [Page.bbox, .cellar, .part, .root]) :
    pageCells pq (recallBlock s b).regs = pageCells pq s.regs := by
  simp only [List.mem_cons, List.not_mem_nil, or_false, not_or] at h
  unfold recallBlock; dsimp only; (repeat' split) <;> simp (maxDischargeDepth := 30) [h, cite @cellarEntry_keeps, cite @ltAdd_keeps, cite @addCnt_keeps, cite @evt_keeps, cite @partEvt_keeps]
@[simp] theorem recallSram_pg {pq : Page} (s : State) (h : pq ∉ [Page.bbox, .cellar, .part, .root]) :
    pageCells pq (recallSram s).regs = pageCells pq s.regs := by
  simp only [List.mem_cons, List.not_mem_nil, or_false, not_or] at h
  simp (maxDischargeDepth := 30) [recallSram, h, cite @modCellar_keeps]
@[simp] theorem cellarRecall_pg {pq : Page} (s : State) (h : pq ∉ [Page.bbox, .cellar, .part, .root]) :
    pageCells pq (cellarRecall s).regs = pageCells pq s.regs := by
  simp only [List.mem_cons, List.not_mem_nil, or_false, not_or] at h
  simp (maxDischargeDepth := 30) [cellarRecall, h, cite @putSramLE_keeps, cite @modCellar_keeps]
@[simp] theorem scrubStep_pg {pq : Page} (s : State) (r : ScrubRead) (v : Supply) (h : pq ∉ [Page.bbox, .cellar, .root]) :
    pageCells pq (scrubStep s r v).regs = pageCells pq s.regs := by
  simp only [List.mem_cons, List.not_mem_nil, or_false, not_or] at h
  unfold scrubStep; dsimp only; (repeat' split) <;> simp (maxDischargeDepth := 30) [h, cite @weaken_keeps]
@[simp] theorem gateCellarStore_pg {pq : Page} (s : State) (first count : Nat) (h : pq ∉ [Page.cellar, .root]) :
    pageCells pq (gateCellarStore s first count).regs = pageCells pq s.regs := by
  simp only [List.mem_cons, List.not_mem_nil, or_false, not_or] at h
  simp (maxDischargeDepth := 30) [gateCellarStore, h, cite @addJob_keeps, cite @gateRes_keeps]
@[simp] theorem gateStoreRequest_pg {pq : Page} (s : State) (first count : Nat) (h : pq ∉ [Page.cellar, .root]) :
    pageCells pq (gateStoreRequest s first count).regs = pageCells pq s.regs := by
  simp only [List.mem_cons, List.not_mem_nil, or_false, not_or] at h
  simp (maxDischargeDepth := 30) [gateStoreRequest, h, cite @addJob_keeps, cite @gateRes_keeps]
@[simp] theorem gateRingPut_pg {pq : Page} (s : State) (k : Nat) (v : List Nat) (h : pq ∉ [Page.cellar, .root]) :
    pageCells pq (gateRingPut s k v).regs = pageCells pq s.regs := by
  simp only [List.mem_cons, List.not_mem_nil, or_false, not_or] at h
  simp (maxDischargeDepth := 30) [gateRingPut, h, cite @gateRes_keeps]

/-! ### Machine/BlackBox.lean -/

@[simp] theorem unreadCross_pg {pq : Page} (before : Bool) (s : State) (h : pq ∉ [Page.bbox]) :
    pageCells pq (unreadCross before s).regs = pageCells pq s.regs := by
  simp only [List.mem_cons, List.not_mem_nil, or_false] at h
  simp (maxDischargeDepth := 30) [unreadCross, h]
@[simp] theorem overwriteEvt_pg {pq : Page} (s : State) (w : Nat) (h : pq ∉ [Page.bbox]) :
    pageCells pq (overwriteEvt s w).regs = pageCells pq s.regs := by
  simp only [List.mem_cons, List.not_mem_nil, or_false] at h
  simp (maxDischargeDepth := 30) [overwriteEvt, h]
@[simp] theorem codeEvts_pg {pq : Page} (s : State) (code : Nat) (h : pq ∉ [Page.bbox]) :
    pageCells pq (codeEvts s code).regs = pageCells pq s.regs := by
  simp only [List.mem_cons, List.not_mem_nil, or_false] at h
  simp (maxDischargeDepth := 30) [codeEvts, h]
@[simp] theorem writeEntry_pg {pq : Page} (s : State) (e : JEntry) (h : pq ∉ [Page.bbox, .cellar, .root]) :
    pageCells pq (writeEntry s e).regs = pageCells pq s.regs := by
  simp only [List.mem_cons, List.not_mem_nil, or_false, not_or] at h
  simp (maxDischargeDepth := 30) [writeEntry, h, cite @putSrams_keeps]
@[simp] theorem drainOne_pg {pq : Page} (s : State) (h : pq ∉ [Page.bbox, .cellar, .root]) :
    pageCells pq (drainOne s).regs = pageCells pq s.regs := by
  simp only [List.mem_cons, List.not_mem_nil, or_false, not_or] at h
  unfold drainOne; dsimp only; (repeat' split) <;> simp (maxDischargeDepth := 30) [h, cite @pumpHeld_keeps]
@[simp] theorem drainN_pg {pq : Page} (x1 : Nat) (x2 : State) (h : pq ∉ [Page.bbox, .cellar, .root]) :
    pageCells pq (drainN x1 x2).regs = pageCells pq x2.regs := by
  simp only [List.mem_cons, List.not_mem_nil, or_false, not_or] at h
  induction x1 generalizing x2 with
  | zero => rfl
  | succ n ih => simp [drainN, ih, h]
@[simp] theorem drainAll_pg {pq : Page} (s : State) (h : pq ∉ [Page.bbox, .cellar, .root]) :
    pageCells pq (drainAll s).regs = pageCells pq s.regs := by
  simp only [List.mem_cons, List.not_mem_nil, or_false, not_or] at h
  simp (maxDischargeDepth := 30) [drainAll, h, cite @pumpHeld_keeps]
@[simp] theorem frnRestart_pg {pq : Page} (s : State) (h : pq ∉ [Page.bbox, .cellar, .root]) :
    pageCells pq (frnRestart s).regs = pageCells pq s.regs := by
  simp only [List.mem_cons, List.not_mem_nil, or_false, not_or] at h
  simp (maxDischargeDepth := 30) [frnRestart, h]
@[simp] theorem bboxRecall_pg {pq : Page} (s : State) (h : pq ∉ [Page.bbox]) :
    pageCells pq (bboxRecall s).regs = pageCells pq s.regs := by
  simp only [List.mem_cons, List.not_mem_nil, or_false] at h
  simp (maxDischargeDepth := 30) [bboxRecall, h]
@[simp] theorem rdSeqWrite_pg {pq : Page} (s : State) (v : Nat) (h : pq ∉ [Page.bbox]) :
    pageCells pq (rdSeqWrite s v).regs = pageCells pq s.regs := by
  simp only [List.mem_cons, List.not_mem_nil, or_false] at h
  simp (maxDischargeDepth := 30) [rdSeqWrite, h, cite @set1_keeps]
@[simp] theorem bboxWmWrite_pg {pq : Page} (s : State) (v : Nat) (h : pq ∉ [Page.bbox]) :
    pageCells pq (bboxWmWrite s v).regs = pageCells pq s.regs := by
  simp only [List.mem_cons, List.not_mem_nil, or_false] at h
  simp (maxDischargeDepth := 30) [bboxWmWrite, h]

/-! ### Machine/Table.lean -/

@[simp] theorem entryCond_pg {pq : Page} (s : State) (c verdict gen : Nat) (h : pq ∉ [Page.bbox, .part]) :
    pageCells pq (entryCond s c verdict gen).regs = pageCells pq s.regs := by
  simp only [List.mem_cons, List.not_mem_nil, or_false, not_or] at h
  simp (maxDischargeDepth := 30) [entryCond, h]
@[simp] theorem refreshEntry_pg {pq : Page} (s : State) (c : Nat) (h : pq ∉ [Page.bbox, .chan, .part]) :
    pageCells pq (refreshEntry s c).regs = pageCells pq s.regs := by
  simp only [List.mem_cons, List.not_mem_nil, or_false, not_or] at h
  simp (maxDischargeDepth := 30) [refreshEntry, h, cite @modChan_keeps]
@[simp] theorem tableRefresh_pg {pq : Page} (s : State) (h : pq ∉ [Page.bbox, .chan, .part]) :
    pageCells pq (tableRefresh s).regs = pageCells pq s.regs := by
  simp only [List.mem_cons, List.not_mem_nil, or_false, not_or] at h
  simp (maxDischargeDepth := 30) [tableRefresh, h]
@[simp] theorem acceptEntry_pg {pq : Page} (s : State) (c : Nat) (h : pq ∉ [Page.bbox, .chan, .part]) :
    pageCells pq (acceptEntry s c).regs = pageCells pq s.regs := by
  simp only [List.mem_cons, List.not_mem_nil, or_false, not_or] at h
  unfold acceptEntry; dsimp only; (repeat' split) <;> simp (maxDischargeDepth := 30) [h, cite @modChan_keeps]
@[simp] theorem tableAccept_pg {pq : Page} (s : State) (h : pq ∉ [Page.bbox, .chan, .part]) :
    pageCells pq (tableAccept s).regs = pageCells pq s.regs := by
  simp only [List.mem_cons, List.not_mem_nil, or_false, not_or] at h
  simp (maxDischargeDepth := 30) [tableAccept, h]
@[simp] theorem hostHalfReset_pg {pq : Page} (s : State) (c : Nat) (h : pq ∉ [Page.bbox, .chan, .part]) :
    pageCells pq (hostHalfReset s c).regs = pageCells pq s.regs := by
  simp only [List.mem_cons, List.not_mem_nil, or_false, not_or] at h
  simp (maxDischargeDepth := 30) [hostHalfReset, h, cite @modChan_keeps, cite @clearRange_keeps]
@[simp] theorem tableReset_pg {pq : Page} (s : State) (h : pq ∉ [Page.chan]) :
    pageCells pq (tableReset s).regs = pageCells pq s.regs := by
  simp only [List.mem_cons, List.not_mem_nil, or_false] at h
  simp (maxDischargeDepth := 30) [tableReset, h, cite @modChan_keeps, cite @clearRange_keeps]

/-! ### Machine/Restart.lean -/

@[simp] theorem resetDone_pg {pq : Page} (s : State) (h : pq ∉ [Page.part]) :
    pageCells pq (resetDone s).regs = pageCells pq s.regs := by
  simp only [List.mem_cons, List.not_mem_nil, or_false] at h
  simp (maxDischargeDepth := 30) [resetDone, h]
@[simp] theorem moveOutput_pg {pq : Page} (a s : State) (n : Nat) (h : pq ∉ [Page.out]) :
    pageCells pq (moveOutput a s n).regs = pageCells pq s.regs := by
  simp only [List.mem_cons, List.not_mem_nil, or_false] at h
  unfold moveOutput
  dsimp only
  rw [outInit_pg _ _ (by simp [h])]
  simp only [cite @modOut_keeps]
  rw [evtIf_pg _ _ _ _ _ (by simp [h]), resetFields_pg _ _ _ (by simp [evtFields, h])]

/-! ### Machine/Root.lean -/

@[simp] theorem refuseProfile_pg {pq : Page} (s : State) (code off : Nat) (h : pq ∉ [Page.bbox, .root]) :
    pageCells pq (refuseProfile s code off).regs = pageCells pq s.regs := by
  simp only [List.mem_cons, List.not_mem_nil, or_false, not_or] at h
  simp (maxDischargeDepth := 30) [refuseProfile, h, cite @modRoot_keeps, cite @unmark_keeps, cite @reloadBlocks_keeps, cite @dropOwner_keeps]
@[simp] theorem commitStores_pg {pq : Page} (s : State) (first n : Nat) (h : pq ∉ [Page.cellar, .root]) :
    pageCells pq (commitStores s first n).regs = pageCells pq s.regs := by
  simp only [List.mem_cons, List.not_mem_nil, or_false, not_or] at h
  simp (maxDischargeDepth := 30) [commitStores, h]
@[simp] theorem beginCommit_pg {pq : Page} (s : State) (h : pq ∉ [Page.bbox, .cellar, .root]) :
    pageCells pq (beginCommit s).regs = pageCells pq s.regs := by
  simp only [List.mem_cons, List.not_mem_nil, or_false, not_or] at h
  simp (maxDischargeDepth := 30) [beginCommit, h, cite @putSramLE_keeps, cite @modRoot_keeps]
@[simp] theorem copyProfile_pg {pq : Page} (s : State) (h : pq ∉ [Page.cellar, .root]) :
    pageCells pq (copyProfile s).regs = pageCells pq s.regs := by
  simp only [List.mem_cons, List.not_mem_nil, or_false, not_or] at h
  simp (maxDischargeDepth := 30) [copyProfile, h, cite @modRoot_keeps, cite @putSramLE_keeps, cite @putSrams_keeps]
@[simp] theorem scheduleCommit_pg {pq : Page} (s : State) (h : pq ∉ [Page.root]) :
    pageCells pq (scheduleCommit s).regs = pageCells pq s.regs := by
  simp only [List.mem_cons, List.not_mem_nil, or_false] at h
  simp (maxDischargeDepth := 30) [scheduleCommit, h, cite @modRoot_keeps]
@[simp] theorem beginVerify_pg {pq : Page} (s : State) (commit : Bool) (h : pq ∉ [Page.root]) :
    pageCells pq (beginVerify s commit).regs = pageCells pq s.regs := by
  simp only [List.mem_cons, List.not_mem_nil, or_false] at h
  simp (maxDischargeDepth := 30) [beginVerify, h, cite @modRoot_keeps]
@[simp] theorem endVerify_pg {pq : Page} (s : State) (h : pq ∉ [Page.bbox, .cellar, .root]) :
    pageCells pq (endVerify s).regs = pageCells pq s.regs := by
  simp only [List.mem_cons, List.not_mem_nil, or_false, not_or] at h
  unfold endVerify; dsimp only; (repeat' split) <;> simp (maxDischargeDepth := 30) [h]
@[simp] theorem commitCmd_pg {pq : Page} (s : State) (h : pq ∉ [Page.bbox, .cellar, .root]) :
    pageCells pq (commitCmd s).regs = pageCells pq s.regs := by
  simp only [List.mem_cons, List.not_mem_nil, or_false, not_or] at h
  unfold commitCmd; (repeat' split) <;> simp (maxDischargeDepth := 30) [h, cite @modRoot_keeps]
@[simp] theorem verifyCmd_pg {pq : Page} (s : State) (h : pq ∉ [Page.root]) :
    pageCells pq (verifyCmd s).regs = pageCells pq s.regs := by
  simp only [List.mem_cons, List.not_mem_nil, or_false] at h
  simp (maxDischargeDepth := 30) [verifyCmd, h]
@[simp] theorem abortCmd_pg {pq : Page} (s : State) (h : pq ∉ [Page.bbox, .root]) :
    pageCells pq (abortCmd s).regs = pageCells pq s.regs := by
  simp only [List.mem_cons, List.not_mem_nil, or_false, not_or] at h
  unfold abortCmd; (repeat' split) <;> simp (maxDischargeDepth := 30) [h, cite @modRoot_keeps]
@[simp] theorem stopCommit_pg {pq : Page} (s : State) (code : Nat) (h : pq ∉ [Page.bbox, .root]) :
    pageCells pq (stopCommit s code).regs = pageCells pq s.regs := by
  simp only [List.mem_cons, List.not_mem_nil, or_false, not_or] at h
  simp (maxDischargeDepth := 30) [stopCommit, h]
@[simp] theorem publishKey_pg {pq : Page} (s : State) (h : pq ∉ [Page.root]) :
    pageCells pq (publishKey s).regs = pageCells pq s.regs := by
  simp only [List.mem_cons, List.not_mem_nil, or_false] at h
  simp (maxDischargeDepth := 30) [publishKey, h]
@[simp] theorem commitKey_pg {pq : Page} (s : State) (pub : List Nat) (rot : Option (List Nat)) (h : pq ∉ [Page.bbox, .cellar, .root]) :
    pageCells pq (commitKey s pub rot).regs = pageCells pq s.regs := by
  simp only [List.mem_cons, List.not_mem_nil, or_false, not_or] at h
  simp (maxDischargeDepth := 30) [commitKey, h, cite @putSrams_keeps]
@[simp] theorem debugEnd_pg {pq : Page} (s : State) (cause : Nat) (h : pq ∉ [Page.bbox, .dbg]) :
    pageCells pq (debugEnd s cause).regs = pageCells pq s.regs := by
  simp only [List.mem_cons, List.not_mem_nil, or_false, not_or] at h
  simp (maxDischargeDepth := 30) [debugEnd, h, cite @modRoot_keeps]
@[simp] theorem debugAsk_pg {pq : Page} (s : State) (h : pq ∉ [Page.bbox, .dbg]) :
    pageCells pq (debugAsk s).regs = pageCells pq s.regs := by
  simp only [List.mem_cons, List.not_mem_nil, or_false, not_or] at h
  simp (maxDischargeDepth := 30) [debugAsk, h, cite @modRoot_keeps]
@[simp] theorem debugFrame_pg {pq : Page} (s : State) (h : pq ∉ [Page.bbox, .dbg]) :
    pageCells pq (debugFrame s).regs = pageCells pq s.regs := by
  simp only [List.mem_cons, List.not_mem_nil, or_false, not_or] at h
  simp (maxDischargeDepth := 30) [debugFrame, h]
@[simp] theorem requalify_pg {pq : Page} (a : Policy) (s : State) (c : Nat) (h : pq ∉ [Page.bbox, .part, .sel]) :
    pageCells pq (requalify a s c).regs = pageCells pq s.regs := by
  simp only [List.mem_cons, List.not_mem_nil, or_false, not_or] at h
  simp (maxDischargeDepth := 30) [requalify, h, cite @qlClear_keeps]
@[simp] theorem portCommit_pg {pq : Page} (a : Policy) (s : State) (n : Nat) (h : pq ∉ [Page.bbox, .eth, .part, .ptpts]) :
    pageCells pq (portCommit a s n).regs = pageCells pq s.regs := by
  simp only [List.mem_cons, List.not_mem_nil, or_false, not_or] at h
  simp (maxDischargeDepth := 30) [portCommit, h]
@[simp] theorem markFallback_pg {pq : Page} (s : State) (h : pq ∉ [Page.sys]) :
    pageCells pq (markFallback s).regs = pageCells pq s.regs := by
  simp only [List.mem_cons, List.not_mem_nil, or_false] at h
  simp (maxDischargeDepth := 30) [markFallback, h]
@[simp] theorem acceptEpoch_pg {pq : Page} (s : State) (h : pq ∉ [Page.cellar, .root]) :
    pageCells pq (acceptEpoch s).regs = pageCells pq s.regs := by
  simp only [List.mem_cons, List.not_mem_nil, or_false, not_or] at h
  simp (maxDischargeDepth := 30) [acceptEpoch, h, cite @putSramLE_keeps]
@[simp] theorem setLeaf_pg {pq : Page} (s : State) (v : Nat) (h : pq ∉ [Page.root, .sys]) :
    pageCells pq (setLeaf s v).regs = pageCells pq s.regs := by
  simp only [List.mem_cons, List.not_mem_nil, or_false, not_or] at h
  simp (maxDischargeDepth := 30) [setLeaf, h]
@[simp] theorem leafDown_pg {pq : Page} (s : State) (h : pq ∉ [Page.bbox, .lane, .part, .ptpts, .sel]) :
    pageCells pq (leafDown s).regs = pageCells pq s.regs := by
  simp only [List.mem_cons, List.not_mem_nil, or_false, not_or] at h
  simp (maxDischargeDepth := 30) [leafDown, h, cite @nmeaPause_keeps, cite @shelfStop_keeps]
@[simp] theorem leafLast_pg {pq : Page} (s : State) (cause : Nat) (h : pq ∉ [Page.root]) :
    pageCells pq (leafLast s cause).regs = pageCells pq s.regs := by
  simp only [List.mem_cons, List.not_mem_nil, or_false] at h
  simp (maxDischargeDepth := 30) [leafLast, h]
@[simp] theorem leafRestart_pg {pq : Page} (s : State) (cause : Nat) (h : pq ∉ [Page.bbox, .lane, .part, .ptpts, .root, .sel, .sys]) :
    pageCells pq (leafRestart s cause).regs = pageCells pq s.regs := by
  simp only [List.mem_cons, List.not_mem_nil, or_false, not_or] at h
  simp (maxDischargeDepth := 30) [leafRestart, h]
@[simp] theorem leafFault_pg {pq : Page} (s : State) (cause : Nat) (h : pq ∉ [Page.bbox, .lane, .part, .ptpts, .root, .sel, .sys]) :
    pageCells pq (leafFault s cause).regs = pageCells pq s.regs := by
  simp only [List.mem_cons, List.not_mem_nil, or_false, not_or] at h
  simp (maxDischargeDepth := 30) [leafFault, h, cite @modRoot_keeps]
@[simp] theorem leafHost_pg {pq : Page} (s : State) (h : pq ∉ [Page.bbox, .lane, .part, .ptpts, .root, .sel, .sys]) :
    pageCells pq (leafHost s).regs = pageCells pq s.regs := by
  simp only [List.mem_cons, List.not_mem_nil, or_false, not_or] at h
  simp (maxDischargeDepth := 30) [leafHost, h, cite @modRoot_keeps]
@[simp] theorem leafStart_pg {pq : Page} (s : State) (h : pq ∉ [Page.cellar, .root, .shelf, .sys]) :
    pageCells pq (leafStart s).regs = pageCells pq s.regs := by
  simp only [List.mem_cons, List.not_mem_nil, or_false, not_or] at h
  simp (maxDischargeDepth := 30) [leafStart, h, cite @reloadBlocks_keeps, cite @modRoot_keeps]
@[simp] theorem imageLoad_pg {pq : Page} (s : State) (h : pq ∉ [Page.bbox, .lane, .part, .ptpts, .root, .sel, .sys]) :
    pageCells pq (imageLoad s).regs = pageCells pq s.regs := by
  simp only [List.mem_cons, List.not_mem_nil, or_false, not_or] at h
  simp (maxDischargeDepth := 30) [imageLoad, h, cite @modRoot_keeps]
@[simp] theorem imageOver_pg {pq : Page} (s : State) (h : pq ∉ [Page.bbox, .lane, .part, .ptpts, .root, .sel, .sys]) :
    pageCells pq (imageOver s).regs = pageCells pq s.regs := by
  simp only [List.mem_cons, List.not_mem_nil, or_false, not_or] at h
  simp (maxDischargeDepth := 30) [imageOver, h, cite @modRoot_keeps]
@[simp] theorem imageCancel_pg {pq : Page} (s : State) (h : pq ∉ [Page.bbox, .lane, .part, .ptpts, .root, .sel, .sys]) :
    pageCells pq (imageCancel s).regs = pageCells pq s.regs := by
  simp only [List.mem_cons, List.not_mem_nil, or_false, not_or] at h
  simp (maxDischargeDepth := 30) [imageCancel, h, cite @reloadBlocks_keeps]
@[simp] theorem imageRefuse_pg {pq : Page} (s : State) (code : Nat) (h : pq ∉ [Page.bbox, .lane, .part, .ptpts, .root, .sel, .sys]) :
    pageCells pq (imageRefuse s code).regs = pageCells pq s.regs := by
  simp only [List.mem_cons, List.not_mem_nil, or_false, not_or] at h
  simp (maxDischargeDepth := 30) [imageRefuse, h, cite @reloadBlocks_keeps, cite @dropOwner_keeps]
@[simp] theorem imageStored_pg {pq : Page} (s : State) (h : pq ∉ [Page.bbox, .lane, .part, .ptpts, .root, .sel, .sys]) :
    pageCells pq (imageStored s).regs = pageCells pq s.regs := by
  simp only [List.mem_cons, List.not_mem_nil, or_false, not_or] at h
  simp (maxDischargeDepth := 30) [imageStored, h]
@[simp] theorem imageVerified_pg {pq : Page} (s : State) (h : pq ∉ [Page.bbox, .cellar, .lane, .part, .ptpts, .root, .sel, .sys]) :
    pageCells pq (imageVerified s).regs = pageCells pq s.regs := by
  simp only [List.mem_cons, List.not_mem_nil, or_false, not_or] at h
  unfold imageVerified; dsimp only; (repeat' split) <;> simp (maxDischargeDepth := 30) [h, cite @modRoot_keeps]
@[simp] theorem imagePowerFail_pg {pq : Page} (s : State) (h : pq ∉ [Page.bbox, .lane, .part, .ptpts, .root, .sel, .sys]) :
    pageCells pq (imagePowerFail s).regs = pageCells pq s.regs := by
  simp only [List.mem_cons, List.not_mem_nil, or_false, not_or] at h
  simp (maxDischargeDepth := 30) [imagePowerFail, h]
@[simp] theorem storeThen_pg {pq : Page} (s : State) (r : StoreRun) (h : pq ∉ [Page.bbox, .cellar, .lane, .part, .ptpts, .root, .sel, .sys]) :
    pageCells pq (storeThen s r).regs = pageCells pq s.regs := by
  simp only [List.mem_cons, List.not_mem_nil, or_false, not_or] at h
  simp (maxDischargeDepth := 30) [storeThen, h]
@[simp] theorem storeDone_pg {pq : Page} (s : State) (v : Supply) (h : pq ∉ [Page.bbox, .cellar, .lane, .part, .ptpts, .root, .sel, .sys]) :
    pageCells pq (storeDone s v).regs = pageCells pq s.regs := by
  simp only [List.mem_cons, List.not_mem_nil, or_false, not_or] at h
  unfold storeDone; (repeat' split) <;> simp (maxDischargeDepth := 30) [h]
@[simp] theorem storeGiveUp_pg {pq : Page} (s : State) (v : Supply) (h : pq ∉ [Page.bbox, .cellar, .lane, .part, .ptpts, .root, .sel, .sys]) :
    pageCells pq (storeGiveUp s v).regs = pageCells pq s.regs := by
  simp only [List.mem_cons, List.not_mem_nil, or_false, not_or] at h
  unfold storeGiveUp; dsimp only; (repeat' split) <;> simp (maxDischargeDepth := 30) [h]

/-! ### Machine/Power.lean -/

@[simp] theorem publishAvg_pg {pq : Page} (s : State) (h : pq ∉ [Page.pwr]) :
    pageCells pq (publishAvg s).regs = pageCells pq s.regs := by
  simp only [List.mem_cons, List.not_mem_nil, or_false] at h
  simp (maxDischargeDepth := 30) [publishAvg, h]
@[simp] theorem seedAvg_pg {pq : Page} (s : State) (mv : Nat) (h : pq ∉ [Page.pwr]) :
    pageCells pq (seedAvg s mv).regs = pageCells pq s.regs := by
  simp only [List.mem_cons, List.not_mem_nil, or_false] at h
  simp (maxDischargeDepth := 30) [seedAvg, h, cite @modPower_keeps]
@[simp] theorem avgFrame_pg {pq : Page} (s : State) (mv : Nat) (h : pq ∉ [Page.pwr]) :
    pageCells pq (avgFrame s mv).regs = pageCells pq s.regs := by
  simp only [List.mem_cons, List.not_mem_nil, or_false] at h
  simp (maxDischargeDepth := 30) [avgFrame, h, cite @modPower_keeps]
@[simp] theorem holdupOk_pg {pq : Page} (s : State) (mv : Nat) (h : pq ∉ [Page.pwr]) :
    pageCells pq (holdupOk s mv).regs = pageCells pq s.regs := by
  simp only [List.mem_cons, List.not_mem_nil, or_false] at h
  simp (maxDischargeDepth := 30) [holdupOk, h]
@[simp] theorem charging_pg {pq : Page} (s : State) (mv : Nat) (h : pq ∉ [Page.pwr]) :
    pageCells pq (charging s mv).regs = pageCells pq s.regs := by
  simp only [List.mem_cons, List.not_mem_nil, or_false] at h
  simp (maxDischargeDepth := 30) [charging, h]
@[simp] theorem holdupMin_pg {pq : Page} (s : State) (mv : Nat) (h : pq ∉ [Page.pwr]) :
    pageCells pq (holdupMin s mv).regs = pageCells pq s.regs := by
  simp only [List.mem_cons, List.not_mem_nil, or_false] at h
  simp (maxDischargeDepth := 30) [holdupMin, h]
@[simp] theorem outputsShut_pg {pq : Page} (s : State) (h : pq ∉ [Page.out]) :
    pageCells pq (outputsShut s).regs = pageCells pq s.regs := by
  simp only [List.mem_cons, List.not_mem_nil, or_false] at h
  simp (maxDischargeDepth := 30) [outputsShut, h, cite @modOut_keeps]
@[simp] theorem shutdown_pg {pq : Page} (s : State) (h : pq ∉ [Page.out, .pwr]) :
    pageCells pq (shutdown s).regs = pageCells pq s.regs := by
  simp only [List.mem_cons, List.not_mem_nil, or_false, not_or] at h
  simp (maxDischargeDepth := 30) [shutdown, h, cite @modShelf_keeps, cite @modPower_keeps, cite @powerOff_keeps]
@[simp] theorem recordFail_pg {pq : Page} (s : State) (cause vin holdup : Nat) (h : pq ∉ [Page.pwr]) :
    pageCells pq (recordFail s cause vin holdup).regs = pageCells pq s.regs := by
  simp only [List.mem_cons, List.not_mem_nil, or_false] at h
  simp (maxDischargeDepth := 30) [recordFail, h]
@[simp] theorem powerFail_pg {pq : Page} (s : State) (cause vin holdup : Nat) (h : pq ∉ [Page.bbox, .cellar, .eth, .lane, .osc, .out, .part, .ptpts, .pwr, .root, .sel, .shelf, .sys]) :
    pageCells pq (powerFail s cause vin holdup).regs = pageCells pq s.regs := by
  simp only [List.mem_cons, List.not_mem_nil, or_false, not_or] at h
  simp (maxDischargeDepth := 30) [powerFail, h]
@[simp] theorem pfRecover_pg {pq : Page} (s : State) (vin ms : Nat) (h : pq ∉ [Page.bbox, .cellar, .osc, .pwr, .root, .shelf]) :
    pageCells pq (pfRecover s vin ms).regs = pageCells pq s.regs := by
  simp only [List.mem_cons, List.not_mem_nil, or_false, not_or] at h
  simp (maxDischargeDepth := 30) [pfRecover, h, cite @cellarResume_keeps]
@[simp] theorem warmStart_pg {pq : Page} (s : State) (h : pq ∉ [Page.osc]) :
    pageCells pq (warmStart s).regs = pageCells pq s.regs := by
  simp only [List.mem_cons, List.not_mem_nil, or_false] at h
  simp (maxDischargeDepth := 30) [warmStart, h, cite @modPower_keeps]
@[simp] theorem warmDone_pg {pq : Page} (s : State) (h : pq ∉ [Page.osc]) :
    pageCells pq (warmDone s).regs = pageCells pq s.regs := by
  simp only [List.mem_cons, List.not_mem_nil, or_false] at h
  simp (maxDischargeDepth := 30) [warmDone, h]
@[simp] theorem ovenFault_pg {pq : Page} (s : State) (h : pq ∉ [Page.bbox, .osc, .sys]) :
    pageCells pq (ovenFault s).regs = pageCells pq s.regs := by
  simp only [List.mem_cons, List.not_mem_nil, or_false, not_or] at h
  simp (maxDischargeDepth := 30) [ovenFault, h]
@[simp] theorem ovenFrame_pg {pq : Page} (s : State) (i : FrameIn) (h : pq ∉ [Page.osc]) :
    pageCells pq (ovenFrame s i).regs = pageCells pq s.regs := by
  simp only [List.mem_cons, List.not_mem_nil, or_false] at h
  simp (maxDischargeDepth := 30) [ovenFrame, h, cite @modPower_keeps]
@[simp] theorem powerFrame_pg {pq : Page} (s : State) (i : FrameIn) (h : pq ∉ [Page.osc, .pwr]) :
    pageCells pq (powerFrame s i).regs = pageCells pq s.regs := by
  simp only [List.mem_cons, List.not_mem_nil, or_false, not_or] at h
  simp (maxDischargeDepth := 30) [powerFrame, h, cite @modPower_keeps]

/-! ### Machine/Start.lean -/

@[simp] theorem calDefault_pg {pq : Page} (s : State) (h : pq ∉ [Page.sys]) :
    pageCells pq (calDefault s).regs = pageCells pq s.regs := by
  simp only [List.mem_cons, List.not_mem_nil, or_false] at h
  simp (maxDischargeDepth := 30) [calDefault, h]
@[simp] theorem powerInit_pg {pq : Page} (s : State) (i : StartIn) (h : pq ∉ [Page.osc, .pwr]) :
    pageCells pq (powerInit s i).regs = pageCells pq s.regs := by
  simp only [List.mem_cons, List.not_mem_nil, or_false, not_or] at h
  simp (maxDischargeDepth := 30) [powerInit, h]
@[simp] theorem firstEntry_pg {pq : Page} (s : State) (h : pq ∉ [Page.bbox, .cellar, .root]) :
    pageCells pq (firstEntry s).regs = pageCells pq s.regs := by
  simp only [List.mem_cons, List.not_mem_nil, or_false, not_or] at h
  simp (maxDischargeDepth := 30) [firstEntry, h]
@[simp] theorem resetHold_pg {pq : Page} (s : State) (h : pq ∉ [Page.root, .sys]) :
    pageCells pq (resetHold s).regs = pageCells pq s.regs := by
  simp only [List.mem_cons, List.not_mem_nil, or_false, not_or] at h
  simp (maxDischargeDepth := 30) [resetHold, h, cite @modOut_keeps, cite @modCellar_keeps]
@[simp] theorem tbSwitched_pg {pq : Page} (s : State) (src cause : Nat) (h : pq ∉ [Page.bbox, .frame, .sys]) :
    pageCells pq (tbSwitched s src cause).regs = pageCells pq s.regs := by
  simp only [List.mem_cons, List.not_mem_nil, or_false, not_or] at h
  simp (maxDischargeDepth := 30) [tbSwitched, h]
@[simp] theorem recordSys_pg {pq : Page} (s : State) (cause : Nat) (h : pq ∉ [Page.sys]) :
    pageCells pq (recordSys s cause).regs = pageCells pq s.regs := by
  simp only [List.mem_cons, List.not_mem_nil, or_false] at h
  simp (maxDischargeDepth := 30) [recordSys, h]
@[simp] theorem dropVerify_pg {pq : Page} (s : State) (h : pq ∉ [Page.root]) :
    pageCells pq (dropVerify s).regs = pageCells pq s.regs := by
  simp only [List.mem_cons, List.not_mem_nil, or_false] at h
  simp (maxDischargeDepth := 30) [dropVerify, h, cite @modRoot_keeps]
@[simp] theorem leafAgain_pg {pq : Page} (s : State) (h : pq ∉ [Page.bbox, .lane, .part, .ptpts, .root, .sel, .shelf, .sys]) :
    pageCells pq (leafAgain s).regs = pageCells pq s.regs := by
  simp only [List.mem_cons, List.not_mem_nil, or_false, not_or] at h
  unfold leafAgain; (repeat' split) <;> simp (maxDischargeDepth := 30) [h]
@[simp] theorem procReset_pg {pq : Page} (s : State) (h : pq ∉ [Page.bbox, .dbg, .lane, .part, .ptpts, .root, .sel, .shelf, .sys]) :
    pageCells pq (procReset s).regs = pageCells pq s.regs := by
  simp only [List.mem_cons, List.not_mem_nil, or_false, not_or] at h
  simp (maxDischargeDepth := 30) [procReset, h, cite @modRoot_keeps]

/-! ### Machine/Reads.lean -/

@[simp] theorem regResp_pg {pq : Page} (s : State) (r : RegReq) (h : pq ∉ [Page.shelf]) :
    pageCells pq (regResp s r).regs = pageCells pq s.regs := by
  simp only [List.mem_cons, List.not_mem_nil, or_false] at h
  simp (maxDischargeDepth := 30) [regResp, h, cite @readRegs_keeps]
@[simp] theorem gateRegRead_pg {pq : Page} (s : State) (a n : Nat) (h : pq ∉ [Page.root]) :
    pageCells pq (gateRegRead s a n).regs = pageCells pq s.regs := by
  simp only [List.mem_cons, List.not_mem_nil, or_false] at h
  simp (maxDischargeDepth := 30) [gateRegRead, h, cite @readRegs_keeps]

/-! ### Machine/Ports.lean -/

@[simp] theorem journalDenied_pg {pq : Page} (s : State) (count tag addr : Nat) (p : Port) (h : pq ∉ [Page.bbox]) :
    pageCells pq (journalDenied s count tag addr p).regs = pageCells pq s.regs := by
  simp only [List.mem_cons, List.not_mem_nil, or_false] at h
  simp (maxDischargeDepth := 30) [journalDenied, h]

/-! ### Machine/HostWrites.lean -/

@[simp] theorem discard_pg {pq : Page} (s : State) (rest : List QWrite) (w : QWrite) (h : pq ∉ [Page.bbox]) :
    pageCells pq (discard s rest w).regs = pageCells pq s.regs := by
  simp only [List.mem_cons, List.not_mem_nil, or_false] at h
  simp (maxDischargeDepth := 30) [discard, h]
@[simp] theorem goWord_pg {pq : Page} (p : Nat) (s : State) (w : QWrite) (h : pq ∉ [Page.cellar, .root]) :
    pageCells pq (goWord p s w).regs = pageCells pq s.regs := by
  simp only [List.mem_cons, List.not_mem_nil, or_false, not_or] at h
  unfold goWord; (repeat' split) <;> simp (maxDischargeDepth := 30) [h]
@[simp] theorem storeStep_pg {pq : Page} (s : State) (live : List QWrite) (h : pq ∉ [Page.cellar, .root]) :
    pageCells pq (storeStep s live).regs = pageCells pq s.regs := by
  simp only [List.mem_cons, List.not_mem_nil, or_false, not_or] at h
  simp (maxDischargeDepth := 30) [storeStep, h]
@[simp] theorem armTrig_pg {pq : Page} (s : State) (d k v : Nat) (h : pq ∉ [Page.time]) :
    pageCells pq (armTrig s d k v).regs = pageCells pq s.regs := by
  simp only [List.mem_cons, List.not_mem_nil, or_false] at h
  simp (maxDischargeDepth := 30) [armTrig, h]
@[simp] theorem armCap_pg {pq : Page} (s : State) (d c v : Nat) (h : pq ∉ [Page.time]) :
    pageCells pq (armCap s d c v).regs = pageCells pq s.regs := by
  simp only [List.mem_cons, List.not_mem_nil, or_false] at h
  simp (maxDischargeDepth := 30) [armCap, h]
@[simp] theorem armWord_pg {pq : Page} (s : State) (w : QWrite) (h : pq ∉ [Page.time]) :
    pageCells pq (armWord s w).regs = pageCells pq s.regs := by
  simp only [List.mem_cons, List.not_mem_nil, or_false] at h
  unfold armWord; (repeat' split) <;> simp (maxDischargeDepth := 30) [h]
@[simp] theorem armStep_pg {pq : Page} (s : State) (due : List QWrite) (parts : List Nat) (h : pq ∉ [Page.time]) :
    pageCells pq (armStep s due parts).regs = pageCells pq s.regs := by
  simp only [List.mem_cons, List.not_mem_nil, or_false] at h
  simp (maxDischargeDepth := 30) [armStep, h]

/-! ### Machine/Frame.lean -/

@[simp] theorem stages_pg {pq : Page} (s : State) (i : FrameIn) (h : pq ∉ [Page.apll, .bbox, .cellar, .chan, .dpll, .frame, .harv, .lane, .out, .part, .ptpts, .root, .rows, .sel, .shelf, .sys, .time]) :
    pageCells pq (stages s i).regs = pageCells pq s.regs := by
  simp only [List.mem_cons, List.not_mem_nil, or_false, not_or] at h
  simp (maxDischargeDepth := 30) [stages, h]
@[simp] theorem frameEnd_pg {pq : Page} (s : State) (i : FrameIn) (h : pq ∉ [Page.apll, .bbox, .cellar, .frame, .harv, .lane, .out, .part, .root, .time]) :
    pageCells pq (frameEnd s i).regs = pageCells pq s.regs := by
  simp only [List.mem_cons, List.not_mem_nil, or_false, not_or] at h
  simp (maxDischargeDepth := 30) [frameEnd, h, cite @frameLost_keeps, cite @suppressionEnd_keeps]
@[simp] theorem tbBridge_pg {pq : Page} (s : State) (d : Nat) (h : pq ∉ [Page.dpll]) :
    pageCells pq (tbBridge s d).regs = pageCells pq s.regs := by
  simp only [List.mem_cons, List.not_mem_nil, or_false] at h
  simp (maxDischargeDepth := 30) [tbBridge, h, cite @modDom_keeps]
@[simp] theorem tbSwitch_pg {pq : Page} (s : State) (h : pq ∉ [Page.bbox, .dpll, .frame, .sys]) :
    pageCells pq (tbSwitch s).regs = pageCells pq s.regs := by
  simp only [List.mem_cons, List.not_mem_nil, or_false, not_or] at h
  simp (maxDischargeDepth := 30) [tbSwitch, h]
@[simp] theorem outLost_pg {pq : Page} (s : State) (n : Nat) (h : pq ∉ [Page.out]) :
    pageCells pq (outLost s n).regs = pageCells pq s.regs := by
  simp only [List.mem_cons, List.not_mem_nil, or_false] at h
  unfold outLost; dsimp only; (repeat' split) <;> simp (maxDischargeDepth := 30) [h, cite @modOut_keeps]
@[simp] theorem tbLost_pg {pq : Page} (s : State) (h : pq ∉ [Page.bbox, .cellar, .out, .root, .sys]) :
    pageCells pq (tbLost s).regs = pageCells pq s.regs := by
  simp only [List.mem_cons, List.not_mem_nil, or_false, not_or] at h
  simp (maxDischargeDepth := 30) [tbLost, h]

end Sys2Proof.Machine
end

