-- ==== Sys2Proof/Laws/Sizes.lean ====
section
/-! SUPPORT. The numbers of units: every operation keeps how many lanes, functions, rows, partitions, channels, pairs,
domains, APLLs, outputs, time units, triggers, captures, ports and instances the state holds. -/

namespace Sys2Proof.Machine

open Sys2Proof

@[simp] theorem length_ite {α : Type} (c : Prop) [Decidable c] (a b : List α) :
    (if c then a else b).length = if c then a.length else b.length := by split <;> rfl
@[simp] theorem map_ite {α β : Type} (f : α → β) (c : Prop) [Decidable c] (a b : List α) :
    (if c then a else b).map f = if c then a.map f else b.map f := by split <;> rfl
theorem map_modify_same {α β : Type} (f : α → β) (g : α → α) (h : ∀ x, f (g x) = f x) (l : List α) (n : Nat) :
    (l.modify n g).map f = l.map f := by
  apply List.ext_getElem?
  intro i
  simp only [List.getElem?_map, List.getElem?_modify]
  cases l[i]? <;> simp
  split <;> simp [h]
@[simp] theorem modLane_len (s : State) (n : Nat) (f : LaneU → LaneU) : (modLane s n f).lanes.length = s.lanes.length := by simp [modLane]
@[simp] theorem foldl_lanes_len {α : Type} (f : State → α → State) (h : ∀ t x, (f t x).lanes.length = t.lanes.length) (l : List α) (s : State) :
    (l.foldl f s).lanes.length = s.lanes.length := foldl_inv (fun s => s.lanes.length) f h l s
@[simp] theorem modFunc_len (s : State) (n : Nat) (f : FuncU → FuncU) : (modFunc s n f).funcs.length = s.funcs.length := by simp [modFunc]
@[simp] theorem foldl_funcs_len {α : Type} (f : State → α → State) (h : ∀ t x, (f t x).funcs.length = t.funcs.length) (l : List α) (s : State) :
    (l.foldl f s).funcs.length = s.funcs.length := foldl_inv (fun s => s.funcs.length) f h l s
@[simp] theorem modRow_len (s : State) (n : Nat) (f : RowU → RowU) : (modRow s n f).rows.length = s.rows.length := by simp [modRow]
@[simp] theorem foldl_rows_len {α : Type} (f : State → α → State) (h : ∀ t x, (f t x).rows.length = t.rows.length) (l : List α) (s : State) :
    (l.foldl f s).rows.length = s.rows.length := foldl_inv (fun s => s.rows.length) f h l s
@[simp] theorem modPart_len (s : State) (n : Nat) (f : PartU → PartU) : (modPart s n f).parts.length = s.parts.length := by simp [modPart]
@[simp] theorem foldl_parts_len {α : Type} (f : State → α → State) (h : ∀ t x, (f t x).parts.length = t.parts.length) (l : List α) (s : State) :
    (l.foldl f s).parts.length = s.parts.length := foldl_inv (fun s => s.parts.length) f h l s
@[simp] theorem modChan_len (s : State) (n : Nat) (f : ChanU → ChanU) : (modChan s n f).chans.length = s.chans.length := by simp [modChan]
@[simp] theorem foldl_chans_len {α : Type} (f : State → α → State) (h : ∀ t x, (f t x).chans.length = t.chans.length) (l : List α) (s : State) :
    (l.foldl f s).chans.length = s.chans.length := foldl_inv (fun s => s.chans.length) f h l s
@[simp] theorem modPkt_len (s : State) (n : Nat) (f : PktU → PktU) : (modPkt s n f).pkts.length = s.pkts.length := by simp [modPkt]
@[simp] theorem foldl_pkts_len {α : Type} (f : State → α → State) (h : ∀ t x, (f t x).pkts.length = t.pkts.length) (l : List α) (s : State) :
    (l.foldl f s).pkts.length = s.pkts.length := foldl_inv (fun s => s.pkts.length) f h l s
@[simp] theorem modDom_len (s : State) (n : Nat) (f : DomU → DomU) : (modDom s n f).doms.length = s.doms.length := by simp [modDom]
@[simp] theorem foldl_doms_len {α : Type} (f : State → α → State) (h : ∀ t x, (f t x).doms.length = t.doms.length) (l : List α) (s : State) :
    (l.foldl f s).doms.length = s.doms.length := foldl_inv (fun s => s.doms.length) f h l s
@[simp] theorem modApll_len (s : State) (n : Nat) (f : ApllU → ApllU) : (modApll s n f).aplls.length = s.aplls.length := by simp [modApll]
@[simp] theorem foldl_aplls_len {α : Type} (f : State → α → State) (h : ∀ t x, (f t x).aplls.length = t.aplls.length) (l : List α) (s : State) :
    (l.foldl f s).aplls.length = s.aplls.length := foldl_inv (fun s => s.aplls.length) f h l s
@[simp] theorem modOut_len (s : State) (n : Nat) (f : OutU → OutU) : (modOut s n f).outs.length = s.outs.length := by simp [modOut]
@[simp] theorem foldl_outs_len {α : Type} (f : State → α → State) (h : ∀ t x, (f t x).outs.length = t.outs.length) (l : List α) (s : State) :
    (l.foldl f s).outs.length = s.outs.length := foldl_inv (fun s => s.outs.length) f h l s
@[simp] theorem modEth_len (s : State) (n : Nat) (f : EthU → EthU) : (modEth s n f).eths.length = s.eths.length := by simp [modEth]
@[simp] theorem foldl_eths_len {α : Type} (f : State → α → State) (h : ∀ t x, (f t x).eths.length = t.eths.length) (l : List α) (s : State) :
    (l.foldl f s).eths.length = s.eths.length := foldl_inv (fun s => s.eths.length) f h l s
@[simp] theorem modPtp_len (s : State) (n : Nat) (f : PtpU → PtpU) : (modPtp s n f).ptps.length = s.ptps.length := by simp [modPtp]
@[simp] theorem foldl_ptps_len {α : Type} (f : State → α → State) (h : ∀ t x, (f t x).ptps.length = t.ptps.length) (l : List α) (s : State) :
    (l.foldl f s).ptps.length = s.ptps.length := foldl_inv (fun s => s.ptps.length) f h l s
@[simp] theorem foldl_pairs_len {α : Type} (f : State → α → State)
    (h : ∀ t x, (f t x).pairs.map List.length = t.pairs.map List.length) (l : List α) (s : State) :
    (l.foldl f s).pairs.map List.length = s.pairs.map List.length := foldl_inv (fun s => s.pairs.map List.length) f h l s
@[simp] theorem foldl_times_len {α : Type} (f : State → α → State)
    (h : ∀ t x, (f t x).times.map TimeU.sizes = t.times.map TimeU.sizes) (l : List α) (s : State) :
    (l.foldl f s).times.map TimeU.sizes = s.times.map TimeU.sizes := foldl_inv (fun s => s.times.map TimeU.sizes) f h l s
@[simp] theorem modPair_len (s : State) (d c : Nat) (f : PairU → PairU) :
    (modPair s d c f).pairs.map List.length = s.pairs.map List.length := by
  simp only [modPair]
  rw [map_modify_same _ _ (by simp)]
@[simp] theorem modTime_len (s : State) (n : Nat) (f : TimeU → TimeU) (h : ∀ u, (f u).trigs.length = u.trigs.length)
    (h2 : ∀ u, (f u).caps.length = u.caps.length) :
    (modTime s n f).times.map TimeU.sizes = s.times.map TimeU.sizes := by
  simp only [modTime]
  rw [map_modify_same _ _ (by simp [TimeU.sizes, h, h2])]

/-! ### Machine/Lanes.lean -/

@[simp] theorem baseLost_len (s : State) (f : Nat) :
    (baseLost s f).funcs.length = s.funcs.length := by
  simp (maxDischargeDepth := 10) [baseLost]
@[simp] theorem startLane_len (s : State) (n f : Nat) :
    (startLane s n f).lanes.length = s.lanes.length ∧ (startLane s n f).funcs.length = s.funcs.length := by
  simp (maxDischargeDepth := 10) [startLane, cite @modLane_keeps, cite @set1_keeps, cite @bareLane_keeps, cite @modFunc_keeps, cite @baseLost_keeps]
@[simp] theorem loseLane_len (s : State) (f old : Nat) :
    (loseLane s f old).lanes.length = s.lanes.length ∧ (loseLane s f old).funcs.length = s.funcs.length := by
  simp (maxDischargeDepth := 10) [loseLane, cite @baseLost_keeps, cite @modLane_keeps, cite @journalMove_keeps, cite @bareLane_keeps, cite @degraded_keeps, cite @chanEvt_keeps, cite @set1_keeps]
@[simp] theorem moveFunc_len (s : State) (f old : Nat) :
    (moveFunc s f old).lanes.length = s.lanes.length ∧ (moveFunc s f old).funcs.length = s.funcs.length := by
  unfold moveFunc; dsimp only; (repeat' split) <;> simp (maxDischargeDepth := 10) [cite @bareLane_keeps, cite @modLane_keeps, cite @journalMove_keeps, cite @chanEvt_keeps]
@[simp] theorem withhold_len (s : State) (f n : Nat) :
    (withhold s f n).funcs.length = s.funcs.length := by
  simp (maxDischargeDepth := 10) [withhold, cite @noSamples_keeps]
@[simp] theorem moveIfBad_len (bad : List (Nat × Nat)) (s : State) (f : Nat) :
    (moveIfBad bad s f).lanes.length = s.lanes.length ∧ (moveIfBad bad s f).funcs.length = s.funcs.length := by
  unfold moveIfBad; (repeat' split) <;> simp (maxDischargeDepth := 10) [cite @withhold_keeps]
@[simp] theorem moveFaulted_len (s : State) (bad : List (Nat × Nat)) :
    (moveFaulted s bad).lanes.length = s.lanes.length ∧ (moveFaulted s bad).funcs.length = s.funcs.length := by
  simp (maxDischargeDepth := 10) [moveFaulted, cite @laneSorted_keeps, cite @laneFault_keeps]
@[simp] theorem calibrate_len (s : State) (n : Nat) (result : Option Int) (codeBad : Bool) :
    (calibrate s n result codeBad).1.lanes.length = s.lanes.length := by
  unfold calibrate; dsimp only; (repeat' split) <;> simp (maxDischargeDepth := 10) [cite @set1_keeps]
@[simp] theorem selfCheck_len (s : State) (i : FrameIn) (n : Nat) :
    (selfCheck s i n).lanes.length = s.lanes.length := by
  simp (maxDischargeDepth := 10) [selfCheck, cite @set1_keeps]
@[simp] theorem calFrame_len (s : State) (i : FrameIn) (n : Nat) :
    (calFrame s i n).1.lanes.length = s.lanes.length := by
  unfold calFrame; (repeat' split) <;> simp (maxDischargeDepth := 10)
@[simp] theorem checkLane_len (i : FrameIn) (a : State × List (Nat × Nat)) (n : Nat) :
    (checkLane i a n).1.lanes.length = a.1.lanes.length := by
  unfold checkLane; dsimp only; (repeat' split) <;> simp (maxDischargeDepth := 10)
@[simp] theorem findFaults_len (s : State) (i : FrameIn) :
    (findFaults s i).1.lanes.length = s.lanes.length := by
  unfold findFaults
  generalize List.range 18 = l
  exact foldl_inv (fun a => a.1.lanes.length) (checkLane i) (by simp) l (s, [])
@[simp] theorem laneDriven_len (s : State) (f : Nat) :
    (laneDriven s f).lanes.length = s.lanes.length := by
  unfold laneDriven; dsimp only; (repeat' split) <;> simp (maxDischargeDepth := 10) [cite @evt_keeps, cite @set1_keeps]
@[simp] theorem suspectOnset_len (s : State) (g : Nat) :
    (suspectOnset s g).funcs.length = s.funcs.length := by
  simp (maxDischargeDepth := 10) [suspectOnset, cite @laneSuspect_keeps, cite @chanEvt_keeps]
@[simp] theorem overdriveOnset_len (s : State) (f : Nat) :
    (overdriveOnset s f).lanes.length = s.lanes.length ∧ (overdriveOnset s f).funcs.length = s.funcs.length ∧
    (overdriveOnset s f).chans.length = s.chans.length := by
  simp (maxDischargeDepth := 10) [overdriveOnset, cite @modFunc_keeps, cite @baseLost_keeps, cite @modChan_keeps, cite @suspectOnset_keeps, cite @laneDriven_keeps, cite @chanEvt_keeps, cite @journalPg_keeps]
@[simp] theorem overdriveLane_len (s : State) (f : Nat) (on : Bool) :
    (overdriveLane s f on).lanes.length = s.lanes.length := by
  unfold overdriveLane; dsimp only; (repeat' split) <;> simp (maxDischargeDepth := 10) [cite @set1_keeps, cite @addCnt_keeps]
@[simp] theorem overdrivePad_len (s : State) (f : Nat) (on : Bool) :
    (overdrivePad s f on).lanes.length = s.lanes.length ∧ (overdrivePad s f on).funcs.length = s.funcs.length ∧
    (overdrivePad s f on).chans.length = s.chans.length := by
  simp (maxDischargeDepth := 10) [overdrivePad, cite @modFunc_keeps, cite @overdriveLane_keeps]
@[simp] theorem overdriveFrame_len (s : State) (pads : Nat) :
    (overdriveFrame s pads).lanes.length = s.lanes.length ∧ (overdriveFrame s pads).funcs.length = s.funcs.length ∧
    (overdriveFrame s pads).chans.length = s.chans.length := by
  simp (maxDischargeDepth := 10) [overdriveFrame]
@[simp] theorem suspectTick_len (s : State) (f : Nat) :
    (suspectTick s f).funcs.length = s.funcs.length := by
  unfold suspectTick; dsimp only; (repeat' split) <;> simp (maxDischargeDepth := 10) [cite @set1_keeps]
@[simp] theorem noLane_len (s : State) (f : Nat) :
    (noLane s f).funcs.length = s.funcs.length := by
  simp (maxDischargeDepth := 10) [noLane]
@[simp] theorem sampleFunc_len (v : Interval) (s : State) (f : Nat) :
    (sampleFunc v s f).lanes.length = s.lanes.length ∧ (sampleFunc v s f).funcs.length = s.funcs.length := by
  unfold sampleFunc; dsimp only; (repeat' split) <;> simp (maxDischargeDepth := 10) [cite @noLane_keeps, cite @modLane_keeps, cite @modFunc_keeps, cite @set1_keeps, cite @laneSummary_keeps]
@[simp] theorem latchPlan_len (s : State) (f : Nat) :
    (latchPlan s f).funcs.length = s.funcs.length := by
  simp (maxDischargeDepth := 10) [latchPlan]
@[simp] theorem stage1_len (s : State) (i : FrameIn) :
    (stage1 s i).lanes.length = s.lanes.length ∧ (stage1 s i).funcs.length = s.funcs.length ∧
    (stage1 s i).chans.length = s.chans.length := by
  simp (maxDischargeDepth := 10) [stage1, cite @suspectFlags_keeps, cite @findFaults_keeps, cite @sampleFunc_keeps, cite @idleLane_keeps, cite @latchPlan_keeps, cite @laneSorted_keeps, cite @moveFaulted_keeps]
@[simp] theorem lanesEnd_len (s : State) :
    (lanesEnd s).funcs.length = s.funcs.length := by
  simp (maxDischargeDepth := 10) [lanesEnd, cite @spareCalEnd_keeps, cite @set1_keeps]

/-! ### Machine/Rows.lean -/

@[simp] theorem putRow_len (s : State) (n : Nat) (r : RowU) :
    (putRow s n r).rows.length = s.rows.length := by
  simp (maxDischargeDepth := 10) [putRow, cite @storeWords_keeps]
@[simp] theorem modRun_len (s : State) (p : Nat) (f : PRun → PRun) :
    (modRun s p f).parts.length = s.parts.length := by
  simp (maxDischargeDepth := 10) [modRun]
@[simp] theorem setRunRow_len (s : State) (p r : Nat) (x : RowRun) :
    (setRunRow s p r x).parts.length = s.parts.length := by
  simp (maxDischargeDepth := 10) [setRunRow]
@[simp] theorem closeRow_len (s : State) (p n : Nat) (auto : Bool) :
    (closeRow s p n auto).rows.length = s.rows.length ∧ (closeRow s p n auto).parts.length = s.parts.length := by
  simp (maxDischargeDepth := 10) [closeRow, cite @modPart_keeps, cite @modRow_keeps]
@[simp] theorem autoClose_len (s : State) (p n : Nat) :
    (autoClose s p n).rows.length = s.rows.length ∧ (autoClose s p n).parts.length = s.parts.length := by
  unfold autoClose; dsimp only; (repeat' split) <;> simp (maxDischargeDepth := 10) [cite @setRunRow_keeps, cite @partEvt_keeps]
@[simp] theorem execAcc_len (s : State) (p n : Nat) (i : Ins) :
    (execAcc s p n i).rows.length = s.rows.length ∧ (execAcc s p n i).parts.length = s.parts.length := by
  unfold execAcc; dsimp only; (repeat' split) <;> simp (maxDischargeDepth := 10) [cite @setRunRow_keeps, cite @putRow_keeps, cite @reportReplays_keeps, cite @reportInf_keeps, cite @modRun_keeps]
@[simp] theorem execOpn_len (s : State) (p n pre operand : Nat) :
    (execOpn s p n pre operand).rows.length = s.rows.length ∧
    (execOpn s p n pre operand).parts.length = s.parts.length := by
  unfold execOpn; dsimp only; (repeat' split) <;> simp (maxDischargeDepth := 10) [cite @setRunRow_keeps, cite @putRow_keeps]
@[simp] theorem missedRow_len (s : State) (p : Nat) (x1 : Ins) :
    (missedRow s p x1).rows.length = s.rows.length := by
  unfold missedRow; (repeat' split) <;> simp (maxDischargeDepth := 10)
@[simp] theorem overrun_len (s : State) (p : Nat) :
    (overrun s p).parts.length = s.parts.length := by
  simp (maxDischargeDepth := 10) [overrun, cite @addCnt_keeps, cite @evt_keeps, cite @partEvt_keeps]
@[simp] theorem runIns_len (s : State) (p : Nat) (i : Ins) :
    (runIns s p i).rows.length = s.rows.length ∧ (runIns s p i).parts.length = s.parts.length := by
  unfold runIns; (repeat' split) <;> simp (maxDischargeDepth := 10) [cite @modRun_keeps]
@[simp] theorem stepIns_len (s : State) (p : Nat) (i : Ins) :
    (stepIns s p i).rows.length = s.rows.length ∧ (stepIns s p i).parts.length = s.parts.length := by
  unfold stepIns; dsimp only; (repeat' split) <;> simp (maxDischargeDepth := 10) [cite @modRun_keeps, cite @missedRow_keeps, cite @overrun_keeps, cite @recordFault_keeps]
@[simp] theorem missedRest_len (x1 : List Nat) (x2 : State) (x3 x4 : Nat) :
    (missedRest x1 x2 x3 x4).rows.length = x2.rows.length := by
  induction x1 generalizing x2 x3 x4 with
  | nil => simp [missedRest]
  | cons b r ih => (unfold missedRest; dsimp only; (repeat' split) <;> simp [ih])
@[simp] theorem runWords_len (x1 : List Nat) (x2 : State) (x3 : Nat) :
    (runWords x1 x2 x3).rows.length = x2.rows.length ∧ (runWords x1 x2 x3).parts.length = x2.parts.length := by
  induction x1 generalizing x2 x3 with
  | nil => simp [runWords, cite @missedRest_keeps]
  | cons b r ih => (unfold runWords; dsimp only; (repeat' split) <;> simp [ih, cite @missedRest_keeps])
@[simp] theorem runsStart_len (s : State) :
    (runsStart s).parts.length = s.parts.length := by
  simp (maxDischargeDepth := 10) [runsStart]
@[simp] theorem publishRows_len (s : State) :
    (publishRows s).rows.length = s.rows.length := by
  simp (maxDischargeDepth := 10) [publishRows, cite @setF_keeps, cite @set1_keeps]
@[simp] theorem stage2_len (s : State) :
    (stage2 s).rows.length = s.rows.length ∧ (stage2 s).parts.length = s.parts.length := by
  simp (maxDischargeDepth := 10) [stage2, cite @runsStart_keeps, cite @set1_keeps, cite @publishRows_keeps]
@[simp] theorem resetRows_len (s : State) (p : Nat) :
    (resetRows s p).rows.length = s.rows.length ∧ (resetRows s p).parts.length = s.parts.length := by
  unfold resetRows; dsimp only; (repeat' split) <;> simp (maxDischargeDepth := 10) [cite @set1_keeps, cite @setF_keeps, cite @modPart_keeps]
@[simp] theorem setStandby_len (s : State) (p i w : Nat) :
    (setStandby s p i w).parts.length = s.parts.length := by
  simp (maxDischargeDepth := 10) [setStandby]
@[simp] theorem progWinWrite_len (s : State) (p i v : Nat) :
    (progWinWrite s p i v).parts.length = s.parts.length := by
  simp (maxDischargeDepth := 10) [progWinWrite, cite @setF_keeps]
@[simp] theorem insCommand_len (s : State) (p : Nat) (i : Ins) :
    (insCommand s p i).rows.length = s.rows.length ∧ (insCommand s p i).parts.length = s.parts.length := by
  simp (maxDischargeDepth := 10) [insCommand]

/-! ### Machine/Harvest.lean -/

@[simp] theorem harvest_len (s : State) :
    (harvest s).parts.length = s.parts.length := by
  simp (maxDischargeDepth := 10) [harvest, cite @partEvt_keeps, cite @dropStaged_keeps, cite @takeRec_keeps]

/-! ### Machine/Quality.lean -/

@[simp] theorem applyRank_len (s : State) (c rank frames : Nat) :
    (applyRank s c rank frames).chans.length = s.chans.length := by
  simp (maxDischargeDepth := 10) [applyRank, cite @qlChange_keeps]
@[simp] theorem qlExpire_len (s : State) (c : Nat) :
    (qlExpire s c).chans.length = s.chans.length := by
  simp (maxDischargeDepth := 10) [qlExpire, cite @qlChange_keeps]
@[simp] theorem qlFrame_len (s : State) (c : Nat) :
    (qlFrame s c).chans.length = s.chans.length := by
  simp (maxDischargeDepth := 10) [qlFrame, cite @publishQl_keeps]
@[simp] theorem qualSample_len (s : State) (c : Nat) :
    (qualSample s c).chans.length = s.chans.length := by
  unfold qualSample; dsimp only; (repeat' split) <;> simp (maxDischargeDepth := 10) [cite @evtIf_keeps]
@[simp] theorem windowClose_len (s : State) (c : Nat) :
    (windowClose s c).chans.length = s.chans.length := by
  unfold windowClose; dsimp only; (repeat' split) <;> simp (maxDischargeDepth := 10) [cite @setF_keeps]
@[simp] theorem dropBaseline_len (s : State) (c : Nat) :
    (dropBaseline s c).lanes.length = s.lanes.length ∧ (dropBaseline s c).funcs.length = s.funcs.length ∧
    (dropBaseline s c).chans.length = s.chans.length ∧ (dropBaseline s c).pkts.length = s.pkts.length := by
  unfold dropBaseline; dsimp only; (repeat' split) <;> simp (maxDischargeDepth := 10) [cite @setF_keeps, cite @modChan_keeps, cite @baseLost_keeps, cite @modPkt_keeps, cite @set1_keeps, cite @modLane_keeps]
@[simp] theorem activityChange_len (s : State) (c : Nat) :
    (activityChange s c).lanes.length = s.lanes.length ∧ (activityChange s c).funcs.length = s.funcs.length ∧
    (activityChange s c).chans.length = s.chans.length ∧ (activityChange s c).pkts.length = s.pkts.length := by
  simp (maxDischargeDepth := 10) [activityChange, cite @modChan_keeps, cite @chanEvt_keeps]
@[simp] theorem activityFrame_len (s : State) (c : Nat) :
    (activityFrame s c).lanes.length = s.lanes.length ∧ (activityFrame s c).funcs.length = s.funcs.length ∧
    (activityFrame s c).chans.length = s.chans.length ∧ (activityFrame s c).pkts.length = s.pkts.length := by
  simp (maxDischargeDepth := 10) [activityFrame, cite @modChan_keeps]
@[simp] theorem stepSample_len (c : Nat) (s : State) (x : Smp) :
    (stepSample c s x).chans.length = s.chans.length := by
  unfold stepSample; dsimp only; (repeat' split) <;> simp (maxDischargeDepth := 10) [cite @setF_keeps, cite @chanEvt_keeps]
@[simp] theorem stepTest_len (s : State) (c : Nat) :
    (stepTest s c).chans.length = s.chans.length := by
  simp (maxDischargeDepth := 10) [stepTest]
@[simp] theorem putPair_len (s : State) (d c : Nat) (v : PairU) :
    (putPair s d c v).pairs.map List.length = s.pairs.map List.length := by
  simp (maxDischargeDepth := 10) [putPair, cite @reasonChanged_keeps]
@[simp] theorem pairStage_len (s : State) (d c : Nat) :
    (pairStage s d c).pairs.map List.length = s.pairs.map List.length := by
  simp (maxDischargeDepth := 10) [pairStage]
@[simp] theorem slewClear_len (s : State) (d : Nat) :
    (slewClear s d).doms.length = s.doms.length := by
  simp (maxDischargeDepth := 10) [slewClear, cite @setF_keeps]
@[simp] theorem slewEnd_len (s : State) (d : Nat) :
    (slewEnd s d).doms.length = s.doms.length := by
  simp (maxDischargeDepth := 10) [slewEnd, cite @partEvt_keeps]
@[simp] theorem switchTo_len (s : State) (d best : Nat) :
    (switchTo s d best).doms.length = s.doms.length := by
  simp (maxDischargeDepth := 10) [switchTo, cite @setF_keeps, cite @addCnt_keeps, cite @journalPg_keeps, cite @partEvt_keeps]
@[simp] theorem selectDom_len (s : State) (d : Nat) :
    (selectDom s d).doms.length = s.doms.length := by
  simp (maxDischargeDepth := 10) [selectDom, cite @setF_keeps]
@[simp] theorem qualRows_len (s : State) :
    (qualRows s).lanes.length = s.lanes.length ∧ (qualRows s).funcs.length = s.funcs.length ∧
    (qualRows s).chans.length = s.chans.length ∧ (qualRows s).pkts.length = s.pkts.length := by
  simp (maxDischargeDepth := 10) [qualRows, cite @qualSample_keeps, cite @stepTest_keeps, cite @windowClose_keeps]
@[simp] theorem stage3_len (s : State) :
    (stage3 s).lanes.length = s.lanes.length ∧ (stage3 s).funcs.length = s.funcs.length ∧
    (stage3 s).chans.length = s.chans.length ∧ (stage3 s).pkts.length = s.pkts.length ∧
    (stage3 s).pairs.map List.length = s.pairs.map List.length ∧ (stage3 s).doms.length = s.doms.length := by
  simp (maxDischargeDepth := 10) [stage3, cite @selectDom_keeps, cite @pairStage_keeps, cite @publishTests_keeps, cite @qlFrame_keeps, cite @qualRows_keeps]

/-! ### Machine/Domain.lean -/

@[simp] theorem loopUpdate_len (s : State) (d : Nat) (err : Rat) (g : Nat) :
    (loopUpdate s d err g).doms.length = s.doms.length := by
  simp (maxDischargeDepth := 10) [loopUpdate, cite @publishGains_keeps, cite @evtIf_keeps, cite @set1_keeps]
@[simp] theorem slewOver_len (s : State) (d : Nat) :
    (slewOver s d).doms.length = s.doms.length := by
  simp (maxDischargeDepth := 10) [slewOver]
@[simp] theorem slewFrame_len (s : State) (d : Nat) :
    (slewFrame s d).doms.length = s.doms.length := by
  simp (maxDischargeDepth := 10) [slewFrame, cite @setF_keeps]
@[simp] theorem applyCfg_len (s : State) (d : Nat) :
    (applyCfg s d).doms.length = s.doms.length := by
  simp (maxDischargeDepth := 10) [applyCfg, cite @set1_keeps]
@[simp] theorem keepSegs_len (s : State) (d : Nat) :
    (keepSegs s d).doms.length = s.doms.length := by
  simp (maxDischargeDepth := 10) [keepSegs, cite @set1_keeps]
@[simp] theorem commitCfg_len (s : State) (d : Nat) :
    (commitCfg s d).doms.length = s.doms.length := by
  simp (maxDischargeDepth := 10) [commitCfg, cite @set1_keeps]
@[simp] theorem duskRecompute_len (s : State) (d : Nat) :
    (duskRecompute s d).doms.length = s.doms.length := by
  simp (maxDischargeDepth := 10) [duskRecompute, cite @publishDusk_keeps]
@[simp] theorem enterAcquiring_len (s : State) (d : Nat) :
    (enterAcquiring s d).doms.length = s.doms.length := by
  simp (maxDischargeDepth := 10) [enterAcquiring, cite @setDomState_keeps, cite @set1_keeps]
@[simp] theorem enterHoldover_len (s : State) (d : Nat) :
    (enterHoldover s d).doms.length = s.doms.length := by
  simp (maxDischargeDepth := 10) [enterHoldover, cite @set1_keeps, cite @publishDusk_keeps, cite @setDomState_keeps]
@[simp] theorem transition_len (s : State) (d : Nat) :
    (transition s d).1.doms.length = s.doms.length := by
  unfold transition; dsimp only; (repeat' split) <;> simp (maxDischargeDepth := 10) [cite @enterLost_keeps]
@[simp] theorem bridgeStart_len (s : State) (d : Nat) (lane apll : Bool) :
    (bridgeStart s d lane apll).doms.length = s.doms.length := by
  simp (maxDischargeDepth := 10) [bridgeStart, cite @addCnt_keeps, cite @evt_keeps, cite @set1_keeps]
@[simp] theorem bridgeStop_len (s : State) (d : Nat) :
    (bridgeStop s d).doms.length = s.doms.length := by
  simp (maxDischargeDepth := 10) [bridgeStop, cite @set1_keeps]
@[simp] theorem bridgeFrame_len (s : State) (d : Nat) :
    (bridgeFrame s d).doms.length = s.doms.length := by
  simp (maxDischargeDepth := 10) [bridgeFrame]
@[simp] theorem closeSegment_len (s : State) (d : Nat) :
    (closeSegment s d).doms.length = s.doms.length := by
  simp (maxDischargeDepth := 10) [closeSegment]
@[simp] theorem historyFrame_len (s : State) (d : Nat) :
    (historyFrame s d).doms.length = s.doms.length := by
  simp (maxDischargeDepth := 10) [historyFrame, cite @set1_keeps]
@[simp] theorem firstError_len (s : State) (d : Nat) (e : Rat) :
    (firstError s d e).doms.length = s.doms.length := by
  simp (maxDischargeDepth := 10) [firstError, cite @setF_keeps, cite @slewRecord_keeps]
@[simp] theorem takeB_len (s : State) (d : Nat) :
    (takeB s d).doms.length = s.doms.length := by
  simp (maxDischargeDepth := 10) [takeB]
@[simp] theorem refUpdate_len (s : State) (d : Nat) :
    (refUpdate s d).doms.length = s.doms.length := by
  simp (maxDischargeDepth := 10) [refUpdate, cite @setF_keeps]
@[simp] theorem synUpdate_len (s : State) (d : Nat) :
    (synUpdate s d).doms.length = s.doms.length := by
  simp (maxDischargeDepth := 10) [synUpdate]
@[simp] theorem lockCount_len (s : State) (d : Nat) (updated : Bool) :
    (lockCount s d updated).doms.length = s.doms.length := by
  simp (maxDischargeDepth := 10) [lockCount]
@[simp] theorem lockBroken_len (s : State) (d : Nat) (updated : Bool) :
    (lockBroken s d updated).doms.length = s.doms.length := by
  simp (maxDischargeDepth := 10) [lockBroken]
@[simp] theorem lockMove_len (s : State) (d : Nat) (updated : Bool) :
    (lockMove s d updated).doms.length = s.doms.length := by
  simp (maxDischargeDepth := 10) [lockMove, cite @enterLocked_keeps]
@[simp] theorem domMove_len (s : State) (d : Nat) :
    (domMove s d).1.doms.length = s.doms.length := by
  unfold domMove; (repeat' split) <;> simp (maxDischargeDepth := 10)
@[simp] theorem domUpdate_len (s : State) (d : Nat) :
    (domUpdate s d).doms.length = s.doms.length := by
  simp (maxDischargeDepth := 10) [domUpdate, cite @coastFrame_keeps]
@[simp] theorem domFrame_len (s : State) (d : Nat) :
    (domFrame s d).doms.length = s.doms.length := by
  simp (maxDischargeDepth := 10) [domFrame, cite @fbLost_keeps, cite @set1_keeps, cite @publishGains_keeps, cite @duskFrame_keeps, cite @setF_keeps]
@[simp] theorem stage4_len (s : State) :
    (stage4 s).doms.length = s.doms.length := by
  simp (maxDischargeDepth := 10) [stage4]
@[simp] theorem startDom_len (s : State) (d : Nat) :
    (startDom s d).pairs.map List.length = s.pairs.map List.length ∧ (startDom s d).doms.length = s.doms.length := by
  unfold startDom
  dsimp only
  simp only [cite @setF_keeps, cite @set1_keeps, applyCfg_len, cite @applyCfg_keeps, foldl_pairs, foldl_doms, implies_true, modDom_len, cite @modDom_keeps, and_true]
  exact map_modify_same _ _ (by simp [cite @modDom_keeps, cite @setF_keeps, cite @applyCfg_keeps, cite @set1_keeps]) _ _
@[simp] theorem bridgeMoved_len (s : State) :
    (bridgeMoved s).doms.length = s.doms.length := by
  simp (maxDischargeDepth := 10) [bridgeMoved]

/-! ### Machine/Synth.lean -/

@[simp] theorem finishStop_len (s : State) (n : Nat) (x : Rat) :
    (finishStop s n x).outs.length = s.outs.length := by
  simp (maxDischargeDepth := 10) [finishStop, cite @evt_keeps, cite @set1_keeps, cite @addCnt_keeps]
@[simp] theorem beginStop_len (s : State) (n quiet : Nat) :
    (beginStop s n quiet).outs.length = s.outs.length := by
  unfold beginStop; dsimp only; (repeat' split) <;> simp (maxDischargeDepth := 10)
@[simp] theorem outRefresh_len (s : State) (n : Nat) :
    (outRefresh s n).outs.length = s.outs.length := by
  simp (maxDischargeDepth := 10) [outRefresh, cite @set1_keeps, cite @addCnt_keeps, cite @evt_keeps]
@[simp] theorem outsRefresh_len (s : State) :
    (outsRefresh s).outs.length = s.outs.length := by
  simp (maxDischargeDepth := 10) [outsRefresh]
@[simp] theorem applyRetune_len (s : State) (d : Nat) :
    (applyRetune s d).aplls.length = s.aplls.length ∧ (applyRetune s d).outs.length = s.outs.length := by
  simp (maxDischargeDepth := 10) [applyRetune, cite @evt_keeps, cite @outRefresh_keeps, cite @publishVco_keeps, cite @set1_keeps, cite @modApll_keeps]
@[simp] theorem fbRestart_len (s : State) (d : Nat) :
    (fbRestart s d).lanes.length = s.lanes.length ∧ (fbRestart s d).funcs.length = s.funcs.length := by
  unfold fbRestart; dsimp only; (repeat' split) <;> simp (maxDischargeDepth := 10) [cite @baseLost_keeps, cite @set1_keeps, cite @modLane_keeps]
@[simp] theorem relockApll_len (s : State) (d : Nat) :
    (relockApll s d).lanes.length = s.lanes.length ∧ (relockApll s d).funcs.length = s.funcs.length ∧
    (relockApll s d).aplls.length = s.aplls.length := by
  simp (maxDischargeDepth := 10) [relockApll, cite @fbRestart_keeps, cite @set1_keeps, cite @journalApll_keeps, cite @evt_keeps, cite @modApll_keeps]
@[simp] theorem retuneLocked_len (s : State) (d : Nat) :
    (retuneLocked s d).lanes.length = s.lanes.length ∧ (retuneLocked s d).funcs.length = s.funcs.length ∧
    (retuneLocked s d).aplls.length = s.aplls.length := by
  simp (maxDischargeDepth := 10) [retuneLocked, cite @fbRestart_keeps, cite @modApll_keeps, cite @set1_keeps]
@[simp] theorem apllStart_len (s : State) (d : Nat) :
    (apllStart s d).aplls.length = s.aplls.length ∧ (apllStart s d).outs.length = s.outs.length := by
  simp (maxDischargeDepth := 10) [apllStart, cite @outRefresh_keeps, cite @set1_keeps, cite @publishVco_keeps, cite @modApll_keeps]
@[simp] theorem apllStop_len (s : State) (d : Nat) :
    (apllStop s d).aplls.length = s.aplls.length := by
  simp (maxDischargeDepth := 10) [apllStop, cite @set1_keeps]
@[simp] theorem epochRequest_len (s : State) (d : Nat) :
    (epochRequest s d).aplls.length = s.aplls.length := by
  simp (maxDischargeDepth := 10) [epochRequest, cite @set1_keeps]
@[simp] theorem zeroEpoch_len (s : State) (d e : Nat) :
    (zeroEpoch s d e).aplls.length = s.aplls.length := by
  simp (maxDischargeDepth := 10) [zeroEpoch, cite @evt_keeps, cite @set1_keeps]
@[simp] theorem moveGrid_len (s : State) (n : Nat) (z : Rat) (pos : Nat) :
    (moveGrid s n z pos).outs.length = s.outs.length := by
  simp (maxDischargeDepth := 10) [moveGrid]
@[simp] theorem stopIfDue_len (s : State) (n : Nat) :
    (stopIfDue s n).outs.length = s.outs.length := by
  unfold stopIfDue; (repeat' split) <;> simp (maxDischargeDepth := 10)
@[simp] theorem zeroNow_len (s : State) (d : Nat) :
    (zeroNow s d).aplls.length = s.aplls.length ∧ (zeroNow s d).outs.length = s.outs.length := by
  simp (maxDischargeDepth := 10) [zeroNow, cite @outRefresh_keeps, cite @stopIfDue_keeps, cite @moveGrid_keeps, cite @zeroEpoch_keeps]
@[simp] theorem emitPulse_len (s : State) (n : Nat) (cyc : Nat) (at' : Rat) :
    (emitPulse s n cyc at').outs.length = s.outs.length := by
  simp (maxDischargeDepth := 10) [emitPulse]
@[simp] theorem outStarts_len (s : State) (n : Nat) :
    (outStarts s n).outs.length = s.outs.length := by
  simp (maxDischargeDepth := 10) [outStarts, cite @set1_keeps, cite @evt_keeps]
@[simp] theorem leaveAdvance_len (s : State) (n : Nat) (v : Ivl) :
    (leaveAdvance s n v).outs.length = s.outs.length := by
  unfold leaveAdvance; dsimp only; (repeat' split) <;> simp (maxDischargeDepth := 10) [cite @evtIf_keeps]
@[simp] theorem outAdvance_len (s0 : State) (n : Nat) (v : Ivl) (held : Bool) :
    (outAdvance s0 n v held).outs.length = s0.outs.length := by
  unfold outAdvance; dsimp only; (repeat' split) <;> simp (maxDischargeDepth := 10)
@[simp] theorem synthAdvance_len (s : State) (d cyc t0 span : Nat) (roll : Option Nat) :
    (synthAdvance s d cyc t0 span roll).aplls.length = s.aplls.length ∧
    (synthAdvance s d cyc t0 span roll).outs.length = s.outs.length := by
  unfold synthAdvance; dsimp only; (repeat' split) <;> simp (maxDischargeDepth := 10) [cite @outAdvance_keeps, cite @modApll_keeps, cite @zeroEpoch_keeps]
@[simp] theorem steerFrame_len (s : State) (d : Nat) :
    (steerFrame s d).aplls.length = s.aplls.length := by
  simp (maxDischargeDepth := 10) [steerFrame, cite @evtIf_keeps, cite @set1_keeps]
@[simp] theorem alignFrame_len (s : State) (n : Nat) :
    (alignFrame s n).outs.length = s.outs.length := by
  unfold alignFrame; dsimp only; (repeat' split) <;> simp (maxDischargeDepth := 10) [cite @evtIf_keeps]
@[simp] theorem stage5_len (s : State) :
    (stage5 s).aplls.length = s.aplls.length ∧ (stage5 s).outs.length = s.outs.length := by
  simp (maxDischargeDepth := 10) [stage5, cite @outsRefresh_keeps, cite @alignFrame_keeps, cite @steerFrame_keeps]
@[simp] theorem outEnableWrite_len (s : State) (n : Nat) (en : Bool) :
    (outEnableWrite s n en).outs.length = s.outs.length := by
  simp (maxDischargeDepth := 10) [outEnableWrite, cite @set1_keeps]
@[simp] theorem pulseModeWrite_len (s : State) (n : Nat) (pulse : Bool) :
    (pulseModeWrite s n pulse).outs.length = s.outs.length := by
  simp (maxDischargeDepth := 10) [pulseModeWrite, cite @set1_keeps]
@[simp] theorem dividerWrite_len (s : State) (n : Nat) (div coarse : Option Nat) :
    (dividerWrite s n div coarse).outs.length = s.outs.length := by
  simp (maxDischargeDepth := 10) [dividerWrite, cite @cfgBad_keeps, cite @set1_keeps]
@[simp] theorem palignSet_len (s : State) (n chan : Nat) (en : Bool) :
    (palignSet s n chan en).outs.length = s.outs.length := by
  simp (maxDischargeDepth := 10) [palignSet, cite @cfgBad_keeps, cite @set1_keeps]
@[simp] theorem palignOfsSet_len (s : State) (n hi : Nat) :
    (palignOfsSet s n hi).outs.length = s.outs.length := by
  simp (maxDischargeDepth := 10) [palignOfsSet, cite @set1_keeps]
@[simp] theorem takeFormats_len (s : State) :
    (takeFormats s).outs.length = s.outs.length := by
  simp (maxDischargeDepth := 10) [takeFormats, cite @set1_keeps]
@[simp] theorem outInit_len (s : State) (n : Nat) :
    (outInit s n).outs.length = s.outs.length := by
  simp (maxDischargeDepth := 10) [outInit, cite @resetFields_keeps]
@[simp] theorem dropEpoch_len (s : State) (d : Nat) :
    (dropEpoch s d).aplls.length = s.aplls.length := by
  simp (maxDischargeDepth := 10) [dropEpoch, cite @set1_keeps]
@[simp] theorem synthReset_len (s0 : State) (d : Nat) :
    (synthReset s0 d).aplls.length = s0.aplls.length := by
  simp (maxDischargeDepth := 10) [synthReset, cite @set1_keeps]

/-! ### Machine/TimeUnit.lean -/

@[simp] theorem modTrig_len (s : State) (d k : Nat) (f : TrigU → TrigU) :
    (modTrig s d k f).times.map TimeU.sizes = s.times.map TimeU.sizes := by
  simp (maxDischargeDepth := 10) [modTrig]
@[simp] theorem trigPulse_len (s : State) (d k n cyc : Nat) (c : Rat) :
    (trigPulse s d k n cyc c).outs.length = s.outs.length := by
  simp (maxDischargeDepth := 10) [trigPulse, cite @evt_keeps, cite @setF_keeps]
@[simp] theorem fireTrig_len (s : State) (d k t n frm : Nat) (late jumped : Bool) (cyc : Nat) (c : Rat) :
    (fireTrig s d k t n frm late jumped cyc c).outs.length = s.outs.length ∧
    (fireTrig s d k t n frm late jumped cyc c).times.map TimeU.sizes = s.times.map TimeU.sizes := by
  simp (maxDischargeDepth := 10) [fireTrig, cite @setF_keeps, cite @modTrig_keeps, cite @modTime_keeps, cite @evtIf_keeps, cite @evt_keeps, cite @addCnt_keeps, cite @trigPulse_keeps]
@[simp] theorem trigEdges_len (v : Interval) (d : Nat) (s : State) (k : Nat) :
    (trigEdges v d s k).times.map TimeU.sizes = s.times.map TimeU.sizes := by
  unfold trigEdges; dsimp only; (repeat' split) <;> simp (maxDischargeDepth := 10) [cite @trigInterval_keeps]
@[simp] theorem trigStage_len (v : Interval) (s : State) :
    (trigStage v s).times.map TimeU.sizes = s.times.map TimeU.sizes := by
  simp (maxDischargeDepth := 10) [trigStage]
@[simp] theorem fireWithin_len (d k t0 span cyc x1 : Nat) (x2 : State) :
    (fireWithin d k t0 span cyc x1 x2).outs.length = x2.outs.length ∧
    (fireWithin d k t0 span cyc x1 x2).times.map TimeU.sizes = x2.times.map TimeU.sizes := by
  induction x1 generalizing x2 with
  | zero => simp [fireWithin]
  | succ n ih => (unfold fireWithin; dsimp only; (repeat' split) <;> simp [ih])
@[simp] theorem jumpTrigs_len (s : State) (d : Nat) :
    (jumpTrigs s d).outs.length = s.outs.length ∧ (jumpTrigs s d).times.map TimeU.sizes = s.times.map TimeU.sizes := by
  simp (maxDischargeDepth := 10) [jumpTrigs]
@[simp] theorem lateTrigs_len (s : State) (d : Nat) :
    (lateTrigs s d).outs.length = s.outs.length ∧ (lateTrigs s d).times.map TimeU.sizes = s.times.map TimeU.sizes := by
  simp (maxDischargeDepth := 10) [lateTrigs]
@[simp] theorem trigArmAct_len (s : State) (d k : Nat) :
    (trigArmAct s d k).times.map TimeU.sizes = s.times.map TimeU.sizes := by
  simp (maxDischargeDepth := 10) [trigArmAct, cite @evt_keeps, cite @setF_keeps]
@[simp] theorem trigDisarmAct_len (s : State) (d k : Nat) :
    (trigDisarmAct s d k).times.map TimeU.sizes = s.times.map TimeU.sizes := by
  simp (maxDischargeDepth := 10) [trigDisarmAct, cite @setF_keeps]
@[simp] theorem timeStep_len (s : State) (d src : Nat) (delta : Rat) (counted : Bool) :
    (timeStep s d src delta counted).doms.length = s.doms.length ∧
    (timeStep s d src delta counted).outs.length = s.outs.length ∧
    (timeStep s d src delta counted).times.map TimeU.sizes = s.times.map TimeU.sizes := by
  simp (maxDischargeDepth := 10) [timeStep, cite @modTime_keeps, cite @set1_keeps, cite @addCnt_keeps, cite @evt_keeps, cite @journalPg_keeps, cite @modDom_keeps, cite @jumpTrigs_keeps]
@[simp] theorem timeSlew_len (s : State) (d src : Nat) (delta : Rat) :
    (timeSlew s d src delta).doms.length = s.doms.length ∧
    (timeSlew s d src delta).times.map TimeU.sizes = s.times.map TimeU.sizes := by
  simp (maxDischargeDepth := 10) [timeSlew, cite @slewRecord_keeps, cite @publishSlew_keeps, cite @modTime_keeps, cite @modDom_keeps, cite @setF_keeps]
@[simp] theorem handleReq_len (s : State) (d src : Nat) (delta : Rat) :
    (handleReq s d src delta).doms.length = s.doms.length ∧ (handleReq s d src delta).outs.length = s.outs.length ∧
    (handleReq s d src delta).times.map TimeU.sizes = s.times.map TimeU.sizes := by
  simp (maxDischargeDepth := 10) [handleReq, cite @refuseReq_keeps, cite @timeSlew_keeps]
@[simp] theorem resolveReqs_len (s : State) (d : Nat) :
    (resolveReqs s d).doms.length = s.doms.length ∧ (resolveReqs s d).outs.length = s.outs.length ∧
    (resolveReqs s d).times.map TimeU.sizes = s.times.map TimeU.sizes := by
  unfold resolveReqs; dsimp only; (repeat' split) <;> simp (maxDischargeDepth := 10) [cite @modTime_keeps, cite @refuseReq_keeps]
@[simp] theorem putReq_len (s : State) (d src : Nat) (delta : Rat) (due : Nat) :
    (putReq s d src delta due).times.map TimeU.sizes = s.times.map TimeU.sizes := by
  simp (maxDischargeDepth := 10) [putReq]
@[simp] theorem hostSet_len (s : State) (d : Nat) (abs rel : Bool) (due : Nat) :
    (hostSet s d abs rel due).times.map TimeU.sizes = s.times.map TimeU.sizes := by
  simp (maxDischargeDepth := 10) [hostSet, cite @drawFree_keeps]
@[simp] theorem steppedFrame_len (s : State) (d : Nat) :
    (steppedFrame s d).times.map TimeU.sizes = s.times.map TimeU.sizes := by
  unfold steppedFrame; dsimp only; (repeat' split) <;> simp (maxDischargeDepth := 10) [cite @set1_keeps]
@[simp] theorem modCap_len (s : State) (d c : Nat) (f : CapU → CapU) :
    (modCap s d c f).times.map TimeU.sizes = s.times.map TimeU.sizes := by
  simp (maxDischargeDepth := 10) [modCap]
@[simp] theorem capArmAct_len (s : State) (d c : Nat) :
    (capArmAct s d c).times.map TimeU.sizes = s.times.map TimeU.sizes := by
  simp (maxDischargeDepth := 10) [capArmAct, cite @setF_keeps]
@[simp] theorem capCancelAct_len (s : State) (d c : Nat) :
    (capCancelAct s d c).times.map TimeU.sizes = s.times.map TimeU.sizes := by
  simp (maxDischargeDepth := 10) [capCancelAct, cite @setF_keeps]
@[simp] theorem capTake_len (s : State) (d c : Nat) (t : Nat) :
    (capTake s d c t).times.map TimeU.sizes = s.times.map TimeU.sizes := by
  unfold capTake; (repeat' split) <;> simp (maxDischargeDepth := 10)
@[simp] theorem capWrite_len (s : State) (d c : Nat) :
    (capWrite s d c).times.map TimeU.sizes = s.times.map TimeU.sizes := by
  unfold capWrite; dsimp only; (repeat' split) <;> simp (maxDischargeDepth := 10) [cite @evt_keeps, cite @setF_keeps]
@[simp] theorem capFrame_len (s : State) (d c : Nat) :
    (capFrame s d c).times.map TimeU.sizes = s.times.map TimeU.sizes := by
  unfold capFrame; dsimp only; (repeat' split) <;> simp (maxDischargeDepth := 10) [cite @setF_keeps]
@[simp] theorem capStage_len (s : State) :
    (capStage s).times.map TimeU.sizes = s.times.map TimeU.sizes := by
  simp (maxDischargeDepth := 10) [capStage]
@[simp] theorem todSend_len (s : State) (d sec : Nat) (stepped : Bool) :
    (todSend s d sec stepped).times.map TimeU.sizes = s.times.map TimeU.sizes := by
  simp (maxDischargeDepth := 10) [todSend, cite @set1_keeps]
@[simp] theorem todConnect_len (s : State) (d : Nat) :
    (todConnect s d).times.map TimeU.sizes = s.times.map TimeU.sizes := by
  simp (maxDischargeDepth := 10) [todConnect, cite @set1_keeps]
@[simp] theorem todFrame_len (s : State) (d : Nat) :
    (todFrame s d).times.map TimeU.sizes = s.times.map TimeU.sizes := by
  unfold todFrame; dsimp only; (repeat' split) <;> simp (maxDischargeDepth := 10)
@[simp] theorem rollEffects_len (s : State) (d sec : Nat) :
    (rollEffects s d sec).times.map TimeU.sizes = s.times.map TimeU.sizes := by
  simp (maxDischargeDepth := 10) [rollEffects]
@[simp] theorem timeMark_len (s : State) (d : Nat) :
    (timeMark s d).times.map TimeU.sizes = s.times.map TimeU.sizes := by
  unfold timeMark; dsimp only; (repeat' split) <;> simp (maxDischargeDepth := 10) [cite @journalPg_keeps]
@[simp] theorem timeAdvance_len (i : FrameIn) (s : State) (d : Nat) :
    (timeAdvance i s d).aplls.length = s.aplls.length ∧ (timeAdvance i s d).outs.length = s.outs.length ∧
    (timeAdvance i s d).times.map TimeU.sizes = s.times.map TimeU.sizes := by
  unfold timeAdvance; dsimp only; (repeat' split) <;> simp (maxDischargeDepth := 10) [cite @modOut_keeps, cite @fireWithin_keeps, cite @modApll_keeps, cite @synthAdvance_keeps, cite @modTime_keeps, cite @publishSlew_keeps, cite @rollEffects_keeps]
@[simp] theorem timeTick_len (s : State) (d : Nat) :
    (timeTick s d).times.map TimeU.sizes = s.times.map TimeU.sizes := by
  simp (maxDischargeDepth := 10) [timeTick]
@[simp] theorem timeBoundary_len (s : State) (d : Nat) :
    (timeBoundary s d).doms.length = s.doms.length ∧ (timeBoundary s d).aplls.length = s.aplls.length ∧
    (timeBoundary s d).outs.length = s.outs.length ∧
    (timeBoundary s d).times.map TimeU.sizes = s.times.map TimeU.sizes := by
  unfold timeBoundary; dsimp only; (repeat' split) <;> simp (maxDischargeDepth := 10) [cite @publishTick_keeps, cite @resolveReqs_keeps, cite @epochRequest_keeps, cite @modTime_keeps, cite @putReq_keeps, cite @modDom_keeps, cite @lateTrigs_keeps, cite @timeMark_keeps]
@[simp] theorem timeStart_len (s : State) (d : Nat) (runs : Bool) :
    (timeStart s d runs).times.map TimeU.sizes = s.times.map TimeU.sizes := by
  simp (maxDischargeDepth := 10) [timeStart]
@[simp] theorem nmeaPause_len (s : State) (d : Nat) :
    (nmeaPause s d).times.map TimeU.sizes = s.times.map TimeU.sizes := by
  simp (maxDischargeDepth := 10) [nmeaPause]
@[simp] theorem nmeaUse_len (s : State) (d : Nat) (m : Int) :
    (nmeaUse s d m).times.map TimeU.sizes = s.times.map TimeU.sizes := by
  simp (maxDischargeDepth := 10) [nmeaUse, cite @set1_keeps, cite @evtIf_keeps]
@[simp] theorem nmea_len (s : State) (d : Nat) (text : List Nat) (afterUs : Nat) :
    (nmea s d text afterUs).times.map TimeU.sizes = s.times.map TimeU.sizes := by
  unfold nmea; dsimp only; (repeat' split) <;> simp (maxDischargeDepth := 10) [cite @evt_keeps, cite @addCnt_keeps]
@[simp] theorem baudSet_len (s : State) (d v : Nat) :
    (baudSet s d v).times.map TimeU.sizes = s.times.map TimeU.sizes := by
  simp (maxDischargeDepth := 10) [baudSet, cite @set1_keeps]

/-! ### Machine/Gate.lean -/

@[simp] theorem instClear_len (s : State) (p : Nat) :
    (instClear s p).ptps.length = s.ptps.length := by
  simp (maxDischargeDepth := 10) [instClear, cite @blockClear_keeps]
@[simp] theorem pktFail_len (s : State) (c : Nat) :
    (pktFail s c).lanes.length = s.lanes.length ∧ (pktFail s c).funcs.length = s.funcs.length ∧
    (pktFail s c).chans.length = s.chans.length ∧ (pktFail s c).pkts.length = s.pkts.length := by
  simp (maxDischargeDepth := 10) [pktFail, cite @modChan_keeps]
@[simp] theorem instRestart_len (s : State) (p : Nat) :
    (instRestart s p).pkts.length = s.pkts.length ∧ (instRestart s p).ptps.length = s.ptps.length := by
  simp (maxDischargeDepth := 10) [instRestart, cite @instOpen_keeps, cite @instClear_keeps, cite @dropCalls_keeps, cite @modPkt_keeps]
@[simp] theorem instReset_len (s : State) (p : Nat) :
    (instReset s p).pkts.length = s.pkts.length ∧ (instReset s p).ptps.length = s.ptps.length := by
  simp (maxDischargeDepth := 10) [instReset, cite @modPtp_keeps]
@[simp] theorem instClose_len (s : State) (p cause : Nat) :
    (instClose s p cause).lanes.length = s.lanes.length ∧ (instClose s p cause).funcs.length = s.funcs.length ∧
    (instClose s p cause).chans.length = s.chans.length ∧ (instClose s p cause).pkts.length = s.pkts.length ∧
    (instClose s p cause).ptps.length = s.ptps.length := by
  simp (maxDischargeDepth := 10) [instClose, cite @journalPg_keeps, cite @ptpEvt_keeps, cite @addCnt_keeps, cite @setF_keeps, cite @modPtp_keeps, cite @instClear_keeps, cite @pktFail_keeps]
@[simp] theorem strange_len (s : State) (f : Fld) (n p : Nat) :
    (strange s f n p).lanes.length = s.lanes.length ∧ (strange s f n p).funcs.length = s.funcs.length ∧
    (strange s f n p).chans.length = s.chans.length ∧ (strange s f n p).pkts.length = s.pkts.length ∧
    (strange s f n p).ptps.length = s.ptps.length := by
  simp (maxDischargeDepth := 10) [strange, cite @addCnt_keeps, cite @modPtp_keeps]
@[simp] theorem pktRefused_len (s : State) (p : Nat) :
    (pktRefused s p).lanes.length = s.lanes.length ∧ (pktRefused s p).funcs.length = s.funcs.length ∧
    (pktRefused s p).chans.length = s.chans.length ∧ (pktRefused s p).pkts.length = s.pkts.length ∧
    (pktRefused s p).ptps.length = s.ptps.length := by
  simp (maxDischargeDepth := 10) [pktRefused, cite @modPtp_keeps]
@[simp] theorem callRefuse_len (s : State) (c : GateCall) (r : Nat) :
    (callRefuse s c r).lanes.length = s.lanes.length ∧ (callRefuse s c r).funcs.length = s.funcs.length ∧
    (callRefuse s c r).chans.length = s.chans.length ∧ (callRefuse s c r).pkts.length = s.pkts.length ∧
    (callRefuse s c r).ptps.length = s.ptps.length := by
  unfold callRefuse; dsimp only; (repeat' split) <;> simp (maxDischargeDepth := 10) [cite @gateRefuse_keeps]
@[simp] theorem gateCall_len (s : State) (cyc : Nat) (c : GateCall) :
    (gateCall s cyc c).lanes.length = s.lanes.length ∧ (gateCall s cyc c).funcs.length = s.funcs.length ∧
    (gateCall s cyc c).chans.length = s.chans.length ∧ (gateCall s cyc c).pkts.length = s.pkts.length ∧
    (gateCall s cyc c).ptps.length = s.ptps.length := by
  unfold gateCall; dsimp only; (repeat' split) <;> simp (maxDischargeDepth := 10) [cite @gateRes_keeps]
@[simp] theorem qlApply_len (s : State) (c src ssm : Nat) (ecode : Option Nat) (first : Bool) :
    (qlApply s c src ssm ecode first).chans.length = s.chans.length := by
  simp (maxDischargeDepth := 10) [qlApply, cite @addCnt_keeps, cite @setF_keeps]
@[simp] theorem pktApply_len (s : State) (p c fe : Nat) (m : Rat) :
    (pktApply s p c fe m).chans.length = s.chans.length ∧ (pktApply s p c fe m).pkts.length = s.pkts.length ∧
    (pktApply s p c fe m).ptps.length = s.ptps.length := by
  simp (maxDischargeDepth := 10) [pktApply, cite @modPkt_keeps, cite @modChan_keeps, cite @modPtp_keeps]
@[simp] theorem pageApply_len (s : State) (addr value : Nat) :
    (pageApply s addr value).lanes.length = s.lanes.length ∧ (pageApply s addr value).funcs.length = s.funcs.length ∧
    (pageApply s addr value).chans.length = s.chans.length ∧ (pageApply s addr value).pkts.length = s.pkts.length ∧
    (pageApply s addr value).ptps.length = s.ptps.length := by
  simp (maxDischargeDepth := 10) [pageApply, cite @setF_keeps]
@[simp] theorem gateAct_len (s : State) (c : GateCall) :
    (gateAct s c).lanes.length = s.lanes.length ∧ (gateAct s c).funcs.length = s.funcs.length ∧
    (gateAct s c).chans.length = s.chans.length ∧ (gateAct s c).pkts.length = s.pkts.length ∧
    (gateAct s c).times.map TimeU.sizes = s.times.map TimeU.sizes ∧ (gateAct s c).ptps.length = s.ptps.length := by
  unfold gateAct; (repeat' split) <;> simp (maxDischargeDepth := 10) [cite @callRefuse_keeps, cite @qlApply_keeps, cite @pktApply_keeps, cite @putReq_keeps, cite @utcApply_keeps, cite @pageApply_keeps]
@[simp] theorem gateStep_len (s : State) :
    (gateStep s).lanes.length = s.lanes.length ∧ (gateStep s).funcs.length = s.funcs.length ∧
    (gateStep s).chans.length = s.chans.length ∧ (gateStep s).pkts.length = s.pkts.length ∧
    (gateStep s).times.map TimeU.sizes = s.times.map TimeU.sizes ∧ (gateStep s).ptps.length = s.ptps.length := by
  simp (maxDischargeDepth := 10) [gateStep]

/-! ### Machine/Ether.lean -/

@[simp] theorem stampTx_len (s : State) (n : Nat) (inst : Option Nat) (rawF rawO : Nat) :
    (stampTx s n inst rawF rawO).eths.length = s.eths.length := by
  simp (maxDischargeDepth := 10) [stampTx, cite @addCnt_keeps]
@[simp] theorem fifoPut_len (s : State) (n : Nat) (x : Stamp) :
    (fifoPut s n x).eths.length = s.eths.length := by
  simp (maxDischargeDepth := 10) [fifoPut, cite @evt_keeps, cite @addCnt_keeps]
@[simp] theorem fifoTake_len (s : State) (n : Nat) (x : Int) :
    (fifoTake s n x).eths.length = s.eths.length := by
  simp (maxDischargeDepth := 10) [fifoTake]
@[simp] theorem ptpHeader_len (s : State) (n : Nat) (b : List Nat) (o : Nat) :
    (ptpHeader s n b o).lanes.length = s.lanes.length ∧ (ptpHeader s n b o).funcs.length = s.funcs.length ∧
    (ptpHeader s n b o).chans.length = s.chans.length ∧ (ptpHeader s n b o).pkts.length = s.pkts.length ∧
    (ptpHeader s n b o).ptps.length = s.ptps.length := by
  unfold ptpHeader; dsimp only; (repeat' split) <;> simp (maxDischargeDepth := 10) [cite @addCnt_keeps]
@[simp] theorem leafTakes_len (s : State) (n : Nat) (b : List Nat) :
    (leafTakes s n b).lanes.length = s.lanes.length ∧ (leafTakes s n b).funcs.length = s.funcs.length ∧
    (leafTakes s n b).chans.length = s.chans.length ∧ (leafTakes s n b).pkts.length = s.pkts.length ∧
    (leafTakes s n b).ptps.length = s.ptps.length := by
  unfold leafTakes; (repeat' split) <;> simp (maxDischargeDepth := 10) [cite @addCnt_keeps]
@[simp] theorem floodDrop_len (s : State) (n : Nat) (onset : Bool) :
    (floodDrop s n onset).eths.length = s.eths.length := by
  simp (maxDischargeDepth := 10) [floodDrop, cite @evt_keeps, cite @addCnt_keeps]
@[simp] theorem ethReceive_len (s : State) (n : Nat) (f : EthFrame) :
    (ethReceive s n f).lanes.length = s.lanes.length ∧ (ethReceive s n f).funcs.length = s.funcs.length ∧
    (ethReceive s n f).chans.length = s.chans.length ∧ (ethReceive s n f).pkts.length = s.pkts.length ∧
    (ethReceive s n f).eths.length = s.eths.length ∧ (ethReceive s n f).ptps.length = s.ptps.length := by
  unfold ethReceive; dsimp only; (repeat' split) <;> simp (maxDischargeDepth := 10) [cite @addCnt_keeps, cite @stampRx_keeps, cite @floodDrop_keeps, cite @modEth_keeps, cite @leafTakes_keeps, cite @fifoPut_keeps]
@[simp] theorem linkDown_len (s : State) (n cause v : Nat) :
    (linkDown s n cause v).chans.length = s.chans.length := by
  simp (maxDischargeDepth := 10) [linkDown, cite @portStates_keeps, cite @journalPg_keeps, cite @addCnt_keeps, cite @evt_keeps, cite @set1_keeps]
@[simp] theorem pcsLocks_len (s : State) (n : Nat) (speedOk : Bool) :
    (pcsLocks s n speedOk).lanes.length = s.lanes.length ∧ (pcsLocks s n speedOk).funcs.length = s.funcs.length ∧
    (pcsLocks s n speedOk).chans.length = s.chans.length ∧ (pcsLocks s n speedOk).pkts.length = s.pkts.length ∧
    (pcsLocks s n speedOk).eths.length = s.eths.length := by
  simp (maxDischargeDepth := 10) [pcsLocks, cite @linkDown_keeps, cite @set1_keeps, cite @modEth_keeps, cite @modChan_keeps, cite @dropBaseline_keeps, cite @portStates_keeps, cite @journalPg_keeps, cite @evt_keeps]
@[simp] theorem portEnableWrite_len (s : State) (n : Nat) (en : Bool) :
    (portEnableWrite s n en).chans.length = s.chans.length := by
  simp (maxDischargeDepth := 10) [portEnableWrite, cite @portStates_keeps, cite @set1_keeps]
@[simp] theorem restartAn_len (s : State) (n : Nat) :
    (restartAn s n).eths.length = s.eths.length := by
  simp (maxDischargeDepth := 10) [restartAn]
@[simp] theorem applyAct_len (s : State) (d : Nat) :
    (applyAct s d).chans.length = s.chans.length ∧ (applyAct s d).aplls.length = s.aplls.length ∧
    (applyAct s d).outs.length = s.outs.length := by
  simp (maxDischargeDepth := 10) [applyAct, cite @applyRetune_keeps, cite @txclkJudge_keeps, cite @linkDown_keeps]
@[simp] theorem portModeChange_len (s : State) (n : Nat) :
    (portModeChange s n).chans.length = s.chans.length ∧ (portModeChange s n).ptps.length = s.ptps.length := by
  simp (maxDischargeDepth := 10) [portModeChange, cite @publishGrants_keeps, cite @modPtp_keeps, cite @linkDown_keeps]
@[simp] theorem grantsFrame_len (s : State) (p : Nat) :
    (grantsFrame s p).ptps.length = s.ptps.length := by
  simp (maxDischargeDepth := 10) [grantsFrame, cite @publishGrants_keeps]
@[simp] theorem etherFrame_len (s : State) :
    (etherFrame s).eths.length = s.eths.length ∧ (etherFrame s).ptps.length = s.ptps.length := by
  simp (maxDischargeDepth := 10) [etherFrame, cite @grantsFrame_keeps, cite @ptpPortFrame_keeps]
@[simp] theorem esmcSend_len (s : State) (n : Nat) (event : Bool) :
    (esmcSend s n event).eths.length = s.eths.length := by
  simp (maxDischargeDepth := 10) [esmcSend, cite @addCnt_keeps, cite @set1_keeps]
@[simp] theorem deliverQl_len (s : State) (cyc src node ssm : Nat) (ecode : Option Nat) :
    (deliverQl s cyc src node ssm ecode).lanes.length = s.lanes.length ∧
    (deliverQl s cyc src node ssm ecode).funcs.length = s.funcs.length ∧
    (deliverQl s cyc src node ssm ecode).chans.length = s.chans.length ∧
    (deliverQl s cyc src node ssm ecode).pkts.length = s.pkts.length ∧
    (deliverQl s cyc src node ssm ecode).ptps.length = s.ptps.length := by
  simp (maxDischargeDepth := 10) [deliverQl]
@[simp] theorem esmcReceive_len (s : State) (n : Nat) (p : EsmcPdu) (cyc : Nat) :
    (esmcReceive s n p cyc).lanes.length = s.lanes.length ∧ (esmcReceive s n p cyc).funcs.length = s.funcs.length ∧
    (esmcReceive s n p cyc).chans.length = s.chans.length ∧ (esmcReceive s n p cyc).pkts.length = s.pkts.length ∧
    (esmcReceive s n p cyc).eths.length = s.eths.length ∧ (esmcReceive s n p cyc).ptps.length = s.ptps.length := by
  simp (maxDischargeDepth := 10) [esmcReceive, cite @addCnt_keeps, cite @deliverQl_keeps, cite @modEth_keeps]
@[simp] theorem frameOut_len (s : State) (n : Nat) (b : List Nat) (rawF rawO : Nat) :
    (frameOut s n b rawF rawO).eths.length = s.eths.length := by
  simp (maxDischargeDepth := 10) [frameOut, cite @addCnt_keeps]
@[simp] theorem txFrame_len (s : State) (p n : Nat) (b : List Nat) (rawF rawO : Nat) :
    (txFrame s p n b rawF rawO).eths.length = s.eths.length ∧ (txFrame s p n b rawF rawO).ptps.length = s.ptps.length := by
  simp (maxDischargeDepth := 10) [txFrame, cite @gateRefuse_keeps, cite @modEth_keeps, cite @gateRes_keeps, cite @modPtp_keeps, cite @frameOut_keeps]

/-! ### Machine/Ptp.lean -/

@[simp] theorem acceptMsg_len (s : State) (p : Nat) (m : PtpMsg) (named : Bool) :
    (acceptMsg s p m named).1.lanes.length = s.lanes.length ∧
    (acceptMsg s p m named).1.funcs.length = s.funcs.length ∧
    (acceptMsg s p m named).1.chans.length = s.chans.length ∧ (acceptMsg s p m named).1.pkts.length = s.pkts.length ∧
    (acceptMsg s p m named).1.ptps.length = s.ptps.length := by
  unfold acceptMsg; dsimp only; (repeat' split) <;> simp (maxDischargeDepth := 10) [cite @addCnt_keeps]
@[simp] theorem estimate_len (s : State) (p n cyc : Nat) (raw : Int) (origin : Rat) (corr : Int) (r : Rat) :
    (estimate s p n cyc raw origin corr r).lanes.length = s.lanes.length ∧
    (estimate s p n cyc raw origin corr r).funcs.length = s.funcs.length ∧
    (estimate s p n cyc raw origin corr r).chans.length = s.chans.length ∧
    (estimate s p n cyc raw origin corr r).pkts.length = s.pkts.length ∧
    (estimate s p n cyc raw origin corr r).ptps.length = s.ptps.length := by
  simp (maxDischargeDepth := 10) [estimate, cite @setF_keeps, cite @setPtpPort_keeps, cite @modPtp_keeps, cite @addCnt_keeps]
@[simp] theorem syncTaken_len (s : State) (p : Nat) (m : PtpMsg) (origin r : Rat) (cyc : Nat) :
    (syncTaken s p m origin r cyc).lanes.length = s.lanes.length ∧
    (syncTaken s p m origin r cyc).funcs.length = s.funcs.length ∧
    (syncTaken s p m origin r cyc).chans.length = s.chans.length ∧
    (syncTaken s p m origin r cyc).pkts.length = s.pkts.length ∧
    (syncTaken s p m origin r cyc).ptps.length = s.ptps.length := by
  simp (maxDischargeDepth := 10) [syncTaken, cite @modPtp_keeps]
@[simp] theorem syncReceive_len (s : State) (p : Nat) (m : PtpMsg) (origin r : Rat) (cyc : Nat) :
    (syncReceive s p m origin r cyc).lanes.length = s.lanes.length ∧
    (syncReceive s p m origin r cyc).funcs.length = s.funcs.length ∧
    (syncReceive s p m origin r cyc).chans.length = s.chans.length ∧
    (syncReceive s p m origin r cyc).pkts.length = s.pkts.length ∧
    (syncReceive s p m origin r cyc).eths.length = s.eths.length ∧
    (syncReceive s p m origin r cyc).ptps.length = s.ptps.length := by
  simp (maxDischargeDepth := 10) [syncReceive, cite @acceptMsg_keeps, cite @fifoTake_keeps, cite @syncTaken_keeps, cite @addCnt_keeps]
@[simp] theorem followUp_len (s : State) (p : Nat) (m : PtpMsg) (origin r : Rat) (cyc : Nat) :
    (followUp s p m origin r cyc).lanes.length = s.lanes.length ∧
    (followUp s p m origin r cyc).funcs.length = s.funcs.length ∧
    (followUp s p m origin r cyc).chans.length = s.chans.length ∧
    (followUp s p m origin r cyc).pkts.length = s.pkts.length ∧
    (followUp s p m origin r cyc).ptps.length = s.ptps.length := by
  unfold followUp; dsimp only; (repeat' split) <;> simp (maxDischargeDepth := 10) [cite @modPtp_keeps]
@[simp] theorem fromParent_len (s : State) (n p : Nat) (b : AnnounceBody) (cyc : Nat) :
    (fromParent s n p b cyc).lanes.length = s.lanes.length ∧ (fromParent s n p b cyc).funcs.length = s.funcs.length ∧
    (fromParent s n p b cyc).chans.length = s.chans.length ∧ (fromParent s n p b cyc).pkts.length = s.pkts.length ∧
    (fromParent s n p b cyc).ptps.length = s.ptps.length := by
  simp (maxDischargeDepth := 10) [fromParent, cite @modPtp_keeps, cite @setF_keeps]
@[simp] theorem portParentLost_len (s : State) (p n v : Nat) :
    (portParentLost s p n v).ptps.length = s.ptps.length := by
  simp (maxDischargeDepth := 10) [portParentLost, cite @setF_keeps, cite @setParent_keeps, cite @setPtpPort_keeps]
@[simp] theorem bmcaMove_len (s : State) (p n v : Nat) :
    (bmcaMove s p n v).ptps.length = s.ptps.length := by
  simp (maxDischargeDepth := 10) [bmcaMove, cite @setPtpPort_keeps]
@[simp] theorem bmcaMaster_len (s : State) (p n wait : Nat) :
    (bmcaMaster s p n wait).ptps.length = s.ptps.length := by
  simp (maxDischargeDepth := 10) [bmcaMaster]
@[simp] theorem announceReceive_len (s : State) (p : Nat) (m : PtpMsg) (b : AnnounceBody) (cyc : Nat) :
    (announceReceive s p m b cyc).lanes.length = s.lanes.length ∧
    (announceReceive s p m b cyc).funcs.length = s.funcs.length ∧
    (announceReceive s p m b cyc).chans.length = s.chans.length ∧
    (announceReceive s p m b cyc).pkts.length = s.pkts.length ∧
    (announceReceive s p m b cyc).ptps.length = s.ptps.length := by
  unfold announceReceive; dsimp only; (repeat' split) <;> simp (maxDischargeDepth := 10) [cite @bmcaMaster_keeps, cite @bmcaMove_keeps, cite @setParent_keeps, cite @setPtpPort_keeps]
@[simp] theorem parentLost_len (s : State) (p : Nat) :
    (parentLost s p).ptps.length = s.ptps.length := by
  simp (maxDischargeDepth := 10) [parentLost]
@[simp] theorem announceSend_len (s : State) (p n : Nat) :
    (announceSend s p n).ptps.length = s.ptps.length := by
  simp (maxDischargeDepth := 10) [announceSend, cite @addCnt_keeps]
@[simp] theorem delayReq_len (s : State) (p : Nat) (m : PtpMsg) :
    (delayReq s p m).lanes.length = s.lanes.length ∧ (delayReq s p m).funcs.length = s.funcs.length ∧
    (delayReq s p m).chans.length = s.chans.length ∧ (delayReq s p m).pkts.length = s.pkts.length ∧
    (delayReq s p m).eths.length = s.eths.length ∧ (delayReq s p m).ptps.length = s.ptps.length := by
  simp (maxDischargeDepth := 10) [delayReq, cite @acceptMsg_keeps, cite @fifoTake_keeps, cite @modPtp_keeps, cite @addCnt_keeps]
@[simp] theorem pdelayReq_len (s : State) (p : Nat) (m : PtpMsg) (depF depO : Nat) :
    (pdelayReq s p m depF depO).lanes.length = s.lanes.length ∧
    (pdelayReq s p m depF depO).funcs.length = s.funcs.length ∧
    (pdelayReq s p m depF depO).chans.length = s.chans.length ∧
    (pdelayReq s p m depF depO).pkts.length = s.pkts.length ∧
    (pdelayReq s p m depF depO).eths.length = s.eths.length ∧ (pdelayReq s p m depF depO).ptps.length = s.ptps.length := by
  simp (maxDischargeDepth := 10) [pdelayReq, cite @acceptMsg_keeps, cite @fifoTake_keeps, cite @modPtp_keeps, cite @addCnt_keeps, cite @stampTx_keeps]
@[simp] theorem delayReqSend_len (s : State) (p n rawF rawO : Nat) :
    (delayReqSend s p n rawF rawO).eths.length = s.eths.length ∧
    (delayReqSend s p n rawF rawO).ptps.length = s.ptps.length := by
  simp (maxDischargeDepth := 10) [delayReqSend, cite @modPtp_keeps, cite @stampTx_keeps, cite @addCnt_keeps]
@[simp] theorem delayResp_len (s : State) (p : Nat) (m : PtpMsg) (t1 t4 : Rat) :
    (delayResp s p m t1 t4).lanes.length = s.lanes.length ∧ (delayResp s p m t1 t4).funcs.length = s.funcs.length ∧
    (delayResp s p m t1 t4).chans.length = s.chans.length ∧ (delayResp s p m t1 t4).pkts.length = s.pkts.length ∧
    (delayResp s p m t1 t4).eths.length = s.eths.length ∧ (delayResp s p m t1 t4).ptps.length = s.ptps.length := by
  simp (maxDischargeDepth := 10) [delayResp, cite @acceptMsg_keeps, cite @fifoTake_keeps, cite @setF_keeps]
@[simp] theorem unicastRequest_len (s : State) (p n slave : Nat) (l : Int) (duration : Nat) :
    (unicastRequest s p n slave l duration).ptps.length = s.ptps.length := by
  simp (maxDischargeDepth := 10) [unicastRequest, cite @addCnt_keeps, cite @publishGrants_keeps]
@[simp] theorem syncSend_len (s : State) (p n : Nat) (b : List Nat) (rawF rawO : Nat) :
    (syncSend s p n b rawF rawO).eths.length = s.eths.length ∧
    (syncSend s p n b rawF rawO).ptps.length = s.ptps.length := by
  simp (maxDischargeDepth := 10) [syncSend, cite @modPtp_keeps, cite @addCnt_keeps, cite @frameOut_keeps]

/-! ### Machine/Shelf.lean -/

@[simp] theorem roleChange_len (s : State) :
    (roleChange s).outs.length = s.outs.length := by
  unfold roleChange; dsimp only; (repeat' split) <;> simp (maxDischargeDepth := 10) [cite @sendAlert_keeps, cite @journalPg_keeps, cite @evt_keeps, cite @publishPeers_keeps, cite @set1_keeps, cite @modShelf_keeps]
@[simp] theorem shelfRx_len (s : State) (f : CanFrame) (cyc : Nat) :
    (shelfRx s f cyc).lanes.length = s.lanes.length ∧ (shelfRx s f cyc).funcs.length = s.funcs.length ∧
    (shelfRx s f cyc).chans.length = s.chans.length ∧ (shelfRx s f cyc).pkts.length = s.pkts.length ∧
    (shelfRx s f cyc).ptps.length = s.ptps.length := by
  unfold shelfRx; dsimp only; (repeat' split) <;> simp (maxDischargeDepth := 10) [cite @addCnt_keeps, cite @nodeClash_keeps, cite @evtIf_keeps, cite @electRx_keeps, cite @modShelf_keeps, cite @todRx_keeps, cite @regReqRx_keeps]

/-! ### Machine/Cellar.lean -/

@[simp] theorem recallBlock_len (s : State) (b : Nat) :
    (recallBlock s b).lanes.length = s.lanes.length := by
  unfold recallBlock; dsimp only; (repeat' split) <;> simp (maxDischargeDepth := 10) [cite @rootFix_keeps, cite @cellarEntry_keeps, cite @ltAdd_keeps, cite @addCnt_keeps, cite @evt_keeps, cite @partEvt_keeps, cite @set1_keeps]
@[simp] theorem recallSram_len (s : State) :
    (recallSram s).lanes.length = s.lanes.length := by
  simp (maxDischargeDepth := 10) [recallSram, cite @modCellar_keeps]
@[simp] theorem cellarRecall_len (s : State) :
    (cellarRecall s).lanes.length = s.lanes.length := by
  simp (maxDischargeDepth := 10) [cellarRecall, cite @ltAdd_keeps, cite @cellarEntry_keeps, cite @evt_keeps, cite @set1_keeps, cite @putSramLE_keeps, cite @modCellar_keeps]

/-! ### Machine/Table.lean -/

@[simp] theorem refreshEntry_len (s : State) (c : Nat) :
    (refreshEntry s c).chans.length = s.chans.length := by
  simp (maxDischargeDepth := 10) [refreshEntry, cite @entryCond_keeps, cite @set1_keeps]
@[simp] theorem tableRefresh_len (s : State) :
    (tableRefresh s).chans.length = s.chans.length := by
  simp (maxDischargeDepth := 10) [tableRefresh]
@[simp] theorem acceptEntry_len (s : State) (c : Nat) :
    (acceptEntry s c).chans.length = s.chans.length := by
  unfold acceptEntry; dsimp only; (repeat' split) <;> simp (maxDischargeDepth := 10) [cite @entryCond_keeps, cite @set1_keeps]
@[simp] theorem tableAccept_len (s : State) :
    (tableAccept s).chans.length = s.chans.length := by
  simp (maxDischargeDepth := 10) [tableAccept]
@[simp] theorem hostHalfReset_len (s : State) (c : Nat) :
    (hostHalfReset s c).chans.length = s.chans.length := by
  simp (maxDischargeDepth := 10) [hostHalfReset, cite @set1_keeps, cite @entryCond_keeps, cite @clearRange_keeps]
@[simp] theorem tableReset_len (s : State) :
    (tableReset s).chans.length = s.chans.length := by
  simp (maxDischargeDepth := 10) [tableReset, cite @set1_keeps, cite @clearRange_keeps]

/-! ### Machine/Restart.lean -/

@[simp] theorem partReset_len (s : State) (p cause : Nat) :
    (partReset s p cause).rows.length = s.rows.length ∧ (partReset s p cause).parts.length = s.parts.length ∧
    (partReset s p cause).chans.length = s.chans.length ∧ (partReset s p cause).pkts.length = s.pkts.length ∧
    (partReset s p cause).pairs.map List.length = s.pairs.map List.length ∧
    (partReset s p cause).doms.length = s.doms.length ∧ (partReset s p cause).aplls.length = s.aplls.length ∧
    (partReset s p cause).times.map TimeU.sizes = s.times.map TimeU.sizes ∧
    (partReset s p cause).ptps.length = s.ptps.length := by
  simp (maxDischargeDepth := 10) [partReset, cite @journalPg_keeps, cite @recordReset_keeps, cite @resetPage_keeps, cite @synthReset_keeps, cite @resetFields_keeps, cite @set1_keeps, cite @cancelCmd_keeps, cite @instReset_keeps, cite @resetHarvest_keeps, cite @resetRows_keeps, cite @hostHalfReset_keeps, cite @publishGains_keeps, cite @utcPolicy_keeps, cite @timeStart_keeps, cite @startDom_keeps, cite @domChanged_keeps]
@[simp] theorem synthStart_len (s : State) (d : Nat) :
    (synthStart s d).aplls.length = s.aplls.length ∧ (synthStart s d).outs.length = s.outs.length := by
  simp (maxDischargeDepth := 10) [synthStart, cite @outInit_keeps, cite @resetPage_keeps]
@[simp] theorem moveOutput_len (a s : State) (n : Nat) :
    (moveOutput a s n).outs.length = s.outs.length := by
  simp (maxDischargeDepth := 10) [moveOutput, cite @evtIf_keeps, cite @resetFields_keeps]
@[simp] theorem qlClear_len (s : State) (c : Nat) :
    (qlClear s c).chans.length = s.chans.length := by
  simp (maxDischargeDepth := 10) [qlClear]
@[simp] theorem selReset_len (s : State) :
    (selReset s).chans.length = s.chans.length := by
  simp (maxDischargeDepth := 10) [selReset, cite @resetPage_keeps]
@[simp] theorem sharedReset_len (s : State) :
    (sharedReset s).chans.length = s.chans.length := by
  simp (maxDischargeDepth := 10) [sharedReset, cite @shelfReset_keeps, cite @resetPage_keeps]

/-! ### Machine/Root.lean -/

@[simp] theorem requalify_len (a : Policy) (s : State) (c : Nat) :
    (requalify a s c).chans.length = s.chans.length := by
  simp (maxDischargeDepth := 10) [requalify, cite @qlChange_keeps]
@[simp] theorem portCommit_len (a : Policy) (s : State) (n : Nat) :
    (portCommit a s n).chans.length = s.chans.length ∧ (portCommit a s n).ptps.length = s.ptps.length := by
  simp (maxDischargeDepth := 10) [portCommit, cite @txclkJudge_keeps]
@[simp] theorem changePolicy_len (s : State) (b : Policy) :
    (changePolicy s b).rows.length = s.rows.length ∧ (changePolicy s b).parts.length = s.parts.length ∧
    (changePolicy s b).chans.length = s.chans.length ∧ (changePolicy s b).pkts.length = s.pkts.length ∧
    (changePolicy s b).pairs.map List.length = s.pairs.map List.length ∧
    (changePolicy s b).doms.length = s.doms.length ∧ (changePolicy s b).aplls.length = s.aplls.length ∧
    (changePolicy s b).outs.length = s.outs.length ∧
    (changePolicy s b).times.map TimeU.sizes = s.times.map TimeU.sizes ∧
    (changePolicy s b).ptps.length = s.ptps.length := by
  simp (maxDischargeDepth := 10) [changePolicy, cite @resetRows_keeps, cite @set1_keeps, cite @moveOutput_keeps, cite @hostHalfReset_keeps, cite @synthStart_keeps, cite @apllStop_keeps, cite @partReset_keeps, cite @duskRecompute_keeps, cite @commitCfg_keeps, cite @requalify_keeps, cite @instReset_keeps, cite @todConnect_keeps, cite @fmtPending_keeps, cite @utcPolicy_keeps, cite @portCommit_keeps, cite @shelfCommit_keeps, cite @markFallback_keeps, cite @debugEnd_keeps]
@[simp] theorem policyCommit_len (s : State) :
    (policyCommit s).rows.length = s.rows.length ∧ (policyCommit s).parts.length = s.parts.length ∧
    (policyCommit s).chans.length = s.chans.length ∧ (policyCommit s).pkts.length = s.pkts.length ∧
    (policyCommit s).pairs.map List.length = s.pairs.map List.length ∧ (policyCommit s).doms.length = s.doms.length ∧
    (policyCommit s).aplls.length = s.aplls.length ∧ (policyCommit s).outs.length = s.outs.length ∧
    (policyCommit s).times.map TimeU.sizes = s.times.map TimeU.sizes ∧ (policyCommit s).ptps.length = s.ptps.length := by
  simp (maxDischargeDepth := 10) [policyCommit, cite @rootStore_keeps, cite @unmark_keeps, cite @commitKey_keeps, cite @journalPg_keeps, cite @evt_keeps, cite @set1_keeps, cite @modRoot_keeps]
@[simp] theorem commitStep_len (s : State) :
    (commitStep s).rows.length = s.rows.length ∧ (commitStep s).parts.length = s.parts.length ∧
    (commitStep s).chans.length = s.chans.length ∧ (commitStep s).pkts.length = s.pkts.length ∧
    (commitStep s).pairs.map List.length = s.pairs.map List.length ∧ (commitStep s).doms.length = s.doms.length ∧
    (commitStep s).aplls.length = s.aplls.length ∧ (commitStep s).outs.length = s.outs.length ∧
    (commitStep s).times.map TimeU.sizes = s.times.map TimeU.sizes ∧ (commitStep s).ptps.length = s.ptps.length := by
  simp (maxDischargeDepth := 10) [commitStep]
@[simp] theorem leafDown_len (s : State) :
    (leafDown s).lanes.length = s.lanes.length ∧ (leafDown s).funcs.length = s.funcs.length ∧
    (leafDown s).chans.length = s.chans.length ∧ (leafDown s).pkts.length = s.pkts.length ∧
    (leafDown s).times.map TimeU.sizes = s.times.map TimeU.sizes ∧ (leafDown s).ptps.length = s.ptps.length := by
  simp (maxDischargeDepth := 10) [leafDown, cite @pktFail_keeps, cite @nmeaPause_keeps, cite @instRestart_keeps, cite @shelfStop_keeps]
@[simp] theorem leafRestart_len (s : State) (cause : Nat) :
    (leafRestart s cause).lanes.length = s.lanes.length ∧ (leafRestart s cause).funcs.length = s.funcs.length ∧
    (leafRestart s cause).chans.length = s.chans.length ∧ (leafRestart s cause).pkts.length = s.pkts.length ∧
    (leafRestart s cause).times.map TimeU.sizes = s.times.map TimeU.sizes ∧
    (leafRestart s cause).ptps.length = s.ptps.length := by
  simp (maxDischargeDepth := 10) [leafRestart, cite @addCnt_keeps, cite @evt_keeps, cite @leafLast_keeps, cite @setLeaf_keeps, cite @journalPg_keeps]
@[simp] theorem leafFault_len (s : State) (cause : Nat) :
    (leafFault s cause).lanes.length = s.lanes.length ∧ (leafFault s cause).funcs.length = s.funcs.length ∧
    (leafFault s cause).chans.length = s.chans.length ∧ (leafFault s cause).pkts.length = s.pkts.length ∧
    (leafFault s cause).times.map TimeU.sizes = s.times.map TimeU.sizes ∧
    (leafFault s cause).ptps.length = s.ptps.length := by
  simp (maxDischargeDepth := 10) [leafFault, cite @evt_keeps, cite @leafLast_keeps, cite @modRoot_keeps, cite @setLeaf_keeps, cite @journalPg_keeps]
@[simp] theorem leafHost_len (s : State) :
    (leafHost s).lanes.length = s.lanes.length ∧ (leafHost s).funcs.length = s.funcs.length ∧
    (leafHost s).chans.length = s.chans.length ∧ (leafHost s).pkts.length = s.pkts.length ∧
    (leafHost s).times.map TimeU.sizes = s.times.map TimeU.sizes ∧ (leafHost s).ptps.length = s.ptps.length := by
  simp (maxDischargeDepth := 10) [leafHost, cite @modRoot_keeps]
@[simp] theorem imageLoad_len (s : State) :
    (imageLoad s).lanes.length = s.lanes.length ∧ (imageLoad s).funcs.length = s.funcs.length ∧
    (imageLoad s).chans.length = s.chans.length ∧ (imageLoad s).pkts.length = s.pkts.length ∧
    (imageLoad s).times.map TimeU.sizes = s.times.map TimeU.sizes ∧ (imageLoad s).ptps.length = s.ptps.length := by
  simp (maxDischargeDepth := 10) [imageLoad, cite @setLeaf_keeps, cite @modRoot_keeps]
@[simp] theorem imageOver_len (s : State) :
    (imageOver s).lanes.length = s.lanes.length ∧ (imageOver s).funcs.length = s.funcs.length ∧
    (imageOver s).chans.length = s.chans.length ∧ (imageOver s).pkts.length = s.pkts.length ∧
    (imageOver s).times.map TimeU.sizes = s.times.map TimeU.sizes ∧ (imageOver s).ptps.length = s.ptps.length := by
  simp (maxDischargeDepth := 10) [imageOver, cite @modRoot_keeps]
@[simp] theorem imageCancel_len (s : State) :
    (imageCancel s).lanes.length = s.lanes.length ∧ (imageCancel s).funcs.length = s.funcs.length ∧
    (imageCancel s).chans.length = s.chans.length ∧ (imageCancel s).pkts.length = s.pkts.length ∧
    (imageCancel s).times.map TimeU.sizes = s.times.map TimeU.sizes ∧ (imageCancel s).ptps.length = s.ptps.length := by
  simp (maxDischargeDepth := 10) [imageCancel, cite @reloadBlocks_keeps]
@[simp] theorem imageRefuse_len (s : State) (code : Nat) :
    (imageRefuse s code).lanes.length = s.lanes.length ∧ (imageRefuse s code).funcs.length = s.funcs.length ∧
    (imageRefuse s code).chans.length = s.chans.length ∧ (imageRefuse s code).pkts.length = s.pkts.length ∧
    (imageRefuse s code).times.map TimeU.sizes = s.times.map TimeU.sizes ∧
    (imageRefuse s code).ptps.length = s.ptps.length := by
  simp (maxDischargeDepth := 10) [imageRefuse, cite @reloadBlocks_keeps, cite @dropOwner_keeps, cite @evt_keeps, cite @set1_keeps, cite @journalPg_keeps]
@[simp] theorem imageStored_len (s : State) :
    (imageStored s).lanes.length = s.lanes.length ∧ (imageStored s).funcs.length = s.funcs.length ∧
    (imageStored s).chans.length = s.chans.length ∧ (imageStored s).pkts.length = s.pkts.length ∧
    (imageStored s).times.map TimeU.sizes = s.times.map TimeU.sizes ∧ (imageStored s).ptps.length = s.ptps.length := by
  simp (maxDischargeDepth := 10) [imageStored, cite @evt_keeps, cite @set1_keeps, cite @journalPg_keeps]
@[simp] theorem imageVerified_len (s : State) :
    (imageVerified s).lanes.length = s.lanes.length ∧ (imageVerified s).funcs.length = s.funcs.length ∧
    (imageVerified s).chans.length = s.chans.length ∧ (imageVerified s).pkts.length = s.pkts.length ∧
    (imageVerified s).times.map TimeU.sizes = s.times.map TimeU.sizes ∧ (imageVerified s).ptps.length = s.ptps.length := by
  unfold imageVerified; dsimp only; (repeat' split) <;> simp (maxDischargeDepth := 10) [cite @rootStore_keeps, cite @modRoot_keeps, cite @acceptEpoch_keeps]
@[simp] theorem imagePowerFail_len (s : State) :
    (imagePowerFail s).lanes.length = s.lanes.length ∧ (imagePowerFail s).funcs.length = s.funcs.length ∧
    (imagePowerFail s).chans.length = s.chans.length ∧ (imagePowerFail s).pkts.length = s.pkts.length ∧
    (imagePowerFail s).times.map TimeU.sizes = s.times.map TimeU.sizes ∧
    (imagePowerFail s).ptps.length = s.ptps.length := by
  simp (maxDischargeDepth := 10) [imagePowerFail]
@[simp] theorem storeThen_len (s : State) (r : StoreRun) :
    (storeThen s r).lanes.length = s.lanes.length ∧ (storeThen s r).funcs.length = s.funcs.length ∧
    (storeThen s r).chans.length = s.chans.length ∧ (storeThen s r).pkts.length = s.pkts.length ∧
    (storeThen s r).times.map TimeU.sizes = s.times.map TimeU.sizes ∧ (storeThen s r).ptps.length = s.ptps.length := by
  simp (maxDischargeDepth := 10) [storeThen, cite @copyProfile_keeps, cite @scheduleCommit_keeps]
@[simp] theorem storeDone_len (s : State) (v : Supply) :
    (storeDone s v).lanes.length = s.lanes.length ∧ (storeDone s v).funcs.length = s.funcs.length ∧
    (storeDone s v).chans.length = s.chans.length ∧ (storeDone s v).pkts.length = s.pkts.length ∧
    (storeDone s v).times.map TimeU.sizes = s.times.map TimeU.sizes ∧ (storeDone s v).ptps.length = s.ptps.length := by
  unfold storeDone; (repeat' split) <;> simp (maxDischargeDepth := 10) [cite @engineStart_keeps, cite @storeEnds_keeps]
@[simp] theorem storeGiveUp_len (s : State) (v : Supply) :
    (storeGiveUp s v).lanes.length = s.lanes.length ∧ (storeGiveUp s v).funcs.length = s.funcs.length ∧
    (storeGiveUp s v).chans.length = s.chans.length ∧ (storeGiveUp s v).pkts.length = s.pkts.length ∧
    (storeGiveUp s v).times.map TimeU.sizes = s.times.map TimeU.sizes ∧ (storeGiveUp s v).ptps.length = s.ptps.length := by
  unfold storeGiveUp; dsimp only; (repeat' split) <;> simp (maxDischargeDepth := 10) [cite @storeAbandon_keeps, cite @stopCommit_keeps, cite @engineStart_keeps]

/-! ### Machine/Power.lean -/

@[simp] theorem outputsShut_len (s : State) :
    (outputsShut s).outs.length = s.outs.length := by
  simp (maxDischargeDepth := 10) [outputsShut, cite @set1_keeps]
@[simp] theorem shutdown_len (s : State) :
    (shutdown s).outs.length = s.outs.length := by
  simp (maxDischargeDepth := 10) [shutdown, cite @set1_keeps, cite @modShelf_keeps, cite @modPower_keeps, cite @powerOff_keeps]
@[simp] theorem powerFail_len (s : State) (cause vin holdup : Nat) :
    (powerFail s cause vin holdup).lanes.length = s.lanes.length ∧
    (powerFail s cause vin holdup).funcs.length = s.funcs.length ∧
    (powerFail s cause vin holdup).chans.length = s.chans.length ∧
    (powerFail s cause vin holdup).pkts.length = s.pkts.length ∧
    (powerFail s cause vin holdup).outs.length = s.outs.length ∧
    (powerFail s cause vin holdup).times.map TimeU.sizes = s.times.map TimeU.sizes ∧
    (powerFail s cause vin holdup).ptps.length = s.ptps.length := by
  simp (maxDischargeDepth := 10) [powerFail, cite @set1_keeps, cite @recordFail_keeps, cite @linkDown_keeps, cite @addCnt_keeps, cite @evt_keeps, cite @journalPg_keeps, cite @imagePowerFail_keeps, cite @stopCommit_keeps, cite @ltAdd_keeps, cite @shutdown_keeps, cite @shelfPowerFail_keeps, cite @pfSequence_keeps, cite @drainAll_keeps]

/-! ### Machine/Start.lean -/

@[simp] theorem bootUp_len (s : State) (cause : Nat) :
    (bootUp s cause).chans.length = s.chans.length ∧ (bootUp s cause).pkts.length = s.pkts.length ∧
    (bootUp s cause).ptps.length = s.ptps.length := by
  simp (maxDischargeDepth := 10) [bootUp, cite @startValues_keeps, cite @startPolicy_keeps, cite @publishKey_keeps, cite @set1_keeps, cite @publishGains_keeps, cite @instReset_keeps, cite @shelfReset_keeps, cite @tableReset_keeps]
@[simp] theorem resetHold_len (s : State) :
    (resetHold s).outs.length = s.outs.length := by
  simp (maxDischargeDepth := 10) [resetHold, cite @modCellar_keeps, cite @set1_keeps]
@[simp] theorem openDomain_len (s : State) (d : Nat) :
    (openDomain s d).pairs.map List.length = s.pairs.map List.length ∧ (openDomain s d).doms.length = s.doms.length ∧
    (openDomain s d).aplls.length = s.aplls.length ∧ (openDomain s d).outs.length = s.outs.length ∧
    (openDomain s d).times.map TimeU.sizes = s.times.map TimeU.sizes := by
  simp (maxDischargeDepth := 10) [openDomain, cite @synthStart_keeps, cite @publishGains_keeps, cite @utcPolicy_keeps, cite @timeStart_keeps, cite @startDom_keeps]
@[simp] theorem startFrames_len (s : State) (src : Nat) :
    (startFrames s src).pairs.map List.length = s.pairs.map List.length ∧
    (startFrames s src).doms.length = s.doms.length ∧ (startFrames s src).aplls.length = s.aplls.length ∧
    (startFrames s src).outs.length = s.outs.length ∧
    (startFrames s src).times.map TimeU.sizes = s.times.map TimeU.sizes := by
  simp (maxDischargeDepth := 10) [startFrames, cite @set1_keeps, cite @txclkJudge_keeps, cite @takeFormats_keeps]
@[simp] theorem softReset_len (s : State) :
    (softReset s).lanes.length = s.lanes.length ∧ (softReset s).funcs.length = s.funcs.length ∧
    (softReset s).rows.length = s.rows.length ∧ (softReset s).parts.length = s.parts.length ∧
    (softReset s).chans.length = s.chans.length ∧ (softReset s).pkts.length = s.pkts.length ∧
    (softReset s).pairs.map List.length = s.pairs.map List.length ∧ (softReset s).doms.length = s.doms.length ∧
    (softReset s).aplls.length = s.aplls.length ∧ (softReset s).times.map TimeU.sizes = s.times.map TimeU.sizes ∧
    (softReset s).ptps.length = s.ptps.length := by
  simp (maxDischargeDepth := 10) [softReset, cite @journalPg_keeps, cite @addCnt_keeps, cite @recordSys_keeps, cite @set1_keeps, cite @partReset_keeps, cite @hostHalfReset_keeps, cite @leafHost_keeps, cite @sharedReset_keeps, cite @dropVerify_keeps, cite @debugEnd_keeps]
@[simp] theorem leafAgain_len (s : State) :
    (leafAgain s).lanes.length = s.lanes.length ∧ (leafAgain s).funcs.length = s.funcs.length ∧
    (leafAgain s).chans.length = s.chans.length ∧ (leafAgain s).pkts.length = s.pkts.length ∧
    (leafAgain s).times.map TimeU.sizes = s.times.map TimeU.sizes ∧ (leafAgain s).ptps.length = s.ptps.length := by
  unfold leafAgain; (repeat' split) <;> simp (maxDischargeDepth := 10) [cite @set1_keeps, cite @shelfRejoin_keeps]
@[simp] theorem procReset_len (s : State) :
    (procReset s).lanes.length = s.lanes.length ∧ (procReset s).funcs.length = s.funcs.length ∧
    (procReset s).chans.length = s.chans.length ∧ (procReset s).pkts.length = s.pkts.length ∧
    (procReset s).times.map TimeU.sizes = s.times.map TimeU.sizes ∧ (procReset s).ptps.length = s.ptps.length := by
  simp (maxDischargeDepth := 10) [procReset, cite @addCnt_keeps, cite @evt_keeps, cite @recordSys_keeps, cite @journalPg_keeps, cite @refuseProfile_keeps, cite @stopCommit_keeps, cite @modRoot_keeps, cite @shelfReset_keeps, cite @debugEnd_keeps]

/-! ### Machine/HostWrites.lean -/

@[simp] theorem actRows_len (s : State) (off v : Nat) :
    (actRows s off v).parts.length = s.parts.length := by
  simp (maxDischargeDepth := 10) [actRows, cite @descWrite_keeps, cite @progSwap_keeps, cite @plainWord_keeps]
@[simp] theorem actApll_len (s : State) (n off v : Nat) :
    (actApll s n off v).chans.length = s.chans.length ∧ (actApll s n off v).aplls.length = s.aplls.length ∧
    (actApll s n off v).outs.length = s.outs.length := by
  simp (maxDischargeDepth := 10) [actApll, cite @epochRequest_keeps, cite @set1_keeps, cite @plainWord_keeps]
@[simp] theorem actOut_len (all rest : List QWrite) (s : State) (n off v : Nat) :
    (actOut all rest s n off v).outs.length = s.outs.length := by
  simp (maxDischargeDepth := 10) [actOut, cite @fineSet_keeps, cite @pulsePeriodSet_keeps, cite @plainWord_keeps, cite @set1_keeps]
@[simp] theorem actTime_len (rest : List QWrite) (s : State) (n off v : Nat) :
    (actTime rest s n off v).times.map TimeU.sizes = s.times.map TimeU.sizes := by
  simp (maxDischargeDepth := 10) [actTime, cite @plainWord_keeps]
@[simp] theorem actEth_len (rest : List QWrite) (s : State) (n off v : Nat) :
    (actEth rest s n off v).chans.length = s.chans.length ∧ (actEth rest s n off v).eths.length = s.eths.length := by
  simp (maxDischargeDepth := 10) [actEth, cite @restartAn_keeps, cite @plainWord_keeps, cite @portEnableWrite_keeps]
@[simp] theorem actRoot_len (s : State) (off v : Nat) :
    (actRoot s off v).lanes.length = s.lanes.length ∧ (actRoot s off v).funcs.length = s.funcs.length ∧
    (actRoot s off v).chans.length = s.chans.length ∧ (actRoot s off v).pkts.length = s.pkts.length ∧
    (actRoot s off v).times.map TimeU.sizes = s.times.map TimeU.sizes ∧ (actRoot s off v).ptps.length = s.ptps.length := by
  simp (maxDischargeDepth := 10) [actRoot, cite @abortCmd_keeps, cite @commitCmd_keeps, cite @verifyCmd_keeps, cite @imageActivate_keeps, cite @plainWord_keeps]
@[simp] theorem actPage_len (all rest : List QWrite) (s : State) (p : Page) (n off v : Nat) :
    (actPage all rest s p n off v).lanes.length = s.lanes.length ∧
    (actPage all rest s p n off v).funcs.length = s.funcs.length ∧
    (actPage all rest s p n off v).parts.length = s.parts.length ∧
    (actPage all rest s p n off v).chans.length = s.chans.length ∧
    (actPage all rest s p n off v).pkts.length = s.pkts.length ∧
    (actPage all rest s p n off v).aplls.length = s.aplls.length ∧
    (actPage all rest s p n off v).outs.length = s.outs.length ∧
    (actPage all rest s p n off v).times.map TimeU.sizes = s.times.map TimeU.sizes ∧
    (actPage all rest s p n off v).eths.length = s.eths.length ∧
    (actPage all rest s p n off v).ptps.length = s.ptps.length := by
  unfold actPage; dsimp only; (repeat' split) <;> simp (maxDischargeDepth := 10) [cite @actRows_keeps, cite @actDpll_keeps, cite @actLane_keeps, cite @actApll_keeps, cite @actOut_keeps, cite @actTime_keeps, cite @actEth_keeps, cite @actRoot_keeps, cite @rdIdxWrite_keeps, cite @plainWord_keeps, cite @rdSeqWrite_keeps, cite @bboxWmWrite_keeps, cite @debugAsk_keeps, cite @debugEnd_keeps]
@[simp] theorem actWord_len (all rest : List QWrite) (s : State) (w : QWrite) :
    (actWord all rest s w).lanes.length = s.lanes.length ∧ (actWord all rest s w).funcs.length = s.funcs.length ∧
    (actWord all rest s w).parts.length = s.parts.length ∧ (actWord all rest s w).chans.length = s.chans.length ∧
    (actWord all rest s w).pkts.length = s.pkts.length ∧ (actWord all rest s w).aplls.length = s.aplls.length ∧
    (actWord all rest s w).outs.length = s.outs.length ∧
    (actWord all rest s w).times.map TimeU.sizes = s.times.map TimeU.sizes ∧
    (actWord all rest s w).eths.length = s.eths.length ∧ (actWord all rest s w).ptps.length = s.ptps.length := by
  unfold actWord; (repeat' split) <;> simp (maxDischargeDepth := 10) [cite @setLE_keeps, cite @actCellarWord_keeps]
@[simp] theorem actAll_len (all x1 : List QWrite) (x2 : List (Port × Nat)) (x3 : State) :
    (actAll all x1 x2 x3).lanes.length = x3.lanes.length ∧ (actAll all x1 x2 x3).funcs.length = x3.funcs.length ∧
    (actAll all x1 x2 x3).parts.length = x3.parts.length ∧ (actAll all x1 x2 x3).chans.length = x3.chans.length ∧
    (actAll all x1 x2 x3).pkts.length = x3.pkts.length ∧ (actAll all x1 x2 x3).aplls.length = x3.aplls.length ∧
    (actAll all x1 x2 x3).outs.length = x3.outs.length ∧
    (actAll all x1 x2 x3).times.map TimeU.sizes = x3.times.map TimeU.sizes ∧
    (actAll all x1 x2 x3).eths.length = x3.eths.length ∧ (actAll all x1 x2 x3).ptps.length = x3.ptps.length := by
  induction x1 generalizing x2 x3 with
  | nil => simp [actAll]
  | cons b r ih => (unfold actAll; (repeat' split) <;> simp [ih, cite @discard_keeps])
@[simp] theorem resetStep_len (s : State) (due : List QWrite) :
    (resetStep s due).lanes.length = s.lanes.length ∧ (resetStep s due).funcs.length = s.funcs.length ∧
    (resetStep s due).rows.length = s.rows.length ∧ (resetStep s due).parts.length = s.parts.length ∧
    (resetStep s due).chans.length = s.chans.length ∧ (resetStep s due).pkts.length = s.pkts.length ∧
    (resetStep s due).pairs.map List.length = s.pairs.map List.length ∧
    (resetStep s due).doms.length = s.doms.length ∧ (resetStep s due).aplls.length = s.aplls.length ∧
    (resetStep s due).times.map TimeU.sizes = s.times.map TimeU.sizes ∧ (resetStep s due).ptps.length = s.ptps.length := by
  simp (maxDischargeDepth := 10) [resetStep, cite @partReset_keeps]
@[simp] theorem writeStep_len (s : State) (due : List QWrite) (parts : List Nat) :
    (writeStep s due parts).lanes.length = s.lanes.length ∧ (writeStep s due parts).funcs.length = s.funcs.length ∧
    (writeStep s due parts).parts.length = s.parts.length ∧ (writeStep s due parts).chans.length = s.chans.length ∧
    (writeStep s due parts).pkts.length = s.pkts.length ∧ (writeStep s due parts).aplls.length = s.aplls.length ∧
    (writeStep s due parts).outs.length = s.outs.length ∧
    (writeStep s due parts).times.map TimeU.sizes = s.times.map TimeU.sizes ∧
    (writeStep s due parts).eths.length = s.eths.length ∧ (writeStep s due parts).ptps.length = s.ptps.length := by
  simp (maxDischargeDepth := 10) [writeStep, cite @storeStep_keeps]
@[simp] theorem armTrig_len (s : State) (d k v : Nat) :
    (armTrig s d k v).times.map TimeU.sizes = s.times.map TimeU.sizes := by
  simp (maxDischargeDepth := 10) [armTrig]
@[simp] theorem armCap_len (s : State) (d c v : Nat) :
    (armCap s d c v).times.map TimeU.sizes = s.times.map TimeU.sizes := by
  simp (maxDischargeDepth := 10) [armCap]
@[simp] theorem armWord_len (s : State) (w : QWrite) :
    (armWord s w).times.map TimeU.sizes = s.times.map TimeU.sizes := by
  unfold armWord; (repeat' split) <;> simp (maxDischargeDepth := 10)
@[simp] theorem armStep_len (s : State) (due : List QWrite) (parts : List Nat) :
    (armStep s due parts).times.map TimeU.sizes = s.times.map TimeU.sizes := by
  simp (maxDischargeDepth := 10) [armStep]

/-! ### Machine/Frame.lean -/

@[simp] theorem boundarySteps_len (s : State) :
    (boundarySteps s).lanes.length = s.lanes.length ∧ (boundarySteps s).funcs.length = s.funcs.length ∧
    (boundarySteps s).rows.length = s.rows.length ∧ (boundarySteps s).parts.length = s.parts.length ∧
    (boundarySteps s).chans.length = s.chans.length ∧ (boundarySteps s).pkts.length = s.pkts.length ∧
    (boundarySteps s).pairs.map List.length = s.pairs.map List.length ∧
    (boundarySteps s).doms.length = s.doms.length ∧ (boundarySteps s).aplls.length = s.aplls.length ∧
    (boundarySteps s).outs.length = s.outs.length ∧
    (boundarySteps s).times.map TimeU.sizes = s.times.map TimeU.sizes ∧
    (boundarySteps s).eths.length = s.eths.length ∧ (boundarySteps s).ptps.length = s.ptps.length := by
  simp (maxDischargeDepth := 10) [boundarySteps, cite @commitStep_keeps, cite @writeStep_keeps, cite @gateStep_keeps, cite @resetStep_keeps, cite @debugFrame_keeps, cite @roleChange_keeps, cite @resetDone_keeps, cite @tableAccept_keeps, cite @armStep_keeps, cite @timeBoundary_keeps]
@[simp] theorem stages_len (s : State) (i : FrameIn) :
    (stages s i).lanes.length = s.lanes.length ∧ (stages s i).funcs.length = s.funcs.length ∧
    (stages s i).rows.length = s.rows.length ∧ (stages s i).parts.length = s.parts.length ∧
    (stages s i).chans.length = s.chans.length ∧ (stages s i).pkts.length = s.pkts.length ∧
    (stages s i).pairs.map List.length = s.pairs.map List.length ∧ (stages s i).doms.length = s.doms.length ∧
    (stages s i).aplls.length = s.aplls.length ∧ (stages s i).outs.length = s.outs.length ∧
    (stages s i).times.map TimeU.sizes = s.times.map TimeU.sizes ∧ (stages s i).eths.length = s.eths.length ∧
    (stages s i).ptps.length = s.ptps.length := by
  simp (maxDischargeDepth := 10) [stages, cite @trigStage_keeps, cite @stage1_keeps, cite @stage4_keeps, cite @drainAll_keeps, cite @stage3_keeps, cite @stage2_keeps, cite @capStage_keeps, cite @tableRefresh_keeps, cite @harvest_keeps, cite @stage5_keeps, cite @shelfFrame_keeps, cite @shelfAlerts_keeps, cite @etherFrame_keeps, cite @ringStore_keeps]
@[simp] theorem frameEnd_len (s : State) (i : FrameIn) :
    (frameEnd s i).funcs.length = s.funcs.length ∧ (frameEnd s i).parts.length = s.parts.length ∧
    (frameEnd s i).aplls.length = s.aplls.length ∧ (frameEnd s i).outs.length = s.outs.length ∧
    (frameEnd s i).times.map TimeU.sizes = s.times.map TimeU.sizes := by
  simp (maxDischargeDepth := 10) [frameEnd, cite @timeAdvance_keeps, cite @harvest_keeps, cite @frameLost_keeps, cite @drainAll_keeps, cite @suppressionEnd_keeps, cite @lanesEnd_keeps, cite @publishSlots_keeps]
@[simp] theorem frameTick_len (s : State) (i : FrameIn) :
    (frameTick s i).lanes.length = s.lanes.length ∧ (frameTick s i).funcs.length = s.funcs.length ∧
    (frameTick s i).rows.length = s.rows.length ∧ (frameTick s i).parts.length = s.parts.length ∧
    (frameTick s i).chans.length = s.chans.length ∧ (frameTick s i).pkts.length = s.pkts.length ∧
    (frameTick s i).pairs.map List.length = s.pairs.map List.length ∧ (frameTick s i).doms.length = s.doms.length ∧
    (frameTick s i).aplls.length = s.aplls.length ∧ (frameTick s i).outs.length = s.outs.length ∧
    (frameTick s i).times.map TimeU.sizes = s.times.map TimeU.sizes ∧ (frameTick s i).eths.length = s.eths.length ∧
    (frameTick s i).ptps.length = s.ptps.length := by
  simp (maxDischargeDepth := 10) [frameTick, cite @frameEnd_keeps, cite @rootUp_keeps, cite @snapStep_keeps, cite @timeTick_keeps, cite @powerFrame_keeps, cite @drainAll_keeps]
@[simp] theorem frameZero_len (s : State) (src : Nat) :
    (frameZero s src).lanes.length = s.lanes.length ∧ (frameZero s src).funcs.length = s.funcs.length ∧
    (frameZero s src).rows.length = s.rows.length ∧ (frameZero s src).parts.length = s.parts.length ∧
    (frameZero s src).chans.length = s.chans.length ∧ (frameZero s src).pkts.length = s.pkts.length ∧
    (frameZero s src).pairs.map List.length = s.pairs.map List.length ∧ (frameZero s src).doms.length = s.doms.length ∧
    (frameZero s src).aplls.length = s.aplls.length ∧ (frameZero s src).outs.length = s.outs.length ∧
    (frameZero s src).times.map TimeU.sizes = s.times.map TimeU.sizes ∧ (frameZero s src).eths.length = s.eths.length ∧
    (frameZero s src).ptps.length = s.ptps.length := by
  simp (maxDischargeDepth := 10) [frameZero, cite @drainAll_keeps, cite @startFrames_keeps]
@[simp] theorem tbBridge_len (s : State) (d : Nat) :
    (tbBridge s d).doms.length = s.doms.length := by
  simp (maxDischargeDepth := 10) [tbBridge]
@[simp] theorem tbSwitch_len (s : State) :
    (tbSwitch s).doms.length = s.doms.length := by
  simp (maxDischargeDepth := 10) [tbSwitch, cite @tbSwitched_keeps]
@[simp] theorem outLost_len (s : State) (n : Nat) :
    (outLost s n).outs.length = s.outs.length := by
  unfold outLost; dsimp only; (repeat' split) <;> simp (maxDischargeDepth := 10) [cite @evtIf_keeps]
@[simp] theorem tbLost_len (s : State) :
    (tbLost s).outs.length = s.outs.length := by
  simp (maxDischargeDepth := 10) [tbLost, cite @drainAll_keeps, cite @journalPg_keeps, cite @degraded_keeps, cite @set1_keeps]

/-! ### The units hold at a start, and are kept with the sizes -/

/-- Where the sizes are the same, the units are. -/
theorem shaped_of_sizes {s t : State} (hs : Shaped s) (h0 : t.lanes.length = s.lanes.length) (h1 :
        t.funcs.length = s.funcs.length) (h2 : t.rows.length = s.rows.length) (h3 : t.parts.length =
        s.parts.length) (h4 : t.chans.length = s.chans.length) (h5 : t.pkts.length = s.pkts.length) (h6 :
        t.doms.length = s.doms.length) (h7 : t.aplls.length = s.aplls.length) (h8 : t.outs.length = s.outs.length)
        (h9 : t.eths.length = s.eths.length) (h10 : t.ptps.length = s.ptps.length) (hp : t.pairs.map List.length =
        s.pairs.map List.length) (ht : t.times.map TimeU.sizes = s.times.map TimeU.sizes) : Shaped t := by
  obtain ⟨a1,a2,a3,a4,a5,a6,a7,a8,a9,a10,a11,a12,a13⟩ := hs
  constructor <;> simp_all

/-- The state a power-on reset begins from has every unit. -/
theorem coldState_shaped (s : State) (i : StartIn) : Shaped (coldState s i) := by
  constructor <;> first | exact List.length_replicate | rfl

/-- The state a release of RESET_N begins from has every unit. -/
theorem warmState_shaped (s : State) (st : Straps) : Shaped (warmState s st) := by
  unfold warmState
  generalize resetKept = l
  dsimp only
  have h := fun {β : Type} (g : State → β) (hg : ∀ t f, g (set1 t f 0 (get1 s f 0)) = g t) (u : State) =>
        foldl_inv g (fun t f => set1 t f 0 (get1 s f 0)) hg l u
  constructor
  · rw [h State.lanes (by simp [cite @set1_keeps])]; rfl
  · rw [h State.funcs (by simp [cite @set1_keeps])]; rfl
  · rw [h State.rows (by simp [cite @set1_keeps])]; exact List.length_replicate
  · rw [h State.parts (by simp [cite @set1_keeps])]; rfl
  · rw [h State.chans (by simp [cite @set1_keeps])]; rfl
  · rw [h State.pkts (by simp [cite @set1_keeps])]; rfl
  · rw [h State.pairs (by simp [cite @set1_keeps])]; rfl
  · rw [h State.doms (by simp [cite @set1_keeps])]; rfl
  · rw [h State.aplls (by simp [cite @set1_keeps])]; rfl
  · rw [h State.outs (by simp [cite @set1_keeps])]; rfl
  · rw [h State.times (by simp [cite @set1_keeps])]; rfl
  · rw [h State.eths (by simp [cite @set1_keeps])]; rfl
  · rw [h State.ptps (by simp [cite @set1_keeps])]; rfl

theorem powerOn_shaped (s : State) (i : StartIn) : Shaped (powerOn s i) := by
  have hs := coldState_shaped s i
  apply shaped_of_sizes (t := powerOn s i) hs <;>
    simp [powerOn, firstEntry, cite @bootUp_keeps, cite @calDefault_keeps, cite @bboxRecall_keeps, cite @cellarRecall_keeps, cite @powerInit_keeps,
      cite @coldState_keeps, cite @drainAll_keeps, cite @enqueue_keeps, cite @frnRestart_keeps]

theorem resetRelease_shaped (s : State) (st : Straps) : Shaped (resetRelease s st) := by
  unfold resetRelease
  dsimp only
  generalize drainAll (holdAllLost s.jrn.lost s) = u
  have hs := warmState_shaped u st
  apply shaped_of_sizes hs <;> simp [cite @drainAll_keeps, cite @frnRestart_keeps, cite @bootUp_keeps]

theorem resetAfterPf_shaped (s : State) (hs : Shaped s) : Shaped (resetAfterPf s) := by
  unfold resetAfterPf
  split
  · split
    · exact resetRelease_shaped _ _
    · apply shaped_of_sizes hs <;> simp [cite @resetHold_keeps]
  · exact hs

end Sys2Proof.Machine
end

