-- ==== Sys2Proof/Tests/Slice0.lean ====
section
/-! SUPPORT. Small tests: that no ill-formed command is taken, that the hypotheses of each obligation are met by a concrete
state and concrete operands, clause by clause and at the ends of their ranges, and what single commands do there. Expected
values are worked out from the rules of spec/ named in the obligation's docstring. -/

set_option Elab.async false

namespace Sys2Proof.Tests

open Sys2Proof Sys2Proof.Machine

/-! ### States to test on -/

/-- A running module at the tick of frame 1000, every partition open. -/
def up : State := { phase := .running, frn := 1000, cyc := 10, pol := ⟨1, [true, true, true, true], [], []⟩ }

/-- The module held by RESET_N, and the module that waits for a timebase. -/
def held : State := { phase := .held, frn := 1000 }
def waits : State := { phase := .waiting }

/-- A policy field of a state. -/
def polSet (s : State) (f : Fld) (n k j v : Nat) : State :=
  { s with pol := { s.pol with vals := kvSet s.pol.vals (fldKey f n k j) v } }

/-- The command answers a next state of which `p` holds. -/
def runs (c : Instr) (s : State) (p : State → Bool) : Bool :=
  match exec c s with
  | .next t => p t
  | _ => false

/-- The command answers the same state. -/
def idle (c : Instr) (s : State) : Bool := runs c s fun t => t == s

/-- An event bit of a page. -/
def raised (t : State) (p : Page) (n bit : Nat) : Bool := bitOf (get1 t (HDR.EVT p) n) bit

/-- A counter read one more than before. -/
def oneMore (s t : State) (f : Fld) (n k : Nat) : Bool := getF t f n k 0 == getF s f n k 0 + 1

/-- A message in its buffer or on the bus. -/
def sent (t : State) (k : Nat) (b : List Nat) : Bool := t.shelf.onBus == some (k, b) || kvGet t.shelf.bufs k == some b

/-- The units of the module are all there. -/
def shaped (s : State) : Bool :=
  s.lanes.length == 18 && s.funcs.length == 16 && s.rows.length == 256 && s.parts.length == 4 && s.chans.length == 12 &&
  s.pkts.length == 2 && s.pairs.map List.length == List.replicate 4 12 && s.doms.length == 4 && s.aplls.length == 4 &&
  s.outs.length == 10 && s.times.map TimeU.sizes == List.replicate 4 (8, 8) && s.eths.length == 2 && s.ptps.length == 4

theorem shaped_iff (s : State) (h : shaped s = true) : Shaped s := by
  simp only [shaped, Bool.and_eq_true, beq_iff_eq] at h
  obtain ⟨⟨⟨⟨⟨⟨⟨⟨⟨⟨⟨⟨a, b⟩, c⟩, d⟩, e⟩, f⟩, g⟩, i⟩, j⟩, k⟩, l⟩, m⟩, n⟩ := h
  exact ⟨a, b, c, d, e, f, g, i, j, k, l, m, n⟩

theorem test_up_shaped : Shaped up := shaped_iff up (by decide +kernel)

/-! ### Ill-formed commands -/

/-! Commands with every operand at the end of its range, and commands with one operand beyond it. -/

/-- A message with every field at the end of its range. -/
def aMsg : PtpMsg := ⟨1, 15, 15, 255, 2 ^ 64 - 1, 65535, 65535, false, false, 0, 0, 63999999⟩

def good0 : List Instr :=
  [.softReset 65535, .laneCalibration ⟨17, none, false⟩, .spareCalDone 17, .padOverdrive 7, .suspectEnd 7, .actTimeout 11,
   .qlTimeout 11, .holdOffExpiry 3 11, .wtrExpiry 3 11, .lockAchieved 3, .slewDone 3, .bridgeEnd 3, .historySegment 3,
   .duskExpiry 3, .steppedEnd 3, .nop 3, .openZero 3 255, .openBias 3 255 32767, .openResidual 3 255 255, .openCarry 3 255,
   .acc 3 255 31 true 63 3 63, .diff 3 255 31 true 63 3 63, .xdif 3 255 31 31 true 3 63, .sync 3 255 true 7, .close 3 255]

def good1 : List Instr :=
  [.endProg 3, .spiWrite ⟨7, 15, 0xFFFFFF, List.replicate 16 0xFFFFFFFF, 0, none, 1249⟩,
   .spiRead ⟨7, 15, 0xFFFFFF, 0, none, 1249⟩, .i2cWrite ⟨127, 7, 15, 0xFFFFFF, List.replicate 16 0xFFFFFFFF, 0, none, 1249⟩,
   .i2cRead ⟨127, 7, 15, 0xFFFFFF, 0, none, 0, 1249⟩, .hostRegisterWrite ⟨.i2c, 7, 1249⟩ 0xFFFFFF 0xFFFFFFFF,
   .frnLoRead .i2c .sys, .frnHiRead .i2c .sys, .nowNsRead .i2c ⟨3, 1249⟩, .nowSecRead .i2c 3 2, .accDebugRead .i2c 7 0x701FFC,
   .snapReq ⟨.i2c, 7, 1249⟩ .dpll 3, .snapAll ⟨.i2c, 7, 1249⟩, .evtClear ⟨.i2c, 7, 1249⟩ .dpll 3 0xFFFFFFFF,
   .counterClear ⟨.i2c, 7, 1249⟩ (fldAddr DPLL.HOLD_CNT 3 0 0) 0xFFFFFFFF, .partReset ⟨.i2c, 7, 1249⟩ 3,
   .channelTableWrite ⟨.i2c, 7, 1249⟩ 0x4007FC 0xFFFFFFFF, .descriptorWrite 255 4294967295, .progBaseWrite 3 4294967295,
   .progWinWrite 3 15 4294967295, .swap 3, .rdIdxWrite 3 4294967295, .loopBwWrite 3 none none, .setAbs 3, .setRel 3]

def good2 : List Instr :=
  [.trigArm 3 7, .trigDisarm 3 7, .capArm 3 7, .capCancel 3 7, .apply 3, .epoch 3, .outEnable 9, .outDisable 9,
   .pulseModeChange 9 true, .dividerChange 9 (some (4294967295)) (some (4294967295)), .fineWrite 9 255,
   .pulsePeriodWrite 9 (some (7)) (some (1073741823)) (some (1073741823)), .palignWrite 9 15 true, .palignOfsHiWrite 9 65535,
   .baudWrite 3 7, .storeCmd 3 255 255, .portEnable 1, .portDisable 1, .restartAn 1, .rdSeqWrite 4294967295,
   .qlDeliver 11 4 31 15 (some (255)) 1249, .pktEstimate 3 11 0 0 0 1249, .timeChange 3 3 0 1249,
   .utcUpdate 3 3 0 true true 1249, .txFrame 3 1 ⟨[255], 0, 63999999⟩]

def good3 : List Instr :=
  [.shelfTx 7 (List.replicate 64 255), .regRead 16777215 262143, .pageReport 16777215 4294967295 1249,
   .journal 4095 255 4294967295, .cellarStore 255 256, .storeRequest 255 256, .ringPut 255 (List.replicate 4096 255),
   .restartSelf 4294967295, .secondsRollover 3, .trigFire 3 7 [], .capDone 3 7, .todMessage 3, .nmeaSentence 3 [255] 0,
   .apllLockLost 3, .relock 3, .retuneLock 3, .dllLol 9, .dllRelock 9, .ethFrameReceive 1 ⟨[255], true, 0, 0⟩, .pcsLock 1 true,
   .pcsLockLoss 1, .calDone 1 0 0, .esmcPduReceive 1 ⟨0, 0, 0, true, 15, some ⟨255, 0, 0, 0, 0⟩⟩ 1249, .esmcInfoPdu 1, .esmcEventPdu 1]

def good4 : List Instr :=
  [.syncReceive 3 aMsg 0 0 1249,
   .followUpReceive 3 aMsg 0 0 1249, .followUpTimeout 3,
   .announceReceive 3 aMsg ⟨255, 65535, true, 0, true, true, .parent⟩ 1249,
   .delayReqReceive 3 aMsg,
   .pdelayReqReceive 3 aMsg 0 63999999, .unicastRequest 3 1 0 0 4294967295,
   .syncTransmit 3 1 [255] 0 63999999, .announceTransmit 3 1, .ptpReopen 3, .alert 7 3 3 4294967295,
   .shelfElectRx ⟨256 * typeClass 1 + 1, false, true, false, List.replicate 20 0⟩,
   .shelfQlFwdRx ⟨256 * typeClass 2 + 2, false, true, false, List.replicate 20 0⟩ 1249,
   .shelfTodRx ⟨256 * typeClass 3 + 3, false, true, false, List.replicate 20 0⟩,
   .regReq ⟨256 * typeClass 5 + 5, false, true, false, List.replicate 20 0⟩, .peerLost 31, .busOff 511, .alignLost 9,
   .announceReceiptTimeout 3, .delayReqTransmit 3 ⟨1, 0, 63999999⟩,
   .delayRespReceive 3 aMsg 0 0, .errPassive 255 255,
   .unknownFrame ⟨256 * typeClass 0 + 0, false, true, false, List.replicate 20 0⟩]

/-- Arguments of gate calls that the gate refuses by its bounds are not ill formed. -/
def good5 : List Instr :=
  [.qlDeliver 12 5 32 15 none 0, .pktEstimate 3 12 0 0 0 0, .timeChange 3 4 0 0, .utcUpdate 3 4 0 true true 0, .txFrame 3 2 ⟨[255], 0, 0⟩,
   .shelfTx 8 (List.replicate 65 255), .regRead 0x1000000 0x40000, .pageReport 0x1000000 0 0, .journal 0x1000 256 0, .cellarStore 256 257,
   .storeRequest 256 257, .ringPut 256 (List.replicate 4097 0)]

def ill0 : List Instr :=
  [.softReset 65536, .laneCalibration ⟨18, none, false⟩, .spareCalDone 18, .padOverdrive 8, .suspectEnd 8, .actTimeout 12,
   .qlTimeout 12, .holdOffExpiry 4 11, .holdOffExpiry 3 12, .wtrExpiry 4 11, .wtrExpiry 3 12, .lockAchieved 4, .slewDone 4,
   .bridgeEnd 4, .historySegment 4, .duskExpiry 4, .steppedEnd 4, .nop 4, .openZero 4 255, .openZero 3 256,
   .openBias 4 255 32767, .openBias 3 256 32767, .openBias 3 255 (-32769), .openBias 3 255 32768, .openResidual 4 255 255]

def ill1 : List Instr :=
  [.openResidual 3 256 255, .openResidual 3 255 256, .openCarry 4 255, .openCarry 3 256, .acc 4 255 31 true 63 3 63,
   .acc 3 256 31 true 63 3 63, .acc 3 255 32 true 63 3 63, .acc 3 255 31 true 64 3 63, .acc 3 255 31 true 63 4 63,
   .acc 3 255 31 true 63 3 64, .diff 4 255 31 true 63 3 63, .diff 3 256 31 true 63 3 63, .diff 3 255 32 true 63 3 63,
   .diff 3 255 31 true 64 3 63, .diff 3 255 31 true 63 4 63, .diff 3 255 31 true 63 3 64, .xdif 4 255 31 31 true 3 63,
   .xdif 3 256 31 31 true 3 63, .xdif 3 255 32 31 true 3 63, .xdif 3 255 31 32 true 3 63, .xdif 3 255 31 31 true 4 63,
   .xdif 3 255 31 31 true 3 64, .sync 4 255 true 7, .sync 3 256 true 7, .sync 3 255 true 8]

def ill2 : List Instr :=
  [.close 4 255, .close 3 256, .endProg 4, .spiWrite ⟨8, 15, 0xFFFFFF, List.replicate 16 0, 0, none, 1249⟩,
   .spiWrite ⟨7, 16, 0xFFFFFF, List.replicate 16 0, 0, none, 1249⟩,
   .spiWrite ⟨7, 15, 0x1000000, List.replicate 16 0, 0, none, 1249⟩,
   .spiWrite ⟨7, 15, 0xFFFFFF, List.replicate 15 0, 0, none, 1249⟩,
   .spiWrite ⟨7, 15, 0xFFFFFF, List.replicate 16 0x100000000, 0, none, 1249⟩,
   .spiWrite ⟨7, 15, 0xFFFFFF, List.replicate 16 0, 0, none, 1250⟩, .spiRead ⟨8, 15, 0xFFFFFF, 0, none, 1249⟩,
   .spiRead ⟨7, 16, 0xFFFFFF, 0, none, 1249⟩, .spiRead ⟨7, 15, 0x1000000, 0, none, 1249⟩,
   .spiRead ⟨7, 15, 0xFFFFFF, 0, none, 1250⟩, .i2cWrite ⟨128, 7, 15, 0xFFFFFF, List.replicate 16 0, 0, none, 1249⟩,
   .i2cWrite ⟨127, 8, 15, 0xFFFFFF, List.replicate 16 0, 0, none, 1249⟩,
   .i2cWrite ⟨127, 7, 16, 0xFFFFFF, List.replicate 16 0, 0, none, 1249⟩,
   .i2cWrite ⟨127, 7, 15, 0x1000000, List.replicate 16 0, 0, none, 1249⟩,
   .i2cWrite ⟨127, 7, 15, 0xFFFFFF, List.replicate 15 0, 0, none, 1249⟩,
   .i2cWrite ⟨127, 7, 15, 0xFFFFFF, List.replicate 16 0x100000000, 0, none, 1249⟩,
   .i2cWrite ⟨127, 7, 15, 0xFFFFFF, List.replicate 16 0, 0, none, 1250⟩, .i2cRead ⟨128, 7, 15, 0xFFFFFF, 0, none, 0, 1249⟩,
   .i2cRead ⟨127, 8, 15, 0xFFFFFF, 0, none, 0, 1249⟩, .i2cRead ⟨127, 7, 16, 0xFFFFFF, 0, none, 0, 1249⟩,
   .i2cRead ⟨127, 7, 15, 0x1000000, 0, none, 0, 1249⟩, .i2cRead ⟨127, 7, 15, 0xFFFFFF, 0, none, 0, 1250⟩]

def ill3 : List Instr :=
  [.hostRegisterWrite ⟨.spi, 8, 0⟩ 0xFFFFFC 0xFFFFFFFF, .hostRegisterWrite ⟨.spi, 0, 1250⟩ 0xFFFFFC 0xFFFFFFFF,
   .hostRegisterWrite ⟨.i2c, 7, 1249⟩ 0x1000000 0xFFFFFFFF,
   .hostRegisterWrite ⟨.i2c, 7, 1249⟩ 0xFFFFFC 0x100000000, .frnLoRead .i2c .part, .frnHiRead .i2c .part, .nowNsRead .i2c ⟨4, 0⟩, .nowNsRead .i2c ⟨3, 1250⟩,
   .nowSecRead .i2c 4 2, .nowSecRead .i2c 3 3, .accDebugRead .i2c 8 0x701FFC, .accDebugRead .i2c 7 7340028,
   .accDebugRead .i2c 7 7348224, .accDebugRead .i2c 7 0x700002, .snapReq ⟨.spi, 8, 0⟩ .dpll 3, .snapReq ⟨.spi, 0, 1250⟩ .dpll 3,
   .snapReq ⟨.i2c, 7, 1249⟩ .dpll 4, .snapReq ⟨.i2c, 7, 1249⟩ .chan 3, .snapAll ⟨.spi, 8, 0⟩, .snapAll ⟨.spi, 0, 1250⟩,
   .evtClear ⟨.spi, 8, 0⟩ .dpll 3 0xFFFFFFFF, .evtClear ⟨.spi, 0, 1250⟩ .dpll 3 0xFFFFFFFF,
   .evtClear ⟨.i2c, 7, 1249⟩ .dpll 4 0xFFFFFFFF, .evtClear ⟨.i2c, 7, 1249⟩ .chan 3 0xFFFFFFFF,
   .evtClear ⟨.i2c, 7, 1249⟩ .dpll 3 0x100000000]

def ill4 : List Instr :=
  [.counterClear ⟨.spi, 8, 0⟩ (fldAddr DPLL.HOLD_CNT 3 0 0) 0xFFFFFFFF,
   .counterClear ⟨.spi, 0, 1250⟩ (fldAddr DPLL.HOLD_CNT 3 0 0) 0xFFFFFFFF, .counterClear ⟨.i2c, 7, 1249⟩ 0x1000000 0xFFFFFFFF,
   .counterClear ⟨.i2c, 7, 1249⟩ 0xFFFFFE 0xFFFFFFFF, .counterClear ⟨.i2c, 7, 1249⟩ (fldAddr DPLL.HOLD_CNT 3 0 0) 0x100000000,
   .counterClear ⟨.i2c, 7, 1249⟩ (fldAddr DPLL.BW 3 0 0) 0xFFFFFFFF, .partReset ⟨.spi, 8, 0⟩ 3, .partReset ⟨.spi, 0, 1250⟩ 3,
   .partReset ⟨.i2c, 7, 1249⟩ 4, .channelTableWrite ⟨.spi, 8, 0⟩ 0x4007FC 0xFFFFFFFF,
   .channelTableWrite ⟨.spi, 0, 1250⟩ 0x4007FC 0xFFFFFFFF, .channelTableWrite ⟨.i2c, 7, 1249⟩ 0x1000000 0xFFFFFFFF,
   .channelTableWrite ⟨.i2c, 7, 1249⟩ 0xFFFFFE 0xFFFFFFFF, .channelTableWrite ⟨.i2c, 7, 1249⟩ 0x4007FC 0x100000000,
   .channelTableWrite ⟨.i2c, 7, 1249⟩ 4194300 0xFFFFFFFF, .channelTableWrite ⟨.i2c, 7, 1249⟩ 4196352 0xFFFFFFFF,
   .descriptorWrite 256 4294967295, .descriptorWrite 255 4294967296, .progBaseWrite 4 4294967295, .progBaseWrite 3 4294967296,
   .progWinWrite 4 15 4294967295, .progWinWrite 3 16 4294967295, .progWinWrite 3 15 4294967296, .swap 4, .rdIdxWrite 4 4294967295]

def ill5 : List Instr :=
  [.rdIdxWrite 3 4294967296, .loopBwWrite 4 none none, .setAbs 4, .setRel 4, .trigArm 4 7, .trigArm 3 8, .trigDisarm 4 7,
   .trigDisarm 3 8, .capArm 4 7, .capArm 3 8, .capCancel 4 7, .capCancel 3 8, .apply 4, .epoch 4, .outEnable 10, .outDisable 10,
   .pulseModeChange 10 true, .dividerChange 10 (some (4294967295)) (some (4294967295)),
   .dividerChange 9 (some (4294967296)) (some (4294967295)), .dividerChange 9 (some (4294967295)) (some (4294967296)),
   .fineWrite 10 255, .fineWrite 9 256, .pulsePeriodWrite 10 (some (7)) (some (1073741823)) (some (1073741823)),
   .pulsePeriodWrite 9 (some (8)) (some (1073741823)) (some (1073741823)),
   .pulsePeriodWrite 9 (some (7)) (some (1073741824)) (some (1073741823))]

def ill6 : List Instr :=
  [.pulsePeriodWrite 9 (some (7)) (some (1073741823)) (some (1073741824)), .palignWrite 10 15 true, .palignWrite 9 16 true,
   .palignOfsHiWrite 10 65535, .palignOfsHiWrite 9 65536, .baudWrite 4 7, .baudWrite 3 8, .storeCmd 4 255 255,
   .storeCmd 3 256 255, .storeCmd 3 255 256, .portEnable 2, .portDisable 2, .restartAn 2, .rdSeqWrite 4294967296,
   .qlDeliver 11 4 31 16 (some (255)) 1249, .qlDeliver 11 4 31 15 (some (256)) 1249, .qlDeliver 11 4 31 15 (some (255)) 1250,
   .pktEstimate 4 11 0 0 0 1249, .pktEstimate 3 11 0 0 0 1250, .timeChange 4 3 0 1249]

def ill7 : List Instr :=
  [.timeChange 3 3 0 1250, .utcUpdate 4 3 0 true true 1249, .utcUpdate 3 3 0 true true 1250,
   .txFrame 4 1 ⟨[255], 0, 0⟩, .txFrame 3 1 ⟨[256], 0, 0⟩, .txFrame 3 1 ⟨[255], 0, 64000000⟩, .shelfTx 7 [256],
   .pageReport 16777215 4294967296 1249, .pageReport 16777215 4294967295 1250, .journal 4095 255 4294967296,
   .ringPut 255 [256]]

def ill8 : List Instr :=
  [.restartSelf 4294967296, .secondsRollover 4, .trigFire 4 7 [], .trigFire 3 8 [], .capDone 4 7, .capDone 3 8, .todMessage 4,
   .nmeaSentence 4 [255] 0, .nmeaSentence 3 [256] 0, .apllLockLost 4, .relock 4, .retuneLock 4, .dllLol 10, .dllRelock 10,
   .ethFrameReceive 2 ⟨[255], true, 0, 0⟩, .ethFrameReceive 1 ⟨[256], true, 0, 0⟩, .ethFrameReceive 1 ⟨[255], true, 0, 64000000⟩, .pcsLock 2 true, .pcsLockLoss 2,
   .calDone 2 0 0, .esmcPduReceive 2 ⟨0, 0, 0, true, 15, some ⟨255, 0, 0, 0, 0⟩⟩ 1249, .esmcPduReceive 1 ⟨0, 0, 0, true, 16, none⟩ 1249,
   .esmcPduReceive 1 ⟨0, 0, 0, true, 15, some ⟨256, 0, 0, 0, 0⟩⟩ 1249, .esmcPduReceive 1 ⟨0, 0, 0, true, 15, some ⟨255, 0, 0, 0, 0⟩⟩ 1250, .esmcInfoPdu 2,
   .esmcEventPdu 2]

def ill9 : List Instr :=
  [.syncReceive 4 aMsg 0 0 1249,
   .syncReceive 3 { aMsg with port := 2 } 0 0 1249, .syncReceive 3 { aMsg with version := 16 } 0 0 1249,
   .syncReceive 3 { aMsg with minorVersion := 16 } 0 0 1249,
   .syncReceive 3 { aMsg with domainNumber := 256 } 0 0 1249,
   .syncReceive 3 { aMsg with clockId := 2 ^ 64 } 0 0 1249,
   .syncReceive 3 { aMsg with portNum := 2 ^ 16 } 0 0 1249,
   .syncReceive 3 { aMsg with seqId := 2 ^ 16 } 0 0 1249,
   .syncReceive 3 { aMsg with rawO := 64000000 } 0 0 1249,
   .syncReceive 3 aMsg 0 0 1250,
   .followUpReceive 4 aMsg 0 0 1249,
   .followUpReceive 3 { aMsg with port := 2 } 0 0 1249,
   .followUpReceive 3 aMsg 0 0 1250, .followUpTimeout 4,
   .announceReceive 4 aMsg ⟨255, 65535, true, 0, true, true, .parent⟩ 1249,
   .announceReceive 3 { aMsg with port := 2 } ⟨255, 65535, true, 0, true, true, .parent⟩ 1249,
   .announceReceive 3 aMsg ⟨256, 0, true, 0, true, true, .parent⟩ 1249,
   .announceReceive 3 aMsg ⟨0, 65536, true, 0, true, true, .parent⟩ 1249,
   .announceReceive 3 aMsg ⟨255, 65535, true, 0, true, true, .parent⟩ 1250,
   .delayReqReceive 4 aMsg,
   .delayReqReceive 3 { aMsg with port := 2 },
   .pdelayReqReceive 4 aMsg 0 63999999,
   .pdelayReqReceive 3 { aMsg with port := 2 } 0 63999999,
   .pdelayReqReceive 3 aMsg 0 64000000, .unicastRequest 4 1 0 0 4294967295]

def ill10 : List Instr :=
  [.unicastRequest 3 2 0 0 4294967295, .unicastRequest 3 1 0 0 4294967296, .syncTransmit 4 1 [255] 0 63999999,
   .syncTransmit 3 2 [255] 0 63999999, .syncTransmit 3 1 [256] 0 63999999, .syncTransmit 3 1 [255] 0 64000000,
   .announceTransmit 4 1, .announceTransmit 3 2, .ptpReopen 4, .alert 0 3 3 4294967295, .alert 8 3 3 4294967295,
   .alert 7 4 3 4294967295, .alert 7 3 4 4294967295, .alert 7 3 3 4294967296, .shelfElectRx ⟨2048, false, true, false, []⟩,
   .shelfElectRx ⟨256 * typeClass 4 + 4, false, true, false, List.replicate 20 0⟩,
   .shelfQlFwdRx ⟨2048, false, true, false, []⟩ 1249,
   .shelfQlFwdRx ⟨256 * typeClass 4 + 4, false, true, false, List.replicate 20 0⟩ 1249,
   .shelfQlFwdRx ⟨256 * typeClass 2 + 2, false, true, false, List.replicate 20 0⟩ 1250,
   .shelfTodRx ⟨2048, false, true, false, []⟩, .shelfTodRx ⟨256 * typeClass 4 + 4, false, true, false, List.replicate 20 0⟩,
   .regReq ⟨2048, false, true, false, []⟩, .regReq ⟨256 * typeClass 4 + 4, false, true, false, List.replicate 20 0⟩,
   .peerLost 32, .busOff 512]

def ill11 : List Instr :=
  [.alignLost 10, .announceReceiptTimeout 4, .delayReqTransmit 4 ⟨1, 0, 0⟩, .delayReqTransmit 3 ⟨2, 0, 0⟩, .delayReqTransmit 3 ⟨1, 0, 64000000⟩,
   .delayRespReceive 4 aMsg 0 0,
   .delayRespReceive 3 { aMsg with port := 2 } 0 0, .errPassive 256 255, .errPassive 255 256,
   .unknownFrame ⟨2048, false, true, false, []⟩, .unknownFrame ⟨2 ^ 29, true, true, false, []⟩,
   .unknownFrame ⟨0, false, true, false, [256]⟩, .unknownFrame ⟨0, false, true, false, List.replicate 65 0⟩]

theorem test_wellFormed_good : (good0 ++ good1 ++ good2 ++ good3 ++ good4 ++ good5).all Instr.wellFormed = true := by decide +kernel

theorem test_wellFormed_ill0 : ill0.all (fun c => !c.wellFormed) = true := by decide +kernel

theorem test_wellFormed_ill1 : ill1.all (fun c => !c.wellFormed) = true := by decide +kernel

theorem test_wellFormed_ill2 : ill2.all (fun c => !c.wellFormed) = true := by decide +kernel

theorem test_wellFormed_ill3 : ill3.all (fun c => !c.wellFormed) = true := by decide +kernel

theorem test_wellFormed_ill4 : ill4.all (fun c => !c.wellFormed) = true := by decide +kernel

theorem test_wellFormed_ill5 : ill5.all (fun c => !c.wellFormed) = true := by decide +kernel

theorem test_wellFormed_ill6 : ill6.all (fun c => !c.wellFormed) = true := by decide +kernel

theorem test_wellFormed_ill7 : ill7.all (fun c => !c.wellFormed) = true := by decide +kernel

theorem test_wellFormed_ill8 : ill8.all (fun c => !c.wellFormed) = true := by decide +kernel

theorem test_wellFormed_ill9 : ill9.all (fun c => !c.wellFormed) = true := by decide +kernel

theorem test_wellFormed_ill10 : ill10.all (fun c => !c.wellFormed) = true := by decide +kernel

theorem test_wellFormed_ill11 : ill11.all (fun c => !c.wellFormed) = true := by decide +kernel

/-! ### The block as a whole -/

theorem test_inv_reset : Inv State.reset := ⟨shaped_iff _ (by decide +kernel), by decide, by decide⟩

theorem test_step_runs_front :
    step { up with pending := [.wdtKick, .verify] } = exec .wdtKick { up with pending := [.verify] } := rfl

theorem test_step_idles : step up = .next up := rfl

theorem test_exec_total :
    ((Instr.procReset).wellFormed && !(Instr.capArm 4 0).wellFormed && runs .procReset up (fun _ => true)) = true ∧
      exec (.capArm 4 0) up = .refused .illFormed := ⟨by decide +kernel, rfl⟩

theorem test_queue_ok : QueueOk { up with pending := [.capArm 3 7] } := by
  intro c h
  simp only [List.mem_singleton] at h
  subst h
  decide

/-- OUT_ENABLE lists no components but registers and outputs, and no page of the domains. -/
theorem test_frames : Component.doms ∉ (Instr.outEnable 9).writes ∧ Page.dpll ∉ (Instr.outEnable 9).pages ∧
    runs (.outEnable 9) up (fun t => t.doms == up.doms) = true := by decide +kernel

/-! ### Power and ovens -/

/-- A state with one register field set. -/
def reg (f : Fld) (n v : Nat) : State := set1 up f n v

/-- A state with other counts of the supply. -/
def pow (s : State) (f : PowerU → PowerU) : State := { s with power := f s.power }

theorem test_PowerInputsReport :
    (up.phase != .off && get1 up PWR.STATUS_PF 0 == 0 && get1 up PWR.STATUS_VAUX3_OFF 0 == 0 &&
     runs .vinGlitch up (fun t => oneMore up t PWR.GLITCH_CNT 0 0) &&
     runs (.capEstimate 31999) up (fun t => get1 t PWR.CAP_EST 0 == 639 && get1 t PWR.RESERVE 0 == 40 && raised t .pwr 0 3) &&
     runs (.capEstimate 32000) up (fun t => get1 t PWR.CAP_EST 0 == 640 && !raised t .pwr 0 3) &&
     runs .vaux3Oc up (fun t => get1 t PWR.STATUS_VAUX3_OFF 0 == 1 && raised t .pwr 0 5) &&
     runs (.vaux3Retry 150) (reg PWR.STATUS_VAUX3_OFF 0 1) (fun t => get1 t PWR.STATUS_VAUX3_OFF 0 == 0) &&
     runs (.vaux3Retry 151) (reg PWR.STATUS_VAUX3_OFF 0 1) (fun t => get1 t PWR.STATUS_VAUX3_OFF 0 == 1 &&
        raised t .pwr 0 5) &&
     runs (.vinRange 4499) (pow up fun u => { u with range := 8000 }) (fun t => get1 t PWR.STATUS_VIN_RANGE 0 == 1 &&
        raised t .pwr 0 4) &&
     runs (.vinRange 60001) (pow up fun u => { u with range := 8000 }) (fun t => get1 t PWR.STATUS_VIN_RANGE 0 == 1) &&
     idle (.vinRange 60000) (pow up fun u => { u with range := 8000 }) &&
     idle (.vinRange 4499) (pow up fun u => { u with range := 7999 })) = true := by decide +kernel

theorem test_HoldupOkThresholds :
    (runs (.holdupOk 21999) (reg PWR.STATUS_HOLDUP_OK 0 1) (fun t => get1 t PWR.STATUS_HOLDUP_OK 0 == 0) &&
     runs (.holdupOk 22000) (reg PWR.STATUS_HOLDUP_OK 0 1) (fun t => get1 t PWR.STATUS_HOLDUP_OK 0 == 1) &&
     runs (.holdupOk 22999) up (fun t => get1 t PWR.STATUS_HOLDUP_OK 0 == 0) &&
     runs (.holdupOk 23000) up (fun t => get1 t PWR.STATUS_HOLDUP_OK 0 == 1 && raised t .pwr 0 2)) = true := by decide +kernel

/-- In warm-up, and out of it, with the counts at the ends of their times. -/
def warmUp : State :=
  pow (set1 (reg OSC.STATUS_WARMUP 0 1) OSC.WARM_S 0 90) fun u => { u with reg := 240000, warm := 4800000 }
def coolUp : State :=
  pow (set1 (set1 (reg OSC.STATUS_WARMUP 0 0) OSC.STATUS_OVEN_OFF 0 0) OSC.WARM_S 0 90) fun u =>
    { u with unreg := 8001, sat := (0, 80000), idle := (80000, 0) }

theorem test_OvenConditions :
    (runs .warmupDone warmUp (fun t => get1 t OSC.STATUS_WARMUP 0 == 0 && get1 t OSC.WARM_LAST 0 == 90 && raised t .osc 0 0) &&
     idle .warmupDone (pow warmUp fun u => { u with reg := 239999 }) &&
     runs .ovenFault warmUp (fun t => get1 t OSC.WARM_LAST 0 == 0xFFFF && raised t .osc 0 1 && raised t .sys 0 2) &&
     idle .ovenFault (pow warmUp fun u => { u with warm := 4799999 }) &&
     runs .warmupRestart coolUp (fun t => get1 t OSC.STATUS_WARMUP 0 == 1 && get1 t OSC.WARM_S 0 == 0) &&
     idle .warmupRestart (pow coolUp fun u => { u with unreg := 8000 }) &&
     runs .heaterSat coolUp (fun t => raised t .osc 0 2) &&
     runs .heaterIdle coolUp (fun t => raised t .osc 0 3)) = true := by decide +kernel

/-- A power fail in progress, with VIN_AVG 6 V and the hold-up node never below 12 V. -/
def failUp : State := set1 (set1 (reg PWR.STATUS_PF 0 1) PWR.LAST_PF_HOLDUP_MIN 0 60) PWR.VIN_AVG 0 6000

theorem test_PowerFailRecords_fail :
    (failCause up 63001 == 3 && failCause up 63000 == 0 && failCause up 4400 == 0 && failCause up 4399 == 1 &&
     failCause (reg PWR.VIN_AVG 0 6286) 4400 == 2 && failCause (reg PWR.VIN_AVG 0 6286) 4401 == 0 &&
     runs (.powerFail 63001 12000) up (fun t => get1 t PWR.STATUS_CAUSE 0 == 3 && get1 t PWR.LAST_PF_VIN 0 == 252 &&
        get1 t PWR.LAST_PF_HOLDUP 0 == 60 && pfailLow t && get1 t PWR.LAST_PF_FRN 0 == 1000) &&
     runs (.powerFail 63001 11999) up (fun t => t.phase == .off && get1 t OUT.STATUS_RUN 9 == 5) &&
     runs (.powerFail 4399 12000) held (fun t => t.phase == .held && get1 t PWR.STATUS_PF 0 == 1) &&
     idle (.powerFail 63000 12000) up && idle (.powerFail 63001 12000) failUp) = true := by decide +kernel

theorem test_PowerFailRecords_end :
    (vinQualifies failUp 4600 && !vinQualifies failUp 4599 && vinQualifies failUp 61000 && !vinQualifies failUp 61001 &&
     runs (.pfRecovered 4600 70000) failUp (fun t => get1 t PWR.STATUS_PF 0 == 0 && get1 t PWR.LAST_PF_MS 0 == 0xFFFF &&
        get1 t PWR.VIN_AVG 0 == 4600 && raised t .pwr 0 1) && idle (.pfRecovered 4599 0) failUp &&
     idle (.pfRecovered 4600 0) up &&
     runs .shutdown (modCellar failUp fun u =>
    
        { u with run := some { job := ⟨250, 4, [2], none⟩, copy := 1, gen := 2, wear := 2, data := [] } }) (fun t =>
    
        t.phase == .off && get1 t OUT.STATUS_RUN 9 == 5 && get1 t PWR.STATUS_VAUX3_OFF 0 == 1 &&
        copyState t 250 1 == 1)) = true := by decide +kernel

theorem test_VioFallsAndReturns :
    ((let off := { up with vio := false }
     runs .vioFall up (fun t => !t.vio) && runs .vioReturn off (fun t =>
    
        t.vio) &&
     off.phase == .running && SpiWrite.ok ⟨3, 0, 0, [9], 0, none, 5⟩ &&
    
        SpiRead.ok ⟨3, 0, 0, 0, none, 5⟩ &&
     I2cWrite.ok ⟨0x40, 3, 0, 0, [9], 0, none, 5⟩ &&
    
        I2cRead.ok ⟨0x40, 3, 0, 0, 0, none, 0, 5⟩ &&
     idle (.spiWrite ⟨3, 0, 0, [9], 0, none, 5⟩) off &&
        idle (.i2cRead ⟨0x40, 3, 0, 0, 0, none, 0, 5⟩) off)) = true := by decide +kernel

/-! ### Start, resets and the timebase -/

/-- The voltages between which a power-on reset begins are tried at both ends; what it leaves is for the provers. -/
theorem test_PowerOnReset : State.reset.phase = .off ∧ up.phase ≠ .off ∧ 4600 ≤ (4600 : Nat) ∧ 61000 ≤ (61000 : Nat) ∧
    (idle (.powerOnReset ⟨⟨false, false, false, false⟩, true, 4599, 0⟩) State.reset &&
     idle (.powerOnReset ⟨⟨false, false, false, false⟩, true, 61001, 0⟩) State.reset &&
     idle (.powerOnReset ⟨⟨false, false, false, false⟩, true, 12000, 0⟩) up) = true := by decide +kernel

theorem test_ResetLine_fall :
    (runs .resetNFall { up with writeQ := [⟨0, 0, 0, .spi, 1001, 0⟩] } (fun t => t.writeQ == [] && t.phase == .held) &&
     runs .resetNFall (reg CELLAR.STATUS_PF_SEQ 0 1) (fun t => t.power.reset) && idle .resetNFall held &&
     idle .resetNFall State.reset) = true := by decide +kernel

theorem test_ResetLine_release :
    (runs (.resetNRelease ⟨false, true, false, false⟩) held (fun t => get1 t SYS.RESET 0 == 2 && t.straps.addr1) &&
     runs (.resetNRelease ⟨false, true, false, false⟩) (pow up fun u => { u with reset := true }) (fun t =>
        t.power.freed.isSome) && idle (.resetNRelease ⟨false, true, false, false⟩) up) = true := by decide +kernel

theorem test_TimebaseStarts : waits.phase = .waiting ∧ up.phase = .running := by decide

theorem test_TimebaseLoss :
    (up.phase == .running && runs .tbSwitch up (fun t => t.tbHold == 2 && get1 t FRAME.TB_SRC 0 == 1 && raised t .sys 0 1) &&
     runs .tbLost up (fun t => t.phase == .lost && get1 t SYS.STATUS_NO_TIMEBASE 0 == 1)) = true := by decide +kernel

theorem test_ProcessorReset : up.phase ≠ .off ∧ up.phase ≠ .held := by decide

theorem test_SoftReset :
    (isOpen up 3 && !commitReset up 3 && idle (.softReset 0x5EEC) up && idle (.softReset 0) up &&
        idle (.softReset 0xFFFF) up &&
     commitReset (set1 (set1 up PART.LAST_RESET 3 2) PART.RESET_FRN 3 1000) 3) = true := by decide +kernel

/-- A tick of running frames works with values that the spec leaves open; what it leaves is for the provers. -/
theorem test_FrameTick : up.phase = .running ∧ waits.phase ≠ .running ∧
    idle (.frameTick (FrameIn.quiet 12000 24000)) waits = true := by decide +kernel

/-! ### Lanes, channels and domains -/

/-- Lane 2 in its calibration frame, its stored value 100. -/
def calUp : State := modLane { up with frn := 1088 } 2 fun u => { u with stored := 100 }

theorem test_LaneCalibration :
    (shaped calUp && idle (.laneCalibration ⟨3, some 7, true⟩) calUp && !calibrates calUp 3 && calibrates calUp 2 &&
     runs (.laneCalibration ⟨2, some 84, false⟩) calUp (fun t => (laneOf t 2).corr == -16 &&
        get1 t LANE.CAL_DEV 2 == 0xFFF0) &&
     runs (.laneCalibration ⟨2, some 116, false⟩) calUp (fun t => (laneOf t 2).corr == 16) &&
     runs (.laneCalibration ⟨2, some 117, false⟩) calUp (fun t => get1 t LANE.HEALTH_CODE 2 == 1 && raised t .lane 2 0) &&
     runs (.laneCalibration ⟨2, some 83, false⟩) calUp (fun t => get1 t LANE.HEALTH_CODE 2 == 1) &&
     runs (.laneCalibration ⟨2, some 100, true⟩) calUp (fun t => get1 t LANE.HEALTH_CODE 2 == 3) &&
     runs (.laneCalibration ⟨2, none, false⟩) calUp (fun t => get1 t LANE.HEALTH_CODE 2 == 2 &&
        raised t .sys 0 0)) = true := by decide +kernel

/-- The last frame of SUSPECT on pad 4, and the last calibration frame of lane 16. -/
def suspectUp : State :=
  set1 (set1 (modFunc up 4 fun u => { u with suspect := 1 }) LANE.STATUS_SPARE_CAL 16 1) LANE.HEALTH_CAL_LEFT 16 1

theorem test_PadsAndSpares :
    (shaped suspectUp && laneFor up 7 == some 7 && padNeighbours 7 == [6] && padNeighbours 5 == [4, 6] &&
     !(funcOf up 7).driven && (funcOf suspectUp 4).suspect == 1 && get1 suspectUp LANE.STATUS_SPARE_CAL 16 == 1 &&
     runs (.padOverdrive 7) up (fun t => (funcOf t 6).suspect == 3 && (funcOf t 8).suspect == 0 && raised t .lane 7 1 &&
        (funcOf t 7).driven) && runs (.suspectEnd 4) suspectUp (fun t => (funcOf t 4).suspect == 0) &&
     runs (.spareCalDone 16) suspectUp (fun t => get1 t LANE.STATUS_SPARE_CAL 16 == 0 &&
        raised t .lane 16 4)) = true := by decide +kernel

/-- Channels 11 and 3 short of their timeout, channel 3 with a QL from ESMC, in the last frame of a window. -/
def chanUp : State :=
  polSet (polSet (polSet (modChan { up with frn := 2047 } 3 fun u => { u with timedOut := false, rank := 9, sum := 5, valid := 1024 })
    CHAN.ACT_TIMEOUT 3 0 0 8) CHAN.ACT_TIMEOUT 11 0 0 8) CHAN.QL_SRC 3 0 0 1

theorem test_ChannelQualifier :
    (shaped chanUp && !idleOut chanUp 3 && !idleOut chanUp 11 && !(chanOf chanUp 3).bare && laneFor chanUp 3 == some 3 &&
     runs (.actTimeout 3) chanUp (fun t => (chanOf t 3).idle == 8 && (funcOf t 3).pred == none &&
        (failBits t 3).getD 2 false) && runs (.actTimeout 11) chanUp (fun t => (chanOf t 11).idle == 8) &&
     idle (.actTimeout 3) (modChan chanUp 3 fun u => { u with idle := 8 }) &&
     qlSrc chanUp 3 == 1 && runs (.qlTimeout 3) chanUp (fun t => (chanOf t 3).rank == 0 &&
        oneMore chanUp t SEL.QL_CHG_CNT 0 0) &&
     idle (.qlTimeout 4) chanUp && qlSrc chanUp 4 == 0 && idle (.qlTimeout 3) (modChan chanUp 3 fun u =>
        { u with timedOut := true }) && (List.range 12).all (fun c => (chanOf chanUp c).wins == []) &&
     runs .qualifierWindowClose chanUp (fun t => (chanOf t 3).wins == [⟨1024, 5, 1024, .complete⟩] &&
        (chanOf t 3).sum == 0)) = true := by decide +kernel

/-- A pair in WTR, a pair in hold-off with fewer than 8 windows and with 8, a domain that slews. -/
def pairUp : State :=
  setF (polSet (polSet (modPair (modPair up 3 11 fun u => { u with kind := 1, reason := 9 }) 3 0 fun u =>
    { u with kind := 2, reason := 0xA, lastFail := some 990 }) CHAN.CAND 11 0 0 8) CHAN.CAND 0 0 0 8) SEL.ACTIVE_SLEWING 0 3 0 1
def winsUp : State := modChan pairUp 0 fun u => { u with wins := List.replicate 8 ⟨991, 0, 1024, .complete⟩ }
def wtrUp : State := polSet (modPair winsUp 3 0 fun u => { u with wtrDue := true }) CHAN.WTR 0 0 0 3

theorem test_PairTimers :
    (shaped pairUp && isCand pairUp 3 11 && isCand pairUp 3 0 && shaped winsUp && shaped wtrUp && isCand wtrUp 3 0 &&
     decide (winsSince (chanOf pairUp 0) (max (domOf pairUp 3).start 991) < 8) &&
     winsSince (chanOf winsUp 0) (max (domOf winsUp 3).start 991) == 8 && !(pairOf winsUp 3 0).wtrDue &&
        polVal wtrUp.pol CHAN.WTR 0 0 0 == 3 &&
     runs (.wtrExpiry 3 11) pairUp (fun t => (pairOf t 3 11).reason == 0 && (pairOf t 3 11).ever) &&
     runs (.holdOffExpiry 3 0) pairUp (fun t => (pairOf t 3 0).reason == 0xA && (pairOf t 3 0).kind == 0) &&
     runs (.holdOffExpiry 3 0) winsUp (fun t => (pairOf t 3 0).reason == 0 && (pairOf t 3 0).kind == 0) &&
     runs (.holdOffExpiry 3 0) wtrUp (fun t => (pairOf t 3 0).reason == 9 && (pairOf t 3 0).timer == 24000 &&
        (pairOf t 3 0).kind == 1) &&
     runs (.slewDone 3) pairUp (fun t => getF t SEL.ACTIVE_SLEWING 0 3 0 == 0 && raised t .part 3 11 &&
        getF t SEL.ACTIVE_FROM 0 3 0 == 0xF) && idle (.slewDone 2) pairUp) = true := by decide +kernel

/-- Domain 3 acquiring with its lock criteria met, and in holdover beyond its budget. -/
def lockUp : State := set1 (modDom { up with frn := 9000000 } 3 fun u => { u with lockFrom := some 0 }) DPLL.STATUS_STATE 3 1
def duskUp : State :=
  setF (set1 (set1 (modDom { up with frn := 9000000 } 3 fun u => { u with f0 := 1, ageing := 1000000 })
    DPLL.STATUS_STATE 3 3) DPLL.BUDGET 3 1) SEL.ACTIVE_CHAN 0 3 0 0xF

theorem test_DomainTransitions :
    (domState lockUp 3 == 1 && lockCrit lockUp 3 && domState duskUp 3 == 3 && activeOf duskUp 3 == 0xF && duskOver duskUp 3 &&
     runs (.lockAchieved 3) lockUp (fun t => get1 t DPLL.STATUS_STATE 3 == 2 && get1 t DPLL.STATE_FRN 3 == 9000000 &&
        raised t .dpll 3 0) &&
     runs (.duskExpiry 3) duskUp (fun t => get1 t DPLL.STATUS_STATE 3 == 4 && raised t .dpll 3 2)) = true := by decide +kernel

/-- A bridge that is over, the last frame of a history segment of 64 s, and a step 128 000 frames old. -/
def endUp : State :=
  set1 (modDom (modTime { up with frn := 511999 } 3 fun u => { u with stepped := some 383999 }) 3 fun u =>
    { u with segOk := true, segLen := 512000 }) DPLL.STATUS_BRIDGING 3 1

theorem test_DomainFrameEnds :
    (shaped endUp && bridgeOver endUp 3 && segmentEnds endUp 3 && domRuns endUp 3 && get1 endUp DPLL.HOLD_CFG_SEG_S 3 == 64 &&
     decide (0 < get1 endUp DPLL.HOLD_CFG_HIST_LEN 3) && idle (.bridgeEnd 2) endUp &&
        idle (.historySegment 3) { endUp with frn := 511998 } &&
     runs (.bridgeEnd 3) endUp (fun t => get1 t DPLL.STATUS_BRIDGING 3 == 0 && (domOf t 3).setB) &&
     runs (.historySegment 3) endUp (fun t => get1 t DPLL.HIST_SEGS 3 == 1) &&
     runs (.historySegment 3) (modDom endUp 3 fun u => { u with segLen := 64000 }) (fun t => get1 t DPLL.HIST_SEGS 3 == 0) &&
     runs (.steppedEnd 3) (set1 endUp TIME.STATUS_STEPPED 3 1) (fun t =>
        get1 t TIME.STATUS_STEPPED 3 == 0)) = true := by decide +kernel

theorem test_LoopBandwidth :
    (runs (.loopBwWrite 3 (some 1) (some 2047)) up (fun t => get1 t DPLL.BW 3 == 1 && get1 t DPLL.DAMP 3 == 2047) &&
     runs (.loopBwWrite 3 (some 250000) none) up (fun t => get1 t DPLL.BW 3 == 250000) &&
     runs (.loopBwWrite 3 (some 250001) (some 64)) up (fun t => get1 t DPLL.BW 3 == get1 up DPLL.BW 3 &&
        get1 t DPLL.DAMP 3 == 64) &&
     runs (.loopBwWrite 3 (some 0) (some 63)) up (fun t =>
        get1 t DPLL.DAMP 3 == get1 up DPLL.DAMP 3)) = true := by decide +kernel

/-! ### The row engine -/

/-- Whether an instruction executes, as `RowRuns` says. -/
def rowTurn (s : State) (p : Nat) (i : Ins) : Bool :=
  isOpen s p && s.phase == .running && !(partOf s p).run.ended && !(partOf s p).run.overrun && (partOf s p).run.skip == 0 &&
  !(partOf s p).run.skipAll && (match insRow i with
    | some r => !autoClosed s p r
    | none => true)
def rowRuns (s : State) (p : Nat) (i : Ins) : Bool :=
  rowTurn s p i && insFault s p i == none && decide ((partOf s p).run.used + insCost s i ≤ quotaOf s p)

theorem rowTurn_iff (s : State) (p : Nat) (i : Ins) (h : rowTurn s p i = true) : RowTurn s p i := by
  simp only [rowTurn, Bool.and_eq_true, beq_iff_eq, Bool.not_eq_true'] at h
  obtain ⟨⟨⟨⟨⟨⟨a, b⟩, c⟩, d⟩, e⟩, f⟩, g⟩ := h
  exact ⟨a, b, c, d, e, f, fun r hr => by simpa [hr] using g⟩

theorem rowRuns_iff (s : State) (p : Nat) (i : Ins) (h : rowRuns s p i = true) : RowRuns s p i := by
  simp only [rowRuns, Bool.and_eq_true, beq_iff_eq, decide_eq_true_eq] at h
  exact ⟨rowTurn_iff s p i h.1.1, h.1.2, h.2⟩

/-- Partition 1 with every row, 1024 words and 40 slots, one of them used. -/
def rowUp : State :=
  modPart (polSet (polSet (polSet (polSet (polSet (polSet (polSet up FRAME.SLOT_QUOTA 0 1 0 40) ROWS.ALLOC_DESC_COUNT 0 1 0 256)
    ROWS.ALLOC_DESC_FIRST 0 1 0 0) ROWS.ALLOC_WORD_FIRST 0 1 0 0) ROWS.ALLOC_WORD_COUNT 0 1 0 1024) CHAN.POL_ID_OWNER 0 0 0 1) CHAN.POL_ID_OWNER 9 0 0 1) 1
    fun u => { u with run := { u.run with used := 1, pc := 1 } }

/-- Row 255 open as a SUM row at word 5 holding 100, row 7 once open; samples of CH0 and CH9. -/
def sumUp : State :=
  modFunc (modFunc (modRow (modRow rowUp 7 fun u => { u with ever := true, words := [44], exp := 3, openFrn := 990 }) 255
    fun u => { u with isOpen := true, ever := true, base := 5, words := [100], openFrn := 998 }) 0
    fun u => { u with smps := [.val 8191], pred := some (-8191) }) 9 fun u => { u with smps := [.val (-8191)] }

theorem test_RowOpen :
    (shaped rowUp && rowRuns rowUp 1 (.opn 0 0 0) && rowRuns rowUp 1 (.opn 255 1 0x8000) && rowRuns sumUp 1 (.opn 0 2 7) &&
     rowRuns sumUp 1 (.opn 7 3 0) && rowRuns rowUp 1 (.opn 7 3 0) && !(rowOf rowUp 7).ever &&
     runs (.openZero 1 0) rowUp (fun t => (rowOf t 0).isOpen && (rowOf t 0).openFrn == 1000 && (partOf t 1).run.used == 2) &&
     runs (.openBias 1 255 (-32768)) rowUp (fun t => (rowOf t 255).words == [-32768]) &&
     runs (.openBias 1 255 32767) rowUp (fun t => (rowOf t 255).words == [32767]) &&
     runs (.openResidual 1 0 7) sumUp (fun t => (rowOf t 0).words == [44] && (rowOf t 0).exp == 3 &&
        (partOf t 1).run.used == 3) &&
     runs (.openCarry 1 7) sumUp (fun t => (rowOf t 7).isOpen && (rowOf t 7).words == [44] && (rowOf t 7).carried &&
        (rowOf t 7).openFrn == 990) &&
     runs (.openCarry 1 7) rowUp (fun t => (rowOf t 7).openFrn == 1000)) = true := by decide +kernel

theorem test_RowAccumulate :
    (shaped sumUp && rowRuns sumUp 1 (.acc 255 0 false 0 0 0) && rowRuns sumUp 1 (.dif 255 0 false 0 0 0) &&
     rowRuns sumUp 1 (.xdf 255 0 9 false 0 0) && funcOfCode 9 == some 9 && fitsWord (100 + 16382) &&
     runs (.acc 1 255 0 false 0 0 0) sumUp (fun t => (rowOf t 255).words == [8291] && (rowOf t 255).count == 1 &&
        (kvGet t.accs 5).getD 0 == 8291 && (partOf t 1).run.used == 3) &&
     runs (.acc 1 255 9 false 0 0 0) sumUp (fun t => (rowOf t 255).words == [-8091]) &&
     runs (.diff 1 255 0 false 0 0 0) sumUp (fun t => (rowOf t 255).words == [16482]) &&
     runs (.xdif 1 255 9 0 false 0 0) sumUp (fun t => (rowOf t 255).words == [-16282] &&
        (partOf t 1).run.used == 4)) = true := by decide +kernel

/-- The staging area full. -/
def fullUp : State := modPart sumUp 1 fun u => { u with staged := List.replicate 64 ⟨0, 0, 0, 0, 0, 0, 0, []⟩ }

theorem test_RowControl :
    (rowRuns rowUp 1 .nop && rowRuns rowUp 1 (.syn 255 false 7) && rowRuns sumUp 1 (.cls 255) && rowRuns rowUp 1 .fin &&
     decide ((partOf sumUp 1).staged.length < 64) && rowRuns fullUp 1 (.cls 255) && (partOf fullUp 1).staged.length == 64 &&
        !fired rowUp 1 7 && runs (.nop 1) rowUp (fun t => (partOf t 1).run.pc == 2) &&
     runs (.sync 1 255 false 7) rowUp (fun t => (partOf t 1).run.skip == 255) &&
     runs (.sync 1 0 false 7) rowUp (fun t => (partOf t 1).run.skipAll) &&
     runs (.sync 1 255 true 7) rowUp (fun t => (partOf t 1).run.skip == 0) &&
     runs (.close 1 255) sumUp (fun t => !(rowOf t 255).isOpen && ((partOf t 1).staged.map fun r =>
        (r.row, r.words, r.frn)) == [(255, [100], 1000)]) &&
     runs (.close 1 255) fullUp (fun t => (partOf t 1).dropped == 1 && (partOf t 1).staged.length == 64) &&
     runs (.endProg 1) rowUp (fun t => (partOf t 1).run.ended)) = true := by decide +kernel

/-- Every slot of the quota used but one, and all of them. -/
def lastSlot : State := modRun rowUp 1 fun r => { r with used := 39 }
def noSlot : State := modRun rowUp 1 fun r => { r with used := 40 }
def noSlotSum : State := modRun sumUp 1 fun r => { r with used := 39 }

theorem test_RowFaultsAndOverrun :
    (rowTurn lastSlot 1 (.cls 0) && insFault lastSlot 1 (.cls 0) == some 4 && rowTurn noSlot 1 (.opn 0 0 0) &&
     insFault noSlot 1 (.opn 0 0 0) == none && rowTurn noSlotSum 1 (.acc 255 0 false 0 0 0) &&
        insFault noSlotSum 1 (.acc 255 0 false 0 0 0) == none && insCost noSlotSum (.acc 255 0 false 0 0 0) == 2 &&
     runs (.close 1 0) lastSlot (fun t => getF t ROWS.FAULT_LAST_CODE 0 1 0 == 4 && getF t ROWS.FAULT_LAST_INDEX 0 1 0 == 1 &&
        raised t .part 1 1 && oneMore lastSlot t ROWS.FAULT_CNT 0 1) &&
     runs (.openZero 1 0) noSlot (fun t => (partOf t 1).run.overrun && !(rowOf t 0).isOpen && raised t .part 1 0) &&
     runs (.acc 1 255 0 false 0 0 0) noSlotSum (fun t => (rowOf t 255).short && (rowOf t 255).words == [100] &&
        (partOf t 1).run.overrun)) = true := by decide +kernel

theorem test_RowsPageWrites :
    (runs (.descriptorWrite 255 0x3FFF) up (fun t => getF t ROWS.DESC_BASE 0 255 0 == 0x3FF &&
        getF t ROWS.DESC_FMT 0 255 0 == 3 && getF t ROWS.DESC_OVF 0 255 0 == 1 && getF t ROWS.DESC_ORNG 0 255 0 == 1) &&
     runs (.progBaseWrite 3 3568) up (fun t => getF t ROWS.PROG_BASE 0 3 0 == 3568) &&
     runs (.progWinWrite 3 15 7) (setF up ROWS.PROG_BASE 0 3 0 3568) (fun t => kvGet (standbyBank t 3) 3583 == some 7 &&
        getF t ROWS.PROG_BASE 0 3 0 == 3584) &&
     runs (.progWinWrite 3 0 7) (setF up ROWS.PROG_BASE 0 3 0 3584) (fun t => t.parts == up.parts) &&
     runs (.swap 3) up (fun t => getF t ROWS.PROG_CTRL_ACTIVE 0 3 0 == 1)) = true := by decide +kernel

theorem test_HarvestReadIndex :
    (runs (.rdIdxWrite 3 2) (setF up HARV.WR_IDX 0 3 0 2) (fun t => getF t HARV.RD_IDX 0 3 0 == 2) &&
     runs (.rdIdxWrite 3 3) (setF up HARV.WR_IDX 0 3 0 2) (fun t => getF t HARV.RD_IDX 0 3 0 == 0 &&
        raised t .part 3 7)) = true := by decide +kernel

/-! ### The host ports -/

/-- Partitions 0 and 3 on both ports. -/
def hostUp : State :=
  polSet (polSet (polSet (polSet up PART.PORTS_SPI 3 0 0 1) PART.PORTS_I2C 3 0 0 1) PART.PORTS_SPI 0 0 0 1) PART.PORTS_I2C 0 0 0 1

def bwAddr : Nat := fldAddr DPLL.BW 3 0 0

theorem test_HostWriteTaken :
    (busFree hostUp .spi && busFree hostUp .i2c && !windowBusy hostUp && bwAddr % 4 == 0 &&
     checkWord hostUp .spi 3 bwAddr 4294967295 == resOK && checkWord hostUp .i2c 2 bwAddr 0 == resDENIED &&
     checkWord hostUp .spi 7 bwAddr 0 == resDENIED &&
     regionOf bwAddr == .page .dpll 3 (bwAddr - pageBase .dpll 3) &&
        (fieldsAt .dpll 3 (bwAddr - pageBase .dpll 3)).any queued &&
     runs (.hostRegisterWrite ⟨.spi, 3, 1229⟩ bwAddr 4294967295) hostUp (fun t =>
        t.writeQ == [⟨bwAddr, 4294967295, 3, .spi, 1001, 0⟩] && t.spi.result == resOK && !t.spi.late) &&
     runs (.hostRegisterWrite ⟨.spi, 3, 1230⟩ bwAddr 5) hostUp (fun t => t.writeQ == [⟨bwAddr, 5, 3, .spi, 1002, 0⟩] &&
        t.spi.late) &&
     runs (.hostRegisterWrite ⟨.i2c, 7, 0⟩ bwAddr 5) hostUp (fun t => t.writeQ == [] && t.i2c.denied &&
        t.i2c.result == resDENIED) &&
     runs (.hostRegisterWrite ⟨.spi, 3, 0⟩ (bwAddr + 1) 5) hostUp (fun t => t.writeQ == [] && t.spi.result == resALIGN &&
        t.spi.txn == 1) &&
     checkWord hostUp .spi 3 0x300000 5 == resUNMAPPED && runs (.hostRegisterWrite ⟨.spi, 3, 0⟩ 0x300000 5) hostUp (fun t =>
        t.writeQ == [] && t.spi.result == resUNMAPPED) && !busFree held .spi &&
     idle (.hostRegisterWrite ⟨.spi, 3, 0⟩ bwAddr 5) held) = true := by decide +kernel

theorem test_WriteCutoff : up.phase = .running ∧ waits.phase = .waiting ∧
    (dueOf up 1229 == 1001 && dueOf up 1230 == 1002 && dueOf up 1249 == 1002 && dueOf waits 1249 == 0 && isLate up 1230 &&
     !isLate up 1229) = true := by decide +kernel

/-- SPI writes and reads of one word of DPLL3, whole and cut short; the ports with CRC. -/
def spiW (cut : Option Nat) : SpiWrite := ⟨3, 0, bwAddr, [9], 0, cut, 5⟩
def spiR (cut : Option Nat) : SpiRead := ⟨3, 0, bwAddr, 0, cut, 5⟩
def crcUp : State := { hostUp with straps := ⟨false, false, true, false⟩ }

theorem test_SpiTransactions_write :
    (busFree hostUp .spi && spiWriteBits hostUp.straps.crc 0 == 64 && SpiWrite.ok (spiW none) &&
     runs (.spiWrite (spiW (some 63))) hostUp (fun t => t.spi.result == resSHORT && t.spi.txn == 1) &&
     runs (.spiWrite (spiW (some 31))) hostUp (fun t => t.spi.result == resSHORT && t.spi.txn == 0) &&
     runs (.spiWrite { spiW none with addr := bwAddr + 2 }) hostUp (fun t => t.spi.result == resALIGN) &&
     runs (.spiWrite (spiW none)) crcUp (fun t => t.spi.result == resCRC && t.writeQ == [] && t.spi.crcErr) &&
     runs (.spiWrite (spiW none)) hostUp (fun t => t.writeQ == [⟨bwAddr, 9, 3, .spi, 1001, 0⟩] &&
        t.spi.out == [statusWord hostUp .spi, 0]) &&
     runs (.spiWrite (spiW (some 65))) hostUp (fun t => t.writeQ.length == 1 &&
        t.spi.out.length == 3)) = true := by decide +kernel

theorem test_SpiTransactions_read :
    (SpiRead.ok (spiR none) && spiReadBits hostUp.straps.crc 0 == 96 &&
     runs (.spiRead (spiR none)) hostUp (fun t => t.spi.out == [statusWord hostUp .spi, 0, get1 hostUp DPLL.BW 3] &&
        t.spi.txn == 1 && t.spi.result == resOK) &&
     runs (.spiRead (spiR (some 95))) hostUp (fun t => t.spi.result == resSHORT && t.spi.txn == 1) &&
     runs (.spiRead (spiR (some 31))) hostUp (fun t => t.spi.result == resSHORT && t.spi.txn == 0) &&
     runs (.spiRead { spiR none with addr := bwAddr + 1 }) hostUp (fun t => t.spi.result == resALIGN) &&
     runs (.spiRead (spiR none)) crcUp (fun t => t.spi.result == resCRC) &&
     runs (.spiRead { spiR none with addr := 0xFFFFFC }) hostUp (fun t => t.spi.result == hostUp.spi.result &&
        t.spi.txn == 1)) = true := by decide +kernel

/-- A store runs: the Cellar window is busy. -/
def storeUp : State := set1 hostUp CELLAR.STATUS_BUSY 0 1

/-- Two-wire transactions of one word; of the last word of the Cellar window. -/
def i2cW (addr : Nat) (stop : Option Nat) : I2cWrite := ⟨0x38, 0, 0, addr, [9], 0, stop, 5⟩
def i2cR (addr : Nat) (stop : Option Nat) : I2cRead := ⟨0x38, 0, 0, addr, 0, stop, 2, 5⟩

theorem test_I2cTransactions_write :
    (busFree hostUp .i2c && i2cAddr hostUp == 0x38 && windowBusy storeUp && busFree storeUp .i2c &&
     I2cWrite.ok (i2cW 0x8FFFFC none) && idle (.i2cWrite ⟨0x39, 3, 0, bwAddr, [9], 0, none, 5⟩) hostUp &&
     (i2cReached storeUp (i2cW 0x8FFFFC none)).any inWindow24 &&
        (i2cReached storeUp (i2cW 0x8FFFFC (some 5))).any inWindow24 &&
     !(i2cReached storeUp (i2cW 0x8FFFFC (some 4))).any inWindow24 &&
     runs (.i2cWrite (i2cW 0x8FFFFC none)) storeUp (fun t => t.i2cHold.isSome && t.mem == []) &&
     runs (.i2cWrite (i2cW 0x8FFFFC (some 5))) storeUp (fun t => t.i2cHold.isSome) &&
     runs (.i2cWrite (i2cW 0x8FFFFC (some 4))) storeUp (fun t => t.i2cHold.isNone && t.i2c.result == resSHORT &&
        t.i2c.txn == 1) &&
     runs (.i2cWrite (i2cW 0x8FFFFC (some 3))) storeUp (fun t => t.i2c.result == resSHORT && t.i2c.txn == 0) &&
     runs (.i2cWrite ⟨0x38, 3, 0, bwAddr, [9], 0, some 9, 5⟩) hostUp (fun t => t.writeQ == [⟨bwAddr, 9, 3, .i2c, 1001, 0⟩] &&
        t.i2c.acks == List.replicate 9 true ++ [false]) &&
     runs (.i2cWrite (i2cW 2 none)) hostUp (fun t => t.i2c.result == resALIGN) &&
     runs (.i2cWrite (i2cW bwAddr none)) crcUp (fun t => t.i2c.result == resCRC)) = true := by decide +kernel

theorem test_I2cTransactions_read :
    (I2cRead.ok (i2cR bwAddr none) && idle (.i2cRead ⟨0x3B, 3, 0, bwAddr, 0, none, 0, 5⟩) hostUp &&
     (txnAddrs storeUp 0 0x8FFFFC 0).any inWindow24 && !(txnAddrs storeUp 0 bwAddr 0).any inWindow24 &&
     runs (.i2cRead ⟨0x38, 3, 0, bwAddr, 0, none, 2, 5⟩) hostUp (fun t => t.i2c.out == [get1 hostUp DPLL.BW 3, 0, 0] &&
        t.i2c.result == resOK) &&
     runs (.i2cRead (i2cR 0x8FFFFC none)) storeUp (fun t => t.i2cHold == some (.read (i2cR 0x8FFFFC none) [])) &&
     runs (.i2cRead (i2cR 2 none)) hostUp (fun t => t.i2c.result == resALIGN) &&
     runs (.i2cRead (i2cR bwAddr none)) crcUp (fun t => t.i2c.result == resCRC) &&
     runs .i2cHoldTimeout { storeUp with i2cHold := some (.write (i2cW 0x8FFFFC none)) } (fun t => t.i2cHold == none &&
        t.i2c.result == resBUSY && t.i2c.acks == List.replicate 5 true ++ List.replicate 4 false) &&
     runs .i2cHoldTimeout { storeUp with i2cHold := some (.read (i2cR 0x8FFFFC none) []) } (fun t =>
        t.i2c.result == resBUSY && t.i2c.out[0]? == some 0) &&
     decide (([] : List Fetched).length < (i2cAddrs storeUp (i2cR 0x8FFFFC none)).length) &&
        (i2cAddrs storeUp (i2cR 0x8FFFFC none)).any inWindow24 && idle .i2cHoldTimeout hostUp) = true := by decide +kernel

theorem test_HostRequests :
    (busFree hostUp .spi && !windowBusy hostUp && isPage .dpll 3 &&
        checkWord hostUp .spi 3 (pageBase .dpll 3 + 0x1C) 1 == resOK &&
     runs (.snapReq ⟨.spi, 3, 0⟩ .dpll 3) hostUp (fun t => t.snapReq.contains (pageBase .dpll 3, 1001)) &&
     checkWord hostUp .i2c 0 (fldAddr FRAME.SNAP_ALL 0 0 0) 1 == resOK &&
     runs (.snapAll ⟨.i2c, 0, 1230⟩) hostUp (fun t => t.snapAll.contains 1002) &&
     checkWord hostUp .spi 3 (pageBase .dpll 3 + 0x10) 1 == resOK && !isLate hostUp 0 && hostUp.jrn.queue == [] &&
        hostUp.jrn.held == [] &&
     runs (.evtClear ⟨.spi, 3, 0⟩ .dpll 3 1) (evt (evt hostUp .dpll 3 0) .dpll 3 31) (fun t => !raised t .dpll 3 0 &&
        raised t .dpll 3 31)) = true := by decide +kernel

theorem test_HostQueued :
    (((fieldsOf (fldAddr DPLL.HOLD_CNT 3 0 0)).any fun x => x.fld.acc == .cnt) &&
        decide (fldAddr DPLL.HOLD_CNT 3 0 0 < 0x100000) && checkWord hostUp .spi 3 (fldAddr DPLL.HOLD_CNT 3 0 0) 0 == resOK &&
     runs (.counterClear ⟨.spi, 3, 0⟩ (fldAddr DPLL.HOLD_CNT 3 0 0) 0) hostUp (fun t => t.writeQ.length == 1) &&
     checkWord hostUp .spi 3 (fldAddr PART.CTRL 3 0 0) 1 == resOK &&
     runs (.partReset ⟨.spi, 3, 0⟩ 3) hostUp (fun t => t.writeQ == [⟨fldAddr PART.CTRL 3 0 0, 1, 3, .spi, 1001, 0⟩]) &&
     checkWord hostUp .spi 0 0x400040 0 == resOK &&
     runs (.channelTableWrite ⟨.spi, 0, 0⟩ 0x400040 7) hostUp (fun t =>
        t.writeQ == [⟨0x400040, 7, 0, .spi, 1001, 0⟩])) = true := by decide +kernel

/-- A debug grant that covers the accumulators, with accumulator 1023 holding -1. -/
def debugUp : State :=
  { polSet up DBG.SCOPE_ACC_WINDOW 0 0 0 1 with accs := [(1023, -1)], root := { grantEnd := some 9000 } }

theorem test_PortReads :
    (portsLive up && runs (.portStatusRead .spi) up (fun t => t.spi.out == [statusWord up .spi]) &&
     runs (.frnLoRead .spi .sys) { up with frn := 2 ^ 32 + 3 } (fun t => t.spi.out == [3] && t.spi.shadow.sysFrnHi == 1) &&
     runs (.frnLoRead .i2c .frame) { up with frn := 2 ^ 32 + 3 } (fun t => t.i2c.out == [3] && t.i2c.shadow.frnHi == 1) &&
     runs (.frnHiRead .i2c .frame) up (fun t => t.i2c.out == [0]) && domRuns up 3 && !domRuns { waits with pol := up.pol } 3 &&
     runs (.nowNsRead .spi ⟨3, 1249⟩) (modTime { waits with pol := up.pol } 3 fun u => { u with t := 7 * nsUnit }) (fun t =>
        t.spi.out == [7]) && runs (.nowSecRead .spi 3 0) up (fun t => t.spi.out == [0]) &&
     runs (.nowSecRead .spi 3 1) up (fun t => t.spi.out == [0]) && runs (.nowSecRead .spi 3 2) up (fun t => t.spi.out == [0]) &&
     tagOpen debugUp 0 && debugReadOk debugUp 0 1023 &&
     runs (.accDebugRead .spi 0 0x701FF8) debugUp (fun t => t.spi.out == [0xFFFFFFFF]) &&
     !debugReadOk up 0 1023 && !tagOpen debugUp 4 &&
     runs (.accDebugRead .spi 0 0x701FFC) debugUp (fun t => t.spi.out == [0xFFFFFFFF]) &&
     runs (.accDebugRead .spi 4 0x700000) debugUp (fun t => t.spi.out == [0] && t.spi.denied)) = true := by decide +kernel

/-! ### Time -/

/-- TIME3 with SET fields of 5 s and 999 999 999 ns, and a request due at the boundary of frame 1000. -/
def timeUp : State := set1 (set1 up TIME.SET_SEC_LO 3 5) TIME.SET_NS 3 999999999
def reqUp (s : State) (r : ChangeReq) : State := modTime s 3 fun u => { u with reqs := [{ r with due := 1000 }] }
def fiveS : ChangeReq := ⟨0, 5999999999, 0, true, false⟩

/-- TIME3 set, with a threshold of 100 ns; a domain that follows in PHASE mode. -/
def relUp : State := polSet (set1 up TIME.STATUS_TIME_SET 3 1) TIME.STEP_CFG_THRESH 3 0 0 100
def phaseUp : State := set1 (modDom timeUp 3 fun u => { u with mode := 1 }) DPLL.STATUS_STATE 3 2

theorem test_TimeRequests :
    (shaped timeUp && domRuns timeUp 3 && get1 timeUp TIME.STATUS_TIME_SET 3 == 0 && (domOf timeUp 3).mode == 0 &&
     runs (.setAbs 3) timeUp (fun t => (timeOf t 3).reqs == [{ fiveS with due := 1001 }] && (timeOf t 3).t == 0) &&
     runs (.setRel 3) (set1 timeUp TIME.SET_NS 3 1000000000) (fun t => (timeOf t 3).reqs.map (fun r =>
        (r.abs, r.bad)) == [(false, true)]) &&
     ((timeOf (reqUp timeUp fiveS) 3).reqs.filter fun q => decide (q.due ≤ 1000)).length == 1 &&
     (let t := resolveReqs (reqUp timeUp fiveS) 3; (timeOf t 3).t == 5999999999 * 2 ^ 64 &&
        get1 t TIME.STATUS_TIME_SET 3 == 1 && raised t .time 3 0 && (timeOf t 3).reqs == []) &&
     get1 (resolveReqs (reqUp timeUp { fiveS with bad := true }) 3) TIME.STEP_LIM_LAST_REFUSE 3 == 7 &&
     !domRuns (reqUp { timeUp with phase := .waiting } fiveS) 3 &&
        get1 (resolveReqs (reqUp { timeUp with phase := .waiting } fiveS) 3) TIME.STEP_LIM_LAST_REFUSE 3 == 1 &&
     following phaseUp 3 && (domOf phaseUp 3).mode == 1 && raised (resolveReqs (reqUp phaseUp fiveS) 3) .time 3 1 &&
     get1 (resolveReqs (reqUp phaseUp fiveS) 3) TIME.STEP_LIM_LAST_REFUSE 3 == 2 &&
     get1 relUp TIME.STEP_CFG_THRESH 3 == 100 &&
        reqDelta (reqUp relUp ⟨2, -100, 0, false, false⟩) 3 ⟨2, -100, 0, false, false⟩ == -100 &&
     (timeOf (resolveReqs (reqUp relUp ⟨2, -100, 0, false, false⟩) 3) 3).slew == -51200 &&
     (timeOf (resolveReqs (reqUp relUp ⟨0, 100, 0, true, false⟩) 3) 3).slew == 51200) = true := by decide +kernel

/-- Trigger 7 of TIME3 set for 999 999 999 ns; TIME3 at that instant, the same with LATE_OK and with a period; a period that does
not divide a second. -/
def trigUp : State := setF up TIME.TRIG_NS 3 7 0 999999999
def trigLate : State := modTime trigUp 3 fun u => { u with t := 999999999 * 2 ^ 64 }
def trigBad : State := setF up TIME.TRIG_PER 3 7 0 124999

theorem test_Triggers :
    (shaped trigUp && armCause trigUp 3 7 == 0 && armCause trigBad 3 7 == 4 && armCause trigLate 3 7 == 0 &&
     runs (.trigArm 3 7) trigUp (fun t => (trigOf t 3 7).armed && (trigOf t 3 7).t == 999999999 &&
        getF t TIME.TRIG_STAT_STATE 3 7 0 == 1) &&
     runs (.trigArm 3 7) trigBad (fun t => getF t TIME.TRIG_STAT_STATE 3 7 0 == 3 && getF t TIME.TRIG_STAT_CAUSE 3 7 0 == 4) &&
     runs (.trigArm 3 7) trigLate (fun t => !(trigOf t 3 7).armed && getF t TIME.TRIG_STAT_CAUSE 3 7 0 == 1 &&
        raised t .time 3 4) &&
     runs (.trigArm 3 7) (setF trigLate TIME.TRIG_CTRL_LATE_OK 3 7 0 1) (fun t => (trigOf t 3 7).late == some 1001 &&
        (trigOf t 3 7).armed) && armCause (setF trigLate TIME.TRIG_PER 3 7 0 125000) 3 7 == 0 &&
     runs (.trigArm 3 7) (setF trigLate TIME.TRIG_PER 3 7 0 125000) (fun t => (trigOf t 3 7).next == 1 &&
        (trigOf t 3 7).armed) &&
     runs (.trigDisarm 3 7) (setF up TIME.TRIG_STAT_STATE 3 7 0 1) (fun t =>
        getF t TIME.TRIG_STAT_STATE 3 7 0 == 0)) = true := by decide +kernel

/-- Trigger 7 armed for 3 000 000 001 ns with an action: late; periodic; its output 9 of domain 3 a pulse output of a locked APLL. -/
def armedUp (f : TrigU → TrigU) : State := modTrig up 3 7 fun u => f { u with armed := true, t := 3000000001 }
def pulseUp : State :=
  set1 (modApll (polSet (armedUp fun u => { u with action := 3, target := 9 }) PART.PORTS_OUTS 3 0 0 0x200) 3 fun a =>
    { a with powered := true, locked := true, zeroed := true }) OUT.MODE_PULSE 9 1

theorem test_TriggerFires :
    (shaped (armedUp id) && domRuns (armedUp id) 3 && idle (.trigFire 3 6 []) (armedUp id) &&
     runs (.trigFire 3 7 []) (armedUp id) (fun t => getF t TIME.TRIG_STAT_STATE 3 7 0 == 2 &&
        getF t TIME.TRIG_FIRED_SEC_LO 3 7 0 == 3 && getF t TIME.TRIG_FIRED_NS 3 7 0 == 1 && raised t .time 3 2) &&
     runs (.trigFire 3 7 []) (armedUp fun u => { u with late := some 1001 }) (fun t =>
        getF t TIME.TRIG_FIRED_SEC_LO 3 7 0 == 0 && raised t .time 3 3) &&
     runs (.trigFire 3 7 []) (armedUp fun u => { u with per := 125000 }) (fun t => (trigOf t 3 7).armed &&
        (trigOf t 3 7).next == 1) && (laneFor up 5).isSome && nearest [8191, -8191] == none && nearest [8190] == some 8190 &&
     runs (.trigFire 3 7 [8191]) (armedUp fun u => { u with action := 1, target := 5 }) (fun t =>
        getF t TIME.TRIG_IVL_RESULT_FLAGS 3 7 0 == 4) &&
     runs (.trigFire 3 7 [-8190]) (armedUp fun u => { u with action := 1, target := 5 }) (fun t =>
        getF t TIME.TRIG_IVL_RESULT_CODE 3 7 0 == smpCode (.val (-8190)) % 2 ^ 14) &&
     runs (.trigFire 3 7 []) (armedUp fun u => { u with action := 2 }) (fun t => (timeOf t 3).epochAct) &&
     runs (.trigFire 3 7 []) (armedUp fun u => { u with action := 3, target := 9 }) (fun t =>
        getF t TIME.TRIG_STAT_CAUSE 3 7 0 == 2 && raised t .time 3 4) &&
     pulseTarget pulseUp 3 9 && get1 pulseUp OUT.CTRL 9 == 0 && get1 pulseUp APLL.STATUS_RETUNE 3 == 0 &&
        (apllOf pulseUp 3).locked &&
     runs (.trigFire 3 7 []) pulseUp (fun t => (outOf t 9).busy != 0 &&
        getF t TIME.TRIG_STAT_CAUSE 3 7 0 == 0)) = true := by decide +kernel

/-- Capture 7 of TIME3 of channel 9, which partition 3 owns; one that has taken a value; one armed whose edge came. -/
def capUp : State := setF (polSet up CHAN.POL_ID_OWNER 9 0 0 3) TIME.CAP_CTRL_SRC 3 7 0 9
def takenUp : State := modCap up 3 7 fun u => { u with armed := true, taken := some (4000000002 * 2 ^ 64, 1000, true) }
def edgeUp : State :=
  modFunc (modFunc (modCap capUp 3 7 fun u => { u with armed := true, frm := 999, src := 9 }) 9 fun u =>
    { u with t0 := some 0, inc := some (.val 0) }) 13 fun u => { u with inc := some (.val 0) }

theorem test_Captures :
    (shaped capUp && mayMeasure capUp 3 9 && get1 capUp DPLL.STATUS_FB_LOST 3 == 0 && domRuns capUp 3 && shaped takenUp &&
     !mayMeasure up 3 9 && !domRuns { capUp with phase := .waiting } 3 && (capEdge edgeUp 3 9).isSome &&
     runs (.capArm 3 7) capUp (fun t => (capOf t 3 7).armed && (capOf t 3 7).src == 9 &&
        getF t TIME.CAP_STAT_STATE 3 7 0 == 1) &&
     runs (.capArm 3 7) { capUp with phase := .waiting } (fun t => getF t TIME.CAP_STAT_STATE 3 7 0 == 3 &&
        getF t TIME.CAP_STAT_CAUSE 3 7 0 == 2) &&
     runs (.capArm 3 7) (setF capUp TIME.CAP_CTRL_SRC 3 7 0 10) (fun t => getF t TIME.CAP_STAT_CAUSE 3 7 0 == 1) &&
     runs (.capArm 3 7) (setF up TIME.CAP_CTRL_SRC 3 7 0 9) (fun t => getF t TIME.CAP_STAT_CAUSE 3 7 0 == 1) &&
     runs (.capArm 3 7) (set1 capUp DPLL.STATUS_FB_LOST 3 1) (fun t => getF t TIME.CAP_STAT_CAUSE 3 7 0 == 3) &&
     runs (.capCancel 3 7) takenUp (fun t => capOf t 3 7 == {}) &&
     runs (.capDone 3 7) takenUp (fun t => getF t TIME.CAP_NS 3 7 0 == 2 && getF t TIME.CAP_SEC_LO 3 7 0 == 4 &&
        getF t TIME.CAP_STAT_STEPPED 3 7 0 == 1 && raised t .time 3 5) &&
     runs (.capDone 3 7) edgeUp (fun t => getF t TIME.CAP_STAT_STATE 3 7 0 == 2 && !(capOf t 3 7).armed &&
        getF t TIME.CAP_FRN 3 7 0 == 1000) &&
     idle (.capDone 3 7) (modCap edgeUp 3 7 fun u => { u with frm := 1000 })) = true := by decide +kernel

/-- `$GPZDA,000010.00,02,01,1970,00,00*6B`: 86 410 s after 1970; the same with a wrong checksum. -/
def zda : List Nat := "$GPZDA,000010.00,02,01,1970,00,00*6B".toList.map Char.toNat
def zdaBad : List Nat := "$GPZDA,000010.00,02,01,1970,00,00*6A".toList.map Char.toNat

/-- TIME3 with its connector, receiving and sending, 37 s from UTC; the same one second ahead for the third time in a row. -/
def todUp : State :=
  modTime (set1 (set1 (set1 (polSet up TIME.TOD_CFG_CONN 3 0 0 1) TIME.TOD_CFG_RX_EN 3 1) TIME.TOD_CFG_TX_EN 3 1) TIME.UTC_OFS 3 37) 3
    fun u => { u with nmeaSec := some 86447, todDue := [(5, 0, false)], tod := [0x55], t := 6 * nsUnit }
def aheadUp : State := set1 (modTime todUp 3 fun u => { u with nmeaSec := some 86446, nmeaLast := 1 }) TIME.TOD_STAT_MATCH_RUN 3 2

theorem test_TimeOfDay_port :
    (shaped todUp && todSends todUp 3 && domRuns todUp 3 &&
     runs (.todMessage 3) todUp (fun t => (timeOf t 3).todDue == [] && get1 t TIME.TOD_STAT_TX_SEQ 3 == 1) &&
     runs (.todMessage 3) (modTime todUp 3 fun u => { u with tod := [] }) (fun t => get1 t TIME.TOD_STAT_TX_SEQ 3 == 0) &&
     idle (.todMessage 2) todUp && idle (.todMessage 3) (set1 todUp TIME.TOD_CFG_TX_EN 3 0) &&
     runs (.baudWrite 3 7) todUp (fun t => get1 t TIME.TOD_CFG_BAUD 3 == 7 && (timeOf t 3).baud == 7) &&
     runs (.baudWrite 3 7) (modTime todUp 3 fun u => { u with todLeft := 1 }) (fun t => (timeOf t 3).baud == 0) &&
     runs (.secondsRollover 3) todUp (fun t => (timeOf t 3).rolled == some 1 && (timeOf t 3).t == secUnit &&
        (timeOf t 3).todDue.length == 2) &&
     idle (.secondsRollover 3) { todUp with phase := .waiting }) = true := by decide +kernel

theorem test_TimeOfDay_sentences :
    (leafRuns todUp && zda.all (fun c => decide (c < 256)) && nmeaParse zda == some 86410 && nmeaParse zdaBad == none &&
     runs (.nmeaSentence 3 zdaBad 10000) todUp (fun t => oneMore todUp t TIME.NMEA_BAD_CNT 3 0 && raised t .time 3 7) &&
     runs (.nmeaSentence 3 zda 9999) todUp (fun t => oneMore todUp t TIME.NMEA_PHASE_CNT 3 0 &&
        oneMore todUp t TIME.NMEA_OK_CNT 3 0) &&
     runs (.nmeaSentence 3 zda 900001) todUp (fun t => oneMore todUp t TIME.NMEA_PHASE_CNT 3 0) &&
     runs (.nmeaSentence 3 zda 900000) (set1 todUp TIME.TOD_STAT_MISMATCH 3 2) (fun t =>
        get1 t TIME.TOD_STAT_MISMATCH 3 == 0 && get1 t TIME.NMEA_PHASE_CNT 3 == 0) &&
     runs (.nmeaSentence 3 zda 10000) aheadUp (fun t => get1 t TIME.TOD_STAT_MISMATCH 3 == 1 &&
        (timeOf t 3).reqs == [{ src := 3, delta := 1000000000, due := 1001 }] && raised t .time 3 6) &&
     idle (.nmeaSentence 3 zda 10000) (set1 todUp TIME.TOD_CFG_RX_EN 3 0)) = true := by decide +kernel

/-! ### Synthesis and outputs -/

/-- APLL 3 runs and is locked; the same with LOCK 0 in a retune, and coasting after it had locked. -/
def apllUp : State :=
  set1 (modApll (polSet up PART.PORTS_OUTS 3 0 0 0x200) 3 fun a => { a with powered := true, zeroed := true, locked := true })
    APLL.STATUS_LOCK 3 1
def retuneUp : State := set1 (set1 (modFunc apllUp 13 fun u => { u with pred := some 3 }) APLL.STATUS_LOCK 3 0) APLL.STATUS_RETUNE 3 1
def coastUp : State := set1 (set1 (modFunc apllUp 13 fun u => { u with pred := some 3 }) APLL.STATUS_LOCK 3 0) APLL.STATUS_COAST 3 1

theorem test_LocksAndReferences_apll :
    (shaped apllUp && apllUp.jrOn && shaped retuneUp && shaped coastUp &&
     runs (.apllLockLost 3) apllUp (fun t => get1 t APLL.STATUS_COAST 3 == 1 && oneMore apllUp t APLL.LOL_CNT 3 0 &&
        raised t .apll 3 0) && idle (.apllLockLost 3) up && idle (.apllLockLost 3) retuneUp &&
     runs (.relock 3) coastUp (fun t => get1 t APLL.STATUS_LOCK 3 == 1 && get1 t APLL.STATUS_COAST 3 == 0 &&
        raised t .apll 3 1) && runs (.relock 3) (set1 coastUp APLL.STATUS_RETUNE 3 1) (fun t => (funcOf t 13).pred == none) &&
     idle (.relock 3) up && idle (.relock 3) apllUp && idle (.relock 3) { coastUp with jrOn := false } &&
     runs (.retuneLock 3) retuneUp (fun t => get1 t APLL.STATUS_LOCK 3 == 1 && (funcOf t 13).pred == none) &&
     idle (.retuneLock 3) up && idle (.retuneLock 3) apllUp && idle (.retuneLock 3) coastUp &&
        idle (.retuneLock 3) { retuneUp with jrOn := false }) = true := by decide +kernel

theorem test_LocksAndReferences_rest :
    (runs .refLost apllUp (fun t => !t.jrOn && get1 t APLL.STATUS_REF_LOST 0 == 1 && get1 t APLL.STATUS_LOCK 3 == 0 &&
        raised t .apll 3 2 && raised t .apll 3 0) &&
     runs .refLost coastUp (fun t => get1 t APLL.STATUS_COAST 3 == 1 && get1 t APLL.STATUS_LOCK 0 == 0) &&
     idle .refLost { up with jrOn := false } && idle .refReturn up &&
     runs .refReturn { up with jrOn := false } (fun t => t.jrOn && get1 t APLL.STATUS_REF_LOST 3 == 0) &&
     runs (.dllLol 9) (set1 up OUT.STATUS_DLL_LOCK 9 1) (fun t => get1 t OUT.STATUS_DLL_COAST 9 == 1 && raised t .out 9 3) &&
     idle (.dllLol 9) (set1 up OUT.STATUS_DLL_COAST 9 1) &&
     runs (.dllRelock 9) (set1 up OUT.STATUS_DLL_COAST 9 1) (fun t => get1 t OUT.STATUS_DLL_LOCK 9 == 1) &&
     runs (.alignLost 9) (set1 up OUT.PALIGN_EN 9 1) (fun t => (outOf t 9).lost && raised t .out 9 4) &&
     idle (.alignLost 9) (set1 up OUT.PALIGN_EN 9 0) && idle (.alignLost 9) (modOut (set1 up OUT.PALIGN_EN 9 1) 9 fun u =>
        { u with lost := true })) = true := by decide +kernel

theorem test_RetuneAndEpoch :
    (applyOk apllUp 3 && !applyOk (set1 apllUp APLL.CFG_REFSEL 3 3) 3 && domRuns apllUp 3 && idle (.apply 3) up &&
        idle (.epoch 3) up && idle (.epoch 3) { apllUp with phase := .waiting } &&
     runs (.apply 3) (set1 apllUp APLL.CFG_REFSEL 3 1) (fun t => (apllOf t 3).refsel == 1 || raised t .apll 3 5) &&
     runs (.apply 3) apllUp (fun t => (apllOf t 3).zeroReq && get1 t APLL.STATUS_RETUNE 3 == 1 &&
        get1 t APLL.VCO_KHZ 3 == 6400000) &&
     runs (.apply 3) (set1 apllUp APLL.CFG_REFSEL 3 3) (fun t => raised t .apll 3 5 && get1 t APLL.STATUS_RETUNE 3 == 0) &&
     runs (.epoch 3) apllUp (fun t => (apllOf t 3).zeroReq &&
        get1 t APLL.STATUS_EPOCH_PEND 3 == 1)) = true := by decide +kernel

/-- Output 9 of APLL 3 running as a clock divided by 640, high for another 320 periods, and one that is low. -/
def clkUp : State :=
  set1 (set1 (modOut apllUp 9 fun u => { u with active := true, want := 2 }) OUT.CTRL 9 1) OUT.STATUS_RUN 9 2
def lowUp : State := modApll clkUp 3 fun a => { a with e := 320 }

theorem test_OutputWrites_stops :
    (shaped clkUp && shaped lowUp && highLeft clkUp 9 == 320 && highLeft lowUp 9 == 0 &&
     runs (.outEnable 9) apllUp (fun t => get1 t OUT.CTRL 9 == 1 && (outOf t 9).want == 2) &&
     runs (.outDisable 9) apllUp (fun t => get1 t OUT.STATUS_RUN 9 == 0) &&
     runs (.outDisable 9) clkUp (fun t => (outOf t 9).active && (outOf t 9).fall == some 320) &&
     runs (.outDisable 9) lowUp (fun t => !(outOf t 9).active && get1 t OUT.STATUS_RUN 9 == 0 && raised t .out 9 1) &&
     runs (.outDisable 9) (set1 apllUp OUT.STATUS_RUN 9 5) (fun t => (outOf t 9).want == 5) &&
     runs (.pulseModeChange 9 true) clkUp (fun t => (outOf t 9).fall == some 320 && get1 t OUT.STATUS_RUN 9 == 3) &&
     runs (.pulseModeChange 9 true) apllUp (fun t => get1 t OUT.MODE_PULSE 9 == 1) &&
     runs (.pulseModeChange 9 false) clkUp (fun t => (outOf t 9).active &&
        get1 t OUT.STATUS_RUN 9 == 2)) = true := by decide +kernel

theorem test_OutputWrites_fields :
    (withinFmt clkUp 9 (fNom clkUp 3 / 5) && runs (.dividerChange 9 (some 5) (some 4)) clkUp (fun t =>
        get1 t OUT.DIV 9 == 5 && get1 t OUT.COARSE 9 == 4 && (outOf t 9).fall == some 320) &&
     runs (.dividerChange 9 (some 640) (some 640)) clkUp (fun t => get1 t OUT.DIV 9 == 640 && get1 t OUT.COARSE 9 == 0 &&
        raised t .out 9 5) &&
     runs (.dividerChange 9 (some 4) (some 3)) clkUp (fun t => get1 t OUT.DIV 9 == 640 && get1 t OUT.COARSE 9 == 3 &&
        raised t .out 9 5) &&
     runs (.dividerChange 9 (some 5) (some 4)) apllUp (fun t => get1 t OUT.DIV 9 == 5 && (outOf t 9).fall == none) &&
     runs (.fineWrite 9 255) up (fun t => get1 t OUT.DELAY 9 == 255) && pulseOk 5 1000 996 && !pulseOk 5 1000 997 &&
        !pulseOk 6 1000 4 &&
     runs (.pulsePeriodWrite 9 (some 5) (some 1000) (some 996)) up (fun t => get1 t OUT.PER_NS 9 == 1000 &&
        get1 t OUT.WIDTH_NS 9 == 996) &&
     runs (.pulsePeriodWrite 9 (some 5) (some 1000) (some 997)) up (fun t => get1 t OUT.PER_NS 9 == 1000000 &&
        raised t .out 9 5) &&
     alignChanOk (polSet apllUp CHAN.POL_ID_OWNER 9 0 0 3) 9 9 && !alignChanOk apllUp 9 9 && !alignChanOk apllUp 9 10 &&
     runs (.palignWrite 9 9 true) (polSet apllUp CHAN.POL_ID_OWNER 9 0 0 3) (fun t => get1 t OUT.PALIGN_CHAN 9 == 9 &&
        get1 t OUT.PALIGN_EN 9 == 1) && runs (.palignWrite 9 10 true) apllUp (fun t => raised t .out 9 5) &&
     runs (.palignOfsHiWrite 9 0xFFFF) (set1 up OUT.PALIGN_OFS_LO 9 0xFFFFFFFF) (fun t =>
        (outOf t 9).ofs == -1)) = true := by decide +kernel

/-! ### The Cellar -/

/-- A store of block 250 runs; a deferred store of block 176 waits. -/
def aStore : StoreRun := { job := ⟨250, 4, [2], none⟩, copy := 1, gen := 2, wear := 2, data := [] }
def runUp : State := modCellar up fun u => { u with run := some aStore, held18 := true }
def deferUp : State :=
  set1 (modCellar up fun u => { u with queue := [⟨176, 4, [0], none⟩], defer := some 900, held18 := true }) CELLAR.STATUS_DEFERRED 0 1

/-- The hold-up node at 18 V and VIN at 4.3 V, the least that R487 lets a store begin with. -/
def fedUp : State := set1 (set1 up PWR.VIN 0 4300) PWR.HOLDUP 0 18000

/-- Leaf in a state of Table 14.9a; the engine shut. -/
def leafSt (v : Nat) : State := set1 up ROOT.STATUS_LEAF 0 v
def shutEng (s : State) : State := modCellar s fun u => { u with shut := true }

theorem test_StoreRequests_cmd :
    (shaped runUp && engineTakes runUp && mayStore 0 176 && mayStore 0 183 && !mayStore 0 184 && mayStore 3 255 &&
     supplyOk fedUp ⟨255, 4, [3], none⟩ (supplyNow fedUp) && !supplyOk up ⟨255, 4, [3], none⟩ (supplyNow up) &&
        up.cellar.defer == none &&
     runs (.storeCmd 0 183 1) up (fun t => getF t CELLAR.STORE_STAT_STATE 0 0 0 == 5 &&
        getF t CELLAR.STORE_STAT_CAUSE 0 0 0 == 1) &&
     runs (.storeCmd 3 255 0) (modCellar up fun u => { u with cmds := [(0, 0), (0, 0), (0, 0), (1, 0)] }) (fun t =>
        getF t CELLAR.STORE_STAT_STATE 0 3 0 == 5 && getF t CELLAR.STORE_STAT_CAUSE 0 3 0 == 2) &&
     runs (.storeCmd 3 255 0) (shutEng up) (fun t => getF t CELLAR.STORE_STAT_STATE 0 3 0 == 4 &&
        getF t CELLAR.STORE_STAT_CAUSE 0 3 0 == 4) &&
     runs (.storeCmd 0 176 7) runUp (fun t => getF t CELLAR.STORE_STAT_STATE 0 0 0 == 1 && t.cellar.queue.length == 8) &&
     runs (.storeCmd 3 255 0) fedUp (fun t => getF t CELLAR.STORE_STAT_STATE 0 3 0 == 2 && get1 t CELLAR.STATUS_BUSY 0 == 1 &&
        get1 t CELLAR.QUEUE_BLOCK 0 == 255 && t.cellar.run.isSome) &&
     runs (.storeCmd 0 32 0) fedUp (fun t => t.cellar.parked == [0]) &&
     runs (.storeCmd 3 255 0) up (fun t => get1 t CELLAR.STATUS_DEFERRED 0 == 1 && t.cellar.defer == some 1000 &&
        raised t .cellar 0 3)) = true := by decide +kernel

theorem test_StoreRequests_gate :
    (leafRuns runUp && runs (.cellarStore 144 32) runUp (fun t => t.gate.res == 0 && t.cellar.queue.length == 32) &&
     runs (.cellarStore 143 1) runUp (fun t => t.gate.res == 6 && t.cellar.queue == []) &&
     runs (.cellarStore 176 1) runUp (fun t => t.gate.res == 3) && runs (.cellarStore 144 0) runUp (fun t =>
        t.gate.res == 3) &&
     runs (.cellarStore 144 1) (shutEng up) (fun t => t.gate.res == 8) && runs (.storeRequest 32 1) (shutEng up) (fun t =>
        t.gate.res == 8) && runs (.storeRequest 32 144) runUp (fun t => t.gate.res == 0 && t.cellar.queue.length == 144) &&
     runs (.storeRequest 31 1) runUp (fun t => t.gate.res == 3) && runs (.storeRequest 175 2) runUp (fun t =>
        t.gate.res == 3) &&
     !leafRuns (leafSt 1) && idle (.cellarStore 144 1) (leafSt 1) && idle (.storeRequest 32 1) (leafSt 1) &&
        idle (.ringPut 32 [1]) (leafSt 1) &&
     runs (.ringPut 63 [1, 2, 3, 4, 5, 6, 7, 8, 9, 10, 11, 12]) up (fun t => t.gate.res == 0 &&
        (kvGet t.cellar.ring 63).isSome && t.cellar.ringDirty) &&
     ringDue runUp && runUp.cellar.held18 && engineTakes runUp && !up.cellar.held18 &&
     runs (.ringPut 31 [1]) runUp (fun t => t.gate.res == 3) && runs (.ringPut 64 [1]) runUp (fun t => t.gate.res == 3) &&
     runs (.ringPut 32 (List.replicate 13 0)) runUp (fun t => t.gate.res == 3)) = true := by decide +kernel

/-- The last store of a power-fail sequence, in a reset that waits for it; a copy whose other is good; an erased one. -/
def lastUp : State :=
  set1 { (modCellar up fun u => { u with run := some { aStore with job := ⟨15, 1, [], none⟩ } }) with power := { reset := true } }
    CELLAR.STATUS_PF_SEQ 0 1
def dirtyUp : State := modCellar runUp fun u => { u with ringDirty := true }
def fixUp : State := modCellar runUp fun u => { u with run := none }

theorem test_StoresAndScrub_done :
    (aStore.job.fix == none && runUp.i2cHold == none && !runUp.power.reset && runUp.cellar.queue == [] &&
        !aStore.job.owners.contains 5 &&
     runs (.blockStoreDone ⟨4300, 18000⟩) runUp (fun t => (nvOf t 250 1).isSome && get1 t CELLAR.LAST_BLOCK 0 == 250 &&
        t.cellar.run.isNone && oneMore runUp t CELLAR.STORE_CNT 0 0) &&
     runs (.blockStoreDone ⟨0, 0⟩) (modCellar up fun u =>
        { u with run := some { aStore with job := ⟨250, 5, [], some 1⟩ } }) (fun t => get1 t CELLAR.STORE_CNT 0 == 0) &&
     runs (.blockStoreDone ⟨0, 0⟩) lastUp (fun t => t.phase == .held) &&
     runs (.blockStoreDone ⟨0, 0⟩) { lastUp with power := { reset := true, freed := some ⟨false, false, false,
        false⟩ } } (fun t => t.phase == .waiting) &&
     runs (.blockStoreDone ⟨0, 0⟩) { lastUp with power := {} } (fun t => t.cellar.shut &&
        get1 t CELLAR.STATUS_PF_SEQ 0 == 0 && raised t .cellar 0 7) && idle (.blockStoreDone ⟨0, 0⟩) up &&
     dirtyUp.cellar.ringDirty && ringDue dirtyUp && dirtyUp.cellar.held18 && engineTakes dirtyUp && Memory.wf dirtyUp.mem &&
        idle (.ringStore ⟨0, 0⟩) runUp) = true := by decide +kernel

theorem test_StoresAndScrub_waits :
    (runs (.holdupFirst18v ⟨5000, 18000⟩) up (fun t => t.cellar.held18) && idle (.holdupFirst18v ⟨5000, 17999⟩) up &&
        idle (.holdupFirst18v ⟨5000, 18000⟩) runUp && nextJob deferUp.cellar.queue == some ⟨176, 4, [0], none⟩ &&
     supplyOk deferUp ⟨176, 4, [0], none⟩ ⟨4300, 18000⟩ && !supplyOk deferUp ⟨176, 4, [0], none⟩ ⟨4299, 18000⟩ &&
     runs (.storeDeferRetry ⟨4300, 18000⟩) deferUp (fun t => t.cellar.run.isSome && get1 t CELLAR.STATUS_DEFERRED 0 == 0) &&
     idle (.storeDeferRetry ⟨4300, 17999⟩) deferUp && idle (.storeDeferRetry ⟨4300, 18000⟩) up &&
     runs (.storeFailed ⟨4299, 18000⟩) deferUp (fun t => t.cellar.queue == [] && oneMore deferUp t CELLAR.FAILED_CNT 0 0 &&
        raised t .cellar 0 2 && getF t CELLAR.STORE_STAT_STATE 0 0 0 == 4) &&
     runs (.storeFailed ⟨0, 0⟩) (modCellar (set1 deferUp ROOT.STATUS_PSTATE 0 3) fun u =>
        { u with queue := [⟨16, 2, [5], none⟩] }) (fun t => pstate t == 4) &&
     runs (.storeFailed ⟨0, 0⟩) (modCellar (modRoot deferUp fun u => { u with img := 3 }) fun u =>
        { u with queue := [⟨32, 2, [6], none⟩] }) (fun t => leafState t == 1) &&
     idle (.storeFailed ⟨0, 0⟩) up && idle (.scrub .tightFail) runUp) = true := by decide +kernel

theorem test_StoresAndScrub_scrub :
    (copyState up 255 1 == 0 &&
     runs (.scrub .tightOk) (set1 up CELLAR.SCRUB_NEXT 0 511) (fun t => get1 t CELLAR.SCRUB_NEXT 0 == 0 &&
        get1 t CELLAR.SCRUB_FRN 0 == 1000) &&
     copyState (modCellar up fun u =>
        { u with nv := [(0, { gen := 0, block := 0, copy := 0, wear := 0, data := [], erased := true })] }) 0 0 == 3 &&
     runs (.scrub .tightFail) fixUp (fun t => oneMore fixUp t CELLAR.REFRESH_CNT 0 0 && raised t .cellar 0 4) &&
     runs (.scrub .tightFail) up (fun t => t.cellar.wait.length == 1) &&
     runs (.scrub .tightFail) (modCellar (set1 up CELLAR.SCRUB_NEXT 0 511) fun u =>
    
        { u with queue := [⟨255, 4, [3], none⟩] }) (fun t => get1 t CELLAR.REFRESH_CNT 0 == 0 &&
        get1 t CELLAR.SCRUB_FRN 0 == 1000) &&
     runs (.scrub .normalFail) fixUp (fun t => oneMore fixUp t CELLAR.TORN_CNT 0 0 && raised t .cellar 0 0 &&
        copyState t 0 0 != 0) &&
     runs (.scrub .normalFail) (modCellar fixUp fun u =>
    
        { u with nv := [(1, { gen := 0, block := 0, copy := 1, wear := 0, data := [], erased := true })] }) (fun t =>
        !raised t .cellar 0 0)) = true := by decide +kernel

/-! ### Root -/

def pst (v : Nat) : State := set1 up ROOT.STATUS_PSTATE 0 v

theorem test_ProfileCommands :
    (shaped (pst 2) && !stagingLocked (pst 2) && stagingLocked (pst 1) && stagingLocked (pst 3) && engineTakes (pst 2) &&
        !(pst 2).root.touched && runs .verify (pst 4) (fun t => pstate t == 1) && idle .verify (pst 3) &&
     runs .commit (pst 0) (fun t => pstate t == 1 && t.root.thenCommit) && runs .commit (pst 1) (fun t => t.root.thenCommit) &&
     runs .commit (modRoot (pst 2) fun u => { u with touched := true }) (fun t => pstate t == 1 && t.root.thenCommit) &&
     runs .commit (pst 2) (fun t => pstate t == 3) && idle .commit (pst 3) &&
     runs .commit (shutEng (pst 2)) (fun t => pstate t == 4 && get1 t ROOT.REFUSE_CODE 0 == 10) &&
     runs .abort (pst 2) (fun t => pstate t == 0) && runs .abort (pst 3) (fun t => pstate t == 4 &&
        get1 t ROOT.REFUSE_CODE 0 == 11) &&
     idle .abort (set1 (pst 3) ROOT.STATUS_COMMIT_PEND 0 1) && idle .abort (pst 0) && idle .verifyDone (pst 2) &&
     (modRoot up fun u => { u with commitAt := some 1000 }).root.commitAt == some up.frn &&
     idle .policyCommit (modRoot up fun u => { u with commitAt := some 1001 })) = true := by decide +kernel

/-- An empty staging area is refused with MAGIC. (That a profile or an image passes depends on the keys, which are free.) -/
theorem test_ProfileCommands_verify : verifyStaged (unmark (pst 1)) = some (1, 0xFFFF) ∧
    runs .verifyDone (pst 1) (fun t => pstate t == 4 && get1 t ROOT.REFUSE_CODE 0 == 1 && raised t .root 0 2) = true := by decide +kernel

theorem test_LeafImage :
    (shaped (leafSt 4) && leafState (leafSt 4) == 4 && leafState up == 0 &&
     runs .imageLoad up (fun t => leafState t == 4 && t.root.img == 1) && idle .imageLoad (leafSt 4) &&
     runs .imageActivate (modRoot (leafSt 4) fun u => { u with img := 1 }) (fun t => t.root.img == 2) &&
     runs .imageCancel (modRoot (leafSt 4) fun u => { u with img := 1 }) (fun t => leafState t == 1 &&
        get1 t ROOT.LEAF_LAST_CAUSE 0 == 6) && idle .imageActivate (leafSt 4) && idle .imageCancel (leafSt 4) &&
     runs .imageDone (modRoot (leafSt 4) fun u => { u with img := 2 }) (fun t => leafState t == 1 &&
        get1 t ROOT.REFUSE_CODE 0 == 1 && raised t .root 0 6) &&
     idle .imageDone (leafSt 4) && leafState (leafSt 1) == 1 && imageCheck (leafSt 1) == some 1 &&
        idle .leafStart up) = true := by decide +kernel

/-- Three counted restarts in the 10 min, and two with one that began earlier. -/
def thirdUp : State := modRoot { up with frn := 4800100 } fun u => { u with window := [100, 200, 300] }
def secondUp : State := modRoot { up with frn := 4800101 } fun u => { u with window := [100, 200, 300] }

theorem test_LeafFaultsAndDebug_leaf :
    (leafRuns up && !leafRuns (leafSt 3) && (inWindow thirdUp).length == 3 && (inWindow secondUp).length == 2 &&
     runs .leafWdtExpiry { up with frn := 2000 } (fun t => leafState t == 1 && get1 t ROOT.LEAF_LAST_CAUSE 0 == 1) &&
     idle .leafWdtExpiry { up with frn := 1999 } && idle .leafException (leafSt 3) &&
     runs .leafMpuFault secondUp (fun t => leafState t == 1 && raised t .root 0 3) &&
     runs .leafException thirdUp (fun t => leafState t == 2 && get1 t ROOT.LEAF_LAST_CAUSE 0 == 3 && raised t .root 0 4) &&
     runs (.restartSelf 0xFFFFFFFF) up (fun t => get1 t ROOT.LEAF_LAST_CAUSE 0 == 4) &&
     runs .leafRestartCmd thirdUp (fun t => t.root.window == [] && get1 t ROOT.LEAF_LAST_CAUSE 0 == 5) &&
     runs .wdtKick up (fun t => t.root.kick == 1000) && idle .wdtKick (leafSt 3)) = true := by decide +kernel

/-- The debug strap high, and the policy's scope. -/
def strapUp : State := polSet { up with straps := ⟨false, false, false, true⟩ } DBG.SCOPE_LEAF_HALT 0 0 0 1

theorem test_LeafFaultsAndDebug_debug :
    (strapUp.straps.debug && debugScope strapUp == 4 && !up.straps.debug &&
        debugScope { up with straps := strapUp.straps } == 0 &&
     runs .debugRequest strapUp (fun t => t.root.grantEnd == some 28801000 && get1 t DBG.STATUS_GRANTED 0 == 1 &&
        raised t .dbg 0 0) && runs .debugRequest up (fun t => get1 t DBG.STATUS_REFUSED 0 == 1 && raised t .dbg 0 2) &&
     runs .debugRevoke (modRoot up fun u => { u with grantEnd := some 2000 }) (fun t => t.root.grantEnd == none &&
        raised t .dbg 0 1) &&
     runs .debugExpiry (modRoot up fun u => { u with grantEnd := some 1000 }) (fun t => t.root.grantEnd == none) &&
     idle .debugExpiry (modRoot up fun u => { u with grantEnd := some 1001 }) && idle .debugRevoke up &&
        idle .debugExpiry up) = true := by decide +kernel

/-! ### The gate, the journal and the black box -/

/-- Channel 11 with its QL from a node of the shelf bus; instance 3 on port 1, feeding channel 11, with UTC of a valid parent; 256
calls wait. -/
def gateUp : State :=
  modPtp (polSet (polSet (polSet (polSet up CHAN.QL_SRC 11 0 0 3) CHAN.QL_NODE 11 0 0 31) PTPTS.CFG_EN 1 3 0 1) PTPTS.CFG_FEED 1 3 0 2) 3
    fun u => { u with utcOk := true }
def callsUp : State := { gateUp with gate := { queue := List.replicate 256 (1001, .time 3 3 1) } }

/-- MPD of instance 3 in port 1's page, a word that PAGE_REPORT may write alone; and its STATE. -/
def mpdAddr : Nat := fldAddr PTPTS.MPD 1 3 0
def stAddr : Nat := fldAddr PTPTS.STATE_CLOSED 1 3 0

theorem test_GateCalls_bounds :
    (shaped gateUp && leafRuns gateUp && !leafRuns (set1 up ROOT.STATUS_LEAF 0 5) && dueOf gateUp 1229 == 1001 &&
     gateCheck gateUp 1001 (.ql 11 3 31 15 (some 255) true) == none &&
        gateCheck gateUp 1001 (.ql 11 3 30 15 none true) == some 9 &&
     gateCheck gateUp 1001 (.ql 12 3 31 15 none true) == some 9 &&
     gateCheck gateUp 1001 (.pkt 3 11 1000 5 (1 / 2000)) == none && gateCheck gateUp 1001 (.pkt 3 10 1000 5 0) == some 2 &&
     gateCheck gateUp 1001 (.time 3 3 1000000) == none && gateCheck gateUp 1001 (.time 3 2 0) == some 2 &&
     gateCheck gateUp 1001 (.utc 3 3 255 true false) == none && gateCheck gateUp 1001 (.utc 3 3 256 true false) == some 1 &&
     gateCheck gateUp 1001 (.page mpdAddr 7) == none && gateCheck gateUp 1001 (.page 4 7) == some 2 &&
     leafWord mpdAddr == [(PTPTS.MPD, 1, 3)]) = true := by decide +kernel

theorem test_GateCalls_acts :
    (runs (.qlDeliver 11 3 31 15 (some 255) 1229) gateUp (fun t => t.gate.queue.map (fun x => x.1) == [1001]) &&
     runs (.timeChange 3 3 1000000 1230) gateUp (fun t => t.gate.queue.map (fun x => x.1) == [1002]) &&
     runs (.timeChange 3 3 1000000 0) callsUp (fun t => t.gate.res == 8) && idle (.timeChange 3 3 0 0) (leafSt 1) &&
     runs (.pktEstimate 3 10 1000 5 0 0) gateUp (fun t => t.gate.queue == [] && t.gate.res == 2 &&
        oneMore gateUp t ROOT.GATE_REFUSE_CNT 0 0) &&
     runs (.utcUpdate 3 3 256 true false 0) gateUp (fun t => t.gate.res == 1 && get1 t ROOT.GATE_LAST_CALL 0 == 4) &&
     runs (.pageReport mpdAddr 7 0) gateUp (fun t => t.gate.res == 0) &&
     (chanOf (gateAct gateUp (.ql 11 3 31 2 none true)) 11).qlLeft.isSome &&
        getF (gateAct gateUp (.ql 11 3 31 2 none true)) SEL.CHAN_QL_ECODE 0 11 0 == 255 &&
     get1 (gateAct gateUp (.utc 3 3 (-1) false true)) TIME.UTC_OFS 3 == 0xFFFF &&
     (pktOf (gateAct gateUp (.pkt 3 11 1000 5 0)) 1).fe == some 1000 &&
     (timeOf (gateAct gateUp (.time 3 3 9)) 3).reqs.length == 1 &&
     getF (gateAct gateUp (.page mpdAddr 7)) PTPTS.MPD 1 3 0 == 7 &&
     leafWord stAddr != [] && gateCheck gateUp 1000 (.page stAddr 0x3100) == none &&
        raised (gateAct gateUp (.page stAddr 0x3100)) .ptpts 1 0) = true := by decide +kernel

/-- One entry waits; 63 entries wait, and a loss beside them. -/
def anEntry : JEntry := ⟨999, 0x800, some 3, 0x40, 0, 0xDEADBEEF⟩
def entryUp : State := set1 { up with jrn := { queue := [anEntry] } } BBOX.WR_SEQ 0 4097
def lossUp : State := { up with frn := 15999, jrn := { queue := List.replicate 63 anEntry, lost := [(998, 2)], supp := [(0x800, 3)] } }

theorem test_entry_inv : Inv entryUp ∧ Inv lossUp :=
  ⟨⟨shaped_iff _ (by decide +kernel), by decide, by decide⟩, ⟨shaped_iff _ (by decide +kernel), by decide, by decide +kernel⟩⟩

/-- The second's 64 calls are used; a code's 256 entries are; the last entry of a block of the journal is next. -/
def callsUsed : State := { up with gate := { jrn := (0, 64) } }
def suppUp : State := { up with jrn := { counts := [(0x800, 256)] } }
def sealUp : State := set1 (modCellar entryUp fun u => { u with held18 := true }) BBOX.WR_SEQ 0 4351

theorem test_JournalAndBlackBox :
    (runs (.journal 0xFFE 3 0xFFFFFFFF) up (fun t => t.jrn.queue == [⟨1000, 0xFFE, some 3, 0x40, 0, 0xFFFFFFFF⟩] &&
        t.gate.res == 0) && runs (.journal 0xFFF 3 0) up (fun t => t.jrn.queue == [] && t.gate.res == 1) &&
     runs (.journal 0x7FF 3 0) up (fun t => t.gate.res == 1) && runs (.journal 0x800 4 0) up (fun t => t.gate.res == 1) &&
     runs (.journal 0x800 0 0) callsUsed (fun t => t.gate.res == 5) &&
        runs (.journal 0x800 0 0) { callsUsed with frn := 8000 } (fun t => t.gate.res == 0) &&
     idle (.journal 0x800 0 0) (leafSt 1) &&
     runs (.journal 0x800 0 0) suppUp (fun t => t.jrn.supp == [(0x800, 1)] && oneMore suppUp t BBOX.SUPPRESS_CNT 0 0) &&
     runs (.journal 0x800 0 0) { up with jrn := { queue := List.replicate 64 anEntry } } (fun t =>
        t.jrn.lost == [(1000, 1)] && oneMore up t BBOX.QLOST_CNT 0 0) &&
     runs .bboxEntryWrite entryUp (fun t => t.jrn.queue == [] && get1 t BBOX.WR_SEQ 0 == 4098 && get1 t BBOX.WR_IDX 0 == 2 &&
        memBytes t 0x8E0010 16 == [0xE7, 3, 0, 0, 0, 0, 0, 0x38, 0x40, 0, 1, 0x10, 0xEF, 0xBE, 0xAD, 0xDE]) &&
     runs .bboxEntryWrite sealUp (fun t => t.cellar.run.isSome || t.cellar.queue.length == 1) && idle .bboxEntryWrite up &&
     runs .queueLost lossUp (fun t => t.jrn.queue.length == 64 && t.jrn.lost == []) && windowLast lossUp && !windowLast up &&
     idle .queueLost up && idle .suppressionWindowEnd up &&
     runs .suppressionWindowEnd lossUp (fun t => t.jrn.supp == []) && belowWm (set1 up BBOX.WR_SEQ 0 3071) &&
     runs (.rdSeqWrite 0xFFFFFFFF) (set1 up BBOX.WR_SEQ 0 3071) (fun t => get1 t BBOX.RD_SEQ 0 == 0xFFFFFFFF &&
        unread t == 3072 && raised t .bbox 0 0)) = true := by decide +kernel

/-! ### Ethernet -/

/-- Port 1 in mode 2 with its link up, its PCS locked and a MAC address; instance 3 on it; and the same port disabled. -/
def portUp1 : State :=
  set1 (set1 (polSet (polSet (polSet (polSet (polSet up ETH.MODE_MODE 1 0 0 2) ETH.MAC_LO 1 0 0 0x33445566) ETH.MAC_HI 1 0 0 0x1122)
    PTPTS.CFG_EN 1 3 0 1) CHAN.QL_SRC 11 0 0 2) ETH.STATUS_LINK 1 1) ETH.STATUS_PCS_LOCK 1 1
def portOff : State := set1 portUp1 ETH.CTRL_ENABLE 1 0

/-- The same, down; its calibration of 8000 frames over. -/
def portDown : State := set1 portUp1 ETH.STATUS_LINK 1 0
def calEth : State := { portUp1 with frn := 8000 }

/-- 60 bytes before the FCS to the port's own address: an ESMC PDU, and a frame of an unknown EtherType. -/
def esmcBytes : List Nat :=
  [0x11, 0x22, 0x33, 0x44, 0x55, 0x66, 1, 2, 3, 4, 5, 6, 0x88, 0x09, 0x0A, 0, 0x19, 0xA7, 0, 1, 0x10] ++ List.replicate 39 0
def otherBytes : List Nat :=
  [0x11, 0x22, 0x33, 0x44, 0x55, 0x66, 1, 2, 3, 4, 5, 6, 0x12, 0x34] ++ List.replicate 46 0

/-- An ESMC PDU that the port sends: from its own address to the slow protocols' group. -/
def sendBytes : List Nat :=
  [1, 0x80, 0xC2, 0, 0, 2, 0x11, 0x22, 0x33, 0x44, 0x55, 0x66, 0x88, 0x09, 0x0A, 0, 0x19, 0xA7, 0, 1, 0x10] ++ List.replicate 39 0

/-- A Sync from the port's address over Ethernet, in domain 24; a Delay_Req of the same. -/
def syncBytes : List Nat :=
  [1, 0x1B, 0x19, 0, 0, 0, 0x11, 0x22, 0x33, 0x44, 0x55, 0x66, 0x88, 0xF7, 0, 0x12, 0, 44, 24] ++ List.replicate 41 0
def reqBytes : List Nat :=
  [1, 0x1B, 0x19, 0, 0, 0, 0x11, 0x22, 0x33, 0x44, 0x55, 0x66, 0x88, 0xF7, 1, 0x12, 0, 44, 24] ++ List.replicate 41 0

theorem test_EthernetPorts_link :
    (shaped portUp1 && portUp portUp1 1 && portMode portOff 1 == 2 && !portEnabled portOff 1 && portEnabled portUp1 1 &&
        portInsts portUp1 1 == [3] &&
     runs (.portEnable 1) portOff (fun t => get1 t ETH.CTRL_ENABLE 1 == 1 && getF t PTPTS.STATE_PORT 1 3 0 == 1) &&
     runs (.portEnable 1) portUp1 (fun t => portUp t 1) && runs (.portEnable 1) up (fun t => get1 t ETH.CTRL_ENABLE 1 == 1) &&
        portMode up 1 == 0 &&
     runs (.portDisable 1) portUp1 (fun t => get1 t ETH.STATUS_LINK 1 == 0 && oneMore portUp1 t ETH.LINK_CNT 1 0 &&
        raised t .eth 1 0) && runs (.restartAn 1) portUp1 (fun t => (ethOf t 1).an) && idle (.restartAn 1) up &&
     get1 portUp1 PWR.STATUS_PF 0 != 1 && !txclkStopped portUp1 1 &&
     runs (.pcsLock 1 true) portDown (fun t => get1 t ETH.STATUS_LINK 1 == 1 && raised t .eth 1 1 &&
        (ethOf t 1).calFrom == 1000) &&
     runs (.pcsLock 1 false) portUp1 (fun t => get1 t ETH.STATUS_SPEED_BAD 1 == 1 && !portUp t 1 && raised t .eth 1 0) &&
     idle (.pcsLock 1 true) portOff && idle (.pcsLock 1 true) (set1 portDown PWR.STATUS_PF 0 1) &&
     runs (.pcsLockLoss 1) portUp1 (fun t => get1 t ETH.STATUS_LINK 1 == 0 && raised t .eth 1 0) &&
        idle (.pcsLockLoss 1) portDown &&
     laneFor calEth 9 == some 9 && get1 calEth ETH.STATUS_PCS_LOCK 1 == 1 && get1 calEth ETH.STATUS_TS_VALID 1 == 0 &&
        decide ((ethOf calEth 1).calFrom + 8000 ≤ calEth.frn) &&
     laneFor { calEth with lanes := calEth.lanes.map fun l => { l with func := none } } 9 == none &&
     idle (.calDone 1 5 7) { calEth with frn := 7999 } && idle (.calDone 1 5 7) up) = true := by decide +kernel

theorem test_EthernetPorts_frames :
    (areBytes esmcBytes && dropClass portUp1 1 ⟨esmcBytes, true, 0, 0⟩ == none &&
        dropClass portUp1 1 ⟨esmcBytes, false, 0, 0⟩ == some 0 &&
     dropClass portUp1 1 ⟨esmcBytes.take 59, true, 0, 0⟩ == some 1 && dropClass portUp1 1 ⟨otherBytes, true, 0, 0⟩ == some 4 &&
     runs (.ethFrameReceive 1 ⟨esmcBytes, true, 0, 0⟩) portUp1 (fun t => oneMore portUp1 t ETH.RX_CNT 1 0 &&
        (ethOf t 1).bucket == 252) &&
     runs (.ethFrameReceive 1 ⟨otherBytes, true, 0, 0⟩) portUp1 (fun t => oneMore portUp1 t ETH.DROP_CNT 1 4) &&
     idle (.ethFrameReceive 1 ⟨esmcBytes, true, 0, 0⟩) portDown &&
     runs (.ethFrameReceive 1 ⟨esmcBytes, true, 0, 0⟩) (modEth portUp1 1 fun u => { u with bucket := 3 }) (fun t =>
        oneMore portUp1 t ETH.DROP_CNT 1 8 && (ethOf t 1).flood && raised t .eth 1 3) &&
     runs (.ethFrameReceive 1 ⟨esmcBytes, true, 0, 0⟩) (set1 portUp1 ROOT.STATUS_LEAF 0 1) (fun t =>
        oneMore portUp1 t ETH.DROP_CNT 1 8 && (ethOf t 1).bucket == 256) &&
     (ethKind esmcBytes == .esmc 14) && runs (.ethFrameReceive 1 ⟨esmcBytes.set 20 0x20, true, 0, 0⟩) portUp1 (fun t =>
        oneMore portUp1 t ETH.DROP_CNT 1 6) &&
     isEvent syncBytes && dropClass portUp1 1 ⟨syncBytes, true, 0, 0⟩ == none && domainInst portUp1 1 24 == none &&
     runs (.ethFrameReceive 1 ⟨syncBytes, true, 999, 63999999⟩) portUp1 (fun t => (ethOf t 1).fifo.length == 1 &&
        oneMore portUp1 t PTPTS.RX_TS_CNT 1 0 && oneMore portUp1 t ETH.DROP_CNT 1 7) &&
     runs (.ethFrameReceive 1 ⟨syncBytes, true, 999, 0⟩) (modEth portUp1 1 fun u =>
    
        { u with fifo := List.replicate 256 ⟨0, none, true⟩ }) (fun t => (ethOf t 1).fifo.length == 256 &&
        oneMore portUp1 t PTPTS.FIFO_OVF_CNT 1 0)) = true := by decide +kernel

theorem test_EthernetPorts_sent :
    (esmcOk 0x0019A7 1 1 && !esmcOk 0x0019A7 1 2 && ((List.range 12).filter fun c => qlSrc portUp1 c == 2) == [11] &&
     runs (.esmcPduReceive 1 ⟨0x0019A7, 1, 2, false, 2, none⟩ 0) portUp1 (fun t => oneMore portUp1 t ETH.DROP_CNT 1 6) &&
     runs (.esmcPduReceive 1 ⟨0x0019A7, 1, 1, true, 15, some ⟨255, 7, 3, (1, 2)⟩⟩ 1249) portUp1 (fun t =>
        t.gate.queue.map (fun x => x.1) == [1002] && (ethOf t 1).tlv == some ⟨255, 7, 3, (1, 2)⟩) &&
     idle (.esmcPduReceive 1 ⟨0x0019A7, 1, 1, true, 15, none⟩ 0) portDown &&
     esmcOn (polSet portUp1 ETH.ESMC_CFG_TX_EN 1 0 0 1) 1 && esmcCodes portUp1 1 == (0xB, 0xFF) &&
     runs (.esmcInfoPdu 1) (polSet portUp1 ETH.ESMC_CFG_TX_EN 1 0 0 1) (fun t => get1 t ETH.ESMC_TX_SSM 1 == 0xB &&
        oneMore portUp1 t ETH.TX_CNT 1 0) &&
     runs (.esmcEventPdu 1) (set1 (polSet portUp1 ETH.ESMC_CFG_TX_EN 1 0 0 1) ETH.ESMC_TX_SSM 1 2) (fun t =>
        get1 t ETH.ESMC_TX_SSM 1 == 0xB) &&
     idle (.esmcEventPdu 1) (set1 (polSet portUp1 ETH.ESMC_CFG_TX_EN 1 0 0 1) ETH.ESMC_TX_SSM 1 0xB) &&
        idle (.esmcInfoPdu 1) portUp1 && idle (.esmcEventPdu 1) portUp1 &&
     beAt sendBytes 6 6 == portMac portUp1 1 && (ethKind sendBytes).admitted && ptpType sendBytes == none &&
        !heldBack portUp1 1 sendBytes &&
     runs (.txFrame 3 1 ⟨sendBytes, 0, 0⟩) portUp1 (fun t => t.gate.res == 0 && (ethOf t 1).tx == sendBytes &&
        oneMore portUp1 t ETH.TX_CNT 1 0) &&
     runs (.txFrame 3 1 ⟨otherBytes, 0, 0⟩) portUp1 (fun t => t.gate.res == 1) &&
        runs (.txFrame 3 2 ⟨sendBytes, 0, 0⟩) portUp1 (fun t => t.gate.res == 1) &&
     runs (.txFrame 3 1 ⟨sendBytes, 0, 0⟩) (modEth portUp1 1 fun u => { u with txSec := (0, 4000) }) (fun t =>
        t.gate.res == 5) &&
     ptpType syncBytes == some 0 && runs (.txFrame 3 1 ⟨syncBytes, 0, 0⟩) (modPtp portUp1 3 fun u =>
        { u with syncSec := (0, 128) }) (fun t => t.gate.res == 5) &&
     runs (.txFrame 3 1 ⟨syncBytes, 0, 0⟩) portUp1 (fun t => t.gate.res == 0 && (ethOf t 1).tx == [] &&
        (ptpOf t 3).syncSec == (0, 1)) &&
     heldBack portUp1 1 reqBytes && runs (.txFrame 3 1 ⟨reqBytes, 0, 0⟩) portUp1 (fun t => t.gate.res == 0 &&
        (ethOf t 1).tx == []) &&
     runs (.txFrame 3 1 ⟨reqBytes, 7, 9⟩) (set1 portUp1 ETH.STATUS_TS_VALID 1 1) (fun t => (ethOf t 1).left.isSome &&
        oneMore portUp1 t PTPTS.TX_TS_CNT 1 0) &&
     idle (.txFrame 3 1 ⟨sendBytes, 0, 0⟩) (set1 portUp1 ROOT.STATUS_LEAF 0 1)) = true := by decide +kernel

/-! ### PTP -/

/-- Instance 3 on port 1 with valid timestamps, SLAVE of the clock 0xABCD, in domain 24; the same as MASTER. -/
def ptpUp : State :=
  setF (setF (set1 (polSet portUp1 PTPTS.CFG_DOMAIN 1 3 0 24) ETH.STATUS_TS_VALID 1 1) PTPTS.STATE_PORT 1 3 0 8) PTPTS.PARENT_LO 1 3 0 0xABCD
def mstUp : State := setF ptpUp PTPTS.STATE_PORT 1 3 0 5

/-- A message of that clock, one-step or two-step; of a kind that Table 12.4 does not support. -/
def msg (two : Bool) : PtpMsg := ⟨1, 2, 1, 24, 0xABCD, 1, 7, two, false, 0, 1000, 64000000 - 1⟩
def oddMsg : PtpMsg := { msg false with odd := true }

def accepts (s : State) (p : Nat) (m : PtpMsg) : Bool :=
  PtpMsg.ok m && leafRuns s && portUp s m.port && instOn s m.port p && !instClosed s p &&
  m.domainNumber == getF s PTPTS.CFG_DOMAIN m.port p 0 && m.version == 2 && decide (m.minorVersion ≤ 1) && !m.odd

theorem accepts_iff (s : State) (p : Nat) (m : PtpMsg) (h : accepts s p m = true) : PtpAccepts s p m := by
  simp only [accepts, Bool.and_eq_true, beq_iff_eq, decide_eq_true_eq, Bool.not_eq_true'] at h
  obtain ⟨⟨⟨⟨⟨⟨⟨⟨a, b⟩, c⟩, d⟩, e⟩, f⟩, g⟩, i⟩, j⟩ := h
  exact ⟨a, b, c, d, e, f, g, i, j⟩

/-- A two-step Sync that waits since one second; an acceptable-master table of another clock; the instance closed; one that feeds
channel 10; one of profile 1. -/
def pendUp : State := modPtp { ptpUp with frn := 9000 } 3 fun u => { u with pend := some ⟨1, 7, 0xABCD, 1000, 0, 1000⟩ }
def amtUp : State := polSet ptpUp PTPTS.AMT_LO 1 3 7 5
def shutUp : State := setF ptpUp PTPTS.STATE_CLOSED 1 3 0 1
def feedUp : State := polSet ptpUp PTPTS.CFG_FEED 1 3 0 1
def peerUp : State := polSet mstUp PTPTS.CFG_PROFILE 1 3 0 1

theorem test_PtpReceive_rejects :
    (shaped ptpUp && accepts ptpUp 3 (msg true) && masterOk ptpUp 1 3 0xABCD && !masterOk amtUp 1 3 0xABCD &&
        instClosed shutUp 3 &&
     idle (.delayReqReceive 3 (msg false)) (set1 ptpUp ROOT.STATUS_LEAF 0 1) &&
        idle (.delayReqReceive 3 (msg false)) shutUp && idle (.delayReqReceive 2 (msg false)) ptpUp &&
     runs (.syncReceive 3 { msg false with domainNumber := 25 } 0 0 0) ptpUp (fun t => oneMore ptpUp t ETH.DROP_CNT 1 7) &&
     runs (.delayReqReceive 3 oddMsg) ptpUp (fun t => oneMore ptpUp t PTPTS.BAD_CNT 1 3) &&
     runs (.pdelayReqReceive 3 { msg false with version := 1 } 0 0) ptpUp (fun t => oneMore ptpUp t PTPTS.BAD_CNT 1 3) &&
     runs (.delayRespReceive 3 { msg false with minorVersion := 2 } 0 0) ptpUp (fun t => oneMore ptpUp t PTPTS.BAD_CNT 1 3) &&
     runs (.syncReceive 3 (msg false) 0 0 0) amtUp (fun t => oneMore amtUp t PTPTS.UNKNOWN_CNT 1 3 &&
        getF t PTPTS.RX_SYNC_CNT 1 3 0 == 0)) = true := by decide +kernel

theorem test_PtpReceive_sync :
    (isSlave ptpUp 1 3 && parentOf ptpUp 1 3 == 0xABCD && tsValid ptpUp 1 && getF ptpUp PTPTS.CFG_FEED 1 3 0 == 0 &&
     accepts pendUp 3 (msg false) && isSlave pendUp 1 3 && tsValid pendUp 1 &&
     runs (.syncReceive 3 (msg true) 0 0 0) ptpUp (fun t =>
        (ptpOf t 3).pend == some ⟨1, 7, 0xABCD, rxStamp ptpUp (msg true), 0, 1000⟩ && oneMore ptpUp t PTPTS.RX_SYNC_CNT 1 3) &&
     runs (.syncReceive 3 (msg false) 0 0 0) ptpUp (fun t => oneMore ptpUp t PTPTS.RX_SYNC_CNT 1 3 &&
        getF t PTPTS.STATE_PORT 1 3 0 == 8 && (ptpOf t 3).arrival == rxStamp ptpUp (msg false)) &&
     runs (.syncReceive 3 (msg false) 0 0 0) mstUp (fun t => oneMore mstUp t PTPTS.RX_SYNC_CNT 1 3 &&
        (ptpOf t 3).pend == none && (ptpOf t 3).arrival == 0) &&
     gateCheck feedUp 1001 (.pkt 3 10 1000 0 0) == none && runs (.syncReceive 3 (msg false) 0 0 0) feedUp (fun t =>
        oneMore feedUp t PTPTS.EST_CNT 1 3 && t.gate.queue.length == 1) && domRuns (set1 feedUp DPLL.STATUS_STATE 3 0) 3 &&
     runs (.followUpReceive 3 (msg false) 0 0 0) pendUp (fun t => (ptpOf t 3).pend == none && (ptpOf t 3).arrival == 1000) &&
     runs (.followUpReceive 3 (msg false) 0 0 0) { pendUp with frn := 9001 } (fun t => (ptpOf t 3).pend == none &&
        (ptpOf t 3).arrival == 0) &&
     idle (.followUpReceive 3 { msg false with seqId := 8 } 0 0 0) pendUp &&
        idle (.followUpReceive 3 (msg false) 0 0 0) ptpUp &&
     runs (.followUpTimeout 3) pendUp (fun t => (ptpOf t 3).pend == none)) = true := by decide +kernel

/-- An Announce with the best master it makes; instance 3 in the role of a boundary clock, and only a master. -/
def ann (b : BestMaster) : AnnounceBody := ⟨6, 65535, true, 37, false, false, b⟩
def roleUp (r st : Nat) : State := setF (polSet ptpUp PTPTS.CFG_ROLE 1 3 0 r) PTPTS.STATE_PORT 1 3 0 st

/-- LISTENING, with another parent before. -/
def listenUp : State := setF (setF ptpUp PTPTS.PARENT_LO 1 3 0 5) PTPTS.STATE_PORT 1 3 0 4

theorem test_PtpReceive_announce :
    (getF ptpUp PTPTS.CFG_ROLE 1 3 0 == 0 && instPorts ptpUp 3 == [1] && parentOf listenUp 1 3 == 5 &&
        accepts (roleUp 3 8) 3 (msg false) &&
     runs (.announceReceive 3 (msg false) (ann .parent) 0) ptpUp (fun t => getF t PTPTS.STATE_PORT 1 3 0 == 8 &&
        getF t PTPTS.GM_STEPS 1 3 0 == 65535 && t.gate.queue.length == 1) &&
     runs (.announceReceive 3 (msg false) (ann .same) 0) ptpUp (fun t => getF t PTPTS.GM_CLASS 1 3 0 == 6) &&
     runs (.announceReceive 3 (msg false) (ann .parent) 0) listenUp (fun t => getF t PTPTS.STATE_PORT 1 3 0 == 7 &&
        parentOf t 1 3 == 0xABCD && raised t .ptpts 1 1) &&
     runs (.announceReceive 3 (msg false) (ann (.master 0)) 0) (roleUp 3 8) (fun t => getF t PTPTS.STATE_PORT 1 3 0 == 5 &&
        parentOf t 1 3 == 0) &&
     runs (.announceReceive 3 (msg false) (ann (.master 2)) 0) (roleUp 3 3) (fun t => getF t PTPTS.STATE_PORT 1 3 0 == 4 &&
        (kvGet (ptpOf t 3).pre 1).isSome) &&
     runs (.announceReceive 3 (msg false) (ann .passive) 0) (roleUp 3 8) (fun t => getF t PTPTS.STATE_PORT 1 3 0 == 6 &&
        parentOf t 1 3 == 0) &&
     idle (.announceReceive 3 (msg false) (ann .parent) 0) (roleUp 2 8) &&
        idle (.announceReceive 3 (msg false) (ann .same) 0) listenUp &&
     idle (.announceReceive 3 (msg false) (ann .passive) 0) ptpUp &&
        idle (.announceReceive 3 (msg false) (ann (.master 0)) 0) (roleUp 3 5) &&
     idle (.announceReceive 3 (msg false) (ann (.master 0)) 0) ptpUp &&
     runs (.announceReceiptTimeout 3) ptpUp (fun t => getF t PTPTS.STATE_PORT 1 3 0 == 3 && parentOf t 1 3 == 0 &&
        getF t PTPTS.GM_CLASS 1 3 0 == 255) &&
     runs (.announceReceiptTimeout 3) (roleUp 3 8) (fun t => getF t PTPTS.STATE_PORT 1 3 0 == 5) &&
        runs (.announceReceiptTimeout 3) mstUp (fun t => getF t PTPTS.STATE_PORT 1 3 0 == 5) &&
     idle (.announceReceiptTimeout 3) (set1 ptpUp ROOT.STATUS_LEAF 0 1)) = true := by decide +kernel

/-- An instance of profile 3 with 31 slaves granted, each at one message per second; 128 Syncs sent in the last second; a request
that has left. -/
def grantUp : State :=
  modPtp (polSet mstUp PTPTS.CFG_PROFILE 1 3 0 3) 3 fun u => { u with grants := (List.range 31).map fun i => (i, (0 : Int), 2000) }
def syncsUp (f : Nat) : State := modPtp { mstUp with frn := 9000 } 3 fun u => { u with syncs := List.replicate 128 f }
def depUp (s : State) : State := modPtp s 3 fun u => { u with dep := some (64064000000 - 121), arrival := 64064000000 - 121 }

/-- Closed at a frame, 60 s before 481000. -/
def closedUp (f : Nat) : State := modPtp { shutUp with frn := 481000 } 3 fun u => { u with closes := [f] }

theorem test_PtpSend_answers :
    (shaped mstUp && serves mstUp 3 1 && accepts mstUp 3 (msg false) && tsValid mstUp 1 && serves grantUp 3 1 &&
        ptpType syncBytes == some 0 &&
     runs (.announceTransmit 3 1) mstUp (fun t => (ptpOf t 3).sent.isSome && oneMore mstUp t ETH.TX_CNT 1 0) &&
        idle (.announceTransmit 3 1) ptpUp &&
     runs (.delayReqReceive 3 (msg false)) mstUp (fun t => (ptpOf t 3).sent.isSome && oneMore mstUp t ETH.TX_CNT 1 0) &&
     idle (.delayReqReceive 3 (msg false)) peerUp && idle (.delayReqReceive 3 (msg false)) ptpUp &&
        idle (.delayReqReceive 3 (msg false)) (set1 mstUp ETH.STATUS_TS_VALID 1 0) &&
     runs (.pdelayReqReceive 3 (msg false) 1001 0) peerUp (fun t => (ptpOf t 3).sent == some (.pdelay true 0 0 0 128) &&
        (ethOf t 1).left.isSome) &&
     idle (.pdelayReqReceive 3 (msg false) 1001 0) mstUp &&
        idle (.pdelayReqReceive 3 (msg false) 1001 0) (set1 peerUp ETH.STATUS_TS_VALID 1 0) &&
     runs (.delayRespReceive 3 (msg false) 10 30) (depUp peerUp) (fun t => getF t PTPTS.MPD 1 3 0 == 50) &&
     runs (.delayRespReceive 3 (msg false) 10 30) (depUp ptpUp) (fun t => getF t PTPTS.MPD 1 3 0 == 10) &&
     idle (.delayRespReceive 3 (msg false) 10 30) ptpUp && idle (.delayRespReceive 3 (msg false) 10 30) (depUp mstUp) &&
     runs (.delayReqTransmit 3 ⟨1, 7, 9⟩) ptpUp (fun t => oneMore ptpUp t PTPTS.TX_TS_CNT 1 0 &&
        (ptpOf t 3).dep == some (txRaw ptpUp 1 7 9)) && idle (.delayReqTransmit 3 ⟨1, 7, 9⟩) mstUp) = true := by decide +kernel

theorem test_PtpSend_serves :
    (runs (.unicastRequest 3 1 77 0 60) grantUp (fun t => (ptpOf t 3).grants.length == 32 &&
        (ptpOf t 3).sent == some (.grant 77 60)) &&
     runs (.unicastRequest 3 1 77 (-7) 60) grantUp (fun t => (ptpOf t 3).grants.length == 31 &&
        (ptpOf t 3).sent == some (.grant 77 0)) &&
     runs (.unicastRequest 3 1 77 0 0) grantUp (fun t => (ptpOf t 3).sent == some (.grant 77 0)) &&
        idle (.unicastRequest 3 1 77 0 60) mstUp &&
     runs (.syncTransmit 3 1 syncBytes 1000 0) mstUp (fun t => oneMore mstUp t PTPTS.TX_SYNC_CNT 1 3 &&
        (ptpOf t 3).syncs == [1000]) &&
     idle (.syncTransmit 3 1 syncBytes 1000 0) (set1 mstUp ETH.STATUS_TS_VALID 1 0) &&
        idle (.syncTransmit 3 1 reqBytes 1000 0) mstUp &&
     idle (.syncTransmit 3 1 syncBytes 1000 0) (syncsUp 1001) &&
        runs (.syncTransmit 3 1 syncBytes 1000 0) (syncsUp 1000) (fun t => (ptpOf t 3).syncs == [9000]) &&
     instClosed shutUp 3 && runs (.ptpReopen 3) (closedUp 1000) (fun t => !instClosed t 3) &&
        idle (.ptpReopen 3) (closedUp 1001) &&
     idle (.ptpReopen 3) (modPtp shutUp 3 fun u => { u with held := true }) &&
        idle (.ptpReopen 3) ptpUp) = true := by decide +kernel

/-! ### The shelf bus -/

/-- Node 3 of a shelf, elected, not isolated, the transceiver supplied, at FRN 93 where its STATUS is due; QL_FWD and TOD on; every
alert masked in; and the same isolated, and at a frame where nothing is due. -/
def busUp : State :=
  set1 (polSet (polSet (polSet (polSet (set1 (set1 { up with frn := 93, shelf := { tod := some (5, 0) } } SHELF.NODE 0 3) SHELF.STATUS_ROLE 0 2)
    SHELF.CFG_ELECT_EN 0 0 0 1) SHELF.TX_CFG_QLF_EN 0 0 0 1) SHELF.TX_CFG_TOD_EN 0 0 0 1) SHELF.TX_CFG_ALERT_MASK 0 0 0 0xFE) PWR.HOLDUP 0 12000
def muteUp : State := set1 busUp SHELF.STATUS_ROLE 0 3
def calmUp : State := { busUp with frn := 94, shelf := { elSent := some (electBody busUp (claimOf busUp)), qlSent := some (qlfCodes busUp) } }

theorem test_ShelfSend_messages :
    (shaped busUp && leafRuns busUp && maySend busUp && !maySend muteUp && onSchedule busUp 1000 0 && electDue busUp &&
        electEn busUp && qlfDue busUp &&
     runs .shelfStatusTx busUp (fun t => (t.shelf.onBus.map fun x => x.1) == some 4 && t.shelf.seqs.getD 4 0 == 1) &&
     runs .shelfElectTx busUp (fun t => t.shelf.elSent == some (electBody busUp 1)) &&
     runs .shelfQlFwdTx busUp (fun t => sent t 2 [0, 0xB, 0xFF, 0]) &&
     runs .shelfTodTx busUp (fun t => t.shelf.tod == none && (t.shelf.onBus.map fun x => x.1) == some 3) &&
     runs .shelfTodTx { (modTime busUp 0 fun u => { u with rolled := some 9 }) with shelf := {} } (fun t =>
        (t.shelf.onBus.map fun x => x.1) == some 3) &&
     runs (.alert 7 3 3 0xFFFFFFFF) busUp (fun t => sent t 0 [0, 7, 0x33, 0, 0xFF, 0xFF, 0xFF, 0xFF]) &&
     bitOf (get1 busUp SHELF.TX_CFG_ALERT_MASK 0) 1 && !bitOf (get1 up SHELF.TX_CFG_ALERT_MASK 0) 1 &&
     runs (.shelfTx 6 [1, 2, 3, 0]) busUp (fun t => sent t 6 [1, 2, 3, 0] && t.gate.res == 0) &&
        get1 busUp SHELF.STATUS_FC 0 == 0 &&
     runs (.shelfTx 0 []) busUp (fun t => t.gate.res == 1) && runs (.shelfTx 7 []) busUp (fun t => t.gate.res == 1) &&
     runs (.shelfTx 6 (List.replicate 65 0)) busUp (fun t => t.gate.res == 1) && runs (.shelfTx 6 []) muteUp (fun t =>
        t.gate.res == 7) &&
     runs (.shelfTx 6 []) (set1 busUp SHELF.STATUS_FC 0 2) (fun t => t.gate.res == 7) &&
        idle (.shelfTx 6 []) (leafSt 1)) = true := by decide +kernel

theorem test_ShelfSend_not :
    (idle .shelfStatusTx muteUp && idle .shelfStatusTx calmUp && !electDue calmUp && !qlfDue calmUp &&
     idle .shelfElectTx calmUp && idle .shelfElectTx up && idle .shelfQlFwdTx calmUp && idle .shelfQlFwdTx up &&
        idle .shelfTodTx calmUp && idle .shelfTodTx up &&
     runs .shelfElectTx muteUp (fun t => t.shelf.elSent == some (electBody muteUp (claimOf muteUp)) &&
        t.shelf.onBus == none) &&
     runs .shelfQlFwdTx muteUp (fun t => t.shelf.qlSent == some (qlfCodes muteUp) && t.shelf.onBus == none) &&
     runs .shelfTodTx muteUp (fun t => t.shelf.onBus == none && t.shelf.bufs == []) &&
     idle (.alert 1 0 0 0) up && idle (.alert 7 0 0 0) muteUp) = true := by decide +kernel

theorem test_ShelfSend_errors :
    (get1 up SHELF.CFG_EN 0 == 1 && get1 up SHELF.STATUS_FC 0 == 0 && !electEn up && idle .silent up &&
     runs .silent busUp (fun t => get1 t SHELF.STATUS_SILENT 0 == 1) &&
     runs (.busOff 511) { up with shelf := { onBus := some (4, [1]) } } (fun t => get1 t SHELF.STATUS_FC 0 == 2 &&
        kvGet t.shelf.bufs 4 == some [1] && oneMore up t SHELF.BUSOFF_CNT 0 0 && raised t .shelf 0 2) &&
     idle (.busOff 0) (set1 up SHELF.STATUS_FC 0 2) && idle (.busOff 0) (polSet up SHELF.CFG_EN 0 0 0 0) &&
        idle .busOffRecovery up &&
     runs .busOffRecovery (set1 (set1 up SHELF.STATUS_FC 0 2) SHELF.TEC_REC_TEC 0 255) (fun t =>
        get1 t SHELF.STATUS_FC 0 == 0 && get1 t SHELF.TEC_REC_TEC 0 == 0) &&
     runs (.errPassive 128 255) up (fun t => get1 t SHELF.STATUS_FC 0 == 1 && get1 t SHELF.TEC_REC_REC 0 == 255 &&
        raised t .shelf 0 3) &&
     idle (.errPassive 128 0) (set1 up SHELF.STATUS_FC 0 1) &&
        idle (.errPassive 128 0) (polSet up SHELF.CFG_EN 0 0 0 0)) = true := by decide +kernel

/-- A frame of a type from node 31, with its payload. -/
def can (type : Nat) (p : List Nat) : CanFrame := ⟨256 * typeClass type + 8 * 31 + type, false, true, false, p⟩

def frameOk (s : State) (f : CanFrame) : Bool :=
  CanFrame.ok f && get1 s SHELF.CFG_EN 0 != 0 && leafRuns s && transceiverOn s && !canUnknown f && canNode f != nodeOf s &&
  bitOf (get1 s SHELF.ROSTER 0) (canNode f)

theorem frameOk_iff (s : State) (f : CanFrame) (h : frameOk s f = true) : FrameOk s f := by
  simp only [frameOk, Bool.and_eq_true, bne_iff_ne, ne_eq, Bool.not_eq_true'] at h
  obtain ⟨⟨⟨⟨⟨⟨a, b⟩, c⟩, d⟩, e⟩, f⟩, g⟩ := h
  exact ⟨a, b, c, d, e, f, g⟩

/-- An ELECT of the group of node 31, its withdrawal, and one of another group. -/
def el (claim group : Nat) : CanFrame := can 1 [0, claim, 15, 5, group, 0, 0, 0]

/-- A shelf where node 31 is ACTIVE, channel 11 takes its QL and remote reads are enabled. -/
def rxUp : State :=
  set1 (set1 (polSet (polSet (polSet busUp CHAN.QL_SRC 11 0 0 3) CHAN.QL_NODE 11 0 0 31) SHELF.CFG_REMOTE_EN 0 0 0 1)
    SHELF.ACTIVE_NODE_NONE 0 0) SHELF.ACTIVE_NODE_ID 0 31

theorem test_ShelfReceive_frames :
    (shaped rxUp && frameOk rxUp (el 1 0) && frameOk rxUp (can 2 [0, 2, 0x21, 3]) &&
        frameOk rxUp (can 3 (List.replicate 16 0)) && frameOk rxUp (can 5 [3, 9, 15, 0, 0, 4, 0, 0]) &&
     runs (.shelfElectRx (el 1 0)) rxUp (fun t => t.shelf.peers.contains ⟨31, 93, 1, 15, 5⟩ && raised t .shelf 0 5) &&
     runs (.shelfElectRx (el 2 0)) (modShelf rxUp fun u => { u with peers := [⟨31, 90, 1, 15, 5⟩] }) (fun t =>
        t.shelf.peers == []) &&
     runs (.shelfElectRx (el 1 15)) rxUp (fun t => t.shelf.peers == [] && kvGet t.shelf.groups 31 == some 15) &&
     ((List.range 12).filter fun c => qlSrc rxUp c == 3 && polVal rxUp.pol CHAN.QL_NODE c 0 0 == 31) == [11] &&
     runs (.shelfQlFwdRx (can 2 [0, 2, 0x21, 3]) 0) rxUp (fun t => t.gate.queue == [(94, .ql 11 3 31 2 (some 0x21) true)] &&
        kvGet t.shelf.qlDoms 31 == some 3) &&
     runs (.shelfTodRx (can 3 ([0, 0, 0, 0, 1] ++ List.replicate 11 0))) rxUp (fun t => get1 t SHELF.PEER_TOD_DIFF 0 == 127) &&
     runs (.shelfTodRx (can 3 (List.replicate 16 0))) (modTime rxUp 0 fun u => { u with t := 127 * secUnit }) (fun t =>
        get1 t SHELF.PEER_TOD_DIFF 0 == 0x81) &&
     runs (.shelfTodRx (can 3 (List.replicate 16 0))) busUp (fun t => get1 t SHELF.PEER_TOD_VALID 0 == 0) &&
     runs (.regReq (can 5 [3, 9, 15, 0, 0, 4, 0, 0])) rxUp (fun t => t.shelf.reqs == [⟨31, 9, 15, 4⟩]) &&
     runs (.regReq (can 5 [4, 9, 15, 0, 0, 4, 0, 0])) rxUp (fun t => t.shelf.reqs == []) &&
     runs (.regReq (can 5 [3, 9, 15, 0, 0, 4, 0, 0])) (modShelf rxUp fun u =>
    
        { u with reqs := List.replicate 4 ⟨30, 0, 1, 4⟩ }) (fun t => t.shelf.reqs.length == 4 &&
        sent t 6 (respBytes 31 9 7 [])) &&
     runs (.regReq (can 5 [3, 9, 15, 0, 0, 4, 0, 0])) (polSet rxUp SHELF.CFG_REMOTE_EN 0 0 0 0) (fun t =>
        oneMore rxUp t SHELF.REMOTE_DENIED_CNT 0 0)) = true := by decide +kernel

theorem test_ShelfReceive_rejects :
    (idle (.shelfElectRx (el 1 0)) (set1 busUp PWR.HOLDUP 0 11999) &&
    
        idle (.shelfElectRx (el 1 0)) (set1 busUp ROOT.STATUS_LEAF 0 1) &&
        idle (.shelfElectRx (el 1 0)) (polSet busUp SHELF.CFG_EN 0 0 0 0) &&
     canUnknown ⟨255, false, true, false, []⟩ && runs (.unknownFrame ⟨255, false, true, false, []⟩) busUp (fun t =>
        oneMore busUp t SHELF.UNKNOWN_CNT 0 0) &&
     idle (.unknownFrame (el 1 0)) busUp && canUnknown (can 1 []) && runs (.shelfElectRx (can 1 [])) busUp (fun t =>
        oneMore busUp t SHELF.UNKNOWN_CNT 0 0) &&
     canNode (can 1 []) == 31 && runs (.shelfElectRx (el 1 0)) (set1 busUp SHELF.NODE 0 31) (fun t =>
        get1 t SHELF.STATUS_NODE_CLASH 0 == 1 && t.shelf.next == some 3 && raised t .shelf 0 1) &&
     runs (.shelfElectRx (el 1 0)) (set1 (set1 busUp SHELF.NODE 0 31) SHELF.STATUS_NODE_CLASH 0 1) (fun t =>
        t.shelf.next == some 3 && raised t .shelf 0 1) &&
     runs (.shelfElectRx (el 1 0)) (polSet busUp SHELF.ROSTER 0 0 0 0x7FFFFFFF) (fun t =>
        oneMore busUp t SHELF.STRANGER_CNT 0 0 && raised t .shelf 0 7) &&
     runs (.peerLost 31) (modShelf busUp fun u => { u with peers := [⟨31, 90, 1, 15, 5⟩] }) (fun t => t.shelf.peers == [] &&
        raised t .shelf 0 4 && sent t 0 [0, 6, 0, 0, 0, 0, 0, 31]) && idle (.peerLost 31) busUp) = true := by decide +kernel

theorem test_ShelfReceive_reads :
    (idle .regResp busUp && runs .regResp (modShelf busUp fun u => { u with reqs := [⟨31, 9, 16, 4⟩] }) (fun t =>
        sent t 6 (respBytes 31 9 6 []) && t.shelf.reqs == []) &&
     runs .regResp (modShelf busUp fun u => { u with reqs := [⟨31, 9, 0, 4⟩] }) (fun t => sent t 6 (respBytes 31 9 6 [])) &&
     runs .regResp (modShelf busUp fun u => { u with reqs := [⟨31, 9, 15, 6⟩] }) (fun t => sent t 6 (respBytes 31 9 5 [])) &&
     runs .regResp (modShelf busUp fun u => { u with reqs := [⟨31, 9, 1, 4⟩] }) (fun t =>
        oneMore busUp t SHELF.REMOTE_CNT 0 0 && (t.shelf.onBus.map fun x => x.2.length) == some 8) &&
     runs .regResp (modShelf muteUp fun u => { u with reqs := [⟨31, 9, 1, 4⟩] }) (fun t => t.shelf.onBus == none) &&
     runs (.regRead 4 2) busUp (fun t => t.gate.res == 0 && t.gate.data.length == 2) && idle (.regRead 4 2) (leafSt 1) &&
     runs (.regRead 0x100000 0) busUp (fun t => t.gate.res == 0) && runs (.regRead 0xFFFFC 2) busUp (fun t =>
        t.gate.res == 3) && runs (.regRead 2 0) busUp (fun t => t.gate.res == 3)) = true := by decide +kernel

end Sys2Proof.Tests
end

/-! Frame discipline: the boundary at which a write acts, and what the reads that a port latches answer and leave behind. -/

namespace Sys2Proof.Machine

/-! ### The boundary of a write (R60, R540) -/

theorem dueOf_running {s : State} (h : s.phase = .running) (cyc : Nat) :
    dueOf s cyc = if cyc < cutoffCyc then s.frn + 1 else s.frn + 2 := by
  unfold dueOf
  rw [h]

theorem dueOf_waiting {s : State} (h : s.phase = .waiting) (cyc : Nat) : dueOf s cyc = 0 := by
  unfold dueOf
  rw [h]

theorem isLate_running {s : State} (h : s.phase = .running) (cyc : Nat) : isLate s cyc = decide (cutoffCyc ≤ cyc) := by
  simp [isLate, h]

theorem isLate_waiting {s : State} (h : s.phase = .waiting) (cyc : Nat) : isLate s cyc = false := by
  simp [isLate, h]

/-- Settles O35: the cutoff of R60 at cycle 1230 is the one branch of `dueOf`, and of `isLate`. -/
theorem writeCutoff : Obligations.WriteCutoff := by
  intro s cyc _
  refine ⟨fun hrun hbefore => ?_, fun hrun hafter => ?_, fun hwait => ?_⟩
  · have hcut : cyc < cutoffCyc := hbefore
    simp [dueOf_running hrun, isLate_running hrun, hcut]
  · have hcut : ¬cyc < cutoffCyc := Nat.not_lt.mpr hafter
    simp [dueOf_running hrun, isLate_running hrun, hcut, Nat.not_lt.mp hcut]
  · exact ⟨dueOf_waiting hwait cyc, isLate_waiting hwait cyc⟩

/-! ### A port's unit of the state -/

@[simp] theorem portOf_modPort_same (s : State) (p : Port) (f : PortSt → PortSt) :
    portOf (modPort s p f) p = f (portOf s p) := by
  cases p <;> rfl

@[simp] theorem portOf_shiftOut (s : State) (p : Port) (l : List Nat) :
    portOf (shiftOut s p l) p = { portOf s p with out := l } := portOf_modPort_same s p _

@[simp] theorem shiftOut_regs (s : State) (p : Port) (l : List Nat) : (shiftOut s p l).regs = s.regs := by
  simp [cite @shiftOut_keeps]

/-- Fetching FRN_LO latches the high word in the reader's shadow of that page (R57, R58). -/
theorem portOf_latchFrn (s : State) (p : Port) (sys : Bool) :
    portOf (latchFrn s (.port p) sys) p = { portOf s p with shadow :=
      if sys then { (portOf s p).shadow with sysFrnHi := frnHi s } else { (portOf s p).shadow with frnHi := frnHi s } } :=
  portOf_modPort_same s p _

/-! ### The time at a fetch (R358) -/

/-- What the spec leaves open, the place within a cycle, is less than one whole. -/
theorem drawFree_lt (s : State) : (drawFree s).1 < 2 ^ 64 := (Config.freeValue s.freeIx).isLt

/-- Drawing a free value leaves the ports as they are. -/
theorem portOf_nowTime (s : State) (d : Nat) (p : Port) : portOf (nowTime s d).2 p = portOf s p := by
  cases p <;> simp [portOf, cite @nowTime_keeps]

theorem nowTime_stopped {s : State} {d : Nat} (h : domRuns s d = false) : (nowTime s d).1 = (timeOf s d).t := by
  simp [nowTime, h]

theorem nowTime_running {s : State} {d : Nat} (h : domRuns s d = true) :
    (nowTime s d).1 =
      ((timeOf s d).t + frameSpan s d * (s.cyc * 2 ^ 64 + (drawFree s).1) / (1250 * 2 ^ 64)) % timeWrap := by
  simp [nowTime, h]

/-- The reader's shadow takes SEC and FRAC of the time that it reads NS of (R358). -/
theorem portOf_latchNow (s : State) (p : Port) (d : Nat) :
    portOf (latchNow s (.port p) d).2 p = { portOf s p with shadow := { (portOf s p).shadow with
      nowSec := (portOf s p).shadow.nowSec.set d (timeSec (nowTime s d).1),
      nowFrac := (portOf s p).shadow.nowFrac.set d (timeFrac (nowTime s d).1) } } := by
  rw [← portOf_nowTime s d p]
  exact portOf_modPort_same _ p _

/-! ### The debug window (R225, R226) -/

/-- The address of a half of an accumulator word (Table 3.1). -/
theorem regionOf_accDebug {w : Nat} (hw : w < 1024) (h : Bool) :
    regionOf (0x700000 + 8 * w + 4 * b2n h) = .accDebug w h := by
  have hh : b2n h < 2 := by cases h <;> decide
  have hword : bitsOf (0x700000 + 8 * w + 4 * b2n h) 3 10 = w := by unfold bitsOf; omega
  have hhalf : bitOf (0x700000 + 8 * w + 4 * b2n h) 2 = h := by
    cases h <;> simp only [b2n, bitOf, bitsOf, if_true, Bool.false_eq_true, if_false, beq_iff_eq, beq_eq_false_iff_ne] <;> omega
  unfold regionOf
  rw [if_neg (by omega), if_neg (by omega), if_neg (by omega), if_neg (by omega), if_pos (by omega), hword, hhalf]

/-- A half of an accumulator word is 32 bits. -/
theorem readAcc_eq (s : State) (w : Nat) (h : Bool) :
    readAcc s w h = ofSigned 64 ((kvGet s.accs w).getD 0) / (if h then 2 ^ 32 else 1) % 2 ^ 32 := by
  have hlt : ofSigned 64 ((kvGet s.accs w).getD 0) < 2 ^ 64 := by unfold ofSigned; omega
  cases h
  · simp [readAcc]
  · simp only [readAcc, if_true]
    omega

/-- A debug read that the grant covers, by an open partition, gives the word. -/
theorem readWord_accDebug_granted {s : State} {p : Port} {tag a w : Nat} {h : Bool} (ha : regionOf a = .accDebug w h)
    (ht : tagOpen s tag = true) (hg : debugReadOk s tag w = true) :
    readWord s p tag a = (⟨readAcc s w h, resOK, false⟩, s) := by
  simp [readWord, readValue, mayRead, ha, ht, hg]

/-- Any other debug read gives 0 and is denied. -/
theorem readWord_accDebug_denied {s : State} {p : Port} {tag a w : Nat} {h : Bool} (ha : regionOf a = .accDebug w h)
    (hd : tagOpen s tag = false ∨ debugReadOk s tag w = false) :
    readWord s p tag a = (⟨0, resDENIED, true⟩, s) := by
  rcases hd with ht | hg
  · simp [readWord, ha, ht]
  · simp [readWord, mayRead, ha, hg]

/-- A debug read changes no register cell. -/
theorem readWord_regs (s : State) (p : Port) (tag a : Nat) : (readWord s p tag a).2.regs = s.regs := by
  simp [cite @readWord_keeps]

/-! ### What each read answers while the ports are live -/

section
variable {s : State} (hlive : portsLive s = true)
include hlive

theorem exec_portStatusRead (p : Port) : exec (.portStatusRead p) s = .next (shiftOut s p [statusWord s p]) :=
  if_pos hlive

theorem exec_frnLoRead (p : Port) {g : Page} (hg : g = .frame ∨ g = .sys) :
    exec (.frnLoRead p g) s = .next (shiftOut (latchFrn s (.port p) (g == .sys)) p [frnLo s]) :=
  (if_pos hg).trans (if_pos hlive)

theorem exec_frnHiRead (p : Port) {g : Page} (hg : g = .frame ∨ g = .sys) :
    exec (.frnHiRead p g) s =
      .next (shiftOut s p [if g = .sys then (portOf s p).shadow.sysFrnHi else (portOf s p).shadow.frnHi]) :=
  (if_pos hg).trans (if_pos hlive)

theorem exec_nowNsRead (p : Port) {d cyc : Nat} (hd : d < 4) (hc : cyc < 1250) :
    exec (.nowNsRead p ⟨d, cyc⟩) s = .next (shiftOut (latchNow { s with cyc := cyc } (.port p) d).2 p
      [timeNs (nowTime { s with cyc := cyc } d).1]) :=
  (if_pos (by simp [isDom, hd, hc])).trans (if_pos hlive)

theorem exec_nowSecRead (p : Port) {d reg : Nat} (hd : d < 4) (hr : reg < 3) :
    exec (.nowSecRead p d reg) s = .next (shiftOut s p
      [if reg = 0 then (portOf s p).shadow.nowSec.getD d 0 % 2 ^ 32
       else if reg = 1 then (portOf s p).shadow.nowSec.getD d 0 / 2 ^ 32 else (portOf s p).shadow.nowFrac.getD d 0]) :=
  (if_pos (by simp [isDom, hd, hr])).trans (if_pos hlive)

theorem exec_accDebugRead (p : Port) {tag w : Nat} (h : Bool) (ht : tag < 8) (hw : w < 1024) :
    exec (.accDebugRead p tag (0x700000 + 8 * w + 4 * b2n h)) s =
      .next (modPort (shiftOut (readWord s p tag (0x700000 + 8 * w + 4 * b2n h)).2 p
          [(readWord s p tag (0x700000 + 8 * w + 4 * b2n h)).1.value]) p fun u =>
        if (readWord s p tag (0x700000 + 8 * w + 4 * b2n h)).1.denied then { u with denied := true, result := resDENIED }
        else u) := by
  have hh : b2n h < 2 := by cases h <;> decide
  exact (if_pos ⟨ht, by omega, by omega, by omega⟩).trans (if_pos hlive)

/-- A read of NOW_NS gives NS and latches SEC and FRAC of one time, which runs on from the tick (R358). -/
theorem nowNsRead_latches (p : Port) {d cyc : Nat} (hd : d < 4) (hc : cyc < 1250) :
    ∃ t x, exec (.nowNsRead p ⟨d, cyc⟩) s = .next t ∧ (portOf t p).out = [timeNs x] ∧ t.regs = s.regs ∧
      (portOf t p).shadow.nowSec = (portOf s p).shadow.nowSec.set d (timeSec x) ∧
      (portOf t p).shadow.nowFrac = (portOf s p).shadow.nowFrac.set d (timeFrac x) ∧
      (domRuns s d = false → x = (timeOf s d).t) ∧
      (domRuns s d = true → ∃ f, f < 2 ^ 64 ∧
        x = ((timeOf s d).t + frameSpan s d * (cyc * 2 ^ 64 + f) / (1250 * 2 ^ 64)) % timeWrap) := by
  have hport : portOf { s with cyc := cyc } p = portOf s p := by cases p <;> rfl
  refine ⟨_, (nowTime { s with cyc := cyc } d).1, exec_nowNsRead hlive p hd hc, ?_, ?_, ?_, ?_, ?_, ?_⟩
  · simp
  · simp [cite @latchNow_keeps]
  · simp [portOf_latchNow, hport]
  · simp [portOf_latchNow, hport]
  · exact fun hstop => nowTime_stopped hstop
  · exact fun hrun => ⟨_, drawFree_lt { s with cyc := cyc }, nowTime_running hrun⟩

/-- A debug read gives the half of the word where the grant covers it, and otherwise 0 with the access denied (R225, R226). -/
theorem accDebugRead_answers (p : Port) {tag w : Nat} (h : Bool) (ht : tag < 8) (hw : w < 1024) :
    ∃ t, exec (.accDebugRead p tag (0x700000 + 8 * w + 4 * b2n h)) s = .next t ∧ t.regs = s.regs ∧
      (tagOpen s tag = true → debugReadOk s tag w = true →
        (portOf t p).out = [ofSigned 64 ((kvGet s.accs w).getD 0) / (if h then 2 ^ 32 else 1) % 2 ^ 32]) ∧
      (tagOpen s tag = false ∨ debugReadOk s tag w = false → (portOf t p).out = [0] ∧ (portOf t p).denied = true ∧
        (portOf t p).result = resDENIED) := by
  have ha := regionOf_accDebug hw h
  refine ⟨_, exec_accDebugRead hlive p h ht hw, ?_, fun hopen hgrant => ?_, fun hdeny => ?_⟩
  · simp [cite @modPort_keeps, readWord_regs]
  · simp [readWord_accDebug_granted ha hopen hgrant, readAcc_eq]
  · simp [readWord_accDebug_denied ha hdeny]

end

/-- Settles O40: each read is one equation of `exec`, and what it shifts out and latches is read off the port it went to. -/
theorem portReads : Obligations.PortReads := by
  intro s p hlive
  exact ⟨⟨_, exec_portStatusRead hlive p, by simp⟩,
    fun g hg => ⟨_, exec_frnLoRead hlive p hg, by rcases hg with rfl | rfl <;> simp [portOf_latchFrn, cite @latchFrn_keeps]⟩,
    fun g hg => ⟨_, exec_frnHiRead hlive p hg, by simp⟩,
    fun d cyc hd hc => nowNsRead_latches hlive p hd hc,
    fun d hd => ⟨_, exec_nowSecRead hlive p hd (by decide), by simp⟩,
    fun d hd => ⟨_, exec_nowSecRead hlive p hd (by decide), by simp⟩,
    fun d hd => ⟨_, exec_nowSecRead hlive p hd (by decide), by simp⟩,
    fun tag w h ht hw => accDebugRead_answers hlive p h ht hw⟩

end Sys2Proof.Machine

/-! How the tick generator starts (R53, R541, R542): what frame 0 shows of the timebase, and that nothing its boundary and its
stages do takes that back. -/

namespace Sys2Proof.Machine

/-! ### The cells that show the timebase -/

/-- The source in use, whether there is none, and the events of SYS. -/
def tbCells : List Nat := cells [(FRAME.TB_SRC, 0), (SYS.STATUS_NO_TIMEBASE, 0), (HDR.EVT .sys, 0)]

/-- A state goes on showing the timebase that another shows: the same source, present or not, and TB_SWITCH stays raised. -/
structure TbKept (s t : State) : Prop where
  source : get1 t FRAME.TB_SRC 0 = get1 s FRAME.TB_SRC 0
  absent : get1 t SYS.STATUS_NO_TIMEBASE 0 = get1 s SYS.STATUS_NO_TIMEBASE 0
  raised : Raised s .sys 0 1 → Raised t .sys 0 1

/-- A page's cells hold the same where the page does. -/
theorem kvGet_of_pageCells {q : Page} {a b : List (Nat × Nat)} (h : pageCells q a = pageCells q b) {k : Nat}
    (hk : keyPage k = pageType q) : kvGet a k = kvGet b k := by
  simpa [pageCells, hk] using congrFun h k

/-- A field of another page is none of these cells. -/
theorem fldKey_notMem_tbCells {f : Fld} (n k j : Nat) (hsys : f.page ≠ .sys) (hframe : f.page ≠ .frame) :
    fldKey f n k j ∉ tbCells := by
  intro hm
  have hpage := keyPage_fldKey f n k j
  have hcells : ∀ m ∈ tbCells, keyPage m = pageType .sys ∨ keyPage m = pageType .frame := by decide
  rcases hcells _ hm with e | e
  · exact hsys (pageType_inj (hpage.symm.trans e))
  · exact hframe (pageType_inj (hpage.symm.trans e))

/-- Of the pages' events, only those of SYS are among these cells. -/
theorem evt_notMem_tbCells {p : Page} (n : Nat) (hp : p ≠ .sys) : fldKey (HDR.EVT p) n 0 0 ∉ tbCells := by
  by_cases hf : p = .frame
  · subst hf
    show fldKey (HDR.EVT .frame) 0 0 0 ∉ tbCells
    decide
  · exact fldKey_notMem_tbCells n 0 0 hp hf

/-- No count of events is among these cells. -/
theorem evtCnt_notMem_tbCells (p : Page) (n : Nat) : fldKey (HDR.EVT_CNT p) n 0 0 ∉ tbCells := by
  by_cases hf : p = .sys ∨ p = .frame
  · rcases hf with rfl | rfl
    · show fldKey (HDR.EVT_CNT .sys) 0 0 0 ∉ tbCells
      decide
    · show fldKey (HDR.EVT_CNT .frame) 0 0 0 ∉ tbCells
      decide
  · exact fldKey_notMem_tbCells n 0 0 (not_or.mp hf).1 (not_or.mp hf).2

/-- Every field of a page belongs to it. -/
theorem page_of_mem_pageAll {p : Page} {f : Fld} (hf : f ∈ pageAll p) : f.page = p := by
  revert f
  cases p <;> decide

/-- The indices at which a field lies in a word are its own. -/
theorem fldPos_lt {f : Fld} {off k j : Nat} (h : fldPos f off = some (k, j)) : k < f.n1 ∧ j < f.n2 := by
  simp only [fldPos, Option.ite_none_left_eq_some, Option.ite_none_right_eq_some, Option.some.injEq, Prod.mk.injEq] at h
  obtain ⟨-, ⟨hk, hj, -⟩, rfl, rfl⟩ := h
  exact ⟨hk, hj⟩

/-- A field of a word is a field of its page, at indices of its own. -/
theorem mem_fieldsAt {p : Page} {n off : Nat} {x : FldAt} (hx : x ∈ fieldsAt p n off) :
    x.fld ∈ pageAll p ∧ x.k < x.fld.n1 ∧ x.j < x.fld.n2 := by
  simp only [fieldsAt, List.mem_filterMap, Option.map_eq_some_iff] at hx
  obtain ⟨f, hf, kj, hpos, rfl⟩ := hx
  exact ⟨hf, fldPos_lt hpos⟩

/-- SYS and FRAME stand once, so the cell of their field does not depend on the page's number. -/
theorem fldKey_of_single_page {f : Fld} (hp : f.page = .sys ∨ f.page = .frame) (n k j : Nat) :
    fldKey f n k j = fldKey f 0 k j := by
  rcases hp with e | e <;> simp only [fldKey, fldAddr, e, pageBase]

/-- No host write reaches these cells: they are RO and W1C. -/
theorem writable_notMem_tbCells {p : Page} {n off : Nat} {x : FldAt} (hx : x ∈ fieldsAt p n off)
    (hw : x.fld.acc = .rw ∨ x.fld.acc = .cnt) : x.key ∉ tbCells := by
  obtain ⟨hf, hk, hj⟩ := mem_fieldsAt hx
  have hpage := page_of_mem_pageAll hf
  have hkeys : ∀ p ∈ [Page.sys, Page.frame], ∀ f ∈ pageAll p, f.acc = .rw ∨ f.acc = .cnt →
      ∀ k < f.n1, ∀ j < f.n2, fldKey f 0 k j ∉ tbCells := by decide
  by_cases hp : p = .sys ∨ p = .frame
  · rw [FldAt.key, fldKey_of_single_page (hpage ▸ hp)]
    exact hkeys p (by simpa using hp) _ hf hw _ hk _ hj
  · rw [not_or] at hp
    exact fldKey_notMem_tbCells _ _ _ (hpage ▸ hp.1) (hpage ▸ hp.2)

/-- A plain word writes fields of its own page alone. -/
@[simp] theorem plainWord_pg {q : Page} (s : State) (p : Page) (n off v : Nat) (h : ¬q = p) :
    pageCells q (plainWord s p n off v).regs = pageCells q s.regs := by
  refine foldl_pgs_mem _ _ (fun t x hx => ?_) s
  have hx : ¬q = x.fld.page := by rwa [page_of_mem_pageAll (mem_fieldsAt hx).1]
  unfold plainField
  (repeat' split) <;> simp [hx]

/-! ### What a reset leaves of the other pages -/

@[simp] theorem resetPage_pg {q : Page} (s : State) (p : Page) (n : Nat) (keep : List Fld) (h : ¬q = p) :
    pageCells q (resetPage s p n keep).regs = pageCells q s.regs :=
  resetFields_pg s _ n fun f hf => by rwa [page_of_mem_pageAll (List.mem_of_mem_filter hf)]

@[simp] theorem resetEvtFields_pg {q : Page} (s : State) (p : Page) (n : Nat) (h : ¬q = p) :
    pageCells q (resetFields s (evtFields p) n).regs = pageCells q s.regs :=
  resetFields_pg s _ n fun f hf => by
    simp only [evtFields, List.mem_cons, List.not_mem_nil, or_false] at hf
    rcases hf with rfl | rfl | rfl <;> exact h

/-! ### Keeping the timebase shown -/

namespace TbKept

theorem refl (s : State) : TbKept s s := ⟨rfl, rfl, id⟩

theorem trans {s t u : State} (h : TbKept s t) (k : TbKept t u) : TbKept s u :=
  ⟨k.source.trans h.source, k.absent.trans h.absent, k.raised ∘ h.raised⟩

theorem of_cells {s t : State} (h : ∀ k ∈ tbCells, kvGet t.regs k = kvGet s.regs k) : TbKept s t := by
  have hsrc := h (fldKey FRAME.TB_SRC 0 0 0) (by simp [tbCells, cells])
  have habs := h (fldKey SYS.STATUS_NO_TIMEBASE 0 0 0) (by simp [tbCells, cells])
  have hevt := h (fldKey (HDR.EVT .sys) 0 0 0) (by simp [tbCells, cells])
  refine ⟨congrArg (Option.getD · _) hsrc, congrArg (Option.getD · _) habs, fun hr => ?_⟩
  have he : get1 t (HDR.EVT .sys) 0 = get1 s (HDR.EVT .sys) 0 := congrArg (Option.getD · _) hevt
  exact (congrArg (bitOf · 1) he).trans hr

/-- What leaves the pages SYS and FRAME as they are keeps the timebase shown. -/
theorem of_pages {s t : State} (h : ∀ q ∈ [Page.sys, Page.frame], pageCells q t.regs = pageCells q s.regs) : TbKept s t := by
  apply of_cells
  intro k hk
  obtain ⟨q, hq, hpage⟩ : ∃ q ∈ [Page.sys, Page.frame], keyPage k = pageType q := by
    revert k
    decide
  exact kvGet_of_pageCells (h q hq) hpage

variable {s t : State} (h : TbKept s t)
include h

/-- What follows and leaves the pages SYS and FRAME as they are. -/
theorem after (f : State → State) (hf : ∀ u, ∀ q ∈ [Page.sys, Page.frame], pageCells q (f u).regs = pageCells q u.regs) :
    TbKept s (f t) := h.trans (of_pages (hf t))

theorem after_foldl_mem {α : Type} (f : State → α → State) (l : List α) (hf : ∀ u x, x ∈ l → TbKept u (f u x)) :
    TbKept s (l.foldl f t) := by
  induction l generalizing t with
  | nil => exact h
  | cons x l ih => exact ih (h.trans (hf t x List.mem_cons_self)) fun u y hy => hf u y (List.mem_cons_of_mem _ hy)

theorem after_foldl {α : Type} (f : State → α → State) (l : List α) (hf : ∀ u x, TbKept u (f u x)) :
    TbKept s (l.foldl f t) := h.after_foldl_mem f l fun u x _ => hf u x

/-! ### Fields, events and counters -/

theorem after_setF {f : Fld} {n k j : Nat} (hk : fldKey f n k j ∉ tbCells) (v : Nat) : TbKept s (setF t f n k j v) :=
  h.trans (of_cells fun m hm => setF_cell_ne t f n k j v m fun e => hk (e ▸ hm))

theorem after_set1 {f : Fld} {n : Nat} (hk : fldKey f n 0 0 ∉ tbCells) (v : Nat) : TbKept s (set1 t f n v) :=
  h.after_setF hk v

theorem after_setEvtBit (p : Page) (n bit : Nat) : TbKept s (setEvtBit t p n bit) := by
  by_cases hp : p = .sys
  · subst hp
    refine h.trans ⟨get1_set1_ne _ _ _ _ _ _ ?_, get1_set1_ne _ _ _ _ _ _ ?_, fun hr => ?_⟩
    · show fldKey FRAME.TB_SRC 0 0 0 ≠ fldKey (HDR.EVT .sys) 0 0 0
      decide
    · show fldKey SYS.STATUS_NO_TIMEBASE 0 0 0 ≠ fldKey (HDR.EVT .sys) 0 0 0
      decide
    · have hset := setEvtBit_evt t .sys n bit 1 (by decide)
      have hbit : bitOf (get1 t (HDR.EVT .sys) n) 1 = true := hr
      rw [hbit] at hset
      exact hset
  · exact h.after_set1 (evt_notMem_tbCells n hp) _

theorem after_raiseSat (p : Page) (n : Nat) : TbKept s (raiseSat t p n) := by
  unfold raiseSat
  split
  · exact h
  · exact (h.after_setEvtBit p n _).after_set1 (evtCnt_notMem_tbCells p n) _

theorem after_evt (p : Page) (n bit : Nat) : TbKept s (evt t p n bit) := by
  unfold evt
  dsimp only
  split
  · exact ((h.after_setEvtBit p n bit).after_set1 (evtCnt_notMem_tbCells p n) _).after_raiseSat p n
  · exact (h.after_setEvtBit p n bit).after_set1 (evtCnt_notMem_tbCells p n) _

theorem after_addCnt {f : Fld} {n k : Nat} (hk : fldKey f n k 0 ∉ tbCells) (m : Nat) : TbKept s (addCnt t f n k m) := by
  unfold addCnt
  dsimp only
  split
  · exact (h.after_setF hk _).after_raiseSat _ n
  · exact h.after_setF hk _

theorem after_degraded : TbKept s (degraded t) := h.after_evt .sys 0 2

/-! ### Lanes and program windows: stages 1 and 2 -/

theorem after_loseLane (f old : Nat) : TbKept s (loseLane t f old) := by
  have hmove := h.after (modLane · old fun l => if l.func = some f then { l with func := none } else l)
      (by simp [cite @modLane_keeps])
    |>.after (baseLost · f) (by simp [cite @baseLost_keeps])
    |>.after (bareLane · old) (by simp) |>.after (journalMove · f old 0x1F) (by simp)
  unfold loseLane
  dsimp only
  split
  · exact (hmove.after (chanEvt · f 5) (by simp)).after_degraded
  split
  · exact (hmove.after (set1 · LANE.STATUS_FUNC_LOST 14 1) (by simp)).after_degraded
  split
  · exact (hmove.after (set1 · LANE.STATUS_FUNC_LOST 15 1) (by simp)).after_degraded
  · exact hmove

theorem after_moveFunc (f old : Nat) : TbKept s (moveFunc t f old) := by
  unfold moveFunc
  dsimp only
  split
  · exact h.trans (of_pages (by simp [cite @modLane_keeps]))
  split
  · exact h.trans (of_pages (by simp [cite @modLane_keeps]))
  split
  · exact h.after_loseLane f old
  split
  · exact h.after_loseLane f old
  next c _ =>
    split
    · exact h.after_loseLane f old
    split
    · exact h
    next n _ => exact (h.after_loseLane c n).trans (of_pages (by simp [cite @modLane_keeps]))

theorem after_moveIfBad (bad : List (Nat × Nat)) (f : Nat) : TbKept s (moveIfBad bad t f) := by
  unfold moveIfBad
  (repeat' split)
  · exact h
  · exact (h.after (withhold · f _) (by simp)).after_moveFunc f _
  · exact h

theorem after_laneFault (n code : Nat) : TbKept s (laneFault t n code) := by
  unfold laneFault
  split
  · exact h
  · exact (((h.trans (of_pages (by simp))).after_set1 (by decide) _).after_evt .lane n 0).after_evt .sys 0 0

theorem after_moveFaulted (bad : List (Nat × Nat)) : TbKept s (moveFaulted t bad) :=
  ((h.after_foldl _ bad fun u b => (refl u).after_laneFault b.1 b.2).after_foldl _ moveOrder
    fun u f => (refl u).after_moveIfBad bad f).after (laneSorted t) (by simp [cite @laneSorted_keeps])

theorem after_stage1 (i : FrameIn) : TbKept s (stage1 t i) := by
  unfold stage1
  refine after_foldl ?_ latchPlan _ fun u f => of_pages (by simp [cite @latchPlan_keeps])
  refine after ?_ (laneSorted t) (by simp [cite @laneSorted_keeps])
  exact after_moveFaulted (h.trans (of_pages (by simp))) _

theorem after_overrun {p : Nat} (hp : p < 4) : TbKept s (overrun t p) := by
  have hcnt : fldKey FRAME.OVERRUN_CNT 0 p 0 ∉ tbCells := by
    revert p
    decide
  exact ((h.trans (of_pages (by simp [cite @modRun_keeps]))).after_evt .frame 0 0).after_addCnt hcnt 1

theorem after_stepIns {p : Nat} (hp : p < 4) (i : Ins) : TbKept s (stepIns t p i) := by
  unfold stepIns
  dsimp only
  split
  · exact h
  have hnext := h.after (modRun · p fun v => { v with pc := v.pc + 1 }) (by simp [cite @modRun_keeps])
  split
  · exact hnext.after (modRun · p _) (by simp [cite @modRun_keeps])
  split
  · exact hnext
  have hover := (hnext.after_overrun hp).after (missedRow · p i) (by simp [cite @missedRow_keeps])
  have hused := fun c => hnext.after (modRun · p fun v => { v with used := v.used + c }) (by simp [cite @modRun_keeps])
  split
  · split
    · exact hover
    · exact (hused _).after (recordFault · p _ _ _) (by simp)
  · split
    · exact hover
    · exact (hused _).after (runIns · p i) (by simp)

theorem after_runWords {p : Nat} (hp : p < 4) (ws : List Nat) : TbKept s (runWords ws t p) := by
  induction ws generalizing t with
  | nil => exact h
  | cons w ws ih =>
    have hstep := h.after_stepIns hp (decodeIns w)
    unfold runWords
    dsimp only
    (repeat' split)
    · exact hstep
    · exact hstep.after (missedRest _ · p 0) (by simp [cite @missedRest_keeps])
    · exact ih hstep

theorem after_stage2 : TbKept s (stage2 t) := by
  have hstart := h.after runsStart (by simp [cite @runsStart_keeps])
  refine (hstart.after_foldl_mem _ (List.range 4) fun u p hp => ?_).after publishRows (by simp)
  split
  · exact ((refl u).after (set1 · PART.STATUS_LANE_GRANT p 0) (by simp)).after_runWords (List.mem_range.mp hp) _
  · exact refl u

theorem after_stages (i : FrameIn) : TbKept s (stages t i) :=
  ((h.after_stage1 i).after (trigStage (intervalOf t i [])) (by simp)).after_stage2.trans (of_pages (by simp [stages]))

/-! ### Resets and Leaf -/

theorem after_recordReset (p cause : Nat) : TbKept s (recordReset t p cause) :=
  h.trans (of_pages (by simp [recordReset]))

theorem after_partReset (p cause : Nat) : TbKept s (partReset t p cause) := by
  have hpages := (h.after_recordReset p cause).after (journalPg · 0x011 (some p) .part p cause) (by simp)
    |>.after (resetPage · .dpll p [DPLL.STATUS_FB_LOST]) (by simp)
    |>.after (resetPage · .time p []) (by simp)
  have hsynth := hpages.after (resetFields · (evtFields .apll) p) (by simp) |>.after (synthReset · p) (by simp)
  have houts := fun outs => hsynth.after_foldl (fun u n => set1 (resetFields u (evtFields .out) n) OUT.ENABLE_FRN n 0) outs
    fun u n => of_pages (by simp)
  have hunits := fun outs chans => (houts outs).after (resetRows · p) (by simp) |>.after (resetHarvest · p) (by simp)
    |>.after (instReset · p) (by simp) |>.after (cancelCmd · p) (by simp)
    |>.after_foldl hostHalfReset chans fun u c => of_pages (by simp)
  have hstart := fun outs chans runs => (hunits outs chans).after (startDom · p) (by simp)
    |>.after (timeStart · p runs) (by simp [cite @timeStart_keeps])
    |>.after (utcPolicy · p) (by simp) |>.after (publishGains · p) (by simp)
  unfold partReset
  dsimp only
  split
  · exact hstart _ _ _
  · exact (hstart _ _ _).after (domChanged · p _ _ 0) (by simp)

theorem after_setLeaf (v : Nat) : TbKept s (setLeaf t v) := by
  have hset := h.after (set1 · ROOT.STATUS_LEAF 0 v) (by simp)
  unfold setLeaf
  dsimp only
  split
  · exact hset.after_degraded
  · exact hset

theorem after_leafRestart (cause : Nat) : TbKept s (leafRestart t cause) :=
  after_setLeaf (h.trans (of_pages (by simp))) 1

theorem after_leafHost : TbKept s (leafHost t) :=
  (h.after (modRoot · _) (by simp [cite @modRoot_keeps])).after_leafRestart 5

theorem after_imageCancel : TbKept s (imageCancel t) := by
  unfold imageCancel
  split
  · exact after_leafRestart (h.trans (of_pages (by simp [cite @modRoot_keeps, cite @reloadBlocks_keeps]))) 6
  · exact h

theorem after_imageLoad : TbKept s (imageLoad t) := by
  unfold imageLoad
  split
  · exact h
  · exact after_setLeaf (h.trans (of_pages (by simp [cite @modRoot_keeps]))) 4

theorem after_sharedReset : TbKept s (sharedReset t) :=
  h.trans (of_pages (by simp [sharedReset, selReset, cite @qlClear_keeps]))

theorem after_softReset : TbKept s (softReset t) := by
  have hrecord : TbKept s (addCnt (recordSys t 3) SYS.SOFT_RESET_CNT 0 0 1) :=
    ((h.after_set1 (by decide) _).after_set1 (by decide) _).after_addCnt (by decide) 1
  unfold softReset
  dsimp only
  refine after_leafHost (after_sharedReset (after (after ?_ (debugEnd · 3) (by simp)) dropVerify (by simp)))
  refine after_foldl ?_ hostHalfReset _ fun u c => of_pages (by simp)
  refine after_foldl (hrecord.after (journalPg · 0x002 none .sys 0 0) (by simp)) _ _ fun u p => ?_
  split
  · exact of_pages (by simp)
  · exact (refl u).after_partReset p 3

theorem after_resetStep (due : List QWrite) : TbKept s (resetStep t due) := by
  unfold resetStep
  dsimp only
  refine after_foldl ?_ _ _ fun u p => ?_
  · split
    · exact h.after_softReset
    · exact h
  · split
    · exact refl u
    · exact (refl u).after_partReset p 1

/-! ### The commit -/

theorem after_markFallback : TbKept s (markFallback t) := by
  have hset : ∀ v, TbKept s (set1 t SYS.STATUS_TB_FALLBACK 0 v) := fun v => h.after_set1 (by decide) v
  unfold markFallback
  dsimp only
  split
  · exact (hset _).after_degraded
  · exact hset _

theorem after_changePolicy (b : Policy) : TbKept s (changePolicy t b) := by
  have hend : ∀ u, TbKept u (if debugScope u = 0 then debugEnd u 2 else u) := fun u => by
    split
    · exact of_pages (by simp)
    · exact refl u
  unfold changePolicy
  dsimp only
  refine trans ?_ (hend _)
  refine after (after_markFallback (after ?_ fmtPending (by simp))) (shelfCommit · _) (by simp)
  refine after_foldl (after_foldl ?_ (portCommit _) _ fun u n => of_pages (by simp)) utcPolicy _ fun u d => of_pages (by simp)
  refine after_foldl ?_ todConnect _ fun u d => of_pages (by simp)
  refine after_foldl (after_foldl ?_ (requalify _) _ fun u c => of_pages (by simp)) _ _ fun u p => ?held
  refine after_foldl ?_ _ _ fun u d => ?config
  refine after_foldl (after_foldl ?_ apllStop _ fun u d => of_pages (by simp)) synthStart _ fun u d =>
    of_pages (by simp [synthStart])
  refine after_foldl (after_foldl ?_ (moveOutput _) _ fun u n => of_pages (by simp)) _ _ fun u p => (refl u).after_partReset p 2
  refine after_foldl ?_ hostHalfReset _ fun u c => of_pages (by simp)
  refine after_foldl ?_ _ _ fun u c => of_pages (by simp)
  · exact after (h.after_foldl resetRows _ fun u p => of_pages (by simp)) (fun u => { u with pol := b }) (by simp)
  case held =>
    split
    · exact of_pages (by simp)
    · exact refl u
  case config =>
    (repeat' split)
    · exact refl u
    · exact of_pages (by simp)
    · exact of_pages (by simp)

theorem after_commitStep : TbKept s (commitStep t) := by
  unfold commitStep
  split
  · unfold policyCommit
    refine after (after ?_ unmark (by simp [cite @unmark_keeps])) (rootStore · 24 2 8) (by simp)
    exact after_changePolicy (h.trans (of_pages (by simp [cite @modRoot_keeps]))) _
  · exact h

/-! ### Writes that act -/

theorem after_plainWord (p : Page) (n off v : Nat) : TbKept s (plainWord t p n off v) := by
  refine h.after_foldl_mem _ _ fun u x hx => ?_
  have hkey : x.fld.acc = .rw ∨ x.fld.acc = .cnt → x.key ∉ tbCells := fun hw => writable_notMem_tbCells hx hw
  unfold plainField
  split
  · next hrw => exact (refl u).after_setF (hkey (.inl hrw)) _
  · next hcnt =>
    split
    · exact (refl u).after_setF (hkey (.inr hcnt)) 0
    · exact refl u
  · exact refl u

theorem after_if (b : Bool) (f : State → State) (hf : ∀ u, TbKept u (f u)) : TbKept s (if b then f t else t) := by
  split
  · exact h.trans (hf t)
  · exact h

theorem after_actRoot (off v : Nat) : TbKept s (actRoot t off v) := by
  have hverify : ∀ u, TbKept u (if bitOf v 1 then commitCmd u else if bitOf v 0 then verifyCmd u else u) := fun u => by
    split
    · exact of_pages (by simp)
    · exact (refl u).after_if _ verifyCmd fun w => of_pages (by simp)
  have hload := (h.after_if (bitOf v 2) abortCmd fun u => of_pages (by simp)).trans (hverify _)
    |>.after_if (bitOf v 6) imageCancel (fun u => (refl u).after_imageCancel)
    |>.after_if (bitOf v 4) imageLoad (fun u => (refl u).after_imageLoad)
    |>.after_if (bitOf v 5) imageActivate (fun u => of_pages (by simp [cite @imageActivate_keeps]))
    |>.after_if (bitOf v 8) leafHost (fun u => (refl u).after_leafHost)
  unfold actRoot
  split
  · exact hload
  · exact h.after_plainWord .root 0 off v

theorem after_actRows (off v : Nat) : TbKept s (actRows t off v) := h.trans (of_pages (by simp [actRows]))

theorem after_actDpll (all rest : List QWrite) (n off v : Nat) : TbKept s (actDpll all rest t n off v) :=
  h.trans (of_pages (by simp [actDpll]))

theorem after_actLane (n off v : Nat) : TbKept s (actLane t n off v) := h.trans (of_pages (by simp [actLane]))

theorem after_actApll (n off v : Nat) : TbKept s (actApll t n off v) := h.trans (of_pages (by simp [actApll]))

theorem after_actOut (all rest : List QWrite) (n off v : Nat) : TbKept s (actOut all rest t n off v) :=
  h.trans (of_pages (by simp [actOut]))

theorem after_actTime (rest : List QWrite) (n off v : Nat) : TbKept s (actTime rest t n off v) :=
  h.trans (of_pages (by simp [actTime, cite @hostSet_keeps]))

theorem after_actEth (rest : List QWrite) (n off v : Nat) : TbKept s (actEth rest t n off v) :=
  h.trans (of_pages (by simp [actEth, cite @restartAn_keeps]))

theorem after_actPage (all rest : List QWrite) (p : Page) (n off v : Nat) : TbKept s (actPage all rest t p n off v) := by
  cases p with
  | rows => exact h.after_actRows off v
  | dpll => exact h.after_actDpll all rest n off v
  | lane => exact h.after_actLane n off v
  | apll => exact h.after_actApll n off v
  | out => exact h.after_actOut all rest n off v
  | time => exact h.after_actTime rest n off v
  | eth => exact h.after_actEth rest n off v
  | root => exact h.after_actRoot off v
  | harv | bbox | dbg => exact h.trans (of_pages (by simp [actPage]))
  | sys | part | frame | sel | ptpts | shelf | cellar | pwr | osc | chan => exact h.after_plainWord _ n off v

theorem after_actWord (all rest : List QWrite) (w : QWrite) : TbKept s (actWord all rest t w) := by
  unfold actWord
  split
  · exact h.after_actPage all rest _ _ _ _
  · exact h.trans (of_pages (by simp [cite @setLE_keeps]))
  · exact h.trans (of_pages (by simp [cite @actCellarWord_keeps]))
  · exact h

theorem after_actAll (all ws : List QWrite) (gone : List (Port × Nat)) : TbKept s (actAll all ws gone t) := by
  induction ws generalizing gone t with
  | nil => exact h
  | cons w ws ih =>
    unfold actAll
    split
    · refine ih ?_ gone
      split
      · exact h
      · exact h.after_actWord all ws w
    split
    · exact ih h gone
    · exact ih (h.after (discard · ws w) (by simp)) _

theorem after_writeStep (due : List QWrite) (parts : List Nat) : TbKept s (writeStep t due parts) :=
  (h.after_actAll _ _ _).after (storeStep · (due.filter fun w => !parts.contains w.tag)) (by simp)

theorem after_boundarySteps : TbKept s (boundarySteps t) := by
  have hcommit : TbKept s (commitStep { t with writeQ := t.writeQ.filter fun w => decide (t.frn < w.due) }) :=
    (h.after (fun u => { u with writeQ := u.writeQ.filter fun w => decide (u.frn < w.due) }) (by simp)).after_commitStep
  have hsteps := fun due parts => ((hcommit.after_resetStep due).after gateStep (by simp)).after_writeStep due parts
    |>.after tableAccept (by simp) |>.after resetDone (by simp) |>.after roleChange (by simp) |>.after debugFrame (by simp)
    |>.after_foldl timeBoundary (List.range 4) (fun u d => of_pages (by simp)) |>.after (armStep · due parts) (by simp)
  exact hsteps (dueWrites t) _

end TbKept

/-! ### Frame 0 (R53, R541, R542) -/

/-- What the start of the tick generator sets before it opens the domains. -/
def tickStarted (s : State) (src : Nat) : State :=
  set1 (set1 { s with phase := .running, frn := 0, cyc := 0 } FRAME.TB_SRC 0 src) SYS.STATUS_NO_TIMEBASE 0 0

/-- The rest of frame 0, its boundary and its stages, keeps the timebase that its start shows. -/
theorem frameZero_tbKept (s : State) (src : Nat) : TbKept (tickStarted s src) (frameZero s src) := by
  have hopened := fun parts => (TbKept.refl (tickStarted s src)).after_foldl
      (fun t d => if isOpen t d then t else set1 t DPLL.STATUS_STATE d 7) (List.range 4)
      (fun u d => TbKept.of_pages (by simp))
    |>.after takeFormats (by simp)
    |>.after_foldl openDomain parts (fun u d => .of_pages (by simp [openDomain, synthStart, cite @timeStart_keeps]))
    |>.after_foldl txclkJudge (List.range 2) (fun u n => .of_pages (by simp))
  have hstart : TbKept (tickStarted s src) (startFrames s src) := by
    unfold startFrames
    exact hopened _
  exact (hstart.after_boundarySteps.after drainAll (by simp)).after_stages _

theorem tickStarted_source (s : State) (src : Nat) : get1 (tickStarted s src) FRAME.TB_SRC 0 = src % 2 :=
  (get1_set1_ne _ _ _ _ _ _ (by decide)).trans (get1_set1_same _ _ _ _ (by decide))

theorem tickStarted_absent (s : State) (src : Nat) : get1 (tickStarted s src) SYS.STATUS_NO_TIMEBASE 0 = 0 :=
  get1_set1_same _ _ _ _ (by decide)

/-- The start of the tick generator raises and clears no event. -/
theorem tickStarted_events (s : State) (src : Nat) : get1 (tickStarted s src) (HDR.EVT .sys) 0 = get1 s (HDR.EVT .sys) 0 :=
  (get1_set1_ne _ _ _ _ _ _ (by decide)).trans (get1_set1_ne _ _ _ _ _ _ (by decide))

theorem frameZero_source (s : State) (src : Nat) : get1 (frameZero s src) FRAME.TB_SRC 0 = src % 2 :=
  (frameZero_tbKept s src).source.trans (tickStarted_source s src)

theorem frameZero_absent (s : State) (src : Nat) : get1 (frameZero s src) SYS.STATUS_NO_TIMEBASE 0 = 0 :=
  (frameZero_tbKept s src).absent.trans (tickStarted_absent s src)

theorem frameZero_raised {s : State} (h : Raised s .sys 0 1) (src : Nat) : Raised (frameZero s src) .sys 0 1 :=
  (frameZero_tbKept s src).raised ((congrArg (bitOf · 1) (tickStarted_events s src)).trans h)

/-- Frame 0 is in progress, at its tick. -/
theorem frameZero_first (s : State) (src : Nat) :
    (frameZero s src).phase = .running ∧ (frameZero s src).frn = 0 ∧ (frameZero s src).cyc = 0 := by
  have hstart : (startFrames s src).phase = .running ∧ (startFrames s src).frn = 0 ∧ (startFrames s src).cyc = 0 := by
    simp [startFrames, cite @txclkJudge_keeps, cite @openDomain_keeps, cite @takeFormats_keeps, cite @set1_keeps]
  simpa [frameZero, cite @stages_keeps, cite @drainAll_keeps, cite @boundarySteps_keeps] using hstart

/-- TB_SWITCH is raised by a start on the other source (R541). -/
theorem tbSwitched_raised (s : State) (src cause : Nat) : Raised (tbSwitched s src cause) .sys 0 1 :=
  ((TbKept.refl _).after (journalPg · 0x004 none .frame 0 (src + 2 * cause)) (by simp)).raised (evt_bit _ .sys 0 1 (by decide))

/-- A tick moves the FRN on by 1 and leaves the tick generator running (R53). -/
theorem frameTick_frn (s : State) (i : FrameIn) : (frameTick s i).frn = s.frn + 1 := by
  simp [frameTick, cite @powerFrame_keeps, cite @stages_keeps, cite @drainAll_keeps, cite @boundarySteps_keeps,
    cite @snapStep_keeps, cite @timeTick_keeps, cite @rootUp_keeps, cite @frameEnd_keeps]

/-- The frame that TIMEBASE_QUALIFIED opens. -/
theorem timebaseQualified_starts {s : State} (h : s.phase = .waiting) :
    ∃ t, exec .timebaseQualified s = .next t ∧ t.phase = .running ∧ t.frn = 0 ∧ t.cyc = 0 ∧
      get1 t FRAME.TB_SRC 0 = selectedSrc s % 2 ∧ get1 t SYS.STATUS_NO_TIMEBASE 0 = 0 := by
  obtain ⟨hphase, hfrn, hcyc⟩ := frameZero_first s (selectedSrc s)
  exact ⟨_, if_pos h, hphase, hfrn, hcyc, frameZero_source _ _, frameZero_absent _ _⟩

/-- The frame that TB_FALLBACK opens. -/
theorem tbFallback_starts {s : State} (h : s.phase = .waiting) :
    ∃ t, exec .tbFallback s = .next t ∧ t.phase = .running ∧ t.frn = 0 ∧ t.cyc = 0 ∧
      get1 t FRAME.TB_SRC 0 = 1 - selectedSrc s ∧ get1 t SYS.STATUS_NO_TIMEBASE 0 = 0 ∧ Raised t .sys 0 1 := by
  obtain ⟨hphase, hfrn, hcyc⟩ := frameZero_first (tbSwitched s (1 - selectedSrc s) 0) (1 - selectedSrc s)
  have hkept := (TbKept.refl (frameZero (tbSwitched s (1 - selectedSrc s) 0) (1 - selectedSrc s))).after drainAll (by simp)
  refine ⟨_, if_pos h, ?_, ?_, ?_, ?_, ?_, ?_⟩
  · simpa [cite @drainAll_keeps] using hphase
  · simpa [cite @drainAll_keeps] using hfrn
  · simpa [cite @drainAll_keeps] using hcyc
  · rw [hkept.source, frameZero_source]
    omega
  · rw [hkept.absent, frameZero_absent]
  · exact hkept.raised (frameZero_raised (tbSwitched_raised s _ 0) _)

/-- Settles O16: frame 0 shows the source it starts on, which its boundary and stages keep, and each tick adds 1 to FRN. -/
theorem timebaseStarts : Obligations.TimebaseStarts :=
  ⟨fun _ h => ⟨timebaseQualified_starts h, tbFallback_starts h⟩, fun s i h =>
    ⟨frameTick s i, if_pos h, ((cite @frameTick_keeps) s i).2.1.trans h, frameTick_frn s i⟩⟩

end Sys2Proof.Machine

/-! Harvest: what a write of a ring's read index does at its boundary (R241). -/

namespace Sys2Proof.Machine

/-! ### Operations that change only register cells -/

/-- An operation that keeps every component but the cells, and of these changes only the listed ones. -/
theorem onlyCells_of_onlyRegs {ks : List Nat} {s t : State} (h : OnlyRegs s t) (hcells : CellsElse ks s t) : OnlyCells ks s t := by
  refine ⟨?_, hcells⟩
  cases t
  simpa [OnlyRegs] using h

/-- A field write changes the field's cell alone. -/
theorem setF_onlyCells (s : State) (f : Fld) (n k j v : Nat) : OnlyCells [fldKey f n k j] s (setF s f n k j v) :=
  onlyCells_of_onlyRegs (setF_keeps s f n k j v) fun m hm => setF_cell_ne s f n k j v m fun e => hm (List.mem_singleton.mpr e)

/-- An event changes its page's EVT and EVT_CNT alone. -/
theorem evt_onlyCells (s : State) (p : Page) (n bit : Nat) : OnlyCells (evtCells p n) s (evt s p n bit) :=
  onlyCells_of_onlyRegs (evt_keeps s p n bit) fun m hm => by
    obtain ⟨hevt, hcnt⟩ : m ≠ fldKey (HDR.EVT p) n 0 0 ∧ m ≠ fldKey (HDR.EVT_CNT p) n 0 0 := by
      simpa [evtCells, cells] using hm
    exact evt_cell_ne s p n bit m hevt hcnt

/-! ### Fields of two pages -/

/-- Fields of two pages lie in two cells. -/
theorem fldKey_ne_of_page_ne {f g : Fld} (h : f.page ≠ g.page) (n k j m a b : Nat) : fldKey f n k j ≠ fldKey g m a b := fun e =>
  h (pageType_inj (by simpa [keyPage_fldKey] using congrArg keyPage e))

/-- A field of another page reads as before an event. -/
theorem getF_evt_of_page_ne {p : Page} {g : Fld} (h : g.page ≠ p) (s : State) (n bit m a b : Nat) :
    getF (evt s p n bit) g m a b = getF s g m a b :=
  getF_evt_ne s p n bit g m a b (fldKey_ne_of_page_ne h _ _ _ _ _ _) (fldKey_ne_of_page_ne h _ _ _ _ _ _)

/-! ### The check of the read index (R241) -/

theorem exec_rdIdxWrite {p v : Nat} (hp : p < 4) (hv : v < 2 ^ 32) (s : State) :
    exec (.rdIdxWrite p v) s = .next (rdIdxWrite s p v) := if_pos ⟨hp, hv⟩

/-- A value within the FILL is stored. -/
theorem rdIdxWrite_of_le_fill {s : State} {p v : Nat}
    (h : (getF s HARV.WR_IDX 0 p 0 + 512 - v % 512) % 512 ≤ ringFill s p) :
    rdIdxWrite s p v = setF s HARV.RD_IDX 0 p 0 v := if_neg (Nat.not_lt.mpr h)

/-- A value beyond the FILL is discarded and raises HARV_IDX. -/
theorem rdIdxWrite_of_fill_lt {s : State} {p v : Nat}
    (h : ringFill s p < (getF s HARV.WR_IDX 0 p 0 + 512 - v % 512) % 512) :
    rdIdxWrite s p v = evt s .part p 7 := if_pos h

/-- Settles O33: the write is a store of RD_IDX or, beyond the FILL, the event HARV_IDX, which lies on another page. -/
theorem harvestReadIndex : Obligations.HarvestReadIndex := by
  intro s p v hp hv
  refine ⟨fun hwithin => ⟨_, exec_rdIdxWrite hp hv s, ?_⟩, fun hbeyond => ⟨_, exec_rdIdxWrite hp hv s, ?_⟩⟩
  · rw [rdIdxWrite_of_le_fill hwithin]
    exact ⟨getF_setF_same s HARV.RD_IDX 0 p 0 v (by decide), setF_onlyCells s _ 0 p 0 v⟩
  · rw [rdIdxWrite_of_fill_lt hbeyond]
    exact ⟨getF_evt_of_page_ne (by decide) s p 7 0 p 0, evt_bit s .part p 7 (by decide), evt_onlyCells s .part p 7⟩

end Sys2Proof.Machine

/-! What every command does and leaves alone: it answers exactly if it is well formed, it changes only the components and the
pages listed for it, and what it changes keeps the invariants. Each operation that a command carries out has one lemma. -/

namespace Sys2Proof.Machine

open Sys2Proof

/-! ### What a change leaves -/

/-- The listed components are the same in two states. -/
def SameAll : List Component → State → State → Prop
  | [], _, _ => True
  | [k], s, t => k.same s t
  | k :: r, s, t => k.same s t ∧ SameAll r s t

theorem same_of_sameAll {l : List Component} {s t : State} (h : SameAll l s t) : ∀ k ∈ l, k.same s t := by
  induction l with
  | nil => exact fun k hk => absurd hk List.not_mem_nil
  | cons a r ih =>
    cases r with
    | nil => exact fun k hk => List.mem_singleton.mp hk ▸ h
    | cons b r => exact List.forall_mem_cons.mpr ⟨h.1, ih h.2⟩

theorem Component.same_refl (k : Component) (s : State) : k.same s s := by cases k <;> rfl

theorem Component.same_trans {k : Component} {s t u : State} (h : k.same s t) (g : k.same t u) : k.same s u := by
  cases k <;> exact Eq.trans g h

theorem Component.mem_all (k : Component) : k ∈ Component.all := by cases k <;> decide

theorem Component.mem_allBut {l : List Component} {k : Component} (h : k ∉ l) : k ∈ Component.allBut l := by
  simp [Component.allBut, k.mem_all, h]

/-- What the invariants ask of one component. -/
@[simp] def Component.Sound (k : Component) (s : State) : Prop :=
  match k with
  | .lanes => s.lanes.length = 18
  | .funcs => s.funcs.length = 16
  | .rows => s.rows.length = 256
  | .parts => s.parts.length = 4
  | .chans => s.chans.length = 12
  | .pkts => s.pkts.length = 2
  | .pairs => s.pairs.map List.length = List.replicate 4 12
  | .doms => s.doms.length = 4
  | .aplls => s.aplls.length = 4
  | .outs => s.outs.length = 10
  | .times => s.times.map TimeU.sizes = List.replicate 4 (8, 8)
  | .eths => s.eths.length = 2
  | .ptps => s.ptps.length = 4
  | .mem => Memory.wf s.mem = true
  | .jrn => s.jrn.queue.length ≤ 64
  | _ => True

theorem inv_iff_sound (s : State) : Inv s ↔ ∀ k : Component, k.Sound s := by
  constructor
  · rintro ⟨⟨_, _, _, _, _, _, _, _, _, _, _, _, _⟩, _, _⟩ k
    cases k <;> first | assumption | exact True.intro
  · exact fun h => ⟨⟨h .lanes, h .funcs, h .rows, h .parts, h .chans, h .pkts, h .pairs, h .doms, h .aplls, h .outs, h .times,
      h .eths, h .ptps⟩, h .mem, h .jrn⟩

/-- A component's part of the invariants depends on that component alone. -/
theorem Component.Sound.of_same {k : Component} {s t : State} (h : k.Sound s) (e : k.same s t) : k.Sound t := by
  cases k <;> simp_all [Component.Sound, Component.same]

/-- The facts of the invariants, as simp takes them. -/
theorem Inv.facts {s : State} (h : Inv s) :
    (s.lanes.length = 18 ∧ s.funcs.length = 16 ∧ s.rows.length = 256 ∧ s.parts.length = 4 ∧ s.chans.length = 12 ∧
      s.pkts.length = 2 ∧ s.pairs.map List.length = List.replicate 4 12 ∧ s.doms.length = 4 ∧ s.aplls.length = 4 ∧
      s.outs.length = 10 ∧ s.times.map TimeU.sizes = List.replicate 4 (8, 8) ∧ s.eths.length = 2 ∧ s.ptps.length = 4) ∧
    Memory.wf s.mem = true ∧ s.jrn.queue.length ≤ 64 :=
  ⟨⟨h.shape.lanes, h.shape.funcs, h.shape.rows, h.shape.parts, h.shape.chans, h.shape.pkts, h.shape.pairs, h.shape.doms,
    h.shape.aplls, h.shape.outs, h.shape.times, h.shape.eths, h.shape.ptps⟩, h.mem, h.jrn⟩

/-- A change from `s` to `t` of the components `w` and of register cells of the pages `pg` alone, which keeps the invariants. -/
structure Framed (w : List Component) (pg : List Page) (s t : State) : Prop where
  others : ∀ k, k ∉ w → k.same s t
  cells : ∀ q, q ∉ pg → pageCells q t.regs = pageCells q s.regs
  sound : Inv s → ∀ k ∈ w, k.Sound t

namespace Framed

variable {w : List Component} {pg : List Page} {s t : State}

theorem refl : Framed w pg s s :=
  ⟨fun k _ => k.same_refl s, fun _ _ => rfl, fun h k _ => (inv_iff_sound s).mp h k⟩

/-- An operation's frame, the pages it writes and what the invariants ask of the components it changes. -/
theorem of {l : List Page} (hk : SameAll (Component.allBut w) s t) (hc : ∀ q, q ∉ l → pageCells q t.regs = pageCells q s.regs)
    (hs : Inv s → ∀ k ∈ w, k.Sound t) (hl : ∀ q ∈ l, q ∈ pg) : Framed w pg s t :=
  ⟨fun k h => same_of_sameAll hk k (Component.mem_allBut h), fun q h => hc q fun hq => h (hl q hq), hs⟩

/-- An operation that leaves the register cells as they were. -/
theorem ofQuiet (hk : SameAll (Component.allBut w) s t) (hs : Inv s → ∀ k ∈ w, k.Sound t) (hw : Component.regs ∉ w) :
    Framed w pg s t :=
  .of hk (l := []) (fun q _ => congrArg (pageCells q) (same_of_sameAll hk .regs (Component.mem_allBut hw))) hs
    fun _ hq => absurd hq List.not_mem_nil

/-- An operation that may write every page. -/
theorem ofAny (hk : SameAll (Component.allBut w) s t) (hs : Inv s → ∀ k ∈ w, k.Sound t) : Framed w Page.every s t :=
  .of hk (l := Page.every) (fun q hq => absurd (by cases q <;> decide) hq) hs fun _ => id

theorem inv (h : Framed w pg s t) (hs : Inv s) : Inv t :=
  (inv_iff_sound t).mpr fun k => by
    by_cases hk : k ∈ w
    · exact h.sound hs k hk
    · exact ((inv_iff_sound s).mp hs k).of_same (h.others k hk)

theorem trans {u : State} (h : Framed w pg s t) (g : Framed w pg t u) : Framed w pg s u :=
  ⟨fun k hk => Component.same_trans (h.others k hk) (g.others k hk), fun q hq => (g.cells q hq).trans (h.cells q hq),
    fun hs => g.sound (h.inv hs)⟩

/-- A change of fewer components and pages. -/
theorem mono {w' : List Component} {pg' : List Page} (h : Framed w pg s t) (hw : ∀ k ∈ w, k ∈ w') (hp : ∀ q ∈ pg, q ∈ pg') :
    Framed w' pg' s t :=
  ⟨fun k hk => h.others k fun e => hk (hw k e), fun q hq => h.cells q fun e => hq (hp q e),
    fun hs k _ => (inv_iff_sound t).mp (h.inv hs) k⟩

end Framed

/-! ### What a command answers -/

/-- A next state, which `R` holds of. -/
def Does (R : State → Prop) (o : Host.Outcome State Fault Refusal) : Prop := ∃ t, o = .next t ∧ R t

/-- A next state, which `R` holds of, where the guard `g` passes, and otherwise the refusal of an ill-formed command. -/
def Answers (g : Bool) (R : State → Prop) (o : Host.Outcome State Fault Refusal) : Prop :=
  (g = true → Does R o) ∧ (g = false → o = .refused .illFormed)

namespace Does

variable {R : State → Prop}

theorem next {t : State} (h : R t) : Does R (.next t) := ⟨t, rfl, h⟩

theorem ite {c : Prop} [Decidable c] {a b : Host.Outcome State Fault Refusal} (ha : Does R a) (hb : Does R b) :
    Does R (if c then a else b) := by
  split
  · exact ha
  · exact hb

end Does

namespace Answers

variable {R : State → Prop} {o : Host.Outcome State Fault Refusal}

theorem always (h : Does R o) : Answers true R o := ⟨fun _ => h, fun e => Bool.noConfusion e⟩

theorem guarded {c : Prop} [Decidable c] (h : Does R o) : Answers (decide c) R (if c then o else .refused .illFormed) :=
  ⟨fun e => (if_pos (of_decide_eq_true e)).symm ▸ h, fun e => if_neg (of_decide_eq_false e)⟩

theorem checked {b : Bool} (h : Does R o) : Answers b R (if b = true then o else .refused .illFormed) := by
  cases b
  · exact ⟨fun e => Bool.noConfusion e, fun _ => rfl⟩
  · exact ⟨fun _ => h, fun e => Bool.noConfusion e⟩

end Answers

/-! ### Machine/Lanes.lean -/

theorem spareCalEnd_framed (s : State) (n : Nat) :
    Framed [.regs] [.lane] s (spareCalEnd s n) :=
  .of (spareCalEnd_keeps s n) (fun _ => spareCalEnd_pg s n) (by simp) (by decide)

theorem overdriveOnset_framed (s : State) (f : Nat) :
    Framed [.regs, .jrn, .lanes, .funcs, .chans] [.part, .lane, .bbox] s (overdriveOnset s f) :=
  .of (overdriveOnset_keeps s f) (fun _ => overdriveOnset_pg s f) (fun h => by simp [h.facts]) (by decide)

theorem suspectTick_framed (s : State) (f : Nat) :
    Framed [.regs, .funcs] [.lane] s (suspectTick s f) :=
  .of (suspectTick_keeps s f) (fun _ => suspectTick_pg s f) (fun h => by simp [h.facts]) (by decide)

/-! ### Machine/Rows.lean -/

theorem insCommand_framed (s : State) (p : Nat) (i : Ins) :
    Framed [.regs, .rows, .accs, .parts] [.part, .frame, .rows] s (insCommand s p i) :=
  .of (insCommand_keeps s p i) (fun _ => insCommand_pg s p i) (fun h => by simp [h.facts]) (by decide)

theorem descWrite_framed (s : State) (n v : Nat) :
    Framed [.regs] [.rows] s (descWrite s n v) :=
  .of (descWrite_keeps s n v) (fun _ => descWrite_pg s n v) (by simp) (by decide)

theorem progWinWrite_framed (s : State) (p i v : Nat) :
    Framed [.regs, .parts] [.rows] s (progWinWrite s p i v) :=
  .of (progWinWrite_keeps s p i v) (fun _ => progWinWrite_pg s p i v) (fun h => by simp [h.facts]) (by decide)

theorem progSwap_framed (s : State) (p : Nat) :
    Framed [.regs] [.rows] s (progSwap s p) :=
  .of (progSwap_keeps s p) (fun _ => progSwap_pg s p) (by simp) (by decide)

/-! ### Machine/Harvest.lean -/

theorem rdIdxWrite_framed (s : State) (p v : Nat) :
    Framed [.regs] [.part, .harv] s (rdIdxWrite s p v) :=
  .of (rdIdxWrite_keeps s p v) (fun _ => rdIdxWrite_pg s p v) (by simp) (by decide)

/-! ### Machine/Quality.lean -/

theorem putPair_framed (s : State) (d c : Nat) (v : PairU) :
    Framed [.regs, .jrn, .pairs] [.part, .sel, .bbox] s (putPair s d c v) :=
  .of (putPair_keeps s d c v) (fun _ => putPair_pg s d c v) (fun h => by simp [h.facts]) (by decide)

theorem slewEnd_framed (s : State) (d : Nat) :
    Framed [.regs, .doms] [.part, .sel] s (slewEnd s d) :=
  .of (slewEnd_keeps s d) (fun _ => slewEnd_pg s d) (fun h => by simp [h.facts]) (by decide)

/-! ### Machine/Domain.lean -/

theorem enterLocked_framed (s : State) (d : Nat) :
    Framed [.regs, .jrn] [.dpll, .bbox] s (enterLocked s d) :=
  .of (enterLocked_keeps s d) (fun _ => enterLocked_pg s d) (fun h => by simp [h.facts]) (by decide)

theorem bridgeStop_framed (s : State) (d : Nat) :
    Framed [.regs, .doms] [.dpll] s (bridgeStop s d) :=
  .of (bridgeStop_keeps s d) (fun _ => bridgeStop_pg s d) (fun h => by simp [h.facts]) (by decide)

theorem closeSegment_framed (s : State) (d : Nat) :
    Framed [.regs, .doms] [.dpll] s (closeSegment s d) :=
  .of (closeSegment_keeps s d) (fun _ => closeSegment_pg s d) (fun h => by simp [h.facts]) (by decide)

theorem enterLost_framed (s : State) (d : Nat) :
    Framed [.regs, .jrn] [.dpll, .bbox] s (enterLost s d) :=
  .of (enterLost_keeps s d) (fun _ => enterLost_pg s d) (fun h => by simp [h.facts]) (by decide)

theorem loopBw_framed (s : State) (d : Nat) (bw damp : Option Nat) :
    Framed [.regs] [.dpll] s (loopBw s d bw damp) :=
  .of (loopBw_keeps s d bw damp) (fun _ => loopBw_pg s d bw damp) (by simp) (by decide)

/-! ### Machine/Synth.lean -/

theorem epochRequest_framed (s : State) (d : Nat) :
    Framed [.regs, .aplls] [.apll] s (epochRequest s d) :=
  .of (epochRequest_keeps s d) (fun _ => epochRequest_pg s d) (fun h => by simp [h.facts]) (by decide)

theorem outEnableWrite_framed (s : State) (n : Nat) (en : Bool) :
    Framed [.regs, .outs] [.out] s (outEnableWrite s n en) :=
  .of (outEnableWrite_keeps s n en) (fun _ => outEnableWrite_pg s n en) (fun h => by simp [h.facts]) (by decide)

theorem pulseModeWrite_framed (s : State) (n : Nat) (pulse : Bool) :
    Framed [.regs, .outs] [.out] s (pulseModeWrite s n pulse) :=
  .of (pulseModeWrite_keeps s n pulse) (fun _ => pulseModeWrite_pg s n pulse) (fun h => by simp [h.facts]) (by decide)

theorem dividerWrite_framed (s : State) (n : Nat) (div coarse : Option Nat) :
    Framed [.regs, .outs] [.out] s (dividerWrite s n div coarse) :=
  .of (dividerWrite_keeps s n div coarse) (fun _ => dividerWrite_pg s n div coarse) (fun h => by simp [h.facts]) (by decide)

theorem fineSet_framed (s : State) (n fine : Nat) :
    Framed [.regs] [.out] s (fineSet s n fine) :=
  .of (fineSet_keeps s n fine) (fun _ => fineSet_pg s n fine) (by simp) (by decide)

theorem pulsePeriodSet_framed (s : State) (n : Nat) (code per width : Option Nat) :
    Framed [.regs] [.out] s (pulsePeriodSet s n code per width) :=
  .of (pulsePeriodSet_keeps s n code per width) (fun _ => pulsePeriodSet_pg s n code per width) (by simp) (by decide)

theorem palignSet_framed (s : State) (n chan : Nat) (en : Bool) :
    Framed [.regs, .outs] [.out] s (palignSet s n chan en) :=
  .of (palignSet_keeps s n chan en) (fun _ => palignSet_pg s n chan en) (fun h => by simp [h.facts]) (by decide)

theorem palignOfsSet_framed (s : State) (n hi : Nat) :
    Framed [.regs, .outs] [.out] s (palignOfsSet s n hi) :=
  .of (palignOfsSet_keeps s n hi) (fun _ => palignOfsSet_pg s n hi) (fun h => by simp [h.facts]) (by decide)

theorem lockLost_framed (s : State) (d : Nat) :
    Framed [.regs, .jrn] [.apll, .bbox] s (lockLost s d) :=
  .of (lockLost_keeps s d) (fun _ => lockLost_pg s d) (fun h => by simp [h.facts]) (by decide)

theorem relockApll_framed (s : State) (d : Nat) :
    Framed [.regs, .jrn, .lanes, .funcs, .aplls] [.lane, .apll, .bbox] s (relockApll s d) :=
  .of (relockApll_keeps s d) (fun _ => relockApll_pg s d) (fun h => by simp [h.facts]) (by decide)

theorem retuneLocked_framed (s : State) (d : Nat) :
    Framed [.regs, .lanes, .funcs, .aplls] [.lane, .apll] s (retuneLocked s d) :=
  .of (retuneLocked_keeps s d) (fun _ => retuneLocked_pg s d) (fun h => by simp [h.facts]) (by decide)

theorem refLostAll_framed (s : State) :
    Framed [.regs, .jrn, .jrOn] [.apll, .bbox] s (refLostAll s) :=
  .of (refLostAll_keeps s) (fun _ => refLostAll_pg s) (fun h => by simp [h.facts]) (by decide)

theorem refBack_framed (s : State) :
    Framed [.regs, .jrn, .jrOn] [.apll, .bbox] s (refBack s) :=
  .of (refBack_keeps s) (fun _ => refBack_pg s) (fun h => by simp [h.facts]) (by decide)

theorem dllLost_framed (s : State) (n : Nat) :
    Framed [.regs] [.out] s (dllLost s n) :=
  .of (dllLost_keeps s n) (fun _ => dllLost_pg s n) (by simp) (by decide)

theorem dllLocked_framed (s : State) (n : Nat) :
    Framed [.regs] [.out] s (dllLocked s n) :=
  .of (dllLocked_keeps s n) (fun _ => dllLocked_pg s n) (by simp) (by decide)

/-! ### Machine/TimeUnit.lean -/

theorem steppedFrame_framed (s : State) (d : Nat) :
    Framed [.regs, .times] [.time] s (steppedFrame s d) :=
  .of (steppedFrame_keeps s d) (fun _ => steppedFrame_pg s d) (fun h => by simp [h.facts]) (by decide)

theorem hostSet_framed (s : State) (d : Nat) (abs rel : Bool) (due : Nat) :
    Framed [.freeIx, .times] [] s (hostSet s d abs rel due) :=
  .ofQuiet (hostSet_keeps s d abs rel due) (fun h => by simp [h.facts]) (by decide)

theorem trigArmAct_framed (s : State) (d k : Nat) :
    Framed [.regs, .times] [.time] s (trigArmAct s d k) :=
  .of (trigArmAct_keeps s d k) (fun _ => trigArmAct_pg s d k) (fun h => by simp [h.facts]) (by decide)

theorem trigDisarmAct_framed (s : State) (d k : Nat) :
    Framed [.regs, .times] [.time] s (trigDisarmAct s d k) :=
  .of (trigDisarmAct_keeps s d k) (fun _ => trigDisarmAct_pg s d k) (fun h => by simp [h.facts]) (by decide)

theorem capArmAct_framed (s : State) (d c : Nat) :
    Framed [.regs, .times] [.time] s (capArmAct s d c) :=
  .of (capArmAct_keeps s d c) (fun _ => capArmAct_pg s d c) (fun h => by simp [h.facts]) (by decide)

theorem capCancelAct_framed (s : State) (d c : Nat) :
    Framed [.regs, .times] [.time] s (capCancelAct s d c) :=
  .of (capCancelAct_keeps s d c) (fun _ => capCancelAct_pg s d c) (fun h => by simp [h.facts]) (by decide)

theorem baudSet_framed (s : State) (d v : Nat) :
    Framed [.regs, .times] [.time] s (baudSet s d v) :=
  .of (baudSet_keeps s d v) (fun _ => baudSet_pg s d v) (fun h => by simp [h.facts]) (by decide)

theorem capWrite_framed (s : State) (d c : Nat) :
    Framed [.regs, .times] [.time] s (capWrite s d c) :=
  .of (capWrite_keeps s d c) (fun _ => capWrite_pg s d c) (fun h => by simp [h.facts]) (by decide)

theorem todSend_framed (s : State) (d sec : Nat) (stepped : Bool) :
    Framed [.regs, .times] [.time] s (todSend s d sec stepped) :=
  .of (todSend_keeps s d sec stepped) (fun _ => todSend_pg s d sec stepped) (fun h => by simp [h.facts]) (by decide)

theorem nmea_framed (s : State) (d : Nat) (text : List Nat) (afterUs : Nat) :
    Framed [.regs, .times] [.time] s (nmea s d text afterUs) :=
  .of (nmea_keeps s d text afterUs) (fun _ => nmea_pg s d text afterUs) (fun h => by simp [h.facts]) (by decide)

/-! ### Machine/Gate.lean -/

theorem gateCall_framed (s : State) (cyc : Nat) (c : GateCall) :
    Framed [.regs, .jrn, .lanes, .funcs, .chans, .pkts, .gate, .ptps] [.part, .lane, .sel, .ptpts, .root, .bbox] s (gateCall s cyc c) :=
  .of (gateCall_keeps s cyc c) (fun _ => gateCall_pg s cyc c) (fun h => by simp [h.facts]) (by decide)

theorem gateJournal_framed (s : State) (code part data : Nat) :
    Framed [.regs, .jrn, .gate] [.root, .bbox] s (gateJournal s code part data) :=
  .of (gateJournal_keeps s code part data) (fun _ => gateJournal_pg s code part data) (fun h => by simp [h.facts]) (by decide)

theorem instOpen_framed (s : State) (p : Nat) :
    Framed [.regs] [.ptpts] s (instOpen s p) :=
  .of (instOpen_keeps s p) (fun _ => instOpen_pg s p) (by simp) (by decide)

/-! ### Machine/Ether.lean -/

theorem applyAct_framed (s : State) (d : Nat) :
    Framed [.regs, .jrn, .chans, .aplls, .outs] [.part, .apll, .out, .eth, .ptpts, .bbox] s (applyAct s d) :=
  .of (applyAct_keeps s d) (fun _ => applyAct_pg s d) (fun h => by simp [h.facts]) (by decide)

theorem portEnableWrite_framed (s : State) (n : Nat) (en : Bool) :
    Framed [.regs, .jrn, .chans] [.part, .eth, .ptpts, .bbox] s (portEnableWrite s n en) :=
  .of (portEnableWrite_keeps s n en) (fun _ => portEnableWrite_pg s n en) (fun h => by simp [h.facts]) (by decide)

theorem restartAn_framed (s : State) (n : Nat) :
    Framed [.eths] [] s (restartAn s n) :=
  .ofQuiet (restartAn_keeps s n) (fun h => by simp [h.facts]) (by decide)

theorem txFrame_framed (s : State) (p n : Nat) (b : List Nat) (rawF rawO : Nat) :
    Framed [.regs, .gate, .eths, .ptps] [.eth, .ptpts, .root] s (txFrame s p n b rawF rawO) :=
  .of (txFrame_keeps s p n b rawF rawO) (fun _ => txFrame_pg s p n b rawF rawO) (fun h => by simp [h.facts]) (by decide)

theorem ethReceive_framed (s : State) (n : Nat) (f : EthFrame) :
    Framed [.regs, .jrn, .lanes, .funcs, .chans, .pkts, .eths, .ptps] [.part, .lane, .sel, .eth, .ptpts, .bbox] s (ethReceive s n f) :=
  .of (ethReceive_keeps s n f) (fun _ => ethReceive_pg s n f) (fun h => by simp [h.facts]) (by decide)

theorem pcsLocks_framed (s : State) (n : Nat) (speedOk : Bool) :
    Framed [.regs, .jrn, .lanes, .funcs, .chans, .pkts, .eths] [.part, .lane, .sel, .eth, .ptpts, .bbox] s (pcsLocks s n speedOk) :=
  .of (pcsLocks_keeps s n speedOk) (fun _ => pcsLocks_pg s n speedOk) (fun h => by simp [h.facts]) (by decide)

theorem linkDown_framed (s : State) (n cause v : Nat) :
    Framed [.regs, .jrn, .chans] [.part, .eth, .ptpts, .bbox] s (linkDown s n cause v) :=
  .of (linkDown_keeps s n cause v) (fun _ => linkDown_pg s n cause v) (fun h => by simp [h.facts]) (by decide)

theorem calEnds_framed (s : State) (n : Nat) (rx tx : Int) :
    Framed [.regs] [.eth] s (calEnds s n rx tx) :=
  .of (calEnds_keeps s n rx tx) (fun _ => calEnds_pg s n rx tx) (by simp) (by decide)

theorem esmcReceive_framed (s : State) (n : Nat) (p : EsmcPdu) (cyc : Nat) :
    Framed [.regs, .jrn, .lanes, .funcs, .chans, .pkts, .gate, .eths, .ptps] [.part, .lane, .sel, .eth, .ptpts, .root, .bbox]
      s (esmcReceive s n p cyc) :=
  .of (esmcReceive_keeps s n p cyc) (fun _ => esmcReceive_pg s n p cyc) (fun h => by simp [h.facts]) (by decide)

theorem esmcSend_framed (s : State) (n : Nat) (event : Bool) :
    Framed [.regs, .eths] [.eth] s (esmcSend s n event) :=
  .of (esmcSend_keeps s n event) (fun _ => esmcSend_pg s n event) (fun h => by simp [h.facts]) (by decide)

/-! ### Machine/Ptp.lean -/

theorem syncReceive_framed (s : State) (p : Nat) (m : PtpMsg) (origin r : Rat) (cyc : Nat) :
    Framed [.regs, .jrn, .lanes, .funcs, .chans, .pkts, .gate, .eths, .ptps] [.part, .lane, .sel, .eth, .ptpts, .root, .bbox]
      s (syncReceive s p m origin r cyc) :=
  .of (syncReceive_keeps s p m origin r cyc) (fun _ => syncReceive_pg s p m origin r cyc) (fun h => by simp [h.facts]) (by decide)

theorem followUp_framed (s : State) (p : Nat) (m : PtpMsg) (origin r : Rat) (cyc : Nat) :
    Framed [.regs, .jrn, .lanes, .funcs, .chans, .pkts, .gate, .ptps] [.part, .lane, .sel, .eth, .ptpts, .root, .bbox] s
      (followUp s p m origin r cyc) :=
  .of (followUp_keeps s p m origin r cyc) (fun _ => followUp_pg s p m origin r cyc) (fun h => by simp [h.facts]) (by decide)

theorem announceReceive_framed (s : State) (p : Nat) (m : PtpMsg) (b : AnnounceBody) (cyc : Nat) :
    Framed [.regs, .jrn, .lanes, .funcs, .chans, .pkts, .gate, .ptps] [.part, .lane, .sel, .eth, .ptpts, .root, .bbox] s
      (announceReceive s p m b cyc) :=
  .of (announceReceive_keeps s p m b cyc) (fun _ => announceReceive_pg s p m b cyc) (fun h => by simp [h.facts]) (by decide)

theorem delayReq_framed (s : State) (p : Nat) (m : PtpMsg) :
    Framed [.regs, .jrn, .lanes, .funcs, .chans, .pkts, .eths, .ptps] [.part, .lane, .sel, .eth, .ptpts, .bbox] s (delayReq s p m) :=
  .of (delayReq_keeps s p m) (fun _ => delayReq_pg s p m) (fun h => by simp [h.facts]) (by decide)

theorem pdelayReq_framed (s : State) (p : Nat) (m : PtpMsg) (depF depO : Nat) :
    Framed [.regs, .jrn, .lanes, .funcs, .chans, .pkts, .eths, .ptps] [.part, .lane, .sel, .eth, .ptpts, .bbox] s
      (pdelayReq s p m depF depO) :=
  .of (pdelayReq_keeps s p m depF depO) (fun _ => pdelayReq_pg s p m depF depO) (fun h => by simp [h.facts]) (by decide)

theorem unicastRequest_framed (s : State) (p n slave : Nat) (l : Int) (duration : Nat) :
    Framed [.regs, .ptps] [.eth, .ptpts] s (unicastRequest s p n slave l duration) :=
  .of (unicastRequest_keeps s p n slave l duration) (fun _ => unicastRequest_pg s p n slave l duration)
    (fun h => by simp [h.facts]) (by decide)

theorem syncSend_framed (s : State) (p n : Nat) (b : List Nat) (rawF rawO : Nat) :
    Framed [.regs, .eths, .ptps] [.eth, .ptpts] s (syncSend s p n b rawF rawO) :=
  .of (syncSend_keeps s p n b rawF rawO) (fun _ => syncSend_pg s p n b rawF rawO) (fun h => by simp [h.facts]) (by decide)

theorem announceSend_framed (s : State) (p n : Nat) :
    Framed [.regs, .ptps] [.eth] s (announceSend s p n) :=
  .of (announceSend_keeps s p n) (fun _ => announceSend_pg s p n) (fun h => by simp [h.facts]) (by decide)

theorem parentLost_framed (s : State) (p : Nat) :
    Framed [.regs, .jrn, .ptps] [.part, .ptpts, .bbox] s (parentLost s p) :=
  .of (parentLost_keeps s p) (fun _ => parentLost_pg s p) (fun h => by simp [h.facts]) (by decide)

theorem delayReqSend_framed (s : State) (p n rawF rawO : Nat) :
    Framed [.regs, .eths, .ptps] [.eth, .ptpts] s (delayReqSend s p n rawF rawO) :=
  .of (delayReqSend_keeps s p n rawF rawO) (fun _ => delayReqSend_pg s p n rawF rawO) (fun h => by simp [h.facts]) (by decide)

theorem delayResp_framed (s : State) (p : Nat) (m : PtpMsg) (t1 t4 : Rat) :
    Framed [.regs, .jrn, .lanes, .funcs, .chans, .pkts, .eths, .ptps] [.part, .lane, .sel, .eth, .ptpts, .bbox] s
      (delayResp s p m t1 t4) :=
  .of (delayResp_keeps s p m t1 t4) (fun _ => delayResp_pg s p m t1 t4) (fun h => by simp [h.facts]) (by decide)

/-! ### Machine/Shelf.lean -/

theorem gateShelfTx_framed (s : State) (t : Nat) (p : List Nat) :
    Framed [.regs, .gate, .shelf] [.shelf, .root] s (gateShelfTx s t p) :=
  .of (gateShelfTx_keeps s t p) (fun _ => gateShelfTx_pg s t p) (by simp) (by decide)

theorem sendStatus_framed (s : State) :
    Framed [.regs, .shelf] [.shelf] s (sendStatus s) :=
  .of (sendStatus_keeps s) (fun _ => sendStatus_pg s) (by simp) (by decide)

theorem sendElect_framed (s : State) (judge : Bool) :
    Framed [.regs, .shelf] [.shelf] s (sendElect s judge) :=
  .of (sendElect_keeps s judge) (fun _ => sendElect_pg s judge) (by simp) (by decide)

theorem sendQlf_framed (s : State) :
    Framed [.regs, .shelf] [.shelf] s (sendQlf s) :=
  .of (sendQlf_keeps s) (fun _ => sendQlf_pg s) (by simp) (by decide)

theorem sendTod_framed (s : State) (sec : Nat) :
    Framed [.regs, .shelf] [.shelf] s (sendTod s sec) :=
  .of (sendTod_keeps s sec) (fun _ => sendTod_pg s sec) (by simp) (by decide)

theorem sendAlert_framed (s : State) (kind part dom data : Nat) :
    Framed [.regs, .shelf] [.shelf] s (sendAlert s kind part dom data) :=
  .of (sendAlert_keeps s kind part dom data) (fun _ => sendAlert_pg s kind part dom data) (by simp) (by decide)

theorem shelfRx_framed (s : State) (f : CanFrame) (cyc : Nat) :
    Framed [.regs, .jrn, .lanes, .funcs, .chans, .pkts, .gate, .ptps, .shelf]
      [.part, .lane, .sel, .ptpts, .shelf, .root, .bbox] s (shelfRx s f cyc) :=
  .of (shelfRx_keeps s f cyc) (fun _ => shelfRx_pg s f cyc) (fun h => by simp [h.facts]) (by decide)

theorem peerLapse_framed (s : State) (node : Nat) :
    Framed [.regs, .shelf] [.shelf] s (peerLapse s node) :=
  .of (peerLapse_keeps s node) (fun _ => peerLapse_pg s node) (by simp) (by decide)

theorem goSilent_framed (s : State) :
    Framed [.regs, .shelf] [.shelf] s (goSilent s) :=
  .of (goSilent_keeps s) (fun _ => goSilent_pg s) (by simp) (by decide)

theorem busOffEnter_framed (s : State) (tec : Nat) :
    Framed [.regs, .jrn, .shelf] [.shelf, .bbox] s (busOffEnter s tec) :=
  .of (busOffEnter_keeps s tec) (fun _ => busOffEnter_pg s tec) (fun h => by simp [h.facts]) (by decide)

theorem busOffLeave_framed (s : State) :
    Framed [.regs, .shelf] [.shelf] s (busOffLeave s) :=
  .of (busOffLeave_keeps s) (fun _ => busOffLeave_pg s) (by simp) (by decide)

/-! ### Machine/Cellar.lean -/

theorem storeCmd_framed (s : State) (p first countM1 : Nat) :
    Framed [.regs, .cellar, .root] [.root, .cellar] s (storeCmd s p first countM1) :=
  .of (storeCmd_keeps s p first countM1) (fun _ => storeCmd_pg s p first countM1) (by simp) (by decide)

theorem gateCellarStore_framed (s : State) (first count : Nat) :
    Framed [.regs, .gate, .cellar, .root] [.root, .cellar] s (gateCellarStore s first count) :=
  .of (gateCellarStore_keeps s first count) (fun _ => gateCellarStore_pg s first count) (by simp) (by decide)

theorem gateStoreRequest_framed (s : State) (first count : Nat) :
    Framed [.regs, .gate, .cellar, .root] [.root, .cellar] s (gateStoreRequest s first count) :=
  .of (gateStoreRequest_keeps s first count) (fun _ => gateStoreRequest_pg s first count) (by simp) (by decide)

theorem gateRingPut_framed (s : State) (k : Nat) (v : List Nat) :
    Framed [.regs, .mem, .gate, .cellar, .root] [.root, .cellar] s (gateRingPut s k v) :=
  .of (gateRingPut_keeps s k v) (fun _ => gateRingPut_pg s k v) (fun h => by simp [h.facts]) (by decide)

theorem cellarReady_framed (s : State) (v : Supply) :
    Framed [.regs, .mem, .cellar, .root] [.root, .cellar] s (cellarReady s v) :=
  .of (cellarReady_keeps s v) (fun _ => cellarReady_pg s v) (fun h => by simp [h.facts]) (by decide)

theorem engineStart_framed (s : State) (v : Supply) :
    Framed [.regs, .cellar, .root] [.root, .cellar] s (engineStart s v) :=
  .of (engineStart_keeps s v) (fun _ => engineStart_pg s v) (by simp) (by decide)

theorem scrubStep_framed (s : State) (r : ScrubRead) (v : Supply) :
    Framed [.regs, .mem, .jrn, .cellar, .root] [.root, .cellar, .bbox] s (scrubStep s r v) :=
  .of (scrubStep_keeps s r v) (fun _ => scrubStep_pg s r v) (fun h => by simp [h.facts]) (by decide)

/-! ### Machine/BlackBox.lean -/

theorem rdSeqWrite_framed (s : State) (v : Nat) :
    Framed [.regs, .jrn] [.bbox] s (rdSeqWrite s v) :=
  .of (rdSeqWrite_keeps s v) (fun _ => rdSeqWrite_pg s v) (fun h => by simp [h.facts]) (by decide)

theorem suppressionEnd_framed (s : State) :
    Framed [.jrn] [] s (suppressionEnd s) :=
  .ofQuiet (suppressionEnd_keeps s) (fun h => by simp [h.facts]) (by decide)

/-! ### Machine/Root.lean -/

theorem verifyCmd_framed (s : State) :
    Framed [.regs, .root] [.root] s (verifyCmd s) :=
  .of (verifyCmd_keeps s) (fun _ => verifyCmd_pg s) (by simp) (by decide)

theorem commitCmd_framed (s : State) :
    Framed [.regs, .mem, .jrn, .cellar, .root] [.root, .cellar, .bbox] s (commitCmd s) :=
  .of (commitCmd_keeps s) (fun _ => commitCmd_pg s) (fun h => by simp [h.facts]) (by decide)

theorem abortCmd_framed (s : State) :
    Framed [.regs, .mem, .jrn, .cellar, .root] [.root, .bbox] s (abortCmd s) :=
  .of (abortCmd_keeps s) (fun _ => abortCmd_pg s) (fun h => by simp [h.facts]) (by decide)

theorem imageLoad_framed (s : State) :
    Framed [.regs, .jrn, .lanes, .funcs, .chans, .pkts, .times, .gate, .ptps, .shelf, .root]
      [.sys, .part, .lane, .sel, .ptpts, .root, .bbox] s (imageLoad s) :=
  .of (imageLoad_keeps s) (fun _ => imageLoad_pg s) (fun h => by simp [h.facts]) (by decide)

theorem imageActivate_framed (s : State) :
    Framed [.root] [] s (imageActivate s) :=
  .ofQuiet (imageActivate_keeps s) (by simp) (by decide)

theorem imageCancel_framed (s : State) :
    Framed [.regs, .mem, .jrn, .lanes, .funcs, .chans, .pkts, .times, .gate, .ptps, .shelf, .cellar, .root]
      [.sys, .part, .lane, .sel, .ptpts, .root, .bbox] s (imageCancel s) :=
  .of (imageCancel_keeps s) (fun _ => imageCancel_pg s) (fun h => by simp [h.facts]) (by decide)

theorem leafHost_framed (s : State) :
    Framed [.regs, .jrn, .lanes, .funcs, .chans, .pkts, .times, .gate, .ptps, .shelf, .root]
      [.sys, .part, .lane, .sel, .ptpts, .root, .bbox] s (leafHost s) :=
  .of (leafHost_keeps s) (fun _ => leafHost_pg s) (fun h => by simp [h.facts]) (by decide)

theorem debugAsk_framed (s : State) :
    Framed [.regs, .jrn, .root] [.bbox, .dbg] s (debugAsk s) :=
  .of (debugAsk_keeps s) (fun _ => debugAsk_pg s) (fun h => by simp [h.facts]) (by decide)

theorem debugEnd_framed (s : State) (cause : Nat) :
    Framed [.regs, .jrn, .root] [.bbox, .dbg] s (debugEnd s cause) :=
  .of (debugEnd_keeps s cause) (fun _ => debugEnd_pg s cause) (fun h => by simp [h.facts]) (by decide)

theorem commitStep_framed (s : State) :
    Framed [.regs, .pol, .mem, .jrn, .rows, .parts, .chans, .pkts, .pairs, .doms, .aplls, .outs, .times, .gate, .ptps,
      .shelf, .cellar, .root] Page.every s (commitStep s) :=
  .ofAny (commitStep_keeps s) (fun h => by simp [h.facts])

theorem endVerify_framed (s : State) :
    Framed [.regs, .mem, .jrn, .cellar, .root] [.root, .cellar, .bbox] s (endVerify s) :=
  .of (endVerify_keeps s) (fun _ => endVerify_pg s) (fun h => by simp [h.facts]) (by decide)

theorem imageVerified_framed (s : State) :
    Framed [.regs, .mem, .jrn, .lanes, .funcs, .chans, .pkts, .times, .gate, .ptps, .shelf, .cellar, .root]
      [.sys, .part, .lane, .sel, .ptpts, .root, .cellar, .bbox] s (imageVerified s) :=
  .of (imageVerified_keeps s) (fun _ => imageVerified_pg s) (fun h => by simp [h.facts]) (by decide)

theorem leafStart_framed (s : State) :
    Framed [.regs, .mem, .shelf, .cellar, .root] [.sys, .shelf, .root, .cellar] s (leafStart s) :=
  .of (leafStart_keeps s) (fun _ => leafStart_pg s) (fun h => by simp [h.facts]) (by decide)

theorem leafFault_framed (s : State) (cause : Nat) :
    Framed [.regs, .jrn, .lanes, .funcs, .chans, .pkts, .times, .gate, .ptps, .shelf, .root]
      [.sys, .part, .lane, .sel, .ptpts, .root, .bbox] s (leafFault s cause) :=
  .of (leafFault_keeps s cause) (fun _ => leafFault_pg s cause) (fun h => by simp [h.facts]) (by decide)

theorem storeGiveUp_framed (s : State) (v : Supply) :
    Framed [.regs, .mem, .jrn, .lanes, .funcs, .chans, .pkts, .times, .gate, .ptps, .shelf, .cellar, .root]
      [.sys, .part, .lane, .sel, .ptpts, .root, .cellar, .bbox] s (storeGiveUp s v) :=
  .of (storeGiveUp_keeps s v) (fun _ => storeGiveUp_pg s v) (fun h => by simp [h.facts]) (by decide)

/-! ### Machine/Power.lean -/

theorem powerFail_framed (s : State) (cause vin holdup : Nat) :
    Framed [.phase, .regs, .writeQ, .i2cHold, .mem, .jrn, .lanes, .funcs, .chans, .pkts, .outs, .times, .gate, .ptps, .shelf,
      .cellar, .root, .power] [.sys, .part, .lane, .sel, .out, .eth, .ptpts, .shelf, .root, .cellar, .bbox, .pwr, .osc] s
        (powerFail s cause vin holdup) :=
  .of (powerFail_keeps s cause vin holdup) (fun _ => powerFail_pg s cause vin holdup) (fun h => by simp [h.facts]) (by decide)

theorem pfRecover_framed (s : State) (vin ms : Nat) :
    Framed [.regs, .mem, .jrn, .shelf, .cellar, .root, .power] [.shelf, .root, .cellar, .bbox, .pwr, .osc] s (pfRecover s vin ms) :=
  .of (pfRecover_keeps s vin ms) (fun _ => pfRecover_pg s vin ms) (fun h => by simp [h.facts]) (by decide)

theorem shutdown_framed (s : State) :
    Framed [.phase, .regs, .writeQ, .i2cHold, .jrn, .outs, .shelf, .cellar, .power] [.out, .pwr] s (shutdown s) :=
  .of (shutdown_keeps s) (fun _ => shutdown_pg s) (fun h => by simp [h.facts]) (by decide)

theorem warmDone_framed (s : State) :
    Framed [.regs] [.osc] s (warmDone s) :=
  .of (warmDone_keeps s) (fun _ => warmDone_pg s) (by simp) (by decide)

theorem ovenFault_framed (s : State) :
    Framed [.regs, .jrn] [.sys, .bbox, .osc] s (ovenFault s) :=
  .of (ovenFault_keeps s) (fun _ => ovenFault_pg s) (fun h => by simp [h.facts]) (by decide)

theorem warmStart_framed (s : State) :
    Framed [.regs, .power] [.osc] s (warmStart s) :=
  .of (warmStart_keeps s) (fun _ => warmStart_pg s) (by simp) (by decide)

/-! ### Machine/Start.lean -/

theorem powerOn_framed (s : State) (i : StartIn) :
    Framed (Component.allBut [.pending, .freeIx, .vio]) Page.every s (powerOn s i) :=
  .ofAny (powerOn_keeps s i) (fun h k _ => (inv_iff_sound _).mp ⟨powerOn_shaped s i, powerOn_wf s i h.mem, powerOn_jq s i h.jrn⟩ k)

theorem resetHold_framed (s : State) :
    Framed [.phase, .regs, .snapReq, .snapAll, .writeQ, .spi, .i2c, .i2cHold, .outs, .gate, .shelf, .cellar, .root, .power]
      [.sys, .root] s (resetHold s) :=
  .of (resetHold_keeps s) (fun _ => resetHold_pg s) (fun h => by simp [h.facts]) (by decide)

theorem resetRelease_framed (s : State) (straps : Straps) :
    Framed (Component.allBut [.pending, .freeIx, .vio, .jrOn]) Page.every s (resetRelease s straps) :=
  .ofAny (by simp [SameAll, Component.allBut, Component.all, Component.same, cite @resetRelease_keeps]) (fun h k _ =>
    (inv_iff_sound _).mp ⟨resetRelease_shaped s straps, resetRelease_wf s straps h.mem, resetRelease_jq s straps h.jrn⟩ k)

theorem procReset_framed (s : State) :
    Framed [.regs, .mem, .jrn, .lanes, .funcs, .chans, .pkts, .times, .gate, .ptps, .shelf, .cellar, .root]
      [.sys, .part, .lane, .sel, .ptpts, .shelf, .root, .bbox, .dbg] s (procReset s) :=
  .of (procReset_keeps s) (fun _ => procReset_pg s) (fun h => by simp [h.facts]) (by decide)

theorem softReset_framed (s : State) :
    Framed [.regs, .mem, .jrn, .lanes, .funcs, .rows, .parts, .chans, .pkts, .pairs, .doms, .aplls, .times, .gate, .ptps,
      .shelf, .cellar, .root] Page.every s (softReset s) :=
  .ofAny (softReset_keeps s) (fun h => by simp [h.facts])

/-! ### Machine/Reads.lean -/

theorem shiftOut_framed (s : State) (p : Port) (l : List Nat) :
    Framed [.spi, .i2c] [] s (shiftOut s p l) :=
  .ofQuiet (shiftOut_keeps s p l) (by simp) (by decide)

theorem gateRegRead_framed (s : State) (a n : Nat) :
    Framed [.freeIx, .regs, .spi, .i2c, .gate, .shelf] [.root] s (gateRegRead s a n) :=
  .of (gateRegRead_keeps s a n) (fun _ => gateRegRead_pg s a n) (by simp) (by decide)

/-! ### Machine/Ports.lean -/

theorem spiWriteTxn_framed (s : State) (t : SpiWrite) :
    Framed [.cyc, .regs, .snapReq, .snapAll, .writeQ, .spi, .i2c, .mem, .jrn, .cellar, .root] Page.every s (spiWriteTxn s t) :=
  .ofAny (spiWriteTxn_keeps s t) (fun h => by simp [h.facts])

theorem spiReadTxn_framed (s : State) (t : SpiRead) :
    Framed [.freeIx, .cyc, .spi, .i2c, .gate, .shelf] [] s (spiReadTxn s t) :=
  .ofQuiet (spiReadTxn_keeps s t) (by simp) (by decide)

theorem i2cWriteTxn_framed (s : State) (t : I2cWrite) :
    Framed [.cyc, .regs, .snapReq, .snapAll, .writeQ, .spi, .i2c, .i2cHold, .mem, .jrn, .cellar, .root] Page.every s
      (i2cWriteTxn s t) :=
  .ofAny (i2cWriteTxn_keeps s t) (fun h => by simp [h.facts])

theorem i2cReadTxn_framed (s : State) (t : I2cRead) :
    Framed [.freeIx, .cyc, .spi, .i2c, .i2cHold, .gate, .shelf] [] s (i2cReadTxn s t) :=
  .ofQuiet (i2cReadTxn_keeps s t) (by simp) (by decide)

theorem holdTimeout_framed (s : State) :
    Framed [.spi, .i2c, .i2cHold] [] s (holdTimeout s) :=
  .ofQuiet (holdTimeout_keeps s) (by simp) (by decide)

theorem oneWrite_framed (s : State) (a : Access) (addr v : Nat) :
    Framed [.cyc, .regs, .snapReq, .snapAll, .writeQ, .spi, .i2c, .i2cHold, .mem, .jrn, .cellar, .root] Page.every s
      (oneWrite s a addr v) :=
  .ofAny (oneWrite_keeps s a addr v) (fun h => by simp [h.facts])

/-! ### Machine/Frame.lean -/

theorem frameZero_framed (s : State) (src : Nat) :
    Framed (Component.allBut
      [.pending, .straps, .snaps, .snapReq, .snapAll, .spi, .i2c, .i2cHold, .power, .vio, .tbHold, .jrOn]) Page.every s
        (frameZero s src) :=
  .ofAny (frameZero_keeps s src) (fun h k _ => by cases k <;> simp [h.facts])

theorem tbSwitch_framed (s : State) :
    Framed [.regs, .jrn, .doms, .tbHold] [.sys, .frame, .dpll, .bbox] s (tbSwitch s) :=
  .of (tbSwitch_keeps s) (fun _ => tbSwitch_pg s) (fun h => by simp [h.facts]) (by decide)

theorem tbLost_framed (s : State) :
    Framed [.phase, .regs, .mem, .jrn, .outs, .cellar, .root] [.sys, .out, .root, .cellar, .bbox] s (tbLost s) :=
  .of (tbLost_keeps s) (fun _ => tbLost_pg s) (fun h => by simp [h.facts]) (by decide)

theorem frameTick_framed (s : State) (i : FrameIn) :
    Framed (Component.allBut [.pending, .phase, .straps, .spi, .i2c, .i2cHold, .vio, .jrOn]) Page.every s (frameTick s i) :=
  .ofAny (frameTick_keeps s i) (fun h k _ => by cases k <;> simp [h.facts])

/-! ### Commands of more than one operation -/

theorem setF_framed (s : State) (f : Fld) (n k j v : Nat) : Framed [.regs] [f.page] s (setF s f n k j v) :=
  .of (setF_keeps s f n k j v) (fun _ hq => setF_pg s f n k j v (List.mem_singleton.not.mp hq)) (by simp) fun _ => id

theorem set1_framed (s : State) (f : Fld) (n v : Nat) : Framed [.regs] [f.page] s (set1 s f n v) := setF_framed s f n 0 0 v

theorem evt_framed (s : State) (p : Page) (n bit : Nat) : Framed [.regs] [p] s (evt s p n bit) :=
  .of (evt_keeps s p n bit) (fun _ hq => evt_pg s p n bit (List.mem_singleton.not.mp hq)) (by simp) fun _ => id

theorem addCnt_framed (s : State) (f : Fld) (n k m : Nat) : Framed [.regs] [f.page] s (addCnt s f n k m) :=
  .of (addCnt_keeps s f n k m) (fun _ hq => addCnt_pg s f n k m (List.mem_singleton.not.mp hq)) (by simp) fun _ => id

/-- A field is set and an event of its page raised. -/
theorem evt_set1_framed (s : State) (f : Fld) (n v bit : Nat) : Framed [.regs] [f.page] s (evt (set1 s f n v) f.page n bit) :=
  (set1_framed s f n v).trans (evt_framed _ _ n bit)

theorem modPower_framed (s : State) (f : PowerU → PowerU) : Framed [.power] [] s (modPower s f) :=
  .ofQuiet (modPower_keeps s f) (by simp) (by decide)

theorem tbSwitched_framed (s : State) (src cause : Nat) : Framed [.regs, .jrn] [.sys, .frame, .bbox] s (tbSwitched s src cause) :=
  .of (tbSwitched_keeps ..) (fun _ => tbSwitched_pg s src cause) (fun h => by simp [h.facts]) (by decide)

theorem drainAll_framed (s : State) : Framed [.regs, .mem, .jrn, .cellar, .root] [.root, .cellar, .bbox] s (drainAll s) :=
  .of (drainAll_keeps s) (fun _ => drainAll_pg s) (fun h => by simp [h.facts]) (by decide)

/-- A start on the other source. -/
theorem fallback_framed (s : State) (src : Nat) :
    Framed (Component.allBut [.pending, .straps, .snaps, .snapReq, .snapAll, .spi, .i2c, .i2cHold, .power, .vio, .tbHold, .jrOn])
      Page.every s (drainAll (frameZero (tbSwitched s src 0) src)) :=
  ((tbSwitched_framed s src 0).mono (by decide) (by decide)).trans
    ((frameZero_framed _ src).trans ((drainAll_framed _).mono (by decide) (by decide)))

theorem windowsClosed_framed (s : State) (l : List Nat) : Framed [.regs, .chans] [.sel] s (l.foldl windowClose s) :=
  .of (l := [.sel]) (show OnlyRegsChans s _ by simp [OnlyRegsChans, cite @windowClose_keeps])
    (fun q hq => foldl_pgs _ (fun t c => windowClose_pg t c hq) l s) (fun h => by simp [h.facts]) (by decide)

theorem calibrate_framed (s : State) (n : Nat) (result : Option Int) (bad : Bool) :
    Framed [.regs, .lanes] [.lane] s (calibrate s n result bad).1 :=
  .of (calibrate_keeps s n result bad) (fun _ => calibrate_pg s n result bad) (fun h => by simp [h.facts]) (by decide)

theorem moveFaulted_framed (s : State) (bad : List (Nat × Nat)) :
    Framed [.regs, .jrn, .lanes, .funcs] [.sys, .part, .lane, .bbox] s (moveFaulted s bad) :=
  .of (moveFaulted_keeps s bad) (fun _ => moveFaulted_pg s bad) (fun h => by simp [h.facts]) (by decide)

theorem bridgeMoved_framed (s : State) : Framed [.regs, .doms] [.dpll] s (bridgeMoved s) :=
  .of (bridgeMoved_keeps s) (fun _ => bridgeMoved_pg s) (fun h => by simp [h.facts]) (by decide)

/-- A calibration pair that is a lane fault: the lane moves and the bridge starts. -/
theorem laneFaultMoved_framed (s : State) (n : Nat) (result : Option Int) (bad : Bool) (l : List (Nat × Nat)) :
    Framed [.regs, .jrn, .lanes, .funcs, .doms] [.sys, .part, .lane, .dpll, .bbox] s
      (bridgeMoved (moveFaulted (calibrate s n result bad).1 l)) :=
  ((calibrate_framed s n result bad).mono (by decide) (by decide)).trans
    (((moveFaulted_framed _ l).mono (by decide) (by decide)).trans ((bridgeMoved_framed _).mono (by decide) (by decide)))

theorem modChan_framed (s : State) (c : Nat) (f : ChanU → ChanU) : Framed [.chans] [] s (modChan s c f) :=
  .ofQuiet (modChan_keeps s c f) (fun h => by simp [h.facts]) (by decide)

theorem activityTimeout_framed (s : State) (c : Nat) (f : ChanU → ChanU) :
    Framed [.regs, .lanes, .funcs, .chans, .pkts] [.part, .lane, .sel] s (activityChange (modChan s c f) c) :=
  ((modChan_framed s c f).mono (by decide) (by decide)).trans
    (.of (activityChange_keeps _ c) (fun _ => activityChange_pg _ c) (fun h => by simp [h.facts]) (by decide))

theorem qlLapse_framed (s : State) (c : Nat) :
    Framed [.regs, .jrn, .chans] [.part, .sel, .bbox] s (publishQl (qlExpire s c) c) :=
  .trans (.of (qlExpire_keeps s c) (fun _ => qlExpire_pg s c) (fun h => by simp [h.facts, qlExpire_jq s c h.jrn]) (by decide))
    (.mono (w := [.regs]) (pg := [.sel]) (.of (publishQl_keeps _ c) (fun _ => publishQl_pg _ c) (by simp) (by decide))
      (by decide) (by decide))

theorem frnRead_framed (s : State) (p : Port) (sys : Bool) (l : List Nat) :
    Framed [.spi, .i2c, .gate, .shelf] [] s (shiftOut (latchFrn s (.port p) sys) p l) :=
  .trans (.ofQuiet (latchFrn_keeps s (.port p) sys) (by simp) (by decide))
    ((shiftOut_framed _ p l).mono (by decide) (by decide))

theorem nowRead_framed (s : State) (p : Port) (d cyc : Nat) (l : List Nat) :
    Framed [.freeIx, .cyc, .spi, .i2c, .gate, .shelf] [] s (shiftOut (latchNow { s with cyc := cyc } (.port p) d).2 p l) :=
  .ofQuiet (by simp [SameAll, Component.allBut, Component.all, Component.same, cite @shiftOut_keeps, cite @latchNow_keeps])
    (by simp) (by decide)

theorem accRead_framed (s : State) (p : Port) (tag a : Nat) (l : List Nat) (f : PortSt → PortSt) :
    Framed [.freeIx, .spi, .i2c, .gate, .shelf] [] s (modPort (shiftOut (readWord s p tag a).2 p l) p f) :=
  .ofQuiet (show OnlyFreeIxSpiI2cGateShelf s _ by
    simp [OnlyFreeIxSpiI2cGateShelf, cite @modPort_keeps, cite @shiftOut_keeps, cite @readWord_keeps]) (by simp) (by decide)

theorem kick_framed (s : State) (f : RootU → RootU) (r : Nat) : Framed [.gate, .root] [] s (gateRes (modRoot s f) r) :=
  .ofQuiet (by simp [SameAll, Component.allBut, Component.all, Component.same, cite @gateRes_keeps, cite @modRoot_keeps])
    (by simp) (by decide)

theorem modPtp_framed (s : State) (p : Nat) (f : PtpU → PtpU) : Framed [.ptps] [] s (modPtp s p f) :=
  .ofQuiet (modPtp_keeps s p f) (fun h => by simp [h.facts]) (by decide)

theorem modShelf_framed (s : State) (f : ShelfU → ShelfU) : Framed [.shelf] [] s (modShelf s f) :=
  .ofQuiet (modShelf_keeps s f) (by simp) (by decide)

/-- The next second begins: the counter moves to it, the pending zeroings act and the rollover is marked. -/
theorem modTime_framed (s : State) (d : Nat) (f : TimeU → TimeU) (hf : ∀ u, (f u).trigs = u.trigs ∧ (f u).caps = u.caps) :
    Framed [.times] [] s (modTime s d f) :=
  .ofQuiet (modTime_keeps s d f) (fun h => by
    simpa [h.facts] using modTime_len s d f (fun u => by rw [(hf u).1]) fun u => by rw [(hf u).2]) (by decide)

theorem zeroNow_framed (s : State) (d : Nat) : Framed [.regs, .aplls, .outs] [.apll, .out] s (zeroNow s d) :=
  .of (zeroNow_keeps s d) (fun _ => zeroNow_pg s d) (fun h => by simp [h.facts]) (by decide)

theorem rollEffects_framed (s : State) (d sec : Nat) : Framed [.times] [] s (rollEffects s d sec) :=
  .ofQuiet (rollEffects_keeps s d sec) (fun h => by simp [h.facts]) (by decide)

theorem timeMark_framed (s : State) (d : Nat) : Framed [.regs, .jrn, .times] [.bbox] s (timeMark s d) :=
  .of (timeMark_keeps s d) (fun _ => timeMark_pg s d) (fun h => by simp [h.facts]) (by decide)

/-- The next second begins: the counter moves to it, the pending zeroings act and the rollover is marked. -/
theorem rollover_framed (s : State) (d sec : Nat) (f : TimeU → TimeU) (hf : ∀ u, (f u).trigs = u.trigs ∧ (f u).caps = u.caps) :
    Framed [.regs, .jrn, .aplls, .outs, .times] [.apll, .out, .bbox] s
      (timeMark (rollEffects (zeroNow (modTime s d f) d) d sec) d) :=
  ((modTime_framed s d f hf).mono (by decide) (by decide)).trans (((zeroNow_framed _ d).mono (by decide) (by decide)).trans
    (((rollEffects_framed _ d sec).mono (by decide) (by decide)).trans ((timeMark_framed _ d).mono (by decide) (by decide))))

theorem fireTrig_framed (s : State) (d k t n frm : Nat) (late jumped : Bool) (cyc : Nat) (c : Rat) :
    Framed [.regs, .outs, .times] [.time] s (fireTrig s d k t n frm late jumped cyc c) :=
  .of (fireTrig_keeps ..) (fun _ => fireTrig_pg s d k t n frm late jumped cyc c) (fun h => by simp [h.facts]) (by decide)

theorem modTrig_framed (s : State) (d k : Nat) (f : TrigU → TrigU) : Framed [.times] [] s (modTrig s d k f) :=
  .ofQuiet (modTrig_keeps s d k f) (fun h => by simp [h.facts]) (by decide)

theorem trigInterval_framed (s : State) (d k : Nat) (edges : List Rat) (barred : Rat → Bool) :
    Framed [.regs] [.time] s (trigInterval s d k edges barred) :=
  .of (trigInterval_keeps ..) (fun _ => trigInterval_pg s d k edges barred) (by simp) (by decide)

theorem capTake_framed (s : State) (d c t : Nat) : Framed [.times] [] s (capTake s d c t) :=
  .ofQuiet (capTake_keeps s d c t) (fun h => by simp [h.facts]) (by decide)

theorem holdupMin_framed (s : State) (mv : Nat) : Framed [.regs] [.pwr] s (holdupMin s mv) :=
  .of (holdupMin_keeps s mv) (fun _ => holdupMin_pg s mv) (by simp) (by decide)

/-- A completed store, the reset that waited for it and the transaction that it held. -/
theorem storeEnds_framed (s : State) (v : Supply) :
    Framed (Component.allBut [.pending, .vio, .jrOn]) Page.every s (releaseHold (resetAfterPf (storeDone s v))) :=
  .ofAny (by simp [SameAll, Component.allBut, Component.all, Component.same, cite @releaseHold_keeps, cite @resetAfterPf_keeps,
    cite @storeDone_keeps]) fun h => by
      have hdone : Shaped (storeDone s v) := by
        apply shaped_of_sizes h.shape <;> simp [cite @storeDone_keeps]
      have hshape : Shaped (releaseHold (resetAfterPf (storeDone s v))) := by
        apply shaped_of_sizes (resetAfterPf_shaped _ hdone) <;> simp [cite @releaseHold_keeps]
      have hmem := releaseHold_wf _ (resetAfterPf_wf _ (storeDone_wf s v h.mem))
      have hjrn := releaseHold_jq _ (resetAfterPf_jq _ (storeDone_jq s v h.jrn))
      exact fun k _ => (inv_iff_sound _).mp ⟨hshape, hmem, hjrn⟩ k

theorem ringWrite_framed (s : State) : Framed [.mem, .cellar] [] s (ringWrite s) :=
  .ofQuiet (ringWrite_keeps s) (fun h => by simp [h.facts]) (by decide)

theorem addJob_framed (s : State) (j : StoreJob) : Framed [.cellar] [] s (addJob s j) :=
  .ofQuiet (addJob_keeps s j) (by simp) (by decide)

theorem engineKick_framed (s : State) (v : Supply) : Framed [.regs, .cellar, .root] [.root, .cellar] s (engineKick s v) :=
  .of (engineKick_keeps s v) (fun _ => engineKick_pg s v) (by simp) (by decide)

theorem ringBegins_framed (s : State) (j : StoreJob) (v : Supply) :
    Framed [.regs, .mem, .cellar, .root] [.root, .cellar] s (engineKick (addJob (ringWrite s) j) v) :=
  ((ringWrite_framed s).mono (by decide) (by decide)).trans (((addJob_framed _ j).mono (by decide) (by decide)).trans
    ((engineKick_framed _ v).mono (by decide) (by decide)))

theorem drainUp_framed (s : State) : Framed [.regs, .mem, .jrn, .cellar, .root] [.root, .cellar, .bbox] s (drainOne (rootUp s)) :=
  .trans (.mono (w := [.root]) (pg := []) (.ofQuiet (rootUp_keeps s) (by simp) (by decide)) (by decide) (by decide))
    (.of (drainOne_keeps _) (fun _ => drainOne_pg _) (fun h => by simp [h.facts]) (by decide))

theorem lostHeld_framed (s : State) (n : Nat) : Framed [.jrn] [] s (pumpHeld n (holdLost s)) :=
  .ofQuiet (show OnlyJrn s _ by simp [OnlyJrn, cite @pumpHeld_keeps, cite @holdLost_keeps]) (fun h => by simp [h.facts]) (by decide)

theorem modOut_framed (s : State) (n : Nat) (f : OutU → OutU) : Framed [.outs] [] s (modOut s n f) :=
  .ofQuiet (modOut_keeps s n f) (fun h => by simp [h.facts]) (by decide)

/-- An event of an output beside a change of its unit. -/
theorem evt_modOut_framed (s : State) (n bit : Nat) (f : OutU → OutU) :
    Framed [.regs, .outs] [.out] s (evt (modOut s n f) .out n bit) :=
  ((modOut_framed s n f).mono (by decide) (by decide)).trans ((evt_framed _ .out n bit).mono (by decide) (by decide))

/-- A release of RESET_N that waits for the reset. -/
theorem resetFreed_framed (s : State) (f : PowerU → PowerU) :
    Framed (Component.allBut [.pending, .freeIx, .vio, .jrOn]) Page.every s (modPower s f) :=
  (modPower_framed s f).mono (by decide) (by decide)

theorem vioGone_framed (s : State) : Framed [.i2cHold, .vio] [] s { s with vio := false, i2cHold := none } :=
  .ofQuiet (by simp [SameAll, Component.allBut, Component.all, Component.same]) (by simp) (by decide)

theorem vioBack_framed (s : State) : Framed [.vio] [] s { s with vio := true } :=
  .ofQuiet (by simp [SameAll, Component.allBut, Component.all, Component.same]) (by simp) (by decide)

theorem regResp_framed (s : State) (r : RegReq) :
    Framed [.freeIx, .regs, .spi, .i2c, .gate, .shelf] [.shelf] s (regResp s r) :=
  .of (regResp_keeps s r) (fun _ => regResp_pg s r) (by simp) (by decide)

theorem holdupOk_framed (s : State) (mv : Nat) : Framed [.regs] [.pwr] s (holdupOk s mv) :=
  .of (holdupOk_keeps s mv) (fun _ => holdupOk_pg s mv) (by simp) (by decide)

theorem evtIf_framed (c : Bool) (s : State) (p : Page) (n bit : Nat) : Framed [.regs] [p] s (evtIf c s p n bit) :=
  .of (evtIf_keeps c s p n bit) (fun _ hq => evtIf_pg c s p n bit (List.mem_singleton.not.mp hq)) (by simp) fun _ => id

/-! ### What every command does -/

/-- A command does what its frame allows. -/
abbrev Moves (w : List Component) (pg : List Page) (s : State) (o : Host.Outcome State Fault Refusal) : Prop := Does (Framed w pg s) o

theorem idle {w : List Component} {pg : List Page} {s : State} : Moves w pg s (.next s) := .next .refl

theorem calibration_moves (s : State) (n : Nat) (result : Option Int) (bad : Bool) :
    Moves [.regs, .jrn, .lanes, .funcs, .doms] [.sys, .part, .lane, .dpll, .bbox] s
      (match (calibrate s n result bad).2 with
       | none => .next (calibrate s n result bad).1
       | some k => .next (bridgeMoved (moveFaulted (calibrate s n result bad).1 [(n, k)]))) := by
  split
  · exact .next ((calibrate_framed s n result bad).mono (by decide) (by decide))
  · exact .next (laneFaultMoved_framed s n result bad _)

theorem capEdge_moves (s : State) (d c : Nat) (e : Option Nat) :
    Moves [.regs, .times] [.time] s
      (match e with
       | some t => .next (capWrite (capTake s d c t) d c)
       | none => .next s) := by
  cases e with
  | none => exact idle
  | some t => exact .next (((capTake_framed s d c t).mono (by decide) (by decide)).trans (capWrite_framed _ d c))

theorem todMessage_moves (s : State) (d : Nat) : Moves [.regs, .times] [.time] s
    (match (timeOf s d).todDue with
     | (sec, _, st) :: _ => if todSends s d then .next (todSend s d sec st) else .next s
     | [] => .next s) := by
  split
  · exact .ite (.next (todSend_framed s d _ _)) idle
  · exact idle

theorem shelfTod_moves (s : State) : Moves [.regs, .shelf] [.shelf] s (execShelfTodTx s) := by
  unfold execShelfTodTx
  split
  · exact .next (sendTod_framed s _)
  · exact .next (sendTod_framed s _)
  · exact idle

theorem regResp_moves (s : State) : Moves [.freeIx, .regs, .spi, .i2c, .gate, .shelf] [.shelf] s (execRegResp s) := by
  unfold execRegResp
  split
  · exact idle
  · exact .next (((modShelf_framed s _).mono (by decide) (by decide)).trans (regResp_framed _ _))

theorem capEstimate_moves (s : State) (us : Nat) : Moves [.regs] [.pwr] s (execCapEstimate us s) :=
  .ite idle (.next ((set1_framed s PWR.CAP_EST 0 _).trans ((set1_framed _ PWR.RESERVE 0 _).trans (evtIf_framed _ _ .pwr 0 3))))

/-- Every command answers exactly if it is well formed, and changes what is listed for it. -/
theorem exec_framed (c : Instr) (s : State) : Answers c.wellFormed (Framed c.writes c.pages s) (exec c s) := by
  cases c with
  | powerOnReset _ => exact .always (.ite (.next (powerOn_framed s _)) idle)
  | resetNFall => exact .always (.ite idle (.ite (.next ((modPower_framed s _).mono (by decide) (by decide))) (.next (resetHold_framed s))))
  | resetNRelease _ => exact .always (.ite (.next (resetRelease_framed s _)) (.ite (.next (resetFreed_framed s _)) idle))
  | timebaseQualified => exact .always (.ite (.next (frameZero_framed s _)) idle)
  | tbFallback => exact .always (.ite (.next (fallback_framed s _)) idle)
  | tbSwitch => exact .always (.ite (.next (tbSwitch_framed s)) idle)
  | tbLost => exact .always (.ite (.next (tbLost_framed s)) idle)
  | procReset => exact .always (.ite idle (.next (procReset_framed s)))
  | softReset _ => exact .guarded (.ite (.next (softReset_framed s)) idle)
  | frameTick _ => exact .always (.ite (.next (frameTick_framed s _)) idle)
  | qualifierWindowClose => exact .always (.ite (.next (windowsClosed_framed s _)) idle)
  | laneCalibration _ => exact .guarded (.ite (calibration_moves s _ _ _) idle)
  | spareCalDone _ => exact .guarded (.ite (.next (spareCalEnd_framed s _)) idle)
  | padOverdrive _ => exact .guarded (.ite idle (.next (overdriveOnset_framed s _)))
  | suspectEnd _ => exact .guarded (.ite (.next (suspectTick_framed s _)) idle)
  | actTimeout _ => exact .guarded (.ite idle (.next (activityTimeout_framed s _ _)))
  | qlTimeout _ => exact .guarded (.ite (.next (qlLapse_framed s _)) idle)
  | holdOffExpiry _ _ => exact .guarded (.ite (.next (putPair_framed s _ _ _)) idle)
  | wtrExpiry _ _ => exact .guarded (.ite (.next (putPair_framed s _ _ _)) idle)
  | lockAchieved _ => exact .guarded (.ite (.next (enterLocked_framed s _)) idle)
  | slewDone _ => exact .guarded (.ite (.next (slewEnd_framed s _)) idle)
  | bridgeEnd _ => exact .guarded (.ite (.next (bridgeStop_framed s _)) idle)
  | historySegment _ => exact .guarded (.ite (.next (closeSegment_framed s _)) idle)
  | duskExpiry _ => exact .guarded (.ite (.next (enterLost_framed s _)) idle)
  | steppedEnd _ => exact .guarded (.next (steppedFrame_framed s _))
  | nop _ => exact .guarded (.next (insCommand_framed s _ _))
  | openZero _ _ => exact .guarded (.next (insCommand_framed s _ _))
  | openBias _ _ _ => exact .guarded (.next (insCommand_framed s _ _))
  | openResidual _ _ _ => exact .guarded (.next (insCommand_framed s _ _))
  | openCarry _ _ => exact .guarded (.next (insCommand_framed s _ _))
  | acc _ _ _ _ _ _ _ => exact .guarded (.next (insCommand_framed s _ _))
  | diff _ _ _ _ _ _ _ => exact .guarded (.next (insCommand_framed s _ _))
  | xdif _ _ _ _ _ _ _ => exact .guarded (.next (insCommand_framed s _ _))
  | sync _ _ _ _ => exact .guarded (.next (insCommand_framed s _ _))
  | close _ _ => exact .guarded (.next (insCommand_framed s _ _))
  | endProg _ => exact .guarded (.next (insCommand_framed s _ _))
  | spiWrite _ => exact .checked (.ite (.next (spiWriteTxn_framed s _)) idle)
  | spiRead _ => exact .checked (.ite (.next (spiReadTxn_framed s _)) idle)
  | i2cWrite _ => exact .checked (.ite (.next (i2cWriteTxn_framed s _)) idle)
  | i2cRead _ => exact .checked (.ite (.next (i2cReadTxn_framed s _)) idle)
  | i2cHoldTimeout => exact .always (.next (holdTimeout_framed s))
  | hostRegisterWrite _ _ _ => exact .checked (.next (oneWrite_framed s _ _ _))
  | portStatusRead _ => exact .always (.ite (.next (shiftOut_framed s _ _)) idle)
  | frnLoRead _ _ => exact .guarded (.ite (.next (frnRead_framed s _ _ _)) idle)
  | frnHiRead _ _ => exact .guarded (.ite (.next (shiftOut_framed s _ _)) idle)
  | nowNsRead _ _ => exact .checked (.ite (.next (nowRead_framed s _ _ _ _)) idle)
  | nowSecRead _ _ _ => exact .checked (.ite (.next (shiftOut_framed s _ _)) idle)
  | accDebugRead _ _ _ => exact .guarded (.ite (.next (accRead_framed s _ _ _ _ _)) idle)
  | snapReq _ _ _ => exact .checked (.next (oneWrite_framed s _ _ _))
  | snapAll _ => exact .checked (.next (oneWrite_framed s _ _ _))
  | evtClear _ _ _ _ => exact .checked (.next (oneWrite_framed s _ _ _))
  | counterClear _ _ _ => exact .checked (.next (oneWrite_framed s _ _ _))
  | partReset _ _ => exact .checked (.next (oneWrite_framed s _ _ _))
  | channelTableWrite _ _ _ => exact .checked (.next (oneWrite_framed s _ _ _))
  | descriptorWrite _ _ => exact .guarded (.next (descWrite_framed s _ _))
  | progBaseWrite _ _ => exact .guarded (.next (setF_framed s ROWS.PROG_BASE 0 _ 0 _))
  | progWinWrite _ _ _ => exact .guarded (.next (progWinWrite_framed s _ _ _))
  | swap _ => exact .guarded (.next (progSwap_framed s _))
  | rdIdxWrite _ _ => exact .guarded (.next (rdIdxWrite_framed s _ _))
  | loopBwWrite _ _ _ => exact .guarded (.next (loopBw_framed s _ _ _))
  | setAbs _ => exact .guarded (.next (hostSet_framed s _ _ _ _))
  | setRel _ => exact .guarded (.next (hostSet_framed s _ _ _ _))
  | trigArm _ _ => exact .guarded (.next (trigArmAct_framed s _ _))
  | trigDisarm _ _ => exact .guarded (.next (trigDisarmAct_framed s _ _))
  | capArm _ _ => exact .guarded (.next (capArmAct_framed s _ _))
  | capCancel _ _ => exact .guarded (.next (capCancelAct_framed s _ _))
  | apply _ => exact .guarded (.next (applyAct_framed s _))
  | epoch _ => exact .guarded (.next (epochRequest_framed s _))
  | outEnable _ => exact .guarded (.next (outEnableWrite_framed s _ _))
  | outDisable _ => exact .guarded (.next (outEnableWrite_framed s _ _))
  | pulseModeChange _ _ => exact .guarded (.next (pulseModeWrite_framed s _ _))
  | dividerChange _ _ _ => exact .guarded (.next (dividerWrite_framed s _ _ _))
  | fineWrite _ _ => exact .guarded (.next (fineSet_framed s _ _))
  | pulsePeriodWrite _ _ _ _ => exact .guarded (.next (pulsePeriodSet_framed s _ _ _ _))
  | palignWrite _ _ _ => exact .guarded (.next (palignSet_framed s _ _ _))
  | palignOfsHiWrite _ _ => exact .guarded (.next (palignOfsSet_framed s _ _))
  | baudWrite _ _ => exact .guarded (.next (baudSet_framed s _ _))
  | storeCmd _ _ _ => exact .guarded (.next (storeCmd_framed s _ _ _))
  | verify => exact .always (.next (verifyCmd_framed s))
  | commit => exact .always (.next (commitCmd_framed s))
  | abort => exact .always (.next (abortCmd_framed s))
  | imageLoad => exact .always (.next (imageLoad_framed s))
  | imageActivate => exact .always (.next (imageActivate_framed s))
  | imageCancel => exact .always (.next (imageCancel_framed s))
  | leafRestartCmd => exact .always (.next (leafHost_framed s))
  | debugRequest => exact .always (.next (debugAsk_framed s))
  | debugRevoke => exact .always (.next (debugEnd_framed s _))
  | portEnable _ => exact .guarded (.next (portEnableWrite_framed s _ _))
  | portDisable _ => exact .guarded (.next (portEnableWrite_framed s _ _))
  | restartAn _ => exact .guarded (.next (restartAn_framed s _))
  | rdSeqWrite _ => exact .guarded (.next (rdSeqWrite_framed s _))
  | policyCommit => exact .always (.next (commitStep_framed s))
  | verifyDone => exact .always (.ite (.next (endVerify_framed s)) idle)
  | imageDone => exact .always (.ite (.next (imageVerified_framed s)) idle)
  | leafStart => exact .always (.next (leafStart_framed s))
  | leafWdtExpiry => exact .always (.ite (.next (leafFault_framed s _)) idle)
  | leafMpuFault => exact .always (.next (leafFault_framed s _))
  | leafException => exact .always (.next (leafFault_framed s _))
  | debugExpiry => exact .always (.ite (.next (debugEnd_framed s _)) idle)
  | qlDeliver _ _ _ _ _ _ => exact .guarded (.next (gateCall_framed s _ _))
  | pktEstimate _ _ _ _ _ _ => exact .guarded (.next (gateCall_framed s _ _))
  | timeChange _ _ _ _ => exact .guarded (.next (gateCall_framed s _ _))
  | utcUpdate _ _ _ _ _ _ => exact .guarded (.next (gateCall_framed s _ _))
  | txFrame _ _ _ => exact .guarded (.next (txFrame_framed s _ _ _ _ _))
  | shelfTx _ _ => exact .checked (.next (gateShelfTx_framed s _ _))
  | regRead _ _ => exact .always (.next (gateRegRead_framed s _ _))
  | pageReport _ _ _ => exact .guarded (.next (gateCall_framed s _ _))
  | journal _ _ _ => exact .guarded (.next (gateJournal_framed s _ _ _))
  | cellarStore _ _ => exact .always (.next (gateCellarStore_framed s _ _))
  | storeRequest _ _ => exact .always (.next (gateStoreRequest_framed s _ _))
  | ringPut _ _ => exact .checked (.next (gateRingPut_framed s _ _))
  | wdtKick => exact .always (.ite (.next (kick_framed s _ _)) idle)
  | restartSelf _ => exact .guarded (.next (leafFault_framed s _))
  | secondsRollover _ => exact .guarded (.ite (.next (rollover_framed s _ _ _ fun _ => ⟨rfl, rfl⟩)) idle)
  | trigFire _ _ _ => exact .guarded (.ite (.ite (.next (((fireTrig_framed s _ _ _ _ _ _ _ _ _)).trans
      (((modTrig_framed _ _ _ _).mono (by decide) (by decide)).trans ((trigInterval_framed _ _ _ _ _).mono (by decide) (by decide)))))
      (.next (fireTrig_framed s _ _ _ _ _ _ _ _ _))) idle)
  | capDone _ _ => exact .guarded (.ite (.next (capWrite_framed s _ _)) (.ite (capEdge_moves s _ _ _) idle))
  | todMessage _ => exact .guarded (todMessage_moves s _)
  | nmeaSentence _ _ _ => exact .guarded (.ite (.next (nmea_framed s _ _ _)) idle)
  | apllLockLost _ => exact .guarded (.ite (.next (lockLost_framed s _)) idle)
  | relock _ => exact .guarded (.ite (.next (relockApll_framed s _)) idle)
  | retuneLock _ => exact .guarded (.ite (.next (retuneLocked_framed s _)) idle)
  | refLost => exact .always (.ite (.next (refLostAll_framed s)) idle)
  | refReturn => exact .always (.ite idle (.next (refBack_framed s)))
  | dllLol _ => exact .guarded (.ite idle (.next (dllLost_framed s _)))
  | dllRelock _ => exact .guarded (.next (dllLocked_framed s _))
  | ethFrameReceive _ _ => exact .guarded (.ite (.next (ethReceive_framed s _ _)) idle)
  | pcsLock _ _ => exact .guarded (.next (pcsLocks_framed s _ _))
  | pcsLockLoss _ => exact .guarded (.ite (.next (linkDown_framed s _ _ _)) idle)
  | calDone _ _ _ => exact .guarded (.ite (.next (calEnds_framed s _ _ _)) idle)
  | esmcPduReceive _ _ _ => exact .guarded (.next (esmcReceive_framed s _ _ _))
  | esmcInfoPdu _ => exact .guarded (.ite (.next (esmcSend_framed s _ _)) idle)
  | esmcEventPdu _ => exact .guarded (.ite (.next (esmcSend_framed s _ _)) idle)
  | syncReceive _ _ _ _ _ => exact .guarded (.next (syncReceive_framed s _ _ _ _ _))
  | followUpReceive _ _ _ _ _ => exact .guarded (.next (followUp_framed s _ _ _ _ _))
  | followUpTimeout _ => exact .guarded (.next (modPtp_framed s _ _))
  | announceReceive _ _ _ _ => exact .guarded (.next (announceReceive_framed s _ _ _ _))
  | delayReqReceive _ _ => exact .guarded (.next (delayReq_framed s _ _))
  | pdelayReqReceive _ _ _ _ => exact .guarded (.next (pdelayReq_framed s _ _ _ _))
  | unicastRequest _ _ _ _ _ => exact .guarded (.next (unicastRequest_framed s _ _ _ _ _))
  | syncTransmit _ _ _ _ _ => exact .guarded (.next (syncSend_framed s _ _ _ _ _))
  | announceTransmit _ _ => exact .guarded (.ite (.next (announceSend_framed s _ _)) idle)
  | ptpReopen _ => exact .guarded (.ite (.next (instOpen_framed s _)) idle)
  | shelfStatusTx => exact .always (.ite (.next (sendStatus_framed s)) idle)
  | shelfElectTx => exact .always (.ite (.next (sendElect_framed s _)) idle)
  | shelfQlFwdTx => exact .always (.ite (.next (sendQlf_framed s)) idle)
  | shelfTodTx => exact .always (shelfTod_moves s)
  | alert _ _ _ _ => exact .guarded (.next (sendAlert_framed s _ _ _ _))
  | shelfElectRx _ => exact .guarded (.next (shelfRx_framed s _ _))
  | shelfQlFwdRx _ _ => exact .guarded (.next (shelfRx_framed s _ _))
  | shelfTodRx _ => exact .guarded (.next (shelfRx_framed s _ _))
  | regReq _ => exact .guarded (.next (shelfRx_framed s _ _))
  | regResp => exact .always (regResp_moves s)
  | peerLost _ => exact .guarded (.ite (.next (peerLapse_framed s _)) idle)
  | silent => exact .always (.ite (.next (goSilent_framed s)) idle)
  | busOff _ => exact .guarded (.ite idle (.next (busOffEnter_framed s _)))
  | busOffRecovery => exact .always (.ite (.next (busOffLeave_framed s)) idle)
  | powerFail _ _ => exact .always (.ite idle (.next (powerFail_framed s _ _ _)))
  | vinGlitch => exact .always (.ite idle (.next (addCnt_framed s PWR.GLITCH_CNT 0 0 1)))
  | pfRecovered _ _ => exact .always (.ite (.next (pfRecover_framed s _ _)) idle)
  | shutdown => exact .always (.ite (.next (shutdown_framed s)) idle)
  | holdupOk _ => exact .always (.ite idle (.next ((holdupMin_framed s _).trans (holdupOk_framed _ _))))
  | capEstimate _ => exact .always (capEstimate_moves s _)
  | vaux3Oc => exact .always (.ite idle (.next (evt_set1_framed s PWR.STATUS_VAUX3_OFF 0 1 5)))
  | vaux3Retry _ => exact .always (.ite idle (.ite (.next (evt_framed s .pwr 0 5)) (.next (set1_framed s PWR.STATUS_VAUX3_OFF 0 0))))
  | vinRange _ => exact .always (.ite (.next (evt_set1_framed s PWR.STATUS_VIN_RANGE 0 1 4)) idle)
  | warmupDone => exact .always (.ite (.next (warmDone_framed s)) idle)
  | ovenFault => exact .always (.ite (.next (ovenFault_framed s)) idle)
  | warmupRestart => exact .always (.ite (.next (warmStart_framed s)) idle)
  | heaterSat => exact .always (.ite (.next (evt_set1_framed s OSC.STATUS_HEATER_SAT 0 1 2)) idle)
  | heaterIdle => exact .always (.ite (.next (evt_set1_framed s OSC.STATUS_HEATER_IDLE 0 1 3)) idle)
  | holdupFirst18v _ => exact .always (.ite (.next (cellarReady_framed s _)) idle)
  | blockStoreDone _ => exact .always (.next (storeEnds_framed s _))
  | storeDeferRetry _ => exact .always (.ite (.next (engineStart_framed s _)) idle)
  | storeFailed _ => exact .always (.next (storeGiveUp_framed s _))
  | scrub _ => exact .always (.ite idle (.next (scrubStep_framed s _ _)))
  | ringStore _ => exact .always (.ite (.next (ringBegins_framed s _ _)) idle)
  | bboxEntryWrite => exact .always (.next (drainUp_framed s))
  | queueLost => exact .always (.next (lostHeld_framed s _))
  | suppressionWindowEnd => exact .always (.ite (.next (suppressionEnd_framed s)) idle)
  | alignLost _ => exact .guarded (.ite (.next (evt_modOut_framed s _ _ _)) idle)
  | announceReceiptTimeout _ => exact .guarded (.ite (.next (parentLost_framed s _)) idle)
  | delayReqTransmit _ _ => exact .guarded (.next (delayReqSend_framed s _ _ _ _))
  | delayRespReceive _ _ _ _ => exact .guarded (.next (delayResp_framed s _ _ _ _))
  | errPassive _ _ => exact .guarded (.ite (.next ((set1_framed s SHELF.STATUS_FC 0 1).trans ((set1_framed _ SHELF.TEC_REC_TEC 0 _).trans
      (evt_set1_framed _ SHELF.TEC_REC_REC 0 _ 3)))) idle)
  | unknownFrame _ => exact .checked (.ite (.next (shelfRx_framed s _ _)) idle)
  | vioFall => exact .always (.next (vioGone_framed s))
  | vioReturn => exact .always (.next (vioBack_framed s))

/-! ### The statements about every command -/

theorem exec_next_framed {c : Instr} {s t : State} (h : exec c s = .next t) : Framed c.writes c.pages s t := by
  obtain ⟨hok, hbad⟩ := exec_framed c s
  cases hw : c.wellFormed with
  | false => rw [hbad hw] at h; cases h
  | true =>
    obtain ⟨u, hu, hframe⟩ := hok hw
    rw [hu] at h
    cases h
    exact hframe

/-- No command may change the queue of waiting commands. -/
theorem pending_notMem_writes (c : Instr) : Component.pending ∉ c.writes := by
  cases c <;> simp [Instr.writes, Component.allBut]

theorem exec_pending {c : Instr} {s t : State} (h : exec c s = .next t) : t.pending = s.pending :=
  (exec_next_framed h).others .pending (pending_notMem_writes c)

theorem step_nil {s : State} (h : s.pending = []) : step s = .next s := by
  unfold step
  rw [h]

theorem step_cons {s : State} {c : Instr} {r : List Instr} (h : s.pending = c :: r) : step s = exec c { s with pending := r } := by
  unfold step
  rw [h]

/-- A step leaves the rest of the queue. -/
theorem step_pending {s t : State} (h : step s = .next t) : t.pending = s.pending.tail := by
  cases hq : s.pending with
  | nil => rw [step_nil hq] at h; cases h; exact hq
  | cons c r => exact exec_pending ((step_cons hq).symm.trans h)

theorem step_queueOk {s t : State} (hs : QueueOk s) (h : step s = .next t) : QueueOk t := fun c hc =>
  hs c (List.mem_of_mem_tail (step_pending h ▸ hc))

theorem step_advances {s : State} (hs : QueueOk s) : Advances s := by
  cases hq : s.pending with
  | nil => exact ⟨s, step_nil hq⟩
  | cons c r =>
    have hwf : c.wellFormed = true := hs c (hq ▸ List.mem_cons_self)
    obtain ⟨t, ht, -⟩ := (exec_framed c { s with pending := r }).1 hwf
    exact ⟨t, (step_cons hq).trans ht⟩

/-- A run goes on from the state that its first step answers. -/
theorem run_succ_of_next {M : Host.Core} {s t : M.State} (h : M.step s = .next t) (k : Nat) : M.run (k + 1) s = M.run k t := by
  simp [Host.Core.run, h]

theorem run_safe {s : State} (hs : QueueOk s) (k : Nat) : SafeFor k s := by
  induction k generalizing s with
  | zero => exact ⟨s, rfl⟩
  | succ k ih =>
    obtain ⟨t, ht⟩ := step_advances hs
    obtain ⟨u, hu⟩ := ih (step_queueOk hs ht)
    exact ⟨u, (run_succ_of_next (M := core) ht k).trans hu⟩

/-- The invariants say nothing of the queue. -/
theorem inv_of_pending {s : State} (r : List Instr) (h : Inv s) : Inv { s with pending := r } := by
  obtain ⟨⟨_, _, _, _, _, _, _, _, _, _, _, _, _⟩, _, _⟩ := h
  exact ⟨⟨‹_›, ‹_›, ‹_›, ‹_›, ‹_›, ‹_›, ‹_›, ‹_›, ‹_›, ‹_›, ‹_›, ‹_›, ‹_›⟩, ‹_›, ‹_›⟩

/-- Settles O6: the frame of every operation that a command carries out, by cases on the command. -/
theorem componentFrame : Obligations.ComponentFrame := fun _ _ _ h => (exec_next_framed h).others

/-- Settles O8: the pages that every operation writes, by cases on the command. -/
theorem pageFrame : Obligations.PageFrame := fun _ _ _ h => (exec_next_framed h).cells

/-- Settles O7: a command keeps what the invariants ask of the components it changes, and the others are the same. -/
theorem stepKeepsInv : Obligations.StepKeepsInv := by
  intro s t hs h
  cases hq : s.pending with
  | nil => rw [step_nil hq] at h; cases h; exact hs
  | cons c r => exact (exec_next_framed ((step_cons hq).symm.trans h)).inv (inv_of_pending r hs)

/-- Settles O3: the guard of every command is its well-formedness. -/
theorem execTotal : Obligations.ExecTotal := by
  intro c s
  obtain ⟨hok, hbad⟩ := exec_framed c s
  refine ⟨fun hw => ?_, hbad⟩
  obtain ⟨t, ht, -⟩ := hok hw
  exact ⟨t, ht⟩

/-- Settles O4: the queue is no component that a command writes. -/
theorem queueFifo : Obligations.QueueFifo :=
  ⟨fun _ _ _ => exec_pending, fun _ _ => step_pending, fun _ _ => step_queueOk⟩

/-- Settles O5, by induction on the number of steps. -/
theorem queuedCommandsAdvance : Obligations.QueuedCommandsAdvance := fun _ hs => ⟨step_advances hs, run_safe hs⟩

end Sys2Proof.Machine

/-! What a field, an event or a counter reads after a chain of writes: the rules by which the statements about single commands
are read off the operations that make them up. -/

namespace Sys2Proof.Machine

/-! ### Places of fields -/

/-- The bit of its page at which a field lies. -/
def Fld.place (f : Fld) (k j : Nat) : Nat := ((f.off + k * f.s1 + j * f.s2) * 8 + f.lo) % 2 ^ 24

/-- Whether a field is neither EVT nor EVT_CNT of its page. -/
def Fld.plain (f : Fld) (k j : Nat) : Bool := Fld.place f k j != 0x80 && Fld.place f k j != 0xC0

/-- Two fields at other places of one page lie in two cells. -/
theorem fldKey_ne_of_place_ne {f g : Fld} {k j a b : Nat} (hp : g.page = f.page) (h : Fld.place g a b ≠ Fld.place f k j) (n : Nat) :
    fldKey g n a b ≠ fldKey f n k j := by
  unfold Fld.place at h
  unfold fldKey fldAddr
  rw [hp]
  omega

theorem fldKey_ne_evt {f : Fld} {k j : Nat} (h : Fld.plain f k j = true) (n : Nat) :
    fldKey f n k j ≠ fldKey (HDR.EVT f.page) n 0 0 ∧ fldKey f n k j ≠ fldKey (HDR.EVT_CNT f.page) n 0 0 := by
  simp only [Fld.plain, Bool.and_eq_true, bne_iff_ne] at h
  have hevt : Fld.place (HDR.EVT f.page) 0 0 = 0x80 := rfl
  have hcnt : Fld.place (HDR.EVT_CNT f.page) 0 0 = 0xC0 := rfl
  exact ⟨fldKey_ne_of_place_ne (f := HDR.EVT f.page) (g := f) rfl (hevt ▸ h.1) n,
    fldKey_ne_of_place_ne (f := HDR.EVT_CNT f.page) (g := f) rfl (hcnt ▸ h.2) n⟩

/-! ### Fields after a write -/

/-- A value that fits is read back whole. -/
@[simp] theorem getF_setF_fits {f : Fld} {v : Nat} (h : f.acc ≠ .lk) (hv : v < 2 ^ f.width) (s : State) (n k j : Nat) :
    getF (setF s f n k j v) f n k j = v := (getF_setF_same s f n k j v h).trans (Nat.mod_eq_of_lt hv)

@[simp] theorem getF_setF_page {f g : Fld} (h : g.page ≠ f.page) (s : State) (n k j v m a b : Nat) :
    getF (setF s f n k j v) g m a b = getF s g m a b := getF_setF_ne s f g n k j v m a b (fldKey_ne_of_page_ne h m a b n k j)

@[simp] theorem getF_setF_place {f g : Fld} {k j a b : Nat} (hp : g.page = f.page) (h : Fld.place g a b ≠ Fld.place f k j) (s : State) (n v : Nat) :
    getF (setF s f n k j v) g n a b = getF s g n a b := getF_setF_ne s f g n k j v n a b (fldKey_ne_of_place_ne hp h n)

@[simp] theorem getF_evt_plain {p : Page} {g : Fld} {a b : Nat} (hp : g.page = p) (h : Fld.plain g a b = true) (s : State) (n bit : Nat) :
    getF (evt s p n bit) g n a b = getF s g n a b := by
  subst hp
  exact getF_evt_ne s g.page n bit g n a b (fldKey_ne_evt h n).1 (fldKey_ne_evt h n).2

@[simp] theorem getF_addCnt_page {f g : Fld} (h : g.page ≠ f.page) (s : State) (n k x m a b : Nat) :
    getF (addCnt s f n k x) g m a b = getF s g m a b :=
  getF_addCnt_ne s f g n k x m a b (fldKey_ne_of_page_ne h m a b n k 0)
    (fldKey_ne_of_page_ne (g := HDR.EVT f.page) h m a b n 0 0) (fldKey_ne_of_page_ne (g := HDR.EVT_CNT f.page) h m a b n 0 0)

@[simp] theorem getF_addCnt_place {f g : Fld} {k a b : Nat} (hp : g.page = f.page) (h : Fld.place g a b ≠ Fld.place f k 0)
    (hg : Fld.plain g a b = true) (s : State) (n x : Nat) : getF (addCnt s f n k x) g n a b = getF s g n a b := by
  refine getF_addCnt_ne s f g n k x n a b (fldKey_ne_of_place_ne hp h n) ?_ ?_ <;> rw [← hp]
  · exact (fldKey_ne_evt hg n).1
  · exact (fldKey_ne_evt hg n).2

/-- A counter after an addition to it. -/
@[simp] theorem getF_addCnt_counter {f : Fld} {k : Nat} (hf : f.acc ≠ .lk) (hw : f.width = 32) (h : Fld.plain f k 0 = true) (s : State)
    (n m : Nat) : getF (addCnt s f n k m) f n k 0 = satTo cntMax (getF s f n k 0 + m) :=
  getF_addCnt_same s f n k m hf hw (fldKey_ne_evt h n).1 (fldKey_ne_evt h n).2

/-- A field reads the same where its page and the policy do. -/
theorem getF_of_page {s t : State} (g : Fld) (h : pageCells g.page t.regs = pageCells g.page s.regs) (hp : t.pol = s.pol)
    (n k j : Nat) : getF t g n k j = getF s g n k j := getF_congr g n k j (kvGet_of_pageCells h (keyPage_fldKey ..)) hp

@[simp] theorem getF_ite (c : Prop) [Decidable c] (s t : State) (f : Fld) (n k j : Nat) :
    getF (if c then s else t) f n k j = if c then getF s f n k j else getF t f n k j := apply_ite (getF · f n k j) c s t

/-! A change of a unit leaves every field as it was. -/

@[simp] theorem getF_modPower (s : State) (u : PowerU → PowerU) (f : Fld) (n k j : Nat) : getF (modPower s u) f n k j = getF s f n k j := rfl
@[simp] theorem getF_modCellar (s : State) (u : CellarU → CellarU) (f : Fld) (n k j : Nat) :
    getF (modCellar s u) f n k j = getF s f n k j := rfl
@[simp] theorem getF_modRoot (s : State) (u : RootU → RootU) (f : Fld) (n k j : Nat) : getF (modRoot s u) f n k j = getF s f n k j := rfl
@[simp] theorem getF_modShelf (s : State) (u : ShelfU → ShelfU) (f : Fld) (n k j : Nat) : getF (modShelf s u) f n k j = getF s f n k j := rfl
@[simp] theorem getF_modLane (s : State) (m : Nat) (u : LaneU → LaneU) (f : Fld) (n k j : Nat) :
    getF (modLane s m u) f n k j = getF s f n k j := rfl
@[simp] theorem getF_modFunc (s : State) (m : Nat) (u : FuncU → FuncU) (f : Fld) (n k j : Nat) :
    getF (modFunc s m u) f n k j = getF s f n k j := rfl
@[simp] theorem getF_modRow (s : State) (m : Nat) (u : RowU → RowU) (f : Fld) (n k j : Nat) :
    getF (modRow s m u) f n k j = getF s f n k j := rfl
@[simp] theorem getF_modPart (s : State) (m : Nat) (u : PartU → PartU) (f : Fld) (n k j : Nat) :
    getF (modPart s m u) f n k j = getF s f n k j := rfl
@[simp] theorem getF_modChan (s : State) (m : Nat) (u : ChanU → ChanU) (f : Fld) (n k j : Nat) :
    getF (modChan s m u) f n k j = getF s f n k j := rfl
@[simp] theorem getF_modPair (s : State) (d c : Nat) (u : PairU → PairU) (f : Fld) (n k j : Nat) :
    getF (modPair s d c u) f n k j = getF s f n k j := rfl
@[simp] theorem getF_modDom (s : State) (m : Nat) (u : DomU → DomU) (f : Fld) (n k j : Nat) :
    getF (modDom s m u) f n k j = getF s f n k j := rfl
@[simp] theorem getF_modApll (s : State) (m : Nat) (u : ApllU → ApllU) (f : Fld) (n k j : Nat) :
    getF (modApll s m u) f n k j = getF s f n k j := rfl
@[simp] theorem getF_modOut (s : State) (m : Nat) (u : OutU → OutU) (f : Fld) (n k j : Nat) :
    getF (modOut s m u) f n k j = getF s f n k j := rfl
@[simp] theorem getF_modTime (s : State) (m : Nat) (u : TimeU → TimeU) (f : Fld) (n k j : Nat) :
    getF (modTime s m u) f n k j = getF s f n k j := rfl
@[simp] theorem getF_modEth (s : State) (m : Nat) (u : EthU → EthU) (f : Fld) (n k j : Nat) :
    getF (modEth s m u) f n k j = getF s f n k j := rfl
@[simp] theorem getF_modPtp (s : State) (m : Nat) (u : PtpU → PtpU) (f : Fld) (n k j : Nat) :
    getF (modPtp s m u) f n k j = getF s f n k j := rfl

/-- What saturates below a field's range fits the field. -/
@[simp] theorem satTo_mod {m w : Nat} (h : m < 2 ^ w) (v : Nat) : satTo m v % 2 ^ w = satTo m v := by
  apply Nat.mod_eq_of_lt
  unfold satTo
  split <;> omega

/-! ### Events after a write -/

@[simp] theorem raised_evt {bit : Nat} (h : bit < 32) (s : State) (p : Page) (n : Nat) : Raised (evt s p n bit) p n bit := evt_bit s p n bit h

theorem Raised.after_evt {s : State} {p : Page} {n bit : Nat} (h : Raised s p n bit) (hb : bit < 32) (q : Page) (m c : Nat)
    (hq : p = q → n = m ∨ fldKey (HDR.EVT p) n 0 0 ≠ fldKey (HDR.EVT p) m 0 0 ∧ fldKey (HDR.EVT p) n 0 0 ≠ fldKey (HDR.EVT_CNT p) m 0 0) :
    Raised (evt s q m c) p n bit := by
  by_cases e : p = q
  · subst e
    rcases hq rfl with rfl | hne
    · exact evt_mono s p n c bit hb h
    · unfold Raised get1
      rwa [getF_evt_ne s p m c _ n 0 0 hne.1 hne.2]
  · unfold Raised get1
    rwa [getF_evt_of_page_ne e]

theorem Raised.after_addCnt {s : State} {f : Fld} {n k bit : Nat} (h : Raised s f.page n bit) (hb : bit < 32)
    (hf : Fld.plain f k 0 = true) (m : Nat) : Raised (addCnt s f n k m) f.page n bit := by
  have hset : ∀ v, Raised (setF s f n k 0 v) f.page n bit := fun v => by
    unfold Raised get1
    rwa [getF_setF_ne _ _ _ _ _ _ _ _ _ _ (fldKey_ne_evt hf n).1.symm]
  unfold addCnt
  dsimp only
  split
  · exact raiseSat_mono _ _ _ _ hb (hset _)
  · exact hset _

@[simp] theorem raised_setF {f : Fld} {p : Page} (h : p ≠ f.page) (s : State) (n k j v m bit : Nat) :
    Raised (setF s f n k j v) p m bit ↔ Raised s p m bit := by
  unfold Raised get1
  rw [getF_setF_page (g := HDR.EVT p) h]

@[simp] theorem raised_setF_plain {f : Fld} {p : Page} {k j : Nat} (hp : f.page = p) (h : Fld.plain f k j = true) (s : State) (n v bit : Nat) :
    Raised (setF s f n k j v) p n bit ↔ Raised s p n bit := by
  subst hp
  unfold Raised get1
  rw [getF_setF_ne _ _ _ _ _ _ _ _ _ _ (fldKey_ne_evt h n).1.symm]

@[simp] theorem raised_ite (c : Prop) [Decidable c] (s t : State) (p : Page) (n bit : Nat) :
    Raised (if c then s else t) p n bit ↔ if c then Raised s p n bit else Raised t p n bit := by
  split <;> rfl

theorem raised_of_page {s t : State} {p : Page} (h : pageCells p t.regs = pageCells p s.regs) (hp : t.pol = s.pol) (n bit : Nat) :
    Raised t p n bit ↔ Raised s p n bit := by
  unfold Raised get1
  rw [getF_of_page (HDR.EVT p) h hp]

/-- A relation that every step of a fold keeps holds between its start and its end. -/
theorem foldl_rel {α σ : Type} {R : σ → σ → Prop} (hrefl : ∀ s, R s s) (htrans : ∀ a b c, R a b → R b c → R a c)
    {f : σ → α → σ} {l : List α} (hf : ∀ t, ∀ x ∈ l, R t (f t x)) (s : σ) : R s (l.foldl f s) := by
  induction l generalizing s with
  | nil => exact hrefl s
  | cons x l ih => exact htrans _ _ _ (hf s x List.mem_cons_self) (ih (fun t y hy => hf t y (List.mem_cons_of_mem _ hy)) _)

/-- The indices of a field. -/
theorem mem_fldIdx {f : Fld} {kj : Nat × Nat} (h : kj ∈ fldIdx f) : kj.1 < f.n1 ∧ kj.2 < f.n2 := by
  simp only [fldIdx, List.mem_flatMap, List.mem_map, List.mem_range] at h
  obtain ⟨k, hk, j, hj, rfl⟩ := h
  exact ⟨hk, hj⟩

/-! ### Cells that stay -/

namespace CellsElse

variable {ks : List Nat} {s t : State}

theorem refl (ks : List Nat) (s : State) : CellsElse ks s s := fun _ _ => rfl

theorem trans {u : State} (h : CellsElse ks s t) (g : CellsElse ks t u) : CellsElse ks s u := fun k hk => (g k hk).trans (h k hk)

theorem mono {l : List Nat} (h : CellsElse ks s t) (hl : ∀ k ∈ ks, k ∈ l) : CellsElse l s t := fun k hk => h k fun hm => hk (hl k hm)

theorem after_setF (h : CellsElse ks s t) {f : Fld} {n k j : Nat} (hk : fldKey f n k j ∈ ks) (v : Nat) :
    CellsElse ks s (setF t f n k j v) := h.trans fun _ hm => setF_cell_ne _ _ _ _ _ _ _ fun e => hm (e ▸ hk)

theorem after_set1 (h : CellsElse ks s t) {f : Fld} {n : Nat} (hk : fldKey f n 0 0 ∈ ks) (v : Nat) : CellsElse ks s (set1 t f n v) :=
  h.after_setF hk v

theorem after_evt (h : CellsElse ks s t) {p : Page} {n : Nat} (hk : ∀ k ∈ evtCells p n, k ∈ ks) (bit : Nat) :
    CellsElse ks s (evt t p n bit) := h.trans ((evt_onlyCells t p n bit).2.mono hk)

theorem after_addCnt (h : CellsElse ks s t) {f : Fld} {n k : Nat} (hk : fldKey f n k 0 ∈ ks) (he : ∀ m ∈ evtCells f.page n, m ∈ ks)
    (x : Nat) : CellsElse ks s (addCnt t f n k x) := by
  refine h.trans fun m hm => addCnt_cell_ne _ _ _ _ _ _ (fun e => hm (e ▸ hk)) (fun e => hm ?_) (fun e => hm ?_)
  · exact e ▸ he _ (by simp [evtCells, cells])
  · exact e ▸ he _ (by simp [evtCells, cells])

theorem after_evtIf (h : CellsElse ks s t) {p : Page} {n : Nat} (hk : ∀ k ∈ evtCells p n, k ∈ ks) (c : Bool) (bit : Nat) :
    CellsElse ks s (evtIf c t p n bit) := by
  unfold evtIf
  split
  · exact h.after_evt hk bit
  · exact h

end CellsElse

/-! ### Fields of any two instances -/

theorem pageBase_mod {p : Page} (h : p ≠ .chan) (n : Nat) : pageBase p n % 0x400 = 0 := by
  cases p
  case chan => exact absurd rfl h
  all_goals simp [pageBase, Nat.add_mod]

/-- Fields at other places of a page lie in two cells, whatever their instances. -/
theorem fldKey_ne_of_low {f g : Fld} {k j a b : Nat} (hf : f.page ≠ .chan) (hp : g.page = f.page)
    (h : Fld.place g a b % 0x2000 ≠ Fld.place f k j % 0x2000) (n m : Nat) : fldKey g n a b ≠ fldKey f m k j := by
  have hbf := pageBase_mod hf m
  have hbg := pageBase_mod (hp ▸ hf) n
  unfold Fld.place at h
  unfold fldKey fldAddr
  rw [hp] at hbg ⊢
  omega

/-- The bit at which a field lies, within the 1024 bytes of one page. -/
def Fld.low (f : Fld) (k j : Nat) : Nat := Fld.place f k j % 0x2000

/-- Whether a field of a page of 1024 bytes is neither EVT nor EVT_CNT. -/
def Fld.lowPlain (f : Fld) (k j : Nat) : Bool := f.page != .chan && Fld.low f k j != 0x80 && Fld.low f k j != 0xC0

theorem getF_setF_low {f g : Fld} {k j a b : Nat} (hp : g.page ≠ .chan) (h : Fld.low g a b ≠ Fld.low f k j) (s : State) (n v m : Nat) :
    getF (setF s f n k j v) g m a b = getF s g m a b := by
  by_cases e : g.page = f.page
  · exact getF_setF_ne _ _ _ _ _ _ _ _ _ _ (fldKey_ne_of_low (e ▸ hp) e h m n)
  · exact getF_setF_page e ..

theorem lowPlain_iff {f : Fld} {k j : Nat} (h : Fld.lowPlain f k j = true) :
    f.page ≠ .chan ∧ Fld.low f k j ≠ 0x80 ∧ Fld.low f k j ≠ 0xC0 := by
  simpa [Fld.lowPlain, and_assoc] using h

theorem fldKey_ne_evt_low {f : Fld} {k j : Nat} (h : Fld.lowPlain f k j = true) {p : Page} (hp : f.page = p) (n m : Nat) :
    fldKey f n k j ≠ fldKey (HDR.EVT p) m 0 0 ∧ fldKey f n k j ≠ fldKey (HDR.EVT_CNT p) m 0 0 := by
  obtain ⟨hc, he, hn⟩ := lowPlain_iff h
  exact ⟨fldKey_ne_of_low (f := HDR.EVT p) (g := f) (hp ▸ hc) hp he n m,
    fldKey_ne_of_low (f := HDR.EVT_CNT p) (g := f) (hp ▸ hc) hp hn n m⟩

theorem getF_evt_low {g : Fld} {a b : Nat} (h : Fld.lowPlain g a b = true) (s : State) (p : Page) (n bit m : Nat) :
    getF (evt s p n bit) g m a b = getF s g m a b := by
  by_cases e : g.page = p
  · exact getF_evt_ne s p n bit g m a b (fldKey_ne_evt_low h e m n).1 (fldKey_ne_evt_low h e m n).2
  · exact getF_evt_of_page_ne e ..

/-- No event of any page takes one back. -/
theorem Raised.evt_any {s : State} {p : Page} {n bit : Nat} (h : Raised s p n bit) (hp : p ≠ .chan) (hb : bit < 32) (q : Page) (m c : Nat) :
    Raised (evt s q m c) p n bit := by
  by_cases e : p = q
  · subst e
    by_cases hk : fldKey (HDR.EVT p) n 0 0 = fldKey (HDR.EVT p) m 0 0
    · have hsame : ∀ t : State, get1 t (HDR.EVT p) n = get1 t (HDR.EVT p) m := fun t => congrArg (fun k => (kvGet t.regs k).getD 0) hk
      unfold Raised at h ⊢
      rw [hsame] at h ⊢
      exact evt_mono s p m c bit hb h
    · exact h.after_evt hb p m c fun _ => .inr ⟨hk, fldKey_ne_of_low (f := HDR.EVT_CNT p) (g := HDR.EVT p) hp rfl (by show 0x80 ≠ 0xC0; decide) n m⟩
  · exact h.after_evt hb q m c fun he => absurd he e

end Sys2Proof.Machine

/-! The step, the reset state, and the supervisor's inputs that report supply and ovens (R511 to R533). -/

namespace Sys2Proof.Machine

/-! ### The step and the reset state -/

/-- Settles O1: the step's two equations. -/
theorem stepRunsFront : Obligations.StepRunsFront := ⟨fun _ _ _ h => step_cons h, fun _ h => step_nil h⟩

/-- The units of the reset state are all there. -/
theorem inv_reset (i : StartIn) : Inv State.reset :=
  ⟨shaped_of_sizes (coldState_shaped State.reset i) rfl rfl rfl rfl rfl rfl rfl rfl rfl rfl rfl rfl rfl, rfl, Nat.zero_le _⟩

/-- Settles O2: the reset state holds no cell, no byte and no command. -/
theorem resetState : Obligations.ResetState := by
  refine ⟨rfl, rfl, (inv_reset ⟨⟨false, false, false, false⟩, false, 0, 0⟩), fun c hc => absurd hc List.not_mem_nil, rfl, fun f n k j hf => ?_, fun _ => rfl⟩
  unfold getF
  split
  · next hlk => exact absurd hlk hf
  · rfl

/-! ### The inputs of the supply -/

theorem pfailLow_of_running {s : State} (hon : s.phase ≠ .off) (hpf : get1 s PWR.STATUS_PF 0 = 0) : pfailLow s = false := by
  simp [pfailLow, powerFailed, bit1, hpf, hon]

/-- A field set with an event of its page: both are read back, and no other cell changes. -/
theorem set1_evt_reports {f : Fld} {p : Page} {v bit : Nat} (hf : f.acc ≠ .lk) (hv : v < 2 ^ f.width) (hp : f.page = p)
    (hplain : Fld.plain f 0 0 = true) (hb : bit < 32) (s : State) (n : Nat) :
    get1 (evt (set1 s f n v) p n bit) f n = v ∧ Raised (evt (set1 s f n v) p n bit) p n bit ∧
      OnlyCells (cells [(f, n)] ++ evtCells p n) s (evt (set1 s f n v) p n bit) := by
  refine ⟨?_, raised_evt hb _ _ _, ?_⟩
  · unfold get1 set1
    rw [getF_evt_plain hp hplain, getF_setF_fits hf hv]
  · refine onlyCells_of_onlyRegs (by simp [OnlyRegs, cite @evt_keeps, cite @set1_keeps]) ?_
    exact ((CellsElse.refl _ s).after_set1 (by simp [cells]) v)
      |>.after_evt (fun _ => List.mem_append_right _) bit

section
variable {s : State} (hon : s.phase ≠ .off)
include hon

theorem vinGlitch_counts (hpf : get1 s PWR.STATUS_PF 0 = 0) : ∃ t, exec .vinGlitch s = .next t ∧
    get1 t PWR.GLITCH_CNT 0 = satTo cntMax (get1 s PWR.GLITCH_CNT 0 + 1) ∧
    OnlyCells (cells [(PWR.GLITCH_CNT, 0)] ++ evtCells .pwr 0) s t := by
  refine ⟨addCnt s PWR.GLITCH_CNT 0 0 1, by simp [exec, execVinGlitch, pfailLow_of_running hon hpf], ?_, ?_⟩
  · simp (disch := decide) [get1]
  · exact onlyCells_of_onlyRegs (addCnt_keeps ..) ((CellsElse.refl _ s).after_addCnt (by decide) (by decide) 1)

theorem capEstimate_reports (us : Nat) (hpf : get1 s PWR.STATUS_PF 0 = 0) : ∃ t, exec (.capEstimate us) s = .next t ∧
    get1 t PWR.CAP_EST 0 = satTo 0xFFFF (us / 50) ∧ get1 t PWR.RESERVE 0 = satTo 0xFFFF (63 * satTo 0xFFFF (us / 50) / 1000) ∧
    (us / 50 < 640 → Raised t .pwr 0 3) ∧
    OnlyCells (cells [(PWR.CAP_EST, 0), (PWR.RESERVE, 0)] ++ evtCells .pwr 0) s t := by
  refine ⟨_, by simp [exec, execCapEstimate, pfailLow_of_running hon hpf]; rfl, ?_, ?_, fun hlow => ?_, ?_⟩
  · simp (disch := decide) [evtIf, get1, set1, getF_setF_same]
  · simp (disch := decide) [evtIf, get1, set1, getF_setF_same]
  · have hsat : satTo 0xFFFF (us / 50) < 640 := by
      unfold satTo
      split <;> omega
    simp (disch := decide) [evtIf, hsat]
  · exact onlyCells_of_onlyRegs (by simp [OnlyRegs, cite @evtIf_keeps, cite @set1_keeps])
      ((((CellsElse.refl _ s).after_set1 (by decide) _).after_set1 (by decide) _).after_evtIf (by decide) _ 3)

theorem vaux3Oc_reports (h : get1 s PWR.STATUS_VAUX3_OFF 0 = 0) : ∃ t, exec .vaux3Oc s = .next t ∧
    get1 t PWR.STATUS_VAUX3_OFF 0 = 1 ∧ Raised t .pwr 0 5 ∧ OnlyCells (cells [(PWR.STATUS_VAUX3_OFF, 0)] ++ evtCells .pwr 0) s t :=
  ⟨_, if_neg (by simp [hon, h]), set1_evt_reports (by decide) (by decide) rfl (by decide) (by decide) s 0⟩

theorem vaux3Retry_reports (ma : Nat) (h : get1 s PWR.STATUS_VAUX3_OFF 0 = 1) : ∃ t, exec (.vaux3Retry ma) s = .next t ∧
    (ma ≤ 150 → get1 t PWR.STATUS_VAUX3_OFF 0 = 0) ∧
    (150 < ma → get1 t PWR.STATUS_VAUX3_OFF 0 = 1 ∧ Raised t .pwr 0 5) ∧
    OnlyCells (cells [(PWR.STATUS_VAUX3_OFF, 0)] ++ evtCells .pwr 0) s t := by
  have hact : exec (.vaux3Retry ma) s = if 150 < ma then .next (evt s .pwr 0 5) else .next (set1 s PWR.STATUS_VAUX3_OFF 0 0) :=
    if_neg (by simp [hon, h])
  by_cases hma : 150 < ma
  · refine ⟨_, hact.trans (if_pos hma), fun h => by omega, fun _ => ⟨?_, raised_evt (by decide) ..⟩, ?_⟩
    · exact (getF_evt_plain (g := PWR.STATUS_VAUX3_OFF) rfl (by decide) s 0 5).trans h
    · exact onlyCells_of_onlyRegs (evt_keeps ..) ((CellsElse.refl _ s).after_evt (by decide) 5)
  · refine ⟨_, hact.trans (if_neg hma), fun _ => getF_setF_fits (by decide) (by decide) .., fun h => absurd h hma, ?_⟩
    exact onlyCells_of_onlyRegs (set1_keeps ..) ((CellsElse.refl _ s).after_set1 (by decide) 0)

theorem vinRange_reports (mv : Nat) (hmv : mv < 4500 ∨ 60000 < mv) (h : oneSecond ≤ s.power.range) :
    ∃ t, exec (.vinRange mv) s = .next t ∧ get1 t PWR.STATUS_VIN_RANGE 0 = 1 ∧ Raised t .pwr 0 4 ∧
      OnlyCells (cells [(PWR.STATUS_VIN_RANGE, 0)] ++ evtCells .pwr 0) s t :=
  ⟨_, if_pos (by simp [vinOutside, hon, hmv, h]), set1_evt_reports (by decide) (by decide) rfl (by decide) (by decide) s 0⟩

end

theorem vinRange_idle {s : State} {mv : Nat} (h : (4500 ≤ mv ∧ mv ≤ 60000) ∨ s.power.range < oneSecond) :
    exec (.vinRange mv) s = .next s := by
  refine if_neg ?_
  simp only [vinOutside, Bool.and_eq_true, Bool.or_eq_true, decide_eq_true_eq, bne_iff_ne]
  omega

/-- Settles O9: one lemma for each of the supervisor's inputs that only report. -/
theorem powerInputsReport : Obligations.PowerInputsReport := fun _ hon =>
  ⟨vinGlitch_counts hon, capEstimate_reports hon, vaux3Oc_reports hon, vaux3Retry_reports hon, vinRange_reports hon,
    fun _ h => vinRange_idle h⟩

/-! ### HOLDUP_OK -/

theorem exec_holdupOk {s : State} (hon : s.phase ≠ .off) (hpf : get1 s PWR.STATUS_PF 0 = 0) (mv : Nat) :
    exec (.holdupOk mv) s = .next (holdupOk s mv) := by
  have hmin : holdupMin s mv = s := if_neg (by simp [powerFailed, bit1, hpf])
  simp [exec, execHoldupOk, hon, hmin]

/-- Settles O10: below 22.0 V the flag is cleared, from 23.0 V on it is set, with its event where it was clear. -/
theorem holdupOkThresholds : Obligations.HoldupOkThresholds := by
  intro s mv hon hpf hbit
  refine ⟨_, exec_holdupOk hon hpf mv, ?_⟩
  have hrest : OnlyCells (cells [(PWR.STATUS_HOLDUP_OK, 0)] ++ evtCells .pwr 0) s s := ⟨rfl, .refl _ s⟩
  unfold holdupOk
  split
  case isTrue hlow =>
    refine ⟨fun _ => getF_setF_fits (by decide) (by decide) .., by omega, by omega, ?_⟩
    exact onlyCells_of_onlyRegs (set1_keeps ..) ((CellsElse.refl _ s).after_set1 (by decide) 0)
  case isFalse hlow =>
    split
    case isTrue hset =>
      obtain ⟨hone, hraised, hcells⟩ :=
        set1_evt_reports (f := PWR.STATUS_HOLDUP_OK) (v := 1) (bit := 2) (by decide) (by decide) rfl (by decide) (by decide) s 0
      exact ⟨by omega, fun _ => ⟨hone, fun _ => hraised⟩, by omega, hcells⟩
    case isFalse hset => exact ⟨by omega, fun hhigh => ⟨by omega, by omega⟩, fun _ _ => rfl, hrest⟩

/-! ### The ovens -/

theorem exec_ovenFault {s : State} (hon : s.phase ≠ .off) (hwarm : get1 s OSC.STATUS_WARMUP 0 = 1) (hlate : warmLimit ≤ s.power.warm) :
    exec .ovenFault s = .next (ovenFault s) := if_pos (by simp [bit1, hwarm, hon, hlate])

/-- In warm-up past its limit, with the journal queue full and its count of lost entries one below the counter's limit. -/
def ovenLate : State :=
  { phase := .held, regs := [(fldKey BBOX.QLOST_CNT 0 0 0, cntMax - 1), (fldKey OSC.STATUS_WARMUP 0 0 0, 1)],
    power := { warm := warmLimit }, jrn := { queue := List.replicate 64 ⟨0, 0, none, 0, 0, 0⟩ } }

/-- There the entry of the oven fault is lost, the count saturates, and COUNTER_SAT is raised on the page of the black box. -/
theorem ovenLate_saturates :
    kvGet (ovenFault ovenLate).regs (fldKey (HDR.EVT .bbox) 0 0 0) = some 32 ∧
      kvGet ovenLate.regs (fldKey (HDR.EVT .bbox) 0 0 0) = none := by
  decide +kernel

/-- Refutes O11: the entry that an oven fault journals may be lost, and where the count of lost entries then saturates,
COUNTER_SAT changes the events of the black box, which are not among the cells named. -/
theorem not_ovenConditions : ¬ Obligations.OvenConditions := by
  intro h
  obtain ⟨-, hfault, -⟩ := h ovenLate (by decide)
  obtain ⟨t, ht, -, -, -, -, -, -, hcells⟩ := hfault (by decide) (by decide)
  rw [exec_ovenFault (by decide) (by decide) (by decide)] at ht
  cases ht
  have hsame := hcells (fldKey (HDR.EVT .bbox) 0 0 0) (by decide)
  rw [ovenLate_saturates.1, ovenLate_saturates.2] at hsame
  cases hsame

end Sys2Proof.Machine

namespace Sys2Proof.Machine

/-! ### A page's cells but for those listed -/

/-- On a page only the listed cells changed. -/
def PageElse (p : Page) (ks : List Nat) (s t : State) : Prop :=
  ∀ k, keyPage k = pageType p → k ∉ ks → kvGet t.regs k = kvGet s.regs k

theorem getF_of_cell {s t : State} {f : Fld} {n k j : Nat} (hf : f.acc ≠ .lk)
    (h : kvGet t.regs (fldKey f n k j) = kvGet s.regs (fldKey f n k j)) : getF t f n k j = getF s f n k j := by
  unfold getF
  split
  · exact absurd (by assumption) hf
  · rw [h]

namespace PageElse

variable {p : Page} {ks : List Nat} {s t : State}

theorem refl (p : Page) (ks : List Nat) (s : State) : PageElse p ks s s := fun _ _ _ => rfl

theorem trans {u : State} (h : PageElse p ks s t) (g : PageElse p ks t u) : PageElse p ks s u := fun k hk hn =>
  (g k hk hn).trans (h k hk hn)

theorem of_page (h : pageCells p t.regs = pageCells p s.regs) : PageElse p ks s t := fun _ hk _ => kvGet_of_pageCells h hk

theorem of_cells (h : CellsElse ks s t) : PageElse p ks s t := fun k _ hn => h k hn

theorem after_page (h : PageElse p ks s t) {u : State} (e : pageCells p u.regs = pageCells p t.regs) : PageElse p ks s u :=
  h.trans (of_page e)

theorem after_setF (h : PageElse p ks s t) {f : Fld} {n k j : Nat} (hk : fldKey f n k j ∈ ks) (v : Nat) :
    PageElse p ks s (setF t f n k j v) := h.trans (of_cells ((CellsElse.refl ks t).after_setF hk v))

theorem after_set1 (h : PageElse p ks s t) {f : Fld} {n : Nat} (hk : fldKey f n 0 0 ∈ ks) (v : Nat) :
    PageElse p ks s (set1 t f n v) := h.after_setF hk v

theorem after_evt (h : PageElse p ks s t) {q : Page} {n : Nat} (hk : ∀ k ∈ evtCells q n, k ∈ ks) (bit : Nat) :
    PageElse p ks s (evt t q n bit) := h.trans (of_cells ((CellsElse.refl ks t).after_evt hk bit))

theorem after_foldl {α : Type} (h : PageElse p ks s t) (f : State → α → State) (hf : ∀ u x, PageElse p ks u (f u x)) (l : List α) :
    PageElse p ks s (l.foldl f t) := by
  induction l generalizing t with
  | nil => exact h
  | cons x l ih => exact ih (h.trans (hf t x))

/-- A field whose cell is not listed reads as before. -/
theorem reads (h : PageElse p ks s t) {f : Fld} {n k j : Nat} (hp : f.page = p) (hf : f.acc ≠ .lk) (hk : fldKey f n k j ∉ ks) :
    getF t f n k j = getF s f n k j := getF_of_cell hf (h _ (hp ▸ keyPage_fldKey f n k j) hk)

end PageElse

/-! ### Starts: what the page SYS shows -/

/-- The cells of SYS that DEGRADED and CAL_DEFAULT write. -/
def sysReports : List Nat := cells [(SYS.STATUS_CAL_DEFAULT, 0)] ++ evtCells .sys 0

abbrev SysKept (s t : State) : Prop := PageElse .sys sysReports s t

theorem degraded_sysKept (s : State) : SysKept s (degraded s) := (PageElse.refl _ _ s).after_evt (by decide) 2

theorem takePolicy_sysKept (s : State) (q : Policy) (rom : Bool) : SysKept s (takePolicy s q rom) := by
  unfold takePolicy
  split
  · exact (PageElse.of_page (by simp)).trans (degraded_sysKept _)
  · exact .of_page (by simp)

theorem finishCommit_sysKept (s : State) (q : Policy) : SysKept s (finishCommit s q) := by
  unfold finishCommit
  dsimp only
  refine PageElse.trans ?_ (takePolicy_sysKept _ q false)
  refine PageElse.of_page ?_
  simp (maxDischargeDepth := 30) [cite @unmark_keeps, cite @putSramLE_keeps, cite @putSrams_keeps]

theorem startPolicy_sysKept (s : State) : SysKept s (startPolicy s) := by
  unfold startPolicy
  (repeat' split)
  · exact takePolicy_sysKept s _ false
  · next q _ => exact finishCommit_sysKept s q
  · exact takePolicy_sysKept s _ true

/-- The start values of the policy are those of three pages. -/
theorem startValues_pg {q : Page} (s : State) (h : q ∉ [Page.dpll, .apll, .out]) :
    pageCells q (startValues s).regs = pageCells q s.regs := by
  refine foldl_pgs_mem _ _ (fun t p hp => foldl_pgs _ (fun u n => resetFields_pg u _ n fun f hf => ?_) _ t) s
  rw [page_of_mem_pageAll (List.mem_of_mem_filter hf)]
  exact fun e => h (e ▸ hp)

theorem bootUp_sysKept (s : State) (cause : Nat) : SysKept (set1 s SYS.RESET 0 cause) (bootUp s cause) := by
  have hpol := ((PageElse.refl .sys sysReports (set1 s SYS.RESET 0 cause)).after_page
    (u := publishKey (set1 s SYS.RESET 0 cause)) (by simp)).trans (startPolicy_sysKept _)
  exact hpol.after_page (by simp [bootUp, startValues_pg])

/-- Refutes O14: outside the voltages nothing begins, so what the module before it held stays, such as its FRN; the clause that
only the non-volatile copies matter is stated for every voltage. -/
theorem not_powerOnReset : ¬ Obligations.PowerOnReset := by
  intro h
  have hidle : ∀ u : State, exec (.powerOnReset ⟨⟨false, false, false, false⟩, false, 0, 0⟩) u = .next u :=
    fun u => if_neg fun hv => absurd hv.2.1 (by decide)
  obtain ⟨-, hsame, -⟩ := h State.reset ⟨⟨false, false, false, false⟩, false, 0, 0⟩ rfl
  have heq := hsame { State.reset with frn := 1 } rfl rfl rfl rfl rfl rfl
  rw [hidle, hidle] at heq
  exact absurd (congrArg State.frn (Host.Outcome.next.inj heq)) (by decide)

end Sys2Proof.Machine

/-! RESET_N and the timebase (R522, R545, R554, R555, R588): the non-volatile copies that a start keeps, and what the resets and
the loss of the timebase in use show. -/

namespace Sys2Proof.Machine

/-! ### The non-volatile copies: only a store's end, a shutdown and a weakened copy change them -/

@[simp] theorem foldl_nv {α : Type} (f : State → α → State) (h : ∀ t x, (f t x).cellar.nv = t.cellar.nv) (l : List α) (s : State) :
    (l.foldl f s).cellar.nv = s.cellar.nv := foldl_inv (fun s => s.cellar.nv) f h l s

@[simp] theorem park_nv (s : State) (o : Nat) : (park s o).cellar.nv = s.cellar.nv := by
  unfold park
  dsimp only
  split <;> simp [modCellar, cite @leafPark_keeps]

@[simp] theorem startJob_nv (s : State) (j : StoreJob) : (startJob s j).cellar.nv = s.cellar.nv := by
  simp [startJob, modCellar, cite @set1_keeps, cite @setF_keeps]

@[simp] theorem engineStart_nv (s : State) (v : Supply) : (engineStart s v).cellar.nv = s.cellar.nv := by
  unfold engineStart
  (repeat' split) <;> simp [modCellar, cite @set1_keeps, cite @addCnt_keeps, cite @evt_keeps]

@[simp] theorem engineKick_nv (s : State) (v : Supply) : (engineKick s v).cellar.nv = s.cellar.nv := by
  unfold engineKick
  split <;> simp

@[simp] theorem addJob_nv (s : State) (j : StoreJob) : (addJob s j).cellar.nv = s.cellar.nv := by
  unfold addJob
  (repeat' split) <;> rfl

@[simp] theorem rootStore_nv (s : State) (b prio owner : Nat) : (rootStore s b prio owner).cellar.nv = s.cellar.nv := by
  unfold rootStore
  (repeat' split) <;> simp [modCellar]

@[simp] theorem putSram_nv (s : State) (a b : Nat) : (putSram s a b).cellar.nv = s.cellar.nv := by
  unfold putSram
  split <;> rfl

@[simp] theorem putSrams_nv (s : State) (a : Nat) (l : List Nat) : (putSrams s a l).cellar.nv = s.cellar.nv := by
  induction l generalizing s a with
  | nil => rfl
  | cons b l ih => simp [putSrams, ih]

@[simp] theorem putSramLE_nv (s : State) (a v n : Nat) : (putSramLE s a v n).cellar.nv = s.cellar.nv := putSrams_nv ..

@[simp] theorem writeEntry_nv (s : State) (e : JEntry) : (writeEntry s e).cellar.nv = s.cellar.nv := by
  unfold writeEntry
  dsimp only
  split <;> simp [cite @set1_keeps, cite @codeEvts_keeps, cite @addCnt_keeps, cite @unreadCross_keeps, cite @overwriteEvt_keeps]

@[simp] theorem drainOne_nv (s : State) : (drainOne s).cellar.nv = s.cellar.nv := by
  unfold drainOne
  split <;> simp [cite @pumpHeld_keeps]

@[simp] theorem drainN_nv (n : Nat) (s : State) : (drainN n s).cellar.nv = s.cellar.nv := by
  induction n generalizing s with
  | zero => rfl
  | succ n ih => simp [drainN, ih]

@[simp] theorem drainAll_nv (s : State) : (drainAll s).cellar.nv = s.cellar.nv := by
  unfold drainAll
  dsimp only
  split <;> simp [cite @pumpHeld_keeps]

@[simp] theorem frnRestart_nv (s : State) : (frnRestart s).cellar.nv = s.cellar.nv := by
  simp [frnRestart, cite @journalPg_keeps]

@[simp] theorem unmark_nv (s : State) : (unmark s).cellar.nv = s.cellar.nv := by
  unfold unmark
  split <;> simp

@[simp] theorem commitKey_nv (s : State) (pub : List Nat) (rot : Option (List Nat)) : (commitKey s pub rot).cellar.nv = s.cellar.nv := by
  simp [commitKey, cite @journalPg_keeps, cite @publishKey_keeps, apply_ite State.cellar, apply_ite CellarU.nv]

theorem finishCommit_nv (s : State) (q : Policy) : (finishCommit s q).cellar.nv = s.cellar.nv := by
  simp [finishCommit, cite @takePolicy_keeps]

@[simp] theorem startPolicy_nv (s : State) : (startPolicy s).cellar.nv = s.cellar.nv := by
  unfold startPolicy
  (repeat' split)
  · simp [cite @takePolicy_keeps]
  · exact finishCommit_nv s _
  · simp [cite @takePolicy_keeps]

@[simp] theorem bootUp_nv (s : State) (cause : Nat) : (bootUp s cause).cellar.nv = s.cellar.nv := by
  simp [bootUp, cite @startValues_keeps, cite @publishKey_keeps, cite @set1_keeps, cite @publishGains_keeps, cite @instReset_keeps,
    cite @shelfReset_keeps, cite @tableReset_keeps]

/-! ### VIO (R588) -/

/-- Settles O13: without VIO no port is live, and a tick leaves VIO as it is. -/
theorem vioFallsAndReturns : Obligations.VioFallsAndReturns := by
  intro s
  refine ⟨⟨_, rfl, rfl⟩, ⟨_, rfl, rfl⟩, fun hvio => ?_⟩
  have hbusy : ∀ p, busFree s p = false := fun p => by cases p <;> simp [busFree, portsLive, hvio]
  refine ⟨fun x hx => ?_, fun x hx => ?_, fun x hx => ?_, fun x hx => ?_, fun hrun i => ?_⟩
  · simp [exec, execSpiWrite, hx, hbusy]
  · simp [exec, execSpiRead, hx, hbusy]
  · simp [exec, execI2cWrite, hx, hbusy]
  · simp [exec, execI2cRead, hx, hbusy]
  · exact ⟨frameTick s i, if_pos hrun, by simp [cite @frameTick_keeps, hrun], frameTick_frn s i, by simp [cite @frameTick_keeps, hvio]⟩

/-! ### RESET_N (R522, R545, R591) -/

/-- What a fold's step for `x` makes hold, and the other steps keep, holds after the fold for every `x` of its list. -/
theorem foldl_each {α σ : Type} {P : α → σ → Prop} {f : σ → α → σ} {l : List α} (hset : ∀ t, ∀ x ∈ l, P x (f t x))
    (hkeep : ∀ t, ∀ x ∈ l, ∀ y ∈ l, P x t → P x (f t y)) (s : σ) : ∀ x ∈ l, P x (l.foldl f s) := by
  have hlater : ∀ (r : List α) (t : σ) x, x ∈ l → (∀ y ∈ r, y ∈ l) → P x t → P x (r.foldl f t) := by
    intro r
    induction r with
    | nil => exact fun _ _ _ _ h => h
    | cons y r ih =>
      exact fun t x hx hr h => ih _ x hx (fun z hz => hr z (List.mem_cons_of_mem _ hz)) (hkeep t x hx y (hr y List.mem_cons_self) h)
  have hall : ∀ (r : List α) (t : σ), (∀ y ∈ r, y ∈ l) → ∀ x ∈ r, P x (r.foldl f t) := by
    intro r
    induction r with
    | nil => exact fun _ _ x hx => absurd hx List.not_mem_nil
    | cons y r ih =>
      intro t hr x hx
      have hr' : ∀ z ∈ r, z ∈ l := fun z hz => hr z (List.mem_cons_of_mem _ hz)
      rcases List.mem_cons.mp hx with rfl | hx
      · exact hlater r _ x (hr x List.mem_cons_self) hr' (hset t x (hr x List.mem_cons_self))
      · exact ih _ hr' x hx
  exact hall l s fun _ h => h

theorem outOf_modOut_ne (s : State) {m n : Nat} (h : n ≠ m) (f : OutU → OutU) : outOf (modOut s m f) n = outOf s n := by
  simp [outOf, modOut, List.getD_eq_getElem?_getD, List.getElem?_modify, h.symm]

/-- An output that a change stops is not active: the one of the list, or the missing one of an index past its end. -/
theorem outOf_modOut_stopped (s : State) (n : Nat) {f : OutU → OutU} (h : ∀ u, (f u).active = false) :
    (outOf (modOut s n f) n).active = false := by
  simp only [outOf, modOut, List.getD_eq_getElem?_getD, List.getElem?_modify]
  cases s.outs[n]? <;> simp [h]

/-- While RESET_N is low no output is active. -/
theorem resetHold_outs (s : State) {n : Nat} (hn : n < 10) : (outOf (resetHold s) n).active = false := by
  have houts : (resetHold s).outs = ((List.range 10).foldl (fun t n =>
      modOut t n fun u => { u with active := false, fall := none, left := none }) s).outs := by
    simp [resetHold, cite @set1_keeps, cite @modCellar_keeps]
  unfold outOf
  rw [houts]
  refine foldl_each (P := fun n t => (outOf t n).active = false) (fun t x _ => outOf_modOut_stopped t x fun _ => rfl)
    (fun t x _ y _ h => ?_) s n (List.mem_range.mpr hn)
  by_cases e : x = y
  · exact e ▸ outOf_modOut_stopped t y fun _ => rfl
  · exact (congrArg OutU.active (outOf_modOut_ne t e _)).trans h

theorem resetHold_regs (s : State) : ∃ u, (resetHold s).regs =
    (set1 (set1 (set1 u ROOT.STATUS_LEAF 0 1) ROOT.STATUS_PSTATE 0 0) SYS.STATUS_NO_TIMEBASE 0 1).regs := ⟨_, rfl⟩

/-- What SYS, ROOT and the units show while RESET_N is low. -/
theorem resetHold_stops (s : State) : ∃ t, t = resetHold s ∧
      t.phase = .held ∧ t.writeQ = [] ∧ t.snapReq = [] ∧ t.snapAll = [] ∧ t.gate = {} ∧ t.root = {} ∧ t.i2cHold = none ∧
      t.cellar.queue = [] ∧ (∀ n, n < 10 → (outOf t n).active = false) ∧
      get1 t ROOT.STATUS_LEAF 0 = 1 ∧ get1 t ROOT.STATUS_PSTATE 0 = 0 ∧ get1 t SYS.STATUS_NO_TIMEBASE 0 = 1 := by
  refine ⟨_, rfl, rfl, rfl, rfl, rfl, rfl, rfl, rfl, ?_, fun n hn => resetHold_outs s hn, ?_, ?_, ?_⟩
  · simp [resetHold, modCellar, cite @set1_keeps]
  all_goals
    obtain ⟨u, hregs⟩ := resetHold_regs s
    refine (getF_of_cell (by decide) (congrArg (kvGet · _) hregs)).trans ?_
    simp (disch := decide) [set1]

/-- The cause that a release records. -/
theorem resetRelease_cause (s : State) (straps : Straps) : get1 (resetRelease s straps) SYS.RESET 0 = 2 := by
  have hboot : SysKept (set1 (warmState (drainAll (holdAllLost s.jrn.lost s)) straps) SYS.RESET 0 2) (resetRelease s straps) :=
    (bootUp_sysKept _ 2).after_page (by simp [resetRelease])
  exact (hboot.reads (f := SYS.RESET) (k := 0) (j := 0) rfl (by decide) (by decide)).trans
    (getF_setF_fits (by decide) (by decide) _ 0 0 0)

theorem resetRelease_starts (s : State) (straps : Straps) : (resetRelease s straps).phase = .waiting ∧
    (resetRelease s straps).frn = 0 ∧ (resetRelease s straps).straps = straps ∧ (resetRelease s straps).writeQ = [] ∧
    (resetRelease s straps).vio = s.vio ∧ (resetRelease s straps).cellar.nv = s.cellar.nv := by
  obtain ⟨hphase, hfrn, hstraps, hwrites, -⟩ := warmState_fresh (drainAll (holdAllLost s.jrn.lost s)) straps
  refine ⟨?_, ?_, ?_, ?_, ?_, ?_⟩
  · simpa [resetRelease, cite @drainAll_keeps, cite @frnRestart_keeps, cite @bootUp_keeps] using hphase
  · simpa [resetRelease, cite @drainAll_keeps, cite @frnRestart_keeps, cite @bootUp_keeps] using hfrn
  · simpa [resetRelease, cite @drainAll_keeps, cite @frnRestart_keeps, cite @bootUp_keeps] using hstraps
  · simpa [resetRelease, cite @drainAll_keeps, cite @frnRestart_keeps, cite @bootUp_keeps] using hwrites
  · simp [cite @resetRelease_keeps]
  · simp [resetRelease, cite @warmState_keeps, cite @holdAllLost_keeps]

theorem exec_resetNRelease {s : State} (h : s.phase = .held) (straps : Straps) :
    exec (.resetNRelease straps) s = .next (resetRelease s straps) := if_pos h

/-- Settles O15: the hold, the wait for the power-fail sequence, and the release. -/
theorem resetLine : Obligations.ResetLine := by
  intro s
  refine ⟨fun hoff hheld hseq => ?_, fun hoff hheld hseq => ?_, fun h => if_pos h, fun straps hheld => ?_, fun straps hheld => ⟨fun h => ?_, fun h => ?_⟩⟩
  · obtain ⟨t, rfl, hstops⟩ := resetHold_stops s
    exact ⟨_, by simp [exec, execResetNFall, hoff, hheld, bit1, hseq], hstops⟩
  · simp [exec, execResetNFall, hoff, hheld, bit1, hseq, modPower]
  · obtain ⟨hphase, hfrn, hstraps, hwrites, hvio, hnv⟩ := resetRelease_starts s straps
    exact ⟨_, exec_resetNRelease hheld straps, hphase, hfrn, hstraps, hwrites, hvio, hnv, resetRelease_cause s straps⟩
  · simp [exec, execResetNRelease, hheld, h, modPower]
  · simp [exec, execResetNRelease, hheld, h]

/-! ### The timebase in use is lost (R554, R555) -/

/-- The switch to the other source, and the bridges over it, show that source with TB_SWITCH raised. -/
theorem tbSwitch_shows (s : State) : get1 (tbSwitch s) FRAME.TB_SRC 0 = 1 - get1 s FRAME.TB_SRC 0 ∧ Raised (tbSwitch s) .sys 0 1 := by
  have hbridged : TbKept (tbSwitched { s with tbHold := 2 } (1 - get1 s FRAME.TB_SRC 0) 1) (tbSwitch s) := by
    refine (TbKept.refl _).after_foldl _ _ fun u d => .of_pages ?_
    split <;> simp
  have hsrc : TbKept (set1 { s with tbHold := 2 } FRAME.TB_SRC 0 (1 - get1 s FRAME.TB_SRC 0))
      (tbSwitched { s with tbHold := 2 } (1 - get1 s FRAME.TB_SRC 0) 1) :=
    ((TbKept.refl _).after_markFallback.after_evt .sys 0 1).after (journalPg · 0x004 none .frame 0 _) (by simp)
  refine ⟨?_, hbridged.raised (tbSwitched_raised ..)⟩
  rw [hbridged.source, hsrc.source, get1_set1_same _ _ _ _ (by decide)]
  show (1 - get1 s FRAME.TB_SRC 0) % 2 = _
  omega

theorem tbLost_noTimebase (s : State) : get1 (tbLost s) SYS.STATUS_NO_TIMEBASE 0 = 1 := by
  have hkept : SysKept (set1 { s with phase := .lost } SYS.STATUS_NO_TIMEBASE 0 1) (tbLost s) :=
    (degraded_sysKept _).after_page (by simp [tbLost])
  exact (hkept.reads (f := SYS.STATUS_NO_TIMEBASE) (k := 0) (j := 0) rfl (by decide) (by decide)).trans
    (getF_setF_fits (by decide) (by decide) _ 0 0 0)

theorem exec_tbSwitch {s : State} (h : s.phase = .running) : exec .tbSwitch s = .next (tbSwitch s) := if_pos h

theorem exec_tbLost {s : State} (h : s.phase = .running) : exec .tbLost s = .next (tbLost s) := if_pos h

/-- Settles O17: the switch shows the other source, and the loss shows that there is none. -/
theorem timebaseLoss : Obligations.TimebaseLoss := fun s hrun =>
  ⟨⟨_, exec_tbSwitch hrun, by simp [cite @tbSwitch_keeps, hrun], by simp [cite @tbSwitch_keeps],
    by simp [tbSwitch, cite @tbBridge_keeps, cite @duskRecompute_keeps, cite @tbSwitched_keeps],
    (tbSwitch_shows s).1, (tbSwitch_shows s).2⟩,
   ⟨_, exec_tbLost hrun, by simp [tbLost, cite @drainAll_keeps, cite @outLost_keeps, cite @journalPg_keeps, cite @degraded_keeps, cite @set1_keeps],
    by simp [cite @tbLost_keeps], tbLost_noTimebase s⟩⟩

end Sys2Proof.Machine

/-! The power fail, its recovery and the shutdown (R515, R516, R519, R520). -/

namespace Sys2Proof.Machine

/-- A field that is not LK reads the same where its page does. -/
theorem getF_of_pageCells {s t : State} {p : Page} (h : pageCells p t.regs = pageCells p s.regs) {f : Fld} (hp : f.page = p)
    (hf : f.acc ≠ .lk) (n k j : Nat) : getF t f n k j = getF s f n k j :=
  getF_of_cell hf (kvGet_of_pageCells (hp ▸ h) (keyPage_fldKey f n k j))

theorem raised_of_pageCells {s t : State} {p : Page} (h : pageCells p t.regs = pageCells p s.regs) {n bit : Nat}
    (hr : Raised s p n bit) : Raised t p n bit := by
  unfold Raised get1
  rwa [getF_of_pageCells h (f := HDR.EVT p) rfl (by simp [HDR.EVT])]

/-! ### The declaration -/

/-- What a declaration writes before the links go down. -/
def failRecorded (s : State) (cause vin holdup : Nat) : State :=
  set1 (set1 (recordFail s cause vin holdup) OSC.STATUS_OVEN_OFF 0 1) PWR.STATUS_CHARGING 0 0

/-- The supply's page and the ovens' after a declaration that the module outlives: what was recorded, then the event and the count. -/
theorem powerFail_pages (s : State) (cause vin holdup : Nat) (hup : 12000 ≤ holdup) : ∃ u,
    (∀ p ∈ [Page.pwr, .osc], pageCells p u.regs = pageCells p (failRecorded s cause vin holdup).regs) ∧
    ∀ p ∈ [Page.pwr, .osc], pageCells p (powerFail s cause vin holdup).regs =
      pageCells p (addCnt (evt u .pwr 0 0) PWR.PF_CNT 0 0 1).regs := by
  refine ⟨(List.range 2).foldl (fun t n => if portEnabled t n then linkDown t n 3 1 else t) (failRecorded s cause vin holdup),
    fun p hp => ?_, fun p hp => ?_⟩
  · refine foldl_pgs _ (fun t n => ?_) _ _
    rcases List.mem_pair.mp hp with rfl | rfl <;> simp
  · unfold powerFail
    dsimp only
    rw [if_neg (by omega)]
    rcases List.mem_pair.mp hp with rfl | rfl <;> split <;> simp [failRecorded]

section
variable (s : State) (cause vin holdup : Nat) (hup : 12000 ≤ holdup)
include hup

/-- A field of the two pages, but for the event and the count, holds what was recorded. -/
theorem getF_powerFail {f : Fld} (hp : f.page ∈ [Page.pwr, .osc]) (hf : f.acc ≠ .lk) (hplain : Fld.plain f 0 0 = true)
    (hcnt : Fld.place f 0 0 ≠ Fld.place PWR.PF_CNT 0 0 ∨ f.page ≠ .pwr) :
    get1 (powerFail s cause vin holdup) f 0 = get1 (failRecorded s cause vin holdup) f 0 := by
  obtain ⟨u, hu, ht⟩ := powerFail_pages s cause vin holdup hup
  unfold get1
  rw [getF_of_pageCells (ht _ hp) rfl hf, ← getF_of_pageCells (hu _ hp) rfl hf]
  by_cases hpwr : f.page = .pwr
  · rw [getF_addCnt_place (f := PWR.PF_CNT) hpwr (hcnt.resolve_right (not_not.mpr hpwr)) hplain, getF_evt_plain hpwr hplain]
  · rw [getF_addCnt_page (f := PWR.PF_CNT) hpwr, getF_evt_of_page_ne hpwr]

theorem powerFail_counted : Counted s (powerFail s cause vin holdup) PWR.PF_CNT 0 0 1 := by
  obtain ⟨u, hu, ht⟩ := powerFail_pages s cause vin holdup hup
  unfold Counted
  rw [getF_of_pageCells (ht .pwr (by decide)) rfl (by decide), getF_addCnt_counter (by decide) rfl (by decide),
    getF_evt_plain (p := .pwr) (g := PWR.PF_CNT) rfl (by decide), getF_of_pageCells (hu .pwr (by decide)) rfl (by decide)]
  simp (disch := decide) [failRecorded, recordFail, set1]

theorem powerFail_raised : Raised (powerFail s cause vin holdup) .pwr 0 0 := by
  obtain ⟨u, -, ht⟩ := powerFail_pages s cause vin holdup hup
  refine raised_of_pageCells (ht .pwr (by decide)) ?_
  exact Raised.after_addCnt (f := PWR.PF_CNT) (raised_evt (by decide) u .pwr 0) (by decide) (by decide) 1

theorem powerFail_phase : (powerFail s cause vin holdup).phase = s.phase ∧ (powerFail s cause vin holdup).frn = s.frn := by
  refine ⟨?_, by simp [cite @powerFail_keeps]⟩
  unfold powerFail
  dsimp only
  rw [if_neg (by omega)]
  split <;>
    simp [recordFail, cite @shelfPowerFail_keeps, cite @pfSequence_keeps, cite @drainAll_keeps, cite @imagePowerFail_keeps,
      cite @stopCommit_keeps, cite @ltAdd_keeps, cite @journalPg_keeps, cite @addCnt_keeps, cite @evt_keeps, cite @linkDown_keeps,
      cite @set1_keeps, cite @ite_state, cite @foldl_state]

end

theorem failCause_le (s : State) (mv : Nat) : failCause s mv ≤ 3 := by
  unfold failCause
  dsimp only
  (repeat' split) <;> decide

theorem exec_powerFail {s : State} {vin : Nat} (hoff : s.phase ≠ .off) (hpf : get1 s PWR.STATUS_PF 0 = 0) (hcause : failCause s vin ≠ 0)
    (holdup : Nat) : exec (.powerFail vin holdup) s = .next (powerFail s (failCause s vin) vin holdup) := by
  simp [exec, execPowerFail, pfailLow_of_running hoff hpf, hcause]

theorem vin250_mod (mv : Nat) : vin250 mv % 2 ^ 8 = satTo 255 (mv / 250) := satTo_mod (by decide) _

theorem hold200_mod (mv : Nat) : hold200 mv % 2 ^ 8 = satTo 255 (mv / 200) := satTo_mod (by decide) _

/-- What a declaration that the module outlives reports. -/
theorem powerFail_reports (s : State) {cause : Nat} (hcause : cause ≤ 3) (vin : Nat) {holdup : Nat} (hup : 12000 ≤ holdup) :
    get1 (powerFail s cause vin holdup) PWR.STATUS_PF 0 = 1 ∧ get1 (powerFail s cause vin holdup) PWR.STATUS_CAUSE 0 = cause ∧
    get1 (powerFail s cause vin holdup) PWR.LAST_PF_CAUSE 0 = cause ∧
    get1 (powerFail s cause vin holdup) PWR.LAST_PF_FRN 0 = s.frn % 2 ^ 32 ∧
    get1 (powerFail s cause vin holdup) PWR.LAST_PF_VIN 0 = satTo 255 (vin / 250) ∧
    get1 (powerFail s cause vin holdup) PWR.LAST_PF_HOLDUP 0 = satTo 255 (holdup / 200) ∧
    get1 (powerFail s cause vin holdup) PWR.LAST_PF_RECOVERED 0 = 0 ∧ get1 (powerFail s cause vin holdup) OSC.STATUS_OVEN_OFF 0 = 1 := by
  have hread := fun {f : Fld} => getF_powerFail s cause vin holdup hup (f := f)
  have hfits : cause % 2 ^ 2 = cause := Nat.mod_eq_of_lt (by omega)
  refine ⟨?_, ?_, ?_, ?_, ?_, ?_, ?_, ?_⟩
  all_goals
    refine (hread (by decide) (by decide) (by decide) (by decide)).trans ?_
    simp (disch := decide) [failRecorded, recordFail, get1, set1, getF_setF_same]
  · exact hfits
  · exact hfits
  · rfl
  · exact vin250_mod vin
  · exact hold200_mod holdup

/-! ### The shutdown -/

/-- An output at logic 0, whose RUN reads SQ_PF. -/
def OutShut (n : Nat) (t : State) : Prop := get1 t OUT.STATUS_RUN n = 5 ∧ (outOf t n).active = false

theorem OutShut.congr {n : Nat} {s t : State} (hp : pageCells .out t.regs = pageCells .out s.regs) (ho : t.outs = s.outs)
    (h : OutShut n s) : OutShut n t :=
  ⟨(getF_of_pageCells hp (f := OUT.STATUS_RUN) rfl (by decide) n 0 0).trans h.1, by unfold outOf; rw [ho]; exact h.2⟩

/-- No two outputs share a cell of RUN. -/
theorem outRun_key_ne : ∀ n < 10, ∀ m < 10, n ≠ m → fldKey OUT.STATUS_RUN n 0 0 ≠ fldKey OUT.STATUS_RUN m 0 0 := by decide

theorem outputsShut_outs (s : State) {n : Nat} (hn : n < 10) : OutShut n (outputsShut s) := by
  have hset : ∀ (t : State) n, OutShut n (set1 (modOut t n fun u => { u with active := false, fall := none, left := shutFall t n })
      OUT.STATUS_RUN n 5) := fun t n => by
    refine ⟨getF_setF_fits (by decide) (by decide) _ n 0 0, ?_⟩
    have h := outOf_modOut_stopped t n (f := fun u => { u with active := false, fall := none, left := shutFall t n }) fun _ => rfl
    simpa [outOf, cite @set1_keeps] using h
  refine foldl_each (P := OutShut) (fun t x _ => hset t x) (fun t x hx y hy h => ?_) s n (List.mem_range.mpr hn)
  by_cases e : x = y
  · subst e
    exact hset t x
  · have hne := outRun_key_ne x (List.mem_range.mp hx) y (List.mem_range.mp hy) e
    refine ⟨(get1_set1_ne (modOut t y _) _ _ _ _ _ hne).trans h.1, ?_⟩
    have hout := congrArg OutU.active (outOf_modOut_ne t e fun u => { u with active := false, fall := none, left := shutFall t y })
    simpa [outOf, cite @set1_keeps, cite @modOut_keeps] using hout.trans h.2

theorem shutdown_outs (s : State) {n : Nat} (hn : n < 10) : OutShut n (shutdown s) := by
  refine (outputsShut_outs s hn).congr ?_ ?_
  · simp [shutdown, cite @modPower_keeps, cite @powerOff_keeps, cite @modShelf_keeps]
  · simp [shutdown, cite @modPower_keeps, cite @powerOff_keeps, cite @set1_keeps, cite @modShelf_keeps]

/-- The store that a loss of supply cuts leaves its copy TORN. -/
theorem powerOff_torn {s : State} {r : StoreRun} (hrun : s.cellar.run = some r) (_hcopy : r.copy < 2) :
    copyState (powerOff s) r.job.block r.copy = 1 := by
  have hnv : nvOf (powerOff s) r.job.block r.copy =
      some { block := r.job.block, copy := r.copy, gen := r.gen, wear := r.wear, commit := 0xFFFFFFFF } := by
    simp [nvOf, powerOff, tearCopy, hrun, modCellar]
  simp [copyState, hnv, commitWord]

theorem shutdown_ends (s : State) : (shutdown s).phase = .off ∧ (shutdown s).writeQ = [] ∧ (shutdown s).cellar.run = none ∧
    get1 (shutdown s) PWR.STATUS_VAUX3_OFF 0 = 1 := by
  refine ⟨rfl, rfl, rfl, ?_⟩
  have hregs : (shutdown s).regs = (set1 (modShelf (outputsShut s) fun _ => {}) PWR.STATUS_VAUX3_OFF 0 1).regs := by
    simp [shutdown, cite @modPower_keeps, cite @powerOff_keeps]
  exact (getF_of_cell (by decide) (congrArg (kvGet · _) hregs)).trans (getF_setF_fits (by decide) (by decide) _ 0 0 0)

theorem shutdown_torn {s : State} {r : StoreRun} (hrun : s.cellar.run = some r) (hcopy : r.copy < 2) :
    copyState (shutdown s) r.job.block r.copy = 1 := by
  have hcellar : (shutdown s).cellar = (powerOff (set1 (modShelf (outputsShut s) fun _ => {}) PWR.STATUS_VAUX3_OFF 0 1)).cellar := rfl
  have htorn := powerOff_torn (s := set1 (modShelf (outputsShut s) fun _ => {}) PWR.STATUS_VAUX3_OFF 0 1) (r := r)
    (by simpa [cite @set1_keeps, cite @modShelf_keeps, cite @outputsShut_keeps] using hrun) hcopy
  simpa only [copyState, nvOf, copyCrc, hcellar] using htorn

/-- A power fail with the hold-up node below 12 V ends in a shutdown. -/
theorem powerFail_shutdown (s : State) (cause vin : Nat) {holdup : Nat} (h : holdup < 12000) :
    ∃ u, powerFail s cause vin holdup = shutdown u := by
  unfold powerFail
  exact ⟨_, if_pos h⟩

/-! ### The recovery -/

theorem avgOf_single (mv : Nat) : avgOf [(mv, avgFrames)] = mv := by
  simp [avgOf, avgFrames]

/-- What a recovery writes on the supply's page and the ovens'. -/
def recoveryRecorded (s : State) (ms : Nat) : State :=
  addCnt (set1 (set1 (set1 (set1 s PWR.STATUS_PF 0 0) PWR.LAST_PF_RECOVERED 0 1) PWR.LAST_PF_MS 0 (satTo 0xFFFF ms))
    OSC.STATUS_OVEN_OFF 0 0) OSC.OVEN_START_CNT 0 0 1

theorem pfRecover_pages (s : State) (vin ms : Nat) : ∀ p ∈ [Page.pwr, .osc], pageCells p (pfRecover s vin ms).regs = pageCells p
    (addCnt (evt (charging (seedAvg (recoveryRecorded s ms) vin) (get1 s PWR.HOLDUP 0)) .pwr 0 1) PWR.RECOVER_CNT 0 0 1).regs := by
  intro p hp
  rcases List.mem_pair.mp hp with rfl | rfl <;> simp [pfRecover, recoveryRecorded, cite @cellarResume_keeps]

theorem pfRecover_reports {s : State} {vin : Nat} (hvin : vin ≤ 61000) (ms : Nat) :
    get1 (pfRecover s vin ms) PWR.STATUS_PF 0 = 0 ∧ get1 (pfRecover s vin ms) PWR.LAST_PF_RECOVERED 0 = 1 ∧
    get1 (pfRecover s vin ms) PWR.LAST_PF_MS 0 = satTo 0xFFFF ms ∧ get1 (pfRecover s vin ms) PWR.VIN_AVG 0 = vin ∧
    get1 (pfRecover s vin ms) OSC.STATUS_OVEN_OFF 0 = 0 ∧ Counted s (pfRecover s vin ms) PWR.RECOVER_CNT 0 0 1 := by
  have hread : ∀ f : Fld, f.page ∈ [Page.pwr, .osc] → f.acc ≠ .lk → get1 (pfRecover s vin ms) f 0 = _ :=
    fun f hp hf => getF_of_pageCells (pfRecover_pages s vin ms _ hp) rfl hf 0 0 0
  have hsat : satTo 0xFFFF vin = vin := by
    unfold satTo
    rw [if_pos (by omega)]
  refine ⟨?_, ?_, ?_, ?_, ?_, ?_⟩
  all_goals
    refine (hread _ (by decide) (by decide)).trans ?_
    simp (disch := decide) [charging, seedAvg, publishAvg, recoveryRecorded, get1, set1, getF_setF_same,
      getF_evt_of_page_ne]
  exact (congrArg (satTo 0xFFFF) (avgOf_single vin)).trans hsat

theorem pfRecover_raised (s : State) (vin ms : Nat) : Raised (pfRecover s vin ms) .pwr 0 1 :=
  raised_of_pageCells (pfRecover_pages s vin ms .pwr (by decide))
    (Raised.after_addCnt (f := PWR.RECOVER_CNT) (raised_evt (by decide) _ .pwr 0) (by decide) (by decide) 1)

theorem pfRecover_phase (s : State) (vin ms : Nat) : (pfRecover s vin ms).phase = s.phase ∧ (pfRecover s vin ms).frn = s.frn := by
  simp [cite @pfRecover_keeps]

theorem exec_pfRecovered {s : State} {vin : Nat} (hoff : s.phase ≠ .off) (hpf : get1 s PWR.STATUS_PF 0 = 1)
    (hq : vinQualifies s vin = true) (ms : Nat) : exec (.pfRecovered vin ms) s = .next (pfRecover s vin ms) := by
  simp [exec, execPfRecovered, powerFailed, bit1, hpf, hoff, hq]

theorem exec_shutdown {s : State} (hoff : s.phase ≠ .off) (hpf : get1 s PWR.STATUS_PF 0 = 1) :
    exec .shutdown s = .next (shutdown s) := by
  simp [exec, execShutdown, powerFailed, bit1, hpf, hoff]

/-- Settles O12: what a declaration, a recovery and a shutdown leave on the pages of the supply and the ovens. -/
theorem powerFailRecords : Obligations.PowerFailRecords := by
  intro s hoff
  refine ⟨fun vin holdup _ hpf hcause hup => ?_, fun vin holdup hpf hcause => ?_, fun vin holdup h => ?_, fun vin ms hpf hq => ?_,
    fun vin ms h => ?_, fun hpf => ?_⟩
  · obtain ⟨hphase, hfrn⟩ := powerFail_phase s (failCause s vin) vin holdup hup
    obtain ⟨hfailed, hshown, hlast, hat, hvin, hnode, hopen, hoven⟩ := powerFail_reports s (failCause_le s vin) vin hup
    exact ⟨_, exec_powerFail hoff hpf hcause holdup, hphase, hfrn, by simp [pfailLow, powerFailed, bit1, hfailed], hshown, hlast, hat,
      hvin, hnode, hopen, hoven, powerFail_counted s _ vin holdup hup, powerFail_raised s _ vin holdup hup⟩
  · refine ⟨_, exec_powerFail hoff hpf hcause holdup, fun hlow => ?_, fun hup hheld => ?_⟩
    · obtain ⟨u, hu⟩ := powerFail_shutdown s (failCause s vin) vin hlow
      rw [hu]
      exact ⟨(shutdown_ends u).1, fun n hn => shutdown_outs u hn⟩
    · exact ⟨(powerFail_phase s _ vin holdup hup).1.trans hheld, (powerFail_reports s (failCause_le s vin) vin hup).1,
        powerFail_counted s _ vin holdup hup⟩
  · rcases h with h | h <;> simp [exec, execPowerFail, pfailLow, powerFailed, bit1, h]
  · obtain ⟨hphase, hfrn⟩ := pfRecover_phase s vin ms
    have hvin : vin ≤ 61000 := by
      simp only [vinQualifies, Bool.and_eq_true, decide_eq_true_eq] at hq
      exact hq.2
    obtain ⟨hended, hrec, hms, havg, hoven, hcnt⟩ := pfRecover_reports (s := s) hvin ms
    exact ⟨_, exec_pfRecovered hoff hpf hq ms, hphase, hfrn, hended, hrec, hms, havg, hoven, hcnt, pfRecover_raised s vin ms⟩
  · rcases h with h | h <;> simp [exec, execPfRecovered, powerFailed, bit1, h]
  · obtain ⟨hphase, hwrites, hrun, hvaux⟩ := shutdown_ends s
    exact ⟨_, exec_shutdown hoff hpf, hphase, hwrites, hrun, hvaux, fun n hn => shutdown_outs s hn, fun r hr hc => shutdown_torn hr hc⟩

end Sys2Proof.Machine

/-! The soft reset (R38, R546): what each open partition's reset leaves of it, and that nothing of the boundary after it takes that
back. -/

namespace Sys2Proof.Machine

/-! ### The stamps of a partition's latest reset -/

/-- The cells that show partition `n`'s latest reset stay. -/
def StampsKept (n : Nat) (s t : State) : Prop :=
  ∀ f ∈ [PART.LAST_RESET, PART.RESET_FRN], kvGet t.regs (fldKey f n 0 0) = kvGet s.regs (fldKey f n 0 0)

namespace StampsKept

variable {n : Nat} {s t u : State}

theorem refl (n : Nat) (s : State) : StampsKept n s s := fun _ _ => rfl

theorem trans (h : StampsKept n s t) (g : StampsKept n t u) : StampsKept n s u := fun f hf => (g f hf).trans (h f hf)

theorem of_page (h : pageCells .part t.regs = pageCells .part s.regs) : StampsKept n s t := fun f hf => by
  refine kvGet_of_pageCells h ?_
  rcases List.mem_pair.mp hf with rfl | rfl <;> exact keyPage_fldKey ..

theorem after_page (h : StampsKept n s t) (e : pageCells .part u.regs = pageCells .part t.regs) : StampsKept n s u := h.trans (of_page e)

/-- A write of another field of the page, of any partition. -/
theorem after_setF (h : StampsKept n s t) {f : Fld} {k j : Nat} (hp : f.page = .part)
    (hf : ∀ g ∈ [PART.LAST_RESET, PART.RESET_FRN], Fld.place g 0 0 % 0x2000 ≠ Fld.place f k j % 0x2000) (m v : Nat) :
    StampsKept n s (setF t f m k j v) := h.trans fun g hg => by
  have hgp : g.page = f.page := by rcases List.mem_pair.mp hg with rfl | rfl <;> exact hp.symm
  exact setF_cell_ne t f m k j v _ (fldKey_ne_of_low (by rw [hp]; decide) hgp (hf g hg) n m)

theorem after_evt (h : StampsKept n s t) (m bit : Nat) : StampsKept n s (partEvt t m bit) := h.trans fun g hg => by
  have hgp : g.page = .part := by rcases List.mem_pair.mp hg with rfl | rfl <;> rfl
  have hlow : ∀ g ∈ [PART.LAST_RESET, PART.RESET_FRN], Fld.place g 0 0 % 0x2000 ≠ Fld.place (HDR.EVT .part) 0 0 % 0x2000 ∧
      Fld.place g 0 0 % 0x2000 ≠ Fld.place (HDR.EVT_CNT .part) 0 0 % 0x2000 := by decide
  exact evt_cell_ne t .part m bit _ (fldKey_ne_of_low (f := HDR.EVT .part) (by decide) hgp (hlow g hg).1 n m)
    (fldKey_ne_of_low (f := HDR.EVT_CNT .part) (by decide) hgp (hlow g hg).2 n m)

theorem after_foldl {α : Type} (h : StampsKept n s t) (f : State → α → State) (hf : ∀ u x, StampsKept n u (f u x)) (l : List α) :
    StampsKept n s (l.foldl f t) := by
  induction l generalizing t with
  | nil => exact h
  | cons x l ih => exact ih (h.trans (hf t x))

theorem ite {c : Prop} [Decidable c] (h : StampsKept n s t) (g : StampsKept n s u) : StampsKept n s (if c then t else u) := by
  split
  · exact h
  · exact g

theorem chanEvt (s : State) (c bit : Nat) : StampsKept n s (chanEvt s c bit) :=
  ite (((refl n s).after_setF rfl (by decide) _ _).after_evt _ _) (refl n s)

theorem hostHalfReset (s : State) (c : Nat) : StampsKept n s (hostHalfReset s c) := by
  have hcond : ∀ (u : State) v g, StampsKept n u (entryCond u c v g) := fun u v g => (chanEvt u c 6).after_page (by simp [entryCond])
  unfold Machine.hostHalfReset
  dsimp only
  split
  · exact (of_page (by simp [cite @modChan_keeps, cite @clearRange_keeps])).trans (hcond _ _ _)
  · exact of_page (by simp [cite @modChan_keeps, cite @clearRange_keeps])

/-! The events of an instance's ports. -/

theorem ptpEvt (s : State) (m p bit : Nat) : StampsKept n s (ptpEvt s m p bit) :=
  ((refl n s).after_page (u := evt s .ptpts m bit) (by simp)).after_evt p 13

theorem setPtpPort (s : State) (m p v : Nat) : StampsKept n s (setPtpPort s m p v) :=
  ite (refl n s) ((of_page (t := setF s PTPTS.STATE_PORT m p 0 v) (by simp)).trans (ptpEvt _ m p 2))

theorem setParent (s : State) (m p id : Nat) : StampsKept n s (setParent s m p id) :=
  ((of_page (t := setF (setF s PTPTS.PARENT_LO m p 0 id) PTPTS.PARENT_HI m p 0 (id / 2 ^ 32)) (by simp)).trans
    (ptpEvt _ m p 1)).after_page (by simp [Machine.setParent])

theorem blockClear (s : State) (m p : Nat) : StampsKept n s (blockClear s m p) := by
  have hport : StampsKept n s (if instOn s m p then Machine.setPtpPort s m p 0 else setF s PTPTS.STATE_PORT m p 0 0) :=
    ite (setPtpPort s m p 0) (of_page (by simp))
  have hpages : ∀ f ∈ instRo, f.page = .ptpts := by decide
  have hro : ∀ u, StampsKept n u (instRo.foldl (fun t f => setF t f m p 0 f.reset) u) := fun u =>
    of_page (foldl_pgs_mem _ _ (fun t f hf => setF_pg t f m p 0 _ (by rw [hpages f hf]; decide)) u)
  unfold Machine.blockClear
  dsimp only
  refine StampsKept.trans ?_ (hro _)
  exact hport.trans (ite (setParent _ m p 0) (refl n _))

theorem instRestart (s : State) (p : Nat) : StampsKept n s (instRestart s p) := by
  have hblocks := (of_page (n := n) (s := s) (t := dropCalls s p) (by simp [cite @dropCalls_keeps])).after_foldl
    (Machine.blockClear · · p) (fun u m => blockClear u m p) (List.range 2)
  have hclear : StampsKept n s (instClear (dropCalls s p) p) := hblocks.after_page (by simp [instClear, cite @modPtp_keeps])
  have hfed := hclear.after_page (u := (fedChans s p).foldl (fun t c => modPkt t (c - 10) fun u => { u with base := false })
    (instClear (dropCalls s p) p)) (by simp [cite @modPkt_keeps])
  exact ite hfed (hfed.after_page (by simp))

theorem instReset (s : State) (p : Nat) : StampsKept n s (instReset s p) :=
  (of_page (t := modPtp s p fun _ => {}) (by simp [cite @modPtp_keeps])).trans (instRestart _ p)

theorem leafDown (s : State) : StampsKept n s (leafDown s) := by
  have hfail := (of_page (n := n) (s := s) (t := [10, 11].foldl pktFail { s with gate := { s.gate with queue := [], res := 0, data := [] } })
    (by simp)).after_foldl (fun t p => nmeaPause (Machine.instRestart t p) p)
      (fun u p => (instRestart u p).after_page (by simp [cite @nmeaPause_keeps])) (List.range 4)
  exact ite (hfail.after_page (by simp [cite @shelfStop_keeps])) hfail

theorem leafHost (s : State) : StampsKept n s (leafHost s) :=
  ((of_page (t := modRoot s fun u => { u with window := [], img := 0 }) (by simp [cite @modRoot_keeps])).trans (leafDown _)).after_page
    (by simp [Machine.leafHost, leafRestart])

end StampsKept

/-! ### A partition reset -/

/-- The fields of one partition's page lie in other cells than the stamps of another partition. -/
theorem stamp_ne_of_other : ∀ n < 4, ∀ q < 4, n ≠ q → ∀ g ∈ [PART.LAST_RESET, PART.RESET_FRN], ∀ f ∈ pageAll .part,
    ∀ k < f.n1, ∀ j < f.n2, fldKey g n 0 0 ≠ fldKey f q k j := by
  decide

theorem resetPage_stamps {n q : Nat} (hn : n < 4) (hq : q < 4) (hne : n ≠ q) (s : State) (keep : List Fld) :
    StampsKept n s (resetPage s .part q keep) := by
  refine foldl_rel (.refl n) (fun _ _ _ => .trans) (fun t f hf => ?_) s
  refine foldl_rel (.refl n) (fun _ _ _ => .trans) (fun u kj hkj g hg => ?_) t
  obtain ⟨hk, hj⟩ := mem_fldIdx hkj
  exact setF_cell_ne u f q kj.1 kj.2 _ _ (stamp_ne_of_other n hn q hq hne g hg f (List.mem_of_mem_filter hf) _ hk _ hj)

/-- A reset of a partition records itself on its own page alone. -/
theorem recordReset_stamps {n q : Nat} (hn : n < 4) (hq : q < 4) (hne : n ≠ q) (s : State) (cause : Nat) :
    StampsKept n s (recordReset s q cause) := by
  have hother : ∀ g ∈ [PART.LAST_RESET, PART.RESET_FRN], ∀ f ∈ [PART.LAST_RESET, PART.RESET_FRN, PART.RESET_CNT, HDR.EVT .part,
      HDR.EVT_CNT .part], fldKey g n 0 0 ≠ fldKey f q 0 0 := fun g hg f hf => by
    have hmem : ∀ f ∈ [PART.LAST_RESET, PART.RESET_FRN, PART.RESET_CNT, HDR.EVT .part, HDR.EVT_CNT .part],
        f ∈ pageAll .part ∧ 0 < f.n1 ∧ 0 < f.n2 := by decide
    exact stamp_ne_of_other n hn q hq hne g hg f (hmem f hf).1 0 (hmem f hf).2.1 0 (hmem f hf).2.2
  have hset : ∀ (t : State) v, ∀ f ∈ [PART.LAST_RESET, PART.RESET_FRN], StampsKept n t (set1 t f q v) := fun t v f hf g hg =>
    setF_cell_ne t f q 0 0 v _ (hother g hg f (by revert f; decide))
  have hcnt : ∀ t, StampsKept n t (addCnt t PART.RESET_CNT q 0 1) := fun t g hg =>
    addCnt_cell_ne t PART.RESET_CNT q 0 1 _ (hother g hg _ (by decide)) (hother g hg (HDR.EVT .part) (by decide))
      (hother g hg (HDR.EVT_CNT .part) (by decide))
  exact (((resetPage_stamps hn hq hne s _).trans (hset _ cause _ (by decide))).trans (hset _ _ _ (by decide))).trans (hcnt _)

/-- What a reset does after it was recorded keeps every partition's stamps. -/
theorem partReset_recorded (n : Nat) (s : State) (p cause : Nat) : StampsKept n (recordReset s p cause) (partReset s p cause) := by
  unfold partReset
  dsimp only
  generalize (List.range 12).filter _ = cs
  generalize outsOf _ _ = outs
  refine StampsKept.ite ?_ (StampsKept.after_page ?_ (domChanged_pg _ _ _ _ _ (by decide)))
  all_goals
    refine StampsKept.after_page (t := cs.foldl hostHalfReset _) ?_ (by simp [cite @timeStart_keeps]; rfl)
    refine StampsKept.after_foldl ?_ hostHalfReset (fun u c => .hostHalfReset u c) cs
    refine StampsKept.after_page (StampsKept.trans ?_ (.instReset _ p)) (cancelCmd_pg _ _ (by decide))
    exact .of_page (by simp)

/-- A partition's reset keeps the stamps of the others. -/
theorem partReset_stamps {n q : Nat} (hn : n < 4) (hq : q < 4) (hne : n ≠ q) (s : State) (cause : Nat) :
    StampsKept n s (partReset s q cause) := (recordReset_stamps hn hq hne s cause).trans (partReset_recorded n s q cause)

/-- A field of the policy reads the same under the same policy. -/
theorem getF_of_pol {s t : State} {f : Fld} (hf : f.acc = .lk) (h : t.pol = s.pol) (n k j : Nat) : getF t f n k j = getF s f n k j := by
  unfold getF
  rw [hf, h]

theorem ownsRow_of_pol {s t : State} (h : t.pol = s.pol) (p n : Nat) : ownsRow t p n = ownsRow s p n := by
  unfold ownsRow descFirst descCount
  rw [getF_of_pol rfl h, getF_of_pol rfl h]

/-- The partition and its rows after its reset. -/
theorem partReset_parts (s : State) (p cause : Nat) : (partReset s p cause).parts = s.parts.modify p (fun _ => {}) ∧
    (partReset s p cause).rows = s.rows.mapIdx (fun n r => if ownsRow s p n then {} else r) := by
  have hrows : ∀ t : State, (resetRows t p).parts = t.parts.modify p (fun _ => {}) ∧
      (resetRows t p).rows = t.rows.mapIdx (fun n r => if ownsRow t p n then {} else r) := fun t => by
    unfold resetRows
    dsimp only
    split <;> simp [modPart, cite @set1_keeps, cite @setF_keeps]
  have howns : ∀ t : State, t.pol = s.pol → ∀ n, ownsRow t p n = ownsRow s p n := fun t ht n => ownsRow_of_pol ht p n
  constructor
  · simp [partReset, hrows, cite @publishGains_keeps, cite @utcPolicy_keeps, cite @timeStart_keeps, cite @startDom_keeps,
      cite @hostHalfReset_keeps, cite @cancelCmd_keeps, cite @instReset_keeps, cite @resetHarvest_keeps, cite @set1_keeps,
      cite @resetFields_keeps, cite @synthReset_keeps, cite @resetPage_keeps, cite @journalPg_keeps, cite @recordReset_keeps,
      cite @domChanged_keeps, cite @ite_state, cite @foldl_state]
  · simp [partReset, hrows, howns, cite @publishGains_keeps, cite @utcPolicy_keeps, cite @timeStart_keeps, cite @startDom_keeps,
      cite @hostHalfReset_keeps, cite @cancelCmd_keeps, cite @instReset_keeps, cite @resetHarvest_keeps, cite @set1_keeps,
      cite @resetFields_keeps, cite @synthReset_keeps, cite @resetPage_keeps, cite @journalPg_keeps, cite @recordReset_keeps,
      cite @domChanged_keeps, cite @ite_state, cite @foldl_state]

/-- A partition's time after a reset of that partition is 0; the others' times stay. -/
theorem partReset_time (s : State) (p cause n : Nat) :
    (timeOf (partReset s p cause) n).t = if n = p then 0 else (timeOf s n).t := by
  have hstart : ∀ (t : State) b, (timeOf (timeStart t p b) n).t = if n = p then 0 else (timeOf t n).t := fun t b => by
    simp only [timeOf, timeStart, modTime, List.getD_eq_getElem?_getD, List.getElem?_modify]
    cases t.times[n]? <;> by_cases h : p = n <;> simp [h, Ne.symm]
  have htimes : ∃ t b, (partReset s p cause).times = (timeStart t p b).times ∧ t.times = s.times := by
    unfold partReset
    dsimp only
    generalize hu : startDom _ p = u
    refine ⟨u, isOpen s p, ?_, ?_⟩
    · split <;> simp [cite @publishGains_keeps, cite @utcPolicy_keeps, cite @domChanged_keeps]
    · simp [← hu, cite @startDom_keeps, cite @hostHalfReset_keeps, cite @cancelCmd_keeps, cite @instReset_keeps,
        cite @resetHarvest_keeps, cite @resetRows_keeps, cite @set1_keeps, cite @resetFields_keeps, cite @synthReset_keeps,
        cite @resetPage_keeps, cite @journalPg_keeps, cite @recordReset_keeps, cite @foldl_state]
  obtain ⟨t, b, ht, hs⟩ := htimes
  have := hstart t b
  simpa [timeOf, ht, hs] using this

/-! ### The soft reset -/

/-- What the reset of another partition, or of none, leaves to a partition that a soft reset has reset. -/
structure StaysReset (p : Nat) (s t : State) : Prop where
  stamps : StampsKept p s t
  frn : t.frn = s.frn
  pol : t.pol = s.pol
  part : partOf t p = partOf s p
  time : (timeOf t p).t = (timeOf s p).t
  rows : ∀ m, rowOf s m = {} → rowOf t m = {}

namespace StaysReset

variable {p : Nat} {s t u : State}

theorem refl (p : Nat) (s : State) : StaysReset p s s := ⟨.refl p s, rfl, rfl, rfl, rfl, fun _ h => h⟩

theorem trans (h : StaysReset p s t) (g : StaysReset p t u) : StaysReset p s u :=
  ⟨h.stamps.trans g.stamps, g.frn.trans h.frn, g.pol.trans h.pol, g.part.trans h.part, g.time.trans h.time,
    fun m hm => g.rows m (h.rows m hm)⟩

/-- What keeps the units and the stamps. -/
theorem of_units (hst : StampsKept p s t) (hf : t.frn = s.frn) (hp : t.pol = s.pol) (hparts : t.parts = s.parts) (hrows : t.rows = s.rows)
    (htime : (timeOf t p).t = (timeOf s p).t) : StaysReset p s t :=
  ⟨hst, hf, hp, by unfold partOf; rw [hparts], htime, fun m hm => by unfold rowOf at *; rw [hrows]; exact hm⟩

/-- A row that is reset stays reset. -/
theorem rowOf_resetRow {t : State} {c : Nat → Bool} (ht : t.rows = s.rows.mapIdx fun n r => if c n then {} else r) {m : Nat}
    (h : rowOf s m = {} ∨ c m = true) : rowOf t m = {} := by
  unfold rowOf at *
  rw [ht]
  simp only [List.getD_eq_getElem?_getD, List.getElem?_mapIdx] at *
  cases hm : s.rows[m]? with
  | none => rfl
  | some r =>
    rw [hm] at h
    rcases h with h | h
    · simp only [Option.getD_some] at h
      simp [h]
    · simp [h]

theorem of_partReset (s : State) {q : Nat} (hp : p < 4) (hq : q < 4) (hne : p ≠ q) (cause : Nat) : StaysReset p s (partReset s q cause) := by
  obtain ⟨hparts, hrows⟩ := partReset_parts s q cause
  refine ⟨partReset_stamps hp hq hne s cause, by simp [cite @partReset_keeps], by simp [cite @partReset_keeps], ?_, ?_, fun m hm => ?_⟩
  · simp [partOf, hparts, List.getD_eq_getElem?_getD, List.getElem?_modify, hne.symm]
  · rw [partReset_time, if_neg hne]
  · exact rowOf_resetRow hrows (.inl hm)

end StaysReset

/-- One open partition's part of a soft reset. -/
def softPart (t : State) (p : Nat) : State := if commitReset t p then set1 t PART.LAST_RESET p 3 else partReset t p 3

theorem softPart_other {p q : Nat} (hp : p < 4) (hq : q < 4) (hne : p ≠ q) (t : State) : StaysReset p t (softPart t q) := by
  unfold softPart
  split
  · refine .of_units (fun g hg => ?_) (by simp [cite @set1_keeps]) (by simp [cite @set1_keeps]) (by simp [cite @set1_keeps])
      (by simp [cite @set1_keeps]) (by simp [timeOf, cite @set1_keeps])
    exact set1_cell_ne t _ _ _ _ (stamp_ne_of_other p hp q hq hne g hg _ (by decide) 0 (by decide) 0 (by decide))
  · exact .of_partReset t hp hq hne 3

/-- What a soft reset makes of an open partition. -/
def SoftlyReset (p : Nat) (s t : State) : Prop :=
  get1 t PART.LAST_RESET p = 3 ∧ get1 t PART.RESET_FRN p = s.frn % 2 ^ 32 ∧
    (commitReset s p = false → partOf t p = {} ∧ (timeOf t p).t = 0 ∧ ∀ m, ownsRow s p m = true → rowOf t m = {})

theorem SoftlyReset.stays {p : Nat} {s t u : State} (h : SoftlyReset p s t) (hs : StaysReset p t u) : SoftlyReset p s u := by
  obtain ⟨hlast, hfrn, hrest⟩ := h
  refine ⟨(getF_of_cell (by decide) (hs.stamps _ (by decide))).trans hlast,
    (getF_of_cell (by decide) (hs.stamps _ (by decide))).trans hfrn, fun hc => ?_⟩
  obtain ⟨hpart, htime, hrows⟩ := hrest hc
  exact ⟨hs.part.trans hpart, hs.time.trans htime, fun m hm => hs.rows m (hrows m hm)⟩

theorem recordReset_reads (s : State) (p cause : Nat) (hc : cause < 4) : get1 (recordReset s p cause) PART.LAST_RESET p = cause ∧
    get1 (recordReset s p cause) PART.RESET_FRN p = s.frn % 2 ^ 32 := by
  have hfits : cause % 2 ^ PART.LAST_RESET.width = cause := Nat.mod_eq_of_lt hc
  constructor <;> simp (disch := decide) [recordReset, get1, set1, getF_setF_same, cite @resetPage_keeps]
  · exact hfits
  · rfl

theorem commitReset_congr {s t : State} {p : Nat} (h : StaysReset p s t) : commitReset t p = commitReset s p := by
  have hlast : get1 t PART.LAST_RESET p = get1 s PART.LAST_RESET p := getF_of_cell (by decide) (h.stamps _ (by decide))
  have hfrn : get1 t PART.RESET_FRN p = get1 s PART.RESET_FRN p := getF_of_cell (by decide) (h.stamps _ (by decide))
  unfold commitReset
  rw [hlast, hfrn, h.frn]

/-- A partition that the commit has reset only records the cause. -/
theorem softPart_committed {s t : State} {p : Nat} (h : StaysReset p s t) (hc : commitReset s p = true) :
    SoftlyReset p s (set1 t PART.LAST_RESET p 3) := by
  have hfrn : getF t PART.RESET_FRN p 0 0 = getF s PART.RESET_FRN p 0 0 := getF_of_cell (by decide) (h.stamps _ (by decide))
  have hstamp : get1 s PART.RESET_FRN p = s.frn % 2 ^ 32 := by
    simp only [commitReset, Bool.and_eq_true, beq_iff_eq] at hc
    exact hc.2
  unfold SoftlyReset
  rw [hc]
  refine ⟨by simp (disch := decide) [get1, set1], ?_, fun hf => absurd hf (by decide)⟩
  have hne : fldKey PART.RESET_FRN p 0 0 ≠ fldKey PART.LAST_RESET p 0 0 :=
    fldKey_ne_of_place_ne (f := PART.LAST_RESET) (g := PART.RESET_FRN) (k := 0) (j := 0) (a := 0) (b := 0) rfl (by decide) p
  rw [get1_set1_ne t _ _ _ _ _ hne]
  exact hfrn.trans hstamp

/-- Any other is reset. -/
theorem softPart_reset {s t : State} {p : Nat} (h : StaysReset p s t) : SoftlyReset p s (partReset t p 3) := by
  have hstamps := partReset_recorded p t p 3
  obtain ⟨hr, hf⟩ := recordReset_reads t p 3 (by decide)
  obtain ⟨hparts, hrows⟩ := partReset_parts t p 3
  have hlast : get1 (partReset t p 3) PART.LAST_RESET p = get1 (recordReset t p 3) PART.LAST_RESET p :=
    getF_of_cell (by decide) (hstamps _ (by decide))
  have hfrn : get1 (partReset t p 3) PART.RESET_FRN p = get1 (recordReset t p 3) PART.RESET_FRN p :=
    getF_of_cell (by decide) (hstamps _ (by decide))
  refine ⟨hlast.trans hr, by rw [hfrn, hf, h.frn], fun _ => ⟨?_, ?_, fun m hm => ?_⟩⟩
  · simp only [partOf, hparts, List.getD_eq_getElem?_getD, List.getElem?_modify]
    cases t.parts[p]? <;> simp
  · rw [partReset_time, if_pos rfl]
  · exact StaysReset.rowOf_resetRow hrows (.inr ((ownsRow_of_pol h.pol p m).trans hm))

theorem softPart_own {s t : State} {p : Nat} (h : StaysReset p s t) : SoftlyReset p s (softPart t p) := by
  unfold softPart
  split
  · next hc => exact softPart_committed h ((commitReset_congr h).symm.trans hc)
  · exact softPart_reset h

/-- After the resets of distinct partitions each has been reset. -/
theorem softParts_reset {l : List Nat} (hl : l.Nodup) (hlt : ∀ q ∈ l, q < 4) {p : Nat} (hp : p ∈ l) {s t : State} (h : StaysReset p s t) :
    SoftlyReset p s (l.foldl softPart t) := by
  induction l generalizing t with
  | nil => exact absurd hp List.not_mem_nil
  | cons q l ih =>
    obtain ⟨hq, hl⟩ := List.nodup_cons.mp hl
    have hlt' : ∀ x ∈ l, x < 4 := fun x hx => hlt x (List.mem_cons_of_mem _ hx)
    rcases List.mem_cons.mp hp with rfl | hp
    · refine (softPart_own h).stays (foldl_rel (R := StaysReset p) (.refl p) (fun _ _ _ => .trans) (fun u x hx => ?_) _)
      exact softPart_other (hlt p List.mem_cons_self) (hlt' x hx) (fun e => hq (e ▸ hx)) u
    · exact ih hl hlt' hp (h.trans (softPart_other (hlt' p hp) (hlt q List.mem_cons_self) (fun e => hq (e ▸ hp)) t))

/-- The record of a soft reset. -/
def softRecorded (s : State) : State := journalPg (addCnt (recordSys s 3) SYS.SOFT_RESET_CNT 0 0 1) 0x002 none .sys 0 0

theorem isOpen_softRecorded (s : State) : isOpen (softRecorded s) = isOpen s := by
  funext p
  simp [isOpen, softRecorded, cite @journalPg_keeps, cite @addCnt_keeps, cite @recordSys_keeps]

/-- The steps of a soft reset. -/
theorem softReset_eq (s : State) : ∃ cs : List Nat, softReset s = leafHost (sharedReset (dropVerify (debugEnd (cs.foldl hostHalfReset
    (((List.range 4).filter (isOpen s)).foldl softPart (softRecorded s))) 3))) := by
  rw [← isOpen_softRecorded]
  exact ⟨_, rfl⟩

/-- Leaf's stop leaves every partition's time as it is. -/
theorem leafDown_time (s : State) (p : Nat) : (timeOf (leafDown s) p).t = (timeOf s p).t := by
  have hpause : ∀ (u : State) d, (timeOf (nmeaPause u d) p).t = (timeOf u p).t := fun u d => by
    simp only [timeOf, nmeaPause, modTime, List.getD_eq_getElem?_getD, List.getElem?_modify]
    cases u.times[p]? <;> by_cases h : d = p <;> simp [h]
  have hinst : ∀ (u : State) d, timeOf (instRestart u d) p = timeOf u p := fun u d => by simp [timeOf, cite @instRestart_keeps]
  have hpauses : ∀ (l : List Nat) (u : State), (timeOf (l.foldl (fun t d => nmeaPause (instRestart t d) d) u) p).t = (timeOf u p).t :=
    foldl_inv (fun u => (timeOf u p).t) _ fun u d => by rw [hpause, hinst]
  have hstop : ∀ u : State, timeOf (shelfStop u) p = timeOf u p := fun u => by simp [timeOf, cite @shelfStop_keeps]
  unfold leafDown
  dsimp only
  split
  · rw [hstop, hpauses]
    simp [timeOf, cite @pktFail_keeps]
  · rw [hpauses]
    simp [timeOf, cite @pktFail_keeps]

theorem leafHost_time (s : State) (p : Nat) : (timeOf (leafHost s) p).t = (timeOf s p).t := by
  have hlast : timeOf (leafHost s) p = timeOf (leafDown (modRoot s fun u => { u with window := [], img := 0 })) p := by
    simp [timeOf, leafHost, leafRestart, cite @setLeaf_keeps, cite @journalPg_keeps, cite @addCnt_keeps, cite @evt_keeps,
      cite @leafLast_keeps]
  rw [hlast, leafDown_time]
  simp [timeOf, cite @modRoot_keeps]

/-- The shared pages that a soft reset clears. -/
@[simp] theorem sharedReset_pg {q : Page} (s : State) (h : q ∉ [Page.sel, .shelf, .ptpts, .dbg, .root]) :
    pageCells q (sharedReset s).regs = pageCells q s.regs := by
  simp only [List.mem_cons, List.not_mem_nil, or_false, not_or] at h
  simp [sharedReset, selReset, qlClear, h, cite @modChan_keeps]

/-- What follows the partitions' resets keeps what they show. -/
theorem softReset_stays (s : State) (p : Nat) :
    StaysReset p (((List.range 4).filter (isOpen s)).foldl softPart (softRecorded s)) (softReset s) := by
  obtain ⟨cs, he⟩ := softReset_eq s
  rw [he]
  generalize ((List.range 4).filter (isOpen s)).foldl softPart (softRecorded s) = u
  have hstamps : StampsKept p u (leafHost (sharedReset (dropVerify (debugEnd (cs.foldl hostHalfReset u) 3)))) := by
    refine StampsKept.trans ?_ (.leafHost _)
    exact ((StampsKept.refl p u).after_foldl hostHalfReset (fun v c => .hostHalfReset v c) cs).after_page (by simp)
  refine .of_units hstamps ?_ ?_ ?_ ?_ ?_
  case refine_5 =>
    rw [leafHost_time]
    simp [timeOf, cite @sharedReset_keeps, cite @dropVerify_keeps, cite @debugEnd_keeps, cite @hostHalfReset_keeps, cite @foldl_state]
  all_goals
    simp [cite @leafHost_keeps, cite @sharedReset_keeps, cite @dropVerify_keeps, cite @debugEnd_keeps, cite @hostHalfReset_keeps,
      cite @foldl_state]

theorem softRecorded_stays (s : State) (p : Nat) : StaysReset p s (softRecorded s) :=
  .of_units (.of_page (by simp [softRecorded])) (by simp [softRecorded, cite @journalPg_keeps, cite @addCnt_keeps, cite @recordSys_keeps])
    (by simp [softRecorded, cite @journalPg_keeps, cite @addCnt_keeps, cite @recordSys_keeps])
    (by simp [softRecorded, cite @journalPg_keeps, cite @addCnt_keeps, cite @recordSys_keeps])
    (by simp [softRecorded, cite @journalPg_keeps, cite @addCnt_keeps, cite @recordSys_keeps])
    (by simp [softRecorded, timeOf, cite @journalPg_keeps, cite @addCnt_keeps, cite @recordSys_keeps])

theorem softReset_parts {s : State} {p : Nat} (hp : p < 4) (hopen : isOpen s p = true) : SoftlyReset p s (softReset s) := by
  refine (softParts_reset (s := s) ?_ (fun q hq => ?_) ?_ (softRecorded_stays s p)).stays (softReset_stays s p)
  · exact List.nodup_range.filter _
  · exact List.mem_range.mp (List.mem_of_mem_filter hq)
  · exact List.mem_filter.mpr ⟨List.mem_range.mpr hp, hopen⟩

theorem partReset_sys (s : State) (p cause : Nat) : pageCells .sys (partReset s p cause).regs = pageCells .sys s.regs := by
  unfold partReset
  dsimp only
  split <;> simp [recordReset, cite @timeStart_keeps]

theorem setLeaf_sysKept (s : State) (v : Nat) : SysKept s (setLeaf s v) := by
  have hset : SysKept s (set1 s ROOT.STATUS_LEAF 0 v) := .of_page (by simp)
  unfold setLeaf
  dsimp only
  split
  · exact hset.trans (degraded_sysKept _)
  · exact hset

theorem leafHost_sysKept (s : State) : SysKept s (leafHost s) := by
  unfold leafHost leafRestart
  dsimp only
  refine PageElse.trans (.of_page ?_) (setLeaf_sysKept _ 1)
  simp [cite @modRoot_keeps]

/-- SYS after a soft reset: what was recorded, and DEGRADED where Leaf's restart raises it. -/
theorem softReset_sysKept (s : State) : SysKept (addCnt (recordSys s 3) SYS.SOFT_RESET_CNT 0 0 1) (softReset s) := by
  obtain ⟨cs, he⟩ := softReset_eq s
  rw [he]
  have hpart : ∀ u q, pageCells .sys (softPart u q).regs = pageCells .sys u.regs := fun u q => by
    unfold softPart
    split
    · simp
    · exact partReset_sys u q 3
  have hparts := foldl_pgs softPart hpart ((List.range 4).filter (isOpen s)) (softRecorded s)
  refine PageElse.trans (.of_page ?_) (leafHost_sysKept _)
  rw [sharedReset_pg _ (by decide), dropVerify_pg _ (by decide), debugEnd_pg _ _ (by decide)]
  rw [foldl_pgs hostHalfReset (fun t c => hostHalfReset_pg t c (by decide)), hparts]
  simp [softRecorded]

/-- Settles O19: the record of the reset, and the reset of each open partition, which nothing after it takes back. -/
theorem softReset_settled : Obligations.SoftReset := by
  refine fun s => ⟨⟨softReset s, rfl, ?_, ?_, ?_, ?_, ?_, fun p hp hopen => softReset_parts hp hopen⟩, fun key hk hne => ?_⟩
  · simp [cite @softReset_keeps]
  · simp [cite @softReset_keeps]
  · refine ((softReset_sysKept s).reads (f := SYS.RESET) (k := 0) (j := 0) rfl (by decide) (by decide)).trans ?_
    simp (disch := decide) [recordSys, set1]
  · refine ((softReset_sysKept s).reads (f := SYS.RESET_FRN) (k := 0) (j := 0) rfl (by decide) (by decide)).trans ?_
    simp (disch := decide) [recordSys, set1, getF_setF_same]
    rfl
  · refine ((softReset_sysKept s).reads (f := SYS.SOFT_RESET_CNT) (k := 0) (j := 0) rfl (by decide) (by decide)).trans ?_
    simp (disch := decide) [recordSys, set1]
  · rw [show exec (.softReset key) s = execSoftReset key s from rfl, execSoftReset, if_pos hk, if_neg hne]

end Sys2Proof.Machine

/-! What a unit reads after it, or another, was changed. -/

namespace Sys2Proof.Machine

theorem getD_modify_self {α : Type} {l : List α} {n : Nat} (h : n < l.length) (f : α → α) (d : α) :
    (l.modify n f).getD n d = f (l.getD n d) := by
  simp [List.getD_eq_getElem?_getD, h]

theorem getD_modify_ne {α : Type} {m n : Nat} (h : m ≠ n) (l : List α) (f : α → α) (d : α) : (l.modify n f).getD m d = l.getD m d := by
  simp [List.getD_eq_getElem?_getD, List.getElem?_modify, h.symm]

/-- What a change leaves of a unit and of the missing one alike. -/
theorem getD_modify_keep {α β : Type} {g : α → β} {f : α → α} (h : ∀ x, g (f x) = g x) (l : List α) (m n : Nat) (d : α) :
    g ((l.modify n f).getD m d) = g (l.getD m d) := by
  by_cases e : m = n
  · subst e
    simp only [List.getD_eq_getElem?_getD, List.getElem?_modify]
    cases l[m]? <;> simp [h]
  · rw [getD_modify_ne e]

/-! ### A unit after a change of it, and of another one -/

@[simp] theorem laneOf_modLane {s : State} {n : Nat} (h : n < s.lanes.length) (f : LaneU → LaneU) :
    laneOf (modLane s n f) n = f (laneOf s n) := getD_modify_self h f _
@[simp] theorem funcOf_modFunc {s : State} {n : Nat} (h : n < s.funcs.length) (f : FuncU → FuncU) :
    funcOf (modFunc s n f) n = f (funcOf s n) := getD_modify_self h f _
@[simp] theorem rowOf_modRow {s : State} {n : Nat} (h : n < s.rows.length) (f : RowU → RowU) :
    rowOf (modRow s n f) n = f (rowOf s n) := getD_modify_self h f _
@[simp] theorem partOf_modPart {s : State} {n : Nat} (h : n < s.parts.length) (f : PartU → PartU) :
    partOf (modPart s n f) n = f (partOf s n) := getD_modify_self h f _
@[simp] theorem chanOf_modChan {s : State} {n : Nat} (h : n < s.chans.length) (f : ChanU → ChanU) :
    chanOf (modChan s n f) n = f (chanOf s n) := getD_modify_self h f _
@[simp] theorem pktOf_modPkt {s : State} {n : Nat} (h : n < s.pkts.length) (f : PktU → PktU) :
    pktOf (modPkt s n f) n = f (pktOf s n) := getD_modify_self h f _
@[simp] theorem domOf_modDom {s : State} {n : Nat} (h : n < s.doms.length) (f : DomU → DomU) :
    domOf (modDom s n f) n = f (domOf s n) := getD_modify_self h f _
@[simp] theorem apllOf_modApll {s : State} {n : Nat} (h : n < s.aplls.length) (f : ApllU → ApllU) :
    apllOf (modApll s n f) n = f (apllOf s n) := getD_modify_self h f _
theorem apllOf_modApll_ne {m n : Nat} (h : m ≠ n) (s : State) (f : ApllU → ApllU) : apllOf (modApll s n f) m = apllOf s m :=
  getD_modify_ne h _ f _
@[simp] theorem outOf_modOut {s : State} {n : Nat} (h : n < s.outs.length) (f : OutU → OutU) :
    outOf (modOut s n f) n = f (outOf s n) := getD_modify_self h f _
@[simp] theorem timeOf_modTime {s : State} {n : Nat} (h : n < s.times.length) (f : TimeU → TimeU) :
    timeOf (modTime s n f) n = f (timeOf s n) := getD_modify_self h f _
theorem timeOf_modTime_ne {m n : Nat} (h : m ≠ n) (s : State) (f : TimeU → TimeU) : timeOf (modTime s n f) m = timeOf s m :=
  getD_modify_ne h _ f _
@[simp] theorem ethOf_modEth {s : State} {n : Nat} (h : n < s.eths.length) (f : EthU → EthU) :
    ethOf (modEth s n f) n = f (ethOf s n) := getD_modify_self h f _
@[simp] theorem ptpOf_modPtp {s : State} {n : Nat} (h : n < s.ptps.length) (f : PtpU → PtpU) :
    ptpOf (modPtp s n f) n = f (ptpOf s n) := getD_modify_self h f _
theorem ptpOf_modPtp_ne {m n : Nat} (h : m ≠ n) (s : State) (f : PtpU → PtpU) : ptpOf (modPtp s n f) m = ptpOf s m :=
  getD_modify_ne h _ f _

theorem Shaped.pairs_length {s : State} (h : Shaped s) : s.pairs.length = 4 := by
  simpa using congrArg List.length h.pairs

theorem Shaped.pair_length {s : State} (h : Shaped s) {d : Nat} (hd : d < 4) : (s.pairs.getD d []).length = 12 := by
  have hl := h.pairs_length
  have hall := congrArg (·[d]?) h.pairs
  simp only [List.getElem?_map, List.getElem?_replicate, hd, if_true, List.getElem?_eq_getElem (hl ▸ hd : d < s.pairs.length), Option.map_some,
    Option.some.injEq] at hall
  simpa [List.getD_eq_getElem?_getD, List.getElem?_eq_getElem (hl ▸ hd : d < s.pairs.length)] using hall

theorem Shaped.times_length {s : State} (h : Shaped s) : s.times.length = 4 := by
  simpa using congrArg List.length h.times

@[simp] theorem pairOf_modPair {s : State} (h : Shaped s) {d c : Nat} (hd : d < 4) (hc : c < 12) (f : PairU → PairU) :
    pairOf (modPair s d c f) d c = f (pairOf s d c) := by
  show ((s.pairs.modify d fun l => l.modify c f).getD d []).getD c {} = _
  rw [getD_modify_self (h.pairs_length ▸ hd), getD_modify_self (h.pair_length hd ▸ hc)]
  rfl

/-! ### Events after any write of a field -/

/-- No write of another field than EVT takes an event back. -/
theorem Raised.setF_any {s : State} {p : Page} {n bit : Nat} (h : Raised s p n bit) (hp : p ≠ .chan) {f : Fld} {k j : Nat}
    (hf : Fld.low f k j ≠ 0x80) (m v : Nat) : Raised (setF s f m k j v) p n bit := by
  unfold Raised get1
  rwa [getF_setF_low (g := HDR.EVT p) hp hf.symm]

theorem Raised.addCnt_any {s : State} {p : Page} {n bit : Nat} (h : Raised s p n bit) (hp : p ≠ .chan) (hb : bit < 32) {f : Fld} {k : Nat}
    (hf : Fld.low f k 0 ≠ 0x80) (m x : Nat) : Raised (addCnt s f m k x) p n bit := by
  unfold addCnt
  dsimp only
  split
  · unfold raiseSat
    split
    · exact h.setF_any hp hf m _
    · next b _ =>
      have hset := h.setF_any hp hf m (satTo cntMax (getF s f m k 0 + x))
      refine Raised.setF_any ?_ hp (f := HDR.EVT_CNT f.page) (k := 0) (j := 0) (by show 0xC0 ≠ 0x80; decide) m _
      generalize setF s f m k 0 (satTo cntMax (getF s f m k 0 + x)) = u at hset ⊢
      by_cases hk : fldKey (HDR.EVT p) n 0 0 = fldKey (HDR.EVT f.page) m 0 0
      · have hsame : ∀ t : State, get1 t (HDR.EVT p) n = get1 t (HDR.EVT f.page) m := fun t => congrArg (fun k => (kvGet t.regs k).getD 0) hk
        unfold Raised at hset ⊢
        rw [hsame] at hset ⊢
        rw [setEvtBit_evt _ _ _ _ _ hb, hset]
        rfl
      · unfold Raised at hset ⊢
        rwa [setEvtBit, get1_set1_ne _ _ _ _ _ _ hk]
  · exact h.setF_any hp hf m _

/-- Nor does a change of units alone. -/
theorem Raised.of_regs {s t : State} {p : Page} {n bit : Nat} (h : Raised s p n bit) (ht : t.regs = s.regs) : Raised t p n bit := by
  unfold Raised get1 getF at *
  rwa [ht]

/-! ### Operations that leave some fields, and take no event back -/

/-- Whether a write of a field leaves another one, and EVT, of any instances of their pages. -/
def Fld.apart (f : Fld) (k j : Nat) (g : Fld) : Bool := g.page != f.page || (g.page != .chan && Fld.low g 0 0 != Fld.low f k j)

/-- From one state to a later one the fields listed, of all instances, read the same, and no event is taken back. -/
structure Keeps (fs : List Fld) (s t : State) : Prop where
  reads : ∀ g ∈ fs, ∀ n, get1 t g n = get1 s g n
  raised : ∀ p n bit, p ≠ .chan → bit < 32 → Raised s p n bit → Raised t p n bit

namespace Keeps

variable {fs : List Fld} {s t u : State}

theorem refl (fs : List Fld) (s : State) : Keeps fs s s := ⟨fun _ _ _ => rfl, fun _ _ _ _ _ h => h⟩

theorem trans (h : Keeps fs s t) (g : Keeps fs t u) : Keeps fs s u :=
  ⟨fun f hf n => (g.reads f hf n).trans (h.reads f hf n), fun p n b hp hb hr => g.raised p n b hp hb (h.raised p n b hp hb hr)⟩

/-- A change of units alone. -/
theorem of_units (hr : t.regs = s.regs) (hp : t.pol = s.pol) : Keeps fs s t :=
  ⟨fun g _ n => getF_congr g n 0 0 (by rw [hr]) hp, fun _ _ _ _ _ h => h.of_regs hr⟩

theorem getF_setF_apart {f g : Fld} {k j : Nat} (h : Fld.apart f k j g = true) (s : State) (n v m : Nat) :
    getF (setF s f n k j v) g m 0 0 = getF s g m 0 0 := by
  simp only [Fld.apart, Bool.or_eq_true, bne_iff_ne, Bool.and_eq_true] at h
  rcases h with h | ⟨hp, hl⟩
  · exact getF_setF_page h ..
  · exact getF_setF_low hp hl ..

theorem setF {f : Fld} {k j : Nat} (h : fs.all (Fld.apart f k j) = true ∧ Fld.apart f k j (HDR.EVT f.page) = true) (s : State) (n v : Nat) :
    Keeps fs s (setF s f n k j v) := by
  obtain ⟨hfs, hevt⟩ := h
  refine ⟨fun g hg m => getF_setF_apart (List.all_eq_true.mp hfs g hg) s n v m, fun p m b hp hb hr => ?_⟩
  by_cases e : p = f.page
  · subst e
    unfold Raised get1
    rwa [getF_setF_apart hevt]
  · exact (raised_setF e ..).mpr hr

theorem set1 {f : Fld} (h : fs.all (Fld.apart f 0 0) = true ∧ Fld.apart f 0 0 (HDR.EVT f.page) = true) (s : State) (n v : Nat) :
    Keeps fs s (set1 s f n v) := setF h s n v

theorem evt (h : fs.all (Fld.lowPlain · 0 0) = true) (s : State) (p : Page) (n bit : Nat) : Keeps fs s (evt s p n bit) :=
  ⟨fun g hg m => getF_evt_low (List.all_eq_true.mp h g hg) s p n bit m, fun _ m b hp hb hr => hr.evt_any hp hb ..⟩

theorem evtIf (h : fs.all (Fld.lowPlain · 0 0) = true) (c : Bool) (s : State) (p : Page) (n bit : Nat) : Keeps fs s (evtIf c s p n bit) := by
  unfold Machine.evtIf
  split
  · exact evt h s p n bit
  · exact refl fs s

theorem raiseSat (h : fs.all (Fld.lowPlain · 0 0) = true) (s : State) (p : Page) (n : Nat) : Keeps fs s (raiseSat s p n) := by
  refine ⟨fun g hg m => getF_congr g m 0 0 ?_ (by simp [cite @raiseSat_keeps]), fun q m b hq hb hr => ?_⟩
  · have hplain := List.all_eq_true.mp h g hg
    by_cases e : g.page = p
    · exact raiseSat_cell_ne s p n _ (fldKey_ne_evt_low hplain e m n).1 (fldKey_ne_evt_low hplain e m n).2
    · exact raiseSat_cell_ne s p n _ (fldKey_ne_of_page_ne (f := g) (g := HDR.EVT p) e m 0 0 n 0 0)
        (fldKey_ne_of_page_ne (f := g) (g := HDR.EVT_CNT p) e m 0 0 n 0 0)
  · unfold Machine.raiseSat
    split
    · exact hr
    · by_cases hk : fldKey (HDR.EVT q) m 0 0 = fldKey (HDR.EVT p) n 0 0
      · have hsame : ∀ t : State, get1 t (HDR.EVT q) m = get1 t (HDR.EVT p) n := fun t => congrArg (fun k => (kvGet t.regs k).getD 0) hk
        unfold Raised at hr ⊢
        rw [hsame] at hr ⊢
        dsimp only
        rw [evt_of_cnt, setEvtBit_evt _ _ _ _ _ hb, hr]
        rfl
      · have hcnt : fldKey (HDR.EVT q) m 0 0 ≠ fldKey (HDR.EVT_CNT p) n 0 0 := by
          by_cases e : q = p
          · subst e
            exact fldKey_ne_of_low (f := HDR.EVT_CNT q) (g := HDR.EVT q) hq rfl (by show 0x80 ≠ 0xC0; decide) m n
          · exact fldKey_ne_of_page_ne (f := HDR.EVT q) (g := HDR.EVT_CNT p) e m 0 0 n 0 0
        unfold Raised at hr ⊢
        dsimp only
        rwa [get1_set1_ne _ _ _ _ _ _ hcnt, setEvtBit, get1_set1_ne _ _ _ _ _ _ hk]

theorem addCnt {f : Fld} {k : Nat} (h : (fs.all (Fld.apart f k 0) = true ∧ Fld.apart f k 0 (HDR.EVT f.page) = true) ∧
    fs.all (Fld.lowPlain · 0 0) = true) (s : State) (n x : Nat) : Keeps fs s (addCnt s f n k x) := by
  unfold Machine.addCnt
  dsimp only
  split
  · exact (setF h.1 s n _).trans (raiseSat h.2 _ f.page n)
  · exact setF h.1 s n _

theorem foldl {α : Type} {f : State → α → State} (hf : ∀ t x, Keeps fs t (f t x)) (l : List α) (s : State) : Keeps fs s (l.foldl f s) :=
  foldl_rel (R := Keeps fs) (refl fs) (fun _ _ _ => trans) (fun t x _ => hf t x) s

theorem ite {c : Prop} [Decidable c] (ht : Keeps fs s t) (hu : Keeps fs s u) : Keeps fs s (if c then t else u) := by
  split
  · exact ht
  · exact hu

theorem chanEvt (h : fs.all (fun g => Fld.apart PART.CHAN_EVT 0 0 g && Fld.lowPlain g 0 0) = true) (s : State) (c bit : Nat) :
    Keeps fs s (chanEvt s c bit) := by
  simp only [List.all_eq_true, Bool.and_eq_true] at h
  unfold Machine.chanEvt
  refine ite (trans (t := Machine.set1 s PART.CHAN_EVT (chanOwner s c) (get1 s PART.CHAN_EVT (chanOwner s c) ||| 2 ^ c)) ?_ ?_) (refl fs s)
  · exact set1 ⟨List.all_eq_true.mpr fun g hg => (h g hg).1, by decide⟩ s _ _
  · exact evt (List.all_eq_true.mpr fun g hg => (h g hg).2) _ _ _ _

/-- Whether a field is none of the black box's, and none of a page's event cells. -/
def offJournal (g : Fld) : Bool := g.page != .bbox && Fld.lowPlain g 0 0

theorem bboxCnt (h : fs.all offJournal = true) {f : Fld} {k : Nat} (hf : f.page = .bbox) (he : Fld.apart f k 0 (HDR.EVT f.page) = true)
    (s : State) (n x : Nat) : Keeps fs s (Machine.addCnt s f n k x) := by
  simp only [List.all_eq_true, offJournal, Bool.and_eq_true] at h
  refine addCnt ⟨⟨List.all_eq_true.mpr fun g hg => ?_, he⟩, List.all_eq_true.mpr fun g hg => (h g hg).2⟩ s n x
  have hb := (h g hg).1
  simp only [bne_iff_ne] at hb
  simp [Fld.apart, hf, hb]

theorem enqueue (h : fs.all offJournal = true) (s : State) (e : JEntry) : Keeps fs s (enqueue s e) := by
  unfold Machine.enqueue
  refine ite (of_units rfl rfl) ((bboxCnt h (f := BBOX.QLOST_CNT) (k := 0) rfl (by decide) s 0 1).trans (of_units rfl rfl))

theorem journalPg (h : fs.all offJournal = true) (s : State) (code : Nat) (part : Option Nat) (p : Page) (inst data : Nat) :
    Keeps fs s (journalPg s code part p inst data) := by
  unfold Machine.journalPg Machine.journal
  refine ite (enqueue h s _) (ite (trans (t := { s with jrn := { s.jrn with
    counts := kvSet s.jrn.counts code ((kvGet s.jrn.counts code).getD 0 + 1) } }) (of_units rfl rfl) (enqueue h _ _)) ?_)
  exact (bboxCnt h (f := BBOX.SUPPRESS_CNT) (k := 0) rfl (by decide) s 0 1).trans (of_units rfl rfl)

/-! A change of a unit leaves every field and event. -/

theorem modLane (fs : List Fld) (s : State) (n : Nat) (f : LaneU → LaneU) : Keeps fs s (modLane s n f) := of_units rfl rfl
theorem modFunc (fs : List Fld) (s : State) (n : Nat) (f : FuncU → FuncU) : Keeps fs s (modFunc s n f) := of_units rfl rfl
theorem modRow (fs : List Fld) (s : State) (n : Nat) (f : RowU → RowU) : Keeps fs s (modRow s n f) := of_units rfl rfl
theorem modPart (fs : List Fld) (s : State) (n : Nat) (f : PartU → PartU) : Keeps fs s (modPart s n f) := of_units rfl rfl
theorem modChan (fs : List Fld) (s : State) (n : Nat) (f : ChanU → ChanU) : Keeps fs s (modChan s n f) := of_units rfl rfl
theorem modPkt (fs : List Fld) (s : State) (n : Nat) (f : PktU → PktU) : Keeps fs s (modPkt s n f) := of_units rfl rfl
theorem modDom (fs : List Fld) (s : State) (n : Nat) (f : DomU → DomU) : Keeps fs s (modDom s n f) := of_units rfl rfl
theorem modApll (fs : List Fld) (s : State) (n : Nat) (f : ApllU → ApllU) : Keeps fs s (modApll s n f) := of_units rfl rfl
theorem modOut (fs : List Fld) (s : State) (n : Nat) (f : OutU → OutU) : Keeps fs s (modOut s n f) := of_units rfl rfl
theorem modTime (fs : List Fld) (s : State) (n : Nat) (f : TimeU → TimeU) : Keeps fs s (modTime s n f) := of_units rfl rfl
theorem modEth (fs : List Fld) (s : State) (n : Nat) (f : EthU → EthU) : Keeps fs s (modEth s n f) := of_units rfl rfl
theorem modPtp (fs : List Fld) (s : State) (n : Nat) (f : PtpU → PtpU) : Keeps fs s (modPtp s n f) := of_units rfl rfl
theorem modPair (fs : List Fld) (s : State) (d c : Nat) (f : PairU → PairU) : Keeps fs s (modPair s d c f) := of_units rfl rfl
theorem modPower (fs : List Fld) (s : State) (f : PowerU → PowerU) : Keeps fs s (modPower s f) := of_units rfl rfl
theorem modCellar (fs : List Fld) (s : State) (f : CellarU → CellarU) : Keeps fs s (modCellar s f) := of_units rfl rfl
theorem modRoot (fs : List Fld) (s : State) (f : RootU → RootU) : Keeps fs s (modRoot s f) := of_units rfl rfl
theorem modShelf (fs : List Fld) (s : State) (f : ShelfU → ShelfU) : Keeps fs s (modShelf s f) := of_units rfl rfl

/-! The same after a chain of operations. -/

theorem after_setF (h : Keeps fs s t) {f : Fld} {n k j v : Nat} (hf : fs.all (Fld.apart f k j) = true ∧ Fld.apart f k j (HDR.EVT f.page) = true) :
    Keeps fs s (Machine.setF t f n k j v) := h.trans (.setF hf t n v)

theorem after_set1 (h : Keeps fs s t) {f : Fld} {n v : Nat} (hf : fs.all (Fld.apart f 0 0) = true ∧ Fld.apart f 0 0 (HDR.EVT f.page) = true) :
    Keeps fs s (Machine.set1 t f n v) := h.trans (.set1 hf t n v)

theorem after_evt (h : Keeps fs s t) (hf : fs.all (Fld.lowPlain · 0 0) = true) {p : Page} {n bit : Nat} : Keeps fs s (Machine.evt t p n bit) :=
  h.trans (.evt hf t p n bit)

theorem after_addCnt (h : Keeps fs s t) {f : Fld} {n k x : Nat} (hf : (fs.all (Fld.apart f k 0) = true ∧ Fld.apart f k 0 (HDR.EVT f.page) = true) ∧
    fs.all (Fld.lowPlain · 0 0) = true) : Keeps fs s (Machine.addCnt t f n k x) := h.trans (.addCnt hf t n x)

theorem after_units (h : Keeps fs s t) (hr : u.regs = t.regs) (hp : u.pol = t.pol) : Keeps fs s u := h.trans (.of_units hr hp)

end Keeps

end Sys2Proof.Machine

/-! Domains and selection (R263 to R277, R296, R302, R307, R311, R319, R363): what the transitions and timers of a domain and of its
pairs leave. -/

namespace Sys2Proof.Machine

/-! ### Loop bandwidth (R296) -/

/-- What the gains show lies in no other field. -/
theorem getF_publishGains {g : Fld} (hp : g.page = .dpll) (h : ∀ f ∈ [DPLL.BW_EFF, DPLL.STATUS_BW_CLAMP, DPLL.KP, DPLL.KI_LO, DPLL.KI_HI],
    Fld.place g 0 0 ≠ Fld.place f 0 0) (s : State) (d : Nat) : get1 (publishGains s d) g d = get1 s g d := by
  unfold publishGains get1 set1
  dsimp only
  rw [getF_setF_place (f := DPLL.KI_HI) hp (h _ (by decide)), getF_setF_place (f := DPLL.KI_LO) hp (h _ (by decide)),
    getF_setF_place (f := DPLL.KP) hp (h _ (by decide)), getF_setF_place (f := DPLL.STATUS_BW_CLAMP) hp (h _ (by decide)),
    getF_setF_place (f := DPLL.BW_EFF) hp (h _ (by decide))]

/-- A write of a field that is ignored outside its range. -/
def guarded (s : State) (f : Fld) (d lo hi : Nat) : Option Nat → State
  | some b => if lo ≤ b ∧ b ≤ hi then set1 s f d b else s
  | none => s

theorem loopBw_eq (s : State) (d : Nat) (bw damp : Option Nat) :
    loopBw s d bw damp = publishGains (guarded (guarded s DPLL.BW d 1 250000 bw) DPLL.DAMP d 64 2047 damp) d := by
  cases bw <;> cases damp <;> rfl

theorem guarded_in {f : Fld} {lo hi b : Nat} (hf : f.acc ≠ .lk) (hw : hi < 2 ^ f.width) (h1 : lo ≤ b) (h2 : b ≤ hi) (s : State) (d : Nat) :
    get1 (guarded s f d lo hi (some b)) f d = b := by
  rw [guarded, if_pos ⟨h1, h2⟩]
  exact getF_setF_fits hf (by omega) s d 0 0

theorem guarded_out {lo hi : Nat} {v : Option Nat} (h : v = none ∨ ∃ b, v = some b ∧ (b < lo ∨ hi < b)) (s : State) (f : Fld) (d : Nat) :
    guarded s f d lo hi v = s := by
  obtain rfl | ⟨b, rfl, hb⟩ := h
  · rfl
  · exact if_neg (by omega)

/-- A guarded write of one field leaves another of its page as it was. -/
theorem guarded_place {f g : Fld} (hp : g.page = f.page) (hne : Fld.place g 0 0 ≠ Fld.place f 0 0) (s : State) (d lo hi : Nat) (v : Option Nat) :
    get1 (guarded s f d lo hi v) g d = get1 s g d := by
  unfold guarded
  (repeat' split)
  · exact getF_setF_place hp hne s d _
  all_goals rfl

theorem guarded_keeps (s : State) (f : Fld) (d lo hi : Nat) (v : Option Nat) : OnlyRegs s (guarded s f d lo hi v) := by
  unfold OnlyRegs guarded
  (repeat' split) <;> simp [cite @set1_keeps]

/-- Settles O27: each value is guarded by its own range, and the gains published after them are other fields. -/
theorem loopBandwidth : Obligations.LoopBandwidth := by
  intro s d bw damp hd
  refine ⟨loopBw s d bw damp, if_pos hd, ?_⟩
  rw [loopBw_eq]
  have hstate := getF_publishGains (g := DPLL.STATUS_STATE) rfl (by decide) (guarded (guarded s DPLL.BW d 1 250000 bw) DPLL.DAMP d 64 2047 damp) d
  have hbw := getF_publishGains (g := DPLL.BW) rfl (by decide) (guarded (guarded s DPLL.BW d 1 250000 bw) DPLL.DAMP d 64 2047 damp) d
  have hdamp := getF_publishGains (g := DPLL.DAMP) rfl (by decide) (guarded (guarded s DPLL.BW d 1 250000 bw) DPLL.DAMP d 64 2047 damp) d
  rw [guarded_place (f := DPLL.DAMP) (g := DPLL.STATUS_STATE) rfl (by decide)] at hstate
  rw [guarded_place (f := DPLL.DAMP) (g := DPLL.BW) rfl (by decide)] at hbw
  refine ⟨?_, hstate.trans (guarded_place (f := DPLL.BW) (g := DPLL.STATUS_STATE) rfl (by decide) ..), fun b hb h1 h2 => ?_, fun hb => ?_, fun z hz h1 h2 => ?_, fun hz => ?_⟩
  · simp [cite @publishGains_keeps, cite @guarded_keeps]
  · rw [hbw, hb, guarded_in (by decide) (by decide) h1 h2]
  · rw [hbw, guarded_out hb]
  · rw [hdamp, hz, guarded_in (by decide) (by decide) h1 h2]
  · rw [hdamp, guarded_out hz]
    exact guarded_place (f := DPLL.BW) (g := DPLL.DAMP) rfl (by decide) ..

/-! ### States of a domain (R302, R311) -/

/-- A change of state leaves the other fields of the domain's page. -/
theorem domChanged_place {g : Fld} (hp : g.page = .dpll)
    (h : (∀ f ∈ [DPLL.STATUS_STATE, DPLL.STATE_FRN, DPLL.HOLD_CNT, DPLL.UNLOCK_CNT], Fld.place g 0 0 ≠ Fld.place f 0 0) ∧ Fld.plain g 0 0 = true)
    (s : State) (d old new left : Nat) : get1 (domChanged s d old new left) g d = get1 s g d := by
  obtain ⟨hne, hplain⟩ := h
  have h1 := hne _ (List.mem_cons_self ..)
  have h2 := hne DPLL.STATE_FRN (by decide)
  have h3 := hne DPLL.HOLD_CNT (by decide)
  have h4 := hne DPLL.UNLOCK_CNT (by decide)
  have hjrn : ∀ (u : State) code part p inst data, get1 (journalPg u code part p inst data) g d = get1 u g d :=
    fun u _ _ _ _ _ => getF_of_page g (hp ▸ journalPg_pg _ _ _ _ _ _ (by decide)) (by simp [cite @journalPg_keeps]) d 0 0
  unfold domChanged
  dsimp only
  rw [hjrn]
  unfold get1 set1
  (repeat' split) <;> simp only [getF_addCnt_place (f := DPLL.HOLD_CNT) hp h3 hplain, getF_addCnt_place (f := DPLL.UNLOCK_CNT) hp h4 hplain,
    getF_evt_plain hp hplain, getF_setF_place (f := DPLL.STATUS_STATE) hp h1, getF_setF_place (f := DPLL.STATE_FRN) hp h2]

/-- What a change of state shows. -/
theorem domChanged_shows (s : State) (d old new left : Nat) (hnew : new < 8) :
    get1 (domChanged s d old new left) DPLL.STATUS_STATE d = new ∧
      get1 (domChanged s d old new left) DPLL.STATE_FRN d = s.frn % 2 ^ 32 ∧
      Raised (domChanged s d old new left) .dpll d 0 ∧ (new = 4 → Raised (domChanged s d old new left) .dpll d 2) ∧
      (domChanged s d old new left).doms = s.doms := by
  have hpage : ∀ (u : State) code part p inst data, pageCells .dpll (journalPg u code part p inst data).regs = pageCells .dpll u.regs ∧
      (journalPg u code part p inst data).pol = u.pol := fun u _ _ _ _ _ => ⟨by simp, by simp [cite @journalPg_keeps]⟩
  have hget : ∀ (u : State) code part p inst data (f : Fld), f.page = .dpll → get1 (journalPg u code part p inst data) f d = get1 u f d :=
    fun u code part p inst data f hf => getF_of_page f (hf ▸ (hpage u code part p inst data).1) (hpage u code part p inst data).2 d 0 0
  have hraised : ∀ (u : State) code part p inst data bit, Raised (journalPg u code part p inst data) .dpll d bit ↔ Raised u .dpll d bit :=
    fun u code part p inst data bit => raised_of_page (hpage u code part p inst data).1 (hpage u code part p inst data).2 d bit
  have hfits : new % 2 ^ DPLL.STATUS_STATE.width = new := Nat.mod_eq_of_lt hnew
  refine ⟨?_, ?_, ?_, fun h4 => ?_, ?_⟩
  · unfold domChanged
    dsimp only
    rw [hget _ _ _ _ _ _ _ rfl]
    simp (disch := decide) [get1, set1, getF_setF_same, hfits]
  · unfold domChanged
    dsimp only
    rw [hget _ _ _ _ _ _ _ rfl]
    simp (disch := decide) [get1, set1, getF_setF_same]
    rfl
  · unfold domChanged
    dsimp only
    rw [hraised]
    have h0 : ∀ u, Raised (evt u .dpll d 0) .dpll d 0 := fun u => raised_evt (by decide) ..
    have hevt : ∀ (u : State) m, Raised u .dpll d 0 → Raised (evt u .dpll d m) .dpll d 0 := fun u m h => h.evt_any (by decide) (by decide) ..
    have hhold : ∀ u, Raised u .dpll d 0 → Raised (addCnt u DPLL.HOLD_CNT d 0 1) .dpll d 0 := fun u h => h.addCnt_any (by decide) (by decide) (by decide) ..
    have hunlock : ∀ u, Raised u .dpll d 0 → Raised (addCnt u DPLL.UNLOCK_CNT d 0 1) .dpll d 0 :=
      fun u h => h.addCnt_any (by decide) (by decide) (by decide) ..
    have hfirst : Raised (evt (set1 (set1 s DPLL.STATUS_STATE d new) DPLL.STATE_FRN d s.frn) .dpll d 0) .dpll d 0 := h0 _
    have hnew : ∀ u, Raised u .dpll d 0 → Raised (if new = 3 then addCnt (evt u .dpll d 1) DPLL.HOLD_CNT d 0 1
        else if new = 4 then evt u .dpll d 2 else u) .dpll d 0 := fun u h => by
      (repeat' split)
      · exact hhold _ (hevt _ 1 h)
      · exact hevt _ 2 h
      · exact h
    split
    · exact hunlock _ (hnew _ hfirst)
    · exact hnew _ hfirst
  · subst h4
    unfold domChanged
    dsimp only
    simp [hraised, raised_evt]
  · simp [cite @domChanged_keeps]

/-- Settles O25: both transitions are one change of state. -/
theorem domainTransitions : Obligations.DomainTransitions := by
  intro s d hd
  refine ⟨fun hst hlock => ?_, fun hst hact hdusk => ?_⟩
  · obtain ⟨hstate, hfrn, hraised, -, hdoms⟩ := domChanged_shows s d (domState s d) 2 0 (by decide)
    refine ⟨enterLocked s d, ?_, hstate, hfrn, hraised, hdoms⟩
    simp [exec, execLockAchieved, hd, hst, hlock]
  · obtain ⟨hstate, hfrn, hraised, hlost, hdoms⟩ :=
      domChanged_shows (set1 s DPLL.DUSK_LEFT d 0) d (domState (set1 s DPLL.DUSK_LEFT d 0) d) 4 0 (by decide)
    refine ⟨enterLost s d, by simp [exec, execDuskExpiry, hd, hst, hact, hdusk], hstate, hfrn, ?_, hraised, hlost rfl, hdoms⟩
    unfold enterLost setDomState
    rw [domChanged_place rfl (by decide)]
    exact getF_setF_fits (by decide) (by decide) ..

/-! ### Bridge, history and STEPPED (R307, R319, R363) -/

theorem exec_bridgeEnd {s : State} {d : Nat} (hd : d < 4) :
    exec (.bridgeEnd d) s = if get1 s DPLL.STATUS_BRIDGING d = 1 ∧ bridgeOver s d = true then .next (bridgeStop s d) else .next s := by
  simp [exec, execBridgeEnd, hd, bit1]

/-- A change of domains and of the cells listed. -/
theorem onlyCells_of_onlyRegsDoms {ks : List Nat} {s t : State} (h : OnlyRegsDoms s t) (hc : CellsElse ks s t) :
    OnlyCells ks { s with doms := t.doms } t := by
  refine ⟨?_, hc⟩
  cases t
  simpa [OnlyRegsDoms] using h

theorem bridgeStop_ends {s : State} (hs : Shaped s) {d : Nat} (hd : d < 4) :
    get1 (bridgeStop s d) DPLL.STATUS_BRIDGING d = 0 ∧ (domOf (bridgeStop s d) d).setB = true ∧ (domOf (bridgeStop s d) d).brLane = false ∧
      (domOf (bridgeStop s d) d).brApll = false ∧
      OnlyCells [fldKey DPLL.STATUS_BRIDGING d 0 0] { s with doms := (bridgeStop s d).doms } (bridgeStop s d) := by
  have hdom : domOf (bridgeStop s d) d = { domOf s d with brLane := false, brApll := false, setB := true } :=
    domOf_modDom (hs.doms ▸ hd) _
  refine ⟨getF_setF_fits (by decide) (by decide) .., by rw [hdom], by rw [hdom], by rw [hdom], ?_⟩
  exact onlyCells_of_onlyRegsDoms (bridgeStop_keeps s d) ((setF_onlyCells _ _ _ _ _ _).2)

theorem exec_historySegment {s : State} {d : Nat} (hd : d < 4) :
    exec (.historySegment d) s = if domRuns s d = true ∧ segmentEnds s d = true then .next (closeSegment s d) else .next s := by
  simp [exec, execHistorySegment, hd]

/-- The segment that a history row stores when it closes, if any. -/
def storedSegment (s : State) (d : Nat) : List Seg :=
  if (domOf s d).segOk && decide ((domOf s d).segLen = get1 s DPLL.HOLD_CFG_SEG_S d * 8000) then
    [⟨s.frn, -((domOf s d).segSum : Rat) / ((get1 s DPLL.HOLD_CFG_SEG_S d * 8000 : Nat) * frameLsb)⟩] else []

theorem keepSegs_dom {u : State} {d : Nat} (h : d < u.doms.length) : domOf (keepSegs u d) d =
    { domOf u d with segs := (domOf u d).segs.drop ((domOf u d).segs.length - get1 u DPLL.HOLD_CFG_HIST_LEN d) } := domOf_modDom h _

/-- The history that a segment's end leaves: the latest HIST_LEN of what was stored. -/
theorem closeSegment_dom {s : State} (hs : Shaped s) {d : Nat} (hd : d < 4) :
    let l := (domOf s d).segs ++ storedSegment s d
    domOf (closeSegment s d) d = { domOf s d with segOk := false, segSum := 0, segs := l.drop (l.length - get1 s DPLL.HOLD_CFG_HIST_LEN d) } := by
  have hlen : d < s.doms.length := hs.doms ▸ hd
  obtain ⟨u, hu, hlen'⟩ : ∃ u, closeSegment s d = keepSegs u d ∧ get1 u DPLL.HOLD_CFG_HIST_LEN d = get1 s DPLL.HOLD_CFG_HIST_LEN d ∧
      d < u.doms.length ∧ domOf u d = { domOf s d with segOk := false, segSum := 0, segs := (domOf s d).segs ++ storedSegment s d } := by
    refine ⟨_, rfl, rfl, by simpa [modDom] using hlen, (domOf_modDom hlen _).trans ?_⟩
    unfold storedSegment
    simp only [apply_ite ((domOf s d).segs ++ ·), List.append_nil]
    rfl
  obtain ⟨hcfg, hul, hud⟩ := hlen'
  rw [hu, keepSegs_dom hul, hud, hcfg]

theorem closeSegment_shows {s : State} (d : Nat) : get1 (closeSegment s d) DPLL.HIST_SEGS d = (domOf (closeSegment s d) d).segs.length % 2 ^ 8 ∧
    OnlyCells [fldKey DPLL.HIST_SEGS d 0 0] { s with doms := (closeSegment s d).doms } (closeSegment s d) :=
  ⟨getF_setF_same _ _ _ _ _ _ (by decide), onlyCells_of_onlyRegsDoms (closeSegment_keeps s d) ((setF_onlyCells _ _ _ _ _ _).2)⟩

theorem steppedFrame_ends {s : State} {d f : Nat} (hf : (timeOf s d).stepped = some f) (hend : f + 128000 ≤ s.frn) :
    get1 (steppedFrame s d) TIME.STATUS_STEPPED d = 0 ∧ (timeOf (steppedFrame s d) d).t = (timeOf s d).t := by
  have hspan : f + steppedSpan ≤ s.frn := hend
  unfold steppedFrame
  rw [hf]
  dsimp only
  rw [if_pos hspan]
  refine ⟨?_, ?_⟩
  · simp (disch := decide) [get1, set1]
  · exact getD_modify_keep (g := TimeU.t) (f := fun v => { v with steps := stepsHour (set1 s TIME.STATUS_STEPPED d 0) d })
      (fun _ => rfl) s.times d d {}

/-- Settles O26: each of the three ends, with and without its condition. -/
theorem domainFrameEnds : Obligations.DomainFrameEnds := by
  intro s d hs hd
  refine ⟨fun hb hover => ?_, fun h => ?_, fun hr he => ?_, fun h => ?_, fun f hf hend => ?_⟩
  · exact ⟨_, (exec_bridgeEnd hd).trans (if_pos ⟨hb, hover⟩), bridgeStop_ends hs hd⟩
  · exact (exec_bridgeEnd hd).trans (if_neg (by rintro ⟨h1, h2⟩; simp [h1, h2] at h))
  · obtain ⟨hshow, hcells⟩ := closeSegment_shows (s := s) d
    have hdom := closeSegment_dom hs hd
    refine ⟨_, (exec_historySegment hd).trans (if_pos ⟨hr, he⟩), by rw [hdom], by rw [hdom], ?_, fun hk hlen => ?_, hshow, hcells⟩
    · rw [hdom]
      simp only [List.length_drop, List.length_append, storedSegment, b2n]
      split <;> simp <;> omega
    · rw [hdom]
      simp only [storedSegment, hk, if_true]
      rw [List.getLast?_drop, if_neg (by simp; omega)]
      simp
  · exact (exec_historySegment hd).trans (if_neg (by rintro ⟨h1, h2⟩; simp [h1, h2] at h))
  · exact ⟨_, if_pos hd, steppedFrame_ends hf hend⟩

/-! ### Timers of a pair (R263, R266, R267, R277) -/

/-- A pair that is put stands as it was put. -/
theorem pairOf_putPair {s : State} (hs : Shaped s) {d c : Nat} (hd : d < 4) (hc : c < 12) (v : PairU) : pairOf (putPair s d c v) d c = v := by
  have hset : pairOf (modPair s d c fun _ => v) d c = v := pairOf_modPair hs hd hc _
  unfold putPair
  dsimp only
  split
  · exact hset
  · simpa [pairOf, cite @reasonChanged_keeps] using hset

theorem winsSince_mono (u : ChanU) {a b : Nat} (h : a ≤ b) : winsSince u b ≤ winsSince u a := by
  unfold winsSince
  refine (List.monotone_filter_right _ fun w hw => ?_).length_le
  simp only [decide_eq_true_eq] at hw ⊢
  omega

/-- A pair whose hold-off is over and whose tests pass: it waits for windows, qualifies, or starts its WTR. -/
theorem pairFrame_holdOff {frn wtr wins after f : Nat} {v : PairU} (hf : v.lastFail = some f) (hle : after ≤ wins) :
    let w := pairFrame frn [] 0 wtr wins after { v with timer := 1 }
    (after < 8 → w.reason = 0xA ∧ w.timer = 0 ∧ w.kind = 0) ∧
      (8 ≤ after → v.wtrDue = false ∨ wtr = 0 → w.reason = 0 ∧ w.kind = 0) ∧
      (8 ≤ after → v.wtrDue = true → wtr ≠ 0 → w.reason = 9 ∧ w.timer = wtr * 8000 ∧ w.kind = 1) := by
  have hfirst : firstReason [] = none := rfl
  dsimp only
  unfold pairFrame
  simp only [hfirst, hf, Option.isSome_some, if_true]
  refine ⟨fun h => by simp [h], fun h hq => ?_, fun h hdue hw => ?_⟩ <;> rw [if_neg (by omega)] <;> have hw8 : ¬wins < 8 := by omega
  · rcases hq with hq | hq
    · simp [pairFree, pairOk, hw8, hq]
    · simp [pairFree, pairOk, hw8, hq]
  · simp [pairFree, hdue, hw, hw8]

theorem slewEnd_ends {s : State} (hs : Shaped s) {d : Nat} (hd : d < 4) : getF (slewEnd s d) SEL.ACTIVE_SLEWING 0 d 0 = 0 ∧
      getF (slewEnd s d) SEL.ACTIVE_FROM 0 d 0 = 0xF ∧ getF (slewEnd s d) SEL.SLEW_LEFT 0 d 0 = 0 ∧ (domOf (slewEnd s d) d).slew = 0 ∧
      Raised (slewEnd s d) .part d 11 := by
  have hdom : (domOf (slewEnd s d) d).slew = 0 := by
    have hkept : (slewEnd s d).doms = (slewClear s d).doms := by simp [slewEnd, cite @partEvt_keeps]
    unfold domOf
    rw [hkept]
    exact congrArg DomU.slew (domOf_modDom (by simpa [cite @setF_keeps, hs.doms] using hd) _)
  have hraised : Raised (slewEnd s d) .part d 11 := raised_evt (by decide) ..
  refine ⟨?_, ?_, ?_, hdom, hraised⟩ <;> interval_cases d <;> simp (disch := decide) [slewEnd, partEvt, slewClear, getF_evt_of_page_ne]

theorem exec_slewDone {s : State} {d : Nat} (hd : d < 4) :
    exec (.slewDone d) s = if getF s SEL.ACTIVE_SLEWING 0 d 0 = 1 then .next (slewEnd s d) else .next s := if_pos hd

/-- Settles O24: the pair as it is put at each timer's end, and the end of a slew. -/
theorem pairTimers : Obligations.PairTimers := by
  intro s d c hs hd
  refine ⟨fun hc hcand hk hr => ?_, fun f hc hcand hk hr hf => ?_, fun h => ?_, fun h => (exec_slewDone hd).trans (if_neg h)⟩
  · have hact : exec (.wtrExpiry d c) s = .next (putPair s d c (pairOk (pairOf s d c))) := by
      simp [exec, execWtrExpiry, hd, hc, hcand, hk, hr]
    refine ⟨_, hact, ?_⟩
    rw [pairOf_putPair hs hd hc]
    exact ⟨rfl, rfl, rfl, rfl⟩
  · have hact : exec (.holdOffExpiry d c) s = .next (putPair s d c (pairFrame s.frn [] 0 (polVal s.pol CHAN.WTR c 0 0)
        (winsSince (chanOf s c) (domOf s d).start) (winsSince (chanOf s c) (max (domOf s d).start (f + 1)))
        { pairOf s d c with timer := 1 })) := by
      simp [exec, execHoldOffExpiry, hd, hc, hcand, hk, hr, hf]
    refine ⟨_, hact, ?_⟩
    rw [pairOf_putPair hs hd hc]
    exact pairFrame_holdOff hf (winsSince_mono _ (le_max_left ..))
  · exact ⟨_, (exec_slewDone hd).trans (if_pos h), slewEnd_ends hs hd⟩

end Sys2Proof.Machine

/-! Channels and lanes (R157, R165 to R185, R252, R257, R260): timeouts, windows, overdrive and calibration. -/

namespace Sys2Proof.Machine

/-! ### Activity (R157, R260) -/

/-- A channel without a window or a latest sample. -/
def bareChan (u : ChanU) : ChanU :=
  { u with wins := [], sum := 0, valid := 0, held := 0, overs := 0, inf := false, lastOk := none, freqBad := false, wandBad := false }

/-- A channel's windows and frequency are dropped. -/
def bareWindows (s : State) (c : Nat) : State := modChan (setF s SEL.CHAN_FREQ 0 c 0 0x80000000) c bareChan

theorem bareWindows_keeps (s : State) (c : Nat) : (bareWindows s c).lanes = s.lanes ∧ (bareWindows s c).funcs = s.funcs ∧
    (bareWindows s c).pkts = s.pkts := by
  simp [bareWindows, cite @modChan_keeps, cite @setF_keeps]

theorem laneFor_congr {s t : State} (h : t.lanes = s.lanes) : laneFor t = laneFor s := by
  funext f
  unfold laneFor laneOf
  rw [h]

theorem dropBaseline_pkt (s : State) {c : Nat} (h : 10 ≤ c) :
    dropBaseline s c = modPkt (bareWindows s c) (c - 10) fun u => { u with base := false } := by
  unfold dropBaseline
  dsimp only
  rw [if_neg (by omega)]
  split
  · rfl
  · rw [if_neg (by omega)]
    rfl

theorem dropBaseline_noLane {s : State} {c : Nat} (h : c < 10) (hl : laneFor s c = none) : dropBaseline s c = baseLost (bareWindows s c) c := by
  have hlane : laneFor (baseLost (bareWindows s c) c) c = none := by
    rw [laneFor_congr (s := s) (by simp [cite @baseLost_keeps, bareWindows_keeps]), hl]
  unfold dropBaseline
  dsimp only
  rw [if_pos h]
  change (match laneFor (baseLost (bareWindows s c) c) c with
    | none => _
    | some n => _) = _
  rw [hlane]
  rfl

theorem dropBaseline_lane {s : State} {c n : Nat} (h : c < 10) (hl : laneFor s c = some n) : dropBaseline s c =
    set1 (modLane (baseLost (bareWindows s c) c) n fun l => { l with host := {}, inc := {} }) LANE.STATUS_NO_BASE n 1 := by
  have hlane : laneFor (baseLost (bareWindows s c) c) c = some n := by
    rw [laneFor_congr (s := s) (by simp [cite @baseLost_keeps, bareWindows_keeps]), hl]
  unfold dropBaseline
  dsimp only
  rw [if_pos h]
  change (match laneFor (baseLost (bareWindows s c) c) c with
    | none => _
    | some n => _) = _
  rw [hlane]
  dsimp only
  rw [if_pos h]
  rfl

theorem dropBaseline_chans (s : State) (c : Nat) : (dropBaseline s c).chans = (bareWindows s c).chans := by
  by_cases h : c < 10
  · cases hl : laneFor s c with
    | none => simp [dropBaseline_noLane h hl, cite @baseLost_keeps]
    | some n => simp [dropBaseline_lane h hl, cite @baseLost_keeps, cite @set1_keeps, cite @modLane_keeps]
  · simp [dropBaseline_pkt s (by omega : 10 ≤ c), modPkt]

theorem dropBaseline_length (s : State) (c : Nat) : (dropBaseline s c).chans.length = s.chans.length := by
  rw [dropBaseline_chans]
  simp [bareWindows, modChan, cite @setF_keeps]

theorem dropBaseline_chan {s : State} {c : Nat} (hc : c < s.chans.length) : chanOf (dropBaseline s c) c = bareChan (chanOf s c) := by
  have hset : chanOf (bareWindows s c) c = bareChan (chanOf s c) :=
    (chanOf_modChan (s := setF s SEL.CHAN_FREQ 0 c 0 0x80000000) (by simpa [cite @setF_keeps] using hc) bareChan).trans
      (by simp [chanOf, cite @setF_keeps])
  unfold chanOf at *
  rw [dropBaseline_chans, hset]

/-- A measured channel's function begins anew, and its lane reports it. -/
theorem dropBaseline_measured {s : State} (hs : Shaped s) {c : Nat} (h : c < 10) : (funcOf (dropBaseline s c) c).pred = none ∧
    ∀ n, laneFor s c = some n → get1 (dropBaseline s c) LANE.STATUS_NO_BASE n = 1 := by
  have hfuncs : c < (bareWindows s c).funcs.length := by
    rw [(bareWindows_keeps s c).2.1, hs.funcs]
    omega
  have hpred : (funcOf (baseLost (bareWindows s c) c) c).pred = none := congrArg FuncU.pred (funcOf_modFunc hfuncs _)
  cases hl : laneFor s c with
  | none =>
    rw [dropBaseline_noLane h hl]
    exact ⟨hpred, fun n hn => by cases hn⟩
  | some n =>
    rw [dropBaseline_lane h hl]
    refine ⟨?_, fun m hm => ?_⟩
    · simpa [funcOf, cite @set1_keeps, cite @modLane_keeps] using hpred
    · cases hm
      exact getF_setF_fits (by decide) (by decide) ..

/-- A packet channel's estimates begin anew. -/
theorem dropBaseline_packet {s : State} (hs : Shaped s) {c : Nat} (hc : c < 12) (h : 10 ≤ c) :
    (pktOf (dropBaseline s c) (c - 10)).base = false := by
  rw [dropBaseline_pkt s h, pktOf_modPkt]
  rw [(bareWindows_keeps s c).2.2, hs.pkts]
  omega

/-- What a channel's activity leaves of it. -/
theorem activityChange_eq (s : State) (c : Nat) : ∃ u, u = (if idleOut s c && !(chanOf s c).bare then dropBaseline s c else s) ∧
    ∀ v, v = modChan u c (fun x => { x with quiet := (chanOf s c).dead || idleOut s c, bare := idleOut s c }) →
      activityChange s c = v ∨ activityChange s c = chanEvt v c 2 := by
  refine ⟨_, rfl, fun v hv => ?_⟩
  subst hv
  unfold activityChange
  dsimp only
  split
  · exact .inl rfl
  · exact .inr rfl

/-- The activity's report reaches PART alone. -/
theorem activityChange_shows (s : State) (c : Nat) : ∃ u, u = (if idleOut s c && !(chanOf s c).bare then dropBaseline s c else s) ∧
    (activityChange s c).chans = u.chans.modify c (fun x => { x with quiet := (chanOf s c).dead || idleOut s c, bare := idleOut s c }) ∧
    (activityChange s c).funcs = u.funcs ∧ (activityChange s c).pkts = u.pkts ∧ (activityChange s c).pol = u.pol ∧
    pageCells .lane (activityChange s c).regs = pageCells .lane u.regs := by
  obtain ⟨u, hu, hact⟩ := activityChange_eq s c
  refine ⟨u, hu, ?_⟩
  rcases hact _ rfl with h | h <;> rw [h]
  · exact ⟨rfl, rfl, rfl, rfl, rfl⟩
  · simp [cite @chanEvt_keeps, cite @modChan_keeps, modChan]

/-- A channel at its timeout: it fails NO_ACTIVITY, and drops what it has. -/
theorem actTimeout_fails {s : State} (hs : Shaped s) {c : Nat} (hc : c < 12) (hidle : idleOut s c = false) :
    ∃ t, exec (.actTimeout c) s = .next t ∧
      (chanOf t c).idle = actTimeout s c ∧ (failBits t c).getD 2 false = true ∧
      ((chanOf s c).bare = false → (chanOf t c).wins = [] ∧ (chanOf t c).lastOk = none ∧
        (c < 10 → (funcOf t c).pred = none ∧ ∀ n, laneFor s c = some n → get1 t LANE.STATUS_NO_BASE n = 1) ∧
        (10 ≤ c → (pktOf t (c - 10)).base = false)) := by
  have hlen : c < s.chans.length := hs.chans ▸ hc
  have hact : exec (.actTimeout c) s = .next (activityChange (modChan s c fun u => { u with idle := actTimeout s c }) c) := by
    simp [exec, execActTimeout, hc, hidle]
  refine ⟨_, hact, ?_⟩
  obtain ⟨v, hv⟩ : ∃ v, v = modChan s c fun u => { u with idle := actTimeout s c } := ⟨_, rfl⟩
  have hchan : chanOf v c = { chanOf s c with idle := actTimeout s c } := by rw [hv, chanOf_modChan hlen]
  have hpol : v.pol = s.pol := by rw [hv]; rfl
  have hlen' : c < v.chans.length := by simpa [hv, modChan] using hlen
  have hout : idleOut v c = true := by simp [idleOut, hchan, actTimeout, hpol]
  rw [← hv]
  obtain ⟨u, hu, hchans, hfuncs, hpkts, hpol', hlane⟩ := activityChange_shows v c
  rw [hout, Bool.true_and] at hu
  have hshape : Shaped v := by
    subst hv
    exact { hs with chans := by simpa [modChan] using hs.chans }
  have hu' : chanOf u c = chanOf v c ∨ chanOf u c = bareChan (chanOf v c) := by
    rw [hu]
    split
    · exact .inr (dropBaseline_chan hlen')
    · exact .inl rfl
  have hulen : c < u.chans.length := by
    rw [hu]
    split
    · rwa [dropBaseline_length]
    · exact hlen'
  have ht : chanOf (activityChange v c) c = { chanOf u c with quiet := (chanOf v c).dead || true, bare := true } := by
    unfold chanOf
    rw [hchans, getD_modify_self hulen, hout]
    rfl
  have hidle' : (chanOf (activityChange v c) c).idle = actTimeout s c := by
    rw [ht]
    rcases hu' with h | h <;> simp [h, hchan, bareChan]
  have hupol : u.pol = s.pol := by
    rw [hu]
    split <;> simp [cite @dropBaseline_keeps, hpol]
  refine ⟨hidle', ?_, fun hbare => ?_⟩
  · simp [failBits, idleOut, hidle', actTimeout, hpol', hupol]
  · rw [hchan, hbare] at hu
    replace hu : u = dropBaseline v c := hu
    have hdrop : chanOf u c = bareChan (chanOf v c) := hu ▸ dropBaseline_chan hlen'
    refine ⟨by rw [ht, hdrop]; rfl, by rw [ht, hdrop]; rfl, fun h10 => ?_, fun h10 => ?_⟩
    · obtain ⟨hpred, hbase⟩ := dropBaseline_measured hshape h10
      refine ⟨?_, fun n hn => ?_⟩
      · unfold funcOf at *
        rw [hfuncs, hu, hpred]
      · refine (getF_of_page LANE.STATUS_NO_BASE hlane hpol' n 0 0).trans ?_
        rw [hu]
        exact hbase n (by rwa [laneFor_congr (s := s) (by rw [hv]; rfl)])
    · unfold pktOf
      rw [hpkts, hu]
      exact dropBaseline_packet hshape hc h10

/-! ### QL timeouts (R252) -/

/-- A QL timeout: the rank is 0, and the change is counted. -/
theorem qlTimeout_shows {s : State} (hs : Shaped s) {c : Nat} (hc : c < 12) (hsrc : qlSrc s c ≠ 0) (hlive : (chanOf s c).timedOut = false) :
    ∃ t, exec (.qlTimeout c) s = .next t ∧ (chanOf t c).rank = 0 ∧ (chanOf t c).timedOut = true ∧ (chanOf t c).qlLeft = none ∧
      get1 t SEL.QL_CHG_CNT 0 = satTo cntMax (get1 s SEL.QL_CHG_CNT 0 + 1) := by
  have hact : exec (.qlTimeout c) s = .next (publishQl (qlExpire s c) c) := by simp [exec, execQlTimeout, hc, hsrc, hlive]
  have hchan : chanOf (publishQl (qlExpire s c) c) c = { chanOf s c with rank := 0, timedOut := true, qlLeft := none } := by
    refine Eq.trans ?_ (chanOf_modChan (hs.chans ▸ hc : c < s.chans.length) fun u => { u with rank := 0, timedOut := true, qlLeft := none })
    simp [chanOf, publishQl, qlExpire, qlChange, cite @setF_keeps, cite @chanEvt_keeps, cite @journalPg_keeps, cite @addCnt_keeps]
  refine ⟨_, hact, by rw [hchan], by rw [hchan], by rw [hchan], ?_⟩
  have hcnt : get1 (publishQl (qlExpire s c) c) SEL.QL_CHG_CNT 0 = get1 (qlExpire s c) SEL.QL_CHG_CNT 0 := by
    interval_cases c <;> simp (disch := decide) [publishQl, get1]
  rw [hcnt]
  unfold qlExpire qlChange
  dsimp only
  rw [if_neg (by simp)]
  refine (getF_of_page (s := addCnt (modChan s c fun u => { u with rank := 0, timedOut := true, qlLeft := none }) SEL.QL_CHG_CNT 0 0 1)
    SEL.QL_CHG_CNT (by simp [SEL.QL_CHG_CNT]) (by simp [cite @chanEvt_keeps, cite @journalPg_keeps]) 0 0 0).trans ?_
  simp (disch := decide) [get1]

/-! ### Windows (R257) -/

/-- What the close of a channel's window leaves of its sums. -/
structure WindowClosed (s : State) (c : Nat) (t : State) : Prop where
  sum : (chanOf t c).sum = 0
  valid : (chanOf t c).valid = 0
  held : (chanOf t c).held = 0
  overs : (chanOf t c).overs = 0
  wins : (chanOf t c).wins = trimWins ((chanOf s c).wins ++ [⟨s.frn - s.frn % 1024, (chanOf s c).sum, (chanOf s c).valid, winKind (chanOf s c)⟩])

theorem windowClose_chans (s : State) (c : Nat) : ∃ g, (windowClose s c).chans = s.chans.modify c g ∧ ∀ x,
    (g x).sum = 0 ∧ (g x).valid = 0 ∧ (g x).held = 0 ∧ (g x).overs = 0 ∧
      (g x).wins = trimWins ((chanOf s c).wins ++ [⟨s.frn - s.frn % 1024, (chanOf s c).sum, (chanOf s c).valid, winKind (chanOf s c)⟩]) := by
  unfold windowClose
  dsimp only
  (repeat' split) <;> exact ⟨_, by simp only [cite @setF_keeps, modChan]; rfl, fun x => ⟨rfl, rfl, rfl, rfl, rfl⟩⟩

theorem windowClose_closes {s : State} {c : Nat} (hc : c < s.chans.length) : WindowClosed s c (windowClose s c) := by
  obtain ⟨g, hg, hx⟩ := windowClose_chans s c
  have hchan : chanOf (windowClose s c) c = g (chanOf s c) := by
    unfold chanOf
    rw [hg, getD_modify_self hc]
  obtain ⟨h1, h2, h3, h4, h5⟩ := hx (chanOf s c)
  exact ⟨by rw [hchan, h1], by rw [hchan, h2], by rw [hchan, h3], by rw [hchan, h4], by rw [hchan, h5]⟩

/-- The close of one channel's window leaves the others. -/
theorem windowClose_other {s : State} {c m : Nat} (h : m ≠ c) : chanOf (windowClose s c) m = chanOf s m := by
  obtain ⟨g, hg, -⟩ := windowClose_chans s c
  unfold chanOf
  rw [hg, getD_modify_ne h]

theorem windowClose_frn (s : State) (c : Nat) : (windowClose s c).frn = s.frn := by simp [cite @windowClose_keeps]

theorem windowClose_length (s : State) (c : Nat) : (windowClose s c).chans.length = s.chans.length := by
  obtain ⟨g, hg, -⟩ := windowClose_chans s c
  rw [hg, List.length_modify]

theorem WindowClosed.of_chan {s s' t t' : State} {c : Nat} (h : WindowClosed s c t) (hs : chanOf s' c = chanOf s c) (hf : s'.frn = s.frn)
    (ht : chanOf t' c = chanOf t c) : WindowClosed s' c t' := by
  obtain ⟨h1, h2, h3, h4, h5⟩ := h
  exact ⟨ht ▸ h1, ht ▸ h2, ht ▸ h3, ht ▸ h4, by rw [ht, hs, hf, h5]⟩

/-- The windows of distinct channels close one after the other. -/
theorem windowCloses {l : List Nat} (hl : l.Nodup) {s : State} (hlt : ∀ c ∈ l, c < s.chans.length) :
    ∀ c, (c ∈ l → WindowClosed s c (l.foldl windowClose s)) ∧ (c ∉ l → chanOf (l.foldl windowClose s) c = chanOf s c) := by
  induction l generalizing s with
  | nil => exact fun c => ⟨fun h => absurd h List.not_mem_nil, fun _ => rfl⟩
  | cons x l ih =>
    obtain ⟨hx, hl⟩ := List.nodup_cons.mp hl
    have hrest := ih hl (s := windowClose s x) fun c hc => windowClose_length s x ▸ hlt c (List.mem_cons_of_mem _ hc)
    intro c
    refine ⟨fun hc => ?_, fun hc => ?_⟩
    · by_cases e : c = x
      · subst e
        exact (windowClose_closes (hlt c List.mem_cons_self)).of_chan rfl rfl ((hrest c).2 hx)
      · have hmem : c ∈ l := (List.mem_cons.mp hc).resolve_left e
        exact ((hrest c).1 hmem).of_chan (windowClose_other e).symm (windowClose_frn s x).symm rfl
    · rw [List.mem_cons, not_or] at hc
      exact ((hrest c).2 hc.2).trans (windowClose_other hc.1)

/-- Settles O23: the two timeouts, and the fold that closes every window. -/
theorem channelQualifier : Obligations.ChannelQualifier := by
  intro s hs
  refine ⟨fun c hc hidle => actTimeout_fails hs hc hidle, fun c hc hidle => ?_, fun c hc hsrc hlive => qlTimeout_shows hs hc hsrc hlive,
    fun c hc h => ?_, fun hrun hlast hwin => ?_⟩
  · simp [exec, execActTimeout, hc, hidle]
  · rcases h with h | h <;> simp [exec, execQlTimeout, hc, h]
  · have hnone : (s.chans.any fun u => u.wins.any fun w => decide (w.opened = s.frn - s.frn % 1024)) = false := by
      rw [List.any_eq_false]
      intro u hu
      obtain ⟨c, hc, rfl⟩ := List.getElem_of_mem hu
      have hmem := hwin c (hs.chans ▸ hc)
      unfold chanOf at hmem
      rw [List.getD_eq_getElem?_getD, List.getElem?_eq_getElem hc, Option.getD_some] at hmem
      simpa using hmem
    have hact : exec .qualifierWindowClose s = .next ((List.range 12).foldl windowClose s) := if_pos ⟨hlast, hrun, by rw [hnone]; rfl⟩
    refine ⟨_, hact, fun c hc => ?_⟩
    obtain ⟨h1, h2, h3, h4, h5⟩ := (windowCloses List.nodup_range (fun x hx => hs.chans ▸ List.mem_range.mp hx) c).1 (List.mem_range.mpr hc)
    exact ⟨h1, h2, h3, h4, h5⟩

/-! ### Overdrive (R180, R181) -/

/-- The fields by which a lane shows its overdrive. -/
def drivenFlds : List Fld := [LANE.STATUS_OVERDRIVE, LANE.STATUS_NO_BASE]

theorem suspectOnset_kept (s : State) (g : Nat) : Keeps drivenFlds s (suspectOnset s g) := by
  have hlane : Keeps drivenFlds s (laneSuspect (modFunc s g fun u => { u with suspect := 3 }) g (decide (0 < (funcOf s g).suspect))) := by
    refine (Keeps.of_units (s := s) (t := modFunc s g fun u => { u with suspect := 3 }) rfl rfl).trans ?_
    unfold laneSuspect
    split
    · exact .refl _ _
    · exact (Keeps.set1 (by decide) _ _ _).trans (.evtIf (by decide) ..)
  unfold suspectOnset
  dsimp only
  split
  · exact hlane
  · exact hlane.trans (.chanEvt (by decide) ..)

theorem suspectOnset_func (s : State) (g : Nat) : (suspectOnset s g).funcs = s.funcs.modify g fun u => { u with suspect := 3 } := by
  unfold suspectOnset
  dsimp only
  split <;> simp [cite @laneSuspect_keeps, cite @chanEvt_keeps, modFunc]

/-- The pads beside a pad are other pads. -/
theorem padNeighbours_ne {pad g : Nat} (hpad : pad < 8) (h : g ∈ padNeighbours pad) : g ≠ pad ∧ g < 8 := by
  revert g
  interval_cases pad <;> decide

theorem onsets_func (s : State) (l : List Nat) {m : Nat} (h : m ∉ l) : funcOf (l.foldl suspectOnset s) m = funcOf s m := by
  induction l generalizing s with
  | nil => rfl
  | cons g l ih =>
    rw [List.mem_cons, not_or] at h
    rw [List.foldl_cons, ih _ h.2]
    unfold funcOf
    rw [suspectOnset_func, getD_modify_ne h.1]

theorem onsets_suspect {s : State} {l : List Nat} (hl : ∀ g ∈ l, g < s.funcs.length) : ∀ g ∈ l, (funcOf (l.foldl suspectOnset s) g).suspect = 3 := by
  induction l generalizing s with
  | nil => exact fun g hg => absurd hg List.not_mem_nil
  | cons x l ih =>
    have hlen : ∀ g ∈ l, g < (suspectOnset s x).funcs.length := fun g hg => by
      simpa [suspectOnset_func] using hl g (List.mem_cons_of_mem _ hg)
    intro g hg
    by_cases hin : g ∈ l
    · exact ih hlen g hin
    · obtain rfl : g = x := (List.mem_cons.mp hg).resolve_right hin
      rw [List.foldl_cons, onsets_func _ _ hin]
      unfold funcOf
      rw [suspectOnset_func, getD_modify_self (hl g hg)]

/-- The state of an onset before the pads beside it become SUSPECT. -/
def drivenPad (s : State) (f : Nat) : State :=
  laneDriven (modChan (modFunc (baseLost s f) f fun u => { u with driven := true }) f fun c => { c with odStart := true }) f

theorem overdriveOnset_eq (s : State) (f : Nat) : ∃ dat, overdriveOnset s f =
    chanEvt (journalPg ((padNeighbours f).foldl suspectOnset (drivenPad s f)) 0x021 (funcPart s f) .lane ((laneFor s f).getD f) dat) f 4 := ⟨_, rfl⟩

theorem drivenPad_func {s : State} {f : Nat} (hf : f < s.funcs.length) : (funcOf (drivenPad s f) f).driven = true ∧ (funcOf (drivenPad s f) f).pred = none ∧
    (drivenPad s f).funcs.length = s.funcs.length := by
  have hfuncs : (drivenPad s f).funcs = (s.funcs.modify f fun u => { u with pred := none, next := none, phi := 0 }).modify f fun u =>
      { u with driven := true } := by
    simp [drivenPad, cite @laneDriven_keeps, cite @modChan_keeps, modFunc, baseLost]
  unfold funcOf
  rw [hfuncs, getD_modify_self (by simpa using hf), getD_modify_self hf]
  simp

/-- The lane that measures an overdriven pad. -/
theorem drivenPad_lane {s : State} (hs : Shaped s) {f n : Nat} (hn : laneFor s f = some n) :
    get1 (drivenPad s f) LANE.STATUS_OVERDRIVE n = 1 ∧ get1 (drivenPad s f) LANE.STATUS_NO_BASE n = 1 ∧
      (laneOf (drivenPad s f) n).host = {} ∧ Raised (drivenPad s f) .lane n 1 := by
  obtain ⟨u, hu⟩ : ∃ u, u = modChan (modFunc (baseLost s f) f fun u => { u with driven := true }) f fun c => { c with odStart := true } := ⟨_, rfl⟩
  have hlanes : u.lanes = s.lanes := by rw [hu]; rfl
  have hlt : n < u.lanes.length := by
    rw [hlanes, hs.lanes]
    exact List.mem_range.mp (List.mem_of_find?_eq_some hn)
  have heq : drivenPad s f = evt (set1 (set1 (modLane u n fun l => { l with host := {}, inc := {} }) LANE.STATUS_OVERDRIVE n 1) LANE.STATUS_NO_BASE n 1)
      .lane n 1 := by
    unfold drivenPad laneDriven
    rw [← hu, laneFor_congr hlanes, hn]
  rw [heq]
  refine ⟨?_, ?_, ?_, raised_evt (by decide) ..⟩
  · simp (disch := decide) [get1, set1]
  · simp (disch := decide) [get1, set1]
  · have hl : ∀ v : State, laneOf (evt (set1 (set1 v LANE.STATUS_OVERDRIVE n 1) LANE.STATUS_NO_BASE n 1) .lane n 1) n = laneOf v n := fun v => by
      simp [laneOf, cite @evt_keeps, cite @set1_keeps]
    rw [hl, laneOf_modLane hlt]

theorem padOverdrive_shows {s : State} (hs : Shaped s) {pad : Nat} (hpad : pad < 8) (hoff : (funcOf s pad).driven = false) :
    ∃ t, exec (.padOverdrive pad) s = .next t ∧
      (funcOf t pad).driven = true ∧ (funcOf t pad).pred = none ∧ (∀ g ∈ padNeighbours pad, (funcOf t g).suspect = 3) ∧
      ∀ n, laneFor s pad = some n → get1 t LANE.STATUS_OVERDRIVE n = 1 ∧ get1 t LANE.STATUS_NO_BASE n = 1 ∧
        (laneOf t n).host = {} ∧ Raised t .lane n 1 := by
  refine ⟨overdriveOnset s pad, by simp [exec, execPadOverdrive, hpad, hoff], ?_⟩
  obtain ⟨dat, heq⟩ := overdriveOnset_eq s pad
  have hlen : pad < s.funcs.length := by
    rw [hs.funcs]
    omega
  obtain ⟨hdriven, hpred, hflen⟩ := drivenPad_func hlen
  have hfunc : ∀ m, funcOf (overdriveOnset s pad) m = funcOf ((padNeighbours pad).foldl suspectOnset (drivenPad s pad)) m := fun m => by
    rw [heq]
    simp [funcOf, cite @chanEvt_keeps, cite @journalPg_keeps]
  have hlane : ∀ m, laneOf (overdriveOnset s pad) m = laneOf (drivenPad s pad) m := fun m => by
    rw [heq]
    simp [laneOf, cite @chanEvt_keeps, cite @journalPg_keeps, cite @suspectOnset_keeps, cite @foldl_state]
  have hkept : Keeps drivenFlds (drivenPad s pad) (overdriveOnset s pad) := by
    rw [heq]
    exact ((Keeps.foldl suspectOnset_kept _ _).trans (.journalPg (by decide) ..)).trans (.chanEvt (by decide) ..)
  have hself : pad ∉ padNeighbours pad := fun h => (padNeighbours_ne hpad h).1 rfl
  refine ⟨?_, ?_, fun g hg => ?_, fun n hn => ?_⟩
  · rw [hfunc, onsets_func _ _ hself, hdriven]
  · rw [hfunc, onsets_func _ _ hself, hpred]
  · rw [hfunc]
    refine onsets_suspect (fun x hx => ?_) g hg
    rw [hflen, hs.funcs]
    have := (padNeighbours_ne hpad hx).2
    omega
  · obtain ⟨hod, hnb, hhost, hraised⟩ := drivenPad_lane hs hn
    exact ⟨(hkept.reads _ (by decide) n).trans hod, (hkept.reads _ (by decide) n).trans hnb, by rw [hlane, hhost],
      hkept.raised _ _ _ (by decide) (by decide) hraised⟩

/-- A change of functions and of the cells listed. -/
theorem onlyCells_of_onlyRegsFuncs {ks : List Nat} {s t : State} (h : OnlyRegsFuncs s t) (hc : CellsElse ks s t) :
    OnlyCells ks { s with funcs := t.funcs } t := by
  refine ⟨?_, hc⟩
  cases t
  simpa [OnlyRegsFuncs] using h

/-- The last frame of a pad's SUSPECT. -/
theorem suspectTick_ends {s : State} (hs : Shaped s) {pad : Nat} (hpad : pad < 8) (h : (funcOf s pad).suspect = 1) :
    (funcOf (suspectTick s pad) pad).suspect = 0 ∧ ∀ n, laneFor s pad = some n → get1 (suspectTick s pad) LANE.STATUS_SUSPECT n = 0 ∧
      OnlyCells [fldKey LANE.STATUS_SUSPECT n 0 0] { s with funcs := (suspectTick s pad).funcs } (suspectTick s pad) := by
  obtain ⟨u, hu⟩ : ∃ u, u = modFunc s pad fun x => { x with suspect := (funcOf s pad).suspect - 1 } := ⟨_, rfl⟩
  have hfunc : (funcOf u pad).suspect = 0 := by
    rw [hu, funcOf_modFunc (by rw [hs.funcs]; omega)]
    simp [h]
  have hlane : laneFor u = laneFor s := laneFor_congr (by rw [hu]; rfl)
  have honly := suspectTick_keeps s pad
  cases hl : laneFor s pad with
  | none =>
    have htick : suspectTick s pad = u := by
      unfold suspectTick
      dsimp only
      rw [if_pos h, ← hu, hlane, hl]
    exact ⟨by rw [htick, hfunc], fun n hn => by cases hn⟩
  | some n =>
    have htick : suspectTick s pad = set1 u LANE.STATUS_SUSPECT n 0 := by
      unfold suspectTick
      dsimp only
      rw [if_pos h, ← hu, hlane, hl]
    rw [htick] at honly ⊢
    refine ⟨by simpa [funcOf, cite @set1_keeps] using hfunc, fun m hm => ?_⟩
    cases hm
    refine ⟨getF_setF_fits (by decide) (by decide) .., onlyCells_of_onlyRegsFuncs honly ?_⟩
    refine CellsElse.after_set1 (fun k _ => ?_) (by simp) 0
    rw [hu]
    rfl

theorem spareCalEnd_shows (s : State) (n : Nat) : get1 (spareCalEnd s n) LANE.STATUS_SPARE_CAL n = 0 ∧ get1 (spareCalEnd s n) LANE.HEALTH_CAL_LEFT n = 0 ∧
    Raised (spareCalEnd s n) .lane n 4 ∧
    OnlyCells (cells [(LANE.STATUS_SPARE_CAL, n), (LANE.HEALTH_CAL_LEFT, n)] ++ evtCells .lane n) s (spareCalEnd s n) := by
  refine ⟨?_, ?_, raised_evt (by decide) .., onlyCells_of_onlyRegs (spareCalEnd_keeps s n) ?_⟩
  · simp (disch := decide) [spareCalEnd, get1, set1]
  · simp (disch := decide) [spareCalEnd, get1, set1]
  · exact (((CellsElse.refl _ s).after_set1 (by simp [cells]) 0).after_set1 (by simp [cells]) 0).after_evt (fun _ => List.mem_append_right _) 4

/-- Settles O22: the onset and the last frame of SUSPECT at a pad, and the end of a new lane's calibration. -/
theorem padsAndSpares : Obligations.PadsAndSpares := by
  refine fun s hs => ⟨fun pad hpad hoff => padOverdrive_shows hs hpad hoff, fun pad hpad h => ?_, fun n hn hspare hleft => ?_⟩
  · exact ⟨suspectTick s pad, by simp [exec, execSuspectEnd, hpad, h], suspectTick_ends hs hpad h⟩
  · exact ⟨spareCalEnd s n, by simp [exec, execSpareCalDone, hn, bit1, hspare, hleft], spareCalEnd_shows s n⟩

/-! ### Calibration (R165, R166, R168) -/

/-- The fields by which a lane shows its fault. -/
def faultFlds : List Fld := [LANE.STATUS_FAULT, LANE.HEALTH_CODE, LANE.HEALTH_FAULT_FRN]

theorem bareLane_kept (s : State) (n : Nat) : Keeps faultFlds s (bareLane s n) :=
  (((Keeps.refl _ s).after_set1 (by decide)).after_set1 (by decide)).after_set1 (by decide)

theorem noSamples_kept (s : State) (n k : Nat) : Keeps faultFlds s (noSamples s n k) :=
  ((((((Keeps.refl _ s).after_set1 (by decide)).after_set1 (by decide)).after_set1 (by decide)).after_set1 (by decide)).after_set1
    (by decide)).after_set1 (by decide)

theorem withhold_kept (s : State) (f n : Nat) : Keeps faultFlds s (withhold s f n) :=
  Keeps.trans (Keeps.of_units (s := s) (t := modFunc s f _) rfl rfl) (noSamples_kept _ n _)

theorem journalMove_kept (s : State) (f old new : Nat) : Keeps faultFlds s (journalMove s f old new) := .journalPg (by decide) ..

theorem degraded_kept (s : State) : Keeps faultFlds s (degraded s) := .evt (by decide) ..

theorem baseLost_kept (s : State) (f : Nat) : Keeps faultFlds s (baseLost s f) := .modFunc _ s f _

theorem startLane_kept (s : State) (n f : Nat) : Keeps faultFlds s (startLane s n f) := by
  unfold startLane
  dsimp only
  refine Keeps.trans (((Keeps.trans ?_ (bareLane_kept _ n)).after_set1 (by decide)).after_set1 (by decide)) ((baseLost_kept _ f).trans (.modFunc _ _ f _))
  exact ((Keeps.modLane _ s n _).after_set1 (by decide)).after_set1 (by decide)

theorem loseLane_kept (s : State) (f old : Nat) : Keeps faultFlds s (loseLane s f old) := by
  have hfirst : Keeps faultFlds s (baseLost (modLane s old fun l => if l.func = some f then { l with func := none } else l) f) :=
    .of_units rfl rfl
  have hmoved := (hfirst.trans (bareLane_kept _ old)).trans (journalMove_kept _ f old 0x1F)
  unfold loseLane
  dsimp only
  refine .ite ((hmoved.trans (.chanEvt (by decide) ..)).trans (degraded_kept _)) (.ite ?_ (.ite ?_ hmoved))
  · exact (hmoved.after_set1 (by decide)).trans (degraded_kept _)
  · exact (hmoved.after_set1 (by decide)).trans (degraded_kept _)

theorem moveFunc_kept (s : State) (f old : Nat) : Keeps faultFlds s (moveFunc s f old) := by
  have hgive : ∀ (t : State) n, Keeps faultFlds t (journalMove (startLane (bareLane (modLane t old fun l => { l with func := none }) old) n f) f old n) :=
    fun t n => (((Keeps.of_units (s := t) (t := modLane t old fun l => { l with func := none }) rfl rfl).trans (bareLane_kept _ old)).trans
      (startLane_kept _ n f)).trans (journalMove_kept _ f old n)
  have hgiven : ∀ (t : State) n, Keeps faultFlds t (if f < 10 then chanEvt (journalMove (startLane (bareLane (modLane t old fun l =>
      { l with func := none }) old) n f) f old n) f 5 else journalMove (startLane (bareLane (modLane t old fun l => { l with func := none }) old) n f) f old n) :=
    fun t n => .ite ((hgive t n).trans (.chanEvt (by decide) ..)) (hgive t n)
  unfold moveFunc
  dsimp only
  refine .ite (hgiven s 16) (.ite (hgiven s 17) (.ite (loseLane_kept s f old) ?_))
  split
  · exact loseLane_kept s f old
  · next c _ =>
    refine .ite (loseLane_kept s f old) ?_
    split
    · exact .refl _ s
    · next n _ => exact (loseLane_kept s c n).trans (hgiven _ n)

theorem moveIfBad_kept (bad : List (Nat × Nat)) (s : State) (f : Nat) : Keeps faultFlds s (moveIfBad bad s f) := by
  unfold moveIfBad
  split
  · exact .refl _ s
  · exact .ite ((withhold_kept s f _).trans (moveFunc_kept _ f _)) (.refl _ s)

theorem bridgeStart_kept (s : State) (d : Nat) (lane apll : Bool) : Keeps faultFlds s (bridgeStart s d lane apll) := by
  unfold bridgeStart
  dsimp only
  exact .ite (.modDom _ s d _) ((((Keeps.modDom _ s d _).after_set1 (by decide)).after_evt (by decide)).after_addCnt (by decide))

theorem laneSorted_kept (s t : State) : Keeps faultFlds t (laneSorted s t) := .of_units rfl rfl

theorem bridgeMoved_kept (s : State) : Keeps faultFlds s (bridgeMoved s) :=
  .foldl (fun t d => .ite (bridgeStart_kept t d true false) (.refl _ t)) _ s

/-- A lane's fault is shown from its finding on. -/
structure ShowsFault (s : State) (n code : Nat) (t : State) : Prop where
  fault : get1 t LANE.STATUS_FAULT n = 1
  code : get1 t LANE.HEALTH_CODE n = code
  frn : get1 t LANE.HEALTH_FAULT_FRN n = s.frn % 2 ^ 16
  lane : Raised t .lane n 0
  sys : Raised t .sys 0 0

theorem ShowsFault.kept {s t u : State} {n code : Nat} (h : ShowsFault s n code t) (hk : Keeps faultFlds t u) : ShowsFault s n code u where
  fault := (hk.reads _ (by decide) n).trans h.fault
  code := (hk.reads _ (by decide) n).trans h.code
  frn := (hk.reads _ (by decide) n).trans h.frn
  lane := hk.raised _ _ _ (by decide) (by decide) h.lane
  sys := hk.raised _ _ _ (by decide) (by decide) h.sys

theorem laneFault_shows {s : State} {n code : Nat} (hok : laneFaulted s n = false) (hcode : code < 8) : ShowsFault s n code (laneFault s n code) := by
  have hfits : code % 2 ^ LANE.HEALTH_CODE.width = code := Nat.mod_eq_of_lt hcode
  unfold laneFault
  rw [hok, if_neg Bool.false_ne_true]
  dsimp only
  refine ⟨?_, ?_, ?_, (raised_evt (by decide) ..).evt_any (by decide) (by decide) .., raised_evt (by decide) ..⟩
  · simp (disch := decide) [get1, set1, getF_evt_low]
  · simp (disch := decide) [get1, set1, getF_evt_low, getF_setF_same, hfits]
  · simp (disch := decide) [get1, set1, getF_evt_low, getF_setF_same]
    rfl

theorem moveFaulted_one (s : State) (n code : Nat) :
    moveFaulted s [(n, code)] = laneSorted s (moveOrder.foldl (moveIfBad [(n, code)]) (laneFault s n code)) := rfl

/-- A fault found in a lane that had none is shown when its functions have moved and its domain bridges. -/
theorem laneFault_moved {s : State} {n code : Nat} (hok : laneFaulted s n = false) (hcode : code < 8) :
    ShowsFault s n code (bridgeMoved (moveFaulted s [(n, code)])) := by
  rw [moveFaulted_one]
  have hmoves := (Keeps.foldl (moveIfBad_kept [(n, code)]) moveOrder (laneFault s n code))
  exact (laneFault_shows hok hcode).kept ((hmoves.trans (laneSorted_kept s _)).trans (bridgeMoved_kept _))

theorem exec_laneCalibration_ok {s u : State} {n : Nat} {r : Option Int} {bad : Bool} (hn : n < 18) (hcal : calibrates s n = true)
    (hres : calibrate s n r bad = (u, none)) : exec (.laneCalibration ⟨n, r, bad⟩) s = .next u := by
  simp [exec, execLaneCalibration, hn, hcal, hres]

theorem exec_laneCalibration_fault {s u : State} {n k : Nat} {r : Option Int} {bad : Bool} (hn : n < 18) (hcal : calibrates s n = true)
    (hres : calibrate s n r bad = (u, some k)) : exec (.laneCalibration ⟨n, r, bad⟩) s = .next (bridgeMoved (moveFaulted u [(n, k)])) := by
  simp [exec, execLaneCalibration, hn, hcal, hres]

/-- The value against which a lane's pair is held. -/
def calStored (s : State) (n : Nat) (v : Int) : Int := if (laneOf s n).known then (laneOf s n).stored else v

/-- A lane whose calibration pair was timed. -/
def calTimed (s : State) (n : Nat) (v : Int) : State :=
  modLane (set1 s LANE.CAL_DEV n (satSigned 16 (v - calStored s n v))) n fun x => { x with stored := calStored s n v, known := true, first := false }

theorem calibrate_some (s : State) (n : Nat) (v : Int) (bad : Bool) : calibrate s n (some v) bad =
    if bad then (calTimed s n v, some 3)
    else if v - calStored s n v > 16 ∨ v - calStored s n v < -16 then (calTimed s n v, some 1)
    else (modLane (calTimed s n v) n fun x => { x with corr := v - calStored s n v }, none) := rfl

theorem calTimed_kept (s : State) (n : Nat) (v : Int) : laneFaulted (calTimed s n v) n = laneFaulted s n ∧ (calTimed s n v).frn = s.frn :=
  ⟨congrArg (· == 1) (getF_setF_place (f := LANE.CAL_DEV) (g := LANE.STATUS_FAULT) rfl (by decide) s n _), by
    simp [calTimed, cite @modLane_keeps, cite @set1_keeps]⟩

/-- A pair within 16 LSB of the stored value becomes the correction. -/
theorem calTimed_corrects {s : State} {n : Nat} (hn : n < s.lanes.length) (v : Int) :
    let t := modLane (calTimed s n v) n fun x => { x with corr := v - calStored s n v }
    (laneOf t n).corr = v - calStored s n v ∧ (laneOf t n).stored = calStored s n v ∧
      get1 t LANE.CAL_DEV n = satSigned 16 (v - calStored s n v) ∧ OnlyCells [fldKey LANE.CAL_DEV n 0 0] { s with lanes := t.lanes } t := by
  have hlen : n < (calTimed s n v).lanes.length := by simpa [calTimed, modLane, cite @set1_keeps] using hn
  have hlane : laneOf (calTimed s n v) n = _ := laneOf_modLane (by simpa [cite @set1_keeps] using hn) _
  dsimp only
  rw [laneOf_modLane hlen, hlane]
  refine ⟨rfl, rfl, ?_, rfl, ?_⟩
  · refine (getF_setF_same s LANE.CAL_DEV n 0 0 _ (by decide)).trans (Nat.mod_eq_of_lt ?_)
    unfold satSigned ofSigned
    have hpos : (0 : Int) < 2 ^ 16 := by decide
    exact (Int.toNat_lt_of_ne_zero (by decide)).mpr (Int.emod_lt_of_pos _ hpos)
  · exact (setF_onlyCells s LANE.CAL_DEV n 0 0 _).2

theorem calibration_faults {s u : State} {n k : Nat} {r : Option Int} {bad : Bool} (hn : n < 18) (hcal : calibrates s n = true)
    (hres : calibrate s n r bad = (u, some k)) (hk : k < 8) (hu : laneFaulted u n = laneFaulted s n) (hf : u.frn = s.frn) :
    ∃ t, exec (.laneCalibration ⟨n, r, bad⟩) s = .next t ∧ get1 t LANE.STATUS_FAULT n = 1 ∧ get1 t LANE.HEALTH_CODE n = k ∧
      get1 t LANE.HEALTH_FAULT_FRN n = s.frn % 2 ^ 16 ∧ Raised t .lane n 0 ∧ Raised t .sys 0 0 := by
  have hok : laneFaulted s n = false := by
    simp only [calibrates, Bool.and_eq_true, Bool.not_eq_true'] at hcal
    exact hcal.1
  obtain ⟨h1, h2, h3, h4, h5⟩ := laneFault_moved (hu.trans hok) hk
  exact ⟨_, exec_laneCalibration_fault hn hcal hres, h1, h2, hf ▸ h3, h4, h5⟩

/-- Settles O21: a pair that is out of its range, or none, is a fault of the lane. -/
theorem laneCalibration : Obligations.LaneCalibration := by
  intro s n v bad hs hn
  have hst : (if (laneOf s n).known then (laneOf s n).stored else v) = calStored s n v := rfl
  dsimp only
  rw [hst]
  obtain ⟨hu, hf⟩ := calTimed_kept s n v
  refine ⟨fun hcal r => ?_, fun hcal hb hlo hhi => ?_, fun hcal hout => ?_, fun hcal => ?_⟩
  · simp [exec, execLaneCalibration, hn, hcal]
  · have hres : calibrate s n (some v) bad = (modLane (calTimed s n v) n fun x => { x with corr := v - calStored s n v }, none) := by
      rw [calibrate_some, hb, if_neg (by decide), if_neg (by omega)]
    exact ⟨_, exec_laneCalibration_ok hn hcal hres, calTimed_corrects (hs.lanes ▸ hn) v⟩
  · have hres : calibrate s n (some v) bad = (calTimed s n v, some (if bad then 3 else 1)) := by
      rw [calibrate_some]
      cases bad with
      | true => rfl
      | false => exact if_pos (by simpa [or_comm] using hout)
    exact calibration_faults hn hcal hres (by split <;> decide) hu hf
  · exact calibration_faults hn hcal (r := none) (u := s) rfl (by split <;> decide) rfl rfl

end Sys2Proof.Machine

/-! The row engine (R192 to R208): an instruction that executes, the rows it opens, adds to and closes. -/

namespace Sys2Proof.Machine

/-! ### One instruction -/

/-- A partition whose program has taken `c` slots for its next instruction. -/
def slotted (s : State) (p c : Nat) : State := modRun (modRun s p fun v => { v with pc := v.pc + 1 }) p fun v => { v with used := v.used + c }

/-- An instruction that executes takes its slots and acts. -/
theorem stepIns_runs {s : State} {p : Nat} {i : Ins} (h : RowRuns s p i) : stepIns s p i = runIns (slotted s p (insCost s i)) p i := by
  obtain ⟨⟨-, -, hended, hover, hskip, hall, hauto⟩, hfault, hquota⟩ := h
  have hquiet : ((insRow i).map fun r => autoClosed s p r).getD false = false := by
    cases hr : insRow i with
    | none => rfl
    | some r => exact hauto r hr
  unfold stepIns
  simp only [hended, hover, hskip, hall, hquiet, hfault, Bool.false_or, Bool.false_and, Bool.false_eq_true, if_false, Nat.lt_irrefl,
    Nat.not_lt.mpr hquota]
  rfl

/-- The row that an executing instruction names was not closed automatically in the frame. -/
theorem RowRuns.notClosed {s : State} {p r : Nat} {i : Ins} (h : RowRuns s p i) (hr : insRow i = some r) : autoClosed s p r = false := by
  obtain ⟨⟨-, -, -, -, -, -, hauto⟩, -, -⟩ := h
  exact hauto r hr

theorem insCommand_runs {s : State} {p : Nat} {i : Ins} (h : RowRuns s p i) : insCommand s p i = runIns (slotted s p (insCost s i)) p i := by
  obtain ⟨hopen, hrun, -⟩ := h.1
  rw [← stepIns_runs h]
  exact if_pos (by simp [hopen, hrun])

section
variable {s : State} (hs : Shaped s) {p : Nat} (hp : p < 4)
include hs hp

theorem slotted_part (c : Nat) : partOf (slotted s p c) p =
    { partOf s p with run := { (partOf s p).run with pc := (partOf s p).run.pc + 1, used := (partOf s p).run.used + c } } := by
  have hlen : p < s.parts.length := hs.parts ▸ hp
  unfold slotted modRun
  rw [partOf_modPart (by simpa [modPart] using hlen), partOf_modPart hlen]

theorem slotted_used (c : Nat) : SlotsUsed s (slotted s p c) p c := by
  unfold SlotsUsed
  rw [slotted_part hs hp]
  exact ⟨rfl, rfl⟩

theorem slotted_auto (c r : Nat) : autoClosed (slotted s p c) p r = autoClosed s p r := by
  unfold autoClosed runRow
  rw [slotted_part hs hp]

end

theorem slotted_state (s : State) (p c : Nat) : slotted s p c = { s with parts := (slotted s p c).parts } := rfl

theorem slotted_shaped {s : State} (hs : Shaped s) (p c : Nat) : Shaped (slotted s p c) :=
  { hs with parts := by simpa [slotted, modRun, modPart] using hs.parts }

/-- A change of a run that keeps its slots. -/
theorem SlotsUsed.modRun {s t : State} {p n : Nat} (h : SlotsUsed s t p n) {f : PRun → PRun} (hf : ∀ u, (f u).used = u.used ∧ (f u).pc = u.pc) :
    SlotsUsed s (modRun t p f) p n := by
  have hkeep : ∀ (g : PRun → Nat), (∀ u, g (f u) = g u) → g (partOf (Machine.modRun t p f) p).run = g (partOf t p).run := fun g hg =>
    getD_modify_keep (g := fun u : PartU => g u.run) (fun u => hg u.run) t.parts p p {}
  obtain ⟨h1, h2⟩ := h
  exact ⟨(hkeep PRun.used fun u => (hf u).1).trans h1, (hkeep PRun.pc fun u => (hf u).2).trans h2⟩

/-! ### Words in the accumulator memory -/

/-- The accumulator memory after words from an address on. -/
def withWords (m : List (Nat × Int)) (base : Nat) (ws : List Int) (n : Nat) : List (Nat × Int) :=
  (List.range n).foldl (fun m i => if ws.getD i 0 = 0 then kvDel m (base + i) else kvSet m (base + i) (ws.getD i 0)) m

theorem withWords_succ (m : List (Nat × Int)) (base : Nat) (ws : List Int) (n : Nat) : withWords m base ws (n + 1) =
    if ws.getD n 0 = 0 then kvDel (withWords m base ws n) (base + n) else kvSet (withWords m base ws n) (base + n) (ws.getD n 0) := by
  simp [withWords, List.range_succ]

theorem kvGet_withWords (m : List (Nat × Int)) (base : Nat) (ws : List Int) (n : Nat) :
    (∀ i, i < n → (kvGet (withWords m base ws n) (base + i)).getD 0 = ws.getD i 0) ∧
      ∀ a, a < base ∨ base + n ≤ a → kvGet (withWords m base ws n) a = kvGet m a := by
  induction n with
  | zero => exact ⟨fun i hi => absurd hi (Nat.not_lt_zero i), fun a _ => rfl⟩
  | succ n ih =>
    obtain ⟨hin, hout⟩ := ih
    have hne : ∀ a, a ≠ base + n → kvGet (withWords m base ws (n + 1)) a = kvGet (withWords m base ws n) a := fun a ha => by
      rw [withWords_succ]
      split
      · exact kvGet_kvDel_ne _ ha
      · exact kvGet_kvSet_ne _ _ ha
    refine ⟨fun i hi => ?_, fun a ha => ?_⟩
    · by_cases e : i = n
      · subst e
        rw [withWords_succ]
        split
        · next h0 => rw [kvGet_kvDel_same, h0]; rfl
        · rw [kvGet_kvSet_same]; rfl
      · rw [hne _ (by omega), hin i (by omega)]
    · rw [hne _ (by omega), hout a (by omega)]

/-! ### OPEN (R199, R201, R202) -/

/-- The row that an OPEN puts. -/
def openRow (s : State) (n pre operand : Nat) : RowU :=
  let fmt := getF s ROWS.DESC_FMT 0 n 0
  let zeros := List.replicate (fmtWords fmt) (0 : Int)
  match pre with
  | 0 => openedRow s n zeros
  | 1 => openedRow s n (toSigned 16 operand :: zeros.tail)
  | 2 => { openedRow s n (wordsUnder fmt (rowOf s operand)) with exp := (rowOf s operand).exp, inf := (rowOf s operand).inf }
  | _ => { openedRow s n (wordsUnder fmt (rowOf s n)) with
      carried := true, exp := (rowOf s n).exp, inf := (rowOf s n).inf, count := (rowOf s n).count,
      openFrn := if (rowOf s n).ever then (rowOf s n).openFrn else s.frn }

theorem execOpn_eq (s : State) (p n pre operand : Nat) (h : pre < 4) : ∃ x, execOpn s p n pre operand =
    setRunRow (putRow s n (openRow s n pre operand)) p n x := by
  unfold execOpn openRow
  interval_cases pre
  · exact ⟨_, rfl⟩
  · exact ⟨_, rfl⟩
  · exact ⟨_, rfl⟩
  · exact ⟨_, rfl⟩

theorem runIns_opn {s : State} {p row : Nat} (h : autoClosed s p row = false) (pre operand : Nat) :
    runIns s p (.opn row pre operand) = execOpn s p row pre operand := if_neg (by simp [h])

/-- A row that is put, with its words, and nothing else but the partition's run. -/
theorem putRow_opened {s u : State} (hs : Shaped s) {p row n : Nat} (hrow : row < 256) (hu : u = { s with parts := u.parts }) (hused : SlotsUsed s u p n)
    (r : RowU) (x : RowRun) : RowOpened s (setRunRow (putRow u row r) p row x) p row n r := by
  have hwords := kvGet_withWords s.accs r.base r.words (fmtWords r.fmt)
  have hrows : (setRunRow (putRow u row r) p row x).rows = s.rows.modify row fun _ => r := by rw [hu]; rfl
  have haccs : (setRunRow (putRow u row r) p row x).accs = withWords s.accs r.base r.words (fmtWords r.fmt) := by rw [hu]; rfl
  have hput : SlotsUsed s (putRow u row r) p n := hused
  refine ⟨?_, fun m hm => ?_, ?_, ?_, hput.modRun fun v => ⟨rfl, rfl⟩, ?_⟩
  · unfold rowOf
    rw [hrows, getD_modify_self (hs.rows ▸ hrow)]
  · unfold rowOf
    rw [hrows, getD_modify_ne hm]
  · rw [haccs]
    exact hwords.1
  · rw [haccs]
    exact hwords.2
  · rw [hu]
    rfl

/-- An OPEN that executes puts its row. -/
theorem insCommand_opens {s : State} (hs : Shaped s) {p row pre operand : Nat} (hp : p < 4) (hrow : row < 256) (hpre : pre < 4)
    (h : RowRuns s p (.opn row pre operand)) :
    RowOpened s (insCommand s p (.opn row pre operand)) p row (if pre = 2 then 2 else 1) (openRow s row pre operand) := by
  have hauto : autoClosed (slotted s p (insCost s (.opn row pre operand))) p row = false :=
    (slotted_auto hs hp _ row).trans (h.notClosed rfl)
  obtain ⟨x, hx⟩ := execOpn_eq (slotted s p (insCost s (.opn row pre operand))) p row pre operand hpre
  rw [insCommand_runs h, runIns_opn hauto, hx]
  exact putRow_opened hs hrow (slotted_state s p _) (slotted_used hs hp _) _ x

theorem toSigned_ofSigned {b : Int} (h1 : -32768 ≤ b) (h2 : b ≤ 32767) : toSigned 16 (ofSigned 16 b) = b := by
  unfold toSigned ofSigned
  omega

/-- Settles O28: each form of OPEN puts the row of its preload. -/
theorem rowOpen : Obligations.RowOpen := by
  intro s p row hs hp hrow
  refine ⟨fun h => ⟨_, if_pos ⟨hp, hrow⟩, insCommand_opens hs hp hrow (by decide) h⟩, fun b h1 h2 h => ?_,
    fun src hsrc h => ⟨_, if_pos ⟨hp, hrow, hsrc⟩, insCommand_opens hs hp hrow (by decide) h⟩,
    fun h => ⟨_, if_pos ⟨hp, hrow⟩, insCommand_opens hs hp hrow (by decide) h⟩⟩
  have hopen := insCommand_opens hs hp hrow (by decide) h
  refine ⟨_, if_pos ⟨hp, hrow, h1, h2⟩, ?_⟩
  simpa [openRow, toSigned_ofSigned h1 h2] using hopen

/-! ### ACC, DIFF and XDIF of one sample (R192 to R194, R208) -/

/-- A SUM row in range after one contribution: its word and its flags. -/
def addedRow (r : RowU) (c : Contrib) (w : Int) : RowU :=
  { r with short := r.short || c.shrt, excl := r.excl || c.excl, spared := r.spared || c.spar, count := r.count + 1, words := [w] }

/-- One contribution to a SUM row in range overflows neither partial nor word. -/
theorem accumulate_one {s : State} {i : Ins} {r : RowU} {c : Contrib} {v w : Int} (hfmt : r.fmt = 0) (hinf : r.inf = false) (hexp : r.exp = 0)
    (hwords : r.words = [w]) (hcount : r.count + 1 < countMax) (hcs : contribs s r.orng i = [c]) (hval : c.val = some v) (hadv : c.adv = true)
    (hcinf : c.inf = false) (hramp : insRamp i = false) (hv : fitsPartial v = true) (hsum : fitsWord (w + v) = true) :
    (accumulate s i r).row = addedRow r c (w + v) ∧ (accumulate s i r).ovf = false ∧ (accumulate s i r).bang = false ∧
      (accumulate s i r).resc = 0 := by
  have hle : ¬countMax ≤ r.count := by omega
  have hsample : addSample false (insCol i) { row := r, kb := r.count } c =
      { row := addedRow r c w, p0 := v, p1 := 0, p2 := 0, j := 1, kb := r.count } := by
    simp [addSample, hle, hadv, hinf, hcinf, hval, hexp, hfmt, hv, addedRow, hwords]
  unfold accumulate
  rw [hcs, List.foldl_cons, List.foldl_nil, hramp, hsample]
  simp [promote, addedRow, hfmt, hinf, hsum]

/-- An accumulation that overflows nothing puts the row and its replay data. -/
theorem execAcc_one {s : State} {p n : Nat} {i : Ins} {q : RowU} (hn : n < s.rows.length) (hrow : (accumulate s i (rowOf s n)).row = q)
    (hovf : (accumulate s i (rowOf s n)).ovf = false) (hbang : (accumulate s i (rowOf s n)).bang = false)
    (hresc : (accumulate s i (rowOf s n)).resc = 0) (hq : q.count < countMax) :
    ∃ x, execAcc s p n i = setRunRow (putRow s n q) p n x := by
  unfold execAcc
  dsimp only
  rw [hovf, hbang, hresc, hrow]
  refine ⟨_, if_neg ?_⟩
  have hget : ∀ x, rowOf (setRunRow (putRow s n q) p n x) n = q := fun x => by
    have hrows : (setRunRow (putRow s n q) p n x).rows = s.rows.modify n fun _ => q := rfl
    unfold rowOf
    rw [hrows, getD_modify_self hn]
  have hdone : ∀ x, (rowOf (reportReplays (setRunRow (putRow s n q) p n x) p 0) n).count ≠ countMax := fun x => by
    rw [reportReplays, hget]
    omega
  exact hdone _

/-- What an accumulation of one value leaves. -/
structure Accumulated (s t : State) (p row : Nat) (w v : Int) (c : Nat) : Prop where
  words : (rowOf t row).words = [w + v]
  count : (rowOf t row).count = (rowOf s row).count + 1
  isOpen : (rowOf t row).isOpen = (rowOf s row).isOpen
  acc : (kvGet t.accs (rowOf s row).base).getD 0 = w + v
  accs : ∀ a, a ≠ (rowOf s row).base → kvGet t.accs a = kvGet s.accs a
  slots : SlotsUsed s t p c
  rows : ∀ m, m ≠ row → rowOf t m = rowOf s m

section
variable {s : State} (hs : Shaped s) {p row : Nat} (hp : p < 4) (hrow : row < 256) {w : Int} (hfmt : (rowOf s row).fmt = 0)
  (hinf : (rowOf s row).inf = false) (hexp : (rowOf s row).exp = 0) (hwords : (rowOf s row).words = [w])
  (hcount : (rowOf s row).count + 1 < countMax)
include hs hp hrow hfmt hinf hexp hwords hcount

/-- An accumulation of one value adds it to the row. -/
theorem insCommand_adds {i : Ins} {c : Contrib} {v : Int} (hi : runIns (slotted s p (insCost s i)) p i =
      if autoClosed (slotted s p (insCost s i)) p row then slotted s p (insCost s i) else execAcc (slotted s p (insCost s i)) p row i)
    (hnamed : insRow i = some row) (h : RowRuns s p i) (hcs : contribs s (rowOf s row).orng i = [c]) (hcs' : ∀ o u, u.funcs = s.funcs → contribs u o i = contribs s o i)
    (hval : c.val = some v) (hadv : c.adv = true) (hcinf : c.inf = false) (hramp : insRamp i = false) (hv : fitsPartial v = true)
    (hsum : fitsWord (w + v) = true) : Accumulated s (insCommand s p i) p row w v (insCost s i) := by
  obtain ⟨u, hu⟩ : ∃ u, u = slotted s p (insCost s i) := ⟨_, rfl⟩
  have hurow : rowOf u row = rowOf s row := by rw [hu]; rfl
  have hauto : autoClosed u p row = false := hu ▸ (slotted_auto hs hp _ row).trans (h.notClosed hnamed)
  obtain ⟨h1, h2, h3, h4⟩ := accumulate_one (s := u) (i := i) hfmt hinf hexp hwords hcount ((hcs' _ u (by rw [hu]; rfl)).trans hcs) hval hadv hcinf hramp hv hsum
  rw [← hurow] at h1 h2 h3 h4
  obtain ⟨x, hx⟩ := execAcc_one (p := p) (by rw [hu]; exact hs.rows ▸ hrow : row < u.rows.length) h1 h2 h3 h4 (by rw [hurow]; exact hcount)
  have heq : insCommand s p i = setRunRow (putRow u row (addedRow (rowOf u row) c (w + v))) p row x := by
    rw [insCommand_runs h, hi, ← hu, hauto, if_neg Bool.false_ne_true, hx]
  obtain ⟨ho, hrest, hin, hout, hslots, -⟩ := putRow_opened hs hrow (hu ▸ slotted_state s p _) (hu ▸ slotted_used hs hp _)
    (addedRow (rowOf u row) c (w + v)) x
  rw [← heq] at ho hrest hin hout hslots
  have hbase : (addedRow (rowOf u row) c (w + v)).base = (rowOf s row).base := by rw [hurow]; rfl
  have hone : fmtWords (addedRow (rowOf u row) c (w + v)).fmt = 1 := by rw [hurow]; simp [addedRow, hfmt, fmtWords]
  rw [hbase, hone] at hin hout
  refine ⟨by rw [ho]; rfl, by rw [ho, hurow]; rfl, by rw [ho, hurow]; rfl, hin 0 Nat.one_pos, fun a ha => hout a (by omega), hslots, hrest⟩

end

theorem fitsPartial_small {v : Int} (h1 : -16382 ≤ v) (h2 : v ≤ 16382) : fitsPartial v = true := by
  simp only [fitsPartial, Bool.and_eq_true, decide_eq_true_eq]
  omega

/-- The contribution of a valid sample. -/
def validContrib (v : Int) (cal : Bool) : Contrib := { val := some v, adv := true, spar := cal }

theorem contribs_acc {s : State} {src f first : Nat} {x : Int} (hf : funcOfCode src = some f) (hx : (funcOf s f).smps[first]? = some (.val x))
    (o : Bool) (row col : Nat) (ramp : Bool) : contribs s o (.acc row src ramp first col 0) = [validContrib x (funcOf s f).calFrm] := by
  simp [contribs, hf, List.take_one, hx, accContrib, validContrib]

theorem contribs_dif {s : State} {src f : Nat} {x y : Int} (hf : funcOfCode src = some f) (hx : (funcOf s f).smps[0]? = some (.val x))
    (hy : (funcOf s f).pred = some y) (o : Bool) (row col : Nat) (ramp : Bool) :
    contribs s o (.dif row src ramp 0 col 0) = [validContrib (x - y) (funcOf s f).calFrm] := by
  obtain ⟨r, hr⟩ : ∃ r, (funcOf s f).smps = .val x :: r := by
    cases hs : (funcOf s f).smps with
    | nil => simp [hs] at hx
    | cons a r => exact ⟨r, by simp [hs] at hx; rw [hx]⟩
  simp [contribs, hf, hr, difList, difContrib, hy, validContrib]

theorem contribs_xdf {s : State} {a b f g : Nat} {x y : Int} (hf : funcOfCode a = some f) (hg : funcOfCode b = some g)
    (hx : (funcOf s f).smps[0]? = some (.val x)) (hy : (funcOf s g).smps[0]? = some (.val y)) (o : Bool) (row col : Nat) (ramp : Bool) :
    contribs s o (.xdf row a b ramp col 0) = [validContrib (x - y) ((funcOf s f).calFrm || (funcOf s g).calFrm)] := by
  simp [contribs, hf, hg, hx, hy, accContrib, xdfContrib, validContrib]

theorem contribs_congr {s u : State} (h : u.funcs = s.funcs) (o : Bool) (i : Ins) : contribs u o i = contribs s o i := by
  unfold contribs funcOf
  rw [h]

/-- Settles O29: each of the three gives one contribution, which the row takes. -/
theorem rowAccumulate : Obligations.RowAccumulate := by
  intro s p row w x y hs hp hrow hfmt hinf hexp hwords hcount hx1 hx2 hy1 hy2
  have hcost : accWords (rowOf s row).fmt = 1 := by rw [hfmt]; rfl
  refine ⟨fun src f i hsrc hi hf hx h hsum => ?_, fun src f hsrc hf hx hy h hsum => ?_, fun a b f g ha hb hf hg hx hy h hsum => ?_⟩
  · obtain ⟨h1, h2, h3, h4, h5, h6, h7⟩ := insCommand_adds hs hp hrow hfmt hinf hexp hwords hcount (c := validContrib x _) rfl rfl h
      (contribs_acc hf hx ..) (fun o u hu => contribs_congr hu o _) rfl rfl rfl rfl (fitsPartial_small (by omega) (by omega)) hsum
    refine ⟨_, if_pos ⟨hp, hrow, hsrc, hi, by omega, by omega⟩, h1, h2, h3, h4, h5, ?_, h7⟩
    simpa [insCost, hcost] using h6
  · obtain ⟨h1, h2, h3, h4, h5, h6, h7⟩ := insCommand_adds hs hp hrow hfmt hinf hexp hwords hcount (c := validContrib (x - y) _) rfl rfl h
      (contribs_dif hf hx hy ..) (fun o u hu => contribs_congr hu o _) rfl rfl rfl rfl (fitsPartial_small (by omega) (by omega)) hsum
    refine ⟨_, if_pos ⟨hp, hrow, hsrc, by omega, by omega, by omega⟩, h1, h2, h3, h4, h5, ?_, h7⟩
    simpa [insCost, hcost] using h6
  · obtain ⟨h1, h2, h3, h4, h5, h6, h7⟩ := insCommand_adds hs hp hrow hfmt hinf hexp hwords hcount (c := validContrib (x - y) _) rfl rfl h
      (contribs_xdf hf hg hx hy ..) (fun o u hu => contribs_congr hu o _) rfl rfl rfl rfl (fitsPartial_small (by omega) (by omega)) hsum
    refine ⟨_, if_pos ⟨hp, hrow, ha, hb, by omega, by omega⟩, h1, h2, h3, h4, h5, ?_, h7⟩
    simpa [insCost, hcost] using h6

/-! ### NOP, SYNC, CLOSE and END (R195, R204, R207, R223, R236) -/

theorem runIns_syn (s : State) (p k trig : Nat) (neg : Bool) : runIns s p (.syn k neg trig) =
    if fired s p trig == neg then modRun s p fun u => if k = 0 then { u with skipAll := true } else { u with skip := k } else s := rfl

theorem modRun_run {s : State} {p : Nat} (h : p < s.parts.length) (f : PRun → PRun) : (partOf (modRun s p f) p).run = f (partOf s p).run :=
  congrArg PartU.run (partOf_modPart h _)

/-- SYNC skips where its trigger's state is the one named. -/
theorem sync_skips {s : State} (hs : Shaped s) {p k trig : Nat} {neg : Bool} (hp : p < 4) (h : RowRuns s p (.syn k neg trig)) :
    let t := insCommand s p (.syn k neg trig)
    SlotsUsed s t p 1 ∧ (fired s p trig = neg → 0 < k → (partOf t p).run.skip = k) ∧
      (fired s p trig = neg → k = 0 → (partOf t p).run.skipAll = true) ∧
      (fired s p trig ≠ neg → (partOf t p).run.skip = 0 ∧ (partOf t p).run.skipAll = false) ∧ t = { s with parts := t.parts } := by
  have hlen : p < (slotted s p 1).parts.length := (slotted_shaped hs p 1).parts ▸ hp
  obtain ⟨⟨-, -, -, -, hskip, hall, -⟩, -, -⟩ := id h
  dsimp only
  rw [insCommand_runs h, runIns_syn]
  rw [show insCost s (.syn k neg trig) = 1 from rfl]
  have hfired : fired (slotted s p 1) p trig = fired s p trig := rfl
  rw [hfired]
  by_cases hm : fired s p trig = neg
  · rw [if_pos (by simpa using hm)]
    refine ⟨(slotted_used hs hp 1).modRun fun u => by split <;> exact ⟨rfl, rfl⟩, fun _ hk => ?_, fun _ hk => ?_, fun hne => absurd hm hne, rfl⟩
    · rw [modRun_run hlen, if_neg (by omega)]
    · rw [modRun_run hlen, if_pos hk]
  · rw [if_neg (by simpa using hm)]
    refine ⟨slotted_used hs hp 1, fun he => absurd he hm, fun he => absurd he hm, fun _ => ?_, rfl⟩
    rw [slotted_part hs hp]
    exact ⟨hskip, hall⟩

theorem runIns_cls {s : State} {p row : Nat} (h : autoClosed s p row = false) : runIns s p (.cls row) = closeRow s p row false :=
  if_neg (by simp [h])

/-- CLOSE stages the row's record, or drops it behind the 64th. -/
theorem close_stages {s : State} (hs : Shaped s) {p row : Nat} (hp : p < 4) (hrow : row < 256) (h : RowRuns s p (.cls row)) :
    let t := insCommand s p (.cls row)
    (rowOf t row).isOpen = false ∧ (rowOf t row).words = (rowOf s row).words ∧
      ((partOf s p).staged.length < 64 → (partOf t p).staged = (partOf s p).staged ++
        [⟨row, (rowOf s row).fmt, (rowOf s row).exp, (rowOf s row).count, recFlags (rowOf s row) false, (rowOf s row).openFrn, s.frn,
          (rowOf s row).words⟩]) ∧
      (64 ≤ (partOf s p).staged.length → (partOf t p).staged = (partOf s p).staged ∧
        (partOf t p).dropped = (partOf s p).dropped + 1) ∧
      SlotsUsed s t p 2 ∧ (∀ m, m ≠ row → rowOf t m = rowOf s m) ∧ t = { s with rows := t.rows, parts := t.parts } := by
  have heq : insCommand s p (.cls row) = closeRow (slotted s p 2) p row false := by
    rw [insCommand_runs h, runIns_cls ((slotted_auto hs hp _ row).trans (h.notClosed rfl))]
    rfl
  dsimp only
  rw [heq]
  obtain ⟨u, hu⟩ : ∃ u, u = slotted s p 2 := ⟨_, rfl⟩
  have hurow : ∀ m, rowOf u m = rowOf s m := fun m => by rw [hu]; rfl
  have hrows : (closeRow u p row false).rows = s.rows.modify row fun x => { x with isOpen := false, auto := false } := by rw [hu]; rfl
  have hpart : partOf (closeRow u p row false) p = if (partOf u p).staged.length < 64
      then { partOf u p with staged := (partOf u p).staged ++ [⟨row, (rowOf u row).fmt, (rowOf u row).exp, (rowOf u row).count,
        recFlags (rowOf u row) false, (rowOf u row).openFrn, u.frn, (rowOf u row).words⟩] }
      else { partOf u p with dropped := (partOf u p).dropped + 1 } :=
    partOf_modPart (s := modRow u row _) (by rw [hu]; exact (slotted_shaped hs p 2).parts ▸ hp) _
  have hupart := slotted_part hs hp 2
  rw [← hu] at hupart ⊢
  have hself : rowOf (closeRow u p row false) row = { rowOf s row with isOpen := false, auto := false } := by
    unfold rowOf
    rw [hrows, getD_modify_self (hs.rows ▸ hrow)]
  have hfrn : u.frn = s.frn := by rw [hu]; rfl
  refine ⟨by rw [hself], by rw [hself], fun hlt => ?_, fun hge => ?_, ?_, fun m hm => ?_, by rw [hu]; rfl⟩
  · rw [hpart, hupart, if_pos hlt, hurow, hfrn]
  · rw [hpart, hupart, if_neg (by simpa using hge)]
    exact ⟨rfl, rfl⟩
  · unfold SlotsUsed
    rw [hpart, hupart]
    split <;> exact ⟨rfl, rfl⟩
  · unfold rowOf
    rw [hrows, getD_modify_ne hm]

/-- Settles O30: one lemma for each of the four. -/
theorem rowControl : Obligations.RowControl := by
  intro s p hs hp
  refine ⟨fun h => ?_, fun k neg trig hk ht h => ⟨_, if_pos ⟨hp, hk, ht⟩, sync_skips hs hp h⟩,
    fun row hrow h => ⟨_, if_pos ⟨hp, hrow⟩, close_stages hs hp hrow h⟩, fun h => ?_⟩
  · refine ⟨_, if_pos hp, ?_⟩
    rw [insCommand_runs h]
    exact ⟨slotted_used hs hp 1, rfl⟩
  · refine ⟨_, if_pos hp, ?_⟩
    rw [insCommand_runs h]
    refine ⟨?_, (slotted_used hs hp 1).modRun fun u => ⟨rfl, rfl⟩, rfl⟩
    exact congrArg PRun.ended (modRun_run ((slotted_shaped hs p 1).parts ▸ hp) fun u => { u with ended := true })

end Sys2Proof.Machine

/-! The host ports (R59 to R126): words taken through a port, and the transactions of both ports. -/

namespace Sys2Proof.Machine

/-! ### A port's state -/

@[simp] theorem portOf_modPort (s : State) (p : Port) (f : PortSt → PortSt) : portOf (modPort s p f) p = f (portOf s p) := by cases p <;> rfl

theorem portOf_congr {s t : State} (hs : t.spi = s.spi) (hi : t.i2c = s.i2c) (p : Port) : portOf t p = portOf s p := by
  cases p
  · exact hs
  · exact hi

@[simp] theorem portOf_drainAll (s : State) (p : Port) : portOf (drainAll s) p = portOf s p :=
  portOf_congr (by simp [cite @drainAll_keeps]) (by simp [cite @drainAll_keeps]) p

/-- From one state to a later one a port has shifted words and acknowledges, and the cycle of the access is set. -/
def Clocked (p : Port) (s t : State) : Prop :=
  ∃ c o l, t = modPort (atCyc s c) p fun u => { u with out := o, acks := l }

theorem Clocked.port {p : Port} {s t : State} (h : Clocked p s t) : ∃ o l, portOf t p = { portOf s p with out := o, acks := l } := by
  obtain ⟨c, o, l, rfl⟩ := h
  exact ⟨o, l, by cases p <;> rfl⟩

/-- Nothing else changes. -/
theorem Clocked.eq {p : Port} {s t : State} (h : Clocked p s t) : t = { s with cyc := t.cyc, spi := t.spi, i2c := t.i2c } := by
  obtain ⟨c, o, l, rfl⟩ := h
  cases p <;> rfl

/-! ### The checks of a word -/

/-- A locked field shows nothing of the cycle or of a port. -/
theorem viewF_clocked {p : Port} {s t : State} (h : Clocked p s t) {f : Fld} (hf : f.acc = .lk) (n k j : Nat) : viewF t f n k j = viewF s f n k j := by
  obtain ⟨c, o, l, rfl⟩ := h
  have h1 : f ≠ FRAME.POS_TB_CYCLE := fun e => by rw [e] at hf; exact absurd hf (by decide)
  have h2 : f ≠ FRAME.POS_STAGE := fun e => by rw [e] at hf; exact absurd hf (by decide)
  have hframe : viewFrame (modPort (atCyc s c) p fun u => { u with out := o, acks := l }) f = viewFrame s f := by
    unfold viewFrame
    rw [if_neg h1, if_neg h2, if_neg h1, if_neg h2]
    cases p <;> rfl
  unfold viewF
  rw [hframe]
  cases p <;> rfl

theorem liveF_clocked {p : Port} {s t : State} (h : Clocked p s t) {x : FldAt} (hf : x.fld.acc = .lk) : liveF t x = liveF s x := by
  have hget : getF t x.fld x.n x.k x.j = getF s x.fld x.n x.k x.j := by rw [h.eq]; rfl
  unfold liveF
  rw [viewF_clocked h hf, hget]

theorem lkConflict_clocked {p : Port} {s t : State} (h : Clocked p s t) (a v : Nat) : lkConflict t a v = lkConflict s a v := by
  have hsame : ∀ x : FldAt, (x.fld.acc == .lk && bitsOf v x.fld.lo x.fld.width != liveF t x) =
      (x.fld.acc == .lk && bitsOf v x.fld.lo x.fld.width != liveF s x) := fun x => by
    by_cases hx : x.fld.acc = .lk
    · rw [liveF_clocked h hx]
    · rw [show (x.fld.acc == .lk) = false from beq_false_of_ne hx]
      rfl
  unfold lkConflict
  simp only [hsame]

theorem checkWord_clocked {p : Port} {s t : State} (h : Clocked p s t) (tag a v : Nat) : checkWord t p tag a v = checkWord s p tag a v := by
  have hopen : tagOpen t tag = tagOpen s tag := by rw [h.eq]; rfl
  have hport : portAllowed t p tag = portAllowed s p tag := by rw [h.eq]; rfl
  have hwriter : writerOf t (regionOf a) = writerOf s (regionOf a) := by rw [h.eq]; rfl
  unfold checkWord
  dsimp only
  rw [hopen, hport, hwriter, lkConflict_clocked h]

/-! ### A burst of one word -/

theorem burstWord_denied {p : Port} {tag cyc a v : Nat} {b : Burst} (h : checkWord b.st p tag a v = resDENIED) :
    burstWord p tag cyc false b (a, v) = { b with res := max b.res resDENIED, refused := b.refused ++ [a] } := by
  unfold burstWord
  dsimp only
  rw [if_pos h, h]
  rfl

theorem burstWord_unmapped {p : Port} {tag cyc a v : Nat} {b : Burst} (h : checkWord b.st p tag a v = resUNMAPPED) :
    burstWord p tag cyc false b (a, v) = { b with res := max b.res resUNMAPPED } := by
  unfold burstWord
  dsimp only
  rw [h, if_neg (by decide), if_pos rfl]

theorem burstWord_ok {p : Port} {tag cyc a v : Nat} {b : Burst} (h : checkWord b.st p tag a v = resOK) :
    burstWord p tag cyc false b (a, v) = { b with took := true, st := takeWord b.st p tag a v cyc } := by
  unfold burstWord
  dsimp only
  rw [h, if_neg (by decide), if_neg (by decide), if_neg (by simp)]

/-- The burst is counted at the port. -/
def countBurst (s : State) (p : Port) : State := modPort s p fun u => { u with bursts := u.bursts + 1 }

section
variable {s : State} {p : Port} {tag cyc a v : Nat} (hbusy : windowBusy s = false)
include hbusy

theorem takeBurst_denied (h : checkWord s p tag a v = resDENIED) :
    takeBurst s p tag cyc [(a, v)] = ⟨resDENIED, [a], false, countBurst (journalDenied s 1 tag a p) p⟩ := by
  unfold takeBurst
  rw [List.foldl_cons, List.foldl_nil, hbusy, burstWord_denied h]
  rfl

theorem takeBurst_unmapped (h : checkWord s p tag a v = resUNMAPPED) : takeBurst s p tag cyc [(a, v)] = ⟨resUNMAPPED, [], false, countBurst s p⟩ := by
  unfold takeBurst
  rw [List.foldl_cons, List.foldl_nil, hbusy, burstWord_unmapped h]
  rfl

/-- The state after a word was taken: counted as a burst, and in DEFER_CNT where it is late. -/
def takenLate (s : State) (p : Port) (tag a v cyc : Nat) : State :=
  if isLate s cyc then addCnt (countBurst (takeWord s p tag a v cyc) p) FRAME.DEFER_CNT 0 0 1 else countBurst (takeWord s p tag a v cyc) p

theorem takeBurst_ok (h : checkWord s p tag a v = resOK) : takeBurst s p tag cyc [(a, v)] = ⟨resOK, [], true, takenLate s p tag a v cyc⟩ := by
  unfold takeBurst
  rw [List.foldl_cons, List.foldl_nil, hbusy, burstWord_ok h]
  rfl

end

/-! ### One word as a transaction of its own -/

theorem clocked_shiftOut (s : State) (p : Port) (c : Nat) (l : List Nat) : Clocked p s (shiftOut (atCyc s c) p l) :=
  ⟨c, l, (portOf s p).acks, by cases p <;> rfl⟩

theorem Clocked.acked {s t : State} (h : Clocked .i2c s t) (good bad : Nat) : Clocked .i2c s (acked t good bad) := by
  obtain ⟨c, o, l, rfl⟩ := h
  exact ⟨c, o, List.replicate (1 + good) true ++ List.replicate bad false, rfl⟩

/-- The CRC of one word that a host writes. -/
def oneCrc (tag addr v : Nat) : Nat := crcWords [header true tag 0 addr, v]

theorem oneWrite_spi {s : State} {a : Access} (hp : a.port = .spi) (hfree : busFree s a.port = true) (addr v : Nat) : ∃ t, Clocked .spi s t ∧
    oneWrite s a addr v = writeEnd t .spi a.tag 0 addr [v] (oneCrc a.tag addr v) a.cyc := by
  refine ⟨_, clocked_shiftOut s .spi a.cyc (sdo (spiWriteBits s.straps.crc 0) (spiWriteBits s.straps.crc 0) [statusWord s .spi]), ?_⟩
  have hbits : ¬spiWriteBits s.straps.crc 0 < 32 := by
    unfold spiWriteBits
    omega
  unfold oneWrite
  rw [hfree, if_neg (by decide), hp]
  dsimp only
  unfold spiWriteTxn
  dsimp only
  rw [Option.getD_none, if_neg hbits, if_neg (Nat.lt_irrefl _)]
  rfl

theorem oneWrite_i2c {s : State} {a : Access} (hp : a.port = .i2c) (hfree : busFree s a.port = true) (addr v : Nat)
    (hnow : addr % 4 ≠ 0 ∨ windowBusy s = false) : ∃ t, Clocked .i2c s t ∧
    oneWrite s a addr v = writeEnd t .i2c a.tag 0 addr [v] (oneCrc a.tag addr v) a.cyc := by
  have htotal : ∀ u : State, u.straps = s.straps → i2cWriteBytes u.straps.crc 0 = i2cWriteBytes s.straps.crc 0 := fun u hu => by rw [hu]
  refine ⟨_, (clocked_shiftOut s .i2c a.cyc []).acked (i2cWriteBytes s.straps.crc 0) 0, ?_⟩
  unfold oneWrite
  rw [hfree, if_neg (by decide), hp]
  dsimp only
  unfold i2cWriteTxn
  dsimp only
  rw [if_neg (by rcases hnow with h | h <;> simp [h])]
  unfold i2cWriteDone
  dsimp only
  rw [Option.getD_none, if_neg (Nat.lt_irrefl _), Nat.min_self, Nat.sub_self]
  rfl

/-- A word that a host writes as a transaction of its own reaches the end of its sequence. -/
theorem oneWrite_ends {s : State} {a : Access} (hfree : busFree s a.port = true) (addr v : Nat) (hnow : addr % 4 ≠ 0 ∨ windowBusy s = false) :
    ∃ t, Clocked a.port s t ∧ oneWrite s a addr v = writeEnd t a.port a.tag 0 addr [v] (oneCrc a.tag addr v) a.cyc := by
  cases hp : a.port with
  | spi => exact oneWrite_spi hp hfree addr v
  | i2c => exact oneWrite_i2c hp hfree addr v hnow

/-! ### The end of a write sequence -/

theorem writeEnd_align {s : State} {addr : Nat} (h : addr % 4 ≠ 0) (p : Port) (tag len : Nat) (data : List Nat) (crc cyc : Nat) : ∃ bad,
    writeEnd s p tag len addr data crc cyc = endTxn s p resALIGN false bad false true := ⟨_, if_pos h⟩

theorem writeEnd_takes {s : State} {tag len addr crc : Nat} {data : List Nat} (h : addr % 4 = 0)
    (hcrc : s.straps.crc = true → crc = crcWords (header true tag len addr :: data)) (p : Port) (cyc : Nat) :
    writeEnd s p tag len addr data crc cyc =
      let b := takeBurst s p tag cyc ((txnAddrs s tag addr len).zip data)
      drainAll (endTxn b.st p b.res (!b.refused.isEmpty) false (b.took && isLate s cyc) true) := by
  have hok : (s.straps.crc && crc != crcWords (header true tag len addr :: data)) = false := by
    cases hc : s.straps.crc with
    | false => rfl
    | true => simp [hcrc hc]
  unfold writeEnd
  dsimp only
  rw [if_neg (by simp [h]), if_neg (by simp [hok])]

theorem portOf_endTxn (s : State) (p : Port) (res : Nat) (denied crcErr late counted : Bool) : portOf (endTxn s p res denied crcErr late counted) p =
    { portOf s p with result := res, denied := denied, crcErr := crcErr, late := late,
                      txn := if counted then ((portOf s p).txn + 1) % 256 else (portOf s p).txn } := portOf_modPort ..

theorem endTxn_state (s : State) (p : Port) (res : Nat) (denied crcErr late counted : Bool) :
    endTxn s p res denied crcErr late counted = { s with spi := (endTxn s p res denied crcErr late counted).spi,
                                                         i2c := (endTxn s p res denied crcErr late counted).i2c } := by
  cases p <;> rfl

/-- The transaction of one word that a host writes whole: the state in which its burst is taken. -/
theorem oneWrite_takes {s : State} {a : Access} (hfree : busFree s a.port = true) {addr : Nat} (halign : addr % 4 = 0)
    (hbusy : windowBusy s = false) (v : Nat) : ∃ t, Clocked a.port s t ∧ windowBusy t = false ∧
      (∀ w, checkWord t a.port a.tag addr w = checkWord s a.port a.tag addr w) ∧ oneWrite s a addr v =
        let b := takeBurst t a.port a.tag a.cyc [(addr, v)]
        drainAll (endTxn b.st a.port b.res (!b.refused.isEmpty) false (b.took && isLate s a.cyc) true) := by
  obtain ⟨t, ht, heq⟩ := oneWrite_ends hfree addr v (.inr hbusy)
  have hlate : isLate t a.cyc = isLate s a.cyc := by rw [ht.eq]; rfl
  refine ⟨t, ht, ?_, fun w => checkWord_clocked ht a.tag addr w, ?_⟩
  · rw [ht.eq]
    exact hbusy
  · rw [heq, writeEnd_takes (crc := oneCrc a.tag addr v) halign (fun _ => rfl), hlate]
    rfl

/-- What the end of a transaction shows at its port, and that no write joins or leaves the queue with it. -/
theorem ended_shows (s : State) (p : Port) (res : Nat) (denied crcErr late : Bool) :
    let t := drainAll (endTxn s p res denied crcErr late true)
    t.writeQ = s.writeQ ∧ t.snapReq = s.snapReq ∧ t.snapAll = s.snapAll ∧ (portOf t p).result = res ∧ (portOf t p).denied = denied ∧
      (portOf t p).late = late ∧ (portOf t p).txn = ((portOf s p).txn + 1) % 256 := by
  dsimp only
  rw [portOf_drainAll, portOf_endTxn]
  refine ⟨?_, ?_, ?_, rfl, rfl, rfl, rfl⟩ <;> simp [cite @drainAll_keeps, cite @endTxn_keeps]

theorem countBurst_txn (s : State) (p : Port) : (portOf (countBurst s p) p).txn = (portOf s p).txn := by
  rw [countBurst, portOf_modPort]

theorem Clocked.txn {p : Port} {s t : State} (h : Clocked p s t) : (portOf t p).txn = (portOf s p).txn := by
  obtain ⟨o, l, e⟩ := h.port
  rw [e]

theorem exec_hostRegisterWrite {a : Access} {addr v : Nat} (h1 : a.tag < 8) (h2 : a.cyc < 1250) (h3 : addr < 2 ^ 24) (h4 : v < 2 ^ 32) (s : State) :
    exec (.hostRegisterWrite a addr v) s = .next (oneWrite s a addr v) :=
  if_pos (by simp only [Access.ok, isCyc, isWord, h1, h2, h3, h4, decide_true, Bool.and_self])

/-- The end of a transaction that took nothing. -/
def TxnEnds (s : State) (p : Port) (r : Nat) (t : State) : Prop :=
  t.writeQ = s.writeQ ∧ (portOf t p).result = r ∧ (portOf t p).denied = (r == resDENIED) ∧ (portOf t p).txn = ((portOf s p).txn + 1) % 256

section
variable {s : State} {a : Access} (hfree : busFree s a.port = true) {addr : Nat} (v : Nat)
include hfree

theorem oneWrite_align (h : addr % 4 ≠ 0) : TxnEnds s a.port resALIGN (oneWrite s a addr v) := by
  obtain ⟨t, ht, heq⟩ := oneWrite_ends hfree addr v (.inl h)
  obtain ⟨bad, hend⟩ := writeEnd_align h a.port a.tag 0 [v] (oneCrc a.tag addr v) a.cyc (s := t)
  unfold TxnEnds
  rw [heq, hend, portOf_endTxn, endTxn_state, ht.eq, ← ht.eq]
  exact ⟨by rw [ht.eq], rfl, rfl, by rw [if_pos rfl, ht.txn]⟩

variable (halign : addr % 4 = 0) (hbusy : windowBusy s = false)
include halign hbusy

theorem oneWrite_unmapped (h : checkWord s a.port a.tag addr v = resUNMAPPED) : TxnEnds s a.port resUNMAPPED (oneWrite s a addr v) := by
  obtain ⟨t, ht, htb, hcheck, heq⟩ := oneWrite_takes hfree halign hbusy v
  rw [heq, takeBurst_unmapped htb ((hcheck v).trans h)]
  obtain ⟨h1, -, -, h2, h3, -, h4⟩ := ended_shows (countBurst t a.port) a.port resUNMAPPED false false false
  refine ⟨h1.trans ?_, h2, h3, h4.trans (by rw [countBurst_txn, ht.txn])⟩
  simp only [countBurst, cite @modPort_keeps]
  rw [ht.eq]

theorem oneWrite_denied (h : checkWord s a.port a.tag addr v = resDENIED) : TxnEnds s a.port resDENIED (oneWrite s a addr v) := by
  obtain ⟨t, ht, htb, hcheck, heq⟩ := oneWrite_takes hfree halign hbusy v
  rw [heq, takeBurst_denied htb ((hcheck v).trans h)]
  obtain ⟨h1, -, -, h2, h3, -, h4⟩ := ended_shows (countBurst (journalDenied t 1 a.tag addr a.port) a.port) a.port resDENIED true false false
  refine ⟨h1.trans ?_, h2, h3, h4.trans ?_⟩
  · simp only [countBurst, cite @modPort_keeps, cite @journalDenied_keeps]
    rw [ht.eq]
  · rw [countBurst_txn, ← ht.txn, portOf_congr (s := t) (by simp [cite @journalDenied_keeps]) (by simp [cite @journalDenied_keeps])]

/-- A word that passes the checks is taken as `takeWord` says, and its transaction ends with OK. -/
theorem oneWrite_ok (h : checkWord s a.port a.tag addr v = resOK) : ∃ t, Clocked a.port s t ∧
    oneWrite s a addr v = drainAll (endTxn (takenLate t a.port a.tag addr v a.cyc) a.port resOK false false (isLate s a.cyc) true) := by
  obtain ⟨t, ht, htb, hcheck, heq⟩ := oneWrite_takes hfree halign hbusy v
  refine ⟨t, ht, ?_⟩
  rw [heq, takeBurst_ok htb ((hcheck v).trans h)]
  rfl

end

/-- A taken word's state but for the counts of its burst. -/
theorem takenLate_keeps (s : State) (p : Port) (tag a v cyc : Nat) :
    (takenLate s p tag a v cyc).writeQ = (takeWord s p tag a v cyc).writeQ ∧ (takenLate s p tag a v cyc).snapReq = (takeWord s p tag a v cyc).snapReq ∧
      (takenLate s p tag a v cyc).snapAll = (takeWord s p tag a v cyc).snapAll ∧
      (portOf (takenLate s p tag a v cyc) p).txn = (portOf s p).txn := by
  have hport : ∀ u : State, u.spi = (countBurst (takeWord s p tag a v cyc) p).spi → u.i2c = (countBurst (takeWord s p tag a v cyc) p).i2c →
      (portOf u p).txn = (portOf s p).txn := fun u h1 h2 => by
    rw [portOf_congr h1 h2, countBurst_txn, portOf_congr (s := s) (by simp [cite @takeWord_keeps]) (by simp [cite @takeWord_keeps])]
  unfold takenLate
  split
  · refine ⟨?_, ?_, ?_, hport _ ?_ ?_⟩ <;> simp [countBurst, cite @addCnt_keeps, cite @modPort_keeps]
  · refine ⟨?_, ?_, ?_, hport _ ?_ ?_⟩ <;> simp [countBurst, cite @modPort_keeps]

/-- The write that waits for a word. -/
def waits (s : State) (a : Access) (addr v : Nat) : QWrite := ⟨addr, v, a.tag, a.port, dueOf s a.cyc, (portOf s a.port).bursts⟩

theorem waits_clocked {s t : State} {a : Access} (h : Clocked a.port s t) (addr v : Nat) : waits t a addr v = waits s a addr v := by
  have hdue : dueOf t a.cyc = dueOf s a.cyc := by rw [h.eq]; rfl
  obtain ⟨o, l, e⟩ := h.port
  unfold waits
  rw [hdue, e]

theorem takeWord_page {s : State} {p : Page} {n off addr : Nat} (hr : regionOf addr = .page p n off) (h1 : off ≠ 0x1C)
    (h2 : p ≠ .frame ∨ off ≠ 0x4C) (hq : (fieldsAt p n off).any queued = true) (a : Access) (v : Nat) :
    (takeWord s a.port a.tag addr v a.cyc).writeQ = s.writeQ ++ [waits s a addr v] := by
  unfold takeWord
  rw [hr]
  dsimp only
  rw [if_neg h1, if_neg (by rintro ⟨e1, e2⟩; rcases h2 with h | h <;> contradiction), if_pos hq]
  simp [cite @clearW1c_keeps, cite @foldl_state, waits]

/-- A word of the Channel Table waits. -/
theorem takeWord_chan {s : State} {n off addr : Nat} (hr : regionOf addr = .chan n off) (a : Access) (v : Nat) :
    (takeWord s a.port a.tag addr v a.cyc).writeQ = s.writeQ ++ [waits s a addr v] := by
  unfold takeWord
  rw [hr]
  rfl

/-- A word that waits joins the queue, and its transaction ends with OK. -/
theorem oneWrite_waits {s : State} {a : Access} {addr v : Nat} (hfree : busFree s a.port = true) (halign : addr % 4 = 0) (hbusy : windowBusy s = false)
    (h : checkWord s a.port a.tag addr v = resOK)
    (htake : ∀ t : State, (takeWord t a.port a.tag addr v a.cyc).writeQ = t.writeQ ++ [waits t a addr v]) :
    let t := oneWrite s a addr v
    t.writeQ = s.writeQ ++ [waits s a addr v] ∧ (portOf t a.port).result = resOK ∧ (portOf t a.port).denied = false ∧
      (portOf t a.port).late = isLate s a.cyc ∧ (portOf t a.port).txn = ((portOf s a.port).txn + 1) % 256 := by
  obtain ⟨t, ht, heq⟩ := oneWrite_ok hfree v halign hbusy h
  obtain ⟨h1, -, -, h2, h3, h4, h5⟩ := ended_shows (takenLate t a.port a.tag addr v a.cyc) a.port resOK false false (isLate s a.cyc)
  obtain ⟨k1, -, -, k2⟩ := takenLate_keeps t a.port a.tag addr v a.cyc
  dsimp only
  rw [heq]
  refine ⟨h1.trans ?_, h2, h3, h4, h5.trans (by rw [k2, ht.txn])⟩
  rw [k1, htake, waits_clocked ht, ht.eq]

/-- Settles O34: the transaction of one word, by what the checks answer. -/
theorem hostWriteTaken : Obligations.HostWriteTaken := by
  intro s a addr v htag hcyc haddr hv
  have hexec := exec_hostRegisterWrite htag hcyc haddr hv s
  refine ⟨fun h => ?_, fun hf h => ⟨_, hexec, oneWrite_align hf v h⟩, fun ⟨hf, hal, hb⟩ h => ⟨_, hexec, oneWrite_unmapped hf v hal hb h⟩,
    fun ⟨hf, hal, hb⟩ h => ⟨_, hexec, oneWrite_denied hf v hal hb h⟩, fun ⟨hf, hal, hb⟩ h hword => ⟨_, hexec, ?_⟩⟩
  · rw [hexec]
    exact congrArg _ (if_pos (by simpa using h))
  · obtain ⟨p, n, off, hr, h1, h2, hq⟩ := hword
    exact oneWrite_waits hf hal hb h fun t => takeWord_page hr h1 h2 hq a v

/-! ### Addresses of the words that the host's commands write -/

theorem mem_allPageInsts {p : Page} {n : Nat} (h : isPage p n = true) : (p, n) ∈ allPageInsts := by
  obtain ⟨hp, hn⟩ := (Bool.and_eq_true ..).mp h
  have hmem : p ∈ allPages := by
    revert hp
    cases p <;> decide
  simp only [allPageInsts, List.mem_flatMap, List.mem_map, List.mem_range]
  exact ⟨p, hmem, n, of_decide_eq_true hn, rfl⟩

/-- The words of the page header that a host's commands write, and the controls of PART and FRAME, are words of their pages. -/
theorem regionOf_words : ∀ x ∈ allPageInsts, x.1 ≠ .chan → ∀ off ∈ [0x8, 0x10, 0x1C, 0x4C],
    regionOf (pageBase x.1 x.2 + off) = .page x.1 x.2 off ∧ (pageBase x.1 x.2 + off) % 4 = 0 := by
  decide +kernel

theorem regionOf_page {p : Page} {n off : Nat} (h : isPage p n = true) (hoff : off ∈ [0x8, 0x10, 0x1C, 0x4C]) :
    regionOf (pageBase p n + off) = .page p n off ∧ (pageBase p n + off) % 4 = 0 :=
  regionOf_words _ (mem_allPageInsts h) (by simpa using ((Bool.and_eq_true ..).mp h).1) off hoff

/-- Of the words of a page header, and of SNAP_ALL, none holds a counter. -/
theorem noCounter_at (p : Page) (n : Nat) : ((fieldsAt p n 0x1C).any fun x => x.fld.acc == .cnt) = false ∧
    ((fieldsAt .frame n 0x4C).any fun x => x.fld.acc == .cnt) = false := by
  cases p <;> exact ⟨rfl, rfl⟩

/-- EVT is the one field of its word. -/
theorem fieldsAt_evt (p : Page) (n : Nat) (hp : p ≠ .chan) : fieldsAt p n 0x10 = [⟨HDR.EVT p, n, 0, 0⟩] := by
  cases p
  case chan => exact absurd rfl hp
  all_goals rfl

/-! ### Snapshot requests and event clears (R63, R69, R73, R101) -/

theorem mem_putNew {α : Type} [DecidableEq α] (l : List α) (x : α) : x ∈ putNew l x ∧ ∀ y ∈ l, y ∈ putNew l x := by
  unfold putNew
  split
  · next h => exact ⟨h, fun _ hy => hy⟩
  · exact ⟨List.mem_append_right _ List.mem_cons_self, fun _ hy => List.mem_append_left _ hy⟩

theorem snapDue_clocked {p : Port} {s t : State} (h : Clocked p s t) (cyc : Nat) : snapDue t cyc = snapDue s cyc := by
  rw [h.eq]
  rfl

theorem access_ok {a : Access} (h1 : a.tag < 8) (h2 : a.cyc < 1250) : Access.ok a = true := by
  simp only [Access.ok, isCyc, h1, h2, decide_true, Bool.and_self]

/-- A word that is taken at once, its transaction ending with OK: no write joins the queue. -/
theorem oneWrite_acts {s : State} {a : Access} {addr v : Nat} (hfree : busFree s a.port = true) (halign : addr % 4 = 0) (hbusy : windowBusy s = false)
    (h : checkWord s a.port a.tag addr v = resOK) (htake : ∀ t : State, (takeWord t a.port a.tag addr v a.cyc).writeQ = t.writeQ) :
    ∃ t, Clocked a.port s t ∧ (oneWrite s a addr v).writeQ = s.writeQ ∧ (portOf (oneWrite s a addr v) a.port).result = resOK ∧
      (oneWrite s a addr v).snapReq = (takeWord t a.port a.tag addr v a.cyc).snapReq ∧
      (oneWrite s a addr v).snapAll = (takeWord t a.port a.tag addr v a.cyc).snapAll ∧
      oneWrite s a addr v = drainAll (endTxn (takenLate t a.port a.tag addr v a.cyc) a.port resOK false false (isLate s a.cyc) true) := by
  obtain ⟨t, ht, heq⟩ := oneWrite_ok hfree v halign hbusy h
  obtain ⟨h1, h2, h3, h4, -⟩ := ended_shows (takenLate t a.port a.tag addr v a.cyc) a.port resOK false false (isLate s a.cyc)
  obtain ⟨k1, k2, k3, -⟩ := takenLate_keeps t a.port a.tag addr v a.cyc
  refine ⟨t, ht, ?_, by rw [heq, h4], by rw [heq, h2, k2], by rw [heq, h3, k3], heq⟩
  rw [heq, h1, k1, htake, ht.eq]

theorem takeWord_snapReq {s : State} {p : Page} {n : Nat} (hpage : isPage p n = true) (port : Port) (tag cyc : Nat) :
    (takeWord s port tag (pageBase p n + 0x1C) 1 cyc).writeQ = s.writeQ ∧
      (takeWord s port tag (pageBase p n + 0x1C) 1 cyc).snapReq = putNew s.snapReq (pageBase p n, snapDue s cyc) := by
  have hdue : ∀ u : State, u.phase = s.phase → u.frn = s.frn → snapDue u cyc = snapDue s cyc := fun u h1 h2 => by
    simp only [snapDue, dueOf, h1, h2]
  unfold takeWord
  rw [(regionOf_page hpage (by decide)).1]
  dsimp only
  rw [if_pos rfl, if_pos (by decide)]
  unfold reqSnap
  dsimp only
  rw [hdue _ (by simp [cite @clearW1c_keeps, cite @foldl_state]) (by simp [cite @clearW1c_keeps, cite @foldl_state])]
  constructor <;> simp [cite @clearW1c_keeps, cite @foldl_state]

theorem takeWord_snapAll (s : State) (port : Port) (tag cyc : Nat) :
    (takeWord s port tag (pageBase .frame 0 + 0x4C) 1 cyc).writeQ = s.writeQ ∧
      (takeWord s port tag (pageBase .frame 0 + 0x4C) 1 cyc).snapAll = putNew s.snapAll (snapDue s cyc) := by
  have hdue : ∀ u : State, u.phase = s.phase → u.frn = s.frn → snapDue u cyc = snapDue s cyc := fun u h1 h2 => by
    simp only [snapDue, dueOf, h1, h2]
  unfold takeWord
  rw [(regionOf_page (p := .frame) (n := 0) (by decide) (by decide)).1]
  dsimp only
  rw [if_neg (by decide), if_pos ⟨rfl, rfl⟩, if_pos (by decide)]
  unfold reqSnapAll
  dsimp only
  rw [hdue _ (by simp [cite @clearW1c_keeps, cite @foldl_state]) (by simp [cite @clearW1c_keeps, cite @foldl_state])]
  constructor <;> simp [cite @clearW1c_keeps, cite @foldl_state]

/-- A word at EVT clears the bits it names, and nothing else. -/
theorem takeWord_evt {s : State} {p : Page} {n : Nat} (hpage : isPage p n = true) (port : Port) (tag v cyc : Nat) :
    takeWord s port tag (pageBase p n + 0x10) v cyc = clearW1c s v ⟨HDR.EVT p, n, 0, 0⟩ := by
  have hp : p ≠ .chan := by simpa using ((Bool.and_eq_true ..).mp hpage).1
  unfold takeWord
  rw [(regionOf_page hpage (by decide)).1]
  dsimp only
  rw [if_neg (by decide), if_neg (by rintro ⟨-, h⟩; exact absurd h (by decide)), fieldsAt_evt p n hp]
  rfl

theorem bitOf_eq_testBit (x i : Nat) : bitOf x i = x.testBit i := by
  unfold bitOf bitsOf
  rw [Nat.testBit_eq_decide_div_mod_eq]
  simp [beq_eq_decide]

theorem clearW1c_evt (s : State) (p : Page) (n v b : Nat) (hb : b < 32) :
    bitOf (get1 (clearW1c s v ⟨HDR.EVT p, n, 0, 0⟩) (HDR.EVT p) n) b = (bitOf (get1 s (HDR.EVT p) n) b && !bitOf v b) := by
  have hset : get1 (clearW1c s v ⟨HDR.EVT p, n, 0, 0⟩) (HDR.EVT p) n =
      (get1 s (HDR.EVT p) n ^^^ (get1 s (HDR.EVT p) n &&& v / 2 ^ 0 % 2 ^ 32)) % 2 ^ 32 := by
    have hclear : clearW1c s v ⟨HDR.EVT p, n, 0, 0⟩ =
      setF s (HDR.EVT p) n 0 0 (get1 s (HDR.EVT p) n ^^^ (get1 s (HDR.EVT p) n &&& v / 2 ^ 0 % 2 ^ 32)) := by
      unfold clearW1c
      exact if_pos (show (HDR.EVT p).acc = .w1c from rfl)
    rw [hclear]
    exact getF_setF_same s (HDR.EVT p) n 0 0 _ (by show Acc.w1c ≠ .lk; decide)
  rw [hset, bitOf_mod _ _ _ hb]
  simp only [bitOf_eq_testBit, Nat.testBit_xor, Nat.testBit_and, Nat.testBit_mod_two_pow, hb, pow_zero, Nat.div_one, decide_true, Bool.true_and]
  cases (get1 s (HDR.EVT p) n).testBit b <;> cases v.testBit b <;> rfl

/-- Where nothing is queued or held beside the queue, Root writes nothing. -/
theorem drainAll_idle {s : State} (hq : s.jrn.queue = []) (hh : s.jrn.held = []) : drainAll s = s := by
  have hpump : pumpHeld 64 s = s := by
    rw [pumpHeld, hh]
  unfold drainAll
  dsimp only
  rw [hpump]
  split
  · rfl
  · rw [hq, hh]
    rfl

/-- What a write's counts leave of a page's EVT. -/
theorem takenLate_evt {s : State} {p : Page} {n cyc : Nat} (h : isLate s cyc = false ∨ p ≠ .frame) (port : Port) (tag addr v : Nat) :
    get1 (takenLate s port tag addr v cyc) (HDR.EVT p) n = get1 (takeWord s port tag addr v cyc) (HDR.EVT p) n := by
  have hcount : ∀ u : State, get1 (countBurst u port) (HDR.EVT p) n = get1 u (HDR.EVT p) n := fun u => by cases port <;> rfl
  unfold takenLate
  split
  · next hlate =>
    have hp : p ≠ .frame := h.resolve_left (by simp [hlate])
    exact (getF_addCnt_page (f := FRAME.DEFER_CNT) (g := HDR.EVT p) hp ..).trans (hcount _)
  · exact hcount _

/-- The end of a transaction whose word cleared event bits. -/
theorem evtClear_shows {s t : State} {a : Access} {p : Page} {n bits : Nat} (ht : Clocked a.port s t) (hpage : isPage p n = true)
    (hlate : isLate s a.cyc = false ∨ p ≠ .frame) (hroot : p ∉ [Page.bbox, .root, .cellar] ∨ (s.jrn.queue = [] ∧ s.jrn.held = [])) :
    get1 (drainAll (endTxn (takenLate t a.port a.tag (pageBase p n + 0x10) bits a.cyc) a.port resOK false false (isLate s a.cyc) true)) (HDR.EVT p) n =
      get1 (clearW1c s bits ⟨HDR.EVT p, n, 0, 0⟩) (HDR.EVT p) n := by
  have hend : ∀ u : State, get1 (endTxn u a.port resOK false false (isLate s a.cyc) true) (HDR.EVT p) n = get1 u (HDR.EVT p) n := fun u => by
    rw [endTxn_state]
    rfl
  have hlate' : isLate t a.cyc = false ∨ p ≠ .frame := by
    rwa [show isLate t a.cyc = isLate s a.cyc by rw [ht.eq]; rfl]
  have htaken : get1 (takenLate t a.port a.tag (pageBase p n + 0x10) bits a.cyc) (HDR.EVT p) n =
      get1 (clearW1c s bits ⟨HDR.EVT p, n, 0, 0⟩) (HDR.EVT p) n := by
    rw [takenLate_evt hlate', takeWord_evt hpage, ht.eq]
    rfl
  rw [← htaken]
  refine Eq.trans ?_ (hend _)
  rcases hroot with hp | ⟨hq, hh⟩
  · have hp' : (HDR.EVT p).page ∉ [Page.bbox, .cellar, .root] := by
      simp only [List.mem_cons, List.not_mem_nil, or_false, not_or] at hp ⊢
      exact ⟨hp.1, hp.2.2, hp.2.1⟩
    exact getF_of_page (HDR.EVT p) (drainAll_pg _ hp') (by simp [cite @drainAll_keeps]) n 0 0
  · have hjrn : (endTxn (takenLate t a.port a.tag (pageBase p n + 0x10) bits a.cyc) a.port resOK false false (isLate s a.cyc) true).jrn = s.jrn := by
      rw [endTxn_state, ht.eq]
      unfold takenLate
      rw [takeWord_evt hpage]
      split <;> simp [countBurst, cite @addCnt_keeps, cite @modPort_keeps, cite @clearW1c_keeps]
    rw [drainAll_idle (by rw [hjrn, hq]) (by rw [hjrn, hh])]

/-- Settles O38: the word of each of the three commands acts when it is taken. -/
theorem hostRequests : Obligations.HostRequests := by
  intro s a htag hcyc hfree hbusy
  have hok := access_ok htag hcyc
  refine ⟨fun p n hpage h => ?_, fun h => ?_, fun p n bits hpage hbits h hlate hroot => ?_⟩
  · obtain ⟨t, ht, h1, h2, h3, -, -⟩ := oneWrite_acts hfree (regionOf_page hpage (by decide)).2 hbusy h fun u => (takeWord_snapReq hpage ..).1
    rw [(takeWord_snapReq hpage ..).2, snapDue_clocked ht] at h3
    have hreq : t.snapReq = s.snapReq := by rw [ht.eq]
    obtain ⟨hin, hall⟩ := mem_putNew s.snapReq (pageBase p n, snapDue s a.cyc)
    exact ⟨_, if_pos (by rw [hok, hpage]; rfl), by rw [h3, hreq]; exact hin, fun x hx => by rw [h3, hreq]; exact hall x hx, h1, h2⟩
  · obtain ⟨t, ht, h1, h2, -, h3, -⟩ := oneWrite_acts (addr := pageBase .frame 0 + 0x4C) hfree (by decide) hbusy h fun u => (takeWord_snapAll u ..).1
    rw [(takeWord_snapAll ..).2, snapDue_clocked ht] at h3
    have hall : t.snapAll = s.snapAll := by rw [ht.eq]
    exact ⟨_, if_pos hok, by rw [show fldAddr FRAME.SNAP_ALL 0 0 0 = pageBase .frame 0 + 0x4C from rfl, h3, hall]; exact (mem_putNew _ _).1, h1, h2⟩
  · obtain ⟨t, ht, h1, h2, -, -, heq⟩ := oneWrite_acts hfree (regionOf_page hpage (by decide)).2 hbusy h fun u => by
      rw [takeWord_evt hpage]
      simp [cite @clearW1c_keeps]
    refine ⟨_, if_pos (by simp only [hok, hpage, isWord, hbits, decide_true, Bool.and_self]), h1, h2, fun b hb => ?_⟩
    rw [heq, evtClear_shows ht hpage hlate hroot, clearW1c_evt s p n bits b hb]

/-! ### Commands that wait (R38, R60, R102, R136) -/

theorem takeWord_counter {addr : Nat} (hcnt : ((fieldsOf addr).any fun x => x.fld.acc == .cnt) = true) (a : Access) (v : Nat)
    (s : State) : (takeWord s a.port a.tag addr v a.cyc).writeQ = s.writeQ ++ [waits s a addr v] := by
  cases hr : regionOf addr
  case page p n off =>
    have hfields : fieldsOf addr = fieldsAt p n off := by simp only [fieldsOf, hr]
    rw [hfields] at hcnt
    refine takeWord_page hr (fun e => ?_) (Decidable.or_iff_not_imp_left.mpr fun hp e => ?_) ?_ a v
    · rw [e, (noCounter_at p n).1] at hcnt
      cases hcnt
    · rw [not_not] at hp
      rw [e, hp, (noCounter_at p n).2] at hcnt
      cases hcnt
    · obtain ⟨x, hx, hacc⟩ := List.any_eq_true.mp hcnt
      exact List.any_eq_true.mpr ⟨x, hx, by simp [queued, eq_of_beq hacc]⟩
  case chan n off => exact takeWord_chan hr a v
  all_goals simp [fieldsOf, hr] at hcnt

/-- Settles O39: each of the three words waits. -/
theorem hostQueued : Obligations.HostQueued := by
  intro s a htag hcyc hfree hbusy
  have hok := access_ok htag hcyc
  refine ⟨fun addr v haddr hal hv hcnt hreg h => ?_, fun p hp h => ?_, fun addr v hal h1 h2 hv h => ?_⟩
  · refine ⟨_, if_pos ?_, (oneWrite_waits hfree hal hbusy h fun t => takeWord_counter hcnt a v t).1⟩
    simp only [hok, isAddr, haddr, hal, isWord, hv, hcnt, decide_true, beq_self_eq_true, Bool.and_self]
  · have hpage : isPage .part p = true := by simp [isPage, pageCount, hp]
    obtain ⟨hr, hal⟩ := regionOf_page hpage (off := 0x8) (by decide)
    have haddr : fldAddr PART.CTRL p 0 0 = pageBase .part p + 0x8 := rfl
    rw [haddr] at h ⊢
    refine ⟨_, if_pos ?_, (oneWrite_waits hfree hal hbusy h fun t => takeWord_page hr (by decide) (.inl (by decide)) rfl a 1).1⟩
    simp only [hok, isDom, hp, decide_true, Bool.and_self]
  · have hr : regionOf addr = .chan (bitsOf addr 7 4) (bitsOf addr 0 7) := by
      unfold regionOf
      rw [if_neg (by omega), if_pos ⟨h1, h2⟩]
    refine ⟨_, if_pos ?_, (oneWrite_waits hfree hal hbusy h fun t => takeWord_chan hr a v).1⟩
    have haddr : addr < 2 ^ 24 := by omega
    simp only [hok, isAddr, haddr, hal, isWord, hv, h1, h2, decide_true, beq_self_eq_true, Bool.and_self]

end Sys2Proof.Machine

/-! SPI and two-wire transactions (R93, R107 to R118, R120 to R125). -/

namespace Sys2Proof.Machine

/-! ### What a port shows of its transactions -/

/-- A port shows the same result, flags, count, words and acknowledges in both states. -/
def PortShows (p : Port) (s t : State) : Prop :=
  (portOf t p).result = (portOf s p).result ∧ (portOf t p).denied = (portOf s p).denied ∧ (portOf t p).txn = (portOf s p).txn ∧
    (portOf t p).out = (portOf s p).out ∧ (portOf t p).acks = (portOf s p).acks

theorem PortShows.refl (p : Port) (s : State) : PortShows p s s := ⟨rfl, rfl, rfl, rfl, rfl⟩

theorem PortShows.trans {p : Port} {s t u : State} (h : PortShows p s t) (k : PortShows p t u) : PortShows p s u :=
  ⟨k.1.trans h.1, k.2.1.trans h.2.1, k.2.2.1.trans h.2.2.1, k.2.2.2.1.trans h.2.2.2.1, k.2.2.2.2.trans h.2.2.2.2⟩

theorem PortShows.of_ports {s t : State} (hs : t.spi = s.spi) (hi : t.i2c = s.i2c) (p : Port) : PortShows p s t := by
  unfold PortShows
  rw [portOf_congr hs hi]
  exact PortShows.refl p s

theorem portShows_modShadow (p : Port) (s : State) (v : Via) (f : Shadow → Shadow) : PortShows p s (modShadow s v f) := by
  cases v with
  | port q => cases p <;> cases q <;> exact ⟨rfl, rfl, rfl, rfl, rfl⟩
  | shelf => exact .of_ports rfl rfl p
  | leaf => exact .of_ports rfl rfl p

theorem portShows_latchNow (p : Port) (s : State) (v : Via) (d : Nat) : PortShows p s (latchNow s v d).2 := by
  have htime : PortShows p s (nowTime s d).2 := .of_ports (by simp [cite @nowTime_keeps]) (by simp [cite @nowTime_keeps]) p
  exact htime.trans (portShows_modShadow ..)

theorem portShows_readPage (p : Port) (s : State) (v : Via) (q : Nat) (g : Page) (n off : Nat) : PortShows p s (readPage s v q g n off).2 := by
  unfold readPage
  dsimp only
  split
  · exact portShows_latchNow ..
  · dsimp only
    split
    · exact portShows_modShadow ..
    · split
      · exact portShows_modShadow ..
      · exact .refl p s

theorem portShows_readValue (p : Port) (s : State) (v : Via) (q a : Nat) : PortShows p s (readValue s v q a).2 := by
  unfold readValue
  split
  · exact portShows_readPage ..
  all_goals exact .refl p s

theorem readWord_state (s : State) (q : Port) (tag a : Nat) : (readWord s q tag a).2 = s ∨ (readWord s q tag a).2 = (readValue s (.port q) tag a).2 := by
  unfold readWord
  dsimp only
  (repeat' split) <;> simp

theorem portShows_readWord (p : Port) (s : State) (q : Port) (tag a : Nat) : PortShows p s (readWord s q tag a).2 := by
  rcases readWord_state s q tag a with h | h
  · rw [h]
    exact .refl p s
  · rw [h]
    exact portShows_readValue ..

theorem portShows_fetchWords (p q : Port) (tag : Nat) (l : List Nat) (s : State) : PortShows p s (fetchWords q tag l s).2 := by
  induction l generalizing s with
  | nil => exact .refl p s
  | cons a r ih => exact (portShows_readWord p s q tag a).trans (ih _)

theorem portShows_takeBurst (p : Port) (s : State) (tag cyc : Nat) (words : List (Nat × Nat)) : PortShows p s (takeBurst s p tag cyc words).st := by
  have hfold : ∀ b : Burst, PortShows p b.st (words.foldl (burstWord p tag cyc (windowBusy s)) b).st := fun b =>
    .of_ports (foldl_inv (fun b : Burst => b.st.spi) _ (fun b x => by simp [cite @burstWord_keeps]) words b)
      (foldl_inv (fun b : Burst => b.st.i2c) _ (fun b x => by simp [cite @burstWord_keeps]) words b) p
  have hcount : ∀ u : State, PortShows p u (modPort u p fun x => { x with bursts := x.bursts + 1 }) := fun u => by
    cases p <;> exact ⟨rfl, rfl, rfl, rfl, rfl⟩
  have hlate : ∀ u : State, PortShows p u (addCnt u FRAME.DEFER_CNT 0 0 1) := fun u =>
    .of_ports (by simp [cite @addCnt_keeps]) (by simp [cite @addCnt_keeps]) p
  have hdenied : ∀ (u : State) (k a : Nat), PortShows p u (journalDenied u k tag a p) := fun u k a =>
    .of_ports (by simp [cite @journalDenied_keeps]) (by simp [cite @journalDenied_keeps]) p
  have hmain : ∀ b : Burst, PortShows p b.st (match b.refused with | [] => b.st | a :: r => journalDenied b.st (r.length + 1) tag a p) := fun b => by
    split
    · exact .refl p _
    · exact hdenied ..
  unfold takeBurst
  dsimp only
  split
  · exact ((hfold _).trans (hmain _)).trans ((hcount _).trans (hlate _))
  · exact ((hfold _).trans (hmain _)).trans (hcount _)

/-! ### The end of a write sequence at its port -/

theorem writeEnd_crc {s : State} {tag len addr crc : Nat} {data : List Nat} (h : addr % 4 = 0)
    (hcrc : ¬(s.straps.crc = true → crc = crcWords (header true tag len addr :: data))) (p : Port) (cyc : Nat) :
    writeEnd s p tag len addr data crc cyc = endTxn s p resCRC false true false true := by
  obtain ⟨h1, h2⟩ := Classical.not_imp.mp hcrc
  unfold writeEnd
  dsimp only
  rw [if_neg (by simp [h]), if_pos (by simp [h1, h2])]

theorem endTxn_out (s : State) (p : Port) (res : Nat) (denied crcErr late counted : Bool) :
    (portOf (endTxn s p res denied crcErr late counted) p).out = (portOf s p).out ∧
      (portOf (endTxn s p res denied crcErr late counted) p).acks = (portOf s p).acks := by
  rw [portOf_endTxn]
  exact ⟨rfl, rfl⟩

/-- What the port shifted out and acknowledged stays at the end of a write. -/
theorem writeEnd_out (s : State) (p : Port) (tag len addr : Nat) (data : List Nat) (crc cyc : Nat) :
    (portOf (writeEnd s p tag len addr data crc cyc) p).out = (portOf s p).out ∧
      (portOf (writeEnd s p tag len addr data crc cyc) p).acks = (portOf s p).acks := by
  unfold writeEnd
  dsimp only
  split
  · exact endTxn_out ..
  · split
    · exact endTxn_out ..
    · obtain ⟨-, -, -, ho, ha⟩ := portShows_takeBurst p s tag cyc ((txnAddrs s tag addr len).zip data)
      rw [portOf_drainAll]
      exact ⟨(endTxn_out ..).1.trans ho, (endTxn_out ..).2.trans ha⟩

/-- The end of a burst that was taken, at its port. -/
theorem burstEnd_shows (s : State) (p : Port) (tag cyc : Nat) (words : List (Nat × Nat)) (late : Bool) :
    let b := takeBurst s p tag cyc words
    let u := drainAll (endTxn b.st p b.res (!b.refused.isEmpty) false late true)
    u.writeQ = b.st.writeQ ∧ (portOf u p).result = b.res ∧ (portOf u p).denied = !b.refused.isEmpty ∧
      (portOf u p).txn = ((portOf s p).txn + 1) % 256 := by
  dsimp only
  obtain ⟨-, -, htxn, -, -⟩ := portShows_takeBurst p s tag cyc words
  obtain ⟨h1, -, -, h2, h3, -, h4⟩ := ended_shows (takeBurst s p tag cyc words).st p (takeBurst s p tag cyc words).res
    (!(takeBurst s p tag cyc words).refused.isEmpty) false late
  exact ⟨h1, h2, h3, by rw [h4, htxn]⟩

/-! ### SPI writes -/

/-- An SPI transaction of a number of bits: its status word and zeros go out. -/
def spiClocked (s : State) (cyc total bits : Nat) : State := shiftOut (atCyc s cyc) .spi (sdo total bits [statusWord s .spi])

theorem spiWriteTxn_short {s : State} {t : SpiWrite} (h : t.cut.getD (spiWriteBits s.straps.crc t.len) < spiWriteBits s.straps.crc t.len) :
    spiWriteTxn s t = endTxn (spiClocked s t.cyc (spiWriteBits s.straps.crc t.len) (t.cut.getD (spiWriteBits s.straps.crc t.len))) .spi resSHORT
      false false false (decide (32 ≤ t.cut.getD (spiWriteBits s.straps.crc t.len))) := by
  unfold spiWriteTxn
  dsimp only
  by_cases hb : t.cut.getD (spiWriteBits s.straps.crc t.len) < 32
  · rw [if_pos hb, decide_eq_false (by omega)]
    rfl
  · rw [if_neg hb, if_pos h, decide_eq_true (by omega)]
    rfl

theorem spiWriteTxn_whole {s : State} {t : SpiWrite} (h : spiWriteBits s.straps.crc t.len ≤ t.cut.getD (spiWriteBits s.straps.crc t.len)) :
    spiWriteTxn s t = writeEnd (spiClocked s t.cyc (spiWriteBits s.straps.crc t.len) (t.cut.getD (spiWriteBits s.straps.crc t.len))) .spi
      t.tag t.len t.addr t.data t.crc t.cyc := by
  have hmin : 32 ≤ spiWriteBits s.straps.crc t.len := by
    unfold spiWriteBits
    omega
  unfold spiWriteTxn
  dsimp only
  rw [if_neg (by omega), if_neg (by omega)]
  rfl

theorem spiWriteTxn_out (s : State) (t : SpiWrite) : (spiWriteTxn s t).spi.out =
    sdo (spiWriteBits s.straps.crc t.len) (t.cut.getD (spiWriteBits s.straps.crc t.len)) [statusWord s .spi] := by
  rcases Nat.lt_or_ge (t.cut.getD (spiWriteBits s.straps.crc t.len)) (spiWriteBits s.straps.crc t.len) with h | h
  · rw [spiWriteTxn_short h]
    rfl
  · rw [spiWriteTxn_whole h]
    exact (writeEnd_out _ .spi ..).1

theorem txn_of_counted (k b x : Nat) : (if decide (k ≤ b) = true then (x + 1) % 256 else x) = if b < k then x else (x + 1) % 256 := by
  by_cases h : b < k
  · rw [if_pos h, if_neg (by simp [h])]
  · rw [if_neg h, if_pos (by simpa using h)]

/-- An SPI write, by how it ends. -/
theorem spiWrite_shows {s : State} (hfree : busFree s .spi = true) (t : SpiWrite) (hok : SpiWrite.ok t = true) :
    let total := spiWriteBits s.straps.crc t.len
    let bits := t.cut.getD total
    let crcOk := s.straps.crc = true → t.crc = crcWords (header true t.tag t.len t.addr :: t.data)
    let s1 := shiftOut (atCyc s t.cyc) .spi (sdo total bits [statusWord s .spi])
    ∃ u, exec (.spiWrite t) s = .next u ∧ u.spi.out = sdo total bits [statusWord s .spi] ∧
      (bits < total → u.writeQ = s.writeQ ∧ u.regs = s.regs ∧ u.spi.result = resSHORT ∧
        u.spi.txn = (if bits < 32 then s.spi.txn else (s.spi.txn + 1) % 256)) ∧
      (total ≤ bits → t.addr % 4 ≠ 0 → u.writeQ = s.writeQ ∧ u.regs = s.regs ∧ u.spi.result = resALIGN) ∧
      (total ≤ bits → t.addr % 4 = 0 → ¬ crcOk →
        u.writeQ = s.writeQ ∧ u.regs = s.regs ∧ u.spi.result = resCRC ∧ u.spi.crcErr = true) ∧
      (total ≤ bits → t.addr % 4 = 0 → crcOk →
        let b := takeBurst s1 .spi t.tag t.cyc ((txnAddrs s t.tag t.addr t.len).zip t.data)
        u.writeQ = b.st.writeQ ∧ u.spi.result = b.res ∧ u.spi.denied = !b.refused.isEmpty ∧
          u.spi.txn = (s.spi.txn + 1) % 256) := by
  intro total bits crcOk s1
  have hwhole : total ≤ bits → spiWriteTxn s t = writeEnd s1 .spi t.tag t.len t.addr t.data t.crc t.cyc := fun h => spiWriteTxn_whole h
  refine ⟨spiWriteTxn s t, (if_pos hok).trans (if_pos hfree), spiWriteTxn_out s t, fun h => ?_, fun h ha => ?_, fun h ha hc => ?_, fun h ha hc => ?_⟩
  · rw [spiWriteTxn_short h]
    exact ⟨rfl, rfl, rfl, txn_of_counted ..⟩
  · obtain ⟨bad, hend⟩ := writeEnd_align ha .spi t.tag t.len t.data t.crc t.cyc (s := s1)
    rw [hwhole h, hend]
    exact ⟨rfl, rfl, rfl⟩
  · rw [hwhole h, writeEnd_crc ha (s := s1) hc]
    exact ⟨rfl, rfl, rfl, rfl⟩
  · rw [hwhole h, writeEnd_takes ha (s := s1) hc]
    exact burstEnd_shows s1 .spi t.tag t.cyc _ _

/-! ### The end of a read -/

/-- No word of a read has a code above BUSY. -/
theorem readWord_code (s : State) (p : Port) (tag a : Nat) : (readWord s p tag a).1.code ≤ resBUSY := by
  unfold readWord resBUSY
  dsimp only
  (repeat' split) <;> simp [resOK, resDENIED, resUNMAPPED]

theorem fetchWords_code (p : Port) (tag : Nat) (l : List Nat) (s : State) : ∀ x ∈ (fetchWords p tag l s).1, x.code ≤ resBUSY := by
  induction l generalizing s with
  | nil => exact fun x hx => absurd hx List.not_mem_nil
  | cons a r ih =>
    intro x hx
    rcases List.mem_cons.mp hx with h | h
    · rw [h]
      exact readWord_code ..
    · exact ih _ x h

/-- The highest code of the words. -/
def codeMax (words : List Fetched) : Nat := (words.map fun x => x.code).foldl max resOK

theorem foldl_max_le {l : List Nat} {m : Nat} (hl : ∀ x ∈ l, x ≤ m) {a : Nat} (ha : a ≤ m) : l.foldl max a ≤ m := by
  induction l generalizing a with
  | nil => exact ha
  | cons b r ih => exact ih (fun x hx => hl x (List.mem_cons_of_mem b hx)) (max_le ha (hl b List.mem_cons_self))

theorem le_foldl_max {l : List Nat} {x a : Nat} (h : x ≤ a ∨ x ∈ l) : x ≤ l.foldl max a := by
  induction l generalizing a with
  | nil => exact h.resolve_right List.not_mem_nil
  | cons b r ih =>
    refine ih ?_
    rcases h with h | h
    · exact .inl (le_max_of_le_left h)
    · exact (List.mem_cons.mp h).imp (fun e => e.le.trans (le_max_right a b)) id

theorem codeMax_le {words : List Fetched} {m : Nat} (h : ∀ x ∈ words, x.code ≤ m) : codeMax words ≤ m :=
  foldl_max_le (by simpa using h) (Nat.zero_le m)

theorem head_burstAddrs (wrap : Bool) (a n : Nat) : a ∈ burstAddrs wrap a (n + 1) := List.mem_cons_self

theorem length_burstAddrs (wrap : Bool) (a n : Nat) : (burstAddrs wrap a n).length = n := by
  induction n generalizing a with
  | zero => rfl
  | succ n ih => exact congrArg (· + 1) (ih _)

theorem length_txnAddrs (s : State) (tag addr len : Nat) : (txnAddrs s tag addr len).length = len + 1 := length_burstAddrs ..

theorem onlyStatus_false {l : List Nat} {a : Nat} (hmem : a ∈ l) (ha : a ≠ 0xFFFFFC) : onlyStatus l = false := by
  unfold onlyStatus
  rw [List.all_eq_false.mpr ⟨a, hmem, by simpa using ha⟩, Bool.and_false]

/-- A read of PORT_STATUS alone counts and keeps the stored result. -/
theorem readEnd_status {l : List Nat} (h : onlyStatus l = true) (s : State) (p : Port) (words : List Fetched) :
    readEnd s p l words true false false = countTxn s p := by
  unfold readEnd
  rw [if_pos (by simp [h])]

theorem readEnd_stores {l : List Nat} {complete align crcBad : Bool} (h : (complete && !align && !crcBad && onlyStatus l) = false) (s : State) (p : Port)
    (words : List Fetched) : readEnd s p l words complete align crcBad = endTxn s p
      (max (if complete then 0 else resSHORT) (max (if align then resALIGN else 0) (max (if crcBad then resCRC else 0) (codeMax words))))
      (words.any fun x => x.denied) crcBad false true := by
  unfold readEnd
  rw [if_neg (by simp [h])]
  rfl

theorem readEnd_txn (s : State) (p : Port) (l : List Nat) (words : List Fetched) (complete align crcBad : Bool) :
    (portOf (readEnd s p l words complete align crcBad) p).txn = ((portOf s p).txn + 1) % 256 := by
  unfold readEnd countTxn
  dsimp only
  split
  · rw [portOf_modPort]
  · rw [portOf_endTxn, if_pos rfl]

section
variable {words : List Fetched} (hwords : ∀ x ∈ words, x.code ≤ resBUSY) (s : State) (p : Port) (l : List Nat)
include hwords

theorem readEnd_short (align crcBad : Bool) : (portOf (readEnd s p l words false align crcBad) p).result = resSHORT := by
  have hmax := codeMax_le hwords
  rw [readEnd_stores (by simp), portOf_endTxn]
  cases align <;> cases crcBad <;> simp [resSHORT, resALIGN, resCRC, resBUSY] at hmax ⊢ <;> omega

theorem readEnd_align (crcBad : Bool) : (portOf (readEnd s p l words true true crcBad) p).result = resALIGN := by
  have hmax := codeMax_le hwords
  rw [readEnd_stores (by simp), portOf_endTxn]
  cases crcBad <;> simp [resALIGN, resCRC, resBUSY] at hmax ⊢ <;> omega

theorem readEnd_crc : (portOf (readEnd s p l words true false true) p).result = resCRC ∧ (portOf (readEnd s p l words true false true) p).crcErr = true := by
  have hmax := codeMax_le hwords
  rw [readEnd_stores (by simp), portOf_endTxn]
  simp [resCRC, resBUSY] at hmax ⊢
  omega

end

theorem readEnd_codes {l : List Nat} (h : onlyStatus l = false) (s : State) (p : Port) (words : List Fetched) :
    (portOf (readEnd s p l words true false false) p).result = codeMax words ∧
      (portOf (readEnd s p l words true false false) p).denied = words.any fun x => x.denied := by
  rw [readEnd_stores (by simp [h]), portOf_endTxn]
  exact ⟨by simp, rfl⟩

/-! ### SPI reads -/

/-- The bits that an SPI read has clocked. -/
def spiBits (s : State) (t : SpiRead) : Nat := t.cut.getD (spiReadBits s.straps.crc t.len)

/-- The addresses that an SPI read asks: of the words whose first bit is clocked. -/
def spiAsks (s : State) (t : SpiRead) : List Nat :=
  let bits := spiBits s t
  (txnAddrs s t.tag t.addr t.len).take (if bits < 64 then 0 else min (t.len + 1) ((bits - 64) / 32 + 1))

/-- The header's CRC was clocked and is bad. -/
def spiCrcBad (s : State) (t : SpiRead) : Bool :=
  s.straps.crc && decide (48 ≤ spiBits s t) && t.crc != crcWords [header false t.tag t.len t.addr]

/-- The words an SPI read sends, and the state after its fetches. -/
def spiWords (s : State) (t : SpiRead) : List Fetched × State :=
  let total := spiReadBits s.straps.crc t.len
  let bits := spiBits s t
  if !(t.addr % 4 != 0) && !spiCrcBad s t && (!s.straps.crc || decide (48 ≤ bits)) then
    fetchWords .spi t.tag (spiAsks s t) (spiClocked s t.cyc total bits)
  else ((spiAsks s t).map fun _ => noWord 0, spiClocked s t.cyc total bits)

theorem spiReadTxn_cut {s : State} {t : SpiRead} (h : spiBits s t < 32) : spiReadTxn s t =
    endTxn (spiClocked s t.cyc (spiReadBits s.straps.crc t.len) (spiBits s t)) .spi resSHORT false false false false :=
  if_pos h

/-- What an SPI read shifts out. -/
def spiSent (s : State) (t : SpiRead) : List Nat :=
  let vals := (spiWords s t).1.map fun y => y.value
  sdo (spiReadBits s.straps.crc t.len) (spiBits s t) (statusWord s .spi :: 0 :: vals ++ (if s.straps.crc then [crcWords vals] else []))

theorem spiReadTxn_ends {s : State} {t : SpiRead} (h : ¬spiBits s t < 32) : spiReadTxn s t =
    shiftOut (readEnd (spiWords s t).2 .spi (spiAsks s t) (spiWords s t).1 (decide (spiReadBits s.straps.crc t.len ≤ spiBits s t)) (t.addr % 4 != 0)
      (spiCrcBad s t)) .spi (spiSent s t) :=
  if_neg h

theorem spiWords_code (s : State) (t : SpiRead) : ∀ x ∈ (spiWords s t).1, x.code ≤ resBUSY := by
  unfold spiWords
  dsimp only
  split
  · exact fetchWords_code _ _ _ _
  · simp [noWord]

theorem spiWords_port (s : State) (t : SpiRead) :
    PortShows .spi (spiClocked s t.cyc (spiReadBits s.straps.crc t.len) (spiBits s t)) (spiWords s t).2 := by
  unfold spiWords
  dsimp only
  split
  · exact portShows_fetchWords ..
  · exact .refl ..

theorem spiReadTxn_txn {s : State} {t : SpiRead} (h : ¬spiBits s t < 32) :
    (spiReadTxn s t).spi.txn = (s.spi.txn + 1) % 256 := by
  obtain ⟨-, -, htxn, -, -⟩ := spiWords_port s t
  rw [spiReadTxn_ends h]
  exact (readEnd_txn ..).trans (by rw [htxn])

section
variable {s : State} {t : SpiRead} (hall : spiReadBits s.straps.crc t.len ≤ spiBits s t)
include hall

theorem spiRead_min : 96 ≤ spiBits s t ∧ 64 + 32 * (t.len + 1) ≤ spiBits s t := by
  revert hall
  unfold spiReadBits
  omega

theorem spiAsks_whole : spiAsks s t = txnAddrs s t.tag t.addr t.len := by
  obtain ⟨h1, h2⟩ := spiRead_min hall
  refine List.take_of_length_le ?_
  rw [length_txnAddrs, if_neg (by omega)]
  omega

theorem spiCrcBad_whole : spiCrcBad s t = (s.straps.crc && t.crc != crcWords [header false t.tag t.len t.addr]) := by
  obtain ⟨h1, -⟩ := spiRead_min hall
  unfold spiCrcBad
  rw [decide_eq_true (by omega), Bool.and_true]

theorem spiWords_whole (ha : t.addr % 4 = 0) (hc : spiCrcBad s t = false) : spiWords s t =
    fetchWords .spi t.tag (txnAddrs s t.tag t.addr t.len) (spiClocked s t.cyc (spiReadBits s.straps.crc t.len) (spiBits s t)) := by
  obtain ⟨h1, -⟩ := spiRead_min hall
  unfold spiWords
  rw [hc, spiAsks_whole hall]
  exact if_pos (by simp [ha]; omega)

end

/-- An SPI read, by how it ends. -/
theorem spiRead_shows {s : State} (hfree : busFree s .spi = true) (t : SpiRead) (hok : SpiRead.ok t = true) :
    let total := spiReadBits s.straps.crc t.len
    let bits := t.cut.getD total
    let crcOk := s.straps.crc = true → t.crc = crcWords [header false t.tag t.len t.addr]
    let s1 := shiftOut (atCyc s t.cyc) .spi (sdo total bits [statusWord s .spi])
    ∃ u, exec (.spiRead t) s = .next u ∧ u.writeQ = s.writeQ ∧ u.regs = s.regs ∧
      (bits < total → u.spi.result = resSHORT ∧
        u.spi.txn = (if bits < 32 then s.spi.txn else (s.spi.txn + 1) % 256)) ∧
      (total ≤ bits → u.spi.txn = (s.spi.txn + 1) % 256) ∧
      (total ≤ bits → t.addr % 4 ≠ 0 → u.spi.result = resALIGN) ∧
      (total ≤ bits → t.addr % 4 = 0 → ¬ crcOk → u.spi.result = resCRC ∧ u.spi.crcErr = true) ∧
      (total ≤ bits → t.addr % 4 = 0 → crcOk →
        let x := (fetchWords .spi t.tag (txnAddrs s t.tag t.addr t.len) s1).1
        let vals := x.map fun y => y.value
        u.spi.out = sdo total bits (statusWord s .spi :: 0 :: vals ++ (if s.straps.crc then [crcWords vals] else [])) ∧
        (t.addr ≠ 0xFFFFFC → u.spi.result = (x.map fun y => y.code).foldl max resOK ∧
          u.spi.denied = x.any fun y => y.denied) ∧
        (t.addr = 0xFFFFFC → t.len = 0 → u.spi.result = s.spi.result ∧ u.spi.denied = s.spi.denied)) := by
  intro total bits crcOk s1
  have hnotCut : total ≤ bits → ¬bits < 32 := fun h => Nat.not_lt.mpr (le_trans (by decide) (spiRead_min h).1)
  have hends : total ≤ bits → spiReadTxn s t = shiftOut (readEnd (spiWords s t).2 .spi (spiAsks s t) (spiWords s t).1 true (t.addr % 4 != 0)
      (spiCrcBad s t)) .spi (spiSent s t) := fun h => by
    rw [spiReadTxn_ends (hnotCut h), decide_eq_true (show spiReadBits s.straps.crc t.len ≤ spiBits s t from h)]
  refine ⟨spiReadTxn s t, (if_pos hok).trans (if_pos hfree), by simp [cite @spiReadTxn_keeps], by simp [cite @spiReadTxn_keeps], fun h => ?_,
    fun h => spiReadTxn_txn (hnotCut h), fun h ha => ?_, fun h ha hc => ?_, fun h ha hc => ?_⟩
  · by_cases hb : bits < 32
    · rw [spiReadTxn_cut hb, if_pos hb]
      exact ⟨rfl, rfl⟩
    · rw [spiReadTxn_txn hb, spiReadTxn_ends hb, if_neg hb, decide_eq_false (show ¬spiReadBits s.straps.crc t.len ≤ spiBits s t from Nat.not_le.mpr h)]
      exact ⟨readEnd_short (spiWords_code s t) (spiWords s t).2 .spi (spiAsks s t) _ _, rfl⟩
  · rw [hends h, show (t.addr % 4 != 0) = true by simpa using ha]
    exact readEnd_align (spiWords_code s t) (spiWords s t).2 .spi (spiAsks s t) _
  · have hbad : spiCrcBad s t = true := by
      obtain ⟨h1, h2⟩ := Classical.not_imp.mp hc
      rw [spiCrcBad_whole h]
      simp [h1, h2]
    rw [hends h, hbad, show (t.addr % 4 != 0) = false by simpa using ha]
    exact readEnd_crc (spiWords_code s t) (spiWords s t).2 .spi (spiAsks s t)
  · have hgood : spiCrcBad s t = false := by
      rw [spiCrcBad_whole h]
      cases hcrc : s.straps.crc with
      | false => rfl
      | true => simp [hc hcrc]
    rw [hends h, hgood, show (t.addr % 4 != 0) = false by simpa using ha, spiSent, spiWords_whole h ha hgood, spiAsks_whole h]
    refine ⟨rfl, fun hne => ?_, fun he hl => ?_⟩
    · exact readEnd_codes (onlyStatus_false (head_burstAddrs (wraps s t.tag) t.addr t.len) hne)
        (fetchWords .spi t.tag (txnAddrs s t.tag t.addr t.len) s1).2 .spi (fetchWords .spi t.tag (txnAddrs s t.tag t.addr t.len) s1).1
    · rw [he, hl, readEnd_status rfl]
      obtain ⟨hr, hd, -, -, -⟩ := portShows_fetchWords .spi .spi t.tag (txnAddrs s t.tag 0xFFFFFC 0) s1
      exact ⟨hr, hd⟩

/-- Settles O36: SPI writes and reads. -/
theorem spiTransactions : Obligations.SpiTransactions :=
  fun _ hfree => ⟨spiWrite_shows hfree, spiRead_shows hfree⟩

/-! ### Two-wire writes -/

/-- The bytes that a two-wire write clocks. -/
def i2cBytes (s : State) (t : I2cWrite) : Nat := t.stop.getD (i2cWriteBytes s.straps.crc t.len)

/-- A data byte of the write lies in the Cellar window while a store runs. -/
def i2cWaits (s : State) (t : I2cWrite) : Prop := windowBusy s = true ∧ t.addr % 4 = 0 ∧ (i2cReached s t).any inWindow24 = true

/-- A two-wire write whose bytes have been clocked: the sequence is acknowledged, bytes past it are not. -/
def i2cClocked (s : State) (t : I2cWrite) : State :=
  acked (shiftOut (atCyc s t.cyc) .i2c []) (min (i2cBytes s t) (i2cWriteBytes s.straps.crc t.len)) (i2cBytes s t - i2cWriteBytes s.straps.crc t.len)

theorem i2cWriteTxn_holds {s : State} {t : I2cWrite} (h : i2cWaits s t) :
    i2cWriteTxn s t = { shiftOut (atCyc s t.cyc) .i2c [] with i2cHold := some (.write t) } := by
  obtain ⟨h1, h2, h3⟩ := h
  exact if_pos (by simp [h1, h2, h3])

theorem i2cWriteTxn_done {s : State} {t : I2cWrite} (h : ¬i2cWaits s t) : i2cWriteTxn s t = i2cWriteDone (shiftOut (atCyc s t.cyc) .i2c []) t t.cyc :=
  if_neg fun hc => h (by simpa [i2cWaits, and_assoc] using hc)

theorem i2cWriteDone_short {s : State} {t : I2cWrite} (h : i2cBytes s t < i2cWriteBytes s.straps.crc t.len) :
    i2cWriteDone (shiftOut (atCyc s t.cyc) .i2c []) t t.cyc =
      endTxn (i2cClocked s t) .i2c resSHORT false false false (decide (4 ≤ i2cBytes s t)) :=
  if_pos h

theorem i2cWriteDone_whole {s : State} {t : I2cWrite} (h : i2cWriteBytes s.straps.crc t.len ≤ i2cBytes s t) :
    i2cWriteDone (shiftOut (atCyc s t.cyc) .i2c []) t t.cyc = writeEnd (i2cClocked s t) .i2c t.tag t.len t.addr t.data t.crc t.cyc :=
  if_neg (Nat.not_lt.mpr h)

theorem i2cWriteDone_acks (s : State) (t : I2cWrite) : (i2cWriteDone (shiftOut (atCyc s t.cyc) .i2c []) t t.cyc).i2c.acks =
    List.replicate (1 + min (i2cBytes s t) (i2cWriteBytes s.straps.crc t.len)) true ++
      List.replicate (i2cBytes s t - i2cWriteBytes s.straps.crc t.len) false := by
  rcases Nat.lt_or_ge (i2cBytes s t) (i2cWriteBytes s.straps.crc t.len) with h | h
  · rw [i2cWriteDone_short h]
    rfl
  · rw [i2cWriteDone_whole h]
    exact (writeEnd_out _ .i2c ..).2

theorem free_i2c {s : State} (h : busFree s .i2c = true) : s.i2cHold = none := by
  have hb : (portsLive s && s.i2cHold.isNone) = true := h
  simp only [Bool.and_eq_true, Option.isNone_iff_eq_none] at hb
  exact hb.2

/-- A two-wire write for the module, by how it ends. -/
theorem i2cWrite_shows {s : State} (t : I2cWrite) (hfree : busFree s .i2c = true) (hok : I2cWrite.ok t = true) (hdev : t.dev = i2cAddr s) :
    let total := i2cWriteBytes s.straps.crc t.len
    let bytes := t.stop.getD total
    let crcOk := s.straps.crc = true → t.crc = crcWords (header true t.tag t.len t.addr :: t.data)
    let waits := windowBusy s = true ∧ t.addr % 4 = 0 ∧ (i2cReached s t).any inWindow24 = true
    ∃ u, exec (.i2cWrite t) s = .next u ∧
      (waits → u.i2cHold = some (.write t) ∧ u.writeQ = s.writeQ ∧ u.regs = s.regs) ∧
      (¬ waits → u.i2cHold = none ∧
        u.i2c.acks = List.replicate (1 + min bytes total) true ++ List.replicate (bytes - total) false) ∧
      (¬ waits → bytes < total → u.writeQ = s.writeQ ∧ u.regs = s.regs ∧ u.i2c.result = resSHORT ∧
        u.i2c.txn = (if bytes < 4 then s.i2c.txn else (s.i2c.txn + 1) % 256)) ∧
      (¬ waits → total ≤ bytes → t.addr % 4 ≠ 0 → u.writeQ = s.writeQ ∧ u.regs = s.regs ∧ u.i2c.result = resALIGN) ∧
      (¬ waits → total ≤ bytes → t.addr % 4 = 0 → ¬ crcOk →
        u.writeQ = s.writeQ ∧ u.regs = s.regs ∧ u.i2c.result = resCRC ∧ u.i2c.crcErr = true) ∧
      (¬ waits → total ≤ bytes → t.addr % 4 = 0 → crcOk →
        let b := takeBurst (acked (shiftOut (atCyc s t.cyc) .i2c []) (min bytes total) (bytes - total)) .i2c t.tag t.cyc
          ((txnAddrs s t.tag t.addr t.len).zip t.data)
        u.writeQ = b.st.writeQ ∧ u.i2c.result = b.res ∧ u.i2c.txn = (s.i2c.txn + 1) % 256) := by
  intro total bytes crcOk waits
  have hwhole : ¬waits → total ≤ bytes → i2cWriteTxn s t = writeEnd (i2cClocked s t) .i2c t.tag t.len t.addr t.data t.crc t.cyc := fun hw h =>
    (i2cWriteTxn_done hw).trans (i2cWriteDone_whole h)
  refine ⟨i2cWriteTxn s t, (if_pos hok).trans (if_pos (by rw [hfree, hdev, beq_self_eq_true]; rfl)), fun hw => ?_, fun hw => ⟨?_, ?_⟩, fun hw h => ?_,
    fun hw h ha => ?_, fun hw h ha hc => ?_, fun hw h ha hc => ?_⟩
  · rw [i2cWriteTxn_holds hw]
    exact ⟨rfl, rfl, rfl⟩
  · rw [i2cWriteTxn_done hw]
    simpa [cite @i2cWriteDone_keeps, cite @shiftOut_keeps, cite @atCyc_keeps] using free_i2c hfree
  · rw [i2cWriteTxn_done hw]
    exact i2cWriteDone_acks s t
  · rw [i2cWriteTxn_done hw, i2cWriteDone_short h]
    exact ⟨rfl, rfl, rfl, txn_of_counted ..⟩
  · obtain ⟨bad, hend⟩ := writeEnd_align ha .i2c t.tag t.len t.data t.crc t.cyc (s := i2cClocked s t)
    rw [hwhole hw h, hend]
    exact ⟨rfl, rfl, rfl⟩
  · rw [hwhole hw h, writeEnd_crc ha (s := i2cClocked s t) hc]
    exact ⟨rfl, rfl, rfl, rfl⟩
  · rw [hwhole hw h, writeEnd_takes ha (s := i2cClocked s t) hc]
    obtain ⟨h1, h2, -, h3⟩ := burstEnd_shows (i2cClocked s t) .i2c t.tag t.cyc ((txnAddrs s t.tag t.addr t.len).zip t.data) _
    exact ⟨h1, h2, h3⟩

/-! ### Two-wire reads -/

theorem takeWhile_short_iff {α : Type} (q : α → Bool) (l : List α) : (l.takeWhile q).length < l.length ↔ ∃ x ∈ l, q x = false := by
  have hpre := List.takeWhile_prefix q (l := l)
  have hwhole : (l.takeWhile q).length = l.length ↔ ∀ x ∈ l, q x = true :=
    ⟨fun h => List.takeWhile_eq_self_iff.mp (hpre.eq_of_length h), fun h => congrArg _ (List.takeWhile_eq_self_iff.mpr h)⟩
  rw [hpre.length_le.lt_iff_ne, Ne, hwhole]
  simp

/-- The bytes that a two-wire read clocks. -/
def i2cReadLen (s : State) (t : I2cRead) : Nat := t.stop.getD (i2cReadBytes s.straps.crc t.len)

/-- A two-wire read whose header was clocked: its bytes and both address bytes are acknowledged. -/
def i2cHeaded (s : State) (t : I2cRead) : State :=
  acked (shiftOut (atCyc s t.cyc) .i2c []) (min (i2cReadLen s t) (4 + 2 * b2n s.straps.crc) + 1) 0

/-- The header's CRC is bad. -/
def i2cCrcBad (s : State) (t : I2cRead) : Bool := s.straps.crc && t.crc != crcWords [header false t.tag t.len t.addr]

/-- The addresses that a read asks before the first that the Cellar holds. -/
def i2cFirst (s : State) (t : I2cRead) : List Nat :=
  if windowBusy s then (i2cAddrs s t).takeWhile fun a => !inWindow24 a else i2cAddrs s t

/-- A word of the read is held. -/
def i2cReadWaits (s : State) (t : I2cRead) : Prop := windowBusy s = true ∧ (txnAddrs s t.tag t.addr t.len).any inWindow24 = true

section
variable {s : State} {t : I2cRead} (hall : i2cReadBytes s.straps.crc t.len ≤ i2cReadLen s t)
include hall

theorem i2cRead_min : 4 + 4 * (t.len + 1) + 4 * b2n s.straps.crc ≤ i2cReadLen s t := hall

theorem i2cAddrs_whole : i2cAddrs s t = txnAddrs s t.tag t.addr t.len := by
  have hmin := i2cRead_min hall
  have hbytes : i2cReadLen s t = t.stop.getD (i2cReadBytes s.straps.crc t.len) := rfl
  refine List.take_of_length_le ?_
  rw [length_txnAddrs]
  omega

theorem i2cReadTxn_whole : i2cReadTxn s t =
    if (t.addr % 4 != 0) || i2cCrcBad s t then
      i2cReadDone (i2cHeaded s t) t ((i2cAddrs s t).map fun _ => noWord 0) (t.addr % 4 != 0) (i2cCrcBad s t)
    else
      let x := fetchWords .i2c t.tag (i2cFirst s t) (i2cHeaded s t)
      if (i2cFirst s t).length < (i2cAddrs s t).length then { x.2 with i2cHold := some (.read t x.1) } else i2cReadDone x.2 t x.1 false false := by
  have hmin := i2cRead_min hall
  have hbytes : i2cReadLen s t = t.stop.getD (i2cReadBytes s.straps.crc t.len) := rfl
  have hhead : 4 + 2 * b2n s.straps.crc ≤ i2cReadLen s t := by omega
  have hcrc : (s.straps.crc && decide (6 ≤ i2cReadLen s t) && t.crc != crcWords [header false t.tag t.len t.addr]) = i2cCrcBad s t := by
    unfold i2cCrcBad
    rw [decide_eq_true (by omega), Bool.and_true]
  unfold i2cReadTxn
  dsimp only
  rw [if_neg (by omega), ← hbytes, decide_eq_true hhead, hcrc]
  rfl

theorem i2cReadDone_whole (u : State) (hu : u.straps = s.straps) (words : List Fetched) (align crcBad : Bool) :
    i2cReadDone u t words align crcBad = shiftOut (readEnd u .i2c (i2cAddrs u t) words true align crcBad) .i2c
      ((words.map fun y => y.value) ++ (if s.straps.crc then [crcWords (words.map fun y => y.value)] else []) ++ List.replicate t.extra 0) := by
  have hcomplete : decide (i2cReadBytes u.straps.crc t.len ≤ t.stop.getD (i2cReadBytes u.straps.crc t.len)) = true := by
    rw [hu]
    exact decide_eq_true hall
  unfold i2cReadDone
  dsimp only
  rw [hcomplete, hu, Bool.and_true]

theorem i2cFirst_short : (i2cFirst s t).length < (i2cAddrs s t).length ↔ i2cReadWaits s t := by
  unfold i2cFirst i2cReadWaits
  rw [i2cAddrs_whole hall]
  cases windowBusy s with
  | false => simp
  | true =>
    rw [if_pos rfl, takeWhile_short_iff]
    simp

theorem i2cFirst_whole (h : ¬i2cReadWaits s t) : i2cFirst s t = txnAddrs s t.tag t.addr t.len := by
  have hshort := mt (i2cFirst_short hall).mp h
  have hpre : i2cFirst s t <+: i2cAddrs s t := by
    unfold i2cFirst
    split
    · exact List.takeWhile_prefix _
    · exact List.prefix_rfl
  rw [← i2cAddrs_whole hall]
  exact hpre.eq_of_length (le_antisymm hpre.length_le (Nat.not_lt.mp hshort))

theorem i2cFirst_waits (h : i2cReadWaits s t) : i2cFirst s t = (txnAddrs s t.tag t.addr t.len).takeWhile fun a => !inWindow24 a := by
  unfold i2cFirst
  rw [if_pos h.1, i2cAddrs_whole hall]

end

/-- A two-wire read for the module that clocks all its bytes, by how it ends. -/
theorem i2cRead_shows {s : State} (t : I2cRead) (hfree : busFree s .i2c = true) (hok : I2cRead.ok t = true) (hdev : t.dev = i2cAddr s) :
    let total := i2cReadBytes s.straps.crc t.len
    let bytes := t.stop.getD total
    let head := 4 + 2 * b2n s.straps.crc
    let crcOk := s.straps.crc = true → t.crc = crcWords [header false t.tag t.len t.addr]
    let s1 := acked (shiftOut (atCyc s t.cyc) .i2c []) (min bytes head + 1) 0
    let waits := windowBusy s = true ∧ (txnAddrs s t.tag t.addr t.len).any inWindow24 = true
    total ≤ bytes → ∃ u, exec (.i2cRead t) s = .next u ∧ u.writeQ = s.writeQ ∧ u.regs = s.regs ∧
      (t.addr % 4 ≠ 0 → u.i2c.result = resALIGN) ∧
      (t.addr % 4 = 0 → ¬ crcOk → u.i2c.result = resCRC ∧ u.i2c.crcErr = true) ∧
      (t.addr % 4 = 0 → crcOk → ¬ waits →
        let x := (fetchWords .i2c t.tag (txnAddrs s t.tag t.addr t.len) s1).1
        let vals := x.map fun y => y.value
        u.i2c.out = vals ++ (if s.straps.crc then [crcWords vals] else []) ++ List.replicate t.extra 0 ∧
        (t.addr ≠ 0xFFFFFC → u.i2c.result = (x.map fun y => y.code).foldl max resOK)) ∧
      (t.addr % 4 = 0 → crcOk → waits → u.i2cHold = some (.read t (fetchWords .i2c t.tag
        ((txnAddrs s t.tag t.addr t.len).takeWhile fun a => !inWindow24 a) s1).1)) := by
  intro total bytes head crcOk s1 waits hall
  have hwhole := i2cReadTxn_whole (s := s) (t := t) hall
  have hgood : crcOk → i2cCrcBad s t = false := fun hc => by
    unfold i2cCrcBad
    cases hcrc : s.straps.crc with
    | false => rfl
    | true => simp [hc hcrc]
  have hno : ∀ x ∈ (i2cAddrs s t).map fun _ => noWord 0, x.code ≤ resBUSY := by simp [noWord]
  refine ⟨i2cReadTxn s t, (if_pos hok).trans (if_pos (by rw [hfree, hdev, beq_self_eq_true]; rfl)), by simp [cite @i2cReadTxn_keeps],
    by simp [cite @i2cReadTxn_keeps], fun ha => ?_, fun ha hc => ?_, fun ha hc hw => ?_, fun ha hc hw => ?_⟩
  · rw [hwhole, show (t.addr % 4 != 0) = true by simpa using ha, Bool.true_or, if_pos rfl, i2cReadDone_whole hall (i2cHeaded s t) rfl]
    exact readEnd_align hno (i2cHeaded s t) .i2c (i2cAddrs s t) _
  · have hbad : i2cCrcBad s t = true := by
      obtain ⟨h1, h2⟩ := Classical.not_imp.mp hc
      unfold i2cCrcBad
      simp [h1, h2]
    rw [hwhole, show (t.addr % 4 != 0) = false by simpa using ha, hbad, Bool.or_true, if_pos rfl, i2cReadDone_whole hall (i2cHeaded s t) rfl]
    exact readEnd_crc hno (i2cHeaded s t) .i2c (i2cAddrs s t)
  · obtain ⟨x, hx⟩ : ∃ x, x = fetchWords .i2c t.tag (txnAddrs s t.tag t.addr t.len) s1 := ⟨_, rfl⟩
    have hstraps : x.2.straps = s.straps := by
      rw [hx]
      simp only [cite @fetchWords_keeps]
      rfl
    have haddrs : i2cAddrs x.2 t = txnAddrs s t.tag t.addr t.len := by
      have hpage : txnAddrs x.2 t.tag t.addr t.len = txnAddrs s t.tag t.addr t.len := by
        have hregs : x.2.regs = s.regs := by
          rw [hx]
          simp only [cite @fetchWords_keeps]
          rfl
        unfold txnAddrs wraps getF
        rw [hregs]
        rfl
      rw [← i2cAddrs_whole hall]
      unfold i2cAddrs
      rw [hstraps, hpage]
    have hread : i2cReadTxn s t = i2cReadDone x.2 t x.1 false false := by
      rw [hwhole, show (t.addr % 4 != 0) = false by simpa using ha, hgood hc, if_neg (by decide), i2cFirst_whole hall hw]
      dsimp only
      rw [if_neg (by rw [i2cAddrs_whole hall]; exact Nat.lt_irrefl _), hx]
      rfl
    have hend := i2cReadDone_whole hall x.2 hstraps x.1 false false
    rw [haddrs] at hend
    dsimp only
    rw [hread, hend, ← hx]
    exact ⟨rfl, fun hne => (readEnd_codes (onlyStatus_false (head_burstAddrs (wraps s t.tag) t.addr t.len) hne) x.2 .i2c x.1).1⟩
  · rw [hwhole, show (t.addr % 4 != 0) = false by simpa using ha, hgood hc, if_neg (by decide)]
    dsimp only
    rw [if_pos ((i2cFirst_short hall).mpr hw), i2cFirst_waits hall hw]
    rfl

/-! ### The end of a hold -/

theorem holdTimeout_write {s : State} {t : I2cWrite} (h : s.i2cHold = some (.write t)) : holdTimeout s =
    endTxn (acked { s with i2cHold := none } (i2cBefore s t) (i2cBytes s t - i2cBefore s t)) .i2c
      (if i2cBytes s t < i2cWriteBytes s.straps.crc t.len then resSHORT else resBUSY) false false false true := by
  unfold holdTimeout
  rw [h]
  rfl

/-- The words of a held read whose hold timed out. -/
def heldWords (s : State) (t : I2cRead) (done : List Fetched) : List Fetched :=
  done ++ ((i2cAddrs s t).drop done.length).map fun _ => noWord resBUSY

theorem holdTimeout_read {s : State} {t : I2cRead} {done : List Fetched} (h : s.i2cHold = some (.read t done)) :
    holdTimeout s = i2cReadDone { s with i2cHold := none } t (heldWords s t done) false false := by
  unfold holdTimeout
  rw [h]
  rfl

theorem holdTimeout_none {s : State} (h : s.i2cHold = none) : holdTimeout s = s := by
  unfold holdTimeout
  rw [h]

theorem codeMax_heldWords {s : State} {t : I2cRead} {done : List Fetched} (hlt : done.length < (i2cAddrs s t).length)
    (hdone : ∀ x ∈ done, x.code < resCRC) : (∀ x ∈ heldWords s t done, x.code ≤ resBUSY) ∧ codeMax (heldWords s t done) = resBUSY := by
  have hle : ∀ x ∈ heldWords s t done, x.code ≤ resBUSY := fun x hx => by
    rcases List.mem_append.mp hx with h | h
    · exact Nat.le_of_lt_succ (hdone x h)
    · obtain ⟨a, -, rfl⟩ := List.mem_map.mp h
      exact le_refl _
  refine ⟨hle, le_antisymm (codeMax_le hle) ?_⟩
  have hin : noWord resBUSY ∈ heldWords s t done := by
    refine List.mem_append_right _ (List.mem_map.mpr ?_)
    obtain ⟨a, r, hr⟩ := List.exists_cons_of_length_pos (l := (i2cAddrs s t).drop done.length) (by rw [List.length_drop]; omega)
    exact ⟨a, by rw [hr]; exact List.mem_cons_self, rfl⟩
  exact le_foldl_max (.inr (List.mem_map_of_mem (f := fun x => x.code) hin))

/-- The words of a held read that were not fetched are sent as 0. -/
theorem heldWords_zero {s : State} {t : I2cRead} {done : List Fetched} {i : Nat} (h1 : done.length ≤ i) (h2 : i < (i2cAddrs s t).length) (r : List Nat) :
    (((heldWords s t done).map fun y => y.value) ++ r)[i]? = some 0 := by
  have hrest : i - done.length < ((i2cAddrs s t).drop done.length).length := by
    rw [List.length_drop]
    omega
  unfold heldWords
  rw [List.map_append, List.append_assoc, List.getElem?_append_right (by rwa [List.length_map]), List.length_map, List.getElem?_append_left (by simpa using hrest)]
  rw [List.getElem?_map, List.getElem?_map, List.getElem?_eq_getElem hrest]
  rfl

/-- A held read whose hold times out sends zeros for what it did not fetch, and ends with SHORT or BUSY. -/
theorem heldRead_shows {s : State} {t : I2cRead} {done : List Fetched} (h : s.i2cHold = some (.read t done)) (hwin : (i2cAddrs s t).any inWindow24 = true)
    (hlt : done.length < (i2cAddrs s t).length) (hdone : ∀ x ∈ done, x.code < resCRC) :
    let bytes := t.stop.getD (i2cReadBytes s.straps.crc t.len)
    ∃ u, exec .i2cHoldTimeout s = .next u ∧ u.i2cHold = none ∧ u.writeQ = s.writeQ ∧ u.regs = s.regs ∧
      u.i2c.result = (if bytes < i2cReadBytes s.straps.crc t.len then resSHORT else resBUSY) ∧
      ∀ i, done.length ≤ i → i < (i2cAddrs s t).length → u.i2c.out[i]? = some 0 := by
  intro bytes
  obtain ⟨hcodes, hmax⟩ := codeMax_heldWords hlt hdone
  obtain ⟨a, ha, hin⟩ := List.any_eq_true.mp hwin
  have hstatus : onlyStatus (i2cAddrs s t) = false := onlyStatus_false ha fun e => by
    rw [e] at hin
    exact absurd hin (by decide)
  have hkeep : ∀ u : State, u = i2cReadDone { s with i2cHold := none } t (heldWords s t done) false false →
      u.i2cHold = none ∧ u.writeQ = s.writeQ ∧ u.regs = s.regs := fun u hu => by
    rw [hu]
    simp only [cite @i2cReadDone_keeps, and_self]
  obtain ⟨k1, k2, k3⟩ := hkeep _ rfl
  refine ⟨holdTimeout s, rfl, ?_⟩
  rw [holdTimeout_read h]
  refine ⟨k1, k2, k3, ?_, fun i h1 h2 => ?_⟩
  · by_cases hb : bytes < i2cReadBytes s.straps.crc t.len
    · rw [if_pos hb]
      have hshort : decide (i2cReadBytes s.straps.crc t.len ≤ bytes) = false := decide_eq_false (Nat.not_le.mpr hb)
      exact (congrArg (fun c => (portOf (readEnd { s with i2cHold := none } .i2c (i2cAddrs s t) (heldWords s t done) c false false) .i2c).result) hshort).trans
        (readEnd_short hcodes _ .i2c (i2cAddrs s t) false false)
    · rw [if_neg hb]
      have hwhole : decide (i2cReadBytes s.straps.crc t.len ≤ bytes) = true := decide_eq_true (Nat.not_lt.mp hb)
      exact (congrArg (fun c => (portOf (readEnd { s with i2cHold := none } .i2c (i2cAddrs s t) (heldWords s t done) c false false) .i2c).result) hwhole).trans
        ((readEnd_codes hstatus _ .i2c (heldWords s t done)).1.trans hmax)
  · exact (congrArg (fun l : List Nat => l[i]?) (List.append_assoc ..)).trans (heldWords_zero h1 h2 _)

/-- Settles O37: two-wire writes, reads and the timeout of a hold. -/
theorem i2cTransactions : Obligations.I2cTransactions := by
  intro s
  refine ⟨fun hfree => ⟨fun t hok hne => ?_, fun t hok hne => ?_⟩, i2cWrite_shows, i2cRead_shows, fun t h => ?_, fun t done h => heldRead_shows h, fun h => ?_⟩
  · exact (if_pos hok).trans (if_neg (by simp [hne]))
  · exact (if_pos hok).trans (if_neg (by simp [hne]))
  · refine ⟨holdTimeout s, rfl, ?_⟩
    rw [holdTimeout_write h]
    exact ⟨rfl, rfl, rfl, rfl, rfl⟩
  · exact congrArg _ (holdTimeout_none h)

end Sys2Proof.Machine

/-! Triggers, captures, change requests and the time of day (R353, R359 to R382). -/

namespace Sys2Proof.Machine

/-! ### A domain's time, its triggers and captures after an operation -/

theorem timeOf_congr {s t : State} (h : t.times = s.times) (d : Nat) : timeOf t d = timeOf s d := by
  unfold timeOf
  rw [h]

theorem trigOf_congr {s t : State} (h : t.times = s.times) (d k : Nat) : trigOf t d k = trigOf s d k := by
  unfold trigOf
  rw [timeOf_congr h]

@[simp] theorem timeOf_setF (s : State) (f : Fld) (n k j v d : Nat) : timeOf (setF s f n k j v) d = timeOf s d := rfl
@[simp] theorem timeOf_evt (s : State) (p : Page) (n b d : Nat) : timeOf (evt s p n b) d = timeOf s d := timeOf_congr (by simp [cite @evt_keeps]) d
@[simp] theorem timeOf_evtIf (c : Bool) (s : State) (p : Page) (n b d : Nat) : timeOf (evtIf c s p n b) d = timeOf s d :=
  timeOf_congr (by simp [cite @evtIf_keeps]) d
@[simp] theorem timeOf_addCnt (s : State) (f : Fld) (n k m d : Nat) : timeOf (addCnt s f n k m) d = timeOf s d :=
  timeOf_congr (by simp [cite @addCnt_keeps]) d
@[simp] theorem timeOf_journalPg (s : State) (code : Nat) (part : Option Nat) (p : Page) (inst data d : Nat) :
    timeOf (journalPg s code part p inst data) d = timeOf s d := timeOf_congr (by simp [cite @journalPg_keeps]) d
@[simp] theorem trigOf_setF (s : State) (f : Fld) (n k j v d i : Nat) : trigOf (setF s f n k j v) d i = trigOf s d i := rfl
@[simp] theorem trigOf_evt (s : State) (p : Page) (n b d i : Nat) : trigOf (evt s p n b) d i = trigOf s d i := by
  rw [trigOf, timeOf_evt, trigOf]
@[simp] theorem capOf_setF (s : State) (f : Fld) (n k j v d i : Nat) : capOf (setF s f n k j v) d i = capOf s d i := rfl
@[simp] theorem capOf_evt (s : State) (p : Page) (n b d i : Nat) : capOf (evt s p n b) d i = capOf s d i := by
  rw [capOf, timeOf_evt, capOf]
@[simp] theorem getF_modTrig (s : State) (d k : Nat) (u : TrigU → TrigU) (f : Fld) (n i j : Nat) : getF (modTrig s d k u) f n i j = getF s f n i j := rfl
@[simp] theorem getF_modCap (s : State) (d c : Nat) (u : CapU → CapU) (f : Fld) (n i j : Nat) : getF (modCap s d c u) f n i j = getF s f n i j := rfl

theorem shaped_setF (s : State) (f : Fld) (n k j v : Nat) : Shaped (setF s f n k j v) ↔ Shaped s :=
  ⟨fun h => shaped_of_sizes h rfl rfl rfl rfl rfl rfl rfl rfl rfl rfl rfl rfl rfl, fun h => shaped_of_sizes h rfl rfl rfl rfl rfl rfl rfl rfl rfl rfl rfl rfl rfl⟩

theorem Shaped.time_sizes {s : State} (h : Shaped s) {d : Nat} (hd : d < 4) : (timeOf s d).trigs.length = 8 ∧ (timeOf s d).caps.length = 8 := by
  have hl := h.times_length
  have hall := congrArg (·[d]?) h.times
  simp only [List.getElem?_map, List.getElem?_replicate, hd, if_true, List.getElem?_eq_getElem (hl ▸ hd : d < s.times.length), Option.map_some,
    Option.some.injEq, TimeU.sizes, Prod.mk.injEq] at hall
  simpa [timeOf, List.getD_eq_getElem?_getD, List.getElem?_eq_getElem (hl ▸ hd : d < s.times.length)] using hall

section
variable {s : State} (hs : Shaped s) {d k : Nat} (hd : d < 4) (hk : k < 8)
include hs hd

theorem timeOf_modTime_shaped (f : TimeU → TimeU) : timeOf (modTime s d f) d = f (timeOf s d) := timeOf_modTime (hs.times_length ▸ hd) f

include hk

theorem trigOf_modTrig (f : TrigU → TrigU) : trigOf (modTrig s d k f) d k = f (trigOf s d k) := by
  unfold trigOf modTrig
  rw [timeOf_modTime_shaped hs hd]
  exact getD_modify_self ((hs.time_sizes hd).1 ▸ hk) f _

theorem capOf_modCap (f : CapU → CapU) : capOf (modCap s d k f) d k = f (capOf s d k) := by
  unfold capOf modCap
  rw [timeOf_modTime_shaped hs hd]
  exact getD_modify_self ((hs.time_sizes hd).2 ▸ hk) f _

end

/-! ### Arming and disarming a trigger (R368, R369, R372, R373) -/

theorem armCause_lt (s : State) (d k : Nat) : armCause s d k < 5 := by
  unfold armCause
  dsimp only
  (repeat' split) <;> decide

/-- The time a trigger's registers name. -/
def trigTime (s : State) (d k : Nat) : Nat :=
  (getF s TIME.TRIG_SEC_LO d k 0 + 2 ^ 32 * getF s TIME.TRIG_SEC_HI d k 0) * 1000000000 + getF s TIME.TRIG_NS d k 0

/-- The trigger that its registers arm. -/
def trigLatched (s : State) (d k next : Nat) (late : Option Nat) : TrigU :=
  { armed := true, t := trigTime s d k, per := getF s TIME.TRIG_PER d k 0, action := getF s TIME.TRIG_CTRL_ACTION d k 0,
    target := getF s TIME.TRIG_CTRL_TARGET d k 0, next := next, late := late }

/-- A trigger ends with a state and a cause, and TRIG_ERR is raised. -/
def trigEnds (s : State) (d k st cause : Nat) : State :=
  evt (setF (setF (modTrig s d k fun u => { u with armed := false, late := none }) TIME.TRIG_STAT_STATE d k 0 st) TIME.TRIG_STAT_CAUSE d k 0 cause) .time d 4

/-- A trigger is armed. -/
def trigArms (s : State) (d k : Nat) (u : TrigU) : State :=
  setF (setF (modTrig s d k fun _ => u) TIME.TRIG_STAT_STATE d k 0 1) TIME.TRIG_STAT_CAUSE d k 0 0

section
variable {s : State} (hs : Shaped s) {d k : Nat} (hd : d < 4) (hk : k < 8)
include hs hd hk

theorem trigEnds_shows {st cause : Nat} (hst : st < 8) (hc : cause < 8) : (trigOf (trigEnds s d k st cause) d k).armed = false ∧
    getF (trigEnds s d k st cause) TIME.TRIG_STAT_STATE d k 0 = st ∧ getF (trigEnds s d k st cause) TIME.TRIG_STAT_CAUSE d k 0 = cause ∧
    Raised (trigEnds s d k st cause) .time d 4 := by
  refine ⟨?_, ?_, ?_, raised_evt (by decide) ..⟩
  · simp only [trigEnds, trigOf_evt, trigOf_setF, trigOf_modTrig hs hd hk]
  · unfold trigEnds
    interval_cases k <;> simp (disch := decide) [getF_setF_same, Nat.mod_eq_of_lt (show st < 2 ^ TIME.TRIG_STAT_STATE.width from hst)]
  · unfold trigEnds
    interval_cases k <;> simp (disch := decide) [getF_setF_same, Nat.mod_eq_of_lt (show cause < 2 ^ TIME.TRIG_STAT_CAUSE.width from hc)]

theorem trigArms_shows (u : TrigU) : trigOf (trigArms s d k u) d k = u ∧ getF (trigArms s d k u) TIME.TRIG_STAT_STATE d k 0 = 1 ∧
    getF (trigArms s d k u) TIME.TRIG_STAT_CAUSE d k 0 = 0 := by
  refine ⟨?_, ?_, ?_⟩
  · simp only [trigArms, trigOf_setF, trigOf_modTrig hs hd hk]
  · unfold trigArms
    interval_cases k <;> simp (disch := decide)
  · unfold trigArms
    interval_cases k <;> simp (disch := decide)

end

theorem trigArmAct_refused {s : State} {d k : Nat} (h : armCause s d k ≠ 0) : trigArmAct s d k = trigEnds s d k 3 (armCause s d k) := if_pos h

theorem trigArmAct_past {s : State} {d k : Nat} (h : armCause s d k = 0) (hpast : trigTime s d k * 2 ^ 64 ≤ (timeOf s d).t)
    (hper : getF s TIME.TRIG_PER d k 0 = 0) (hlate : getF s TIME.TRIG_CTRL_LATE_OK d k 0 = 0) : trigArmAct s d k = trigEnds s d k 0 1 := by
  unfold trigArmAct
  dsimp only
  rw [if_neg (by simp [h]), if_pos ⟨hper, decide_eq_true hpast, hlate⟩]
  rfl

/-- The instance and the late firing with which a trigger is armed. -/
theorem trigArmAct_arms {s : State} {d k next : Nat} {late : Option Nat} (h : armCause s d k = 0)
    (hnot : ¬(getF s TIME.TRIG_PER d k 0 = 0 ∧ trigTime s d k * 2 ^ 64 ≤ (timeOf s d).t ∧ getF s TIME.TRIG_CTRL_LATE_OK d k 0 = 0))
    (hnext : (if getF s TIME.TRIG_PER d k 0 ≠ 0 ∧ trigTime s d k * 2 ^ 64 ≤ (timeOf s d).t then
      ((timeOf s d).t / 2 ^ 64 - trigTime s d k) / getF s TIME.TRIG_PER d k 0 + 1 else 0) = next)
    (hlate : (if getF s TIME.TRIG_PER d k 0 = 0 ∧ trigTime s d k * 2 ^ 64 ≤ (timeOf s d).t then some (s.frn + 1) else none) = late) :
    trigArmAct s d k = trigArms s d k (trigLatched s d k next late) := by
  subst hnext hlate
  unfold trigArmAct
  dsimp only
  rw [if_neg (by simp [h]), if_neg fun ⟨h1, h2, h3⟩ => hnot ⟨h1, of_decide_eq_true h2, h3⟩]
  simp only [decide_eq_true_eq]
  rfl

/-- Settles O42: an ARM by its cause and its time, and DISARM. -/
theorem triggers : Obligations.Triggers := by
  intro s d k hs hd hk T per Armed
  have hexec : exec (.trigArm d k) s = .next (trigArmAct s d k) := if_pos ⟨hd, hk⟩
  have hT : T = trigTime s d k := rfl
  have harms : ∀ next late, trigArmAct s d k = trigArms s d k (trigLatched s d k next late) → Armed (trigArmAct s d k) next late := fun next late h => by
    obtain ⟨h1, h2, h3⟩ := trigArms_shows hs hd hk (trigLatched s d k next late)
    rw [h]
    show (trigOf _ d k).armed = true ∧ _
    rw [h1]
    exact ⟨rfl, rfl, rfl, rfl, rfl, rfl, rfl, h2, h3⟩
  refine ⟨fun h hlt => ⟨_, hexec, harms _ _ (trigArmAct_arms h ?_ ?_ ?_)⟩, fun h => ⟨_, hexec, ?_⟩, fun h hle hper hlate => ⟨_, hexec, ?_⟩,
    fun h hle hper hlate => ⟨_, hexec, harms _ _ (trigArmAct_arms h ?_ ?_ ?_)⟩, fun h hle hper => ⟨_, hexec, harms _ _ (trigArmAct_arms h ?_ ?_ ?_)⟩,
    ⟨trigDisarmAct s d k, if_pos ⟨hd, hk⟩, ?_, ?_, ?_⟩⟩
  · exact fun ⟨_, h2, _⟩ => absurd h2 (Nat.not_le.mpr hlt)
  · exact if_neg fun ⟨_, h2⟩ => absurd h2 (Nat.not_le.mpr hlt)
  · exact if_neg fun ⟨_, h2⟩ => absurd h2 (Nat.not_le.mpr hlt)
  · rw [trigArmAct_refused h]
    exact trigEnds_shows hs hd hk (by decide) ((armCause_lt s d k).trans (by decide))
  · rw [trigArmAct_past h hle hper hlate]
    exact trigEnds_shows hs hd hk (by decide) (by decide)
  · exact fun ⟨_, _, h3⟩ => hlate h3
  · exact if_neg fun ⟨h1, _⟩ => h1 hper
  · exact if_pos ⟨hper, hle⟩
  · exact fun ⟨h1, _⟩ => hper h1
  · exact if_pos ⟨hper, hle⟩
  · exact if_neg fun ⟨h1, _⟩ => hper h1
  · simp only [trigDisarmAct, trigOf_setF, trigOf_modTrig hs hd hk]
  · unfold trigDisarmAct
    simp (disch := decide)
  · exact ⟨rfl, (CellsElse.refl _ _).after_setF List.mem_cons_self 0⟩

/-! ### Captures (R374 to R376) -/

/-- A capture is refused with a cause. -/
def capRefuses (s : State) (d c cause : Nat) : State :=
  setF (setF (modCap s d c fun _ => {}) TIME.CAP_STAT_STATE d c 0 3) TIME.CAP_STAT_CAUSE d c 0 cause

/-- The value taken is written. -/
def capWrites (s : State) (d c x f : Nat) (st : Bool) : State :=
  let s1 := setF (setF s TIME.CAP_SEC_LO d c 0 (timeSec x)) TIME.CAP_SEC_HI d c 0 (timeSec x / 2 ^ 32)
  let s2 := setF (setF (setF s1 TIME.CAP_NS d c 0 (timeNs x)) TIME.CAP_FRAC d c 0 (timeFrac x)) TIME.CAP_FRN d c 0 f
  let s3 := setF (setF s2 TIME.CAP_STAT_STATE d c 0 2) TIME.CAP_STAT_STEPPED d c 0 (b2n st)
  evt (modCap s3 d c fun u => { u with taken := none }) .time d 5

theorem capWrite_taken {s : State} {d c x f : Nat} {st : Bool} (h : (capOf s d c).taken = some (x, f, st)) :
    capWrite s d c = capWrites s d c x f st := by
  unfold capWrite
  rw [h]
  rfl

theorem timeSec_hi (x : Nat) : timeSec x / 2 ^ 32 < 2 ^ 16 := by
  unfold timeSec
  omega

theorem timeNs_lt (x : Nat) : timeNs x < 2 ^ 30 := by
  unfold timeNs secUnit nsUnit
  omega

theorem timeFrac_lt (x : Nat) : timeFrac x < 2 ^ 16 := by
  unfold timeFrac nsUnit
  omega

theorem b2n_lt (b : Bool) : b2n b < 2 ^ 1 := by
  cases b <;> decide

/-- The cells of a written capture. -/
theorem capWrites_cells (s : State) (d x f : Nat) (st : Bool) {c : Nat} (hc : c < 8) :
    let t := capWrites s d c x f st
    getF t TIME.CAP_NS d c 0 = timeNs x ∧ getF t TIME.CAP_SEC_LO d c 0 = timeSec x % 2 ^ 32 ∧
      getF t TIME.CAP_SEC_HI d c 0 = timeSec x / 2 ^ 32 ∧ getF t TIME.CAP_FRAC d c 0 = timeFrac x ∧
      getF t TIME.CAP_FRN d c 0 = f % 2 ^ 32 ∧ getF t TIME.CAP_STAT_STATE d c 0 = 2 ∧ getF t TIME.CAP_STAT_STEPPED d c 0 = b2n st := by
  have h1 : timeSec x / 2 ^ 32 % 2 ^ TIME.CAP_SEC_HI.width = timeSec x / 2 ^ 32 := Nat.mod_eq_of_lt (timeSec_hi x)
  have h2 : timeNs x % 2 ^ TIME.CAP_NS.width = timeNs x := Nat.mod_eq_of_lt (timeNs_lt x)
  have h3 : timeFrac x % 2 ^ TIME.CAP_FRAC.width = timeFrac x := Nat.mod_eq_of_lt (timeFrac_lt x)
  have h4 : b2n st % 2 ^ TIME.CAP_STAT_STEPPED.width = b2n st := Nat.mod_eq_of_lt (b2n_lt st)
  have h5 : TIME.CAP_SEC_LO.width = 32 ∧ TIME.CAP_FRN.width = 32 ∧ 2 % 2 ^ TIME.CAP_STAT_STATE.width = 2 := ⟨rfl, rfl, rfl⟩
  dsimp only [capWrites]
  refine ⟨?_, ?_, ?_, ?_, ?_, ?_, ?_⟩ <;> interval_cases c <;> simp (disch := decide) only [getF_evt_plain, getF_modCap, getF_setF_place, getF_setF_same,
    getF_setF_fits, h1, h2, h3, h4, h5]

section
variable {s : State} (hs : Shaped s) {d c : Nat} (hd : d < 4) (hc : c < 8)
include hs hd hc

theorem capRefuses_shows {cause : Nat} (h : cause < 8) : (capOf (capRefuses s d c cause) d c).armed = false ∧
    getF (capRefuses s d c cause) TIME.CAP_STAT_STATE d c 0 = 3 ∧ getF (capRefuses s d c cause) TIME.CAP_STAT_CAUSE d c 0 = cause := by
  refine ⟨?_, ?_, ?_⟩
  · simp only [capRefuses, capOf_setF, capOf_modCap hs hd hc]
  · unfold capRefuses
    interval_cases c <;> simp (disch := decide)
  · unfold capRefuses
    interval_cases c <;> simp (disch := decide) [getF_setF_same, Nat.mod_eq_of_lt (show cause < 2 ^ TIME.CAP_STAT_CAUSE.width from h)]

theorem capWrites_cap (x f : Nat) (st : Bool) : capOf (capWrites s d c x f st) d c = { capOf s d c with taken := none } := by
  have hend : ∀ u : State, Shaped u → capOf (modCap u d c fun v => { v with taken := none }) d c = { capOf u d c with taken := none } :=
    fun u hu => capOf_modCap hu hd hc _
  rw [capWrites, capOf_evt, hend _ (by simpa only [shaped_setF] using hs)]
  simp only [capOf_setF]

end

/-- Why an ARM of a capture is refused. -/
def capCause (s : State) (d c : Nat) : Nat :=
  if !domRuns s d then 2
  else if getF s TIME.CAP_CTRL_SRC d c 0 < 10 ∧ mayMeasure s d (getF s TIME.CAP_CTRL_SRC d c 0) then (if get1 s DPLL.STATUS_FB_LOST d = 1 then 3 else 0)
  else 1

theorem capArmAct_refused {s : State} {d c : Nat} (h : capCause s d c ≠ 0) : capArmAct s d c = capRefuses s d c (capCause s d c) := if_pos h

theorem capArmAct_arms {s : State} {d c : Nat} (h : capCause s d c = 0) : capArmAct s d c =
    setF (setF (setF (setF (modCap s d c fun _ => { armed := true, frm := s.frn, src := getF s TIME.CAP_CTRL_SRC d c 0 }) TIME.CAP_STAT_STATE d c 0 1)
      TIME.CAP_STAT_CAUSE d c 0 0) TIME.CAP_STAT_SKIP d c 0 0) TIME.CAP_STAT_STEPPED d c 0 0 := if_neg (not_not.mpr h)

/-- Settles O44: ARM by its cause, CANCEL, and a capture's end by what it took. -/
theorem captures : Obligations.Captures := by
  intro s d c hs hd hc src Refused Written
  have harm : exec (.capArm d c) s = .next (capArmAct s d c) := if_pos ⟨hd, hc⟩
  have hrefuse : ∀ cause, cause ≠ 0 → cause < 8 → capCause s d c = cause → ∃ t, exec (.capArm d c) s = .next t ∧ Refused t cause :=
    fun cause hne hlt h => ⟨_, harm, by
      rw [capArmAct_refused (h ▸ hne), h]
      exact capRefuses_shows hs hd hc hlt⟩
  have hwrites : ∀ (u : State) (x f : Nat) (st : Bool), Shaped u → Written (capWrites u d c x f st) x f ∧
      getF (capWrites u d c x f st) TIME.CAP_STAT_STEPPED d c 0 = b2n st := fun u x f st hu => by
    obtain ⟨h1, h2, h3, h4, h5, h6, h7⟩ := capWrites_cells u d x f st hc
    exact ⟨⟨h1, h2, h3, h4, h5, h6, by rw [capWrites_cap hu hd hc], raised_evt (by decide) ..⟩, h7⟩
  refine ⟨fun hr hsrc hm hfb => ⟨_, harm, ?_⟩, fun hr => hrefuse 2 (by decide) (by decide) (if_pos (by simp [hr])), fun hr hno => hrefuse 1 (by decide) (by decide) ?_,
    fun hr hsrc hm hfb => hrefuse 3 (by decide) (by decide) ?_, ⟨_, if_pos ⟨hd, hc⟩, ?_, ?_⟩, fun x f st ht => ⟨capWrite s d c, ?_, ?_⟩,
    fun x ht ha hf he => ⟨capWrite (capTake s d c x) d c, ?_, ?_⟩, fun ht hno => ?_⟩
  · have hcause : capCause s d c = 0 := by
      unfold capCause
      rw [if_neg (by simp [hr]), if_pos ⟨hsrc, hm⟩, if_neg hfb]
    rw [capArmAct_arms hcause]
    refine ⟨?_, ?_, ?_, ?_, ?_, ?_⟩
    · simp only [capOf_setF, capOf_modCap hs hd hc]
    · simp only [capOf_setF, capOf_modCap hs hd hc]
    · simp only [capOf_setF, capOf_modCap hs hd hc]; rfl
    all_goals interval_cases c <;> simp (disch := decide)
  · unfold capCause
    rw [if_neg (by simp [hr]), if_neg]
    rintro ⟨h1, h2⟩
    rcases hno with h | h
    · exact absurd h1 (Nat.not_lt.mpr h)
    · exact absurd h2 (by simp [show mayMeasure s d (getF s TIME.CAP_CTRL_SRC d c 0) = false from h])
  · unfold capCause
    rw [if_neg (by simp [hr]), if_pos ⟨hsrc, hm⟩, if_pos hfb]
  · simp only [capCancelAct, capOf_setF, capOf_modCap hs hd hc]
  · unfold capCancelAct
    simp (disch := decide)
  · exact (if_pos ⟨hd, hc⟩).trans (if_pos (by simp [ht]))
  · rw [capWrite_taken ht]
    exact hwrites s x f st hs
  · refine (if_pos ⟨hd, hc⟩).trans ((if_neg (by simp [ht])).trans ((if_pos (by simp [ha, hf])).trans ?_))
    rw [he]
  · have hcap := capOf_modCap hs hd hc fun u => { u with armed := false, taken := some (x, s.frn, match (timeOf s d).stepped with
      | some f => decide (u.frm < f) && decide (f < s.frn)
      | none => false) }
    have hshape : Shaped (capTake s d c x) := by
      apply shaped_of_sizes hs <;> simp [cite @capTake_keeps]
    have htaken := capWrite_taken (s := capTake s d c x) (d := d) (c := c) (congrArg CapU.taken hcap)
    rw [htaken]
    refine ⟨(hwrites _ x s.frn _ hshape).1, ?_⟩
    rw [capWrites_cap hshape hd hc]
    exact congrArg CapU.armed hcap
  · refine (if_pos ⟨hd, hc⟩).trans ((if_neg (by simp [ht])).trans ?_)
    by_cases h : ((capOf s d c).armed && decide ((capOf s d c).frm < s.frn)) = true
    · obtain ⟨h1, h2⟩ := (Bool.and_eq_true ..).mp h
      have hnone : capEdge s d (capOf s d c).src = none := by
        rcases hno with h3 | h3 | h3
        · rw [h1] at h3
          cases h3
        · exact absurd (of_decide_eq_true h2) (Nat.not_lt.mpr h3)
        · exact h3
      refine (if_pos h).trans ?_
      rw [hnone]
    · exact if_neg h

/-! ### A firing (R366, R369 to R372) -/

/-- The firing registers of a trigger. -/
def firedCells (s : State) (d k x frm : Nat) (late jumped : Bool) : State :=
  let s1 := setF (setF s TIME.TRIG_FIRED_SEC_LO d k 0 (timeSec x)) TIME.TRIG_FIRED_SEC_HI d k 0 (timeSec x / 2 ^ 32)
  let s2 := setF (setF s1 TIME.TRIG_FIRED_NS d k 0 (timeNs x)) TIME.TRIG_FIRED_FRAC d k 0 (timeFrac x)
  let s3 := setF s2 TIME.TRIG_FIRED_FRN d k 0 frm
  setF (setF s3 TIME.TRIG_STAT_LATE d k 0 (b2n late)) TIME.TRIG_STAT_JUMPED d k 0 (b2n jumped)

/-- A trigger `u`, which now is `x`, after one firing outside an interval. -/
def trigNext (u : TrigU) (frm : Nat) (x : TrigU) : TrigU :=
  { x with armed := decide (u.per ≠ 0), next := x.next + 1, late := none, ivl := if u.action = 1 then some (0, frm) else x.ivl }

/-- A domain's time after trigger `k`, which was `u`, fired. -/
def timeFired (u : TrigU) (k : Nat) (x : TimeU) : TimeU :=
  { x with firesNext := (List.range 8).map fun j => x.firesNext.getD j false || j == k, epochAct := x.epochAct || u.action == 2 }

/-- The trigger and the domain's firings after one firing outside an interval of the trigger `u`. -/
def firedUnits (s : State) (u : TrigU) (d k frm : Nat) : State := modTime (modTrig s d k (trigNext u frm)) d (timeFired u k)

/-- A trigger after a firing outside an interval, before its PULSE. -/
def trigFired (s : State) (d k x frm : Nat) (late : Bool) : State :=
  let s4 := firedCells s d k x frm late false
  let s5 := if (trigOf s d k).per = 0 then setF s4 TIME.TRIG_STAT_STATE d k 0 2 else s4
  evtIf late (evt (firedUnits s5 (trigOf s d k) d k frm) .time d 2) .time d 3

theorem fireTrig_eq (s : State) (d k x frm : Nat) (late : Bool) : fireTrig s d k x 1 frm late false 0 0 =
    if (trigOf s d k).action = 3 then trigPulse (trigFired s d k x frm late) d k (trigOf s d k).target 0 0 else trigFired s d k x frm late := by
  unfold fireTrig
  dsimp only
  rw [if_neg (Nat.lt_irrefl 1), if_pos rfl]
  rfl

/-- What a firing at `x` shows in its trigger's cells. -/
structure FiredCells (s : State) (d k x : Nat) (late : Bool) (t : State) : Prop where
  secLo : getF t TIME.TRIG_FIRED_SEC_LO d k 0 = timeSec x % 2 ^ 32
  secHi : getF t TIME.TRIG_FIRED_SEC_HI d k 0 = timeSec x / 2 ^ 32
  ns : getF t TIME.TRIG_FIRED_NS d k 0 = timeNs x
  frac : getF t TIME.TRIG_FIRED_FRAC d k 0 = timeFrac x
  frn : getF t TIME.TRIG_FIRED_FRN d k 0 = (s.frn + 1) % 2 ^ 32
  mark : getF t TIME.TRIG_STAT_LATE d k 0 = b2n late
  jumped : getF t TIME.TRIG_STAT_JUMPED d k 0 = 0
  state : (trigOf s d k).per = 0 → getF t TIME.TRIG_STAT_STATE d k 0 = 2
  fired : Raised t .time d 2
  lateFired : late = true → Raised t .time d 3

/-- The cells in which a firing shows. -/
def firedFlds : List Fld := [TIME.TRIG_FIRED_SEC_LO, TIME.TRIG_FIRED_SEC_HI, TIME.TRIG_FIRED_NS, TIME.TRIG_FIRED_FRAC, TIME.TRIG_FIRED_FRN,
  TIME.TRIG_STAT_LATE, TIME.TRIG_STAT_JUMPED, TIME.TRIG_STAT_STATE]

theorem FiredCells.of_same {s t v : State} {d k x : Nat} {late : Bool} (h : FiredCells s d k x late t)
    (hf : ∀ f ∈ firedFlds, getF v f d k 0 = getF t f d k 0) (hr : ∀ b, b < 32 → Raised t .time d b → Raised v .time d b) : FiredCells s d k x late v := by
  simp only [firedFlds, List.forall_mem_cons, List.not_mem_nil, false_implies, implies_true, and_true] at hf
  obtain ⟨h1, h2, h3, h4, h5, h6, h7, h8⟩ := hf
  exact ⟨h1.trans h.secLo, h2.trans h.secHi, h3.trans h.ns, h4.trans h.frac, h5.trans h.frn, h6.trans h.mark, h7.trans h.jumped,
    fun hp => h8.trans (h.state hp), hr 2 (by decide) h.fired, fun hl => hr 3 (by decide) (h.lateFired hl)⟩

/-- A firing's cells stay when a result or a cause of the trigger is written. -/
theorem FiredCells.setF {s t : State} {d k x : Nat} {late : Bool} (h : FiredCells s d k x late t) (hk : k < 8) {f : Fld}
    (hf : f ∈ [TIME.TRIG_STAT_CAUSE, TIME.TRIG_IVL_RESULT_CODE, TIME.TRIG_IVL_RESULT_FLAGS]) (v : Nat) :
    FiredCells s d k x late (setF t f d k 0 v) := by
  have happart : ∀ f ∈ [TIME.TRIG_STAT_CAUSE, TIME.TRIG_IVL_RESULT_CODE, TIME.TRIG_IVL_RESULT_FLAGS], f.page = .time ∧ ∀ k < 8,
      (∀ g ∈ firedFlds, g.page = .time ∧ Fld.place g k 0 ≠ Fld.place f k 0) ∧ Fld.low f k 0 ≠ 0x80 := by decide
  obtain ⟨hp, hall⟩ := happart f hf
  obtain ⟨hne, hlow⟩ := hall k hk
  exact h.of_same (fun g hg => getF_setF_place ((hne g hg).1.trans hp.symm) (hne g hg).2 ..) fun b _ hr => hr.setF_any (by decide) hlow ..

theorem FiredCells.evt {s t : State} {d k x : Nat} {late : Bool} (h : FiredCells s d k x late t) (hk : k < 8) (b : Nat) :
    FiredCells s d k x late (evt t .time d b) := by
  have hplain : ∀ g ∈ firedFlds, g.page = .time ∧ ∀ k < 8, Fld.plain g k 0 = true := by decide
  exact h.of_same (fun g hg => getF_evt_plain (hplain g hg).1 ((hplain g hg).2 k hk) ..) fun c hc hr => hr.evt_any (by decide) hc ..

theorem FiredCells.of_regs {s t v : State} {d k x : Nat} {late : Bool} (h : FiredCells s d k x late t) (hr : v.regs = t.regs) (hp : v.pol = t.pol) :
    FiredCells s d k x late v :=
  h.of_same (fun g _ => getF_congr g d k 0 (by rw [hr]) hp) fun _ _ h => h.of_regs hr

theorem firedCells_shows (s : State) (d x frm : Nat) (late : Bool) {k : Nat} (hk : k < 8) :
    let t := firedCells s d k x frm late false
    getF t TIME.TRIG_FIRED_SEC_LO d k 0 = timeSec x % 2 ^ 32 ∧ getF t TIME.TRIG_FIRED_SEC_HI d k 0 = timeSec x / 2 ^ 32 ∧
      getF t TIME.TRIG_FIRED_NS d k 0 = timeNs x ∧ getF t TIME.TRIG_FIRED_FRAC d k 0 = timeFrac x ∧ getF t TIME.TRIG_FIRED_FRN d k 0 = frm % 2 ^ 32 ∧
      getF t TIME.TRIG_STAT_LATE d k 0 = b2n late ∧ getF t TIME.TRIG_STAT_JUMPED d k 0 = 0 := by
  have h1 : timeSec x / 2 ^ 32 % 2 ^ TIME.TRIG_FIRED_SEC_HI.width = timeSec x / 2 ^ 32 := Nat.mod_eq_of_lt (timeSec_hi x)
  have h2 : timeNs x % 2 ^ TIME.TRIG_FIRED_NS.width = timeNs x := Nat.mod_eq_of_lt (timeNs_lt x)
  have h3 : timeFrac x % 2 ^ TIME.TRIG_FIRED_FRAC.width = timeFrac x := Nat.mod_eq_of_lt (timeFrac_lt x)
  have h4 : b2n late % 2 ^ TIME.TRIG_STAT_LATE.width = b2n late := Nat.mod_eq_of_lt (b2n_lt late)
  have h5 : TIME.TRIG_FIRED_SEC_LO.width = 32 ∧ TIME.TRIG_FIRED_FRN.width = 32 ∧ b2n false % 2 ^ TIME.TRIG_STAT_JUMPED.width = 0 := ⟨rfl, rfl, rfl⟩
  dsimp only [firedCells]
  refine ⟨?_, ?_, ?_, ?_, ?_, ?_, ?_⟩ <;> interval_cases k <;> simp (disch := decide) only [getF_setF_place, getF_setF_same, h1, h2, h3, h4, h5]

theorem trigFired_cells (s : State) (d x : Nat) (late : Bool) {k : Nat} (hk : k < 8) : FiredCells s d k x late (trigFired s d k x (s.frn + 1) late) := by
  obtain ⟨h1, h2, h3, h4, h5, h6, h7⟩ := firedCells_shows s d x (s.frn + 1) late hk
  have hstate : ∀ g ∈ firedFlds, g ≠ TIME.TRIG_STAT_STATE → g.page = TIME.TRIG_STAT_STATE.page ∧ ∀ k < 8,
      Fld.place g k 0 ≠ Fld.place TIME.TRIG_STAT_STATE k 0 := by decide
  have hplain : ∀ g ∈ firedFlds, g.page = .time ∧ ∀ k < 8, Fld.plain g k 0 = true := by decide
  have hbefore : ∀ g ∈ firedFlds, g ≠ TIME.TRIG_STAT_STATE →
      getF (trigFired s d k x (s.frn + 1) late) g d k 0 = getF (firedCells s d k x (s.frn + 1) late false) g d k 0 := fun g hg hne => by
    have hevt : ∀ (u : State) (b : Nat), getF (evt u .time d b) g d k 0 = getF u g d k 0 := fun u b =>
      getF_evt_plain (hplain g hg).1 ((hplain g hg).2 k hk) ..
    have hset : ∀ u : State, getF (setF u TIME.TRIG_STAT_STATE d k 0 2) g d k 0 = getF u g d k 0 := fun u =>
      getF_setF_place (hstate g hg hne).1 ((hstate g hg hne).2 k hk) ..
    unfold trigFired evtIf firedUnits
    dsimp only
    cases late <;> simp only [if_true, Bool.false_eq_true, if_false, hevt, getF_modTime, getF_modTrig, getF_ite, hset, ite_self]
  have hend : (trigOf s d k).per = 0 → getF (trigFired s d k x (s.frn + 1) late) TIME.TRIG_STAT_STATE d k 0 = 2 := fun hp => by
    have hevt : ∀ (u : State) (b : Nat), getF (evt u .time d b) TIME.TRIG_STAT_STATE d k 0 = getF u TIME.TRIG_STAT_STATE d k 0 := fun u b =>
      getF_evt_plain rfl ((hplain TIME.TRIG_STAT_STATE (by decide)).2 k hk) ..
    unfold trigFired evtIf firedUnits
    dsimp only
    rw [if_pos hp]
    cases late <;> simp (disch := decide) only [if_true, Bool.false_eq_true, if_false, hevt, getF_modTime, getF_modTrig, getF_setF_fits]
  refine ⟨(hbefore _ (by decide) (by decide)).trans h1, (hbefore _ (by decide) (by decide)).trans h2, (hbefore _ (by decide) (by decide)).trans h3,
    (hbefore _ (by decide) (by decide)).trans h4, (hbefore _ (by decide) (by decide)).trans h5, (hbefore _ (by decide) (by decide)).trans h6,
    (hbefore _ (by decide) (by decide)).trans h7, hend, ?_, fun hl => ?_⟩
  · unfold trigFired evtIf
    dsimp only
    split
    · exact (raised_evt (by decide) ..).evt_any (by decide) (by decide) ..
    · exact raised_evt (by decide) ..
  · unfold trigFired evtIf
    dsimp only
    rw [if_pos hl]
    exact raised_evt (by decide) ..

/-- What a firing leaves of its trigger and its domain's time. -/
structure FiredUnits (s : State) (d k : Nat) (t : State) : Prop where
  late : (trigOf t d k).late = none
  next : (trigOf t d k).next = (trigOf s d k).next + 1
  armed : (trigOf t d k).armed = decide ((trigOf s d k).per ≠ 0)
  time : (timeOf t d).t = (timeOf s d).t
  fires : (timeOf t d).firesNext.getD k false = true
  epoch : (trigOf s d k).action = 2 → (timeOf t d).epochAct = true

theorem FiredUnits.of_times {s t v : State} {d k : Nat} (h : FiredUnits s d k t) (hv : v.times = t.times) : FiredUnits s d k v := by
  have htrig := trigOf_congr hv d k
  have htime := timeOf_congr hv d
  exact ⟨htrig ▸ h.late, htrig ▸ h.next, htrig ▸ h.armed, htime ▸ h.time, htime ▸ h.fires, fun ha => htime ▸ h.epoch ha⟩

section
variable {s : State} (hs : Shaped s) {d k : Nat} (hd : d < 4) (hk : k < 8)
include hs hd hk

theorem firedUnits_shows (frm : Nat) : FiredUnits s d k (firedUnits s (trigOf s d k) d k frm) := by
  have hshape : Shaped (modTrig s d k (trigNext (trigOf s d k) frm)) := by
    apply shaped_of_sizes hs <;> simp [cite @modTrig_keeps]
  have htrig := trigOf_modTrig hs hd hk (trigNext (trigOf s d k) frm)
  have htime := timeOf_modTime_shaped hshape hd (timeFired (trigOf s d k) k)
  have hbase := timeOf_modTime_shaped hs hd fun u => { u with trigs := u.trigs.modify k (trigNext (trigOf s d k) frm) }
  have htrig' : trigOf (firedUnits s (trigOf s d k) d k frm) d k = trigNext (trigOf s d k) frm (trigOf s d k) :=
    (congrArg (fun u : TimeU => u.trigs.getD k {}) htime).trans htrig
  refine ⟨congrArg TrigU.late htrig', congrArg TrigU.next htrig', congrArg TrigU.armed htrig', (congrArg TimeU.t htime).trans ?_,
    ?_, fun ha => (congrArg TimeU.epochAct htime).trans ?_⟩
  · show (timeOf (modTrig s d k (trigNext (trigOf s d k) frm)) d).t = _
    unfold modTrig
    rw [hbase]
  · refine (congrArg (fun u : TimeU => u.firesNext.getD k false) htime).trans ?_
    simp [timeFired, List.getD_eq_getElem?_getD, hk]
  · simp [timeFired, ha]

theorem trigFired_units (x frm : Nat) (late : Bool) : FiredUnits s d k (trigFired s d k x frm late) := by
  have hbase : ∀ u : State, Shaped u → u.times = s.times → FiredUnits s d k (firedUnits u (trigOf s d k) d k frm) := fun u hu ht => by
    have h := firedUnits_shows hu hd hk frm
    rw [trigOf_congr ht] at h
    exact ⟨h.late, by rw [h.next, trigOf_congr ht], by rw [h.armed, trigOf_congr ht], by rw [h.time, timeOf_congr ht], h.fires,
      fun ha => h.epoch (by rw [trigOf_congr ht, ha])⟩
  have hcells : Shaped (firedCells s d k x frm late false) := by simpa only [firedCells, shaped_setF] using hs
  have hset : Shaped (if (trigOf s d k).per = 0 then setF (firedCells s d k x frm late false) TIME.TRIG_STAT_STATE d k 0 2
      else firedCells s d k x frm late false) := by
    split
    · exact (shaped_setF ..).mpr hcells
    · exact hcells
  have htimes : (firedCells s d k x frm late false).times = s.times := by simp only [firedCells, cite @setF_keeps]
  refine (hbase _ hset ?_).of_times ?_
  · split
    · simp only [cite @setF_keeps, htimes]
    · exact htimes
  · unfold trigFired
    simp only [cite @evtIf_keeps, cite @evt_keeps]

end

/-! ### The actions of a firing -/

/-- An INTERVAL result is written. -/
def ivlWritten (s : State) (d k code flags : Nat) : State := setF (setF s TIME.TRIG_IVL_RESULT_CODE d k 0 code) TIME.TRIG_IVL_RESULT_FLAGS d k 0 flags

theorem trigInterval_none {edges : List Rat} {barred : Rat → Bool} (h : (∀ x, barred x = true) ∨ nearest edges = none) (s : State) (d k : Nat) :
    trigInterval s d k edges barred = ivlWritten s d k (smpCode .noEdge) 4 := by
  unfold trigInterval
  cases hn : nearest edges with
  | none => rfl
  | some x =>
    have hb : barred x = true := (h.resolve_right (by simp [hn])) x
    dsimp only
    rw [if_pos hb]
    rfl

theorem trigInterval_some {edges : List Rat} {barred : Rat → Bool} {x : Rat} (h : nearest edges = some x) (hb : barred x = false) (s : State) (d k : Nat) :
    ∃ flags, trigInterval s d k edges barred = ivlWritten s d k (smpCode (pairStop [x] 0).1) flags := by
  unfold trigInterval
  rw [h]
  dsimp only
  rw [hb]
  exact ⟨_, rfl⟩

theorem ivlWritten_cells (s : State) (d code flags : Nat) {k : Nat} (hk : k < 8) :
    getF (ivlWritten s d k code flags) TIME.TRIG_IVL_RESULT_CODE d k 0 = code % 2 ^ 14 ∧
      getF (ivlWritten s d k code flags) TIME.TRIG_IVL_RESULT_FLAGS d k 0 = flags % 2 ^ 3 := by
  unfold ivlWritten
  have h : TIME.TRIG_IVL_RESULT_CODE.width = 14 ∧ TIME.TRIG_IVL_RESULT_FLAGS.width = 3 := ⟨rfl, rfl⟩
  constructor <;> interval_cases k <;> simp (disch := decide) only [getF_setF_place, getF_setF_same, h]

/-- A PULSE is refused where its output may not give one. -/
theorem trigPulse_refused {s t : State} {d n : Nat} (hout : pulseTarget t d n = pulseTarget s d n) (hctrl : get1 t OUT.CTRL n = get1 s OUT.CTRL n)
    (hret : get1 t APLL.STATUS_RETUNE d = get1 s APLL.STATUS_RETUNE d) (hlock : apllOf t d = apllOf s d) (k : Nat) :
    (pulseTarget s d n = false ∨ get1 s OUT.CTRL n = 1 ∨ get1 s APLL.STATUS_RETUNE d = 1 ∨ (apllOf s d).locked = false →
      trigPulse t d k n 0 0 = evt (setF t TIME.TRIG_STAT_CAUSE d k 0 2) .time d 4) ∧
    (¬(pulseTarget s d n = false ∨ get1 s OUT.CTRL n = 1 ∨ get1 s APLL.STATUS_RETUNE d = 1 ∨ (apllOf s d).locked = false) →
      trigPulse t d k n 0 0 = emitPulse t n 0 0) := by
  unfold trigPulse bit1
  dsimp only
  rw [hout, hctrl, hret, hlock]
  refine ⟨fun h => if_pos ?_, fun h => if_neg ?_⟩
  · rcases h with h | h | h | h <;> simp [h]
  · simp only [not_or] at h
    simp [h]

theorem trigFired_page {s : State} {d k x frm : Nat} {late : Bool} {f : Fld} (hf : f.page ≠ .time) (n i j : Nat) :
    getF (trigFired s d k x frm late) f n i j = getF s f n i j := by
  unfold trigFired evtIf firedUnits firedCells
  dsimp only
  split <;> simp only [getF_evt_of_page_ne hf, getF_modTime, getF_modTrig, getF_ite, getF_setF_page (f := TIME.TRIG_STAT_STATE) hf,
    getF_setF_page (f := TIME.TRIG_FIRED_SEC_LO) hf, getF_setF_page (f := TIME.TRIG_FIRED_SEC_HI) hf, getF_setF_page (f := TIME.TRIG_FIRED_NS) hf,
    getF_setF_page (f := TIME.TRIG_FIRED_FRAC) hf, getF_setF_page (f := TIME.TRIG_FIRED_FRN) hf, getF_setF_page (f := TIME.TRIG_STAT_LATE) hf,
    getF_setF_page (f := TIME.TRIG_STAT_JUMPED) hf, ite_self]

/-- A pulse depends on nothing but its output and its domain's APLL. -/
theorem emitPulse_outs {s t : State} (ho : t.outs = s.outs) (ha : t.aplls = s.aplls) (hp : t.pol = s.pol)
    (hf : ∀ f : Fld, f.page = .out → ∀ n, get1 t f n = get1 s f n) (n cyc : Nat) (c : Rat) : (emitPulse t n cyc c).outs = (emitPulse s n cyc c).outs := by
  have hout : outOf t n = outOf s n := by
    unfold outOf
    rw [ho]
  have hnom : ∀ x, nsToVco t n x = nsToVco s n x := fun x => by
    unfold nsToVco fNom outOwner apllOf
    rw [ha, hp]
  have hfine : takeFine t n = takeFine s n := by
    unfold takeFine bit1
    rw [hf _ rfl, hf _ rfl, hout]
  have hwidth : get1 t OUT.WIDTH_NS n = get1 s OUT.WIDTH_NS n := hf _ rfl n
  unfold emitPulse
  dsimp only
  rw [hout, hfine, hwidth]
  simp only [hnom]
  split
  · exact ho
  · unfold modOut
    rw [ho]

theorem emitPulse_ne (s : State) {m n : Nat} (h : m ≠ n) (cyc : Nat) (c : Rat) : outOf (emitPulse s n cyc c) m = outOf s m := by
  unfold emitPulse
  dsimp only
  split
  · rfl
  · exact outOf_modOut_ne s h _

theorem exec_trigFire {s : State} {d k : Nat} (hd : d < 4) (hk : k < 8) (edges : List Rat) (hr : domRuns s d = true) (ha : (trigOf s d k).armed = true) :
    let x := if (trigOf s d k).late.isSome then (timeOf s d).t else trigAt (trigOf s d k) * 2 ^ 64
    let f := fireTrig s d k x 1 (s.frn + 1) (trigOf s d k).late.isSome false 0 0
    exec (.trigFire d k edges) s = if (trigOf s d k).action = 1 then
      .next (trigInterval (modTrig f d k fun x => { x with ivl := none }) d k edges fun _ => (laneFor s (trigOf s d k).target).isNone)
    else .next f :=
  (if_pos ⟨hd, hk⟩).trans (if_pos (by rw [hr, ha]; rfl))

/-- What a firing's action shows: an INTERVAL's result, or a PULSE. -/
structure ActionShown (s : State) (d k : Nat) (edges : List Rat) (t : State) : Prop where
  noResult : (trigOf s d k).action = 1 → (laneFor s (trigOf s d k).target).isNone = true ∨ nearest edges = none →
    getF t TIME.TRIG_IVL_RESULT_CODE d k 0 = smpCode .noEdge ∧ getF t TIME.TRIG_IVL_RESULT_FLAGS d k 0 = 4
  result : ∀ y, (trigOf s d k).action = 1 → (laneFor s (trigOf s d k).target).isSome = true → nearest edges = some y →
    getF t TIME.TRIG_IVL_RESULT_CODE d k 0 = smpCode (pairStop [y] 0).1 % 2 ^ 14
  noPulse : (trigOf s d k).action = 3 → (pulseTarget s d (trigOf s d k).target = false ∨ get1 s OUT.CTRL (trigOf s d k).target = 1 ∨
    get1 s APLL.STATUS_RETUNE d = 1 ∨ (apllOf s d).locked = false) →
      getF t TIME.TRIG_STAT_CAUSE d k 0 = 2 ∧ Raised t .time d 4 ∧ t.outs = s.outs
  pulse : (trigOf s d k).action = 3 → ¬(pulseTarget s d (trigOf s d k).target = false ∨ get1 s OUT.CTRL (trigOf s d k).target = 1 ∨
    get1 s APLL.STATUS_RETUNE d = 1 ∨ (apllOf s d).locked = false) →
      outOf t (trigOf s d k).target = outOf (emitPulse s (trigOf s d k).target 0 0) (trigOf s d k).target ∧
        ∀ m, m ≠ (trigOf s d k).target → outOf t m = outOf s m

section
variable {s v : State} {d k x : Nat} {late : Bool} (hk : k < 8) (hcells : FiredCells s d k x late v)
include hk hcells

/-- The INTERVAL action. -/
theorem interval_shown (hs : Shaped v) (hd : d < 4) (hunits : FiredUnits s d k v) (edges : List Rat) (ha : (trigOf s d k).action = 1) :
    let t := trigInterval (modTrig v d k fun y => { y with ivl := none }) d k edges fun _ => (laneFor s (trigOf s d k).target).isNone
    FiredCells s d k x late t ∧ FiredUnits s d k t ∧ ActionShown s d k edges t := by
  obtain ⟨w, hw⟩ : ∃ w, w = modTrig v d k fun y => { y with ivl := none } := ⟨_, rfl⟩
  have hcw : FiredCells s d k x late w := hcells.of_regs (by rw [hw]; rfl) (by rw [hw]; rfl)
  have huw : FiredUnits s d k w := by
    have htrig := trigOf_modTrig hs hd hk fun y => { y with ivl := none }
    have htime := timeOf_modTime_shaped hs hd fun u => { u with trigs := u.trigs.modify k fun y => { y with ivl := none } }
    rw [← modTrig, ← hw] at htime
    rw [← hw] at htrig
    refine ⟨?_, ?_, ?_, ?_, ?_, fun he => ?_⟩
    · rw [htrig]; exact hunits.late
    · rw [htrig]; exact hunits.next
    · rw [htrig]; exact hunits.armed
    · rw [htime]; exact hunits.time
    · rw [htime]; exact hunits.fires
    · rw [htime]; exact hunits.epoch he
  have hwritten : ∀ code flags, FiredCells s d k x late (ivlWritten w d k code flags) ∧ FiredUnits s d k (ivlWritten w d k code flags) := fun code flags =>
    ⟨(hcw.setF hk (by decide) code).setF hk (by decide) flags, huw.of_times (by simp only [ivlWritten, cite @setF_keeps])⟩
  have h3 : ¬(trigOf s d k).action = 3 := by omega
  dsimp only
  rw [← hw]
  by_cases hnone : (∀ y : Rat, (laneFor s (trigOf s d k).target).isNone = true) ∨ nearest edges = none
  · rw [trigInterval_none hnone]
    obtain ⟨hcode, hflags⟩ := ivlWritten_cells w d (smpCode .noEdge) 4 hk
    refine ⟨(hwritten _ _).1, (hwritten _ _).2, fun _ _ => ⟨hcode, hflags⟩, fun y _ hsome hy => ?_, fun h => absurd h h3, fun h => absurd h h3⟩
    rcases hnone with h | h
    · rw [Option.isNone_iff_eq_none.mp (h 0)] at hsome
      cases hsome
    · rw [h] at hy
      cases hy
  · obtain ⟨hl, hn⟩ := not_or.mp hnone
    have hlane : (laneFor s (trigOf s d k).target).isNone = false := Bool.not_eq_true _ ▸ fun e => hl fun _ => e
    obtain ⟨y, hy⟩ := Option.ne_none_iff_exists'.mp hn
    obtain ⟨flags, hend⟩ := trigInterval_some hy (barred := fun _ => (laneFor s (trigOf s d k).target).isNone) hlane w d k
    rw [hend]
    refine ⟨(hwritten _ _).1, (hwritten _ _).2, fun _ h => ?_, fun z _ _ hz => ?_, fun h => absurd h h3, fun h => absurd h h3⟩
    · exact absurd (h.imp_left fun e _ => e) hnone
    · rw [Option.some.inj (hz.symm.trans hy)]
      exact (ivlWritten_cells w d _ flags hk).1

/-- The PULSE action, in a state in which only the firing differs. -/
theorem pulse_shown (ho : v.outs = s.outs) (hap : v.aplls = s.aplls) (hp : v.pol = s.pol) (hpage : ∀ f : Fld, f.page ≠ .time → ∀ n, get1 v f n = get1 s f n)
    (hunits : FiredUnits s d k v) (edges : List Rat) (ha : (trigOf s d k).action = 3) :
    let t := trigPulse v d k (trigOf s d k).target 0 0
    FiredCells s d k x late t ∧ FiredUnits s d k t ∧ ActionShown s d k edges t := by
  have htarget : pulseTarget v d (trigOf s d k).target = pulseTarget s d (trigOf s d k).target := by
    have hmode : get1 v OUT.MODE_PULSE (trigOf s d k).target = get1 s OUT.MODE_PULSE (trigOf s d k).target := hpage OUT.MODE_PULSE (by decide) _
    unfold pulseTarget outOwner
    rw [hmode, hp]
  have hapll : apllOf v d = apllOf s d := by
    unfold apllOf
    rw [hap]
  obtain ⟨hrefused, hpulse⟩ := trigPulse_refused htarget (hpage OUT.CTRL (by decide) _) (hpage APLL.STATUS_RETUNE (by decide) _) hapll k
  have h1 : ¬(trigOf s d k).action = 1 := by omega
  dsimp only
  by_cases href : pulseTarget s d (trigOf s d k).target = false ∨ get1 s OUT.CTRL (trigOf s d k).target = 1 ∨ get1 s APLL.STATUS_RETUNE d = 1 ∨
      (apllOf s d).locked = false
  · rw [hrefused href]
    have hcause : getF (evt (setF v TIME.TRIG_STAT_CAUSE d k 0 2) .time d 4) TIME.TRIG_STAT_CAUSE d k 0 = 2 := by
      interval_cases k <;> simp (disch := decide)
    exact ⟨(hcells.setF hk (by decide) 2).evt hk 4, hunits.of_times (by simp only [cite @evt_keeps, cite @setF_keeps]), fun h => absurd h h1,
      fun _ h => absurd h h1, fun _ _ => ⟨hcause, raised_evt (by decide) _ _ _, by simp only [cite @evt_keeps, cite @setF_keeps, ho]⟩,
      fun _ h => absurd href h⟩
  · rw [hpulse href]
    have houts := emitPulse_outs ho hap hp (fun f hf n => hpage f (by rw [hf]; decide) n) (trigOf s d k).target 0 0
    have hout : ∀ m, outOf (emitPulse v (trigOf s d k).target 0 0) m = outOf (emitPulse s (trigOf s d k).target 0 0) m := fun m => by
      unfold outOf
      rw [houts]
    exact ⟨hcells.of_regs (by simp [cite @emitPulse_keeps]) (by simp [cite @emitPulse_keeps]), hunits.of_times (by simp [cite @emitPulse_keeps]),
      fun h => absurd h h1, fun _ h => absurd h h1, fun _ h => absurd h href, fun _ _ => ⟨hout _, fun m hm => (hout m).trans (emitPulse_ne s hm ..)⟩⟩

end

/-- Settles O43: the firing's cells and units, then the trigger's action. -/
theorem triggerFires : Obligations.TriggerFires := by
  intro s d k edges hs hd hk u x refused
  refine ⟨fun hr ha => ?_, fun hno => (if_pos ⟨hd, hk⟩).trans (if_neg ?_)⟩
  · have hexec := exec_trigFire hd hk edges hr ha
    dsimp only at hexec
    rw [fireTrig_eq] at hexec
    obtain ⟨v, hv⟩ : ∃ v, v = trigFired s d k x (s.frn + 1) u.late.isSome := ⟨_, rfl⟩
    have hcells : FiredCells s d k x u.late.isSome v := hv ▸ trigFired_cells s d x _ hk
    have hunits : FiredUnits s d k v := hv ▸ trigFired_units hs hd hk x _ _
    have hkeep : v.outs = s.outs ∧ v.aplls = s.aplls ∧ v.pol = s.pol := by
      rw [hv]
      unfold trigFired firedUnits firedCells
      refine ⟨?_, ?_, ?_⟩ <;> simp [cite @evtIf_keeps, cite @evt_keeps, cite @modTime_keeps, cite @modTrig_keeps, cite @setF_keeps, cite @ite_state]
    have hshape : Shaped v := by
      rw [hv]
      apply shaped_of_sizes hs <;> simp [trigFired, firedUnits, firedCells, timeFired, cite @evtIf_keeps, cite @evt_keeps, cite @modTime_keeps,
        cite @modTrig_keeps, cite @setF_keeps, cite @ite_state]
    obtain ⟨t, ht, hc, hu, hact⟩ : ∃ t, exec (.trigFire d k edges) s = .next t ∧ FiredCells s d k x u.late.isSome t ∧ FiredUnits s d k t ∧
        ActionShown s d k edges t := by
      by_cases h1 : (trigOf s d k).action = 1
      · rw [if_pos h1, if_neg (by omega)] at hexec
        exact ⟨_, hexec, hv ▸ interval_shown hk hcells hshape hd hunits edges h1⟩
      · rw [if_neg h1] at hexec
        by_cases h3 : (trigOf s d k).action = 3
        · rw [if_pos h3] at hexec
          exact ⟨_, hexec, hv ▸ pulse_shown hk hcells hkeep.1 hkeep.2.1 hkeep.2.2 (fun f hf n => hv ▸ trigFired_page hf n 0 0) hunits edges h3⟩
        · rw [if_neg h3] at hexec
          exact ⟨_, hexec, hv ▸ hcells, hv ▸ hunits, fun h => absurd h h1, fun _ h => absurd h h1, fun h => absurd h h3, fun h => absurd h h3⟩
    exact ⟨t, ht, hc.secLo, hc.secHi, hc.ns, hc.frac, hc.frn, hc.mark, hc.jumped, hc.fired, hc.lateFired, hu.late, hu.next, hu.time, hu.fires,
      fun hp => ⟨by rw [hu.armed]; exact decide_eq_false (not_not.mpr hp), hc.state hp⟩, fun hp => by rw [hu.armed]; exact decide_eq_true hp,
      hact.noResult, hact.result, hu.epoch, hact.noPulse, hact.pulse⟩
  · rcases hno with h | h
    · simp [h]
    · simp [show (trigOf s d k).armed = false from h]

/-! ### The time of day (R353, R378 to R382) -/

theorem todSend_shows {s : State} (hs : Shaped s) {d : Nat} (hd : d < 4) (sec : Nat) (st : Bool) :
    let seq := if (timeOf s d).tod = [] then 0 else (get1 s TIME.TOD_STAT_TX_SEQ d + 1) % 65536
    let t := todSend s d sec st
    (timeOf t d).todDue = (timeOf s d).todDue.drop 1 ∧ 0 < (timeOf t d).todLeft ∧ get1 t TIME.TOD_STAT_TX_SEQ d = seq ∧
      (timeOf t d).tod = todBytes t d sec seq st ∧ (timeOf t d).t = (timeOf s d).t := by
  intro seq t
  have hseq : (if (timeOf s d).tod.isEmpty then 0 else (get1 s TIME.TOD_STAT_TX_SEQ d + 1) % 65536) = seq := by
    simp only [seq, List.isEmpty_iff]
  have hlt : seq < 2 ^ TIME.TOD_STAT_TX_SEQ.width := by
    have hw : 2 ^ TIME.TOD_STAT_TX_SEQ.width = 65536 := rfl
    simp only [seq, hw]
    split <;> omega
  have heq : t = modTime (set1 s TIME.TOD_STAT_TX_SEQ d seq) d fun v => { v with
      tod := todBytes (set1 s TIME.TOD_STAT_TX_SEQ d seq) d sec seq st, todDue := v.todDue.drop 1,
      todLeft := 220 * 8000 / baudRate (timeOf s d).baud + 1 } := by
    rw [← hseq]
    rfl
  have hshape : Shaped (set1 s TIME.TOD_STAT_TX_SEQ d seq) := (shaped_setF ..).mpr hs
  have htime := timeOf_modTime_shaped hshape hd fun v => { v with
    tod := todBytes (set1 s TIME.TOD_STAT_TX_SEQ d seq) d sec seq st, todDue := v.todDue.drop 1,
    todLeft := 220 * 8000 / baudRate (timeOf s d).baud + 1 }
  rw [heq, htime]
  exact ⟨rfl, Nat.succ_pos _, getF_setF_fits (by decide) hlt .., rfl, rfl⟩

/-- A mismatch as the page shows it. -/
def shownMismatch (m : Int) : Nat := ofSigned 8 (if m > 127 then 127 else if m < -127 then -127 else m)

/-- How many sentences in a row say the same. -/
def matchRun (s : State) (d : Nat) (m : Int) : Nat :=
  if (timeOf s d).nmeaLast = m ∧ get1 s TIME.TOD_STAT_MATCH_RUN d < 3 then get1 s TIME.TOD_STAT_MATCH_RUN d + 1 else 1

theorem matchRun_le (s : State) (d : Nat) (m : Int) : matchRun s d m ≤ 3 := by
  unfold matchRun
  split
  · next h => exact h.2
  · decide

theorem shaped_evtIf {s : State} (hs : Shaped s) (c : Bool) (p : Page) (n b : Nat) : Shaped (evtIf c s p n b) := by
  apply shaped_of_sizes hs <;> simp [cite @evtIf_keeps]

theorem shaped_addCnt {s : State} (hs : Shaped s) (f : Fld) (n k m : Nat) : Shaped (addCnt s f n k m) := by
  apply shaped_of_sizes hs <;> simp [cite @addCnt_keeps]

section
variable {s : State} (hs : Shaped s) {d : Nat} (hd : d < 4)
include hs hd

theorem nmeaUse_agrees {m : Int} (h : m = 0) : get1 (nmeaUse s d m) TIME.TOD_STAT_MISMATCH d = shownMismatch m % 2 ^ 8 ∧
    get1 (nmeaUse s d m) TIME.TOD_STAT_MATCH_RUN d = 0 ∧ get1 (nmeaUse s d m) TIME.STATUS_TOD_MISMATCH d = 0 ∧
    (timeOf (nmeaUse s d m) d).reqs = (timeOf s d).reqs := by
  have hshape : Shaped (set1 (set1 (set1 s TIME.TOD_STAT_MISMATCH d (shownMismatch m)) TIME.TOD_STAT_MATCH_RUN d 0) TIME.STATUS_TOD_MISMATCH d 0) :=
    (shaped_setF ..).mpr ((shaped_setF ..).mpr ((shaped_setF ..).mpr hs))
  have heq : nmeaUse s d m = modTime (set1 (set1 (set1 s TIME.TOD_STAT_MISMATCH d (shownMismatch m)) TIME.TOD_STAT_MATCH_RUN d 0)
      TIME.STATUS_TOD_MISMATCH d 0) d fun u => { u with nmeaLast := 0 } := if_pos h
  rw [heq, timeOf_modTime_shaped hshape hd]
  have hw : TIME.TOD_STAT_MISMATCH.width = 8 := rfl
  refine ⟨?_, ?_, ?_, rfl⟩ <;> simp (disch := decide) [get1, set1, getF_setF_same, hw]

/-- The state in which a sentence that does not agree was noted. -/
def noteMismatch (s : State) (d : Nat) (m : Int) (run : Nat) : State :=
  modTime (set1 (evtIf (!bit1 s TIME.STATUS_TOD_MISMATCH d) (set1 (set1 s TIME.TOD_STAT_MISMATCH d (shownMismatch m)) TIME.STATUS_TOD_MISMATCH d 1) .time d 6)
    TIME.TOD_STAT_MATCH_RUN d run) d fun u => { u with nmeaLast := m }

theorem nmeaUse_differs {m : Int} (h : m ≠ 0) :
    get1 (nmeaUse s d m) TIME.TOD_STAT_MISMATCH d = shownMismatch m % 2 ^ 8 ∧
    get1 (nmeaUse s d m) TIME.TOD_STAT_MATCH_RUN d = matchRun s d m ∧ get1 (nmeaUse s d m) TIME.STATUS_TOD_MISMATCH d = 1 ∧
    (get1 s TIME.STATUS_TOD_MISMATCH d ≠ 1 → Raised (nmeaUse s d m) .time d 6) ∧
    (timeOf (nmeaUse s d m) d).reqs = (timeOf s d).reqs ++
      (if matchRun s d m = 3 then [{ src := 3, delta := (m : Rat) * 1000000000, due := s.frn + 1 }] else []) := by
  obtain ⟨v, hv⟩ : ∃ v, v = noteMismatch s d m (matchRun s d m) := ⟨_, rfl⟩
  have heq : nmeaUse s d m = if matchRun s d m = 3 then putReq v d 3 ((m : Rat) * 1000000000) (s.frn + 1) else v := by
    rw [hv]
    exact if_neg h
  have hrun : matchRun s d m % 2 ^ TIME.TOD_STAT_MATCH_RUN.width = matchRun s d m := Nat.mod_eq_of_lt (Nat.lt_succ_of_le (matchRun_le s d m))
  have hw : TIME.TOD_STAT_MISMATCH.width = 8 := rfl
  have hcells : get1 v TIME.TOD_STAT_MISMATCH d = shownMismatch m % 2 ^ 8 ∧ get1 v TIME.TOD_STAT_MATCH_RUN d = matchRun s d m ∧
      get1 v TIME.STATUS_TOD_MISMATCH d = 1 ∧ (get1 s TIME.STATUS_TOD_MISMATCH d ≠ 1 → Raised v .time d 6) := by
    rw [hv]
    unfold noteMismatch evtIf
    refine ⟨?_, ?_, ?_, fun hne => ?_⟩
    · split <;> simp (disch := decide) [get1, set1, getF_setF_same, hw]
    · split <;> simp (disch := decide) [get1, set1, getF_setF_same, hrun]
    · split <;> simp (disch := decide) [get1, set1]
    · rw [if_pos (by simp [bit1, hne])]
      exact ((raised_evt (by decide) _ _ _).setF_any (by decide) (by decide) _ _).of_regs rfl
  have hshape : Shaped v := by
    rw [hv]
    apply shaped_of_sizes hs <;> simp [noteMismatch, cite @modTime_keeps, cite @set1_keeps, cite @evtIf_keeps]
  have htime : timeOf v d = { timeOf s d with nmeaLast := m } := by
    have hset : Shaped (set1 (evtIf (!bit1 s TIME.STATUS_TOD_MISMATCH d) (set1 (set1 s TIME.TOD_STAT_MISMATCH d (shownMismatch m))
        TIME.STATUS_TOD_MISMATCH d 1) .time d 6) TIME.TOD_STAT_MATCH_RUN d (matchRun s d m)) :=
      (shaped_setF ..).mpr (shaped_evtIf ((shaped_setF ..).mpr ((shaped_setF ..).mpr hs)) ..)
    rw [hv, noteMismatch, timeOf_modTime_shaped hset hd]
    simp only [set1, timeOf_setF, timeOf_evtIf]
  rw [heq]
  by_cases h3 : matchRun s d m = 3
  · rw [if_pos h3, if_pos h3]
    have hput := timeOf_modTime_shaped hshape hd fun u => { u with reqs := u.reqs ++ [{ src := 3, delta := (m : Rat) * 1000000000, due := s.frn + 1 }] }
    obtain ⟨h1, h2, h4, h5⟩ := hcells
    exact ⟨h1, h2, h4, h5, by rw [putReq, hput, htime]⟩
  · rw [if_neg h3, if_neg h3, htime, List.append_nil]
    obtain ⟨h1, h2, h4, h5⟩ := hcells
    exact ⟨h1, h2, h4, h5, rfl⟩

end

theorem nmea_bad {s : State} {text : List Nat} (h : nmeaParse text = none) (d us : Nat) :
    get1 (nmea s d text us) TIME.NMEA_BAD_CNT d = satTo cntMax (get1 s TIME.NMEA_BAD_CNT d + 1) ∧ Raised (nmea s d text us) .time d 7 := by
  unfold nmea
  rw [h]
  refine ⟨?_, raised_evt (by decide) ..⟩
  simp (disch := decide) [get1]

theorem nmea_phase {s : State} {text : List Nat} {utc us : Nat} (h : nmeaParse text = some utc) (hus : us < 10000 ∨ 900000 < us) (d : Nat) :
    get1 (nmea s d text us) TIME.NMEA_OK_CNT d = satTo cntMax (get1 s TIME.NMEA_OK_CNT d + 1) ∧
      get1 (nmea s d text us) TIME.NMEA_PHASE_CNT d = satTo cntMax (get1 s TIME.NMEA_PHASE_CNT d + 1) := by
  have hout : (!(decide (10000 ≤ us) && decide (us ≤ 900000))) = true := by
    rcases hus with h | h <;> simp <;> omega
  unfold nmea
  rw [h]
  dsimp only
  rw [if_pos hout]
  constructor <;> simp (disch := decide) [get1]

/-- A sentence whose second is known is used in the state that counts it. -/
theorem nmea_used {s : State} {text : List Nat} {utc us sec : Nat} {d : Nat} (h : nmeaParse text = some utc) (h1 : 10000 ≤ us) (h2 : us ≤ 900000)
    (hsec : (timeOf s d).nmeaSec = some sec) : nmea s d text us =
      nmeaUse (modTime (addCnt s TIME.NMEA_OK_CNT d 0 1) d fun u => { u with nmeaSec := none }) d
        ((utc : Int) + toSigned 16 (get1 s TIME.UTC_OFS d) - (sec : Int)) := by
  unfold nmea
  rw [h]
  dsimp only
  rw [if_neg (by simp [h1, h2]), hsec]

theorem baudSet_shows {s : State} (hs : Shaped s) {d b : Nat} (hd : d < 4) (hb : b < 8) : get1 (baudSet s d b) TIME.TOD_CFG_BAUD d = b ∧
    (timeOf (baudSet s d b) d).baud = if (timeOf s d).todLeft = 0 then b else (timeOf s d).baud := by
  have hset : get1 (set1 s TIME.TOD_CFG_BAUD d b) TIME.TOD_CFG_BAUD d = b := getF_setF_fits (f := TIME.TOD_CFG_BAUD) (by decide) hb s d 0 0
  have hshape : Shaped (set1 s TIME.TOD_CFG_BAUD d b) := (shaped_setF ..).mpr hs
  unfold baudSet
  dsimp only
  by_cases h : (timeOf s d).todLeft = 0
  · rw [if_pos (show (timeOf (set1 s TIME.TOD_CFG_BAUD d b) d).todLeft = 0 from h), if_pos h, timeOf_modTime_shaped hshape hd]
    exact ⟨hset, Nat.mod_eq_of_lt hb⟩
  · rw [if_neg (show ¬(timeOf (set1 s TIME.TOD_CFG_BAUD d b) d).todLeft = 0 from h), if_neg h]
    exact ⟨hset, rfl⟩

/-- The mark of a rollover is written at it. -/
theorem timeMark_time {s : State} (hs : Shaped s) {d sec : Nat} (hd : d < 4) (h : (timeOf s d).rolled = some sec) :
    timeOf (timeMark s d) d = { timeOf s d with mark := false } := by
  unfold timeMark
  dsimp only
  rw [h]
  dsimp only
  split
  · rw [timeOf_journalPg, timeOf_modTime_shaped hs hd, h]
  · next hm =>
    have hfalse : (timeOf s d).mark = false := by simpa using hm
    rw [← hfalse, ← h]

/-- A rollover labels its second and schedules its message. -/
theorem rollEffects_time {s : State} (hs : Shaped s) {d : Nat} (hd : d < 4) (sec : Nat) : timeOf (rollEffects s d sec) d =
    { timeOf s d with rolled := some sec, nmeaSec := some sec, todDue := (timeOf s d).todDue ++
        (if todSends s d then [(sec, 8 * get1 s TIME.TOD_CFG_TX_DELAY d, todStepped s d)] else []) } := by
  have hshape : Shaped (modTime s d fun u => { u with rolled := some sec, nmeaSec := some sec }) := by
    apply shaped_of_sizes hs <;> simp [cite @modTime_keeps]
  have hfirst := timeOf_modTime_shaped hs hd fun u => { u with rolled := some sec, nmeaSec := some sec }
  have hstep : todStepped (modTime s d fun u => { u with rolled := some sec, nmeaSec := some sec }) d = todStepped s d := by
    unfold todStepped
    rw [hfirst]
    rfl
  unfold rollEffects
  dsimp only
  have hsends : todSends (modTime s d fun u => { u with rolled := some sec, nmeaSec := some sec }) d = todSends s d := rfl
  rw [hsends, hstep]
  by_cases h : todSends s d = true
  · rw [if_pos h, if_pos h, timeOf_modTime_shaped hshape hd, hfirst]
    rfl
  · rw [if_neg h, if_neg h, hfirst, List.append_nil]

/-- The zeroings of a rollover leave the domain's time and its page. -/
theorem zeroNow_time (s : State) (d : Nat) : (zeroNow s d).times = s.times ∧ (zeroNow s d).frn = s.frn ∧ todSends (zeroNow s d) d = todSends s d ∧
    get1 (zeroNow s d) TIME.TOD_CFG_TX_DELAY d = get1 s TIME.TOD_CFG_TX_DELAY d := by
  have hpage : ∀ f : Fld, f.page = .time → get1 (zeroNow s d) f d = get1 s f d := fun f hf =>
    getF_of_page f (zeroNow_pg s d (by rw [hf]; decide)) (by simp [cite @zeroNow_keeps]) d 0 0
  have hruns : domRuns (zeroNow s d) d = domRuns s d := by
    unfold domRuns isOpen
    simp only [cite @zeroNow_keeps]
  refine ⟨by simp only [cite @zeroNow_keeps], by simp only [cite @zeroNow_keeps], ?_, hpage _ rfl⟩
  unfold todSends bit1
  rw [hruns, hpage _ rfl, hpage _ rfl]

/-- A domain's counter moved on. -/
def rollTime (g : Nat → Nat) (u : TimeU) : TimeU := { u with t := g u.t }

/-- The next second of a counter. -/
def nextSecond (x : Nat) : Nat := (x - x % secUnit + secUnit) % timeWrap

theorem exec_secondsRollover {s : State} {d : Nat} (hd : d < 4) (hr : domRuns s d = true) : exec (.secondsRollover d) s =
    .next (timeMark (rollEffects (zeroNow (modTime s d (rollTime nextSecond)) d) d ((timeSec (timeOf s d).t + 1) % 2 ^ 48)) d) :=
  (if_pos hd).trans (if_pos hr)

theorem rollover_time {s : State} (hs : Shaped s) {d : Nat} (hd : d < 4) (sec : Nat) (g : Nat → Nat) :
    timeOf (timeMark (rollEffects (zeroNow (modTime s d (rollTime g)) d) d sec) d) d =
      { rollTime g (timeOf s d) with rolled := some sec, nmeaSec := some sec, mark := false, todDue := (timeOf s d).todDue ++
          (if todSends s d then [(sec, 8 * get1 s TIME.TOD_CFG_TX_DELAY d, todStepped s d)] else []) } := by
  have hroll : timeOf (modTime s d (rollTime g)) d = rollTime g (timeOf s d) := timeOf_modTime_shaped hs hd _
  have hmod : Shaped (modTime s d (rollTime g)) :=
    shaped_of_sizes hs rfl rfl rfl rfl rfl rfl rfl rfl rfl rfl rfl rfl (modTime_len s d _ (fun _ => rfl) fun _ => rfl)
  obtain ⟨htimes, hfrn, hsends, hdelay⟩ := zeroNow_time (modTime s d (rollTime g)) d
  obtain ⟨v, hv⟩ : ∃ v, v = zeroNow (modTime s d (rollTime g)) d := ⟨_, rfl⟩
  rw [← hv] at htimes hfrn hsends hdelay ⊢
  have hshape : Shaped v := by
    rw [hv]
    apply shaped_of_sizes hmod <;> simp [cite @zeroNow_keeps]
  have hbase : timeOf v d = rollTime g (timeOf s d) := (timeOf_congr htimes d).trans hroll
  have hstep : todStepped v d = todStepped s d := by
    unfold todStepped
    rw [hbase, hfrn]
    rfl
  have heff := rollEffects_time hshape hd sec
  have hafter : Shaped (rollEffects v d sec) := by
    apply shaped_of_sizes hshape <;> simp [cite @rollEffects_keeps]
  rw [hbase, hstep, hsends, hdelay] at heff
  rw [timeMark_time hafter hd (by rw [heff]), heff]
  rfl

theorem exec_nmeaSentence {s : State} {d us : Nat} {text : List Nat} (hd : d < 4) (ht : (text.all fun c => decide (c < 256)) = true)
    (h : get1 s TIME.TOD_CFG_CONN d = 1 ∧ get1 s TIME.TOD_CFG_RX_EN d = 1 ∧ leafRuns s = true) :
    exec (.nmeaSentence d text us) s = .next (nmea s d text us) :=
  (if_pos ⟨hd, ht⟩).trans (if_pos (by simp [bit1, h.1, h.2.1, h.2.2]))

/-- A sentence in its window, whose second is known, by whether it agrees. -/
theorem nmea_labels {s : State} (hs : Shaped s) {d utc us sec : Nat} {text : List Nat} (hd : d < 4) (hp : nmeaParse text = some utc) (h1 : 10000 ≤ us)
    (h2 : us ≤ 900000) (hsec : (timeOf s d).nmeaSec = some sec) :
    let m : Int := (utc : Int) + toSigned 16 (get1 s TIME.UTC_OFS d) - (sec : Int)
    let t := nmea s d text us
    get1 t TIME.TOD_STAT_MISMATCH d = shownMismatch m % 2 ^ 8 ∧
      (m = 0 → get1 t TIME.TOD_STAT_MATCH_RUN d = 0 ∧ get1 t TIME.STATUS_TOD_MISMATCH d = 0 ∧ (timeOf t d).reqs = (timeOf s d).reqs) ∧
      (m ≠ 0 → get1 t TIME.TOD_STAT_MATCH_RUN d = matchRun s d m ∧ get1 t TIME.STATUS_TOD_MISMATCH d = 1 ∧
        (get1 s TIME.STATUS_TOD_MISMATCH d ≠ 1 → Raised t .time d 6) ∧ (timeOf t d).reqs = (timeOf s d).reqs ++
          (if matchRun s d m = 3 then [{ src := 3, delta := (m : Rat) * 1000000000, due := s.frn + 1 }] else [])) := by
  intro m t
  obtain ⟨v, hv⟩ : ∃ v, v = modTime (addCnt s TIME.NMEA_OK_CNT d 0 1) d fun u => { u with nmeaSec := none } := ⟨_, rfl⟩
  have ht : t = nmeaUse v d m := by
    rw [hv]
    exact nmea_used hp h1 h2 hsec
  have hcnt := shaped_addCnt hs TIME.NMEA_OK_CNT d 0 1
  have hshape : Shaped v := by
    rw [hv]
    apply shaped_of_sizes hcnt <;> simp [cite @modTime_keeps]
  have htime : timeOf v d = { timeOf s d with nmeaSec := none } := by
    rw [hv, timeOf_modTime_shaped hcnt hd, timeOf_addCnt]
  have hfrn : v.frn = s.frn := by
    rw [hv]
    simp only [cite @modTime_keeps, cite @addCnt_keeps]
  have hread : get1 v TIME.TOD_STAT_MATCH_RUN d = get1 s TIME.TOD_STAT_MATCH_RUN d ∧ get1 v TIME.STATUS_TOD_MISMATCH d = get1 s TIME.STATUS_TOD_MISMATCH d := by
    rw [hv]
    constructor <;> simp (disch := decide) [get1]
  have hrun : matchRun v d m = matchRun s d m := by
    unfold matchRun
    rw [hread.1, htime]
  rw [ht]
  by_cases hm : m = 0
  · obtain ⟨k1, k2, k3, k4⟩ := nmeaUse_agrees hshape hd hm
    exact ⟨k1, fun _ => ⟨k2, k3, k4.trans (by rw [htime])⟩, fun h => absurd hm h⟩
  · obtain ⟨k1, k2, k3, k4, k5⟩ := nmeaUse_differs hshape hd hm
    rw [hrun] at k2 k5
    rw [hread.2] at k4
    exact ⟨k1, fun h => absurd h hm, fun _ => ⟨k2, k3, k4, k5.trans (by rw [htime, hfrn])⟩⟩

/-- Settles O45: messages, sentences, BAUD and the rollover. -/
theorem timeOfDay : Obligations.TimeOfDay := by
  intro s d hs hd
  refine ⟨fun sec n st rest hdue hsend => ?_, fun hno => ?_, fun text us htext => ⟨fun hnot => ?_, fun hhears hp => ?_, fun utc hhears hp hus => ?_,
    fun utc sec hhears hp h1 h2 hsec => ?_⟩, fun b hb => ⟨_, if_pos ⟨hd, hb⟩, baudSet_shows hs hd hb⟩, fun hr => ?_, fun hr => (if_pos hd).trans (if_neg (by simp [hr]))⟩
  · obtain ⟨h1, h2, h3, h4, h5⟩ := todSend_shows hs hd sec st
    refine ⟨todSend s d sec st, (if_pos hd).trans ?_, h1.trans (by rw [hdue]; rfl), h2, h3, h4, h5⟩
    rw [hdue]
    exact if_pos hsend
  · refine (if_pos hd).trans ?_
    cases hdue : (timeOf s d).todDue with
    | nil => rfl
    | cons x r =>
      rcases hno with h | h
      · rw [hdue] at h
        cases h
      · exact if_neg (by simp [h])
  · refine (if_pos ⟨hd, htext⟩).trans (if_neg fun h => hnot ?_)
    simpa [bit1, and_assoc] using h
  · exact ⟨_, exec_nmeaSentence hd htext hhears, nmea_bad hp d us⟩
  · exact ⟨_, exec_nmeaSentence hd htext hhears, nmea_phase hp hus d⟩
  · exact ⟨_, exec_nmeaSentence hd htext hhears, nmea_labels hs hd hp h1 h2 hsec⟩
  · have htime := rollover_time hs hd ((timeSec (timeOf s d).t + 1) % 2 ^ 48) nextSecond
    refine ⟨_, exec_secondsRollover hd hr, ?_, ?_, ?_, ?_⟩ <;> rw [htime]
    · rfl

/-! ### Change requests (R83, R359 to R363) -/

theorem timeOf_modTime_keep {β : Type} {g : TimeU → β} {f : TimeU → TimeU} (h : ∀ u, g (f u) = g u) (s : State) (m n : Nat) :
    g (timeOf (modTime s n f) m) = g (timeOf s m) := getD_modify_keep h s.times m n {}

/-- What a firing leaves of a domain's time: everything but its triggers, its firings and a pending EPOCH. -/
theorem fireTrig_time {β : Type} {g : TimeU → β} (hg : ∀ u x y z, g { u with trigs := x, firesNext := y, epochAct := z } = g u) (s : State)
    (d k t n frm : Nat) (late jumped : Bool) (cyc : Nat) (c : Rat) (m : Nat) :
    g (timeOf (fireTrig s d k t n frm late jumped cyc c) m) = g (timeOf s m) := by
  have htrig : ∀ (u : State) (f : TrigU → TrigU), g (timeOf (modTrig u d k f) m) = g (timeOf u m) := fun u f =>
    timeOf_modTime_keep (fun v => hg v (v.trigs.modify k f) v.firesNext v.epochAct) u m d
  have hpulse : ∀ u : State, timeOf (trigPulse u d k (trigOf s d k).target cyc c) m = timeOf u m := fun u => by
    unfold trigPulse
    dsimp only
    split
    · simp only [timeOf_evt, timeOf_setF]
    · exact timeOf_congr (by simp [cite @emitPulse_keeps]) m
  unfold fireTrig
  extract_lets u s1 s2 s3 s4 s5 at' s6 s7 s8 s9
  have h5 : g (timeOf s5 m) = g (timeOf s m) := by
    simp only [s5, s4, s3, s2, s1]
    split <;> simp only [timeOf_setF]
  have h6 : g (timeOf s6 m) = g (timeOf s m) := by
    clear_value s5
    exact (htrig s5 _).trans h5
  have h7 : g (timeOf s7 m) = g (timeOf s m) := by
    clear_value s6
    refine Eq.trans (timeOf_modTime_keep (g := g) (fun v => ?_) s6 m d) h6
    exact hg v v.trigs _ _
  clear_value s7
  have h9 : g (timeOf s9 m) = g (timeOf s m) := by
    have h8 : timeOf s8 m = timeOf s7 m := by simp only [s8, timeOf_evtIf, timeOf_evt]
    simp only [s9]
    split
    · rw [timeOf_addCnt, h8, h7]
    · rw [h8, h7]
  split
  · rw [hpulse, h9]
  · exact h9

theorem jumpTrigs_time {β : Type} {g : TimeU → β} (hg : ∀ u x y z, g { u with trigs := x, firesNext := y, epochAct := z } = g u) (s : State)
    (d m : Nat) : g (timeOf (jumpTrigs s d) m) = g (timeOf s m) := by
  unfold jumpTrigs
  refine foldl_inv (fun t : State => g (timeOf t m)) _ (fun t k => ?_) _ s
  dsimp only
  split
  · exact fireTrig_time hg ..
  · rfl

/-- The cells that a step reports in. -/
def stepFlds : List Fld := [TIME.STATUS_TIME_SET, TIME.STATUS_STEPPED, TIME.STEP_CNT]

/-- A trigger's cells lie apart from them. -/
theorem trigCell_keeps {k : Nat} (hk : k < 8) : ∀ f ∈ firedFlds ++ [TIME.TRIG_STAT_CAUSE], ∀ (s : State) (d v : Nat),
    Keeps stepFlds s (setF s f d k 0 v) := by
  have hall : ∀ f ∈ firedFlds ++ [TIME.TRIG_STAT_CAUSE], ∀ k < 8, stepFlds.all (Fld.apart f k 0) = true ∧
      Fld.apart f k 0 (HDR.EVT f.page) = true := by decide
  exact fun f hf s d v => .setF (hall f hf k hk) s d v

theorem skipped_keeps {k : Nat} (hk : k < 8) (s : State) (d n : Nat) : Keeps stepFlds s (addCnt s TIME.TRIG_SKIPPED d k n) := by
  have hall : ∀ k < 8, (stepFlds.all (Fld.apart TIME.TRIG_SKIPPED k 0) = true ∧ Fld.apart TIME.TRIG_SKIPPED k 0 (HDR.EVT .time) = true) ∧
      stepFlds.all (Fld.lowPlain · 0 0) = true := by decide
  exact .addCnt (hall k hk) s d n

theorem trigPulse_keepsFlds (s : State) (d n cyc : Nat) (c : Rat) {k : Nat} (hk : k < 8) : Keeps stepFlds s (trigPulse s d k n cyc c) := by
  unfold trigPulse
  dsimp only
  refine Keeps.ite ?_ (.of_units (by simp [cite @emitPulse_keeps]) (by simp [cite @emitPulse_keeps]))
  exact (trigCell_keeps hk _ (by decide) s d 2).after_evt (by decide)

theorem fireTrig_keepsFlds (s : State) (d t n frm : Nat) (late jumped : Bool) (cyc : Nat) (c : Rat) {k : Nat} (hk : k < 8) :
    Keeps stepFlds s (fireTrig s d k t n frm late jumped cyc c) := by
  have hset := trigCell_keeps hk
  unfold fireTrig
  extract_lets u s1 s2 s3 s4 s5 at' s6 s7 s8 s9
  have h2 : Keeps stepFlds s s2 := (hset TIME.TRIG_FIRED_SEC_LO (by decide) s d _).trans ((hset TIME.TRIG_FIRED_SEC_HI (by decide) _ d _).trans
    ((hset TIME.TRIG_FIRED_NS (by decide) _ d _).trans (hset TIME.TRIG_FIRED_FRAC (by decide) _ d _)))
  have h4 : Keeps stepFlds s s4 := h2.trans ((hset TIME.TRIG_FIRED_FRN (by decide) s2 d _).trans ((hset TIME.TRIG_STAT_LATE (by decide) s3 d _).trans
    (hset TIME.TRIG_STAT_JUMPED (by decide) _ d _)))
  have h5 : Keeps stepFlds s s5 := .ite (h4.trans (hset TIME.TRIG_STAT_STATE (by decide) s4 d 2)) h4
  have h8 : Keeps stepFlds s s8 := ((h5.after_units (u := s7) rfl rfl).after_evt (by decide)).trans (.evtIf (by decide) ..)
  have h9 : Keeps stepFlds s s9 := .ite (h8.trans (skipped_keeps hk s8 d _)) h8
  exact .ite (h9.trans (trigPulse_keepsFlds _ _ _ _ _ hk)) h9

theorem jumpTrigs_keepsFlds (s : State) (d : Nat) : Keeps stepFlds s (jumpTrigs s d) := by
  unfold jumpTrigs
  refine foldl_rel (R := Keeps stepFlds) (Keeps.refl _) (fun _ _ _ => Keeps.trans) (fun t k hk => ?_) s
  exact .ite (fireTrig_keepsFlds _ _ _ _ _ _ _ _ _ (List.mem_range.mp hk)) (.refl _ _)

/-! A request's outcomes. -/

theorem refuseReq_time (s : State) (d cause src : Nat) (delta : Rat) (m : Nat) : timeOf (refuseReq s d cause src delta) m = timeOf s m := by
  simp only [refuseReq, timeOf_journalPg, timeOf_evt, set1, timeOf_setF]

theorem refuseReq_shows (s : State) (d src : Nat) (delta : Rat) {cause : Nat} (hc : cause < 8) :
    get1 (refuseReq s d cause src delta) TIME.STEP_LIM_LAST_REFUSE d = cause ∧ Raised (refuseReq s d cause src delta) .time d 1 := by
  have hkeep : Keeps [TIME.STEP_LIM_LAST_REFUSE] (evt (set1 s TIME.STEP_LIM_LAST_REFUSE d cause) .time d 1) (refuseReq s d cause src delta) :=
    .journalPg (by decide) ..
  refine ⟨(hkeep.reads _ List.mem_cons_self d).trans ?_, hkeep.raised .time d 1 (by decide) (by decide) (raised_evt (by decide) ..)⟩
  have hw : cause % 2 ^ TIME.STEP_LIM_LAST_REFUSE.width = cause := Nat.mod_eq_of_lt hc
  simp (disch := decide) [get1, set1, getF_setF_same, hw]

/-- The counter after a step. -/
def steppedTo (u : TimeU) (delta : Rat) : Nat := (((u.t : Int) + roundAway (delta * (nsUnit : Rat))).emod (timeWrap : Int)).toNat

/-- A step up to the firings that it jumps over. -/
def stepBase (s : State) (d src : Nat) (delta : Rat) (counted : Bool) : State :=
  let steps := (if counted then [s.frn] else []) ++ stepsHour s d
  let s1 := modTime s d fun v => { v with t := steppedTo (timeOf s d) delta, stepped := some s.frn, steps := steps, mark := true,
                                          jump := roundAway (delta * (nsUnit : Rat)) }
  let s2 := set1 (set1 s1 TIME.STATUS_TIME_SET d 1) TIME.STATUS_STEPPED d 1
  let w := ofSigned 64 (truncR delta)
  let s3 := set1 (set1 (set1 s2 TIME.LAST_STEP_LO d w) TIME.LAST_STEP_HI d (w / 2 ^ 32)) TIME.LAST_STEP_FRN d s.frn
  let s4 := set1 (set1 s3 TIME.STEP_LIM_LAST_SRC d src) TIME.STEP_LIM_DONE_HR d (satTo 255 steps.length)
  let s5 := addCnt (evt s4 .time d 0) TIME.STEP_CNT d 0 1
  let s6 := journalPg s5 0x060 (some (ownerOf s .time d)) .time d (stepData src delta false none)
  modDom s6 d fun v => { v with stepped := true }

theorem timeStep_eq (s : State) (d src : Nat) (delta : Rat) (counted : Bool) : timeStep s d src delta counted =
    if 0 < delta then jumpTrigs (stepBase s d src delta counted) d else stepBase s d src delta counted := rfl

theorem timeStep_time {β : Type} {g : TimeU → β} (hg : ∀ u x y z, g { u with trigs := x, firesNext := y, epochAct := z } = g u) (s : State)
    (d src : Nat) (delta : Rat) (counted : Bool) (m : Nat) :
    g (timeOf (timeStep s d src delta counted) m) = g (timeOf (stepBase s d src delta counted) m) := by
  rw [timeStep_eq]
  split
  · exact jumpTrigs_time hg ..
  · rfl

theorem stepBase_time {s : State} (hs : Shaped s) {d : Nat} (hd : d < 4) (src : Nat) (delta : Rat) (counted : Bool) :
    (timeOf (stepBase s d src delta counted) d).t = steppedTo (timeOf s d) delta ∧ (timeOf (stepBase s d src delta counted) d).stepped = some s.frn ∧
      (timeOf (stepBase s d src delta counted) d).reqs = (timeOf s d).reqs := by
  have hdom : ∀ (u : State) (f : DomU → DomU), timeOf (modDom u d f) d = timeOf u d := fun _ _ => rfl
  simp only [stepBase, hdom, timeOf_journalPg, timeOf_addCnt, timeOf_evt, set1, timeOf_setF, timeOf_modTime_shaped hs hd, and_self]

theorem stepBase_shows (s : State) (d src : Nat) (delta : Rat) (counted : Bool) :
    let t := stepBase s d src delta counted
    get1 t TIME.STATUS_TIME_SET d = 1 ∧ get1 t TIME.STATUS_STEPPED d = 1 ∧ get1 t TIME.STEP_CNT d = satTo cntMax (get1 s TIME.STEP_CNT d + 1) ∧
      Raised t .time d 0 := by
  intro t
  unfold t stepBase
  extract_lets steps s1 s2 w s3 s4 s5 s6
  have hend : Keeps stepFlds s5 (modDom s6 d fun v => { v with stepped := true }) :=
    (show Keeps stepFlds s5 s6 from .journalPg (by decide) s5 _ _ _ _ _).trans (.modDom _ s6 d _)
  have hset : get1 s5 TIME.STATUS_TIME_SET d = 1 ∧ get1 s5 TIME.STATUS_STEPPED d = 1 ∧ get1 s5 TIME.STEP_CNT d = satTo cntMax (get1 s TIME.STEP_CNT d + 1) := by
    refine ⟨?_, ?_, ?_⟩ <;> simp (disch := decide) [s5, s4, s3, s2, s1, get1, set1]
  have hraised : Raised s5 .time d 0 := by
    clear_value s4
    exact Raised.addCnt_any (f := TIME.STEP_CNT) (raised_evt (bit := 0) (by decide) s4 .time d) (by decide) (by decide) (by decide) d 1
  clear_value s5
  obtain ⟨h1, h2, h3⟩ := hset
  exact ⟨(hend.reads TIME.STATUS_TIME_SET (by decide) d).trans h1, (hend.reads TIME.STATUS_STEPPED (by decide) d).trans h2,
    (hend.reads TIME.STEP_CNT (by decide) d).trans h3, hend.raised .time d 0 (by decide) (by decide) hraised⟩

theorem timeStep_shows (s : State) (d src : Nat) (delta : Rat) (counted : Bool) :
    let t := timeStep s d src delta counted
    get1 t TIME.STATUS_TIME_SET d = 1 ∧ get1 t TIME.STATUS_STEPPED d = 1 ∧ Counted s t TIME.STEP_CNT d 0 1 ∧ Raised t .time d 0 := by
  obtain ⟨h1, h2, h3, h4⟩ := stepBase_shows s d src delta counted
  have hkeep : Keeps stepFlds (stepBase s d src delta counted) (timeStep s d src delta counted) := by
    rw [timeStep_eq]
    exact .ite (jumpTrigs_keepsFlds _ d) (.refl _ _)
  exact ⟨(hkeep.reads _ (by decide) d).trans h1, (hkeep.reads _ (by decide) d).trans h2, (hkeep.reads TIME.STEP_CNT (by decide) d).trans h3,
    hkeep.raised .time d 0 (by decide) (by decide) h4⟩

/-- A slew in FREQ mode adds to the counter's slew and leaves its value. -/
theorem timeSlew_time {s : State} (hs : Shaped s) {d : Nat} (hd : d < 4) (src : Nat) (delta : Rat) :
    (timeOf (timeSlew s d src delta) d).t = (timeOf s d).t ∧ (timeOf (timeSlew s d src delta) d).reqs = (timeOf s d).reqs ∧
      ((domOf s d).mode = 0 → (timeOf (timeSlew s d src delta) d).slew = (timeOf s d).slew + delta * 512) := by
  have hrec : timeOf (slewRecord s d src delta) d = timeOf s d := by simp only [slewRecord, timeOf_journalPg, set1, timeOf_setF]
  have hshape : Shaped (slewRecord s d src delta) := by
    apply shaped_of_sizes hs <;> simp [cite @slewRecord_keeps]
  have hmod := timeOf_modTime_shaped hshape hd fun u => { u with slew := u.slew + delta * 512 }
  rw [hrec] at hmod
  have hpub : ∀ u : State, timeOf (publishSlew u d) d = timeOf u d := fun _ => rfl
  unfold timeSlew
  dsimp only
  split
  · rw [hpub, hmod]
    exact ⟨rfl, rfl, fun _ => rfl⟩
  · next h => exact ⟨congrArg TimeU.t hrec, congrArg TimeU.reqs hrec, fun h0 => absurd h0 h⟩

/-- A request is refused, steps the counter, or is carried as a slew. -/
theorem handleReq_cases (s : State) (d src : Nat) (delta : Rat) : (∃ cause, handleReq s d src delta = refuseReq s d cause src delta) ∨
    (∃ counted, handleReq s d src delta = timeStep s d src delta counted) ∨ handleReq s d src delta = timeSlew s d src delta := by
  unfold handleReq
  split
  · exact .inl ⟨1, rfl⟩
  split
  · exact .inr (.inl ⟨true, rfl⟩)
  split
  · exact .inl ⟨2, rfl⟩
  split
  · exact .inl ⟨3, rfl⟩
  split
  · exact .inr (.inl ⟨false, rfl⟩)
  split
  · exact .inr (.inr rfl)
  split
  · split
    · exact .inl ⟨4, rfl⟩
    · exact .inr (.inr rfl)
  split
  · split
    · exact .inl ⟨5, rfl⟩
    · exact .inr (.inr rfl)
  · exact .inr (.inl ⟨true, rfl⟩)

theorem handleReq_reqs {s : State} (hs : Shaped s) {d : Nat} (hd : d < 4) (src : Nat) (delta : Rat) :
    (timeOf (handleReq s d src delta) d).reqs = (timeOf s d).reqs := by
  rcases handleReq_cases s d src delta with ⟨cause, h⟩ | ⟨counted, h⟩ | h
  · rw [h, refuseReq_time]
  · rw [h, timeStep_time (g := TimeU.reqs) (fun _ _ _ _ => rfl)]
    exact (stepBase_time hs hd src delta counted).2.2
  · rw [h]
    exact (timeSlew_time hs hd src delta).2.1

/-- The requests due leave the list. -/
def reqsTaken (s : State) (d : Nat) : State := modTime s d fun v => { v with reqs := v.reqs.filter fun r => decide (s.frn < r.due) }

section
variable {s : State} {d : Nat} {r : ChangeReq} (hdue : ((timeOf s d).reqs.filter fun q => decide (q.due ≤ s.frn)) = [r]) (hsrc : r.src < 4)
include hdue

theorem resolveReqs_bad (hbad : r.bad = true) : resolveReqs s d = refuseReq (reqsTaken s d) d 7 r.src (reqDelta s d r) := by
  have hnone : (reqOrder.flatMap fun src => [r].filter fun q => q.src == src && !q.bad) = [] := by
    simp [hbad]
  unfold resolveReqs
  dsimp only
  rw [hdue, hnone]
  simp only [List.filter_cons, hbad, if_true, List.filter_nil, List.foldl_cons, List.foldl_nil]
  rfl

include hsrc

theorem resolveReqs_good (hbad : r.bad = false) : resolveReqs s d = handleReq (reqsTaken s d) d r.src (reqDelta s d r) := by
  have hone : (reqOrder.flatMap fun src => [r].filter fun q => q.src == src && !q.bad) = [r] := by
    have h : r.src = 0 ∨ r.src = 1 ∨ r.src = 2 ∨ r.src = 3 := by omega
    rcases h with h | h | h | h <;> simp [reqOrder, hbad, h]
  unfold resolveReqs
  dsimp only
  rw [hdue, hone]
  simp only [List.filter_cons, hbad, Bool.false_eq_true, if_false, List.filter_nil, List.foldl_nil]
  rfl

end

theorem floor_add_half (z : Int) : ((z : Rat) + 1 / 2).floor = z := by
  show ⌊(z : ℚ) + 1 / 2⌋ = z
  rw [Int.floor_eq_iff]
  constructor <;> linarith

theorem roundAway_int (z : Int) : roundAway (z : Rat) = z := by
  unfold roundAway
  split
  · exact floor_add_half z
  · have h := floor_add_half (-z)
    push_cast at h
    rw [h, neg_neg]

/-- A step to a value of the counter lands on it. -/
theorem steppedTo_abs {u : TimeU} {n : Nat} {x : Rat} (h : x * 2 ^ 64 = n) : steppedTo u (x - (u.t : Rat) / (nsUnit : Rat)) = n % timeWrap := by
  have hunit : (nsUnit : Rat) = 2 ^ 64 := by
    unfold nsUnit
    norm_num
  have hmove : (x - (u.t : Rat) / (nsUnit : Rat)) * (nsUnit : Rat) = (((n : Int) - (u.t : Int) : Int) : Rat) := by
    rw [hunit]
    push_cast
    rw [← h]
    ring
  unfold steppedTo
  rw [hmove, roundAway_int, add_sub_cancel, show Int.emod (n : Int) (timeWrap : Int) = ((n % timeWrap : Nat) : Int) from (Int.natCast_mod ..).symm,
    Int.toNat_natCast]

/-- A request made by SET. -/
theorem hostSet_put {s : State} (hs : Shaped s) {d : Nat} (hd : d < 4) (r : ChangeReq) :
    let t := modTime s d fun u => { u with reqs := u.reqs ++ [r] }
    timeOf t d = { timeOf s d with reqs := (timeOf s d).reqs ++ [r] } ∧ (∀ e, e ≠ d → timeOf t e = timeOf s e) ∧ t = { s with times := t.times } :=
  ⟨timeOf_modTime_shaped hs hd _, fun _ he => timeOf_modTime_ne he .., rfl⟩

/-- Settles O41: SET_ABS and SET_REL, and the one request due at a boundary. -/
theorem timeRequests : Obligations.TimeRequests := by
  intro s d hs hd
  refine ⟨⟨_, if_pos hd, hostSet_put hs hd _⟩, ⟨_, if_pos hd, hostSet_put hs hd _⟩, fun r hdue hsrc => ?_⟩
  intro t Refused
  obtain ⟨v, hv⟩ : ∃ v, v = reqsTaken s d := ⟨_, rfl⟩
  have htime : timeOf v d = { timeOf s d with reqs := (timeOf s d).reqs.filter fun q => decide (s.frn < q.due) } := by
    rw [hv]
    exact timeOf_modTime_shaped hs hd _
  have hshape : Shaped v := by
    rw [hv]
    apply shaped_of_sizes hs <;> simp [reqsTaken, cite @modTime_keeps]
  have hcells : ∀ f, get1 v f d = get1 s f d := fun f => by rw [hv]; rfl
  have hruns : domRuns v d = domRuns s d := by rw [hv]; rfl
  have hdom : domOf v d = domOf s d := by rw [hv]; rfl
  have hfollow : following v d = following s d := by rw [hv]; rfl
  have hfrn : v.frn = s.frn := by rw [hv]; rfl
  have hrefused : ∀ cause, cause < 8 → t = refuseReq v d cause r.src (reqDelta s d r) → Refused cause := fun cause hc h => by
    obtain ⟨h1, h2⟩ := refuseReq_shows v d r.src (reqDelta s d r) hc
    rw [← h] at h1 h2
    exact ⟨by rw [h, refuseReq_time, htime], h1, h2⟩
  have hgood : r.bad = false → t = handleReq v d r.src (reqDelta s d r) := fun hb => hv ▸ resolveReqs_good hdue hsrc hb
  refine ⟨?_, fun hb => hrefused 7 (by decide) (hv ▸ resolveReqs_bad hdue hb), fun hb hr => hrefused 1 (by decide) ?_, fun hb hr h0 hm hf => hrefused 2 (by decide) ?_,
    fun hb hr h0 hm hset => ?_, fun hb hr h0 hm hset hle => ?_⟩
  · cases hb : r.bad with
    | true =>
      have h : t = refuseReq v d 7 r.src (reqDelta s d r) := hv ▸ resolveReqs_bad hdue hb
      rw [h, refuseReq_time, htime]
    | false => rw [hgood hb, handleReq_reqs hshape hd, htime]
  · rw [hgood hb]
    exact if_pos (by rw [hruns, hr]; rfl)
  · rw [hgood hb, h0]
    exact (if_neg (by rw [hruns, hr]; decide)).trans ((if_neg (by decide)).trans (if_pos ⟨rfl, by rw [hdom]; exact hm, by rw [hfollow]; exact hf⟩))
  · have hstep : t = timeStep v d r.src (reqDelta s d r) false := by
      rw [hgood hb, h0]
      refine (if_neg (by rw [hruns, hr]; decide)).trans ((if_neg (by decide)).trans ((if_neg ?_).trans ((if_neg fun h => absurd h.1 (by decide)).trans (if_pos ?_))))
      · rintro ⟨-, h1, h2⟩
        rw [hdom] at h1
        rw [hfollow] at h2
        rcases hm with h | h
        · exact h1 h
        · rw [h] at h2
          cases h2
      · rw [bit1, hcells, hset]
        rfl
    obtain ⟨k1, k2, k3⟩ := stepBase_time hshape hd r.src (reqDelta s d r) false
    have htimes : ∀ {β : Type} (g : TimeU → β), (∀ u x y z, g { u with trigs := x, firesNext := y, epochAct := z } = g u) →
        g (timeOf t d) = g (timeOf (stepBase v d r.src (reqDelta s d r) false) d) := fun g hg => by
      rw [hstep]
      exact timeStep_time hg ..
    obtain ⟨c1, c2, c3, c4⟩ := timeStep_shows v d r.src (reqDelta s d r) false
    rw [← hstep] at c1 c2 c3 c4
    refine ⟨fun n habs hn => ?_, ?_, c1, c2, ?_, c4⟩
    · rw [htimes TimeU.t fun _ _ _ _ => rfl, k1, htime]
      unfold reqDelta
      rw [if_pos habs]
      exact steppedTo_abs hn
    · rw [htimes TimeU.stepped fun _ _ _ _ => rfl, k2, hfrn]
    · exact c3.trans (by rw [show getF v TIME.STEP_CNT d 0 0 = getF s TIME.STEP_CNT d 0 0 from hcells _])
  · have hslew : t = timeSlew v d r.src (reqDelta s d r) := by
      rw [hgood hb]
      refine (if_neg (by rw [hruns, hr]; decide)).trans ((if_neg (by omega)).trans ((if_neg ?_).trans ((if_neg (by omega)).trans
        ((if_neg ?_).trans (if_pos ⟨by omega, ?_⟩)))))
      · rintro ⟨-, h1, -⟩
        rw [hdom] at h1
        exact h1 hm
      · rw [bit1, hcells, hset]
        decide
      · rw [hcells]
        exact hle
    obtain ⟨k1, -, k3⟩ := timeSlew_time hshape hd r.src (reqDelta s d r)
    rw [hslew, k1, k3 (by rw [hdom]; exact hm), htime]
    exact ⟨rfl, rfl⟩

end Sys2Proof.Machine

/-! Synthesis and outputs (R325 to R349, R601). -/

namespace Sys2Proof.Machine

/-! ### Locks of an APLL (R328 to R331) -/

theorem exec_apllLockLost {s : State} {d : Nat} (hd : d < 4) (hp : (apllOf s d).powered = true) (hl : get1 s APLL.STATUS_LOCK d = 1) :
    exec (.apllLockLost d) s = .next (lockLost s d) :=
  (if_pos hd).trans (if_pos (by rw [bit1, hp, hl]; rfl))

/-- What a loss of lock shows. -/
theorem lockLost_shows (s : State) (d : Nat) : get1 (lockLost s d) APLL.STATUS_LOCK d = 0 ∧ get1 (lockLost s d) APLL.STATUS_COAST d = 1 ∧
    get1 (lockLost s d) APLL.LOL_CNT d = satTo cntMax (get1 s APLL.LOL_CNT d + 1) ∧ Raised (lockLost s d) .apll d 0 := by
  have hj : Keeps [APLL.STATUS_LOCK, APLL.STATUS_COAST, APLL.LOL_CNT] (evt (set1 (set1 s APLL.STATUS_LOCK d 0) APLL.STATUS_COAST d 1) .apll d 0)
      (journalApll (evt (set1 (set1 s APLL.STATUS_LOCK d 0) APLL.STATUS_COAST d 1) .apll d 0) d 0) := .journalPg (by decide) ..
  have hcnt : Keeps [APLL.STATUS_LOCK, APLL.STATUS_COAST] (journalApll (evt (set1 (set1 s APLL.STATUS_LOCK d 0) APLL.STATUS_COAST d 1) .apll d 0) d 0)
      (lockLost s d) := .addCnt (f := APLL.LOL_CNT) (k := 0) (by decide) ..
  refine ⟨?_, ?_, ?_, ?_⟩
  · rw [hcnt.reads _ (by decide), hj.reads _ (by decide)]
    simp (disch := decide) [get1, set1]
  · rw [hcnt.reads _ (by decide), hj.reads _ (by decide)]
    simp (disch := decide) [get1, set1]
  · refine (getF_addCnt_counter (f := APLL.LOL_CNT) (k := 0) (by decide) rfl (by decide) ..).trans ?_
    rw [show getF _ APLL.LOL_CNT d 0 0 = _ from hj.reads APLL.LOL_CNT (by decide) d]
    simp (disch := decide) [get1, set1]
  · exact hcnt.raised .apll d 0 (by decide) (by decide) (hj.raised .apll d 0 (by decide) (by decide) (raised_evt (by decide) ..))

/-- A restart of the feedback tap changes nothing of the APLLs. -/
theorem fbRestart_page (s : State) (d : Nat) {f : Fld} (hf : f.page ≠ .lane) (n : Nat) : get1 (fbRestart s d) f n = get1 s f n := by
  unfold fbRestart
  dsimp only
  split
  · rfl
  · split
    · rfl
    · exact getF_setF_page (f := LANE.STATUS_NO_BASE) hf ..

theorem fbRestart_pred {s : State} (hs : Shaped s) {d : Nat} (hd : d < 4) (h : get1 s APLL.STATUS_RETUNE d = 1) :
    (funcOf (fbRestart s d) (10 + d)).pred = none := by
  have hbase : (funcOf (baseLost s (10 + d)) (10 + d)).pred = none := by
    unfold baseLost
    rw [funcOf_modFunc (by rw [hs.funcs]; omega)]
  unfold fbRestart
  dsimp only
  rw [if_neg (by simp [bit1, h])]
  split
  · exact hbase
  · exact hbase

theorem fbRestart_aplls (s : State) (d : Nat) : (fbRestart s d).aplls = s.aplls := by
  simp [cite @fbRestart_keeps]

theorem apllOf_congr {s t : State} (h : t.aplls = s.aplls) (d : Nat) : apllOf t d = apllOf s d := by
  unfold apllOf
  rw [h]

theorem outOf_congr {s t : State} (h : t.outs = s.outs) (n : Nat) : outOf t n = outOf s n := by
  unfold outOf
  rw [h]

theorem funcOf_congr {s t : State} (h : t.funcs = s.funcs) (n : Nat) : funcOf t n = funcOf s n := by
  unfold funcOf
  rw [h]

section
variable {s : State} (hs : Shaped s) {d : Nat} (hd : d < 4)
include hs hd

/-- What a relock shows. -/
theorem relockApll_shows : get1 (relockApll s d) APLL.STATUS_LOCK d = 1 ∧ get1 (relockApll s d) APLL.STATUS_COAST d = 0 ∧
    (apllOf (relockApll s d) d).locked = true ∧ ((apllOf s d).locked = true → Raised (relockApll s d) .apll d 1) ∧
    (get1 s APLL.STATUS_RETUNE d = 1 → (funcOf (relockApll s d) (10 + d)).pred = none) := by
  obtain ⟨v, hv⟩ : ∃ v, v = fbRestart (set1 (set1 s APLL.STATUS_LOCK d 1) APLL.STATUS_COAST d 0) d := ⟨_, rfl⟩
  have hshape : Shaped (set1 (set1 s APLL.STATUS_LOCK d 1) APLL.STATUS_COAST d 0) := (shaped_setF ..).mpr ((shaped_setF ..).mpr hs)
  have hcells : get1 v APLL.STATUS_LOCK d = 1 ∧ get1 v APLL.STATUS_COAST d = 0 := by
    rw [hv, fbRestart_page _ _ (by decide), fbRestart_page _ _ (by decide)]
    constructor <;> simp (disch := decide) [get1, set1]
  have hpred : get1 s APLL.STATUS_RETUNE d = 1 → (funcOf v (10 + d)).pred = none := fun h => by
    rw [hv]
    refine fbRestart_pred hshape hd ?_
    rw [← h]
    simp (disch := decide) [get1, set1]
  have haplls : v.aplls = s.aplls := by
    rw [hv, fbRestart_aplls]
    rfl
  have heq : relockApll s d = if (apllOf s d).locked then journalApll (evt v .apll d 1) d 1 else modApll v d fun a => { a with locked := true } := by
    rw [hv]
    rfl
  rw [heq]
  cases hl : (apllOf s d).locked with
  | true =>
    rw [if_pos rfl]
    have hj : Keeps [APLL.STATUS_LOCK, APLL.STATUS_COAST] (evt v .apll d 1) (journalApll (evt v .apll d 1) d 1) := .journalPg (by decide) ..
    have he : Keeps [APLL.STATUS_LOCK, APLL.STATUS_COAST] v (evt v .apll d 1) := .evt (by decide) ..
    refine ⟨?_, ?_, ?_, fun _ => hj.raised .apll d 1 (by decide) (by decide) (raised_evt (by decide) ..), fun h => ?_⟩
    · rw [hj.reads _ (by decide), he.reads _ (by decide), hcells.1]
    · rw [hj.reads _ (by decide), he.reads _ (by decide), hcells.2]
    · rw [apllOf_congr (s := s) (by simp [journalApll, cite @journalPg_keeps, cite @evt_keeps, haplls]), hl]
    · rw [funcOf_congr (s := v) (by simp [journalApll, cite @journalPg_keeps, cite @evt_keeps])]
      exact hpred h
  | false =>
    rw [if_neg (by decide)]
    refine ⟨hcells.1, hcells.2, ?_, fun h => absurd h (by decide), hpred⟩
    rw [apllOf_modApll (by rw [haplls, hs.aplls]; exact hd)]

/-- What a lock after a retune shows. -/
theorem retuneLocked_shows : get1 (retuneLocked s d) APLL.STATUS_LOCK d = 1 ∧ (apllOf (retuneLocked s d) d).locked = true ∧
    (get1 s APLL.STATUS_RETUNE d = 1 → (funcOf (retuneLocked s d) (10 + d)).pred = none) := by
  have hshape : Shaped (modApll (set1 s APLL.STATUS_LOCK d 1) d fun a => { a with locked := true }) := by
    apply shaped_of_sizes hs <;> simp [cite @modApll_keeps, cite @set1_keeps]
  unfold retuneLocked
  refine ⟨?_, ?_, fun h => fbRestart_pred hshape hd ?_⟩
  · rw [fbRestart_page _ _ (by decide)]
    simp (disch := decide) [get1, set1]
  · rw [apllOf_congr (fbRestart_aplls ..), apllOf_modApll (by show d < s.aplls.length; rw [hs.aplls]; exact hd)]
  · rw [← h]
    simp (disch := decide) [get1, set1]

end

/-! ### The jitter reference -/

/-- A fold that meets `x` once: what the other steps keep for `x` holds up to its step, and after it. -/
theorem foldl_once {α σ : Type} {K : σ → σ → Prop} (hrefl : ∀ s, K s s) (htrans : ∀ a b c, K a b → K b c → K a c) {f : σ → α → σ} {x : α}
    {l : List α} (hx : x ∈ l) (hl : l.Nodup) (hne : ∀ t, ∀ y ∈ l, y ≠ x → K t (f t y)) (s : σ) : ∃ u, K s u ∧ K (f u x) (l.foldl f s) := by
  obtain ⟨a, b, rfl⟩ := List.append_of_mem hx
  have hnot : x ∉ a ∧ x ∉ b := by
    have h := List.nodup_append.mp hl
    exact ⟨fun ha => h.2.2 x ha x List.mem_cons_self rfl, (List.nodup_cons.mp h.2.1).1⟩
  have hfold : ∀ r : List α, (∀ y ∈ r, y ∈ a ++ x :: b) → x ∉ r → ∀ t, K t (r.foldl f t) := fun r hr hxr t =>
    foldl_rel (R := K) hrefl htrans (fun u y hy => hne u y (hr y hy) fun e => hxr (e ▸ hy)) t
  refine ⟨a.foldl f s, hfold a (fun y hy => List.mem_append_left _ hy) hnot.1 s, ?_⟩
  rw [List.foldl_append, List.foldl_cons]
  exact hfold b (fun y hy => List.mem_append_right _ (List.mem_cons_of_mem _ hy)) hnot.2 _

/-- The lock fields of one APLL, and all APLLs, are kept; no event is taken back. -/
structure ApllKept (d : Nat) (s t : State) : Prop where
  lock : get1 t APLL.STATUS_LOCK d = get1 s APLL.STATUS_LOCK d
  coast : get1 t APLL.STATUS_COAST d = get1 s APLL.STATUS_COAST d
  lost : get1 t APLL.STATUS_REF_LOST d = get1 s APLL.STATUS_REF_LOST d
  aplls : t.aplls = s.aplls
  raised : ∀ b, b < 32 → Raised s .apll d b → Raised t .apll d b

theorem ApllKept.refl (d : Nat) (s : State) : ApllKept d s s := ⟨rfl, rfl, rfl, rfl, fun _ _ h => h⟩

theorem ApllKept.trans {d : Nat} {s t u : State} (h : ApllKept d s t) (g : ApllKept d t u) : ApllKept d s u :=
  ⟨g.lock.trans h.lock, g.coast.trans h.coast, g.lost.trans h.lost, g.aplls.trans h.aplls, fun b hb hr => g.raised b hb (h.raised b hb hr)⟩

theorem ApllKept.of_keeps {d : Nat} {s t : State} (h : Keeps [APLL.STATUS_LOCK, APLL.STATUS_COAST, APLL.STATUS_REF_LOST] s t) (ha : t.aplls = s.aplls) :
    ApllKept d s t :=
  ⟨h.reads _ (by decide) d, h.reads _ (by decide) d, h.reads _ (by decide) d, ha, fun b hb hr => h.raised .apll d b (by decide) hb hr⟩

/-- A lock field of another APLL lies in another cell. -/
theorem apllKey_ne : ∀ f ∈ [APLL.STATUS_LOCK, APLL.STATUS_COAST, APLL.STATUS_REF_LOST], ∀ g ∈ [APLL.STATUS_LOCK, APLL.STATUS_COAST, APLL.STATUS_REF_LOST],
    ∀ x < 4, ∀ y < 4, x ≠ y → fldKey g x 0 0 ≠ fldKey f y 0 0 := by decide +kernel

theorem ApllKept.set1_other {f : Fld} (hf : f ∈ [APLL.STATUS_LOCK, APLL.STATUS_COAST, APLL.STATUS_REF_LOST]) {d y : Nat} (hd : d < 4) (hy : y < 4)
    (hne : y ≠ d) (s : State) (v : Nat) : ApllKept d s (set1 s f y v) := by
  have hkey : ∀ g ∈ [APLL.STATUS_LOCK, APLL.STATUS_COAST, APLL.STATUS_REF_LOST], get1 (set1 s f y v) g d = get1 s g d := fun g hg =>
    getF_setF_ne s f g y 0 0 v d 0 0 (apllKey_ne f hf g hg d hd y hy hne.symm)
  have hlow : ∀ f ∈ [APLL.STATUS_LOCK, APLL.STATUS_COAST, APLL.STATUS_REF_LOST], Fld.low f 0 0 ≠ 0x80 := by decide
  exact ⟨hkey _ (by decide), hkey _ (by decide), hkey _ (by decide), rfl, fun b _ hr => hr.setF_any (by decide) (hlow f hf) ..⟩

theorem ApllKept.by_evt (d : Nat) (s : State) (n b : Nat) : ApllKept d s (evt s .apll n b) := .of_keeps (.evt (by decide) ..) (by simp [cite @evt_keeps])

theorem ApllKept.by_journal (d : Nat) (s : State) (n c : Nat) : ApllKept d s (journalApll s n c) := by
  refine .of_keeps (t := journalApll s n c) (.journalPg (by decide) ..) ?_
  simp only [cite @journalApll_keeps]

theorem ApllKept.lockLost_other {d y : Nat} (hd : d < 4) (hy : y < 4) (hne : y ≠ d) (s : State) : ApllKept d s (lockLost s y) := by
  have hset := (ApllKept.set1_other (f := APLL.STATUS_LOCK) (by decide) hd hy hne s 0).trans
    (.set1_other (f := APLL.STATUS_COAST) (by decide) hd hy hne _ 1)
  have hcnt : ∀ u : State, ApllKept d u (addCnt u APLL.LOL_CNT y 0 1) := fun u =>
    .of_keeps (.addCnt (by decide) ..) (by simp only [cite @addCnt_keeps])
  exact (hset.trans (.by_evt d _ y 0)).trans ((ApllKept.by_journal d _ y 0).trans (hcnt _))

/-- The loss of the reference at one APLL, before its lock is lost. -/
def refGone (t : State) (d : Nat) : State := journalApll (evt (set1 t APLL.STATUS_REF_LOST d 1) .apll d 2) d 2

/-- The loss of the reference at one APLL. -/
def refLostAt (t : State) (d : Nat) : State :=
  if (apllOf (refGone t d) d).powered && !bit1 (refGone t d) APLL.STATUS_COAST d then lockLost (refGone t d) d else refGone t d

theorem refLostAll_eq (s : State) : refLostAll s = (List.range 4).foldl refLostAt { s with jrOn := false } := rfl

theorem refLostAt_other {d y : Nat} (hd : d < 4) (hy : y < 4) (hne : y ≠ d) (t : State) : ApllKept d t (refLostAt t y) := by
  have hgone : ApllKept d t (refGone t y) :=
    ((ApllKept.set1_other (by decide) hd hy hne t 1).trans (.by_evt d _ y 2)).trans (.by_journal d _ y 2)
  unfold refLostAt
  split
  · exact hgone.trans (.lockLost_other hd hy hne _)
  · exact hgone

/-- What the loss shows at its own APLL. -/
theorem refLostAt_shows (t : State) (d : Nat) : get1 (refLostAt t d) APLL.STATUS_REF_LOST d = 1 ∧ Raised (refLostAt t d) .apll d 2 ∧
    ((apllOf t d).powered = true → get1 t APLL.STATUS_COAST d ≠ 1 → get1 (refLostAt t d) APLL.STATUS_LOCK d = 0 ∧
      get1 (refLostAt t d) APLL.STATUS_COAST d = 1 ∧ Raised (refLostAt t d) .apll d 0) ∧
    ((apllOf t d).powered = false ∨ get1 t APLL.STATUS_COAST d = 1 → get1 (refLostAt t d) APLL.STATUS_LOCK d = get1 t APLL.STATUS_LOCK d ∧
      get1 (refLostAt t d) APLL.STATUS_COAST d = get1 t APLL.STATUS_COAST d) := by
  obtain ⟨v, hv⟩ : ∃ v, v = refGone t d := ⟨_, rfl⟩
  have hset : Keeps [APLL.STATUS_LOCK, APLL.STATUS_COAST] t v := by
    rw [hv]
    unfold refGone
    exact (((Keeps.refl _ t).after_set1 (f := APLL.STATUS_REF_LOST) (by decide)).after_evt (by decide)).trans
      (.journalPg (fs := [APLL.STATUS_LOCK, APLL.STATUS_COAST]) (by decide) ..)
  have hj : Keeps [APLL.STATUS_REF_LOST] (evt (set1 t APLL.STATUS_REF_LOST d 1) .apll d 2) v := by
    rw [hv]
    unfold refGone
    exact .journalPg (fs := [APLL.STATUS_REF_LOST]) (by decide) ..
  have hlost : get1 v APLL.STATUS_REF_LOST d = 1 := by
    rw [hj.reads _ (by decide)]
    simp (disch := decide) [get1, set1]
  have hraised : Raised v .apll d 2 := hj.raised .apll d 2 (by decide) (by decide) (raised_evt (by decide) ..)
  have hpow : (apllOf v d).powered = (apllOf t d).powered := by
    rw [hv, apllOf_congr (s := t) (by simp [refGone, journalApll, cite @journalPg_keeps, cite @evt_keeps, cite @set1_keeps])]
  have hcoast : bit1 v APLL.STATUS_COAST d = bit1 t APLL.STATUS_COAST d := by
    unfold bit1
    rw [hset.reads _ (by decide)]
  have heq : refLostAt t d = if (apllOf t d).powered && !bit1 t APLL.STATUS_COAST d then lockLost v d else v := by
    unfold refLostAt
    rw [← hv, hpow, hcoast]
  rw [heq]
  by_cases h : ((apllOf t d).powered && !bit1 t APLL.STATUS_COAST d) = true
  · rw [if_pos h]
    obtain ⟨h1, h2, -, h3⟩ := lockLost_shows v d
    have hll : Keeps [APLL.STATUS_REF_LOST] v (lockLost v d) := by
      unfold lockLost
      exact ((((Keeps.refl _ v).after_set1 (by decide)).after_set1 (by decide)).after_evt (by decide)).trans (.journalPg (by decide) ..) |>.after_addCnt (by decide)
    simp only [bit1, Bool.and_eq_true, Bool.not_eq_true', beq_eq_false_iff_ne] at h
    refine ⟨(hll.reads _ (by decide) d).trans hlost, hll.raised .apll d 2 (by decide) (by decide) hraised, fun _ _ => ⟨h1, h2, h3⟩, fun hno => ?_⟩
    rcases hno with hp | hc
    · rw [hp] at h
      exact absurd h.1 (by decide)
    · exact absurd hc h.2
  · rw [if_neg h]
    refine ⟨hlost, hraised, fun hp hc => absurd ?_ h, fun _ => ⟨hset.reads _ (by decide) d, hset.reads _ (by decide) d⟩⟩
    simp [bit1, hp, hc]

theorem refLostAll_shows (s : State) {d : Nat} (hd : d < 4) :
    get1 (refLostAll s) APLL.STATUS_REF_LOST d = 1 ∧ Raised (refLostAll s) .apll d 2 ∧
    ((apllOf s d).powered = true → get1 s APLL.STATUS_COAST d ≠ 1 → get1 (refLostAll s) APLL.STATUS_LOCK d = 0 ∧
      get1 (refLostAll s) APLL.STATUS_COAST d = 1 ∧ Raised (refLostAll s) .apll d 0) ∧
    ((apllOf s d).powered = false ∨ get1 s APLL.STATUS_COAST d = 1 → get1 (refLostAll s) APLL.STATUS_LOCK d = get1 s APLL.STATUS_LOCK d ∧
      get1 (refLostAll s) APLL.STATUS_COAST d = get1 s APLL.STATUS_COAST d) := by
  obtain ⟨u, hu, hend⟩ := foldl_once (K := ApllKept d) (ApllKept.refl d) (fun _ _ _ => ApllKept.trans) (List.mem_range.mpr hd) List.nodup_range
    (fun t y hy hne => refLostAt_other hd (List.mem_range.mp hy) hne t) { s with jrOn := false }
  rw [← refLostAll_eq] at hend
  obtain ⟨h1, h2, h3, h4⟩ := refLostAt_shows u d
  have hpow : (apllOf u d).powered = (apllOf s d).powered := by rw [apllOf_congr (s := s) hu.aplls]
  have hcoast : get1 u APLL.STATUS_COAST d = get1 s APLL.STATUS_COAST d := hu.coast
  have hlock : get1 u APLL.STATUS_LOCK d = get1 s APLL.STATUS_LOCK d := hu.lock
  rw [hpow, hcoast] at h3
  rw [hpow, hcoast, hlock] at h4
  refine ⟨hend.lost.trans h1, hend.raised 2 (by decide) h2, fun hp hc => ?_, fun hno => ?_⟩
  · obtain ⟨k1, k2, k3⟩ := h3 hp hc
    exact ⟨hend.lock.trans k1, hend.coast.trans k2, hend.raised 0 (by decide) k3⟩
  · obtain ⟨k1, k2⟩ := h4 hno
    exact ⟨hend.lock.trans k1, hend.coast.trans k2⟩

theorem refBack_shows (s : State) {d : Nat} (hd : d < 4) : get1 (refBack s) APLL.STATUS_REF_LOST d = 0 := by
  obtain ⟨u, -, hend⟩ := foldl_once (K := ApllKept d) (ApllKept.refl d) (fun _ _ _ => ApllKept.trans) (List.mem_range.mpr hd) List.nodup_range
    (f := fun t y => journalApll (set1 t APLL.STATUS_REF_LOST y 0) y 3)
    (fun t y hy hne => (ApllKept.set1_other (by decide) hd (List.mem_range.mp hy) hne t 0).trans (.by_journal d _ y 3)) { s with jrOn := true }
  refine hend.lost.trans ((ApllKept.by_journal d _ d 3).lost.trans ?_)
  exact getF_setF_fits (f := APLL.STATUS_REF_LOST) (v := 0) (by decide) (by decide) u d 0 0

/-! ### DLLs and the alignment channel (R341, R348) -/

theorem dllLost_shows (s : State) (n : Nat) : get1 (dllLost s n) OUT.STATUS_DLL_LOCK n = 0 ∧ get1 (dllLost s n) OUT.STATUS_DLL_COAST n = 1 ∧
    Raised (dllLost s n) .out n 3 ∧ OnlyCells (cells [(OUT.STATUS_DLL_LOCK, n), (OUT.STATUS_DLL_COAST, n)] ++ evtCells .out n) s (dllLost s n) := by
  refine ⟨?_, ?_, raised_evt (by decide) .., onlyCells_of_onlyRegs (by simp [OnlyRegs, dllLost, cite @evt_keeps, cite @set1_keeps]) ?_⟩
  · simp (disch := decide) [dllLost, get1, set1]
  · simp (disch := decide) [dllLost, get1, set1]
  · exact (((CellsElse.refl _ _).after_set1 (by simp [cells]) 0).after_set1 (by simp [cells]) 1).after_evt (fun k hk => List.mem_append_right _ hk) 3

theorem dllLocked_shows (s : State) (n : Nat) : get1 (dllLocked s n) OUT.STATUS_DLL_LOCK n = 1 ∧ get1 (dllLocked s n) OUT.STATUS_DLL_COAST n = 0 ∧
    OnlyCells (cells [(OUT.STATUS_DLL_LOCK, n), (OUT.STATUS_DLL_COAST, n)]) s (dllLocked s n) := by
  refine ⟨?_, ?_, rfl, ?_⟩
  · simp (disch := decide) [dllLocked, get1, set1]
  · simp (disch := decide) [dllLocked, get1, set1]
  · exact ((CellsElse.refl _ _).after_set1 (by simp [cells]) 1).after_set1 (by simp [cells]) 0

/-- Settles O46: each command with its condition, and without. -/
theorem locksAndReferences : Obligations.LocksAndReferences := by
  intro s hs
  refine ⟨fun d hd => ⟨fun hp hl => ?_, fun hno => (if_pos hd).trans (if_neg ?_), fun hp hc hj => ?_, fun hno => (if_pos hd).trans (if_neg ?_), fun hp hl hc hj => ?_,
    fun hno => (if_pos hd).trans (if_neg ?_)⟩, fun h => ⟨refLostAll s, if_pos h, ?_, fun d hd => refLostAll_shows s hd⟩, fun h => if_neg (by simp [h]),
    fun h => ⟨refBack s, if_neg (by simp [h]), ?_, fun d hd => refBack_shows s hd⟩, fun h => if_pos h, fun n hn => ⟨fun h => ?_, fun h => ?_, ?_, fun h1 h2 => ?_,
    fun hno => ?_⟩⟩
  · obtain ⟨h1, h2, h3, h4⟩ := lockLost_shows s d
    exact ⟨lockLost s d, exec_apllLockLost hd hp hl, h1, h2, by simp [cite @lockLost_keeps], h3, h4⟩
  · rcases hno with h | h <;> simp [bit1, h]
  · exact ⟨relockApll s d, (if_pos hd).trans (if_pos (by rw [bit1, hp, hc, hj]; rfl)), relockApll_shows hs hd⟩
  · rcases hno with h | h | h <;> simp [bit1, h]
  · exact ⟨retuneLocked s d, (if_pos hd).trans (if_pos (by simp [bit1, hp, hl, hc, hj])), retuneLocked_shows hs hd⟩
  · rcases hno with h | h | h | h <;> simp [bit1, h]
  · rw [refLostAll_eq]
    refine foldl_inv (fun t : State => t.jrOn) refLostAt (fun t d => ?_) (List.range 4) { s with jrOn := false }
    unfold refLostAt refGone
    split <;> simp [cite @lockLost_keeps, cite @journalApll_keeps, cite @evt_keeps, cite @set1_keeps]
  · exact foldl_inv (fun t : State => t.jrOn) (fun t d => journalApll (set1 t APLL.STATUS_REF_LOST d 0) d 3)
      (fun t d => by simp [cite @journalApll_keeps, cite @set1_keeps]) (List.range 4) { s with jrOn := true }
  · exact ⟨dllLost s n, (if_pos hn).trans (if_neg (by simp [bit1, h])), dllLost_shows s n⟩
  · exact (if_pos hn).trans (if_pos (by simp [bit1, h]))
  · exact ⟨dllLocked s n, if_pos hn, dllLocked_shows s n⟩
  · refine ⟨_, (if_pos hn).trans (if_pos (by simp [bit1, h1, h2])), ?_, fun m hm => ?_, raised_evt (by decide) ..⟩
    · rw [show outOf (evt (modOut s n fun v => { v with lost := true }) .out n 4) n = outOf (modOut s n fun v => { v with lost := true }) n from
        outOf_congr (by simp [cite @evt_keeps]) n, outOf_modOut (by rw [hs.outs]; exact hn)]
    · rw [show outOf (evt (modOut s n fun v => { v with lost := true }) .out n 4) m = outOf (modOut s n fun v => { v with lost := true }) m from
        outOf_congr (by simp [cite @evt_keeps]) m, outOf_modOut_ne s hm]
  · refine (if_pos hn).trans (if_neg ?_)
    rcases hno with h | h <;> simp [bit1, h]

/-! ### A retune and EPOCH (R325, R327, R328, R333) -/

/-- Outputs brought to what their registers ask for leave the APLLs and their pages. -/
theorem outRefresh_fold (l : List Nat) (s : State) : (l.foldl outRefresh s).aplls = s.aplls ∧ ∀ f : Fld, f.page ≠ .out → ∀ d,
    get1 (l.foldl outRefresh s) f d = get1 s f d := by
  have hpol := foldl_inv State.pol outRefresh (fun t n => by simp [cite @outRefresh_keeps]) l s
  refine ⟨foldl_inv State.aplls outRefresh (fun t n => by simp [cite @outRefresh_keeps]) l s, fun f hf d => ?_⟩
  have hpage := foldl_inv (fun t : State => pageCells f.page t.regs) outRefresh (fun t n => outRefresh_pg t n (by simpa using hf)) l s
  exact getF_of_page f hpage hpol d 0 0

/-- What APPLY puts in effect. -/
def retuned (s : State) (d : Nat) : State :=
  set1 (set1 (set1 (modApll s d fun a => { a with refsel := get1 s APLL.CFG_REFSEL d, ratio := ratioReg s d, zeroReq := true })
    APLL.STATUS_RETUNE d 1) APLL.STATUS_EPOCH_PEND d 1) APLL.STATUS_LOCK d 0

theorem applyRetune_ok {s : State} {d : Nat} (hp : (apllOf s d).powered = true) (hok : applyOk s d = true) :
    applyRetune s d = (outsOf (retuned s d) d).foldl outRefresh (publishVco (retuned s d) d) :=
  (if_neg (by simp [hp])).trans (if_neg (by simp [hok]))

theorem applyRetune_shows {s : State} (hs : Shaped s) {d : Nat} (hd : d < 4) (hp : (apllOf s d).powered = true) (hok : applyOk s d = true) :
    let t := applyRetune s d
    (apllOf t d).refsel = get1 s APLL.CFG_REFSEL d ∧ (apllOf t d).ratio = ratioReg s d ∧ (apllOf t d).zeroReq = true ∧
      get1 t APLL.STATUS_RETUNE d = 1 ∧ get1 t APLL.STATUS_EPOCH_PEND d = 1 ∧ get1 t APLL.STATUS_LOCK d = 0 ∧
      get1 t APLL.VCO_KHZ d = (roundAway (vcoHz (get1 s APLL.CFG_REFSEL d) (ratioReg s d) / 1000)).toNat % 2 ^ 23 ∧
      ∀ e, e ≠ d → apllOf t e = apllOf s e := by
  obtain ⟨ha, hpage⟩ := outRefresh_fold (outsOf (retuned s d) d) (publishVco (retuned s d) d)
  have hapll : apllOf (retuned s d) d = { apllOf s d with refsel := get1 s APLL.CFG_REFSEL d, ratio := ratioReg s d, zeroReq := true } :=
    apllOf_modApll (s := s) (by rw [hs.aplls]; exact hd) _
  have hnom : fNom (retuned s d) d = vcoHz (get1 s APLL.CFG_REFSEL d) (ratioReg s d) := by
    unfold fNom
    rw [hapll]
  have hsame : ∀ e, apllOf (applyRetune s d) e = apllOf (retuned s d) e := fun e => by
    rw [applyRetune_ok hp hok]
    exact apllOf_congr ha e
  have hvco : APLL.VCO_KHZ.width = 23 := rfl
  dsimp only
  rw [hsame d, hapll, applyRetune_ok hp hok, hpage _ (by decide), hpage _ (by decide), hpage _ (by decide), hpage _ (by decide), ← hnom]
  refine ⟨rfl, rfl, rfl, ?_, ?_, ?_, ?_, fun e he => ?_⟩
  · simp (disch := decide) [publishVco, retuned, get1, set1]
  · simp (disch := decide) [publishVco, retuned, get1, set1]
  · simp (disch := decide) [publishVco, retuned, get1, set1]
  · simp (disch := decide) [publishVco, get1, set1, getF_setF_same, hvco]
  · rw [apllOf_congr ha e]
    exact apllOf_modApll_ne he s _

/-- The transmit references of the ports that a retune stops. -/
def txclkRetune (d : Nat) (t : State) (n : Nat) : State :=
  if txclkFrom t n && get1 t ETH.TXCLK_SRC n == d + 1 then
    if bit1 (txclkJudge t n) ETH.STATUS_TXCLK_FB n then txclkJudge t n else linkDown (txclkJudge t n) n 0 1
  else t

/-- What a retune does to the ports leaves the APLLs and their page. -/
theorem txclkRetune_fold (d : Nat) (s : State) : ((List.range 2).foldl (txclkRetune d) s).aplls = s.aplls ∧
    ∀ f : Fld, f.page = .apll → ∀ e, get1 ((List.range 2).foldl (txclkRetune d) s) f e = get1 s f e := by
  have hpol := foldl_inv State.pol (txclkRetune d)
    (fun t n => by simp [txclkRetune, cite @linkDown_keeps, cite @txclkJudge_keeps, cite @ite_state]) (List.range 2) s
  refine ⟨foldl_inv State.aplls (txclkRetune d)
    (fun t n => by simp [txclkRetune, cite @linkDown_keeps, cite @txclkJudge_keeps, cite @ite_state]) (List.range 2) s, fun f hf e => ?_⟩
  refine getF_of_page f (foldl_inv (fun t : State => pageCells f.page t.regs) (txclkRetune d) (fun t n => ?_) (List.range 2) s) hpol e 0 0
  rw [hf]
  unfold txclkRetune
  (repeat' split) <;> simp

theorem applyAct_ok {s : State} {d : Nat} (hp : (apllOf s d).powered = true) (hok : applyOk s d = true)
    (hl : get1 (applyRetune s d) APLL.STATUS_LOCK d = 0) : applyAct s d = (List.range 2).foldl (txclkRetune d) (applyRetune s d) :=
  if_neg (by simp [bit1, hp, hok, hl])

theorem applyAct_bad {s : State} {d : Nat} (hp : (apllOf s d).powered = true) (hok : applyOk s d = false) :
    applyAct s d = evt s .apll d 5 :=
  (if_pos (by simp [hok])).trans ((if_neg (by simp [hp])).trans (if_pos (by simp [hok])))

theorem applyAct_off {s : State} {d : Nat} (hp : (apllOf s d).powered = false) : applyAct s d = s :=
  (if_pos (by simp [hp])).trans (if_pos (by simp [hp]))

/-- EPOCH of a running APLL waits for a rollover. -/
def epochAsked (s : State) (d : Nat) : State := set1 (modApll s d fun a => { a with zeroReq := true }) APLL.STATUS_EPOCH_PEND d 1

theorem exec_epoch {s : State} {d : Nat} (hd : d < 4) (hp : (apllOf s d).powered = true) (hr : domRuns s d = true) :
    exec (.epoch d) s = .next (epochAsked s d) :=
  (if_pos hd).trans (congrArg _ (if_pos (by rw [hr, hp]; rfl)))

theorem apllOf_epochAsked {s : State} (hs : Shaped s) {d : Nat} (hd : d < 4) :
    apllOf (epochAsked s d) d = { apllOf s d with zeroReq := true } :=
  apllOf_modApll (s := s) (by rw [hs.aplls]; exact hd) _

/-- Settles O47: APPLY and EPOCH, each by its condition. -/
theorem retuneAndEpoch : Obligations.RetuneAndEpoch := by
  intro s d hs hd
  refine ⟨fun hp hok => ⟨applyAct s d, if_pos hd, ?_⟩, fun hp hok => ⟨evt s .apll d 5, ?_, ?_, raised_evt (by decide) ..⟩, fun hp => ?_,
    fun hp hr => ⟨epochAsked s d, exec_epoch hd hp hr, ?_, ?_, ?_, rfl, ?_⟩, fun hno => (if_pos hd).trans (congrArg _ (if_neg ?_))⟩
  · obtain ⟨href, hratio, hzero, hret, hpend, hlock, hvco, hother⟩ := applyRetune_shows hs hd hp hok
    obtain ⟨ha, hpage⟩ := txclkRetune_fold d (applyRetune s d)
    rw [applyAct_ok hp hok hlock, apllOf_congr ha, hpage _ rfl, hpage _ rfl, hpage _ rfl, hpage _ rfl]
    exact ⟨href, hratio, hzero, hret, hpend, hlock, hvco, fun e he => (apllOf_congr ha e).trans (hother e he)⟩
  · exact (if_pos hd).trans (congrArg _ (applyAct_bad hp hok))
  · exact onlyCells_of_onlyRegs (evt_keeps ..) ((CellsElse.refl _ _).after_evt (fun _ hk => hk) 5)
  · exact (if_pos hd).trans (congrArg _ (applyAct_off hp))
  · rw [apllOf_epochAsked hs hd]
  · rw [apllOf_epochAsked hs hd]
  · simp (disch := decide) [epochAsked, get1, set1]
  · exact (CellsElse.refl _ _).after_set1 (by simp [cells]) 1
  · rcases hno with h | h <;> simp [h]

/-! ### An output that stops (R338, R339, R343, R601) -/

/-- RUN as an output that has stopped reports it. -/
def stopReport (s : State) (n want quiet : Nat) : State :=
  if want = 0 then evt (set1 s OUT.STATUS_RUN n 0) .out n 1
  else if want = 4 then addCnt (evt (set1 s OUT.STATUS_RUN n 4) .out n 2) OUT.SQUELCH_CNT n 0 1
  else if want = 2 then (if quiet = 2 then set1 s OUT.STATUS_RUN n 3 else s)
  else set1 s OUT.STATUS_RUN n want

theorem stopReport_outs (s : State) (n want quiet : Nat) : (stopReport s n want quiet).outs = s.outs := by
  unfold stopReport
  (repeat' split) <;> simp [cite @evt_keeps, cite @addCnt_keeps, cite @set1_keeps]

theorem outWant_le (s : State) (n : Nat) : outWant s n ≤ 5 := by
  unfold outWant
  dsimp only
  (repeat' split) <;> decide

theorem stopReport_run {want quiet : Nat} (hw : want ≤ 5) (hne : want ≠ 2) (s : State) (n : Nat) :
    get1 (stopReport s n want quiet) OUT.STATUS_RUN n = want := by
  have hfit : want % 2 ^ OUT.STATUS_RUN.width = want := Nat.mod_eq_of_lt (lt_of_le_of_lt hw (by decide))
  unfold stopReport
  split
  · next h => simp (disch := decide) [get1, set1, h]
  · split
    · next h => simp (disch := decide) [get1, set1, h]
    · simp (disch := decide) [get1, set1, getF_setF_same, hfit]

/-- An output that is to start again after a stop does not report that it runs. -/
theorem stopReport_ne {want : Nat} (hw : want ≤ 5) (s : State) (n : Nat) : get1 (stopReport s n want 2) OUT.STATUS_RUN n ≠ 2 := by
  by_cases h : want = 2
  · subst h
    have hrun : get1 (stopReport s n 2 2) OUT.STATUS_RUN n = 3 := by
      simp (disch := decide) [stopReport, get1, set1]
    rw [hrun]
    decide
  · rw [stopReport_run hw h]
    exact h

/-- The fields that no stop of an output writes. -/
def outFlds : List Fld := [OUT.CTRL, OUT.MODE_PULSE, OUT.DIV, OUT.COARSE, OUT.PALIGN_CHAN, OUT.PALIGN_EN]

theorem stopReport_flds (s : State) (n want quiet : Nat) : Keeps outFlds s (stopReport s n want quiet) := by
  have hrun : ∀ v, Keeps outFlds s (set1 s OUT.STATUS_RUN n v) := fun v => .set1 (by decide) ..
  unfold stopReport
  exact .ite ((hrun 0).after_evt (by decide)) (.ite (((hrun 4).after_evt (by decide)).after_addCnt (by decide))
    (.ite (.ite (hrun 3) (.refl _ _)) (hrun want)))

/-- The output's own state after it has stopped. -/
def stoppedOut (s : State) (n : Nat) (x : Rat) (u : OutU) : OutU :=
  { u with active := false, fall := none, quiet := if outWant s n = 2 ∨ outWant s n = 1 then u.quiet else 0,
           gap := if (outOf s n).quiet = 0 then 0 else if get1 s OUT.MODE_PULSE n = 0 then x + (((get1 s OUT.DIV n + 1) / 2 : Nat) : Rat)
             else max (x + nsToVco s n 4) (outOf s n).space }

theorem finishStop_eq (s : State) (n : Nat) (x : Rat) : finishStop s n x =
    stopReport (modOut s n (stoppedOut s n x)) n (outWant s n) (outOf s n).quiet := rfl

/-- What a stop of output `n` may not change of it: where its grid lies, what it is and its alignment. -/
structure StopKept (n : Nat) (s t : State) : Prop where
  others : ∀ m, m ≠ n → outOf t m = outOf s m
  want : (outOf t n).want = (outOf s n).want
  pulse : (outOf t n).pulse = (outOf s n).pulse
  div : (outOf t n).div = (outOf s n).div
  coarse : (outOf t n).coarse = (outOf s n).coarse
  tau : (outOf t n).tau = (outOf s n).tau

theorem StopKept.trans {n : Nat} {s t u : State} (h : StopKept n s t) (g : StopKept n t u) : StopKept n s u :=
  ⟨fun m hm => (g.others m hm).trans (h.others m hm), g.want.trans h.want, g.pulse.trans h.pulse, g.div.trans h.div, g.coarse.trans h.coarse,
    g.tau.trans h.tau⟩

theorem StopKept.of_outs {n : Nat} {s t : State} (h : t.outs = s.outs) : StopKept n s t :=
  ⟨fun m _ => outOf_congr h m, by rw [outOf_congr h], by rw [outOf_congr h], by rw [outOf_congr h], by rw [outOf_congr h], by rw [outOf_congr h]⟩

theorem StopKept.modOut {n : Nat} (s : State) {f : OutU → OutU} (h : ∀ u, (f u).want = u.want ∧ (f u).pulse = u.pulse ∧ (f u).div = u.div ∧
    (f u).coarse = u.coarse ∧ (f u).tau = u.tau) : StopKept n s (modOut s n f) :=
  ⟨fun _ hm => outOf_modOut_ne s hm f, getD_modify_keep (g := OutU.want) (fun u => (h u).1) .., getD_modify_keep (g := OutU.pulse) (fun u => (h u).2.1) ..,
    getD_modify_keep (g := OutU.div) (fun u => (h u).2.2.1) .., getD_modify_keep (g := OutU.coarse) (fun u => (h u).2.2.2.1) ..,
    getD_modify_keep (g := OutU.tau) (fun u => (h u).2.2.2.2) ..⟩

theorem StopKept.refl (n : Nat) (s : State) : StopKept n s s := .of_outs rfl

theorem stopReport_kept (s : State) (n want quiet : Nat) : StopKept n s (stopReport s n want quiet) := .of_outs (stopReport_outs ..)

theorem finishStop_kept (s : State) (n : Nat) (x : Rat) : StopKept n s (finishStop s n x) := by
  rw [finishStop_eq]
  exact StopKept.trans (t := modOut s n (stoppedOut s n x)) (.modOut s fun u => ⟨rfl, rfl, rfl, rfl, rfl⟩) (stopReport_kept ..)

theorem finishStop_flds (s : State) (n : Nat) (x : Rat) : Keeps outFlds s (finishStop s n x) := by
  rw [finishStop_eq]
  exact (Keeps.modOut ..).trans (stopReport_flds ..)

/-- How an output that runs is to start again after its stop. -/
def askQuiet (s : State) (n quiet : Nat) : State := modOut s n fun v => { v with quiet := quiet }

theorem beginStop_fall {s : State} {n : Nat} {x : Rat} (h : (outOf s n).fall = some x) (quiet : Nat) :
    beginStop s n quiet = askQuiet s n quiet := by
  unfold beginStop
  rw [h]
  rfl

theorem beginStop_high {s : State} {n : Nat} (h : (outOf s n).fall = none) (hx : 0 < highLeft s n) (quiet : Nat) :
    beginStop s n quiet = modOut (askQuiet s n quiet) n fun v => { v with fall := some (highLeft s n) } := by
  unfold beginStop
  rw [h]
  exact if_pos hx

theorem beginStop_low {s : State} {n : Nat} (h : (outOf s n).fall = none) (hx : ¬ 0 < highLeft s n) (quiet : Nat) :
    beginStop s n quiet = finishStop (askQuiet s n quiet) n (highLeft s n) := by
  unfold beginStop
  rw [h]
  exact if_neg hx

/-- A property of the three ways a stop may begin. -/
theorem beginStop_cases {P : State → Prop} {s : State} {n quiet : Nat} (hfall : P (askQuiet s n quiet))
    (hhigh : P (modOut (askQuiet s n quiet) n fun v => { v with fall := some (highLeft s n) }))
    (hlow : P (finishStop (askQuiet s n quiet) n (highLeft s n))) : P (beginStop s n quiet) := by
  cases h : (outOf s n).fall with
  | some x => exact (beginStop_fall h quiet).symm ▸ hfall
  | none =>
    by_cases hx : 0 < highLeft s n
    · exact (beginStop_high h hx quiet).symm ▸ hhigh
    · exact (beginStop_low h hx quiet).symm ▸ hlow

theorem askQuiet_kept (s : State) (n quiet : Nat) : StopKept n s (askQuiet s n quiet) := .modOut s fun _ => ⟨rfl, rfl, rfl, rfl, rfl⟩

theorem beginStop_kept (s : State) (n quiet : Nat) : StopKept n s (beginStop s n quiet) :=
  beginStop_cases (askQuiet_kept ..) ((askQuiet_kept ..).trans (.modOut _ fun _ => ⟨rfl, rfl, rfl, rfl, rfl⟩))
    ((askQuiet_kept ..).trans (finishStop_kept ..))

theorem beginStop_flds (s : State) (n quiet : Nat) : Keeps outFlds s (beginStop s n quiet) :=
  beginStop_cases (.modOut ..) ((Keeps.modOut ..).trans (.modOut ..)) ((Keeps.modOut ..).trans (finishStop_flds ..))

theorem outWant_modOut (s : State) (n : Nat) {f : OutU → OutU} (h : ∀ u, (f u).tau = u.tau) : outWant (modOut s n f) n = outWant s n := by
  have htau : (outOf (modOut s n f) n).tau = (outOf s n).tau := getD_modify_keep (g := OutU.tau) h ..
  unfold outWant
  rw [htau]
  rfl

/-- A stop that has ended leaves the output inactive. -/
theorem finishStop_inactive {s : State} {n : Nat} (hn : n < s.outs.length) (x : Rat) : (outOf (finishStop s n x) n).active = false := by
  rw [finishStop_eq, outOf_congr (stopReport_outs ..), outOf_modOut hn]
  rfl

theorem finishStop_run {s : State} {n : Nat} (hne : outWant s n ≠ 2) (x : Rat) : get1 (finishStop s n x) OUT.STATUS_RUN n = outWant s n := by
  rw [finishStop_eq, stopReport_run (outWant_le s n) hne]

/-- An active output begins to stop. -/
theorem beginStop_stops {s : State} {n : Nat} (hn : n < s.outs.length) (hact : (outOf s n).active = true) (quiet : Nat) :
    OutStops s (beginStop s n quiet) n := by
  have hask : outOf (askQuiet s n quiet) n = { outOf s n with quiet := quiet } := outOf_modOut hn _
  have hlen : n < (askQuiet s n quiet).outs.length := by
    unfold askQuiet modOut
    simpa using hn
  refine ⟨fun x hx => ?_, fun h hx => ?_, fun h hx => ?_⟩
  · rw [beginStop_fall hx, hask]
    exact ⟨hact, hx⟩
  · rw [beginStop_high h hx, outOf_modOut hlen, hask]
    exact ⟨hact, rfl⟩
  · rw [beginStop_low h (not_lt.mpr hx)]
    exact finishStop_inactive hlen _

/-- A stop that ends at once reports what its output waits for. -/
theorem beginStop_run {s : State} {n : Nat} (hn : n < s.outs.length) (hact : (outOf s n).active = true) (hne : outWant s n ≠ 2) (quiet : Nat)
    (hoff : (outOf (beginStop s n quiet) n).active = false) : get1 (beginStop s n quiet) OUT.STATUS_RUN n = outWant s n := by
  obtain ⟨hfall, hhigh, -⟩ := beginStop_stops hn hact quiet
  cases h : (outOf s n).fall with
  | some x =>
    have hon := (hfall x h).1
    rw [hoff] at hon
    exact absurd hon (by decide)
  | none =>
    by_cases hx : 0 < highLeft s n
    · have hon := (hhigh h hx).1
      rw [hoff] at hon
      exact absurd hon (by decide)
    · have hwant : outWant (askQuiet s n quiet) n = outWant s n := outWant_modOut s n fun _ => rfl
      rw [beginStop_low h hx, finishStop_run (by rw [hwant]; exact hne), hwant]

/-! ### An output brought to what its registers ask for (R328, R338, R343) -/

/-- The output's own state as its registers ask for it. -/
def wanted (s : State) (n : Nat) : State :=
  modOut s n fun v => { v with want := outWant s n, fresh := v.fresh || (outWant s n == 2 && v.want != 2) }

/-- An output that does not run, and should not, reports why. -/
def waitReport (s : State) (n : Nat) : State :=
  let s1 := if outWant s n = 1 then wanted s n else modOut (wanted s n) n fun v => { v with quiet := 0 }
  if outWant s n = 4 ∧ get1 s OUT.STATUS_RUN n ≠ 4 then addCnt (evt (set1 s1 OUT.STATUS_RUN n 4) .out n 2) OUT.SQUELCH_CNT n 0 1
  else set1 s1 OUT.STATUS_RUN n (outWant s n)

/-- RUN as an output shows it that is to hold. -/
def holdShown (s : State) (n : Nat) : State := if outWant s n = 3 then set1 (wanted s n) OUT.STATUS_RUN n 3 else wanted s n

theorem outRefresh_go {s : State} {n : Nat} (h : outWant s n = 2) : outRefresh s n = wanted s n := by
  by_cases ha : (outOf s n).active = true
  · exact (if_pos ha).trans (if_pos h)
  · exact (if_neg ha).trans (if_pos h)

theorem outRefresh_stop {s : State} {n : Nat} (ha : (outOf s n).active = true) (h : outWant s n ≠ 2) :
    outRefresh s n = beginStop (holdShown s n) n 0 :=
  (if_pos ha).trans (if_neg h)

theorem outRefresh_wait {s : State} {n : Nat} (ha : (outOf s n).active = false) (h : outWant s n ≠ 2) : outRefresh s n = waitReport s n :=
  (if_neg (by rw [ha]; decide)).trans (if_neg h)

theorem outOf_wanted {s : State} {n : Nat} (hn : n < s.outs.length) :
    outOf (wanted s n) n = { outOf s n with want := outWant s n, fresh := (outOf s n).fresh || (outWant s n == 2 && (outOf s n).want != 2) } :=
  outOf_modOut hn _

/-- What an output should do, RUN shown as HOLD. -/
theorem outWant_hold {s : State} {n : Nat} (h : outWant s n = 3) : outWant (set1 s OUT.STATUS_RUN n 3) n = 3 := by
  have hk : Keeps [OUT.CTRL, OUT.MODE_SQUELCH_LOST, APLL.STATUS_RETUNE, OUT.MODE_PULSE, OUT.PALIGN_EN, DPLL.STATUS_STATE, SHELF.STATUS_ROLE] s
      (set1 s OUT.STATUS_RUN n 3) := .set1 (by decide) ..
  have hrun : get1 (set1 s OUT.STATUS_RUN n 3) OUT.STATUS_RUN n = 3 := by simp (disch := decide) [get1, set1]
  have h5 : get1 s OUT.STATUS_RUN n ≠ 5 := fun h5 => by
    unfold outWant at h
    rw [if_pos h5] at h
    exact absurd h (by decide)
  refine Eq.trans ?_ h
  unfold outWant domState stbyOff bit1
  rw [hrun, if_neg (by decide), if_neg h5, hk.reads _ (by decide), hk.reads _ (by decide), hk.reads _ (by decide), hk.reads _ (by decide), hk.reads _ (by decide),
    hk.reads _ (by decide), hk.reads _ (by decide)]
  rfl

theorem holdShown_outs (s : State) (n : Nat) : (holdShown s n).outs = (wanted s n).outs := by
  unfold holdShown
  split <;> rfl

theorem holdShown_want (s : State) (n : Nat) : outWant (holdShown s n) n = outWant s n := by
  have hwant : outWant (wanted s n) n = outWant s n := outWant_modOut s n fun _ => rfl
  unfold holdShown
  split
  · next h => rw [outWant_hold (hwant.trans h), h]
  · exact hwant

/-- How long an output stays high is read from its grid and its APLL. -/
theorem highLeft_congr {s t : State} {n : Nat} (ha : t.aplls = s.aplls) (hp : t.pol = s.pol) (hpulse : (outOf t n).pulse = (outOf s n).pulse)
    (hbusy : (outOf t n).busy = (outOf s n).busy) (hdiv : (outOf t n).div = (outOf s n).div) (hcoarse : (outOf t n).coarse = (outOf s n).coarse) :
    highLeft t n = highLeft s n := by
  unfold highLeft clockPos outOwner
  rw [apllOf_congr ha, hp]
  dsimp only
  rw [hpulse, hbusy, hdiv, hcoarse]

/-- `OutStops` of two states with the same output. -/
theorem OutStops.of_same {s u t : State} {n : Nat} (h : OutStops u t n) (hfall : (outOf u n).fall = (outOf s n).fall)
    (hleft : highLeft u n = highLeft s n) : OutStops s t n := by
  unfold OutStops at *
  rwa [hfall, hleft] at h

theorem waitReport_outs (s : State) (n : Nat) : StopKept n (wanted s n) (waitReport s n) ∧
    (outOf (waitReport s n) n).active = (outOf (wanted s n) n).active := by
  obtain ⟨u, hu, hact, heq⟩ : ∃ u, StopKept n (wanted s n) u ∧ (outOf u n).active = (outOf (wanted s n) n).active ∧
      (waitReport s n).outs = u.outs := by
    refine ⟨if outWant s n = 1 then wanted s n else modOut (wanted s n) n fun v => { v with quiet := 0 }, ?_, ?_, ?_⟩
    · split
      · exact .refl ..
      · exact .modOut _ fun _ => ⟨rfl, rfl, rfl, rfl, rfl⟩
    · split
      · rfl
      · exact getD_modify_keep (g := OutU.active) (f := fun v => { v with quiet := 0 }) (fun _ => rfl) ..
    · unfold waitReport
      dsimp only
      split <;> simp [cite @evt_keeps, cite @addCnt_keeps, cite @set1_keeps]
  exact ⟨hu.trans (.of_outs heq), by rw [outOf_congr heq, hact]⟩

theorem waitReport_run (s : State) (n : Nat) : get1 (waitReport s n) OUT.STATUS_RUN n = outWant s n := by
  have hfit : outWant s n % 2 ^ OUT.STATUS_RUN.width = outWant s n := Nat.mod_eq_of_lt (lt_of_le_of_lt (outWant_le s n) (by decide))
  unfold waitReport
  dsimp only
  split
  · next h => simp (disch := decide) [get1, set1, h.1]
  · simp (disch := decide) [get1, set1, getF_setF_same, hfit]

theorem wanted_kept (s : State) (n : Nat) (m : Nat) (hm : m ≠ n) : outOf (wanted s n) m = outOf s m := outOf_modOut_ne s hm _

/-- An output is brought to what its registers ask for. -/
theorem outRefresh_refreshed {s : State} {n : Nat} (hn : n < s.outs.length) : OutRefreshed s s (outRefresh s n) n := by
  have hw := outOf_wanted hn
  unfold OutRefreshed
  dsimp only
  by_cases h2 : outWant s n = 2
  · rw [outRefresh_go h2, hw]
    exact ⟨wanted_kept s n, rfl, fun ha _ => ⟨ha, rfl, rfl⟩, fun _ h => absurd h2 h, fun ha => ⟨ha, (if_pos h2).symm⟩⟩
  · cases ha : (outOf s n).active with
    | true =>
      have hlen : n < (holdShown s n).outs.length := by
        rw [holdShown_outs]
        unfold wanted modOut
        simpa using hn
      have hhold : outOf (holdShown s n) n = outOf (wanted s n) n := outOf_congr (holdShown_outs ..) n
      have hact : (outOf (holdShown s n) n).active = true := by rw [hhold, hw]; exact ha
      have hleft : highLeft (holdShown s n) n = highLeft s n := by
        apply highLeft_congr
        · unfold holdShown; split <;> rfl
        · unfold holdShown; split <;> rfl
        all_goals rw [hhold, hw]
      have hk := beginStop_kept (holdShown s n) n 0
      rw [outRefresh_stop ha h2]
      refine ⟨fun m hm => ?_, ?_, fun _ h => absurd h h2, fun _ _ => ⟨?_, fun hoff => ?_⟩, fun h => absurd h (by decide)⟩
      · rw [hk.others m hm, outOf_congr (holdShown_outs ..), wanted_kept s n m hm]
      · rw [hk.want, hhold, hw]
      · exact (beginStop_stops hlen hact 0).of_same (by rw [hhold, hw]) hleft
      · rw [beginStop_run hlen hact (by rw [holdShown_want]; exact h2) 0 hoff, holdShown_want]
    | false =>
      obtain ⟨hk, hact⟩ := waitReport_outs s n
      rw [outRefresh_wait ha h2]
      refine ⟨fun m hm => (hk.others m hm).trans (wanted_kept s n m hm), ?_, fun h => absurd h (by decide), fun h => absurd h (by decide), fun _ => ⟨?_, ?_⟩⟩
      · rw [hk.want, hw]
      · rw [hact, hw]
        exact ha
      · rw [if_neg h2, waitReport_run]

theorem outRefresh_flds (s : State) (n : Nat) : Keeps outFlds s (outRefresh s n) := by
  have hwant : Keeps outFlds s (wanted s n) := .modOut ..
  by_cases h2 : outWant s n = 2
  · rw [outRefresh_go h2]
    exact hwant
  · cases ha : (outOf s n).active with
    | true =>
      rw [outRefresh_stop ha h2]
      refine Keeps.trans (t := holdShown s n) ?_ (beginStop_flds ..)
      unfold holdShown
      exact .ite (hwant.after_set1 (by decide)) hwant
    | false =>
      rw [outRefresh_wait ha h2]
      have hquiet : Keeps outFlds s (if outWant s n = 1 then wanted s n else modOut (wanted s n) n fun v => { v with quiet := 0 }) :=
        .ite hwant (hwant.trans (.modOut ..))
      unfold waitReport
      exact .ite (((hquiet.after_set1 (by decide)).after_evt (by decide)).after_addCnt (by decide)) (hquiet.after_set1 (by decide))

/-- The same, from a state with the same output whose registers ask for something else. -/
theorem OutRefreshed.of_same {s u t : State} {n : Nat} (h : OutRefreshed u u t n) (hothers : ∀ m, m ≠ n → outOf u m = outOf s m)
    (hact : (outOf u n).active = (outOf s n).active) (hfall : (outOf u n).fall = (outOf s n).fall) (hleft : highLeft u n = highLeft s n)
    (hrun : get1 u OUT.STATUS_RUN n = get1 s OUT.STATUS_RUN n) : OutRefreshed s u t n := by
  unfold OutRefreshed OutStops at *
  dsimp only at *
  rw [hact, hfall, hleft, hrun] at h
  obtain ⟨h1, h2⟩ := h
  exact ⟨fun m hm => (h1 m hm).trans (hothers m hm), h2⟩

theorem outOf_modOut_tau (s : State) (n : Nat) {f : OutU → OutU} (h : ∀ u, (f u).tau = u.tau) : (outOf (modOut s n f) n).tau = (outOf s n).tau :=
  getD_modify_keep (g := OutU.tau) h ..

theorem outRefresh_tau (s : State) (n : Nat) : (outOf (outRefresh s n) n).tau = (outOf s n).tau := by
  have hwant : (outOf (wanted s n) n).tau = (outOf s n).tau := by
    unfold wanted
    exact outOf_modOut_tau s n fun _ => rfl
  by_cases h2 : outWant s n = 2
  · rw [outRefresh_go h2, hwant]
  · cases ha : (outOf s n).active with
    | true => rw [outRefresh_stop ha h2, (beginStop_kept ..).tau, outOf_congr (holdShown_outs ..), hwant]
    | false => rw [outRefresh_wait ha h2, (waitReport_outs s n).1.tau, hwant]

/-! ### Writes of the output page -/

/-- Two states that differ in registers alone. -/
def RegsOnly (s t : State) : Prop := t = { s with regs := t.regs }

theorem RegsOnly.trans {s t u : State} (h : RegsOnly s t) (g : RegsOnly t u) : RegsOnly s u := by
  unfold RegsOnly at *
  rw [g, h]

theorem RegsOnly.by_evt (s : State) (p : Page) (n bit : Nat) : RegsOnly s (evt s p n bit) :=
  (onlyCells_of_onlyRegs (ks := evtCells p n) (evt_keeps ..) ((CellsElse.refl _ _).after_evt (fun _ hk => hk) bit)).1

theorem RegsOnly.field {s t : State} (h : RegsOnly s t) {α : Type} (f : State → α) (hf : ∀ u r, f { u with regs := r } = f u) : f t = f s := by
  rw [show t = _ from h, hf]

/-- The output of a state whose registers alone differ, one RUN apart. -/
theorem outRefreshed_of_regs {s u : State} (h : RegsOnly s u) {n : Nat} (hn : n < s.outs.length)
    (hrun : get1 u OUT.STATUS_RUN n = get1 s OUT.STATUS_RUN n) : OutRefreshed s u (outRefresh u n) n := by
  have houts : u.outs = s.outs := h.field State.outs fun _ _ => rfl
  have haplls : u.aplls = s.aplls := h.field State.aplls fun _ _ => rfl
  have hpol : u.pol = s.pol := h.field State.pol fun _ _ => rfl
  have hsame : ∀ m, outOf u m = outOf s m := outOf_congr houts
  refine (outRefresh_refreshed (by rw [houts]; exact hn)).of_same (fun m _ => hsame m) (by rw [hsame]) (by rw [hsame]) ?_ hrun
  exact highLeft_congr haplls hpol (by rw [hsame]) (by rw [hsame]) (by rw [hsame]) (by rw [hsame])

theorem highLeft_of_regs {s u : State} (h : RegsOnly s u) (n : Nat) : highLeft u n = highLeft s n := by
  have hsame : outOf u n = outOf s n := outOf_congr (h.field State.outs fun _ _ => rfl) n
  exact highLeft_congr (h.field State.aplls fun _ _ => rfl) (h.field State.pol fun _ _ => rfl) (by rw [hsame]) (by rw [hsame]) (by rw [hsame]) (by rw [hsame])

section
variable {s : State} {n : Nat} (hn : n < s.outs.length)
include hn

/-- ENABLE as it acts. -/
theorem outEnableWrite_shows (en : Bool) : get1 (outEnableWrite s n en) OUT.CTRL n = b2n en ∧
    OutRefreshed s (set1 s OUT.CTRL n (b2n en)) (outEnableWrite s n en) n := by
  refine ⟨?_, outRefreshed_of_regs (u := set1 s _ n _) rfl hn (by simp (disch := decide) [get1, set1])⟩
  unfold outEnableWrite
  rw [(outRefresh_flds ..).reads _ (by decide)]
  cases en <;> simp (disch := decide) [get1, set1, b2n]

/-- A pulse mode that stops a running output first. -/
theorem pulseModeWrite_stops {p : Bool} (ha : (outOf s n).active = true) (hp : (outOf s n).pulse ≠ p) :
    OutStops s (pulseModeWrite s n p) n ∧ StopKept n s (pulseModeWrite s n p) ∧ get1 (pulseModeWrite s n p) OUT.STATUS_RUN n ≠ 2 ∧
    get1 (pulseModeWrite s n p) OUT.MODE_PULSE n = b2n p := by
  obtain ⟨v, hv⟩ : ∃ v, v = set1 (set1 s OUT.MODE_PULSE n (b2n p)) OUT.STATUS_RUN n 3 := ⟨_, rfl⟩
  have hregs : RegsOnly s v := by rw [hv]; rfl
  have houts : v.outs = s.outs := by rw [hv]; rfl
  have hsame : outOf v n = outOf s n := outOf_congr houts n
  have hlen : n < v.outs.length := by rw [houts]; exact hn
  have hrun : get1 v OUT.STATUS_RUN n = 3 := by rw [hv]; simp (disch := decide) [get1, set1]
  have hmode : get1 v OUT.MODE_PULSE n = b2n p := by
    rw [hv]
    cases p <;> simp (disch := decide) [get1, set1, b2n]
  have heq : pulseModeWrite s n p = beginStop v n 2 := by
    have hstep : pulseModeWrite s n p = if (outOf s n).fall.isSome then askQuiet v n 2 else beginStop v n 2 := by
      rw [hv]
      exact if_pos (by simp [ha, hp])
    rw [hstep]
    split
    · next h =>
      obtain ⟨x, hx⟩ := Option.isSome_iff_exists.mp h
      exact (beginStop_fall (by rw [hsame]; exact hx) 2).symm
    · rfl
  rw [heq]
  refine ⟨(beginStop_stops hlen (by rw [hsame]; exact ha) 2).of_same (by rw [hsame]) (highLeft_of_regs hregs n),
    (StopKept.of_outs houts).trans (beginStop_kept ..), ?_, ((beginStop_flds v n 2).reads _ (by decide) n).trans hmode⟩
  refine beginStop_cases (P := fun t => get1 t OUT.STATUS_RUN n ≠ 2) ?_ ?_ ?_
  · show get1 v OUT.STATUS_RUN n ≠ 2
    rw [hrun]
    decide
  · show get1 v OUT.STATUS_RUN n ≠ 2
    rw [hrun]
    decide
  · have hquiet : (outOf (askQuiet v n 2) n).quiet = 2 := by
      unfold askQuiet
      rw [outOf_modOut hlen]
    rw [finishStop_eq, hquiet]
    exact stopReport_ne (outWant_le (askQuiet v n 2) n) _ n

/-- Any other pulse mode acts at once. -/
theorem pulseModeWrite_acts {p : Bool} (h : (outOf s n).active = false ∨ (outOf s n).pulse = p) :
    OutRefreshed s (set1 s OUT.MODE_PULSE n (b2n p)) (pulseModeWrite s n p) n ∧ get1 (pulseModeWrite s n p) OUT.MODE_PULSE n = b2n p := by
  have heq : pulseModeWrite s n p = outRefresh (set1 s OUT.MODE_PULSE n (b2n p)) n := if_neg (by rcases h with h | h <;> simp [h])
  rw [heq]
  refine ⟨outRefreshed_of_regs (u := set1 s _ n _) rfl hn (by simp (disch := decide) [get1, set1]), ?_⟩
  rw [(outRefresh_flds ..).reads _ (by decide)]
  cases p <;> simp (disch := decide) [get1, set1, b2n]

end

/-! ### DIV and COARSE (R335, R337, R339) -/

/-- Whether a DIV lies in its range and keeps the format's limit. -/
def divOk (s : State) (n : Nat) (div : Option Nat) : Bool :=
  div.all fun v : Nat => decide (5 ≤ v) && withinFmt s n (fNom s (outOwner s n) / (v : Rat))

/-- The same, judged of the value as a rational number. -/
theorem divOk_rat (s : State) (n : Nat) (div : Option Nat) :
    ((do let a ← div; pure (a : Rat)) : Option Rat).all (fun v : Rat => decide (5 ≤ v) && withinFmt s n (fNom s (outOwner s n) / v)) = divOk s n div := by
  cases div with
  | none => rfl
  | some v =>
    have hdec : decide ((5 : Rat) ≤ (v : Rat)) = decide (5 ≤ v) := decide_eq_decide.mpr (by norm_cast)
    exact congrArg (· && withinFmt s n (fNom s (outOwner s n) / (v : Rat))) hdec

/-- The DIV that would stand. -/
def divNew (s : State) (n : Nat) (div : Option Nat) : Nat := if divOk s n div then div.getD (get1 s OUT.DIV n) else get1 s OUT.DIV n

/-- A DIV out of its range is reported. -/
def divJudged (s : State) (n : Nat) (div : Option Nat) : State := if divOk s n div then s else cfgBad s n

/-- Both fields as they are taken. -/
def divSet (s : State) (n : Nat) (div : Option Nat) (c : Nat) : State :=
  set1 (set1 (divJudged s n div) OUT.DIV n (divNew s n div)) OUT.COARSE n c

/-- Whether a running output changes its divider. -/
def divMoves (s : State) (n v c : Nat) : Bool := (outOf s n).active && !(outOf s n).pulse && ((outOf s n).div != v || (outOf s n).coarse != c)

theorem divJudged_regs (s : State) (n : Nat) (div : Option Nat) : RegsOnly s (divJudged s n div) := by
  unfold divJudged
  split
  · rfl
  · exact .by_evt ..

theorem divSet_regs (s : State) (n : Nat) (div : Option Nat) (c : Nat) : RegsOnly s (divSet s n div c) := by
  exact (divJudged_regs s n div).trans rfl

theorem divJudged_raised {s : State} {n : Nat} {div : Option Nat} (h : divOk s n div = false) : Raised (divJudged s n div) .out n 5 := by
  unfold divJudged
  rw [if_neg (by simp [h])]
  exact raised_evt (by decide) ..

theorem divJudged_cells (ks : List Nat) (s : State) (n : Nat) (div : Option Nat) :
    CellsElse (ks ++ evtCells .out n) s (divJudged s n div) := by
  unfold divJudged
  split
  · exact .refl _ _
  · exact (CellsElse.refl _ _).after_evt (fun k hk => List.mem_append_right _ hk) 5

theorem dividerWrite_eq {s : State} {n : Nat} {div : Option Nat} (hdiv : div.getD 0 < 2 ^ 32) (coarse : Option Nat) :
    dividerWrite s n div coarse = if divNew s n div ≤ coarse.getD (get1 s OUT.COARSE n) then cfgBad (divJudged s n div) n
      else if divMoves (divSet s n div (coarse.getD (get1 s OUT.COARSE n))) n (divNew s n div) (coarse.getD (get1 s OUT.COARSE n)) then
        if (outOf (divSet s n div (coarse.getD (get1 s OUT.COARSE n))) n).fall.isSome then divSet s n div (coarse.getD (get1 s OUT.COARSE n))
        else beginStop (divSet s n div (coarse.getD (get1 s OUT.COARSE n))) n 1
      else divSet s n div (coarse.getD (get1 s OUT.COARSE n)) := by
  cases div with
  | none => rfl
  | some v =>
    have hfine : (decide (5 ≤ v) && decide (v < 2 ^ 32) && withinFmt s n (fNom s (outOwner s n) / (v : Rat))) = divOk s n (some v) := by
      have hv : v < 2 ^ 32 := hdiv
      simp only [divOk, Option.all_some, hv, decide_true, Bool.and_true]
    have hnew : (if divOk s n (some v) then some v else none).getD (get1 s OUT.DIV n) = divNew s n (some v) := by
      unfold divNew
      split <;> rfl
    unfold dividerWrite
    simp only [hfine, hnew]
    rfl

/-- What a divider write shows, whether it passes and whether it stops the output. -/
theorem dividerWrite_shows {s : State} {n : Nat} (hn : n < s.outs.length) {div : Option Nat} (hdiv : div.getD 0 < 2 ^ 32) (coarse : Option Nat) :
    let v := divNew s n div
    let c := coarse.getD (get1 s OUT.COARSE n)
    let t := dividerWrite s n div coarse
    (divOk s n div = false → Raised t .out n 5) ∧ StopKept n s t ∧ (v ≤ c → Raised t .out n 5 ∧ OnlyCells (evtCells .out n) s t) ∧
    (c < v → get1 t OUT.DIV n = v % 2 ^ 32 ∧ get1 t OUT.COARSE n = c % 2 ^ 32 ∧ (divMoves s n v c = true → OutStops s t n) ∧
      (divMoves s n v c = false → OnlyCells (cells [(OUT.DIV, n), (OUT.COARSE, n)] ++ evtCells .out n) s t)) := by
  dsimp only
  obtain ⟨v, hv⟩ : ∃ v, v = divNew s n div := ⟨_, rfl⟩
  obtain ⟨c, hc⟩ : ∃ c, c = coarse.getD (get1 s OUT.COARSE n) := ⟨_, rfl⟩
  obtain ⟨w, hw⟩ : ∃ w, w = divSet s n div c := ⟨_, rfl⟩
  have hregs : RegsOnly s w := by rw [hw]; exact divSet_regs ..
  have houts : w.outs = s.outs := hregs.field State.outs fun _ _ => rfl
  have hsame : outOf w n = outOf s n := outOf_congr houts n
  have hmoves : divMoves w n v c = divMoves s n v c := by unfold divMoves; rw [hsame]
  have hlen : n < w.outs.length := by rw [houts]; exact hn
  have hwdiv : get1 w OUT.DIV n = v % 2 ^ 32 := by
    rw [hw, hv]
    unfold divSet
    simp (disch := decide) [get1, set1, getF_setF_same]
    rfl
  have hwcoarse : get1 w OUT.COARSE n = c % 2 ^ 32 := by
    rw [hw]
    unfold divSet
    simp (disch := decide) [get1, set1, getF_setF_same]
    rfl
  have hwraised : divOk s n div = false → Raised w .out n 5 := fun h => by
    rw [hw]
    exact ((divJudged_raised h).setF_any (by decide) (by decide) ..).setF_any (by decide) (by decide) ..
  have heq := dividerWrite_eq (s := s) (n := n) hdiv coarse
  rw [← hc, ← hw, ← hv, hmoves] at heq
  rw [← hc, ← hv]
  by_cases hle : v ≤ c
  · rw [heq, if_pos hle]
    refine ⟨fun _ => raised_evt (by decide) .., .of_outs ?_, fun _ => ⟨raised_evt (by decide) .., ?_⟩, fun h => absurd hle (not_le.mpr h)⟩
    · exact ((divJudged_regs s n div).trans (.by_evt ..)).field State.outs fun _ _ => rfl
    · exact ⟨(divJudged_regs s n div).trans (.by_evt ..), (divJudged_cells [] s n div).after_evt (fun _ hk => hk) 5⟩
  · rw [heq, if_neg hle]
    cases hm : divMoves s n v c with
    | true =>
      have hact : (outOf w n).active = true := by
        rw [hsame]
        unfold divMoves at hm
        simp only [Bool.and_eq_true] at hm
        exact hm.1.1
      rw [if_pos rfl]
      split
      · next hf =>
        obtain ⟨x, hx⟩ := Option.isSome_iff_exists.mp hf
        refine ⟨hwraised, .of_outs houts, fun h => absurd h hle, fun _ => ⟨hwdiv, hwcoarse, fun _ => ?_, fun h => absurd h (by decide)⟩⟩
        have hnone : (outOf s n).fall ≠ none := by rw [← hsame, hx]; exact Option.some_ne_none x
        exact ⟨fun y hy => ⟨hact, by rw [hsame]; exact hy⟩, fun h => absurd h hnone, fun h => absurd h hnone⟩
      · refine ⟨fun h => (beginStop_flds w n 1).raised .out n 5 (by decide) (by decide) (hwraised h), (StopKept.of_outs houts).trans (beginStop_kept ..),
          fun h => absurd h hle, fun _ => ⟨?_, ?_, fun _ => ?_, fun h => absurd h (by decide)⟩⟩
        · rw [(beginStop_flds w n 1).reads _ (by decide), hwdiv]
        · rw [(beginStop_flds w n 1).reads _ (by decide), hwcoarse]
        · exact (beginStop_stops hlen hact 1).of_same (by rw [hsame]) (highLeft_of_regs hregs n)
    | false =>
      rw [if_neg (by decide)]
      refine ⟨hwraised, .of_outs houts, fun h => absurd h hle, fun _ => ⟨hwdiv, hwcoarse, fun h => absurd h (by decide), fun _ => ⟨hregs, ?_⟩⟩⟩
      rw [hw]
      unfold divSet
      exact ((divJudged_cells (cells [(OUT.DIV, n), (OUT.COARSE, n)]) s n div).after_set1 (by simp [cells]) _).after_set1 (by simp [cells]) _

/-! ### The pulse fields and the alignment (R346 to R349) -/

/-- Pulse fields that may stand together fit their fields. -/
theorem pulseOk_fits {k p w : Nat} (h : pulseOk k p w = true) : k < 2 ^ 3 ∧ p < 2 ^ 30 ∧ w < 2 ^ 30 := by
  simp only [pulseOk, Bool.and_eq_true, decide_eq_true_eq, beq_iff_eq] at h
  obtain ⟨⟨⟨⟨hk, -⟩, hdvd⟩, -⟩, hw⟩ := h
  have hp : p ≤ 1000000000 := Nat.le_of_dvd (by decide) (Nat.dvd_of_mod_eq_zero hdvd)
  have hper : perNs k p ≤ 1000000000 := by
    unfold perNs
    split <;> omega
  exact ⟨by omega, by omega, by omega⟩

theorem pulsePeriodSet_ok {s : State} {n : Nat} {code per width : Option Nat}
    (h : pulseOk (code.getD (get1 s OUT.PULSE_PER n)) (per.getD (get1 s OUT.PER_NS n)) (width.getD (get1 s OUT.WIDTH_NS n)) = true) :
    let t := pulsePeriodSet s n code per width
    get1 t OUT.PULSE_PER n = code.getD (get1 s OUT.PULSE_PER n) ∧ get1 t OUT.PER_NS n = per.getD (get1 s OUT.PER_NS n) ∧
      get1 t OUT.WIDTH_NS n = width.getD (get1 s OUT.WIDTH_NS n) ∧
      OnlyCells (cells [(OUT.PULSE_PER, n), (OUT.PER_NS, n), (OUT.WIDTH_NS, n)]) s t := by
  obtain ⟨hk, hp, hw⟩ := pulseOk_fits h
  have heq : pulsePeriodSet s n code per width = set1 (set1 (set1 s OUT.PULSE_PER n (code.getD (get1 s OUT.PULSE_PER n)))
      OUT.PER_NS n (per.getD (get1 s OUT.PER_NS n))) OUT.WIDTH_NS n (width.getD (get1 s OUT.WIDTH_NS n)) := if_pos h
  dsimp only
  rw [heq]
  generalize code.getD (get1 s OUT.PULSE_PER n) = k at *
  generalize per.getD (get1 s OUT.PER_NS n) = p at *
  generalize width.getD (get1 s OUT.WIDTH_NS n) = w at *
  have hk' : k % 2 ^ OUT.PULSE_PER.width = k := Nat.mod_eq_of_lt hk
  have hp' : p % 2 ^ OUT.PER_NS.width = p := Nat.mod_eq_of_lt hp
  have hw' : w % 2 ^ OUT.WIDTH_NS.width = w := Nat.mod_eq_of_lt hw
  refine ⟨?_, ?_, ?_, rfl, (((CellsElse.refl _ _).after_set1 (by simp [cells]) k).after_set1 (by simp [cells]) p).after_set1 (by simp [cells]) w⟩
  · simp (disch := decide) [get1, set1, getF_setF_same, hk']
  · simp (disch := decide) [get1, set1, getF_setF_same, hp']
  · simp (disch := decide) [get1, set1, getF_setF_same, hw']

theorem cfgBad_only (s : State) (n : Nat) : Raised (cfgBad s n) .out n 5 ∧ OnlyCells (evtCells .out n) s (cfgBad s n) :=
  ⟨raised_evt (by decide) .., onlyCells_of_onlyRegs (evt_keeps ..) ((CellsElse.refl _ _).after_evt (fun _ hk => hk) 5)⟩

/-- A restart of the alignment withholds pulses until a valid edge. -/
def alignAnew (s : State) (n : Nat) : State := modOut s n fun v => { v with tau := none, tauNew := none, tauAge := 0, lost := false }

/-- The alignment fields as they are taken. -/
def alignSet (s : State) (n c : Nat) (e : Bool) : State := set1 (set1 s OUT.PALIGN_CHAN n c) OUT.PALIGN_EN n (b2n e)

/-- The state that PALIGN leaves for the output to follow. -/
def alignFrom (s : State) (n c : Nat) (e : Bool) : State :=
  if get1 s OUT.PALIGN_CHAN n = c ∧ get1 s OUT.PALIGN_EN n = b2n e then alignSet s n c e else alignAnew (alignSet s n c e) n

theorem palignSet_ok {s : State} {n c : Nat} (e : Bool) (h : alignChanOk s n c = true) : palignSet s n c e = outRefresh (alignFrom s n c e) n := by
  refine (if_neg (by simp [h])).trans (congrArg (outRefresh · n) ?_)
  unfold alignFrom
  simp only [Bool.and_eq_true, beq_iff_eq]
  rfl

theorem palignSet_shows {s : State} {n c : Nat} (hn : n < s.outs.length) (hc : c < 16) (e : Bool) (h : alignChanOk s n c = true) :
    let t := palignSet s n c e
    get1 t OUT.PALIGN_CHAN n = c ∧ get1 t OUT.PALIGN_EN n = b2n e ∧ (outOf t n).tau = (outOf (alignFrom s n c e) n).tau ∧
      OutRefreshed s (alignFrom s n c e) t n := by
  obtain ⟨v, hv⟩ : ∃ v, v = alignFrom s n c e := ⟨_, rfl⟩
  have hset : Keeps outFlds (alignSet s n c e) v := by
    rw [hv]
    unfold alignFrom
    exact .ite (.refl _ _) (.modOut ..)
  have hregs : v.regs = (alignSet s n c e).regs := by
    rw [hv]
    unfold alignFrom
    split <;> rfl
  have hrest : v.aplls = s.aplls ∧ v.pol = s.pol ∧ v.outs.length = s.outs.length ∧ ∀ m, m ≠ n → outOf v m = outOf s m := by
    rw [hv]
    unfold alignFrom
    split
    · exact ⟨rfl, rfl, rfl, fun _ _ => rfl⟩
    · exact ⟨rfl, rfl, List.length_modify .., fun m hm => outOf_modOut_ne _ hm _⟩
  have hout : (outOf v n).active = (outOf s n).active ∧ (outOf v n).fall = (outOf s n).fall ∧ (outOf v n).pulse = (outOf s n).pulse ∧
      (outOf v n).busy = (outOf s n).busy ∧ (outOf v n).div = (outOf s n).div ∧ (outOf v n).coarse = (outOf s n).coarse := by
    rw [hv]
    unfold alignFrom
    split
    · exact ⟨rfl, rfl, rfl, rfl, rfl, rfl⟩
    · unfold alignAnew
      rw [outOf_modOut (s := alignSet s n c e) hn]
      exact ⟨rfl, rfl, rfl, rfl, rfl, rfl⟩
  obtain ⟨haplls, hpol, hlen, hothers⟩ := hrest
  obtain ⟨hact, hfall, hpulse, hbusy, hdiv, hcoarse⟩ := hout
  have hfit : c % 2 ^ OUT.PALIGN_CHAN.width = c := Nat.mod_eq_of_lt hc
  have hrun : get1 v OUT.STATUS_RUN n = get1 s OUT.STATUS_RUN n := by
    have hset' : get1 (alignSet s n c e) OUT.STATUS_RUN n = get1 s OUT.STATUS_RUN n := by
      simp (disch := decide) [alignSet, get1, set1]
    rw [← hset']
    unfold get1 getF
    rw [hregs]
    rfl
  have hflds := hset.trans (outRefresh_flds v n)
  dsimp only
  rw [palignSet_ok e h, ← hv]
  refine ⟨?_, ?_, ?_, (outRefresh_refreshed (by rw [hlen]; exact hn)).of_same hothers hact hfall (highLeft_congr haplls hpol hpulse hbusy hdiv hcoarse) hrun⟩
  · rw [hflds.reads _ (by decide)]
    simp (disch := decide) [alignSet, get1, set1, getF_setF_same, hfit]
  · rw [hflds.reads _ (by decide)]
    cases e <;> simp (disch := decide) [alignSet, get1, set1, b2n]
  · exact outRefresh_tau v n

theorem palignOfsSet_shows {s : State} {n h : Nat} (hn : n < s.outs.length) (hh : h < 2 ^ 16) :
    let t := palignOfsSet s n h
    get1 t OUT.PALIGN_OFS_HI n = h ∧ (outOf t n).ofs = toSigned 48 (get1 s OUT.PALIGN_OFS_LO n + 2 ^ 32 * h) ∧
      (∀ m, m ≠ n → outOf t m = outOf s m) ∧ OnlyCells (cells [(OUT.PALIGN_OFS_HI, n)]) { s with outs := t.outs } t := by
  have hfit : h % 2 ^ OUT.PALIGN_OFS_HI.width = h := Nat.mod_eq_of_lt hh
  have hlo : get1 (set1 s OUT.PALIGN_OFS_HI n h) OUT.PALIGN_OFS_LO n = get1 s OUT.PALIGN_OFS_LO n := by
    simp (disch := decide) [get1, set1]
  refine ⟨?_, ?_, fun m hm => outOf_modOut_ne _ hm _, rfl, (CellsElse.refl _ _).after_set1 (by simp [cells]) h⟩
  · show get1 (set1 s OUT.PALIGN_OFS_HI n h) OUT.PALIGN_OFS_HI n = h
    simp (disch := decide) [get1, set1, getF_setF_same, hfit]
  · unfold palignOfsSet
    dsimp only
    rw [hlo, Nat.mod_eq_of_lt hh, outOf_modOut (s := set1 s OUT.PALIGN_OFS_HI n h) hn]

/-- Settles O48: each write as it acts. -/
theorem outputWrites : Obligations.OutputWrites := by
  intro s n hs h10
  have hn : n < s.outs.length := by rw [hs.outs]; exact h10
  refine ⟨⟨outEnableWrite s n true, if_pos h10, outEnableWrite_shows hn true⟩, ⟨outEnableWrite s n false, if_pos h10, ?_⟩,
    fun p => ⟨pulseModeWrite s n p, if_pos h10, ?_⟩, fun div coarse hd hc => ?_, fun f hf => ⟨fineSet s n f, if_pos ⟨h10, hf⟩, ?_, rfl, ?_⟩,
    fun code per width hk hp hw => ⟨pulsePeriodSet s n code per width, if_pos ⟨h10, hk, hp, hw⟩, pulsePeriodSet_ok, fun h => ?_⟩,
    fun c e hc => ⟨fun h => ⟨palignSet s n c e, if_pos ⟨h10, hc⟩, palignSet_shows hn hc e h⟩, fun h => ⟨cfgBad s n, ?_, ?_, ?_⟩⟩,
    fun h hh => ⟨palignOfsSet s n h, if_pos ⟨h10, hh⟩, palignOfsSet_shows hn hh⟩⟩
  · obtain ⟨hctrl, href⟩ := outEnableWrite_shows hn false
    refine ⟨hctrl, href, href.2.1.trans ?_⟩
    have hzero : get1 (set1 s OUT.CTRL n (b2n false)) OUT.CTRL n = 0 := by simp (disch := decide) [get1, set1, b2n]
    have hrun : get1 (set1 s OUT.CTRL n (b2n false)) OUT.STATUS_RUN n = get1 s OUT.STATUS_RUN n := by simp (disch := decide) [get1, set1]
    unfold outWant
    dsimp only
    rw [hrun, hzero]
    exact if_congr Iff.rfl rfl (if_pos (Or.inl rfl))
  · by_cases h : (outOf s n).active = true ∧ (outOf s n).pulse ≠ p
    · obtain ⟨hstops, hk, hrun, hmode⟩ := pulseModeWrite_stops hn h.1 h.2
      refine ⟨hmode, hk.others, fun _ _ => ⟨hstops, hk.pulse, hrun⟩, fun hno => ?_⟩
      rcases hno with hno | hno
      · rw [h.1] at hno
        exact absurd hno (by decide)
      · exact absurd hno h.2
    · have hor : (outOf s n).active = false ∨ (outOf s n).pulse = p := by
        rcases not_and_or.mp h with h | h
        · exact Or.inl (by simpa using h)
        · exact Or.inr (not_not.mp h)
      obtain ⟨href, hmode⟩ := pulseModeWrite_acts hn hor
      exact ⟨hmode, href.1, fun ha hp => absurd ⟨ha, hp⟩ h, fun _ => href⟩
  · dsimp only
    simp only [divOk_rat]
    obtain ⟨hraised, hk, hbad, hset⟩ := dividerWrite_shows hn hd coarse
    refine ⟨dividerWrite s n div coarse, if_pos ⟨h10, hd, hc⟩, hraised, hk.others, hk.div, hk.coarse, hbad, fun hlt => ?_⟩
    obtain ⟨h1, h2, hstops, hcells⟩ := hset hlt
    refine ⟨h1, h2, fun ha hp hne => hstops ?_, fun hno => hcells ?_⟩
    · simp only [divMoves, ha, hp]
      rcases hne with hne | hne
      · simp [show (outOf s n).div ≠ divNew s n div from hne]
      · simp [hne]
    · rcases hno with h | h | h
      · simp [divMoves, h]
      · simp [divMoves, h]
      · simp [divMoves, show (outOf s n).div = divNew s n div from h.1, h.2]
  · simp (disch := decide) [fineSet, get1, set1, getF_setF_same, Nat.mod_eq_of_lt (show f < 2 ^ OUT.DELAY.width from hf)]
  · exact (CellsElse.refl _ _).after_set1 (by simp [cells]) f
  · rw [show pulsePeriodSet s n code per width = cfgBad s n from if_neg (by simp [h])]
    exact cfgBad_only s n
  · exact (if_pos ⟨h10, hc⟩).trans (congrArg _ (if_pos (by simp [h])))
  · exact (cfgBad_only s n).2
  · exact (cfgBad_only s n).1

end Sys2Proof.Machine

/-! Store requests (R484, R488). -/

namespace Sys2Proof.Machine

theorem exec_storeCmd {p first k : Nat} (hp : p < 4) (hf : first < 256) (hk : k < 256) (s : State) :
    exec (.storeCmd p first k) s = .next (storeCmd s p first k) := if_pos ⟨hp, hf, hk⟩

/-- The units in their numbers, the engine free and its queue empty, and yet a store marked as deferred: with the supply at its
full height. -/
def deferLeft : State :=
  { State.reset with
    phase := .held, cellar := { State.reset.cellar with defer := some 0 },
    regs := [(fldKey PWR.VIN 0 0 0, 12000), (fldKey PWR.HOLDUP 0 0 0, 20000)] }

/-- Of it, a command to store block 176 leaves the engine free. -/
theorem deferLeft_waits : (storeCmd deferLeft 0 176 0).cellar.run = none := by
  decide +kernel

theorem deferLeft_facts : mayStore 0 176 = true ∧ (deferLeft.cellar.cmds.getD 0 (0, 0)).1 = 0 ∧ engineTakes deferLeft = true ∧
    supplyOk deferLeft ⟨176, 4, [0], none⟩ (supplyNow deferLeft) = true := by
  decide +kernel

theorem deferLeft_shaped : Shaped deferLeft where
  lanes := by decide +kernel
  funcs := by decide +kernel
  rows := by decide +kernel
  parts := by decide +kernel
  chans := by decide +kernel
  pkts := by decide +kernel
  pairs := by decide +kernel
  doms := by decide +kernel
  aplls := by decide +kernel
  outs := by decide +kernel
  times := by decide +kernel
  eths := by decide +kernel
  ptps := by decide +kernel

/-- Refutes O49: where a store is still marked as deferred, though none waits, a command's first store does not begin at once. The
clause for a sufficient supply does not ask that no store be deferred, as the clause for a short one does. -/
theorem not_storeRequests : ¬ Obligations.StoreRequests := by
  intro h
  obtain ⟨hmay, hidle, htakes, hsupply⟩ := deferLeft_facts
  obtain ⟨hcmd, -, -⟩ := h deferLeft deferLeft_shaped
  obtain ⟨-, -, -, hgo⟩ := hcmd 0 176 0 (by decide) (by decide) (by decide)
  obtain ⟨t, ht, -, -, -, -, -, hfree⟩ := hgo (by simpa using hmay) hidle htakes
  obtain ⟨hbegins, -⟩ := hfree rfl rfl (by decide)
  obtain ⟨r, hr, -⟩ := hbegins hsupply
  rw [exec_storeCmd (by decide) (by decide) (by decide)] at ht
  cases ht
  rw [deferLeft_waits] at hr
  cases hr

end Sys2Proof.Machine

/-! Root: the faults of Leaf, debug grants, the profile's commands and the Leaf image (R447 to R470). -/

namespace Sys2Proof.Machine

/-! ### What an operation leaves of one page -/

/-- From one state to a later one the fields listed, of all instances, read the same, and no event of the page is taken back. -/
structure PageKept (p : Page) (fs : List Fld) (s t : State) : Prop where
  reads : ∀ g ∈ fs, ∀ n, get1 t g n = get1 s g n
  raised : ∀ n bit, bit < 32 → Raised s p n bit → Raised t p n bit

namespace PageKept

variable {p : Page} {fs : List Fld} {s t u : State}

theorem refl (p : Page) (fs : List Fld) (s : State) : PageKept p fs s s := ⟨fun _ _ _ => rfl, fun _ _ _ h => h⟩

theorem trans (h : PageKept p fs s t) (g : PageKept p fs t u) : PageKept p fs s u :=
  ⟨fun f hf n => (g.reads f hf n).trans (h.reads f hf n), fun n b hb hr => g.raised n b hb (h.raised n b hb hr)⟩

/-- A page that stays keeps all its fields but those of the policy. -/
theorem of_page (hfs : fs.all (fun g => g.page == p && g.acc != .lk) = true) (h : pageCells p t.regs = pageCells p s.regs) : PageKept p fs s t := by
  refine ⟨fun g hg n => ?_, fun n b _ hr => raised_of_pageCells h hr⟩
  have hplain := List.all_eq_true.mp hfs g hg
  simp only [Bool.and_eq_true, beq_iff_eq, bne_iff_ne] at hplain
  exact getF_of_pageCells h hplain.1 hplain.2 n 0 0

theorem of_keeps (hp : p ≠ .chan) (h : Keeps fs s t) : PageKept p fs s t := ⟨h.reads, fun n b hb hr => h.raised p n b hp hb hr⟩

theorem foldl {α : Type} {f : State → α → State} (hf : ∀ t x, PageKept p fs t (f t x)) (l : List α) (s : State) : PageKept p fs s (l.foldl f s) :=
  foldl_rel (R := PageKept p fs) (refl p fs) (fun _ _ _ => trans) (fun t x _ => hf t x) s

theorem ite {c : Prop} [Decidable c] (ht : PageKept p fs s t) (hu : PageKept p fs s u) : PageKept p fs s (if c then t else u) := by
  split
  · exact ht
  · exact hu

end PageKept

/-! ### Leaf stops and restarts (R466 to R468) -/

/-- The fields of the page of Root that a restart of Leaf leaves. -/
def rootFlds : List Fld := [ROOT.STATUS_PSTATE, ROOT.STATUS_COMMIT_PEND, ROOT.REFUSE_CODE, ROOT.REFUSE_OFFSET, ROOT.STAGE_GEN, ROOT.POL_GEN]

theorem leafDown_kept {fs : List Fld} (hfs : fs.all (fun g => g.page == .root && g.acc != .lk) = true) (s : State) : PageKept .root fs s (leafDown s) :=
  .of_page hfs (by simp)

theorem setLeaf_kept {fs : List Fld} (hfs : fs.all (Fld.apart ROOT.STATUS_LEAF 0 0) = true) (hplain : fs.all (Fld.lowPlain · 0 0) = true) (s : State) (v : Nat) :
    Keeps fs s (setLeaf s v) := by
  have hset : Keeps fs s (set1 s ROOT.STATUS_LEAF 0 v) := .set1 ⟨hfs, by decide⟩ s 0 v
  unfold setLeaf
  exact .ite (hset.after_evt hplain) hset

theorem setLeaf_leaf (s : State) {v : Nat} (hv : v < 8) : leafState (setLeaf s v) = v := by
  have hset : get1 (set1 s ROOT.STATUS_LEAF 0 v) ROOT.STATUS_LEAF 0 = v := getF_setF_fits (by decide) hv ..
  unfold setLeaf
  dsimp only
  split
  · exact (getF_of_page ROOT.STATUS_LEAF (degraded_pg _ (by decide)) (by simp [cite @degraded_keeps]) 0 0 0).trans hset
  · exact hset

theorem leafLast_cause (s : State) {c : Nat} (hc : c < 8) : get1 (leafLast s c) ROOT.LEAF_LAST_CAUSE 0 = c := by
  have hfit : c % 2 ^ ROOT.LEAF_LAST_CAUSE.width = c := Nat.mod_eq_of_lt (lt_of_lt_of_le hc (by decide))
  simp (disch := decide) [leafLast, get1, set1, getF_setF_same, hfit]

theorem leafLast_kept {fs : List Fld} (hfs : fs.all (fun g => Fld.apart ROOT.LEAF_LAST_CAUSE 0 0 g && Fld.apart ROOT.LEAF_LAST_IN_WINDOW 0 0 g &&
    Fld.apart ROOT.LEAF_LAST_FRN 0 0 g) = true) (s : State) (c : Nat) : Keeps fs s (leafLast s c) := by
  simp only [List.all_eq_true, Bool.and_eq_true] at hfs
  have h1 : fs.all (Fld.apart ROOT.LEAF_LAST_CAUSE 0 0) = true := List.all_eq_true.mpr fun g hg => (hfs g hg).1.1
  have h2 : fs.all (Fld.apart ROOT.LEAF_LAST_IN_WINDOW 0 0) = true := List.all_eq_true.mpr fun g hg => (hfs g hg).1.2
  have h3 : fs.all (Fld.apart ROOT.LEAF_LAST_FRN 0 0) = true := List.all_eq_true.mpr fun g hg => (hfs g hg).2
  exact (((Keeps.refl _ s).after_set1 ⟨h1, by decide⟩).after_set1 ⟨h2, by decide⟩).after_set1 ⟨h3, by decide⟩

/-- What a restart shows. -/
theorem leafRestart_shows (s : State) {c : Nat} (hc : c < 8) : leafState (leafRestart s c) = 1 ∧ (leafRestart s c).root = s.root ∧
    get1 (leafRestart s c) ROOT.LEAF_LAST_CAUSE 0 = c ∧
    get1 (leafRestart s c) ROOT.LEAF_RESTART_CNT 0 = satTo cntMax (get1 s ROOT.LEAF_RESTART_CNT 0 + 1) ∧ Raised (leafRestart s c) .root 0 3 ∧
    PageKept .root rootFlds s (leafRestart s c) := by
  obtain ⟨u, hu⟩ : ∃ u, u = leafLast (leafDown s) c := ⟨_, rfl⟩
  obtain ⟨v, hv⟩ : ∃ v, v = addCnt (evt u .root 0 3) ROOT.LEAF_RESTART_CNT 0 0 1 := ⟨_, rfl⟩
  have heq : leafRestart s c = setLeaf (journalPg v 0x095 none .root 0 (leafData v c)) 1 := by
    rw [hv, hu]
    rfl
  have hcause : get1 u ROOT.LEAF_LAST_CAUSE 0 = c := by rw [hu]; exact leafLast_cause _ hc
  have hcnt : get1 u ROOT.LEAF_RESTART_CNT 0 = get1 s ROOT.LEAF_RESTART_CNT 0 := by
    rw [hu, (leafLast_kept (fs := [ROOT.LEAF_RESTART_CNT]) (by decide) _ c).reads _ (by decide),
      (leafDown_kept (fs := [ROOT.LEAF_RESTART_CNT]) (by decide) s).reads _ (by decide)]
  have hv1 : Keeps [ROOT.LEAF_LAST_CAUSE] u v := by rw [hv]; exact (Keeps.evt (by decide) ..).after_addCnt (by decide)
  have hvcnt : get1 v ROOT.LEAF_RESTART_CNT 0 = satTo cntMax (get1 s ROOT.LEAF_RESTART_CNT 0 + 1) := by
    rw [hv, ← hcnt]
    refine (getF_addCnt_counter (f := ROOT.LEAF_RESTART_CNT) (k := 0) (by decide) rfl (by decide) ..).trans ?_
    rw [show getF _ ROOT.LEAF_RESTART_CNT 0 0 0 = _ from (Keeps.evt (fs := [ROOT.LEAF_RESTART_CNT]) (by decide) u .root 0 3).reads _ (by decide) 0]
  have hraised : Raised v .root 0 3 := by
    rw [hv]
    exact (Keeps.addCnt (fs := []) (by decide) ..).raised .root 0 3 (by decide) (by decide) (raised_evt (by decide) ..)
  have hend : Keeps [ROOT.LEAF_LAST_CAUSE, ROOT.LEAF_RESTART_CNT] v (leafRestart s c) := by
    rw [heq]
    exact (Keeps.journalPg (by decide) ..).trans (setLeaf_kept (by decide) (by decide) ..)
  refine ⟨by rw [heq]; exact setLeaf_leaf _ (by decide), by simp [cite @leafRestart_keeps], ?_, ?_, hend.raised .root 0 3 (by decide) (by decide) hraised, ?_⟩
  · rw [hend.reads _ (by decide), hv1.reads _ (by decide), hcause]
  · rw [hend.reads _ (by decide), hvcnt]
  · rw [heq, hv, hu]
    refine (leafDown_kept (by decide) s).trans (.of_keeps (by decide) ?_)
    exact ((((leafLast_kept (by decide) _ c).after_evt (by decide)).after_addCnt (by decide)).trans (.journalPg (by decide) ..)).trans
      (setLeaf_kept (by decide) (by decide) ..)

/-- A fault of a running Leaf that restarts it. -/
theorem leafFault_restarts {s : State} {c : Nat} (hc : c < 8) (hrun : leafRuns s = true) (hw : (inWindow s).length < 3) :
    leafState (leafFault s c) = 1 ∧ (leafFault s c).root.window = inWindow s ++ [s.frn] ∧ get1 (leafFault s c) ROOT.LEAF_LAST_CAUSE 0 = c ∧
    get1 (leafFault s c) ROOT.LEAF_RESTART_CNT 0 = satTo cntMax (get1 s ROOT.LEAF_RESTART_CNT 0 + 1) ∧ Raised (leafFault s c) .root 0 3 := by
  have heq : leafFault s c = leafRestart (modRoot s fun u => { u with window := inWindow s ++ [s.frn] }) c :=
    (if_neg (by simp [hrun])).trans (if_neg (by omega))
  obtain ⟨h1, h2, h3, h4, h5, -⟩ := leafRestart_shows (modRoot s fun u => { u with window := inWindow s ++ [s.frn] }) hc
  rw [heq]
  exact ⟨h1, by rw [h2]; rfl, h3, h4, h5⟩

/-- A fault of a running Leaf that holds it. -/
theorem leafFault_holds {s : State} {c : Nat} (hc : c < 8) (hrun : leafRuns s = true) (hw : 3 ≤ (inWindow s).length) :
    leafState (leafFault s c) = 2 ∧ get1 (leafFault s c) ROOT.LEAF_LAST_CAUSE 0 = c ∧ Raised (leafFault s c) .root 0 4 := by
  obtain ⟨u, hu⟩ : ∃ u, u = leafLast (leafDown (modRoot s fun u => { u with window := inWindow s })) c := ⟨_, rfl⟩
  have heq : leafFault s c = setLeaf (journalPg (evt u .root 0 4) 0x096 none .root 0 (leafData (evt u .root 0 4) c)) 2 := by
    rw [hu]
    exact (if_neg (by simp [hrun])).trans (if_pos hw)
  have hend : Keeps [ROOT.LEAF_LAST_CAUSE] (evt u .root 0 4) (leafFault s c) := by
    rw [heq]
    exact (Keeps.journalPg (by decide) ..).trans (setLeaf_kept (by decide) (by decide) ..)
  refine ⟨by rw [heq]; exact setLeaf_leaf _ (by decide), ?_, hend.raised .root 0 4 (by decide) (by decide) (raised_evt (by decide) ..)⟩
  rw [hend.reads _ (by decide), (Keeps.evt (fs := [ROOT.LEAF_LAST_CAUSE]) (by decide) u .root 0 4).reads _ (by decide), hu, leafLast_cause _ hc]

theorem leafFault_idle {s : State} (h : leafRuns s = false) (c : Nat) : leafFault s c = s := if_pos (by simp [h])

/-- A command that brings a fault, with its cause. -/
def Faults (s : State) (i : Instr) (c : Nat) : Prop :=
  (i = .leafWdtExpiry ∧ c = 1 ∧ s.root.kick + 2000 ≤ s.frn) ∨ (i = .leafMpuFault ∧ c = 2) ∨ (i = .leafException ∧ c = 3) ∨
    ((∃ w, w < 2 ^ 32 ∧ i = .restartSelf w) ∧ c = 4)

theorem Faults.exec {s : State} {i : Instr} {c : Nat} (h : Faults s i c) : c < 8 ∧ exec i s = .next (leafFault s c) := by
  rcases h with ⟨rfl, rfl, hk⟩ | ⟨rfl, rfl⟩ | ⟨rfl, rfl⟩ | ⟨⟨w, hw, rfl⟩, rfl⟩
  · exact ⟨by decide, if_pos hk⟩
  · exact ⟨by decide, rfl⟩
  · exact ⟨by decide, rfl⟩
  · exact ⟨by decide, if_pos hw⟩

/-! ### Debug grants (R469, R470) -/

/-- What a grant shows. -/
theorem debugAsk_granted {s : State} (hstrap : s.straps.debug = true) (hscope : debugScope s ≠ 0) :
    let t := debugAsk s
    t.root.grantEnd = some (s.frn + 8000 * get1 s DBG.DURATION 0) ∧ get1 t DBG.STATUS_GRANTED 0 = 1 ∧ get1 t DBG.STATUS_REFUSED 0 = 0 ∧
      get1 t DBG.GRANT_FRN 0 = s.frn % 2 ^ 32 ∧ get1 t DBG.GRANT_CNT 0 = satTo cntMax (get1 s DBG.GRANT_CNT 0 + 1) ∧ Raised t .dbg 0 0 := by
  obtain ⟨u, hu⟩ : ∃ u, u = set1 (set1 (set1 (modRoot s fun u => { u with grantEnd := some (s.frn + 8000 * get1 s DBG.DURATION 0) }) DBG.STATUS_GRANTED 0 1)
      DBG.STATUS_REFUSED 0 0) DBG.GRANT_FRN 0 s.frn := ⟨_, rfl⟩
  have heq : debugAsk s = journalPg (addCnt (evt u .dbg 0 0) DBG.GRANT_CNT 0 0 1) 0x097 none .dbg 0
      (debugScope s + 256 * satTo 0xFFFFFF (get1 s DBG.DURATION 0)) := by
    rw [hu]
    exact if_pos (by simp [hstrap, hscope])
  have hj : Keeps [DBG.STATUS_GRANTED, DBG.STATUS_REFUSED, DBG.GRANT_FRN, DBG.GRANT_CNT] (addCnt (evt u .dbg 0 0) DBG.GRANT_CNT 0 0 1) (debugAsk s) := by
    rw [heq]
    exact .journalPg (by decide) ..
  have hcnt : Keeps [DBG.STATUS_GRANTED, DBG.STATUS_REFUSED, DBG.GRANT_FRN] u (addCnt (evt u .dbg 0 0) DBG.GRANT_CNT 0 0 1) :=
    (Keeps.evt (by decide) ..).after_addCnt (by decide)
  dsimp only
  rw [hj.reads _ (by decide), hj.reads _ (by decide), hj.reads _ (by decide), hj.reads _ (by decide), hcnt.reads _ (by decide), hcnt.reads _ (by decide),
    hcnt.reads _ (by decide)]
  refine ⟨?_, ?_, ?_, ?_, ?_, hj.raised .dbg 0 0 (by decide) (by decide) ?_⟩
  · rw [heq, hu]
    simp [cite @journalPg_keeps, cite @addCnt_keeps, cite @evt_keeps, cite @set1_keeps, modRoot]
  · rw [hu]
    simp (disch := decide) [get1, set1]
  · rw [hu]
    simp (disch := decide) [get1, set1]
  · rw [hu]
    exact getF_setF_same _ DBG.GRANT_FRN 0 0 0 s.frn (by decide)
  · refine (getF_addCnt_counter (f := DBG.GRANT_CNT) (k := 0) (by decide) rfl (by decide) ..).trans ?_
    rw [show getF (evt u .dbg 0 0) DBG.GRANT_CNT 0 0 0 = get1 s DBG.GRANT_CNT 0 from ?_]
    refine ((Keeps.evt (fs := [DBG.GRANT_CNT]) (by decide) u .dbg 0 0).reads _ (by decide) 0).trans ?_
    rw [hu]
    simp (disch := decide) [get1, set1]
  · exact (Keeps.addCnt (fs := []) (by decide) ..).raised .dbg 0 0 (by decide) (by decide) (raised_evt (by decide) ..)

/-- What the end of a grant shows. -/
theorem debugEnd_shows {s : State} (h : s.root.grantEnd.isSome = true) (c : Nat) :
    (debugEnd s c).root.grantEnd = none ∧ get1 (debugEnd s c) DBG.STATUS_GRANTED 0 = 0 ∧ Raised (debugEnd s c) .dbg 0 1 := by
  obtain ⟨u, hu⟩ : ∃ u, u = set1 (modRoot s fun u => { u with grantEnd := none }) DBG.STATUS_GRANTED 0 0 := ⟨_, rfl⟩
  have heq : debugEnd s c = journalPg (evt u .dbg 0 1) 0x098 none .dbg 0 c := by
    rw [hu]
    exact if_neg (by simp [granted, h])
  have hj : Keeps [DBG.STATUS_GRANTED] (evt u .dbg 0 1) (debugEnd s c) := by
    rw [heq]
    exact .journalPg (by decide) ..
  refine ⟨?_, ?_, hj.raised .dbg 0 1 (by decide) (by decide) (raised_evt (by decide) ..)⟩
  · rw [heq, hu]
    simp [cite @journalPg_keeps, cite @evt_keeps, cite @set1_keeps, modRoot]
  · rw [hj.reads _ (by decide), (Keeps.evt (fs := [DBG.STATUS_GRANTED]) (by decide) u .dbg 0 1).reads _ (by decide), hu]
    simp (disch := decide) [get1, set1]

theorem debugEnd_idle {s : State} (h : s.root.grantEnd = none) (c : Nat) : debugEnd s c = s := if_pos (by simp [granted, h])

/-- Settles O53: the faults by Leaf's state and its window, the grants by strap, policy and time. -/
theorem leafFaultsAndDebug : Obligations.LeafFaultsAndDebug := by
  intro s _
  refine ⟨fun i c hf => ?_, fun hk => if_neg (by omega), ?_, fun hr => ⟨_, if_pos hr, rfl, rfl, rfl⟩, fun hr => if_neg (by simp [hr]),
    fun hstrap hscope => ⟨debugAsk s, rfl, debugAsk_granted hstrap hscope⟩, fun hno => ⟨evt (set1 s DBG.STATUS_REFUSED 0 1) .dbg 0 2, ?_, ?_, raised_evt (by decide) .., ?_⟩,
    fun f hf => ⟨debugEnd s 1, rfl, debugEnd_shows (by simp [hf]) 1⟩, fun f hf => ⟨fun hle => ⟨debugEnd s 0, if_pos ?_, debugEnd_shows (by simp [hf]) 0⟩, fun hlt => if_neg ?_⟩,
    fun hnone => ⟨?_, if_neg ?_⟩⟩
  · obtain ⟨hc, hexec⟩ := Faults.exec hf
    rw [hexec]
    exact ⟨fun hr hw => ⟨_, rfl, leafFault_restarts hc hr hw⟩, fun hr hw => ⟨_, rfl, leafFault_holds hc hr hw⟩, fun hr => by rw [leafFault_idle hr]⟩
  · obtain ⟨h1, h2, h3, -, h5, -⟩ := leafRestart_shows (modRoot s fun u => { u with window := [], img := 0 }) (c := 5) (by decide)
    exact ⟨leafHost s, rfl, h1, by rw [leafHost, h2]; rfl, h3, h5⟩
  · refine congrArg Host.Outcome.next (if_neg ?_)
    rcases hno with h | h <;> simp [h]
  · rw [(Keeps.evt (fs := [DBG.STATUS_REFUSED]) (by decide) _ .dbg 0 2).reads _ (by decide)]
    simp (disch := decide) [get1, set1]
  · exact onlyCells_of_onlyRegs (by simp [OnlyRegs, cite @evt_keeps, cite @set1_keeps])
      (((CellsElse.refl _ _).after_set1 (by simp [cells]) 1).after_evt (fun k hk => List.mem_append_right _ hk) 2)
  · simp [hf, hle]
  · simp [hf]
    omega
  · exact congrArg Host.Outcome.next (debugEnd_idle hnone 1)
  · simp [hnone]

end Sys2Proof.Machine

/-! The profile's commands and the commit (R65, R456 to R460). -/

namespace Sys2Proof.Machine

/-! ### What the store engine leaves -/

/-- Whether a field is none of those that the store engine writes, and none of a page's event cells. -/
def engineFree (g : Fld) : Bool :=
  [ROOT.STATUS_LEAF, CELLAR.STATUS_DEFERRED, CELLAR.STATUS_BUSY, CELLAR.QUEUE_BLOCK, CELLAR.QUEUE_COPY, CELLAR.DEFER_CNT].all
    (fun f => Fld.apart f 0 0 g) &&
  (List.range 4).all (fun k => Fld.apart CELLAR.STORE_STAT_STATE k 0 g) && Fld.lowPlain g 0 0

/-- Root's state but for what the parking of Leaf changes. -/
def RootBut (s t : State) : Prop := t.root = { s.root with parkedAt := t.root.parkedAt, kick := t.root.kick }

theorem RootBut.refl (s : State) : RootBut s s := rfl

theorem RootBut.trans {s t u : State} (h : RootBut s t) (g : RootBut t u) : RootBut s u := by
  unfold RootBut at *
  rw [g, h]

theorem RootBut.of_root {s t : State} (h : t.root = s.root) : RootBut s t := by
  unfold RootBut
  rw [h]

/-! ### A store begins (R480, R482) -/

/-- The run that a store becomes. -/
def runOfJob (s : State) (j : StoreJob) : StoreRun :=
  { job := j, copy := jobCopy s j, wear := newWear s j.block (jobCopy s j),
    gen := if j.fix.isSome then
        copyGen s j.block (if copyState s j.block (jobCopy s j) = 0 then jobCopy s j else (winner s j.block).getD (jobCopy s j))
      else newGen s j.block (jobCopy s j),
    data := if j.fix.isSome then
        copyData s j.block (if copyState s j.block (jobCopy s j) = 0 then jobCopy s j else (winner s j.block).getD (jobCopy s j))
      else blockCells s j.block }

/-- The queue after a store has left it, with the repairs of its copy. -/
def queueAfter (s : State) (j : StoreJob) : List StoreJob :=
  (dropJob s.cellar.queue j).filter fun q => !(j.fix.isNone && q.block == j.block && q.fix == some (jobCopy s j))

/-- The engine has taken the store. -/
def jobTaken (s : State) (j : StoreJob) : State :=
  modCellar s fun u => { u with queue := queueAfter s j, run := some (runOfJob s j), defer := none,
                                dirty := if j.fix.isSome then u.dirty else u.dirty.filter fun b => b != j.block }

/-- Leaf is parked for the store. -/
def jobParked (s : State) (j : StoreJob) : State := (j.owners.filter fun o => parksLeaf j o).foldl park (jobTaken s j)

/-- The partitions that asked for the store read RUNNING. -/
def jobShown (s : State) (j : StoreJob) : State :=
  (j.owners.filter fun o => decide (o < 4)).foldl (fun t p => setF t CELLAR.STORE_STAT_STATE 0 p 0 2) (jobParked s j)

theorem startJob_eq (s : State) (j : StoreJob) : startJob s j =
    set1 (set1 (set1 (set1 (jobShown s j) CELLAR.STATUS_DEFERRED 0 0) CELLAR.STATUS_BUSY 0 1) CELLAR.QUEUE_BLOCK 0 j.block)
      CELLAR.QUEUE_COPY 0 (jobCopy s j) := rfl

section
variable {fs : List Fld} (hfs : fs.all engineFree = true)
include hfs

theorem engineFree_apart {f : Fld} (hf : f ∈ [ROOT.STATUS_LEAF, CELLAR.STATUS_DEFERRED, CELLAR.STATUS_BUSY, CELLAR.QUEUE_BLOCK, CELLAR.QUEUE_COPY,
    CELLAR.DEFER_CNT]) : fs.all (Fld.apart f 0 0) = true := by
  refine List.all_eq_true.mpr fun g hg => ?_
  have h := List.all_eq_true.mp hfs g hg
  simp only [engineFree, Bool.and_eq_true] at h
  exact List.all_eq_true.mp h.1.1 f hf

theorem engineFree_stat {k : Nat} (hk : k < 4) : fs.all (Fld.apart CELLAR.STORE_STAT_STATE k 0) = true := by
  refine List.all_eq_true.mpr fun g hg => ?_
  have h := List.all_eq_true.mp hfs g hg
  simp only [engineFree, Bool.and_eq_true] at h
  exact List.all_eq_true.mp h.1.2 k (List.mem_range.mpr hk)

theorem engineFree_plain : fs.all (Fld.lowPlain · 0 0) = true := by
  refine List.all_eq_true.mpr fun g hg => ?_
  have h := List.all_eq_true.mp hfs g hg
  simp only [engineFree, Bool.and_eq_true] at h
  exact h.2

/-- A field of the engine's written leaves the fields listed. -/
theorem Keeps.engineSet {f : Fld} (hf : f ∈ [ROOT.STATUS_LEAF, CELLAR.STATUS_DEFERRED, CELLAR.STATUS_BUSY, CELLAR.QUEUE_BLOCK, CELLAR.QUEUE_COPY,
    CELLAR.DEFER_CNT]) (s : State) (n v : Nat) : Keeps fs s (Machine.set1 s f n v) := by
  have hevt : ∀ f ∈ [ROOT.STATUS_LEAF, CELLAR.STATUS_DEFERRED, CELLAR.STATUS_BUSY, CELLAR.QUEUE_BLOCK, CELLAR.QUEUE_COPY, CELLAR.DEFER_CNT],
      Fld.apart f 0 0 (HDR.EVT f.page) = true := by decide
  exact .set1 ⟨engineFree_apart hfs hf, hevt f hf⟩ s n v

theorem Keeps.leafPark (s : State) : Keeps fs s (leafPark s) :=
  (Keeps.engineSet hfs (f := ROOT.STATUS_LEAF) (by decide) s 0 3).trans (.of_units rfl rfl)

theorem Keeps.leafResume (s : State) : Keeps fs s (leafResume s) :=
  (Keeps.engineSet hfs (f := ROOT.STATUS_LEAF) (by decide) s 0 0).trans (.of_units rfl rfl)

theorem Keeps.park (s : State) (o : Nat) : Keeps fs s (park s o) := by
  unfold Machine.park
  exact .ite ((Keeps.modCellar ..).trans (.leafPark hfs _)) (.modCellar ..)

theorem Keeps.unpark (s : State) (o : Nat) : Keeps fs s (unpark s o) := by
  unfold Machine.unpark
  exact .ite ((Keeps.modCellar ..).trans (.leafResume hfs _)) (.modCellar ..)

omit hfs in
theorem Keeps.addJob (s : State) (j : StoreJob) : Keeps fs s (addJob s j) := by
  unfold Machine.addJob
  exact .ite (.modCellar ..) (.ite (.refl _ _) (.modCellar ..))

theorem Keeps.startJob (s : State) (j : StoreJob) : Keeps fs s (startJob s j) := by
  have hstat : ∀ (t : State), Keeps fs t ((j.owners.filter fun o => decide (o < 4)).foldl (fun t p => Machine.setF t CELLAR.STORE_STAT_STATE 0 p 0 2) t) := by
    refine foldl_rel (R := Keeps fs) (.refl fs) (fun _ _ _ => .trans) fun t p hp => ?_
    have h4 : p < 4 := by simpa using (List.mem_filter.mp hp).2
    have hevt : ∀ k < 4, Fld.apart CELLAR.STORE_STAT_STATE k 0 (HDR.EVT .cellar) = true := by decide
    exact .setF ⟨engineFree_stat hfs h4, hevt p h4⟩ ..
  have hpark : ∀ t : State, Keeps fs t ((j.owners.filter fun o => parksLeaf j o).foldl Machine.park t) := fun t =>
    .foldl (fun t o => .park hfs t o) _ t
  have hshown : Keeps fs s (jobShown s j) := ((Keeps.modCellar ..).trans (hpark (jobTaken s j))).trans (hstat (jobParked s j))
  rw [startJob_eq]
  exact (((hshown.trans (.engineSet hfs (by decide) ..)).trans (.engineSet hfs (by decide) ..)).trans (.engineSet hfs (by decide) ..)).trans
    (.engineSet hfs (by decide) ..)

theorem Keeps.engineStart (s : State) (v : Supply) : Keeps fs s (engineStart s v) := by
  unfold Machine.engineStart
  split
  · exact .refl _ _
  · split
    · exact (Keeps.modCellar ..).trans (.engineSet hfs (by decide) ..)
    · refine .ite (.startJob hfs _ _) (.ite (.refl _ _) ?_)
      have hset : Keeps fs s (Machine.modCellar (Machine.set1 s CELLAR.STATUS_DEFERRED 0 1) fun u => { u with defer := some s.frn }) :=
        (Keeps.engineSet hfs (by decide) ..).trans (.modCellar ..)
      exact (hset.after_evt (engineFree_plain hfs)).trans (.addCnt ⟨⟨engineFree_apart hfs (by decide), by decide⟩, engineFree_plain hfs⟩ ..)

theorem Keeps.engineKick (s : State) (v : Supply) : Keeps fs s (engineKick s v) := .ite (.refl _ _) (.engineStart hfs s v)

theorem Keeps.rootStore (s : State) (b prio o : Nat) : Keeps fs s (rootStore s b prio o) :=
  .ite (.refl _ _) (.ite (.modCellar ..) ((Keeps.addJob ..).trans (.engineKick hfs ..)))

theorem Keeps.rootFix (s : State) (b c prio : Nat) : Keeps fs s (rootFix s b c prio) :=
  .ite (.refl _ _) (.ite (.modCellar ..) ((Keeps.addJob ..).trans (.engineKick hfs ..)))

theorem Keeps.commitStores (s : State) (first n : Nat) : Keeps fs s (commitStores s first n) :=
  .foldl (fun t i => .rootStore hfs t (first + i) 2 5) (List.range n) s

end

namespace RootBut

theorem park (s : State) (o : Nat) : RootBut s (park s o) := by
  unfold Machine.park
  dsimp only
  split <;> rfl

theorem startJob (s : State) (j : StoreJob) : RootBut s (startJob s j) := by
  have hshown : (Machine.startJob s j).root = (jobParked s j).root := by
    rw [startJob_eq]
    simp only [cite @set1_keeps]
    exact foldl_inv State.root (fun t p => setF t CELLAR.STORE_STAT_STATE 0 p 0 2) (fun t p => rfl) _ _
  have hpark : RootBut (jobTaken s j) (jobParked s j) := foldl_rel (R := RootBut) .refl (fun _ _ _ => .trans) (fun t o _ => .park t o) _
  exact (RootBut.of_root rfl).trans (hpark.trans (.of_root hshown))

theorem engineStart (s : State) (v : Supply) : RootBut s (engineStart s v) := by
  unfold Machine.engineStart
  split
  · exact .refl s
  · split
    · exact .of_root rfl
    · split
      · exact .startJob s _
      · split
        · exact .refl s
        · exact .of_root (by simp [cite @addCnt_keeps, cite @evt_keeps, modCellar, cite @set1_keeps])

theorem engineKick (s : State) (v : Supply) : RootBut s (engineKick s v) := by
  unfold Machine.engineKick
  split
  · exact .refl s
  · exact .engineStart s v

theorem addJob (s : State) (j : StoreJob) : RootBut s (addJob s j) := .of_root (by simp [cite @addJob_keeps])

theorem rootStore (s : State) (b prio o : Nat) : RootBut s (rootStore s b prio o) := by
  unfold Machine.rootStore
  split
  · exact .refl s
  · split
    · exact .of_root rfl
    · exact (addJob ..).trans (.engineKick ..)

theorem commitStores (s : State) (first n : Nat) : RootBut s (commitStores s first n) :=
  foldl_rel (R := RootBut) .refl (fun _ _ _ => .trans) (fun t i _ => .rootStore t (first + i) 2 5) s

end RootBut

/-! ### Verification, refusal and the start of a commit -/

/-- Every operation on SRAM leaves the registers. -/
theorem Keeps.of_sram (fs : List Fld) {s t : State} (h : OnlyMemCellar s t) : Keeps fs s t := .of_units (by simp [cite @h]) (by simp [cite @h])

/-- What the refusal of a profile shows. -/
theorem refuseProfile_shows (s : State) (code off : Nat) :
    pstate (refuseProfile s code off) = 4 ∧ get1 (refuseProfile s code off) ROOT.REFUSE_CODE 0 = code % 2 ^ 8 ∧
    get1 (refuseProfile s code off) ROOT.REFUSE_OFFSET 0 = off % 2 ^ 16 ∧ (refuseProfile s code off).root.stage = 0 ∧
    (refuseProfile s code off).root.commitAt = none ∧ (refuseProfile s code off).root.thenCommit = false ∧
    Raised (refuseProfile s code off) .root 0 2 ∧ (refuseProfile s code off).pol = s.pol ∧ Keeps [] s (refuseProfile s code off) := by
  obtain ⟨u, hu⟩ : ∃ u, u = modRoot (if s.root.stage = 0 then s else unmark (reloadBlocks (dropOwner s 5) 16 8)) fun u =>
    { u with thenCommit := false, stage := 0, commitAt := none } := ⟨_, rfl⟩
  obtain ⟨v, hv⟩ : ∃ v, v = set1 (set1 (set1 (set1 (set1 u ROOT.STATUS_PSTATE 0 4) ROOT.STATUS_COMMIT_PEND 0 0) ROOT.STAGE_GEN 0 0)
    ROOT.REFUSE_CODE 0 code) ROOT.REFUSE_OFFSET 0 off := ⟨_, rfl⟩
  have heq : refuseProfile s code off = journalPg (evt v .root 0 2) 0x091 none .root 0 (code + 65536 * off) := by
    rw [hv, hu]
    rfl
  have hroot : v.root = u.root := by rw [hv]; rfl
  have hregs : u.regs = s.regs ∧ u.pol = s.pol := by
    rw [hu]
    constructor <;> simp [modRoot, cite @unmark_keeps, cite @reloadBlocks_keeps, cite @dropOwner_keeps, cite @ite_state]
  have hend : Keeps [ROOT.STATUS_PSTATE, ROOT.REFUSE_CODE, ROOT.REFUSE_OFFSET] v (refuseProfile s code off) := by
    rw [heq]
    exact (Keeps.evt (by decide) ..).trans (.journalPg (by decide) ..)
  have hroots : (refuseProfile s code off).root = u.root := by
    rw [heq, ← hroot]
    simp [cite @journalPg_keeps, cite @evt_keeps]
  have hcode : ROOT.REFUSE_CODE.width = 8 := rfl
  have hoff : ROOT.REFUSE_OFFSET.width = 16 := rfl
  refine ⟨?_, ?_, ?_, by rw [hroots, hu]; rfl, by rw [hroots, hu]; rfl, by rw [hroots, hu]; rfl, ?_, by simp [cite @refuseProfile_keeps], ?_⟩
  · rw [pstate, hend.reads _ (by decide), hv]
    simp (disch := decide) [get1, set1]
  · rw [hend.reads _ (by decide), hv]
    simp (disch := decide) [get1, set1, getF_setF_same, hcode]
  · rw [hend.reads _ (by decide), hv]
    simp (disch := decide) [get1, set1, getF_setF_same, hoff]
  · rw [heq]
    exact (Keeps.journalPg (fs := []) (by decide) ..).raised .root 0 2 (by decide) (by decide) (raised_evt (by decide) ..)
  · rw [heq, hv]
    exact ((((((Keeps.of_units hregs.1 hregs.2).after_set1 (by decide)).after_set1 (by decide)).after_set1 (by decide)).after_set1
      (by decide)).after_set1 (by decide)).after_evt (by decide) |>.trans (.journalPg (by decide) ..)

/-- What the start of a commit shows. -/
theorem beginCommit_shows {s : State} (h : engineTakes s = true) : pstate (beginCommit s) = 3 ∧ (beginCommit s).root.stage = 1 ∧
    (beginCommit s).root.thenCommit = false ∧ (beginCommit s).pol = s.pol ∧ Keeps [] s (beginCommit s) := by
  obtain ⟨u, hu⟩ : ∃ u, u = putSramLE (modRoot (set1 s ROOT.STATUS_PSTATE 0 3) fun u => { u with stage := 1, thenCommit := false }) markAddr markWord 4 :=
    ⟨_, rfl⟩
  have heq : beginCommit s = commitStores u 24 (profBlocks s) := by
    rw [hu]
    exact if_neg (by simp [h])
  have hroot := RootBut.commitStores u 24 (profBlocks s)
  have huroot : u.root = { s.root with stage := 1, thenCommit := false } := by
    rw [hu]
    simp [cite @putSramLE_keeps, modRoot, cite @set1_keeps]
  have hset : ∀ fs, Keeps fs (modRoot (set1 s ROOT.STATUS_PSTATE 0 3) fun u => { u with stage := 1, thenCommit := false }) u := fun fs => by
    rw [hu]
    exact .of_sram fs (putSramLE_keeps ..)
  rw [heq]
  unfold RootBut at hroot
  refine ⟨?_, by rw [hroot, huroot], by rw [hroot, huroot], ?_, ?_⟩
  · rw [pstate, (Keeps.commitStores (fs := [ROOT.STATUS_PSTATE]) (by decide) u 24 _).reads _ (by decide), (hset [ROOT.STATUS_PSTATE]).reads _ (by decide)]
    exact getF_setF_fits (f := ROOT.STATUS_PSTATE) (v := 3) (by decide) (by decide) ..
  · rw [← heq]
    simp [cite @beginCommit_keeps]
  · exact ((Keeps.set1 (f := ROOT.STATUS_PSTATE) (by decide) s 0 3).trans (.modRoot ..)).trans ((hset []).trans (.commitStores (by decide) u 24 _))

theorem beginCommit_refused {s : State} (h : engineTakes s = false) : beginCommit s = refuseProfile s refPOWER 0xFFFF := if_pos (by simp [h])

/-- What the start of a verification shows. -/
theorem beginVerify_shows (s : State) (c : Bool) : pstate (beginVerify s c) = 1 ∧ get1 (beginVerify s c) ROOT.STAGE_GEN 0 = 0 ∧
    (beginVerify s c).root.thenCommit = c ∧ (beginVerify s c).root.touched = false ∧
    beginVerify s c = { s with regs := (beginVerify s c).regs, root := (beginVerify s c).root } := by
  refine ⟨?_, ?_, rfl, rfl, rfl⟩
  · simp (disch := decide) [pstate, beginVerify, get1, set1]
  · simp (disch := decide) [beginVerify, get1, set1]

/-! ### The commit frame (R65, R459) -/

/-- The fields that the commit frame leaves as step 2 writes them. -/
def commitFlds : List Fld := [ROOT.STATUS_PSTATE, ROOT.STATUS_COMMIT_PEND, ROOT.POL_GEN]

/-- A running domain under a new policy. -/
def domCommit (t : State) (d : Nat) : State :=
  if !domRuns t d then t else if domState t d = 3 then duskRecompute (commitCfg t d) d else commitCfg t d

/-- A PTP instance under a new policy. -/
def ptpCommit (t : State) (p : Nat) : State := if (ptpOf t p).held then instReset t p else t

/-- The commit frame's fields, the events of the page and the commit's frame stay. -/
structure CommitKept (s t : State) : Prop where
  page : PageKept .root commitFlds s t
  commitAt : t.root.commitAt = s.root.commitAt

namespace CommitKept

theorem refl (s : State) : CommitKept s s := ⟨.refl .., rfl⟩

theorem trans {s t u : State} (h : CommitKept s t) (g : CommitKept t u) : CommitKept s u := ⟨h.page.trans g.page, g.commitAt.trans h.commitAt⟩

theorem of_page {s t : State} (h : pageCells .root t.regs = pageCells .root s.regs) (hr : t.root.commitAt = s.root.commitAt) : CommitKept s t :=
  ⟨.of_page (by decide) h, hr⟩

theorem of_keeps {s t : State} (h : Keeps commitFlds s t) (hr : t.root.commitAt = s.root.commitAt) : CommitKept s t := ⟨.of_keeps (by decide) h, hr⟩

theorem foldl {α : Type} {f : State → α → State} (hf : ∀ t x, CommitKept t (f t x)) (l : List α) (s : State) : CommitKept s (l.foldl f s) :=
  foldl_rel (R := CommitKept) refl (fun _ _ _ => trans) (fun t x _ => hf t x) s

theorem ite {c : Prop} [Decidable c] {s t u : State} (ht : CommitKept s t) (hu : CommitKept s u) : CommitKept s (if c then t else u) := by
  split
  · exact ht
  · exact hu

theorem unpark (s : State) (o : Nat) : CommitKept s (unpark s o) := by
  refine .of_keeps (.unpark (by decide) s o) ?_
  unfold Machine.unpark
  dsimp only
  split <;> rfl

theorem rootStore (s : State) (b prio o : Nat) : CommitKept s (rootStore s b prio o) := by
  have h := RootBut.rootStore s b prio o
  exact .of_keeps (.rootStore (by decide) ..) (by rw [h])

theorem sram {s t : State} (h : OnlyMemCellar s t) : CommitKept s t := .of_keeps (.of_sram _ h) (by simp [cite @h])

theorem journalPg (s : State) (code : Nat) (part : Option Nat) (p : Page) (inst data : Nat) : CommitKept s (journalPg s code part p inst data) :=
  .of_keeps (.journalPg (by decide) ..) (by simp [cite @journalPg_keeps])

theorem cancelCmd (s : State) (p : Nat) : CommitKept s (cancelCmd s p) := by
  have hclear : ∀ u : State, CommitKept u
      ([CELLAR.STORE_STAT_STATE, CELLAR.STORE_STAT_CAUSE, CELLAR.STORE_STAT_DONE, CELLAR.STORE_STAT_FRN].foldl (fun t f => setF t f 0 p 0 0) u) := fun u =>
    .of_page (by simp) rfl
  unfold Machine.cancelCmd
  dsimp only
  refine .ite (.trans (.of_page ?_ ?_) (hclear _)) (.trans (.trans (.of_page ?_ ?_) (hclear _)) (.unpark ..)) <;> rfl

theorem partReset (s : State) (p cause : Nat) : CommitKept s (partReset s p cause) := by
  unfold Machine.partReset
  dsimp only
  generalize (List.range 12).filter _ = cs
  generalize outsOf _ _ = outs
  have hcs : ∀ u : State, CommitKept u (cs.foldl hostHalfReset u) := fun u =>
    .foldl (fun t c => .of_page (by simp) (by simp [cite @hostHalfReset_keeps])) cs u
  refine CommitKept.ite ?_ (CommitKept.trans ?_ (.of_page (domChanged_pg _ _ _ _ _ (by decide)) (by simp [cite @domChanged_keeps])))
  all_goals
    refine CommitKept.trans (t := cs.foldl hostHalfReset _) ?_ (.of_page (by simp [cite @timeStart_keeps]; rfl)
      (by simp [cite @publishGains_keeps, cite @utcPolicy_keeps, cite @timeStart_keeps, cite @startDom_keeps]))
    refine CommitKept.trans ?_ (hcs _)
    refine CommitKept.trans ?_ (.cancelCmd ..)
    exact .of_page (by simp [recordReset]) (by simp [cite @instReset_keeps, cite @resetHarvest_keeps, cite @resetRows_keeps, cite @synthReset_keeps,
      cite @resetFields_keeps, cite @resetPage_keeps, cite @journalPg_keeps, cite @recordReset_keeps, cite @set1_keeps, cite @foldl_state])

theorem domain (t : State) (d : Nat) : CommitKept t (domCommit t d) :=
  .ite (.refl t) (.ite (.of_page (by simp) (by simp [cite @duskRecompute_keeps, cite @commitCfg_keeps]))
    (.of_page (by simp) (by simp [cite @commitCfg_keeps])))

theorem port (t : State) (p : Nat) : CommitKept t (ptpCommit t p) := .ite (.of_page (by simp) (by simp [cite @instReset_keeps])) (.refl t)

theorem changePolicy (s : State) (b : Policy) : CommitKept s (changePolicy s b) := by
  unfold Machine.changePolicy
  extract_lets a moved opens closes outs chans halves s0 s1 s2 s3 s4 s5 s6 s7 conn s8 s9 s10
  have hrows : CommitKept s (moved.foldl resetRows s) := .foldl (fun t p => .of_page (by simp) (by simp [cite @resetRows_keeps])) moved s
  have h1 : CommitKept s s1 := hrows.trans (.of_page rfl rfl)
  have h2 : CommitKept s1 (halves.foldl (fun t c => set1 t CHAN.POL_GEN c b.gen) s1) :=
    .foldl (f := fun t c => set1 t CHAN.POL_GEN c b.gen) (fun t c => .of_page (by simp) rfl) halves s1
  have h3 : CommitKept s2 (outs.foldl (moveOutput s) (chans.foldl hostHalfReset s2)) := (CommitKept.foldl (f := hostHalfReset) (fun t c => .of_page (by simp) (by simp [cite @hostHalfReset_keeps])) chans s2).trans
    (.foldl (f := moveOutput s) (fun t n => .of_page (by simp) (by simp [cite @moveOutput_keeps])) outs _)
  have h4 : CommitKept s3 (opens.foldl synthStart (closes.foldl apllStop (moved.foldl (fun t p => Machine.partReset t p 2) s3))) := ((CommitKept.foldl (fun t p => .partReset t p 2) moved s3).trans
    (.foldl (f := apllStop) (fun t d => .of_page (by simp) (by simp [cite @apllStop_keeps])) closes _)).trans
    (.foldl (f := synthStart) (fun t d => .of_page (by simp [synthStart]) (by simp [cite @synthStart_keeps])) opens _)
  have h5 : CommitKept s4 ((List.range 4).foldl domCommit s4) := .foldl domain _ s4
  have h6 : CommitKept s5 ((List.range 12).foldl (requalify a) s5) :=
    .foldl (f := requalify a) (fun t c => .of_page (by simp) (by simp [cite @requalify_keeps])) (List.range 12) s5
  have h7 : CommitKept s6 ((List.range 4).foldl ptpCommit s6) := .foldl port _ s6
  have h8 : CommitKept s7 (conn.foldl todConnect s7) := .foldl (f := todConnect) (fun t d => .of_page (by simp) (by simp [cite @todConnect_keeps])) conn s7
  have h9 : CommitKept s8 (fmtPending ((List.range 4).foldl utcPolicy ((List.range 2).foldl (portCommit a) s8))) :=
    ((CommitKept.foldl (f := portCommit a) (fun t n => .of_page (by simp) (by simp [cite @portCommit_keeps])) (List.range 2) s8).trans
      (.foldl (f := utcPolicy) (fun t d => .of_page (by simp) (by simp [cite @utcPolicy_keeps])) (List.range 4) _)).trans
      (.of_page (by simp) (by simp [cite @fmtPending_keeps]))
  have h10 : CommitKept s9 s10 := .of_page (by simp [s10]) (by simp [s10, cite @shelfCommit_keeps, cite @markFallback_keeps])
  have hall := ((((((((h1.trans h2).trans h3).trans h4).trans h5).trans h6).trans h7).trans h8).trans h9).trans h10
  have hdebug : (debugEnd s10 2).root.commitAt = s10.root.commitAt := by
    unfold debugEnd
    split
    · rfl
    · simp [cite @journalPg_keeps, cite @evt_keeps, cite @set1_keeps, modRoot]
  exact .ite (hall.trans (.of_page (by simp) hdebug)) hall

theorem commitKey (s : State) (pub : List Nat) (rot : Option (List Nat)) : CommitKept s (commitKey s pub rot) := by
  have hkey : ∀ u : State, CommitKept u (publishKey u) := fun u => by
    refine .of_keeps ?_ (by simp [cite @publishKey_keeps])
    unfold publishKey
    refine Keeps.trans (foldl_rel (R := Keeps commitFlds) (.refl _) (fun _ _ _ => .trans) (fun t i hi => ?_) u) (.set1 (by decide) ..)
    have hkeys : ∀ k < 4, commitFlds.all (Fld.apart ROOT.KEY_FPR k 0) = true ∧ Fld.apart ROOT.KEY_FPR k 0 (HDR.EVT ROOT.KEY_FPR.page) = true := by decide
    exact .setF (hkeys i (List.mem_range.mp hi)) ..
  have hstored : ∀ f : List Nat, CommitKept s (publishKey (Machine.rootStore (putSrams s (blockAddr 0) f) 0 2 8)) := fun f =>
    ((CommitKept.sram (putSrams_keeps ..)).trans (.rootStore ..)).trans (hkey _)
  unfold Machine.commitKey
  exact .ite (.refl _) (.ite ((hstored _).trans (.journalPg ..)) (hstored _))

end CommitKept

/-- The registers of the commit as step 2 writes them. -/
def commitShown (s : State) : State :=
  evt (set1 (set1 (set1 (set1 (set1 (modRoot s fun u => { u with stage := 0, commitAt := none, touched := true }) ROOT.STATUS_PSTATE 0 0)
    ROOT.STATUS_COMMIT_PEND 0 0) ROOT.STAGE_GEN 0 0) ROOT.POL_GEN 0 (profPolicy s activeAddr).gen) ROOT.STATUS_ROM_PROFILE 0 0) .root 0 1

/-- The key of a commit has been taken. -/
def commitKeyed (s : State) : State :=
  commitKey (journalPg (commitShown s) 0x090 none .root 0 (profPolicy s activeAddr).gen) (profKey s activeAddr) (profDraft s activeAddr).1.rot

theorem policyCommit_eq (s : State) : policyCommit s = rootStore (unmark (changePolicy (commitKeyed s) (profPolicy s activeAddr))) 24 2 8 := rfl

theorem policyCommit_kept (s : State) : CommitKept (commitShown s) (policyCommit s) := by
  have hkeyed : CommitKept (commitShown s) (commitKeyed s) := (CommitKept.journalPg ..).trans (.commitKey ..)
  rw [policyCommit_eq]
  exact (hkeyed.trans (.changePolicy ..)).trans ((CommitKept.sram (unmark_keeps _)).trans (.rootStore ..))

theorem changePolicy_pol (s : State) (b : Policy) : (changePolicy s b).pol = b := by
  have hreq : ∀ (l : List Nat) (t : State), (l.foldl (requalify s.pol) t).pol = t.pol :=
    foldl_inv State.pol (requalify s.pol) fun t c => by simp [requalify, cite @qlClear_keeps, cite @qlChange_keeps, cite @ite_state]
  unfold changePolicy
  simp [hreq, cite @moveOutput_keeps, cite @hostHalfReset_keeps, cite @synthStart_keeps, cite @apllStop_keeps, cite @partReset_keeps, cite @set1_keeps,
    cite @duskRecompute_keeps, cite @commitCfg_keeps, cite @requalify_keeps, cite @instReset_keeps, cite @todConnect_keeps, cite @fmtPending_keeps,
    cite @utcPolicy_keeps, cite @portCommit_keeps, cite @shelfCommit_keeps, cite @markFallback_keeps, cite @debugEnd_keeps, cite @ite_state, cite @foldl_state]

/-- What the commit frame shows. -/
theorem policyCommit_shows (s : State) : (policyCommit s).pol = profPolicy s activeAddr ∧ pstate (policyCommit s) = 0 ∧
    get1 (policyCommit s) ROOT.STATUS_COMMIT_PEND 0 = 0 ∧ get1 (policyCommit s) ROOT.POL_GEN 0 = (profPolicy s activeAddr).gen % 2 ^ 32 ∧
    (policyCommit s).root.commitAt = none ∧ Raised (policyCommit s) .root 0 1 := by
  obtain ⟨hpage, hcommit⟩ := policyCommit_kept s
  have hgen : ROOT.POL_GEN.width = 32 := rfl
  obtain ⟨u, hu⟩ : ∃ u, u = set1 (set1 (set1 (set1 (set1 (modRoot s fun u => { u with stage := 0, commitAt := none, touched := true }) ROOT.STATUS_PSTATE 0 0)
    ROOT.STATUS_COMMIT_PEND 0 0) ROOT.STAGE_GEN 0 0) ROOT.POL_GEN 0 (profPolicy s activeAddr).gen) ROOT.STATUS_ROM_PROFILE 0 0 := ⟨_, rfl⟩
  have hshown : commitShown s = evt u .root 0 1 := by
    rw [hu]
    rfl
  have hevt : Keeps commitFlds u (evt u .root 0 1) := .evt (by decide) ..
  rw [hshown] at hpage hcommit
  refine ⟨?_, ?_, ?_, ?_, ?_, hpage.raised 0 1 (by decide) (raised_evt (by decide) ..)⟩
  · rw [policyCommit_eq]
    simp [cite @rootStore_keeps, cite @unmark_keeps, changePolicy_pol]
  · rw [pstate, hpage.reads _ (by decide), hevt.reads _ (by decide), hu]
    simp (disch := decide) [get1, set1]
  · rw [hpage.reads _ (by decide), hevt.reads _ (by decide), hu]
    simp (disch := decide) [get1, set1]
  · rw [hpage.reads _ (by decide), hevt.reads _ (by decide), hu]
    simp (disch := decide) [get1, set1, getF_setF_same, hgen]
  · rw [hcommit, hu]
    simp [cite @evt_keeps, cite @set1_keeps, modRoot]

/-! ### The commands -/

theorem verifyCmd_begins {s : State} (h : stagingLocked s = false) : verifyCmd s = beginVerify s false := if_neg (by simp [h])

theorem verifyCmd_locked {s : State} (h : stagingLocked s = true) : verifyCmd s = s := if_pos h

theorem commitCmd_verifying {s : State} (h : pstate s = 1) : commitCmd s = modRoot s fun u => { u with thenCommit := true } := by
  unfold commitCmd
  rw [h]
  rfl

theorem commitCmd_verified {s : State} (h : pstate s = 2) : commitCmd s = if s.root.touched then beginVerify s true else beginCommit s := by
  unfold commitCmd
  rw [h]
  rfl

theorem commitCmd_committing {s : State} (h : pstate s = 3) : commitCmd s = s := by
  unfold commitCmd
  rw [h]
  rfl

theorem commitCmd_other {s : State} (h1 : pstate s ≠ 1) (h2 : pstate s ≠ 2) (h3 : pstate s ≠ 3) : commitCmd s = beginVerify s true := by
  unfold commitCmd
  split
  · next h => exact absurd h h1
  · next h => exact absurd h h2
  · next h => exact absurd h h3
  · rfl

/-- ABORT of a verification, or of its result. -/
def verifyAborted (s : State) : State :=
  set1 (set1 (modRoot s fun u => { u with thenCommit := false }) ROOT.STATUS_PSTATE 0 0) ROOT.STAGE_GEN 0 0

theorem abortCmd_verify {s : State} (h : pstate s = 1 ∨ pstate s = 2) : abortCmd s = verifyAborted s := by
  unfold abortCmd
  rcases h with h | h <;> rw [h] <;> rfl

theorem abortCmd_committing {s : State} (h : pstate s = 3) :
    abortCmd s = if get1 s ROOT.STATUS_COMMIT_PEND 0 = 1 then s else refuseProfile s refABORTED 0xFFFF := by
  unfold abortCmd
  rw [h]
  rfl

theorem abortCmd_other {s : State} (h1 : pstate s ≠ 1) (h2 : pstate s ≠ 2) (h3 : pstate s ≠ 3) : abortCmd s = s := by
  unfold abortCmd
  split
  · next h => exact absurd h h1
  · next h => exact absurd h h2
  · next h => exact absurd h h3
  · rfl

theorem verifyAborted_shows (s : State) : pstate (verifyAborted s) = 0 ∧ get1 (verifyAborted s) ROOT.STAGE_GEN 0 = 0 ∧
    (verifyAborted s).root.thenCommit = false ∧ verifyAborted s = { s with regs := (verifyAborted s).regs, root := (verifyAborted s).root } := by
  refine ⟨?_, ?_, rfl, rfl⟩
  · simp (disch := decide) [pstate, verifyAborted, get1, set1]
  · simp (disch := decide) [verifyAborted, get1, set1]

/-- A verification has passed. -/
def verified (s : State) : State := evt (set1 (set1 s ROOT.STATUS_PSTATE 0 2) ROOT.STAGE_GEN 0 (profGen s stagingAddr)) .root 0 0

theorem verified_root (s : State) : (verified s).root = s.root := by simp [verified, cite @evt_keeps, cite @set1_keeps]

theorem endVerify_refused {s : State} {r : Nat × Nat} (h : verifyStaged (unmark s) = some r) : endVerify s = refuseProfile s r.1 r.2 := by
  unfold endVerify
  rw [h]

theorem endVerify_passed {s : State} (h : verifyStaged (unmark s) = none) :
    endVerify s = if s.root.thenCommit then beginCommit (verified s) else verified s := by
  rw [← verified_root s]
  unfold endVerify
  rw [h]
  rfl

theorem engineTakes_of {s t : State} (h : get1 t CELLAR.STATUS_PF_SEQ 0 = get1 s CELLAR.STATUS_PF_SEQ 0) (hc : t.cellar.shut = s.cellar.shut) :
    engineTakes t = engineTakes s := by
  unfold engineTakes bit1
  rw [h, hc]

theorem verified_takes (s : State) : engineTakes (verified s) = engineTakes s := by
  refine engineTakes_of ?_ (by simp [verified, cite @evt_keeps, cite @set1_keeps])
  exact (((Keeps.refl [CELLAR.STATUS_PF_SEQ] s).after_set1 (by decide)).after_set1 (by decide)).after_evt (by decide) |>.reads _ (by decide) 0

/-- A refusal, as the end of a verification or of a commit shows it. -/
def ProfileRefused (s t : State) (code off : Nat) : Prop :=
  pstate t = 4 ∧ get1 t ROOT.REFUSE_CODE 0 = code % 2 ^ 8 ∧ get1 t ROOT.REFUSE_OFFSET 0 = off % 2 ^ 16 ∧ t.root.stage = 0 ∧
    t.root.commitAt = none ∧ t.root.thenCommit = false ∧ Raised t .root 0 2 ∧ t.pol = s.pol

theorem refuseProfile_refused {s u : State} (h : u.pol = s.pol) (code off : Nat) : ProfileRefused s (refuseProfile u code off) code off := by
  obtain ⟨h1, h2, h3, h4, h5, h6, h7, h8, -⟩ := refuseProfile_shows u code off
  exact ⟨h1, h2, h3, h4, h5, h6, h7, h8.trans h⟩

/-- A commit that begins, or is refused for want of power. -/
theorem beginCommit_either {s u : State} (hpol : u.pol = s.pol) (htakes : engineTakes u = engineTakes s) :
    (engineTakes s = true → pstate (beginCommit u) = 3 ∧ (beginCommit u).root.stage = 1 ∧ (beginCommit u).root.thenCommit = false ∧
      (beginCommit u).pol = s.pol) ∧
    (engineTakes s = false → ProfileRefused s (beginCommit u) refPOWER 0xFFFF) ∧ Keeps [] u (beginCommit u) := by
  cases h : engineTakes s with
  | true =>
    obtain ⟨h1, h2, h3, h4, h5⟩ := beginCommit_shows (htakes.trans h)
    exact ⟨fun _ => ⟨h1, h2, h3, h4.trans hpol⟩, fun h => absurd h (by decide), h5⟩
  | false =>
    rw [beginCommit_refused (htakes.trans h)]
    obtain ⟨-, -, -, -, -, -, -, -, h9⟩ := refuseProfile_shows u refPOWER 0xFFFF
    exact ⟨fun h => absurd h (by decide), fun _ => refuseProfile_refused hpol .., h9⟩

/-- What the end of a verification that passed shows. -/
theorem endVerify_shows {s : State} (h : verifyStaged (unmark s) = none) : Raised (endVerify s) .root 0 0 ∧
    (s.root.thenCommit = false → pstate (endVerify s) = 2 ∧ get1 (endVerify s) ROOT.STAGE_GEN 0 = profGen s stagingAddr % 2 ^ 32 ∧
      (endVerify s).mem = s.mem) ∧
    (s.root.thenCommit = true → engineTakes s = true → pstate (endVerify s) = 3 ∧ (endVerify s).root.stage = 1 ∧
      (endVerify s).root.thenCommit = false ∧ (endVerify s).pol = s.pol) ∧
    (s.root.thenCommit = true → engineTakes s = false → ProfileRefused s (endVerify s) refPOWER 0xFFFF) := by
  have hraised : Raised (verified s) .root 0 0 := raised_evt (by decide) ..
  have hgen : ROOT.STAGE_GEN.width = 32 := rfl
  obtain ⟨hgo, hno, hkeep⟩ := beginCommit_either (s := s) (u := verified s) (by simp [verified, cite @evt_keeps, cite @set1_keeps]) (verified_takes s)
  rw [endVerify_passed h]
  cases hc : s.root.thenCommit with
  | true =>
    rw [if_pos rfl]
    exact ⟨hkeep.raised .root 0 0 (by decide) (by decide) hraised, fun h => absurd h (by decide), fun _ => hgo, fun _ => hno⟩
  | false =>
    rw [if_neg (by decide)]
    refine ⟨hraised, fun _ => ⟨?_, ?_, by simp [verified, cite @evt_keeps, cite @set1_keeps]⟩, fun h => absurd h (by decide), fun h => absurd h (by decide)⟩
    · simp (disch := decide) [pstate, verified, get1, set1]
    · simp (disch := decide) [verified, get1, set1, getF_setF_same, hgen]

theorem commitStep_acts {s : State} (h : s.root.commitAt = some s.frn) : commitStep s = policyCommit s := if_pos (by rw [h]; exact beq_self_eq_true _)

theorem commitStep_waits {s : State} (h : s.root.commitAt ≠ some s.frn) : commitStep s = s := if_neg fun e => h (beq_iff_eq.mp e)

theorem exec_commit (s : State) : exec .commit s = .next (commitCmd s) := rfl
theorem exec_abort (s : State) : exec .abort s = .next (abortCmd s) := rfl
theorem exec_verify (s : State) : exec .verify s = .next (verifyCmd s) := rfl
theorem exec_policyCommit (s : State) : exec .policyCommit s = .next (commitStep s) := rfl

/-- Settles O51: each command by PSTATE, the end of a verification by its result, the commit by its frame. -/
theorem profileCommands : Obligations.ProfileCommands := by
  intro s _
  simp only [exec_commit, exec_abort, exec_verify, exec_policyCommit]
  refine ⟨fun h => ?_, fun h => ?_, fun h => ?_, fun h => ?_, fun h ht => ?_, fun h => ?_, fun h => ?_, fun h hp => ?_, fun h hp => ?_, fun h1 h2 h3 => ?_,
    fun h => ⟨endVerify s, if_pos h, fun r hr => ?_, endVerify_shows⟩, fun h => if_neg h, fun h => ?_, fun h => ?_⟩
  · rw [verifyCmd_begins h]
    exact ⟨_, rfl, beginVerify_shows s false⟩
  · rw [verifyCmd_locked h]
  · have heq : commitCmd s = beginVerify s true := by
      rcases h with ⟨h1, h2, h3⟩ | ⟨h2, ht⟩
      · exact commitCmd_other h1 h2 h3
      · rw [commitCmd_verified h2, if_pos ht]
    rw [heq]
    exact ⟨_, rfl, beginVerify_shows s true⟩
  · rw [commitCmd_verifying h]
    rfl
  · rw [commitCmd_verified h, if_neg (by rw [ht]; decide)]
    obtain ⟨hgo, hno, -⟩ := beginCommit_either (s := s) (u := s) rfl rfl
    exact ⟨_, rfl, hgo, hno⟩
  · rw [commitCmd_committing h]
  · rw [abortCmd_verify h]
    exact ⟨_, rfl, verifyAborted_shows s⟩
  · rw [abortCmd_committing h, if_neg hp]
    exact ⟨_, rfl, refuseProfile_refused rfl ..⟩
  · rw [abortCmd_committing h, if_pos hp]
  · rw [abortCmd_other h1 h2 h3]
  · rw [endVerify_refused hr]
    exact refuseProfile_refused rfl ..
  · rw [commitStep_acts h]
    exact ⟨_, rfl, policyCommit_shows s⟩
  · rw [commitStep_waits h]

end Sys2Proof.Machine

/-! The store engine: what waits, what begins, what it leaves (R483, R487 to R489). -/

namespace Sys2Proof.Machine

/-! ### What the engine changes of the Cellar -/

/-- Of the Cellar only the queue, the running store, the deferral, the dirty blocks, those that park Leaf, and the stores that wait
for 18 V have changed. -/
def EngineOnly (s t : State) : Prop :=
  t.cellar = { s.cellar with queue := t.cellar.queue, run := t.cellar.run, defer := t.cellar.defer, dirty := t.cellar.dirty,
                             parked := t.cellar.parked, wait := t.cellar.wait }

namespace EngineOnly

theorem refl (s : State) : EngineOnly s s := rfl

theorem trans {s t u : State} (h : EngineOnly s t) (g : EngineOnly t u) : EngineOnly s u := by
  unfold EngineOnly at *
  rw [g, h]

theorem of_cellar {s t : State} (h : t.cellar = s.cellar) : EngineOnly s t := by
  unfold EngineOnly
  rw [h]

variable {s t : State} (h : EngineOnly s t)
include h

theorem nv : t.cellar.nv = s.cellar.nv := by rw [h]
theorem cmds : t.cellar.cmds = s.cellar.cmds := by rw [h]
theorem ring : t.cellar.ring = s.cellar.ring := by rw [h]
theorem ringSeq : t.cellar.ringSeq = s.cellar.ringSeq := by rw [h]
theorem ringDirty : t.cellar.ringDirty = s.cellar.ringDirty := by rw [h]
theorem ringFrn : t.cellar.ringFrn = s.cellar.ringFrn := by rw [h]
theorem shut : t.cellar.shut = s.cellar.shut := by rw [h]
theorem held18 : t.cellar.held18 = s.cellar.held18 := by rw [h]

end EngineOnly

/-- Only the list of those that park Leaf differs. -/
def ParkedOnly (s t : State) : Prop := t.cellar = { s.cellar with parked := t.cellar.parked }

theorem ParkedOnly.refl (s : State) : ParkedOnly s s := rfl

theorem ParkedOnly.trans {s t u : State} (h : ParkedOnly s t) (g : ParkedOnly t u) : ParkedOnly s u := by
  unfold ParkedOnly at *
  rw [g, h]

theorem ParkedOnly.of_cellar {s t : State} (h : t.cellar = s.cellar) : ParkedOnly s t := by
  unfold ParkedOnly
  rw [h]

theorem ParkedOnly.engine {s t : State} (h : ParkedOnly s t) : EngineOnly s t := by
  unfold ParkedOnly EngineOnly at *
  rw [h]

theorem park_parked (s : State) (o : Nat) : ParkedOnly s (park s o) := by
  unfold park
  dsimp only
  split <;> rfl

/-- A store that begins: the Cellar is as the engine took it, but for those that park Leaf. -/
theorem startJob_parked (s : State) (j : StoreJob) : ParkedOnly (jobTaken s j) (startJob s j) := by
  have hpark : ParkedOnly (jobTaken s j) (jobParked s j) :=
    foldl_rel (R := ParkedOnly) .refl (fun _ _ _ => .trans) (fun t o _ => park_parked t o) _
  refine hpark.trans (.of_cellar ?_)
  rw [startJob_eq]
  simp only [cite @set1_keeps]
  exact foldl_inv State.cellar (fun t p => setF t CELLAR.STORE_STAT_STATE 0 p 0 2) (fun _ _ => rfl) _ _

theorem startJob_run (s : State) (j : StoreJob) : (startJob s j).cellar.run = some (runOfJob s j) := by
  rw [startJob_parked s j]
  rfl

theorem startJob_queue (s : State) (j : StoreJob) : (startJob s j).cellar.queue = queueAfter s j := by
  rw [startJob_parked s j]
  rfl

theorem addJob_only (s : State) (j : StoreJob) : EngineOnly s (addJob s j) := by
  unfold addJob
  (repeat' split) <;> rfl

theorem startJob_only (s : State) (j : StoreJob) : EngineOnly s (startJob s j) := EngineOnly.trans (t := jobTaken s j) rfl (startJob_parked s j).engine

/-- The four things the engine may do when it looks for its next store. -/
theorem engineStart_cases (s : State) (v : Supply) :
    (engineStart s v = s) ∨
    (s.cellar.run = none ∧ s.phase ≠ .off ∧ nextJob s.cellar.queue = none ∧
      engineStart s v = set1 (modCellar s fun u => { u with defer := none }) CELLAR.STATUS_DEFERRED 0 0) ∨
    (∃ j, s.cellar.run = none ∧ s.phase ≠ .off ∧ nextJob s.cellar.queue = some j ∧ supplyOk s j v = true ∧ engineStart s v = startJob s j) ∨
    (∃ j, s.cellar.run = none ∧ s.phase ≠ .off ∧ nextJob s.cellar.queue = some j ∧ supplyOk s j v = false ∧ s.cellar.defer = none ∧
      engineStart s v = addCnt (evt (modCellar (set1 s CELLAR.STATUS_DEFERRED 0 1) fun u => { u with defer := some s.frn }) .cellar 0 3)
        CELLAR.DEFER_CNT 0 0 1) := by
  unfold engineStart
  by_cases hb : (s.cellar.run.isSome || s.phase == .off) = true
  · exact Or.inl (if_pos hb)
  · rw [if_neg hb]
    simp only [Bool.or_eq_true, not_or, Bool.not_eq_true, Option.isSome_eq_false_iff, Option.isNone_iff_eq_none, beq_eq_false_iff_ne] at hb
    obtain ⟨hrun, hoff⟩ := hb
    cases hn : nextJob s.cellar.queue with
    | none => exact Or.inr (Or.inl ⟨hrun, hoff, rfl, rfl⟩)
    | some j =>
      dsimp only
      cases hs : supplyOk s j v with
      | true => exact Or.inr (Or.inr (Or.inl ⟨j, hrun, hoff, rfl, hs, if_pos rfl⟩))
      | false =>
        rw [if_neg (by decide)]
        by_cases hd : s.cellar.defer.isSome = true
        · exact Or.inl (if_pos hd)
        · exact Or.inr (Or.inr (Or.inr ⟨j, hrun, hoff, rfl, hs, by simpa using hd, if_neg hd⟩))

theorem engineStart_only (s : State) (v : Supply) : EngineOnly s (engineStart s v) := by
  rcases engineStart_cases s v with h | ⟨-, -, -, h⟩ | ⟨j, -, -, -, -, h⟩ | ⟨j, -, -, -, -, -, h⟩ <;> rw [h]
  · exact .refl s
  · exact rfl
  · exact startJob_only s j
  · exact EngineOnly.trans (t := modCellar (set1 s CELLAR.STATUS_DEFERRED 0 1) fun u => { u with defer := some s.frn }) rfl
      (.of_cellar (by simp [cite @addCnt_keeps, cite @evt_keeps]))

theorem engineKick_only (s : State) (v : Supply) : EngineOnly s (engineKick s v) := by
  unfold engineKick
  split
  · exact .refl s
  · exact engineStart_only s v

theorem rootStore_only (s : State) (b prio o : Nat) : EngineOnly s (rootStore s b prio o) := by
  unfold rootStore
  split
  · exact .refl s
  · split
    · rfl
    · exact (addJob_only ..).trans (engineKick_only ..)

/-- Whether the engine takes requests rests on two marks that it leaves. -/
theorem engineTakes_only {s t : State} (h : EngineOnly s t) (hk : Keeps [CELLAR.STATUS_PF_SEQ] s t) : engineTakes t = engineTakes s :=
  engineTakes_of (hk.reads _ (by decide) 0) h.shut

theorem rootStore_takes (s : State) (b prio o : Nat) : engineTakes (rootStore s b prio o) = engineTakes s :=
  engineTakes_only (rootStore_only ..) (.rootStore (by decide) ..)

/-! ### What waits -/

/-- A store of a block, no repair, is queued or running for a requester, at a priority or a better one. -/
def Waits (t : State) (b o prio : Nat) : Prop :=
  ∃ j : StoreJob, (j ∈ t.cellar.queue ∨ (t.cellar.run.map fun r => r.job) = some j) ∧ j.block = b ∧ o ∈ j.owners ∧ j.prio ≤ prio ∧ j.fix = none

theorem Waits.store {t : State} {b o prio : Nat} (h : Waits t b o prio) : StoreWaits t b o prio := by
  obtain ⟨j, hj, hb, ho, hp, -⟩ := h
  exact ⟨j, hj, hb, ho, hp⟩

theorem Waits.of_cellar {s t : State} {b o prio : Nat} (h : Waits s b o prio) (hq : t.cellar.queue = s.cellar.queue) (hr : t.cellar.run = s.cellar.run) :
    Waits t b o prio := by
  unfold Waits at *
  rwa [hq, hr]

/-- A request merged into a store of its block that waits. -/
def mergeJob (j q : StoreJob) : StoreJob :=
  if q.block == j.block && q.fix.isNone then { q with prio := min q.prio j.prio, owners := q.owners ++ j.owners } else q

theorem addJob_merges {s : State} {j : StoreJob} (hj : j.fix = none) (h : s.cellar.queue.any (fun q => q.block == j.block && q.fix.isNone) = true) :
    (addJob s j).cellar.queue = s.cellar.queue.map (mergeJob j) := by
  unfold addJob
  rw [if_pos (by simp only [hj, Option.isNone_none, Bool.true_and]; exact h)]
  rfl

theorem addJob_run (s : State) (j : StoreJob) : (addJob s j).cellar.run = s.cellar.run := by
  unfold addJob
  (repeat' split) <;> rfl

theorem addJob_appends {s : State} {j : StoreJob} (h : s.cellar.queue.any (fun q => q.block == j.block && q.fix.isNone) = false) (hj : j.fix = none) :
    (addJob s j).cellar.queue = s.cellar.queue ++ [j] := by
  unfold addJob
  rw [if_neg (by simp [h]), if_neg (by simp [hj])]
  rfl

theorem addJob_fix {s : State} {j : StoreJob} (hj : j.fix.isSome = true) :
    (addJob s j).cellar.queue = if s.cellar.queue.contains j then s.cellar.queue else s.cellar.queue ++ [j] := by
  unfold addJob
  rw [if_neg (by simp [Option.isNone_eq_false_iff.mpr hj])]
  split
  · next h =>
    simp only [hj, Bool.true_and] at h
    rw [if_pos h]
  · next h =>
    simp only [hj, Bool.true_and] at h
    rw [if_neg h]
    rfl

/-- Every store that waits goes on to wait, itself or merged with the new request. -/
theorem addJob_mem {s : State} {q : StoreJob} (hq : q ∈ s.cellar.queue) (j : StoreJob) : q ∈ (addJob s j).cellar.queue ∨ mergeJob j q ∈ (addJob s j).cellar.queue := by
  cases hj : j.fix with
  | none =>
    cases h : s.cellar.queue.any (fun q => q.block == j.block && q.fix.isNone) with
    | true =>
      rw [addJob_merges hj h]
      exact Or.inr (List.mem_map_of_mem hq)
    | false =>
      rw [addJob_appends h hj]
      exact Or.inl (List.mem_append_left _ hq)
  | some c =>
    rw [addJob_fix (by simp [hj])]
    left
    split
    · exact hq
    · exact List.mem_append_left _ hq

/-- A merged store keeps its block and its requesters, at its priority or a better one. -/
theorem mergeJob_keeps (j q : StoreJob) : (mergeJob j q).block = q.block ∧ (∀ o ∈ q.owners, o ∈ (mergeJob j q).owners) ∧ (mergeJob j q).prio ≤ q.prio ∧
    (mergeJob j q).fix = q.fix := by
  unfold mergeJob
  split
  · exact ⟨rfl, fun o ho => List.mem_append_left _ ho, Nat.min_le_left _ _, rfl⟩
  · exact ⟨rfl, fun _ ho => ho, le_refl _, rfl⟩

theorem Waits.addJob {s : State} {b o prio : Nat} (h : Waits s b o prio) (j : StoreJob) : Waits (addJob s j) b o prio := by
  obtain ⟨q, hq, hb, ho, hp, hf⟩ := h
  rcases hq with hq | hq
  · rcases addJob_mem hq j with h | h
    · exact ⟨q, Or.inl h, hb, ho, hp, hf⟩
    · obtain ⟨h1, h2, h3, h4⟩ := mergeJob_keeps j q
      exact ⟨mergeJob j q, Or.inl h, h1.trans hb, h2 o ho, h3.trans hp, h4.trans hf⟩
  · exact ⟨q, Or.inr (by rw [addJob_run]; exact hq), hb, ho, hp, hf⟩

/-- A request put into the queue waits. -/
theorem addJob_waits (s : State) {j : StoreJob} (hj : j.fix = none) {o : Nat} (ho : o ∈ j.owners) : Waits (addJob s j) j.block o j.prio := by
  cases h : s.cellar.queue.any (fun q => q.block == j.block && q.fix.isNone) with
  | true =>
    obtain ⟨q, hq, hm⟩ := List.any_eq_true.mp h
    have hmerge : mergeJob j q = { q with prio := min q.prio j.prio, owners := q.owners ++ j.owners } := if_pos hm
    simp only [Bool.and_eq_true, beq_iff_eq, Option.isNone_iff_eq_none] at hm
    refine ⟨mergeJob j q, Or.inl (by rw [addJob_merges hj h]; exact List.mem_map_of_mem hq), ?_⟩
    rw [hmerge]
    exact ⟨hm.1, List.mem_append_right _ ho, Nat.min_le_right _ _, hm.2⟩
  | false =>
    exact ⟨j, Or.inl (by rw [addJob_appends h hj]; exact List.mem_append_right _ List.mem_cons_self), rfl, ho, le_refl _, hj⟩

theorem mem_dropJob {l : List StoreJob} {q j : StoreJob} (hq : q ∈ l) (hne : q ≠ j) : q ∈ dropJob l j := by
  induction l with
  | nil => exact hq
  | cons x r ih =>
    unfold dropJob
    split
    · next h =>
      rcases List.mem_cons.mp hq with e | hq
      · exact absurd (e.trans h) hne
      · exact hq
    · rcases List.mem_cons.mp hq with e | hq
      · exact e ▸ List.mem_cons_self
      · exact List.mem_cons_of_mem _ (ih hq)

theorem Waits.startJob {s : State} {b o prio : Nat} (h : Waits s b o prio) (hrun : s.cellar.run = none) (j : StoreJob) : Waits (startJob s j) b o prio := by
  obtain ⟨q, hq, hb, ho, hp, hf⟩ := h
  have hq : q ∈ s.cellar.queue := hq.resolve_right (by rw [hrun]; exact fun e => nomatch e)
  by_cases e : q = j
  · exact ⟨q, Or.inr (by rw [startJob_run, e]; rfl), hb, ho, hp, hf⟩
  · refine ⟨q, Or.inl ?_, hb, ho, hp, hf⟩
    rw [startJob_queue]
    exact List.mem_filter.mpr ⟨mem_dropJob hq e, by simp [hf]⟩

theorem Waits.engineStart {s : State} {b o prio : Nat} (h : Waits s b o prio) (v : Supply) : Waits (engineStart s v) b o prio := by
  rcases engineStart_cases s v with e | ⟨-, -, -, e⟩ | ⟨j, hrun, -, -, -, e⟩ | ⟨j, -, -, -, -, -, e⟩ <;> rw [e]
  · exact h
  · exact h.of_cellar rfl rfl
  · exact h.startJob hrun j
  · exact (h.of_cellar (t := modCellar (set1 s CELLAR.STATUS_DEFERRED 0 1) fun u => { u with defer := some s.frn }) rfl rfl).of_cellar
      (by simp [cite @addCnt_keeps, cite @evt_keeps]) (by simp [cite @addCnt_keeps, cite @evt_keeps])

theorem Waits.engineKick {s : State} {b o prio : Nat} (h : Waits s b o prio) (v : Supply) : Waits (engineKick s v) b o prio := by
  unfold Machine.engineKick
  split
  · exact h
  · exact h.engineStart v

theorem Waits.rootStore {s : State} {b o prio : Nat} (h : Waits s b o prio) (b' prio' o' : Nat) : Waits (rootStore s b' prio' o') b o prio := by
  unfold Machine.rootStore
  split
  · exact h
  · split
    · exact h.of_cellar rfl rfl
    · exact (h.addJob _).engineKick _

/-- A request of Root that the engine takes waits. -/
theorem rootStore_waits {s : State} (ht : engineTakes s = true) (h18 : s.cellar.held18 = true) (b prio o : Nat) : Waits (rootStore s b prio o) b o prio := by
  have heq : rootStore s b prio o = engineKick (addJob s ⟨b, prio, [o], none⟩) (supplyNow s) :=
    (if_neg (by simp [ht])).trans (if_neg (by simp [h18]))
  rw [heq]
  exact (addJob_waits s (j := ⟨b, prio, [o], none⟩) rfl List.mem_cons_self).engineKick _

/-- Root's requests for several blocks, each of which then waits. -/
theorem foldl_rootStore_waits {s : State} (ht : engineTakes s = true) (h18 : s.cellar.held18 = true) (l : List Nat) (f : Nat → Nat) (prio o : Nat) {i : Nat}
    (hi : i ∈ l) : Waits (l.foldl (fun t i => rootStore t (f i) prio o) s) (f i) o prio := by
  induction l generalizing s with
  | nil => cases hi
  | cons x l ih =>
    rw [List.foldl_cons]
    have ht' : engineTakes (rootStore s (f x) prio o) = true := (rootStore_takes ..).trans ht
    have h18' : (rootStore s (f x) prio o).cellar.held18 = true := (rootStore_only ..).held18.trans h18
    rcases List.mem_cons.mp hi with rfl | hi
    · have hstart := rootStore_waits ht h18 (f i) prio o
      clear ih hi
      revert hstart
      generalize rootStore s (f i) prio o = t
      intro hstart
      induction l generalizing t with
      | nil => exact hstart
      | cons y l ih =>
        rw [List.foldl_cons]
        exact ih _ (hstart.rootStore ..)
    · exact ih ht' h18' hi

/-! ### SRAM (R475, R481) -/

/-- A write of SRAM changes of the Cellar the dirty blocks alone. -/
def DirtyOnly (s t : State) : Prop := t.cellar = { s.cellar with dirty := t.cellar.dirty }

theorem DirtyOnly.refl (s : State) : DirtyOnly s s := rfl

theorem DirtyOnly.trans {s t u : State} (h : DirtyOnly s t) (g : DirtyOnly t u) : DirtyOnly s u := by
  unfold DirtyOnly at *
  rw [g, h]

theorem putSram_dirty (s : State) (a b : Nat) : DirtyOnly s (putSram s a b) := by
  unfold putSram
  split
  · exact .refl s
  · exact rfl

theorem putSrams_dirty (l : List Nat) (s : State) (a : Nat) : DirtyOnly s (putSrams s a l) := by
  induction l generalizing s a with
  | nil => exact .refl s
  | cons b l ih => exact (putSram_dirty s a b).trans (ih ..)

theorem putSramLE_dirty (s : State) (a v n : Nat) : DirtyOnly s (putSramLE s a v n) := putSrams_dirty ..

theorem DirtyOnly.engine {s t : State} (h : DirtyOnly s t) : EngineOnly s t := by
  unfold DirtyOnly EngineOnly at *
  rw [h]

theorem putSramLE_marks (s : State) (a v n : Nat) : (putSramLE s a v n).cellar.shut = s.cellar.shut ∧
    (putSramLE s a v n).cellar.held18 = s.cellar.held18 :=
  ⟨(putSramLE_dirty s a v n).engine.shut, (putSramLE_dirty s a v n).engine.held18⟩

end Sys2Proof.Machine

/-! The Leaf image (R450, R462 to R468). -/

namespace Sys2Proof.Machine

theorem exec_imageLoad (s : State) : exec .imageLoad s = .next (imageLoad s) := rfl
theorem exec_imageActivate (s : State) : exec .imageActivate s = .next (imageActivate s) := rfl
theorem exec_imageCancel (s : State) : exec .imageCancel s = .next (imageCancel s) := rfl
theorem exec_leafStart (s : State) : exec .leafStart s = .next (leafStart s) := rfl

/-- IMAGE_LOAD of a Leaf that is not loading. -/
theorem imageLoad_shows {s : State} (h : leafState s ≠ 4) : leafState (imageLoad s) = 4 ∧ (imageLoad s).root.img = 1 ∧
    (imageLoad s).gate.queue = [] ∧ (imageLoad s).mem = s.mem := by
  have heq : imageLoad s = setLeaf (leafDown (modRoot s fun u => { u with img := 1 })) 4 := if_neg h
  have hgate : (leafDown (modRoot s fun u => { u with img := 1 })).gate.queue = [] := by
    have hclear : ∀ u : State, u.gate.queue = [] → ∀ p, (nmeaPause (instRestart u p) p).gate.queue = [] := fun u hu p => by
      have hdrop : (instRestart u p).gate = (dropCalls u p).gate := by
        unfold instRestart
        simp [cite @instClear_keeps, cite @modPkt_keeps, cite @instOpen_keeps, cite @foldl_state, cite @ite_state]
      rw [show (nmeaPause (instRestart u p) p).gate = (instRestart u p).gate from by simp [cite @nmeaPause_keeps], hdrop]
      unfold dropCalls
      rw [hu]
      rfl
    have hfold : ∀ (l : List Nat) (u : State), u.gate.queue = [] → (l.foldl (fun t p => nmeaPause (instRestart t p) p) u).gate.queue = [] := by
      intro l
      induction l with
      | nil => exact fun u hu => hu
      | cons p l ih => exact fun u hu => ih _ (hclear u hu p)
    unfold leafDown
    dsimp only
    split
    · rw [show ∀ u : State, (shelfStop u).gate = u.gate from fun u => by simp [cite @shelfStop_keeps]]
      exact hfold _ _ (by simp [cite @pktFail_keeps])
    · exact hfold _ _ (by simp [cite @pktFail_keeps])
  rw [heq]
  refine ⟨setLeaf_leaf _ (by decide), by simp [cite @setLeaf_keeps, cite @leafDown_keeps, modRoot], ?_, by simp [cite @setLeaf_keeps, cite @leafDown_keeps, modRoot]⟩
  rw [show ∀ u : State, (setLeaf u 4).gate = u.gate from fun u => by simp [cite @setLeaf_keeps], hgate]

/-! ### The end of a load -/

/-- What the end of a load shows. -/
theorem imageOver_shows (s : State) : leafState (imageOver s) = 1 ∧ (imageOver s).root.img = 0 ∧ get1 (imageOver s) ROOT.LEAF_LAST_CAUSE 0 = 6 ∧
    get1 (imageOver s) ROOT.LEAF_RESTART_CNT 0 = satTo cntMax (get1 s ROOT.LEAF_RESTART_CNT 0 + 1) ∧ PageKept .root rootFlds s (imageOver s) := by
  obtain ⟨h1, h2, h3, h4, -, h6⟩ := leafRestart_shows (modRoot s fun u => { u with img := 0 }) (c := 6) (by decide)
  exact ⟨h1, by rw [imageOver, h2]; rfl, h3, h4, (PageKept.of_keeps (by decide) (.modRoot ..)).trans h6⟩

/-- What the refusal of an image shows. -/
theorem imageRefuse_shows (s : State) {c : Nat} (hc : c < 2 ^ 8) : leafState (imageRefuse s c) = 1 ∧ (imageRefuse s c).root.img = 0 ∧
    get1 (imageRefuse s c) ROOT.REFUSE_CODE 0 = c ∧ Raised (imageRefuse s c) .root 0 6 ∧
    PageKept .root [ROOT.STATUS_PSTATE] s (imageRefuse s c) := by
  obtain ⟨u, hu⟩ : ∃ u, u = reloadBlocks (dropOwner s 6) 32 112 := ⟨_, rfl⟩
  obtain ⟨v, hv⟩ : ∃ v, v = set1 (set1 u ROOT.REFUSE_CODE 0 c) ROOT.REFUSE_OFFSET 0 0xFFFF := ⟨_, rfl⟩
  have heq : imageRefuse s c = imageOver (journalPg (evt v .root 0 6) 0x094 none .root 0 c) := by
    rw [hv, hu]
    rfl
  have hunits : u.regs = s.regs ∧ u.pol = s.pol := by
    rw [hu]
    constructor <;> simp [cite @reloadBlocks_keeps, cite @dropOwner_keeps]
  have hj : Keeps rootFlds (evt v .root 0 6) (journalPg (evt v .root 0 6) 0x094 none .root 0 c) := .journalPg (by decide) ..
  obtain ⟨h1, h2, -, -, h5⟩ := imageOver_shows (journalPg (evt v .root 0 6) 0x094 none .root 0 c)
  have hkept : PageKept .root rootFlds (evt v .root 0 6) (imageRefuse s c) := by
    rw [heq]
    exact (PageKept.of_keeps (by decide) hj).trans h5
  refine ⟨by rw [heq]; exact h1, by rw [heq]; exact h2, ?_, hkept.raised 0 6 (by decide) (raised_evt (by decide) ..), ?_⟩
  · have hfit : c % 2 ^ ROOT.REFUSE_CODE.width = c := Nat.mod_eq_of_lt hc
    rw [hkept.reads _ (by decide), (Keeps.evt (fs := [ROOT.REFUSE_CODE]) (by decide) v .root 0 6).reads _ (by decide), hv]
    simp (disch := decide) [get1, set1, getF_setF_same, hfit]
  · have hset : Keeps [ROOT.STATUS_PSTATE] s (evt v .root 0 6) := by
      rw [hv]
      exact (((Keeps.of_units hunits.1 hunits.2).after_set1 (by decide)).after_set1 (by decide)).after_evt (by decide)
    exact (PageKept.of_keeps (by decide) hset).trans ⟨fun g hg n => hkept.reads g (by revert hg; revert g; decide) n, hkept.raised⟩

/-- The refusal codes of an image. -/
theorem imageCheck_code {s : State} {c : Nat} (h : imageCheck s = some c) : c < 2 ^ 8 := by
  unfold imageCheck at h
  dsimp only at h
  have hcodes : ∀ r ∈ [refMAGIC, refLENGTH, refSIGNATURE, refEPOCH, refROOTVER], r < 2 ^ 8 := by decide
  split at h
  · exact Option.some.inj h ▸ hcodes _ (by simp)
  · split at h
    · exact Option.some.inj h ▸ hcodes _ (by simp)
    · split at h
      · exact Option.some.inj h ▸ hcodes _ (by simp)
      · split at h
        · exact Option.some.inj h ▸ hcodes _ (by simp)
        · split at h
          · exact Option.some.inj h ▸ hcodes _ (by simp)
          · cases h

theorem imageVerified_refused {s : State} {c : Nat} (h : imageCheck s = some c) : imageVerified s = imageRefuse s c := by
  unfold imageVerified
  rw [h]

/-- The state from which an accepted image is stored. -/
def imageTaken (s : State) : State := modRoot (acceptEpoch s) fun u => { u with img := 3 }

theorem imageVerified_passed {s : State} (h : imageCheck s = none) : imageVerified s = if !engineTakes s then imageRefuse s refPOWER else
    (List.range ((imageField s 0x0C + 4095) / 4096)).foldl (fun t i => rootStore t (32 + i) 2 6) (imageTaken s) := by
  unfold imageVerified
  rw [h]
  rfl

/-- The stored epoch raised to the image's. -/
def epochRaised (s : State) : State :=
  if imageField s 8 ≤ leafEpoch s then s else rootStore (putSramLE s (blockAddr 0 + 16) (imageField s 8) 4) 0 2 8

theorem acceptEpoch_eq (s : State) : acceptEpoch s = set1 (epochRaised s) ROOT.LEAF_EPOCH 0 (leafEpoch (epochRaised s)) := rfl

theorem engineTakes_modRoot (s : State) (f : RootU → RootU) : engineTakes (modRoot s f) = engineTakes s := rfl

theorem engineTakes_sram {s t : State} (h : OnlyMemCellar s t) (hshut : t.cellar.shut = s.cellar.shut) : engineTakes t = engineTakes s :=
  engineTakes_of ((Keeps.of_sram [CELLAR.STATUS_PF_SEQ] h).reads _ (by decide) 0) hshut

/-- Acceptance leaves the engine as ready as it was. -/
theorem epochRaised_ready (s : State) : engineTakes (epochRaised s) = engineTakes s ∧ (epochRaised s).cellar.held18 = s.cellar.held18 := by
  unfold epochRaised
  split
  · exact ⟨rfl, rfl⟩
  · obtain ⟨u, hu⟩ : ∃ u, u = putSramLE s (blockAddr 0 + 16) (imageField s 8) 4 := ⟨_, rfl⟩
    have hdirty : DirtyOnly s u := by rw [hu]; exact putSramLE_dirty ..
    have htakes : engineTakes u = engineTakes s := by
      rw [hu]
      exact engineTakes_sram (putSramLE_keeps ..) (putSramLE_marks ..).1
    rw [← hu]
    exact ⟨(rootStore_takes u 0 2 8).trans htakes, (rootStore_only u 0 2 8).held18.trans hdirty.engine.held18⟩

theorem acceptEpoch_ready (s : State) : engineTakes (acceptEpoch s) = engineTakes s ∧ (acceptEpoch s).cellar.held18 = s.cellar.held18 := by
  obtain ⟨htakes, h18⟩ := epochRaised_ready s
  rw [acceptEpoch_eq]
  generalize epochRaised s = u at *
  exact ⟨(engineTakes_of ((Keeps.set1 (fs := [CELLAR.STATUS_PF_SEQ]) (f := ROOT.LEAF_EPOCH) (by decide) u 0 _).reads _ (by decide) 0) rfl).trans htakes, h18⟩

/-- What a verification that passes shows. -/
theorem imageVerified_stores {s : State} (h : imageCheck s = none) (ht : engineTakes s = true) : (imageVerified s).root.img = 3 ∧
    (s.cellar.held18 = true → ∀ i, i < (imageField s 0x0C + 4095) / 4096 → StoreWaits (imageVerified s) (32 + i) 6 2) := by
  obtain ⟨htakes, h18⟩ := acceptEpoch_ready s
  have htaken : engineTakes (imageTaken s) = true := (engineTakes_modRoot ..).trans (htakes.trans ht)
  have hroot : RootBut (imageTaken s) ((List.range ((imageField s 0x0C + 4095) / 4096)).foldl (fun t i => rootStore t (32 + i) 2 6) (imageTaken s)) :=
    foldl_rel (R := RootBut) .refl (fun _ _ _ => .trans) (fun t i _ => .rootStore t (32 + i) 2 6) _
  have h18' : (imageTaken s).cellar.held18 = s.cellar.held18 := h18
  have himg : (imageTaken s).root.img = 3 := rfl
  rw [imageVerified_passed h, if_neg (by simp [ht])]
  generalize imageTaken s = u at *
  refine ⟨by rw [hroot, ← himg], fun h18s i hi => ?_⟩
  exact (foldl_rootStore_waits htaken (h18'.trans h18s) (List.range _) (fun i => 32 + i) 2 6 (List.mem_range.mpr hi)).store

/-! ### Leaf starts (R465) -/

/-- The state that Root verifies bank L in. -/
def bankLoaded (s : State) : State := if imageCheck s = none then s else reloadBlocks s 32 112

theorem leafStart_absent {s : State} (h1 : leafState s = 1) (h : imageCheck (bankLoaded s) ≠ none) : leafStart s = setLeaf (bankLoaded s) 5 := by
  have hstart : bankLoaded s = if (imageCheck s).isSome then reloadBlocks s 32 112 else s := by
    unfold bankLoaded
    cases imageCheck s <;> rfl
  refine (if_neg (not_not.mpr h1)).trans ?_
  rw [← hstart]
  exact if_pos (Option.isSome_iff_ne_none.mpr h)

/-- The accepted image has been taken. -/
def leafTaken (s : State) : State :=
  modRoot (set1 (acceptEpoch (bankLoaded s)) ROOT.LEAF_VER 0 (imageField (bankLoaded s) 4)) fun u =>
    { u with kick := s.frn, parkedAt := none, down := none, leafKeys := s.cellar.ring.filter fun x => decide (32 ≤ x.1) }

/-- How Leaf starts: it runs, or is parked by a store. -/
def startState (s : State) : Nat := if s.cellar.parked.isEmpty then 0 else 3

theorem startState_lt (s : State) : startState s < 8 := by
  unfold startState
  split <;> decide

theorem leafStart_starts {s : State} (h1 : leafState s = 1) (h : imageCheck (bankLoaded s) = none) :
    leafStart s = setLeaf (shelfRejoin (leafTaken s)) (startState (leafTaken s)) := by
  have hstart : bankLoaded s = if (imageCheck s).isSome then reloadBlocks s 32 112 else s := by
    unfold bankLoaded
    cases imageCheck s <;> rfl
  refine (if_neg (not_not.mpr h1)).trans ?_
  rw [← hstart]
  exact if_neg (by rw [h]; decide)

theorem leafStart_shows {s : State} (h1 : leafState s = 1) (h : imageCheck (bankLoaded s) = none) :
    leafState (leafStart s) = (if (leafStart s).cellar.parked = [] then 0 else 3) ∧
    get1 (leafStart s) ROOT.LEAF_VER 0 = imageField (bankLoaded s) 4 % 2 ^ 32 ∧ (leafStart s).root.kick = s.frn ∧ (leafStart s).root.down = none := by
  have heq := leafStart_starts h1 h
  have hcellar : (leafStart s).cellar = (leafTaken s).cellar := by
    rw [heq]
    simp [cite @setLeaf_keeps, cite @shelfRejoin_keeps]
  have hroot : (leafStart s).root = (leafTaken s).root := by
    rw [heq]
    simp [cite @setLeaf_keeps, cite @shelfRejoin_keeps]
  have hver : get1 (leafTaken s) ROOT.LEAF_VER 0 = imageField (bankLoaded s) 4 % 2 ^ 32 := by
    have hset : ∀ (u : State) (f : RootU → RootU) (x : Nat), get1 (modRoot (set1 u ROOT.LEAF_VER 0 x) f) ROOT.LEAF_VER 0 = x % 2 ^ 32 := fun u f x =>
      getF_setF_same u ROOT.LEAF_VER 0 0 0 x (by decide)
    exact hset ..
  have hkick : (leafTaken s).root.kick = s.frn ∧ (leafTaken s).root.down = none := ⟨rfl, rfl⟩
  refine ⟨?_, ?_, by rw [hroot, hkick.1], by rw [hroot, hkick.2]⟩
  · rw [hcellar, heq, setLeaf_leaf _ (startState_lt _)]
    simp [startState, List.isEmpty_iff]
  · rw [heq, (setLeaf_kept (fs := [ROOT.LEAF_VER]) (by decide) (by decide) ..).reads _ (by decide),
      (PageKept.of_page (p := .root) (fs := [ROOT.LEAF_VER]) (by decide) (shelfRejoin_pg (leafTaken s) (by decide))).reads _ (by decide), hver]

/-- Settles O52: the load by Leaf's state, the verification by its result, the start by bank L and the stored image. -/
theorem leafImage : Obligations.LeafImage := by
  intro s _
  simp only [exec_imageLoad, exec_imageActivate, exec_imageCancel, exec_leafStart]
  refine ⟨fun h => ⟨_, rfl, imageLoad_shows h⟩, fun h => ?_, fun h4 h1 => ⟨?_, ?_⟩, fun hno => ⟨?_, ?_⟩, fun h2 => ⟨imageVerified s, if_pos h2, fun c hc => ?_, fun hc ht => ?_,
    fun hc ht => imageVerified_stores hc ht⟩, fun h2 => if_neg h2, fun h1 => ⟨_, rfl, fun hc => leafStart_shows h1 hc, fun hc => ?_⟩, fun h1 => ?_⟩
  · rw [show imageLoad s = s from if_pos h]
  · rw [show imageActivate s = modRoot s fun u => { u with img := 2 } from if_pos ⟨h4, h1⟩]
    rfl
  · obtain ⟨ha, hb, hc, hd, -⟩ := imageOver_shows (reloadBlocks s 32 112)
    rw [show imageCancel s = imageOver (reloadBlocks s 32 112) from if_pos ⟨h4, h1⟩]
    refine ⟨_, rfl, ha, hb, hc, hd.trans ?_⟩
    rw [(Keeps.of_units (fs := [ROOT.LEAF_RESTART_CNT]) (by simp [cite @reloadBlocks_keeps]) (by simp [cite @reloadBlocks_keeps]) :
      Keeps [ROOT.LEAF_RESTART_CNT] s (reloadBlocks s 32 112)).reads _ (by decide)]
  · rw [show imageActivate s = s from if_neg (not_and_or.mpr hno)]
  · rw [show imageCancel s = s from if_neg (not_and_or.mpr hno)]
  · obtain ⟨ha, hb, hc', hd, -⟩ := imageRefuse_shows s (imageCheck_code hc)
    rw [imageVerified_refused hc]
    exact ⟨ha, hb, hc', hd⟩
  · obtain ⟨ha, hb, hc', hd, -⟩ := imageRefuse_shows s (c := refPOWER) (by decide)
    rw [imageVerified_passed hc, if_pos (by simp [ht])]
    exact ⟨ha, hb, hc', hd⟩
  · rw [leafStart_absent h1 hc]
    exact setLeaf_leaf _ (by decide)
  · rw [show leafStart s = s from if_pos h1]

end Sys2Proof.Machine

/-! Stores that complete and the two-wire transaction they hold (R480, R124, R567). -/

namespace Sys2Proof.Machine

/-- A store of block 0 runs and holds a two-wire write; the journal has one entry to write, in the last place of its block. -/
def heldWrite : State :=
  { State.reset with
    phase := .held
    cellar := { State.reset.cellar with run := some ⟨⟨0, 4, [], none⟩, 0, 0, 0, []⟩, held18 := true }
    jrn := { State.reset.jrn with queue := [⟨0, 0, none, 0, 0, 0⟩] }
    i2cHold := some (.write ⟨0, 0, 0, 0, [0], 0, none, 0⟩)
    regs := [(fldKey PWR.VIN 0 0 0, 12000), (fldKey PWR.HOLDUP 0 0 0, 20000), (fldKey BBOX.WR_SEQ 0 0 0, 255)] }

/-- The state it completes to. -/
def heldWriteDone : State := releaseHold (resetAfterPf (storeDone heldWrite ⟨12000, 20000⟩))

/-- The write that was held ends and Root writes the journal entry, whose block is sealed and stored at once. -/
theorem heldWriteDone_busy : windowBusy heldWriteDone = true := by
  decide +kernel

theorem heldWriteDone_free : heldWriteDone.i2cHold = none := by
  decide +kernel

theorem heldWrite_shaped : Shaped heldWrite where
  lanes := by decide +kernel
  funcs := by decide +kernel
  rows := by decide +kernel
  parts := by decide +kernel
  chans := by decide +kernel
  pkts := by decide +kernel
  pairs := by decide +kernel
  doms := by decide +kernel
  aplls := by decide +kernel
  outs := by decide +kernel
  times := by decide +kernel
  eths := by decide +kernel
  ptps := by decide +kernel

/-- Refutes O50: a two-wire write that a store held ends when that store completes, and at its end Root writes the journal entries
that wait. One in the last place of its block begins the store of that block, so the window is busy again, and yet no transaction is
held. -/
theorem not_storesAndScrub : ¬ Obligations.StoresAndScrub := by
  intro h
  obtain ⟨hdone, -⟩ := h heldWrite heldWrite_shaped ⟨12000, 20000⟩
  obtain ⟨t, ht, -, hhold, -⟩ := hdone ⟨⟨0, 4, [], none⟩, 0, 0, 0, []⟩ rfl (by decide) (by decide)
  obtain rfl : heldWriteDone = t := Host.Outcome.next.inj ht
  have hfree := hhold rfl
  rw [heldWriteDone_busy, heldWriteDone_free] at hfree
  cases hfree

end Sys2Proof.Machine

/-! Gate calls (R448, R449, Table 14.1). -/

namespace Sys2Proof.Machine

/-! ### Refusals -/

/-- The cells of a refusal: its count and GATE_LAST. -/
def refusalShown (s : State) (code r : Nat) : State :=
  set1 (set1 (set1 (addCnt (gateRes s r) ROOT.GATE_REFUSE_CNT 0 0 1) ROOT.GATE_LAST_CALL 0 code) ROOT.GATE_LAST_RESULT 0 r) ROOT.GATE_LAST_FRN 0 s.frn

theorem refusalShown_refused (s : State) {code r : Nat} (hc : code < 2 ^ 8) (hr : r < 2 ^ 4) :
    get1 (refusalShown s code r) ROOT.GATE_LAST_CALL 0 = code ∧ get1 (refusalShown s code r) ROOT.GATE_LAST_RESULT 0 = r ∧
    Counted s (refusalShown s code r) ROOT.GATE_REFUSE_CNT 0 0 1 := by
  have h1 : code % 2 ^ ROOT.GATE_LAST_CALL.width = code := Nat.mod_eq_of_lt hc
  have h2 : r % 2 ^ ROOT.GATE_LAST_RESULT.width = r := Nat.mod_eq_of_lt hr
  refine ⟨?_, ?_, ?_⟩ <;>
    simp (disch := decide) only [refusalShown, get1, set1, Counted, getF_setF_place, getF_setF_same, getF_addCnt_counter, h1, h2]
  rfl

/-- What shows a call's refusal. -/
def refusalFlds : List Fld := [ROOT.GATE_LAST_CALL, ROOT.GATE_LAST_RESULT, ROOT.GATE_REFUSE_CNT]

theorem gateRefuse_eq (s : State) (code r : Nat) : gateRefuse s code r =
    if kvGet (refusalShown s code r).gate.raised code = some (s.frn / 8000) then refusalShown s code r
    else evt { refusalShown s code r with
      gate := { (refusalShown s code r).gate with raised := kvSet (refusalShown s code r).gate.raised code (s.frn / 8000) } } .root 0 7 := rfl

theorem gateRefuse_keeps_shown (s : State) (code r : Nat) : Keeps refusalFlds (refusalShown s code r) (gateRefuse s code r) := by
  rw [gateRefuse_eq]
  generalize refusalShown s code r = v
  split
  · exact .refl _ _
  · exact (Keeps.of_units (fs := refusalFlds) (s := v) (t := { v with gate := { v.gate with raised := kvSet v.gate.raised code (s.frn / 8000) } }) rfl rfl).trans
      (.evt (by decide) _ .root 0 7)

theorem gateRefuse_gate (s : State) (code r : Nat) :
    (gateRefuse s code r).gate.res = r ∧ (gateRefuse s code r).gate.queue = s.gate.queue := by
  unfold gateRefuse
  dsimp only
  split <;> simp [cite @evt_keeps, cite @set1_keeps, cite @addCnt_keeps, gateRes]

/-- A refused call shows its code and result and is counted (R448). -/
theorem gateRefuse_refused (s : State) {code r : Nat} (hc : code < 2 ^ 8) (hr : r < 2 ^ 4) : GateRefused s (gateRefuse s code r) code r := by
  obtain ⟨hcall, hres, hcnt⟩ := refusalShown_refused s hc hr
  have hk := gateRefuse_keeps_shown s code r
  exact ⟨(gateRefuse_gate s code r).1, (hk.reads _ (by decide) 0).trans hcall, (hk.reads _ (by decide) 0).trans hres,
    (hk.reads _ (by decide) 0).trans hcnt, by simp [cite @gateRefuse_keeps]⟩

/-- What a refusal shows stands while its page, the gate and the Cellar do. -/
theorem GateRefused.of_page {s t u : State} {c r : Nat} (h : GateRefused s t c r) (hg : u.gate = t.gate) (hcel : u.cellar = t.cellar)
    (hp : pageCells .root u.regs = pageCells .root t.regs) : GateRefused s u c r := by
  obtain ⟨hres, hcall, hlast, hcnt, hsame⟩ := h
  have hget : ∀ f : Fld, f.page = .root → f.acc ≠ .lk → get1 u f 0 = get1 t f 0 := fun f hf ha => getF_of_pageCells hp hf ha 0 0 0
  exact ⟨by rw [hg, hres], (hget _ rfl (by decide)).trans hcall, (hget _ rfl (by decide)).trans hlast, (hget _ rfl (by decide)).trans hcnt,
    by rw [hcel, hsame]⟩

theorem GateCall.code_lt (c : GateCall) : GateCall.code c < 2 ^ 8 := by
  cases c <;> simp [GateCall.code]

/-- A boundary call that is refused is counted, and none leaves the queue; an estimate's refusal may close its instance besides. -/
theorem callRefuse_refused (s : State) (c : GateCall) {r : Nat} (hr : r < 2 ^ 4) :
    (callRefuse s c r).gate.queue = s.gate.queue ∧ GateRefused s (callRefuse s c r) (GateCall.code c) r := by
  have hq := (gateRefuse_gate s (GateCall.code c) r).2
  have hrefused := gateRefuse_refused s (GateCall.code_lt c) hr
  cases c with
  | pkt p ch fe m x =>
    have hgate : (callRefuse s (.pkt p ch fe m x) r).gate = (gateRefuse s 2 r).gate := by
      show (pktRefused (gateRefuse s 2 r) p).gate = _
      simp [cite @pktRefused_keeps]
    refine ⟨by rw [hgate]; exact hq, hrefused.of_page hgate ?_ ?_⟩
    · show (pktRefused (gateRefuse s 2 r) p).cellar = _
      simp [cite @pktRefused_keeps]
      rfl
    · exact pktRefused_pg _ p (by decide)
  | ql | time | utc | page => exact ⟨hq, hrefused⟩

/-- A boundary call is refused with one of the results 1 to 9. -/
theorem gateCheck_lt {s : State} {b : Nat} {c : GateCall} {r : Nat} (h : gateCheck s b c = some r) : r < 2 ^ 4 := by
  cases c <;> simp only [gateCheck] at h <;> (repeat' split at h) <;> cases h <;> decide

/-! ### Calls of Leaf -/

theorem gateCall_stopped {s : State} (h : leafRuns s = false) (cyc : Nat) (c : GateCall) : gateCall s cyc c = s := if_pos (by simp [h])

theorem gateCall_refused {s : State} {cyc r : Nat} {c : GateCall} (h : leafRuns s = true) (hr : gateCheck s (dueOf s cyc) c = some r) :
    gateCall s cyc c = callRefuse s c r := by
  simp [gateCall, h, hr]

theorem gateCall_full {s : State} {cyc : Nat} {c : GateCall} (h : leafRuns s = true) (hc : gateCheck s (dueOf s cyc) c = none)
    (hfull : 256 ≤ s.gate.queue.length) : gateCall s cyc c = callRefuse s c 8 := by
  simp [gateCall, h, hc, gateDepth, hfull]

theorem gateCall_queued {s : State} {cyc : Nat} {c : GateCall} (h : leafRuns s = true) (hc : gateCheck s (dueOf s cyc) c = none)
    (hroom : s.gate.queue.length < 256) :
    gateCall s cyc c = gateRes { s with gate := { s.gate with queue := s.gate.queue ++ [(dueOf s cyc, c)] } } 0 := by
  simp [gateCall, h, hc, gateDepth, Nat.not_le.mpr hroom]

/-! ### What the calls do -/

theorem getF_qlChange {f : Fld} {k : Nat} (hp : f.page = .sel) (hf : Fld.plain f k 0 = true)
    (hne : Fld.place f k 0 ≠ Fld.place SEL.QL_CHG_CNT 0 0) (s : State) (c old new : Nat) (timeout : Bool) :
    getF (qlChange s c old new timeout) f 0 k 0 = getF s f 0 k 0 := by
  unfold qlChange
  dsimp only
  split
  · rfl
  · rw [getF_of_page f (chanEvt_pg _ _ _ (by rw [hp]; decide)) (by simp [cite @chanEvt_keeps]),
      getF_of_page f (journalPg_pg _ _ _ _ _ _ (by rw [hp]; decide)) (by simp [cite @journalPg_keeps]),
      getF_addCnt_place hp hne hf]

theorem instOn_congr {s t : State} (h : pageCells .ptpts t.regs = pageCells .ptpts s.regs) (hp : t.pol = s.pol) (n p : Nat) :
    instOn t n p = instOn s n p := by
  unfold instOn isOpen
  rw [hp, getF_of_page PTPTS.CFG_EN h hp]

theorem qlTimeoutOf_congr {s t : State} (h : pageCells .ptpts t.regs = pageCells .ptpts s.regs) (hp : t.pol = s.pol) (c src : Nat) :
    qlTimeoutOf t c src = qlTimeoutOf s c src := by
  unfold qlTimeoutOf announceFrames
  simp only [instOn_congr h hp, getF_of_page PTPTS.CFG_FEED h hp, getF_of_page PTPTS.RATES_ANN_TMO h hp, getF_of_page PTPTS.RATES_LOG_ANN h hp]

/-- The codes of a received QL, shown and counted. -/
def qlShown (s : State) (c src ssm : Nat) (e : Option Nat) (first : Bool) : State :=
  let s1 := setF (setF s SEL.CHAN_QL_SSM 0 c 0 ssm) SEL.CHAN_QL_ECODE 0 c 0 (e.getD 0xFF)
  let rank := if src = 4 then some (classRank (e.getD 0xFF)) else ssmRank ssm e
  if rank.isNone && first && (src == 1 || src == 2) then addCnt s1 (if src = 1 then SEL.ESMC_BAD_CNT0 else SEL.ESMC_BAD_CNT1) 0 0 1 else s1

theorem qlShown_keeps (s : State) (c src ssm : Nat) (e : Option Nat) (first : Bool) : OnlyRegs s (qlShown s c src ssm e first) := by
  simp [OnlyRegs, qlShown, cite @addCnt_keeps, cite @setF_keeps, cite @ite_state]

theorem qlShown_codes (s : State) {c ssm : Nat} (hc : c < 12) (src : Nat) {e : Option Nat} (hssm : ssm < 2 ^ 4) (he : e.getD 0xFF < 2 ^ 8) (first : Bool) :
    getF (qlShown s c src ssm e first) SEL.CHAN_QL_SSM 0 c 0 = ssm ∧ getF (qlShown s c src ssm e first) SEL.CHAN_QL_ECODE 0 c 0 = e.getD 0xFF := by
  have h1 : ssm % 2 ^ SEL.CHAN_QL_SSM.width = ssm := Nat.mod_eq_of_lt hssm
  have h2 : e.getD 0xFF % 2 ^ SEL.CHAN_QL_ECODE.width = e.getD 0xFF := Nat.mod_eq_of_lt he
  unfold qlShown
  dsimp only
  generalize ((if src = 4 then some (classRank (e.getD 0xFF)) else ssmRank ssm e).isNone && first && (src == 1 || src == 2)) = counts
  by_cases hsrc : src = 1 <;> cases counts <;> interval_cases c <;>
    simp (disch := decide) only [hsrc, if_true, if_false, Bool.false_eq_true, getF_addCnt_place, getF_setF_place, getF_setF_same, h1, h2, and_self]

theorem qlShown_ptpts (s : State) (c src ssm : Nat) (e : Option Nat) (first : Bool) :
    pageCells .ptpts (qlShown s c src ssm e first).regs = pageCells .ptpts s.regs := by
  have hset : ∀ f : Fld, f.page = .sel → ∀ (t : State) v, pageCells .ptpts (setF t f 0 c 0 v).regs = pageCells .ptpts t.regs :=
    fun f hf t v => setF_pg t f 0 c 0 v (by rw [hf]; decide)
  unfold qlShown
  dsimp only
  generalize ((if src = 4 then some (classRank (e.getD 0xFF)) else ssmRank ssm e).isNone && first && (src == 1 || src == 2)) = counts
  cases counts
  · exact (hset SEL.CHAN_QL_ECODE rfl _ _).trans (hset SEL.CHAN_QL_SSM rfl _ _)
  · exact (addCnt_pg _ _ _ _ _ (by split <;> decide)).trans ((hset SEL.CHAN_QL_ECODE rfl _ _).trans (hset SEL.CHAN_QL_SSM rfl _ _))

/-- A received QL takes effect (R252): the rank that the codes give, the timeout, and the codes as the page shows them. -/
theorem qlApply_shows {s : State} (hs : Shaped s) {ch : Nat} (hch : ch < 12) (src : Nat) {ssm : Nat} {e : Option Nat} (hssm : ssm < 16)
    (he : e.getD 0 < 256) (first : Bool) :
    (chanOf (qlApply s ch src ssm e first) ch).rank = (if src = 4 then some (classRank (e.getD 0xFF)) else ssmRank ssm e).getD 0 ∧
    (chanOf (qlApply s ch src ssm e first) ch).timedOut = false ∧
    (chanOf (qlApply s ch src ssm e first) ch).qlLeft = some (qlTimeoutOf s ch src + 1) ∧
    getF (qlApply s ch src ssm e first) SEL.CHAN_QL_SSM 0 ch 0 = ssm ∧
    getF (qlApply s ch src ssm e first) SEL.CHAN_QL_ECODE 0 ch 0 = e.getD 0xFF := by
  have hecode : e.getD 0xFF < 2 ^ 8 := by cases e <;> simp_all
  obtain ⟨hshow1, hshow2⟩ := qlShown_codes s hch src hssm hecode first
  have htmo : qlTimeoutOf (qlShown s ch src ssm e first) ch src = qlTimeoutOf s ch src := by
    exact qlTimeoutOf_congr (qlShown_ptpts ..) (by simp [cite @qlShown_keeps]) ch src
  have heq : qlApply s ch src ssm e first = applyRank (qlShown s ch src ssm e first) ch
    ((if src = 4 then some (classRank (e.getD 0xFF)) else ssmRank ssm e).getD 0) (qlTimeoutOf (qlShown s ch src ssm e first) ch src) := rfl
  have hlen : ch < (qlShown s ch src ssm e first).chans.length := by
    simpa [cite @qlShown_keeps, hs.chans] using hch
  rw [heq, htmo]
  generalize qlShown s ch src ssm e first = v at *
  generalize (if src = 4 then some (classRank (e.getD 0xFF)) else ssmRank ssm e).getD 0 = rank
  have hchan : chanOf (applyRank v ch rank (qlTimeoutOf s ch src)) ch =
      { chanOf v ch with rank := rank, timedOut := false, qlLeft := some (qlTimeoutOf s ch src + 1), qlAge := some 0 } := by
    unfold applyRank
    refine Eq.trans ?_ (chanOf_modChan hlen fun u =>
      { u with rank := rank, timedOut := false, qlLeft := some (qlTimeoutOf s ch src + 1), qlAge := some 0 })
    exact congrArg (fun l : List ChanU => l.getD ch {}) (by simp [cite @qlChange_keeps])
  refine ⟨by rw [hchan], by rw [hchan], by rw [hchan], ?_, ?_⟩
  · interval_cases ch <;> exact (getF_qlChange rfl (by decide) (by decide) ..).trans hshow1
  · interval_cases ch <;> exact (getF_qlChange rfl (by decide) (by decide) ..).trans hshow2

/-- TIMEp.UTC after the parent's values (R401). -/
theorem utcApply_shows (s : State) (p : Nat) (ofs : Int) (l61 l59 : Bool) :
    get1 (utcApply s p ofs l61 l59) TIME.UTC_OFS p = ofSigned 16 ofs % 2 ^ 16 ∧ get1 (utcApply s p ofs l61 l59) TIME.UTC_VALID p = 1 ∧
    get1 (utcApply s p ofs l61 l59) TIME.UTC_LEAP61 p = b2n l61 ∧ get1 (utcApply s p ofs l61 l59) TIME.UTC_LEAP59 p = b2n l59 := by
  have hbit : ∀ b : Bool, b2n b % 2 ^ 1 = b2n b := by decide
  refine ⟨?_, ?_, ?_, ?_⟩ <;> simp (disch := decide) only [utcApply, get1, set1, getF_setF_place, getF_setF_same]
  · rfl
  · exact Nat.mod_eq_of_lt (by decide)
  · exact hbit l61
  · exact hbit l59

/-- An estimate takes its place as the latest of its packet channel (R412). -/
theorem pktOf_pktApply {s : State} {p c fe : Nat} {m : Rat} (hc : c - 10 < s.pkts.length) :
    pktOf (pktApply s p c fe m) (c - 10) =
      { fe := some fe, base := true, m := m, gap := fe - (pktOf s (c - 10)).fe.getD fe, got := true,
        fresh := (pktOf s (c - 10)).fresh ++
          if (pktOf s (c - 10)).base then
            [roundAway (((fe : Int) - ((pktOf s (c - 10)).fe.getD fe : Int) : Int) * frameLsb - (m - (pktOf s (c - 10)).m))] else [] } :=
  pktOf_modPkt hc _

/-! ### The pages that Leaf reports -/

/-- The cells of the pages that Leaf reports. -/
def leafCells : List (Fld × Nat × Nat) :=
  leafFields.flatMap fun x => (List.range (pageCount x.1)).flatMap fun n => (List.range x.2.n1).map fun k => (x.2, n, k)

/-- The cell's number. -/
def leafKey (x : Fld × Nat × Nat) : Nat := fldKey x.1 x.2.1 x.2.2 0

theorem leafCells_keys : (leafCells.map leafKey).Nodup := by
  decide +kernel

theorem leafWord_eq (a : Nat) : leafWord a = leafCells.filter fun x => fldAddr x.1 x.2.1 x.2.2 0 == a := by
  simp only [leafWord, leafCells, List.filter_flatMap, List.filter_map, Function.comp_def]

theorem leafWord_sub {a : Nat} {x : Fld × Nat × Nat} (h : x ∈ leafWord a) : x ∈ leafCells ∧ fldAddr x.1 x.2.1 x.2.2 0 = a := by
  rw [leafWord_eq, List.mem_filter] at h
  exact ⟨h.1, by simpa using h.2⟩

/-- A reported field is a register, and none lies at EVT. -/
theorem leafCells_plain : ∀ x ∈ leafCells, x.1.acc ≠ .lk ∧ Fld.low x.1 x.2.2 0 ≠ 0x80 := by
  decide +kernel

/-- Two reported fields of one cell are the same. -/
theorem leafCells_inj {x y : Fld × Nat × Nat} (hx : x ∈ leafCells) (hy : y ∈ leafCells) (h : leafKey x = leafKey y) : x = y :=
  List.inj_on_of_nodup_map leafCells_keys hx hy h

/-- One reported field takes its bits of the word. -/
def leafWrite (v : Nat) (t : State) (x : Fld × Nat × Nat) : State := setF t x.1 x.2.1 x.2.2 0 (bitsOf v x.1.lo x.1.width)

theorem leafWrite_same {x : Fld × Nat × Nat} (hx : x ∈ leafCells) (v : Nat) (t : State) :
    getF (leafWrite v t x) x.1 x.2.1 x.2.2 0 = bitsOf v x.1.lo x.1.width :=
  getF_setF_fits (leafCells_plain x hx).1 (Nat.mod_lt _ (by positivity)) t ..

theorem leafWrite_kept {x y : Fld × Nat × Nat} (hx : x ∈ leafCells) (hy : y ∈ leafCells) {v : Nat} {t : State}
    (h : getF t x.1 x.2.1 x.2.2 0 = bitsOf v x.1.lo x.1.width) : getF (leafWrite v t y) x.1 x.2.1 x.2.2 0 = bitsOf v x.1.lo x.1.width := by
  by_cases e : leafKey x = leafKey y
  · rw [← leafCells_inj hx hy e]
    exact leafWrite_same hx v t
  · exact (getF_setF_ne _ _ _ _ _ _ _ _ _ _ e).trans h

/-- Each reported field of a word reads its bits of it. -/
theorem foldl_leafWrite {l : List (Fld × Nat × Nat)} (hl : ∀ y ∈ l, y ∈ leafCells) {x : Fld × Nat × Nat} (hx : x ∈ l) (v : Nat) (s : State) :
    getF (l.foldl (leafWrite v) s) x.1 x.2.1 x.2.2 0 = bitsOf v x.1.lo x.1.width := by
  obtain ⟨a, b, rfl⟩ := List.append_of_mem hx
  rw [List.foldl_append, List.foldl_cons]
  exact foldl_rel (R := fun t u => getF t x.1 x.2.1 x.2.2 0 = bitsOf v x.1.lo x.1.width → getF u x.1 x.2.1 x.2.2 0 = bitsOf v x.1.lo x.1.width)
    (fun _ h => h) (fun _ _ _ h g => g ∘ h) (fun t y hy h => leafWrite_kept (hl x hx) (hl y (by simp [hy])) h) _ (leafWrite_same (hl x hx) v _)

theorem foldl_leafWrite_raised {l : List (Fld × Nat × Nat)} (hl : ∀ y ∈ l, y ∈ leafCells) (v : Nat) {s : State} {p : Page} {n bit : Nat}
    (hp : p ≠ .chan) (h : Raised s p n bit) : Raised (l.foldl (leafWrite v) s) p n bit :=
  foldl_rel (R := fun t u => Raised t p n bit → Raised u p n bit) (fun _ h => h) (fun _ _ _ h g => g ∘ h)
    (fun _ y hy ht => ht.setF_any hp (leafCells_plain y (hl y hy)).2 _ _) s h

/-- A close is shown and raised on one port of its instance. -/
def closeShown (p cause : Nat) (t : State) (n : Nat) : State :=
  ptpEvt (addCnt (setF (setF t PTPTS.STATE_CLOSED n p 0 1) PTPTS.STATE_CAUSE n p 0 cause) PTPTS.CLOSE_CNT n p 1) n p 0

theorem closeShown_keeps {p : Nat} (hp : p < 4) (cause : Nat) (t : State) (n : Nat) : Keeps [] t (closeShown p cause t n) := by
  have h : ∀ f ∈ [PTPTS.STATE_CLOSED, PTPTS.STATE_CAUSE, PTPTS.CLOSE_CNT], ∀ p < 4, Fld.apart f p 0 (HDR.EVT .ptpts) = true := by decide
  exact (((Keeps.setF ⟨rfl, h _ (by decide) p hp⟩ t n 1).after_setF ⟨rfl, h _ (by decide) p hp⟩).after_addCnt
    ⟨⟨rfl, h _ (by decide) p hp⟩, rfl⟩).trans ((Keeps.evt rfl _ .ptpts n 0).after_evt rfl)

theorem closeShown_raised (p cause : Nat) (t : State) (n : Nat) : Raised (closeShown p cause t n) .ptpts n 0 :=
  (Keeps.evt (fs := []) rfl _ .part p 13).raised .ptpts n 0 (by decide) (by decide) (raised_evt (by decide) ..)

/-- An instance that closes raises it on each port it uses (R399). -/
theorem instClose_raised {s : State} {n p : Nat} (hp : p < 4) (hn : n ∈ instPorts s p) (hopen : instClosed s p = false) (cause : Nat) :
    Raised (instClose s p cause) .ptpts n 0 := by
  unfold instClose
  rw [if_neg (by simp [hopen])]
  extract_lets ps closes held s1 s2 s3
  have hfold : Raised (ps.foldl (closeShown p cause) s2) .ptpts n 0 := by
    obtain ⟨a, b, hab⟩ := List.append_of_mem hn
    rw [show ps = a ++ n :: b from hab, List.foldl_append, List.foldl_cons]
    exact (Keeps.foldl (closeShown_keeps hp cause) b _).raised .ptpts n 0 (by decide) (by decide) (closeShown_raised ..)
  exact (Keeps.journalPg (fs := []) rfl s3 ..).raised .ptpts n 0 (by decide) (by decide) hfold

theorem leafCells_closed : ∀ x ∈ leafCells, x.1 = PTPTS.STATE_CLOSED → x.2.1 < 2 ∧ x.2.2 < 4 := by
  decide +kernel

/-- The report of an instance's internal failure closes it, with the fields as Leaf reports them (R399). -/
theorem pageApply_shows (s : State) (a v : Nat) {x : Fld × Nat × Nat} (hx : x ∈ leafWord a) :
    getF (pageApply s a v) x.1 x.2.1 x.2.2 0 = bitsOf v x.1.lo x.1.width ∧
    (closeReport s v x = true → Raised (pageApply s a v) .ptpts x.2.1 0) := by
  have hl : ∀ y ∈ leafWord a, y ∈ leafCells := fun y hy => (leafWord_sub hy).1
  refine ⟨foldl_leafWrite hl hx v _, fun hclose => foldl_leafWrite_raised hl v (by decide) ?_⟩
  have hshape : ∀ y, closeReport s v y = true → y.1 = PTPTS.STATE_CLOSED := fun y hy => by
    simp only [closeReport, Bool.and_eq_true, beq_iff_eq] at hy
    exact hy.1.1.1.1
  have hsame : ∀ y ∈ leafWord a, closeReport s v y = true → y = x := fun y hy hc => by
    refine leafCells_inj (leafWord_sub hy).1 (leafWord_sub hx).1 ?_
    simp only [leafKey, fldKey, (leafWord_sub hy).2, (leafWord_sub hx).2]
    rw [hshape y hc, hshape x hclose]
  have honly : (leafWord a).filter (closeReport s v) = [x] := by
    have hnodup : ((leafWord a).filter (closeReport s v)).Nodup := by
      rw [leafWord_eq]
      exact (leafCells_keys.of_map.filter _).filter _
    refine List.perm_singleton.mp ((List.perm_ext_iff_of_nodup hnodup (List.nodup_singleton x)).mpr fun y => ?_)
    rw [List.mem_filter, List.mem_singleton]
    exact ⟨fun h => hsame y h.1 h.2, fun h => h ▸ ⟨hx, hclose⟩⟩
  rw [honly]
  obtain ⟨hn, hp⟩ := leafCells_closed x (leafWord_sub hx).1 (hshape x hclose)
  simp only [closeReport, Bool.and_eq_true, Bool.not_eq_true'] at hclose
  exact instClose_raised hp (List.mem_filter.mpr ⟨List.mem_range.mpr hn, hclose.1.2⟩) hclose.2 3

/-! ### The declaration -/

theorem gateAct_refused {s : State} {c : GateCall} {r : Nat} (h : gateCheck s s.frn c = some r) : gateAct s c = callRefuse s c r := by
  simp [gateAct, h]

/-- The calls of Leaf's instructions. -/
theorem exec_gateCall {s : State} {cyc : Nat} (hcyc : cyc < 1250) {i : Instr} {c : GateCall}
    (h : (∃ ch src nd ssm e, i = .qlDeliver ch src nd ssm e cyc ∧ c = .ql ch src nd ssm e true ∧ ssm < 16 ∧ e.getD 0 < 256) ∨
      (∃ p ch fe m r, i = .pktEstimate p ch fe m r cyc ∧ c = .pkt p ch fe m r ∧ p < 4) ∨
      (∃ p d x, i = .timeChange p d x cyc ∧ c = .time p d x ∧ p < 4) ∨
      (∃ p q o a b, i = .utcUpdate p q o a b cyc ∧ c = .utc p q o a b ∧ p < 4) ∨
      (∃ a v, i = .pageReport a v cyc ∧ c = .page a v ∧ v < 2 ^ 32)) : exec i s = .next (gateCall s cyc c) := by
  obtain ⟨ch, src, nd, ssm, e, rfl, rfl, h1, h2⟩ | ⟨p, ch, fe, m, r, rfl, rfl, hp⟩ | ⟨p, d, x, rfl, rfl, hp⟩ | ⟨p, q, o, a, b, rfl, rfl, hp⟩ |
    ⟨a, v, rfl, rfl, hv⟩ := h
  · exact if_pos ⟨h1, h2, hcyc⟩
  · exact if_pos ⟨hp, hcyc⟩
  · exact if_pos ⟨hp, hcyc⟩
  · exact if_pos ⟨hp, hcyc⟩
  · exact if_pos ⟨hv, hcyc⟩

/-- Settles O54: the calls by their bound as they are made, and each by its kind as it acts. -/
theorem gateCalls : Obligations.GateCalls := by
  intro s cyc hs hcyc
  refine ⟨fun i c hi => ?_, fun c r hr => ?_, fun ch src nd ssm e first hssm he hc => ?_, fun p d x hd hc => ?_, fun p q o a b hc => ?_,
    fun p ch fe m r hc => ?_, fun a v hc x hx => ?_⟩
  · rw [exec_gateCall hcyc hi]
    refine ⟨fun hrun hc hroom => ⟨_, rfl, ?_⟩, fun hrun hc hfull => ⟨_, rfl, ?_⟩, fun r hrun hc => ⟨_, rfl, ?_⟩, fun hrun => ?_⟩
    · rw [gateCall_queued hrun hc hroom]
      exact ⟨rfl, rfl, rfl⟩
    · rw [gateCall_full hrun hc hfull]
      exact callRefuse_refused s c (by decide)
    · rw [gateCall_refused hrun hc]
      exact callRefuse_refused s c (gateCheck_lt hc)
    · rw [gateCall_stopped hrun]
  · rw [gateAct_refused hr]
    exact callRefuse_refused s c (gateCheck_lt hr)
  · have heq : gateAct s (.ql ch src nd ssm e first) = qlApply s ch src ssm e first := by simp [gateAct, hc]
    have hch : ch < 12 := by
      simp only [gateCheck] at hc
      split at hc
      · next h => exact h.1
      · cases hc
    rw [heq]
    exact qlApply_shows hs hch src hssm he first
  · have heq : gateAct s (.time p d x) = putReq s d 2 x s.frn := by simp [gateAct, hc]
    rw [heq]
    exact congrArg TimeU.reqs (timeOf_modTime (hs.times_length ▸ hd) _)
  · have hq : q = p := by
      by_contra hne
      simp [gateCheck, hne] at hc
    subst hq
    have heq : gateAct s (.utc q q o a b) = utcApply s q o a b := by simp [gateAct, hc]
    rw [heq]
    exact utcApply_shows s q o a b
  · have heq : gateAct s (.pkt p ch fe m r) = pktApply s p ch fe m := by simp [gateAct, hc]
    have hch : ch - 10 < s.pkts.length := by
      simp only [gateCheck] at hc
      split at hc
      · cases hc
      · next h =>
        simp at h
        rw [hs.pkts]
        omega
    rw [heq]
    exact pktOf_pktApply hch
  · have heq : gateAct s (.page a v) = pageApply s a v := by simp [gateAct, hc]
    rw [heq]
    exact pageApply_shows s a v hx

end Sys2Proof.Machine

/-! The journal and the black box (R563 to R575). -/

namespace Sys2Proof.Machine

/-! ### Bytes of SRAM -/

theorem toNat_byte (b : Nat) : (BitVec.ofNat 8 b).toNat = b % 256 := BitVec.toNat_ofNat b 8

/-- A byte of SRAM reads as written, and every other byte as before. -/
theorem memByte_putSram (s : State) (a c b : Nat) :
    memByte (putSram s a b) c = if canonAddr c = canonAddr a then BitVec.ofNat 8 b else memByte s c := by
  unfold putSram
  split
  · next h =>
    split
    · next hc =>
      have hsame : memByte s c = memByte s a := by simp only [memByte, hc]
      rw [hsame]
      exact BitVec.eq_of_toNat_eq (h.trans (toNat_byte b).symm)
    · rfl
  · exact memByte_setByte s a c _

theorem memByte_putSrams_below (l : List Nat) {s : State} {a c : Nat} (ha : 0x610000 ≤ a) (hc : 0x610000 ≤ c) (h : c < a) :
    memByte (putSrams s a l) c = memByte s c := by
  induction l generalizing s a with
  | nil => rfl
  | cons b r ih =>
    rw [putSrams, ih (by omega) (by omega), memByte_putSram, canonAddr_id _ (by omega), canonAddr_id _ (by omega), if_neg (by omega)]

/-- Bytes of SRAM above the black-box region's own addresses read as they were written. -/
theorem memBytes_putSrams (l : List Nat) {s : State} {a : Nat} (ha : 0x610000 ≤ a) :
    memBytes (putSrams s a l) a l.length = l.map (· % 256) := by
  induction l generalizing s a with
  | nil => rfl
  | cons b r ih =>
    have hhead : (memByte (putSrams s a (b :: r)) a).toNat = b % 256 := by
      rw [putSrams, memByte_putSrams_below r (by omega) ha (by omega), memByte_putSram, if_pos rfl, toNat_byte]
    have htail : memBytes (putSrams (putSram s a b) (a + 1) r) (a + 1) r.length = r.map (· % 256) := ih (by omega)
    simp only [memBytes, List.length_cons, List.range_succ_eq_map, List.map_cons, List.map_map] at htail ⊢
    refine congrArg₂ List.cons hhead ?_
    rw [← htail]
    exact List.map_congr_left fun i _ => by
      show (memByte _ (a + (i + 1))).toNat = (memByte _ (a + 1 + i)).toNat
      rw [show a + (i + 1) = a + 1 + i by omega]
      rfl

theorem memBytes_of_mem {s t : State} (h : t.mem = s.mem) (a n : Nat) : memBytes t a n = memBytes s a n := by
  simp only [memBytes, memByte, h]

/-! ### Leaf's entries -/

theorem leBytes_length (v n : Nat) : (leBytes v n).length = n := by
  induction n generalizing v with
  | zero => rfl
  | succ n ih => exact congrArg (· + 1) (ih _)

theorem leBytes_lt (v n : Nat) : ∀ b ∈ leBytes v n, b < 256 := by
  induction n generalizing v with
  | zero => exact fun _ h => absurd h List.not_mem_nil
  | succ n ih =>
    intro b hb
    rcases List.mem_cons.mp hb with rfl | hb
    · exact Nat.mod_lt _ (by decide)
    · exact ih _ b hb

theorem entryBytes_length (e : JEntry) (w : Nat) : (entryBytes e w).length = 16 := by
  simp [entryBytes, leBytes_length]

theorem entryBytes_lt (e : JEntry) (w : Nat) : (entryBytes e w).map (· % 256) = entryBytes e w := by
  refine (List.map_congr_left fun b hb => Nat.mod_eq_of_lt ?_).trans (List.map_id _)
  simp only [entryBytes, List.mem_append, List.mem_cons, List.not_mem_nil, or_false] at hb
  rcases hb with ((((h | h) | h) | rfl | rfl) | h) | h
  · exact leBytes_lt _ _ _ h
  · exact leBytes_lt _ _ _ h
  · exact leBytes_lt _ _ _ h
  · exact Nat.mod_lt _ (by decide)
  · exact Nat.mod_lt _ (by decide)
  · exact leBytes_lt _ _ _ h
  · exact leBytes_lt _ _ _ h

/-- The entry of a call of Leaf. -/
def leafEntry (s : State) (code part data : Nat) : JEntry := ⟨s.frn % 2 ^ 48, code, some part, 0x40, 0, data⟩

/-- A code of Leaf's range is one that suppression may drop. -/
theorem leafCode_suppressed {code : Nat} (h : 0x800 ≤ code) : neverSuppressed.contains code = false := by
  rw [Bool.eq_false_iff]
  intro hc
  have hmem : code ∈ neverSuppressed := by simpa using hc
  have hall : ∀ c ∈ neverSuppressed, c < 0x800 := by decide
  exact absurd (hall code hmem) (by omega)

theorem journal_suppressed {s : State} {code part data : Nat} (hc : 0x800 ≤ code) (h : 256 ≤ (kvGet s.jrn.counts code).getD 0) :
    (journal s code (some part) 0x40 0 data).jrn.queue = s.jrn.queue ∧ Counted s (journal s code (some part) 0x40 0 data) BBOX.SUPPRESS_CNT 0 0 1 ∧
    kvGet (journal s code (some part) 0x40 0 data).jrn.supp code = some ((kvGet s.jrn.supp code).getD 0 + 1) := by
  obtain ⟨v, hv⟩ : ∃ v, v = addCnt s BBOX.SUPPRESS_CNT 0 0 1 := ⟨_, rfl⟩
  have hj : v.jrn = s.jrn := by simp [hv, cite @addCnt_keeps]
  have heq : journal s code (some part) 0x40 0 data =
      { v with jrn := { v.jrn with supp := kvSet v.jrn.supp code ((kvGet v.jrn.supp code).getD 0 + 1) } } := by
    rw [hv]
    exact (if_neg (by rw [leafCode_suppressed hc]; decide)).trans (if_neg (Nat.not_lt.mpr h))
  rw [heq]
  refine ⟨(by rw [hj] : v.jrn.queue = s.jrn.queue), ?_, (kvGet_kvSet_same ..).trans (by rw [hj])⟩
  show getF v BBOX.SUPPRESS_CNT 0 0 0 = _
  rw [hv]
  exact getF_addCnt_counter (by decide) rfl (by decide) ..

/-- An entry within its window's bound is written, or counted lost where the queue is full. -/
theorem journal_counted {s : State} {code part data : Nat} (hc : 0x800 ≤ code) (hd : data < 2 ^ 32) (h : (kvGet s.jrn.counts code).getD 0 < 256) :
    journal s code (some part) 0x40 0 data =
      enqueue { s with jrn := { s.jrn with counts := kvSet s.jrn.counts code ((kvGet s.jrn.counts code).getD 0 + 1) } } (leafEntry s code part data) := by
  have heq : journal s code (some part) 0x40 0 data =
      enqueue { s with jrn := { s.jrn with counts := kvSet s.jrn.counts code ((kvGet s.jrn.counts code).getD 0 + 1) } }
        ⟨s.frn % 2 ^ 48, code, some part, 0x40, 0, data % 2 ^ 32⟩ :=
    (if_neg (by rw [leafCode_suppressed hc]; decide)).trans (if_pos h)
  rw [heq, Nat.mod_eq_of_lt hd]
  rfl

theorem enqueue_room {s : State} (h : s.jrn.queue.length < 64) (e : JEntry) :
    enqueue s e = { s with jrn := { s.jrn with queue := s.jrn.queue ++ [e] } } := if_pos h

theorem enqueue_counts (s : State) (e : JEntry) : (enqueue s e).jrn.counts = s.jrn.counts := by
  unfold enqueue
  split
  · rfl
  · simp [cite @addCnt_keeps]

theorem enqueue_full {s : State} (h : s.jrn.queue.length = 64) (e : JEntry) :
    (enqueue s e).jrn.queue = s.jrn.queue ∧ Counted s (enqueue s e) BBOX.QLOST_CNT 0 0 1 ∧
    kvGet (enqueue s e).jrn.lost e.frn = some ((kvGet s.jrn.lost e.frn).getD 0 + 1) := by
  obtain ⟨v, hv⟩ : ∃ v, v = addCnt s BBOX.QLOST_CNT 0 0 1 := ⟨_, rfl⟩
  have hj : v.jrn = s.jrn := by simp [hv, cite @addCnt_keeps]
  have heq : enqueue s e = { v with jrn := { v.jrn with lost := kvSet v.jrn.lost e.frn ((kvGet v.jrn.lost e.frn).getD 0 + 1) } } := by
    rw [hv]
    exact if_neg (by omega)
  rw [heq]
  refine ⟨(by rw [hj] : v.jrn.queue = s.jrn.queue), ?_, (kvGet_kvSet_same ..).trans (by rw [hj])⟩
  show getF v BBOX.QLOST_CNT 0 0 0 = _
  rw [hv]
  exact getF_addCnt_counter (by decide) rfl (by decide) ..

/-! ### What is held beside the queue -/

/-- Held entries that have moved up: in their order, until none is left or the queue is full. -/
structure Pumped (s t : State) : Prop where
  order : t.jrn.queue ++ t.jrn.held = s.jrn.queue ++ s.jrn.held
  full : t.jrn.held = [] ∨ t.jrn.queue.length = 64
  lost : t.jrn.lost = s.jrn.lost
  counts : t.jrn.counts = s.jrn.counts
  supp : t.jrn.supp = s.jrn.supp

theorem pumpHeld_pumped (n : Nat) {s : State} (h : s.jrn.queue.length ≤ 64) (hn : 64 ≤ n + s.jrn.queue.length) : Pumped s (pumpHeld n s) := by
  induction n generalizing s with
  | zero => exact ⟨rfl, .inr (by simp only [pumpHeld]; omega), rfl, rfl, rfl⟩
  | succ n ih =>
    rcases hheld : s.jrn.held with - | ⟨e, r⟩
    · have heq : pumpHeld (n + 1) s = s := by simp [pumpHeld, hheld]
      rw [heq]
      exact ⟨rfl, .inl hheld, rfl, rfl, rfl⟩
    · by_cases hroom : s.jrn.queue.length < 64
      · have heq : pumpHeld (n + 1) s = pumpHeld n { s with jrn := { s.jrn with queue := s.jrn.queue ++ [e], held := r } } := by
          simp [pumpHeld, hheld, hroom]
        have hnext := ih (s := { s with jrn := { s.jrn with queue := s.jrn.queue ++ [e], held := r } })
          (by simp only [List.length_append, List.length_cons, List.length_nil]; omega)
          (by simp only [List.length_append, List.length_cons, List.length_nil]; omega)
        rw [heq]
        exact ⟨hnext.order.trans (by simp [hheld]), hnext.full, hnext.lost, hnext.counts, hnext.supp⟩
      · have heq : pumpHeld (n + 1) s = s := by simp [pumpHeld, hheld, hroom]
        rw [heq]
        exact ⟨rfl, .inr (by omega), rfl, rfl, rfl⟩

theorem pumpHeld_only (n : Nat) (s : State) : pumpHeld n s = { s with jrn := (pumpHeld n s).jrn } := by
  induction n generalizing s with
  | zero => rfl
  | succ n ih =>
    unfold pumpHeld
    split
    · rfl
    · split
      · exact ih _
      · rfl

/-! ### The writer -/

/-- The write position, its count, and whether the engine takes requests. -/
def writerFlds : List Fld := [BBOX.WR_SEQ, BBOX.WR_IDX, BBOX.ENTRY_CNT, CELLAR.STATUS_PF_SEQ]

/-- An entry in the black box, the position moved on (R567). -/
def entryPlaced (s : State) (e : JEntry) : State :=
  set1 (set1 (putSrams (overwriteEvt s (get1 s BBOX.WR_SEQ 0)) (blockAddr 224 + 16 * (get1 s BBOX.WR_SEQ 0 % 4096)) (entryBytes e (get1 s BBOX.WR_SEQ 0)))
    BBOX.WR_SEQ 0 (get1 s BBOX.WR_SEQ 0 + 1)) BBOX.WR_IDX 0 (get1 s BBOX.WR_SEQ 0 + 1)

/-- It is counted, with its events. -/
def entryCounted (s : State) (e : JEntry) : State :=
  codeEvts (addCnt (unreadCross (belowWm s) (entryPlaced s e)) BBOX.ENTRY_CNT 0 0 1) e.code

/-- The block that the position leaves is sealed. -/
def entrySealed (s : State) (e : JEntry) : State :=
  let bit := 2 ^ (get1 s BBOX.WR_SEQ 0 % 4096 / 256)
  set1 (entryCounted s e) BBOX.STALE 0 ((get1 (entryCounted s e) BBOX.STALE 0 ||| bit) ^^^ bit)

theorem writeEntry_eq (s : State) (e : JEntry) : writeEntry s e =
    if get1 s BBOX.WR_SEQ 0 % 4096 % 256 = 255 then
      rootStore (entrySealed s e) (224 + get1 s BBOX.WR_SEQ 0 % 4096 / 256) 3 8
    else entryCounted s e := rfl

/-- OVERWRITE is raised, or nothing happens. -/
theorem overwriteEvt_cases (s : State) (w : Nat) : overwriteEvt s w = s ∨
    overwriteEvt s w = evt { s with jrn := { s.jrn with owNext := some ((w + 4096) % 2 ^ 32) } } .bbox 0 1 := (ite_eq_or_eq _ _ _).symm

theorem overwriteEvt_reads (s : State) (w : Nat) : Keeps writerFlds s (overwriteEvt s w) := by
  generalize hv : overwriteEvt s w = v
  rcases overwriteEvt_cases s w with h | h
  · rw [← hv, h]
    exact .refl _ _
  · have hunits : Keeps writerFlds s { s with jrn := { s.jrn with owNext := some ((w + 4096) % 2 ^ 32) } } := .of_units rfl rfl
    rw [← hv, h]
    exact hunits.trans (.evt (by decide) _ .bbox 0 1)

theorem overwriteEvt_jrn (s : State) (w : Nat) :
    (overwriteEvt s w).jrn.queue = s.jrn.queue ∧ (overwriteEvt s w).jrn.held = s.jrn.held := by
  rcases overwriteEvt_cases s w with h | h
  · rw [h]
    exact ⟨rfl, rfl⟩
  · rw [h]
    simp [cite @evt_keeps]

theorem entryPlaced_shows (s : State) (e : JEntry) :
    get1 (entryPlaced s e) BBOX.WR_SEQ 0 = (get1 s BBOX.WR_SEQ 0 + 1) % 2 ^ 32 ∧
    get1 (entryPlaced s e) BBOX.WR_IDX 0 = (get1 s BBOX.WR_SEQ 0 + 1) % 2 ^ 12 := by
  unfold entryPlaced
  generalize putSrams _ _ _ = v
  constructor <;> simp (disch := decide) only [get1, set1, getF_setF_place, getF_setF_same] <;> rfl

theorem entryPlaced_reads (s : State) (e : JEntry) : Keeps [BBOX.ENTRY_CNT, CELLAR.STATUS_PF_SEQ] s (entryPlaced s e) := by
  have h := overwriteEvt_reads s (get1 s BBOX.WR_SEQ 0)
  have hsub : ∀ g ∈ [BBOX.ENTRY_CNT, CELLAR.STATUS_PF_SEQ], g ∈ writerFlds := by decide
  refine .trans (t := overwriteEvt s (get1 s BBOX.WR_SEQ 0)) ⟨fun g hg n => h.reads g (hsub g hg) n, h.raised⟩ ?_
  exact ((Keeps.of_sram _ (putSrams_keeps ..)).after_set1 (by decide)).after_set1 (by decide)

theorem entryPlaced_bytes (s : State) (e : JEntry) :
    memBytes (entryPlaced s e) (blockAddr 224 + 16 * (get1 s BBOX.WR_SEQ 0 % 4096)) 16 = entryBytes e (get1 s BBOX.WR_SEQ 0) := by
  have hput := memBytes_putSrams (entryBytes e (get1 s BBOX.WR_SEQ 0)) (s := overwriteEvt s (get1 s BBOX.WR_SEQ 0))
    (a := blockAddr 224 + 16 * (get1 s BBOX.WR_SEQ 0 % 4096)) (by rw [blockAddr]; omega)
  rw [entryBytes_length, entryBytes_lt] at hput
  refine (memBytes_of_mem ?_ _ _).trans hput
  simp [entryPlaced, cite @set1_keeps]

theorem entryPlaced_units (s : State) (e : JEntry) : (entryPlaced s e).jrn.queue = s.jrn.queue ∧ (entryPlaced s e).jrn.held = s.jrn.held ∧
    (entryPlaced s e).root = s.root ∧ (entryPlaced s e).cellar.shut = s.cellar.shut ∧ (entryPlaced s e).cellar.held18 = s.cellar.held18 := by
  have hj := overwriteEvt_jrn s (get1 s BBOX.WR_SEQ 0)
  have hcel : ∀ (l : List Nat) (u : State) (a : Nat), (putSrams u a l).cellar.shut = u.cellar.shut ∧ (putSrams u a l).cellar.held18 = u.cellar.held18 :=
    fun l u a => by
      have h := putSrams_dirty l u a
      unfold DirtyOnly at h
      rw [h]
      exact ⟨rfl, rfl⟩
  simp [entryPlaced, cite @set1_keeps, cite @putSrams_keeps, hj, hcel, cite @overwriteEvt_keeps]

theorem codeEvts_reads {fs : List Fld} (h : fs.all (Fld.lowPlain · 0 0) = true) (s : State) (code : Nat) : Keeps fs s (codeEvts s code) := by
  unfold codeEvts
  exact ((Keeps.evtIf h _ s .bbox 0 2).trans (.evtIf h _ _ .bbox 0 3)).trans (.evtIf h _ _ .bbox 0 4)

theorem entryCounted_reads (s : State) (e : JEntry) : Keeps [BBOX.WR_SEQ, BBOX.WR_IDX, CELLAR.STATUS_PF_SEQ] (entryPlaced s e) (entryCounted s e) :=
  ((Keeps.evtIf (by decide) _ _ .bbox 0 0).after_addCnt (by decide)).trans (codeEvts_reads (by decide) ..)

theorem entryCounted_count (s : State) (e : JEntry) : Counted s (entryCounted s e) BBOX.ENTRY_CNT 0 0 1 := by
  have h1 : Keeps [BBOX.ENTRY_CNT] (entryPlaced s e) (unreadCross (belowWm s) (entryPlaced s e)) := .evtIf (by decide) _ _ .bbox 0 0
  have hcnt := getF_addCnt_counter (f := BBOX.ENTRY_CNT) (k := 0) (by decide) rfl (by decide) (unreadCross (belowWm s) (entryPlaced s e)) 0 1
  have h2 : Keeps [BBOX.ENTRY_CNT] (addCnt (unreadCross (belowWm s) (entryPlaced s e)) BBOX.ENTRY_CNT 0 0 1) (entryCounted s e) :=
    codeEvts_reads (by decide) ..
  have h0 : get1 (unreadCross (belowWm s) (entryPlaced s e)) BBOX.ENTRY_CNT 0 = get1 s BBOX.ENTRY_CNT 0 :=
    (h1.reads _ (by decide) 0).trans ((entryPlaced_reads s e).reads _ (by decide) 0)
  exact (h2.reads _ (by decide) 0).trans (hcnt.trans (congrArg (fun n => satTo cntMax (n + 1)) h0))

theorem entryCounted_keeps (s : State) (e : JEntry) : OnlyRegs (entryPlaced s e) (entryCounted s e) := by
  simp [OnlyRegs, entryCounted, cite @codeEvts_keeps, cite @addCnt_keeps, cite @unreadCross_keeps]

theorem entrySealed_keeps (s : State) (e : JEntry) : OnlyRegs (entryCounted s e) (entrySealed s e) := by
  simp [OnlyRegs, entrySealed, cite @set1_keeps]

/-- What the writer has done of an entry once it stands, beside the sealing of its block. -/
theorem writeEntry_reads (s : State) (e : JEntry) : Keeps [BBOX.WR_SEQ, BBOX.WR_IDX, BBOX.ENTRY_CNT] (entryCounted s e) (writeEntry s e) := by
  rw [writeEntry_eq]
  refine .ite ?_ (.refl _ _)
  refine .trans (t := entrySealed s e) ?_ (.rootStore (by decide) ..)
  exact .set1 (by decide) ..

theorem writeEntry_units (s : State) (e : JEntry) : (writeEntry s e).mem = (entryPlaced s e).mem ∧
    (writeEntry s e).jrn = (entryPlaced s e).jrn ∧ (writeEntry s e).root.down = s.root.down := by
  have hroot := (entryPlaced_units s e).2.2.1
  rw [writeEntry_eq]
  split
  · have h := RootBut.rootStore (entrySealed s e) (224 + get1 s BBOX.WR_SEQ 0 % 4096 / 256) 3 8
    unfold RootBut at h
    refine ⟨?_, ?_, ?_⟩
    · simp [cite @rootStore_keeps, cite @entrySealed_keeps, cite @entryCounted_keeps]
    · simp [cite @rootStore_keeps, cite @entrySealed_keeps, cite @entryCounted_keeps]
    · rw [h]
      simp [cite @entrySealed_keeps, cite @entryCounted_keeps, hroot]
  · simp [cite @entryCounted_keeps, hroot]

/-- The block that the position leaves is stored (R495). -/
theorem writeEntry_stores {s : State} {e : JEntry} (hlast : get1 s BBOX.WR_SEQ 0 % 256 = 255) (ht : engineTakes s = true)
    (h18 : s.cellar.held18 = true) : StoreWaits (writeEntry s e) (224 + get1 s BBOX.WR_SEQ 0 % 4096 / 256) 8 3 := by
  obtain ⟨-, -, -, hshut, h18'⟩ := entryPlaced_units s e
  have hpf : get1 (entrySealed s e) CELLAR.STATUS_PF_SEQ 0 = get1 s CELLAR.STATUS_PF_SEQ 0 := by
    have h3 : Keeps [CELLAR.STATUS_PF_SEQ] (entryCounted s e) (entrySealed s e) := .set1 (by decide) ..
    exact ((h3.reads _ (by decide) 0).trans ((entryCounted_reads s e).reads _ (by decide) 0)).trans ((entryPlaced_reads s e).reads _ (by decide) 0)
  rw [writeEntry_eq, if_pos (by omega)]
  refine (rootStore_waits ?_ ?_ _ 3 8).store
  · rw [engineTakes_of hpf (by simp [cite @entrySealed_keeps, cite @entryCounted_keeps, hshut])]
    exact ht
  · simp [cite @entrySealed_keeps, cite @entryCounted_keeps, h18', h18]

/-- A register reads the same where only the units differ. -/
theorem counted_of_regs {s u t : State} {f : Fld} {m : Nat} (h : Counted u t f 0 0 m) (hr : u.regs = s.regs) (hp : u.pol = s.pol) :
    Counted s t f 0 0 m := by
  unfold Counted at *
  rw [h, getF_congr f 0 0 0 (by rw [hr]) hp]

/-! ### The declaration -/

/-- The journal with its oldest entry taken, Root at work. -/
def entryTaken (s : State) (r : List JEntry) : State := { rootUp s with jrn := { s.jrn with queue := r } }

theorem drainOne_eq {s : State} {e : JEntry} {r : List JEntry} (h : s.jrn.queue = e :: r) :
    drainOne (rootUp s) = pumpHeld 64 (writeEntry (entryTaken s r) e) := by
  have hq : (rootUp s).jrn.queue = e :: r := h
  unfold drainOne
  rw [hq]
  rfl

/-- Root writes the oldest entry (R567). -/
theorem drainOne_shows {s : State} (hlen : s.jrn.queue.length ≤ 64) {e : JEntry} {r : List JEntry} (h : s.jrn.queue = e :: r) :
    let w := get1 s BBOX.WR_SEQ 0
    let t := drainOne (rootUp s)
    t.jrn.queue ++ t.jrn.held = r ++ s.jrn.held ∧ (t.jrn.held = [] ∨ t.jrn.queue.length = 64) ∧ t.root.down = none ∧
    get1 t BBOX.WR_SEQ 0 = (w + 1) % 2 ^ 32 ∧ get1 t BBOX.WR_IDX 0 = (w + 1) % 2 ^ 12 ∧ Counted s t BBOX.ENTRY_CNT 0 0 1 ∧
    memBytes t (blockAddr 224 + 16 * (w % 4096)) 16 = entryBytes e w ∧
    (w % 256 = 255 → engineTakes s = true → s.cellar.held18 = true → StoreWaits t (224 + w % 4096 / 256) 8 3) := by
  intro w t
  obtain ⟨u, hu⟩ : ∃ u, u = entryTaken s r := ⟨_, rfl⟩
  have hw : get1 u BBOX.WR_SEQ 0 = w := by rw [hu]; rfl
  obtain ⟨v, hv⟩ : ∃ v, v = writeEntry u e := ⟨_, rfl⟩
  have ht : t = { v with jrn := t.jrn } := by
    have h1 : t = pumpHeld 64 v := by rw [hv, hu]; exact drainOne_eq h
    rw [h1]
    exact pumpHeld_only 64 v
  obtain ⟨hseq, hidx⟩ := entryPlaced_shows u e
  obtain ⟨hqueue, hheld, -, -, -⟩ := entryPlaced_units u e
  obtain ⟨hmem, hjrn, hdown⟩ := writeEntry_units u e
  rw [← hv] at hmem hjrn hdown
  have hkeeps : Keeps [BBOX.WR_SEQ, BBOX.WR_IDX, BBOX.ENTRY_CNT] v t := by rw [ht]; exact .of_units rfl rfl
  have hafter : ∀ f ∈ [BBOX.WR_SEQ, BBOX.WR_IDX, BBOX.ENTRY_CNT], get1 t f 0 = get1 (entryCounted u e) f 0 := fun f hf =>
    (hkeeps.reads f hf 0).trans (hv ▸ (writeEntry_reads u e).reads f hf 0)
  have hcounted := entryCounted_reads u e
  have hjq : v.jrn.queue = r := by rw [hjrn, hqueue, hu]; rfl
  have hjh : v.jrn.held = s.jrn.held := by rw [hjrn, hheld, hu]; rfl
  have hlen' : r.length ≤ 63 := by
    rw [h, List.length_cons] at hlen
    omega
  have hpump : Pumped v t := by
    have h1 : t = pumpHeld 64 v := by rw [hv, hu]; exact drainOne_eq h
    rw [h1]
    exact pumpHeld_pumped 64 (by rw [hjq]; omega) (by omega)
  refine ⟨?_, hpump.full, ?_, ?_, ?_, ?_, ?_, fun hlast htakes h18 => ?_⟩
  · rw [hpump.order, hjq, hjh]
  · rw [ht]
    exact hdown.trans (by rw [hu]; rfl)
  · rw [hafter _ (by decide), hcounted.reads _ (by decide), hseq, hw]
  · rw [hafter _ (by decide), hcounted.reads _ (by decide), hidx, hw]
  · have hc : Counted u t BBOX.ENTRY_CNT 0 0 1 := (hafter _ (by decide)).trans (entryCounted_count u e)
    exact counted_of_regs hc (by rw [hu]; rfl) (by rw [hu]; rfl)
  · have hbytes := entryPlaced_bytes u e
    rw [hw] at hbytes
    refine (memBytes_of_mem ?_ _ _).trans hbytes
    rw [ht, ← hmem]
  · have hs := writeEntry_stores (s := u) (e := e) (by rw [hw]; exact hlast) (by rw [hu]; exact htakes) (by rw [hu]; exact h18)
    rw [hw, ← hv] at hs
    rw [ht]
    exact hs

theorem holdLost_held {s : State} {x : Nat × Nat} {r : List (Nat × Nat)} (h : s.jrn.lost = x :: r) :
    holdLost s = { s with jrn := { s.jrn with held := s.jrn.held ++ [lostEntry x], lost := r } } := by
  simp [holdLost, h]

theorem holdLost_none {s : State} (h : s.jrn.lost = []) : holdLost s = s := by
  simp [holdLost, h]

/-- RD_SEQ as the host writes it, with its crossing (R575). -/
theorem rdSeqWrite_shows (s : State) {v : Nat} (hv : v < 2 ^ 32) :
    get1 (rdSeqWrite s v) BBOX.RD_SEQ 0 = v ∧ get1 (rdSeqWrite s v) BBOX.WR_SEQ 0 = get1 s BBOX.WR_SEQ 0 ∧
    (belowWm s = true → get1 s BBOX.WM 0 ≤ unread (rdSeqWrite s v) → Raised (rdSeqWrite s v) .bbox 0 0) := by
  obtain ⟨u, hu⟩ : ∃ u : State, u = { set1 s BBOX.RD_SEQ 0 v with jrn := { s.jrn with owNext := none } } := ⟨_, rfl⟩
  have heq : rdSeqWrite s v = unreadCross (belowWm s) u := by
    rw [hu]
    rfl
  have hrd : get1 u BBOX.RD_SEQ 0 = v := by
    rw [hu]
    exact getF_setF_fits (f := BBOX.RD_SEQ) (by decide) hv s 0 0 0
  have hwr : get1 u BBOX.WR_SEQ 0 = get1 s BBOX.WR_SEQ 0 := by
    rw [hu]
    exact getF_setF_place (f := BBOX.RD_SEQ) (g := BBOX.WR_SEQ) rfl (by decide) s 0 v
  have hwm : get1 u BBOX.WM 0 = get1 s BBOX.WM 0 := by
    rw [hu]
    exact getF_setF_place (f := BBOX.RD_SEQ) (g := BBOX.WM) rfl (by decide) s 0 v
  have hcross : Keeps [BBOX.RD_SEQ, BBOX.WR_SEQ] u (rdSeqWrite s v) := by
    rw [heq]
    exact .evtIf (by decide) _ _ .bbox 0 0
  have hr := hcross.reads BBOX.RD_SEQ (by decide) 0
  have hw := hcross.reads BBOX.WR_SEQ (by decide) 0
  refine ⟨hr.trans hrd, hw.trans hwr, fun hbelow hle => ?_⟩
  have hun : unread (rdSeqWrite s v) = unread u := by
    unfold unread
    rw [hr, hw]
  rw [heq, unreadCross, evtIf, if_pos (by rw [hbelow, hwm, ← hun]; simpa using hle)]
  exact raised_evt (by decide) ..

/-- The window's counts gone, and an entry held for each code that it suppressed. -/
def windowEnded (s : State) : State :=
  { s with jrn := { s.jrn with held := s.jrn.held ++ s.jrn.supp.map (suppressedEntry s), counts := [], supp := [] } }

/-- The entries that Leaf has written in the second of this frame. -/
def leafJournalled (s : State) : Nat := if s.gate.jrn.1 = s.frn / 8000 then s.gate.jrn.2 else 0

theorem gateJournal_range {s : State} {code part data : Nat} (h : leafRuns s = true) (hr : code < 0x800 ∨ 0xFFE < code ∨ 4 ≤ part) :
    gateJournal s code part data = gateRefuse s 9 1 :=
  (if_neg (by simp [h])).trans (if_pos hr)

theorem gateJournal_rate {s : State} {code part data : Nat} (h : leafRuns s = true) (hr : 0x800 ≤ code ∧ code ≤ 0xFFE ∧ part < 4)
    (hfull : 64 ≤ leafJournalled s) : gateJournal s code part data = gateRefuse s 9 5 :=
  (if_neg (by simp [h])).trans ((if_neg (by omega)).trans (if_pos hfull))

/-- What a call of Leaf for the journal comes to. -/
def leafJournal (s : State) (code part data : Nat) : State :=
  { journal (gateRes s 0) code (some part) 0x40 0 data with
    gate := { (journal (gateRes s 0) code (some part) 0x40 0 data).gate with jrn := (s.frn / 8000, leafJournalled s + 1) } }

/-- The call answered, its code counted. -/
def leafCounted (s : State) (code : Nat) : State :=
  { gateRes s 0 with jrn := { s.jrn with counts := kvSet s.jrn.counts code ((kvGet s.jrn.counts code).getD 0 + 1) } }

theorem gateJournal_journals {s : State} {code part data : Nat} (h : leafRuns s = true) (hr : 0x800 ≤ code ∧ code ≤ 0xFFE ∧ part < 4)
    (hfree : leafJournalled s < 64) : gateJournal s code part data = leafJournal s code part data :=
  (if_neg (by simp [h])).trans ((if_neg (by omega)).trans (if_neg (Nat.not_le.mpr hfree)))

/-- An entry of Leaf's: written, counted lost, or counted as suppressed (R565, R566). -/
theorem leafJournal_shows {s : State} {code part data : Nat} (hc : 0x800 ≤ code) (hd : data < 2 ^ 32) :
    (leafJournal s code part data).gate.res = 0 ∧ (leafJournal s code part data).gate.jrn = (s.frn / 8000, leafJournalled s + 1) ∧
    ((kvGet s.jrn.counts code).getD 0 < 256 →
      kvGet (leafJournal s code part data).jrn.counts code = some ((kvGet s.jrn.counts code).getD 0 + 1)) ∧
    ((kvGet s.jrn.counts code).getD 0 < 256 → s.jrn.queue.length < 64 →
      (leafJournal s code part data).jrn.queue = s.jrn.queue ++ [leafEntry s code part data] ∧ (leafJournal s code part data).regs = s.regs) ∧
    ((kvGet s.jrn.counts code).getD 0 < 256 → s.jrn.queue.length = 64 →
      (leafJournal s code part data).jrn.queue = s.jrn.queue ∧ Counted s (leafJournal s code part data) BBOX.QLOST_CNT 0 0 1 ∧
      kvGet (leafJournal s code part data).jrn.lost (s.frn % 2 ^ 48) = some ((kvGet s.jrn.lost (s.frn % 2 ^ 48)).getD 0 + 1)) ∧
    (256 ≤ (kvGet s.jrn.counts code).getD 0 →
      (leafJournal s code part data).jrn.queue = s.jrn.queue ∧ Counted s (leafJournal s code part data) BBOX.SUPPRESS_CNT 0 0 1 ∧
      kvGet (leafJournal s code part data).jrn.supp code = some ((kvGet s.jrn.supp code).getD 0 + 1)) := by
  refine ⟨?_, rfl, fun h => ?_, fun h hroom => ?_, fun h hfull => ?_, fun h => journal_suppressed (s := gateRes s 0) hc h⟩
  · show (journal (gateRes s 0) code (some part) 0x40 0 data).gate.res = 0
    simp [cite @journal_keeps, gateRes]
  all_goals
    have heq := journal_counted (s := gateRes s 0) (part := part) hc hd h
    unfold leafJournal
    rw [heq]
  · exact (congrArg (kvGet · code) (enqueue_counts ..)).trans (kvGet_kvSet_same ..)
  · have hput := enqueue_room (s := leafCounted s code) hroom (leafEntry s code part data)
    refine ⟨?_, ?_⟩
    · show (enqueue (leafCounted s code) (leafEntry s code part data)).jrn.queue = _
      rw [hput]
      rfl
    · show (enqueue (leafCounted s code) (leafEntry s code part data)).regs = _
      rw [hput]
      rfl
  · exact enqueue_full (s := leafCounted s code) hfull (leafEntry s code part data)

/-- Settles O55: Leaf's entries by their bounds, the writer, what is held beside the queue, and the host's mark. -/
theorem journalAndBlackBox : Obligations.JournalAndBlackBox := by
  intro s hinv
  have hlen := hinv.jrn
  refine ⟨fun code part data hd => ?_, fun e r h => ⟨_, rfl, drainOne_shows hlen h⟩, fun h => ?_, ⟨fun x r h => ?_, fun h => ?_, fun h => ?_⟩,
    fun h => if_neg (by simp [h]), fun v hv => ⟨rdSeqWrite s v, if_pos hv, rdSeqWrite_shows s hv⟩⟩
  · intro ranged used seen
    have hexec : exec (.journal code part data) s = .next (gateJournal s code part data) := if_pos hd
    rw [hexec]
    refine ⟨fun hrun => congrArg Host.Outcome.next (if_pos (by simp [hrun])), fun hrun hr => ⟨_, rfl, ?_⟩, fun hrun hr hfull => ⟨_, rfl, ?_⟩,
      fun hrun hr hfree => ⟨_, rfl, ?_⟩⟩
    · rw [gateJournal_range hrun (by omega)]
      exact ⟨gateRefuse_refused s (by decide) (by decide), by simp [cite @gateRefuse_keeps]⟩
    · rw [gateJournal_rate hrun hr hfull]
      exact ⟨gateRefuse_refused s (by decide) (by decide), by simp [cite @gateRefuse_keeps]⟩
    · rw [gateJournal_journals hrun hr hfree]
      exact leafJournal_shows hr.1 hd
  · have hq : (rootUp s).jrn.queue = [] := h
    refine congrArg Host.Outcome.next ?_
    unfold drainOne
    rw [hq]
    rfl
  · have hpump := pumpHeld_pumped 64 (s := holdLost s) (by rw [holdLost_held h]; exact hlen) (by omega)
    rw [holdLost_held h] at hpump
    refine ⟨_, rfl, ?_, ?_, ?_, ?_⟩
    all_goals rw [holdLost_held h]
    · exact hpump.lost
    · exact hpump.order.trans (by simp)
    · exact hpump.full
    · exact pumpHeld_only 64 _
  · have hpump := pumpHeld_pumped 64 (s := s) hlen (by omega)
    refine ⟨_, rfl, ?_, ?_, ?_, ?_⟩
    all_goals rw [holdLost_none h]
    · exact hpump.lost.trans h
    · exact hpump.order.trans (List.append_nil _).symm
    · exact hpump.full
    · exact pumpHeld_only 64 s
  · have hpump := pumpHeld_pumped 64 (s := windowEnded s) hlen (by omega)
    exact ⟨suppressionEnd s, if_pos h, hpump.counts, hpump.supp, hpump.order.trans (by simp [windowEnded]), hpump.full, pumpHeld_only 64 (windowEnded s)⟩

end Sys2Proof.Machine

/-! Ethernet ports (R386 to R406, R414, R415). -/

namespace Sys2Proof.Machine

/-! ### A field with an index as a field of its own -/

/-- A field at one of its indices. -/
def Fld.at (f : Fld) (k : Nat) : Fld := { f with off := f.off + k * f.s1, s1 := 0 }

theorem fldKey_at (f : Fld) (n k : Nat) : fldKey (Fld.at f k) n 0 0 = fldKey f n k 0 := by
  simp [fldKey, fldAddr, Fld.at, Nat.add_assoc]

theorem getF_cell {f : Fld} (hf : f.acc ≠ .lk) (s : State) (n k j : Nat) :
    getF s f n k j = (kvGet s.regs (fldKey f n k j)).getD (fldReset f n k) := by
  unfold getF
  split
  · next h => exact absurd h hf
  · rfl

theorem get1_at {f : Fld} (hf : f.acc ≠ .lk) (s : State) (n k : Nat) : get1 s (Fld.at f k) n = getF s f n k 0 := by
  have hreset : fldReset (Fld.at f k) n 0 = fldReset f n k := (if_pos (.inr hf)).trans (if_pos (.inr hf)).symm
  rw [get1, getF_cell hf, getF_cell (f := Fld.at f k) hf, fldKey_at, hreset]

/-- A locked field reads what the policy says. -/
theorem getF_lk {f : Fld} (hf : f.acc = .lk) {s t : State} (h : t.pol = s.pol) (n k j : Nat) : getF t f n k j = getF s f n k j := by
  unfold getF
  rw [hf, h]

theorem Keeps.readsAt {fs : List Fld} {s t : State} (h : Keeps fs s t) {f : Fld} {k : Nat} (hf : f.acc ≠ .lk) (hk : Fld.at f k ∈ fs) (n : Nat) :
    getF t f n k 0 = getF s f n k 0 := by
  rw [← get1_at hf, ← get1_at hf]
  exact h.reads _ hk n

/-! ### The states of the PTP ports -/

/-- Whether a write of the state of a PTP port, and its events, leave a field. -/
def stateFree (g : Fld) : Bool := (List.range 4).all (fun p => Fld.apart PTPTS.STATE_PORT p 0 g) && Fld.lowPlain g 0 0

theorem Keeps.ptpEvt {fs : List Fld} (h : fs.all (Fld.lowPlain · 0 0) = true) (s : State) (n p bit : Nat) : Keeps fs s (ptpEvt s n p bit) :=
  (Keeps.evt h s .ptpts n bit).after_evt h

theorem stateFree_plain {fs : List Fld} (h : fs.all stateFree = true) : fs.all (Fld.lowPlain · 0 0) = true := by
  simp only [List.all_eq_true, stateFree, Bool.and_eq_true] at h ⊢
  exact fun g hg => (h g hg).2

theorem Keeps.setPtpPort {fs : List Fld} (h : fs.all stateFree = true) {p : Nat} (hp : p < 4) (s : State) (n v : Nat) :
    Keeps fs s (setPtpPort s n p v) := by
  have hevt : ∀ p < 4, Fld.apart PTPTS.STATE_PORT p 0 (HDR.EVT .ptpts) = true := by decide
  have hplain := stateFree_plain h
  simp only [List.all_eq_true, stateFree, Bool.and_eq_true, List.mem_range] at h
  unfold Machine.setPtpPort
  exact .ite (.refl _ _) ((Keeps.setF ⟨List.all_eq_true.mpr fun g hg => (h g hg).1 p hp, hevt p hp⟩ s n v).trans (.ptpEvt hplain ..))

theorem portInsts_lt {s : State} {n p : Nat} (h : p ∈ portInsts s n) : p < 4 := List.mem_range.mp (List.mem_filter.mp h).1

theorem Keeps.portStates {fs : List Fld} (h : fs.all stateFree = true) (s : State) (n v : Nat) : Keeps fs s (portStates s n v) :=
  foldl_rel (R := Keeps fs) (.refl fs) (fun _ _ _ => .trans) (fun t _ hp => .setPtpPort h (portInsts_lt hp) t n v) s

theorem setPtpPort_state {p v : Nat} (hp : p < 4) (hv : v < 2 ^ 4) (s : State) (n : Nat) :
    getF (setPtpPort s n p v) PTPTS.STATE_PORT n p 0 = v := by
  unfold setPtpPort
  split
  · next h => exact h
  · have hk : Keeps [Fld.at PTPTS.STATE_PORT p] (setF s PTPTS.STATE_PORT n p 0 v) (ptpEvt (setF s PTPTS.STATE_PORT n p 0 v) n p 2) := by
      refine .ptpEvt ?_ ..
      interval_cases p <;> decide
    exact (hk.readsAt (by decide) List.mem_cons_self n).trans (getF_setF_fits (by decide) hv s n p 0)

theorem setPtpPort_other {p q : Nat} (hp : p < 4) (hq : q < 4) (hne : q ≠ p) (s : State) (n v : Nat) :
    getF (setPtpPort s n q v) PTPTS.STATE_PORT n p 0 = getF s PTPTS.STATE_PORT n p 0 := by
  have hplace : ∀ p < 4, ∀ q < 4, q ≠ p → Fld.apart PTPTS.STATE_PORT q 0 (Fld.at PTPTS.STATE_PORT p) = true ∧
    Fld.apart PTPTS.STATE_PORT q 0 (HDR.EVT .ptpts) = true ∧ Fld.lowPlain (Fld.at PTPTS.STATE_PORT p) 0 0 = true := by decide
  obtain ⟨h1, h2, h3⟩ := hplace p hp q hq hne
  have hk : Keeps [Fld.at PTPTS.STATE_PORT p] s (setPtpPort s n q v) := by
    unfold setPtpPort
    exact .ite (.refl _ _) ((Keeps.setF ⟨by simpa using h1, h2⟩ s n v).trans (.ptpEvt (by simpa using h3) ..))
  exact hk.readsAt (by decide) List.mem_cons_self n

/-- Every PTP port on a port takes the state. -/
theorem portStates_state {s : State} {n v p : Nat} (hv : v < 2 ^ 4) (hp : p ∈ portInsts s n) :
    getF (portStates s n v) PTPTS.STATE_PORT n p 0 = v := by
  have hp4 := portInsts_lt hp
  have hstep : ∀ t, ∀ q ∈ portInsts s n, getF t PTPTS.STATE_PORT n p 0 = v → getF (setPtpPort t n q v) PTPTS.STATE_PORT n p 0 = v := fun t q hq ht => by
    by_cases e : q = p
    · rw [e]
      exact setPtpPort_state hp4 hv t n
    · rw [setPtpPort_other hp4 (portInsts_lt hq) e, ht]
  unfold portStates
  obtain ⟨a, b, hab⟩ := List.append_of_mem hp
  rw [hab] at hstep ⊢
  rw [List.foldl_append, List.foldl_cons]
  exact foldl_rel (R := fun t u => getF t PTPTS.STATE_PORT n p 0 = v → getF u PTPTS.STATE_PORT n p 0 = v) (fun _ h => h) (fun _ _ _ h g => g ∘ h)
    (fun t q hq => hstep t q (by simp [hq])) _ (setPtpPort_state hp4 hv _ n)

theorem instOn_of_pol {s t : State} (h : t.pol = s.pol) (n p : Nat) : instOn t n p = instOn s n p := by
  unfold instOn isOpen
  rw [h, getF_lk rfl h]

theorem portInsts_of_pol {s t : State} (h : t.pol = s.pol) (n : Nat) : portInsts t n = portInsts s n := by
  unfold portInsts
  simp only [instOn_of_pol h]

/-! ### Links -/

/-- The link of a port and what falls with it. -/
def linkLow (s : State) (n : Nat) : State := set1 (set1 (set1 s ETH.STATUS_LINK n 0) ETH.STATUS_PCS_LOCK n 0) ETH.STATUS_TS_VALID n 0

/-- The fall of a link is raised and counted. -/
def linkCounted (s : State) (n : Nat) : State := addCnt (evt (linkLow s n) .eth n 0) ETH.LINK_CNT n 0 1

/-- And journalled. -/
def linkLost (s : State) (n cause : Nat) : State :=
  journalPg (modChan (linkCounted s n) (8 + n) fun u => { u with dead := true }) 0x070 none .eth n (2 * cause)

theorem linkDown_eq (s : State) (n cause v : Nat) :
    linkDown s n cause v = if !portUp (portStates s n v) n then portStates s n v else linkLost (portStates s n v) n cause := rfl

/-- The fields of a port's link. -/
def linkFlds : List Fld := [ETH.STATUS_LINK, ETH.STATUS_PCS_LOCK, ETH.STATUS_TS_VALID, ETH.LINK_CNT, ETH.STATUS_SPEED_BAD, ETH.CTRL_ENABLE]

theorem linkLow_shows (s : State) (n : Nat) : get1 (linkLow s n) ETH.STATUS_LINK n = 0 ∧ get1 (linkLow s n) ETH.STATUS_PCS_LOCK n = 0 ∧
    get1 (linkLow s n) ETH.STATUS_TS_VALID n = 0 ∧ get1 (linkLow s n) ETH.LINK_CNT n = get1 s ETH.LINK_CNT n := by
  refine ⟨?_, ?_, ?_, ?_⟩ <;> simp (disch := decide) only [linkLow, get1, set1, getF_setF_place, getF_setF_same] <;> rfl

theorem linkCounted_keeps {fs : List Fld} (h : fs.all Keeps.offJournal = true) (s : State) (n cause : Nat) :
    Keeps fs (linkCounted s n) (linkLost s n cause) :=
  .trans (t := modChan (linkCounted s n) (8 + n) fun u => { u with dead := true }) (.modChan ..) (.journalPg h ..)

theorem linkLost_keeps_low {fs : List Fld} (h : fs.all Keeps.offJournal = true) (hcnt : fs.all (Fld.apart ETH.LINK_CNT 0 0) = true) (s : State)
    (n cause : Nat) : Keeps fs (linkLow s n) (linkLost s n cause) := by
  have hplain : fs.all (Fld.lowPlain · 0 0) = true := by
    simp only [List.all_eq_true, Keeps.offJournal, Bool.and_eq_true] at h ⊢
    exact fun g hg => (h g hg).2
  have h1 : Keeps fs (linkLow s n) (linkCounted s n) := (Keeps.evt hplain _ .eth n 0).after_addCnt ⟨⟨hcnt, by decide⟩, hplain⟩
  exact h1.trans (linkCounted_keeps h ..)

/-- A link that falls shows it. -/
theorem linkLost_shows (s : State) (n cause : Nat) :
    get1 (linkLost s n cause) ETH.STATUS_LINK n = 0 ∧ get1 (linkLost s n cause) ETH.STATUS_PCS_LOCK n = 0 ∧
    get1 (linkLost s n cause) ETH.STATUS_TS_VALID n = 0 ∧ Counted s (linkLost s n cause) ETH.LINK_CNT n 0 1 ∧ Raised (linkLost s n cause) .eth n 0 := by
  obtain ⟨h1, h2, h3, h4⟩ := linkLow_shows s n
  have hk := linkLost_keeps_low (fs := [ETH.STATUS_LINK, ETH.STATUS_PCS_LOCK, ETH.STATUS_TS_VALID]) (by decide) (by decide) s n cause
  refine ⟨(hk.reads _ (by decide) n).trans h1, (hk.reads _ (by decide) n).trans h2, (hk.reads _ (by decide) n).trans h3, ?_, ?_⟩
  · have hj := linkCounted_keeps (fs := [ETH.LINK_CNT]) (by decide) s n cause
    have hevt : Keeps [ETH.LINK_CNT] (linkLow s n) (evt (linkLow s n) .eth n 0) := .evt (by decide) ..
    have hcnt := getF_addCnt_counter (f := ETH.LINK_CNT) (k := 0) (by decide) rfl (by decide) (evt (linkLow s n) .eth n 0) n 1
    exact (hj.reads _ (by decide) n).trans (hcnt.trans (congrArg (fun x => satTo cntMax (x + 1)) ((hevt.reads _ (by decide) n).trans h4)))
  · have hafter : Keeps [] (evt (linkLow s n) .eth n 0) (linkCounted s n) := .addCnt ⟨⟨rfl, by decide⟩, rfl⟩ ..
    exact (hafter.trans (linkCounted_keeps rfl s n cause)).raised .eth n 0 (by decide) (by decide) (raised_evt (by decide) ..)

/-- What a port shows once its link is down, the PTP ports on it in a state. -/
structure LinkDown (s t : State) (n v : Nat) : Prop where
  down : portUp t n = false
  fell : portUp s n = true → get1 t ETH.STATUS_LINK n = 0 ∧ get1 t ETH.STATUS_PCS_LOCK n = 0 ∧ get1 t ETH.STATUS_TS_VALID n = 0 ∧
    Counted s t ETH.LINK_CNT n 0 1 ∧ Raised t .eth n 0
  states : ∀ p ∈ portInsts s n, getF t PTPTS.STATE_PORT n p 0 = v

/-- The page of the port is as it was while the PTP ports take their states. -/
theorem portStates_eth {fs : List Fld} (hfs : fs.all (fun g => g.page == .eth && g.acc != .lk) = true) (s : State) (n v : Nat) :
    PageKept .eth fs s (portStates s n v) := .of_page hfs (portStates_pg s n v (by decide))

theorem portUp_of_link {s t : State} {n : Nat} (h : get1 t ETH.STATUS_LINK n = get1 s ETH.STATUS_LINK n) : portUp t n = portUp s n := by
  rw [portUp, portUp, bit1, bit1, h]

theorem linkDown_shows (s : State) (n cause : Nat) {v : Nat} (hv : v < 2 ^ 4) : LinkDown s (linkDown s n cause v) n v := by
  have heth := portStates_eth (fs := linkFlds) (by decide) s n v
  have hup : portUp (portStates s n v) n = portUp s n := portUp_of_link (heth.reads _ (by decide) n)
  rw [linkDown_eq]
  by_cases h : portUp s n = true
  · rw [if_neg (by simp [hup, h])]
    obtain ⟨h1, h2, h3, h4, h5⟩ := linkLost_shows (portStates s n v) n cause
    refine ⟨by simp [portUp, bit1, h1], fun _ => ⟨h1, h2, h3, ?_, h5⟩, fun p hp => ?_⟩
    · have hcnt : get1 (portStates s n v) ETH.LINK_CNT n = get1 s ETH.LINK_CNT n := heth.reads _ (by decide) n
      exact h4.trans (congrArg (fun x => satTo cntMax (x + 1)) hcnt)
    · have hp4 := portInsts_lt hp
      have hapart : ∀ p < 4, ([Fld.at PTPTS.STATE_PORT p].all Keeps.offJournal = true ∧ [Fld.at PTPTS.STATE_PORT p].all (Fld.apart ETH.LINK_CNT 0 0) = true) ∧
          ([Fld.at PTPTS.STATE_PORT p].all (Fld.apart ETH.STATUS_LINK 0 0) = true ∧ [Fld.at PTPTS.STATE_PORT p].all (Fld.apart ETH.STATUS_PCS_LOCK 0 0) = true ∧
          [Fld.at PTPTS.STATE_PORT p].all (Fld.apart ETH.STATUS_TS_VALID 0 0) = true) := by decide
      obtain ⟨⟨ha, hb⟩, hc, hd, he⟩ := hapart p hp4
      have hlow : Keeps [Fld.at PTPTS.STATE_PORT p] (portStates s n v) (linkLow (portStates s n v) n) :=
        ((Keeps.set1 ⟨hc, by decide⟩ _ n 0).after_set1 ⟨hd, by decide⟩).after_set1 ⟨he, by decide⟩
      exact ((hlow.trans (linkLost_keeps_low ha hb _ n cause)).readsAt (by decide) List.mem_cons_self n).trans (portStates_state hv hp)
  · rw [if_pos (by simpa [hup] using h)]
    exact ⟨hup.trans (by simpa using h), fun hs => absurd hs h, fun p hp => portStates_state hv hp⟩

/-- The fall of a link seen from a state before it that shows the same link. -/
theorem LinkDown.of_kept {s u t : State} {n v : Nat} (h : LinkDown u t n v) (hk : Keeps [ETH.STATUS_LINK, ETH.LINK_CNT] s u) (hp : u.pol = s.pol) :
    LinkDown s t n v := by
  have hup : portUp u n = portUp s n := portUp_of_link (hk.reads _ (by decide) n)
  refine ⟨h.down, fun hs => ?_, fun p hs => h.states p (by rwa [portInsts_of_pol hp])⟩
  obtain ⟨h1, h2, h3, h4, h5⟩ := h.fell (hup.trans hs)
  exact ⟨h1, h2, h3, h4.trans (congrArg (fun x => satTo cntMax (x + 1)) (hk.reads ETH.LINK_CNT (by decide) n)), h5⟩

/-! ### Enabling a port -/

theorem portMode_of_pol {s t : State} (h : t.pol = s.pol) (n : Nat) : portMode t n = portMode s n :=
  getF_lk (f := ETH.MODE_MODE) rfl h n 0 0

theorem enable_reads (s : State) (n : Nat) (b : Bool) : get1 (set1 s ETH.CTRL_ENABLE n (b2n b)) ETH.CTRL_ENABLE n = b2n b :=
  getF_setF_fits (f := ETH.CTRL_ENABLE) (by decide) (by cases b <;> decide) s n 0 0

theorem portEnabled_set (s : State) (n : Nat) : portEnabled (set1 s ETH.CTRL_ENABLE n 1) n = (portMode s n != 0) := by
  unfold portEnabled bit1
  rw [show get1 (set1 s ETH.CTRL_ENABLE n 1) ETH.CTRL_ENABLE n = 1 from enable_reads s n true, portMode_of_pol (s := s) (by simp [cite @set1_keeps])]
  exact Bool.true_and _

/-- A port that was off starts, its PTP ports initializing with it as FAULTY until the link is up (R415). -/
theorem portEnableWrite_starts {s : State} {n : Nat} (hoff : portEnabled s n = false) (hmode : portMode s n ≠ 0) :
    get1 (portEnableWrite s n true) ETH.CTRL_ENABLE n = 1 ∧ ∀ p ∈ portInsts s n, getF (portEnableWrite s n true) PTPTS.STATE_PORT n p 0 = 1 := by
  have heq : portEnableWrite s n true = portStates (set1 s ETH.CTRL_ENABLE n 1) n 1 := by
    have hon : portEnabled (set1 s ETH.CTRL_ENABLE n 1) n = true := by simpa [portEnabled_set] using hmode
    unfold portEnableWrite
    dsimp only
    rw [if_neg (by decide), show b2n true = 1 from rfl, hon, hoff]
    rfl
  rw [heq]
  have hk := portStates_eth (fs := [ETH.CTRL_ENABLE]) (by decide) (set1 s ETH.CTRL_ENABLE n 1) n 1
  exact ⟨(hk.reads _ (by decide) n).trans (enable_reads s n true), fun p hp => portStates_state (by decide) (by
    rwa [portInsts_of_pol (t := set1 s ETH.CTRL_ENABLE n 1) (s := s) (by simp [cite @set1_keeps])])⟩

theorem portEnableWrite_stays {s : State} {n : Nat} (h : portEnabled s n = true ∨ portMode s n = 0) :
    portEnableWrite s n true = set1 s ETH.CTRL_ENABLE n 1 := by
  unfold portEnableWrite
  dsimp only
  rw [if_neg (by decide), show b2n true = 1 from rfl, portEnabled_set]
  refine if_neg ?_
  rcases h with h | h <;> simp [h]

theorem linkDown_enable (s : State) (n cause v : Nat) : get1 (linkDown s n cause v) ETH.CTRL_ENABLE n = get1 s ETH.CTRL_ENABLE n := by
  have hk := portStates_eth (fs := [ETH.CTRL_ENABLE]) (by decide) s n v
  rw [linkDown_eq]
  split
  · exact hk.reads _ (by decide) n
  · have hlow : Keeps [ETH.CTRL_ENABLE] (portStates s n v) (linkLow (portStates s n v) n) :=
      ((Keeps.set1 (by decide) _ n 0).after_set1 (by decide)).after_set1 (by decide)
    exact ((hlow.trans (linkLost_keeps_low (by decide) (by decide) _ n cause)).reads _ (by decide) n).trans (hk.reads _ (by decide) n)

/-- A port that is disabled has no link (R414). -/
theorem portDisable_shows (s : State) (n : Nat) :
    get1 (portEnableWrite s n false) ETH.CTRL_ENABLE n = 0 ∧ LinkDown s (portEnableWrite s n false) n 2 := by
  have heq : portEnableWrite s n false = linkDown (set1 s ETH.CTRL_ENABLE n 0) n 1 2 := rfl
  rw [heq]
  refine ⟨(linkDown_enable ..).trans (enable_reads s n false), (linkDown_shows _ n 1 (by decide)).of_kept (.set1 (by decide) ..) (by simp [cite @set1_keeps])⟩

/-- Whether a port can negotiate: enabled, in a mode that does. -/
def mayNegotiate (s : State) (n : Nat) : Prop :=
  portEnabled s n = true ∧ (portMode s n = 2 ∨ (portMode s n = 1 ∧ get1 s ETH.MODE_AN n = 1))

theorem restartAn_acts {s : State} {n : Nat} (h : mayNegotiate s n) : restartAn s n = modEth s n fun u => { u with an := true } :=
  if_pos (by simpa [mayNegotiate] using h)

theorem restartAn_stays {s : State} {n : Nat} (h : ¬ mayNegotiate s n) : restartAn s n = s :=
  if_neg (by simpa [mayNegotiate] using h)

/-- The fall of a link leaves the word's verdict. -/
theorem linkDown_speed (s : State) (n : Nat) : get1 (linkDown (set1 s ETH.STATUS_SPEED_BAD n 1) n 0 1) ETH.STATUS_SPEED_BAD n = 1 := by
  obtain ⟨v, hv⟩ : ∃ v, v = set1 s ETH.STATUS_SPEED_BAD n 1 := ⟨_, rfl⟩
  have hset : get1 v ETH.STATUS_SPEED_BAD n = 1 := hv ▸ getF_setF_fits (f := ETH.STATUS_SPEED_BAD) (by decide) (by decide) s n 0 0
  have hk := portStates_eth (fs := [ETH.STATUS_SPEED_BAD]) (by decide) v n 1
  have hspeed := (hk.reads _ (by decide) n).trans hset
  rw [← hv, linkDown_eq]
  split
  · exact hspeed
  · have hlow : Keeps [ETH.STATUS_SPEED_BAD] (portStates v n 1) (linkLow (portStates v n 1) n) :=
      ((Keeps.set1 (by decide) _ n 0).after_set1 (by decide)).after_set1 (by decide)
    exact ((hlow.trans (linkLost_keeps_low (by decide) (by decide) _ n 0)).reads _ (by decide) n).trans hspeed

/-! ### The PCS -/

/-- Whether a lock of the PCS brings the link up. -/
def mayLock (s : State) (n : Nat) : Prop := portEnabled s n = true ∧ get1 s PWR.STATUS_PF 0 ≠ 1 ∧ txclkStopped s n = false

theorem pcsLocks_stays {s : State} {n : Nat} (h : ¬ mayLock s n) (ok : Bool) : pcsLocks s n ok = s := by
  refine if_pos ?_
  unfold mayLock at h
  by_contra hc
  simp only [Bool.or_eq_true, Bool.not_eq_true', not_or, bit1, beq_iff_eq] at hc
  exact h ⟨by simpa using hc.1.1, hc.1.2, by simpa using hc.2⟩

theorem pcsLocks_wrongSpeed {s : State} {n : Nat} (h : mayLock s n) (hmode : portMode s n = 2) :
    pcsLocks s n false = linkDown (set1 s ETH.STATUS_SPEED_BAD n 1) n 0 1 := by
  obtain ⟨h1, h2, h3⟩ := h
  exact (if_neg (by simp [h1, h2, h3, bit1])).trans (if_pos ⟨hmode, rfl⟩)

/-- The port's calibration begins. -/
def lockShown (s : State) (n : Nat) : State :=
  set1 (set1 (set1 (set1 s ETH.STATUS_SPEED_BAD n 0) ETH.STATUS_PCS_LOCK n 1) ETH.STATUS_TS_VALID n 0) ETH.STATUS_CAL_DEFAULT n 0

/-- The PTP ports start, the recovered clock without a baseline. -/
def lockStarted (s : State) (n : Nat) : State :=
  portStates (modChan (dropBaseline (modEth (lockShown s n) n fun u => { u with calFrom := s.frn, an := false }) (8 + n)) (8 + n)
    fun u => { u with dead := false }) n 0

theorem pcsLocks_locks {s : State} {n : Nat} (h : mayLock s n) {ok : Bool} (hok : portMode s n = 2 → ok = true) :
    pcsLocks s n ok = if portUp (lockStarted s n) n then lockStarted s n
      else journalPg (evt (set1 (lockStarted s n) ETH.STATUS_LINK n 1) .eth n 1) 0x070 none .eth n 1 := by
  obtain ⟨h1, h2, h3⟩ := h
  refine (if_neg (by simp [h1, h2, h3, bit1])).trans (if_neg ?_)
  rintro ⟨hmode, hbad⟩
  simp [hok hmode] at hbad

/-- The fields of a port that a lock shows. -/
def lockFlds : List Fld := [ETH.STATUS_PCS_LOCK, ETH.STATUS_TS_VALID, ETH.STATUS_SPEED_BAD, ETH.STATUS_LINK]

theorem lockStarted_eth (s : State) (n : Nat) : PageKept .eth lockFlds (lockShown s n) (lockStarted s n) := by
  have h1 : PageKept .eth lockFlds (lockShown s n) (modEth (lockShown s n) n fun u => { u with calFrom := s.frn, an := false }) :=
    .of_keeps (by decide) (.modEth ..)
  exact (h1.trans ((PageKept.of_page (by decide) (dropBaseline_pg _ _ (by decide))).trans (.of_keeps (by decide) (.modChan ..)))).trans
    (portStates_eth (by decide) ..)

theorem lockShown_shows (s : State) (n : Nat) : get1 (lockShown s n) ETH.STATUS_PCS_LOCK n = 1 ∧ get1 (lockShown s n) ETH.STATUS_TS_VALID n = 0 ∧
    get1 (lockShown s n) ETH.STATUS_SPEED_BAD n = 0 ∧ get1 (lockShown s n) ETH.STATUS_LINK n = get1 s ETH.STATUS_LINK n := by
  refine ⟨?_, ?_, ?_, ?_⟩ <;> simp (disch := decide) only [lockShown, get1, set1, getF_setF_place, getF_setF_same] <;> rfl

theorem lockShown_keeps (s : State) (n : Nat) : OnlyRegs s (lockShown s n) := by simp [OnlyRegs, lockShown, cite @set1_keeps]

theorem lockStarted_eths (s : State) (n : Nat) :
    (lockStarted s n).eths = (modEth (lockShown s n) n fun u => { u with calFrom := s.frn, an := false }).eths := by
  simp [lockStarted, cite @portStates_keeps, cite @modChan_keeps, cite @dropBaseline_keeps]

theorem lockStarted_states {s : State} {n p : Nat} (hp : p ∈ portInsts s n) : getF (lockStarted s n) PTPTS.STATE_PORT n p 0 = 0 := by
  refine portStates_state (by decide) ?_
  rwa [portInsts_of_pol (s := s) (by simp [cite @modChan_keeps, cite @dropBaseline_keeps, cite @modEth_keeps, cite @lockShown_keeps])]

/-- The link comes up and calibration begins (R405, R414, R415). -/
theorem pcsLocks_shows {s : State} (hs : Shaped s) {n : Nat} (hn : n < 2) (h : mayLock s n) {ok : Bool} (hok : portMode s n = 2 → ok = true) :
    get1 (pcsLocks s n ok) ETH.STATUS_LINK n = 1 ∧ get1 (pcsLocks s n ok) ETH.STATUS_PCS_LOCK n = 1 ∧
    get1 (pcsLocks s n ok) ETH.STATUS_TS_VALID n = 0 ∧ get1 (pcsLocks s n ok) ETH.STATUS_SPEED_BAD n = 0 ∧
    (ethOf (pcsLocks s n ok) n).calFrom = s.frn ∧ (ethOf (pcsLocks s n ok) n).an = false ∧
    (∀ p ∈ portInsts s n, getF (pcsLocks s n ok) PTPTS.STATE_PORT n p 0 = 0) ∧ (portUp s n = false → Raised (pcsLocks s n ok) .eth n 1) := by
  obtain ⟨h1, h2, h3, h4⟩ := lockShown_shows s n
  have hk := lockStarted_eth s n
  have hlock := (hk.reads ETH.STATUS_PCS_LOCK (by decide) n).trans h1
  have hts := (hk.reads ETH.STATUS_TS_VALID (by decide) n).trans h2
  have hspeed := (hk.reads ETH.STATUS_SPEED_BAD (by decide) n).trans h3
  have hup : portUp (lockStarted s n) n = portUp s n := portUp_of_link ((hk.reads ETH.STATUS_LINK (by decide) n).trans h4)
  have heth : ethOf (lockStarted s n) n = { ethOf (lockShown s n) n with calFrom := s.frn, an := false } := by
    refine Eq.trans ?_ (ethOf_modEth (s := lockShown s n) (n := n) (by simpa [cite @lockShown_keeps, hs.eths] using hn)
      fun u => { u with calFrom := s.frn, an := false })
    exact congrArg (fun l : List EthU => l.getD n {}) (lockStarted_eths s n)
  have hstates := fun p hp => lockStarted_states (s := s) (n := n) (p := p) hp
  rw [pcsLocks_locks h hok]
  generalize lockStarted s n = v at *
  by_cases hu : portUp s n = true
  · rw [if_pos (hup.trans hu)]
    exact ⟨by simpa [portUp, bit1] using hup.trans hu, hlock, hts, hspeed, by rw [heth], by rw [heth], hstates, fun hd => by simp [hu] at hd⟩
  · rw [if_neg (by simpa [hup] using hu)]
    have hj : ∀ fs : List Fld, fs.all Keeps.offJournal = true → Keeps fs (set1 v ETH.STATUS_LINK n 1)
        (journalPg (evt (set1 v ETH.STATUS_LINK n 1) .eth n 1) 0x070 none .eth n 1) := fun fs hfs =>
      (Keeps.evt (by simp only [List.all_eq_true, Keeps.offJournal, Bool.and_eq_true] at hfs ⊢; exact fun g hg => (hfs g hg).2) _ .eth n 1).trans
        (.journalPg hfs ..)
    have hset : Keeps [ETH.STATUS_PCS_LOCK, ETH.STATUS_TS_VALID, ETH.STATUS_SPEED_BAD] v (set1 v ETH.STATUS_LINK n 1) := .set1 (by decide) v n 1
    have hlast := hset.trans (hj _ (by decide))
    refine ⟨((hj [ETH.STATUS_LINK] (by decide)).reads _ (by decide) n).trans (getF_setF_fits (f := ETH.STATUS_LINK) (by decide) (by decide) v n 0 0),
      (hlast.reads _ (by decide) n).trans hlock, (hlast.reads _ (by decide) n).trans hts, (hlast.reads _ (by decide) n).trans hspeed, ?_, ?_, fun p hp => ?_,
      fun _ => ?_⟩
    · rw [show ethOf (journalPg (evt (set1 v ETH.STATUS_LINK n 1) .eth n 1) 0x070 none .eth n 1) n = ethOf v n from
        congrArg (fun l : List EthU => l.getD n {}) (by simp [cite @journalPg_keeps, cite @evt_keeps, cite @set1_keeps]), heth]
    · rw [show ethOf (journalPg (evt (set1 v ETH.STATUS_LINK n 1) .eth n 1) 0x070 none .eth n 1) n = ethOf v n from
        congrArg (fun l : List EthU => l.getD n {}) (by simp [cite @journalPg_keeps, cite @evt_keeps, cite @set1_keeps]), heth]
    · have hstate : ∀ p < 4, [Fld.at PTPTS.STATE_PORT p].all Keeps.offJournal = true ∧ [Fld.at PTPTS.STATE_PORT p].all (Fld.apart ETH.STATUS_LINK 0 0) = true := by
        decide
      obtain ⟨ha, hb⟩ := hstate p (portInsts_lt hp)
      exact ((Keeps.set1 ⟨hb, by decide⟩ v n 1).trans (hj _ ha)).readsAt (by decide) List.mem_cons_self n |>.trans (hstates p hp)
    · exact (Keeps.journalPg (fs := []) rfl _ ..).raised .eth n 1 (by decide) (by decide) (raised_evt (by decide) ..)

/-! ### Calibration -/

/-- Calibration ends with the timestamps valid (R405, R406). -/
theorem calEnds_shows (s : State) (n : Nat) (rx tx : Int) :
    get1 (calEnds s n rx tx) ETH.STATUS_TS_VALID n = 1 ∧
    get1 (calEnds s n rx tx) ETH.CAL_RX n = ofSigned 32 (baseDelay s n false + if (laneFor s (8 + n)).isSome then rx else 0) % 2 ^ 32 ∧
    get1 (calEnds s n rx tx) ETH.CAL_TX n = ofSigned 32 (baseDelay s n true + if (laneFor s (8 + n)).isSome then tx else 0) % 2 ^ 32 ∧
    get1 (calEnds s n rx tx) ETH.STATUS_CAL_DEFAULT n = b2n (laneFor s (8 + n)).isNone ∧ Raised (calEnds s n rx tx) .eth n 2 ∧
    OnlyCells (cells [(ETH.CAL_RX, n), (ETH.CAL_TX, n), (ETH.STATUS_CAL_DEFAULT, n), (ETH.STATUS_TS_VALID, n)] ++ evtCells .eth n) s (calEnds s n rx tx) := by
  have hbit : ∀ b : Bool, b2n b % 2 ^ 1 = b2n b := by decide
  refine ⟨?_, ?_, ?_, ?_, raised_evt (by decide) .., ?_⟩
  all_goals unfold calEnds; dsimp only
  · simp (disch := decide) only [get1, set1, getF_evt_plain, getF_setF_same]
    rfl
  · simp (disch := decide) only [get1, set1, getF_evt_plain, getF_setF_place, getF_setF_same]
    rfl
  · simp (disch := decide) only [get1, set1, getF_evt_plain, getF_setF_place, getF_setF_same]
    rfl
  · simp (disch := decide) only [get1, set1, getF_evt_plain, getF_setF_place, getF_setF_same]
    rw [Option.not_isSome]
    exact hbit _
  · refine onlyCells_of_onlyRegs (by simp [OnlyRegs, cite @evt_keeps, cite @set1_keeps]) ?_
    exact (((((CellsElse.refl _ _).after_set1 (by simp [cells]) _).after_set1 (by simp [cells]) _).after_set1 (by simp [cells]) _).after_set1
      (by simp [cells]) 1).after_evt (fun k hk => List.mem_append_right _ hk) 2

/-! ### What the close of an instance leaves of its page -/

/-- The fields of an instance block that its close writes. -/
def instWritten : List Fld := [PTPTS.STATE_PORT, PTPTS.STATE_CLOSED, PTPTS.STATE_CAUSE, PTPTS.CLOSE_CNT] ++ instRo

/-- Whether a field of the page is none of them. -/
def closeFree (g : Fld) : Bool :=
  g.page == .ptpts && g.acc != .lk && Fld.lowPlain g 0 0 && instWritten.all fun f => (List.range 4).all fun p => Fld.apart f p 0 g

theorem closeFree_apart {fs : List Fld} (h : fs.all closeFree = true) {f : Fld} (hf : f ∈ instWritten) {p : Nat} (hp : p < 4) :
    fs.all (Fld.apart f p 0) = true := by
  simp only [List.all_eq_true, closeFree, Bool.and_eq_true, List.mem_range] at h ⊢
  exact fun g hg => (h g hg).2 f hf p hp

theorem closeFree_plain {fs : List Fld} (h : fs.all closeFree = true) : fs.all (Fld.lowPlain · 0 0) = true := by
  simp only [List.all_eq_true, closeFree, Bool.and_eq_true] at h ⊢
  exact fun g hg => (h g hg).1.2

theorem closeFree_page {fs : List Fld} (h : fs.all closeFree = true) : fs.all (fun g => g.page == .ptpts && g.acc != .lk) = true := by
  simp only [List.all_eq_true, closeFree, Bool.and_eq_true] at h ⊢
  exact fun g hg => (h g hg).1.1

theorem instWritten_evt : ∀ f ∈ instWritten, f.page = .ptpts ∧ ∀ p < 4, Fld.apart f p 0 (HDR.EVT .ptpts) = true := by decide

section

variable {fs : List Fld} (h : fs.all closeFree = true)
include h

theorem PageKept.instSet {f : Fld} (hf : f ∈ instWritten) {p : Nat} (hp : p < 4) (s : State) (n v : Nat) :
    PageKept .ptpts fs s (setF s f n p 0 v) := by
  obtain ⟨hpage, hevt⟩ := instWritten_evt f hf
  exact .of_keeps (by decide) (.setF ⟨closeFree_apart h hf hp, hpage.symm ▸ hevt p hp⟩ s n v)

theorem PageKept.ptpEvt (s : State) (n p bit : Nat) : PageKept .ptpts fs s (ptpEvt s n p bit) :=
  .of_keeps (by decide) (.ptpEvt (closeFree_plain h) ..)

theorem PageKept.journalPg (s : State) (code : Nat) (part : Option Nat) (q : Page) (inst data : Nat) :
    PageKept .ptpts fs s (journalPg s code part q inst data) := .of_page (closeFree_page h) (by simp)

theorem PageKept.setPtpPort {p : Nat} (hp : p < 4) (s : State) (n v : Nat) : PageKept .ptpts fs s (setPtpPort s n p v) := by
  unfold Machine.setPtpPort
  exact .ite (.refl ..) ((PageKept.instSet h (by decide) hp s n v).trans (.ptpEvt h ..))

theorem PageKept.setParent {p : Nat} (hp : p < 4) (s : State) (n id : Nat) : PageKept .ptpts fs s (setParent s n p id) :=
  (((PageKept.instSet h (f := PTPTS.PARENT_LO) (by decide) hp s n id).trans (.instSet h (f := PTPTS.PARENT_HI) (by decide) hp _ n _)).trans
    (.ptpEvt h _ n p 1)).trans (.journalPg h ..)

theorem PageKept.blockClear {p : Nat} (hp : p < 4) (s : State) (n : Nat) : PageKept .ptpts fs s (blockClear s n p) := by
  have hro : ∀ t, PageKept .ptpts fs t (instRo.foldl (fun t f => setF t f n p 0 f.reset) t) :=
    foldl_rel (R := PageKept .ptpts fs) (fun _ => .refl ..) (fun _ _ _ => .trans) fun t f hf => .instSet h (List.mem_append_right _ hf) hp t n f.reset
  unfold Machine.blockClear
  extract_lets s1 s2
  have h1 : PageKept .ptpts fs s s1 := .ite (.setPtpPort h hp s n 0) (.instSet h (by decide) hp s n 0)
  have h2 : PageKept .ptpts fs s1 s2 := .ite (.setParent h hp s1 n 0) (.refl ..)
  exact (h1.trans h2).trans (hro s2)

theorem PageKept.instClear {p : Nat} (hp : p < 4) (s : State) : PageKept .ptpts fs s (instClear s p) := by
  have hblocks : PageKept .ptpts fs s ((List.range 2).foldl (fun t n => Machine.blockClear t n p) s) := .foldl (fun t n => PageKept.blockClear h hp t n) _ s
  exact hblocks.trans (.of_keeps (by decide) (.modPtp ..))

theorem PageKept.closeShown {p : Nat} (hp : p < 4) (cause : Nat) (s : State) (n : Nat) : PageKept .ptpts fs s (closeShown p cause s n) := by
  have h1 : PageKept .ptpts fs s (setF s PTPTS.STATE_CLOSED n p 0 1) := .instSet h (by decide) hp s n 1
  obtain ⟨u, hu⟩ : ∃ u, u = setF (setF s PTPTS.STATE_CLOSED n p 0 1) PTPTS.STATE_CAUSE n p 0 cause := ⟨_, rfl⟩
  have h2 : PageKept .ptpts fs (setF s PTPTS.STATE_CLOSED n p 0 1) u := hu ▸ .instSet h (by decide) hp _ n cause
  have h3 : Keeps fs u (addCnt u PTPTS.CLOSE_CNT n p 1) :=
    .addCnt ⟨⟨closeFree_apart h (by decide) hp, (instWritten_evt PTPTS.CLOSE_CNT (by decide)).2 p hp⟩, closeFree_plain h⟩ u n 1
  have h4 : PageKept .ptpts fs (addCnt u PTPTS.CLOSE_CNT n p 1) (Machine.closeShown p cause s n) := by
    rw [hu]
    exact .ptpEvt h _ n p 0
  exact ((h1.trans h2).trans (.of_keeps (by decide) h3)).trans h4

/-- The close of an instance leaves the other fields of the page. -/
theorem PageKept.instClose {p : Nat} (hp : p < 4) (s : State) (cause : Nat) : PageKept .ptpts fs s (instClose s p cause) := by
  unfold Machine.instClose
  refine .ite (.refl ..) ?_
  extract_lets ps closes held s1 s2 s3
  have h1 : PageKept .ptpts fs s s1 := .foldl (fun t c => .of_page (closeFree_page h) (pktFail_pg t c (by decide))) _ s
  have h2 : PageKept .ptpts fs s1 s2 := (PageKept.instClear h hp s1).trans (.of_keeps (by decide) (.modPtp ..))
  have h3 : PageKept .ptpts fs s2 s3 := .foldl (fun t n => PageKept.closeShown h hp cause t n) ps s2
  exact ((h1.trans h2).trans h3).trans (.journalPg h ..)

end

/-- A message counted as strange is counted, whether it closes the instance or not (R399). -/
theorem strange_keeps_count {fs : List Fld} (h : fs.all closeFree = true) {p : Nat} (hp : p < 4) (s : State) (f : Fld) (n : Nat) :
    PageKept .ptpts fs (addCnt s f n p 1) (strange s f n p) := by
  unfold strange
  extract_lets s1 bad s2
  have h2 : PageKept .ptpts fs s1 s2 := .of_keeps (by decide) (.modPtp ..)
  exact .ite (h2.trans (.instClose h hp s2 2)) h2

/-! ### Received frames -/

theorem dropClass_lt {s : State} {n c : Nat} {f : EthFrame} (h : dropClass s n f = some c) : c < 9 := by
  unfold dropClass at h
  dsimp only at h
  (repeat' split at h) <;> cases h <;> decide

/-- A frame dropped in a class is counted there alone. -/
theorem ethReceive_dropped {s : State} {n c : Nat} {f : EthFrame} (h : dropClass s n f = some c) : ethReceive s n f = addCnt s ETH.DROP_CNT n c 1 := by
  unfold ethReceive
  rw [h]

theorem drop_counted (s : State) (n : Nat) {c : Nat} (hc : c < 9) : Counted s (addCnt s ETH.DROP_CNT n c 1) ETH.DROP_CNT n c 1 := by
  have hplain : ∀ c < 9, Fld.plain ETH.DROP_CNT c 0 = true := by decide
  exact getF_addCnt_counter (by decide) rfl (hplain c hc) s n 1

theorem drop_cells (s : State) (n c : Nat) :
    OnlyCells (evtCells .eth n ++ [fldKey ETH.DROP_CNT n c 0]) s (addCnt s ETH.DROP_CNT n c 1) := by
  have hpage : ETH.DROP_CNT.page = .eth := rfl
  refine onlyCells_of_onlyRegs (addCnt_keeps ..) ((CellsElse.refl _ s).after_addCnt (f := ETH.DROP_CNT) ?_ ?_ 1)
  · exact List.mem_append_right _ List.mem_cons_self
  · rw [hpage]
    exact fun m hm => List.mem_append_left _ hm

/-- An arriving event message, stamped. -/
def arrived (s : State) (n : Nat) (ev : Bool) : State := if ev then stampRx s n else s

/-- A frame that Leaf gets, counted. -/
def passCounted (s : State) (n : Nat) : State :=
  addCnt (modEth s n fun u => { u with bucket := u.bucket - 4, flood := false }) ETH.RX_CNT n 0 1

/-- And its timestamp. -/
def passed (s : State) (n : Nat) (ev : Bool) (x : Stamp) : State := if ev then fifoPut (passCounted s n) n x else passCounted s n

theorem ethReceive_admitted {s : State} {n : Nat} {f : EthFrame} (h : dropClass s n f = none) : ethReceive s n f =
    if (ethOf (arrived s n (isEvent f.bytes)) n).bucket < 4 then floodDrop (arrived s n (isEvent f.bytes)) n true
    else if !leafRuns (arrived s n (isEvent f.bytes)) then floodDrop (arrived s n (isEvent f.bytes)) n false
    else leafTakes (passed (arrived s n (isEvent f.bytes)) n (isEvent f.bytes) (stampOf s n (frameInst s n f.bytes) (rxRaw s n f.rawF f.rawO))) n f.bytes := by
  unfold ethReceive
  rw [h]
  rfl

/-- What Leaf does first with a frame: nothing, a count in a drop class, or a count that may close the instance. -/
theorem leafTakes_cases (s : State) (n : Nat) (b : List Nat) :
    leafTakes s n b = s ∨ leafTakes s n b = addCnt s ETH.DROP_CNT n 6 1 ∨ leafTakes s n b = addCnt s ETH.DROP_CNT n 7 1 ∨
    ∃ p < 4, ∃ f ∈ [PTPTS.BAD_CNT, PTPTS.UNKNOWN_CNT], leafTakes s n b = strange s f n p := by
  have hheader : ∀ o, ptpHeader s n b o = s ∨ ptpHeader s n b o = addCnt s ETH.DROP_CNT n 7 1 ∨
      ∃ p < 4, ∃ f ∈ [PTPTS.BAD_CNT, PTPTS.UNKNOWN_CNT], ptpHeader s n b o = strange s f n p := fun o => by
    unfold ptpHeader
    dsimp only
    split
    · exact .inr (.inl rfl)
    · next p hp =>
      have hp4 : p < 4 := portInsts_lt (List.mem_of_find?_eq_some hp)
      split
      · exact .inr (.inr ⟨p, hp4, _, by simp, rfl⟩)
      · split
        · exact .inr (.inr ⟨p, hp4, _, by simp, rfl⟩)
        · exact .inl rfl
  unfold leafTakes
  split
  · split
    · exact .inl rfl
    · exact .inr (.inl rfl)
  · split
    · next o _ =>
      rcases hheader o with h | h | h
      · exact .inl h
      · exact .inr (.inr (.inl h))
      · exact .inr (.inr (.inr h))
    · exact .inl rfl

theorem leafTakes_eths (s : State) (n : Nat) (b : List Nat) : (leafTakes s n b).eths = s.eths := by
  rcases leafTakes_cases s n b with h | h | h | ⟨p, -, f, -, h⟩ <;> rw [h] <;> simp [cite @addCnt_keeps, cite @strange_keeps]

theorem leafTakes_eth {fs : List Fld} (hfs : fs.all (fun g => g.page == .eth && g.acc != .lk) = true)
    (hdrop : fs.all (fun g => Fld.apart ETH.DROP_CNT 6 0 g && Fld.apart ETH.DROP_CNT 7 0 g && Fld.lowPlain g 0 0) = true) (s : State) (n : Nat)
    (b : List Nat) : PageKept .eth fs s (leafTakes s n b) := by
  simp only [List.all_eq_true, Bool.and_eq_true] at hdrop
  have hcnt : ∀ c, (c = 6 ∨ c = 7) → PageKept .eth fs s (addCnt s ETH.DROP_CNT n c 1) := fun c hc => by
    refine .of_keeps (by decide) (.addCnt ⟨⟨List.all_eq_true.mpr fun g hg => ?_, ?_⟩, List.all_eq_true.mpr fun g hg => (hdrop g hg).2⟩ s n 1)
    · rcases hc with rfl | rfl
      · exact (hdrop g hg).1.1
      · exact (hdrop g hg).1.2
    · rcases hc with rfl | rfl <;> decide
  rcases leafTakes_cases s n b with h | h | h | ⟨p, -, f, hf, h⟩ <;> rw [h]
  · exact .refl ..
  · exact hcnt 6 (.inl rfl)
  · exact hcnt 7 (.inr rfl)
  · have hpage : ∀ f ∈ [PTPTS.BAD_CNT, PTPTS.UNKNOWN_CNT], Page.eth ∉ [Page.bbox, .lane, .part, .ptpts, .sel, f.page] := by decide
    exact .of_page hfs (strange_pg s f n p (hpage f hf))

theorem leafTakes_ptpts (s : State) (n : Nat) (b : List Nat) : PageKept .ptpts [PTPTS.RX_TS_CNT, PTPTS.FIFO_OVF_CNT] s (leafTakes s n b) := by
  rcases leafTakes_cases s n b with h | h | h | ⟨p, hp, f, hf, h⟩ <;> rw [h]
  · exact .refl ..
  · exact .of_page (by decide) (addCnt_pg _ _ _ _ _ (by decide))
  · exact .of_page (by decide) (addCnt_pg _ _ _ _ _ (by decide))
  · have hplain : ∀ f ∈ [PTPTS.BAD_CNT, PTPTS.UNKNOWN_CNT], ∀ p < 4, ([PTPTS.RX_TS_CNT, PTPTS.FIFO_OVF_CNT].all (Fld.apart f p 0) = true ∧
      Fld.apart f p 0 (HDR.EVT f.page) = true) ∧ [PTPTS.RX_TS_CNT, PTPTS.FIFO_OVF_CNT].all (Fld.lowPlain · 0 0) = true := by decide
    exact (PageKept.of_keeps (by decide) (.addCnt (hplain f hf p hp) s n 1)).trans (strange_keeps_count (by decide) hp s f n)

/-! The frame as it arrives. -/

theorem arrived_keeps (s : State) (n : Nat) (ev : Bool) : OnlyRegs s (arrived s n ev) := by
  simp [OnlyRegs, arrived, cite @stampRx_keeps, cite @ite_state]

theorem arrived_eth (s : State) (n : Nat) (ev : Bool) : pageCells .eth (arrived s n ev).regs = pageCells .eth s.regs := by
  unfold arrived
  split
  · exact stampRx_pg s n (by decide)
  · rfl

theorem arrived_root (s : State) (n : Nat) (ev : Bool) : pageCells .root (arrived s n ev).regs = pageCells .root s.regs := by
  unfold arrived
  split
  · exact stampRx_pg s n (by decide)
  · rfl

theorem arrived_shows (s : State) (n : Nat) (ev : Bool) : (ev = true → Counted s (arrived s n ev) PTPTS.RX_TS_CNT n 0 1) ∧
    PageKept .ptpts [PTPTS.FIFO_OVF_CNT] s (arrived s n ev) := by
  have hinv : ∀ (t : State), Keeps [PTPTS.RX_TS_CNT, PTPTS.FIFO_OVF_CNT] t (addCnt t PTPTS.INVALID_CNT n 0 1) := fun t => .addCnt (by decide) t n 1
  cases ev
  · exact ⟨fun h => absurd h (by decide), .refl ..⟩
  · have hcnt := getF_addCnt_counter (f := PTPTS.RX_TS_CNT) (k := 0) (by decide) rfl (by decide) s n 1
    have hovf : Keeps [PTPTS.FIFO_OVF_CNT] s (addCnt s PTPTS.RX_TS_CNT n 0 1) := .addCnt (by decide) s n 1
    have heq : arrived s n true = addCnt s PTPTS.RX_TS_CNT n 0 1 ∨
        arrived s n true = addCnt (addCnt s PTPTS.RX_TS_CNT n 0 1) PTPTS.INVALID_CNT n 0 1 := by
      show stampRx s n = _ ∨ stampRx s n = _
      unfold stampRx
      exact ite_eq_or_eq ..
    rcases heq with h | h <;> rw [h]
    · exact ⟨fun _ => hcnt, .of_keeps (by decide) hovf⟩
    · have hk := hinv (addCnt s PTPTS.RX_TS_CNT n 0 1)
      refine ⟨fun _ => (hk.reads _ (by decide) n).trans hcnt, .of_keeps (by decide) (hovf.trans ⟨fun g hg m => ?_, hk.raised⟩)⟩
      exact hk.reads g (by simp only [List.mem_singleton] at hg; simp [hg]) m

theorem passCounted_eth {s : State} (hs : s.eths.length = 2) {n : Nat} (hn : n < 2) :
    ethOf (passCounted s n) n = { ethOf s n with bucket := (ethOf s n).bucket - 4, flood := false } ∧ n < (passCounted s n).eths.length := by
  have heths : (passCounted s n).eths = (modEth s n fun u => { u with bucket := u.bucket - 4, flood := false }).eths := by
    simp [passCounted, cite @addCnt_keeps]
  exact ⟨(congrArg (fun l : List EthU => l.getD n {}) heths).trans (ethOf_modEth (hs ▸ hn) fun u => { u with bucket := u.bucket - 4, flood := false }),
    by simpa [heths, modEth, hs] using hn⟩

theorem passed_eths {s : State} (hs : s.eths.length = 2) {n : Nat} (hn : n < 2) (ev : Bool) (x : Stamp) : ethOf (passed s n ev x) n =
    { ethOf s n with bucket := (ethOf s n).bucket - 4, flood := false,
                     fifo := if ev = true ∧ (ethOf s n).fifo.length < 256 then (ethOf s n).fifo ++ [x] else (ethOf s n).fifo } := by
  obtain ⟨hof, hlen⟩ := passCounted_eth hs hn
  have hfifo : (ethOf (passCounted s n) n).fifo = (ethOf s n).fifo := by rw [hof]
  unfold passed
  cases ev
  · simpa using hof
  · simp only [if_true, true_and]
    unfold fifoPut
    by_cases hfull : 256 ≤ (ethOf (passCounted s n) n).fifo.length
    · rw [if_pos hfull, if_neg (by rw [← hfifo]; omega)]
      refine Eq.trans (congrArg (fun l : List EthU => l.getD n {}) ?_) hof
      simp [cite @evt_keeps, cite @addCnt_keeps]
    · rw [if_neg hfull, if_pos (by rw [← hfifo]; omega)]
      refine (ethOf_modEth hlen fun u => { u with fifo := u.fifo ++ [x] }).trans ?_
      rw [hof]

theorem passed_page (s : State) (n : Nat) (ev : Bool) (x : Stamp) : pageCells .eth (passed s n ev x).regs = pageCells .eth (passCounted s n).regs := by
  unfold passed
  split
  · exact fifoPut_pg _ n x (by decide)
  · rfl

/-- The frame counts as received, and in no drop class. -/
theorem passed_counts (s : State) (n : Nat) (ev : Bool) (x : Stamp) : Counted s (passed s n ev x) ETH.RX_CNT n 0 1 ∧
    ∀ c < 9, getF (passed s n ev x) ETH.DROP_CNT n c 0 = getF s ETH.DROP_CNT n c 0 := by
  have hcnt : getF (passCounted s n) ETH.RX_CNT n 0 0 = satTo cntMax (getF s ETH.RX_CNT n 0 0 + 1) :=
    getF_addCnt_counter (f := ETH.RX_CNT) (k := 0) (by decide) rfl (by decide) (modEth s n fun u => { u with bucket := u.bucket - 4, flood := false }) n 1
  have hdrop : ∀ c < 9, getF (passCounted s n) ETH.DROP_CNT n c 0 = getF s ETH.DROP_CNT n c 0 := fun c hc => by
    have hplace : ∀ c < 9, Fld.place ETH.DROP_CNT c 0 ≠ Fld.place ETH.RX_CNT 0 0 ∧ Fld.plain ETH.DROP_CNT c 0 = true := by decide
    obtain ⟨h1, h2⟩ := hplace c hc
    exact getF_addCnt_place (f := ETH.RX_CNT) (g := ETH.DROP_CNT) rfl h1 h2 (modEth s n fun u => { u with bucket := u.bucket - 4, flood := false }) n 1
  have hpage := passed_page s n ev x
  exact ⟨(getF_of_pageCells (f := ETH.RX_CNT) hpage rfl (by decide) n 0 0).trans hcnt,
    fun c hc => (getF_of_pageCells (f := ETH.DROP_CNT) hpage rfl (by decide) n c 0).trans (hdrop c hc)⟩

theorem passed_stamps (s : State) (n : Nat) (ev : Bool) (x : Stamp) : PageKept .ptpts [PTPTS.RX_TS_CNT] s (passed s n ev x) ∧
    (ev = true → 256 ≤ (ethOf (passCounted s n) n).fifo.length → Counted s (passed s n ev x) PTPTS.FIFO_OVF_CNT n 0 1) := by
  have hpass : pageCells .ptpts (passCounted s n).regs = pageCells .ptpts s.regs := addCnt_pg _ _ _ _ _ (by decide)
  have h1 : ∀ fs : List Fld, fs.all (fun g => g.page == .ptpts && g.acc != .lk) = true → PageKept .ptpts fs s (passCounted s n) :=
    fun fs hfs => .of_page hfs hpass
  have hovf : Keeps [PTPTS.RX_TS_CNT] (passCounted s n) (evt (addCnt (passCounted s n) PTPTS.FIFO_OVF_CNT n 0 1) .ptpts n 3) :=
    (Keeps.addCnt (by decide) _ n 1).after_evt (by decide)
  unfold passed fifoPut
  cases ev
  · exact ⟨h1 _ (by decide), fun h => absurd h (by decide)⟩
  · refine ⟨(h1 _ (by decide)).trans (.ite (.ite (.of_keeps (by decide) hovf) (.of_keeps (by decide) (.modEth ..))) (.refl ..)), fun _ hfull => ?_⟩
    rw [if_pos rfl, if_pos hfull]
    have hcnt := getF_addCnt_counter (f := PTPTS.FIFO_OVF_CNT) (k := 0) (by decide) rfl (by decide) (passCounted s n) n 1
    have hevt : Keeps [PTPTS.FIFO_OVF_CNT] (addCnt (passCounted s n) PTPTS.FIFO_OVF_CNT n 0 1)
      (evt (addCnt (passCounted s n) PTPTS.FIFO_OVF_CNT n 0 1) .ptpts n 3) := .evt (by decide) ..
    exact ((hevt.reads _ (by decide) n).trans hcnt).trans
      (congrArg (fun y => satTo cntMax (y + 1)) ((h1 [PTPTS.FIFO_OVF_CNT] (by decide)).reads _ (by decide) n))

theorem domainInst_of_pol {s t : State} (h : t.pol = s.pol) (n dom : Nat) : domainInst t n dom = domainInst s n dom := by
  unfold domainInst
  rw [portInsts_of_pol h]
  simp only [getF_lk (f := PTPTS.CFG_DOMAIN) rfl h]

/-- A message of no instance is dropped in class NO_INSTANCE (R394). -/
theorem leafTakes_noInstance {s : State} {n o : Nat} {b : List Nat} (hk : (ethKind b).ptpOff = some o)
    (hd : domainInst s n (beAt b (o + 4) 1) = none) : leafTakes s n b = addCnt s ETH.DROP_CNT n 7 1 := by
  have hheader : ptpHeader s n b o = addCnt s ETH.DROP_CNT n 7 1 := by
    unfold ptpHeader
    rw [hd]
  unfold leafTakes
  split
  · next e => rw [e] at hk; cases hk
  · rw [hk]
    exact hheader

/-- An ESMC frame that is not one is dropped in its class (R392). -/
theorem leafTakes_badEsmc {s : State} {n o : Nat} {b : List Nat} (hk : ethKind b = .esmc o)
    (hbad : esmcOk (beAt b (o + 1) 3) (beAt b (o + 4) 2) (beAt b (o + 6) 1 / 16) = false) : leafTakes s n b = addCnt s ETH.DROP_CNT n 6 1 := by
  unfold leafTakes
  rw [hk]
  exact if_neg (by simp [hbad])

/-- A frame beyond the port's share is dropped in class FLOOD, its onset raised (R391). -/
theorem floodDrop_shows {s : State} (hs : s.eths.length = 2) {n : Nat} (hn : n < 2) (onset : Bool) :
    Counted s (floodDrop s n onset) ETH.DROP_CNT n 8 1 ∧ get1 (floodDrop s n onset) ETH.RX_CNT n = get1 s ETH.RX_CNT n ∧
    PageKept .ptpts [PTPTS.RX_TS_CNT] s (floodDrop s n onset) ∧
    ethOf (floodDrop s n onset) n = (if onset then { ethOf s n with flood := true } else ethOf s n) ∧
    (onset = true → (ethOf s n).flood = false → Raised (floodDrop s n onset) .eth n 3) := by
  obtain ⟨v, hv⟩ : ∃ v, v = addCnt s ETH.DROP_CNT n 8 1 := ⟨_, rfl⟩
  have hcnt : Counted s v ETH.DROP_CNT n 8 1 := hv ▸ drop_counted s n (by decide)
  have hrx : get1 v ETH.RX_CNT n = get1 s ETH.RX_CNT n := hv ▸ (Keeps.addCnt (fs := [ETH.RX_CNT]) (by decide) s n 1).reads _ (by decide) n
  have hpt : PageKept .ptpts [PTPTS.RX_TS_CNT] s v := hv ▸ .of_page (by decide) (addCnt_pg _ _ _ _ _ (by decide))
  have heths : v.eths = s.eths := by simp [hv, cite @addCnt_keeps]
  have hof : ethOf v n = ethOf s n := congrArg (fun l : List EthU => l.getD n {}) heths
  have heq : floodDrop s n onset = if onset && !(ethOf v n).flood then evt (modEth v n fun u => { u with flood := true }) .eth n 3 else v := by
    rw [hv]
    rfl
  rw [heq]
  by_cases hdue : onset = true ∧ (ethOf s n).flood = false
  · obtain ⟨ho, hf⟩ := hdue
    rw [if_pos (by simp [hof, ho, hf]), if_pos ho]
    have hk : Keeps [Fld.at ETH.DROP_CNT 8, ETH.RX_CNT, PTPTS.RX_TS_CNT] v (evt (modEth v n fun u => { u with flood := true }) .eth n 3) :=
      (Keeps.modEth ..).trans (.evt (by decide) ..)
    refine ⟨(hk.readsAt (by decide) (by simp) n).trans hcnt, (hk.reads _ (by simp) n).trans hrx, hpt.trans ?_, ?_, fun _ _ => raised_evt (by decide) ..⟩
    · exact .of_keeps (by decide) ⟨fun g hg m => hk.reads g (by simp only [List.mem_singleton] at hg; simp [hg]) m, hk.raised⟩
    · refine Eq.trans (congrArg (fun l : List EthU => l.getD n {}) (by simp [cite @evt_keeps])) ((ethOf_modEth (s := v) (n := n) (by
        rw [heths, hs]; exact hn) fun u => { u with flood := true }).trans (by rw [hof]))
  · rw [if_neg (by rw [hof]; simpa using hdue)]
    refine ⟨hcnt, hrx, hpt, ?_, fun ho hf => absurd ⟨ho, hf⟩ hdue⟩
    rw [hof]
    cases onset
    · rfl
    · have hf : (ethOf s n).flood = true := by simpa using hdue
      rw [if_pos rfl, ← hf]

theorem leafRuns_of_page {s t : State} (h : pageCells .root t.regs = pageCells .root s.regs) : leafRuns t = leafRuns s := by
  unfold leafRuns get1
  rw [getF_of_pageCells (f := ROOT.STATUS_LEAF) h rfl (by decide)]

/-- What an admitted frame comes to (R389 to R392, R402). -/
theorem ethReceive_shows {s : State} (hs : Shaped s) {n : Nat} (hn : n < 2) {f : EthFrame} (h : dropClass s n f = none) :
    (isEvent f.bytes = true → Counted s (ethReceive s n f) PTPTS.RX_TS_CNT n 0 1) ∧
    ((ethOf s n).bucket < 4 → Counted s (ethReceive s n f) ETH.DROP_CNT n 8 1 ∧ get1 (ethReceive s n f) ETH.RX_CNT n = get1 s ETH.RX_CNT n ∧
      ethOf (ethReceive s n f) n = { ethOf s n with flood := true } ∧ ((ethOf s n).flood = false → Raised (ethReceive s n f) .eth n 3)) ∧
    (4 ≤ (ethOf s n).bucket → leafRuns s = false → Counted s (ethReceive s n f) ETH.DROP_CNT n 8 1 ∧
      get1 (ethReceive s n f) ETH.RX_CNT n = get1 s ETH.RX_CNT n ∧ ethOf (ethReceive s n f) n = ethOf s n) ∧
    (4 ≤ (ethOf s n).bucket → leafRuns s = true → Counted s (ethReceive s n f) ETH.RX_CNT n 0 1 ∧
      (let x := stampOf s n (frameInst s n f.bytes) (rxRaw s n f.rawF f.rawO)
       let kept := isEvent f.bytes = true ∧ (ethOf s n).fifo.length < 256
       ethOf (ethReceive s n f) n = { ethOf s n with bucket := (ethOf s n).bucket - 4, flood := false,
                                                     fifo := if kept then (ethOf s n).fifo ++ [x] else (ethOf s n).fifo }) ∧
      (isEvent f.bytes = true → 256 ≤ (ethOf s n).fifo.length → Counted s (ethReceive s n f) PTPTS.FIFO_OVF_CNT n 0 1) ∧
      (∀ o, ethKind f.bytes = .esmc o → esmcOk (beAt f.bytes (o + 1) 3) (beAt f.bytes (o + 4) 2)
        (beAt f.bytes (o + 6) 1 / 16) = false → Counted s (ethReceive s n f) ETH.DROP_CNT n 6 1) ∧
      (∀ o, (ethKind f.bytes).ptpOff = some o → domainInst s n (beAt f.bytes (o + 4) 1) = none →
        Counted s (ethReceive s n f) ETH.DROP_CNT n 7 1)) := by
  obtain ⟨hts, hovf⟩ := arrived_shows s n (isEvent f.bytes)
  have hpage := arrived_eth s n (isEvent f.bytes)
  have hrun : leafRuns (arrived s n (isEvent f.bytes)) = leafRuns s :=
    leafRuns_of_page (arrived_root ..)
  have heths : (arrived s n (isEvent f.bytes)).eths = s.eths := by simp [cite @arrived_keeps]
  have hpol : (arrived s n (isEvent f.bytes)).pol = s.pol := by simp [cite @arrived_keeps]
  rw [ethReceive_admitted h]
  generalize arrived s n (isEvent f.bytes) = v at *
  have hof : ethOf v n = ethOf s n := congrArg (fun l : List EthU => l.getD n {}) heths
  have hlen : v.eths.length = 2 := heths ▸ hs.eths
  have hget : ∀ g : Fld, g.page = .eth → g.acc ≠ .lk → ∀ k, getF v g n k 0 = getF s g n k 0 := fun g hg ha k => getF_of_pageCells hpage hg ha n k 0
  have hcnt : ∀ (t : State) (k m : Nat), Counted v t ETH.DROP_CNT n k m → Counted s t ETH.DROP_CNT n k m := fun t k m hc =>
    hc.trans (congrArg (fun y => satTo cntMax (y + m)) (hget ETH.DROP_CNT rfl (by decide) k))
  have hrx : get1 v ETH.RX_CNT n = get1 s ETH.RX_CNT n := hget ETH.RX_CNT rfl (by decide) 0
  rw [hof, hrun]
  by_cases hlow : (ethOf s n).bucket < 4
  · obtain ⟨h1, h2, h3, h4, h5⟩ := floodDrop_shows hlen hn true
    rw [if_pos hlow]
    exact ⟨fun he => (h3.reads _ (by decide) n).trans (hts he), fun _ => ⟨hcnt _ _ _ h1, h2.trans hrx, h4.trans (by rw [hof]; rfl),
      fun hf => h5 rfl (by rw [hof, hf])⟩, fun hb => absurd hlow (by omega), fun hb => absurd hlow (by omega)⟩
  · rw [if_neg hlow]
    cases hl : leafRuns s
    · obtain ⟨h1, h2, h3, h4, -⟩ := floodDrop_shows hlen hn false
      exact ⟨fun he => (h3.reads _ (by decide) n).trans (hts he), fun hb => absurd hb hlow,
        fun _ _ => ⟨hcnt _ _ _ h1, h2.trans hrx, h4.trans hof⟩, fun _ hr => absurd hr (by decide)⟩
    · rw [if_neg (by decide)]
      generalize stampOf s n (frameInst s n f.bytes) (rxRaw s n f.rawF f.rawO) = x
      obtain ⟨hcount, hdrop⟩ := passed_counts v n (isEvent f.bytes) x
      obtain ⟨hkeep, hfull⟩ := passed_stamps v n (isEvent f.bytes) x
      have hunit := passed_eths hlen hn (isEvent f.bytes) x
      have hfifo : (ethOf (passCounted v n) n).fifo = (ethOf s n).fifo := by rw [(passCounted_eth hlen hn).1, hof]
      have hppol : (passed v n (isEvent f.bytes) x).pol = s.pol := by
        rw [← hpol]
        simp [passed, passCounted, cite @fifoPut_keeps, cite @addCnt_keeps, modEth, cite @ite_state]
      generalize passed v n (isEvent f.bytes) x = w at *
      have hpt := leafTakes_ptpts w n f.bytes
      have heth := leafTakes_eth (fs := [ETH.RX_CNT]) (by decide) (by decide) w n f.bytes
      refine ⟨fun he => ?_, fun hb => absurd hb hlow, fun _ hr => absurd hr (by decide), fun _ _ => ⟨?_, ?_, fun he hf => ?_, fun o hk hbad => ?_,
        fun o hk hd => ?_⟩⟩
      · exact (hpt.reads _ (by decide) n).trans ((hkeep.reads _ (by decide) n).trans (hts he))
      · exact ((heth.reads _ (by decide) n).trans hcount).trans (congrArg (fun y => satTo cntMax (y + 1)) hrx)
      · refine (congrArg (fun l : List EthU => l.getD n {}) (leafTakes_eths w n f.bytes)).trans (hunit.trans ?_)
        rw [hof]
      · have h1 := hfull he (by rw [hfifo]; exact hf)
        exact ((hpt.reads _ (by decide) n).trans h1).trans (congrArg (fun y => satTo cntMax (y + 1)) (hovf.reads _ (by decide) n))
      · rw [leafTakes_badEsmc hk hbad]
        exact (drop_counted w n (by decide)).trans (congrArg (fun y => satTo cntMax (y + 1)) ((hdrop 6 (by decide)).trans (hget ETH.DROP_CNT rfl (by decide) 6)))
      · rw [leafTakes_noInstance hk (by rw [domainInst_of_pol hppol, hd])]
        exact (drop_counted w n (by decide)).trans (congrArg (fun y => satTo cntMax (y + 1)) ((hdrop 7 (by decide)).trans (hget ETH.DROP_CNT rfl (by decide) 7)))

/-! ### QL messages -/

theorem gateCheck_gate (s : State) (g : GateU) (b : Nat) (c : GateCall) : gateCheck { s with gate := g } b c = gateCheck s b c := by
  cases c <;> rfl

/-- Calls that pass their bounds join the queue in their order. -/
theorem foldl_gateCall_queue {α : Type} (l : List α) (call : α → GateCall) (cyc : Nat) {s : State} (hrun : leafRuns s = true)
    (hall : ∀ x ∈ l, gateCheck s (dueOf s cyc) (call x) = none) (hroom : s.gate.queue.length + l.length ≤ 256) :
    (l.foldl (fun t x => gateCall t cyc (call x)) s).gate.queue = s.gate.queue ++ l.map fun x => (dueOf s cyc, call x) := by
  induction l generalizing s with
  | nil => exact (List.append_nil _).symm
  | cons x r ih =>
    have hlen : s.gate.queue.length < 256 := by
      rw [List.length_cons] at hroom
      omega
    have heq := gateCall_queued hrun (hall x List.mem_cons_self) hlen
    have hnext := ih (s := gateRes { s with gate := { s.gate with queue := s.gate.queue ++ [(dueOf s cyc, call x)] } } 0) hrun
      (fun y hy => (gateCheck_gate s _ _ _).trans (hall y (List.mem_cons_of_mem _ hy)))
      (by simp only [gateRes, List.length_append, List.length_cons, List.length_nil] at hroom ⊢; omega)
    rw [List.foldl_cons, heq, hnext]
    show (s.gate.queue ++ [(dueOf s cyc, call x)]) ++ _ = _
    rw [List.append_assoc, List.map_cons]
    rfl

/-- The channels whose QL comes from a source. -/
def qlChans (s : State) (src node : Nat) : List Nat :=
  (List.range 12).filter fun c => qlSrc s c == src && (src != 3 || polVal s.pol CHAN.QL_NODE c 0 0 == node)

/-- A QL goes to each channel of its source (R392, R427). -/
theorem deliverQl_queue {s : State} {cyc src node ssm : Nat} {e : Option Nat} (hrun : leafRuns s = true) (hsrc : src ≠ 0)
    (hroom : s.gate.queue.length + (qlChans s src node).length ≤ 256) :
    (deliverQl s cyc src node ssm e).gate.queue = s.gate.queue ++
      (qlChans s src node).map fun c => (dueOf s cyc, GateCall.ql c src node ssm e (some c == (qlChans s src node).head?)) := by
  refine foldl_gateCall_queue (qlChans s src node) (fun c => .ql c src node ssm e (some c == (qlChans s src node).head?)) cyc hrun (fun c hc => ?_) hroom
  simp only [qlChans, List.mem_filter, List.mem_range, Bool.and_eq_true, Bool.or_eq_true, beq_iff_eq, bne_iff_ne] at hc
  obtain ⟨hc12, hq, hnode⟩ := hc
  exact if_pos ⟨hc12, hsrc, hq, fun h3 => hnode.resolve_left (fun hne => hne h3)⟩

/-- A received ESMC PDU reaches the channels that name the port, with its TLV recorded (R254, R392). -/
theorem esmcReceive_shows {s : State} (hs : Shaped s) {n : Nat} (hn : n < 2) {u : EsmcPdu} {cyc : Nat} (hup : portUp s n = true)
    (hrun : leafRuns s = true) (hok : esmcOk u.oui u.subtype u.version = true) :
    (ethOf (esmcReceive s n u cyc) n).tlv = u.tlv ∧
    (let cs := (List.range 12).filter fun c => qlSrc s c == n + 1
     s.gate.queue.length + cs.length ≤ 256 → (esmcReceive s n u cyc).gate.queue = s.gate.queue ++ cs.map fun c =>
       (dueOf s cyc, .ql c (n + 1) 0 u.ssm (EsmcPdu.code u) (some c == cs.head?))) := by
  have heq : esmcReceive s n u cyc = deliverQl (modEth s n fun v => { v with tlv := u.tlv }) cyc (n + 1) 0 u.ssm (EsmcPdu.code u) :=
    (if_neg (by simp [hup, hrun])).trans (if_neg (by simp [hok]))
  have hcs : qlChans s (n + 1) 0 = (List.range 12).filter fun c => qlSrc s c == n + 1 := by
    have h3 : (n + 1 != 3) = true := by simp only [bne_iff_ne]; omega
    simp [qlChans, h3]
  rw [heq]
  refine ⟨?_, fun hroom => ?_⟩
  · refine congrArg EthU.tlv (Eq.trans (congrArg (fun l : List EthU => l.getD n {}) ?_) (ethOf_modEth (hs.eths ▸ hn) fun v => { v with tlv := u.tlv }))
    simp [cite @deliverQl_keeps]
  · have h := deliverQl_queue (s := modEth s n fun v => { v with tlv := u.tlv }) (cyc := cyc) (src := n + 1) (node := 0) (ssm := u.ssm)
      (e := EsmcPdu.code u) hrun (by omega) (by rw [show qlChans (modEth s n fun v => { v with tlv := u.tlv }) (n + 1) 0 = _ from hcs]; exact hroom)
    rw [show qlChans (modEth s n fun v => { v with tlv := u.tlv }) (n + 1) 0 = _ from hcs] at h
    exact h

theorem rankCodes_fit (r : Nat) : (rankCodes r).1 < 2 ^ 4 ∧ (rankCodes r).2 < 2 ^ 8 := by
  unfold rankCodes
  (repeat' split) <;> decide

theorem esmcCodes_fit (s : State) (n : Nat) : (esmcCodes s n).1 < 2 ^ 4 ∧ (esmcCodes s n).2 < 2 ^ 8 := by
  obtain ⟨h1, h2⟩ := rankCodes_fit (getF s SEL.ACTIVE_CLOCK_RANK 0 (get1 s ETH.ESMC_CFG_DOM n) 0)
  refine ⟨h1, ?_⟩
  unfold esmcCodes
  dsimp only
  split
  · exact h2
  · decide

theorem eq_of_onlyRegs {s t : State} (h : OnlyRegs s t) : t = { s with regs := t.regs } := by
  cases t
  simpa [OnlyRegs] using h

theorem eq_of_onlyRegsEths {s t : State} (h : OnlyRegsEths s t) : t = { s with regs := t.regs, eths := t.eths } := by
  cases t
  simpa [OnlyRegsEths] using h

/-- The codes that go out, shown. -/
def esmcShown (s : State) (n : Nat) (event : Bool) : State :=
  set1 (set1 (modEth s n fun u => { u with esmc := some (esmcPdu s n event) }) ETH.ESMC_TX_SSM n (esmcCodes s n).1) ETH.ESMC_TX_ECODE n (esmcCodes s n).2

theorem esmcShown_shows (s : State) (n : Nat) (event : Bool) :
    get1 (esmcShown s n event) ETH.ESMC_TX_SSM n = (esmcCodes s n).1 ∧ get1 (esmcShown s n event) ETH.ESMC_TX_ECODE n = (esmcCodes s n).2 ∧
    get1 (esmcShown s n event) ETH.TX_CNT n = get1 s ETH.TX_CNT n := by
  obtain ⟨h1, h2⟩ := esmcCodes_fit s n
  have hssm : (esmcCodes s n).1 % 2 ^ ETH.ESMC_TX_SSM.width = (esmcCodes s n).1 := Nat.mod_eq_of_lt h1
  have hecode : (esmcCodes s n).2 % 2 ^ ETH.ESMC_TX_ECODE.width = (esmcCodes s n).2 := Nat.mod_eq_of_lt h2
  unfold esmcShown
  generalize (esmcCodes s n).1 = a at *
  generalize (esmcCodes s n).2 = b at *
  refine ⟨?_, ?_, ?_⟩ <;> simp (disch := decide) only [get1, set1, getF_setF_place, getF_setF_same, hssm, hecode]
  rfl

/-- An ESMC PDU as it is sent (R393). -/
theorem esmcSend_shows {s : State} (hs : Shaped s) {n : Nat} (hn : n < 2) (event : Bool) :
    get1 (esmcSend s n event) ETH.ESMC_TX_SSM n = (esmcCodes s n).1 ∧ get1 (esmcSend s n event) ETH.ESMC_TX_ECODE n = (esmcCodes s n).2 ∧
    (ethOf (esmcSend s n event) n).esmc = some (esmcPdu s n event) ∧ Counted s (esmcSend s n event) ETH.TX_CNT n 0 1 ∧
    esmcSend s n event = { s with regs := (esmcSend s n event).regs, eths := (esmcSend s n event).eths } := by
  obtain ⟨h1, h2, h3⟩ := esmcShown_shows s n event
  have heq : esmcSend s n event = addCnt (esmcShown s n event) ETH.TX_CNT n 0 1 := rfl
  have hk : Keeps [ETH.ESMC_TX_SSM, ETH.ESMC_TX_ECODE] (esmcShown s n event) (esmcSend s n event) := heq ▸ .addCnt (by decide) _ n 1
  have hcnt : getF (esmcSend s n event) ETH.TX_CNT n 0 0 = satTo cntMax (getF (esmcShown s n event) ETH.TX_CNT n 0 0 + 1) :=
    heq ▸ getF_addCnt_counter (f := ETH.TX_CNT) (k := 0) (by decide) rfl (by decide) (esmcShown s n event) n 1
  refine ⟨(hk.reads _ (by decide) n).trans h1, (hk.reads _ (by decide) n).trans h2, ?_, hcnt.trans (congrArg (fun y => satTo cntMax (y + 1)) h3),
    eq_of_onlyRegsEths (by simp [OnlyRegsEths, heq, esmcShown, cite @addCnt_keeps, cite @set1_keeps, cite @modEth_keeps])⟩
  refine congrArg EthU.esmc (Eq.trans (congrArg (fun l : List EthU => l.getD n {}) ?_)
    (ethOf_modEth (hs.eths ▸ hn) fun u => { u with esmc := some (esmcPdu s n event) }))
  simp [heq, esmcShown, cite @addCnt_keeps, cite @set1_keeps]

/-! ### Sent frames -/

/-- The frames that Leaf has sent on a port in the second of this frame. -/
def txUsed (s : State) (n : Nat) : Nat := if (ethOf s n).txSec.1 = s.frn / 8000 then (ethOf s n).txSec.2 else 0

/-- And the Sync messages of an instance. -/
def syncUsed (s : State) (p : Nat) : Nat := if (ptpOf s p).syncSec.1 = s.frn / 8000 then (ptpOf s p).syncSec.2 else 0

/-- The port and the frame are within their bounds. -/
def txBounded (s : State) (n : Nat) (b : List Nat) : Prop := portEnabled s n = true ∧ beAt b 6 6 = portMac s n ∧ (ethKind b).admitted = true

theorem txFrame_unbounded {s : State} {p n : Nat} {b : List Nat} (hrun : leafRuns s = true) (h : 2 ≤ n ∨ ¬ txBounded s n b) (f o : Nat) :
    txFrame s p n b f o = gateRefuse s 5 1 := by
  refine (if_neg (by simp [hrun])).trans (if_pos ?_)
  by_contra hc
  simp only [Bool.or_eq_true, Bool.not_eq_true', not_or, bne_iff_ne, ne_eq, not_not, decide_eq_true_eq, Bool.not_eq_false] at hc
  obtain ⟨⟨⟨h1, h2⟩, h3⟩, h4⟩ := hc
  exact h.elim h1 (fun hb => hb ⟨h2, h3, h4⟩)

theorem txFrame_rate {s : State} {p n : Nat} {b : List Nat} (hrun : leafRuns s = true) (hn : n < 2) (h : txBounded s n b)
    (hrate : ¬ (txUsed s n < 4000 ∧ (ptpType b = some 0 → syncUsed s p < 128))) (f o : Nat) : txFrame s p n b f o = gateRefuse s 5 5 := by
  obtain ⟨h1, h2, h3⟩ := h
  refine (if_neg (by simp [hrun])).trans ((if_neg (by simp [h1, h2, h3, hn])).trans (if_pos ?_))
  by_contra hc
  simp only [beq_iff_eq, not_or, not_and, Nat.not_le] at hc
  exact hrate hc

/-- A frame that Leaf hands over is counted in its rates. -/
def txTaken (s : State) (p n : Nat) (sync : Bool) : State :=
  if sync then modPtp (modEth (gateRes s 0) n fun u => { u with txSec := (s.frn / 8000, txUsed s n + 1) }) p
    fun u => { u with syncSec := (s.frn / 8000, syncUsed s p + 1) }
  else modEth (gateRes s 0) n fun u => { u with txSec := (s.frn / 8000, txUsed s n + 1) }

theorem txFrame_taken {s : State} {p n : Nat} {b : List Nat} (hrun : leafRuns s = true) (hn : n < 2) (h : txBounded s n b)
    (hrate : txUsed s n < 4000 ∧ (ptpType b = some 0 → syncUsed s p < 128)) (f o : Nat) : txFrame s p n b f o =
      if (ptpType b == some 0) || !portUp s n || heldBack s n b then txTaken s p n (ptpType b == some 0)
      else frameOut (txTaken s p n (ptpType b == some 0)) n b f o := by
  obtain ⟨h1, h2, h3⟩ := h
  have hregs : ∀ sync, portUp (txTaken s p n sync) n = portUp s n ∧ heldBack (txTaken s p n sync) n b = heldBack s n b := fun sync => by
    cases sync <;> exact ⟨rfl, rfl⟩
  refine (if_neg (by simp [hrun])).trans ((if_neg (by simp [h1, h2, h3, hn])).trans ((if_neg ?_).trans ?_))
  · simp only [beq_iff_eq, not_or, not_and, Nat.not_le]
    exact hrate
  · rw [← (hregs (ptpType b == some 0)).1, ← (hregs (ptpType b == some 0)).2]
    rfl

theorem rawTime_congr {s t : State} (ht : t.times = s.times) (hf : t.frn = s.frn) (d : Nat) (x : Int) : rawTime t d x = rawTime s d x := by
  simp only [rawTime, tickTime, tickSpan, timeOf, ht, hf]

theorem stampOf_congr {s t : State} {n : Nat} (hv : get1 t ETH.STATUS_TS_VALID n = get1 s ETH.STATUS_TS_VALID n) (ht : t.times = s.times)
    (hf : t.frn = s.frn) (inst : Option Nat) (x : Int) : stampOf t n inst x = stampOf s n inst x := by
  unfold stampOf
  simp only [rawTime_congr ht hf, bit1, hv]

theorem txRaw_congr {s t : State} {n : Nat} (hc : get1 t ETH.CAL_TX n = get1 s ETH.CAL_TX n) (hp : t.pol = s.pol) (f o : Nat) :
    txRaw t n f o = txRaw s n f o := by
  have hb : get1 t ETH.BOARD_TX n = get1 s ETH.BOARD_TX n := getF_lk (f := ETH.BOARD_TX) rfl hp n 0 0
  rw [txRaw, txRaw, hc, hb]

theorem stampTx_eths (s : State) (n : Nat) (inst : Option Nat) (f o : Nat) :
    (stampTx s n inst f o).eths = (modEth s n fun u => { u with left := some (stampOf s n inst (txRaw s n f o)) }).eths := by
  simp [stampTx, cite @addCnt_keeps, modEth]

/-- An event message that leaves is stamped and its timestamp kept for Leaf (R402). -/
theorem stampTx_shows {s : State} {n : Nat} (hn : n < s.eths.length) (inst : Option Nat) (f o : Nat) :
    Counted s (stampTx s n inst f o) PTPTS.TX_TS_CNT n 0 1 ∧
    ethOf (stampTx s n inst f o) n = { ethOf s n with left := some (stampOf s n inst (txRaw s n f o)) } := by
  refine ⟨?_, (congrArg (fun l : List EthU => l.getD n {}) (stampTx_eths ..)).trans
    (ethOf_modEth hn fun u => { u with left := some (stampOf s n inst (txRaw s n f o)) })⟩
  obtain ⟨v, hv⟩ : ∃ v, v = modEth (addCnt s PTPTS.TX_TS_CNT n 0 1) n fun u => { u with left := some (stampOf s n inst (txRaw s n f o)) } := ⟨_, rfl⟩
  have hcnt : getF v PTPTS.TX_TS_CNT n 0 0 = satTo cntMax (getF s PTPTS.TX_TS_CNT n 0 0 + 1) :=
    hv ▸ getF_addCnt_counter (f := PTPTS.TX_TS_CNT) (k := 0) (by decide) rfl (by decide) s n 1
  have heq : stampTx s n inst f o = if bit1 s ETH.STATUS_TS_VALID n then v else addCnt v PTPTS.INVALID_CNT n 0 1 := by
    rw [hv]
    rfl
  have hinv : Keeps [PTPTS.TX_TS_CNT] v (addCnt v PTPTS.INVALID_CNT n 0 1) := .addCnt (by decide) v n 1
  rw [heq]
  split
  · exact hcnt
  · exact (hinv.reads _ (by decide) n).trans hcnt

/-- A frame on its way. -/
def frameSent (s : State) (n : Nat) (b : List Nat) : State := modEth (addCnt s ETH.TX_CNT n 0 1) n fun u => { u with tx := b }

theorem frameOut_eq (s : State) (n : Nat) (b : List Nat) (f o : Nat) :
    frameOut s n b f o = if isEvent b then stampTx (frameSent s n b) n (frameInst s n b) f o else frameSent s n b := rfl

theorem frameSent_shows {s : State} {n : Nat} (hn : n < s.eths.length) (b : List Nat) :
    Counted s (frameSent s n b) ETH.TX_CNT n 0 1 ∧ Keeps [ETH.STATUS_TS_VALID, ETH.CAL_TX, PTPTS.TX_TS_CNT] s (frameSent s n b) ∧
    ethOf (frameSent s n b) n = { ethOf s n with tx := b } ∧ n < (frameSent s n b).eths.length := by
  have heths : (frameSent s n b).eths = (modEth s n fun u => { u with tx := b }).eths := by simp [frameSent, cite @addCnt_keeps, modEth]
  refine ⟨getF_addCnt_counter (f := ETH.TX_CNT) (k := 0) (by decide) rfl (by decide) s n 1, ?_,
    (congrArg (fun l : List EthU => l.getD n {}) heths).trans (ethOf_modEth hn fun u => { u with tx := b }), by simpa [heths, modEth] using hn⟩
  exact (Keeps.addCnt (by decide) s n 1).trans (.modEth ..)

/-- A frame leaves: counted, and stamped if it is an event message (R402, R404). -/
theorem frameOut_shows {s : State} {n : Nat} (hn : n < s.eths.length) (b : List Nat) (f o : Nat) :
    Counted s (frameOut s n b f o) ETH.TX_CNT n 0 1 ∧ (ethOf (frameOut s n b f o) n).tx = b ∧
    (ethOf (frameOut s n b f o) n).txSec = (ethOf s n).txSec ∧
    (isEvent b = true → Counted s (frameOut s n b f o) PTPTS.TX_TS_CNT n 0 1 ∧
      (ethOf (frameOut s n b f o) n).left = some (stampOf s n (frameInst s n b) (txRaw s n f o))) := by
  obtain ⟨hcnt, hkeep, hof, hlen⟩ := frameSent_shows hn b
  have htimes : (frameSent s n b).times = s.times := by simp [frameSent, cite @addCnt_keeps, cite @modEth_keeps]
  have hfrn : (frameSent s n b).frn = s.frn := by simp [frameSent, cite @addCnt_keeps, cite @modEth_keeps]
  have hpol : (frameSent s n b).pol = s.pol := by simp [frameSent, cite @addCnt_keeps, cite @modEth_keeps]
  have hx := txRaw_congr (hkeep.reads ETH.CAL_TX (by decide) n) hpol f o
  have hst := stampOf_congr (hkeep.reads ETH.STATUS_TS_VALID (by decide) n) htimes hfrn (frameInst s n b) (txRaw s n f o)
  rw [frameOut_eq]
  cases isEvent b
  · rw [if_neg (by decide)]
    exact ⟨hcnt, by rw [hof], by rw [hof], fun h => absurd h (by decide)⟩
  · rw [if_pos rfl]
    obtain ⟨hts, heth⟩ := stampTx_shows hlen (frameInst s n b) f o
    have hpage := stampTx_pg (pq := .eth) (frameSent s n b) n (frameInst s n b) f o (by decide)
    refine ⟨(getF_of_pageCells (f := ETH.TX_CNT) hpage rfl (by decide) n 0 0).trans hcnt, by rw [heth, hof], by rw [heth, hof], fun _ => ⟨?_, ?_⟩⟩
    · exact hts.trans (congrArg (fun y => satTo cntMax (y + 1)) (hkeep.reads PTPTS.TX_TS_CNT (by decide) n))
    · rw [heth, hx, hst]

/-! ### The declaration -/

/-- A frame that Leaf hands over within its bounds (R448, Table 14.1). -/
theorem txFrame_shows {s : State} (hs : Shaped s) {p n : Nat} (hp : p < 4) (hn : n < 2) {b : List Nat} (hrun : leafRuns s = true)
    (h : txBounded s n b) (hrate : txUsed s n < 4000 ∧ (ptpType b = some 0 → syncUsed s p < 128)) (f o : Nat) :
    (txFrame s p n b f o).gate.res = 0 ∧ (ethOf (txFrame s p n b f o) n).txSec = (s.frn / 8000, txUsed s n + 1) ∧
    (ptpType b = some 0 → (ptpOf (txFrame s p n b f o) p).syncSec = (s.frn / 8000, syncUsed s p + 1)) ∧
    (ptpType b = some 0 ∨ portUp s n = false ∨ heldBack s n b = true →
      (ethOf (txFrame s p n b f o) n).tx = (ethOf s n).tx ∧ (txFrame s p n b f o).regs = s.regs) ∧
    (¬ ptpType b = some 0 → portUp s n = true → heldBack s n b = false →
      (ethOf (txFrame s p n b f o) n).tx = b ∧ Counted s (txFrame s p n b f o) ETH.TX_CNT n 0 1 ∧
      (isEvent b = true → Counted s (txFrame s p n b f o) PTPTS.TX_TS_CNT n 0 1 ∧
        (ethOf (txFrame s p n b f o) n).left = some (stampOf s n (frameInst s n b) (txRaw s n f o)))) := by
  rw [txFrame_taken hrun hn h hrate]
  have htaken : ∀ sync, ethOf (txTaken s p n sync) n = { ethOf s n with txSec := (s.frn / 8000, txUsed s n + 1) } := fun sync => by
    have h1 := ethOf_modEth (s := gateRes s 0) (n := n) (show n < s.eths.length from hs.eths ▸ hn)
      fun u => { u with txSec := (s.frn / 8000, txUsed s n + 1) }
    cases sync <;> exact h1
  by_cases hsync : ptpType b = some 0
  · have hb : (ptpType b == some 0) = true := by simp [hsync]
    rw [hb, if_pos (by simp)]
    refine ⟨rfl, by rw [htaken], fun _ => ?_, fun _ => ⟨by rw [htaken], rfl⟩, fun hno => absurd hsync hno⟩
    exact congrArg PtpU.syncSec (ptpOf_modPtp (s := modEth (gateRes s 0) n fun u => { u with txSec := (s.frn / 8000, txUsed s n + 1) }) (n := p)
      (show p < s.ptps.length from hs.ptps ▸ hp) fun u => { u with syncSec := (s.frn / 8000, syncUsed s p + 1) })
  · have hb : (ptpType b == some 0) = false := by simp [hsync]
    rw [hb]
    by_cases hstay : portUp s n = false ∨ heldBack s n b = true
    · rw [if_pos (by rcases hstay with h | h <;> simp [h])]
      exact ⟨rfl, by rw [htaken], fun hy => absurd hy hsync, fun _ => ⟨by rw [htaken], rfl⟩, fun _ hup hheld => by simp [hup, hheld] at hstay⟩
    · obtain ⟨hup, hheld⟩ := not_or.mp hstay
      rw [Bool.not_eq_false] at hup
      rw [Bool.not_eq_true] at hheld
      rw [if_neg (by simp [hup, hheld])]
      have hlen : n < (txTaken s p n false).eths.length := by simpa [txTaken, modEth, gateRes, hs.eths] using hn
      obtain ⟨hcnt, htx, hsec, hev⟩ := frameOut_shows hlen b f o
      have hgate : (frameOut (txTaken s p n false) n b f o).gate = (txTaken s p n false).gate := by simp [cite @frameOut_keeps]
      refine ⟨by rw [hgate]; rfl, by rw [hsec, htaken], fun hy => absurd hy hsync, fun hor => absurd hor ?_, fun _ _ _ => ⟨htx, hcnt, hev⟩⟩
      simp [hsync, hup, hheld]

/-- Settles O56: the link by its conditions, the frames by their class, the ESMC messages and the sent frames by their bounds. -/
theorem ethernetPorts : Obligations.EthernetPorts := by
  intro s n hs hn
  refine ⟨fun hoff hmode => ⟨_, if_pos hn, portEnableWrite_starts hoff hmode⟩, fun h => ⟨_, if_pos hn, ?_⟩, ⟨_, if_pos hn, ?_⟩,
    ⟨fun hmay => ⟨restartAn s n, if_pos hn, ?_⟩, fun hno => ?_⟩, ⟨fun ok hmay hok => ⟨_, if_pos hn, pcsLocks_shows hs hn hmay hok⟩, fun hmay hmode =>
    ⟨_, if_pos hn, ?_⟩, fun ok hno => ?_⟩, fun hup => ⟨linkDown s n 0 1, ?_, ?_⟩, fun hdown => ?_, fun rx tx => ⟨fun hdue => ⟨calEnds s n rx tx, ?_,
    calEnds_shows s n rx tx⟩, fun hno => ?_⟩, fun f hb ho => ⟨fun hdown => ?_, fun hup => ⟨ethReceive s n f, ?_, fun c hc => ?_, fun hnone =>
    ethReceive_shows hs hn hnone⟩⟩, fun u cyc hssm hcode hcyc => ?_, ?_, fun p b f o hp hb ho => ?_, fun p q b f o hp hq hb ho hrun => ?_⟩
  · rw [portEnableWrite_stays h]
    exact ⟨enable_reads s n true, setF_onlyCells ..⟩
  · obtain ⟨h1, h2⟩ := portDisable_shows s n
    exact ⟨h1, ⟨h2.down, h2.fell⟩, h2.states⟩
  · rw [restartAn_acts hmay]
    exact ⟨congrArg EthU.an (ethOf_modEth (hs.eths ▸ hn) fun u => { u with an := true }), rfl⟩
  · refine (if_pos hn).trans (congrArg Host.Outcome.next (restartAn_stays hno))
  · rw [pcsLocks_wrongSpeed hmay hmode]
    have hset : Keeps [ETH.STATUS_LINK, ETH.LINK_CNT] s (set1 s ETH.STATUS_SPEED_BAD n 1) := .set1 (by decide) s n 1
    have hdown := (linkDown_shows (set1 s ETH.STATUS_SPEED_BAD n 1) n 0 (v := 1) (by decide)).of_kept hset (by simp [cite @set1_keeps])
    exact ⟨linkDown_speed s n, ⟨hdown.down, hdown.fell⟩, hdown.states⟩
  · exact (if_pos hn).trans (congrArg Host.Outcome.next (pcsLocks_stays hno ok))
  · exact (if_pos hn).trans (if_pos hup)
  · have h := linkDown_shows s n 0 (v := 1) (by decide)
    exact ⟨⟨h.down, h.fell⟩, h.states⟩
  · exact (if_pos hn).trans (if_neg (by simp [hdown]))
  · obtain ⟨hlock, hts, hfrom⟩ := hdue
    exact (if_pos hn).trans (if_pos (by simp [bit1, calSpan, hlock, hts, hfrom]))
  · refine (if_pos hn).trans (if_neg fun hyes => hno ?_)
    obtain ⟨⟨hlock, hts⟩, hfrom⟩ : (get1 s ETH.STATUS_PCS_LOCK n = 1 ∧ ¬ get1 s ETH.STATUS_TS_VALID n = 1) ∧
        decide ((ethOf s n).calFrom + calSpan ≤ s.frn) = true := by
      simpa [bit1] using hyes
    exact ⟨hlock, hts, of_decide_eq_true hfrom⟩
  · exact (if_pos ⟨hn, hb, ho⟩).trans (if_neg (by simp [hdown]))
  · exact (if_pos ⟨hn, hb, ho⟩).trans (if_pos hup)
  · rw [ethReceive_dropped hc]
    exact ⟨drop_counted s n (dropClass_lt hc), drop_cells s n c⟩
  · have hexec : exec (.esmcPduReceive n u cyc) s = .next (esmcReceive s n u cyc) := if_pos ⟨hn, hssm, hcode, hcyc⟩
    refine ⟨fun h => hexec.trans (congrArg Host.Outcome.next (if_pos ?_)), fun hup hrun hbad => ⟨_, hexec, ?_⟩,
      fun hup hrun hok => ⟨_, hexec, esmcReceive_shows hs hn hup hrun hok⟩⟩
    · rcases h with h | h <;> simp [h]
    · have heq : esmcReceive s n u cyc = addCnt s ETH.DROP_CNT n 6 1 := (if_neg (by simp [hup, hrun])).trans (if_pos (by simp [hbad]))
      rw [heq]
      exact ⟨drop_counted s n (by decide), eq_of_onlyRegs (addCnt_keeps ..)⟩
  · refine ⟨fun hon => ⟨_, (if_pos hn).trans (if_pos hon), esmcSend_shows hs hn false⟩, fun hon hnews => ⟨_, (if_pos hn).trans (if_pos ?_), esmcSend_shows hs hn true⟩,
      fun hoff => (if_pos hn).trans (if_neg (by simp [hoff])), fun h => (if_pos hn).trans (if_neg ?_)⟩
    · simpa [hon] using hnews
    · rcases h with h | h
      · simp [h]
      · simp [not_not.mp h]
  · have hexec : exec (.txFrame p n ⟨b, f, o⟩) s = .next (txFrame s p n b f o) := if_pos ⟨hp, hb, ho⟩
    rw [hexec]
    refine ⟨fun hrun => congrArg Host.Outcome.next (if_pos (by simp [hrun])), fun hrun hno => ⟨_, rfl, ?_⟩, fun hrun hyes hrate => ⟨_, rfl, ?_⟩,
      fun hrun hyes hrate => ⟨_, rfl, txFrame_shows hs hp hn hrun hyes hrate f o⟩⟩
    · rw [txFrame_unbounded hrun (.inr hno)]
      exact ⟨gateRefuse_refused s (by decide) (by decide), by simp [cite @gateRefuse_keeps]⟩
    · rw [txFrame_rate hrun hn hyes hrate]
      exact ⟨gateRefuse_refused s (by decide) (by decide), by simp [cite @gateRefuse_keeps]⟩
  · refine ⟨_, if_pos ⟨hp, hb, ho⟩, ?_⟩
    rw [txFrame_unbounded hrun (.inl hq)]
    exact ⟨gateRefuse_refused s (by decide) (by decide), by simp [cite @gateRefuse_keeps]⟩

end Sys2Proof.Machine
/-! Received PTP messages (R394, R398 to R401, R409, R411, R413): what the checks of a message count, what a complete Sync comes
to, and what the best master choice does to a port. -/

namespace Sys2Proof.Machine

/-! ### Acceptance -/

/-- A message reaches an instance: Leaf runs, the link is up and the instance uses the port. -/
def MsgReached (s : State) (p : Nat) (m : PtpMsg) : Prop := leafRuns s = true ∧ portUp s m.port = true ∧ instOn s m.port p = true

/-- The message is of the instance's own domain. -/
def MsgOurs (s : State) (p : Nat) (m : PtpMsg) : Prop := m.domainNumber = getF s PTPTS.CFG_DOMAIN m.port p 0

/-- The message is of a version and a kind that Table 12.4 supports. -/
def MsgSane (m : PtpMsg) : Prop := m.version = 2 ∧ m.minorVersion ≤ 1 ∧ m.odd = false

section

variable {s : State} {p : Nat} {m : PtpMsg}

theorem acceptMsg_unreached (h : ¬ MsgReached s p m) (named : Bool) : acceptMsg s p m named = (s, false) := by
  refine if_pos ?_
  by_contra hne
  simp only [Bool.or_eq_true, Bool.not_eq_true', not_or, Bool.not_eq_false] at hne
  exact h ⟨hne.1.1, hne.1.2, hne.2⟩

theorem acceptMsg_reached (h : MsgReached s p m) (named : Bool) : acceptMsg s p m named =
    if m.domainNumber ≠ getF s PTPTS.CFG_DOMAIN m.port p 0 then (addCnt s ETH.DROP_CNT m.port 7 1, false)
    else if m.version ≠ 2 ∨ 1 < m.minorVersion ∨ m.odd then (strange s PTPTS.BAD_CNT m.port p, false)
    else if named && !masterOk s m.port p m.clockId then (strange s PTPTS.UNKNOWN_CNT m.port p, false)
    else (s, !instClosed s p) := by
  obtain ⟨hrun, hup, hon⟩ := h
  exact if_neg (by simp [hrun, hup, hon])

theorem acceptMsg_foreign (h : MsgReached s p m) (ho : ¬ MsgOurs s p m) (named : Bool) :
    acceptMsg s p m named = (addCnt s ETH.DROP_CNT m.port 7 1, false) :=
  (acceptMsg_reached h named).trans (if_pos ho)

theorem acceptMsg_insane (h : MsgReached s p m) (ho : MsgOurs s p m) (hs : ¬ MsgSane m) (named : Bool) :
    acceptMsg s p m named = (strange s PTPTS.BAD_CNT m.port p, false) := by
  refine ((acceptMsg_reached h named).trans (if_neg (not_not.mpr ho))).trans (if_pos ?_)
  by_contra hne
  simp only [not_or, not_not, Nat.not_lt, Bool.not_eq_true] at hne
  exact hs hne

theorem acceptMsg_sane (h : MsgReached s p m) (ho : MsgOurs s p m) (hs : MsgSane m) (named : Bool) : acceptMsg s p m named =
    if named && !masterOk s m.port p m.clockId then (strange s PTPTS.UNKNOWN_CNT m.port p, false) else (s, !instClosed s p) := by
  obtain ⟨hv, hminor, hodd⟩ := hs
  exact ((acceptMsg_reached h named).trans (if_neg (not_not.mpr ho))).trans (if_neg (by simp [hv, hodd, Nat.not_lt.mpr hminor]))

theorem acceptMsg_unknown (h : MsgReached s p m) (ho : MsgOurs s p m) (hs : MsgSane m) (hm : masterOk s m.port p m.clockId = false) :
    acceptMsg s p m true = (strange s PTPTS.UNKNOWN_CNT m.port p, false) := (acceptMsg_sane h ho hs true).trans (if_pos (by simp [hm]))

theorem acceptMsg_closed (h : MsgReached s p m) (ho : MsgOurs s p m) (hs : MsgSane m) (hm : masterOk s m.port p m.clockId = true)
    (hc : instClosed s p = true) (named : Bool) : acceptMsg s p m named = (s, false) :=
  ((acceptMsg_sane h ho hs named).trans (if_neg (by simp [hm]))).trans (by rw [hc]; rfl)

theorem acceptMsg_accepted (h : PtpAccepts s p m) {named : Bool} (hm : named = true → masterOk s m.port p m.clockId = true) :
    acceptMsg s p m named = (s, true) := by
  obtain ⟨-, hrun, hup, hon, hopen, ho, hs⟩ := h
  refine ((acceptMsg_sane ⟨hrun, hup, hon⟩ ho hs named).trans (if_neg ?_)).trans (by rw [hopen]; rfl)
  cases named with
  | false => simp
  | true => simp [hm rfl]

end

theorem PageKept.readsAt {p : Page} {fs : List Fld} {s t : State} (h : PageKept p fs s t) {f : Fld} {k : Nat} (hf : f.acc ≠ .lk)
    (hk : Fld.at f k ∈ fs) (n : Nat) : getF t f n k 0 = getF s f n k 0 := by
  rw [← get1_at hf, ← get1_at hf]
  exact h.reads _ hk n

theorem strange_counted {f : Fld} (hf : f = PTPTS.BAD_CNT ∨ f = PTPTS.UNKNOWN_CNT) {p : Nat} (hp : p < 4) (s : State) (n : Nat) :
    Counted s (strange s f n p) f n p 1 := by
  have hfld : f.acc ≠ .lk ∧ f.width = 32 ∧ f.page = .ptpts ∧ ∀ p < 4, closeFree (Fld.at f p) = true ∧ Fld.plain f p 0 = true := by
    rcases hf with rfl | rfl <;> decide
  obtain ⟨hacc, hw, -, hat⟩ := hfld
  obtain ⟨hfree, hplain⟩ := hat p hp
  have hk := strange_keeps_count (fs := [Fld.at f p]) (by simp [hfree]) hp s f n
  exact (hk.readsAt hacc List.mem_cons_self n).trans (getF_addCnt_counter hacc hw hplain s n 1)

/-- What a message that is not accepted comes to, whether a timestamp was taken from the FIFO or not (R394, R398, R399). -/
theorem unaccepted_shows {s t : State} {p : Nat} {m : PtpMsg} {named : Bool} {e : List EthU} (hp : p < 4)
    (ht : (acceptMsg { s with eths := e } p m named).2 = false → t = (acceptMsg { s with eths := e } p m named).1) :
    (¬ MsgReached s p m ∨ (MsgOurs s p m ∧ MsgSane m ∧ masterOk s m.port p m.clockId = true ∧ instClosed s p = true) →
      t = { s with eths := t.eths }) ∧
    (MsgReached s p m → ¬ MsgOurs s p m → Counted s t ETH.DROP_CNT m.port 7 1 ∧ t = { s with regs := t.regs, eths := t.eths }) ∧
    (MsgReached s p m → MsgOurs s p m → ¬ MsgSane m → Counted s t PTPTS.BAD_CNT m.port p 1) ∧
    (named = true → MsgReached s p m → MsgOurs s p m → MsgSane m → masterOk s m.port p m.clockId = false →
      Counted s t PTPTS.UNKNOWN_CNT m.port p 1) := by
  obtain ⟨u, hu⟩ : ∃ u : State, u = { s with eths := e } := ⟨_, rfl⟩
  have hreach : MsgReached u p m ↔ MsgReached s p m := by rw [hu]; rfl
  have hours : MsgOurs u p m ↔ MsgOurs s p m := by rw [hu]; rfl
  have hmast : masterOk u m.port p m.clockId = masterOk s m.port p m.clockId := by rw [hu]; rfl
  have hclosed : instClosed u p = instClosed s p := by rw [hu]; rfl
  rw [← hu] at ht
  refine ⟨fun h => ?_, fun hr ho => ?_, fun hr ho hs => ?_, fun hn hr ho hs hm => ?_⟩
  · have heq : acceptMsg u p m named = (u, false) := by
      by_cases hr : MsgReached u p m
      · obtain ⟨ho, hs, hm, hc⟩ := h.resolve_left (not_not.mpr (hreach.mp hr))
        exact acceptMsg_closed hr (hours.mpr ho) hs (hmast.trans hm) (hclosed.trans hc) named
      · exact acceptMsg_unreached hr named
    rw [heq] at ht
    rw [ht rfl, hu]
  · rw [acceptMsg_foreign (hreach.mpr hr) (mt hours.mp ho)] at ht
    rw [ht rfl]
    have hcnt := drop_counted u m.port (c := 7) (by decide)
    refine ⟨?_, ?_⟩
    · rw [hu] at hcnt ⊢
      exact hcnt
    · rw [eq_of_onlyRegs (addCnt_keeps u ETH.DROP_CNT m.port 7 1), hu]
  · rw [acceptMsg_insane (hreach.mpr hr) (hours.mpr ho) hs] at ht
    rw [ht rfl]
    have hcnt := strange_counted (.inl rfl) hp u m.port
    rw [hu] at hcnt ⊢
    exact hcnt
  · rw [hn, acceptMsg_unknown (hreach.mpr hr) (hours.mpr ho) hs (hmast.trans hm)] at ht
    rw [ht rfl]
    have hcnt := strange_counted (.inr rfl) hp u m.port
    rw [hu] at hcnt ⊢
    exact hcnt

/-! ### What an estimate reads -/

/-- The fields of an instance block that the bounds and the estimate of instance `p` read. -/
def estReads (p : Nat) : List Fld := [Fld.at PTPTS.STATE_CLOSED p, Fld.at PTPTS.MPD p]

/-- A state that differs from another in nothing that the estimates of instance `p` read. -/
structure PtpNear (p : Nat) (s t : State) : Prop where
  units : ∃ r e q g, t = { s with regs := r, eths := e, ptps := q, gate := g }
  pages : ∀ pq ∉ [Page.ptpts, .part], pageCells pq t.regs = pageCells pq s.regs
  reads : Keeps (estReads p) s t

namespace PtpNear

variable {p : Nat} {s t u : State}

theorem refl (p : Nat) (s : State) : PtpNear p s s := ⟨⟨_, _, _, _, rfl⟩, fun _ _ => rfl, .refl ..⟩

theorem trans (h : PtpNear p s t) (g : PtpNear p t u) : PtpNear p s u := by
  refine ⟨?_, fun pq hpq => (g.pages pq hpq).trans (h.pages pq hpq), h.reads.trans g.reads⟩
  obtain ⟨r, e, q, x, ht⟩ := h.units
  obtain ⟨r', e', q', x', hu⟩ := g.units
  exact ⟨r', e', q', x', by rw [hu, ht]⟩

theorem of_units (h : ∃ e q g, t = { s with eths := e, ptps := q, gate := g }) : PtpNear p s t := by
  obtain ⟨e, q, g, rfl⟩ := h
  exact ⟨⟨_, _, _, _, rfl⟩, fun _ _ => rfl, .of_units rfl rfl⟩

theorem of_regs (h : OnlyRegs s t) (hp : ∀ pq ∉ [Page.ptpts, .part], pageCells pq t.regs = pageCells pq s.regs)
    (hk : Keeps (estReads p) s t) : PtpNear p s t := by
  refine ⟨⟨t.regs, s.eths, s.ptps, s.gate, ?_⟩, hp, hk⟩
  exact eq_of_onlyRegs h

theorem setPtpPort {p : Nat} (hp : p < 4) (s : State) (n v : Nat) : PtpNear p s (setPtpPort s n p v) := by
  have hfree : ∀ p < 4, (estReads p).all stateFree = true := by decide
  refine of_regs (setPtpPort_keeps ..) (fun pq hpq => ?_) (.setPtpPort (hfree p hp) hp s n v)
  simp only [List.mem_cons, List.not_mem_nil, or_false, not_or] at hpq
  simp [hpq]

theorem setF {f : Fld} (hf : f.page = .ptpts) {k : Nat} (h : (estReads p).all (Fld.apart f k 0) = true) (he : Fld.apart f k 0 (HDR.EVT .ptpts) = true)
    (s : State) (n v : Nat) : PtpNear p s (setF s f n k 0 v) := by
  refine of_regs (setF_keeps ..) (fun pq hpq => ?_) (.setF ⟨h, hf.symm ▸ he⟩ s n v)
  simp only [List.mem_cons, List.not_mem_nil, or_false, not_or] at hpq
  simp [hf, hpq]

theorem addCnt {f : Fld} (hf : f.page = .ptpts) {k : Nat} (h : (estReads p).all (Fld.apart f k 0) = true) (he : Fld.apart f k 0 (HDR.EVT .ptpts) = true)
    (hl : (estReads p).all (Fld.lowPlain · 0 0) = true) (s : State) (n x : Nat) : PtpNear p s (addCnt s f n k x) := by
  refine of_regs (addCnt_keeps ..) (fun pq hpq => ?_) (.addCnt ⟨⟨h, hf.symm ▸ he⟩, hl⟩ s n x)
  simp only [List.mem_cons, List.not_mem_nil, or_false, not_or] at hpq
  simp [hf, hpq]

theorem pol (h : PtpNear p s t) : t.pol = s.pol := by
  obtain ⟨r, e, q, g, rfl⟩ := h.units
  rfl

theorem get1_page (h : PtpNear p s t) {f : Fld} (hf : f.acc ≠ .lk) (hp : f.page ∉ [Page.ptpts, .part]) (n : Nat) : get1 t f n = get1 s f n :=
  getF_of_pageCells (h.pages _ hp) rfl hf n 0 0

theorem masterAt (h : PtpNear p s t) (n : Nat) (origin : Rat) (corr : Int) (o : Nat) (r : Rat) :
    masterAt t n p origin corr o r = masterAt s n p origin corr o r := by
  unfold Machine.masterAt
  rw [h.reads.readsAt (f := PTPTS.MPD) (by decide) (by simp [estReads]) n, getF_lk (f := PTPTS.ASYM) rfl h.pol n p 0]

theorem instClosed (h : PtpNear p s t) : instClosed t p = instClosed s p := by
  unfold Machine.instClosed
  simp only [h.reads.readsAt (f := PTPTS.STATE_CLOSED) (k := p) (by decide) (by simp [estReads])]

theorem fedChans (h : PtpNear p s t) : fedChans t p = fedChans s p := by
  simp only [Machine.fedChans, instPorts, instOn_of_pol h.pol, getF_lk (f := PTPTS.CFG_FEED) rfl h.pol]

theorem gateCheck_pkt (h : PtpNear p s t) (b c fe : Nat) (m r : Rat) : gateCheck t b (.pkt p c fe m r) = gateCheck s b (.pkt p c fe m r) := by
  have hpkt : ∀ n, pktOf t n = pktOf s n := by
    obtain ⟨r, e, q, g, rfl⟩ := h.units
    exact fun _ => rfl
  simp only [gateCheck, hpkt, h.fedChans, h.instClosed]

theorem gateCheck_time (h : PtpNear p s t) (b d : Nat) (x : Rat) : gateCheck t b (.time p d x) = gateCheck s b (.time p d x) := by
  have hlim : get1 t ROOT.LEAF_LIMITS 0 = get1 s ROOT.LEAF_LIMITS 0 := getF_lk (f := ROOT.LEAF_LIMITS) rfl h.pol 0 0 0
  have hset : bit1 t TIME.STATUS_TIME_SET d = bit1 s TIME.STATUS_TIME_SET d :=
    congrArg (· == 1) (h.get1_page (f := TIME.STATUS_TIME_SET) (by decide) (by decide) d)
  unfold gateCheck
  dsimp only
  rw [hset, hlim]

theorem offsetAt (h : PtpNear p s t) (n : Nat) (raw : Int) (origin : Rat) (corr : Int) (r : Rat) :
    timeAtTick t p (rawFrn raw) - Machine.masterAt t n p origin corr (rawOfs raw) r =
      timeAtTick s p (rawFrn raw) - Machine.masterAt s n p origin corr (rawOfs raw) r := by
  rw [h.masterAt]
  obtain ⟨_, _, _, _, rfl⟩ := h.units
  rfl

theorem domRuns (h : PtpNear p s t) : domRuns t p = domRuns s p ∧ (domOf t p).mode = (domOf s p).mode := by
  obtain ⟨_, _, _, _, rfl⟩ := h.units
  exact ⟨rfl, rfl⟩

theorem leafRuns (h : PtpNear p s t) : leafRuns t = leafRuns s := leafRuns_of_page (h.pages _ (by decide))

theorem dueOf (h : PtpNear p s t) (cyc : Nat) : dueOf t cyc = dueOf s cyc := by
  obtain ⟨r, e, q, g, rfl⟩ := h.units
  rfl

end PtpNear

/-! ### Boundary calls other than estimates -/

/-- Whether a call is a packet channel's estimate. -/
def GateCall.isPkt : GateCall → Bool
  | .pkt .. => true
  | _ => false

theorem callRefuse_of_notPkt {c : GateCall} (hc : c.isPkt = false) (s : State) (r : Nat) : callRefuse s c r = gateRefuse s c.code r := by
  cases c with
  | pkt => simp [GateCall.isPkt] at hc
  | _ => rfl

/-- What a boundary call other than an estimate leaves: the PTP page, the instances, the policy and the calls that wait. -/
structure CallLeaves (s t : State) : Prop where
  page : pageCells .ptpts t.regs = pageCells .ptpts s.regs
  root : leafRuns t = leafRuns s
  ptps : t.ptps = s.ptps
  pol : t.pol = s.pol
  times : t.frn = s.frn ∧ t.phase = s.phase
  waits : ∀ x ∈ s.gate.queue, x ∈ t.gate.queue
  room : t.gate.queue.length ≤ s.gate.queue.length + 1

theorem CallLeaves.refl (s : State) : CallLeaves s s := ⟨rfl, rfl, rfl, rfl, ⟨rfl, rfl⟩, fun _ h => h, Nat.le_succ _⟩

theorem gateRefuse_leafRuns (s : State) (code r : Nat) : leafRuns (gateRefuse s code r) = leafRuns s := by
  have h0 : Keeps [ROOT.STATUS_LEAF] s (gateRes s r) := .of_units rfl rfl
  have h1 : Keeps [ROOT.STATUS_LEAF] s (refusalShown s code r) := by
    unfold refusalShown
    exact (((h0.after_addCnt (by decide)).after_set1 (by decide)).after_set1 (by decide)).after_set1 (by decide)
  have h2 : Keeps [ROOT.STATUS_LEAF] (refusalShown s code r) (gateRefuse s code r) := by
    rw [gateRefuse_eq]
    generalize refusalShown s code r = v
    exact .ite (.refl _ _) ((Keeps.of_units (s := v)
      (t := { v with gate := { v.gate with raised := kvSet v.gate.raised code (s.frn / 8000) } }) rfl rfl).trans (.evt (by decide) _ .root 0 7))
  unfold leafRuns
  rw [(h1.trans h2).reads _ (by decide)]

theorem gateRefuse_leaves (s : State) (code r : Nat) : CallLeaves s (gateRefuse s code r) where
  page := gateRefuse_pg s code r (by decide)
  root := gateRefuse_leafRuns s code r
  ptps := by simp [cite @gateRefuse_keeps]
  pol := by simp [cite @gateRefuse_keeps]
  times := by simp [cite @gateRefuse_keeps]
  waits := by simp [(gateRefuse_gate s code r).2]
  room := by simp [(gateRefuse_gate s code r).2]

/-- A call that is no estimate, taken or refused. -/
theorem gateCall_leaves {c : GateCall} (hc : c.isPkt = false) (s : State) (cyc : Nat) : CallLeaves s (gateCall s cyc c) := by
  have href : ∀ r, CallLeaves s (callRefuse s c r) := fun r => callRefuse_of_notPkt hc s r ▸ gateRefuse_leaves s c.code r
  cases hrun : leafRuns s with
  | false => rw [gateCall_stopped hrun]; exact .refl s
  | true =>
    cases hk : gateCheck s (dueOf s cyc) c with
    | some r => rw [gateCall_refused hrun hk]; exact href r
    | none =>
      by_cases hroom : s.gate.queue.length < 256
      · rw [gateCall_queued hrun hk hroom]
        exact ⟨rfl, rfl, rfl, rfl, ⟨rfl, rfl⟩, fun _ h => List.mem_append_left _ h, by simp [gateRes]⟩
      · rw [gateCall_full hrun hk (by omega)]
        exact href 8

theorem gateCall_waits {c : GateCall} {s : State} {cyc : Nat} (hrun : leafRuns s = true) (hk : gateCheck s (dueOf s cyc) c = none)
    (hroom : s.gate.queue.length < 256) : (dueOf s cyc, c) ∈ (gateCall s cyc c).gate.queue := by
  rw [gateCall_queued hrun hk hroom]
  exact List.mem_append_right _ List.mem_cons_self

/-! ### Estimates -/

/-- TIMEp less the master's time at the tick before an arrival (R411). -/
def offsetAt (s : State) (p n : Nat) (raw : Int) (origin : Rat) (corr : Int) (r : Rat) : Rat :=
  timeAtTick s p (rawFrn raw) - masterAt s n p origin corr (rawOfs raw) r

/-- The state that shows an estimate, before its gate call. -/
def estShown (s : State) (p n : Nat) (raw : Int) (off r : Rat) : State :=
  modPtp (setF (setPtpPort s n p 8) PTPTS.OFFSET n p 0 (satSigned 32 (roundAway off))) p fun u => { u with arrival := raw, rate := r }

/-- The estimate's gate call has been taken, and counted. -/
def estCalled (s : State) (p n b : Nat) (c : GateCall) : State :=
  addCnt (gateRes { s with gate := { s.gate with queue := s.gate.queue ++ [(b, c)] } } 0) PTPTS.EST_CNT n p 1

/-- An estimate is shown. -/
structure OffsetShown (t : State) (p n : Nat) (raw : Int) (off r : Rat) : Prop where
  port : getF t PTPTS.STATE_PORT n p 0 = 8
  offset : getF t PTPTS.OFFSET n p 0 = satSigned 32 (roundAway off) % 2 ^ 32
  arrival : (ptpOf t p).arrival = raw
  rate : (ptpOf t p).rate = r

theorem OffsetShown.of_kept {s t : State} {p n : Nat} {raw : Int} {off r : Rat} (h : OffsetShown s p n raw off r)
    (hk : PageKept .ptpts [Fld.at PTPTS.STATE_PORT p, Fld.at PTPTS.OFFSET p] s t) (hu : t.ptps = s.ptps) : OffsetShown t p n raw off r := by
  have hptp : ptpOf t p = ptpOf s p := congrArg (fun l : List PtpU => l.getD p {}) hu
  exact ⟨(hk.readsAt (by decide) (by simp) n).trans h.port, (hk.readsAt (by decide) (by simp) n).trans h.offset, hptp ▸ h.arrival, hptp ▸ h.rate⟩

theorem offsetSet_reads {p : Nat} (hp : p < 4) (s : State) (n v : Nat) :
    getF (setF (setPtpPort s n p 8) PTPTS.OFFSET n p 0 v) PTPTS.STATE_PORT n p 0 = 8 ∧
    getF (setF (setPtpPort s n p 8) PTPTS.OFFSET n p 0 v) PTPTS.OFFSET n p 0 = v % 2 ^ 32 := by
  have hplace : ∀ p < 4, Fld.place PTPTS.STATE_PORT p 0 ≠ Fld.place PTPTS.OFFSET p 0 := by decide
  exact ⟨(getF_setF_place (f := PTPTS.OFFSET) (g := PTPTS.STATE_PORT) rfl (hplace p hp) _ n v).trans (setPtpPort_state hp (by decide) s n),
    getF_setF_same _ PTPTS.OFFSET n p 0 v (by decide)⟩

theorem estShown_shows {s : State} {p n : Nat} (hp : p < 4) (hl : s.ptps.length = 4) (raw : Int) (off r : Rat) :
    OffsetShown (estShown s p n raw off r) p n raw off r := by
  unfold estShown
  obtain ⟨hport, hoff⟩ := offsetSet_reads hp s n (satSigned 32 (roundAway off))
  have hlen : (setF (setPtpPort s n p 8) PTPTS.OFFSET n p 0 (satSigned 32 (roundAway off))).ptps.length = 4 := by
    simp only [cite @setF_keeps, cite @setPtpPort_keeps, hl]
  generalize setF (setPtpPort s n p 8) PTPTS.OFFSET n p 0 (satSigned 32 (roundAway off)) = w at *
  have hptp := ptpOf_modPtp (hlen ▸ hp) fun u => { u with arrival := raw, rate := r }
  exact ⟨(getF_modPtp ..).trans hport, (getF_modPtp ..).trans hoff, congrArg PtpU.arrival hptp, congrArg PtpU.rate hptp⟩

theorem estShown_near {p : Nat} (hp : p < 4) (s : State) (n : Nat) (raw : Int) (off r : Rat) : PtpNear p s (estShown s p n raw off r) := by
  have happ : ∀ p < 4, (estReads p).all (Fld.apart PTPTS.OFFSET p 0) = true ∧ Fld.apart PTPTS.OFFSET p 0 (HDR.EVT .ptpts) = true := by decide
  exact ((PtpNear.setPtpPort hp s n 8).trans (.setF rfl (happ p hp).1 (happ p hp).2 _ n _)).trans (.of_units ⟨_, _, _, rfl⟩)

theorem estShown_gate (s : State) (p n : Nat) (raw : Int) (off r : Rat) : (estShown s p n raw off r).gate = s.gate := by
  simp [estShown, cite @modPtp_keeps, cite @setF_keeps, cite @setPtpPort_keeps]

/-- The change of time that R413 asks for. -/
def timeAsked (s : State) (p c cyc : Nat) (ns : Rat) : State :=
  if domRuns s p && (domOf s p).mode == 0 && activeOf s p == c && decide ((get1 s TIME.STEP_CFG_THRESH p : Rat) < absR ns) then
    gateCall s cyc (.time p p ns)
  else s

theorem timeAsked_leaves (s : State) (p c cyc : Nat) (ns : Rat) : CallLeaves s (timeAsked s p c cyc ns) := by
  unfold timeAsked
  split
  · exact gateCall_leaves rfl s cyc
  · exact .refl s

theorem estimate_unfed {s : State} {p n : Nat} (h : getF s PTPTS.CFG_FEED n p 0 = 0) (cyc : Nat) (raw : Int) (origin : Rat) (corr : Int) (r : Rat) :
    estimate s p n cyc raw origin corr r = estShown s p n raw (offsetAt s p n raw origin corr r) r := by
  refine if_pos ?_
  show getF (estShown s p n raw (offsetAt s p n raw origin corr r) r) PTPTS.CFG_FEED n p 0 = 0
  rw [getF_lk (s := s) rfl (by simp [estShown, cite @modPtp_keeps, cite @setF_keeps, cite @setPtpPort_keeps]), h]

theorem estimate_fed {s w : State} {p n cyc : Nat} {raw : Int} {origin : Rat} {corr : Int} {r : Rat} (hrun : leafRuns w = true)
    (hw : w = estShown s p n raw (offsetAt s p n raw origin corr r) r) (h : getF w PTPTS.CFG_FEED n p 0 ≠ 0)
    (hk : gateCheck w (dueOf w cyc) (.pkt p (9 + getF w PTPTS.CFG_FEED n p 0) (rawFrn raw) (masterAt s n p origin corr (rawOfs raw) r) r) = none)
    (hroom : w.gate.queue.length < 256) :
    estimate s p n cyc raw origin corr r =
      timeAsked (estCalled w p n (dueOf w cyc) (.pkt p (9 + getF w PTPTS.CFG_FEED n p 0) (rawFrn raw) (masterAt s n p origin corr (rawOfs raw) r) r))
        p (9 + getF w PTPTS.CFG_FEED n p 0) cyc (-(offsetAt s p n raw origin corr r) / 512) := by
  have hcall := gateCall_queued hrun hk hroom
  subst hw
  unfold estimate
  extract_lets m off s1 s2 feed c s3 s4 ns
  have h3 : s3 = gateRes { s2 with gate := { s2.gate with queue := s2.gate.queue ++ [(dueOf s2 cyc, .pkt p c (rawFrn raw) m r)] } } 0 := hcall
  have h4 : s4 = addCnt s3 PTPTS.EST_CNT n p 1 := if_pos (by rw [h3]; rfl)
  refine (if_neg h).trans ?_
  show timeAsked s4 p c cyc ns = _
  rw [h4, h3]
  rfl

section

variable {p : Nat} {fs : List Fld} (hfs : fs.all closeFree = true) (happ : fs.all (Fld.apart PTPTS.EST_CNT p 0) = true)
  (hoff : fs.all (Fld.apart PTPTS.OFFSET p 0) = true)
include hfs

theorem gateCall_pageKept (s : State) (cyc : Nat) {c : GateCall} (hc : c.isPkt = false ∨ ∃ q, q < 4 ∧ ∃ d fe m r, c = .pkt q d fe m r) :
    PageKept .ptpts fs s (gateCall s cyc c) := by
  have hpage := closeFree_page hfs
  rcases hc with hc | ⟨q, hq, d, fe, m, r, rfl⟩
  · exact .of_page hpage (gateCall_leaves hc s cyc).page
  · have href : ∀ x, PageKept .ptpts fs s (callRefuse s (.pkt q d fe m r) x) := fun x => by
      have h1 : PageKept .ptpts fs s (gateRefuse s (GateCall.code (.pkt q d fe m r)) x) := .of_page hpage (gateRefuse_pg _ _ _ (by decide))
      refine h1.trans ?_
      show PageKept .ptpts fs _ (pktRefused (gateRefuse s (GateCall.code (.pkt q d fe m r)) x) q)
      generalize gateRefuse s (GateCall.code (.pkt q d fe m r)) x = v
      unfold pktRefused
      extract_lets k v1
      have h2 : PageKept .ptpts fs v v1 := .of_keeps (by decide) (.modPtp ..)
      exact .ite (h2.trans (.instClose hfs hq v1 1)) h2
    cases hrun : leafRuns s with
    | false => rw [gateCall_stopped hrun]; exact .refl ..
    | true =>
      cases hk : gateCheck s (dueOf s cyc) (.pkt q d fe m r) with
      | some x => rw [gateCall_refused hrun hk]; exact href x
      | none =>
        by_cases hroom : s.gate.queue.length < 256
        · rw [gateCall_queued hrun hk hroom]
          exact .of_page hpage rfl
        · rw [gateCall_full hrun hk (by omega)]
          exact href 8

include happ hoff

/-- An estimate leaves the other counters of its instance block. -/
theorem estimate_pageKept (hp : p < 4) (s : State) (n cyc : Nat) (raw : Int) (origin : Rat) (corr : Int) (r : Rat) :
    PageKept .ptpts fs s (estimate s p n cyc raw origin corr r) := by
  have hevt : ∀ p < 4, Fld.apart PTPTS.OFFSET p 0 (HDR.EVT .ptpts) = true ∧ Fld.apart PTPTS.EST_CNT p 0 (HDR.EVT .ptpts) = true := by decide
  unfold estimate
  extract_lets m off s1 s2 feed c s3 s4 ns
  have h1 : PageKept .ptpts fs s s1 := (PageKept.setPtpPort hfs hp s n 8).trans (.of_keeps (by decide) (.setF ⟨hoff, (hevt p hp).1⟩ _ n _))
  have h2 : PageKept .ptpts fs s s2 := h1.trans (.of_keeps (by decide) (.modPtp ..))
  have h3 : PageKept .ptpts fs s s3 := h2.trans (gateCall_pageKept hfs s2 cyc (.inr ⟨p, hp, _, _, _, _, rfl⟩))
  have h4 : PageKept .ptpts fs s s4 :=
    .ite (h3.trans (.of_keeps (by decide) (.addCnt ⟨⟨happ, (hevt p hp).2⟩, closeFree_plain hfs⟩ s3 n 1))) h3
  exact .ite h2 (.ite (h4.trans (gateCall_pageKept hfs s4 cyc (.inl rfl))) h4)

end

theorem estShown_count {p : Nat} (hp : p < 4) (s : State) (n : Nat) (raw : Int) (off r : Rat) :
    getF (estShown s p n raw off r) PTPTS.EST_CNT n p 0 = getF s PTPTS.EST_CNT n p 0 := by
  have hfree : ∀ p < 4, [Fld.at PTPTS.EST_CNT p].all stateFree = true ∧ [Fld.at PTPTS.EST_CNT p].all (Fld.apart PTPTS.OFFSET p 0) = true ∧
    Fld.apart PTPTS.OFFSET p 0 (HDR.EVT .ptpts) = true := by decide
  obtain ⟨h1, h2, h3⟩ := hfree p hp
  have hk : Keeps [Fld.at PTPTS.EST_CNT p] s (estShown s p n raw off r) :=
    ((Keeps.setPtpPort h1 hp s n 8).after_setF ⟨h2, h3⟩).trans (.modPtp ..)
  exact hk.readsAt (by decide) List.mem_cons_self n

theorem estCalled_shows {w : State} {p : Nat} (hp : p < 4) (n b : Nat) (c : GateCall) {raw : Int} {off r : Rat} (h : OffsetShown w p n raw off r) :
    OffsetShown (estCalled w p n b c) p n raw off r ∧ Counted w (estCalled w p n b c) PTPTS.EST_CNT n p 1 ∧
    PtpNear p w (estCalled w p n b c) ∧ (estCalled w p n b c).gate.queue = w.gate.queue ++ [(b, c)] := by
  have hfree : ∀ p < 4, [Fld.at PTPTS.STATE_PORT p, Fld.at PTPTS.OFFSET p].all (Fld.apart PTPTS.EST_CNT p 0) = true ∧
    Fld.apart PTPTS.EST_CNT p 0 (HDR.EVT .ptpts) = true ∧ [Fld.at PTPTS.STATE_PORT p, Fld.at PTPTS.OFFSET p].all (Fld.lowPlain · 0 0) = true ∧
    (estReads p).all (Fld.apart PTPTS.EST_CNT p 0) = true ∧ (estReads p).all (Fld.lowPlain · 0 0) = true ∧
    Fld.plain PTPTS.EST_CNT p 0 = true := by decide
  obtain ⟨h1, h2, h3, h4, h5, h6⟩ := hfree p hp
  obtain ⟨v, hv⟩ : ∃ v : State, v = gateRes { w with gate := { w.gate with queue := w.gate.queue ++ [(b, c)] } } 0 := ⟨_, rfl⟩
  have hkv : ∀ fs, Keeps fs w v := fun fs => .of_units (by rw [hv]; rfl) (by rw [hv]; rfl)
  have hcnt := getF_addCnt_counter (f := PTPTS.EST_CNT) (by decide) rfl h6 v n 1
  have heq : estCalled w p n b c = addCnt v PTPTS.EST_CNT n p 1 := by rw [hv]; rfl
  rw [heq]
  refine ⟨?_, ?_, ?_, ?_⟩
  · refine h.of_kept (.of_keeps (by decide) ((hkv _).trans (.addCnt ⟨⟨h1, h2⟩, h3⟩ v n 1))) ?_
    rw [hv]
    simp [cite @addCnt_keeps, gateRes]
  · refine hcnt.trans ?_
    rw [hv]
    rfl
  · exact (PtpNear.of_units ⟨w.eths, w.ptps, v.gate, by rw [hv]; rfl⟩).trans (.addCnt rfl h4 h2 h5 v n 1)
  · rw [hv]
    simp [cite @addCnt_keeps, gateRes]

/-- What the estimate of a complete Sync comes to, in a state that differs in nothing that it reads (R411, R413). -/
theorem estimate_shows {s u : State} (hl : u.ptps.length = 4) {p : Nat} (hp : p < 4) (hu : PtpNear p s u) (hg : u.gate = s.gate)
    (hrun : leafRuns s = true) {n : Nat} (hest : getF u PTPTS.EST_CNT n p 0 = getF s PTPTS.EST_CNT n p 0) (cyc : Nat) (raw : Int) (origin : Rat) (corr : Int) (r : Rat) :
    PtpEstimated s (estimate u p n cyc raw origin corr r) p n cyc raw origin corr r := by
  have hoff : offsetAt u p n raw origin corr r = offsetAt s p n raw origin corr r := hu.offsetAt n raw origin corr r
  obtain ⟨w, hw⟩ : ∃ w, w = estShown u p n raw (offsetAt u p n raw origin corr r) r := ⟨_, rfl⟩
  have hshown : OffsetShown w p n raw (offsetAt s p n raw origin corr r) r := by
    rw [hw, hoff]
    exact estShown_shows hp hl raw _ r
  have hnear : PtpNear p s w := hw ▸ hu.trans (estShown_near hp u n raw _ r)
  have hgate : w.gate = s.gate := by rw [hw, estShown_gate, hg]
  have hfeed : getF w PTPTS.CFG_FEED n p 0 = getF s PTPTS.CFG_FEED n p 0 := getF_lk rfl hnear.pol n p 0
  have hm := hu.masterAt n origin corr (rawOfs raw) r
  refine ⟨fun h => ?_, fun h hk hroom => ?_⟩
  · rw [estimate_unfed (by rw [getF_lk rfl hu.pol n p 0, h]), ← hw]
    exact ⟨⟨hshown.port, hshown.offset, hshown.arrival, hshown.rate⟩, hgate⟩
  · have hfed := estimate_fed (s := u) (cyc := cyc) (hnear.leafRuns.trans hrun) hw (hfeed ▸ h)
      (by rw [hnear.gateCheck_pkt, hnear.dueOf, hfeed, hm]; exact hk) (by rw [hgate]; omega)
    rw [hfeed, hm, hoff, hnear.dueOf] at hfed
    rw [hfed]
    have hcnt : getF w PTPTS.EST_CNT n p 0 = getF s PTPTS.EST_CNT n p 0 := by rw [hw, estShown_count hp, hest]
    obtain ⟨v, hv⟩ : ∃ v, v = estCalled w p n (dueOf s cyc)
      (.pkt p (9 + getF s PTPTS.CFG_FEED n p 0) (rawFrn raw) (masterAt s n p origin corr (rawOfs raw) r) r) := ⟨_, rfl⟩
    obtain ⟨h1, h2, h3, h4⟩ := estCalled_shows hp n (dueOf s cyc)
      (.pkt p (9 + getF s PTPTS.CFG_FEED n p 0) (rawFrn raw) (masterAt s n p origin corr (rawOfs raw) r) r) hshown
    rw [← hv] at h1 h2 h3 h4 ⊢
    have hleft := timeAsked_leaves v p (9 + getF s PTPTS.CFG_FEED n p 0) cyc (-(offsetAt s p n raw origin corr r) / 512)
    have hshow := h1.of_kept (.of_page rfl hleft.page) hleft.ptps
    refine ⟨⟨hshow.port, hshow.offset, hshow.arrival, hshow.rate⟩, ?_, hleft.waits _ (by simp [h4]), fun hrun' hmode hact hbig hck => ?_⟩
    · refine (getF_of_pageCells hleft.page rfl (by decide) n p 0).trans (h2.trans ?_)
      rw [hcnt]
    · have hvw : PtpNear p s v := hnear.trans h3
      have hask : timeAsked v p (9 + getF s PTPTS.CFG_FEED n p 0) cyc (-(offsetAt s p n raw origin corr r) / 512) =
          gateCall v cyc (.time p p (-(offsetAt s p n raw origin corr r) / 512)) := by
        refine if_pos ?_
        have hactive : activeOf v p = activeOf s p := getF_of_pageCells (hvw.pages _ (by decide)) rfl (by decide) 0 p 0
        have hthresh : get1 v TIME.STEP_CFG_THRESH p = get1 s TIME.STEP_CFG_THRESH p := getF_lk (f := TIME.STEP_CFG_THRESH) rfl hvw.pol p 0 0
        rw [hvw.domRuns.1, hvw.domRuns.2, hactive, hthresh, hrun', hmode, hact]
        simp only [BEq.rfl, Bool.and_self, Bool.true_and, decide_eq_true_eq]
        exact hbig
      rw [hask, ← hvw.dueOf]
      refine gateCall_waits (hvw.leafRuns.trans hrun) ?_ ?_
      · rw [hvw.gateCheck_time, hvw.dueOf]
        exact hck
      · rw [h4, hgate, List.length_append, List.length_singleton]
        omega

/-! ### Sync and Follow_Up -/

/-- A Sync that its instance accepts, counted, its timestamp taken from the FIFO. -/
def syncCounted (s : State) (p : Nat) (m : PtpMsg) : State := addCnt (fifoTake s m.port (rxStamp s m)) PTPTS.RX_SYNC_CNT m.port p 1

/-- What a Sync reads of its instance block, beside what its estimate does. -/
def syncReads (p : Nat) : List Fld := [Fld.at PTPTS.STATE_PORT p, Fld.at PTPTS.PARENT_LO p, Fld.at PTPTS.PARENT_HI p, Fld.at PTPTS.EST_CNT p]

section

variable {s : State} {p : Nat} {m : PtpMsg}

theorem syncReceive_accepted (h : PtpAccepts s p m) (hm : masterOk s m.port p m.clockId = true) (origin r : Rat) (cyc : Nat) :
    syncReceive s p m origin r cyc = syncTaken (syncCounted s p m) p m origin r cyc := by
  have hacc : acceptMsg (fifoTake s m.port (rxStamp s m)) p m true = (fifoTake s m.port (rxStamp s m), true) :=
    acceptMsg_accepted (s := fifoTake s m.port (rxStamp s m)) h fun _ => hm
  unfold syncReceive
  rw [hacc]
  rfl

theorem syncCounted_counts (hp : p < 4) : Counted s (syncCounted s p m) PTPTS.RX_SYNC_CNT m.port p 1 := by
  have hplain : ∀ p < 4, Fld.plain PTPTS.RX_SYNC_CNT p 0 = true := by decide
  exact getF_addCnt_counter (by decide) rfl (hplain p hp) (fifoTake s m.port (rxStamp s m)) m.port 1

theorem syncCounted_near (hp : p < 4) : PtpNear p s (syncCounted s p m) ∧ Keeps (syncReads p) s (syncCounted s p m) := by
  have hfree : ∀ p < 4, ((estReads p).all (Fld.apart PTPTS.RX_SYNC_CNT p 0) = true ∧ (estReads p).all (Fld.lowPlain · 0 0) = true) ∧
    ((syncReads p).all (Fld.apart PTPTS.RX_SYNC_CNT p 0) = true ∧ (syncReads p).all (Fld.lowPlain · 0 0) = true) ∧
    Fld.apart PTPTS.RX_SYNC_CNT p 0 (HDR.EVT .ptpts) = true := by decide
  obtain ⟨⟨h1, h2⟩, ⟨h3, h4⟩, h5⟩ := hfree p hp
  exact ⟨(PtpNear.of_units ⟨_, _, _, rfl⟩).trans (.addCnt rfl h1 h5 h2 _ m.port 1),
    (Keeps.modEth _ s m.port _).trans (.addCnt ⟨⟨h3, h5⟩, h4⟩ _ m.port 1)⟩

theorem syncCounted_units : syncCounted s p m = { s with regs := (syncCounted s p m).regs, eths := (syncCounted s p m).eths } := by
  unfold syncCounted
  rw [eq_of_onlyRegs (addCnt_keeps (fifoTake s m.port (rxStamp s m)) PTPTS.RX_SYNC_CNT m.port p 1)]
  rfl

end

section

variable {s t : State} {p : Nat}

theorem isSlave_congr {n : Nat} (h : getF t PTPTS.STATE_PORT n p 0 = getF s PTPTS.STATE_PORT n p 0) : isSlave t n p = isSlave s n p := by
  unfold isSlave ptpState
  rw [h]

theorem parentOf_congr {n : Nat} (h : Keeps (syncReads p) s t) : parentOf t n p = parentOf s n p := by
  unfold parentOf
  rw [h.readsAt (f := PTPTS.PARENT_LO) (by decide) (by simp [syncReads]) n, h.readsAt (f := PTPTS.PARENT_HI) (by decide) (by simp [syncReads]) n]

theorem PtpNear.tsValid (h : PtpNear p s t) (n : Nat) : tsValid t n = tsValid s n :=
  congrArg (· == 1) (h.get1_page (f := ETH.STATUS_TS_VALID) (by decide) (by decide) n)

theorem PtpNear.rxStamp (h : PtpNear p s t) (m : PtpMsg) : rxStamp t m = rxStamp s m := by
  unfold Machine.rxStamp rxRaw
  rw [h.get1_page (f := ETH.CAL_RX) (by decide) (by decide) m.port, show get1 t ETH.BOARD_RX m.port = get1 s ETH.BOARD_RX m.port from
    getF_lk (f := ETH.BOARD_RX) rfl h.pol m.port 0 0]

end

theorem syncTaken_counted {p : Nat} (hp : p < 4) (s : State) (m : PtpMsg) (origin r : Rat) (cyc : Nat) :
    PageKept .ptpts [Fld.at PTPTS.RX_SYNC_CNT p] s (syncTaken s p m origin r cyc) := by
  have hfree : ∀ p < 4, [Fld.at PTPTS.RX_SYNC_CNT p].all closeFree = true ∧ [Fld.at PTPTS.RX_SYNC_CNT p].all (Fld.apart PTPTS.EST_CNT p 0) = true ∧
    [Fld.at PTPTS.RX_SYNC_CNT p].all (Fld.apart PTPTS.OFFSET p 0) = true := by decide
  obtain ⟨h1, h2, h3⟩ := hfree p hp
  unfold syncTaken
  exact .ite (.refl ..) (.ite (.of_keeps (by decide) (.modPtp ..)) (estimate_pageKept h1 h2 h3 hp s m.port cyc _ origin _ r))

/-- What a Sync that its instance accepts comes to (R409, R411). -/
theorem syncReceive_shows {s : State} (hs : Shaped s) {p : Nat} (hp : p < 4) {m : PtpMsg} (h : PtpAccepts s p m)
    (hm : masterOk s m.port p m.clockId = true) (origin r : Rat) (cyc : Nat) :
    Counted s (syncReceive s p m origin r cyc) PTPTS.RX_SYNC_CNT m.port p 1 ∧
    (¬ (isSlave s m.port p = true ∧ parentOf s m.port p = m.clockId ∧ tsValid s m.port = true) →
      syncReceive s p m origin r cyc =
        { s with regs := (syncReceive s p m origin r cyc).regs, eths := (syncReceive s p m origin r cyc).eths }) ∧
    (isSlave s m.port p = true ∧ parentOf s m.port p = m.clockId ∧ tsValid s m.port = true → m.twoStep = true →
      (syncReceive s p m origin r cyc).gate = s.gate ∧ (ptpOf (syncReceive s p m origin r cyc) p).pend =
        some ⟨m.port, m.seqId, m.clockId, rxStamp s m, m.correction, s.frn⟩) ∧
    (isSlave s m.port p = true ∧ parentOf s m.port p = m.clockId ∧ tsValid s m.port = true → m.twoStep = false →
      PtpEstimated s (syncReceive s p m origin r cyc) p m.port cyc (rxStamp s m) origin m.correction r) := by
  rw [syncReceive_accepted h hm]
  have hcnt := syncCounted_counts (s := s) (m := m) hp
  obtain ⟨hnear, hkeeps⟩ := syncCounted_near (s := s) (m := m) hp
  have hunits := syncCounted_units (s := s) (p := p) (m := m)
  generalize syncCounted s p m = u at *
  have hslave : isSlave u m.port p = isSlave s m.port p := isSlave_congr (hkeeps.readsAt (by decide) (by simp [syncReads]) m.port)
  have hpar := parentOf_congr (n := m.port) hkeeps
  have hstamp := hnear.rxStamp m
  have hfrn : u.frn = s.frn := by rw [hunits]
  have hlen : u.ptps.length = 4 := by rw [hunits]; exact hs.ptps
  have hunfollowed : ¬ (isSlave s m.port p = true ∧ parentOf s m.port p = m.clockId ∧ tsValid s m.port = true) → syncTaken u p m origin r cyc = u := by
    intro hno
    refine if_pos ?_
    rw [hslave, hpar, hnear.tsValid]
    by_contra hne
    simp only [Bool.or_eq_true, Bool.not_eq_true', bne_iff_ne, not_or, Bool.not_eq_false, not_not] at hne
    exact hno ⟨hne.1.1, hne.1.2, hne.2⟩
  have hfollowed : isSlave s m.port p = true ∧ parentOf s m.port p = m.clockId ∧ tsValid s m.port = true → syncTaken u p m origin r cyc =
      if m.twoStep then modPtp u p fun x => { x with pend := some ⟨m.port, m.seqId, m.clockId, rxStamp u m, m.correction, u.frn⟩ }
      else estimate u p m.port cyc (rxStamp u m) origin m.correction r := by
    rintro ⟨h1, h2, h3⟩
    exact if_neg (by simp [hslave, hpar, hnear.tsValid, h1, h2, h3])
  refine ⟨?_, fun hno => ?_, fun hyes htwo => ?_, fun hyes hone => ?_⟩
  · have hk := syncTaken_counted hp u m origin r cyc
    exact (hk.readsAt (by decide) List.mem_cons_self m.port).trans hcnt
  · rw [hunfollowed hno]
    exact hunits
  · rw [hfollowed hyes, if_pos htwo, hstamp, hfrn]
    exact ⟨by rw [hunits]; rfl, congrArg PtpU.pend (ptpOf_modPtp (hlen ▸ hp) _)⟩
  · rw [hfollowed hyes, if_neg (by simp [hone]), hstamp]
    exact estimate_shows hlen hp hnear (by rw [hunits]) h.2.1 (hkeeps.readsAt (by decide) (by simp [syncReads]) m.port) cyc _ origin _ r

/-- No Sync of instance `p` comes to wait between two states. -/
structure NoPend (p : Nat) (s t : State) : Prop where
  idle : (ptpOf s p).pend = none → (ptpOf t p).pend = none

namespace NoPend

variable {p : Nat} {s t u : State}

theorem refl (p : Nat) (s : State) : NoPend p s s := ⟨id⟩

theorem trans (h : NoPend p s t) (g : NoPend p t u) : NoPend p s u := ⟨g.idle ∘ h.idle⟩

theorem of_ptps (h : t.ptps = s.ptps) : NoPend p s t := ⟨fun hn => (congrArg (fun l : List PtpU => (l.getD p {}).pend) h).trans hn⟩

theorem ite {c : Prop} [Decidable c] (ht : NoPend p s t) (hu : NoPend p s u) : NoPend p s (if c then t else u) := by
  split
  · exact ht
  · exact hu

theorem modPtp {f : PtpU → PtpU} (hf : ∀ x, x.pend = none → (f x).pend = none) (s : State) (q : Nat) : NoPend p s (modPtp s q f) := by
  refine ⟨fun hn => ?_⟩
  by_cases hq : p < s.ptps.length
  · by_cases he : q = p
    · subst he
      rw [ptpOf_modPtp hq]
      exact hf _ hn
    · exact (congrArg PtpU.pend (ptpOf_modPtp_ne (fun h => he h.symm) s f)).trans hn
  · have hlen : (Machine.modPtp s q f).ptps.length = s.ptps.length := List.length_modify ..
    show ((Machine.modPtp s q f).ptps.getD p {}).pend = none
    rw [List.getD_eq_default _ _ (by omega)]

theorem instClear (s : State) (q : Nat) : NoPend p s (instClear s q) := by
  unfold Machine.instClear
  extract_lets s1
  refine (NoPend.of_ptps ?_).trans (.modPtp (fun _ _ => rfl) s1 q)
  simp [s1, cite @blockClear_keeps, cite @foldl_state]

theorem instClose (s : State) (q cause : Nat) : NoPend p s (instClose s q cause) := by
  unfold Machine.instClose
  refine .ite (.refl ..) ?_
  extract_lets ps closes held s1 s2 s3
  have h1 : NoPend p s s1 := .of_ptps (by simp [s1, cite @pktFail_keeps, cite @foldl_state])
  have h2 : NoPend p s s2 := (h1.trans (.instClear s1 q)).trans (.modPtp (f := fun u => { u with closes := closes, held := held }) (fun _ h => h) _ q)
  have h3 : NoPend p s s3 :=
    h2.trans (.of_ptps (by simp [s3, cite @ptpEvt_keeps, cite @addCnt_keeps, cite @setF_keeps, cite @foldl_state]))
  exact h3.trans (.of_ptps (by simp [cite @journalPg_keeps]))

theorem callRefuse (s : State) (c : GateCall) (r : Nat) : NoPend p s (callRefuse s c r) := by
  cases hc : c.isPkt with
  | false =>
    rw [callRefuse_of_notPkt hc]
    exact .of_ptps (gateRefuse_leaves ..).ptps
  | true =>
    cases c with
    | pkt q d fe m x =>
      refine (NoPend.of_ptps (gateRefuse_leaves s (GateCall.code (.pkt q d fe m x)) r).ptps).trans ?_
      show NoPend p _ (pktRefused (gateRefuse s (GateCall.code (.pkt q d fe m x)) r) q)
      generalize gateRefuse s (GateCall.code (.pkt q d fe m x)) r = v
      have h1 : NoPend p v (Machine.modPtp v q fun u => { u with refused := (ptpOf v q).refused + 1 }) :=
        .modPtp (f := fun u => { u with refused := (ptpOf v q).refused + 1 }) (fun _ h => h) v q
      exact .ite (h1.trans (.instClose ..)) h1
    | _ => simp [GateCall.isPkt] at hc

theorem gateCall (s : State) (cyc : Nat) (c : GateCall) : NoPend p s (gateCall s cyc c) := by
  cases hrun : leafRuns s with
  | false => rw [gateCall_stopped hrun]; exact .refl ..
  | true =>
    cases hk : gateCheck s (Machine.dueOf s cyc) c with
    | some r => rw [gateCall_refused hrun hk]; exact .callRefuse ..
    | none =>
      by_cases hroom : s.gate.queue.length < 256
      · rw [gateCall_queued hrun hk hroom]
        exact .of_ptps rfl
      · rw [gateCall_full hrun hk (by omega)]
        exact .callRefuse ..

theorem estimate (s : State) (q n cyc : Nat) (raw : Int) (origin : Rat) (corr : Int) (r : Rat) :
    NoPend p s (estimate s q n cyc raw origin corr r) := by
  unfold Machine.estimate
  extract_lets m off s1 s2 feed c s3 s4 ns
  have h1 : NoPend p s s1 := .of_ptps (by simp [s1, cite @setF_keeps, cite @setPtpPort_keeps])
  have h2 : NoPend p s s2 := h1.trans (.modPtp (f := fun u => { u with arrival := raw, rate := r }) (fun _ h => h) s1 q)
  have h3 : NoPend p s s3 := h2.trans (.gateCall ..)
  have h4 : NoPend p s s4 := .ite (h3.trans (.of_ptps (by simp [cite @addCnt_keeps]))) h3
  exact .ite h2 (.ite (h4.trans (.gateCall ..)) h4)

end NoPend

/-- A Follow_Up names the Sync that waits. -/
def FollowsUp (w : TwoStep) (m : PtpMsg) : Prop := w.port = m.port ∧ w.seq = m.seqId ∧ w.id = m.clockId

/-- A Follow_Up of no Sync that waits changes nothing. -/
theorem followUp_unmatched {s : State} {p : Nat} {m : PtpMsg} (h : PtpAccepts s p m) (origin r : Rat) (cyc : Nat)
    (hno : ∀ w, (ptpOf s p).pend = some w → ¬ FollowsUp w m) : followUp s p m origin r cyc = s := by
  unfold followUp
  rw [acceptMsg_accepted h (named := false) (by simp)]
  dsimp only
  refine (if_neg (by decide)).trans ?_
  cases hw : (ptpOf s p).pend with
  | none => rfl
  | some w => exact if_neg (hno w hw)

/-- A Sync that its Follow_Up completes waits no longer. -/
def pendTaken (s : State) (p : Nat) : State := modPtp s p fun u => { u with pend := none }

theorem followUp_matched {s : State} {p : Nat} {m : PtpMsg} (h : PtpAccepts s p m) (origin r : Rat) (cyc : Nat) {w : TwoStep}
    (hw : (ptpOf s p).pend = some w) (hmatch : FollowsUp w m) : followUp s p m origin r cyc =
      if s.frn ≤ w.frn + 8000 ∧ isSlave s m.port p = true ∧ tsValid s m.port = true then
        estimate (pendTaken s p) p m.port cyc w.raw origin (w.corr + m.correction) r
      else pendTaken s p := by
  unfold followUp
  rw [acceptMsg_accepted h (named := false) (by simp)]
  dsimp only
  refine (if_neg (by decide)).trans ?_
  rw [hw, ← hmatch.1]
  exact if_pos ⟨rfl, hmatch.2⟩

/-- What a Follow_Up that its instance accepts comes to (R409). -/
theorem followUp_shows {s : State} (hs : Shaped s) {p : Nat} (hp : p < 4) {m : PtpMsg} (h : PtpAccepts s p m) (origin r : Rat) (cyc : Nat)
    {w : TwoStep} (hw : (ptpOf s p).pend = some w) (hmatch : FollowsUp w m) :
    (ptpOf (followUp s p m origin r cyc) p).pend = none ∧
    (s.frn ≤ w.frn + 8000 ∧ isSlave s m.port p = true ∧ tsValid s m.port = true →
      PtpEstimated s (followUp s p m origin r cyc) p m.port cyc w.raw origin (w.corr + m.correction) r) ∧
    (¬ (s.frn ≤ w.frn + 8000 ∧ isSlave s m.port p = true ∧ tsValid s m.port = true) →
      followUp s p m origin r cyc = { s with ptps := (followUp s p m origin r cyc).ptps }) := by
  rw [followUp_matched h origin r cyc hw hmatch]
  obtain ⟨u, hu⟩ : ∃ u, u = pendTaken s p := ⟨_, rfl⟩
  rw [← hu]
  have hlen : u.ptps.length = 4 := by rw [hu]; exact (List.length_modify ..).trans hs.ptps
  have hpend : (ptpOf u p).pend = none := by
    rw [hu]
    exact congrArg PtpU.pend (ptpOf_modPtp (hs.ptps ▸ hp) _)
  have hnear : PtpNear p s u := .of_units ⟨s.eths, u.ptps, s.gate, by rw [hu]; rfl⟩
  have hgate : u.gate = s.gate := by rw [hu]; rfl
  have hcnt : getF u PTPTS.EST_CNT m.port p 0 = getF s PTPTS.EST_CNT m.port p 0 := by rw [hu]; exact getF_modPtp ..
  refine ⟨?_, fun hin => ?_, fun hno => ?_⟩
  · split
    · exact (NoPend.estimate u p m.port cyc _ origin _ r).idle hpend
    · exact hpend
  · rw [if_pos hin]
    exact estimate_shows hlen hp hnear hgate h.2.1 hcnt cyc _ origin _ r
  · rw [if_neg hno, hu]
    rfl

/-! ### Announce -/

/-- A state that differs from another in nothing that the boundary calls of an Announce read. -/
structure CallNear (s t : State) : Prop where
  pol : t.pol = s.pol
  leaf : leafRuns t = leafRuns s
  due : t.frn = s.frn ∧ t.phase = s.phase
  gate : t.gate = s.gate
  insts : t.ptps.length = s.ptps.length

theorem CallNear.refl (s : State) : CallNear s s := ⟨rfl, rfl, ⟨rfl, rfl⟩, rfl, rfl⟩

theorem CallNear.trans {s t u : State} (h : CallNear s t) (g : CallNear t u) : CallNear s u :=
  ⟨g.pol.trans h.pol, g.leaf.trans h.leaf, ⟨g.due.1.trans h.due.1, g.due.2.trans h.due.2⟩, g.gate.trans h.gate, g.insts.trans h.insts⟩

theorem dueOf_congr {s t : State} (h : t.frn = s.frn ∧ t.phase = s.phase) (cyc : Nat) : dueOf t cyc = dueOf s cyc := by
  unfold dueOf
  rw [h.1, h.2]

theorem CallLeaves.due {s t : State} (h : CallLeaves s t) (cyc : Nat) : dueOf t cyc = dueOf s cyc := dueOf_congr h.times cyc

/-- The parent's grandmaster is shown, and whether its UTC is valid. -/
def grandmasterShown (s : State) (n p : Nat) (b : AnnounceBody) : State :=
  modPtp (setF (setF s PTPTS.GM_CLASS n p 0 b.gmClass) PTPTS.GM_STEPS n p 0 b.steps) p fun u => { u with utcOk := b.utcValid }

/-- The parent's UTC goes to the partition. -/
def utcCalled (s : State) (p cyc : Nat) (b : AnnounceBody) : State :=
  if b.utcValid then gateCall s cyc (.utc p p b.utcOfs b.leap61 b.leap59) else s

/-- The parent's clockClass goes to the channel that the instance feeds. -/
def classCalled (s : State) (n p cyc : Nat) (b : AnnounceBody) : State :=
  if 10 ≤ 9 + getF s PTPTS.CFG_FEED n p 0 ∧ 9 + getF s PTPTS.CFG_FEED n p 0 < 12 ∧ qlSrc s (9 + getF s PTPTS.CFG_FEED n p 0) = 4 then
    gateCall s cyc (.ql (9 + getF s PTPTS.CFG_FEED n p 0) 4 0 0 (some b.gmClass) true)
  else s

theorem fromParent_eq (s : State) (n p : Nat) (b : AnnounceBody) (cyc : Nat) :
    fromParent s n p b cyc = classCalled (utcCalled (grandmasterShown s n p b) p cyc b) n p cyc b := rfl

theorem utcCalled_leaves (s : State) (p cyc : Nat) (b : AnnounceBody) : CallLeaves s (utcCalled s p cyc b) := by
  unfold utcCalled
  split
  · exact gateCall_leaves rfl s cyc
  · exact .refl s

theorem classCalled_leaves (s : State) (n p cyc : Nat) (b : AnnounceBody) : CallLeaves s (classCalled s n p cyc b) := by
  unfold classCalled
  split
  · exact gateCall_leaves rfl s cyc
  · exact .refl s

/-- The fields of an instance block that an Announce of the parent leaves. -/
def parentFlds (p : Nat) : List Fld := [Fld.at PTPTS.STATE_PORT p, Fld.at PTPTS.PARENT_LO p, Fld.at PTPTS.PARENT_HI p]

theorem grandmasterShown_shows {s : State} {p : Nat} (hp : p < 4) (hl : s.ptps.length = 4) (n : Nat) {b : AnnounceBody} (hc : b.gmClass < 256)
    (hst : b.steps < 2 ^ 16) : getF (grandmasterShown s n p b) PTPTS.GM_CLASS n p 0 = b.gmClass ∧
    getF (grandmasterShown s n p b) PTPTS.GM_STEPS n p 0 = b.steps ∧ (ptpOf (grandmasterShown s n p b) p).utcOk = b.utcValid := by
  have hplace : ∀ p < 4, Fld.place PTPTS.GM_CLASS p 0 ≠ Fld.place PTPTS.GM_STEPS p 0 := by decide
  refine ⟨?_, ?_, ?_⟩
  · exact (getF_modPtp ..).trans ((getF_setF_place (f := PTPTS.GM_STEPS) (g := PTPTS.GM_CLASS) rfl (hplace p hp) _ n _).trans
      (getF_setF_fits (f := PTPTS.GM_CLASS) (by decide) hc s n p 0))
  · exact (getF_modPtp ..).trans (getF_setF_fits (f := PTPTS.GM_STEPS) (by decide) hst _ n p 0)
  · exact congrArg PtpU.utcOk (ptpOf_modPtp (by simp only [cite @setF_keeps, hl]; exact hp) _)

theorem grandmasterShown_keeps {p : Nat} (hp : p < 4) (s : State) (n : Nat) (b : AnnounceBody) :
    PageKept .ptpts (parentFlds p) s (grandmasterShown s n p b) ∧ CallNear s (grandmasterShown s n p b) := by
  have happ : ∀ p < 4, ((parentFlds p).all (Fld.apart PTPTS.GM_CLASS p 0) = true ∧ Fld.apart PTPTS.GM_CLASS p 0 (HDR.EVT .ptpts) = true) ∧
    (parentFlds p).all (Fld.apart PTPTS.GM_STEPS p 0) = true ∧ Fld.apart PTPTS.GM_STEPS p 0 (HDR.EVT .ptpts) = true := by decide
  obtain ⟨h1, h2⟩ := happ p hp
  refine ⟨.of_keeps (by decide) (((Keeps.setF h1 s n _).after_setF h2).trans (.modPtp ..)), ?_, ?_, ?_, ?_, ?_⟩
  · simp [grandmasterShown, cite @modPtp_keeps, cite @setF_keeps]
  · refine leafRuns_of_page ?_
    simp [grandmasterShown, cite @modPtp_keeps]
  · simp [grandmasterShown, cite @modPtp_keeps, cite @setF_keeps]
  · simp [grandmasterShown, cite @modPtp_keeps, cite @setF_keeps]
  · simp [grandmasterShown, modPtp, cite @setF_keeps]

theorem gateCheck_utc {s : State} {p : Nat} {b : AnnounceBody} (hv : (ptpOf s p).utcOk = true) (hofs : b.utcOfs.natAbs ≤ 255)
    (hleap : b.leap61 = false ∨ b.leap59 = false) (due : Nat) : gateCheck s due (.utc p p b.utcOfs b.leap61 b.leap59) = none := by
  unfold gateCheck
  refine (if_neg (by simp [hv])).trans (if_neg ?_)
  rcases hleap with h | h <;> simp [h, hofs]

/-- An Announce of the parent, taken in a state that differs in nothing that it reads (R401). -/
theorem fromParent_shows {s u : State} (hl : u.ptps.length = 4) {p : Nat} (hp : p < 4) (hu : CallNear s u) (hrun : leafRuns s = true) (n cyc : Nat)
    {b : AnnounceBody} (hc : b.gmClass < 256) (hst : b.steps < 2 ^ 16) :
    AnnounceTaken s (fromParent u n p b cyc) p n cyc b ∧ PageKept .ptpts (parentFlds p) u (fromParent u n p b cyc) := by
  rw [fromParent_eq]
  obtain ⟨hclass, hsteps, hutc⟩ := grandmasterShown_shows hp hl n hc hst
  obtain ⟨hkept, hnear⟩ := grandmasterShown_keeps hp u n b
  generalize grandmasterShown u n p b = w at *
  have hw := hu.trans hnear
  have h1 := utcCalled_leaves w p cyc b
  have h2 := classCalled_leaves (utcCalled w p cyc b) n p cyc b
  have hpage := h2.page.trans h1.page
  have hptps := h2.ptps.trans h1.ptps
  have hfeed : getF (utcCalled w p cyc b) PTPTS.CFG_FEED n p 0 = getF s PTPTS.CFG_FEED n p 0 := getF_lk rfl (h1.pol.trans hw.pol) n p 0
  refine ⟨⟨?_, ?_, ?_, fun hroom => ⟨fun hv hofs hleap => ?_, fun hlo hhi hsrc => ?_⟩⟩, hkept.trans (.of_page rfl hpage)⟩
  · exact (getF_of_pageCells (f := PTPTS.GM_CLASS) hpage rfl (by decide) n p 0).trans hclass
  · exact (getF_of_pageCells (f := PTPTS.GM_STEPS) hpage rfl (by decide) n p 0).trans hsteps
  · exact (congrArg (fun l : List PtpU => (l.getD p {}).utcOk) hptps).trans hutc
  · refine h2.waits _ ?_
    have heq : utcCalled w p cyc b = gateCall w cyc (.utc p p b.utcOfs b.leap61 b.leap59) := if_pos hv
    rw [heq, ← dueOf_congr hw.due]
    exact gateCall_waits (hw.leaf.trans hrun) (gateCheck_utc (hutc.trans hv) hofs hleap _) (by rw [hw.gate]; omega)
  · have hsrc' : qlSrc (utcCalled w p cyc b) (9 + getF s PTPTS.CFG_FEED n p 0) = 4 := by
      unfold qlSrc at hsrc ⊢
      rw [h1.pol.trans hw.pol]
      exact hsrc
    have heq : classCalled (utcCalled w p cyc b) n p cyc b =
        gateCall (utcCalled w p cyc b) cyc (.ql (9 + getF s PTPTS.CFG_FEED n p 0) 4 0 0 (some b.gmClass) true) := by
      unfold classCalled
      rw [hfeed]
      exact if_pos ⟨hlo, hhi, hsrc'⟩
    rw [heq, ← dueOf_congr hw.due, ← h1.due]
    refine gateCall_waits (h1.root.trans (hw.leaf.trans hrun)) (if_pos ⟨hhi, by decide, hsrc', nofun⟩) ?_
    have := h1.room
    rw [hw.gate] at this
    omega

/-! ### A change of parent -/

theorem setParent_shows {s : State} {p : Nat} (hp : p < 4) (n : Nat) {id : Nat} (hid : id < 2 ^ 64) :
    parentOf (setParent s n p id) n p = id ∧ Raised (setParent s n p id) .ptpts n 1 ∧ CallNear s (setParent s n p id) := by
  have happ : ∀ p < 4, Fld.place PTPTS.PARENT_LO p 0 ≠ Fld.place PTPTS.PARENT_HI p 0 ∧
    [Fld.at PTPTS.PARENT_LO p, Fld.at PTPTS.PARENT_HI p].all (Fld.lowPlain · 0 0) = true := by decide
  obtain ⟨hplace, hplain⟩ := happ p hp
  have hset : getF (setF (setF s PTPTS.PARENT_LO n p 0 id) PTPTS.PARENT_HI n p 0 (id / 2 ^ 32)) PTPTS.PARENT_LO n p 0 = id % 2 ^ 32 ∧
      getF (setF (setF s PTPTS.PARENT_LO n p 0 id) PTPTS.PARENT_HI n p 0 (id / 2 ^ 32)) PTPTS.PARENT_HI n p 0 = id / 2 ^ 32 % 2 ^ 32 :=
    ⟨(getF_setF_place (f := PTPTS.PARENT_HI) (g := PTPTS.PARENT_LO) rfl hplace _ n _).trans (getF_setF_same _ PTPTS.PARENT_LO n p 0 id (by decide)),
      getF_setF_same _ PTPTS.PARENT_HI n p 0 _ (by decide)⟩
  have hpage : ∀ v, pageCells .ptpts (journalPg v 0x072 (some p) .ptpts n id).regs = pageCells .ptpts v.regs := fun v => by simp
  have hroot : pageCells .root (setParent s n p id).regs = pageCells .root s.regs := by simp [setParent]
  refine ⟨?_, ?_, ?_, leafRuns_of_page hroot, ?_, ?_, ?_⟩
  · have hk : Keeps [Fld.at PTPTS.PARENT_LO p, Fld.at PTPTS.PARENT_HI p] _
      (ptpEvt (setF (setF s PTPTS.PARENT_LO n p 0 id) PTPTS.PARENT_HI n p 0 (id / 2 ^ 32)) n p 1) := .ptpEvt hplain _ n p 1
    unfold setParent parentOf
    extract_lets s1
    rw [getF_of_pageCells (f := PTPTS.PARENT_LO) (hpage _) rfl (by decide), getF_of_pageCells (f := PTPTS.PARENT_HI) (hpage _) rfl (by decide),
      hk.readsAt (f := PTPTS.PARENT_LO) (by decide) (by simp), hk.readsAt (f := PTPTS.PARENT_HI) (by decide) (by simp), hset.1, hset.2]
    omega
  · refine raised_of_page (hpage _) (by simp [setParent, cite @journalPg_keeps]) n 1 |>.mpr ?_
    exact (raised_evt (by decide) _ .ptpts n).evt_any (by decide) (by decide) .part p 13
  · simp [cite @setParent_keeps]
  · simp [cite @setParent_keeps]
  · simp [cite @setParent_keeps]
  · simp [cite @setParent_keeps]

/-- The cells of instance `p` on one port that a lost parent changes. -/
def portFlds : List Fld := [PTPTS.STATE_PORT, PTPTS.PARENT_LO, PTPTS.PARENT_HI, PTPTS.GM_CLASS, PTPTS.GM_STEPS]

/-- What a port shows of its parent stands between two states, and so does what the instance holds of none. -/
structure PortKept (p n : Nat) (s t : State) : Prop where
  reads : ∀ f ∈ portFlds, getF t f n p 0 = getF s f n p 0
  pend : (ptpOf s p).pend = none → (ptpOf t p).pend = none
  utc : (ptpOf s p).utcOk = false → (ptpOf t p).utcOk = false

namespace PortKept

variable {p n : Nat} {s t u : State}

theorem refl (p n : Nat) (s : State) : PortKept p n s s := ⟨fun _ _ => rfl, id, id⟩

theorem trans (h : PortKept p n s t) (g : PortKept p n t u) : PortKept p n s u :=
  ⟨fun f hf => (g.reads f hf).trans (h.reads f hf), g.pend ∘ h.pend, g.utc ∘ h.utc⟩

theorem ite {c : Prop} [Decidable c] (ht : PortKept p n s t) (hu : PortKept p n s u) : PortKept p n s (if c then t else u) := by
  split
  · exact ht
  · exact hu

theorem of_reads (h : ∀ f ∈ portFlds, getF t f n p 0 = getF s f n p 0) (hu : t.ptps = s.ptps) : PortKept p n s t :=
  ⟨h, fun hn => (congrArg (fun l : List PtpU => (l.getD p {}).pend) hu).trans hn,
    fun hn => (congrArg (fun l : List PtpU => (l.getD p {}).utcOk) hu).trans hn⟩

/-- A cell of another port. -/
theorem setF {f : Fld} (hf : f ∈ portFlds) (hp : p < 4) {m : Nat} (hn : n < 2) (hm : m < 2) (hne : n ≠ m) (s : State) (v : Nat) :
    PortKept p n s (setF s f m p 0 v) := by
  have hkey : ∀ f ∈ portFlds, ∀ g ∈ portFlds, ∀ p < 4, ∀ n < 2, ∀ m < 2, n ≠ m → fldKey g n p 0 ≠ fldKey f m p 0 := by decide +kernel
  exact of_reads (fun g hg => getF_setF_ne _ _ _ _ _ _ _ _ _ _ (hkey f hf g hg p hp n hn m hm hne)) (by simp [cite @setF_keeps])

theorem ptpEvt (hp : p < 4) (s : State) (m bit : Nat) : PortKept p n s (ptpEvt s m p bit) := by
  have hplain : ∀ p < 4, (portFlds.map (Fld.at · p)).all (Fld.lowPlain · 0 0) = true := by decide
  have hacc : ∀ f ∈ portFlds, f.acc ≠ .lk := by decide
  have hk := Keeps.ptpEvt (hplain p hp) s m p bit
  exact of_reads (fun f hf => hk.readsAt (hacc f hf) (List.mem_map_of_mem hf) n) (by simp [Machine.ptpEvt, partEvt, cite @evt_keeps])

theorem journalPg (s : State) (code : Nat) (part : Option Nat) (q : Page) (inst data : Nat) : PortKept p n s (journalPg s code part q inst data) := by
  have hfld : ∀ f ∈ portFlds, f.page = .ptpts ∧ f.acc ≠ .lk := by decide
  exact of_reads (fun f hf => getF_of_pageCells (p := .ptpts) (by simp) (hfld f hf).1 (hfld f hf).2 n p 0) (by simp [cite @journalPg_keeps])

theorem modPtp {f : PtpU → PtpU} (hpend : ∀ x, x.pend = none → (f x).pend = none) (hutc : ∀ x, x.utcOk = false → (f x).utcOk = false)
    (s : State) (hp : p < s.ptps.length) : PortKept p n s (modPtp s p f) := by
  have heq := ptpOf_modPtp hp f
  exact ⟨fun g _ => getF_modPtp .., fun h => (congrArg PtpU.pend heq).trans (hpend _ h), fun h => (congrArg PtpU.utcOk heq).trans (hutc _ h)⟩

theorem setPtpPort (hp : p < 4) {m : Nat} (hn : n < 2) (hm : m < 2) (hne : n ≠ m) (s : State) (v : Nat) : PortKept p n s (setPtpPort s m p v) := by
  unfold Machine.setPtpPort
  exact .ite (.refl ..) ((PortKept.setF (by decide) hp hn hm hne s v).trans (.ptpEvt hp _ m 2))

theorem setParent (hp : p < 4) {m : Nat} (hn : n < 2) (hm : m < 2) (hne : n ≠ m) (s : State) (id : Nat) : PortKept p n s (setParent s m p id) :=
  (((PortKept.setF (f := PTPTS.PARENT_LO) (by decide) hp hn hm hne s id).trans (.setF (f := PTPTS.PARENT_HI) (by decide) hp hn hm hne _ _)).trans
    (.ptpEvt hp _ m 1)).trans (.journalPg ..)

/-- A parent lost on another port. -/
theorem portParentLost (hp : p < 4) {m : Nat} (hn : n < 2) (hm : m < 2) (hne : n ≠ m) {s : State} (hl : s.ptps.length = 4) (v : Nat) :
    PortKept p n s (portParentLost s p m v) := by
  unfold Machine.portParentLost
  extract_lets s1
  have h1 : PortKept p n s s1 := ((PortKept.setParent hp hn hm hne s 0).trans (.setF (f := PTPTS.GM_CLASS) (by decide) hp hn hm hne _ _)).trans
    (.setF (f := PTPTS.GM_STEPS) (by decide) hp hn hm hne _ _)
  have hl1 : s1.ptps.length = 4 := by simp [s1, cite @setF_keeps, cite @setParent_keeps, hl]
  refine (h1.trans (.modPtp (fun _ _ => rfl) (fun _ _ => rfl) s1 (hl1 ▸ hp))).trans (.setPtpPort hp hn hm hne _ v)

end PortKept

theorem ParentEnded.of_kept {s t : State} {p n : Nat} (h : ParentEnded s n p) (hk : PortKept p n s t) : ParentEnded t n p := by
  obtain ⟨hpar, hclass, hsteps, hutc, hpend⟩ := h
  refine ⟨?_, (hk.reads _ (by decide)).trans hclass, (hk.reads _ (by decide)).trans hsteps, hk.utc hutc, hk.pend hpend⟩
  unfold parentOf at hpar ⊢
  rw [hk.reads _ (by decide), hk.reads _ (by decide), hpar]

/-- A port whose parent is lost follows none, and takes its state (R401). -/
theorem portParentLost_shows {s : State} (hl : s.ptps.length = 4) {p : Nat} (hp : p < 4) (n : Nat) {v : Nat} (hv : v < 2 ^ 4) :
    ParentEnded (portParentLost s p n v) n p ∧ getF (portParentLost s p n v) PTPTS.STATE_PORT n p 0 = v := by
  have happ : ∀ p < 4, (∀ f ∈ [PTPTS.PARENT_LO, PTPTS.PARENT_HI], Fld.place f p 0 ≠ Fld.place PTPTS.GM_CLASS p 0 ∧
      Fld.place f p 0 ≠ Fld.place PTPTS.GM_STEPS p 0) ∧ Fld.place PTPTS.GM_CLASS p 0 ≠ Fld.place PTPTS.GM_STEPS p 0 ∧
    ([PTPTS.PARENT_LO, PTPTS.PARENT_HI, PTPTS.GM_CLASS, PTPTS.GM_STEPS].map (Fld.at · p)).all stateFree = true := by decide
  have hfld : ∀ f ∈ [PTPTS.PARENT_LO, PTPTS.PARENT_HI, PTPTS.GM_CLASS, PTPTS.GM_STEPS], f.acc ≠ .lk := by decide
  obtain ⟨hplace, hgm, hfree⟩ := happ p hp
  obtain ⟨u, hu⟩ : ∃ u, u = setF (setF (setParent s n p 0) PTPTS.GM_CLASS n p 0 255) PTPTS.GM_STEPS n p 0 0 := ⟨_, rfl⟩
  have hpar : parentOf u n p = 0 := by
    have hkeep : ∀ f ∈ [PTPTS.PARENT_LO, PTPTS.PARENT_HI], getF u f n p 0 = getF (setParent s n p 0) f n p 0 := fun f hf => by
      have hpage : f.page = .ptpts := (by decide : ∀ f ∈ [PTPTS.PARENT_LO, PTPTS.PARENT_HI], f.page = .ptpts) f hf
      rw [hu, getF_setF_place hpage (hplace f hf).2, getF_setF_place hpage (hplace f hf).1]
    unfold parentOf
    rw [hkeep _ (by decide), hkeep _ (by decide)]
    exact (setParent_shows hp n (by decide)).1
  have hclass : getF u PTPTS.GM_CLASS n p 0 = 255 := by
    rw [hu, getF_setF_place (f := PTPTS.GM_STEPS) (g := PTPTS.GM_CLASS) rfl hgm]
    exact getF_setF_fits (f := PTPTS.GM_CLASS) (by decide) (by decide) _ n p 0
  have hsteps : getF u PTPTS.GM_STEPS n p 0 = 0 := by
    rw [hu]
    exact getF_setF_fits (f := PTPTS.GM_STEPS) (by decide) (by decide) _ n p 0
  have hlen : u.ptps.length = 4 := by rw [hu]; simp [cite @setF_keeps, cite @setParent_keeps, hl]
  have heq : portParentLost s p n v = setPtpPort (modPtp u p fun x => { x with utcOk := false, pend := none }) n p v := by rw [hu]; rfl
  rw [heq]
  have hptp := ptpOf_modPtp (hlen ▸ hp) fun x => { x with utcOk := false, pend := none }
  have hparts : (setPtpPort (modPtp u p fun x => { x with utcOk := false, pend := none }) n p v).ptps =
      (modPtp u p fun x => { x with utcOk := false, pend := none }).ptps := by simp only [cite @setPtpPort_keeps]
  have hk : ∀ f ∈ [PTPTS.PARENT_LO, PTPTS.PARENT_HI, PTPTS.GM_CLASS, PTPTS.GM_STEPS],
      getF (setPtpPort (modPtp u p fun x => { x with utcOk := false, pend := none }) n p v) f n p 0 = getF u f n p 0 := fun f hf =>
    ((Keeps.modPtp _ u p _).trans (.setPtpPort hfree hp _ n v)).readsAt (hfld f hf) (List.mem_map_of_mem hf) n
  refine ⟨⟨?_, (hk _ (by decide)).trans hclass, (hk _ (by decide)).trans hsteps, ?_, ?_⟩, setPtpPort_state hp hv _ n⟩
  · unfold parentOf at hpar ⊢
    rw [hk _ (by decide), hk _ (by decide), hpar]
  · exact (congrArg (fun l : List PtpU => (l.getD p {}).utcOk) hparts).trans (congrArg PtpU.utcOk hptp)
  · exact (congrArg (fun l : List PtpU => (l.getD p {}).pend) hparts).trans (congrArg PtpU.pend hptp)

theorem portParentLost_units (s : State) (p n v : Nat) : (portParentLost s p n v).pol = s.pol ∧ (portParentLost s p n v).ptps.length = s.ptps.length := by
  simp [portParentLost, modPtp, cite @setPtpPort_keeps, cite @setF_keeps, cite @setParent_keeps]

/-- The best master choice moves a port (R394). -/
theorem bmcaMove_shows {s : State} (hl : s.ptps.length = 4) {p : Nat} (hp : p < 4) (n : Nat) {v : Nat} (hv : v < 2 ^ 4) :
    getF (bmcaMove s p n v) PTPTS.STATE_PORT n p 0 = v ∧ (isSlave s n p = true → ParentEnded (bmcaMove s p n v) n p) := by
  unfold bmcaMove
  obtain ⟨hend, hport⟩ := portParentLost_shows hl hp n hv
  split
  · exact ⟨hport, fun _ => hend⟩
  · next h => exact ⟨setPtpPort_state hp hv s n, fun hs => absurd hs h⟩

/-! ### An Announce timeout -/

/-- The state a port takes when its parent is lost (R401). -/
def lostState (s : State) (n p : Nat) : Nat := if getF s PTPTS.CFG_ROLE n p 0 = 3 then 5 else 3

theorem lostState_lt (s : State) (n p : Nat) : lostState s n p < 2 ^ 4 := by
  unfold lostState
  split <;> decide

theorem lostState_of_pol {s t : State} (h : t.pol = s.pol) (n p : Nat) : lostState t n p = lostState s n p := by
  unfold lostState
  rw [getF_lk (f := PTPTS.CFG_ROLE) rfl h]

/-- Ports whose parent is lost in turn: each ends it, and no other port changes. -/
theorem foldl_portParentLost {p : Nat} (hp : p < 4) (l : List Nat) (hnodup : l.Nodup) (hlt : ∀ n ∈ l, n < 2) {s : State} (hl : s.ptps.length = 4)
    {n : Nat} (hn : n < 2) :
    (n ∈ l → ParentEnded (l.foldl (fun t n => portParentLost t p n (lostState t n p)) s) n p ∧
      getF (l.foldl (fun t n => portParentLost t p n (lostState t n p)) s) PTPTS.STATE_PORT n p 0 = lostState s n p) ∧
    (n ∉ l → PortKept p n s (l.foldl (fun t n => portParentLost t p n (lostState t n p)) s)) := by
  induction l generalizing s with
  | nil => exact ⟨fun h => absurd h List.not_mem_nil, fun _ => .refl ..⟩
  | cons x r ih =>
    obtain ⟨hx, hr⟩ := List.nodup_cons.mp hnodup
    obtain ⟨hpol, hlen⟩ := portParentLost_units s p x (lostState s x p)
    obtain ⟨hin, hout⟩ := ih hr (fun m hm => hlt m (List.mem_cons_of_mem _ hm)) (hlen.trans hl)
    obtain ⟨hend, hport⟩ := portParentLost_shows hl hp x (lostState_lt s x p)
    have hrole := lostState_of_pol hpol n p
    rw [List.foldl_cons]
    refine ⟨fun h => ?_, fun h => ?_⟩
    · by_cases hnx : n = x
      · subst hnx
        exact ⟨hend.of_kept (hout hx), ((hout hx).reads _ (by decide)).trans hport⟩
      · rw [← hrole]
        exact hin ((List.mem_cons.mp h).resolve_left hnx)
    · rw [List.mem_cons, not_or] at h
      exact (PortKept.portParentLost hp hn (hlt x List.mem_cons_self) h.1 hl _).trans (hout h.2)

/-- An Announce timeout ends the parent of every port that follows one (R401). -/
theorem parentLost_shows {s : State} (hs : Shaped s) {p : Nat} (hp : p < 4) {n : Nat} (hn : n ∈ instPorts s p) :
    (isSlave s n p = true → ParentEnded (parentLost s p) n p ∧ getF (parentLost s p) PTPTS.STATE_PORT n p 0 = lostState s n p) ∧
    (isSlave s n p = false → getF (parentLost s p) PTPTS.STATE_PORT n p 0 = getF s PTPTS.STATE_PORT n p 0) := by
  have hlt : ∀ m ∈ instPorts s p, m < 2 := fun m hm => List.mem_range.mp (List.mem_filter.mp hm).1
  obtain ⟨hin, hout⟩ := foldl_portParentLost hp ((instPorts s p).filter fun m => isSlave s m p) ((List.nodup_range.filter _).filter _)
    (fun m hm => hlt m (List.mem_filter.mp hm).1) hs.ptps (hlt n hn)
  exact ⟨fun h => hin (List.mem_filter.mpr ⟨hn, h⟩), fun h => (hout fun hm => by simp [h] at hm).reads _ (by decide)⟩

/-! ### A received Announce -/

theorem setPtpPort_near {p : Nat} (s : State) (n v : Nat) : CallNear s (setPtpPort s n p v) := by
  refine ⟨?_, leafRuns_of_page (by simp), ?_, ?_, ?_⟩ <;> simp [cite @setPtpPort_keeps]

/-- The port follows the sender of an Announce. -/
def followed (s : State) (n p id : Nat) : State := setPtpPort (if parentOf s n p = id then s else setParent s n p id) n p 7

theorem followed_shows {s : State} {p : Nat} (hp : p < 4) (n : Nat) {id : Nat} (hid : id < 2 ^ 64) :
    getF (followed s n p id) PTPTS.STATE_PORT n p 0 = 7 ∧ parentOf (followed s n p id) n p = id ∧
    (parentOf s n p ≠ id → Raised (followed s n p id) .ptpts n 1) ∧ CallNear s (followed s n p id) := by
  have hfree : ∀ p < 4, [Fld.at PTPTS.PARENT_LO p, Fld.at PTPTS.PARENT_HI p].all stateFree = true := by decide
  obtain ⟨hpar, hraised, hnear⟩ := setParent_shows (s := s) hp n hid
  have hk : ∀ u, Keeps [Fld.at PTPTS.PARENT_LO p, Fld.at PTPTS.PARENT_HI p] u (setPtpPort u n p 7) := fun u => .setPtpPort (hfree p hp) hp u n 7
  have hparent : ∀ u, parentOf (setPtpPort u n p 7) n p = parentOf u n p := fun u => by
    unfold parentOf
    rw [(hk u).readsAt (f := PTPTS.PARENT_LO) (by decide) (by simp), (hk u).readsAt (f := PTPTS.PARENT_HI) (by decide) (by simp)]
  refine ⟨setPtpPort_state hp (by decide) _ n, ?_, fun hne => ?_, ?_⟩
  · unfold followed
    split
    · next h => rw [hparent, h]
    · rw [hparent, hpar]
  · unfold followed
    rw [if_neg hne]
    exact (hk _).raised .ptpts n 1 (by decide) (by decide) hraised
  · unfold followed
    split
    · exact setPtpPort_near s n 7
    · exact hnear.trans (setPtpPort_near _ n 7)

section

variable {s : State} {p : Nat} {m : PtpMsg} {b : AnnounceBody} {cyc : Nat}

/-- The port follows the sender of the message. -/
def Mine (s : State) (p : Nat) (m : PtpMsg) : Prop := isSlave s m.port p = true ∧ parentOf s m.port p = m.clockId

theorem announceReceive_accepted (h : PtpAccepts s p m) (hm : masterOk s m.port p m.clockId = true) (hrole : getF s PTPTS.CFG_ROLE m.port p 0 ≠ 2) :
    (b.best = .parent ∨ b.best = .same → Mine s p m → announceReceive s p m b cyc = fromParent s m.port p b cyc) ∧
    (b.best = .parent → ¬ Mine s p m → announceReceive s p m b cyc = fromParent (followed s m.port p m.clockId) m.port p b cyc) ∧
    (b.best = .same → ¬ Mine s p m → announceReceive s p m b cyc = s) ∧
    (∀ wait, b.best = .master wait → announceReceive s p m b cyc =
      if getF s PTPTS.CFG_ROLE m.port p 0 = 3 then bmcaMaster s p m.port wait else s) ∧
    (b.best = .passive → announceReceive s p m b cyc = if getF s PTPTS.CFG_ROLE m.port p 0 = 3 then bmcaMove s p m.port 6 else s) := by
  have hmine : (isSlave s m.port p && parentOf s m.port p == m.clockId) = true ↔ Mine s p m := by simp [Mine]
  unfold announceReceive
  rw [acceptMsg_accepted h fun _ => hm]
  dsimp only
  rw [if_neg (by simp [hrole])]
  refine ⟨fun hb hyes => ?_, fun hb hno => ?_, fun hb hno => ?_, fun wait hb => by rw [hb], fun hb => by rw [hb]⟩
  · rcases hb with hb | hb <;> rw [hb] <;> exact if_pos (hmine.mpr hyes)
  · rw [hb]
    exact if_neg (mt hmine.mp hno)
  · rw [hb]
    exact if_neg (mt hmine.mp hno)

theorem announceReceive_master (h : PtpAccepts s p m) (hm : masterOk s m.port p m.clockId = true) (hrole : getF s PTPTS.CFG_ROLE m.port p 0 = 2) :
    announceReceive s p m b cyc = s := by
  unfold announceReceive
  rw [acceptMsg_accepted h fun _ => hm]
  exact if_pos (by simp [hrole])

end

/-- What an Announce of the parent comes to at its port (R400, R401). -/
theorem announce_parent {s u : State} (hl : u.ptps.length = 4) {p : Nat} (hp : p < 4) (hu : CallNear s u) (hrun : leafRuns s = true) (n cyc : Nat)
    {b : AnnounceBody} (hc : b.gmClass < 256) (hst : b.steps < 2 ^ 16) :
    getF (fromParent u n p b cyc) PTPTS.STATE_PORT n p 0 = getF u PTPTS.STATE_PORT n p 0 ∧
    parentOf (fromParent u n p b cyc) n p = parentOf u n p ∧ AnnounceTaken s (fromParent u n p b cyc) p n cyc b ∧
    (Raised u .ptpts n 1 → Raised (fromParent u n p b cyc) .ptpts n 1) := by
  obtain ⟨htaken, hk⟩ := fromParent_shows hl hp hu hrun n cyc hc hst
  refine ⟨hk.readsAt (by decide) (by simp [parentFlds]) n, ?_, htaken, hk.raised n 1 (by decide)⟩
  unfold parentOf
  rw [hk.readsAt (f := PTPTS.PARENT_LO) (by decide) (by simp [parentFlds]), hk.readsAt (f := PTPTS.PARENT_HI) (by decide) (by simp [parentFlds])]

/-- A BMCA port on its way to a master (R394). -/
theorem bmcaMaster_shows {s : State} (hs : Shaped s) {p : Nat} (hp : p < 4) (n wait : Nat) (h4 : getF s PTPTS.STATE_PORT n p 0 ≠ 4)
    (h5 : getF s PTPTS.STATE_PORT n p 0 ≠ 5) : (isSlave s n p = true → ParentEnded (bmcaMaster s p n wait) n p) ∧
    (wait = 0 → getF (bmcaMaster s p n wait) PTPTS.STATE_PORT n p 0 = 5) ∧
    (wait ≠ 0 → getF (bmcaMaster s p n wait) PTPTS.STATE_PORT n p 0 = 4 ∧
      kvGet (ptpOf (bmcaMaster s p n wait) p).pre n = some (s.frn + announceSpan s n p wait)) := by
  have hgo : bmcaMaster s p n wait = if wait = 0 then bmcaMove s p n 5
      else modPtp (bmcaMove s p n 4) p fun u => { u with pre := kvSet u.pre n (s.frn + announceSpan s n p wait) } :=
    if_neg (not_or.mpr ⟨h4, h5⟩)
  rw [hgo]
  by_cases hw : wait = 0
  · obtain ⟨hport, hend⟩ := bmcaMove_shows hs.ptps hp n (v := 5) (by decide)
    rw [if_pos hw]
    exact ⟨hend, fun _ => hport, fun h => absurd hw h⟩
  · obtain ⟨hport, hend⟩ := bmcaMove_shows hs.ptps hp n (v := 4) (by decide)
    have hlen : (bmcaMove s p n 4).ptps.length = 4 := by
      unfold bmcaMove
      split
      · exact (portParentLost_units s p n 4).2.trans hs.ptps
      · exact (congrArg List.length (by simp [cite @setPtpPort_keeps])).trans hs.ptps
    rw [if_neg hw]
    generalize bmcaMove s p n 4 = v at *
    have hk : PortKept p n v (modPtp v p fun u => { u with pre := kvSet u.pre n (s.frn + announceSpan s n p wait) }) :=
      .modPtp (f := fun u => { u with pre := kvSet u.pre n (s.frn + announceSpan s n p wait) }) (fun _ h => h) (fun _ h => h) v (hlen ▸ hp)
    refine ⟨fun h => (hend h).of_kept hk, fun h => absurd h hw, fun _ => ⟨(hk.reads _ (by decide)).trans hport, ?_⟩⟩
    exact (congrArg (fun u : PtpU => kvGet u.pre n) (ptpOf_modPtp (hlen ▸ hp) _)).trans (kvGet_kvSet_same ..)

/-! ### The commands that bring a message -/

/-- A message that is not accepted has no effect of its own, whichever command brings it. -/
theorem brings_unaccepted {s : State} {p : Nat} (hp : p < 4) {i : Instr} {m : PtpMsg} (hi : Brings i p m) (hok : PtpMsg.ok m = true) :
    ∃ named e t, exec i s = .next t ∧
      ((acceptMsg { s with eths := e } p m named).2 = false → t = (acceptMsg { s with eths := e } p m named).1) ∧
      ((∃ b c, i = .announceReceive p m b c) ∨ (∃ a b c, i = .syncReceive p m a b c) → named = true) := by
  obtain ⟨u, hu⟩ : ∃ u, u = fifoTake s m.port (rxStamp s m) := ⟨_, rfl⟩
  have hfifo : { s with eths := u.eths } = u := by rw [hu]; rfl
  rcases hi with ⟨origin, rate, cyc, hc, rfl | rfl⟩ | ⟨b, cyc, hgm, hst, hc, rfl⟩ | rfl | ⟨f, o, ho, rfl⟩ | ⟨t1, t4, rfl⟩
  · refine ⟨true, u.eths, _, if_pos ⟨hp, hok, hc⟩, fun h => ?_, fun _ => rfl⟩
    rw [hfifo, hu] at h ⊢
    exact if_neg (by simp [h])
  · refine ⟨false, s.eths, _, if_pos ⟨hp, hok, hc⟩, fun h => if_pos (by simp [h]), fun h => ?_⟩
    rcases h with ⟨_, _, h⟩ | ⟨_, _, _, h⟩ <;> cases h
  · exact ⟨true, s.eths, _, if_pos ⟨hp, hok, hgm, hst, hc⟩, fun h => if_pos (by simp [h]), fun _ => rfl⟩
  · refine ⟨false, u.eths, _, if_pos ⟨hp, hok⟩, fun h => ?_, fun h => ?_⟩
    · rw [hfifo, hu] at h ⊢
      exact if_neg (by simp [h])
    · rcases h with ⟨_, _, h⟩ | ⟨_, _, _, h⟩ <;> cases h
  · refine ⟨false, u.eths, _, if_pos ⟨hp, hok, ho⟩, fun h => ?_, fun h => ?_⟩
    · rw [hfifo, hu] at h ⊢
      exact if_neg (by simp [h])
    · rcases h with ⟨_, _, h⟩ | ⟨_, _, _, h⟩ <;> cases h
  · refine ⟨false, u.eths, _, if_pos ⟨hp, hok⟩, fun h => ?_, fun h => ?_⟩
    · rw [hfifo, hu] at h ⊢
      exact if_neg (by simp [h])
    · rcases h with ⟨_, _, h⟩ | ⟨_, _, _, h⟩ <;> cases h

/-- Settles O57: the checks of a message count it or pass it; what passes is an estimate, a Sync that waits, or a choice of the
best master, each shown by its lemma. -/
theorem ptpReceive : Obligations.PtpReceive := by
  intro s p hs hp
  refine ⟨fun i m hi hok => ?_, fun m origin rate cyc hc h hm => ⟨_, if_pos ⟨hp, h.1, hc⟩, syncReceive_shows hs hp h hm origin rate cyc⟩,
    fun m origin rate cyc hc h => ⟨fun w hw h1 h2 h3 => ⟨_, if_pos ⟨hp, h.1, hc⟩, followUp_shows hs hp h origin rate cyc hw ⟨h1, h2, h3⟩⟩,
      fun hno => (if_pos ⟨hp, h.1, hc⟩).trans (congrArg Host.Outcome.next (followUp_unmatched h origin rate cyc fun w hw ⟨h1, h2, h3⟩ => ?_))⟩,
    ⟨_, if_pos hp, congrArg PtpU.pend (ptpOf_modPtp (hs.ptps ▸ hp) fun u => { u with pend := none }), rfl⟩,
    fun m b cyc hc h hm hgm hst => ⟨announceReceive s p m b cyc, if_pos ⟨hp, h.1, hgm, hst, hc⟩, ?_⟩,
    fun hrun => ⟨_, (if_pos hp).trans (if_pos hrun), fun n hn => parentLost_shows hs hp hn⟩,
    fun hrun => (if_pos hp).trans (if_neg (by simp [hrun]))⟩
  · obtain ⟨named, e, t, hexec, ht, hnamed⟩ := brings_unaccepted (s := s) hp hi hok
    obtain ⟨hlost, hforeign, hbad, hunknown⟩ := unaccepted_shows hp ht
    exact ⟨t, hexec, hlost, hforeign, hbad, fun hb hr ho hsane hno => hunknown (hnamed hb) hr ho hsane hno⟩
  · rcases hno w hw with h' | h' | h' <;> contradiction
  · have hrun : leafRuns s = true := h.2.1
    have hid : m.clockId < 2 ^ 64 := by
      have hok := h.1
      simp only [PtpMsg.ok, Bool.and_eq_true, decide_eq_true_eq] at hok
      exact hok.1.1.1.2
    refine ⟨fun hrole hb hmine => ?_, fun hrole hb hno => ?_, fun hrole wait hb h4 h5 => ?_, fun hrole hb => ?_, fun hcase => ?_⟩
    · obtain ⟨heq, -⟩ := announceReceive_accepted (cyc := cyc) h hm hrole
      rw [heq hb hmine]
      obtain ⟨hport, -, htaken, -⟩ := announce_parent hs.ptps hp (.refl s) hrun m.port cyc hgm hst
      exact ⟨hport, htaken⟩
    · obtain ⟨-, heq, -⟩ := announceReceive_accepted (cyc := cyc) h hm hrole
      obtain ⟨hseven, hpar, hraised, hnear⟩ := followed_shows (s := s) hp m.port hid
      obtain ⟨hport, hparent, htaken, hkeep⟩ := announce_parent (hnear.insts.trans hs.ptps) hp hnear hrun m.port cyc hgm hst
      rw [heq hb hno]
      exact ⟨hport.trans hseven, hparent.trans hpar, htaken, fun hne => hkeep (hraised hne)⟩
    · obtain ⟨-, -, -, heq, -⟩ := announceReceive_accepted (cyc := cyc) h hm (by rw [hrole]; decide)
      rw [heq wait hb, if_pos hrole]
      exact bmcaMaster_shows hs hp m.port wait h4 h5
    · obtain ⟨-, -, -, -, heq⟩ := announceReceive_accepted (cyc := cyc) h hm (by rw [hrole]; decide)
      rw [heq hb, if_pos hrole]
      exact bmcaMove_shows hs.ptps hp m.port (by decide)
    · by_cases hrole : getF s PTPTS.CFG_ROLE m.port p 0 = 2
      · exact announceReceive_master h hm hrole
      · obtain ⟨-, -, hsame, hmaster, hpassive⟩ := announceReceive_accepted (cyc := cyc) h hm hrole
        rcases hcase with h2 | ⟨hb, hno⟩ | ⟨hb, hr⟩ | ⟨wait, hb, hr⟩
        · exact absurd h2 hrole
        · exact hsame hb hno
        · exact (hpassive hb).trans (if_neg hr)
        · refine (hmaster wait hb).trans ?_
          split
          · next h3 => exact if_pos (hr.resolve_left (not_not.mpr h3))
          · rfl

end Sys2Proof.Machine
/-! Sent PTP messages and unicast grants (R394 to R396, R399, R400, R402, R404, R408, R409, R411, R415). -/

namespace Sys2Proof.Machine

/-! ### A message that leaves is counted -/

/-- An instance changes and its port counts frames. -/
theorem counted_modPtp {s : State} {p : Nat} (hp : p < s.ptps.length) (f : PtpU → PtpU) (n x : Nat) :
    Counted s (addCnt (modPtp s p f) ETH.TX_CNT n 0 x) ETH.TX_CNT n 0 x ∧
    ptpOf (addCnt (modPtp s p f) ETH.TX_CNT n 0 x) p = f (ptpOf s p) := by
  refine ⟨getF_addCnt_counter (f := ETH.TX_CNT) (k := 0) (by decide) rfl (by decide) (modPtp s p f) n x, ?_⟩
  exact (congrArg (fun l : List PtpU => l.getD p {}) (by simp only [cite @addCnt_keeps])).trans (ptpOf_modPtp hp f)

/-- The state from which an instance answers a message, its timestamp taken from the FIFO. -/
theorem answered_accepted {s : State} {p : Nat} {m : PtpMsg} (h : PtpAccepts s p m) :
    acceptMsg (fifoTake s m.port (rxStamp s m)) p m false = (fifoTake s m.port (rxStamp s m), true) :=
  acceptMsg_accepted (s := fifoTake s m.port (rxStamp s m)) h (by simp)

section

variable {s : State} {p : Nat} {m : PtpMsg}

/-- A Delay_Req is answered from its arrival (R409). -/
theorem delayReq_answered (hs : Shaped s) (hp : p < 4) (h : PtpAccepts s p m) (hvalid : tsValid s m.port = true)
    (hpeer : ¬ getF s PTPTS.CFG_PROFILE m.port p 0 = 1) (hserves : serves s p m.port = true) :
    Counted s (delayReq s p m) ETH.TX_CNT m.port 0 1 ∧ (ptpOf (delayReq s p m) p).sent =
      some (.delayResp (timeSec (rawTime s p (rxStamp s m))) (timeNs (rawTime s p (rxStamp s m)))
        (m.correction - (timeFrac (rawTime s p (rxStamp s m)) : Int))) := by
  obtain ⟨u, hu⟩ : ∃ u, u = fifoTake s m.port (rxStamp s m) := ⟨_, rfl⟩
  have heq : delayReq s p m = addCnt (modPtp u p fun x => { x with sent := some (.delayResp (timeSec (rawTime s p (rxStamp s m)))
      (timeNs (rawTime s p (rxStamp s m))) (m.correction - (timeFrac (rawTime s p (rxStamp s m)) : Int))) }) ETH.TX_CNT m.port 0 1 := by
    unfold delayReq
    rw [answered_accepted h, hu]
    refine if_pos ?_
    show (true && serves s p m.port && tsValid s m.port && getF s PTPTS.CFG_PROFILE m.port p 0 != 1) = true
    simp [hvalid, hserves, hpeer]
  have hlen : p < u.ptps.length := by rw [hu]; exact hs.ptps ▸ hp
  obtain ⟨hcnt, hptp⟩ := counted_modPtp hlen (fun x => { x with sent := some (.delayResp (timeSec (rawTime s p (rxStamp s m)))
    (timeNs (rawTime s p (rxStamp s m))) (m.correction - (timeFrac (rawTime s p (rxStamp s m)) : Int))) }) m.port 1
  rw [heq]
  refine ⟨?_, congrArg PtpU.sent hptp⟩
  rw [hu] at hcnt ⊢
  exact hcnt

theorem delayReq_unanswered (h : PtpAccepts s p m)
    (hno : ¬ (tsValid s m.port = true ∧ ¬ getF s PTPTS.CFG_PROFILE m.port p 0 = 1 ∧ serves s p m.port = true)) :
    delayReq s p m = fifoTake s m.port (rxStamp s m) := by
  unfold delayReq
  rw [answered_accepted h]
  refine if_neg fun hyes => hno ?_
  have h' : (true && serves s p m.port && tsValid s m.port && getF s PTPTS.CFG_PROFILE m.port p 0 != 1) = true := hyes
  simp only [Bool.true_and, Bool.and_eq_true, bne_iff_ne] at h'
  exact ⟨h'.1.2, h'.2, h'.1.1⟩

/-- A Pdelay_Req is answered with its turnaround, and the answer stamped (R409). -/
theorem pdelayReq_answered (hs : Shaped s) (hp : p < 4) (h : PtpAccepts s p m) (hport : m.port < 2) (hvalid : tsValid s m.port = true)
    (hpeer : getF s PTPTS.CFG_PROFILE m.port p 0 = 1) (f o : Nat) :
    Counted s (pdelayReq s p m f o) PTPTS.TX_TS_CNT m.port 0 1 ∧ Counted s (pdelayReq s p m f o) ETH.TX_CNT m.port 0 2 ∧
    (ethOf (pdelayReq s p m f o) m.port).left = some (stampOf s m.port (some p) (txRaw s m.port f o)) ∧
    (ptpOf (pdelayReq s p m f o) p).sent = some (.pdelay true 0 0 0 (m.correction + (txRaw s m.port f o - rxStamp s m) * 128)) := by
  obtain ⟨u, hu⟩ : ∃ u, u = modPtp (fifoTake s m.port (rxStamp s m)) p fun x =>
    { x with sent := some (.pdelay true 0 0 0 (m.correction + (txRaw s m.port f o - rxStamp s m) * 128)) } := ⟨_, rfl⟩
  have heq : pdelayReq s p m f o = addCnt (stampTx u m.port (some p) f o) ETH.TX_CNT m.port 0 2 := by
    unfold pdelayReq
    rw [answered_accepted h, hu]
    refine if_pos ?_
    show (true && getF s PTPTS.CFG_PROFILE m.port p 0 == 1 && tsValid s m.port) = true
    simp [hvalid, hpeer]
  have hregs : u.regs = s.regs := by rw [hu]; rfl
  have hpol : u.pol = s.pol := by rw [hu]; rfl
  have hk : Keeps [ETH.STATUS_TS_VALID, ETH.CAL_TX, PTPTS.TX_TS_CNT, ETH.TX_CNT] s u := .of_units hregs hpol
  have hlen : m.port < u.eths.length := by
    rw [hu]
    show m.port < (fifoTake s m.port (rxStamp s m)).eths.length
    rw [show (fifoTake s m.port (rxStamp s m)).eths.length = 2 from (List.length_modify ..).trans hs.eths]
    exact hport
  have hptp : (ptpOf u p).sent = some (.pdelay true 0 0 0 (m.correction + (txRaw s m.port f o - rxStamp s m) * 128)) := by
    rw [hu]
    exact congrArg PtpU.sent (ptpOf_modPtp (show p < s.ptps.length from hs.ptps ▸ hp) _)
  have hraw := txRaw_congr (hk.reads ETH.CAL_TX (by decide) m.port) hpol f o
  have hstamp := stampOf_congr (s := s) (t := u) (n := m.port) (hk.reads ETH.STATUS_TS_VALID (by decide) m.port) (by rw [hu]; rfl) (by rw [hu]; rfl)
    (some p) (txRaw s m.port f o)
  obtain ⟨hts, heth⟩ := stampTx_shows hlen (some p) f o
  have hpage := stampTx_pg (pq := .eth) u m.port (some p) f o (by decide)
  have hptps : (stampTx u m.port (some p) f o).ptps = u.ptps := by simp [cite @stampTx_keeps]
  rw [heq]
  generalize stampTx u m.port (some p) f o = v at *
  have hcnt := getF_addCnt_counter (f := ETH.TX_CNT) (k := 0) (by decide) rfl (by decide) v m.port 2
  have hkv : Keeps [PTPTS.TX_TS_CNT] v (addCnt v ETH.TX_CNT m.port 0 2) := .addCnt (by decide) v m.port 2
  refine ⟨?_, ?_, ?_, ?_⟩
  · exact ((hkv.reads _ (by decide) m.port).trans hts).trans (congrArg (fun y => satTo cntMax (y + 1)) (hk.reads PTPTS.TX_TS_CNT (by decide) m.port))
  · exact hcnt.trans (congrArg (fun y => satTo cntMax (y + 2)) ((getF_of_pageCells (f := ETH.TX_CNT) hpage rfl (by decide) m.port 0 0).trans
      (hk.reads ETH.TX_CNT (by decide) m.port)))
  · refine (congrArg (fun l : List EthU => (l.getD m.port {}).left) (show _ = v.eths by simp only [cite @addCnt_keeps])).trans ?_
    refine (congrArg EthU.left heth).trans ?_
    rw [hraw, hstamp]
  · refine (congrArg (fun l : List PtpU => (l.getD p {}).sent) (show _ = v.ptps by simp only [cite @addCnt_keeps])).trans ?_
    rw [hptps]
    exact hptp

theorem pdelayReq_unanswered (h : PtpAccepts s p m) (hno : ¬ tsValid s m.port = true ∨ ¬ getF s PTPTS.CFG_PROFILE m.port p 0 = 1) (f o : Nat) :
    pdelayReq s p m f o = fifoTake s m.port (rxStamp s m) := by
  unfold pdelayReq
  rw [answered_accepted h]
  refine if_neg fun hyes => ?_
  have h' : (true && getF s PTPTS.CFG_PROFILE m.port p 0 == 1 && tsValid s m.port) = true := hyes
  simp only [Bool.true_and, Bool.and_eq_true, beq_iff_eq] at h'
  rcases hno with hno | hno
  · exact hno h'.2
  · exact hno h'.1

/-- A response to the latest request gives the mean path delay (R411). -/
theorem delayResp_answered (h : PtpAccepts s p m) (hp : p < 4) {dep : Int} (hdep : (ptpOf s p).dep = some dep)
    (hwho : isSlave s m.port p = true ∨ getF s PTPTS.CFG_PROFILE m.port p 0 = 1) (t1 t4 : Rat) :
    getF (delayResp s p m t1 t4) PTPTS.MPD m.port p 0 = satTo 0xFFFFFFFF
      (roundAway (meanPath (ptpOf s p) (getF s PTPTS.CFG_PROFILE m.port p 0 == 1) (rxStamp s m) m.correction t1 t4)).toNat := by
  have heq : delayResp s p m t1 t4 = setF (fifoTake s m.port (rxStamp s m)) PTPTS.MPD m.port p 0 (satTo 0xFFFFFFFF
      (roundAway (meanPath (ptpOf s p) (getF s PTPTS.CFG_PROFILE m.port p 0 == 1) (rxStamp s m) m.correction t1 t4)).toNat) := by
    unfold delayResp
    dsimp only
    rw [answered_accepted h]
    refine if_pos ?_
    show (true && (isSlave s m.port p || getF s PTPTS.CFG_PROFILE m.port p 0 == 1) && (ptpOf s p).dep.isSome) = true
    rcases hwho with hwho | hwho <;> simp [hwho, hdep]
  rw [heq, getF_setF_same _ PTPTS.MPD m.port p 0 _ (by decide)]
  exact satTo_mod (w := 32) (by decide) _

theorem delayResp_unanswered (h : PtpAccepts s p m)
    (hno : (ptpOf s p).dep = none ∨ (¬ getF s PTPTS.CFG_PROFILE m.port p 0 = 1 ∧ isSlave s m.port p = false)) (t1 t4 : Rat) :
    delayResp s p m t1 t4 = fifoTake s m.port (rxStamp s m) := by
  unfold delayResp
  dsimp only
  rw [answered_accepted h]
  refine if_neg fun hyes => ?_
  have h' : (true && (isSlave s m.port p || getF s PTPTS.CFG_PROFILE m.port p 0 == 1) && (ptpOf s p).dep.isSome) = true := hyes
  rcases hno with hno | ⟨h1, h2⟩
  · simp [hno] at h'
  · simp [h1, h2] at h'

end

/-! ### A slave's request -/

/-- Whether a slave port may send its request (R402, R415). -/
def MayAsk (s : State) (p n : Nat) : Prop :=
  leafRuns s = true ∧ portUp s n = true ∧ instOn s n p = true ∧ instClosed s p = false ∧ isSlave s n p = true ∧ tsValid s n = true

theorem delayReqSend_stays {s : State} {p n : Nat} (h : ¬ MayAsk s p n) (f o : Nat) : delayReqSend s p n f o = s := by
  refine if_neg fun hyes => h ?_
  simp only [Bool.and_eq_true, Bool.not_eq_true'] at hyes
  obtain ⟨⟨⟨⟨⟨h1, h2⟩, h3⟩, h4⟩, h5⟩, h6⟩ := hyes
  exact ⟨h1, h2, h3, h4, h5, h6⟩

/-- A slave's request is stamped as it leaves, and the instance keeps its departure (R402, R404). -/
theorem delayReqSend_shows {s : State} (hs : Shaped s) {p n : Nat} (hp : p < 4) (hn : n < 2) (h : MayAsk s p n) (f o : Nat) :
    Counted s (delayReqSend s p n f o) PTPTS.TX_TS_CNT n 0 1 ∧ Counted s (delayReqSend s p n f o) ETH.TX_CNT n 0 1 ∧
    (ptpOf (delayReqSend s p n f o) p).dep = some (txRaw s n f o) ∧
    (ethOf (delayReqSend s p n f o) n).left = some (stampOf s n (some p) (txRaw s n f o)) := by
  obtain ⟨h1, h2, h3, h4, h5, h6⟩ := h
  have heq : delayReqSend s p n f o =
      addCnt (modPtp (stampTx s n (some p) f o) p fun u => { u with dep := some (txRaw s n f o) }) ETH.TX_CNT n 0 1 :=
    if_pos (by simp [h1, h2, h3, h4, h5, h6])
  obtain ⟨hts, heth⟩ := stampTx_shows (hs.eths ▸ hn) (some p) f o
  have hpage := stampTx_pg (pq := .eth) s n (some p) f o (by decide)
  have hlen : p < (stampTx s n (some p) f o).ptps.length := by simpa only [cite @stampTx_keeps] using hs.ptps ▸ hp
  rw [heq]
  generalize stampTx s n (some p) f o = v at *
  obtain ⟨hcnt, hptp⟩ := counted_modPtp hlen (fun u => { u with dep := some (txRaw s n f o) }) n 1
  have hkv : Keeps [PTPTS.TX_TS_CNT] v (addCnt (modPtp v p fun u => { u with dep := some (txRaw s n f o) }) ETH.TX_CNT n 0 1) :=
    (Keeps.modPtp _ v p _).trans (.addCnt (by decide) _ n 1)
  refine ⟨(hkv.reads _ (by decide) n).trans hts, ?_, congrArg PtpU.dep hptp, ?_⟩
  · exact hcnt.trans (congrArg (fun y => satTo cntMax (y + 1)) (getF_of_pageCells (f := ETH.TX_CNT) hpage rfl (by decide) n 0 0))
  · exact (congrArg (fun l : List EthU => (l.getD n {}).left) (by simp only [cite @addCnt_keeps, cite @modPtp_keeps])).trans (congrArg EthU.left heth)

/-! ### Unicast Sync -/

/-- An instance's grants without a slave's. -/
def otherGrants (s : State) (p q : Nat) : List (Nat × Int × Nat) := (ptpOf s p).grants.filter fun g => g.1 != q

/-- The messages per second of the grants with a slave's at a rate. -/
def grantedRate (s : State) (p q : Nat) (l : Int) : Nat := ((otherGrants s p q).map fun x => syncRate x.2.1).foldl (· + ·) 0 + syncRate l

/-- A request within the limits of R396. -/
def GrantFits (s : State) (p q : Nat) (l : Int) (d : Nat) : Prop :=
  -7 ≤ l ∧ l ≤ 0 ∧ (otherGrants s p q).length < 32 ∧ grantedRate s p q l ≤ 128 ∧ 0 < d

/-- An instance's answer to a request for unicast Sync. -/
def grantAnswered (s : State) (p q : Nat) (l : Int) (d : Nat) (ok : Bool) : State :=
  modPtp s p fun u => { u with grants := if ok then otherGrants s p q ++ [(q, l, s.frn + d * 8000)] else u.grants,
                               sent := some (.grant q (if ok then d else 0)) }

theorem publishGrants_eth (s : State) (p : Nat) : pageCells .eth (publishGrants s p).regs = pageCells .eth s.regs := by simp

/-- A port that serves under the unicast profile answers a request within its limits, or with duration 0 (R396). -/
theorem unicastRequest_shows {s : State} (hs : Shaped s) {p n : Nat} (hp : p < 4) (hserves : serves s p n = true)
    (hprof : getF s PTPTS.CFG_PROFILE n p 0 = 3) (q : Nat) (l : Int) (d : Nat) :
    Counted s (unicastRequest s p n q l d) ETH.TX_CNT n 0 1 ∧
    (GrantFits s p q l d → (ptpOf (unicastRequest s p n q l d) p).grants = otherGrants s p q ++ [(q, l, s.frn + d * 8000)] ∧
      (ptpOf (unicastRequest s p n q l d) p).sent = some (.grant q d)) ∧
    (¬ GrantFits s p q l d → (ptpOf (unicastRequest s p n q l d) p).grants = (ptpOf s p).grants ∧
      (ptpOf (unicastRequest s p n q l d) p).sent = some (.grant q 0)) := by
  obtain ⟨ok, hok⟩ : ∃ ok, ok = (decide (-7 ≤ l) && decide (l ≤ 0) && decide ((otherGrants s p q).length < 32) &&
    decide (grantedRate s p q l ≤ 128) && decide (0 < d)) := ⟨_, rfl⟩
  have hfits : ok = true ↔ GrantFits s p q l d := by
    rw [hok]
    simp [GrantFits, and_assoc]
  have heq : unicastRequest s p n q l d = addCnt (publishGrants (grantAnswered s p q l d ok) p) ETH.TX_CNT n 0 1 := by
    rw [hok]
    exact if_neg (by simp [hserves, hprof])
  have hptp : ptpOf (grantAnswered s p q l d ok) p =
      { ptpOf s p with grants := if ok then otherGrants s p q ++ [(q, l, s.frn + d * 8000)] else (ptpOf s p).grants,
                       sent := some (.grant q (if ok then d else 0)) } := ptpOf_modPtp (hs.ptps ▸ hp) _
  have hregs : (grantAnswered s p q l d ok).regs = s.regs := rfl
  rw [heq]
  generalize grantAnswered s p q l d ok = u at *
  have hpage : pageCells .eth (publishGrants u p).regs = pageCells .eth s.regs := (publishGrants_eth u p).trans (by rw [hregs])
  have hcnt := getF_addCnt_counter (f := ETH.TX_CNT) (k := 0) (by decide) rfl (by decide) (publishGrants u p) n 1
  have hof : ptpOf (addCnt (publishGrants u p) ETH.TX_CNT n 0 1) p = ptpOf u p :=
    congrArg (fun l : List PtpU => l.getD p {}) (by simp only [cite @addCnt_keeps, cite @publishGrants_keeps])
  refine ⟨hcnt.trans (congrArg (fun y => satTo cntMax (y + 1)) (getF_of_pageCells (f := ETH.TX_CNT) hpage rfl (by decide) n 0 0)), fun h => ?_, fun h => ?_⟩
  · rw [hof, hptp, hfits.mpr h]
    exact ⟨rfl, rfl⟩
  · rw [hof, hptp, Bool.eq_false_iff.mpr (mt hfits.mp h)]
    exact ⟨rfl, rfl⟩

theorem unicastRequest_stays {s : State} {p n : Nat} (h : ¬ (serves s p n = true ∧ getF s PTPTS.CFG_PROFILE n p 0 = 3)) (q : Nat) (l : Int)
    (d : Nat) : unicastRequest s p n q l d = s := by
  refine if_pos ?_
  by_contra hne
  simp only [Bool.or_eq_true, Bool.not_eq_true', bne_iff_ne, not_or, Bool.not_eq_false, not_not] at hne
  exact h hne

/-! ### A one-step Sync -/

/-- Whether a one-step Sync may leave (R395, R408). -/
def MaySync (s : State) (p n : Nat) (b : List Nat) : Prop :=
  serves s p n = true ∧ tsValid s n = true ∧ ptpType b = some 0 ∧ (recentSyncs s p).length < 128

theorem syncSend_stays {s : State} {p n : Nat} {b : List Nat} (h : ¬ MaySync s p n b) (f o : Nat) : syncSend s p n b f o = s := by
  refine if_neg fun hyes => h ?_
  simp only [Bool.and_eq_true, beq_iff_eq, decide_eq_true_eq] at hyes
  obtain ⟨⟨⟨h1, h2⟩, h3⟩, h4⟩ := hyes
  exact ⟨h1, h2, h3, h4⟩

theorem frameOut_keeps_syncs {p : Nat} (hp : p < 4) (s : State) (n : Nat) (b : List Nat) (f o : Nat) :
    Keeps [Fld.at PTPTS.TX_SYNC_CNT p] s (frameOut s n b f o) := by
  have happ : ∀ p < 4, (∀ f ∈ [PTPTS.TX_TS_CNT, PTPTS.INVALID_CNT, ETH.TX_CNT], [Fld.at PTPTS.TX_SYNC_CNT p].all (Fld.apart f 0 0) = true ∧
    Fld.apart f 0 0 (HDR.EVT f.page) = true) ∧ [Fld.at PTPTS.TX_SYNC_CNT p].all (Fld.lowPlain · 0 0) = true := by decide
  obtain ⟨hf, hplain⟩ := happ p hp
  have hcnt : ∀ f ∈ [PTPTS.TX_TS_CNT, PTPTS.INVALID_CNT, ETH.TX_CNT], ∀ v, Keeps [Fld.at PTPTS.TX_SYNC_CNT p] v (addCnt v f n 0 1) := fun f hmem v =>
    .addCnt ⟨hf f hmem, hplain⟩ v n 1
  have hsent : Keeps [Fld.at PTPTS.TX_SYNC_CNT p] s (frameSent s n b) := (hcnt _ (by decide) s).trans (.modEth ..)
  rw [frameOut_eq]
  refine .ite (hsent.trans ?_) hsent
  generalize frameSent s n b = v
  have h1 : Keeps [Fld.at PTPTS.TX_SYNC_CNT p] v
      (modEth (addCnt v PTPTS.TX_TS_CNT n 0 1) n fun u => { u with left := some (stampOf v n (frameInst s n b) (txRaw v n f o)) }) :=
    (hcnt _ (by decide) v).trans (.modEth ..)
  exact .ite h1 (h1.trans (hcnt _ (by decide) _))

/-- A one-step Sync carries its departure time (R408). -/
theorem syncSend_shows {s : State} (hs : Shaped s) {p n : Nat} (hp : p < 4) (hn : n < 2) {b : List Nat} (h : MaySync s p n b) (f o : Nat) :
    Counted s (syncSend s p n b f o) PTPTS.TX_SYNC_CNT n p 1 ∧ Counted s (syncSend s p n b f o) ETH.TX_CNT n 0 1 ∧
    (ethOf (syncSend s p n b f o) n).tx = insertSync b (rawTime s p (txRaw s n f o)) ∧
    (ptpOf (syncSend s p n b f o) p).syncs = s.frn :: recentSyncs s p := by
  obtain ⟨h1, h2, h3, h4⟩ := h
  obtain ⟨u, hu⟩ : ∃ u, u = modPtp s p fun x => { x with syncs := s.frn :: recentSyncs s p } := ⟨_, rfl⟩
  have heq : syncSend s p n b f o =
      addCnt (frameOut u n (insertSync b (rawTime s p (txRaw s n f o))) f o) PTPTS.TX_SYNC_CNT n p 1 := by
    rw [hu]
    exact if_pos (by simp [h1, h2, h3, h4])
  have hptp : (ptpOf u p).syncs = s.frn :: recentSyncs s p := by
    rw [hu]
    exact congrArg PtpU.syncs (ptpOf_modPtp (hs.ptps ▸ hp) _)
  have hlen : n < u.eths.length := by rw [hu]; exact hs.eths ▸ hn
  have hku : ∀ fs, Keeps fs s u := fun fs => by rw [hu]; exact .modPtp ..
  obtain ⟨hcnt, htx, -, -⟩ := frameOut_shows hlen (insertSync b (rawTime s p (txRaw s n f o))) f o
  have hks := frameOut_keeps_syncs hp u n (insertSync b (rawTime s p (txRaw s n f o))) f o
  have hptps : (frameOut u n (insertSync b (rawTime s p (txRaw s n f o))) f o).ptps = u.ptps := by simp only [cite @frameOut_keeps]
  rw [heq]
  generalize frameOut u n (insertSync b (rawTime s p (txRaw s n f o))) f o = v at *
  have hplain : ∀ p < 4, Fld.plain PTPTS.TX_SYNC_CNT p 0 = true ∧ Fld.apart PTPTS.TX_SYNC_CNT p 0 (HDR.EVT .ptpts) = true ∧
    [ETH.TX_CNT].all (Fld.apart PTPTS.TX_SYNC_CNT p 0) = true := by decide
  obtain ⟨hp1, hp2, hp3⟩ := hplain p hp
  have hsync := getF_addCnt_counter (f := PTPTS.TX_SYNC_CNT) (by decide) rfl hp1 v n 1
  have hkv : Keeps [ETH.TX_CNT] v (addCnt v PTPTS.TX_SYNC_CNT n p 1) := .addCnt ⟨⟨hp3, hp2⟩, by decide⟩ v n 1
  refine ⟨?_, ?_, ?_, ?_⟩
  · exact hsync.trans (congrArg (fun y => satTo cntMax (y + 1)) (((hku _).trans hks).readsAt (f := PTPTS.TX_SYNC_CNT) (by decide) List.mem_cons_self n))
  · exact ((hkv.reads _ (by decide) n).trans hcnt).trans (congrArg (fun y => satTo cntMax (y + 1)) ((hku [ETH.TX_CNT]).reads _ (by decide) n))
  · exact (congrArg (fun l : List EthU => (l.getD n {}).tx) (by simp only [cite @addCnt_keeps])).trans htx
  · refine (congrArg (fun l : List PtpU => (l.getD p {}).syncs) (show _ = u.ptps from ?_)).trans hptp
    simp only [cite @addCnt_keeps, hptps]

/-! ### A closed instance reopens -/

/-- An instance that reopens is closed on neither port (R399). -/
theorem instOpen_opens {p : Nat} (hp : p < 4) (s : State) : instClosed (instOpen s p) p = false := by
  have hkey : ∀ p < 4, fldKey PTPTS.STATE_CLOSED 0 p 0 ≠ fldKey PTPTS.STATE_CAUSE 0 p 0 ∧
    fldKey PTPTS.STATE_CLOSED 0 p 0 ≠ fldKey PTPTS.STATE_CLOSED 1 p 0 ∧ fldKey PTPTS.STATE_CLOSED 0 p 0 ≠ fldKey PTPTS.STATE_CAUSE 1 p 0 ∧
    fldKey PTPTS.STATE_CLOSED 1 p 0 ≠ fldKey PTPTS.STATE_CAUSE 1 p 0 := by decide
  obtain ⟨h1, h2, h3, h4⟩ := hkey p hp
  have heq : instOpen s p = setF (setF (setF (setF s PTPTS.STATE_CLOSED 0 p 0 0) PTPTS.STATE_CAUSE 0 p 0 0) PTPTS.STATE_CLOSED 1 p 0 0)
    PTPTS.STATE_CAUSE 1 p 0 0 := rfl
  have hzero : ∀ v n, getF (setF v PTPTS.STATE_CLOSED n p 0 0) PTPTS.STATE_CLOSED n p 0 = 0 := fun v n =>
    getF_setF_same v PTPTS.STATE_CLOSED n p 0 0 (by decide)
  have hfirst : getF (instOpen s p) PTPTS.STATE_CLOSED 0 p 0 = 0 := by
    rw [heq, getF_setF_ne _ _ _ _ _ _ _ _ _ _ h3, getF_setF_ne _ _ _ _ _ _ _ _ _ _ h2, getF_setF_ne _ _ _ _ _ _ _ _ _ _ h1, hzero]
  have hsecond : getF (instOpen s p) PTPTS.STATE_CLOSED 1 p 0 = 0 := by
    rw [heq, getF_setF_ne _ _ _ _ _ _ _ _ _ _ h4, hzero]
  have hrange : List.range 2 = [0, 1] := rfl
  simp [instClosed, hrange, hfirst, hsecond]

theorem reopenDue_iff (s : State) (p : Nat) : reopenDue s p = true ↔ ∀ f r, (ptpOf s p).closes = f :: r → f + 480000 ≤ s.frn := by
  unfold reopenDue
  cases h : (ptpOf s p).closes with
  | nil => simp
  | cons f r =>
    refine ⟨fun hd f' r' he => ?_, fun hall => decide_eq_true (hall f r rfl)⟩
    obtain ⟨rfl, rfl⟩ := List.cons.inj he
    exact of_decide_eq_true hd

/-- Settles O58: each command acts where its port may, with what it sends shown by its lemma, and stays where it may not. -/
theorem ptpSend : Obligations.PtpSend := by
  intro s p n hs hp hn
  refine ⟨fun h => ⟨_, (if_pos ⟨hp, hn⟩).trans (if_pos h), ?_⟩, fun h => (if_pos ⟨hp, hn⟩).trans (if_neg (by simp [h])), fun m h => ?_,
    fun f o ho => ⟨fun may => ⟨_, if_pos ⟨hp, hn, ho⟩, delayReqSend_shows hs hp hn may f o⟩,
      fun hno => (if_pos ⟨hp, hn, ho⟩).trans (congrArg Host.Outcome.next (delayReqSend_stays hno f o))⟩,
    fun q l d hd => ⟨fun may => ⟨_, if_pos ⟨hp, hn, hd⟩, unicastRequest_shows hs hp may.1 may.2 q l d⟩,
      fun hno => (if_pos ⟨hp, hn, hd⟩).trans (congrArg Host.Outcome.next (unicastRequest_stays hno q l d))⟩,
    fun b f o hb ho => ⟨fun may => ⟨_, if_pos ⟨hp, hn, hb, ho⟩, syncSend_shows hs hp hn may f o⟩,
      fun hno => (if_pos ⟨hp, hn, hb, ho⟩).trans (congrArg Host.Outcome.next (syncSend_stays hno f o))⟩, fun hdue => ?_, fun hno => ?_⟩
  · obtain ⟨hcnt, hptp⟩ := counted_modPtp (hs.ptps ▸ hp) (fun u => { u with sent := some (.announce (txClass s p) (bit1 s TIME.UTC_VALID p)
      (toSigned 16 (get1 s TIME.UTC_OFS p)) (bit1 s TIME.UTC_LEAP61 p) (bit1 s TIME.UTC_LEAP59 p)) }) n 1
    exact ⟨hcnt, congrArg PtpU.sent hptp⟩
  · have hok := h.1
    have hport : m.port < 2 := by
      simp only [PtpMsg.ok, Bool.and_eq_true, decide_eq_true_eq] at hok
      exact hok.1.1.1.1.1.1.1
    refine ⟨⟨_, if_pos ⟨hp, hok⟩, fun ⟨hv, hpeer, hserves⟩ => delayReq_answered hs hp h hv hpeer hserves, fun hno => ?_⟩,
      fun f o ho => ⟨_, if_pos ⟨hp, hok, ho⟩, fun hv hpeer => pdelayReq_answered hs hp h hport hv hpeer f o, fun hno => ?_⟩,
      fun t1 t4 => ⟨_, if_pos ⟨hp, hok⟩, fun dep hdep => ⟨fun hpeer => ?_, fun hpeer hslave => ?_⟩, fun hno => ?_⟩⟩
    · rw [delayReq_unanswered h hno]
      rfl
    · rw [pdelayReq_unanswered h hno]
      rfl
    · refine (delayResp_answered h hp hdep (.inr hpeer) t1 t4).trans ?_
      simp [meanPath, hdep, hpeer]
    · refine (delayResp_answered h hp hdep (.inl hslave) t1 t4).trans ?_
      simp [meanPath, hdep, hpeer]
    · rw [delayResp_unanswered h hno]
      rfl
  · obtain ⟨hrun, hclosed, hheld, hlate⟩ := hdue
    exact ⟨instOpen s p, (if_pos hp).trans (if_pos (by simp [hrun, hclosed, hheld, (reopenDue_iff s p).mpr hlate])), instOpen_opens hp s,
      eq_of_onlyRegs (instOpen_keeps s p)⟩
  · refine (if_pos hp).trans (if_neg fun hyes => hno ?_)
    simp only [Bool.and_eq_true, Bool.not_eq_true'] at hyes
    obtain ⟨⟨⟨h1, h2⟩, h3⟩, h4⟩ := hyes
    exact ⟨h1, h2, h3, (reopenDue_iff s p).mp h4⟩

end Sys2Proof.Machine
/-! The shelf bus (R418 to R446): messages that the module sends. -/

namespace Sys2Proof.Machine

/-! ### Transmit buffers -/

/-- A start of transmission moves the first buffer to the bus. -/
theorem busStart_cases (s : State) : busStart s = s ∨
    ∃ b r, s.shelf.bufs = b :: r ∧ busStart s = modShelf s fun v => { v with onBus := some b, bufs := r } := by
  unfold busStart
  dsimp only
  split
  · exact .inl rfl
  · cases h : s.shelf.bufs with
    | nil => exact .inl rfl
    | cons b r => exact .inr ⟨b, r, rfl, rfl⟩

/-- What waits in a buffer is on the bus or waits after a start of transmission. -/
theorem busStart_sent {s : State} {ty : Nat} {p : List Nat} (h : kvGet s.shelf.bufs ty = some p) : Sent (busStart s) ty p := by
  rcases busStart_cases s with heq | ⟨b, r, hb, heq⟩
  · rw [heq]
    exact .inr h
  · rw [heq]
    rw [hb] at h
    obtain ⟨k, v⟩ := b
    by_cases hk : k = ty
    · refine .inl ?_
      have hv : v = p := by simpa [kvGet, hk] using h
      rw [← hk, ← hv]
      rfl
    · have hr : kvGet r ty = some p := by simpa [kvGet, hk] using h
      exact .inr hr

/-- A part of the shelf protocol that its transmit buffers and the bus alone may change. -/
def BufsOnly (u v : ShelfU) : Prop := ∃ bufs bus, v = { u with bufs := bufs, onBus := bus }

theorem BufsOnly.refl (u : ShelfU) : BufsOnly u u := ⟨u.bufs, u.onBus, rfl⟩

theorem BufsOnly.trans {u v w : ShelfU} (h : BufsOnly u v) (g : BufsOnly v w) : BufsOnly u w := by
  obtain ⟨b, o, rfl⟩ := h
  obtain ⟨b', o', rfl⟩ := g
  exact ⟨b', o', rfl⟩

/-- A part that is neither the buffers nor the bus. -/
theorem BufsOnly.part {u v : ShelfU} (h : BufsOnly u v) {α : Type} (f : ShelfU → α) (hf : ∀ u bufs bus, f { u with bufs := bufs, onBus := bus } = f u) :
    f v = f u := by
  obtain ⟨b, o, rfl⟩ := h
  exact hf u b o

theorem busStart_shelf (s : State) : BufsOnly s.shelf (busStart s).shelf := by
  rcases busStart_cases s with heq | ⟨b, r, -, heq⟩
  · rw [heq]
    exact .refl _
  · rw [heq]
    exact ⟨r, some b, rfl⟩

theorem busStart_regs (s : State) : (busStart s).regs = s.regs ∧ (busStart s).pol = s.pol := by
  rcases busStart_cases s with heq | ⟨b, r, -, heq⟩ <;> rw [heq] <;> exact ⟨rfl, rfl⟩

theorem Keeps.busStart (fs : List Fld) (s : State) : Keeps fs s (busStart s) := .of_units (busStart_regs s).1 (busStart_regs s).2

/-- A message loaded late is counted. -/
def lateCounted (s : State) (ty : Nat) : State :=
  if (s.shelf.onBus.map fun b => b.1 == ty) = some true then evt (addCnt s SHELF.CANCEL_LATE_CNT 0 0 1) .shelf 0 6 else s

theorem loadBuf_eq (s : State) (ty : Nat) (p : List Nat) :
    loadBuf s ty p = busStart (modShelf (lateCounted s ty) fun u => { u with bufs := kvSet u.bufs ty p }) := by
  unfold loadBuf lateCounted
  cases s.shelf.onBus with
  | none => rfl
  | some b => cases h : b.1 == ty <;> simp [h]

theorem lateCounted_keeps (s : State) (ty : Nat) : OnlyRegs s (lateCounted s ty) := by
  simp [OnlyRegs, lateCounted, cite @evt_keeps, cite @addCnt_keeps, cite @ite_state]

/-- A loaded message is on the bus or waits; of the protocol nothing else changes. -/
theorem loadBuf_shows (s : State) (ty : Nat) (p : List Nat) : Sent (loadBuf s ty p) ty p ∧ BufsOnly s.shelf (loadBuf s ty p).shelf := by
  rw [loadBuf_eq]
  have hshelf : (lateCounted s ty).shelf = s.shelf := by simp [cite @lateCounted_keeps]
  refine ⟨busStart_sent (kvGet_kvSet_same ..), ?_⟩
  refine BufsOnly.trans ?_ (busStart_shelf _)
  exact ⟨kvSet (lateCounted s ty).shelf.bufs ty p, (lateCounted s ty).shelf.onBus, by rw [← hshelf]; rfl⟩

/-- Whether a late load leaves a field. -/
def lateFree (g : Fld) : Bool := Fld.apart SHELF.CANCEL_LATE_CNT 0 0 g && Fld.lowPlain g 0 0

theorem Keeps.loadBuf {fs : List Fld} (h : fs.all lateFree = true) (s : State) (ty : Nat) (p : List Nat) : Keeps fs s (loadBuf s ty p) := by
  have happ : fs.all (Fld.apart SHELF.CANCEL_LATE_CNT 0 0) = true ∧ fs.all (Fld.lowPlain · 0 0) = true := by
    simp only [List.all_eq_true, lateFree, Bool.and_eq_true] at h ⊢
    exact ⟨fun g hg => (h g hg).1, fun g hg => (h g hg).2⟩
  have hlate : Keeps fs s (lateCounted s ty) := by
    unfold lateCounted
    exact .ite ((Keeps.addCnt ⟨⟨happ.1, by decide⟩, happ.2⟩ s 0 1).after_evt happ.2) (.refl _ _)
  rw [loadBuf_eq]
  exact (hlate.trans (.modShelf ..)).trans (.busStart ..)

/-! ### Leaf's messages -/

/-- The next SEQ of a type, taken. -/
def seqTaken (s : State) (ty : Nat) : State := modShelf s fun u => { u with seqs := u.seqs.modify ty fun x => (x + 1) % 256 }

theorem shelfQueue_sends {s : State} (h : MaySend s) (ty : Nat) (build : Nat → List Nat) :
    Sent (shelfQueue s ty build) ty (build (s.shelf.seqs.getD ty 0)) ∧ BufsOnly (seqTaken s ty).shelf (shelfQueue s ty build).shelf := by
  have heq : shelfQueue s ty build = loadBuf (seqTaken s ty) ty (build (s.shelf.seqs.getD ty 0)) := if_neg (by simp [h.1, h.2])
  rw [heq]
  exact loadBuf_shows ..

theorem shelfQueue_stays {s : State} (h : ¬ MaySend s) (ty : Nat) (build : Nat → List Nat) : shelfQueue s ty build = s := by
  refine if_pos ?_
  by_contra hne
  simp only [Bool.not_eq_true', Bool.and_eq_false_iff, not_or, Bool.not_eq_false] at hne
  exact h hne

/-- What a state with another protocol part still answers. -/
theorem maySend_modShelf (s : State) {f : ShelfU → ShelfU} (hf : ∀ u, (f u).mute = u.mute) : maySend (modShelf s f) = maySend s := by
  show (_ && _ && _ && !(f s.shelf).mute) = _
  rw [hf]
  rfl

theorem MaySend.modShelf {s : State} {f : ShelfU → ShelfU} (hf : ∀ u, (f u).mute = u.mute) : MaySend (modShelf s f) ↔ MaySend s := by
  unfold MaySend
  rw [maySend_modShelf s hf]
  rfl

/-- An evaluation settles the role to come and nothing else (R432). -/
theorem evaluate_eq (s : State) : ∃ x, evaluate s = modShelf s fun u => { u with next := x } := by
  unfold evaluate
  split
  · exact ⟨s.shelf.next, rfl⟩
  · exact ⟨_, rfl⟩

/-- The state that has queued an ELECT's content. -/
def electNoted (s : State) (b : List Nat) : State := modShelf s fun u => { u with elSent := some b }

theorem sendElect_eq {s : State} (h : electEn s = true) : ∃ x, sendElect s true =
    shelfQueue (electNoted (modShelf s fun u => { u with next := x }) (electBody s (claimOf s))) 1 fun q => q :: electBody s (claimOf s) := by
  obtain ⟨x, hx⟩ := evaluate_eq s
  have hgo : sendElect s true = shelfQueue (electNoted (if leafRuns s then evaluate s else s)
      (electBody (if leafRuns s then evaluate s else s) (claimOf (if leafRuns s then evaluate s else s)))) 1 fun q =>
        q :: electBody (if leafRuns s then evaluate s else s) (claimOf (if leafRuns s then evaluate s else s)) := by
    unfold sendElect
    refine (if_neg (by simp [h])).trans ?_
    simp only [Bool.true_and]
    rfl
  cases hrun : leafRuns s with
  | true =>
    refine ⟨x, hgo.trans ?_⟩
    rw [if_pos hrun, hx]
    rfl
  | false =>
    refine ⟨s.shelf.next, hgo.trans ?_⟩
    rw [if_neg (by simp [hrun])]
    rfl

/-! ### The controller's errors -/

theorem goSilent_shows (s : State) : get1 (goSilent s) SHELF.STATUS_SILENT 0 = 1 := by
  have hset : get1 (set1 s SHELF.STATUS_SILENT 0 1) SHELF.STATUS_SILENT 0 = 1 := get1_set1_same _ _ _ _ (by decide)
  obtain ⟨x, hx⟩ := evaluate_eq (set1 s SHELF.STATUS_SILENT 0 1)
  unfold goSilent
  extract_lets s1
  split
  · rw [hx]
    exact hset
  · split
    · exact hset
    · exact hset

/-- A frame on the bus goes back to its buffer, unless a newer message waits there. -/
def busCleared (u : ShelfU) : ShelfU := match u.onBus with
  | some b => { u with onBus := none, bufs := if (kvGet u.bufs b.1).isSome then u.bufs else kvSet u.bufs b.1 b.2 }
  | none => u

theorem busCleared_shows (u : ShelfU) : (busCleared u).onBus = none ∧
    ∀ b, u.onBus = some b → kvGet (busCleared u).bufs b.1 = some ((kvGet u.bufs b.1).getD b.2) := by
  unfold busCleared
  cases hb : u.onBus with
  | none => exact ⟨hb, nofun⟩
  | some b =>
    refine ⟨rfl, fun c hc => ?_⟩
    obtain rfl := Option.some.inj hc
    show kvGet (if (kvGet u.bufs b.1).isSome = true then u.bufs else kvSet u.bufs b.1 b.2) b.1 = some ((kvGet u.bufs b.1).getD b.2)
    split
    · next h =>
      obtain ⟨x, hx⟩ := Option.isSome_iff_exists.mp h
      rw [hx]
      rfl
    · next h =>
      rw [kvGet_kvSet_same, Option.not_isSome_iff_eq_none.mp h]
      rfl

/-- The state that shows a bus-off, its frame back in its buffer (R436). -/
def busOffShown (s : State) (tec : Nat) : State := modShelf (set1 (set1 s SHELF.STATUS_FC 0 2) SHELF.TEC_REC_TEC 0 tec) busCleared

theorem busOffEnter_eq (s : State) (tec : Nat) : busOffEnter s tec =
    journalPg (addCnt (evt (busOffShown s tec) .shelf 0 2) SHELF.BUSOFF_CNT 0 0 1) 0x082 none .shelf 0 (tec % 256) := rfl

theorem busOffShown_shows (s : State) (tec : Nat) : get1 (busOffShown s tec) SHELF.STATUS_FC 0 = 2 ∧
    get1 (busOffShown s tec) SHELF.TEC_REC_TEC 0 = tec % 2 ^ 8 ∧ Keeps [SHELF.BUSOFF_CNT] s (busOffShown s tec) := by
  refine ⟨?_, ?_, ((Keeps.set1 (by decide) s 0 2).after_set1 (by decide)).trans (.modShelf ..)⟩
  · exact (getF_modShelf ..).trans ((getF_setF_place (f := SHELF.TEC_REC_TEC) (g := SHELF.STATUS_FC) rfl (by decide) _ 0 tec).trans
      (get1_set1_same _ _ _ _ (by decide)))
  · exact (getF_modShelf ..).trans (get1_set1_same _ _ _ _ (by decide))

/-- A bus-off is shown, counted and raised, and its frame goes back to its buffer (R436). -/
theorem busOffEnter_shows (s : State) (tec : Nat) : get1 (busOffEnter s tec) SHELF.STATUS_FC 0 = 2 ∧
    get1 (busOffEnter s tec) SHELF.TEC_REC_TEC 0 = tec % 2 ^ 8 ∧ (busOffEnter s tec).shelf = busCleared s.shelf ∧
    Counted s (busOffEnter s tec) SHELF.BUSOFF_CNT 0 0 1 ∧ Raised (busOffEnter s tec) .shelf 0 2 := by
  obtain ⟨hfc, htec, hcnt⟩ := busOffShown_shows s tec
  have hshelf : (busOffShown s tec).shelf = busCleared s.shelf := rfl
  rw [busOffEnter_eq]
  generalize busOffShown s tec = v at *
  have hk : Keeps [SHELF.STATUS_FC, SHELF.TEC_REC_TEC] v (addCnt (evt v .shelf 0 2) SHELF.BUSOFF_CNT 0 0 1) :=
    (Keeps.evt (by decide) v .shelf 0 2).after_addCnt (by decide)
  have hke : Keeps [SHELF.BUSOFF_CNT] v (evt v .shelf 0 2) := .evt (by decide) v .shelf 0 2
  have hc := getF_addCnt_counter (f := SHELF.BUSOFF_CNT) (k := 0) (by decide) rfl (by decide) (evt v .shelf 0 2) 0 1
  have hr : Raised (addCnt (evt v .shelf 0 2) SHELF.BUSOFF_CNT 0 0 1) .shelf 0 2 :=
    Raised.after_addCnt (f := SHELF.BUSOFF_CNT) (raised_evt (by decide) v .shelf 0) (by decide) (by decide) 1
  have hs : (addCnt (evt v .shelf 0 2) SHELF.BUSOFF_CNT 0 0 1).shelf = v.shelf := by simp only [cite @addCnt_keeps, cite @evt_keeps]
  generalize addCnt (evt v .shelf 0 2) SHELF.BUSOFF_CNT 0 0 1 = w at *
  have hpage : pageCells .shelf (journalPg w 0x082 none .shelf 0 (tec % 256)).regs = pageCells .shelf w.regs := by simp
  have hget : ∀ f : Fld, f.page = .shelf → f.acc ≠ .lk → get1 (journalPg w 0x082 none .shelf 0 (tec % 256)) f 0 = get1 w f 0 :=
    fun f hf ha => getF_of_pageCells hpage hf ha 0 0 0
  refine ⟨?_, ?_, ?_, ?_, ?_⟩
  · exact (hget _ rfl (by decide)).trans ((hk.reads _ (by decide) 0).trans hfc)
  · exact (hget _ rfl (by decide)).trans ((hk.reads _ (by decide) 0).trans htec)
  · simp only [cite @journalPg_keeps, hs, hshelf]
  · exact (hget SHELF.BUSOFF_CNT rfl (by decide)).trans (hc.trans (congrArg (fun y => satTo cntMax (y + 1)) ((hke.reads _ (by decide) 0).trans (hcnt.reads _ (by decide) 0))))
  · exact (raised_of_page hpage (by simp only [cite @journalPg_keeps]) 0 2).mpr hr

/-- The end of a bus-off clears the controller's state and counters (R436). -/
theorem busOffLeave_shows (s : State) : get1 (busOffLeave s) SHELF.STATUS_FC 0 = 0 ∧ get1 (busOffLeave s) SHELF.TEC_REC_TEC 0 = 0 ∧
    get1 (busOffLeave s) SHELF.TEC_REC_REC 0 = 0 := by
  have hk : Keeps [SHELF.STATUS_FC, SHELF.TEC_REC_TEC, SHELF.TEC_REC_REC] _ (busOffLeave s) := .busStart _ _
  refine ⟨(hk.reads _ (by decide) 0).trans ?_, (hk.reads _ (by decide) 0).trans ?_, (hk.reads _ (by decide) 0).trans ?_⟩
  · exact (getF_setF_place (f := SHELF.TEC_REC_REC) (g := SHELF.STATUS_FC) rfl (by decide) _ 0 0).trans
      ((getF_setF_place (f := SHELF.TEC_REC_TEC) (g := SHELF.STATUS_FC) rfl (by decide) _ 0 0).trans (get1_set1_same _ _ _ _ (by decide)))
  · exact (getF_setF_place (f := SHELF.TEC_REC_REC) (g := SHELF.TEC_REC_TEC) rfl (by decide) _ 0 0).trans (get1_set1_same _ _ _ _ (by decide))
  · exact get1_set1_same _ _ _ _ (by decide)

/-- An error-passive controller shows its counters (R436). -/
theorem errPassive_shows (s : State) {tec rec : Nat} (ht : tec < 256) (hr : rec < 256) :
    get1 (evt (set1 (set1 (set1 s SHELF.STATUS_FC 0 1) SHELF.TEC_REC_TEC 0 tec) SHELF.TEC_REC_REC 0 rec) .shelf 0 3) SHELF.STATUS_FC 0 = 1 ∧
    get1 (evt (set1 (set1 (set1 s SHELF.STATUS_FC 0 1) SHELF.TEC_REC_TEC 0 tec) SHELF.TEC_REC_REC 0 rec) .shelf 0 3) SHELF.TEC_REC_TEC 0 = tec ∧
    get1 (evt (set1 (set1 (set1 s SHELF.STATUS_FC 0 1) SHELF.TEC_REC_TEC 0 tec) SHELF.TEC_REC_REC 0 rec) .shelf 0 3) SHELF.TEC_REC_REC 0 = rec := by
  have hk : ∀ v, Keeps [SHELF.STATUS_FC, SHELF.TEC_REC_TEC, SHELF.TEC_REC_REC] v (evt v .shelf 0 3) := fun v => .evt (by decide) v .shelf 0 3
  refine ⟨((hk _).reads _ (by decide) 0).trans ?_, ((hk _).reads _ (by decide) 0).trans ?_, ((hk _).reads _ (by decide) 0).trans ?_⟩
  · exact (getF_setF_place (f := SHELF.TEC_REC_REC) (g := SHELF.STATUS_FC) rfl (by decide) _ 0 rec).trans
      ((getF_setF_place (f := SHELF.TEC_REC_TEC) (g := SHELF.STATUS_FC) rfl (by decide) _ 0 tec).trans (get1_set1_same _ _ _ _ (by decide)))
  · exact (getF_setF_place (f := SHELF.TEC_REC_REC) (g := SHELF.TEC_REC_TEC) rfl (by decide) _ 0 rec).trans
      ((get1_set1_same _ _ _ _ (by decide)).trans (Nat.mod_eq_of_lt ht))
  · exact (get1_set1_same _ _ _ _ (by decide)).trans (Nat.mod_eq_of_lt hr)

/-! ### The messages that are due -/

section

variable {s : State}

/-- The buffers, the bus and the SEQ stand. -/
def NothingSent (s t : State) : Prop := t.shelf.bufs = s.shelf.bufs ∧ t.shelf.onBus = s.shelf.onBus ∧ t.shelf.seqs = s.shelf.seqs

theorem shelfStatusTx_sends (h : MaySend s) : Sent (sendStatus s) 4 (statusBytes s (s.shelf.seqs.getD 4 0)) ∧
    (sendStatus s).shelf.seqs = s.shelf.seqs.modify 4 fun x => (x + 1) % 256 := by
  obtain ⟨hsent, honly⟩ := shelfQueue_sends h 4 (statusBytes s)
  exact ⟨hsent, honly.part ShelfU.seqs fun _ _ _ => rfl⟩

theorem sendElect_sends (h : MaySend s) (hen : electEn s = true) :
    Sent (sendElect s true) 1 (s.shelf.seqs.getD 1 0 :: electBody s (claimOf s)) ∧ (sendElect s true).shelf.elSent = some (electBody s (claimOf s)) := by
  obtain ⟨x, hx⟩ := sendElect_eq hen
  have hmay : MaySend (electNoted (modShelf s fun u => { u with next := x }) (electBody s (claimOf s))) :=
    (MaySend.modShelf fun _ => rfl).mpr ((MaySend.modShelf fun _ => rfl).mpr h)
  obtain ⟨hsent, honly⟩ := shelfQueue_sends hmay 1 fun q => q :: electBody s (claimOf s)
  rw [hx]
  exact ⟨hsent, honly.part ShelfU.elSent fun _ _ _ => rfl⟩

theorem sendElect_stays (h : ¬ MaySend s) (hen : electEn s = true) :
    (sendElect s true).shelf.elSent = some (electBody s (claimOf s)) ∧ NothingSent s (sendElect s true) := by
  obtain ⟨x, hx⟩ := sendElect_eq hen
  have hmay : ¬ MaySend (electNoted (modShelf s fun u => { u with next := x }) (electBody s (claimOf s))) :=
    mt (MaySend.modShelf fun _ => rfl).mp (mt (MaySend.modShelf fun _ => rfl).mp h)
  rw [hx, shelfQueue_stays hmay]
  exact ⟨rfl, rfl, rfl, rfl⟩

/-- The state that has queued a QL_FWD's codes. -/
def qlNoted (s : State) : State := modShelf s fun u => { u with qlSent := some (qlfCodes s) }

theorem sendQlf_eq (hen : get1 s SHELF.TX_CFG_QLF_EN 0 ≠ 0) : sendQlf s =
    shelfQueue (qlNoted s) 2 fun q => [q, (qlfCodes s).1, (qlfCodes s).2, get1 s SHELF.TX_CFG_QLF_DOM 0] := if_neg hen

theorem sendQlf_sends (h : MaySend s) (hen : get1 s SHELF.TX_CFG_QLF_EN 0 ≠ 0) :
    Sent (sendQlf s) 2 [s.shelf.seqs.getD 2 0, (qlfCodes s).1, (qlfCodes s).2, get1 s SHELF.TX_CFG_QLF_DOM 0] ∧
    (sendQlf s).shelf.qlSent = some (qlfCodes s) := by
  obtain ⟨hsent, honly⟩ := shelfQueue_sends (s := qlNoted s) ((MaySend.modShelf fun _ => rfl).mpr h) 2
    fun q => [q, (qlfCodes s).1, (qlfCodes s).2, get1 s SHELF.TX_CFG_QLF_DOM 0]
  rw [sendQlf_eq hen]
  exact ⟨hsent, honly.part ShelfU.qlSent fun _ _ _ => rfl⟩

theorem sendQlf_stays (h : ¬ MaySend s) (hen : get1 s SHELF.TX_CFG_QLF_EN 0 ≠ 0) :
    (sendQlf s).shelf.qlSent = some (qlfCodes s) ∧ NothingSent s (sendQlf s) := by
  rw [sendQlf_eq hen, shelfQueue_stays (s := qlNoted s) (mt (MaySend.modShelf fun _ => rfl).mp h)]
  exact ⟨rfl, rfl, rfl, rfl⟩

/-- The state whose second has been queued. -/
def todNoted (s : State) : State := modShelf s fun u => { u with tod := none }

theorem sendTod_eq (hen : get1 s SHELF.TX_CFG_TOD_EN 0 ≠ 0) (sec : Nat) : sendTod s sec = shelfQueue (todNoted s) 3 fun q => todPayload s sec q :=
  if_neg hen

theorem sendTod_sends (h : MaySend s) (hen : get1 s SHELF.TX_CFG_TOD_EN 0 ≠ 0) (sec : Nat) :
    Sent (sendTod s sec) 3 (todPayload s sec (s.shelf.seqs.getD 3 0)) ∧ (sendTod s sec).shelf.tod = none := by
  obtain ⟨hsent, honly⟩ := shelfQueue_sends (s := todNoted s) ((MaySend.modShelf fun _ => rfl).mpr h) 3 fun q => todPayload s sec q
  rw [sendTod_eq hen]
  exact ⟨hsent, honly.part ShelfU.tod fun _ _ _ => rfl⟩

theorem sendTod_stays (h : ¬ MaySend s) (sec : Nat) : NothingSent s (sendTod s sec) := by
  by_cases hen : get1 s SHELF.TX_CFG_TOD_EN 0 = 0
  · rw [show sendTod s sec = s from if_pos hen]
    exact ⟨rfl, rfl, rfl⟩
  · rw [sendTod_eq hen, shelfQueue_stays (s := todNoted s) (mt (MaySend.modShelf fun _ => rfl).mp h)]
    exact ⟨rfl, rfl, rfl⟩

/-- The second that SHELF_TOD_TX sends: the one that waits, or the domain's latest rollover (R428). -/
def todDue (s : State) : Option Nat := (s.shelf.tod.map fun x => x.1).or (timeOf s (get1 s SHELF.TX_CFG_TOD_DOM 0)).rolled

theorem exec_shelfTodTx (s : State) : (∀ sec, todDue s = some sec → exec .shelfTodTx s = .next (sendTod s sec)) ∧
    (todDue s = none → exec .shelfTodTx s = .next s) := by
  have hexec : exec .shelfTodTx s = execShelfTodTx s := rfl
  rw [hexec]
  unfold execShelfTodTx todDue
  cases s.shelf.tod with
  | some x =>
    refine ⟨fun sec h => ?_, nofun⟩
    obtain rfl := Option.some.inj h
    rfl
  | none =>
    cases (timeOf s (get1 s SHELF.TX_CFG_TOD_DOM 0)).rolled with
    | some sec' =>
      refine ⟨fun sec h => ?_, nofun⟩
      obtain rfl := Option.some.inj h
      rfl
    | none => exact ⟨nofun, fun _ => rfl⟩

theorem sendAlert_sends (h : MaySend s) {k : Nat} (hbit : bitOf (get1 s SHELF.TX_CFG_ALERT_MASK 0) k = true) (p d x : Nat) :
    Sent (sendAlert s k p d x) 0 ([s.shelf.seqs.getD 0 0, k, p + 16 * d, 0] ++ beBytes x 4) := by
  rw [show sendAlert s k p d x = shelfQueue s 0 fun q => [q, k, p + 16 * d, 0] ++ beBytes x 4 from if_neg (by simp [hbit])]
  exact (shelfQueue_sends h 0 _).1

theorem sendAlert_stays {k : Nat} (h : bitOf (get1 s SHELF.TX_CFG_ALERT_MASK 0) k = false ∨ ¬ MaySend s) (p d x : Nat) : sendAlert s k p d x = s := by
  by_cases hbit : bitOf (get1 s SHELF.TX_CFG_ALERT_MASK 0) k = true
  · have hno : ¬ MaySend s := h.resolve_left (by simp [hbit])
    exact (if_neg (by simp [hbit])).trans (shelfQueue_stays hno 0 _)
  · exact if_pos (by simp [hbit])

/-- The types that Leaf may send by the gate, with a payload that fits (Table 14.1). -/
def ShelfTxFits (k : Nat) (b : List Nat) : Prop := (k = 1 ∨ k = 2 ∨ k = 3 ∨ k = 4 ∨ k = 6) ∧ b.length ≤ 64

theorem gateShelfTx_running (h : leafRuns s = true) (k : Nat) (b : List Nat) :
    (¬ ShelfTxFits k b → gateShelfTx s k b = gateRefuse s 0x06 1) ∧
    (ShelfTxFits k b → maySend s = false ∨ get1 s SHELF.STATUS_FC 0 = 2 → gateShelfTx s k b = gateRefuse s 0x06 7) ∧
    (ShelfTxFits k b → maySend s = true → get1 s SHELF.STATUS_FC 0 ≠ 2 → gateShelfTx s k b = loadBuf (gateRes s 0) k b) := by
  have hbad : (!([1, 2, 3, 4, 6].contains k) || decide (64 < b.length)) = true ↔ ¬ ShelfTxFits k b := by
    simp only [ShelfTxFits, Bool.or_eq_true, Bool.not_eq_true', List.contains_eq_mem, List.mem_cons, List.not_mem_nil, or_false,
      decide_eq_false_iff_not, decide_eq_true_eq]
    omega
  have hgo : gateShelfTx s k b = if (!([1, 2, 3, 4, 6].contains k) || decide (64 < b.length)) = true then gateRefuse s 0x06 1
      else if (!maySend s || get1 s SHELF.STATUS_FC 0 == 2) = true then gateRefuse s 0x06 7 else loadBuf (gateRes s 0) k b :=
    if_neg (by simp [h])
  rw [hgo]
  refine ⟨fun hno => if_pos (hbad.mpr hno), fun hfit hno => ?_, fun hfit hmay hfc => ?_⟩
  · refine (if_neg fun hb => hbad.mp hb hfit).trans (if_pos ?_)
    rcases hno with hno | hno <;> simp [hno]
  · exact (if_neg fun hb => hbad.mp hb hfit).trans (if_neg (by simp [hmay, hfc]))

end

/-- Settles O59: a message that is due passes one queue step, which puts it on the bus or in its buffer, or none where the module may
not send; the controller's error states are shown by their lemmas. -/
theorem shelfSend : Obligations.ShelfSend := by
  intro s _
  refine ⟨fun h => ⟨fun hdue => ⟨_, if_pos hdue, shelfStatusTx_sends h⟩, fun hdue hen => ⟨_, if_pos hdue, sendElect_sends h hen⟩,
      fun hdue hen => ⟨_, if_pos hdue, sendQlf_sends h hen⟩, fun sec hsec hen => ⟨_, (exec_shelfTodTx s).1 sec ?_, sendTod_sends h hen sec⟩,
      fun k p d x h1 h7 hp hd hx hbit => ⟨_, if_pos ⟨h1, h7, hp, hd, hx⟩, sendAlert_sends h hbit p d x⟩,
      fun k b hk hb hlen hfc => ⟨gateShelfTx s k b, if_pos hb, ?_⟩⟩,
    fun h => ?_, fun h => ?_, fun hdue hen h => ⟨_, if_pos hdue, sendElect_stays h hen⟩, fun h => ?_,
    fun hdue hen h => ⟨_, if_pos hdue, sendQlf_stays h hen⟩, fun h => ?_, fun h => ?_,
    fun k p d x h1 h7 hp hd hx h => (if_pos ⟨h1, h7, hp, hd, hx⟩).trans (congrArg Host.Outcome.next (sendAlert_stays h p d x)),
    fun k b hb => ⟨fun h => (if_pos hb).trans (congrArg Host.Outcome.next (if_pos (by simp [h]))),
      fun h hno => ⟨_, if_pos hb, ?_⟩, fun h hfit hno => ⟨_, if_pos hb, ?_⟩⟩,
    fun h => ⟨_, if_pos h, goSilent_shows s⟩, fun h => if_neg (by simp [h]),
    fun tec ht => ⟨fun hen hfc => ⟨busOffEnter s tec, (if_pos ht).trans (if_neg (not_or.mpr ⟨hen, hfc⟩)), ?_⟩, fun h => (if_pos ht).trans (if_pos h)⟩,
    fun h => ⟨_, if_pos h, busOffLeave_shows s⟩, fun h => if_neg h,
    fun tec rec ht hr => ⟨fun hfc hen => ⟨_, (if_pos ⟨ht, hr⟩).trans (if_pos ⟨hfc, hen⟩), ?_⟩, fun h => (if_pos ⟨ht, hr⟩).trans (if_neg ?_)⟩⟩
  · rcases hsec with ⟨k, hk⟩ | ⟨hnone, hroll⟩
    · simp [todDue, hk]
    · simp [todDue, hnone, hroll]
  · rw [(gateShelfTx_running h.1 k b).2.2 ⟨hk, hlen⟩ h.2 hfc]
    exact ⟨(loadBuf_shows ..).1, by simp [cite @loadBuf_keeps, gateRes]⟩
  · by_cases hdue : onSchedule s 1000 0 = true
    · exact (if_pos hdue).trans (congrArg Host.Outcome.next (shelfQueue_stays (h.resolve_left (by simp [hdue])) 4 _))
    · exact if_neg hdue
  · by_cases hdue : electDue s = true
    · exact (if_pos hdue).trans (congrArg Host.Outcome.next (if_pos (by simp [h.resolve_left (by simp [hdue])])))
    · exact if_neg hdue
  · by_cases hdue : qlfDue s = true
    · exact (if_pos hdue).trans (congrArg Host.Outcome.next (if_pos (h.resolve_left (by simp [hdue]))))
    · exact if_neg hdue
  · cases hd : todDue s with
    | none => exact (exec_shelfTodTx s).2 hd
    | some sec =>
      refine ((exec_shelfTodTx s).1 sec hd).trans (congrArg Host.Outcome.next (if_pos (h.resolve_right ?_)))
      rintro ⟨hnone, hroll⟩
      simp [todDue, hnone, hroll] at hd
  · cases hd : todDue s with
    | none => exact ⟨s, (exec_shelfTodTx s).2 hd, rfl, rfl, rfl⟩
    | some sec => exact ⟨_, (exec_shelfTodTx s).1 sec hd, sendTod_stays h sec⟩
  · rw [(gateShelfTx_running h k b).1 hno]
    exact ⟨gateRefuse_refused s (by decide) (by decide), by simp [cite @gateRefuse_keeps]⟩
  · rw [(gateShelfTx_running h k b).2.1 hfit hno]
    exact ⟨gateRefuse_refused s (by decide) (by decide), by simp [cite @gateRefuse_keeps]⟩
  · obtain ⟨h1, h2, h3, h4, h5⟩ := busOffEnter_shows s tec
    obtain ⟨hbus, hbufs⟩ := busCleared_shows s.shelf
    exact ⟨h1, h2, by rw [h3, hbus], fun b hb => by rw [h3]; exact hbufs b hb, h4, h5⟩
  · obtain ⟨h1, h2, h3⟩ := errPassive_shows s ht hr
    exact ⟨h1, h2, h3, raised_evt (by decide) _ .shelf 0, by simp only [cite @evt_keeps, cite @set1_keeps]⟩
  · exact fun hboth => h.elim (fun h0 => h0 hboth.1) (fun h1 => h1 hboth.2)

end Sys2Proof.Machine
/-! The shelf bus (R418 to R446): received frames, remote reads and lapsed peers. -/

namespace Sys2Proof.Machine

/-! ### A received frame -/

/-- A received frame, counted. -/
def rxCounted (s : State) : State := addCnt s SHELF.RX_CNT 0 0 1

/-- The cells that a valid frame reads or may change beside the count. -/
def rxFlds : List Fld := [SHELF.NODE, SHELF.STRANGER_CNT, SHELF.ACTIVE_NODE_NONE, SHELF.ACTIVE_NODE_ID, SHELF.PEER_TOD_VALID, SHELF.PEER_TOD_DIFF,
  SHELF.REMOTE_CNT, SHELF.REMOTE_DENIED_CNT, SHELF.STATUS_ROLE, SHELF.STATUS_NODE_CLASH]

theorem rxCounted_shows (s : State) : Counted s (rxCounted s) SHELF.RX_CNT 0 0 1 ∧ Keeps rxFlds s (rxCounted s) ∧
    rxCounted s = { s with regs := (rxCounted s).regs } :=
  ⟨getF_addCnt_counter (f := SHELF.RX_CNT) (k := 0) (by decide) rfl (by decide) s 0 1, .addCnt (by decide) s 0 1, eq_of_onlyRegs (addCnt_keeps ..)⟩

/-- What stands after a frame was counted stays counted. -/
theorem counted_of_keeps {s u t : State} {f : Fld} {x : Nat} (h : Counted s u f 0 0 x) (hk : get1 t f 0 = get1 u f 0) : Counted s t f 0 0 x :=
  Eq.trans hk h

/-- Where the bus hears nothing: it is off, Leaf does not run or the transceiver has no supply. -/
def BusDeaf (s : State) : Prop := get1 s SHELF.CFG_EN 0 = 0 ∨ leafRuns s = false ∨ transceiverOn s = false

section

variable {s : State} {f : CanFrame} {cyc : Nat}

theorem shelfRx_deaf (h : BusDeaf s) : shelfRx s f cyc = s := by
  refine if_pos ?_
  rcases h with h | h | h
  · exact .inl h
  · exact .inr (.inl (by simp [h]))
  · exact .inr (.inr (by simp [h]))

theorem not_deaf_cond (h : ¬ BusDeaf s) : ¬ (get1 s SHELF.CFG_EN 0 = 0 ∨ (!leafRuns s) = true ∨ (!transceiverOn s) = true) := by
  simp only [BusDeaf, not_or, Bool.not_eq_true', Bool.not_eq_false] at h ⊢
  exact h

theorem shelfRx_unknown (h : ¬ BusDeaf s) (hu : canUnknown f = true) : shelfRx s f cyc = addCnt s SHELF.UNKNOWN_CNT 0 0 1 :=
  (if_neg (not_deaf_cond h)).trans (if_pos hu)

theorem nodeOf_rxCounted (s : State) : nodeOf (rxCounted s) = nodeOf s := (rxCounted_shows s).2.1.reads _ (by decide) 0

theorem roster_rxCounted (s : State) : get1 (rxCounted s) SHELF.ROSTER 0 = get1 s SHELF.ROSTER 0 :=
  getF_lk (f := SHELF.ROSTER) rfl (by rw [(rxCounted_shows s).2.2]) 0 0 0

theorem shelfRx_clash (h : ¬ BusDeaf s) (hu : canUnknown f = false) (hn : canNode f = nodeOf s) :
    shelfRx s f cyc = nodeClash (rxCounted s) f.ident :=
  ((if_neg (not_deaf_cond h)).trans (if_neg (by simp [hu]))).trans (if_pos (hn.trans (nodeOf_rxCounted s).symm))

theorem shelfRx_stranger (h : ¬ BusDeaf s) (hu : canUnknown f = false) (hn : canNode f ≠ nodeOf s)
    (hr : bitOf (get1 s SHELF.ROSTER 0) (canNode f) = false) : shelfRx s f cyc =
      evtIf (get1 (rxCounted s) SHELF.STRANGER_CNT 0 == 0) (addCnt (rxCounted s) SHELF.STRANGER_CNT 0 0 1) .shelf 0 7 := by
  refine (((if_neg (not_deaf_cond h)).trans (if_neg (by simp [hu]))).trans (if_neg ?_)).trans (if_pos ?_)
  · exact fun he => hn (he.trans (nodeOf_rxCounted s))
  · show (!bitOf (get1 (rxCounted s) SHELF.ROSTER 0) (canNode f)) = true
    rw [roster_rxCounted, hr]
    rfl

/-- The state after a ql forward has named its domain. -/
def qlDomNoted (s : State) (n d : Nat) : State := modShelf s fun u => { u with qlDoms := kvSet u.qlDoms n d }

theorem FrameOk.hears (h : FrameOk s f) : ¬ BusDeaf s := by
  obtain ⟨-, hen, hrun, hon, -⟩ := h
  simp [BusDeaf, hen, hrun, hon]

/-- A valid frame of the roster acts by its type. -/
theorem shelfRx_valid (h : FrameOk s f) :
    (f.ident % 8 = 1 → shelfRx s f cyc = electRx (rxCounted s) (canNode f) f.payload) ∧
    (f.ident % 8 = 2 → shelfRx s f cyc = deliverQl (qlDomNoted (rxCounted s) (canNode f) (f.payload.getD 3 0 % 4)) cyc 3 (canNode f)
      (f.payload.getD 1 0 % 16) (some (f.payload.getD 2 0))) ∧
    (f.ident % 8 = 3 → shelfRx s f cyc = todRx (rxCounted s) (canNode f) f.payload) ∧
    (f.ident % 8 = 5 → shelfRx s f cyc = regReqRx (rxCounted s) (canNode f) f.payload) := by
  have hhears := not_deaf_cond h.hears
  obtain ⟨-, -, -, -, hu, hn, hr⟩ := h
  have hnode : ¬ canNode f = nodeOf (addCnt s SHELF.RX_CNT 0 0 1) := fun he => hn (he.trans (nodeOf_rxCounted s))
  have hroster : ¬ (!bitOf (get1 (addCnt s SHELF.RX_CNT 0 0 1) SHELF.ROSTER 0) (canNode f)) = true := by
    rw [show get1 (addCnt s SHELF.RX_CNT 0 0 1) SHELF.ROSTER 0 = _ from roster_rxCounted s, hr]
    decide
  unfold shelfRx
  rw [if_neg hhears, if_neg (by simp [hu])]
  dsimp only
  rw [if_neg hnode, if_neg hroster]
  refine ⟨fun ht => ?_, fun ht => ?_, fun ht => ?_, fun ht => ?_⟩ <;> rw [ht] <;> rfl

/-- A frame in the module's own name isolates it (R424). -/
theorem nodeClash_shows (u : State) (ident : Nat) : get1 (nodeClash u ident) SHELF.STATUS_NODE_CLASH 0 = 1 ∧
    (nodeClash u ident).shelf = { u.shelf with next := some 3, bufs := [] } ∧ Raised (nodeClash u ident) .shelf 0 1 ∧
    get1 (nodeClash u ident) SHELF.RX_CNT 0 = get1 u SHELF.RX_CNT 0 := by
  obtain ⟨v, hv⟩ : ∃ v, v = set1 (evt u .shelf 0 1) SHELF.STATUS_NODE_CLASH 0 1 := ⟨_, rfl⟩
  have heq : nodeClash u ident = modShelf (journalPg v 0x080 none .shelf 0 ident) fun x => { x with next := some 3, bufs := [] } := by rw [hv]; rfl
  have hclash : get1 v SHELF.STATUS_NODE_CLASH 0 = 1 := hv ▸ get1_set1_same _ _ _ _ (by decide)
  have hraised : Raised v .shelf 0 1 := by
    rw [hv]
    exact (raised_evt (bit := 1) (by decide) u .shelf 0).setF_any (by decide) (f := SHELF.STATUS_NODE_CLASH) (k := 0) (j := 0) (by decide) 0 1
  have hrx : get1 v SHELF.RX_CNT 0 = get1 u SHELF.RX_CNT 0 := by
    have hk : Keeps [SHELF.RX_CNT] u v := hv ▸ (Keeps.evt (by decide) u .shelf 0 1).after_set1 (by decide)
    exact hk.reads _ (by decide) 0
  have hshelf : v.shelf = u.shelf := by rw [hv]; simp only [cite @set1_keeps, cite @evt_keeps]
  have hpage : pageCells .shelf (journalPg v 0x080 none .shelf 0 ident).regs = pageCells .shelf v.regs := by simp
  have hjs : (journalPg v 0x080 none .shelf 0 ident).shelf = v.shelf := by simp only [cite @journalPg_keeps]
  have hjp : (journalPg v 0x080 none .shelf 0 ident).pol = v.pol := by simp only [cite @journalPg_keeps]
  rw [heq]
  generalize journalPg v 0x080 none .shelf 0 ident = w at *
  refine ⟨?_, ?_, ?_, ?_⟩
  · exact (getF_of_pageCells (f := SHELF.STATUS_NODE_CLASH) hpage rfl (by decide) 0 0 0).trans hclash
  · show { w.shelf with next := some 3, bufs := [] } = _
    rw [hjs, hshelf]
  · exact (raised_of_page (t := modShelf w _) (s := v) hpage hjp 0 1).mpr hraised
  · exact (getF_of_pageCells (f := SHELF.RX_CNT) hpage rfl (by decide) 0 0 0).trans hrx

/-- A stranger is counted, and the first one raised (R423). -/
theorem stranger_shows (s : State) :
    Counted s (evtIf (get1 (rxCounted s) SHELF.STRANGER_CNT 0 == 0) (addCnt (rxCounted s) SHELF.STRANGER_CNT 0 0 1) .shelf 0 7) SHELF.RX_CNT 0 0 1 ∧
    Counted s (evtIf (get1 (rxCounted s) SHELF.STRANGER_CNT 0 == 0) (addCnt (rxCounted s) SHELF.STRANGER_CNT 0 0 1) .shelf 0 7) SHELF.STRANGER_CNT 0 0 1 ∧
    (get1 s SHELF.STRANGER_CNT 0 = 0 →
      Raised (evtIf (get1 (rxCounted s) SHELF.STRANGER_CNT 0 == 0) (addCnt (rxCounted s) SHELF.STRANGER_CNT 0 0 1) .shelf 0 7) .shelf 0 7) ∧
    evtIf (get1 (rxCounted s) SHELF.STRANGER_CNT 0 == 0) (addCnt (rxCounted s) SHELF.STRANGER_CNT 0 0 1) .shelf 0 7 =
      { s with regs := (evtIf (get1 (rxCounted s) SHELF.STRANGER_CNT 0 == 0) (addCnt (rxCounted s) SHELF.STRANGER_CNT 0 0 1) .shelf 0 7).regs } := by
  obtain ⟨hrx, hkeep, hunits⟩ := rxCounted_shows s
  have hst := hkeep.reads SHELF.STRANGER_CNT (by decide) 0
  generalize rxCounted s = u at *
  have hcnt := getF_addCnt_counter (f := SHELF.STRANGER_CNT) (k := 0) (by decide) rfl (by decide) u 0 1
  have hk : Keeps [SHELF.RX_CNT] u (addCnt u SHELF.STRANGER_CNT 0 0 1) := .addCnt (by decide) u 0 1
  have hke : ∀ c v, Keeps [SHELF.RX_CNT, SHELF.STRANGER_CNT] v (evtIf c v .shelf 0 7) := fun c v => .evtIf (by decide) c v .shelf 0 7
  refine ⟨?_, ?_, fun h0 => ?_, ?_⟩
  · exact ((hke _ _).reads SHELF.RX_CNT (by decide) 0).trans ((hk.reads SHELF.RX_CNT (by decide) 0).trans hrx)
  · exact ((hke _ _).reads SHELF.STRANGER_CNT (by decide) 0).trans (hcnt.trans (congrArg (fun y => satTo cntMax (y + 1)) hst))
  · rw [hst, h0]
    exact raised_evt (by decide) _ .shelf 0
  · have h1 := eq_of_onlyRegs (evtIf_keeps (get1 u SHELF.STRANGER_CNT 0 == 0) (addCnt u SHELF.STRANGER_CNT 0 0 1) .shelf 0 7)
    have h2 := eq_of_onlyRegs (addCnt_keeps u SHELF.STRANGER_CNT 0 0 1)
    rw [h1, h2, hunits]

end

/-! ### ELECT -/

/-- The cells that the report of the peers writes. -/
def peerFlds : List Fld := [SHELF.PEERS, SHELF.ACTIVE_NODE_NONE, SHELF.STATUS_DERIVED, SHELF.ACTIVE_NODE_ID]

theorem Keeps.publishPeers {fs : List Fld} (h : ∀ f ∈ peerFlds, fs.all (Fld.apart f 0 0) = true) (s : State) : Keeps fs s (publishPeers s) := by
  have hset : ∀ f ∈ peerFlds, ∀ v x, Keeps fs v (Machine.set1 v f 0 x) := fun f hf v x =>
    .set1 ⟨h f hf, (by decide : ∀ f ∈ peerFlds, Fld.apart f 0 0 (HDR.EVT f.page) = true) f hf⟩ v 0 x
  unfold Machine.publishPeers
  extract_lets ps claim best s1 s2
  have h2 : Keeps fs s s2 := ((hset _ (by decide) s _).trans (hset _ (by decide) s1 _)).trans (hset _ (by decide) _ _)
  clear_value s2 best
  cases best with
  | some q => exact h2.trans (hset _ (by decide) s2 _)
  | none => exact h2.trans (hset _ (by decide) s2 _)

theorem Keeps.evaluate (fs : List Fld) (s : State) : Keeps fs s (evaluate s) := by
  obtain ⟨x, hx⟩ := evaluate_eq s
  rw [hx]
  exact .modShelf ..

/-- A report of the peers and an evaluation leave the protocol's parts but the role to come. -/
theorem publishPeers_shelf (s : State) : (publishPeers s).shelf = s.shelf := by simp only [cite @publishPeers_keeps]

/-- What an ELECT makes of the present peers (R431, R432). -/
def electNoting (s : State) (n g : Nat) (p : List Nat) : State :=
  if g ≠ get1 s SHELF.CFG_GROUP 0 then s
  else if p.getD 1 0 = 2 then modShelf s fun u => { u with peers := s.shelf.peers.filter fun q => q.node != n }
  else evtIf (!s.shelf.peers.any fun q => q.node == n) (modShelf s fun u =>
    { u with peers := s.shelf.peers.filter (fun q => q.node != n) ++ [⟨n, s.frn, p.getD 1 0, p.getD 2 0 % 16, p.getD 3 0 % 8⟩] }) .shelf 0 5

/-- The group of the sender, noted. -/
def groupNoted (s : State) (n g : Nat) : State := modShelf s fun u => { u with groups := kvSet u.groups n g }

theorem electRx_eq (s : State) (n : Nat) (p : List Nat) : electRx s n p =
    publishPeers (evaluate (electNoting (groupNoted s n (p.getD 4 0 % 16)) n (p.getD 4 0 % 16) p)) := rfl

theorem electNoting_keeps {fs : List Fld} (h : fs.all (Fld.lowPlain · 0 0) = true) (s : State) (n g : Nat) (p : List Nat) :
    Keeps fs s (electNoting s n g p) :=
  .ite (.refl ..) (.ite (.modShelf ..) ((Keeps.modShelf ..).trans (.evtIf h ..)))

theorem electNoting_groups (s : State) (n g : Nat) (p : List Nat) : (electNoting s n g p).shelf.groups = s.shelf.groups := by
  unfold electNoting
  split
  · rfl
  · split
    · rfl
    · simp only [cite @evtIf_keeps]
      rfl

/-- The parts that an evaluation and a report leave. -/
theorem judged_part {α : Type} (f : ShelfU → α) (hf : ∀ u x, f { u with next := x } = f u) (s : State) :
    f (publishPeers (evaluate s)).shelf = f s.shelf := by
  obtain ⟨x, hx⟩ := evaluate_eq s
  rw [publishPeers_shelf, hx]
  exact hf s.shelf x

/-- What an ELECT comes to (R431, R432). -/
theorem electRx_shows (s : State) (n : Nat) (p : List Nat) : get1 (electRx s n p) SHELF.RX_CNT 0 = get1 s SHELF.RX_CNT 0 ∧
    kvGet (electRx s n p).shelf.groups n = some (p.getD 4 0 % 16) ∧
    (p.getD 4 0 % 16 ≠ get1 s SHELF.CFG_GROUP 0 → (electRx s n p).shelf.peers = s.shelf.peers) ∧
    (p.getD 4 0 % 16 = get1 s SHELF.CFG_GROUP 0 → p.getD 1 0 = 2 → (electRx s n p).shelf.peers = s.shelf.peers.filter fun q => q.node != n) ∧
    (p.getD 4 0 % 16 = get1 s SHELF.CFG_GROUP 0 → p.getD 1 0 ≠ 2 →
      (electRx s n p).shelf.peers = s.shelf.peers.filter (fun q => q.node != n) ++ [⟨n, s.frn, p.getD 1 0, p.getD 2 0 % 16, p.getD 3 0 % 8⟩] ∧
      ((∀ q ∈ s.shelf.peers, q.node ≠ n) → Raised (electRx s n p) .shelf 0 5)) := by
  obtain ⟨g, hg⟩ : ∃ g, g = p.getD 4 0 % 16 := ⟨_, rfl⟩
  obtain ⟨w, hw⟩ : ∃ w, w = electNoting (groupNoted s n g) n g p := ⟨_, rfl⟩
  have heq : electRx s n p = publishPeers (evaluate w) := by rw [electRx_eq, ← hg, hw]
  have hkeep : Keeps [SHELF.RX_CNT] s w := by
    rw [hw]
    exact (Keeps.modShelf ..).trans (electNoting_keeps (by decide) _ n g p)
  have hjudge : Keeps [SHELF.RX_CNT] w (publishPeers (evaluate w)) := (Keeps.evaluate ..).trans (.publishPeers (by decide) _)
  have hgroups : w.shelf.groups = kvSet s.shelf.groups n g := by rw [hw, electNoting_groups]; rfl
  have hpeers : (electRx s n p).shelf.peers = w.shelf.peers := by rw [heq]; exact judged_part ShelfU.peers (fun _ _ => rfl) w
  rw [← hg]
  refine ⟨?_, ?_, fun hne => ?_, fun hin hclaim => ?_, fun hin hclaim => ⟨?_, fun hnew => ?_⟩⟩
  · rw [heq]
    exact (hkeep.trans hjudge).reads _ (by decide) 0
  · rw [heq, judged_part ShelfU.groups (fun _ _ => rfl) w, hgroups]
    exact kvGet_kvSet_same ..
  · rw [hpeers, hw, show electNoting (groupNoted s n g) n g p = groupNoted s n g from if_pos hne]
    rfl
  · rw [hpeers, hw, show electNoting (groupNoted s n g) n g p = _ from (if_neg (not_not.mpr hin)).trans (if_pos hclaim)]
    rfl
  · rw [hpeers, hw, show electNoting (groupNoted s n g) n g p = _ from (if_neg (not_not.mpr hin)).trans (if_neg hclaim)]
    simp only [cite @evtIf_keeps]
    rfl
  · have hany : (s.shelf.peers.any fun q => q.node == n) = false := by
      simpa [List.any_eq_false] using hnew
    have hraised : Raised w .shelf 0 5 := by
      rw [hw, show electNoting (groupNoted s n g) n g p = _ from (if_neg (not_not.mpr hin)).trans (if_neg hclaim)]
      rw [show ((groupNoted s n g).shelf.peers.any fun q => q.node == n) = false from hany]
      exact raised_evt (by decide) _ .shelf 0
    rw [heq]
    exact hjudge.raised .shelf 0 5 (by decide) (by decide) hraised

/-! ### A forwarded QL -/

/-- A forwarded QL goes to the channels of its node (R427). -/
theorem qlFwd_shows {s : State} (hrun : leafRuns s = true) (n d cyc ssm e : Nat) :
    get1 (deliverQl (qlDomNoted s n d) cyc 3 n ssm (some e)) SHELF.RX_CNT 0 = get1 s SHELF.RX_CNT 0 ∧
    kvGet (deliverQl (qlDomNoted s n d) cyc 3 n ssm (some e)).shelf.qlDoms n = some d ∧
    (s.gate.queue.length + (qlChans s 3 n).length ≤ 256 → (deliverQl (qlDomNoted s n d) cyc 3 n ssm (some e)).gate.queue =
      s.gate.queue ++ (qlChans s 3 n).map fun c => (dueOf s cyc, GateCall.ql c 3 n ssm (some e) (some c == (qlChans s 3 n).head?))) := by
  have hpage := deliverQl_pg (pq := .shelf) (qlDomNoted s n d) cyc 3 n ssm (some e) (by decide)
  refine ⟨getF_of_pageCells (f := SHELF.RX_CNT) hpage rfl (by decide) 0 0 0, ?_, fun hroom =>
    deliverQl_queue (s := qlDomNoted s n d) hrun (by decide) hroom⟩
  rw [show (deliverQl (qlDomNoted s n d) cyc 3 n ssm (some e)).shelf = (qlDomNoted s n d).shelf by simp only [cite @deliverQl_keeps]]
  exact kvGet_kvSet_same ..

/-! ### TOD -/

/-- The active node's second, limited to what PEER_TOD shows. -/
def todDiff (s : State) (p : List Nat) : Int :=
  let x : Int := (beAt p 0 6 : Int) - timeSec (timeOf s 0).t
  if x > 127 then 127 else if x < -127 then -127 else x

/-- The active node's second gives PEER_TOD (R428). -/
theorem todRx_shows (s : State) (n : Nat) (p : List Nat) : get1 (todRx s n p) SHELF.RX_CNT 0 = get1 s SHELF.RX_CNT 0 ∧
    (todRx s n p).shelf = s.shelf ∧
    (get1 s SHELF.ACTIVE_NODE_NONE 0 ≠ 1 ∧ get1 s SHELF.ACTIVE_NODE_ID 0 = n → get1 (todRx s n p) SHELF.PEER_TOD_VALID 0 = 1 ∧
      get1 (todRx s n p) SHELF.PEER_TOD_DIFF 0 = ofSigned 8 (todDiff s p) % 2 ^ 8) ∧
    (¬ (get1 s SHELF.ACTIVE_NODE_NONE 0 ≠ 1 ∧ get1 s SHELF.ACTIVE_NODE_ID 0 = n) → todRx s n p = s) := by
  have hactive : ¬ (get1 s SHELF.ACTIVE_NODE_NONE 0 ≠ 1 ∧ get1 s SHELF.ACTIVE_NODE_ID 0 = n) ↔
      (bit1 s SHELF.ACTIVE_NODE_NONE 0 || get1 s SHELF.ACTIVE_NODE_ID 0 != n) = true := by
    simp only [bit1, Bool.or_eq_true, beq_iff_eq, bne_iff_ne]
    tauto
  have hset : todRx s n p = if (bit1 s SHELF.ACTIVE_NODE_NONE 0 || get1 s SHELF.ACTIVE_NODE_ID 0 != n) = true then s
      else set1 (set1 s SHELF.PEER_TOD_DIFF 0 (ofSigned 8 (todDiff s p))) SHELF.PEER_TOD_VALID 0 1 := rfl
  have hk : Keeps [SHELF.RX_CNT] s (todRx s n p) := by
    rw [hset]
    exact .ite (.refl ..) ((Keeps.set1 (by decide) s 0 _).after_set1 (by decide))
  refine ⟨hk.reads _ (by decide) 0, by simp only [cite @todRx_keeps], fun h => ?_, fun h => ?_⟩
  · rw [hset, if_neg (mt hactive.mpr (not_not.mpr h))]
    exact ⟨get1_set1_same _ _ _ _ (by decide), (getF_setF_place (f := SHELF.PEER_TOD_VALID) (g := SHELF.PEER_TOD_DIFF) rfl (by decide) _ 0 1).trans
      (get1_set1_same _ _ _ _ (by decide))⟩
  · rw [hset, if_pos (hactive.mp h)]

/-! ### Remote reads -/

theorem Keeps.sendResp {fs : List Fld} (h : fs.all lateFree = true) (hr : fs.all (Fld.apart SHELF.REMOTE_CNT 0 0) = true) (s : State)
    (node tag res : Nat) (words : List Nat) : Keeps fs s (sendResp s node tag res words) := by
  have hplain : fs.all (Fld.lowPlain · 0 0) = true := by
    simp only [List.all_eq_true, lateFree, Bool.and_eq_true] at h ⊢
    exact fun g hg => (h g hg).2
  exact .ite ((Keeps.addCnt ⟨⟨hr, by decide⟩, hplain⟩ s 0 1).trans (.loadBuf h ..)) (.refl ..)

/-- A remote read's answer, where the module may send (R429). -/
theorem sendResp_shows (s : State) (node tag res : Nat) (words : List Nat) :
    BufsOnly s.shelf (sendResp s node tag res words).shelf ∧
    (maySend s = true → Counted s (sendResp s node tag res words) SHELF.REMOTE_CNT 0 0 1 ∧
      Sent (sendResp s node tag res words) 6 (respBytes node tag res words)) ∧
    (maySend s = false → sendResp s node tag res words = s) := by
  have hstay : maySend s = false → sendResp s node tag res words = s := fun h => if_neg (by simp [h])
  cases hmay : maySend s with
  | false => exact ⟨by rw [hstay hmay]; exact .refl _, nofun, fun _ => hstay hmay⟩
  | true =>
    have heq : sendResp s node tag res words = loadBuf (addCnt s SHELF.REMOTE_CNT 0 0 1) 6 (respBytes node tag res words) := if_pos hmay
    have hcnt := getF_addCnt_counter (f := SHELF.REMOTE_CNT) (k := 0) (by decide) rfl (by decide) s 0 1
    have hshelf : (addCnt s SHELF.REMOTE_CNT 0 0 1).shelf = s.shelf := by simp only [cite @addCnt_keeps]
    rw [heq]
    generalize addCnt s SHELF.REMOTE_CNT 0 0 1 = v at *
    obtain ⟨hsent, honly⟩ := loadBuf_shows v 6 (respBytes node tag res words)
    have hk : Keeps [SHELF.REMOTE_CNT] v (loadBuf v 6 (respBytes node tag res words)) := .loadBuf (by decide) ..
    exact ⟨hshelf ▸ honly, fun _ => ⟨(hk.reads _ (by decide) 0).trans hcnt, hsent⟩, nofun⟩

theorem maySend_congr {s t : State} (hk : Keeps rxFlds s t) (hp : t.pol = s.pol) (hm : t.shelf.mute = s.shelf.mute) : maySend t = maySend s := by
  unfold maySend roleOf bit1
  have hen : get1 t SHELF.CFG_EN 0 = get1 s SHELF.CFG_EN 0 := getF_lk (f := SHELF.CFG_EN) rfl hp 0 0 0
  rw [hen, hk.reads SHELF.STATUS_ROLE (by decide), hk.reads SHELF.STATUS_NODE_CLASH (by decide), hm]

/-- A remote read that arrives (R429). -/
theorem regReqRx_shows (s : State) (n : Nat) (p : List Nat) : get1 (regReqRx s n p) SHELF.RX_CNT 0 = get1 s SHELF.RX_CNT 0 ∧
    (p.getD 0 0 ≠ nodeOf s → (regReqRx s n p).shelf = s.shelf) ∧
    (p.getD 0 0 = nodeOf s → get1 s SHELF.CFG_REMOTE_EN 0 = 0 → (regReqRx s n p).shelf = s.shelf ∧
      Counted s (regReqRx s n p) SHELF.REMOTE_DENIED_CNT 0 0 1) ∧
    (p.getD 0 0 = nodeOf s → get1 s SHELF.CFG_REMOTE_EN 0 ≠ 0 → s.shelf.reqs.length < 4 →
      (regReqRx s n p).shelf.reqs = s.shelf.reqs ++ [⟨n, p.getD 1 0, p.getD 2 0, beAt p 3 3⟩]) ∧
    (p.getD 0 0 = nodeOf s → get1 s SHELF.CFG_REMOTE_EN 0 ≠ 0 → 4 ≤ s.shelf.reqs.length → (regReqRx s n p).shelf.reqs = s.shelf.reqs ∧
      (maySend s = true → Counted s (regReqRx s n p) SHELF.REMOTE_CNT 0 0 1 ∧
        Sent (regReqRx s n p) 6 (respBytes n (p.getD 1 0) 7 []))) := by
  have hk : Keeps [SHELF.RX_CNT] s (regReqRx s n p) :=
    .ite (.refl ..) (.ite (.addCnt (by decide) s 0 1) (.ite (.sendResp (by decide) (by decide) ..) (.modShelf ..)))
  refine ⟨hk.reads _ (by decide) 0, fun h => ?_, fun h hen => ?_, fun h hen hroom => ?_, fun h hen hfull => ?_⟩
  · rw [show regReqRx s n p = s from if_pos h]
  · rw [show regReqRx s n p = addCnt s SHELF.REMOTE_DENIED_CNT 0 0 1 from (if_neg (not_not.mpr h)).trans (if_pos hen)]
    exact ⟨by simp only [cite @addCnt_keeps], getF_addCnt_counter (f := SHELF.REMOTE_DENIED_CNT) (k := 0) (by decide) rfl (by decide) s 0 1⟩
  · rw [show regReqRx s n p = modShelf s fun u => { u with reqs := u.reqs ++ [⟨n, p.getD 1 0, p.getD 2 0, beAt p 3 3⟩] } from
      ((if_neg (not_not.mpr h)).trans (if_neg hen)).trans (if_neg (by omega))]
    rfl
  · rw [show regReqRx s n p = sendResp s n (p.getD 1 0) 7 [] from ((if_neg (not_not.mpr h)).trans (if_neg hen)).trans (if_pos hfull)]
    obtain ⟨honly, hsent, -⟩ := sendResp_shows s n (p.getD 1 0) 7 []
    exact ⟨honly.part ShelfU.reqs fun _ _ _ => rfl, hsent⟩

/-- A read by the shelf bus changes its shadow alone of the protocol. -/
def ShadowOnly (s t : State) : Prop := ∃ x, t.shelf = { s.shelf with shadow := x }

theorem ShadowOnly.of_shelf {s t : State} (h : t.shelf = s.shelf) : ShadowOnly s t := ⟨s.shelf.shadow, h⟩

theorem ShadowOnly.trans {s t u : State} (h : ShadowOnly s t) (g : ShadowOnly t u) : ShadowOnly s u := by
  obtain ⟨x, hx⟩ := h
  obtain ⟨y, hy⟩ := g
  exact ⟨y, by rw [hy, hx]⟩

theorem latchNow_shadow (s : State) (d : Nat) : ShadowOnly s (latchNow s .shelf d).2 := by
  have hshelf : (nowTime s d).2.shelf = s.shelf := by simp only [cite @nowTime_keeps]
  unfold latchNow
  extract_lets x
  refine ShadowOnly.trans (t := x.2) (.of_shelf hshelf) ⟨_, rfl⟩

theorem readPage_shadow (s : State) (q : Nat) (p : Page) (n off : Nat) : ShadowOnly s (readPage s .shelf q p n off).2 := by
  unfold readPage
  dsimp only
  split
  · exact latchNow_shadow s n
  · dsimp only
    split
    · exact ⟨_, rfl⟩
    · split
      · exact ⟨_, rfl⟩
      · exact .of_shelf rfl

theorem readValue_shadow (s : State) (q a : Nat) : ShadowOnly s (readValue s .shelf q a).2 := by
  unfold readValue
  split
  case h_1 => exact readPage_shadow ..
  all_goals exact .of_shelf rfl

theorem readRegs_shadow (a n : Nat) (s : State) : ShadowOnly s (readRegs .shelf a n s).2 := by
  induction n generalizing a s with
  | zero => exact .of_shelf rfl
  | succ n ih =>
    unfold readRegs
    extract_lets y x r
    have hx : ShadowOnly s x.2 := by
      unfold x
      split
      · exact .of_shelf rfl
      · split
        · exact .of_shelf rfl
        · exact readValue_shadow ..
    exact hx.trans (ih ..)

theorem readRegs_length (v : Via) (a n : Nat) (s : State) : (readRegs v a n s).1.length = n := by
  induction n generalizing a s with
  | zero => rfl
  | succ n ih =>
    unfold readRegs
    extract_lets y x r
    exact congrArg (· + 1) (ih ..)

/-- The result and the words of a remote read that is answered, and the state that has read them (R429, Table 13.4). -/
def respOf (s : State) (r : RegReq) : Nat × List Nat × State :=
  if r.count = 0 ∨ 15 < r.count then (6, [], s)
  else if r.addr % 4 ≠ 0 then (5, [], s)
  else (((readRegs .shelf r.addr r.count s).1.map fun y => y.2).foldl max 0, (readRegs .shelf r.addr r.count s).1.map fun y => y.1,
    (readRegs .shelf r.addr r.count s).2)

theorem regResp_eq (s : State) (r : RegReq) : regResp s r = sendResp (respOf s r).2.2 r.node r.tag (respOf s r).1 (respOf s r).2.1 := by
  unfold regResp respOf
  split
  · rfl
  · split <;> rfl

theorem respOf_shadow (s : State) (r : RegReq) : ShadowOnly s (respOf s r).2.2 ∧ (respOf s r).2.2.regs = s.regs ∧ (respOf s r).2.2.pol = s.pol := by
  unfold respOf
  split
  · exact ⟨.of_shelf rfl, rfl, rfl⟩
  · split
    · exact ⟨.of_shelf rfl, rfl, rfl⟩
    · exact ⟨readRegs_shadow .., by simp only [cite @readRegs_keeps], by simp only [cite @readRegs_keeps]⟩

/-- The oldest remote read is answered, where the module may send (R429). -/
theorem regResp_shows (s : State) (r : RegReq) : (regResp s r).shelf.reqs = s.shelf.reqs ∧
    (maySend s = true → Counted s (regResp s r) SHELF.REMOTE_CNT 0 0 1 ∧
      Sent (regResp s r) 6 (respBytes r.node r.tag (respOf s r).1 (respOf s r).2.1)) ∧
    (maySend s = false → (regResp s r).shelf.bufs = s.shelf.bufs ∧ (regResp s r).shelf.onBus = s.shelf.onBus ∧
      get1 (regResp s r) SHELF.REMOTE_CNT 0 = get1 s SHELF.REMOTE_CNT 0) := by
  obtain ⟨⟨x, hx⟩, hregs, hpol⟩ := respOf_shadow s r
  have hk : Keeps rxFlds s (respOf s r).2.2 := .of_units hregs hpol
  have hmay : maySend (respOf s r).2.2 = maySend s := maySend_congr hk hpol (by rw [hx])
  obtain ⟨honly, hsent, hstay⟩ := sendResp_shows (respOf s r).2.2 r.node r.tag (respOf s r).1 (respOf s r).2.1
  have hcnt := hk.reads SHELF.REMOTE_CNT (by decide) 0
  rw [regResp_eq, ← hmay]
  refine ⟨(honly.part ShelfU.reqs fun _ _ _ => rfl).trans (by rw [hx]), fun h => ?_, fun h => ?_⟩
  · obtain ⟨h1, h2⟩ := hsent h
    exact ⟨h1.trans (congrArg (fun y => satTo cntMax (y + 1)) hcnt), h2⟩
  · rw [hstay h]
    exact ⟨by rw [hx], by rw [hx], hcnt⟩

/-! ### A lapsed peer -/

/-- A peer has left (R431). -/
def peerLeft (s : State) (n : Nat) : State := evt (publishPeers (modShelf s fun u => { u with peers := u.peers.filter fun p => p.node != n })) .shelf 0 4

theorem peerLapse_eq (s : State) (n : Nat) : peerLapse s n = evaluate (sendAlert (peerLeft s n) 6 0 0 n) := rfl

theorem peerLeft_shelf (s : State) (n : Nat) : (peerLeft s n).shelf = { s.shelf with peers := s.shelf.peers.filter fun p => p.node != n } := by
  simp only [peerLeft, cite @evt_keeps, cite @publishPeers_keeps]
  rfl

theorem peerLeft_maySend (s : State) (n : Nat) : maySend (peerLeft s n) = maySend s ∧ leafRuns (peerLeft s n) = leafRuns s := by
  have hk : Keeps [SHELF.STATUS_ROLE, SHELF.STATUS_NODE_CLASH, ROOT.STATUS_LEAF] s (peerLeft s n) :=
    ((Keeps.modShelf ..).trans (.publishPeers (by decide) _)).after_evt (by decide)
  have hpol : (peerLeft s n).pol = s.pol := by
    simp only [peerLeft, cite @evt_keeps, cite @publishPeers_keeps]
    rfl
  have hen : get1 (peerLeft s n) SHELF.CFG_EN 0 = get1 s SHELF.CFG_EN 0 := getF_lk (f := SHELF.CFG_EN) rfl hpol 0 0 0
  refine ⟨?_, ?_⟩
  · unfold maySend roleOf bit1
    rw [hen, hk.reads SHELF.STATUS_ROLE (by decide), hk.reads SHELF.STATUS_NODE_CLASH (by decide), peerLeft_shelf]
  · unfold leafRuns
    rw [hk.reads ROOT.STATUS_LEAF (by decide)]

theorem Raised.loadBuf {s : State} {bit : Nat} (h : Raised s .shelf 0 bit) (hb : bit < 32) (ty : Nat) (p : List Nat) : Raised (loadBuf s ty p) .shelf 0 bit :=
  (Keeps.loadBuf (fs := []) rfl s ty p).raised .shelf 0 bit (by decide) hb h

theorem sendAlert_raised {s : State} {bit : Nat} (h : Raised s .shelf 0 bit) (hb : bit < 32) (k p d x : Nat) :
    Raised (sendAlert s k p d x) .shelf 0 bit := by
  have hq : ∀ build, Raised (shelfQueue s 0 build) .shelf 0 bit := fun build => by
    unfold shelfQueue
    split
    · exact h
    · exact Raised.loadBuf (s := seqTaken s 0) h hb 0 _
  unfold sendAlert
  split
  · exact h
  · exact hq _

theorem sendAlert_peers (s : State) (k p d x : Nat) : (sendAlert s k p d x).shelf.peers = s.shelf.peers := by
  by_cases hbit : bitOf (get1 s SHELF.TX_CFG_ALERT_MASK 0) k = true
  · by_cases hmay : MaySend s
    · rw [show sendAlert s k p d x = shelfQueue s 0 fun q => [q, k, p + 16 * d, 0] ++ beBytes x 4 from if_neg (by simp [hbit])]
      exact (shelfQueue_sends hmay 0 _).2.part ShelfU.peers fun _ _ _ => rfl
    · rw [sendAlert_stays (.inr hmay)]
  · rw [sendAlert_stays (.inl (by simpa using hbit))]

/-- A peer whose presence lapses leaves, is raised and, by its mask bit, alerted (R431, R434). -/
theorem peerLapse_shows {s : State} (hrun : leafRuns s = true) (n : Nat) :
    (peerLapse s n).shelf.peers = s.shelf.peers.filter (fun q => q.node != n) ∧ Raised (peerLapse s n) .shelf 0 4 ∧
    (bitOf (get1 s SHELF.TX_CFG_ALERT_MASK 0) 6 = true → maySend s = true →
      Sent (peerLapse s n) 0 ([s.shelf.seqs.getD 0 0, 6, 0, 0] ++ beBytes n 4)) := by
  obtain ⟨hmay, hleaf⟩ := peerLeft_maySend s n
  have hshelf := peerLeft_shelf s n
  have hmask : get1 (peerLeft s n) SHELF.TX_CFG_ALERT_MASK 0 = get1 s SHELF.TX_CFG_ALERT_MASK 0 := by
    refine getF_lk (f := SHELF.TX_CFG_ALERT_MASK) rfl ?_ 0 0 0
    simp only [peerLeft, cite @evt_keeps, cite @publishPeers_keeps]
    rfl
  have hraised : Raised (peerLeft s n) .shelf 0 4 := raised_evt (by decide) _ .shelf 0
  rw [peerLapse_eq]
  generalize peerLeft s n = v at *
  obtain ⟨x, hx⟩ := evaluate_eq (sendAlert v 6 0 0 n)
  rw [hx]
  refine ⟨?_, sendAlert_raised hraised (by decide) 6 0 0 n, fun hbit hs => ?_⟩
  · show (sendAlert v 6 0 0 n).shelf.peers = _
    rw [sendAlert_peers, hshelf]
  · have hsent := sendAlert_sends (s := v) ⟨hleaf.trans hrun, hmay.trans hs⟩ (k := 6) (by rw [hmask]; exact hbit) 0 0 n
    rw [hshelf] at hsent
    exact hsent

/-! ### Leaf's reads -/

theorem gateRegRead_shows {s : State} (hrun : leafRuns s = true) {a n : Nat} (ha : a % 4 = 0) (hn : a + 4 * n ≤ 0x100000) :
    (gateRegRead s a n).gate.res = 0 ∧ (gateRegRead s a n).gate.data = (readRegs .leaf a n s).1.map fun y => y.1 := by
  have heq : gateRegRead s a n = { (readRegs .leaf a n s).2 with
      gate := { (gateRes (readRegs .leaf a n s).2 0).gate with data := (readRegs .leaf a n s).1.map fun y => y.1 } } :=
    (if_neg (by simp [hrun])).trans (if_neg (by omega))
  rw [heq]
  exact ⟨rfl, rfl⟩

/-! ### The declaration -/

/-- Each command that brings a frame runs it. -/
theorem bringsFrame_exec {s : State} {i : Instr} {f : CanFrame} (h : BringsFrame i f) : ∃ cyc, exec i s = .next (shelfRx s f cyc) := by
  obtain ⟨hok, ⟨rfl, ht⟩ | ⟨cyc, hc, rfl, ht⟩ | ⟨rfl, ht⟩ | ⟨rfl, ht⟩ | ⟨rfl, hu⟩⟩ := h
  · exact ⟨0, if_pos ⟨hok, ht⟩⟩
  · exact ⟨cyc, if_pos ⟨hok, ht, hc⟩⟩
  · exact ⟨0, if_pos ⟨hok, ht⟩⟩
  · exact ⟨0, if_pos ⟨hok, ht⟩⟩
  · exact ⟨0, (if_pos hok).trans (if_pos hu)⟩

/-- Settles O60: every frame passes the same checks, each counted, and a valid one acts by its type; remote reads and lapsed peers are
shown by their lemmas. -/
theorem shelfReceive : Obligations.ShelfReceive := by
  intro s _
  obtain ⟨hrx, hkeep, hunits⟩ := rxCounted_shows s
  have hshelf : (rxCounted s).shelf = s.shelf := by rw [hunits]
  have hgate : (rxCounted s).gate = s.gate := by rw [hunits]
  have hpol : (rxCounted s).pol = s.pol := by rw [hunits]
  have hfrn : (rxCounted s).frn = s.frn := by rw [hunits]
  have hleaf : leafRuns (rxCounted s) = leafRuns s := leafRuns_of_page (addCnt_pg _ _ _ _ _ (by decide))
  refine ⟨fun i f hi => ?_, fun f hok hu => (if_pos hok).trans (if_neg (by simp [hu])), fun f h => ⟨fun ht => ⟨_, if_pos ⟨h.1, ht⟩, ?_⟩,
      fun cyc ht hc => ⟨_, if_pos ⟨h.1, ht, hc⟩, ?_⟩, fun ht => ⟨_, if_pos ⟨h.1, ht⟩, ?_⟩, fun ht => ⟨_, if_pos ⟨h.1, ht⟩, ?_⟩⟩,
    fun h => ?_, fun r l h => ?_, fun n hn => ⟨fun hrun hq => ⟨peerLapse s n, (if_pos hn).trans (if_pos ?_), peerLapse_shows hrun n⟩,
      fun h => (if_pos hn).trans (if_neg ?_)⟩, fun a n => ⟨fun hrun => congrArg Host.Outcome.next (if_pos (by simp [hrun])), fun hrun ha hn => ?_,
      fun hrun hno => ⟨_, rfl, ?_⟩⟩⟩
  · obtain ⟨cyc, hexec⟩ := bringsFrame_exec (s := s) hi
    refine ⟨fun hoff => hexec.trans (congrArg Host.Outcome.next (shelfRx_deaf hoff)), fun hon hu => ⟨_, hexec, ?_⟩,
      fun hon hu hn => ⟨_, hexec, ?_⟩, fun hon hu hn hr => ⟨_, hexec, ?_⟩⟩
    · rw [shelfRx_unknown hon hu]
      exact ⟨getF_addCnt_counter (f := SHELF.UNKNOWN_CNT) (k := 0) (by decide) rfl (by decide) s 0 1, eq_of_onlyRegs (addCnt_keeps ..)⟩
    · obtain ⟨hclash, hsh, hraised, hcnt⟩ := nodeClash_shows (rxCounted s) f.ident
      rw [shelfRx_clash hon hu hn]
      exact ⟨counted_of_keeps hrx hcnt, hclash, by rw [hsh, hshelf], hraised⟩
    · rw [shelfRx_stranger hon hu hn hr]
      exact stranger_shows s
  · obtain ⟨hcnt, hgroup, hother, hgone, hin⟩ := electRx_shows (rxCounted s) (canNode f) f.payload
    have hcfg : get1 (rxCounted s) SHELF.CFG_GROUP 0 = get1 s SHELF.CFG_GROUP 0 := getF_lk (f := SHELF.CFG_GROUP) rfl hpol 0 0 0
    rw [(shelfRx_valid h).1 ht]
    rw [hcfg, hshelf] at hother hgone hin
    rw [hfrn] at hin
    exact ⟨counted_of_keeps hrx hcnt, hgroup, hother, hgone, hin⟩
  · obtain ⟨hcnt, hdom, hqueue⟩ := qlFwd_shows (hleaf.trans h.2.2.1) (canNode f) (f.payload.getD 3 0 % 4) cyc (f.payload.getD 1 0 % 16) (f.payload.getD 2 0)
    have hcs : qlChans (rxCounted s) 3 (canNode f) =
        (List.range 12).filter fun c => qlSrc s c == 3 && polVal s.pol CHAN.QL_NODE c 0 0 == canNode f := by
      unfold qlChans qlSrc
      rw [hpol]
      rfl
    have hdue : dueOf (rxCounted s) cyc = dueOf s cyc := dueOf_congr (by rw [hunits]; exact ⟨rfl, rfl⟩) cyc
    rw [(shelfRx_valid h).2.1 ht]
    rw [hcs, hgate, hdue] at hqueue
    exact ⟨counted_of_keeps hrx hcnt, hdom, hqueue⟩
  · obtain ⟨hcnt, hsh, hyes, hno⟩ := todRx_shows (rxCounted s) (canNode f) f.payload
    have hdiff : todDiff (rxCounted s) f.payload = todDiff s f.payload := by rw [hunits]; rfl
    rw [(shelfRx_valid h).2.2.1 ht]
    rw [hkeep.reads SHELF.ACTIVE_NODE_NONE (by decide), hkeep.reads SHELF.ACTIVE_NODE_ID (by decide)] at hyes hno
    rw [hdiff] at hyes
    refine ⟨counted_of_keeps hrx hcnt, hsh.trans hshelf, hyes, fun hna => ?_⟩
    rw [hno hna]
    exact ⟨hkeep.reads _ (by decide) 0, hkeep.reads _ (by decide) 0⟩
  · obtain ⟨hcnt, hother, hdenied, hheld, hover⟩ := regReqRx_shows (rxCounted s) (canNode f) f.payload
    have hremote : get1 (rxCounted s) SHELF.CFG_REMOTE_EN 0 = get1 s SHELF.CFG_REMOTE_EN 0 := getF_lk (f := SHELF.CFG_REMOTE_EN) rfl hpol 0 0 0
    have hmay : maySend (rxCounted s) = maySend s := maySend_congr hkeep hpol (by rw [hshelf])
    rw [(shelfRx_valid h).2.2.2 ht]
    rw [nodeOf_rxCounted, hshelf] at hother hdenied hheld hover
    rw [hremote] at hdenied hheld hover
    rw [hmay] at hover
    refine ⟨counted_of_keeps hrx hcnt, hother, fun hm hna => ⟨(hdenied hm (not_not.mp hna)).1, ?_⟩, hheld, fun hm ha hl => ⟨(hover hm ha hl).1, fun hs => ?_⟩⟩
    · exact (hdenied hm (not_not.mp hna)).2.trans (congrArg (fun y => satTo cntMax (y + 1)) (hkeep.reads SHELF.REMOTE_DENIED_CNT (by decide) 0))
    · obtain ⟨h1, h2⟩ := (hover hm ha hl).2 hs
      exact ⟨h1.trans (congrArg (fun y => satTo cntMax (y + 1)) (hkeep.reads SHELF.REMOTE_CNT (by decide) 0)), h2⟩
  · have hexec : exec .regResp s = execRegResp s := rfl
    rw [hexec]
    unfold execRegResp
    rw [h]
  · have hexec : exec .regResp s = execRegResp s := rfl
    obtain ⟨hreqs, hsent, hstay⟩ := regResp_shows (modShelf s fun u => { u with reqs := l }) r
    rw [maySend_modShelf s (f := fun u => { u with reqs := l }) fun _ => rfl] at hsent hstay
    refine ⟨regResp (modShelf s fun u => { u with reqs := l }) r, ?_, hreqs, fun hm => ?_, hstay⟩
    · rw [hexec]
      unfold execRegResp
      rw [h]
    · obtain ⟨hcnt, hs⟩ := hsent hm
      refine ⟨hcnt, fun hbad => ?_, fun h0 h15 haddr => ?_, fun h0 h15 haddr => ?_⟩
      · rwa [show respOf (modShelf s fun u => { u with reqs := l }) r = _ from if_pos hbad] at hs
      · rwa [show respOf (modShelf s fun u => { u with reqs := l }) r = _ from (if_neg (by omega)).trans (if_pos haddr)] at hs
      · rwa [show respOf (modShelf s fun u => { u with reqs := l }) r = _ from (if_neg (by omega)).trans (if_neg (not_not.mpr haddr))] at hs
  · obtain ⟨q, hq, hqn⟩ := hq
    simp only [hrun, Bool.true_and, List.any_eq_true, beq_iff_eq]
    exact ⟨q, hq, hqn⟩
  · simp only [Bool.and_eq_true, List.any_eq_true, beq_iff_eq, not_and, not_exists]
    rcases h with h | h
    · exact fun hrun => absurd hrun (by simp [h])
    · exact fun _ q hq hqn => h q hq hqn
  · obtain ⟨hres, hdata⟩ := gateRegRead_shows hrun ha hn
    exact ⟨_, rfl, hres, by rw [hdata, List.length_map, readRegs_length], hdata⟩
  · rw [show gateRegRead s a n = gateRefuse s 0x07 3 from (if_neg (by simp [hrun])).trans (if_pos hno.symm)]
    exact ⟨gateRefuse_refused s (by decide) (by decide), by simp only [cite @gateRefuse_keeps]⟩

end Sys2Proof.Machine
